-- ==== Sys2Proof/Word.lean ====
section
/-!
DEFINITION. The words of the K24: a register is 32 bits (R5), a byte 8.
-/

namespace Sys2Proof

/-- A register's contents (R5). -/
abbrev Word := BitVec 32

/-- A byte. -/
abbrev Byte := BitVec 8

end Sys2Proof
end

