-- ==== Sys2Proof/Syntax.lean ====
section
/-!
DEFINITION. The commands of the K24: one constructor per row of the command table. A row that is a register write or read
carries the path it comes from; an event of the world carries what the world decides (a link's state, a drive's answer, an
error found); a row of an engine names what it acts on by the model's own number of it.
-/

namespace Sys2Proof

/-- The access path by which a register access or an Inventory load comes (R64, R693): INV_STATUS.OPEN_PATH numbers
them 1 to 4 in this order. -/
inductive Path where
  | mgmt | smbus0 | smbus1 | wardens
  deriving DecidableEq, Repr

/-- How a drive command ended, as its completion entry or the link says (Table 14-6). -/
inductive DriveOutcome where
  /-- Success. -/
  | success
  /-- An NVMe status that is retried once: DNR 0, a media error on a read, a write fault or another error on a write. -/
  | status
  /-- Completion timeout or poisoned data on the link: no completion entry was received. -/
  | link
  /-- Reservation conflict. -/
  | conflict
  /-- Another status with DNR 1. -/
  | dnr
  /-- No outcome of a command: a correctable error of the link (R557). -/
  | corrected
  /-- No outcome of a command: a request of the drive outside the addresses given it (R556). -/
  | stray
  deriving DecidableEq, Repr

/-- One sub-channel's reported means of 1,000 samples, with the sum of its positive products of output voltage, current and
1 us in 1/1,000,000 of 1 uJ (R592, R593). -/
structure TelSample where
  channel : Nat
  sub : Nat
  vout : Nat
  vin : Nat
  cur : Int
  pow : Int
  energy : Nat
  deriving DecidableEq, Repr

/-- The alarm causes (R487, Table 11-8). -/
inductive AlarmCause where
  | voltage | clock | temperature | inventory | tamper | lid | zeroise
  deriving DecidableEq, Repr

/-- An MSI-X write of a drive: its vector, and the completion entries its queues hold then, as the drive commands that have
ended and how (R564). -/
structure MsixWrite where
  vector : Nat
  entries : List (Nat × DriveOutcome)
  deriving DecidableEq, Repr

/-- A drive found in a bay: the one that was there before, or another, formatted, of so many blocks (R565). -/
structure Insertion where
  bay : Nat
  other : Option Nat
  deriving DecidableEq, Repr

/-- A drive's link going down, by a fatal error or not (R557, R568). -/
structure LinkLoss where
  bay : Nat
  fatal : Bool
  deriving DecidableEq, Repr

/-- A turn of a sub-port's transmitter: the frame on the wire leaves whole, or so many bytes of it have left by now (R510,
R544). -/
structure WireTurn where
  sp : Nat
  sent : Option Nat
  deriving DecidableEq, Repr

/-- The (member, row) whose drive reads and whose drive writes fail twice (R367). -/
structure MediaErrors where
  reads : List (Nat × Nat)
  writes : List (Nat × Nat)
  deriving DecidableEq, Repr

/-- How a checkpoint copy is found not valid (R350): a block that cannot be read, a trailer whose guard or whose tag fails, or a
header and seal that disagree or a seal CRC that does not match. -/
inductive CopyFault where
  | unread
  | guard
  | tag
  | seal
  deriving DecidableEq, Repr

/-- What a read of a granule meets (R108): so many of its 32 data and 4 check bytes erroneous, or the wrong location. -/
inductive GranuleFault where
  | bytes (n : Nat) | location
  deriving DecidableEq, Repr

/-- A command: a row of the command table with its operands. -/
inductive Instr where
  | registerWrite (path : Path) (addr : Nat) (value : Word)
  | counterLowRead (path : Path) (addr : Nat)
  | pairLowWrite (path : Path) (addr : Nat) (value : Word)
  | pairHighWrite (path : Path) (addr : Nat) (value : Word)
  | rcFieldRead (path : Path) (addr : Nat)
  | loadOpen (path : Path)
  | invDataWrite (path : Path) (value : Word)
  | commitFull (path : Path)
  | commitPartial (path : Path)
  | abortLoad (path : Path)
  | loadIdleTimeout
  | keyProgram (path : Path) (slot : Nat)
  | raiseFloor (path : Path)
  | keyslotRevoke (path : Path) (slot : Nat)
  | residentCheck (damaged : List Nat)
  | cellIngress (agent : Nat) (header : BitVec 128) (payload : List Byte)
  | cellTime (damage : List (Nat × BitVec 128)) (bad : List (Nat × Nat)) (misplaced : List Nat)
  | writeCellCommit (group : Nat)
  | writeAckReceived (agent : Nat)
  | writeAckTimeout (flow : Nat) (seq : Nat)
  | egressCellArrival (agent : Nat) (damage : BitVec 128)
  | reseqTimeout (flow : Nat)
  | cellarScrub (granule : Nat) (finding : GranuleFault)
  | ce24hClear
  | hstRetireGo (path : Path) (pc : Nat)
  | pcFailure (pc : Nat) (noAnswer : Bool)
  | pinWaitEnd
  | sliceSwitch
  | pantryScrub (bank : Nat) (row : Nat) (corrected : Bool) (poisoned : Option Nat) (used : Bool)
  | sendPacket (message : Nat)
  | retryTimerExpiry (message : Nat) (index : Nat)
  | messageAgeLimit (message : Nat)
  | receiveReap (sa : Nat) (id : Nat)
  | ackDelayExpiry (sa : Nat) (id : Nat) (reply : Bool)
  | probeTimeout (sa : Nat) (way : Nat)
  | downPathProbe (sa : Nat) (way : Nat)
  | saSyncRetry (sa : Nat)
  | drainingExpiry (sa : Nat)
  | cwndGrowth (sa : Nat)
  | saActivate (path : Path)
  | saInvalidate (path : Path)
  | saResume (path : Path)
  | saSwitch (path : Path) (successor : Nat)
  | saWordWrite (path : Path) (word : Nat) (value : Word)
  | saHeldMessageStart
  | keyBind (path : Path)
  | keyRotate (path : Path)
  | keyRevoke (path : Path)
  | winWordWrite (path : Path) (word : Nat) (value : Word)
  | accessEnd (access : Nat)
  | retiredKeyExpiry (key : Nat)
  | commitPlaceWrite
  | capsuleAccept
  | orderedRelease (command : Nat)
  | readCommand (command : Nat)
  | writeCommand (command : Nat)
  | flushCommand (command : Nat)
  | verifyCommand (command : Nat) (bad : List (Nat × Nat)) (wbad : List (Nat × Nat))
  | zeroCommand (command : Nat)
  | completionPoint (command : Nat)
  | commandTimeout (command : Nat)
  | queueCreate (command : Nat)
  | queueDelete (command : Nat)
  | queueReset (command : Nat)
  | adminAbort (command : Nat)
  | selfTestStart (command : Nat)
  | selfTestAbort (command : Nat)
  | selfTestResult (command : Nat)
  | identify (command : Nat)
  | logRead (command : Nat)
  | featureGet (command : Nat)
  | featureSet (command : Nat)
  | firmwareSegment (command : Nat)
  | firmwareActivate (command : Nat)
  | controllerReset (path : Path)
  | epEnable (path : Path) (endpoint : Nat)
  | epDisable (path : Path) (endpoint : Nat)
  | volRead (path : Path)
  | volWrite (path : Path)
  | extentCommit
  | volActivate (path : Path)
  | volDeactivate (path : Path)
  | deactivateDone
  | volInit (path : Path)
  | initDone
  | stripeWriteAdmit
  | bufferComplete (write : Nat) (bad : List (Nat × Nat))
  | checkpoint (path : Path)
  | periodicCheckpoint
  | checkpointDone
  | shutdown (path : Path)
  | discardGroup (path : Path) (group : Nat)
  | powerLossAssert
  | dumpSealed
  | powerHoldExit
  | powerLossDeassert
  | replay (metaId : Nat) (failing : List (Nat × Nat × CopyFault)) (media : MediaErrors)
  | replayDone
  | memberStateChange (group : Nat) (member : Nat)
  | rebuildStripe (group : Nat) (bad : List (Nat × Nat)) (wbad : List (Nat × Nat))
  | rebuildRecord
  | patrolStripe (group : Nat) (bad : List (Nat × Nat)) (wbad : List (Nat × Nat))
  | patrolLate (group : Nat)
  | patrolStart (path : Path) (group : Nat)
  | patrolStop (path : Path)
  | resolve (path : Path)
  | reshapeStart (path : Path)
  | reshapeAbort (path : Path)
  | groupRedefine (path : Path) (group : Nat)
  | reshapeStep
  | pendingReadReady (read : Nat)
  | latencyDecay
  | hedgeStart (read : Nat)
  | fillDone (read : Nat)
  | hotnessDecay
  | pinHoldExpiry
  | groupSend (slot : Nat)
  | stompResend (message : Nat) (index : Nat)
  | install (path : Path) (kind : Nat) (slot : Nat)
  | installDone
  | cipClear (path : Path) (kind : Nat) (slot : Nat)
  | zeroise (path : Path) (confirm : Nat)
  | alarmOnset (cause : AlarmCause)
  | level2ZeroingDone
  | pipeCheckFail (pipe : Nat) (what : Nat)
  | pipeRetiredWrite (path : Path) (word : Nat) (value : Word)
  | counterMarkLanded (sa : Nat)
  | jobStart (path : Path) (channel : Nat)
  | jobCancel (path : Path) (channel : Nat)
  | jobEnd (channel : Nat)
  | frameReceive (sp : Nat) (corrected : Nat) (uncorrected : Nat) (broken : Bool) (bytes : List Byte)
  | linkChange (sp : Nat) (up : Bool) (energy : Bool)
  | preemptVerify (sp : Nat) (ok : Bool)
  | pauseXoff (port : Nat)
  | pauseXon (port : Nat)
  | watchdogBreak (sp : Nat) (prio : Nat)
  | holdOffEnd (sp : Nat)
  | frameTransmit (turn : WireTurn)
  | counterSnap (path : Path)
  | counterRelease (path : Path)
  | mdioOp (path : Path) (value : Word)
  | mdioDone (data : Nat)
  | histogramSample
  | insertionRecognised (insertion : Insertion)
  | removalRecognised (bay : Nat)
  | perstRelease (bay : Nat)
  | driveLinkUp (bay : Nat) (rate : Nat) (width : Nat) (nvme : Bool)
  | trainingTimeout (bay : Nat)
  | driveLinkDown (loss : LinkLoss)
  | driveLost (bay : Nat) (fatal : Bool)
  | retrainTimeout (bay : Nat)
  | bayPowerGone (bay : Nat)
  | portStart (path : Path) (bay : Nat)
  | portReady (path : Path) (bay : Nat)
  | portUnfit (path : Path) (bay : Nat)
  | portRelease (path : Path) (bay : Nat)
  | msixScan (bay : Nat) (message : MsixWrite)
  | resvRegister (path : Path) (bay : Nat)
  | resvAcquire (path : Path) (bay : Nat)
  | resvPreempt (path : Path) (bay : Nat)
  | resvReport (path : Path) (bay : Nat)
  | resvDone (bay : Nat) (code : Nat) (holder : Nat)
  | nvmeMiPoll (bay : Nat) (reply : Option (Nat × Nat × Nat))
  | channelEnable (path : Path) (channel : Nat) (sub : Nat)
  | channelDisable (path : Path) (channel : Nat) (sub : Nat)
  | powerGoodGiven (channel : Nat) (sub : Nat)
  | powerGoodLost (channel : Nat) (sub : Nat)
  | breakerTrip (channel : Nat) (sub : Nat)
  | timerTrip (channel : Nat) (sub : Nat)
  | inrushTrip (channel : Nat) (sub : Nat)
  | latchRelease (channel : Nat) (sub : Nat)
  | reverseCurrent (channel : Nat) (sub : Nat) (off : Bool)
  | telemetryUpdate (samples : List TelSample)
  | bayTelSelWrite (path : Path) (value : Word)
  | disagreement (core : Nat) (site : Nat)
  | signatureCompare
  | memorySweep (bad : List (Nat × Nat))
  | wardenRestart (failing : List Nat)
  | fenceExpiry (core : Nat)
  | bistDone (core : Nat) (pass : Bool)
  | resyncCopy (core : Nat)
  | coreFence (path : Path) (core : Nat)
  | coreResync (path : Path) (core : Nat)
  | coreRetire (path : Path) (core : Nat)
  | wdnActivate (path : Path)
  | wdnRaiseFloor (path : Path)
  | wfi
  | timerInterrupt
  | stocktakeTest (item : Nat) (inst : Nat) (failed : Bool)
  | stockReport
  | wdnReportRead (path : Path)
  | peerFrameReceive (bytes : List Byte)
  | peerRetransmit
  | sidebandFrameReceive (bytes : List Byte)
  | sidebandHeartbeatSend
  | sidebandWake
  | sidebandWakeAck
  | peerLinkLost
  | sidebandLost
  | arbitrationDecide
  | mirrorWaitExpiry
  | mirrorFail (write : Nat)
  | handoverGive (path : Path) (groups : Nat)
  | handoverQuiesced
  | handoverWaitExpiry (command : Nat)
  | takeover (path : Path) (groups : Nat)
  | takeoverDone (failing : List (Nat × Nat × CopyFault)) (media : MediaErrors)
  | peerOpen (path : Path) (groups : Nat)
  | peerYield (path : Path)
  | peerJoin (path : Path)
  | setOwn (path : Path) (groups : Nat)
  | modeRequest (path : Path) (mode : Nat)
  | modeCommit
  | drainTimeout
  | modeEntryDone
  | powerWake (alertLow : Bool)
  | exitDone (lost : List Nat) (damaged : List Nat)
  | wakePeer (path : Path)
  | islandLoopTick (island : Nat) (failed : Bool) (margin : Bool)
  | avsUpdate (acked : Bool)
  | ledgerRead (src : List Byte) (port : Nat) (id : Nat) (count : Nat) (addr : Nat)
  | ledgerWrite (src : List Byte) (port : Nat) (id : Nat) (addr : Nat) (words : List Word)
  | writeFixed (src : List Byte) (port : Nat) (id : Nat) (addr : Nat) (words : List Word)
  | smbusBlockWrite (port : Nat) (bytes : List Byte) (pecOk : Bool)
  | smbusBlockRead (port : Nat)
  | tallyAdvance (path : Path) (count : Nat)
  | tallyRecRead (path : Path)
  | tallyAppend (path : Path)
  | eventFrameSend
  | startShort (path : Path)
  | startExtended (path : Path)
  | stAbort (path : Path)
  | selfTestEnd (items : List (Nat × Nat))
  | fwOpen (path : Path)
  | fwDataWrite (path : Path) (value : Word)
  | verifyStage (path : Path)
  | fwActivate (path : Path)
  | dbgDataWrite (path : Path) (value : Word)
  | dbgOpen (path : Path)
  | dbgCommit (path : Path)
  | powerOnReset
  | resetPin
  | glbReset (path : Path) (confirm : Nat)
  | bootStart (fwMs : Nat) (flashMode : Nat) (failing : List Nat)
  | pgInLow
  | spiRead (path : Path) (length : Nat)
  | spiProgram (path : Path) (length : Nat)
  | erase4k (path : Path)
  | erase64k (path : Path)
  | spiDone (timeout : Bool)
  | therm (temp : Int)
  | limitingStart (channel : Nat) (sub : Nat)
  | limitingEnd (channel : Nat) (sub : Nat)
  | alarmConditionEnd (cause : AlarmCause)
  | suspectProbeSend (sa : Nat) (way : Nat)
  | pauseTimerExpiry (sp : Nat)
  | mgtLinkChange (up : Bool) (speed : Nat) (energy : Bool)
  | clkreqChange (bay : Nat) (asserted : Bool)
  | groupCopyPinRelease
  | tallyRecordAge
  | peerLinkGroupChange (mask : Nat)
  deriving DecidableEq, Repr

end Sys2Proof
end

