-- ==== Sys2Proof/Config.lean ====
section
/-!
DEFINITION. The values the spec leaves open. None has a body, so nothing can be proved of one of them.
-/

namespace Sys2Proof

/-- The free values: an open value is `freeValue n` for the next `n` of the state's counter (assumption 1). -/
opaque Config.freeValue : Nat → BitVec 64

/-- Whether an open choice the spec makes by a property of the part (no time or order given) falls on its first
alternative, for the next `n` of the state's counter (assumption 1). -/
opaque Config.freeBool : Nat → Bool

end Sys2Proof
end

