-- ==== Sys2Proof/Machine/Registers.lean ====
section
/-!
DEFINITION. The register map of the K24: one descriptor per register or row of registers (R14, R707), one name per
field. Every line below is one row of the register tables of the chapters named.
-/

namespace Sys2Proof.Machine

/-- The access types of a register field (R7, Table 00-3). -/
inductive Access where
  | ro | rw | wo | w1c | w1s | rc | rwl
  deriving DecidableEq, Repr

/-- A field of a register as its table gives it: lowest bit, width, access type and reset value. -/
structure FieldDesc where
  lo : Nat
  width : Nat
  acc : Access
  reset : Nat
  deriving DecidableEq, Repr

/-- A row of `count` registers `stride` bytes apart from `addr`; a `pair` is a low and a high word (R8, R11). -/
structure RegDesc where
  addr : Nat
  count : Nat
  stride : Nat
  pair : Bool
  fields : List FieldDesc
  deriving DecidableEq, Repr

/-- A field by the address of its register: what the meanings name. -/
structure Fld where
  addr : Nat
  lo : Nat
  width : Nat
  deriving DecidableEq, Repr

/-- Registers of block GLB, part 0. -/
def regsGlb0 : List RegDesc := [
  ⟨0x0, 1, 4, false, [⟨0, 32, .ro, 0x4B2400A1⟩]⟩,
  ⟨0x4, 1, 4, false, [⟨0, 8, .wo, 0⟩]⟩,
  ⟨0x8, 1, 4, false, [⟨0, 3, .ro, 0⟩, ⟨3, 1, .ro, 0⟩]⟩,
  ⟨0xC, 1, 4, false, [⟨0, 1, .ro, 0⟩, ⟨1, 3, .ro, 0⟩]⟩,
  ⟨0x10, 1, 4, false, [⟨0, 2, .ro, 0⟩, ⟨2, 2, .ro, 0⟩, ⟨8, 12, .ro, 0⟩]⟩,
  ⟨0x14, 1, 4, false, [⟨0, 8, .rw, 0x76⟩, ⟨8, 8, .ro, 0⟩, ⟨16, 1, .ro, 0⟩]⟩,
  ⟨0x18, 1, 4, false, [⟨0, 1, .w1c, 0⟩, ⟨1, 1, .w1c, 0⟩, ⟨2, 1, .w1c, 0⟩, ⟨3, 1, .w1c, 0⟩, ⟨4, 1, .w1c, 0⟩, ⟨5, 1, .ro, 0⟩]⟩,
  ⟨0x20, 1, 4, false, [⟨0, 3, .wo, 0⟩, ⟨8, 7, .wo, 0⟩, ⟨16, 3, .ro, 0⟩]⟩,
  ⟨0x24, 1, 4, false, [⟨0, 28, .rw, 0⟩]⟩,
  ⟨0x40, 16, 4, false, [⟨0, 32, .rw, 0⟩]⟩]

/-- The registers of block GLB (Table 19-4). -/
def regsGlb : List RegDesc := regsGlb0

/-- Registers of block INV, part 0. -/
def regsInv0 : List RegDesc := [
  ⟨0x100000, 1, 4, false, [⟨0, 4, .wo, 0⟩, ⟨4, 2, .wo, 0⟩]⟩,
  ⟨0x100004, 1, 4, false, [⟨0, 4, .ro, 0⟩, ⟨4, 4, .ro, 0⟩, ⟨8, 1, .ro, 0⟩, ⟨9, 1, .w1c, 0⟩, ⟨10, 1, .w1c, 0⟩, ⟨11, 1, .w1c, 0⟩, ⟨12, 3, .ro, 0⟩, ⟨16, 8, .rc, 0⟩]⟩,
  ⟨0x100008, 1, 4, false, [⟨0, 32, .wo, 0⟩]⟩,
  ⟨0x10000C, 1, 4, false, [⟨0, 8, .ro, 0⟩, ⟨8, 8, .ro, 0⟩, ⟨16, 16, .ro, 0⟩]⟩,
  ⟨0x100010, 1, 8, true, [⟨0, 32, .ro, 0⟩]⟩,
  ⟨0x100018, 1, 8, true, [⟨0, 32, .ro, 0⟩]⟩,
  ⟨0x100020, 1, 8, true, [⟨0, 32, .ro, 0⟩]⟩,
  ⟨0x100030, 4, 4, false, [⟨0, 1, .ro, 0⟩, ⟨1, 1, .w1s, 0⟩]⟩,
  ⟨0x100040, 4, 4, false, [⟨0, 32, .ro, 0⟩]⟩]

/-- The registers of block INV (Table 19-4). -/
def regsInv : List RegDesc := regsInv0

/-- Registers of block HST, part 0. -/
def regsHst0 : List RegDesc := [
  ⟨0x200000, 1, 4, false, [⟨0, 1, .rw, 1⟩, ⟨1, 1, .rw, 1⟩, ⟨2, 1, .rw, 1⟩, ⟨8, 8, .rw, 0xA⟩]⟩,
  ⟨0x200004, 1, 4, false, [⟨0, 1, .w1c, 0⟩, ⟨1, 1, .w1c, 0⟩, ⟨2, 1, .w1c, 0⟩, ⟨3, 1, .w1c, 0⟩, ⟨4, 1, .w1c, 0⟩, ⟨5, 1, .ro, 0⟩, ⟨6, 1, .w1c, 0⟩, ⟨7, 1, .w1c, 0⟩, ⟨8, 1, .w1c, 0⟩, ⟨9, 1, .w1c, 0⟩, ⟨10, 1, .w1c, 0⟩, ⟨11, 1, .w1c, 0⟩]⟩,
  ⟨0x200008, 1, 4, false, [⟨0, 10, .ro, 0x300⟩, ⟨10, 3, .ro, 0⟩, ⟨16, 9, .ro, 0⟩]⟩,
  ⟨0x20000C, 1, 4, false, [⟨0, 6, .wo, 0⟩, ⟨8, 1, .wo, 0⟩]⟩,
  ⟨0x200010, 1, 4, false, [⟨0, 16, .rw, 0x1000⟩]⟩,
  ⟨0x200014, 1, 4, false, [⟨0, 28, .ro, 0⟩, ⟨28, 3, .ro, 0⟩]⟩,
  ⟨0x200018, 1, 4, false, [⟨0, 6, .ro, 0⟩, ⟨6, 13, .ro, 0⟩, ⟨19, 6, .ro, 0⟩]⟩,
  ⟨0x20001C, 1, 4, false, [⟨0, 10, .rw, 0⟩, ⟨16, 5, .rw, 0⟩]⟩,
  ⟨0x200020, 1, 4, false, [⟨0, 6, .ro, 0⟩, ⟨6, 9, .ro, 0⟩, ⟨15, 1, .ro, 0⟩, ⟨16, 1, .ro, 0⟩, ⟨17, 1, .ro, 0⟩]⟩,
  ⟨0x200040, 8, 4, false, [⟨0, 10, .rw, 0⟩, ⟨10, 10, .rw, 0⟩, ⟨20, 4, .rw, 0⟩]⟩,
  ⟨0x200080, 1, 8, true, [⟨0, 32, .rc, 0⟩]⟩,
  ⟨0x200088, 1, 8, true, [⟨0, 32, .rc, 0⟩]⟩,
  ⟨0x200090, 1, 8, true, [⟨0, 32, .rc, 0⟩]⟩,
  ⟨0x200098, 1, 8, true, [⟨0, 32, .rc, 0⟩]⟩,
  ⟨0x200100, 64, 4, false, [⟨0, 2, .ro, 0⟩, ⟨2, 2, .ro, 0⟩, ⟨16, 16, .ro, 0⟩]⟩,
  ⟨0x200200, 64, 4, false, [⟨0, 5, .ro, 0⟩, ⟨5, 1, .w1c, 0⟩, ⟨16, 16, .rc, 0⟩]⟩,
  ⟨0x200300, 42, 4, false, [⟨0, 11, .rc, 0⟩, ⟨16, 16, .rc, 0⟩]⟩,
  ⟨0x200400, 42, 16, true, [⟨0, 32, .rc, 0⟩]⟩,
  ⟨0x200408, 42, 16, true, [⟨0, 32, .rc, 0⟩]⟩]

/-- The registers of block HST (Table 19-4). -/
def regsHst : List RegDesc := regsHst0

/-- Registers of block TRN, part 0. -/
def regsTrn0 : List RegDesc := [
  ⟨0x300000, 1, 4, false, [⟨0, 1, .rw, 0⟩, ⟨1, 1, .rw, 1⟩, ⟨8, 8, .rw, 2⟩, ⟨16, 4, .rw, 7⟩]⟩,
  ⟨0x300004, 1, 4, false, [⟨0, 10, .rw, 0x14⟩]⟩,
  ⟨0x300008, 1, 4, false, [⟨0, 1, .w1c, 0⟩, ⟨1, 1, .w1c, 0⟩, ⟨2, 1, .w1c, 0⟩, ⟨3, 1, .w1c, 0⟩, ⟨4, 1, .w1c, 0⟩, ⟨5, 1, .w1c, 0⟩, ⟨6, 1, .w1c, 0⟩, ⟨7, 1, .w1c, 0⟩, ⟨8, 1, .w1c, 0⟩, ⟨9, 1, .w1c, 0⟩]⟩,
  ⟨0x30000C, 1, 4, false, [⟨0, 18, .rw, 0x800⟩]⟩,
  ⟨0x300010, 1, 4, false, [⟨0, 18, .ro, 0⟩]⟩,
  ⟨0x300014, 1, 4, false, [⟨0, 18, .ro, 0⟩]⟩,
  ⟨0x300018, 1, 4, false, [⟨0, 13, .rw, 0⟩]⟩,
  ⟨0x30001C, 1, 4, false, [⟨0, 3, .wo, 0⟩, ⟨16, 13, .wo, 0⟩]⟩,
  ⟨0x300100, 64, 4, false, [⟨0, 32, .ro, 0⟩]⟩,
  ⟨0x300200, 1, 8, true, [⟨0, 32, .rc, 0⟩]⟩,
  ⟨0x300208, 1, 8, true, [⟨0, 32, .rc, 0⟩]⟩,
  ⟨0x300210, 1, 8, true, [⟨0, 32, .rc, 0⟩]⟩,
  ⟨0x300218, 1, 8, true, [⟨0, 32, .rc, 0⟩]⟩,
  ⟨0x300220, 1, 8, true, [⟨0, 32, .rc, 0⟩]⟩,
  ⟨0x300228, 1, 8, true, [⟨0, 32, .rc, 0⟩]⟩,
  ⟨0x300230, 1, 8, true, [⟨0, 32, .rc, 0⟩]⟩,
  ⟨0x300238, 1, 8, true, [⟨0, 32, .rc, 0⟩]⟩,
  ⟨0x300240, 1, 8, true, [⟨0, 32, .rc, 0⟩]⟩,
  ⟨0x300248, 1, 8, true, [⟨0, 32, .rc, 0⟩]⟩,
  ⟨0x300250, 1, 8, true, [⟨0, 32, .rc, 0⟩]⟩]

/-- Registers of block TRN, part 1. -/
def regsTrn1 : List RegDesc := [
  ⟨0x300258, 1, 8, true, [⟨0, 32, .rc, 0⟩]⟩,
  ⟨0x300260, 1, 8, true, [⟨0, 32, .rc, 0⟩]⟩,
  ⟨0x300268, 1, 8, true, [⟨0, 32, .rc, 0⟩]⟩,
  ⟨0x301000, 1, 4, false, [⟨0, 1, .rw, 0⟩]⟩,
  ⟨0x301004, 1, 4, false, [⟨0, 16, .rw, 0⟩]⟩,
  ⟨0x301008, 1, 4, false, [⟨0, 2, .wo, 0⟩]⟩,
  ⟨0x30100C, 1, 4, false, [⟨0, 1, .w1c, 0⟩, ⟨1, 1, .w1c, 0⟩, ⟨2, 1, .w1c, 0⟩, ⟨3, 1, .w1c, 0⟩, ⟨4, 1, .w1c, 0⟩, ⟨5, 1, .w1c, 0⟩, ⟨16, 16, .ro, 0⟩]⟩,
  ⟨0x301010, 1, 4, false, [⟨0, 16, .ro, 0⟩, ⟨16, 16, .ro, 0⟩]⟩,
  ⟨0x301020, 8, 4, false, [⟨0, 32, .ro, 0⟩]⟩,
  ⟨0x301100, 1, 8, true, [⟨0, 32, .rc, 0⟩]⟩,
  ⟨0x301108, 1, 8, true, [⟨0, 32, .rc, 0⟩]⟩,
  ⟨0x301110, 1, 8, true, [⟨0, 32, .rc, 0⟩]⟩,
  ⟨0x301118, 1, 8, true, [⟨0, 32, .rc, 0⟩]⟩,
  ⟨0x301120, 1, 8, true, [⟨0, 32, .rc, 0⟩]⟩,
  ⟨0x301128, 1, 8, true, [⟨0, 32, .rc, 0⟩]⟩,
  ⟨0x301130, 1, 8, true, [⟨0, 32, .rc, 0⟩]⟩,
  ⟨0x301140, 8, 4, false, [⟨0, 9, .ro, 0⟩, ⟨16, 9, .rc, 0⟩]⟩]

/-- The registers of block TRN (Table 19-4). -/
def regsTrn : List RegDesc := regsTrn0 ++ regsTrn1

/-- Registers of block CQ, part 0. -/
def regsCq0 : List RegDesc := [
  ⟨0x400000, 1, 4, false, [⟨0, 1, .rw, 0⟩]⟩,
  ⟨0x400004, 1, 4, false, [⟨0, 3, .wo, 0⟩, ⟨16, 12, .wo, 0⟩]⟩,
  ⟨0x400008, 1, 4, false, [⟨0, 1, .ro, 0⟩, ⟨1, 1, .w1c, 0⟩, ⟨2, 1, .w1c, 0⟩, ⟨3, 1, .w1c, 0⟩, ⟨4, 1, .w1c, 0⟩, ⟨5, 1, .w1c, 0⟩, ⟨6, 1, .w1c, 0⟩]⟩,
  ⟨0x40000C, 1, 4, false, [⟨0, 15, .ro, 0⟩, ⟨16, 15, .ro, 0⟩]⟩,
  ⟨0x400010, 1, 4, false, [⟨0, 12, .rw, 0⟩, ⟨16, 6, .rw, 0⟩]⟩,
  ⟨0x400014, 1, 4, false, [⟨0, 1, .ro, 0⟩, ⟨1, 7, .ro, 0⟩]⟩,
  ⟨0x400018, 1, 4, false, [⟨0, 2, .ro, 0⟩, ⟨2, 1, .ro, 0⟩, ⟨3, 6, .ro, 0⟩, ⟨16, 16, .ro, 0⟩]⟩,
  ⟨0x40001C, 1, 4, false, [⟨0, 16, .ro, 0⟩, ⟨16, 1, .ro, 1⟩]⟩,
  ⟨0x400020, 4, 4, false, [⟨0, 32, .ro, 0⟩]⟩,
  ⟨0x400100, 1, 8, true, [⟨0, 32, .rc, 0⟩]⟩,
  ⟨0x400108, 1, 8, true, [⟨0, 32, .rc, 0⟩]⟩,
  ⟨0x400110, 1, 8, true, [⟨0, 32, .rc, 0⟩]⟩,
  ⟨0x400118, 1, 8, true, [⟨0, 32, .rc, 0⟩]⟩,
  ⟨0x400120, 1, 8, true, [⟨0, 32, .rc, 0⟩]⟩,
  ⟨0x400128, 1, 8, true, [⟨0, 32, .rc, 0⟩]⟩,
  ⟨0x400130, 1, 8, true, [⟨0, 32, .rc, 0⟩]⟩,
  ⟨0x400138, 1, 8, true, [⟨0, 32, .rc, 0⟩]⟩,
  ⟨0x400140, 1, 8, true, [⟨0, 32, .rc, 0⟩]⟩,
  ⟨0x400148, 1, 8, true, [⟨0, 32, .rc, 0⟩]⟩]

/-- The registers of block CQ (Table 19-4). -/
def regsCq : List RegDesc := regsCq0

/-- Registers of block VOL, part 0. -/
def regsVol0 : List RegDesc := [
  ⟨0x500000, 1, 4, false, [⟨0, 1, .rw, 0⟩]⟩,
  ⟨0x500004, 1, 4, false, [⟨0, 1, .w1c, 0⟩, ⟨1, 1, .w1c, 0⟩, ⟨2, 1, .ro, 0⟩, ⟨3, 1, .w1c, 0⟩, ⟨4, 1, .w1c, 0⟩, ⟨5, 1, .w1c, 0⟩, ⟨6, 1, .w1c, 0⟩]⟩,
  ⟨0x500008, 1, 4, false, [⟨0, 20, .rw, 0⟩, ⟨24, 2, .rw, 0⟩]⟩,
  ⟨0x50000C, 1, 4, false, [⟨0, 3, .wo, 0⟩]⟩,
  ⟨0x500010, 1, 4, false, [⟨0, 8, .ro, 0⟩]⟩,
  ⟨0x500040, 16, 4, false, [⟨0, 32, .rw, 0⟩]⟩,
  ⟨0x500100, 1, 8, true, [⟨0, 32, .rc, 0⟩]⟩,
  ⟨0x500108, 1, 8, true, [⟨0, 32, .rc, 0⟩]⟩,
  ⟨0x500110, 1, 8, true, [⟨0, 32, .rc, 0⟩]⟩,
  ⟨0x500118, 1, 8, true, [⟨0, 32, .rc, 0⟩]⟩,
  ⟨0x500120, 1, 8, true, [⟨0, 32, .rc, 0⟩]⟩,
  ⟨0x501000, 1, 4, false, [⟨0, 1, .rw, 1⟩, ⟨1, 1, .rw, 1⟩, ⟨2, 1, .rw, 1⟩, ⟨8, 8, .rw, 0xE⟩]⟩,
  ⟨0x501004, 1, 4, false, [⟨0, 1, .w1c, 0⟩, ⟨1, 1, .w1c, 0⟩, ⟨2, 1, .w1c, 0⟩, ⟨3, 1, .w1c, 0⟩, ⟨4, 1, .w1c, 0⟩, ⟨5, 1, .w1c, 0⟩, ⟨6, 1, .w1c, 0⟩, ⟨7, 1, .w1c, 0⟩, ⟨8, 1, .w1c, 0⟩, ⟨9, 1, .w1c, 0⟩, ⟨10, 1, .w1c, 0⟩, ⟨11, 1, .w1c, 0⟩]⟩,
  ⟨0x501008, 1, 4, false, [⟨0, 16, .rw, 0x100⟩]⟩,
  ⟨0x50100C, 1, 4, false, [⟨0, 16, .rw, 0x64⟩, ⟨16, 16, .rw, 0x7D0⟩]⟩,
  ⟨0x501010, 1, 4, false, [⟨0, 3, .wo, 0⟩, ⟨8, 3, .wo, 0⟩]⟩,
  ⟨0x501014, 1, 4, false, [⟨0, 3, .rw, 0⟩]⟩,
  ⟨0x501020, 2, 32, false, [⟨0, 5, .rw, 0⟩, ⟨5, 1, .ro, 0⟩, ⟨6, 1, .rw, 0⟩]⟩,
  ⟨0x501028, 2, 32, true, [⟨0, 32, .rw, 0⟩]⟩,
  ⟨0x501030, 2, 32, true, [⟨0, 32, .rw, 0⟩]⟩]

/-- Registers of block VOL, part 1. -/
def regsVol1 : List RegDesc := [
  ⟨0x501068, 1, 8, true, [⟨0, 32, .ro, 0⟩]⟩,
  ⟨0x501060, 1, 4, false, [⟨0, 2, .ro, 0⟩, ⟨2, 1, .ro, 0⟩]⟩,
  ⟨0x501080, 1, 4, false, [⟨0, 12, .rw, 0⟩, ⟨12, 3, .rw, 0⟩]⟩,
  ⟨0x501084, 1, 4, false, [⟨0, 13, .ro, 0⟩]⟩,
  ⟨0x501090, 4, 4, false, [⟨0, 32, .ro, 0⟩]⟩,
  ⟨0x5010A0, 1, 4, false, [⟨0, 20, .rw, 0⟩, ⟨20, 3, .rw, 0⟩, ⟨24, 2, .rw, 0⟩]⟩,
  ⟨0x5010A4, 1, 8, true, [⟨0, 32, .rw, 0⟩]⟩,
  ⟨0x5010AC, 1, 4, false, [⟨0, 2, .ro, 0⟩]⟩,
  ⟨0x501100, 1, 8, true, [⟨0, 32, .rc, 0⟩]⟩,
  ⟨0x501108, 1, 8, true, [⟨0, 32, .rc, 0⟩]⟩,
  ⟨0x501110, 1, 8, true, [⟨0, 32, .rc, 0⟩]⟩,
  ⟨0x501118, 1, 8, true, [⟨0, 32, .rc, 0⟩]⟩,
  ⟨0x501120, 1, 8, true, [⟨0, 32, .rc, 0⟩]⟩,
  ⟨0x501128, 1, 8, true, [⟨0, 32, .rc, 0⟩]⟩,
  ⟨0x501130, 1, 8, true, [⟨0, 32, .rc, 0⟩]⟩,
  ⟨0x501138, 1, 8, true, [⟨0, 32, .rc, 0⟩]⟩,
  ⟨0x502000, 1, 4, false, [⟨0, 1, .rw, 1⟩, ⟨1, 1, .rw, 1⟩, ⟨2, 1, .rw, 1⟩, ⟨3, 1, .rw, 0⟩, ⟨8, 8, .rw, 0x10⟩, ⟨16, 16, .rw, 0x12C⟩]⟩,
  ⟨0x502004, 1, 4, false, [⟨0, 1, .w1c, 0⟩, ⟨1, 1, .w1c, 0⟩, ⟨2, 1, .w1c, 0⟩, ⟨3, 1, .w1c, 0⟩, ⟨4, 1, .w1c, 0⟩, ⟨5, 1, .w1c, 0⟩]⟩,
  ⟨0x502008, 1, 4, false, [⟨0, 8, .rw, 0x80⟩, ⟨16, 16, .rw, 0x1F4⟩]⟩,
  ⟨0x50200C, 1, 4, false, [⟨0, 16, .rw, 0⟩]⟩]

/-- Registers of block VOL, part 2. -/
def regsVol2 : List RegDesc := [
  ⟨0x502010, 1, 4, false, [⟨0, 18, .ro, 0⟩, ⟨18, 14, .ro, 0⟩]⟩,
  ⟨0x502020, 8, 4, false, [⟨0, 13, .rw, 0⟩, ⟨15, 1, .rw, 0⟩]⟩,
  ⟨0x502040, 24, 4, false, [⟨0, 20, .ro, 0⟩, ⟨20, 1, .ro, 0⟩]⟩,
  ⟨0x5020A0, 8, 4, false, [⟨0, 20, .ro, 0⟩]⟩,
  ⟨0x502100, 1, 8, true, [⟨0, 32, .rc, 0⟩]⟩,
  ⟨0x502108, 1, 8, true, [⟨0, 32, .rc, 0⟩]⟩,
  ⟨0x502110, 1, 8, true, [⟨0, 32, .rc, 0⟩]⟩,
  ⟨0x502118, 1, 8, true, [⟨0, 32, .rc, 0⟩]⟩,
  ⟨0x502120, 1, 8, true, [⟨0, 32, .rc, 0⟩]⟩,
  ⟨0x502128, 1, 8, true, [⟨0, 32, .rc, 0⟩]⟩,
  ⟨0x502130, 1, 8, true, [⟨0, 32, .rc, 0⟩]⟩,
  ⟨0x502138, 1, 8, true, [⟨0, 32, .rc, 0⟩]⟩,
  ⟨0x502140, 1, 8, true, [⟨0, 32, .rc, 0⟩]⟩,
  ⟨0x502148, 1, 8, true, [⟨0, 32, .rc, 0⟩]⟩,
  ⟨0x502150, 1, 8, true, [⟨0, 32, .rc, 0⟩]⟩,
  ⟨0x502158, 1, 8, true, [⟨0, 32, .rc, 0⟩]⟩,
  ⟨0x502160, 1, 8, true, [⟨0, 32, .rc, 0⟩]⟩,
  ⟨0x502168, 1, 8, true, [⟨0, 32, .rc, 0⟩]⟩]

/-- The registers of block VOL (Table 19-4). -/
def regsVol : List RegDesc := regsVol0 ++ regsVol1 ++ regsVol2

/-- Registers of block STR, part 0. -/
def regsStr0 : List RegDesc := [
  ⟨0x600000, 1, 4, false, [⟨0, 1, .rw, 0⟩, ⟨1, 1, .rw, 0⟩]⟩,
  ⟨0x600004, 1, 4, false, [⟨0, 1, .w1c, 0⟩, ⟨1, 1, .w1c, 0⟩, ⟨2, 1, .w1c, 0⟩, ⟨3, 1, .ro, 0⟩, ⟨4, 1, .w1c, 0⟩, ⟨5, 1, .w1c, 0⟩, ⟨6, 1, .w1c, 0⟩, ⟨7, 1, .w1c, 0⟩, ⟨8, 1, .w1c, 0⟩, ⟨9, 1, .w1c, 0⟩, ⟨10, 1, .w1c, 0⟩, ⟨11, 1, .ro, 0⟩]⟩,
  ⟨0x600008, 1, 4, false, [⟨0, 3, .wo, 0⟩, ⟨8, 3, .wo, 0⟩]⟩,
  ⟨0x60000C, 1, 4, false, [⟨0, 17, .ro, 0⟩]⟩,
  ⟨0x600010, 1, 4, false, [⟨0, 17, .ro, 0⟩]⟩,
  ⟨0x600014, 1, 4, false, [⟨0, 5, .ro, 0⟩, ⟨8, 5, .ro, 0⟩, ⟨16, 5, .ro, 0⟩, ⟨24, 3, .ro, 0⟩]⟩,
  ⟨0x600018, 1, 4, false, [⟨0, 3, .ro, 0⟩, ⟨8, 5, .ro, 0⟩]⟩,
  ⟨0x60001C, 1, 4, false, [⟨0, 3, .rw, 0⟩]⟩,
  ⟨0x600020, 1, 8, true, [⟨0, 32, .ro, 0⟩]⟩,
  ⟨0x600028, 1, 8, true, [⟨0, 32, .ro, 0⟩]⟩,
  ⟨0x600100, 1, 8, true, [⟨0, 32, .rc, 0⟩]⟩,
  ⟨0x600108, 1, 8, true, [⟨0, 32, .rc, 0⟩]⟩,
  ⟨0x600110, 1, 8, true, [⟨0, 32, .rc, 0⟩]⟩,
  ⟨0x600118, 1, 8, true, [⟨0, 32, .rc, 0⟩]⟩,
  ⟨0x600120, 1, 8, true, [⟨0, 32, .rc, 0⟩]⟩,
  ⟨0x600128, 1, 8, true, [⟨0, 32, .rc, 0⟩]⟩,
  ⟨0x600130, 1, 8, true, [⟨0, 32, .rc, 0⟩]⟩,
  ⟨0x600138, 1, 8, true, [⟨0, 32, .rc, 0⟩]⟩,
  ⟨0x600140, 1, 8, true, [⟨0, 32, .rc, 0⟩]⟩,
  ⟨0x600148, 1, 8, true, [⟨0, 32, .rc, 0⟩]⟩]

/-- The registers of block STR (Table 19-4). -/
def regsStr : List RegDesc := regsStr0

/-- Registers of block CIP, part 0. -/
def regsCip0 : List RegDesc := [
  ⟨0x700000, 1, 4, false, [⟨0, 1, .rwl, 1⟩, ⟨1, 1, .rwl, 1⟩]⟩,
  ⟨0x700004, 1, 4, false, [⟨0, 1, .w1c, 0⟩, ⟨1, 1, .w1c, 0⟩, ⟨2, 1, .ro, 0⟩, ⟨3, 1, .ro, 0⟩, ⟨4, 1, .w1c, 0⟩, ⟨5, 1, .w1c, 0⟩, ⟨6, 1, .ro, 0⟩, ⟨7, 1, .w1c, 0⟩, ⟨8, 2, .ro, 0⟩]⟩,
  ⟨0x700008, 1, 4, false, [⟨0, 4, .w1c, 0⟩, ⟨8, 3, .w1c, 0⟩, ⟨16, 3, .ro, 0⟩, ⟨24, 2, .ro, 0⟩]⟩,
  ⟨0x70000C, 1, 4, false, [⟨0, 3, .wo, 0⟩, ⟨4, 3, .wo, 0⟩, ⟨8, 13, .wo, 0⟩, ⟨24, 8, .wo, 0⟩]⟩,
  ⟨0x700010, 1, 4, false, [⟨0, 8, .ro, 0⟩]⟩,
  ⟨0x700014, 1, 4, false, [⟨0, 7, .rw, 0⟩]⟩,
  ⟨0x700018, 1, 4, false, [⟨0, 13, .rw, 0⟩, ⟨16, 3, .rw, 0⟩]⟩,
  ⟨0x70001C, 1, 4, false, [⟨0, 2, .ro, 0⟩, ⟨2, 2, .ro, 0⟩, ⟨8, 24, .ro, 0⟩]⟩,
  ⟨0x700040, 20, 4, false, [⟨0, 32, .wo, 0⟩]⟩,
  ⟨0x700090, 4, 4, false, [⟨0, 32, .w1s, 0⟩]⟩,
  ⟨0x700100, 16, 4, false, [⟨0, 32, .rw, 0⟩]⟩,
  ⟨0x700180, 16, 4, false, [⟨0, 32, .rw, 0⟩]⟩,
  ⟨0x700140, 2, 128, false, [⟨0, 2, .wo, 0⟩]⟩,
  ⟨0x700144, 2, 128, false, [⟨0, 1, .ro, 0⟩, ⟨8, 8, .ro, 0⟩]⟩,
  ⟨0x700148, 2, 128, false, [⟨0, 25, .ro, 0⟩]⟩,
  ⟨0x700200, 1, 8, true, [⟨0, 32, .rc, 0⟩]⟩,
  ⟨0x700208, 1, 8, true, [⟨0, 32, .rc, 0⟩]⟩,
  ⟨0x700210, 1, 8, true, [⟨0, 32, .rc, 0⟩]⟩,
  ⟨0x700218, 1, 8, true, [⟨0, 32, .rc, 0⟩]⟩,
  ⟨0x700220, 1, 8, true, [⟨0, 32, .rc, 0⟩]⟩]

/-- Registers of block CIP, part 1. -/
def regsCip1 : List RegDesc := [
  ⟨0x700228, 1, 8, true, [⟨0, 32, .rc, 0⟩]⟩,
  ⟨0x700230, 1, 8, true, [⟨0, 32, .rc, 0⟩]⟩,
  ⟨0x700238, 1, 8, true, [⟨0, 32, .rc, 0⟩]⟩,
  ⟨0x700240, 1, 8, true, [⟨0, 32, .rc, 0⟩]⟩]

/-- The registers of block CIP (Table 19-4). -/
def regsCip : List RegDesc := regsCip0 ++ regsCip1

/-- Registers of block MAC, part 0. -/
def regsMac0 : List RegDesc := [
  ⟨0x800000, 8, 4, false, [⟨0, 2, .ro, 0⟩, ⟨4, 4, .ro, 0⟩, ⟨8, 4, .ro, 0⟩, ⟨12, 4, .ro, 0⟩, ⟨16, 4, .ro, 0⟩]⟩,
  ⟨0x800020, 1, 4, false, [⟨0, 1, .w1c, 0⟩, ⟨1, 1, .w1c, 0⟩, ⟨2, 1, .w1c, 0⟩, ⟨3, 1, .w1c, 0⟩, ⟨4, 1, .w1c, 0⟩, ⟨5, 1, .w1c, 0⟩]⟩,
  ⟨0x800024, 1, 4, false, [⟨0, 5, .rw, 0⟩]⟩,
  ⟨0x800028, 1, 4, false, [⟨0, 1, .rw, 0⟩, ⟨1, 1, .rw, 0⟩, ⟨2, 2, .rw, 1⟩, ⟨4, 1, .rw, 0⟩, ⟨5, 1, .rw, 1⟩, ⟨6, 2, .rw, 0⟩, ⟨8, 8, .rw, 0⟩]⟩,
  ⟨0x80002C, 1, 4, false, [⟨0, 11, .rw, 0x32⟩]⟩,
  ⟨0x800030, 1, 4, false, [⟨0, 14, .rw, 0x2400⟩]⟩,
  ⟨0x800034, 1, 4, false, [⟨0, 16, .rw, 0xFFFF⟩, ⟨16, 8, .rw, 0xC0⟩, ⟨24, 8, .rw, 0x80⟩]⟩,
  ⟨0x800038, 1, 4, false, [⟨0, 1, .wo, 0⟩, ⟨1, 1, .wo, 0⟩, ⟨2, 1, .ro, 0⟩]⟩,
  ⟨0x800040, 16, 4, false, [⟨0, 32, .rw, 0⟩]⟩,
  ⟨0x800C40, 16, 4, false, [⟨0, 32, .rw, 0⟩]⟩,
  ⟨0x800080, 8, 4, false, [⟨0, 3, .rw, 0⟩, ⟨4, 3, .rw, 0⟩, ⟨8, 3, .rw, 0⟩, ⟨12, 3, .rw, 0⟩, ⟨16, 3, .rw, 0⟩, ⟨20, 3, .rw, 0⟩, ⟨24, 3, .rw, 0⟩, ⟨28, 3, .rw, 0⟩]⟩,
  ⟨0x8000A0, 1, 4, false, [⟨0, 5, .rw, 0⟩, ⟨8, 3, .rw, 0⟩]⟩,
  ⟨0x8000A4, 1, 4, false, [⟨0, 32, .rw, 0⟩]⟩,
  ⟨0x8000A8, 1, 4, false, [⟨0, 16, .rw, 0⟩, ⟨16, 4, .rw, 0⟩, ⟨31, 1, .rw, 0⟩]⟩,
  ⟨0x8000B0, 1, 8, true, [⟨0, 32, .rw, 0⟩]⟩,
  ⟨0x800100, 128, 4, false, [⟨0, 32, .rw, 0⟩]⟩,
  ⟨0x800C00, 1, 4, false, [⟨0, 1, .rw, 1⟩, ⟨1, 1, .rw, 1⟩]⟩,
  ⟨0x800C04, 1, 4, false, [⟨0, 1, .ro, 0⟩, ⟨1, 2, .ro, 0⟩, ⟨3, 1, .ro, 0⟩]⟩,
  ⟨0x800C08, 1, 4, false, [⟨0, 16, .rw, 0⟩, ⟨16, 5, .rw, 0⟩, ⟨21, 5, .rw, 0⟩, ⟨26, 2, .wo, 0⟩, ⟨31, 1, .ro, 0⟩]⟩,
  ⟨0x800400, 24, 8, true, [⟨0, 32, .rc, 0⟩]⟩]

/-- Registers of block MAC, part 1. -/
def regsMac1 : List RegDesc := [
  ⟨0x800D00, 24, 8, true, [⟨0, 32, .rc, 0⟩]⟩]

/-- The registers of block MAC (Table 19-4). -/
def regsMac : List RegDesc := regsMac0 ++ regsMac1

/-- Registers of block TC, part 0. -/
def regsTc0 : List RegDesc := [
  ⟨0x900000, 1, 4, false, [⟨0, 1, .rw, 1⟩, ⟨1, 1, .rw, 1⟩, ⟨2, 1, .rw, 1⟩]⟩,
  ⟨0x900004, 1, 4, false, [⟨0, 1, .w1c, 0⟩, ⟨1, 1, .w1c, 0⟩, ⟨2, 1, .w1c, 0⟩, ⟨3, 1, .w1c, 0⟩, ⟨4, 1, .w1c, 0⟩]⟩,
  ⟨0x900008, 1, 4, false, [⟨0, 13, .rw, 0x100⟩]⟩,
  ⟨0x90000C, 1, 4, false, [⟨0, 24, .rw, 0x4000⟩]⟩,
  ⟨0x900010, 1, 4, false, [⟨0, 32, .rw, 0⟩]⟩,
  ⟨0x900014, 1, 4, false, [⟨0, 5, .rw, 0⟩, ⟨5, 1, .rw, 0⟩]⟩,
  ⟨0x900018, 1, 4, false, [⟨0, 13, .rw, 0⟩]⟩,
  ⟨0x90001C, 1, 4, false, [⟨0, 32, .ro, 0⟩]⟩,
  ⟨0x900020, 1, 4, false, [⟨0, 32, .ro, 0⟩]⟩,
  ⟨0x900024, 1, 4, false, [⟨0, 32, .rw, 0⟩]⟩,
  ⟨0x900028, 1, 4, false, [⟨0, 16, .ro, 0⟩, ⟨16, 1, .ro, 0⟩, ⟨17, 1, .ro, 0⟩, ⟨18, 1, .ro, 0⟩]⟩,
  ⟨0x90002C, 1, 4, false, [⟨0, 25, .ro, 0⟩]⟩,
  ⟨0x900040, 16, 4, false, [⟨0, 16, .rw, 0xFFFF⟩]⟩,
  ⟨0x900080, 4, 4, false, [⟨0, 2, .rw, 0⟩, ⟨2, 2, .rw, 0⟩, ⟨4, 2, .rw, 0⟩, ⟨6, 2, .rw, 0⟩, ⟨8, 2, .rw, 0⟩, ⟨10, 2, .rw, 0⟩, ⟨12, 2, .rw, 0⟩, ⟨14, 2, .rw, 0⟩, ⟨16, 2, .rw, 0⟩, ⟨18, 2, .rw, 0⟩, ⟨20, 2, .rw, 0⟩, ⟨22, 2, .rw, 0⟩, ⟨24, 2, .rw, 0⟩, ⟨26, 2, .rw, 0⟩, ⟨28, 2, .rw, 0⟩, ⟨30, 2, .rw, 0⟩]⟩,
  ⟨0x900100, 16, 4, false, [⟨0, 32, .rc, 0⟩]⟩,
  ⟨0x900140, 16, 4, false, [⟨0, 32, .rc, 0⟩]⟩,
  ⟨0x900200, 1, 8, true, [⟨0, 32, .rc, 0⟩]⟩,
  ⟨0x900208, 1, 8, true, [⟨0, 32, .rc, 0⟩]⟩,
  ⟨0x900210, 1, 8, true, [⟨0, 32, .rc, 0⟩]⟩,
  ⟨0x900218, 1, 8, true, [⟨0, 32, .rc, 0⟩]⟩]

/-- Registers of block TC, part 1. -/
def regsTc1 : List RegDesc := [
  ⟨0x900220, 1, 8, true, [⟨0, 32, .rc, 0⟩]⟩,
  ⟨0x900228, 1, 8, true, [⟨0, 32, .rc, 0⟩]⟩,
  ⟨0x900230, 1, 8, true, [⟨0, 32, .rc, 0⟩]⟩,
  ⟨0x900238, 1, 8, true, [⟨0, 32, .rc, 0⟩]⟩,
  ⟨0x900240, 1, 8, true, [⟨0, 32, .rc, 0⟩]⟩,
  ⟨0x904000, 4096, 4, false, [⟨0, 4, .rw, 0⟩, ⟨16, 16, .rw, 0xFFFF⟩]⟩]

/-- The registers of block TC (Table 19-4). -/
def regsTc : List RegDesc := regsTc0 ++ regsTc1

/-- Registers of block DRV, part 0. -/
def regsDrv0 : List RegDesc := [
  ⟨0xA00000, 1, 4, false, [⟨0, 1, .rw, 0⟩, ⟨1, 1, .rw, 1⟩, ⟨2, 1, .rw, 0⟩, ⟨3, 1, .rw, 1⟩, ⟨4, 1, .rw, 1⟩]⟩,
  ⟨0xA00004, 1, 4, false, [⟨0, 1, .w1c, 0⟩, ⟨1, 1, .w1c, 0⟩, ⟨2, 1, .w1c, 0⟩, ⟨3, 1, .w1c, 0⟩, ⟨4, 1, .w1c, 0⟩, ⟨5, 1, .w1c, 0⟩, ⟨6, 1, .w1c, 0⟩, ⟨7, 1, .w1c, 0⟩, ⟨8, 1, .w1c, 0⟩, ⟨9, 1, .w1c, 0⟩, ⟨10, 1, .w1c, 0⟩]⟩,
  ⟨0xA00008, 1, 4, false, [⟨0, 16, .rw, 0x7D0⟩, ⟨16, 16, .rw, 0x3E8⟩]⟩,
  ⟨0xA00010, 1, 8, true, [⟨0, 32, .rw, 0⟩]⟩,
  ⟨0xA00018, 1, 8, true, [⟨0, 32, .rw, 0⟩]⟩,
  ⟨0xA00020, 1, 4, false, [⟨0, 3, .wo, 0⟩, ⟨8, 5, .wo, 0⟩]⟩,
  ⟨0xA00040, 24, 4, false, [⟨0, 1, .ro, 0⟩, ⟨4, 4, .ro, 0⟩, ⟨8, 2, .ro, 0⟩]⟩,
  ⟨0xA00100, 24, 4, false, [⟨0, 4, .ro, 0⟩, ⟨4, 1, .ro, 0⟩, ⟨5, 1, .ro, 1⟩, ⟨6, 1, .ro, 0⟩, ⟨8, 3, .ro, 0⟩, ⟨11, 3, .ro, 0⟩]⟩,
  ⟨0xA00200, 24, 4, false, [⟨0, 7, .rw, 0x10⟩, ⟨8, 3, .rw, 3⟩, ⟨11, 1, .rw, 0⟩, ⟨12, 2, .rw, 0⟩, ⟨14, 2, .rw, 0⟩]⟩,
  ⟨0xA00300, 24, 4, false, [⟨0, 3, .wo, 0⟩]⟩,
  ⟨0xA00400, 24, 4, false, [⟨0, 8, .ro, 0⟩, ⟨8, 8, .ro, 0⟩, ⟨16, 8, .ro, 0⟩, ⟨24, 1, .ro, 0⟩, ⟨25, 1, .ro, 0⟩]⟩,
  ⟨0xA00500, 24, 8, true, [⟨0, 32, .ro, 0⟩]⟩,
  ⟨0xA01000, 24, 64, true, [⟨0, 32, .rc, 0⟩]⟩,
  ⟨0xA01008, 24, 64, true, [⟨0, 32, .rc, 0⟩]⟩,
  ⟨0xA01010, 24, 64, true, [⟨0, 32, .rc, 0⟩]⟩,
  ⟨0xA01018, 24, 64, true, [⟨0, 32, .rc, 0⟩]⟩,
  ⟨0xA01020, 24, 64, true, [⟨0, 32, .rc, 0⟩]⟩,
  ⟨0xA01028, 24, 64, true, [⟨0, 32, .rc, 0⟩]⟩,
  ⟨0xA01030, 24, 64, true, [⟨0, 32, .rc, 0⟩]⟩,
  ⟨0xA01038, 24, 64, true, [⟨0, 32, .rc, 0⟩]⟩]

/-- The registers of block DRV (Table 19-4). -/
def regsDrv : List RegDesc := regsDrv0

/-- Registers of block BAY, part 0. -/
def regsBay0 : List RegDesc := [
  ⟨0xB00000, 1, 4, false, [⟨0, 1, .rw, 1⟩]⟩,
  ⟨0xB00004, 1, 4, false, [⟨0, 1, .w1c, 0⟩, ⟨1, 1, .w1c, 0⟩, ⟨2, 1, .w1c, 0⟩, ⟨3, 1, .w1c, 0⟩, ⟨4, 1, .w1c, 0⟩, ⟨5, 1, .ro, 0⟩]⟩,
  ⟨0xB00008, 1, 4, false, [⟨0, 16, .rw, 0x27D8⟩]⟩,
  ⟨0xB0000C, 1, 4, false, [⟨0, 5, .rw, 0⟩, ⟨8, 1, .rw, 0⟩]⟩,
  ⟨0xB00010, 1, 4, false, [⟨0, 16, .ro, 0⟩, ⟨16, 16, .ro, 0⟩]⟩,
  ⟨0xB00014, 1, 4, false, [⟨0, 32, .ro, 0⟩]⟩,
  ⟨0xB00018, 1, 4, false, [⟨0, 32, .ro, 0⟩]⟩,
  ⟨0xB0001C, 1, 4, false, [⟨0, 32, .ro, 0⟩]⟩,
  ⟨0xB00020, 1, 8, true, [⟨0, 32, .rc, 0⟩]⟩,
  ⟨0xB00100, 26, 4, false, [⟨0, 1, .rw, 0⟩, ⟨1, 1, .rw, 0⟩]⟩,
  ⟨0xB00200, 26, 4, false, [⟨0, 2, .ro, 0⟩, ⟨2, 1, .ro, 0⟩, ⟨3, 3, .ro, 0⟩, ⟨6, 1, .ro, 0⟩, ⟨7, 1, .ro, 0⟩, ⟨8, 8, .ro, 0⟩, ⟨16, 1, .ro, 0⟩]⟩,
  ⟨0xB00400, 26, 16, true, [⟨0, 32, .ro, 0⟩]⟩,
  ⟨0xB00408, 26, 16, true, [⟨0, 32, .ro, 0⟩]⟩,
  ⟨0xB01000, 26, 32, true, [⟨0, 32, .rc, 0⟩]⟩,
  ⟨0xB01008, 26, 32, true, [⟨0, 32, .rc, 0⟩]⟩,
  ⟨0xB01010, 26, 32, true, [⟨0, 32, .rc, 0⟩]⟩,
  ⟨0xB01018, 26, 32, true, [⟨0, 32, .rc, 0⟩]⟩]

/-- The registers of block BAY (Table 19-4). -/
def regsBay : List RegDesc := regsBay0

/-- Registers of block WDN, part 0. -/
def regsWdn0 : List RegDesc := [
  ⟨0xC00000, 1, 4, false, [⟨0, 1, .rw, 1⟩, ⟨1, 1, .rw, 1⟩, ⟨2, 1, .rw, 1⟩, ⟨8, 4, .rw, 3⟩]⟩,
  ⟨0xC00004, 1, 4, false, [⟨0, 1, .w1c, 0⟩, ⟨1, 1, .w1c, 0⟩, ⟨2, 1, .w1c, 0⟩, ⟨3, 1, .w1c, 0⟩, ⟨4, 1, .w1c, 0⟩, ⟨5, 1, .w1c, 0⟩, ⟨6, 1, .w1c, 0⟩, ⟨7, 1, .w1c, 0⟩, ⟨8, 1, .w1c, 0⟩, ⟨9, 1, .w1c, 0⟩]⟩,
  ⟨0xC00008, 1, 4, false, [⟨0, 3, .ro, 7⟩, ⟨4, 3, .ro, 0⟩, ⟨8, 3, .ro, 0⟩, ⟨12, 2, .ro, 0⟩]⟩,
  ⟨0xC0000C, 1, 4, false, [⟨0, 3, .wo, 0⟩, ⟨4, 2, .wo, 0⟩]⟩,
  ⟨0xC00010, 1, 4, false, [⟨0, 3, .ro, 0⟩, ⟨4, 3, .ro, 0⟩]⟩,
  ⟨0xC00014, 1, 4, false, [⟨0, 18, .ro, 0⟩]⟩,
  ⟨0xC00018, 1, 4, false, [⟨0, 18, .rw, 0⟩]⟩,
  ⟨0xC0001C, 1, 4, false, [⟨0, 13, .rw, 1⟩]⟩,
  ⟨0xC00048, 1, 4, false, [⟨0, 2, .rc, 0⟩]⟩,
  ⟨0xC00020, 1, 8, true, [⟨0, 32, .ro, 0⟩]⟩,
  ⟨0xC00028, 1, 8, true, [⟨0, 32, .rw, 0xFFFFFFFF⟩]⟩,
  ⟨0xC00030, 1, 8, true, [⟨0, 32, .rw, 0⟩]⟩,
  ⟨0xC00038, 1, 8, true, [⟨0, 32, .ro, 0⟩]⟩,
  ⟨0xC00040, 1, 8, true, [⟨0, 32, .ro, 0⟩]⟩,
  ⟨0xC00100, 64, 4, false, [⟨0, 32, .ro, 0⟩]⟩,
  ⟨0xC00200, 1, 8, true, [⟨0, 32, .rc, 0⟩]⟩,
  ⟨0xC00208, 1, 8, true, [⟨0, 32, .rc, 0⟩]⟩,
  ⟨0xC00210, 1, 8, true, [⟨0, 32, .rc, 0⟩]⟩,
  ⟨0xC00218, 1, 8, true, [⟨0, 32, .rc, 0⟩]⟩,
  ⟨0xC00220, 1, 8, true, [⟨0, 32, .rc, 0⟩]⟩]

/-- Registers of block WDN, part 1. -/
def regsWdn1 : List RegDesc := [
  ⟨0xC00228, 1, 8, true, [⟨0, 32, .rc, 0⟩]⟩]

/-- The registers of block WDN (Table 19-4). -/
def regsWdn : List RegDesc := regsWdn0 ++ regsWdn1

/-- Registers of block PEER, part 0. -/
def regsPeer0 : List RegDesc := [
  ⟨0xD00000, 1, 4, false, [⟨0, 1, .rw, 0⟩, ⟨1, 1, .rw, 1⟩, ⟨2, 1, .rw, 0⟩, ⟨8, 11, .rw, 0xC8⟩]⟩,
  ⟨0xD00004, 1, 4, false, [⟨0, 1, .w1c, 0⟩, ⟨1, 1, .w1c, 0⟩, ⟨2, 1, .w1c, 0⟩, ⟨3, 1, .w1c, 0⟩, ⟨4, 1, .w1c, 0⟩, ⟨5, 1, .w1c, 0⟩, ⟨6, 1, .w1c, 0⟩, ⟨7, 1, .w1c, 0⟩, ⟨8, 1, .w1c, 0⟩, ⟨9, 1, .w1c, 0⟩, ⟨10, 1, .w1c, 0⟩]⟩,
  ⟨0xD00008, 1, 4, false, [⟨0, 3, .ro, 0⟩, ⟨3, 2, .ro, 0⟩, ⟨5, 1, .ro, 0⟩, ⟨8, 8, .ro, 0⟩, ⟨16, 8, .ro, 0⟩, ⟨24, 8, .ro, 0⟩]⟩,
  ⟨0xD0000C, 1, 4, false, [⟨0, 3, .wo, 0⟩, ⟨8, 8, .wo, 0⟩]⟩,
  ⟨0xD00010, 1, 4, false, [⟨0, 24, .rw, 0⟩]⟩,
  ⟨0xD00014, 1, 4, false, [⟨0, 5, .ro, 0⟩, ⟨8, 5, .ro, 0⟩, ⟨16, 2, .ro, 0⟩]⟩,
  ⟨0xD00018, 1, 4, false, [⟨0, 24, .ro, 0⟩]⟩,
  ⟨0xD0001C, 1, 4, false, [⟨0, 17, .ro, 0⟩]⟩,
  ⟨0xD00020, 1, 8, true, [⟨0, 32, .ro, 0⟩]⟩,
  ⟨0xD00100, 1, 8, true, [⟨0, 32, .rc, 0⟩]⟩,
  ⟨0xD00108, 1, 8, true, [⟨0, 32, .rc, 0⟩]⟩,
  ⟨0xD00110, 1, 8, true, [⟨0, 32, .rc, 0⟩]⟩,
  ⟨0xD00118, 1, 8, true, [⟨0, 32, .rc, 0⟩]⟩,
  ⟨0xD00120, 1, 8, true, [⟨0, 32, .rc, 0⟩]⟩,
  ⟨0xD00128, 1, 8, true, [⟨0, 32, .rc, 0⟩]⟩,
  ⟨0xD00130, 1, 8, true, [⟨0, 32, .rc, 0⟩]⟩]

/-- The registers of block PEER (Table 19-4). -/
def regsPeer : List RegDesc := regsPeer0

/-- Registers of block PWR, part 0. -/
def regsPwr0 : List RegDesc := [
  ⟨0xE00000, 1, 4, false, [⟨0, 2, .wo, 0⟩, ⟨2, 1, .wo, 0⟩, ⟨4, 2, .ro, 0⟩, ⟨6, 2, .ro, 0⟩, ⟨8, 2, .ro, 0⟩, ⟨10, 1, .ro, 0⟩, ⟨12, 2, .ro, 0⟩]⟩,
  ⟨0xE00004, 1, 4, false, [⟨0, 1, .w1c, 0⟩, ⟨1, 1, .w1c, 0⟩, ⟨2, 1, .w1c, 0⟩, ⟨3, 1, .w1c, 0⟩, ⟨4, 1, .w1c, 0⟩, ⟨5, 1, .w1c, 0⟩, ⟨6, 1, .w1c, 0⟩, ⟨7, 1, .w1c, 0⟩, ⟨8, 1, .w1c, 0⟩]⟩,
  ⟨0xE00008, 1, 4, false, [⟨0, 16, .rw, 0x64⟩, ⟨16, 1, .rw, 1⟩]⟩,
  ⟨0xE0000C, 1, 4, false, [⟨0, 7, .rw, 0x7C⟩]⟩,
  ⟨0xE00010, 1, 4, false, [⟨0, 32, .rw, 0⟩]⟩,
  ⟨0xE00014, 1, 4, false, [⟨0, 7, .ro, 0⟩, ⟨7, 1, .ro, 0⟩]⟩,
  ⟨0xE00018, 1, 4, false, [⟨0, 1, .wo, 0⟩]⟩,
  ⟨0xE0001C, 1, 4, false, [⟨1, 14, .ro, 0⟩]⟩,
  ⟨0xE00020, 1, 8, true, [⟨0, 32, .rw, 0xFFFFFFFF⟩]⟩,
  ⟨0xE00028, 1, 8, true, [⟨0, 32, .ro, 0⟩]⟩,
  ⟨0xE00030, 1, 4, false, [⟨0, 7, .rw, 0⟩]⟩,
  ⟨0xE00034, 1, 4, false, [⟨0, 10, .ro, 0⟩, ⟨12, 11, .ro, 0⟩, ⟨24, 1, .ro, 0⟩, ⟨25, 1, .ro, 0⟩]⟩,
  ⟨0xE00038, 1, 4, false, [⟨0, 10, .ro, 0⟩]⟩,
  ⟨0xE00100, 1, 8, true, [⟨0, 32, .rc, 0⟩]⟩,
  ⟨0xE00108, 1, 8, true, [⟨0, 32, .rc, 0⟩]⟩,
  ⟨0xE00110, 1, 8, true, [⟨0, 32, .rc, 0⟩]⟩,
  ⟨0xE00118, 1, 8, true, [⟨0, 32, .rc, 0⟩]⟩,
  ⟨0xE00120, 1, 8, true, [⟨0, 32, .rc, 0⟩]⟩,
  ⟨0xE00128, 1, 8, true, [⟨0, 32, .rc, 0⟩]⟩,
  ⟨0xE00130, 1, 8, true, [⟨0, 32, .rc, 0⟩]⟩]

/-- The registers of block PWR (Table 19-4). -/
def regsPwr : List RegDesc := regsPwr0

/-- Registers of block MGT, part 0. -/
def regsMgt0 : List RegDesc := [
  ⟨0xF00000, 1, 4, false, [⟨0, 1, .rw, 0⟩, ⟨1, 1, .rw, 1⟩]⟩,
  ⟨0xF00004, 1, 4, false, [⟨0, 1, .w1c, 0⟩, ⟨1, 1, .w1c, 0⟩, ⟨2, 1, .w1c, 0⟩, ⟨3, 1, .w1c, 0⟩, ⟨4, 1, .w1c, 0⟩, ⟨5, 1, .w1c, 0⟩, ⟨6, 1, .w1c, 0⟩]⟩,
  ⟨0xF00008, 1, 4, false, [⟨0, 7, .rwl, 0x5C⟩, ⟨8, 7, .rwl, 0x5D⟩, ⟨16, 2, .ro, 3⟩]⟩,
  ⟨0xF0000C, 1, 4, false, [⟨0, 16, .rw, 0⟩, ⟨16, 1, .rw, 0⟩]⟩,
  ⟨0xF00010, 4, 4, false, [⟨0, 32, .rw, 0⟩]⟩,
  ⟨0xF00020, 1, 4, false, [⟨0, 16, .rw, 0x7FE⟩]⟩,
  ⟨0xF00024, 1, 4, false, [⟨0, 12, .ro, 0⟩, ⟨12, 13, .ro, 0⟩]⟩,
  ⟨0xF00028, 1, 4, false, [⟨0, 13, .wo, 0⟩]⟩,
  ⟨0xF0002C, 1, 4, false, [⟨0, 12, .rw, 0⟩]⟩,
  ⟨0xF00040, 16, 4, false, [⟨0, 32, .ro, 0⟩]⟩,
  ⟨0xF00080, 16, 4, false, [⟨0, 32, .rw, 0⟩]⟩,
  ⟨0xF000C0, 1, 4, false, [⟨0, 1, .wo, 0⟩]⟩,
  ⟨0xF000C4, 1, 4, false, [⟨0, 2, .wo, 0⟩]⟩,
  ⟨0xF000C8, 1, 4, false, [⟨0, 7, .ro, 0⟩, ⟨8, 8, .ro, 0⟩, ⟨16, 1, .ro, 0⟩]⟩,
  ⟨0xF000CC, 1, 4, false, [⟨0, 32, .ro, 0⟩]⟩,
  ⟨0xF000D0, 1, 4, false, [⟨0, 2, .wo, 0⟩]⟩,
  ⟨0xF000D4, 1, 4, false, [⟨0, 32, .wo, 0⟩]⟩,
  ⟨0xF000D8, 1, 4, false, [⟨0, 1, .ro, 0⟩, ⟨8, 8, .ro, 0⟩, ⟨17, 15, .ro, 0⟩]⟩,
  ⟨0xF000E0, 1, 4, false, [⟨0, 32, .wo, 0⟩]⟩,
  ⟨0xF000E4, 1, 4, false, [⟨0, 2, .wo, 0⟩]⟩]

/-- Registers of block MGT, part 1. -/
def regsMgt1 : List RegDesc := [
  ⟨0xF000E8, 1, 4, false, [⟨0, 3, .ro, 0⟩, ⟨8, 8, .ro, 0⟩]⟩,
  ⟨0xF000F0, 1, 8, true, [⟨0, 32, .ro, 0⟩]⟩,
  ⟨0xF00100, 1, 8, true, [⟨0, 32, .rc, 0⟩]⟩,
  ⟨0xF00108, 1, 8, true, [⟨0, 32, .rc, 0⟩]⟩,
  ⟨0xF00110, 1, 8, true, [⟨0, 32, .rc, 0⟩]⟩,
  ⟨0xF00118, 1, 8, true, [⟨0, 32, .rc, 0⟩]⟩,
  ⟨0xF00120, 1, 8, true, [⟨0, 32, .rc, 0⟩]⟩,
  ⟨0xF00128, 1, 8, true, [⟨0, 32, .rc, 0⟩]⟩,
  ⟨0xF00130, 1, 8, true, [⟨0, 32, .rc, 0⟩]⟩,
  ⟨0xF00138, 1, 8, true, [⟨0, 32, .rc, 0⟩]⟩]

/-- The registers of block MGT (Table 19-4). -/
def regsMgt : List RegDesc := regsMgt0 ++ regsMgt1

/-- The descriptors of the block that holds an address; 1 MiB blocks (R14). -/
def regsOf (addr : Nat) : List RegDesc :=
  match addr / 0x100000 with
  | 0 => regsGlb
  | 1 => regsInv
  | 2 => regsHst
  | 3 => regsTrn
  | 4 => regsCq
  | 5 => regsVol
  | 6 => regsStr
  | 7 => regsCip
  | 8 => regsMac
  | 9 => regsTc
  | 10 => regsDrv
  | 11 => regsBay
  | 12 => regsWdn
  | 13 => regsPeer
  | 14 => regsPwr
  | 15 => regsMgt
  | _ => []

/-- INV_CTRL.CMD. -/
abbrev F.INV_CTRL_CMD : Fld := ⟨0x100000, 0, 4⟩
/-- INV_CTRL.SLOT. -/
abbrev F.INV_CTRL_SLOT : Fld := ⟨0x100000, 4, 2⟩
/-- INV_STATUS.STATE. -/
abbrev F.INV_STATUS_STATE : Fld := ⟨0x100004, 0, 4⟩
/-- INV_STATUS.BOOT_SOURCE. -/
abbrev F.INV_STATUS_BOOT_SOURCE : Fld := ⟨0x100004, 4, 4⟩
/-- INV_STATUS.STAGED. -/
abbrev F.INV_STATUS_STAGED : Fld := ⟨0x100004, 8, 1⟩
/-- INV_STATUS.RESIDENT_FAIL. -/
abbrev F.INV_STATUS_RESIDENT_FAIL : Fld := ⟨0x100004, 9, 1⟩
/-- INV_STATUS.DONE. -/
abbrev F.INV_STATUS_DONE : Fld := ⟨0x100004, 10, 1⟩
/-- INV_STATUS.ERR. -/
abbrev F.INV_STATUS_ERR : Fld := ⟨0x100004, 11, 1⟩
/-- INV_STATUS.OPEN_PATH. -/
abbrev F.INV_STATUS_OPEN_PATH : Fld := ⟨0x100004, 12, 3⟩
/-- INV_STATUS.FOREIGN. -/
abbrev F.INV_STATUS_FOREIGN : Fld := ⟨0x100004, 16, 8⟩
/-- INV_DATA.DATA. -/
abbrev F.INV_DATA_DATA : Fld := ⟨0x100008, 0, 32⟩
/-- INV_ERROR.CODE. -/
abbrev F.INV_ERROR_CODE : Fld := ⟨0x10000C, 0, 8⟩
/-- INV_ERROR.SECTION. -/
abbrev F.INV_ERROR_SECTION : Fld := ⟨0x10000C, 8, 8⟩
/-- INV_ERROR.RECORD. -/
abbrev F.INV_ERROR_RECORD : Fld := ⟨0x10000C, 16, 16⟩
/-- INV_RESIDENT_SERIAL.VALUE. -/
abbrev F.INV_RESIDENT_SERIAL_VALUE : Fld := ⟨0x100010, 0, 32⟩
/-- INV_STAGED_SERIAL.VALUE. -/
abbrev F.INV_STAGED_SERIAL_VALUE : Fld := ⟨0x100018, 0, 32⟩
/-- INV_FLOOR.VALUE. -/
abbrev F.INV_FLOOR_VALUE : Fld := ⟨0x100020, 0, 32⟩
/-- INV_KEYSLOT[n].PROGRAMMED. -/
abbrev F.INV_KEYSLOT_PROGRAMMED (n : Nat) : Fld := ⟨0x100030 + 4 * n, 0, 1⟩
/-- INV_KEYSLOT[n].REVOKED. -/
abbrev F.INV_KEYSLOT_REVOKED (n : Nat) : Fld := ⟨0x100030 + 4 * n, 1, 1⟩
/-- INV_SECTION_SERIAL[n].SERIAL. -/
abbrev F.INV_SECTION_SERIAL_SERIAL (n : Nat) : Fld := ⟨0x100040 + 4 * n, 0, 32⟩
/-- GLB_ID.ID. -/
abbrev F.GLB_ID_ID : Fld := ⟨0x0, 0, 32⟩
/-- HST_CTRL.CELLAR_SCRUB_EN. -/
abbrev F.HST_CTRL_CELLAR_SCRUB_EN : Fld := ⟨0x200000, 0, 1⟩
/-- HST_CTRL.PANTRY_SCRUB_EN. -/
abbrev F.HST_CTRL_PANTRY_SCRUB_EN : Fld := ⟨0x200000, 1, 1⟩
/-- HST_CTRL.AUTO_RETIRE. -/
abbrev F.HST_CTRL_AUTO_RETIRE : Fld := ⟨0x200000, 2, 1⟩
/-- HST_CTRL.RESEQ_TIMEOUT. -/
abbrev F.HST_CTRL_RESEQ_TIMEOUT : Fld := ⟨0x200000, 8, 8⟩
/-- HST_STATUS.CELLAR_CE. -/
abbrev F.HST_STATUS_CELLAR_CE : Fld := ⟨0x200004, 0, 1⟩
/-- HST_STATUS.CELLAR_UE. -/
abbrev F.HST_STATUS_CELLAR_UE : Fld := ⟨0x200004, 1, 1⟩
/-- HST_STATUS.PC_RETIRED. -/
abbrev F.HST_STATUS_PC_RETIRED : Fld := ⟨0x200004, 2, 1⟩
/-- HST_STATUS.MIGRATION_DONE. -/
abbrev F.HST_STATUS_MIGRATION_DONE : Fld := ⟨0x200004, 3, 1⟩
/-- HST_STATUS.RETIRE_REFUSED. -/
abbrev F.HST_STATUS_RETIRE_REFUSED : Fld := ⟨0x200004, 4, 1⟩
/-- HST_STATUS.CELLAR_CRITICAL. -/
abbrev F.HST_STATUS_CELLAR_CRITICAL : Fld := ⟨0x200004, 5, 1⟩
/-- HST_STATUS.PANTRY_CE. -/
abbrev F.HST_STATUS_PANTRY_CE : Fld := ⟨0x200004, 6, 1⟩
/-- HST_STATUS.PANTRY_UE. -/
abbrev F.HST_STATUS_PANTRY_UE : Fld := ⟨0x200004, 7, 1⟩
/-- HST_STATUS.PANTRY_REPAIRED. -/
abbrev F.HST_STATUS_PANTRY_REPAIRED : Fld := ⟨0x200004, 8, 1⟩
/-- HST_STATUS.PANTRY_SPARES_OUT. -/
abbrev F.HST_STATUS_PANTRY_SPARES_OUT : Fld := ⟨0x200004, 9, 1⟩
/-- HST_STATUS.HCHK_ERR. -/
abbrev F.HST_STATUS_HCHK_ERR : Fld := ⟨0x200004, 10, 1⟩
/-- HST_STATUS.FLOW_ERR. -/
abbrev F.HST_STATUS_FLOW_ERR : Fld := ⟨0x200004, 11, 1⟩
/-- HST_CAPACITY.USABLE_SEGMENTS. -/
abbrev F.HST_CAPACITY_USABLE_SEGMENTS : Fld := ⟨0x200008, 0, 10⟩
/-- HST_CAPACITY.RETIRED_PCS. -/
abbrev F.HST_CAPACITY_RETIRED_PCS : Fld := ⟨0x200008, 10, 3⟩
/-- HST_CAPACITY.POOL_SLICES. -/
abbrev F.HST_CAPACITY_POOL_SLICES : Fld := ⟨0x200008, 16, 9⟩
/-- HST_RETIRE.PC. -/
abbrev F.HST_RETIRE_PC : Fld := ⟨0x20000C, 0, 6⟩
/-- HST_RETIRE.GO. -/
abbrev F.HST_RETIRE_GO : Fld := ⟨0x20000C, 8, 1⟩
/-- HST_CE_LIMIT.LIMIT. -/
abbrev F.HST_CE_LIMIT_LIMIT : Fld := ⟨0x200010, 0, 16⟩
/-- HST_UE_CELL.CELL. -/
abbrev F.HST_UE_CELL_CELL : Fld := ⟨0x200014, 0, 28⟩
/-- HST_UE_CELL.GRANULE. -/
abbrev F.HST_UE_CELL_GRANULE : Fld := ⟨0x200014, 28, 3⟩
/-- HST_PANTRY_UE_LOC.BANK. -/
abbrev F.HST_PANTRY_UE_LOC_BANK : Fld := ⟨0x200018, 0, 6⟩
/-- HST_PANTRY_UE_LOC.ROW. -/
abbrev F.HST_PANTRY_UE_LOC_ROW : Fld := ⟨0x200018, 6, 13⟩
/-- HST_PANTRY_UE_LOC.WORD. -/
abbrev F.HST_PANTRY_UE_LOC_WORD : Fld := ⟨0x200018, 19, 6⟩
/-- HST_SLICE_INDEX.SEGMENT. -/
abbrev F.HST_SLICE_INDEX_SEGMENT : Fld := ⟨0x20001C, 0, 10⟩
/-- HST_SLICE_INDEX.BANK_GROUP. -/
abbrev F.HST_SLICE_INDEX_BANK_GROUP : Fld := ⟨0x20001C, 16, 5⟩
/-- HST_SLICE_DATA.PC. -/
abbrev F.HST_SLICE_DATA_PC : Fld := ⟨0x200020, 0, 6⟩
/-- HST_SLICE_DATA.SLOT. -/
abbrev F.HST_SLICE_DATA_SLOT : Fld := ⟨0x200020, 6, 9⟩
/-- HST_SLICE_DATA.SPILLED. -/
abbrev F.HST_SLICE_DATA_SPILLED : Fld := ⟨0x200020, 15, 1⟩
/-- HST_SLICE_DATA.POISON_ANY. -/
abbrev F.HST_SLICE_DATA_POISON_ANY : Fld := ⟨0x200020, 16, 1⟩
/-- HST_SLICE_DATA.WITHDRAWN. -/
abbrev F.HST_SLICE_DATA_WITHDRAWN : Fld := ⟨0x200020, 17, 1⟩
/-- HST_REGION[n].BASE. -/
abbrev F.HST_REGION_BASE (n : Nat) : Fld := ⟨0x200040 + 4 * n, 0, 10⟩
/-- HST_REGION[n].COUNT. -/
abbrev F.HST_REGION_COUNT (n : Nat) : Fld := ⟨0x200040 + 4 * n, 10, 10⟩
/-- HST_REGION[n].KIND. -/
abbrev F.HST_REGION_KIND (n : Nat) : Fld := ⟨0x200040 + 4 * n, 20, 4⟩
/-- HST_CE_TOTAL.VALUE. -/
abbrev F.HST_CE_TOTAL_VALUE : Fld := ⟨0x200080, 0, 32⟩
/-- HST_UE_TOTAL.VALUE. -/
abbrev F.HST_UE_TOTAL_VALUE : Fld := ⟨0x200088, 0, 32⟩
/-- HST_HCHK_ERR.VALUE. -/
abbrev F.HST_HCHK_ERR_VALUE : Fld := ⟨0x200090, 0, 32⟩
/-- HST_FLOW_ERR.VALUE. -/
abbrev F.HST_FLOW_ERR_VALUE : Fld := ⟨0x200098, 0, 32⟩
/-- HST_PC_STATE[n].STATE. -/
abbrev F.HST_PC_STATE_STATE (n : Nat) : Fld := ⟨0x200100 + 4 * n, 0, 2⟩
/-- HST_PC_STATE[n].CAUSE. -/
abbrev F.HST_PC_STATE_CAUSE (n : Nat) : Fld := ⟨0x200100 + 4 * n, 2, 2⟩
/-- HST_PC_STATE[n].CE_24H. -/
abbrev F.HST_PC_STATE_CE_24H (n : Nat) : Fld := ⟨0x200100 + 4 * n, 16, 16⟩
/-- HST_PANTRY_BANK[n].SPARES_USED. -/
abbrev F.HST_PANTRY_BANK_SPARES_USED (n : Nat) : Fld := ⟨0x200200 + 4 * n, 0, 5⟩
/-- HST_PANTRY_BANK[n].UE_SEEN. -/
abbrev F.HST_PANTRY_BANK_UE_SEEN (n : Nat) : Fld := ⟨0x200200 + 4 * n, 5, 1⟩
/-- HST_PANTRY_BANK[n].CE_COUNT. -/
abbrev F.HST_PANTRY_BANK_CE_COUNT (n : Nat) : Fld := ⟨0x200200 + 4 * n, 16, 16⟩
/-- HST_RESEQ[n].HIGH_WATER. -/
abbrev F.HST_RESEQ_HIGH_WATER (n : Nat) : Fld := ⟨0x200300 + 4 * n, 0, 11⟩
/-- HST_RESEQ[n].FLOW_ERRS. -/
abbrev F.HST_RESEQ_FLOW_ERRS (n : Nat) : Fld := ⟨0x200300 + 4 * n, 16, 16⟩
/-- HST_AGENT_CELLS_IN[n].VALUE. -/
abbrev F.HST_AGENT_CELLS_IN_VALUE (n : Nat) : Fld := ⟨0x200400 + 16 * n, 0, 32⟩
/-- HST_AGENT_CELLS_OUT[n].VALUE. -/
abbrev F.HST_AGENT_CELLS_OUT_VALUE (n : Nat) : Fld := ⟨0x200408 + 16 * n, 0, 32⟩
/-- TRN_CTRL.EN. -/
abbrev F.TRN_CTRL_EN : Fld := ⟨0x300000, 0, 1⟩
/-- TRN_CTRL.ADAPTIVE_RTO. -/
abbrev F.TRN_CTRL_ADAPTIVE_RTO : Fld := ⟨0x300000, 1, 1⟩
/-- TRN_CTRL.ACK_DELAY. -/
abbrev F.TRN_CTRL_ACK_DELAY : Fld := ⟨0x300000, 8, 8⟩
/-- TRN_CTRL.RETRY_LIMIT. -/
abbrev F.TRN_CTRL_RETRY_LIMIT : Fld := ⟨0x300000, 16, 4⟩
/-- TRN_INIT_RETRY.INTERVAL. -/
abbrev F.TRN_INIT_RETRY_INTERVAL : Fld := ⟨0x300004, 0, 10⟩
/-- TRN_STATUS.TAG_FAIL. -/
abbrev F.TRN_STATUS_TAG_FAIL : Fld := ⟨0x300008, 0, 1⟩
/-- TRN_STATUS.REPLAY. -/
abbrev F.TRN_STATUS_REPLAY : Fld := ⟨0x300008, 1, 1⟩
/-- TRN_STATUS.MALFORMED. -/
abbrev F.TRN_STATUS_MALFORMED : Fld := ⟨0x300008, 2, 1⟩
/-- TRN_STATUS.NO_RESOURCE. -/
abbrev F.TRN_STATUS_NO_RESOURCE : Fld := ⟨0x300008, 3, 1⟩
/-- TRN_STATUS.STALE. -/
abbrev F.TRN_STATUS_STALE : Fld := ⟨0x300008, 4, 1⟩
/-- TRN_STATUS.MSG_FAILED. -/
abbrev F.TRN_STATUS_MSG_FAILED : Fld := ⟨0x300008, 5, 1⟩
/-- TRN_STATUS.PATH_DOWN. -/
abbrev F.TRN_STATUS_PATH_DOWN : Fld := ⟨0x300008, 6, 1⟩
/-- TRN_STATUS.REKEY_DUE. -/
abbrev F.TRN_STATUS_REKEY_DUE : Fld := ⟨0x300008, 7, 1⟩
/-- TRN_STATUS.SA_EXHAUSTED. -/
abbrev F.TRN_STATUS_SA_EXHAUSTED : Fld := ⟨0x300008, 8, 1⟩
/-- TRN_STATUS.SYNC_DONE. -/
abbrev F.TRN_STATUS_SYNC_DONE : Fld := ⟨0x300008, 9, 1⟩
/-- TRN_RX_QUOTA.QUOTA. -/
abbrev F.TRN_RX_QUOTA_QUOTA : Fld := ⟨0x30000C, 0, 18⟩
/-- TRN_RX_IN_USE.COUNT. -/
abbrev F.TRN_RX_IN_USE_COUNT : Fld := ⟨0x300010, 0, 18⟩
/-- TRN_TX_IN_USE.COUNT. -/
abbrev F.TRN_TX_IN_USE_COUNT : Fld := ⟨0x300014, 0, 18⟩
/-- TRN_SA_SEL.SA. -/
abbrev F.TRN_SA_SEL_SA : Fld := ⟨0x300018, 0, 13⟩
/-- TRN_SA_CMD.CMD. -/
abbrev F.TRN_SA_CMD_CMD : Fld := ⟨0x30001C, 0, 3⟩
/-- TRN_SA_CMD.NEW_SA. -/
abbrev F.TRN_SA_CMD_NEW_SA : Fld := ⟨0x30001C, 16, 13⟩
/-- TRN_SA_WORD[n].WORD. -/
abbrev F.TRN_SA_WORD_WORD (n : Nat) : Fld := ⟨0x300100 + 4 * n, 0, 32⟩
/-- TRN_RX_PKTS.VALUE. -/
abbrev F.TRN_RX_PKTS_VALUE : Fld := ⟨0x300200, 0, 32⟩
/-- TRN_TX_PKTS.VALUE. -/
abbrev F.TRN_TX_PKTS_VALUE : Fld := ⟨0x300208, 0, 32⟩
/-- TRN_RETRIES.VALUE. -/
abbrev F.TRN_RETRIES_VALUE : Fld := ⟨0x300210, 0, 32⟩
/-- TRN_TAG_FAIL.VALUE. -/
abbrev F.TRN_TAG_FAIL_VALUE : Fld := ⟨0x300218, 0, 32⟩
/-- TRN_REPLAY_DROP.VALUE. -/
abbrev F.TRN_REPLAY_DROP_VALUE : Fld := ⟨0x300220, 0, 32⟩
/-- TRN_DUP_PKTS.VALUE. -/
abbrev F.TRN_DUP_PKTS_VALUE : Fld := ⟨0x300228, 0, 32⟩
/-- TRN_NAK_TX.VALUE. -/
abbrev F.TRN_NAK_TX_VALUE : Fld := ⟨0x300230, 0, 32⟩
/-- TRN_NAK_RX.VALUE. -/
abbrev F.TRN_NAK_RX_VALUE : Fld := ⟨0x300238, 0, 32⟩
/-- TRN_MSG_FAILED.VALUE. -/
abbrev F.TRN_MSG_FAILED_VALUE : Fld := ⟨0x300240, 0, 32⟩
/-- TRN_REAPED.VALUE. -/
abbrev F.TRN_REAPED_VALUE : Fld := ⟨0x300248, 0, 32⟩
/-- TRN_TX_WAITS.VALUE. -/
abbrev F.TRN_TX_WAITS_VALUE : Fld := ⟨0x300250, 0, 32⟩
/-- TRN_PATH_MISMATCH.VALUE. -/
abbrev F.TRN_PATH_MISMATCH_VALUE : Fld := ⟨0x300258, 0, 32⟩
/-- TRN_NO_SA.VALUE. -/
abbrev F.TRN_NO_SA_VALUE : Fld := ⟨0x300260, 0, 32⟩
/-- TRN_MALFORMED.VALUE. -/
abbrev F.TRN_MALFORMED_VALUE : Fld := ⟨0x300268, 0, 32⟩
/-- WIN_CTRL.EN. -/
abbrev F.WIN_CTRL_EN : Fld := ⟨0x301000, 0, 1⟩
/-- WIN_SEL.KEY. -/
abbrev F.WIN_SEL_KEY : Fld := ⟨0x301004, 0, 16⟩
/-- WIN_CMD.CMD. -/
abbrev F.WIN_CMD_CMD : Fld := ⟨0x301008, 0, 2⟩
/-- WIN_STATUS.REVOKE_DONE. -/
abbrev F.WIN_STATUS_REVOKE_DONE : Fld := ⟨0x30100C, 0, 1⟩
/-- WIN_STATUS.CMD_REFUSED. -/
abbrev F.WIN_STATUS_CMD_REFUSED : Fld := ⟨0x30100C, 1, 1⟩
/-- WIN_STATUS.ACCESS_NAK. -/
abbrev F.WIN_STATUS_ACCESS_NAK : Fld := ⟨0x30100C, 2, 1⟩
/-- WIN_STATUS.BOUNDS_NAK. -/
abbrev F.WIN_STATUS_BOUNDS_NAK : Fld := ⟨0x30100C, 3, 1⟩
/-- WIN_STATUS.COMMIT_DISCARD. -/
abbrev F.WIN_STATUS_COMMIT_DISCARD : Fld := ⟨0x30100C, 4, 1⟩
/-- WIN_STATUS.COMMIT_FULL. -/
abbrev F.WIN_STATUS_COMMIT_FULL : Fld := ⟨0x30100C, 5, 1⟩
/-- WIN_STATUS.FENCES_OPEN. -/
abbrev F.WIN_STATUS_FENCES_OPEN : Fld := ⟨0x30100C, 16, 16⟩
/-- WIN_DONE.GENERATION. -/
abbrev F.WIN_DONE_GENERATION : Fld := ⟨0x301010, 0, 16⟩
/-- WIN_DONE.KEY. -/
abbrev F.WIN_DONE_KEY : Fld := ⟨0x301010, 16, 16⟩
/-- WIN_WORD[n].WORD. -/
abbrev F.WIN_WORD_WORD (n : Nat) : Fld := ⟨0x301020 + 4 * n, 0, 32⟩
/-- WIN_PLACE_OK.VALUE. -/
abbrev F.WIN_PLACE_OK_VALUE : Fld := ⟨0x301100, 0, 32⟩
/-- WIN_ACCESS_NAK.VALUE. -/
abbrev F.WIN_ACCESS_NAK_VALUE : Fld := ⟨0x301108, 0, 32⟩
/-- WIN_BOUNDS_NAK.VALUE. -/
abbrev F.WIN_BOUNDS_NAK_VALUE : Fld := ⟨0x301110, 0, 32⟩
/-- WIN_FENCE_LATE.VALUE. -/
abbrev F.WIN_FENCE_LATE_VALUE : Fld := ⟨0x301118, 0, 32⟩
/-- WIN_COMMIT_HELD.VALUE. -/
abbrev F.WIN_COMMIT_HELD_VALUE : Fld := ⟨0x301120, 0, 32⟩
/-- WIN_COMMIT_DISCARD.VALUE. -/
abbrev F.WIN_COMMIT_DISCARD_VALUE : Fld := ⟨0x301128, 0, 32⟩
/-- WIN_FETCH_SERVED.VALUE. -/
abbrev F.WIN_FETCH_SERVED_VALUE : Fld := ⟨0x301130, 0, 32⟩
/-- WIN_HOLD[n].IN_USE. -/
abbrev F.WIN_HOLD_IN_USE (n : Nat) : Fld := ⟨0x301140 + 4 * n, 0, 9⟩
/-- WIN_HOLD[n].HIGH_WATER. -/
abbrev F.WIN_HOLD_HIGH_WATER (n : Nat) : Fld := ⟨0x301140 + 4 * n, 16, 9⟩
/-- CQ_CTRL.EN. -/
abbrev F.CQ_CTRL_EN : Fld := ⟨0x400000, 0, 1⟩
/-- CQ_CMD.CMD. -/
abbrev F.CQ_CMD_CMD : Fld := ⟨0x400004, 0, 3⟩
/-- CQ_CMD.EP. -/
abbrev F.CQ_CMD_EP : Fld := ⟨0x400004, 16, 12⟩
/-- CQ_STATUS.RESET_BUSY. -/
abbrev F.CQ_STATUS_RESET_BUSY : Fld := ⟨0x400008, 0, 1⟩
/-- CQ_STATUS.RESET_DONE. -/
abbrev F.CQ_STATUS_RESET_DONE : Fld := ⟨0x400008, 1, 1⟩
/-- CQ_STATUS.TAG_CONFLICT. -/
abbrev F.CQ_STATUS_TAG_CONFLICT : Fld := ⟨0x400008, 2, 1⟩
/-- CQ_STATUS.QUEUE_FAILED. -/
abbrev F.CQ_STATUS_QUEUE_FAILED : Fld := ⟨0x400008, 3, 1⟩
/-- CQ_STATUS.TIMEOUT. -/
abbrev F.CQ_STATUS_TIMEOUT : Fld := ⟨0x400008, 4, 1⟩
/-- CQ_STATUS.INTAKE_FULL. -/
abbrev F.CQ_STATUS_INTAKE_FULL : Fld := ⟨0x400008, 5, 1⟩
/-- CQ_STATUS.CMD_REFUSED. -/
abbrev F.CQ_STATUS_CMD_REFUSED : Fld := ⟨0x400008, 6, 1⟩
/-- CQ_POOL.SLOTS. -/
abbrev F.CQ_POOL_SLOTS : Fld := ⟨0x40000C, 0, 15⟩
/-- CQ_POOL.IN_USE. -/
abbrev F.CQ_POOL_IN_USE : Fld := ⟨0x40000C, 16, 15⟩
/-- CQ_Q_SEL.EP. -/
abbrev F.CQ_Q_SEL_EP : Fld := ⟨0x400010, 0, 12⟩
/-- CQ_Q_SEL.QUEUE. -/
abbrev F.CQ_Q_SEL_QUEUE : Fld := ⟨0x400010, 16, 6⟩
/-- CQ_EP_STATE.ENABLED. -/
abbrev F.CQ_EP_STATE_ENABLED : Fld := ⟨0x400014, 0, 1⟩
/-- CQ_EP_STATE.QUEUES. -/
abbrev F.CQ_EP_STATE_QUEUES : Fld := ⟨0x400014, 1, 7⟩
/-- CQ_Q_STATE.STATE. -/
abbrev F.CQ_Q_STATE_STATE : Fld := ⟨0x400018, 0, 2⟩
/-- CQ_Q_STATE.RING_BOUND. -/
abbrev F.CQ_Q_STATE_RING_BOUND : Fld := ⟨0x400018, 2, 1⟩
/-- CQ_Q_STATE.OUTSTANDING. -/
abbrev F.CQ_Q_STATE_OUTSTANDING : Fld := ⟨0x400018, 3, 6⟩
/-- CQ_Q_STATE.INCARNATION. -/
abbrev F.CQ_Q_STATE_INCARNATION : Fld := ⟨0x400018, 16, 16⟩
/-- CQ_Q_RING.PRODUCER. -/
abbrev F.CQ_Q_RING_PRODUCER : Fld := ⟨0x40001C, 0, 16⟩
/-- CQ_Q_RING.PHASE. -/
abbrev F.CQ_Q_RING_PHASE : Fld := ⟨0x40001C, 16, 1⟩
/-- CQ_Q_TOKEN[n].WORD. -/
abbrev F.CQ_Q_TOKEN_WORD (n : Nat) : Fld := ⟨0x400020 + 4 * n, 0, 32⟩
/-- CQ_ACCEPTED.VALUE. -/
abbrev F.CQ_ACCEPTED_VALUE : Fld := ⟨0x400100, 0, 32⟩
/-- CQ_COMPLETED.VALUE. -/
abbrev F.CQ_COMPLETED_VALUE : Fld := ⟨0x400108, 0, 32⟩
/-- CQ_DUPLICATE.VALUE. -/
abbrev F.CQ_DUPLICATE_VALUE : Fld := ⟨0x400110, 0, 32⟩
/-- CQ_TAG_CONFLICT.VALUE. -/
abbrev F.CQ_TAG_CONFLICT_VALUE : Fld := ⟨0x400118, 0, 32⟩
/-- CQ_STALE.VALUE. -/
abbrev F.CQ_STALE_VALUE : Fld := ⟨0x400120, 0, 32⟩
/-- CQ_NO_QUEUE.VALUE. -/
abbrev F.CQ_NO_QUEUE_VALUE : Fld := ⟨0x400128, 0, 32⟩
/-- CQ_INTAKE_FULL.VALUE. -/
abbrev F.CQ_INTAKE_FULL_VALUE : Fld := ⟨0x400130, 0, 32⟩
/-- CQ_TIMEOUTS.VALUE. -/
abbrev F.CQ_TIMEOUTS_VALUE : Fld := ⟨0x400138, 0, 32⟩
/-- CQ_ABORTED.VALUE. -/
abbrev F.CQ_ABORTED_VALUE : Fld := ⟨0x400140, 0, 32⟩
/-- CQ_UNDELIVERED.VALUE. -/
abbrev F.CQ_UNDELIVERED_VALUE : Fld := ⟨0x400148, 0, 32⟩
/-- VOL_CTRL.EN. -/
abbrev F.VOL_CTRL_EN : Fld := ⟨0x500000, 0, 1⟩
/-- VOL_STATUS.CMD_DONE. -/
abbrev F.VOL_STATUS_CMD_DONE : Fld := ⟨0x500004, 0, 1⟩
/-- VOL_STATUS.CMD_REFUSED. -/
abbrev F.VOL_STATUS_CMD_REFUSED : Fld := ⟨0x500004, 1, 1⟩
/-- VOL_STATUS.BUSY. -/
abbrev F.VOL_STATUS_BUSY : Fld := ⟨0x500004, 2, 1⟩
/-- VOL_STATUS.TEMPLATE_MISMATCH. -/
abbrev F.VOL_STATUS_TEMPLATE_MISMATCH : Fld := ⟨0x500004, 3, 1⟩
/-- VOL_STATUS.GROUP_STATE. -/
abbrev F.VOL_STATUS_GROUP_STATE : Fld := ⟨0x500004, 4, 1⟩
/-- VOL_STATUS.GUARD_ERR. -/
abbrev F.VOL_STATUS_GUARD_ERR : Fld := ⟨0x500004, 5, 1⟩
/-- VOL_STATUS.TAG_ERR. -/
abbrev F.VOL_STATUS_TAG_ERR : Fld := ⟨0x500004, 6, 1⟩
/-- VOL_SEL.INDEX. -/
abbrev F.VOL_SEL_INDEX : Fld := ⟨0x500008, 0, 20⟩
/-- VOL_SEL.TABLE. -/
abbrev F.VOL_SEL_TABLE : Fld := ⟨0x500008, 24, 2⟩
/-- VOL_CMD.CMD. -/
abbrev F.VOL_CMD_CMD : Fld := ⟨0x50000C, 0, 3⟩
/-- VOL_ERROR.CODE. -/
abbrev F.VOL_ERROR_CODE : Fld := ⟨0x500010, 0, 8⟩
/-- VOL_WORD[n].WORD. -/
abbrev F.VOL_WORD_WORD (n : Nat) : Fld := ⟨0x500040 + 4 * n, 0, 32⟩
/-- VOL_XLATE.VALUE. -/
abbrev F.VOL_XLATE_VALUE : Fld := ⟨0x500100, 0, 32⟩
/-- VOL_MAP_MISS.VALUE. -/
abbrev F.VOL_MAP_MISS_VALUE : Fld := ⟨0x500108, 0, 32⟩
/-- VOL_GUARD_ERR.VALUE. -/
abbrev F.VOL_GUARD_ERR_VALUE : Fld := ⟨0x500110, 0, 32⟩
/-- VOL_TAG_ERR.VALUE. -/
abbrev F.VOL_TAG_ERR_VALUE : Fld := ⟨0x500118, 0, 32⟩
/-- VOL_REFUSED.VALUE. -/
abbrev F.VOL_REFUSED_VALUE : Fld := ⟨0x500120, 0, 32⟩
/-- STR_CTRL.EN. -/
abbrev F.STR_CTRL_EN : Fld := ⟨0x600000, 0, 1⟩
/-- STR_CTRL.CKPT_EN. -/
abbrev F.STR_CTRL_CKPT_EN : Fld := ⟨0x600000, 1, 1⟩
/-- STR_STATUS.CKPT_DONE. -/
abbrev F.STR_STATUS_CKPT_DONE : Fld := ⟨0x600004, 0, 1⟩
/-- STR_STATUS.CKPT_LATE. -/
abbrev F.STR_STATUS_CKPT_LATE : Fld := ⟨0x600004, 1, 1⟩
/-- STR_STATUS.COPY_LOST. -/
abbrev F.STR_STATUS_COPY_LOST : Fld := ⟨0x600004, 2, 1⟩
/-- STR_STATUS.DUMP_SEALED. -/
abbrev F.STR_STATUS_DUMP_SEALED : Fld := ⟨0x600004, 3, 1⟩
/-- STR_STATUS.REPLAY_DONE. -/
abbrev F.STR_STATUS_REPLAY_DONE : Fld := ⟨0x600004, 4, 1⟩
/-- STR_STATUS.NO_JOURNAL. -/
abbrev F.STR_STATUS_NO_JOURNAL : Fld := ⟨0x600004, 5, 1⟩
/-- STR_STATUS.BUDGET_FULL. -/
abbrev F.STR_STATUS_BUDGET_FULL : Fld := ⟨0x600004, 6, 1⟩
/-- STR_STATUS.INTENTS_FULL. -/
abbrev F.STR_STATUS_INTENTS_FULL : Fld := ⟨0x600004, 7, 1⟩
/-- STR_STATUS.GEN_HIGH. -/
abbrev F.STR_STATUS_GEN_HIGH : Fld := ⟨0x600004, 8, 1⟩
/-- STR_STATUS.WRITE_FAULT. -/
abbrev F.STR_STATUS_WRITE_FAULT : Fld := ⟨0x600004, 9, 1⟩
/-- STR_STATUS.LOST_ADDED. -/
abbrev F.STR_STATUS_LOST_ADDED : Fld := ⟨0x600004, 10, 1⟩
/-- STR_STATUS.REPLAY_BUSY. -/
abbrev F.STR_STATUS_REPLAY_BUSY : Fld := ⟨0x600004, 11, 1⟩
/-- STR_CMD.CMD. -/
abbrev F.STR_CMD_CMD : Fld := ⟨0x600008, 0, 3⟩
/-- STR_CMD.GROUP. -/
abbrev F.STR_CMD_GROUP : Fld := ⟨0x600008, 8, 3⟩
/-- STR_USE.SLOTS. -/
abbrev F.STR_USE_SLOTS : Fld := ⟨0x60000C, 0, 17⟩
/-- STR_LIVE.INTENTS. -/
abbrev F.STR_LIVE_INTENTS : Fld := ⟨0x600010, 0, 17⟩
/-- STR_COPY.BAY0. -/
abbrev F.STR_COPY_BAY0 : Fld := ⟨0x600014, 0, 5⟩
/-- STR_COPY.BAY1. -/
abbrev F.STR_COPY_BAY1 : Fld := ⟨0x600014, 8, 5⟩
/-- STR_COPY.BAY2. -/
abbrev F.STR_COPY_BAY2 : Fld := ⟨0x600014, 16, 5⟩
/-- STR_COPY.VALID. -/
abbrev F.STR_COPY_VALID : Fld := ⟨0x600014, 24, 3⟩
/-- STR_REPLAY.SOURCE. -/
abbrev F.STR_REPLAY_SOURCE : Fld := ⟨0x600018, 0, 3⟩
/-- STR_REPLAY.BAY. -/
abbrev F.STR_REPLAY_BAY : Fld := ⟨0x600018, 8, 5⟩
/-- STR_GEN_SEL.GROUP. -/
abbrev F.STR_GEN_SEL_GROUP : Fld := ⟨0x60001C, 0, 3⟩
/-- STR_GEN_CLOCK.VALUE. -/
abbrev F.STR_GEN_CLOCK_VALUE : Fld := ⟨0x600020, 0, 32⟩
/-- STR_JOURNAL_GEN.VALUE. -/
abbrev F.STR_JOURNAL_GEN_VALUE : Fld := ⟨0x600028, 0, 32⟩
/-- STR_FULL_STRIPES.VALUE. -/
abbrev F.STR_FULL_STRIPES_VALUE : Fld := ⟨0x600100, 0, 32⟩
/-- STR_RMW_STRIPES.VALUE. -/
abbrev F.STR_RMW_STRIPES_VALUE : Fld := ⟨0x600108, 0, 32⟩
/-- STR_RECON_ROWS.VALUE. -/
abbrev F.STR_RECON_ROWS_VALUE : Fld := ⟨0x600110, 0, 32⟩
/-- STR_DESTAGE_BLOCKS.VALUE. -/
abbrev F.STR_DESTAGE_BLOCKS_VALUE : Fld := ⟨0x600118, 0, 32⟩
/-- STR_BUDGET_WAITS.VALUE. -/
abbrev F.STR_BUDGET_WAITS_VALUE : Fld := ⟨0x600120, 0, 32⟩
/-- STR_INTENT_WAITS.VALUE. -/
abbrev F.STR_INTENT_WAITS_VALUE : Fld := ⟨0x600128, 0, 32⟩
/-- STR_CKPT_BLOCKS.VALUE. -/
abbrev F.STR_CKPT_BLOCKS_VALUE : Fld := ⟨0x600130, 0, 32⟩
/-- STR_REPLAY_WRITES.VALUE. -/
abbrev F.STR_REPLAY_WRITES_VALUE : Fld := ⟨0x600138, 0, 32⟩
/-- STR_REPLAY_LOST.VALUE. -/
abbrev F.STR_REPLAY_LOST_VALUE : Fld := ⟨0x600140, 0, 32⟩
/-- STR_MEMBER_WRITE_ERR.VALUE. -/
abbrev F.STR_MEMBER_WRITE_ERR_VALUE : Fld := ⟨0x600148, 0, 32⟩
/-- RBD_CTRL.AUTO_SPARE. -/
abbrev F.RBD_CTRL_AUTO_SPARE : Fld := ⟨0x501000, 0, 1⟩
/-- RBD_CTRL.PATROL_EN. -/
abbrev F.RBD_CTRL_PATROL_EN : Fld := ⟨0x501000, 1, 1⟩
/-- RBD_CTRL.PATROL_REPAIR. -/
abbrev F.RBD_CTRL_PATROL_REPAIR : Fld := ⟨0x501000, 2, 1⟩
/-- RBD_CTRL.PATROL_DAYS. -/
abbrev F.RBD_CTRL_PATROL_DAYS : Fld := ⟨0x501000, 8, 8⟩
/-- RBD_STATUS.MEMBER_FAILED. -/
abbrev F.RBD_STATUS_MEMBER_FAILED : Fld := ⟨0x501004, 0, 1⟩
/-- RBD_STATUS.SPARE_TAKEN. -/
abbrev F.RBD_STATUS_SPARE_TAKEN : Fld := ⟨0x501004, 1, 1⟩
/-- RBD_STATUS.NO_SPARE. -/
abbrev F.RBD_STATUS_NO_SPARE : Fld := ⟨0x501004, 2, 1⟩
/-- RBD_STATUS.REBUILD_DONE. -/
abbrev F.RBD_STATUS_REBUILD_DONE : Fld := ⟨0x501004, 3, 1⟩
/-- RBD_STATUS.LOST_ADDED. -/
abbrev F.RBD_STATUS_LOST_ADDED : Fld := ⟨0x501004, 4, 1⟩
/-- RBD_STATUS.LOST_FULL. -/
abbrev F.RBD_STATUS_LOST_FULL : Fld := ⟨0x501004, 5, 1⟩
/-- RBD_STATUS.DISPUTED. -/
abbrev F.RBD_STATUS_DISPUTED : Fld := ⟨0x501004, 6, 1⟩
/-- RBD_STATUS.PATROL_DONE. -/
abbrev F.RBD_STATUS_PATROL_DONE : Fld := ⟨0x501004, 7, 1⟩
/-- RBD_STATUS.PATROL_LATE. -/
abbrev F.RBD_STATUS_PATROL_LATE : Fld := ⟨0x501004, 8, 1⟩
/-- RBD_STATUS.RESHAPE_DONE. -/
abbrev F.RBD_STATUS_RESHAPE_DONE : Fld := ⟨0x501004, 9, 1⟩
/-- RBD_STATUS.RESHAPE_HELD. -/
abbrev F.RBD_STATUS_RESHAPE_HELD : Fld := ⟨0x501004, 10, 1⟩
/-- RBD_STATUS.META_MISMATCH. -/
abbrev F.RBD_STATUS_META_MISMATCH : Fld := ⟨0x501004, 11, 1⟩
/-- RBD_ERR_LIMIT.LIMIT. -/
abbrev F.RBD_ERR_LIMIT_LIMIT : Fld := ⟨0x501008, 0, 16⟩
/-- RBD_RATE.FLOOR. -/
abbrev F.RBD_RATE_FLOOR : Fld := ⟨0x50100C, 0, 16⟩
/-- RBD_RATE.CEIL. -/
abbrev F.RBD_RATE_CEIL : Fld := ⟨0x50100C, 16, 16⟩
/-- RBD_CMD.CMD. -/
abbrev F.RBD_CMD_CMD : Fld := ⟨0x501010, 0, 3⟩
/-- RBD_CMD.GROUP. -/
abbrev F.RBD_CMD_GROUP : Fld := ⟨0x501010, 8, 3⟩
/-- RBD_GROUP_SEL.GROUP. -/
abbrev F.RBD_GROUP_SEL_GROUP : Fld := ⟨0x501014, 0, 3⟩
/-- RBD_TGT_STATE[n].MEMBER. -/
abbrev F.RBD_TGT_STATE_MEMBER (n : Nat) : Fld := ⟨0x501020 + 32 * n, 0, 5⟩
/-- RBD_TGT_STATE[n].VALID. -/
abbrev F.RBD_TGT_STATE_VALID (n : Nat) : Fld := ⟨0x501020 + 32 * n, 5, 1⟩
/-- RBD_TGT_STATE[n].WRAPPED. -/
abbrev F.RBD_TGT_STATE_WRAPPED (n : Nat) : Fld := ⟨0x501020 + 32 * n, 6, 1⟩
/-- RBD_TGT_START[n].VALUE. -/
abbrev F.RBD_TGT_START_VALUE (n : Nat) : Fld := ⟨0x501028 + 32 * n, 0, 32⟩
/-- RBD_TGT_POINT[n].VALUE. -/
abbrev F.RBD_TGT_POINT_VALUE (n : Nat) : Fld := ⟨0x501030 + 32 * n, 0, 32⟩
/-- RBD_PATROL_POINT.VALUE. -/
abbrev F.RBD_PATROL_POINT_VALUE : Fld := ⟨0x501068, 0, 32⟩
/-- RBD_PATROL.KIND. -/
abbrev F.RBD_PATROL_KIND : Fld := ⟨0x501060, 0, 2⟩
/-- RBD_PATROL.PAUSED. -/
abbrev F.RBD_PATROL_PAUSED : Fld := ⟨0x501060, 2, 1⟩
/-- RBD_LOST_SEL.INDEX. -/
abbrev F.RBD_LOST_SEL_INDEX : Fld := ⟨0x501080, 0, 12⟩
/-- RBD_LOST_SEL.GROUP. -/
abbrev F.RBD_LOST_SEL_GROUP : Fld := ⟨0x501080, 12, 3⟩
/-- RBD_LOST_USE.ENTRIES. -/
abbrev F.RBD_LOST_USE_ENTRIES : Fld := ⟨0x501084, 0, 13⟩
/-- RBD_LOST_WORD[n].WORD. -/
abbrev F.RBD_LOST_WORD_WORD (n : Nat) : Fld := ⟨0x501090 + 4 * n, 0, 32⟩
/-- RBD_RESHAPE_CFG.EXTENT. -/
abbrev F.RBD_RESHAPE_CFG_EXTENT : Fld := ⟨0x5010A0, 0, 20⟩
/-- RBD_RESHAPE_CFG.GROUP. -/
abbrev F.RBD_RESHAPE_CFG_GROUP : Fld := ⟨0x5010A0, 20, 3⟩
/-- RBD_RESHAPE_CFG.MODE. -/
abbrev F.RBD_RESHAPE_CFG_MODE : Fld := ⟨0x5010A0, 24, 2⟩
/-- RBD_RESHAPE_DST.FIRST. -/
abbrev F.RBD_RESHAPE_DST_FIRST : Fld := ⟨0x5010A4, 0, 32⟩
/-- RBD_RESHAPE_STATE.STATE. -/
abbrev F.RBD_RESHAPE_STATE_STATE : Fld := ⟨0x5010AC, 0, 2⟩
/-- RBD_REBUILT_STRIPES.VALUE. -/
abbrev F.RBD_REBUILT_STRIPES_VALUE : Fld := ⟨0x501100, 0, 32⟩
/-- RBD_RECON_BLOCKS.VALUE. -/
abbrev F.RBD_RECON_BLOCKS_VALUE : Fld := ⟨0x501108, 0, 32⟩
/-- RBD_READ_REPAIRS.VALUE. -/
abbrev F.RBD_READ_REPAIRS_VALUE : Fld := ⟨0x501110, 0, 32⟩
/-- RBD_PATROL_STRIPES.VALUE. -/
abbrev F.RBD_PATROL_STRIPES_VALUE : Fld := ⟨0x501118, 0, 32⟩
/-- RBD_PARITY_FIXED.VALUE. -/
abbrev F.RBD_PARITY_FIXED_VALUE : Fld := ⟨0x501120, 0, 32⟩
/-- RBD_MEMBER_FIXED.VALUE. -/
abbrev F.RBD_MEMBER_FIXED_VALUE : Fld := ⟨0x501128, 0, 32⟩
/-- RBD_LOST_BLOCKS.VALUE. -/
abbrev F.RBD_LOST_BLOCKS_VALUE : Fld := ⟨0x501130, 0, 32⟩
/-- RBD_MOVED_BLOCKS.VALUE. -/
abbrev F.RBD_MOVED_BLOCKS_VALUE : Fld := ⟨0x501138, 0, 32⟩
/-- RSV_CTRL.STEER_EN. -/
abbrev F.RSV_CTRL_STEER_EN : Fld := ⟨0x502000, 0, 1⟩
/-- RSV_CTRL.HEDGE_EN. -/
abbrev F.RSV_CTRL_HEDGE_EN : Fld := ⟨0x502000, 1, 1⟩
/-- RSV_CTRL.CUT_EN. -/
abbrev F.RSV_CTRL_CUT_EN : Fld := ⟨0x502000, 2, 1⟩
/-- RSV_CTRL.GROUP_EN. -/
abbrev F.RSV_CTRL_GROUP_EN : Fld := ⟨0x502000, 3, 1⟩
/-- RSV_CTRL.FACTOR. -/
abbrev F.RSV_CTRL_FACTOR : Fld := ⟨0x502000, 8, 8⟩
/-- RSV_CTRL.FLOOR. -/
abbrev F.RSV_CTRL_FLOOR : Fld := ⟨0x502000, 16, 16⟩
/-- RSV_STATUS.STOMP. -/
abbrev F.RSV_STATUS_STOMP : Fld := ⟨0x502004, 0, 1⟩
/-- RSV_STATUS.DEST_DROP. -/
abbrev F.RSV_STATUS_DEST_DROP : Fld := ⟨0x502004, 1, 1⟩
/-- RSV_STATUS.GROUP_DROP. -/
abbrev F.RSV_STATUS_GROUP_DROP : Fld := ⟨0x502004, 2, 1⟩
/-- RSV_STATUS.HOLD_EXPIRED. -/
abbrev F.RSV_STATUS_HOLD_EXPIRED : Fld := ⟨0x502004, 3, 1⟩
/-- RSV_STATUS.FILL_FAILED. -/
abbrev F.RSV_STATUS_FILL_FAILED : Fld := ⟨0x502004, 4, 1⟩
/-- RSV_STATUS.LARDER_SHRUNK. -/
abbrev F.RSV_STATUS_LARDER_SHRUNK : Fld := ⟨0x502004, 5, 1⟩
/-- RSV_GROUP.THRESH. -/
abbrev F.RSV_GROUP_THRESH : Fld := ⟨0x502008, 0, 8⟩
/-- RSV_GROUP.INTERVAL. -/
abbrev F.RSV_GROUP_INTERVAL : Fld := ⟨0x502008, 16, 16⟩
/-- RSV_REPAIR_BASE.KEY. -/
abbrev F.RSV_REPAIR_BASE_KEY : Fld := ⟨0x50200C, 0, 16⟩
/-- RSV_USE.LINES. -/
abbrev F.RSV_USE_LINES : Fld := ⟨0x502010, 0, 18⟩
/-- RSV_USE.PENDING. -/
abbrev F.RSV_USE_PENDING : Fld := ⟨0x502010, 18, 14⟩
/-- RSV_GROUP_SA[n].SA. -/
abbrev F.RSV_GROUP_SA_SA (n : Nat) : Fld := ⟨0x502020 + 4 * n, 0, 13⟩
/-- RSV_GROUP_SA[n].VALID. -/
abbrev F.RSV_GROUP_SA_VALID (n : Nat) : Fld := ⟨0x502020 + 4 * n, 15, 1⟩
/-- RSV_DRV_LAT[n].EST. -/
abbrev F.RSV_DRV_LAT_EST (n : Nat) : Fld := ⟨0x502040 + 4 * n, 0, 20⟩
/-- RSV_DRV_LAT[n].AVOIDED. -/
abbrev F.RSV_DRV_LAT_AVOIDED (n : Nat) : Fld := ⟨0x502040 + 4 * n, 20, 1⟩
/-- RSV_GRP_THRESH[n].T. -/
abbrev F.RSV_GRP_THRESH_T (n : Nat) : Fld := ⟨0x5020A0 + 4 * n, 0, 20⟩
/-- RSV_LARDER_BLOCKS.VALUE. -/
abbrev F.RSV_LARDER_BLOCKS_VALUE : Fld := ⟨0x502100, 0, 32⟩
/-- RSV_DIRTY_BLOCKS.VALUE. -/
abbrev F.RSV_DIRTY_BLOCKS_VALUE : Fld := ⟨0x502108, 0, 32⟩
/-- RSV_JOINED_BLOCKS.VALUE. -/
abbrev F.RSV_JOINED_BLOCKS_VALUE : Fld := ⟨0x502110, 0, 32⟩
/-- RSV_DRIVE_BLOCKS.VALUE. -/
abbrev F.RSV_DRIVE_BLOCKS_VALUE : Fld := ⟨0x502118, 0, 32⟩
/-- RSV_FILLS.VALUE. -/
abbrev F.RSV_FILLS_VALUE : Fld := ⟨0x502120, 0, 32⟩
/-- RSV_EVICTIONS.VALUE. -/
abbrev F.RSV_EVICTIONS_VALUE : Fld := ⟨0x502128, 0, 32⟩
/-- RSV_INVALIDATIONS.VALUE. -/
abbrev F.RSV_INVALIDATIONS_VALUE : Fld := ⟨0x502130, 0, 32⟩
/-- RSV_STEERED_ROWS.VALUE. -/
abbrev F.RSV_STEERED_ROWS_VALUE : Fld := ⟨0x502138, 0, 32⟩
/-- RSV_HEDGES.VALUE. -/
abbrev F.RSV_HEDGES_VALUE : Fld := ⟨0x502140, 0, 32⟩
/-- RSV_STOMPS.VALUE. -/
abbrev F.RSV_STOMPS_VALUE : Fld := ⟨0x502148, 0, 32⟩
/-- RSV_GROUP_LINES.VALUE. -/
abbrev F.RSV_GROUP_LINES_VALUE : Fld := ⟨0x502150, 0, 32⟩
/-- RSV_GROUP_DROPS.VALUE. -/
abbrev F.RSV_GROUP_DROPS_VALUE : Fld := ⟨0x502158, 0, 32⟩
/-- RSV_DEST_DROPS.VALUE. -/
abbrev F.RSV_DEST_DROPS_VALUE : Fld := ⟨0x502160, 0, 32⟩
/-- RSV_HOLD_EXPIRED.VALUE. -/
abbrev F.RSV_HOLD_EXPIRED_VALUE : Fld := ⟨0x502168, 0, 32⟩
/-- CIP_CTRL.TAMPER_EN. -/
abbrev F.CIP_CTRL_TAMPER_EN : Fld := ⟨0x700000, 0, 1⟩
/-- CIP_CTRL.LID_EN. -/
abbrev F.CIP_CTRL_LID_EN : Fld := ⟨0x700000, 1, 1⟩
/-- CIP_STATUS.CMD_DONE. -/
abbrev F.CIP_STATUS_CMD_DONE : Fld := ⟨0x700004, 0, 1⟩
/-- CIP_STATUS.CMD_ERR. -/
abbrev F.CIP_STATUS_CMD_ERR : Fld := ⟨0x700004, 1, 1⟩
/-- CIP_STATUS.CMD_BUSY. -/
abbrev F.CIP_STATUS_CMD_BUSY : Fld := ⟨0x700004, 2, 1⟩
/-- CIP_STATUS.KWK_LOADED. -/
abbrev F.CIP_STATUS_KWK_LOADED : Fld := ⟨0x700004, 3, 1⟩
/-- CIP_STATUS.PIPE_RETIRED. -/
abbrev F.CIP_STATUS_PIPE_RETIRED : Fld := ⟨0x700004, 4, 1⟩
/-- CIP_STATUS.CHECK_FAIL. -/
abbrev F.CIP_STATUS_CHECK_FAIL : Fld := ⟨0x700004, 5, 1⟩
/-- CIP_STATUS.NO_ENGINE. -/
abbrev F.CIP_STATUS_NO_ENGINE : Fld := ⟨0x700004, 6, 1⟩
/-- CIP_STATUS.HOLD_DROP. -/
abbrev F.CIP_STATUS_HOLD_DROP : Fld := ⟨0x700004, 7, 1⟩
/-- CIP_STATUS.JOB_BUSY. -/
abbrev F.CIP_STATUS_JOB_BUSY : Fld := ⟨0x700004, 8, 2⟩
/-- CIP_ALARM.L1_CAUSE. -/
abbrev F.CIP_ALARM_L1_CAUSE : Fld := ⟨0x700008, 0, 4⟩
/-- CIP_ALARM.L2_CAUSE. -/
abbrev F.CIP_ALARM_L2_CAUSE : Fld := ⟨0x700008, 8, 3⟩
/-- CIP_ALARM.L1_PRESENT. -/
abbrev F.CIP_ALARM_L1_PRESENT : Fld := ⟨0x700008, 16, 3⟩
/-- CIP_ALARM.L2_PRESENT. -/
abbrev F.CIP_ALARM_L2_PRESENT : Fld := ⟨0x700008, 24, 2⟩
/-- CIP_CMD.CMD. -/
abbrev F.CIP_CMD_CMD : Fld := ⟨0x70000C, 0, 3⟩
/-- CIP_CMD.KIND. -/
abbrev F.CIP_CMD_KIND : Fld := ⟨0x70000C, 4, 3⟩
/-- CIP_CMD.SLOT. -/
abbrev F.CIP_CMD_SLOT : Fld := ⟨0x70000C, 8, 13⟩
/-- CIP_CMD.CONFIRM. -/
abbrev F.CIP_CMD_CONFIRM : Fld := ⟨0x70000C, 24, 8⟩
/-- CIP_ERROR.CODE. -/
abbrev F.CIP_ERROR_CODE : Fld := ⟨0x700010, 0, 8⟩
/-- CIP_INSTALL_LEN.LEN. -/
abbrev F.CIP_INSTALL_LEN_LEN : Fld := ⟨0x700014, 0, 7⟩
/-- CIP_SLOT_SEL.SLOT. -/
abbrev F.CIP_SLOT_SEL_SLOT : Fld := ⟨0x700018, 0, 13⟩
/-- CIP_SLOT_SEL.KIND. -/
abbrev F.CIP_SLOT_SEL_KIND : Fld := ⟨0x700018, 16, 3⟩
/-- CIP_SLOT_INFO.STATE. -/
abbrev F.CIP_SLOT_INFO_STATE : Fld := ⟨0x70001C, 0, 2⟩
/-- CIP_SLOT_INFO.KEY_BITS. -/
abbrev F.CIP_SLOT_INFO_KEY_BITS : Fld := ⟨0x70001C, 2, 2⟩
/-- CIP_SLOT_INFO.KCV. -/
abbrev F.CIP_SLOT_INFO_KCV : Fld := ⟨0x70001C, 8, 24⟩
/-- CIP_INSTALL_WORD[n].WORD. -/
abbrev F.CIP_INSTALL_WORD_WORD (n : Nat) : Fld := ⟨0x700040 + 4 * n, 0, 32⟩
/-- CIP_PIPE_RETIRED[n].RETIRED. -/
abbrev F.CIP_PIPE_RETIRED_RETIRED (n : Nat) : Fld := ⟨0x700090 + 4 * n, 0, 32⟩
/-- CIP_JOB_WORD_0[n].WORD. -/
abbrev F.CIP_JOB_WORD_0_WORD (n : Nat) : Fld := ⟨0x700100 + 4 * n, 0, 32⟩
/-- CIP_JOB_WORD_1[n].WORD. -/
abbrev F.CIP_JOB_WORD_1_WORD (n : Nat) : Fld := ⟨0x700180 + 4 * n, 0, 32⟩
/-- CIP_JOB_CMD[n].CMD. -/
abbrev F.CIP_JOB_CMD_CMD (n : Nat) : Fld := ⟨0x700140 + 128 * n, 0, 2⟩
/-- CIP_JOB_STATUS[n].READY. -/
abbrev F.CIP_JOB_STATUS_READY (n : Nat) : Fld := ⟨0x700144 + 128 * n, 0, 1⟩
/-- CIP_JOB_STATUS[n].CODE. -/
abbrev F.CIP_JOB_STATUS_CODE (n : Nat) : Fld := ⟨0x700144 + 128 * n, 8, 8⟩
/-- CIP_JOB_OUTLEN[n].LEN. -/
abbrev F.CIP_JOB_OUTLEN_LEN (n : Nat) : Fld := ⟨0x700148 + 128 * n, 0, 25⟩
/-- CIP_INSTALLS.VALUE. -/
abbrev F.CIP_INSTALLS_VALUE : Fld := ⟨0x700200, 0, 32⟩
/-- CIP_INSTALL_FAIL.VALUE. -/
abbrev F.CIP_INSTALL_FAIL_VALUE : Fld := ⟨0x700208, 0, 32⟩
/-- CIP_CLEARS.VALUE. -/
abbrev F.CIP_CLEARS_VALUE : Fld := ⟨0x700210, 0, 32⟩
/-- CIP_ALARMS.VALUE. -/
abbrev F.CIP_ALARMS_VALUE : Fld := ⟨0x700218, 0, 32⟩
/-- CIP_HOLD_DROP.VALUE. -/
abbrev F.CIP_HOLD_DROP_VALUE : Fld := ⟨0x700220, 0, 32⟩
/-- CIP_CHECK_FAIL.VALUE. -/
abbrev F.CIP_CHECK_FAIL_VALUE : Fld := ⟨0x700228, 0, 32⟩
/-- CIP_ERASE_STOMPS.VALUE. -/
abbrev F.CIP_ERASE_STOMPS_VALUE : Fld := ⟨0x700230, 0, 32⟩
/-- CIP_JOBS.VALUE. -/
abbrev F.CIP_JOBS_VALUE : Fld := ⟨0x700238, 0, 32⟩
/-- CIP_JOB_REFUSED.VALUE. -/
abbrev F.CIP_JOB_REFUSED_VALUE : Fld := ⟨0x700240, 0, 32⟩
/-- MAC_PORT_STATUS[n].MODE. -/
abbrev F.MAC_PORT_STATUS_MODE (n : Nat) : Fld := ⟨0x800000 + 4 * n, 0, 2⟩
/-- MAC_PORT_STATUS[n].LINK. -/
abbrev F.MAC_PORT_STATUS_LINK (n : Nat) : Fld := ⟨0x800000 + 4 * n, 4, 4⟩
/-- MAC_PORT_STATUS[n].ENERGY. -/
abbrev F.MAC_PORT_STATUS_ENERGY (n : Nat) : Fld := ⟨0x800000 + 4 * n, 8, 4⟩
/-- MAC_PORT_STATUS[n].FEC_LOCK. -/
abbrev F.MAC_PORT_STATUS_FEC_LOCK (n : Nat) : Fld := ⟨0x800000 + 4 * n, 12, 4⟩
/-- MAC_PORT_STATUS[n].MERGE_ACTIVE. -/
abbrev F.MAC_PORT_STATUS_MERGE_ACTIVE (n : Nat) : Fld := ⟨0x800000 + 4 * n, 16, 4⟩
/-- MAC_STATUS.LINK_CHANGE. -/
abbrev F.MAC_STATUS_LINK_CHANGE : Fld := ⟨0x800020, 0, 1⟩
/-- MAC_STATUS.VERIFY_FAIL. -/
abbrev F.MAC_STATUS_VERIFY_FAIL : Fld := ⟨0x800020, 1, 1⟩
/-- MAC_STATUS.WDOG_BREAK. -/
abbrev F.MAC_STATUS_WDOG_BREAK : Fld := ⟨0x800020, 2, 1⟩
/-- MAC_STATUS.WAKE_PATTERN. -/
abbrev F.MAC_STATUS_WAKE_PATTERN : Fld := ⟨0x800020, 3, 1⟩
/-- MAC_STATUS.FEC_UNCORR. -/
abbrev F.MAC_STATUS_FEC_UNCORR : Fld := ⟨0x800020, 4, 1⟩
/-- MAC_STATUS.MGT_LINK_CHANGE. -/
abbrev F.MAC_STATUS_MGT_LINK_CHANGE : Fld := ⟨0x800020, 5, 1⟩
/-- MAC_SP_SEL.SUBPORT. -/
abbrev F.MAC_SP_SEL_SUBPORT : Fld := ⟨0x800024, 0, 5⟩
/-- MAC_SP_CTRL.EN. -/
abbrev F.MAC_SP_CTRL_EN : Fld := ⟨0x800028, 0, 1⟩
/-- MAC_SP_CTRL.AN_EN. -/
abbrev F.MAC_SP_CTRL_AN_EN : Fld := ⟨0x800028, 1, 1⟩
/-- MAC_SP_CTRL.MERGE. -/
abbrev F.MAC_SP_CTRL_MERGE : Fld := ⟨0x800028, 2, 2⟩
/-- MAC_SP_CTRL.TAG_EN. -/
abbrev F.MAC_SP_CTRL_TAG_EN : Fld := ⟨0x800028, 4, 1⟩
/-- MAC_SP_CTRL.WAKE_EN. -/
abbrev F.MAC_SP_CTRL_WAKE_EN : Fld := ⟨0x800028, 5, 1⟩
/-- MAC_SP_CTRL.PAUSE_MODE. -/
abbrev F.MAC_SP_CTRL_PAUSE_MODE : Fld := ⟨0x800028, 6, 2⟩
/-- MAC_SP_CTRL.PFC_EN. -/
abbrev F.MAC_SP_CTRL_PFC_EN : Fld := ⟨0x800028, 8, 8⟩
/-- MAC_WDOG.TIMEOUT. -/
abbrev F.MAC_WDOG_TIMEOUT : Fld := ⟨0x80002C, 0, 11⟩
/-- MAC_MAX_FRAME.LEN. -/
abbrev F.MAC_MAX_FRAME_LEN : Fld := ⟨0x800030, 0, 14⟩
/-- MAC_PAUSE.QUANTA. -/
abbrev F.MAC_PAUSE_QUANTA : Fld := ⟨0x800034, 0, 16⟩
/-- MAC_PAUSE.XOFF. -/
abbrev F.MAC_PAUSE_XOFF : Fld := ⟨0x800034, 16, 8⟩
/-- MAC_PAUSE.XON. -/
abbrev F.MAC_PAUSE_XON : Fld := ⟨0x800034, 24, 8⟩
/-- MAC_CNT_SNAP.SNAP. -/
abbrev F.MAC_CNT_SNAP_SNAP : Fld := ⟨0x800038, 0, 1⟩
/-- MAC_CNT_SNAP.RELEASE. -/
abbrev F.MAC_CNT_SNAP_RELEASE : Fld := ⟨0x800038, 1, 1⟩
/-- MAC_CNT_SNAP.LATCHED. -/
abbrev F.MAC_CNT_SNAP_LATCHED : Fld := ⟨0x800038, 2, 1⟩
/-- MAC_SP_WORD[n].WORD. -/
abbrev F.MAC_SP_WORD_WORD (n : Nat) : Fld := ⟨0x800040 + 4 * n, 0, 32⟩
/-- MAC_MGT_WORD[n].WORD. -/
abbrev F.MAC_MGT_WORD_WORD (n : Nat) : Fld := ⟨0x800C40 + 4 * n, 0, 32⟩
/-- MAC_DSCP_PRIO[n].PRIO0. -/
abbrev F.MAC_DSCP_PRIO_PRIO0 (n : Nat) : Fld := ⟨0x800080 + 4 * n, 0, 3⟩
/-- MAC_DSCP_PRIO[n].PRIO1. -/
abbrev F.MAC_DSCP_PRIO_PRIO1 (n : Nat) : Fld := ⟨0x800080 + 4 * n, 4, 3⟩
/-- MAC_DSCP_PRIO[n].PRIO2. -/
abbrev F.MAC_DSCP_PRIO_PRIO2 (n : Nat) : Fld := ⟨0x800080 + 4 * n, 8, 3⟩
/-- MAC_DSCP_PRIO[n].PRIO3. -/
abbrev F.MAC_DSCP_PRIO_PRIO3 (n : Nat) : Fld := ⟨0x800080 + 4 * n, 12, 3⟩
/-- MAC_DSCP_PRIO[n].PRIO4. -/
abbrev F.MAC_DSCP_PRIO_PRIO4 (n : Nat) : Fld := ⟨0x800080 + 4 * n, 16, 3⟩
/-- MAC_DSCP_PRIO[n].PRIO5. -/
abbrev F.MAC_DSCP_PRIO_PRIO5 (n : Nat) : Fld := ⟨0x800080 + 4 * n, 20, 3⟩
/-- MAC_DSCP_PRIO[n].PRIO6. -/
abbrev F.MAC_DSCP_PRIO_PRIO6 (n : Nat) : Fld := ⟨0x800080 + 4 * n, 24, 3⟩
/-- MAC_DSCP_PRIO[n].PRIO7. -/
abbrev F.MAC_DSCP_PRIO_PRIO7 (n : Nat) : Fld := ⟨0x800080 + 4 * n, 28, 3⟩
/-- MAC_EXACT_SEL.ENTRY. -/
abbrev F.MAC_EXACT_SEL_ENTRY : Fld := ⟨0x8000A0, 0, 5⟩
/-- MAC_EXACT_SEL.PORT. -/
abbrev F.MAC_EXACT_SEL_PORT : Fld := ⟨0x8000A0, 8, 3⟩
/-- MAC_EXACT_LO.ADDR_LO. -/
abbrev F.MAC_EXACT_LO_ADDR_LO : Fld := ⟨0x8000A4, 0, 32⟩
/-- MAC_EXACT_HI.ADDR_HI. -/
abbrev F.MAC_EXACT_HI_ADDR_HI : Fld := ⟨0x8000A8, 0, 16⟩
/-- MAC_EXACT_HI.SP_MASK. -/
abbrev F.MAC_EXACT_HI_SP_MASK : Fld := ⟨0x8000A8, 16, 4⟩
/-- MAC_EXACT_HI.VALID. -/
abbrev F.MAC_EXACT_HI_VALID : Fld := ⟨0x8000A8, 31, 1⟩
/-- MAC_WAKE_ID.VALUE. -/
abbrev F.MAC_WAKE_ID_VALUE : Fld := ⟨0x8000B0, 0, 32⟩
/-- MAC_HASH[n].BINS. -/
abbrev F.MAC_HASH_BINS (n : Nat) : Fld := ⟨0x800100 + 4 * n, 0, 32⟩
/-- MAC_MGT_CTRL.EN. -/
abbrev F.MAC_MGT_CTRL_EN : Fld := ⟨0x800C00, 0, 1⟩
/-- MAC_MGT_CTRL.PAUSE_EN. -/
abbrev F.MAC_MGT_CTRL_PAUSE_EN : Fld := ⟨0x800C00, 1, 1⟩
/-- MAC_MGT_STATUS.LINK. -/
abbrev F.MAC_MGT_STATUS_LINK : Fld := ⟨0x800C04, 0, 1⟩
/-- MAC_MGT_STATUS.SPEED. -/
abbrev F.MAC_MGT_STATUS_SPEED : Fld := ⟨0x800C04, 1, 2⟩
/-- MAC_MGT_STATUS.ENERGY. -/
abbrev F.MAC_MGT_STATUS_ENERGY : Fld := ⟨0x800C04, 3, 1⟩
/-- MAC_MGT_MDIO.DATA. -/
abbrev F.MAC_MGT_MDIO_DATA : Fld := ⟨0x800C08, 0, 16⟩
/-- MAC_MGT_MDIO.REG. -/
abbrev F.MAC_MGT_MDIO_REG : Fld := ⟨0x800C08, 16, 5⟩
/-- MAC_MGT_MDIO.PHY. -/
abbrev F.MAC_MGT_MDIO_PHY : Fld := ⟨0x800C08, 21, 5⟩
/-- MAC_MGT_MDIO.OP. -/
abbrev F.MAC_MGT_MDIO_OP : Fld := ⟨0x800C08, 26, 2⟩
/-- MAC_MGT_MDIO.BUSY. -/
abbrev F.MAC_MGT_MDIO_BUSY : Fld := ⟨0x800C08, 31, 1⟩
/-- MAC_CNT[n].VALUE. -/
abbrev F.MAC_CNT_VALUE (n : Nat) : Fld := ⟨0x800400 + 8 * n, 0, 32⟩
/-- MAC_MGT_CNT[n].VALUE. -/
abbrev F.MAC_MGT_CNT_VALUE (n : Nat) : Fld := ⟨0x800D00 + 8 * n, 0, 32⟩
/-- TC_CTRL.POLICE_EN. -/
abbrev F.TC_CTRL_POLICE_EN : Fld := ⟨0x900000, 0, 1⟩
/-- TC_CTRL.ECN_MARK. -/
abbrev F.TC_CTRL_ECN_MARK : Fld := ⟨0x900000, 1, 1⟩
/-- TC_CTRL.RED_DROP. -/
abbrev F.TC_CTRL_RED_DROP : Fld := ⟨0x900000, 2, 1⟩
/-- TC_STATUS.RED. -/
abbrev F.TC_STATUS_RED : Fld := ⟨0x900004, 0, 1⟩
/-- TC_STATUS.NO_PROFILE. -/
abbrev F.TC_STATUS_NO_PROFILE : Fld := ⟨0x900004, 1, 1⟩
/-- TC_STATUS.LEAF_FULL. -/
abbrev F.TC_STATUS_LEAF_FULL : Fld := ⟨0x900004, 2, 1⟩
/-- TC_STATUS.NO_LEAF. -/
abbrev F.TC_STATUS_NO_LEAF : Fld := ⟨0x900004, 3, 1⟩
/-- TC_STATUS.SWITCHED. -/
abbrev F.TC_STATUS_SWITCHED : Fld := ⟨0x900004, 4, 1⟩
/-- TC_LEAF_LIMIT.PACKETS. -/
abbrev F.TC_LEAF_LIMIT_PACKETS : Fld := ⟨0x900008, 0, 13⟩
/-- TC_GROUP.QUANTUM. -/
abbrev F.TC_GROUP_QUANTUM : Fld := ⟨0x90000C, 0, 24⟩
/-- TC_WATCH.NODE. -/
abbrev F.TC_WATCH_NODE : Fld := ⟨0x900010, 0, 32⟩
/-- TC_HIST_SEL.SUBPORT. -/
abbrev F.TC_HIST_SEL_SUBPORT : Fld := ⟨0x900014, 0, 5⟩
/-- TC_HIST_SEL.WATCH. -/
abbrev F.TC_HIST_SEL_WATCH : Fld := ⟨0x900014, 5, 1⟩
/-- TC_METER_SEL.INDEX. -/
abbrev F.TC_METER_SEL_INDEX : Fld := ⟨0x900018, 0, 13⟩
/-- TC_METER_TC.BYTES. -/
abbrev F.TC_METER_TC_BYTES : Fld := ⟨0x90001C, 0, 32⟩
/-- TC_METER_TP.BYTES. -/
abbrev F.TC_METER_TP_BYTES : Fld := ⟨0x900020, 0, 32⟩
/-- TC_NODE_SEL.NODE. -/
abbrev F.TC_NODE_SEL_NODE : Fld := ⟨0x900024, 0, 32⟩
/-- TC_NODE_STATE.DEPTH. -/
abbrev F.TC_NODE_STATE_DEPTH : Fld := ⟨0x900028, 0, 16⟩
/-- TC_NODE_STATE.EXISTS. -/
abbrev F.TC_NODE_STATE_EXISTS : Fld := ⟨0x900028, 16, 1⟩
/-- TC_NODE_STATE.SHAPED. -/
abbrev F.TC_NODE_STATE_SHAPED : Fld := ⟨0x900028, 17, 1⟩
/-- TC_NODE_STATE.HELD. -/
abbrev F.TC_NODE_STATE_HELD : Fld := ⟨0x900028, 18, 1⟩
/-- TC_NODE_DEFICIT.DEFICIT. -/
abbrev F.TC_NODE_DEFICIT_DEFICIT : Fld := ⟨0x90002C, 0, 25⟩
/-- TC_CLASS_PROFILE[n].PROFILE. -/
abbrev F.TC_CLASS_PROFILE_PROFILE (n : Nat) : Fld := ⟨0x900040 + 4 * n, 0, 16⟩
/-- TC_DSCP_COLOUR[n].COLOUR0. -/
abbrev F.TC_DSCP_COLOUR_COLOUR0 (n : Nat) : Fld := ⟨0x900080 + 4 * n, 0, 2⟩
/-- TC_DSCP_COLOUR[n].COLOUR1. -/
abbrev F.TC_DSCP_COLOUR_COLOUR1 (n : Nat) : Fld := ⟨0x900080 + 4 * n, 2, 2⟩
/-- TC_DSCP_COLOUR[n].COLOUR2. -/
abbrev F.TC_DSCP_COLOUR_COLOUR2 (n : Nat) : Fld := ⟨0x900080 + 4 * n, 4, 2⟩
/-- TC_DSCP_COLOUR[n].COLOUR3. -/
abbrev F.TC_DSCP_COLOUR_COLOUR3 (n : Nat) : Fld := ⟨0x900080 + 4 * n, 6, 2⟩
/-- TC_DSCP_COLOUR[n].COLOUR4. -/
abbrev F.TC_DSCP_COLOUR_COLOUR4 (n : Nat) : Fld := ⟨0x900080 + 4 * n, 8, 2⟩
/-- TC_DSCP_COLOUR[n].COLOUR5. -/
abbrev F.TC_DSCP_COLOUR_COLOUR5 (n : Nat) : Fld := ⟨0x900080 + 4 * n, 10, 2⟩
/-- TC_DSCP_COLOUR[n].COLOUR6. -/
abbrev F.TC_DSCP_COLOUR_COLOUR6 (n : Nat) : Fld := ⟨0x900080 + 4 * n, 12, 2⟩
/-- TC_DSCP_COLOUR[n].COLOUR7. -/
abbrev F.TC_DSCP_COLOUR_COLOUR7 (n : Nat) : Fld := ⟨0x900080 + 4 * n, 14, 2⟩
/-- TC_DSCP_COLOUR[n].COLOUR8. -/
abbrev F.TC_DSCP_COLOUR_COLOUR8 (n : Nat) : Fld := ⟨0x900080 + 4 * n, 16, 2⟩
/-- TC_DSCP_COLOUR[n].COLOUR9. -/
abbrev F.TC_DSCP_COLOUR_COLOUR9 (n : Nat) : Fld := ⟨0x900080 + 4 * n, 18, 2⟩
/-- TC_DSCP_COLOUR[n].COLOUR10. -/
abbrev F.TC_DSCP_COLOUR_COLOUR10 (n : Nat) : Fld := ⟨0x900080 + 4 * n, 20, 2⟩
/-- TC_DSCP_COLOUR[n].COLOUR11. -/
abbrev F.TC_DSCP_COLOUR_COLOUR11 (n : Nat) : Fld := ⟨0x900080 + 4 * n, 22, 2⟩
/-- TC_DSCP_COLOUR[n].COLOUR12. -/
abbrev F.TC_DSCP_COLOUR_COLOUR12 (n : Nat) : Fld := ⟨0x900080 + 4 * n, 24, 2⟩
/-- TC_DSCP_COLOUR[n].COLOUR13. -/
abbrev F.TC_DSCP_COLOUR_COLOUR13 (n : Nat) : Fld := ⟨0x900080 + 4 * n, 26, 2⟩
/-- TC_DSCP_COLOUR[n].COLOUR14. -/
abbrev F.TC_DSCP_COLOUR_COLOUR14 (n : Nat) : Fld := ⟨0x900080 + 4 * n, 28, 2⟩
/-- TC_DSCP_COLOUR[n].COLOUR15. -/
abbrev F.TC_DSCP_COLOUR_COLOUR15 (n : Nat) : Fld := ⟨0x900080 + 4 * n, 30, 2⟩
/-- TC_HIST_DEPTH[n].COUNT. -/
abbrev F.TC_HIST_DEPTH_COUNT (n : Nat) : Fld := ⟨0x900100 + 4 * n, 0, 32⟩
/-- TC_HIST_DELAY[n].COUNT. -/
abbrev F.TC_HIST_DELAY_COUNT (n : Nat) : Fld := ⟨0x900140 + 4 * n, 0, 32⟩
/-- TC_GREEN.VALUE. -/
abbrev F.TC_GREEN_VALUE : Fld := ⟨0x900200, 0, 32⟩
/-- TC_YELLOW.VALUE. -/
abbrev F.TC_YELLOW_VALUE : Fld := ⟨0x900208, 0, 32⟩
/-- TC_RED.VALUE. -/
abbrev F.TC_RED_VALUE : Fld := ⟨0x900210, 0, 32⟩
/-- TC_CE_MARKED.VALUE. -/
abbrev F.TC_CE_MARKED_VALUE : Fld := ⟨0x900218, 0, 32⟩
/-- TC_NOT_ECT.VALUE. -/
abbrev F.TC_NOT_ECT_VALUE : Fld := ⟨0x900220, 0, 32⟩
/-- TC_NO_PROFILE.VALUE. -/
abbrev F.TC_NO_PROFILE_VALUE : Fld := ⟨0x900228, 0, 32⟩
/-- TC_LEAF_DROP.VALUE. -/
abbrev F.TC_LEAF_DROP_VALUE : Fld := ⟨0x900230, 0, 32⟩
/-- TC_NO_LEAF.VALUE. -/
abbrev F.TC_NO_LEAF_VALUE : Fld := ⟨0x900238, 0, 32⟩
/-- TC_MOVED.VALUE. -/
abbrev F.TC_MOVED_VALUE : Fld := ⟨0x900240, 0, 32⟩
/-- TC_EP[n].CLASS. -/
abbrev F.TC_EP_CLASS (n : Nat) : Fld := ⟨0x904000 + 4 * n, 0, 4⟩
/-- TC_EP[n].PROFILE. -/
abbrev F.TC_EP_PROFILE (n : Nat) : Fld := ⟨0x904000 + 4 * n, 16, 16⟩
/-- DRV_CTRL.EN. -/
abbrev F.DRV_CTRL_EN : Fld := ⟨0xA00000, 0, 1⟩
/-- DRV_CTRL.AUTO_BRINGUP. -/
abbrev F.DRV_CTRL_AUTO_BRINGUP : Fld := ⟨0xA00000, 1, 1⟩
/-- DRV_CTRL.RESV_EN. -/
abbrev F.DRV_CTRL_RESV_EN : Fld := ⟨0xA00000, 2, 1⟩
/-- DRV_CTRL.AUTO_FAULT_LED. -/
abbrev F.DRV_CTRL_AUTO_FAULT_LED : Fld := ⟨0xA00000, 3, 1⟩
/-- DRV_CTRL.MI_EN. -/
abbrev F.DRV_CTRL_MI_EN : Fld := ⟨0xA00000, 4, 1⟩
/-- DRV_STATUS.INSERTED. -/
abbrev F.DRV_STATUS_INSERTED : Fld := ⟨0xA00004, 0, 1⟩
/-- DRV_STATUS.REMOVED. -/
abbrev F.DRV_STATUS_REMOVED : Fld := ⟨0xA00004, 1, 1⟩
/-- DRV_STATUS.LINK_DOWN. -/
abbrev F.DRV_STATUS_LINK_DOWN : Fld := ⟨0xA00004, 2, 1⟩
/-- DRV_STATUS.READY. -/
abbrev F.DRV_STATUS_READY : Fld := ⟨0xA00004, 3, 1⟩
/-- DRV_STATUS.LOST. -/
abbrev F.DRV_STATUS_LOST : Fld := ⟨0xA00004, 4, 1⟩
/-- DRV_STATUS.FAULT. -/
abbrev F.DRV_STATUS_FAULT : Fld := ⟨0xA00004, 5, 1⟩
/-- DRV_STATUS.UNFIT. -/
abbrev F.DRV_STATUS_UNFIT : Fld := ⟨0xA00004, 6, 1⟩
/-- DRV_STATUS.RESV_CONFLICT. -/
abbrev F.DRV_STATUS_RESV_CONFLICT : Fld := ⟨0xA00004, 7, 1⟩
/-- DRV_STATUS.RESV_DONE. -/
abbrev F.DRV_STATUS_RESV_DONE : Fld := ⟨0xA00004, 8, 1⟩
/-- DRV_STATUS.MI_STALE. -/
abbrev F.DRV_STATUS_MI_STALE : Fld := ⟨0xA00004, 9, 1⟩
/-- DRV_STATUS.CMD_REFUSED. -/
abbrev F.DRV_STATUS_CMD_REFUSED : Fld := ⟨0xA00004, 10, 1⟩
/-- DRV_TIMEOUT.CMD. -/
abbrev F.DRV_TIMEOUT_CMD : Fld := ⟨0xA00008, 0, 16⟩
/-- DRV_TIMEOUT.RETRAIN. -/
abbrev F.DRV_TIMEOUT_RETRAIN : Fld := ⟨0xA00008, 16, 16⟩
/-- DRV_RESV_KEY.VALUE. -/
abbrev F.DRV_RESV_KEY_VALUE : Fld := ⟨0xA00010, 0, 32⟩
/-- DRV_RESV_PEER_KEY.VALUE. -/
abbrev F.DRV_RESV_PEER_KEY_VALUE : Fld := ⟨0xA00018, 0, 32⟩
/-- DRV_RESV_CMD.CMD. -/
abbrev F.DRV_RESV_CMD_CMD : Fld := ⟨0xA00020, 0, 3⟩
/-- DRV_RESV_CMD.PORT. -/
abbrev F.DRV_RESV_CMD_PORT : Fld := ⟨0xA00020, 8, 5⟩
/-- DRV_RESV_RESULT[n].READY. -/
abbrev F.DRV_RESV_RESULT_READY (n : Nat) : Fld := ⟨0xA00040 + 4 * n, 0, 1⟩
/-- DRV_RESV_RESULT[n].CODE. -/
abbrev F.DRV_RESV_RESULT_CODE (n : Nat) : Fld := ⟨0xA00040 + 4 * n, 4, 4⟩
/-- DRV_RESV_RESULT[n].HOLDER. -/
abbrev F.DRV_RESV_RESULT_HOLDER (n : Nat) : Fld := ⟨0xA00040 + 4 * n, 8, 2⟩
/-- DRV_PORT_STATE[n].STATE. -/
abbrev F.DRV_PORT_STATE_STATE (n : Nat) : Fld := ⟨0xA00100 + 4 * n, 0, 4⟩
/-- DRV_PORT_STATE[n].PRESENCE. -/
abbrev F.DRV_PORT_STATE_PRESENCE (n : Nat) : Fld := ⟨0xA00100 + 4 * n, 4, 1⟩
/-- DRV_PORT_STATE[n].PERST. -/
abbrev F.DRV_PORT_STATE_PERST (n : Nat) : Fld := ⟨0xA00100 + 4 * n, 5, 1⟩
/-- DRV_PORT_STATE[n].CLKREQ. -/
abbrev F.DRV_PORT_STATE_CLKREQ (n : Nat) : Fld := ⟨0xA00100 + 4 * n, 6, 1⟩
/-- DRV_PORT_STATE[n].RATE. -/
abbrev F.DRV_PORT_STATE_RATE (n : Nat) : Fld := ⟨0xA00100 + 4 * n, 8, 3⟩
/-- DRV_PORT_STATE[n].WIDTH. -/
abbrev F.DRV_PORT_STATE_WIDTH (n : Nat) : Fld := ⟨0xA00100 + 4 * n, 11, 3⟩
/-- DRV_PORT_CTRL[n].SQ_COUNT. -/
abbrev F.DRV_PORT_CTRL_SQ_COUNT (n : Nat) : Fld := ⟨0xA00200 + 4 * n, 0, 7⟩
/-- DRV_PORT_CTRL[n].SQ_DEPTH. -/
abbrev F.DRV_PORT_CTRL_SQ_DEPTH (n : Nat) : Fld := ⟨0xA00200 + 4 * n, 8, 3⟩
/-- DRV_PORT_CTRL[n].CLK_MODE. -/
abbrev F.DRV_PORT_CTRL_CLK_MODE (n : Nat) : Fld := ⟨0xA00200 + 4 * n, 11, 1⟩
/-- DRV_PORT_CTRL[n].FAULT_LED. -/
abbrev F.DRV_PORT_CTRL_FAULT_LED (n : Nat) : Fld := ⟨0xA00200 + 4 * n, 12, 2⟩
/-- DRV_PORT_CTRL[n].LOCATE_LED. -/
abbrev F.DRV_PORT_CTRL_LOCATE_LED (n : Nat) : Fld := ⟨0xA00200 + 4 * n, 14, 2⟩
/-- DRV_PORT_CMD[n].CMD. -/
abbrev F.DRV_PORT_CMD_CMD (n : Nat) : Fld := ⟨0xA00300 + 4 * n, 0, 3⟩
/-- DRV_MI[n].TEMP. -/
abbrev F.DRV_MI_TEMP (n : Nat) : Fld := ⟨0xA00400 + 4 * n, 0, 8⟩
/-- DRV_MI[n].LIFE_USED. -/
abbrev F.DRV_MI_LIFE_USED (n : Nat) : Fld := ⟨0xA00400 + 4 * n, 8, 8⟩
/-- DRV_MI[n].WARNINGS. -/
abbrev F.DRV_MI_WARNINGS (n : Nat) : Fld := ⟨0xA00400 + 4 * n, 16, 8⟩
/-- DRV_MI[n].VALID. -/
abbrev F.DRV_MI_VALID (n : Nat) : Fld := ⟨0xA00400 + 4 * n, 24, 1⟩
/-- DRV_MI[n].STALE. -/
abbrev F.DRV_MI_STALE (n : Nat) : Fld := ⟨0xA00400 + 4 * n, 25, 1⟩
/-- DRV_PORT_CAP[n].VALUE. -/
abbrev F.DRV_PORT_CAP_VALUE (n : Nat) : Fld := ⟨0xA00500 + 8 * n, 0, 32⟩
/-- DRV_READS[n].VALUE. -/
abbrev F.DRV_READS_VALUE (n : Nat) : Fld := ⟨0xA01000 + 64 * n, 0, 32⟩
/-- DRV_WRITES[n].VALUE. -/
abbrev F.DRV_WRITES_VALUE (n : Nat) : Fld := ⟨0xA01008 + 64 * n, 0, 32⟩
/-- DRV_RETRIES[n].VALUE. -/
abbrev F.DRV_RETRIES_VALUE (n : Nat) : Fld := ⟨0xA01010 + 64 * n, 0, 32⟩
/-- DRV_MEDIA_ERR[n].VALUE. -/
abbrev F.DRV_MEDIA_ERR_VALUE (n : Nat) : Fld := ⟨0xA01018 + 64 * n, 0, 32⟩
/-- DRV_TIMEOUTS[n].VALUE. -/
abbrev F.DRV_TIMEOUTS_VALUE (n : Nat) : Fld := ⟨0xA01020 + 64 * n, 0, 32⟩
/-- DRV_AER_CORR[n].VALUE. -/
abbrev F.DRV_AER_CORR_VALUE (n : Nat) : Fld := ⟨0xA01028 + 64 * n, 0, 32⟩
/-- DRV_AER_UNCORR[n].VALUE. -/
abbrev F.DRV_AER_UNCORR_VALUE (n : Nat) : Fld := ⟨0xA01030 + 64 * n, 0, 32⟩
/-- DRV_RESV_CONFLICTS[n].VALUE. -/
abbrev F.DRV_RESV_CONFLICTS_VALUE (n : Nat) : Fld := ⟨0xA01038 + 64 * n, 0, 32⟩
/-- BAY_CTRL.LIMIT_EN. -/
abbrev F.BAY_CTRL_LIMIT_EN : Fld := ⟨0xB00000, 0, 1⟩
/-- BAY_STATUS.LATCHED. -/
abbrev F.BAY_STATUS_LATCHED : Fld := ⟨0xB00004, 0, 1⟩
/-- BAY_STATUS.PG_CHANGE. -/
abbrev F.BAY_STATUS_PG_CHANGE : Fld := ⟨0xB00004, 1, 1⟩
/-- BAY_STATUS.REVERSE. -/
abbrev F.BAY_STATUS_REVERSE : Fld := ⟨0xB00004, 2, 1⟩
/-- BAY_STATUS.OVER_LIMIT. -/
abbrev F.BAY_STATUS_OVER_LIMIT : Fld := ⟨0xB00004, 3, 1⟩
/-- BAY_STATUS.POWER_LOSS. -/
abbrev F.BAY_STATUS_POWER_LOSS : Fld := ⟨0xB00004, 4, 1⟩
/-- BAY_STATUS.PL_PRESENT. -/
abbrev F.BAY_STATUS_PL_PRESENT : Fld := ⟨0xB00004, 5, 1⟩
/-- BAY_PL.THRESH. -/
abbrev F.BAY_PL_THRESH : Fld := ⟨0xB00008, 0, 16⟩
/-- BAY_TEL_SEL.CHANNEL. -/
abbrev F.BAY_TEL_SEL_CHANNEL : Fld := ⟨0xB0000C, 0, 5⟩
/-- BAY_TEL_SEL.SUB. -/
abbrev F.BAY_TEL_SEL_SUB : Fld := ⟨0xB0000C, 8, 1⟩
/-- BAY_TEL_V.OUT. -/
abbrev F.BAY_TEL_V_OUT : Fld := ⟨0xB00010, 0, 16⟩
/-- BAY_TEL_V.IN. -/
abbrev F.BAY_TEL_V_IN : Fld := ⟨0xB00010, 16, 16⟩
/-- BAY_TEL_I.CURRENT. -/
abbrev F.BAY_TEL_I_CURRENT : Fld := ⟨0xB00014, 0, 32⟩
/-- BAY_TEL_P.POWER. -/
abbrev F.BAY_TEL_P_POWER : Fld := ⟨0xB00018, 0, 32⟩
/-- BAY_TEL_P1S.AVG. -/
abbrev F.BAY_TEL_P1S_AVG : Fld := ⟨0xB0001C, 0, 32⟩
/-- BAY_PL_EVENTS.VALUE. -/
abbrev F.BAY_PL_EVENTS_VALUE : Fld := ⟨0xB00020, 0, 32⟩
/-- BAY_EN[n].MAIN_EN. -/
abbrev F.BAY_EN_MAIN_EN (n : Nat) : Fld := ⟨0xB00100 + 4 * n, 0, 1⟩
/-- BAY_EN[n].AUX_EN. -/
abbrev F.BAY_EN_AUX_EN (n : Nat) : Fld := ⟨0xB00100 + 4 * n, 1, 1⟩
/-- BAY_STATE[n].MAIN_STATE. -/
abbrev F.BAY_STATE_MAIN_STATE (n : Nat) : Fld := ⟨0xB00200 + 4 * n, 0, 2⟩
/-- BAY_STATE[n].MAIN_PG. -/
abbrev F.BAY_STATE_MAIN_PG (n : Nat) : Fld := ⟨0xB00200 + 4 * n, 2, 1⟩
/-- BAY_STATE[n].MAIN_CAUSE. -/
abbrev F.BAY_STATE_MAIN_CAUSE (n : Nat) : Fld := ⟨0xB00200 + 4 * n, 3, 3⟩
/-- BAY_STATE[n].MAIN_LIMITING. -/
abbrev F.BAY_STATE_MAIN_LIMITING (n : Nat) : Fld := ⟨0xB00200 + 4 * n, 6, 1⟩
/-- BAY_STATE[n].MAIN_REVERSE. -/
abbrev F.BAY_STATE_MAIN_REVERSE (n : Nat) : Fld := ⟨0xB00200 + 4 * n, 7, 1⟩
/-- BAY_STATE[n].AUX. -/
abbrev F.BAY_STATE_AUX (n : Nat) : Fld := ⟨0xB00200 + 4 * n, 8, 8⟩
/-- BAY_STATE[n].OVER_LIMIT. -/
abbrev F.BAY_STATE_OVER_LIMIT (n : Nat) : Fld := ⟨0xB00200 + 4 * n, 16, 1⟩
/-- BAY_ENERGY_MAIN[n].VALUE. -/
abbrev F.BAY_ENERGY_MAIN_VALUE (n : Nat) : Fld := ⟨0xB00400 + 16 * n, 0, 32⟩
/-- BAY_ENERGY_AUX[n].VALUE. -/
abbrev F.BAY_ENERGY_AUX_VALUE (n : Nat) : Fld := ⟨0xB00408 + 16 * n, 0, 32⟩
/-- BAY_BREAKER_TRIPS[n].VALUE. -/
abbrev F.BAY_BREAKER_TRIPS_VALUE (n : Nat) : Fld := ⟨0xB01000 + 32 * n, 0, 32⟩
/-- BAY_TIMER_TRIPS[n].VALUE. -/
abbrev F.BAY_TIMER_TRIPS_VALUE (n : Nat) : Fld := ⟨0xB01008 + 32 * n, 0, 32⟩
/-- BAY_INRUSH_TRIPS[n].VALUE. -/
abbrev F.BAY_INRUSH_TRIPS_VALUE (n : Nat) : Fld := ⟨0xB01010 + 32 * n, 0, 32⟩
/-- BAY_REVERSE_EVENTS[n].VALUE. -/
abbrev F.BAY_REVERSE_EVENTS_VALUE (n : Nat) : Fld := ⟨0xB01018 + 32 * n, 0, 32⟩
/-- WDN_CTRL.AUTO_RESYNC. -/
abbrev F.WDN_CTRL_AUTO_RESYNC : Fld := ⟨0xC00000, 0, 1⟩
/-- WDN_CTRL.STOCKTAKE_EN. -/
abbrev F.WDN_CTRL_STOCKTAKE_EN : Fld := ⟨0xC00000, 1, 1⟩
/-- WDN_CTRL.REPORT_PEER. -/
abbrev F.WDN_CTRL_REPORT_PEER : Fld := ⟨0xC00000, 2, 1⟩
/-- WDN_CTRL.FENCE_LIMIT. -/
abbrev F.WDN_CTRL_FENCE_LIMIT : Fld := ⟨0xC00000, 8, 4⟩
/-- WDN_STATUS.DISAGREE. -/
abbrev F.WDN_STATUS_DISAGREE : Fld := ⟨0xC00004, 0, 1⟩
/-- WDN_STATUS.FENCED. -/
abbrev F.WDN_STATUS_FENCED : Fld := ⟨0xC00004, 1, 1⟩
/-- WDN_STATUS.RESYNC_DONE. -/
abbrev F.WDN_STATUS_RESYNC_DONE : Fld := ⟨0xC00004, 2, 1⟩
/-- WDN_STATUS.CORE_RETIRED. -/
abbrev F.WDN_STATUS_CORE_RETIRED : Fld := ⟨0xC00004, 3, 1⟩
/-- WDN_STATUS.RESTARTED. -/
abbrev F.WDN_STATUS_RESTARTED : Fld := ⟨0xC00004, 4, 1⟩
/-- WDN_STATUS.VOTER_FAULT. -/
abbrev F.WDN_STATUS_VOTER_FAULT : Fld := ⟨0xC00004, 5, 1⟩
/-- WDN_STATUS.STOCK_FAIL. -/
abbrev F.WDN_STATUS_STOCK_FAIL : Fld := ⟨0xC00004, 6, 1⟩
/-- WDN_STATUS.ACTIVATED. -/
abbrev F.WDN_STATUS_ACTIVATED : Fld := ⟨0xC00004, 7, 1⟩
/-- WDN_STATUS.ACTIVATE_FAIL. -/
abbrev F.WDN_STATUS_ACTIVATE_FAIL : Fld := ⟨0xC00004, 8, 1⟩
/-- WDN_STATUS.REPORT. -/
abbrev F.WDN_STATUS_REPORT : Fld := ⟨0xC00004, 9, 1⟩
/-- WDN_CORE.ACTIVE. -/
abbrev F.WDN_CORE_ACTIVE : Fld := ⟨0xC00008, 0, 3⟩
/-- WDN_CORE.FENCED. -/
abbrev F.WDN_CORE_FENCED : Fld := ⟨0xC00008, 4, 3⟩
/-- WDN_CORE.RETIRED. -/
abbrev F.WDN_CORE_RETIRED : Fld := ⟨0xC00008, 8, 3⟩
/-- WDN_CORE.MODE. -/
abbrev F.WDN_CORE_MODE : Fld := ⟨0xC00008, 12, 2⟩
/-- WDN_CMD.CMD. -/
abbrev F.WDN_CMD_CMD : Fld := ⟨0xC0000C, 0, 3⟩
/-- WDN_CMD.CORE. -/
abbrev F.WDN_CMD_CORE : Fld := ⟨0xC0000C, 4, 2⟩
/-- WDN_DISAGREE.CORE. -/
abbrev F.WDN_DISAGREE_CORE : Fld := ⟨0xC00010, 0, 3⟩
/-- WDN_DISAGREE.SITE. -/
abbrev F.WDN_DISAGREE_SITE : Fld := ⟨0xC00010, 4, 3⟩
/-- WDN_IRQ_PEND.PEND. -/
abbrev F.WDN_IRQ_PEND_PEND : Fld := ⟨0xC00014, 0, 18⟩
/-- WDN_IRQ_EN.EN. -/
abbrev F.WDN_IRQ_EN_EN : Fld := ⟨0xC00018, 0, 18⟩
/-- WDN_TALLY_MARK.MARK. -/
abbrev F.WDN_TALLY_MARK_MARK : Fld := ⟨0xC0001C, 0, 13⟩
/-- WDN_MCHECK.SOURCE. -/
abbrev F.WDN_MCHECK_SOURCE : Fld := ⟨0xC00048, 0, 2⟩
/-- WDN_MTIME.VALUE. -/
abbrev F.WDN_MTIME_VALUE : Fld := ⟨0xC00020, 0, 32⟩
/-- WDN_MTIMECMP.VALUE. -/
abbrev F.WDN_MTIMECMP_VALUE : Fld := ⟨0xC00028, 0, 32⟩
/-- WDN_FW_SRC.VALUE. -/
abbrev F.WDN_FW_SRC_VALUE : Fld := ⟨0xC00030, 0, 32⟩
/-- WDN_FW_SERIAL.VALUE. -/
abbrev F.WDN_FW_SERIAL_VALUE : Fld := ⟨0xC00038, 0, 32⟩
/-- WDN_FW_FLOOR.VALUE. -/
abbrev F.WDN_FW_FLOOR_VALUE : Fld := ⟨0xC00040, 0, 32⟩
/-- WDN_REPORT[n].WORD. -/
abbrev F.WDN_REPORT_WORD (n : Nat) : Fld := ⟨0xC00100 + 4 * n, 0, 32⟩
/-- WDN_DISAGREEMENTS.VALUE. -/
abbrev F.WDN_DISAGREEMENTS_VALUE : Fld := ⟨0xC00200, 0, 32⟩
/-- WDN_RESYNCS.VALUE. -/
abbrev F.WDN_RESYNCS_VALUE : Fld := ⟨0xC00208, 0, 32⟩
/-- WDN_RESTARTS.VALUE. -/
abbrev F.WDN_RESTARTS_VALUE : Fld := ⟨0xC00210, 0, 32⟩
/-- WDN_ACTIVATIONS.VALUE. -/
abbrev F.WDN_ACTIVATIONS_VALUE : Fld := ⟨0xC00218, 0, 32⟩
/-- WDN_STOCK_TESTS.VALUE. -/
abbrev F.WDN_STOCK_TESTS_VALUE : Fld := ⟨0xC00220, 0, 32⟩
/-- WDN_STOCK_FAILS.VALUE. -/
abbrev F.WDN_STOCK_FAILS_VALUE : Fld := ⟨0xC00228, 0, 32⟩
/-- PEER_CTRL.EN. -/
abbrev F.PEER_CTRL_EN : Fld := ⟨0xD00000, 0, 1⟩
/-- PEER_CTRL.AUTO_TAKEOVER. -/
abbrev F.PEER_CTRL_AUTO_TAKEOVER : Fld := ⟨0xD00000, 1, 1⟩
/-- PEER_CTRL.SOLO_WB. -/
abbrev F.PEER_CTRL_SOLO_WB : Fld := ⟨0xD00000, 2, 1⟩
/-- PEER_CTRL.HO_LIMIT. -/
abbrev F.PEER_CTRL_HO_LIMIT : Fld := ⟨0xD00000, 8, 11⟩
/-- PEER_STATUS.LINK_LOST. -/
abbrev F.PEER_STATUS_LINK_LOST : Fld := ⟨0xD00004, 0, 1⟩
/-- PEER_STATUS.SIDEBAND_LOST. -/
abbrev F.PEER_STATUS_SIDEBAND_LOST : Fld := ⟨0xD00004, 1, 1⟩
/-- PEER_STATUS.JOINED. -/
abbrev F.PEER_STATUS_JOINED : Fld := ⟨0xD00004, 2, 1⟩
/-- PEER_STATUS.ARB_WON. -/
abbrev F.PEER_STATUS_ARB_WON : Fld := ⟨0xD00004, 3, 1⟩
/-- PEER_STATUS.ARB_LOST. -/
abbrev F.PEER_STATUS_ARB_LOST : Fld := ⟨0xD00004, 4, 1⟩
/-- PEER_STATUS.FENCED. -/
abbrev F.PEER_STATUS_FENCED : Fld := ⟨0xD00004, 5, 1⟩
/-- PEER_STATUS.TAKEOVER_DONE. -/
abbrev F.PEER_STATUS_TAKEOVER_DONE : Fld := ⟨0xD00004, 6, 1⟩
/-- PEER_STATUS.HANDOVER_DONE. -/
abbrev F.PEER_STATUS_HANDOVER_DONE : Fld := ⟨0xD00004, 7, 1⟩
/-- PEER_STATUS.HANDOVER_ABORT. -/
abbrev F.PEER_STATUS_HANDOVER_ABORT : Fld := ⟨0xD00004, 8, 1⟩
/-- PEER_STATUS.MIRROR_FAIL. -/
abbrev F.PEER_STATUS_MIRROR_FAIL : Fld := ⟨0xD00004, 9, 1⟩
/-- PEER_STATUS.WAKE_RX. -/
abbrev F.PEER_STATUS_WAKE_RX : Fld := ⟨0xD00004, 10, 1⟩
/-- PEER_STATE.STATE. -/
abbrev F.PEER_STATE_STATE : Fld := ⟨0xD00008, 0, 3⟩
/-- PEER_STATE.LINK_GROUPS. -/
abbrev F.PEER_STATE_LINK_GROUPS : Fld := ⟨0xD00008, 3, 2⟩
/-- PEER_STATE.SIDEBAND_OK. -/
abbrev F.PEER_STATE_SIDEBAND_OK : Fld := ⟨0xD00008, 5, 1⟩
/-- PEER_STATE.PEER_FLAGS. -/
abbrev F.PEER_STATE_PEER_FLAGS : Fld := ⟨0xD00008, 8, 8⟩
/-- PEER_STATE.PEER_OWN. -/
abbrev F.PEER_STATE_PEER_OWN : Fld := ⟨0xD00008, 16, 8⟩
/-- PEER_STATE.OWN. -/
abbrev F.PEER_STATE_OWN : Fld := ⟨0xD00008, 24, 8⟩
/-- PEER_CMD.CMD. -/
abbrev F.PEER_CMD_CMD : Fld := ⟨0xD0000C, 0, 3⟩
/-- PEER_CMD.GROUPS. -/
abbrev F.PEER_CMD_GROUPS : Fld := ⟨0xD0000C, 8, 8⟩
/-- PEER_BAY_OWN.SIDE_B. -/
abbrev F.PEER_BAY_OWN_SIDE_B : Fld := ⟨0xD00010, 0, 24⟩
/-- PEER_ARB.N. -/
abbrev F.PEER_ARB_N : Fld := ⟨0xD00014, 0, 5⟩
/-- PEER_ARB.HELD. -/
abbrev F.PEER_ARB_HELD : Fld := ⟨0xD00014, 8, 5⟩
/-- PEER_ARB.RESULT. -/
abbrev F.PEER_ARB_RESULT : Fld := ⟨0xD00014, 16, 2⟩
/-- PEER_ARB_SET.BAYS. -/
abbrev F.PEER_ARB_SET_BAYS : Fld := ⟨0xD00018, 0, 24⟩
/-- PEER_CREDIT.SLOTS. -/
abbrev F.PEER_CREDIT_SLOTS : Fld := ⟨0xD0001C, 0, 17⟩
/-- PEER_JOURNAL_ID.VALUE. -/
abbrev F.PEER_JOURNAL_ID_VALUE : Fld := ⟨0xD00020, 0, 32⟩
/-- PEER_MIRROR_INTENTS.VALUE. -/
abbrev F.PEER_MIRROR_INTENTS_VALUE : Fld := ⟨0xD00100, 0, 32⟩
/-- PEER_MIRROR_BLOCKS.VALUE. -/
abbrev F.PEER_MIRROR_BLOCKS_VALUE : Fld := ⟨0xD00108, 0, 32⟩
/-- PEER_CREDIT_WAITS.VALUE. -/
abbrev F.PEER_CREDIT_WAITS_VALUE : Fld := ⟨0xD00110, 0, 32⟩
/-- PEER_MIRROR_FAIL.VALUE. -/
abbrev F.PEER_MIRROR_FAIL_VALUE : Fld := ⟨0xD00118, 0, 32⟩
/-- PEER_RETRANSMITS.VALUE. -/
abbrev F.PEER_RETRANSMITS_VALUE : Fld := ⟨0xD00120, 0, 32⟩
/-- PEER_FRAME_ERR.VALUE. -/
abbrev F.PEER_FRAME_ERR_VALUE : Fld := ⟨0xD00128, 0, 32⟩
/-- PEER_SIDEBAND_ERR.VALUE. -/
abbrev F.PEER_SIDEBAND_ERR_VALUE : Fld := ⟨0xD00130, 0, 32⟩
/-- PWR_MODE.REQ. -/
abbrev F.PWR_MODE_REQ : Fld := ⟨0xE00000, 0, 2⟩
/-- PWR_MODE.GO. -/
abbrev F.PWR_MODE_GO : Fld := ⟨0xE00000, 2, 1⟩
/-- PWR_MODE.CUR. -/
abbrev F.PWR_MODE_CUR : Fld := ⟨0xE00000, 4, 2⟩
/-- PWR_MODE.TARGET. -/
abbrev F.PWR_MODE_TARGET : Fld := ⟨0xE00000, 6, 2⟩
/-- PWR_MODE.PENDING. -/
abbrev F.PWR_MODE_PENDING : Fld := ⟨0xE00000, 8, 2⟩
/-- PWR_MODE.PENDING_VALID. -/
abbrev F.PWR_MODE_PENDING_VALID : Fld := ⟨0xE00000, 10, 1⟩
/-- PWR_MODE.PHASE. -/
abbrev F.PWR_MODE_PHASE : Fld := ⟨0xE00000, 12, 2⟩
/-- PWR_STATUS.MODE_DONE. -/
abbrev F.PWR_STATUS_MODE_DONE : Fld := ⟨0xE00004, 0, 1⟩
/-- PWR_STATUS.WOKEN. -/
abbrev F.PWR_STATUS_WOKEN : Fld := ⟨0xE00004, 1, 1⟩
/-- PWR_STATUS.RETENTION_FAIL. -/
abbrev F.PWR_STATUS_RETENTION_FAIL : Fld := ⟨0xE00004, 2, 1⟩
/-- PWR_STATUS.DRAIN_TIMEOUT. -/
abbrev F.PWR_STATUS_DRAIN_TIMEOUT : Fld := ⟨0xE00004, 3, 1⟩
/-- PWR_STATUS.THROTTLED. -/
abbrev F.PWR_STATUS_THROTTLED : Fld := ⟨0xE00004, 4, 1⟩
/-- PWR_STATUS.WAKE_ACK. -/
abbrev F.PWR_STATUS_WAKE_ACK : Fld := ⟨0xE00004, 5, 1⟩
/-- PWR_STATUS.ENTRY_ABANDONED. -/
abbrev F.PWR_STATUS_ENTRY_ABANDONED : Fld := ⟨0xE00004, 6, 1⟩
/-- PWR_STATUS.PENDING_DROPPED. -/
abbrev F.PWR_STATUS_PENDING_DROPPED : Fld := ⟨0xE00004, 7, 1⟩
/-- PWR_STATUS.REFUSED. -/
abbrev F.PWR_STATUS_REFUSED : Fld := ⟨0xE00004, 8, 1⟩
/-- PWR_CTRL.DRAIN_LIMIT. -/
abbrev F.PWR_CTRL_DRAIN_LIMIT : Fld := ⟨0xE00008, 0, 16⟩
/-- PWR_CTRL.AVS_EN. -/
abbrev F.PWR_CTRL_AVS_EN : Fld := ⟨0xE00008, 16, 1⟩
/-- PWR_WAKE_EN.EN. -/
abbrev F.PWR_WAKE_EN_EN : Fld := ⟨0xE0000C, 0, 7⟩
/-- PWR_WAKE_ENERGY.ARMED. -/
abbrev F.PWR_WAKE_ENERGY_ARMED : Fld := ⟨0xE00010, 0, 32⟩
/-- PWR_WAKE_CAUSE.SOURCES. -/
abbrev F.PWR_WAKE_CAUSE_SOURCES : Fld := ⟨0xE00014, 0, 7⟩
/-- PWR_WAKE_CAUSE.REQUEST. -/
abbrev F.PWR_WAKE_CAUSE_REQUEST : Fld := ⟨0xE00014, 7, 1⟩
/-- PWR_CMD.WAKE_PEER. -/
abbrev F.PWR_CMD_WAKE_PEER : Fld := ⟨0xE00018, 0, 1⟩
/-- PWR_WAKE_PART_FAIL.PARTITIONS. -/
abbrev F.PWR_WAKE_PART_FAIL_PARTITIONS : Fld := ⟨0xE0001C, 1, 14⟩
/-- PWR_WAKE_TIMER.VALUE. -/
abbrev F.PWR_WAKE_TIMER_VALUE : Fld := ⟨0xE00020, 0, 32⟩
/-- PWR_WAKE_RETENTION_FAIL.BANKS. -/
abbrev F.PWR_WAKE_RETENTION_FAIL_BANKS : Fld := ⟨0xE00028, 0, 32⟩
/-- PWR_ISL_SEL.ISLAND. -/
abbrev F.PWR_ISL_SEL_ISLAND : Fld := ⟨0xE00030, 0, 7⟩
/-- PWR_ISL_STATE.VOLT. -/
abbrev F.PWR_ISL_STATE_VOLT : Fld := ⟨0xE00034, 0, 10⟩
/-- PWR_ISL_STATE.FREQ. -/
abbrev F.PWR_ISL_STATE_FREQ : Fld := ⟨0xE00034, 12, 11⟩
/-- PWR_ISL_STATE.THROTTLED. -/
abbrev F.PWR_ISL_STATE_THROTTLED : Fld := ⟨0xE00034, 24, 1⟩
/-- PWR_ISL_STATE.GATED. -/
abbrev F.PWR_ISL_STATE_GATED : Fld := ⟨0xE00034, 25, 1⟩
/-- PWR_RAIL.SETPOINT. -/
abbrev F.PWR_RAIL_SETPOINT : Fld := ⟨0xE00038, 0, 10⟩
/-- PWR_TRIM_ENTRIES.VALUE. -/
abbrev F.PWR_TRIM_ENTRIES_VALUE : Fld := ⟨0xE00100, 0, 32⟩
/-- PWR_DOZE_ENTRIES.VALUE. -/
abbrev F.PWR_DOZE_ENTRIES_VALUE : Fld := ⟨0xE00108, 0, 32⟩
/-- PWR_DORMANT_ENTRIES.VALUE. -/
abbrev F.PWR_DORMANT_ENTRIES_VALUE : Fld := ⟨0xE00110, 0, 32⟩
/-- PWR_WAKES.VALUE. -/
abbrev F.PWR_WAKES_VALUE : Fld := ⟨0xE00118, 0, 32⟩
/-- PWR_DRAIN_TIMEOUTS.VALUE. -/
abbrev F.PWR_DRAIN_TIMEOUTS_VALUE : Fld := ⟨0xE00120, 0, 32⟩
/-- PWR_THROTTLE_EVENTS.VALUE. -/
abbrev F.PWR_THROTTLE_EVENTS_VALUE : Fld := ⟨0xE00128, 0, 32⟩
/-- PWR_RETENTION_FAILS.VALUE. -/
abbrev F.PWR_RETENTION_FAILS_VALUE : Fld := ⟨0xE00130, 0, 32⟩
/-- MGT_CTRL.EVT_EN. -/
abbrev F.MGT_CTRL_EVT_EN : Fld := ⟨0xF00000, 0, 1⟩
/-- MGT_CTRL.LEDGER_EN. -/
abbrev F.MGT_CTRL_LEDGER_EN : Fld := ⟨0xF00000, 1, 1⟩
/-- MGT_STATUS.TALLY_LOST. -/
abbrev F.MGT_STATUS_TALLY_LOST : Fld := ⟨0xF00004, 0, 1⟩
/-- MGT_STATUS.EVT_DROP. -/
abbrev F.MGT_STATUS_EVT_DROP : Fld := ⟨0xF00004, 1, 1⟩
/-- MGT_STATUS.LEDGER_ERR. -/
abbrev F.MGT_STATUS_LEDGER_ERR : Fld := ⟨0xF00004, 2, 1⟩
/-- MGT_STATUS.ST_DONE. -/
abbrev F.MGT_STATUS_ST_DONE : Fld := ⟨0xF00004, 3, 1⟩
/-- MGT_STATUS.ST_BUSY. -/
abbrev F.MGT_STATUS_ST_BUSY : Fld := ⟨0xF00004, 4, 1⟩
/-- MGT_STATUS.FW_DONE. -/
abbrev F.MGT_STATUS_FW_DONE : Fld := ⟨0xF00004, 5, 1⟩
/-- MGT_STATUS.DBG_REFUSED. -/
abbrev F.MGT_STATUS_DBG_REFUSED : Fld := ⟨0xF00004, 6, 1⟩
/-- MGT_SMB_ADDR.ADDR0. -/
abbrev F.MGT_SMB_ADDR_ADDR0 : Fld := ⟨0xF00008, 0, 7⟩
/-- MGT_SMB_ADDR.ADDR1. -/
abbrev F.MGT_SMB_ADDR_ADDR1 : Fld := ⟨0xF00008, 8, 7⟩
/-- MGT_SMB_ADDR.ACTIVE. -/
abbrev F.MGT_SMB_ADDR_ACTIVE : Fld := ⟨0xF00008, 16, 2⟩
/-- MGT_EVT_PORT.PORT. -/
abbrev F.MGT_EVT_PORT_PORT : Fld := ⟨0xF0000C, 0, 16⟩
/-- MGT_EVT_PORT.IPV6. -/
abbrev F.MGT_EVT_PORT_IPV6 : Fld := ⟨0xF0000C, 16, 1⟩
/-- MGT_EVT_ADDR[n].WORD. -/
abbrev F.MGT_EVT_ADDR_WORD (n : Nat) : Fld := ⟨0xF00010 + 4 * n, 0, 32⟩
/-- MGT_EVT_CLASSES.MASK. -/
abbrev F.MGT_EVT_CLASSES_MASK : Fld := ⟨0xF00020, 0, 16⟩
/-- MGT_TALLY_PTR.READ. -/
abbrev F.MGT_TALLY_PTR_READ : Fld := ⟨0xF00024, 0, 12⟩
/-- MGT_TALLY_PTR.UNREAD. -/
abbrev F.MGT_TALLY_PTR_UNREAD : Fld := ⟨0xF00024, 12, 13⟩
/-- MGT_TALLY_CMD.ADVANCE. -/
abbrev F.MGT_TALLY_CMD_ADVANCE : Fld := ⟨0xF00028, 0, 13⟩
/-- MGT_TALLY_SEL.SLOT. -/
abbrev F.MGT_TALLY_SEL_SLOT : Fld := ⟨0xF0002C, 0, 12⟩
/-- MGT_TALLY_REC[n].WORD. -/
abbrev F.MGT_TALLY_REC_WORD (n : Nat) : Fld := ⟨0xF00040 + 4 * n, 0, 32⟩
/-- MGT_TALLY_IN[n].WORD. -/
abbrev F.MGT_TALLY_IN_WORD (n : Nat) : Fld := ⟨0xF00080 + 4 * n, 0, 32⟩
/-- MGT_TALLY_APPEND.GO. -/
abbrev F.MGT_TALLY_APPEND_GO : Fld := ⟨0xF000C0, 0, 1⟩
/-- MGT_ST_CTRL.CMD. -/
abbrev F.MGT_ST_CTRL_CMD : Fld := ⟨0xF000C4, 0, 2⟩
/-- MGT_ST_PROGRESS.PERCENT. -/
abbrev F.MGT_ST_PROGRESS_PERCENT : Fld := ⟨0xF000C8, 0, 7⟩
/-- MGT_ST_PROGRESS.AREA. -/
abbrev F.MGT_ST_PROGRESS_AREA : Fld := ⟨0xF000C8, 8, 8⟩
/-- MGT_ST_PROGRESS.RUNNING. -/
abbrev F.MGT_ST_PROGRESS_RUNNING : Fld := ⟨0xF000C8, 16, 1⟩
/-- MGT_ST_RESULT.RESULT. -/
abbrev F.MGT_ST_RESULT_RESULT : Fld := ⟨0xF000CC, 0, 32⟩
/-- MGT_FW_CTRL.CMD. -/
abbrev F.MGT_FW_CTRL_CMD : Fld := ⟨0xF000D0, 0, 2⟩
/-- MGT_FW_DATA.DATA. -/
abbrev F.MGT_FW_DATA_DATA : Fld := ⟨0xF000D4, 0, 32⟩
/-- MGT_FW_STATUS.READY. -/
abbrev F.MGT_FW_STATUS_READY : Fld := ⟨0xF000D8, 0, 1⟩
/-- MGT_FW_STATUS.CODE. -/
abbrev F.MGT_FW_STATUS_CODE : Fld := ⟨0xF000D8, 8, 8⟩
/-- MGT_FW_STATUS.STAGED_KIB. -/
abbrev F.MGT_FW_STATUS_STAGED_KIB : Fld := ⟨0xF000D8, 17, 15⟩
/-- MGT_DBG_DATA.DATA. -/
abbrev F.MGT_DBG_DATA_DATA : Fld := ⟨0xF000E0, 0, 32⟩
/-- MGT_DBG_CMD.CMD. -/
abbrev F.MGT_DBG_CMD_CMD : Fld := ⟨0xF000E4, 0, 2⟩
/-- MGT_DBG_STATE.SCOPE. -/
abbrev F.MGT_DBG_STATE_SCOPE : Fld := ⟨0xF000E8, 0, 3⟩
/-- MGT_DBG_STATE.CODE. -/
abbrev F.MGT_DBG_STATE_CODE : Fld := ⟨0xF000E8, 8, 8⟩
/-- MGT_DBG_NONCE.VALUE. -/
abbrev F.MGT_DBG_NONCE_VALUE : Fld := ⟨0xF000F0, 0, 32⟩
/-- MGT_LEDGER_REQS.VALUE. -/
abbrev F.MGT_LEDGER_REQS_VALUE : Fld := ⟨0xF00100, 0, 32⟩
/-- MGT_LEDGER_ERRS.VALUE. -/
abbrev F.MGT_LEDGER_ERRS_VALUE : Fld := ⟨0xF00108, 0, 32⟩
/-- MGT_LEDGER_REPLAYS.VALUE. -/
abbrev F.MGT_LEDGER_REPLAYS_VALUE : Fld := ⟨0xF00110, 0, 32⟩
/-- MGT_SMB_PEC_ERR.VALUE. -/
abbrev F.MGT_SMB_PEC_ERR_VALUE : Fld := ⟨0xF00118, 0, 32⟩
/-- MGT_TALLY_RECORDS.VALUE. -/
abbrev F.MGT_TALLY_RECORDS_VALUE : Fld := ⟨0xF00120, 0, 32⟩
/-- MGT_TALLY_LOST.VALUE. -/
abbrev F.MGT_TALLY_LOST_VALUE : Fld := ⟨0xF00128, 0, 32⟩
/-- MGT_EVT_FRAMES.VALUE. -/
abbrev F.MGT_EVT_FRAMES_VALUE : Fld := ⟨0xF00130, 0, 32⟩
/-- MGT_EVT_DROPS.VALUE. -/
abbrev F.MGT_EVT_DROPS_VALUE : Fld := ⟨0xF00138, 0, 32⟩
/-- GLB_RESET.CONFIRM. -/
abbrev F.GLB_RESET_CONFIRM : Fld := ⟨0x4, 0, 8⟩
/-- GLB_RESET_CAUSE.CAUSE. -/
abbrev F.GLB_RESET_CAUSE_CAUSE : Fld := ⟨0x8, 0, 3⟩
/-- GLB_RESET_CAUSE.DUMPED. -/
abbrev F.GLB_RESET_CAUSE_DUMPED : Fld := ⟨0x8, 3, 1⟩
/-- GLB_LOCK.INV_LOCKED. -/
abbrev F.GLB_LOCK_INV_LOCKED : Fld := ⟨0xC, 0, 1⟩
/-- GLB_LOCK.JTAG_SCOPE. -/
abbrev F.GLB_LOCK_JTAG_SCOPE : Fld := ⟨0xC, 1, 3⟩
/-- GLB_BOOT.FW_SLOT. -/
abbrev F.GLB_BOOT_FW_SLOT : Fld := ⟨0x10, 0, 2⟩
/-- GLB_BOOT.FLASH_MODE. -/
abbrev F.GLB_BOOT_FLASH_MODE : Fld := ⟨0x10, 2, 2⟩
/-- GLB_BOOT.FW_MS. -/
abbrev F.GLB_BOOT_FW_MS : Fld := ⟨0x10, 8, 12⟩
/-- GLB_THERM.LIMIT. -/
abbrev F.GLB_THERM_LIMIT : Fld := ⟨0x14, 0, 8⟩
/-- GLB_THERM.TEMP. -/
abbrev F.GLB_THERM_TEMP : Fld := ⟨0x14, 8, 8⟩
/-- GLB_THERM.THERM. -/
abbrev F.GLB_THERM_THERM : Fld := ⟨0x14, 16, 1⟩
/-- GLB_STATUS.THERM. -/
abbrev F.GLB_STATUS_THERM : Fld := ⟨0x18, 0, 1⟩
/-- GLB_STATUS.PG_LOST. -/
abbrev F.GLB_STATUS_PG_LOST : Fld := ⟨0x18, 1, 1⟩
/-- GLB_STATUS.SPI_DONE. -/
abbrev F.GLB_STATUS_SPI_DONE : Fld := ⟨0x18, 2, 1⟩
/-- GLB_STATUS.SPI_ERR. -/
abbrev F.GLB_STATUS_SPI_ERR : Fld := ⟨0x18, 3, 1⟩
/-- GLB_STATUS.AVS_ERR. -/
abbrev F.GLB_STATUS_AVS_ERR : Fld := ⟨0x18, 4, 1⟩
/-- GLB_STATUS.SPI_BUSY. -/
abbrev F.GLB_STATUS_SPI_BUSY : Fld := ⟨0x18, 5, 1⟩
/-- GLB_SPI_CTRL.CMD. -/
abbrev F.GLB_SPI_CTRL_CMD : Fld := ⟨0x20, 0, 3⟩
/-- GLB_SPI_CTRL.LEN. -/
abbrev F.GLB_SPI_CTRL_LEN : Fld := ⟨0x20, 8, 7⟩
/-- GLB_SPI_CTRL.ERR. -/
abbrev F.GLB_SPI_CTRL_ERR : Fld := ⟨0x20, 16, 3⟩
/-- GLB_SPI_ADDR.ADDR. -/
abbrev F.GLB_SPI_ADDR_ADDR : Fld := ⟨0x24, 0, 28⟩
/-- GLB_SPI_DATA[n].WORD. -/
abbrev F.GLB_SPI_DATA_WORD (n : Nat) : Fld := ⟨0x40 + 4 * n, 0, 32⟩

/-- Address of INV_CTRL. -/
abbrev A.INV_CTRL : Nat := 0x100000
/-- Address of INV_STATUS. -/
abbrev A.INV_STATUS : Nat := 0x100004
/-- Address of INV_DATA. -/
abbrev A.INV_DATA : Nat := 0x100008
/-- Address of INV_ERROR. -/
abbrev A.INV_ERROR : Nat := 0x10000C
/-- Address of INV_RESIDENT_SERIAL. -/
abbrev A.INV_RESIDENT_SERIAL : Nat := 0x100010
/-- Address of INV_STAGED_SERIAL. -/
abbrev A.INV_STAGED_SERIAL : Nat := 0x100018
/-- Address of INV_FLOOR. -/
abbrev A.INV_FLOOR : Nat := 0x100020
/-- Address of INV_KEYSLOT[n]. -/
abbrev A.INV_KEYSLOT (n : Nat) : Nat := 0x100030 + 4 * n
/-- Address of INV_SECTION_SERIAL[n]. -/
abbrev A.INV_SECTION_SERIAL (n : Nat) : Nat := 0x100040 + 4 * n
/-- Address of GLB_ID. -/
abbrev A.GLB_ID : Nat := 0x0
/-- Address of HST_CTRL. -/
abbrev A.HST_CTRL : Nat := 0x200000
/-- Address of HST_STATUS. -/
abbrev A.HST_STATUS : Nat := 0x200004
/-- Address of HST_CAPACITY. -/
abbrev A.HST_CAPACITY : Nat := 0x200008
/-- Address of HST_RETIRE. -/
abbrev A.HST_RETIRE : Nat := 0x20000C
/-- Address of HST_CE_LIMIT. -/
abbrev A.HST_CE_LIMIT : Nat := 0x200010
/-- Address of HST_UE_CELL. -/
abbrev A.HST_UE_CELL : Nat := 0x200014
/-- Address of HST_PANTRY_UE_LOC. -/
abbrev A.HST_PANTRY_UE_LOC : Nat := 0x200018
/-- Address of HST_SLICE_INDEX. -/
abbrev A.HST_SLICE_INDEX : Nat := 0x20001C
/-- Address of HST_SLICE_DATA. -/
abbrev A.HST_SLICE_DATA : Nat := 0x200020
/-- Address of HST_REGION[n]. -/
abbrev A.HST_REGION (n : Nat) : Nat := 0x200040 + 4 * n
/-- Address of HST_CE_TOTAL. -/
abbrev A.HST_CE_TOTAL : Nat := 0x200080
/-- Address of HST_UE_TOTAL. -/
abbrev A.HST_UE_TOTAL : Nat := 0x200088
/-- Address of HST_HCHK_ERR. -/
abbrev A.HST_HCHK_ERR : Nat := 0x200090
/-- Address of HST_FLOW_ERR. -/
abbrev A.HST_FLOW_ERR : Nat := 0x200098
/-- Address of HST_PC_STATE[n]. -/
abbrev A.HST_PC_STATE (n : Nat) : Nat := 0x200100 + 4 * n
/-- Address of HST_PANTRY_BANK[n]. -/
abbrev A.HST_PANTRY_BANK (n : Nat) : Nat := 0x200200 + 4 * n
/-- Address of HST_RESEQ[n]. -/
abbrev A.HST_RESEQ (n : Nat) : Nat := 0x200300 + 4 * n
/-- Address of HST_AGENT_CELLS_IN[n]. -/
abbrev A.HST_AGENT_CELLS_IN (n : Nat) : Nat := 0x200400 + 16 * n
/-- Address of HST_AGENT_CELLS_OUT[n]. -/
abbrev A.HST_AGENT_CELLS_OUT (n : Nat) : Nat := 0x200408 + 16 * n
/-- Address of TRN_CTRL. -/
abbrev A.TRN_CTRL : Nat := 0x300000
/-- Address of TRN_INIT_RETRY. -/
abbrev A.TRN_INIT_RETRY : Nat := 0x300004
/-- Address of TRN_STATUS. -/
abbrev A.TRN_STATUS : Nat := 0x300008
/-- Address of TRN_RX_QUOTA. -/
abbrev A.TRN_RX_QUOTA : Nat := 0x30000C
/-- Address of TRN_RX_IN_USE. -/
abbrev A.TRN_RX_IN_USE : Nat := 0x300010
/-- Address of TRN_TX_IN_USE. -/
abbrev A.TRN_TX_IN_USE : Nat := 0x300014
/-- Address of TRN_SA_SEL. -/
abbrev A.TRN_SA_SEL : Nat := 0x300018
/-- Address of TRN_SA_CMD. -/
abbrev A.TRN_SA_CMD : Nat := 0x30001C
/-- Address of TRN_SA_WORD[n]. -/
abbrev A.TRN_SA_WORD (n : Nat) : Nat := 0x300100 + 4 * n
/-- Address of TRN_RX_PKTS. -/
abbrev A.TRN_RX_PKTS : Nat := 0x300200
/-- Address of TRN_TX_PKTS. -/
abbrev A.TRN_TX_PKTS : Nat := 0x300208
/-- Address of TRN_RETRIES. -/
abbrev A.TRN_RETRIES : Nat := 0x300210
/-- Address of TRN_TAG_FAIL. -/
abbrev A.TRN_TAG_FAIL : Nat := 0x300218
/-- Address of TRN_REPLAY_DROP. -/
abbrev A.TRN_REPLAY_DROP : Nat := 0x300220
/-- Address of TRN_DUP_PKTS. -/
abbrev A.TRN_DUP_PKTS : Nat := 0x300228
/-- Address of TRN_NAK_TX. -/
abbrev A.TRN_NAK_TX : Nat := 0x300230
/-- Address of TRN_NAK_RX. -/
abbrev A.TRN_NAK_RX : Nat := 0x300238
/-- Address of TRN_MSG_FAILED. -/
abbrev A.TRN_MSG_FAILED : Nat := 0x300240
/-- Address of TRN_REAPED. -/
abbrev A.TRN_REAPED : Nat := 0x300248
/-- Address of TRN_TX_WAITS. -/
abbrev A.TRN_TX_WAITS : Nat := 0x300250
/-- Address of TRN_PATH_MISMATCH. -/
abbrev A.TRN_PATH_MISMATCH : Nat := 0x300258
/-- Address of TRN_NO_SA. -/
abbrev A.TRN_NO_SA : Nat := 0x300260
/-- Address of TRN_MALFORMED. -/
abbrev A.TRN_MALFORMED : Nat := 0x300268
/-- Address of WIN_CTRL. -/
abbrev A.WIN_CTRL : Nat := 0x301000
/-- Address of WIN_SEL. -/
abbrev A.WIN_SEL : Nat := 0x301004
/-- Address of WIN_CMD. -/
abbrev A.WIN_CMD : Nat := 0x301008
/-- Address of WIN_STATUS. -/
abbrev A.WIN_STATUS : Nat := 0x30100C
/-- Address of WIN_DONE. -/
abbrev A.WIN_DONE : Nat := 0x301010
/-- Address of WIN_WORD[n]. -/
abbrev A.WIN_WORD (n : Nat) : Nat := 0x301020 + 4 * n
/-- Address of WIN_PLACE_OK. -/
abbrev A.WIN_PLACE_OK : Nat := 0x301100
/-- Address of WIN_ACCESS_NAK. -/
abbrev A.WIN_ACCESS_NAK : Nat := 0x301108
/-- Address of WIN_BOUNDS_NAK. -/
abbrev A.WIN_BOUNDS_NAK : Nat := 0x301110
/-- Address of WIN_FENCE_LATE. -/
abbrev A.WIN_FENCE_LATE : Nat := 0x301118
/-- Address of WIN_COMMIT_HELD. -/
abbrev A.WIN_COMMIT_HELD : Nat := 0x301120
/-- Address of WIN_COMMIT_DISCARD. -/
abbrev A.WIN_COMMIT_DISCARD : Nat := 0x301128
/-- Address of WIN_FETCH_SERVED. -/
abbrev A.WIN_FETCH_SERVED : Nat := 0x301130
/-- Address of WIN_HOLD[n]. -/
abbrev A.WIN_HOLD (n : Nat) : Nat := 0x301140 + 4 * n
/-- Address of CQ_CTRL. -/
abbrev A.CQ_CTRL : Nat := 0x400000
/-- Address of CQ_CMD. -/
abbrev A.CQ_CMD : Nat := 0x400004
/-- Address of CQ_STATUS. -/
abbrev A.CQ_STATUS : Nat := 0x400008
/-- Address of CQ_POOL. -/
abbrev A.CQ_POOL : Nat := 0x40000C
/-- Address of CQ_Q_SEL. -/
abbrev A.CQ_Q_SEL : Nat := 0x400010
/-- Address of CQ_EP_STATE. -/
abbrev A.CQ_EP_STATE : Nat := 0x400014
/-- Address of CQ_Q_STATE. -/
abbrev A.CQ_Q_STATE : Nat := 0x400018
/-- Address of CQ_Q_RING. -/
abbrev A.CQ_Q_RING : Nat := 0x40001C
/-- Address of CQ_Q_TOKEN[n]. -/
abbrev A.CQ_Q_TOKEN (n : Nat) : Nat := 0x400020 + 4 * n
/-- Address of CQ_ACCEPTED. -/
abbrev A.CQ_ACCEPTED : Nat := 0x400100
/-- Address of CQ_COMPLETED. -/
abbrev A.CQ_COMPLETED : Nat := 0x400108
/-- Address of CQ_DUPLICATE. -/
abbrev A.CQ_DUPLICATE : Nat := 0x400110
/-- Address of CQ_TAG_CONFLICT. -/
abbrev A.CQ_TAG_CONFLICT : Nat := 0x400118
/-- Address of CQ_STALE. -/
abbrev A.CQ_STALE : Nat := 0x400120
/-- Address of CQ_NO_QUEUE. -/
abbrev A.CQ_NO_QUEUE : Nat := 0x400128
/-- Address of CQ_INTAKE_FULL. -/
abbrev A.CQ_INTAKE_FULL : Nat := 0x400130
/-- Address of CQ_TIMEOUTS. -/
abbrev A.CQ_TIMEOUTS : Nat := 0x400138
/-- Address of CQ_ABORTED. -/
abbrev A.CQ_ABORTED : Nat := 0x400140
/-- Address of CQ_UNDELIVERED. -/
abbrev A.CQ_UNDELIVERED : Nat := 0x400148
/-- Address of VOL_CTRL. -/
abbrev A.VOL_CTRL : Nat := 0x500000
/-- Address of VOL_STATUS. -/
abbrev A.VOL_STATUS : Nat := 0x500004
/-- Address of VOL_SEL. -/
abbrev A.VOL_SEL : Nat := 0x500008
/-- Address of VOL_CMD. -/
abbrev A.VOL_CMD : Nat := 0x50000C
/-- Address of VOL_ERROR. -/
abbrev A.VOL_ERROR : Nat := 0x500010
/-- Address of VOL_WORD[n]. -/
abbrev A.VOL_WORD (n : Nat) : Nat := 0x500040 + 4 * n
/-- Address of VOL_XLATE. -/
abbrev A.VOL_XLATE : Nat := 0x500100
/-- Address of VOL_MAP_MISS. -/
abbrev A.VOL_MAP_MISS : Nat := 0x500108
/-- Address of VOL_GUARD_ERR. -/
abbrev A.VOL_GUARD_ERR : Nat := 0x500110
/-- Address of VOL_TAG_ERR. -/
abbrev A.VOL_TAG_ERR : Nat := 0x500118
/-- Address of VOL_REFUSED. -/
abbrev A.VOL_REFUSED : Nat := 0x500120
/-- Address of STR_CTRL. -/
abbrev A.STR_CTRL : Nat := 0x600000
/-- Address of STR_STATUS. -/
abbrev A.STR_STATUS : Nat := 0x600004
/-- Address of STR_CMD. -/
abbrev A.STR_CMD : Nat := 0x600008
/-- Address of STR_USE. -/
abbrev A.STR_USE : Nat := 0x60000C
/-- Address of STR_LIVE. -/
abbrev A.STR_LIVE : Nat := 0x600010
/-- Address of STR_COPY. -/
abbrev A.STR_COPY : Nat := 0x600014
/-- Address of STR_REPLAY. -/
abbrev A.STR_REPLAY : Nat := 0x600018
/-- Address of STR_GEN_SEL. -/
abbrev A.STR_GEN_SEL : Nat := 0x60001C
/-- Address of STR_GEN_CLOCK. -/
abbrev A.STR_GEN_CLOCK : Nat := 0x600020
/-- Address of STR_JOURNAL_GEN. -/
abbrev A.STR_JOURNAL_GEN : Nat := 0x600028
/-- Address of STR_FULL_STRIPES. -/
abbrev A.STR_FULL_STRIPES : Nat := 0x600100
/-- Address of STR_RMW_STRIPES. -/
abbrev A.STR_RMW_STRIPES : Nat := 0x600108
/-- Address of STR_RECON_ROWS. -/
abbrev A.STR_RECON_ROWS : Nat := 0x600110
/-- Address of STR_DESTAGE_BLOCKS. -/
abbrev A.STR_DESTAGE_BLOCKS : Nat := 0x600118
/-- Address of STR_BUDGET_WAITS. -/
abbrev A.STR_BUDGET_WAITS : Nat := 0x600120
/-- Address of STR_INTENT_WAITS. -/
abbrev A.STR_INTENT_WAITS : Nat := 0x600128
/-- Address of STR_CKPT_BLOCKS. -/
abbrev A.STR_CKPT_BLOCKS : Nat := 0x600130
/-- Address of STR_REPLAY_WRITES. -/
abbrev A.STR_REPLAY_WRITES : Nat := 0x600138
/-- Address of STR_REPLAY_LOST. -/
abbrev A.STR_REPLAY_LOST : Nat := 0x600140
/-- Address of STR_MEMBER_WRITE_ERR. -/
abbrev A.STR_MEMBER_WRITE_ERR : Nat := 0x600148
/-- Address of RBD_CTRL. -/
abbrev A.RBD_CTRL : Nat := 0x501000
/-- Address of RBD_STATUS. -/
abbrev A.RBD_STATUS : Nat := 0x501004
/-- Address of RBD_ERR_LIMIT. -/
abbrev A.RBD_ERR_LIMIT : Nat := 0x501008
/-- Address of RBD_RATE. -/
abbrev A.RBD_RATE : Nat := 0x50100C
/-- Address of RBD_CMD. -/
abbrev A.RBD_CMD : Nat := 0x501010
/-- Address of RBD_GROUP_SEL. -/
abbrev A.RBD_GROUP_SEL : Nat := 0x501014
/-- Address of RBD_TGT_STATE[n]. -/
abbrev A.RBD_TGT_STATE (n : Nat) : Nat := 0x501020 + 32 * n
/-- Address of RBD_TGT_START[n]. -/
abbrev A.RBD_TGT_START (n : Nat) : Nat := 0x501028 + 32 * n
/-- Address of RBD_TGT_POINT[n]. -/
abbrev A.RBD_TGT_POINT (n : Nat) : Nat := 0x501030 + 32 * n
/-- Address of RBD_PATROL_POINT. -/
abbrev A.RBD_PATROL_POINT : Nat := 0x501068
/-- Address of RBD_PATROL. -/
abbrev A.RBD_PATROL : Nat := 0x501060
/-- Address of RBD_LOST_SEL. -/
abbrev A.RBD_LOST_SEL : Nat := 0x501080
/-- Address of RBD_LOST_USE. -/
abbrev A.RBD_LOST_USE : Nat := 0x501084
/-- Address of RBD_LOST_WORD[n]. -/
abbrev A.RBD_LOST_WORD (n : Nat) : Nat := 0x501090 + 4 * n
/-- Address of RBD_RESHAPE_CFG. -/
abbrev A.RBD_RESHAPE_CFG : Nat := 0x5010A0
/-- Address of RBD_RESHAPE_DST. -/
abbrev A.RBD_RESHAPE_DST : Nat := 0x5010A4
/-- Address of RBD_RESHAPE_STATE. -/
abbrev A.RBD_RESHAPE_STATE : Nat := 0x5010AC
/-- Address of RBD_REBUILT_STRIPES. -/
abbrev A.RBD_REBUILT_STRIPES : Nat := 0x501100
/-- Address of RBD_RECON_BLOCKS. -/
abbrev A.RBD_RECON_BLOCKS : Nat := 0x501108
/-- Address of RBD_READ_REPAIRS. -/
abbrev A.RBD_READ_REPAIRS : Nat := 0x501110
/-- Address of RBD_PATROL_STRIPES. -/
abbrev A.RBD_PATROL_STRIPES : Nat := 0x501118
/-- Address of RBD_PARITY_FIXED. -/
abbrev A.RBD_PARITY_FIXED : Nat := 0x501120
/-- Address of RBD_MEMBER_FIXED. -/
abbrev A.RBD_MEMBER_FIXED : Nat := 0x501128
/-- Address of RBD_LOST_BLOCKS. -/
abbrev A.RBD_LOST_BLOCKS : Nat := 0x501130
/-- Address of RBD_MOVED_BLOCKS. -/
abbrev A.RBD_MOVED_BLOCKS : Nat := 0x501138
/-- Address of RSV_CTRL. -/
abbrev A.RSV_CTRL : Nat := 0x502000
/-- Address of RSV_STATUS. -/
abbrev A.RSV_STATUS : Nat := 0x502004
/-- Address of RSV_GROUP. -/
abbrev A.RSV_GROUP : Nat := 0x502008
/-- Address of RSV_REPAIR_BASE. -/
abbrev A.RSV_REPAIR_BASE : Nat := 0x50200C
/-- Address of RSV_USE. -/
abbrev A.RSV_USE : Nat := 0x502010
/-- Address of RSV_GROUP_SA[n]. -/
abbrev A.RSV_GROUP_SA (n : Nat) : Nat := 0x502020 + 4 * n
/-- Address of RSV_DRV_LAT[n]. -/
abbrev A.RSV_DRV_LAT (n : Nat) : Nat := 0x502040 + 4 * n
/-- Address of RSV_GRP_THRESH[n]. -/
abbrev A.RSV_GRP_THRESH (n : Nat) : Nat := 0x5020A0 + 4 * n
/-- Address of RSV_LARDER_BLOCKS. -/
abbrev A.RSV_LARDER_BLOCKS : Nat := 0x502100
/-- Address of RSV_DIRTY_BLOCKS. -/
abbrev A.RSV_DIRTY_BLOCKS : Nat := 0x502108
/-- Address of RSV_JOINED_BLOCKS. -/
abbrev A.RSV_JOINED_BLOCKS : Nat := 0x502110
/-- Address of RSV_DRIVE_BLOCKS. -/
abbrev A.RSV_DRIVE_BLOCKS : Nat := 0x502118
/-- Address of RSV_FILLS. -/
abbrev A.RSV_FILLS : Nat := 0x502120
/-- Address of RSV_EVICTIONS. -/
abbrev A.RSV_EVICTIONS : Nat := 0x502128
/-- Address of RSV_INVALIDATIONS. -/
abbrev A.RSV_INVALIDATIONS : Nat := 0x502130
/-- Address of RSV_STEERED_ROWS. -/
abbrev A.RSV_STEERED_ROWS : Nat := 0x502138
/-- Address of RSV_HEDGES. -/
abbrev A.RSV_HEDGES : Nat := 0x502140
/-- Address of RSV_STOMPS. -/
abbrev A.RSV_STOMPS : Nat := 0x502148
/-- Address of RSV_GROUP_LINES. -/
abbrev A.RSV_GROUP_LINES : Nat := 0x502150
/-- Address of RSV_GROUP_DROPS. -/
abbrev A.RSV_GROUP_DROPS : Nat := 0x502158
/-- Address of RSV_DEST_DROPS. -/
abbrev A.RSV_DEST_DROPS : Nat := 0x502160
/-- Address of RSV_HOLD_EXPIRED. -/
abbrev A.RSV_HOLD_EXPIRED : Nat := 0x502168
/-- Address of CIP_CTRL. -/
abbrev A.CIP_CTRL : Nat := 0x700000
/-- Address of CIP_STATUS. -/
abbrev A.CIP_STATUS : Nat := 0x700004
/-- Address of CIP_ALARM. -/
abbrev A.CIP_ALARM : Nat := 0x700008
/-- Address of CIP_CMD. -/
abbrev A.CIP_CMD : Nat := 0x70000C
/-- Address of CIP_ERROR. -/
abbrev A.CIP_ERROR : Nat := 0x700010
/-- Address of CIP_INSTALL_LEN. -/
abbrev A.CIP_INSTALL_LEN : Nat := 0x700014
/-- Address of CIP_SLOT_SEL. -/
abbrev A.CIP_SLOT_SEL : Nat := 0x700018
/-- Address of CIP_SLOT_INFO. -/
abbrev A.CIP_SLOT_INFO : Nat := 0x70001C
/-- Address of CIP_INSTALL_WORD[n]. -/
abbrev A.CIP_INSTALL_WORD (n : Nat) : Nat := 0x700040 + 4 * n
/-- Address of CIP_PIPE_RETIRED[n]. -/
abbrev A.CIP_PIPE_RETIRED (n : Nat) : Nat := 0x700090 + 4 * n
/-- Address of CIP_JOB_WORD_0[n]. -/
abbrev A.CIP_JOB_WORD_0 (n : Nat) : Nat := 0x700100 + 4 * n
/-- Address of CIP_JOB_WORD_1[n]. -/
abbrev A.CIP_JOB_WORD_1 (n : Nat) : Nat := 0x700180 + 4 * n
/-- Address of CIP_JOB_CMD[n]. -/
abbrev A.CIP_JOB_CMD (n : Nat) : Nat := 0x700140 + 128 * n
/-- Address of CIP_JOB_STATUS[n]. -/
abbrev A.CIP_JOB_STATUS (n : Nat) : Nat := 0x700144 + 128 * n
/-- Address of CIP_JOB_OUTLEN[n]. -/
abbrev A.CIP_JOB_OUTLEN (n : Nat) : Nat := 0x700148 + 128 * n
/-- Address of CIP_INSTALLS. -/
abbrev A.CIP_INSTALLS : Nat := 0x700200
/-- Address of CIP_INSTALL_FAIL. -/
abbrev A.CIP_INSTALL_FAIL : Nat := 0x700208
/-- Address of CIP_CLEARS. -/
abbrev A.CIP_CLEARS : Nat := 0x700210
/-- Address of CIP_ALARMS. -/
abbrev A.CIP_ALARMS : Nat := 0x700218
/-- Address of CIP_HOLD_DROP. -/
abbrev A.CIP_HOLD_DROP : Nat := 0x700220
/-- Address of CIP_CHECK_FAIL. -/
abbrev A.CIP_CHECK_FAIL : Nat := 0x700228
/-- Address of CIP_ERASE_STOMPS. -/
abbrev A.CIP_ERASE_STOMPS : Nat := 0x700230
/-- Address of CIP_JOBS. -/
abbrev A.CIP_JOBS : Nat := 0x700238
/-- Address of CIP_JOB_REFUSED. -/
abbrev A.CIP_JOB_REFUSED : Nat := 0x700240
/-- Address of MAC_PORT_STATUS[n]. -/
abbrev A.MAC_PORT_STATUS (n : Nat) : Nat := 0x800000 + 4 * n
/-- Address of MAC_STATUS. -/
abbrev A.MAC_STATUS : Nat := 0x800020
/-- Address of MAC_SP_SEL. -/
abbrev A.MAC_SP_SEL : Nat := 0x800024
/-- Address of MAC_SP_CTRL. -/
abbrev A.MAC_SP_CTRL : Nat := 0x800028
/-- Address of MAC_WDOG. -/
abbrev A.MAC_WDOG : Nat := 0x80002C
/-- Address of MAC_MAX_FRAME. -/
abbrev A.MAC_MAX_FRAME : Nat := 0x800030
/-- Address of MAC_PAUSE. -/
abbrev A.MAC_PAUSE : Nat := 0x800034
/-- Address of MAC_CNT_SNAP. -/
abbrev A.MAC_CNT_SNAP : Nat := 0x800038
/-- Address of MAC_SP_WORD[n]. -/
abbrev A.MAC_SP_WORD (n : Nat) : Nat := 0x800040 + 4 * n
/-- Address of MAC_MGT_WORD[n]. -/
abbrev A.MAC_MGT_WORD (n : Nat) : Nat := 0x800C40 + 4 * n
/-- Address of MAC_DSCP_PRIO[n]. -/
abbrev A.MAC_DSCP_PRIO (n : Nat) : Nat := 0x800080 + 4 * n
/-- Address of MAC_EXACT_SEL. -/
abbrev A.MAC_EXACT_SEL : Nat := 0x8000A0
/-- Address of MAC_EXACT_LO. -/
abbrev A.MAC_EXACT_LO : Nat := 0x8000A4
/-- Address of MAC_EXACT_HI. -/
abbrev A.MAC_EXACT_HI : Nat := 0x8000A8
/-- Address of MAC_WAKE_ID. -/
abbrev A.MAC_WAKE_ID : Nat := 0x8000B0
/-- Address of MAC_HASH[n]. -/
abbrev A.MAC_HASH (n : Nat) : Nat := 0x800100 + 4 * n
/-- Address of MAC_MGT_CTRL. -/
abbrev A.MAC_MGT_CTRL : Nat := 0x800C00
/-- Address of MAC_MGT_STATUS. -/
abbrev A.MAC_MGT_STATUS : Nat := 0x800C04
/-- Address of MAC_MGT_MDIO. -/
abbrev A.MAC_MGT_MDIO : Nat := 0x800C08
/-- Address of MAC_CNT[n]. -/
abbrev A.MAC_CNT (n : Nat) : Nat := 0x800400 + 8 * n
/-- Address of MAC_MGT_CNT[n]. -/
abbrev A.MAC_MGT_CNT (n : Nat) : Nat := 0x800D00 + 8 * n
/-- Address of TC_CTRL. -/
abbrev A.TC_CTRL : Nat := 0x900000
/-- Address of TC_STATUS. -/
abbrev A.TC_STATUS : Nat := 0x900004
/-- Address of TC_LEAF_LIMIT. -/
abbrev A.TC_LEAF_LIMIT : Nat := 0x900008
/-- Address of TC_GROUP. -/
abbrev A.TC_GROUP : Nat := 0x90000C
/-- Address of TC_WATCH. -/
abbrev A.TC_WATCH : Nat := 0x900010
/-- Address of TC_HIST_SEL. -/
abbrev A.TC_HIST_SEL : Nat := 0x900014
/-- Address of TC_METER_SEL. -/
abbrev A.TC_METER_SEL : Nat := 0x900018
/-- Address of TC_METER_TC. -/
abbrev A.TC_METER_TC : Nat := 0x90001C
/-- Address of TC_METER_TP. -/
abbrev A.TC_METER_TP : Nat := 0x900020
/-- Address of TC_NODE_SEL. -/
abbrev A.TC_NODE_SEL : Nat := 0x900024
/-- Address of TC_NODE_STATE. -/
abbrev A.TC_NODE_STATE : Nat := 0x900028
/-- Address of TC_NODE_DEFICIT. -/
abbrev A.TC_NODE_DEFICIT : Nat := 0x90002C
/-- Address of TC_CLASS_PROFILE[n]. -/
abbrev A.TC_CLASS_PROFILE (n : Nat) : Nat := 0x900040 + 4 * n
/-- Address of TC_DSCP_COLOUR[n]. -/
abbrev A.TC_DSCP_COLOUR (n : Nat) : Nat := 0x900080 + 4 * n
/-- Address of TC_HIST_DEPTH[n]. -/
abbrev A.TC_HIST_DEPTH (n : Nat) : Nat := 0x900100 + 4 * n
/-- Address of TC_HIST_DELAY[n]. -/
abbrev A.TC_HIST_DELAY (n : Nat) : Nat := 0x900140 + 4 * n
/-- Address of TC_GREEN. -/
abbrev A.TC_GREEN : Nat := 0x900200
/-- Address of TC_YELLOW. -/
abbrev A.TC_YELLOW : Nat := 0x900208
/-- Address of TC_RED. -/
abbrev A.TC_RED : Nat := 0x900210
/-- Address of TC_CE_MARKED. -/
abbrev A.TC_CE_MARKED : Nat := 0x900218
/-- Address of TC_NOT_ECT. -/
abbrev A.TC_NOT_ECT : Nat := 0x900220
/-- Address of TC_NO_PROFILE. -/
abbrev A.TC_NO_PROFILE : Nat := 0x900228
/-- Address of TC_LEAF_DROP. -/
abbrev A.TC_LEAF_DROP : Nat := 0x900230
/-- Address of TC_NO_LEAF. -/
abbrev A.TC_NO_LEAF : Nat := 0x900238
/-- Address of TC_MOVED. -/
abbrev A.TC_MOVED : Nat := 0x900240
/-- Address of TC_EP[n]. -/
abbrev A.TC_EP (n : Nat) : Nat := 0x904000 + 4 * n
/-- Address of DRV_CTRL. -/
abbrev A.DRV_CTRL : Nat := 0xA00000
/-- Address of DRV_STATUS. -/
abbrev A.DRV_STATUS : Nat := 0xA00004
/-- Address of DRV_TIMEOUT. -/
abbrev A.DRV_TIMEOUT : Nat := 0xA00008
/-- Address of DRV_RESV_KEY. -/
abbrev A.DRV_RESV_KEY : Nat := 0xA00010
/-- Address of DRV_RESV_PEER_KEY. -/
abbrev A.DRV_RESV_PEER_KEY : Nat := 0xA00018
/-- Address of DRV_RESV_CMD. -/
abbrev A.DRV_RESV_CMD : Nat := 0xA00020
/-- Address of DRV_RESV_RESULT[n]. -/
abbrev A.DRV_RESV_RESULT (n : Nat) : Nat := 0xA00040 + 4 * n
/-- Address of DRV_PORT_STATE[n]. -/
abbrev A.DRV_PORT_STATE (n : Nat) : Nat := 0xA00100 + 4 * n
/-- Address of DRV_PORT_CTRL[n]. -/
abbrev A.DRV_PORT_CTRL (n : Nat) : Nat := 0xA00200 + 4 * n
/-- Address of DRV_PORT_CMD[n]. -/
abbrev A.DRV_PORT_CMD (n : Nat) : Nat := 0xA00300 + 4 * n
/-- Address of DRV_MI[n]. -/
abbrev A.DRV_MI (n : Nat) : Nat := 0xA00400 + 4 * n
/-- Address of DRV_PORT_CAP[n]. -/
abbrev A.DRV_PORT_CAP (n : Nat) : Nat := 0xA00500 + 8 * n
/-- Address of DRV_READS[n]. -/
abbrev A.DRV_READS (n : Nat) : Nat := 0xA01000 + 64 * n
/-- Address of DRV_WRITES[n]. -/
abbrev A.DRV_WRITES (n : Nat) : Nat := 0xA01008 + 64 * n
/-- Address of DRV_RETRIES[n]. -/
abbrev A.DRV_RETRIES (n : Nat) : Nat := 0xA01010 + 64 * n
/-- Address of DRV_MEDIA_ERR[n]. -/
abbrev A.DRV_MEDIA_ERR (n : Nat) : Nat := 0xA01018 + 64 * n
/-- Address of DRV_TIMEOUTS[n]. -/
abbrev A.DRV_TIMEOUTS (n : Nat) : Nat := 0xA01020 + 64 * n
/-- Address of DRV_AER_CORR[n]. -/
abbrev A.DRV_AER_CORR (n : Nat) : Nat := 0xA01028 + 64 * n
/-- Address of DRV_AER_UNCORR[n]. -/
abbrev A.DRV_AER_UNCORR (n : Nat) : Nat := 0xA01030 + 64 * n
/-- Address of DRV_RESV_CONFLICTS[n]. -/
abbrev A.DRV_RESV_CONFLICTS (n : Nat) : Nat := 0xA01038 + 64 * n
/-- Address of BAY_CTRL. -/
abbrev A.BAY_CTRL : Nat := 0xB00000
/-- Address of BAY_STATUS. -/
abbrev A.BAY_STATUS : Nat := 0xB00004
/-- Address of BAY_PL. -/
abbrev A.BAY_PL : Nat := 0xB00008
/-- Address of BAY_TEL_SEL. -/
abbrev A.BAY_TEL_SEL : Nat := 0xB0000C
/-- Address of BAY_TEL_V. -/
abbrev A.BAY_TEL_V : Nat := 0xB00010
/-- Address of BAY_TEL_I. -/
abbrev A.BAY_TEL_I : Nat := 0xB00014
/-- Address of BAY_TEL_P. -/
abbrev A.BAY_TEL_P : Nat := 0xB00018
/-- Address of BAY_TEL_P1S. -/
abbrev A.BAY_TEL_P1S : Nat := 0xB0001C
/-- Address of BAY_PL_EVENTS. -/
abbrev A.BAY_PL_EVENTS : Nat := 0xB00020
/-- Address of BAY_EN[n]. -/
abbrev A.BAY_EN (n : Nat) : Nat := 0xB00100 + 4 * n
/-- Address of BAY_STATE[n]. -/
abbrev A.BAY_STATE (n : Nat) : Nat := 0xB00200 + 4 * n
/-- Address of BAY_ENERGY_MAIN[n]. -/
abbrev A.BAY_ENERGY_MAIN (n : Nat) : Nat := 0xB00400 + 16 * n
/-- Address of BAY_ENERGY_AUX[n]. -/
abbrev A.BAY_ENERGY_AUX (n : Nat) : Nat := 0xB00408 + 16 * n
/-- Address of BAY_BREAKER_TRIPS[n]. -/
abbrev A.BAY_BREAKER_TRIPS (n : Nat) : Nat := 0xB01000 + 32 * n
/-- Address of BAY_TIMER_TRIPS[n]. -/
abbrev A.BAY_TIMER_TRIPS (n : Nat) : Nat := 0xB01008 + 32 * n
/-- Address of BAY_INRUSH_TRIPS[n]. -/
abbrev A.BAY_INRUSH_TRIPS (n : Nat) : Nat := 0xB01010 + 32 * n
/-- Address of BAY_REVERSE_EVENTS[n]. -/
abbrev A.BAY_REVERSE_EVENTS (n : Nat) : Nat := 0xB01018 + 32 * n
/-- Address of WDN_CTRL. -/
abbrev A.WDN_CTRL : Nat := 0xC00000
/-- Address of WDN_STATUS. -/
abbrev A.WDN_STATUS : Nat := 0xC00004
/-- Address of WDN_CORE. -/
abbrev A.WDN_CORE : Nat := 0xC00008
/-- Address of WDN_CMD. -/
abbrev A.WDN_CMD : Nat := 0xC0000C
/-- Address of WDN_DISAGREE. -/
abbrev A.WDN_DISAGREE : Nat := 0xC00010
/-- Address of WDN_IRQ_PEND. -/
abbrev A.WDN_IRQ_PEND : Nat := 0xC00014
/-- Address of WDN_IRQ_EN. -/
abbrev A.WDN_IRQ_EN : Nat := 0xC00018
/-- Address of WDN_TALLY_MARK. -/
abbrev A.WDN_TALLY_MARK : Nat := 0xC0001C
/-- Address of WDN_MCHECK. -/
abbrev A.WDN_MCHECK : Nat := 0xC00048
/-- Address of WDN_MTIME. -/
abbrev A.WDN_MTIME : Nat := 0xC00020
/-- Address of WDN_MTIMECMP. -/
abbrev A.WDN_MTIMECMP : Nat := 0xC00028
/-- Address of WDN_FW_SRC. -/
abbrev A.WDN_FW_SRC : Nat := 0xC00030
/-- Address of WDN_FW_SERIAL. -/
abbrev A.WDN_FW_SERIAL : Nat := 0xC00038
/-- Address of WDN_FW_FLOOR. -/
abbrev A.WDN_FW_FLOOR : Nat := 0xC00040
/-- Address of WDN_REPORT[n]. -/
abbrev A.WDN_REPORT (n : Nat) : Nat := 0xC00100 + 4 * n
/-- Address of WDN_DISAGREEMENTS. -/
abbrev A.WDN_DISAGREEMENTS : Nat := 0xC00200
/-- Address of WDN_RESYNCS. -/
abbrev A.WDN_RESYNCS : Nat := 0xC00208
/-- Address of WDN_RESTARTS. -/
abbrev A.WDN_RESTARTS : Nat := 0xC00210
/-- Address of WDN_ACTIVATIONS. -/
abbrev A.WDN_ACTIVATIONS : Nat := 0xC00218
/-- Address of WDN_STOCK_TESTS. -/
abbrev A.WDN_STOCK_TESTS : Nat := 0xC00220
/-- Address of WDN_STOCK_FAILS. -/
abbrev A.WDN_STOCK_FAILS : Nat := 0xC00228
/-- Address of PEER_CTRL. -/
abbrev A.PEER_CTRL : Nat := 0xD00000
/-- Address of PEER_STATUS. -/
abbrev A.PEER_STATUS : Nat := 0xD00004
/-- Address of PEER_STATE. -/
abbrev A.PEER_STATE : Nat := 0xD00008
/-- Address of PEER_CMD. -/
abbrev A.PEER_CMD : Nat := 0xD0000C
/-- Address of PEER_BAY_OWN. -/
abbrev A.PEER_BAY_OWN : Nat := 0xD00010
/-- Address of PEER_ARB. -/
abbrev A.PEER_ARB : Nat := 0xD00014
/-- Address of PEER_ARB_SET. -/
abbrev A.PEER_ARB_SET : Nat := 0xD00018
/-- Address of PEER_CREDIT. -/
abbrev A.PEER_CREDIT : Nat := 0xD0001C
/-- Address of PEER_JOURNAL_ID. -/
abbrev A.PEER_JOURNAL_ID : Nat := 0xD00020
/-- Address of PEER_MIRROR_INTENTS. -/
abbrev A.PEER_MIRROR_INTENTS : Nat := 0xD00100
/-- Address of PEER_MIRROR_BLOCKS. -/
abbrev A.PEER_MIRROR_BLOCKS : Nat := 0xD00108
/-- Address of PEER_CREDIT_WAITS. -/
abbrev A.PEER_CREDIT_WAITS : Nat := 0xD00110
/-- Address of PEER_MIRROR_FAIL. -/
abbrev A.PEER_MIRROR_FAIL : Nat := 0xD00118
/-- Address of PEER_RETRANSMITS. -/
abbrev A.PEER_RETRANSMITS : Nat := 0xD00120
/-- Address of PEER_FRAME_ERR. -/
abbrev A.PEER_FRAME_ERR : Nat := 0xD00128
/-- Address of PEER_SIDEBAND_ERR. -/
abbrev A.PEER_SIDEBAND_ERR : Nat := 0xD00130
/-- Address of PWR_MODE. -/
abbrev A.PWR_MODE : Nat := 0xE00000
/-- Address of PWR_STATUS. -/
abbrev A.PWR_STATUS : Nat := 0xE00004
/-- Address of PWR_CTRL. -/
abbrev A.PWR_CTRL : Nat := 0xE00008
/-- Address of PWR_WAKE_EN. -/
abbrev A.PWR_WAKE_EN : Nat := 0xE0000C
/-- Address of PWR_WAKE_ENERGY. -/
abbrev A.PWR_WAKE_ENERGY : Nat := 0xE00010
/-- Address of PWR_WAKE_CAUSE. -/
abbrev A.PWR_WAKE_CAUSE : Nat := 0xE00014
/-- Address of PWR_CMD. -/
abbrev A.PWR_CMD : Nat := 0xE00018
/-- Address of PWR_WAKE_PART_FAIL. -/
abbrev A.PWR_WAKE_PART_FAIL : Nat := 0xE0001C
/-- Address of PWR_WAKE_TIMER. -/
abbrev A.PWR_WAKE_TIMER : Nat := 0xE00020
/-- Address of PWR_WAKE_RETENTION_FAIL. -/
abbrev A.PWR_WAKE_RETENTION_FAIL : Nat := 0xE00028
/-- Address of PWR_ISL_SEL. -/
abbrev A.PWR_ISL_SEL : Nat := 0xE00030
/-- Address of PWR_ISL_STATE. -/
abbrev A.PWR_ISL_STATE : Nat := 0xE00034
/-- Address of PWR_RAIL. -/
abbrev A.PWR_RAIL : Nat := 0xE00038
/-- Address of PWR_TRIM_ENTRIES. -/
abbrev A.PWR_TRIM_ENTRIES : Nat := 0xE00100
/-- Address of PWR_DOZE_ENTRIES. -/
abbrev A.PWR_DOZE_ENTRIES : Nat := 0xE00108
/-- Address of PWR_DORMANT_ENTRIES. -/
abbrev A.PWR_DORMANT_ENTRIES : Nat := 0xE00110
/-- Address of PWR_WAKES. -/
abbrev A.PWR_WAKES : Nat := 0xE00118
/-- Address of PWR_DRAIN_TIMEOUTS. -/
abbrev A.PWR_DRAIN_TIMEOUTS : Nat := 0xE00120
/-- Address of PWR_THROTTLE_EVENTS. -/
abbrev A.PWR_THROTTLE_EVENTS : Nat := 0xE00128
/-- Address of PWR_RETENTION_FAILS. -/
abbrev A.PWR_RETENTION_FAILS : Nat := 0xE00130
/-- Address of MGT_CTRL. -/
abbrev A.MGT_CTRL : Nat := 0xF00000
/-- Address of MGT_STATUS. -/
abbrev A.MGT_STATUS : Nat := 0xF00004
/-- Address of MGT_SMB_ADDR. -/
abbrev A.MGT_SMB_ADDR : Nat := 0xF00008
/-- Address of MGT_EVT_PORT. -/
abbrev A.MGT_EVT_PORT : Nat := 0xF0000C
/-- Address of MGT_EVT_ADDR[n]. -/
abbrev A.MGT_EVT_ADDR (n : Nat) : Nat := 0xF00010 + 4 * n
/-- Address of MGT_EVT_CLASSES. -/
abbrev A.MGT_EVT_CLASSES : Nat := 0xF00020
/-- Address of MGT_TALLY_PTR. -/
abbrev A.MGT_TALLY_PTR : Nat := 0xF00024
/-- Address of MGT_TALLY_CMD. -/
abbrev A.MGT_TALLY_CMD : Nat := 0xF00028
/-- Address of MGT_TALLY_SEL. -/
abbrev A.MGT_TALLY_SEL : Nat := 0xF0002C
/-- Address of MGT_TALLY_REC[n]. -/
abbrev A.MGT_TALLY_REC (n : Nat) : Nat := 0xF00040 + 4 * n
/-- Address of MGT_TALLY_IN[n]. -/
abbrev A.MGT_TALLY_IN (n : Nat) : Nat := 0xF00080 + 4 * n
/-- Address of MGT_TALLY_APPEND. -/
abbrev A.MGT_TALLY_APPEND : Nat := 0xF000C0
/-- Address of MGT_ST_CTRL. -/
abbrev A.MGT_ST_CTRL : Nat := 0xF000C4
/-- Address of MGT_ST_PROGRESS. -/
abbrev A.MGT_ST_PROGRESS : Nat := 0xF000C8
/-- Address of MGT_ST_RESULT. -/
abbrev A.MGT_ST_RESULT : Nat := 0xF000CC
/-- Address of MGT_FW_CTRL. -/
abbrev A.MGT_FW_CTRL : Nat := 0xF000D0
/-- Address of MGT_FW_DATA. -/
abbrev A.MGT_FW_DATA : Nat := 0xF000D4
/-- Address of MGT_FW_STATUS. -/
abbrev A.MGT_FW_STATUS : Nat := 0xF000D8
/-- Address of MGT_DBG_DATA. -/
abbrev A.MGT_DBG_DATA : Nat := 0xF000E0
/-- Address of MGT_DBG_CMD. -/
abbrev A.MGT_DBG_CMD : Nat := 0xF000E4
/-- Address of MGT_DBG_STATE. -/
abbrev A.MGT_DBG_STATE : Nat := 0xF000E8
/-- Address of MGT_DBG_NONCE. -/
abbrev A.MGT_DBG_NONCE : Nat := 0xF000F0
/-- Address of MGT_LEDGER_REQS. -/
abbrev A.MGT_LEDGER_REQS : Nat := 0xF00100
/-- Address of MGT_LEDGER_ERRS. -/
abbrev A.MGT_LEDGER_ERRS : Nat := 0xF00108
/-- Address of MGT_LEDGER_REPLAYS. -/
abbrev A.MGT_LEDGER_REPLAYS : Nat := 0xF00110
/-- Address of MGT_SMB_PEC_ERR. -/
abbrev A.MGT_SMB_PEC_ERR : Nat := 0xF00118
/-- Address of MGT_TALLY_RECORDS. -/
abbrev A.MGT_TALLY_RECORDS : Nat := 0xF00120
/-- Address of MGT_TALLY_LOST. -/
abbrev A.MGT_TALLY_LOST : Nat := 0xF00128
/-- Address of MGT_EVT_FRAMES. -/
abbrev A.MGT_EVT_FRAMES : Nat := 0xF00130
/-- Address of MGT_EVT_DROPS. -/
abbrev A.MGT_EVT_DROPS : Nat := 0xF00138
/-- Address of GLB_RESET. -/
abbrev A.GLB_RESET : Nat := 0x4
/-- Address of GLB_RESET_CAUSE. -/
abbrev A.GLB_RESET_CAUSE : Nat := 0x8
/-- Address of GLB_LOCK. -/
abbrev A.GLB_LOCK : Nat := 0xC
/-- Address of GLB_BOOT. -/
abbrev A.GLB_BOOT : Nat := 0x10
/-- Address of GLB_THERM. -/
abbrev A.GLB_THERM : Nat := 0x14
/-- Address of GLB_STATUS. -/
abbrev A.GLB_STATUS : Nat := 0x18
/-- Address of GLB_SPI_CTRL. -/
abbrev A.GLB_SPI_CTRL : Nat := 0x20
/-- Address of GLB_SPI_ADDR. -/
abbrev A.GLB_SPI_ADDR : Nat := 0x24
/-- Address of GLB_SPI_DATA[n]. -/
abbrev A.GLB_SPI_DATA (n : Nat) : Nat := 0x40 + 4 * n

end Sys2Proof.Machine
end

