-- ==== Sys2Proof/Machine/State.lean ====
section
/-!
DEFINITION. The state of the K24: every register, table, queue, store and pin the spec gives it, as plain data, with the
queue of waiting commands, and the state after reset.
-/

namespace Sys2Proof.Machine

/-- A sparse table: keys strictly rising, an absent key at the table's default value. -/
abbrev Tab (α : Type) := List (Nat × α)

/-- A byte-addressed store as its listed bytes, addresses strictly rising and none equal to the unlisted value. -/
abbrev Mem := List Host.Cell

/-- The inventory loader's states that outlast one command (R75, Table 02-5): VERIFYING and APPLYING begin and end within
the commit that passes through them (assumption 10). -/
inductive LoaderState where
  | empty | opened | locked
  deriving DecidableEq, Repr

/-- One resident section of the Attic's resident copy: its type code, its body, the digest of the signed image that
last supplied it and that image's serial (R63, R73). -/
structure ResidentSection where
  /-- Type code, 16 bits. R44. -/
  code : Nat
  /-- Section body bytes. R49. -/
  body : List Byte
  /-- SHA-384 of the body in the signed image that last supplied it. R63. -/
  digest : Nat
  /-- Serial of that image, 64 bits. R73. -/
  serial : Nat
  deriving DecidableEq, Repr

/-- A signing key slot in one-time-programmable fuses (R62). -/
structure KeySlot where
  /-- SHA-384 hash of the public key, 384 bits; none while unprogrammed. R58. Reset: kept (fuse). -/
  hash : Option Nat
  /-- Revoke bit, 1 bit. R62. Reset: kept (fuse). -/
  revoked : Bool
  deriving DecidableEq, Repr

/-- INV: the inventory loader (02_inventory.md). -/
structure Inv where
  /-- Loader state, INV_STATUS.STATE. R75. Reset: EMPTY. -/
  state : LoaderState
  /-- State an open load returns to, Table 02-5. R64. Reset: EMPTY. -/
  prior : LoaderState
  /-- Path of the open load, INV_STATUS.OPEN_PATH. R64. Reset: none. -/
  path : Option Path
  /-- Load buffer, at most 4,194,304 B. R64. Reset: empty. -/
  buffer : List Byte
  /-- Shelf time of the OPEN or of the last INV_DATA write. R65. Reset: 0. -/
  lastData : Nat
  /-- Sections in force, code and body, in type order. R68. Reset: none until BOOT_START applies an image. -/
  sections : List (Nat × List Byte)
  /-- Header flags TWO_CONTROLLER and SIDE_B of the image in force, 16 bits. R43. Reset: 0. -/
  flags : Nat
  /-- Inventory lock, 1 bit. R69. Reset: clear. -/
  lock : Bool
  deriving DecidableEq, Repr

/-- The states of a pseudo-channel (R119, Table 03-5). -/
inductive PcState where
  | active | migrating | retired
  deriving DecidableEq, Repr

/-- A pseudo-channel's record (R128, Table 03-19). -/
structure PcRec where
  /-- STATE, 2 bits. R128. Reset: restored from the Attic. -/
  state : PcState
  /-- CAUSE, 2 bits: 0 none, 1 CE limit, 2 HST_RETIRE, 3 failure. R128. Reset: restored from the Attic. -/
  cause : Nat
  /-- CE_24H, 16 bits saturating. R112. Reset: 0. -/
  ce24h : Nat
  /-- Shelf times of the last uncorrectable granules found on it, newest first, at most four. R114. Reset: none. -/
  ueTimes : List Nat
  /-- In the failure condition outside R117's limits: reads POISON, writes FAILED. R118. Reset: clear. -/
  critical : Bool
  deriving DecidableEq, Repr

/-- A retirement in progress (R115, R117, R119). -/
structure Migration where
  /-- Pseudo-channel being retired, 6 bits. R117. -/
  pc : Nat
  /-- Whether a failure started it: spill slices get the poison pattern. R119, Table 03-5. -/
  failure : Bool
  /-- Still waiting for withdrawn Larder lines to be unpinned. R115. -/
  pinWait : Bool
  /-- Segments withdrawn at its start whose slices have yet to join the pool. R115. -/
  segs : List Nat
  /-- Slices not yet switched, each as segment * 32 + bank group. R120. -/
  todo : List Nat
  deriving DecidableEq, Repr

/-- The kinds of a cell (R78, Table 03-2). -/
inductive CellKind where
  | write | read | testWrite | testRead
  deriving DecidableEq, Repr

/-- A cell in the Hoist: the header fields of Table 03-1 and its payload (R78). HCHK is computed from them (R79). -/
structure HCell where
  /-- SRC, 6 bits: the agent. R78. -/
  src : Nat
  /-- DST, 6 bits. R78. -/
  dst : Nat
  /-- FLOW, 20 bits. R97. -/
  flow : Nat
  /-- SEQ, 16 bits. R98. -/
  seq : Nat
  /-- KIND, 4 bits. R78, Table 03-2. -/
  kind : CellKind
  /-- LAST, 1 bit. R78. -/
  last : Bool
  /-- POISON, 1 bit. R109. -/
  poison : Bool
  /-- START, 8 bits: first valid payload byte. R78. -/
  start : Nat
  /-- CADDR, 28 bits: the cell index. R78. -/
  caddr : Nat
  /-- The valid payload bytes (LEN is their number, 1 to 256). R78. -/
  data : List Byte
  deriving DecidableEq, Repr

/-- The outcomes of a write acknowledgement (R81). -/
inductive AckOutcome where
  | ok | poisoned | failed
  deriving DecidableEq, Repr

/-- An acknowledgement on the acknowledgement channel (R81). -/
structure CellAck where
  /-- Writing agent, 6 bits. R81. -/
  agent : Nat
  /-- FLOW, 20 bits. R81. -/
  flow : Nat
  /-- SEQ, 16 bits. R81. -/
  seq : Nat
  /-- Outcome. R81. -/
  outcome : AckOutcome
  deriving DecidableEq, Repr

/-- What a flow of cells is for: who consumes its data or its completion (R97, Table 03-4). Numbers name an SA and
message, a command slot, an intent, a Larder line, or a pending read of the model's own tables. -/
inductive FlowUse where
  /-- Ingress of a received packet's payload: receive message key, packet index and its access in flight. R194, R195. -/
  | packet (msg : Nat) (index : Nat) (access : Option Nat)
  /-- Ingress of a held COMMIT placement, by its access. R212. -/
  | commit (access : Nat)
  /-- Egress of a queued frame's payload: name of the frame. R104. -/
  | send (frame : Nat)
  /-- Ingress of a drive read's data: pending read, first position and blocks, and whether it is the second read. Table
  03-4. -/
  | driveIn (pend : Nat) (pos : Nat) (count : Nat) (again : Bool)
  /-- Egress of a destage block: stripe write name, member and row. R336. -/
  | destage (write : Nat) (member : Nat) (row : Nat)
  /-- An access of the Warden agent: cells it offers at its port, and its admin data. R38, R603. -/
  | warden
  /-- Cells that another agent offers at its port: test cells of agents 38 to 41 among them. R78, R80. -/
  | test
  deriving DecidableEq, Repr

/-- A flow: one ordered transfer of cells (R97). -/
structure Flow where
  /-- FLOW id, 20 bits. R97. -/
  id : Nat
  /-- Agent that writes or receives the cells, 6 bits. R97. -/
  agent : Nat
  /-- Egress (through the resequencer) or ingress. R99. -/
  egress : Bool
  /-- Consumer. R97. -/
  use : FlowUse
  /-- The cells of the flow in SEQ order; an egress cell's data is what its bank group read once issued. R98. -/
  cells : List HCell
  /-- Cells put into the virtual output queues (ingress) or requested with a reserved slot (egress). R91, R100. -/
  issued : Nat
  /-- Egress: next expected SEQ. R101. -/
  next : Nat
  /-- Egress: cells held out of order. R101. -/
  held : List HCell
  /-- Egress: payload released so far. R101. -/
  got : List Byte
  /-- Ingress: SEQs acknowledged OK or POISONED. R99. -/
  acked : List Nat
  /-- Ingress: SEQs sent and not acknowledged, with the send time and whether rewritten once. R86. -/
  sent : List (Nat × Nat × Bool)
  /-- Shelf time from which the next expected cell is waited for: its predecessor's release, or the first arrival. R102. -/
  lastArrival : Nat
  /-- The second attempt after a flow error. R105. -/
  retry : Bool
  /-- A delivered cell carried POISON, or a write was acknowledged POISONED. R105. -/
  poison : Bool
  deriving DecidableEq, Repr

/-- HST: the Cellar, the Pantry and the Hoist (03_cellar_and_hoist.md), beside its registers. -/
structure Hst where
  /-- The 64 pseudo-channels, 64 records. R128. Reset: restored from the Attic. -/
  pcs : Tab PcRec
  /-- Withdrawn segments, in order of withdrawal. R115. Reset: restored from the Attic. -/
  withdrawn : List Nat
  /-- Spare pool: free slices as (pseudo-channel, slot). R115. Reset: restored from the Attic. -/
  pool : List (Nat × Nat)
  /-- Slice map: segment * 32 + bank group to (pseudo-channel, slot) where switched. R120. Reset: restored. -/
  sliceMap : Tab (Nat × Nat)
  /-- Retirements in progress, in the order they started: at most one predictive. R115, R117. Reset: none. -/
  migration : List Migration
  /-- Cellar bytes, 48 GiB. R87. Reset: nothing listed. -/
  mem : Mem
  /-- Poisoned Cellar granules (address / 32), rising. R109. Reset: none. -/
  poison : List Nat
  /-- Slices switched with the poison pattern, as segment * 32 + bank group. Table 03-5. Reset: none. -/
  badSlices : List Nat
  /-- Cells of those slices that a full-cell write has made readable. Table 03-5. Reset: none. -/
  goodCells : List Nat
  /-- Virtual output queues, agent * 32 + bank group. R91. Reset: empty. -/
  voq : Tab (List HCell)
  /-- Write buffers of the bank groups, 64 cells each. R91. Reset: empty. -/
  wbuf : Tab (List HCell)
  /-- Read queues, bank group * 42 + agent, of ready cells. R91. Reset: empty. -/
  rq : Tab (List HCell)
  /-- Ingress grant pointers of the bank groups. R92. Reset: DESIGN CHOICE 0 (entry 2). -/
  inGrant : Tab Nat
  /-- Ingress accept pointers of the agents. R92. Reset: DESIGN CHOICE 0 (entry 2). -/
  inAccept : Tab Nat
  /-- Egress grant pointers of the agents. R93. Reset: DESIGN CHOICE 0 (entry 2). -/
  egGrant : Tab Nat
  /-- Egress accept pointers of the bank groups. R93. Reset: DESIGN CHOICE 0 (entry 2). -/
  egAccept : Tab Nat
  /-- Acknowledgements on their way. R81. Reset: none. -/
  acks : List CellAck
  /-- Cells sent by the egress crossbar and not yet arrived. R93. Reset: none. -/
  egress : List HCell
  /-- Flows in use. R97. Reset: none. -/
  flows : List Flow
  /-- FLOW ids released, with the release time. R97. Reset: none. -/
  freedFlows : List (Nat × Nat)
  /-- Next FLOW id tried. R97. Reset: DESIGN CHOICE 0 (entry 2). -/
  nextFlow : Nat
  /-- Poisoned Pantry words as bank * 327680 + row * 64 + word, rising. R123. Reset: none. -/
  pantryPoison : List Nat
  /-- Pantry rows that have shown a corrected error since they were last repaired, bank * 5120 + row. R125. Reset: none. -/
  pantryCe : List Nat
  /-- Pantry rows mapped to a spare: bank * 5120 + row to the spare number in its block. R125. Reset: none. -/
  pantrySpare : Tab Nat
  /-- Spare rows that were in use and failed in their turn: bank * 20 + block * 2 + spare, rising. R125, R126. Reset: none. -/
  pantrySpent : List Nat
  /-- The Pantry word whose low half a register write has last written, its high half not yet. R123. Reset: none. -/
  pantryHalf : Option Nat
  deriving DecidableEq, Repr

/-- The egress queues of a sub-port (Table 13-4). -/
inductive EgClass where
  /-- MAC control frame, never held. R516. -/
  | control
  /-- Express queue. R541. -/
  | express
  /-- Leaf queue of a node id. R541. -/
  | leaf (node : Nat)
  /-- Group queue. R443. -/
  | group
  deriving DecidableEq, Repr

/-- The Breren opcodes (R137, Table 04-3). -/
inductive Opcode where
  | command | place | fetch | fetchReply | ack | nak | probe | probeReply | saSync
  deriving DecidableEq, Repr

/-- A Breren packet as its header and plaintext payload (R135, Table 04-2). -/
structure Packet where
  /-- OPCODE, 8 bits. R137. -/
  opcode : Opcode
  /-- FLAGS, 16 bits. R138. -/
  flags : Nat
  /-- SA_INDEX at the receiver, 32 bits. R135. -/
  saIndex : Nat
  /-- COUNTER, 64 bits. R135. -/
  counter : Nat
  /-- MESSAGE_ID, 48 bits. R135. -/
  msgId : Nat
  /-- PACKET_INDEX, 16 bits. R135. -/
  index : Nat
  /-- MESSAGE_LENGTH, 32 bits. R135. -/
  length : Nat
  /-- WINDOW_KEY, 32 bits. R135. -/
  key : Nat
  /-- OFFSET, 64 bits. R135. -/
  offset : Nat
  /-- Plaintext payload, 0 to 8,192 B. R136. -/
  payload : List Byte
  deriving DecidableEq, Repr

/-- What a message of the K24 is for, and so what its failure ends (R171). A command is named by its place in acceptance
order (R239). -/
inductive MsgUse where
  /-- Read data of a command, from a byte position of its range on. R33, R201. -/
  | readData (cmd : Nat) (pos : Nat)
  /-- The completion of a command. R245. -/
  | completion (cmd : Nat)
  /-- A FETCH of a command. R208. -/
  | fetch (cmd : Nat)
  /-- A FETCH_REPLY answering a host's FETCH, by the access it holds. R194, R206. -/
  | fetchReply (access : Nat)
  /-- A group delivery copy of a Larder line. R441. -/
  | group (line : Nat)
  deriving DecidableEq, Repr

/-- Where a message's payload comes from. -/
inductive MsgData where
  /-- Bytes built by the K24 (a completion entry, admin data): R23. -/
  | bytes (b : List Byte)
  /-- Cellar runs as (address, length) in order. R22. -/
  | cellar (runs : List (Nat × Nat))
  /-- The data of a READ, as its blocks become ready. R201. -/
  | blocks
  /-- No payload (a FETCH). R137. -/
  | none
  deriving DecidableEq, Repr

/-- One packet of a message being sent (R164). -/
structure TxPacket where
  /-- Packet index. R161. -/
  index : Nat
  /-- Shelf time it was last placed in its egress queue. R754. -/
  sentAt : Nat
  /-- Path of the last attempt, 4 bits. R158. -/
  path : Nat
  /-- Retransmissions so far. R164. -/
  retries : Nat
  /-- Interval of the running timer, ns. R164. -/
  interval : Nat
  /-- Acknowledged. R167. -/
  acked : Bool
  /-- Cellar runs its payload is read from. R22. -/
  runs : List (Nat × Nat)
  /-- Its last attempt was stomped: its timer is cancelled and it waits for its resend. R449. -/
  stomped : Bool
  /-- It has been resent after a stomp: it was not sent once only. R165, R450. -/
  resent : Bool
  deriving DecidableEq, Repr

/-- A send entry (R161 to R171). -/
structure TxMsg where
  /-- The model's own name of the entry. -/
  key : Nat
  /-- SA entry, 13 bits. R161. -/
  sa : Nat
  /-- Message id, 48 bits. R162. -/
  id : Nat
  /-- Opcode. R161. -/
  opcode : Opcode
  /-- COMMIT placement. R138. -/
  commit : Bool
  /-- Group delivery. R138. -/
  group : Bool
  /-- Message length L, 32 bits. R161. -/
  length : Nat
  /-- WINDOW_KEY of its packets, 32 bits. R137. -/
  wkey : Nat
  /-- OFFSET of its first packet, 64 bits. R137. -/
  offset : Nat
  /-- Purpose. R171. -/
  use : MsgUse
  /-- Payload source. R22, R23. -/
  data : MsgData
  /-- Packets sent at least once, in index order. R158. -/
  packets : List TxPacket
  /-- Shelf time its first packet was sent; none before. R166. -/
  first : Option Nat
  deriving DecidableEq, Repr

/-- A message not yet started: held for its SA's state, for the id window or for a free send entry (R163, R170, R751). -/
structure HeldMsg where
  /-- SA it is to start on. R751. -/
  sa : Nat
  /-- The message, with no id yet. -/
  msg : TxMsg
  deriving DecidableEq, Repr

/-- A receive entry (R172, R175, Table 04-13). -/
structure RxMsg where
  /-- The model's own name of the entry. -/
  key : Nat
  /-- SA entry, 13 bits. R175. -/
  sa : Nat
  /-- Message id, 48 bits. R175. -/
  id : Nat
  /-- A FETCH_REPLY message: named by the fetch's id, which is the K24's own (R162). -/
  reply : Bool
  /-- Opcode of the first packet. R174. -/
  opcode : Opcode
  /-- MESSAGE_LENGTH of the first packet. R174. -/
  length : Nat
  /-- COMMIT of the first packet. R174. -/
  commit : Bool
  /-- WINDOW_KEY of the first packet. R193. -/
  wkey : Nat
  /-- Packet indices received and placed or queued for placement. R172, R213. -/
  marked : List Nat
  /-- Packets whose cells are not all acknowledged: index, path (16: none valid), time of arrival. R178, R195. -/
  landing : List (Nat × Nat × Nat)
  /-- OFFSET and index of the first packet of a PLACE: what gives its OFFSET - index * S. R197. -/
  base : Option (Nat × Nat)
  /-- Creation time. R177. -/
  created : Nat
  /-- Packets since the last ACK. R178. -/
  sinceAck : Nat
  /-- Arrival of the earliest packet not yet acknowledged. R178. -/
  ackFrom : Option Nat
  /-- Index of that packet, the trigger of the next delayed ACK. R178. -/
  trigIndex : Nat
  /-- Path of that packet, 5 bits: 16 where it named no valid path. R144, R150. -/
  trigPath : Nat
  /-- Packets with ECN CE since the previous ACK. R142. -/
  ce : Nat
  deriving DecidableEq, Repr

/-- The test of a path (R159, Table 04-12), beside PATH_STATE in the SA entry. -/
structure PathTest where
  /-- Consecutive retry timeouts without an ACK between. R159. -/
  timeouts : Nat
  /-- Probes sent at this entry to SUSPECT. R159. -/
  probes : Nat
  /-- Time of entry to SUSPECT. R159. -/
  since : Nat
  /-- Time of the last probe. R159. -/
  lastProbe : Nat
  /-- PROBE_SEQ of the probes sent and not answered, with send times. R159. -/
  waiting : List (Nat × Nat)
  deriving DecidableEq, Repr

/-- An unanswered SA_SYNC request (R151). -/
structure SyncReq where
  /-- SUBTYPE, 1 RESUME or 3 SWITCH. R142. -/
  subtype : Nat
  /-- NEW_SA of a SWITCH. R142. -/
  newSa : Nat
  /-- Time it was last sent. R151. -/
  sentAt : Nat
  /-- Interval, ns. R151. -/
  interval : Nat
  /-- Path of the last attempt. R151. -/
  path : Nat
  deriving DecidableEq, Repr

/-- Per-SA transport state that Table 04-10 does not hold: times of the congestion and SA rules. -/
structure SaAux where
  /-- Last halving by CE. R168. -/
  ceHalf : Option Nat
  /-- Last halving by a timer. R168. -/
  toHalf : Option Nat
  /-- Last growth or event. R168. -/
  growFrom : Nat
  /-- Entry to DRAINING. R146. -/
  drainAt : Nat
  /-- The SA that replaces this one. R157. -/
  newSa : Option Nat
  /-- Unanswered SA_SYNC requests, at most one of each subtype. R151. -/
  sync : List SyncReq
  /-- Windows or paths: stopped by a poisoned SA entry. R127. -/
  stopped : Bool
  /-- First message id of the SA: RX_LEFT as it was taken at ACTIVATE or from a RESUME_ACK. R212. -/
  firstId : Nat
  /-- Message ids of the stream that have been reaped, as far back as a COMMIT placement may wait for one. R214. -/
  reaped : List Nat
  deriving DecidableEq, Repr

/-- A packet that waits for its SA's counter mark (R463). -/
structure Blocked where
  /-- SA entry. R463. -/
  sa : Nat
  /-- Path chosen. R158. -/
  path : Nat
  /-- Opcode, flags, ids and payload; the counter is given when it leaves. R149. -/
  pkt : Packet
  /-- Cellar runs of its payload; none when the packet carries it. R22. -/
  runs : List (Nat × Nat)
  /-- Length of the payload. R161. -/
  len : Nat
  /-- Send entry it belongs to. -/
  msg : Option Nat
  /-- Queue it goes to. R541. -/
  cls : EgClass
  /-- Cut-through: the pending read whose verdicts are outstanding. R448. -/
  cut : Option Nat
  deriving DecidableEq, Repr

/-- TRN: the transport engine (04_breren_transport.md), beside its registers. -/
structure Trn where
  /-- SA table, 8,192 entries of 256 B, little-endian as Table 04-10. R145. Reset: DESIGN CHOICE 0 (entry 3). -/
  sa : Tab (BitVec 2048)
  /-- Times and requests of each SA. R146, R151, R168. Reset: none. -/
  aux : Tab SaAux
  /-- Path tests, SA * 16 + path. R159. Reset: none. -/
  tests : Tab PathTest
  /-- Receive entries. R175. Reset: none. -/
  rx : List RxMsg
  /-- Send entries. R161. Reset: none. -/
  tx : List TxMsg
  /-- Messages held. R170, R751. Reset: none. -/
  held : List HeldMsg
  /-- Packets that wait for a counter mark, in order. R463. Reset: none. -/
  blocked : List Blocked
  /-- Next name of an entry (the model's own). Reset: 0. -/
  nextKey : Nat
  /-- Next PROBE_SEQ, 64 bits. R142. Reset: DESIGN CHOICE 0 (entry 3). -/
  probeSeq : Nat
  deriving DecidableEq, Repr

/-- An access in flight under a window key (R194, Table 05-3). -/
structure WinAccess where
  /-- The model's own name of the access. -/
  name : Nat
  /-- Key index, 16 bits. R194. -/
  key : Nat
  /-- A fence has taken place on the entry since its check. R194. -/
  old : Bool
  /-- Its end of Table 05-3 has come; ACCESS_END has yet to count it. R194. -/
  ended : Bool
  deriving DecidableEq, Repr

/-- A held COMMIT placement (R212, R217). -/
structure HeldCommit where
  /-- SA entry of its stream. R212. -/
  sa : Nat
  /-- Message id. R212. -/
  id : Nat
  /-- Network agent that holds it, 3 bits. R217. -/
  agent : Nat
  /-- Cellar address it is placed at. R196. -/
  addr : Nat
  /-- Payload. R211. -/
  data : List Byte
  /-- Its access. R194. -/
  access : Nat
  /-- Its cells are on their way to the Cellar. R212. -/
  writing : Bool
  deriving DecidableEq, Repr

/-- The window unit (05_windows_and_placement.md), beside its registers. -/
structure Win where
  /-- Window key table, 65,536 entries of 32 B as Table 05-1; an unlisted entry is FREE with GENERATION 1. R186.
  Reset: GENERATION 1, else DESIGN CHOICE 0 (entry 3). -/
  keys : Tab (BitVec 256)
  /-- Accesses in flight. R194. Reset: none. -/
  accesses : List WinAccess
  /-- Next access name (the model's own). Reset: 0. -/
  nextAccess : Nat
  /-- Held COMMIT placements. R212. Reset: none. -/
  held : List HeldCommit
  /-- The last fence of each key: its old generation and its time in ns (what the count of R220 and the second of Table 05-4
  need beside GENERATION and FENCE_MS). R218, R220. Reset: none. -/
  fences : Tab (Nat × Nat)
  deriving DecidableEq, Repr

/-- The states of a queue (R268, Table 06-15). -/
inductive QueueState where
  | none | active | resetting | failed
  deriving DecidableEq, Repr

/-- A QUEUE_RESET or QUEUE_DELETE under way on a queue (R251, R252, R262). -/
structure Closing where
  /-- The admin command that asked for it, by its acceptance order; it may end first. R262. -/
  by_ : Nat
  /-- Ring token to bind at its end; none keeps the bound one. R252. -/
  ring : Option (BitVec 128)
  /-- The queue is deleted at its end. R251. -/
  delete : Bool
  deriving DecidableEq, Repr

/-- A queue that exists (R226). -/
structure Queue where
  /-- Queue slot it takes, the lowest free one at its creation (DESIGN CHOICE, assumption 20). R226. -/
  slot : Nat
  /-- STATE, 2 bits. R268. -/
  state : QueueState
  /-- Bound ring token, 128 bits; none while unbound. R229. -/
  ring : Option (BitVec 128)
  /-- Producer index, 16 bits. R245. -/
  producer : Nat
  /-- Phase, 1 bit. R245. -/
  phase : Bool
  /-- The QUEUE_RESET or QUEUE_DELETE under way. R262. -/
  closing : Option Closing
  /-- Stripe writes of its completed commands that can no longer be made FUA-equivalent, by name: discarded with their FAILED
  group (true), or without a block that the Cellar lost (false). R241, R242, R339. -/
  unsafeWrites : List (Nat × Bool)
  deriving DecidableEq, Repr

/-- The CQ_CMD that runs while CQ_STATUS.RESET_BUSY is 1 (R264, R265). -/
inductive CqRun where
  /-- CONTROLLER_RESET; the flag is set once its checkpoint is taken and the commands are stopped. -/
  | controller (stopped : Bool)
  /-- EP_DISABLE of an endpoint. -/
  | disable (ep : Nat)
  deriving DecidableEq, Repr

/-- An endpoint (R226, R253). -/
structure Endpoint where
  /-- Enabled, 1 bit. R226. Reset: 0. -/
  enabled : Bool
  /-- Feature WRITE_FUA, 1 bit. R253. Reset: 0. -/
  writeFua : Bool
  /-- Feature COALESCE, 1 bit. R253. Reset: 1. -/
  coalesce : Bool
  deriving DecidableEq, Repr

/-- The states of a command slot (R236, Table 06-3); FREE is no record. -/
inductive SlotState where
  | waiting | executing | completing
  deriving DecidableEq, Repr

/-- What an executing command waits for beside its own engines. -/
inductive CmdWait where
  /-- Nothing: its engines run. -/
  | running
  /-- Shelf firmware, by an event of Table 01-9. R41. -/
  | firmware
  /-- The end of a handover of its volume. R631. -/
  | handover
  /-- Its completion point, with the status settled. R236. -/
  | finished
  deriving DecidableEq, Repr

/-- A command slot (R236) with the progress of its command. -/
structure Slot where
  /-- STATE. R236. -/
  state : SlotState
  /-- The capsule, 64 B. R230. -/
  cap : BitVec 512
  /-- Acceptance time. R233. -/
  accepted : Nat
  /-- Acceptance order. R239. -/
  order : Nat
  /-- SA on which it arrived. R751. -/
  sa : Nat
  /-- Data port on which it arrived. R249. -/
  port : Nat
  /-- Effective FUA, with the feature WRITE_FUA. R253. -/
  fua : Bool
  /-- Started execution. -/
  started : Bool
  /-- Translation held: extent entries of the range in order. R287. -/
  xlate : List (BitVec 256)
  /-- What it waits for. R41. -/
  wait : CmdWait
  /-- Status code once settled; SUCCESS before. R13, R267. -/
  status : Nat
  /-- RESULT, 32 bits. R243. -/
  result : Nat
  /-- SERVICE, 8 bits. R243. -/
  service : Nat
  /-- Bytes of FETCHes not yet issued: next position. R208. -/
  fetchNext : Nat
  /-- FETCH message ids outstanding, each with position and length. R208. -/
  fetches : List (Nat × Nat × Nat)
  /-- Cellar address of its write staging area. R208. -/
  staging : Option Nat
  /-- Landing window access counted for it. R198. -/
  access : Option Nat
  /-- Its stripe writes admitted and still to meet its completion conditions. R332. -/
  intents : List Nat
  /-- Stripe writes not yet admitted. R312. -/
  toAdmit : List Nat
  /-- READ: blocks of its range whose data is not yet ready, by position. R417. -/
  unready : List Nat
  /-- READ: data messages started, by send entry; R33. -/
  messages : List Nat
  /-- READ: Cellar address of each block ready, by position. R201. -/
  blocks : Tab Nat
  /-- READ: lines not yet given a source. R417. -/
  lines : List Nat
  /-- READ, VERIFY: blocks whose outcome is not SUCCESS, by position, with their status. WRITE, ZERO: stripe writes that
  failed, by position of their first block. R372, R753. -/
  fails : Tab Nat
  /-- FLUSH: covered stripe writes not yet FUA-equivalent. R241. -/
  covers : List Nat
  /-- Already stopped: issues nothing further. R255. -/
  stopped : Bool
  /-- Command timeout raised. R258. -/
  timedOut : Bool
  deriving DecidableEq, Repr

/-- CQ: the command queue engine (06_command_queues.md), beside its registers. -/
structure Cq where
  /-- Endpoints, 4,096. R226. Reset: disabled, features at default. -/
  eps : Tab Endpoint
  /-- Queues that exist, endpoint * 64 + queue. R226. Reset: none. -/
  queues : Tab Queue
  /-- Incarnations, 16 bits, endpoint * 64 + queue; survive QUEUE_DELETE. R227. Reset: DESIGN CHOICE 0 (entry 4). -/
  incarnation : Tab Nat
  /-- Command slots not FREE, (endpoint * 64 + queue) * 32 + tag. R236. Reset: none. -/
  slots : Tab Slot
  /-- Capsule intake, at most 8,192: capsule, SA, port. R232. Reset: empty. -/
  intake : List (BitVec 512 × Nat × Nat)
  /-- Acceptance counter. R239. Reset: 0. -/
  order : Nat
  /-- The CQ_CMD under way: CQ_STATUS.RESET_BUSY reads 1. R264. Reset: none. -/
  run : Option CqRun
  deriving DecidableEq, Repr

/-- An INIT in progress (R289). -/
structure InitJob where
  /-- Extent map entry, 20 bits. R289. -/
  entry : Nat
  /-- Stripes not yet begun. R289. -/
  next : Nat
  /-- Intents of its stripe writes not yet retired. R289. -/
  intents : List Nat
  deriving DecidableEq, Repr

/-- VOL: the volume mapper (07_volumes_and_blocks.md), beside its registers. -/
structure Vol where
  /-- Volume table, 4,096 entries of 64 B (Table 07-6). R298. Reset: DESIGN CHOICE 0 (entry 3). -/
  vols : Tab (BitVec 512)
  /-- Group table, 8 entries of 64 B (Table 07-8). R307. Reset: DESIGN CHOICE 0 (entry 3). -/
  grps : Tab (BitVec 512)
  /-- Extent map, 1,048,576 entries of 32 B (Table 07-2). R285. Reset: DESIGN CHOICE 0 (entry 3). -/
  exts : Tab (BitVec 256)
  /-- Endpoint table: access groups, 6 bits. R300. Reset: 0. -/
  access : Tab Nat
  /-- Extent entries held in the Pantry cache. R285. Reset: none. -/
  cached : List Nat
  /-- Extent write waiting: entry, new contents, commands that hold a translation. R288. Reset: none. -/
  waitingExt : Option (Nat × BitVec 256 × List Nat)
  /-- Volume whose DEACTIVATE waits. R305. Reset: none. -/
  deactivating : Option Nat
  /-- INIT in progress. R289. Reset: none. -/
  init : Option InitJob
  deriving DecidableEq, Repr

/-- What a stripe write belongs to (R312, R289, R372, R405). -/
inductive StripeFor where
  /-- A WRITE or ZERO, by its acceptance order. R312. -/
  | command (cmd : Nat)
  /-- VOL_CMD INIT. R289. -/
  | init
  /-- RBD_CMD RESOLVE. R401. -/
  | resolve
  /-- A reshape step. R405. -/
  | reshape
  deriving DecidableEq, Repr

/-- A stripe write: one stripe's part of a command's range (R312). -/
structure StripeWrite where
  /-- The model's own name of the stripe write. -/
  name : Nat
  /-- Owner. R312. -/
  owner : StripeFor
  /-- Queue of the owning command. R241. -/
  queue : Option Nat
  /-- Group, 3 bits. R312. -/
  group : Nat
  /-- Stripe in the group, 48 bits. R312. -/
  stripe : Nat
  /-- Volume, 12 bits. R293. -/
  volume : Nat
  /-- Volume LBA of data position 0 of the stripe, 48 bits. R290. -/
  lba0 : Nat
  /-- First data position r0. R312. -/
  first : Nat
  /-- Data positions written c. R312. -/
  count : Nat
  /-- Data positions of the stripe that are not pad blocks. R283. -/
  valid : Nat
  /-- MODE: 1 FULL, 2 RMW, 3 INIT. R326. -/
  mode : Nat
  /-- Effective FUA. R240. -/
  fua : Bool
  /-- Position of its first block in the command's range, in blocks. R312. -/
  pos : Nat
  /-- Stripe engine, 0 to 3. R319. -/
  engine : Nat
  /-- Intent index once admitted. R330. -/
  intent : Option Nat
  /-- Member and row of every block of its buffer, in buffer order. R327. -/
  places : List (Nat × Nat)
  /-- Blocks not yet on their members nor dropped: (member, row k, buffer position). R336. -/
  left : List (Nat × Nat × Nat)
  /-- Member writes retried once: (member, row k). R337. -/
  retried : List (Nat × Nat)
  /-- Mirroring: copy sent and waiting for the peer's acknowledgement. R332, R644. -/
  mirrorWait : Bool
  /-- The peer holds it, buffer included. R335. -/
  mirrored : Bool
  /-- Waited already counted. R330. -/
  counted : Bool
  deriving DecidableEq, Repr

/-- A record of the power-loss dump: an intent copy and its buffer as bytes with trailers (R343). -/
structure DumpRecord where
  /-- The intent copy, 32 B. R343. -/
  intent : BitVec 256
  /-- Its index. R343. -/
  index : Nat
  /-- The blocks of its buffer in buffer order: 4,096 stored bytes and a 16 B trailer. R343. -/
  blocks : List (List Byte × BitVec 128)
  /-- Member and row of each block: buffer order gives them (R327), and loss markers stand behind (assumption 20). -/
  places : List (Nat × Nat)
  deriving DecidableEq, Repr

/-- The dump seal (R344). -/
structure DumpSeal where
  /-- Journal id. R344. -/
  journalId : Nat
  /-- Journal generation. R344. -/
  gen : Nat
  /-- Record count. R344. -/
  count : Nat
  /-- Group clocks; 0 for a group that has none. R344. -/
  clocks : List Nat
  /-- CRC-32C over every record header. R344. -/
  crc : BitVec 32
  deriving DecidableEq, Repr

/-- A member checkpoint (R349, Tables 08-7 and 08-8). -/
structure Checkpoint where
  /-- SIDE. R349. -/
  side : Nat
  /-- JOURNAL_ID, 64 bits. R349. -/
  journalId : Nat
  /-- JOURNAL_GEN, 64 bits. R349. -/
  gen : Nat
  /-- CUT, shelf time. R349. -/
  cut : Nat
  /-- CLOCK[0-7]; 0 for a group that has none. R349. -/
  clocks : List Nat
  /-- INTENTS: live intents at the cut. R349. -/
  live : Nat
  /-- Intent records as at the cut, with their indices. R352. -/
  intents : List (Nat × BitVec 256)
  /-- Lost-range tables, group and entries. R349. -/
  lost : List (Nat × BitVec 128)
  /-- The buffers of the data log, by rising intent index. R349. -/
  log : List DumpRecord
  /-- The seal stands: every block has been written. R349, R350. -/
  sealed : Bool
  /-- No block of the copy has been found to fail, and its seal matches. R350. -/
  whole : Bool
  deriving DecidableEq, Repr

/-- A lost-range table entry, 16 B (R389). -/
abbrev LostEntry := BitVec 128

/-- A loaded key slot (R479, R481). -/
structure KeyRec where
  /-- KEY_BITS: 1 AES-128, 2 AES-256, 3 XTS 2 x 256. R479. -/
  bits : Nat
  /-- USAGE, 32 bits. R479. -/
  usage : Nat
  /-- KEY bytes. R479. -/
  key : List Byte
  /-- SALT_DOWN, 4 B (SA only). R457. -/
  saltDown : List Byte
  /-- SALT_UP, 4 B (SA only). R457. -/
  saltUp : List Byte
  deriving DecidableEq, Repr

/-- An SA's packet-counter high-water mark record (R464). -/
structure MarkRec where
  /-- Mark, 64 bits. R463. -/
  mark : Nat
  /-- Check value of the key it was counted under, 24 bits. R464. -/
  kcv : Nat
  deriving DecidableEq, Repr

/-- The Attic: what it holds survives every reset (R340). -/
structure Attic where
  /-- Journal id, 64 bits. R340. Reset: kept. -/
  journalId : Nat
  /-- Journal generation, 64 bits. R341. Reset: kept. -/
  journalGen : Nat
  /-- CLEAN flag. R356. Reset: kept. -/
  clean : Bool
  /-- DUMP_SEALED: the last dump was sealed. R344. Reset: kept. -/
  dumpSealed : Bool
  /-- Data log: the power-loss dump's records. R343. Reset: kept. -/
  dump : List DumpRecord
  /-- The seal of the dump held, until a replay has ended. R344. Reset: kept. -/
  sealed : Option DumpSeal
  /-- Intent records not FREE, 65,536 of 32 B (Table 08-2). R326. Reset: kept. -/
  intents : Tab (BitVec 256)
  /-- Lost-range tables, group * 4096 + index. R389. Reset: kept. -/
  lost : Tab LostEntry
  /-- Packet-counter high-water mark records of SA entries. R463, R464. Reset: kept. -/
  saMarks : Tab MarkRec
  /-- Group-clock high-water marks. R324. Reset: kept. -/
  clockMarks : Tab Nat
  /-- Resident Inventory sections. R63. Reset: kept. -/
  resident : List ResidentSection
  /-- Staged candidate image. R66. Reset: kept. -/
  staged : Option (List Byte)
  /-- INV_FLOOR, 64 bits. R75. Reset: kept. -/
  floor : Nat
  /-- WDN_FW_FLOOR, 64 bits. R628. Reset: kept. -/
  fwFloor : Nat
  /-- Peer's mirrored intents. R340. Reset: kept. -/
  peerIntents : Tab (BitVec 256)
  /-- Peer's group-clock high-water marks. R646. Reset: kept. -/
  peerClocks : Tab Nat
  /-- Peer's mirrored lost-range entries. R646. Reset: kept. -/
  peerLost : Tab LostEntry
  /-- Pseudo-channel retirements: pseudo-channel and cause. R119, Table 03-5. Reset: kept. -/
  retired : List (Nat × Nat)
  /-- Withdrawn segments. R115. Reset: kept. -/
  withdrawn : List Nat
  /-- Slice map of the retired pseudo-channels. R120. Reset: kept. -/
  sliceMap : Tab (Nat × Nat)
  /-- Spare pool. R115. Reset: kept. -/
  pool : List (Nat × Nat)
  /-- Rebuild records: group * 32 + member to (START, POINT, WRAPPED). R384. Reset: kept. -/
  rebuild : Tab (Nat × Nat × Bool)
  /-- Patrol points of the groups. Table 09-13. Reset: kept. -/
  patrols : Tab Nat
  /-- KWK slot, sealed; none while EMPTY. R481. Reset: kept. -/
  kwk : Option KeyRec
  /-- Retired cipher pipes, rising. Table 11-2. Reset: kept. -/
  pipes : List Nat
  /-- Retired Warden cores, rising. R609. Reset: kept. -/
  cores : List Nat
  deriving DecidableEq, Repr

/-- A checkpoint being written (R351). -/
structure CkptRun where
  /-- Contents at the cut. R352. -/
  content : Checkpoint
  /-- Copy members as (group, member, bay). R354. -/
  copies : List (Nat × Nat × Nat)
  /-- Whether SHUTDOWN asked for it. R356. -/
  shutdown : Bool
  deriving DecidableEq, Repr

/-- The part of the Attic's own journal that a replay takes over from a member copy (R341, R362). -/
structure PriorJournal where
  /-- Journal id. R340. -/
  journalId : Nat
  /-- Journal generation. R341. -/
  journalGen : Nat
  /-- CLEAN. R356. -/
  clean : Bool
  /-- Intent records. R340. -/
  intents : Tab (BitVec 256)
  /-- Lost-range tables. R389. -/
  lost : Tab LostEntry
  deriving DecidableEq, Repr

/-- STR: stripe engines and journal controller (08_stripe_writes_and_attic.md), beside registers and Attic. -/
structure Str where
  /-- Stripe writes waiting for admission, in arrival order. R330. Reset: none. -/
  waiting : List StripeWrite
  /-- Live stripe writes. R329. Reset: none. -/
  live : List StripeWrite
  /-- Next stripe write name (the model's own). Reset: 0. -/
  nextName : Nat
  /-- Dirty-store block slots held: intent to (first slot, number). R331. Reset: none. -/
  buffers : Tab (Nat × Nat)
  /-- Group clocks, 48 bits. R323. Reset: restored by replay. -/
  clocks : Tab Nat
  /-- Checkpoint being written. R351. Reset: none. -/
  ckpt : Option CkptRun
  /-- A further checkpoint is due. R353. Reset: clear. -/
  ckptDue : Bool
  /-- Copy members of the last checkpoint as (group, member, bay). R354. Reset: none. -/
  copies : List (Nat × Nat × Nat)
  /-- Time of the last checkpoint cut. R351. Reset: 0. -/
  lastCkpt : Nat
  /-- SHUTDOWN runs: no admission. R356. Reset: clear. -/
  shutdown : Bool
  /-- REPLAY_BUSY. R366. Reset: 0. -/
  replayBusy : Bool
  /-- Replay has run since the reset. R357. Reset: clear. -/
  replayed : Bool
  /-- STR_REPLAY source and bay. R366. Reset: 0. -/
  replaySource : Nat × Nat
  /-- Intents still to be closed by INIT rewrites of the replay. R359. Reset: none. -/
  replayLeft : List Nat
  /-- The Attic's own journal as the replay found it, for a start again from the next source. R362. Reset: none. -/
  prior : Option PriorJournal
  deriving DecidableEq, Repr

/-- A rebuild target record (R377, R415). -/
structure Target where
  /-- Target member, 5 bits. R415. -/
  member : Nat
  /-- START, a stripe number. R377. -/
  start : Nat
  /-- POINT, the walk's next stripe. R377. -/
  point : Nat
  /-- WRAPPED. R377. -/
  wrapped : Bool
  /-- The walk has passed every stripe for it. R382. -/
  done : Bool
  deriving DecidableEq, Repr

/-- The kinds of patrol beside the extended self-test's (R415, Table 09-14). -/
inductive PatrolKind where
  | idle | periodic | unpaced
  deriving DecidableEq, Repr

/-- Patrol state of a group (R393). -/
structure Patrol where
  /-- KIND. R415. -/
  kind : PatrolKind
  /-- Point: next stripe. R393. -/
  point : Nat
  /-- Start of the cycle. R393. -/
  began : Nat
  /-- The cycle overran: PATROL_LATE set once. R393. -/
  late : Bool
  /-- The post-replay patrol has yet to pass the stripes from the point on. R373, R397. -/
  postReplay : Bool
  /-- Part of an unpaced patrol of every group. R363, R364. -/
  every : Bool
  /-- That patrol has passed the group. R397. -/
  passed : Bool
  /-- The periodic patrol that an unpaced one interrupts: point, start of the cycle and whether it overran. R397. -/
  kept : Option (Nat × Nat × Bool)
  /-- Next stripe of the running extended self-test's patrol of the group; none outside it or once it has passed them.
  R396. -/
  ext : Option Nat
  deriving DecidableEq, Repr

/-- The states of the reshape (R415, Table 09-16). -/
inductive ReshapeState where
  | idle | copying | held | switching
  deriving DecidableEq, Repr

/-- Where the current step of a reshape stands (R405, R410). -/
inductive ReshapeStep where
  /-- No step is under way. -/
  | idle
  /-- A moving-boundary step holds its blocks and waits for the translations held through them. R410. -/
  | waiting
  /-- Its stripe write waits for admission or is live. R405. -/
  | writing
  /-- Its stripe write has retired. R405. -/
  | written
  deriving DecidableEq, Repr

/-- The reshape in the K24 (R403). -/
structure Reshape where
  /-- STATE. R415. -/
  state : ReshapeState
  /-- Extent map entry. R403. -/
  entry : Nat
  /-- Destination group. R403. -/
  dstGroup : Nat
  /-- Destination first stripe. R403. -/
  dstFirst : Nat
  /-- MODE: 1 building beside, 2 moving boundary. R403. -/
  mode : Nat
  /-- Blocks copied so far. R405. -/
  copied : Nat
  /-- SEQ of the last reshape record. R411. -/
  seq : Nat
  /-- The current step. R405. -/
  step : ReshapeStep
  /-- Commands whose translation the step, or the switch, waits for. R288, R410. -/
  waits : List Nat
  /-- The reshape is to be held after its current step. R413. -/
  stopping : Bool
  deriving DecidableEq, Repr

/-- RBD: rebuild, patrol and reshape (09_failure_rebuild_reshape.md), beside its registers. -/
structure Rbd where
  /-- Target records, group * 2 + t. R377. Reset: none; restored from the Attic at boot. -/
  targets : Tab Target
  /-- Patrols of the groups. R393. Reset: idle. -/
  patrols : Tab Patrol
  /-- Times at which blocks of a member were found unreadable in the last 24 h, by the bay that serves it. R367.
  Reset: none. -/
  errors : Tab (List Nat)
  /-- Bytes written to each target in the last 1 s: (group * 32 + member, time, bytes). R383. Reset: none. -/
  written : List (Nat × Nat × Nat)
  /-- Reshape. R403. Reset: idle. -/
  reshape : Option Reshape
  /-- Losses met by a read that wait for a live intent of their stripe: group, stripe, row, and the members found
  unreadable. R387. Reset: none. -/
  losses : List (Nat × Nat × Nat × List Nat)
  deriving DecidableEq, Repr

/-- One block of a pending drive read (R437). -/
structure PendBlock where
  /-- Block position in the line, 0 to 63. R437. -/
  pos : Nat
  /-- Its cells have landed in the buffer. R439. -/
  landed : Bool
  /-- Its outcome status once known, Table 09-2. R372. -/
  verdict : Option Nat
  /-- Served by reconstruction. R452. -/
  recon : Bool
  deriving DecidableEq, Repr

/-- A block of a member by its group, stripe, member and row. -/
structure MBlock where
  /-- Group. R271. -/
  group : Nat
  /-- Stripe. R271. -/
  stripe : Nat
  /-- Member. R272. -/
  member : Nat
  /-- Row. R315. -/
  row : Nat
  deriving DecidableEq, Repr

/-- A pending drive read (R437). -/
structure PendingRead where
  /-- The model's own name. -/
  name : Nat
  /-- Volume. R437. -/
  volume : Nat
  /-- Line number. R416. -/
  line : Nat
  /-- Its blocks. R437. -/
  blocks : List PendBlock
  /-- Registration time. R437. -/
  registered : Nat
  /-- Coalescing window in force at registration, ns. R437. -/
  window : Nat
  /-- Waiters in join order: commands by acceptance order. R437. -/
  waiters : List Nat
  /-- Open to joiners. R438. -/
  isOpen : Bool
  /-- Slot of the fill, if it is one. R431. -/
  fill : Option Nat
  /-- The fill was made STALE. R433. -/
  stale : Bool
  /-- Cellar address of its buffer (position 0 of the line). R439. -/
  buffer : Nat
  /-- Extent entry its blocks are translated through. R287. -/
  ext : BitVec 256
  /-- Positions read around or hedged. R424, R425. -/
  around : List Nat
  /-- Member blocks read and intact. R424. -/
  got : List MBlock
  /-- Member blocks found unreadable. R371. -/
  bad : List MBlock
  /-- Positions read a second time after a failed Cellar copy. Table 03-4. -/
  again : List Nat
  /-- The command that opened it. R437. -/
  opener : Nat
  /-- Positions for which a hedge has been started. R425. -/
  hedged : List Nat
  /-- May be sent by cut-through. R448. -/
  cut : Bool
  deriving DecidableEq, Repr

/-- A destination that holds a pin (R435). -/
structure Dest where
  /-- The command of a unicast waiter, by acceptance order, or none for a port copy. R435. -/
  cmd : Option Nat
  /-- Group SA of a port copy. R441, R442. -/
  sa : Nat
  /-- Larder slot it pins, or none for a read buffer. R435. -/
  line : Option Nat
  /-- Read buffer it pins. R435. -/
  buffer : Option Nat
  /-- Its egress request (a unicast waiter). R435. -/
  since : Nat
  /-- A port copy's last packet, once sent. R446. -/
  lastPacket : Option Nat
  /-- A packet of the port copy was lost: the copy counts as not sent. Table 10-4. -/
  lost : Bool
  deriving DecidableEq, Repr

/-- A drive's latency tracker (R421). -/
structure Latency where
  /-- E, ns. R421. -/
  est : Nat
  /-- Time of the last sample, or of the last decay step. R422. -/
  last : Nat
  deriving DecidableEq, Repr

/-- RSV: the read service unit (10_read_service.md), beside its registers. -/
structure Rsv where
  /-- Larder directory, 163,840 entries of 16 B (Table 10-2). R428. Reset: FREE, DESIGN CHOICE 0 (entry 3). -/
  dir : Tab (BitVec 128)
  /-- Ghost counters, 32,768 of 8 bits. R429. Reset: DESIGN CHOICE 0 (entry 3). -/
  ghost : Tab Nat
  /-- Slot count N in force. R90, R428. Reset: 0. -/
  slots : Nat
  /-- Pending drive reads. R437. Reset: none. -/
  pending : List PendingRead
  /-- Destinations holding pins. R435. Reset: none. -/
  dests : List Dest
  /-- Latency trackers of the 24 drives. R421. Reset: 0. -/
  lat : Tab Latency
  /-- K24-wide serial of VALID lines, 64 bits. R444. Reset: DESIGN CHOICE 0 (entry 3). -/
  serial : Nat
  /-- Next name of a pending read (the model's own). Reset: 0. -/
  nextName : Nat
  deriving DecidableEq, Repr

/-- A running INSTALL (R480). -/
structure InstallRun where
  /-- KIND. R480. -/
  kind : Nat
  /-- SLOT. R480. -/
  slot : Nat
  /-- Unwrapped key to be loaded. R480. -/
  record : KeyRec
  deriving DecidableEq, Repr

/-- A running job of the job engine (R477). -/
structure JobRun where
  /-- Descriptor, 64 B. R472. -/
  desc : BitVec 512
  /-- Code by which it is refused or ended early; none while it is to run. R474, R475, R476. -/
  code : Option Nat
  /-- A check failure has made it run again once. Table 11-2. -/
  again : Bool
  deriving DecidableEq, Repr

/-- CIP: key store, job engine, pipes and alarms (11_cipher.md), beside its registers. -/
structure Cip where
  /-- SA slots, 8,192; unlisted EMPTY. R484. Reset: EMPTY. -/
  sa : Tab KeyRec
  /-- Volume slots, 4,096; unlisted EMPTY. R484. Reset: EMPTY. -/
  vol : Tab KeyRec
  /-- Job slots, 64; unlisted EMPTY. R484. Reset: EMPTY. -/
  job : Tab KeyRec
  /-- INSTALL running (CMD_BUSY). R480. Reset: none. -/
  install : Option InstallRun
  /-- Jobs running on the two channels. R477. Reset: none. -/
  jobs : Tab JobRun
  /-- Results of the channels: READY, CODE, OUTLEN. R478. Reset: 0. -/
  results : Tab (Bool × Nat × Nat)
  /-- Alarm conditions present now, as cause numbers of CIP_ALARM. R490. Reset: none. -/
  present : List Nat
  /-- Level 2 zeroing still to run, at the dump seal or its end. R489. Reset: clear. -/
  zeroing : Bool
  /-- Recent check failures: (pipe, time). R456. Reset: none. -/
  checks : List (Nat × Nat)
  /-- High-water marks being written to the Attic: SA and new mark. R463. Reset: none. -/
  marking : Tab Nat
  deriving DecidableEq, Repr

/-- The kinds of frame in an egress queue. -/
inductive FrameBody where
  /-- A Breren packet: SA, path, packet, and the send entry it belongs to if any. R754. -/
  | breren (sa : Nat) (path : Nat) (pkt : Packet) (msg : Option Nat)
  /-- Any other frame, whole but for its FCS: ARP and neighbour answers, pause, ledger replies, event frames. R507. -/
  | raw (bytes : List Byte)
  deriving DecidableEq, Repr

/-- A frame placed in an egress queue of a sub-port (R754). -/
structure EgFrame where
  /-- The model's own name. -/
  name : Nat
  /-- Body. -/
  body : FrameBody
  /-- Queue. R541. -/
  cls : EgClass
  /-- Priority 0 to 7. R515. -/
  prio : Nat
  /-- Its cells are not all released by the resequencer yet. R104. -/
  waits : Bool
  /-- Time it was placed. R754. -/
  queued : Nat
  /-- Frame length in bytes, first destination address byte to last FCS byte. R543. -/
  len : Nat
  /-- Cut-through: the pending read whose verdict on this frame's blocks is outstanding. R449. -/
  cut : Option Nat
  /-- Must end with the stomped FCS. R449, R462. -/
  stomp : Bool
  /-- An express frame has interrupted it. R508, R510. -/
  parted : Bool
  /-- Bytes of it that have left. R510. -/
  sent : Nat
  /-- Bytes of it that had left when it was last interrupted. R510. -/
  brk : Nat
  deriving DecidableEq, Repr

/-- A sub-port (R498, R503, R529). -/
structure SubPort where
  /-- MAC_SP_CTRL, 32 bits. R529. Reset: MERGE 1, WAKE_EN 1. -/
  ctrl : Word
  /-- Sub-port entry, 64 B (Table 12-3). R503. Reset: 0. -/
  entry : BitVec 512
  /-- Link up. R529. Reset: 0. -/
  link : Bool
  /-- Energy detected. R529. Reset: 0. -/
  energy : Bool
  /-- FEC alignment locked. R529. Reset: 0. -/
  fec : Bool
  /-- Preemption verified. R509. Reset: 0. -/
  merge : Bool
  /-- Priorities held, with the time the hold ends; priority 8 is the whole port (802.3x). R516. Reset: none. -/
  holds : Tab Nat
  /-- Watchdog start of each held priority with frames queued. R518. Reset: none. -/
  wdog : Tab Nat
  /-- Hold-offs running, with their end. R518. Reset: none. -/
  holdOff : Tab Nat
  /-- The last pause frame sent was XOFF, at this time. R517. Reset: none. -/
  xoff : Option Nat
  /-- Queued frames, oldest first. R541. Reset: none. -/
  queue : List EgFrame
  /-- A frame on the wire whose last byte has not left. R449, R510. Reset: none. -/
  wire : Option EgFrame
  /-- Counters, 24 of 64 bits. R529. Reset: 0. -/
  counts : Tab Nat
  /-- Shadow counters, while latched. R522. Reset: none. -/
  shadow : Option (Tab Nat)
  /-- The last frame put on the wire, with FCS. Reset: none (the model's own output). -/
  lastTx : List Byte
  /-- Priority of the last frame received. R515. Reset: DESIGN CHOICE 0 (entry 154). -/
  rxPrio : Nat
  deriving DecidableEq, Repr

/-- MAC: the Ethernet ports (12_ethernet_ports.md), beside its registers. -/
structure Mac where
  /-- Sub-ports 0 to 31; 32 is the management port. R498. Reset: as SubPort. -/
  sps : Tab SubPort
  /-- Exact entries, port * 32 + entry: (MAC_EXACT_LO, MAC_EXACT_HI). R520. Reset: 0. -/
  exact : Tab (Word × Word)
  /-- Management port speed, MAC_MGT_STATUS.SPEED. R529. Reset: 0. -/
  speed : Nat
  /-- MDIO cycle running: word written. R528. Reset: none. -/
  mdio : Option Word
  /-- Next name of a frame (the model's own). Reset: 0. -/
  nextName : Nat
  deriving DecidableEq, Repr

/-- A meter entry (R533). -/
structure Meter where
  /-- Tc in 1/65,536 B. R533. -/
  tc : Nat
  /-- Tp in 1/65,536 B. R533. -/
  tp : Nat
  /-- Shelf time of the last update. R533. -/
  last : Nat
  deriving DecidableEq, Repr

/-- A node of the egress tree (R545, R547). -/
structure TreeNode where
  /-- Deficit, bytes. R545. -/
  deficit : Nat
  /-- Node id of the child its pointer names; none before the first selection. R545. -/
  pointer : Option Nat
  /-- Shaper tokens in 1/8,000 B; may be negative. R547. -/
  tokens : Int
  /-- Shelf time of the tokens' last update. R547. -/
  last : Nat
  deriving DecidableEq, Repr

/-- TC: traffic control (13_traffic_control.md), beside its registers. -/
structure Tc where
  /-- Meter entries, 8,192. R531. Reset: full buckets (none listed until a profile applies). -/
  meters : Tab Meter
  /-- Tree nodes that have been served, by node id. R545. Reset: deficit 0, full shaper, pointer at lowest child. -/
  nodes : Tab TreeNode
  /-- Histograms: (sub-port * 2 + kind) * 16 + bin; the watch histograms take sub-port 32. R549. Reset: 0. -/
  hist : Tab Nat
  deriving DecidableEq, Repr

/-- The states of a drive port (R566, Table 14-3, Table 14-12). -/
inductive PortState where
  | empty | present | reset | training | init | ready | retraining | lost | fault | unfit | removed
  deriving DecidableEq, Repr

/-- What a drive command serves. -/
inductive DriveUse where
  /-- Rows of a member for a pending read, from a block on; the flag marks the second read after a failed Cellar copy.
  R424, Table 03-4. -/
  | read (pend : Nat) (first : MBlock) (again : Bool)
  /-- Destage of a buffer block: stripe write name, member, row. R336. -/
  | destage (write : Nat) (member : Nat) (row : Nat)
  /-- A reservation command: 1 REGISTER, 2 ACQUIRE, 3 PREEMPT, 4 REPORT; the key it carries, and for PREEMPT the key it
  preempts, else 0. R571. -/
  | reservation (cmd key peer : Nat)
  deriving DecidableEq, Repr

/-- A drive command of a queue engine (R563, R570). -/
structure DriveCmd where
  /-- The model's own name. -/
  name : Nat
  /-- Drive port. R563. -/
  bay : Nat
  /-- Submission queue; none while it waits in the agent. R563. -/
  queue : Option Nat
  /-- Write rather than read. R564. -/
  write : Bool
  /-- Member LBA. R271. -/
  lba : Nat
  /-- Blocks. R31. -/
  count : Nat
  /-- Block written: stored bytes and trailer. R564. -/
  block : List Byte
  /-- Trailer written, 16 B. R297. -/
  trailer : BitVec 128
  /-- Drive-level FUA. R564. -/
  fua : Bool
  /-- Purpose. -/
  use : DriveUse
  /-- Submission doorbell time of the first issue; none while it has not been issued. R31, R568. -/
  issued : Option Nat
  /-- Already retried once. R570. -/
  retried : Bool
  deriving DecidableEq, Repr

/-- A drive as seen in its bay: the outside world the drive commands meet. -/
structure Drive where
  /-- Blocks written: member LBA to stored bytes and trailer. Reset: kept (outside the part). -/
  blocks : Tab (List Byte × BitVec 128)
  /-- Namespace size in blocks. R560. -/
  capacity : Nat
  /-- MSI-X vectors that it offers; 0: not known yet. R564. -/
  vectors : Nat
  /-- Journal slots: slot number to checkpoint. R348, R349. -/
  ckpts : Tab Checkpoint
  /-- Group metadata copy: GENERATION and contents. R402. -/
  meta_ : Option (Nat × List Byte)
  /-- Reshape record in block 16,383 of the metadata area. R410, Table 09-5: SEQ and contents. -/
  reshape : Option (Nat × List Byte)
  deriving DecidableEq, Repr

/-- A drive port (R566). -/
structure Port where
  /-- STATE. R566. Reset: EMPTY. -/
  state : PortState
  /-- Time of entry to the state. R566. -/
  since : Nat
  /-- PRESENCE. R575. Reset: 0. -/
  presence : Bool
  /-- Time of the last presence change. R565. -/
  presenceAt : Nat
  /-- PERST# asserted. R575. Reset: 1. -/
  perst : Bool
  /-- CLKREQ# asserted. R575. Reset: 0. -/
  clkreq : Bool
  /-- REFCLK enable driven. R557. Reset: 0. -/
  refclk : Bool
  /-- Link in L1.2. R557. Reset: 0. -/
  l12 : Bool
  /-- RATE, 3 to 6, 0 while down. R575. Reset: 0. -/
  rate : Nat
  /-- WIDTH, 0 while down. R575. Reset: 0. -/
  width : Nat
  /-- DRV_PORT_CMD START given in RESET. R566. Reset: clear. -/
  started : Bool
  /-- INIT entered from RETRAINING, with the time the link went down. R566. Reset: none. -/
  retrainFrom : Option Nat
  /-- DRV_PORT_CAP, 64 bits. R560. Reset: 0. -/
  cap : Nat
  /-- Rate and width the link had trained to when the port reached READY. R716. Reset: 0. -/
  trained : Nat × Nat
  /-- SQ_COUNT in effect. R561. Reset: 0. -/
  sqCount : Nat
  /-- Entries of each queue in effect. R561. Reset: 0. -/
  sqDepth : Nat
  /-- MSI-X vectors that the completion queues share. R564. Reset: 0. -/
  vectors : Nat
  /-- Entries consumed of each completion queue, modulo twice its depth: its head, rung in the doorbell, and the phase tag that
  matches. R564. Reset: 0. -/
  cqHead : Tab Nat
  /-- Maximum payload size and maximum read request size set in the drive, bytes; 0 before its link is up. R555. Reset: 0. -/
  sizes : Nat × Nat
  /-- The drive in the bay has reached READY. R558. Reset: clear. -/
  fit : Bool
  /-- DRV_RESV_RESULT: READY, CODE, HOLDER. R572. Reset: 0. -/
  resv : Bool × Nat × Nat
  /-- Reservation command running on the port. R572. Reset: none. -/
  resvCmd : Option Nat
  /-- DRV_MI word without VALID and STALE. R574. Reset: 0. -/
  mi : Nat
  /-- DRV_MI.VALID. R574. Reset: 0. -/
  miValid : Bool
  /-- Consecutive reads without a valid answer. R574. Reset: 0. -/
  miMiss : Nat
  deriving DecidableEq, Repr

/-- DRV: the drive ports (14_drive_ports.md), beside its registers. -/
structure Drv where
  /-- Drive ports, 24. R566. Reset: EMPTY, PERST# asserted. -/
  ports : Tab Port
  /-- Drive commands outstanding or waiting, in order. R563. Reset: none. -/
  cmds : List DriveCmd
  /-- Next command name (the model's own). Reset: 0. -/
  nextName : Nat
  deriving DecidableEq, Repr

/-- The states of a sub-channel (R584, Table 15-2). -/
inductive SubState where
  | off | ramping | on | latched
  deriving DecidableEq, Repr

/-- A sub-channel of the bay power die (R584). -/
structure SubChan where
  /-- STATE. R584. Reset: OFF. -/
  state : SubState
  /-- Power-good. R585. Reset: 0. -/
  pg : Bool
  /-- CAUSE: 0 none, 1 BREAKER, 2 TIMER, 3 INRUSH, 4 PARTNER. R582. Reset: 0. -/
  cause : Nat
  /-- In current limit: start of the fault timer. R580. Reset: none. -/
  limiting : Option Nat
  /-- Gate held off by reverse current. R587. Reset: 0. -/
  reverse : Bool
  /-- Entry to RAMPING. R582. -/
  since : Nat
  /-- Enable bit written 0 at this time. R583. -/
  disabledAt : Option Nat
  /-- Reported output voltage, mV. R592. Reset: 0. -/
  vout : Nat
  /-- Reported input voltage, mV. R592. Reset: 0. -/
  vin : Nat
  /-- Reported current, mA. R592. Reset: 0. -/
  cur : Int
  /-- Reported power, mW. R592. Reset: 0. -/
  pow : Int
  /-- Last 1,000 power values, newest first. R595. Reset: none. -/
  avg : List Int
  /-- Energy counter, in 1/1,000,000 of 1 uJ. R593. Reset: 0. -/
  energy : Nat
  deriving DecidableEq, Repr

/-- BAY: the bay power die (15_bay_power.md), beside its registers. -/
structure Bay where
  /-- Sub-channels, channel * 2 + sub. R584. Reset: OFF. -/
  subs : Tab SubChan
  /-- Channels over their power limit. R595. Reset: none. -/
  overLimit : List Nat
  /-- Latched telemetry set: OUT, IN, current, power, average. R594. Reset: 0. -/
  tel : Nat × Nat × Int × Int × Int
  /-- Power-loss line asserted. R589. Reset: 0. -/
  powerLoss : Bool
  /-- Time of its last change. R346. -/
  lineAt : Nat
  deriving DecidableEq, Repr

/-- The states of a Warden core (R609, Table 16-4). -/
inductive CoreState where
  | active | fenced | testing | resyncing | retired
  deriving DecidableEq, Repr

/-- A Warden core (R598, R609). -/
structure WCore where
  /-- State. R609. Reset: ACTIVE, or RETIRED from the Attic. -/
  state : CoreState
  /-- Integer registers x1 to x31, 64 bits each, unlisted 0. R598. Reset: DESIGN CHOICE 0 (entry 6). -/
  regs : Tab (BitVec 64)
  /-- Program counter, 64 bits. R600. Reset: DESIGN CHOICE 0, the boot ROM's first address (entry 6). -/
  pc : BitVec 64
  /-- Machine-mode CSRs by number, 64 bits each, unlisted 0. R598. Reset: DESIGN CHOICE 0 (entry 6). -/
  csrs : Tab (BitVec 64)
  /-- Private memory, 1 MiB. R599. Reset: loaded from the image; unlisted DESIGN CHOICE 0 (entry 6). -/
  mem : Mem
  /-- Waits in WFI. R604. Reset: 0. -/
  wfi : Bool
  /-- Fences in the last 24 h. R609. Reset: none. -/
  fences : List Nat
  /-- Entry to the state. R609. -/
  since : Nat
  deriving DecidableEq, Repr

/-- MODE of the complex (R629, Table 16-13). -/
inductive ComplexMode where
  | triple | duplex | restarting | halted
  deriving DecidableEq, Repr

/-- The events handed to the Wardens (R41, Table 01-9) with what they name. -/
inductive Event where
  | saRekeyDue (sa : Nat)
  | saExhausted (sa : Nat)
  | saDrained (sa : Nat)
  | saPoisoned (sa : Nat)
  | revocationDone (key : Nat)
  | windowKeyPoisoned (key : Nat)
  | adminCommand (cmd : Nat)
  | commandTimeout (cmd : Nat)
  | volumeCommand (cmd : Nat)
  | disputed (group : Nat) (stripe : Nat)
  | integrity
  | copyMemberLost
  | driveError (bay : Nat)
  | memberFailure (group : Nat) (member : Nat)
  | driveInserted (bay : Nat)
  | driveLinkUp (bay : Nat)
  | reservationConflict (bay : Nat)
  | alarmErasure
  | peerLost
  | bayFault (channel : Nat)
  | powerLoss
  deriving DecidableEq, Repr

/-- WDN: Warden complex and Stocktake (16_wardens.md), beside its registers. -/
structure Wdn where
  /-- The three cores. R598. Reset: as WCore. -/
  cores : Tab WCore
  /-- MODE. R629. Reset: TRIPLE, or as the cores the Attic retires leave it. -/
  mode : ComplexMode
  /-- Start reason of the last start: 0 cold boot, 1 restart, 2 activation. R600. Reset: 0. -/
  startReason : Nat
  /-- ENTRY of the running image. R600. Reset: 0. -/
  entry : Nat
  /-- Running image's serial, WDN_FW_SERIAL. R629. Reset: 0. -/
  fwSerial : Nat
  /-- Boot flash slot that supplied the running image, 0 or 1; none for the recovery loop. R624. Reset: none. -/
  fwSlot : Option Nat
  /-- The recovery loop runs. R738. Reset: clear. -/
  recovery : Bool
  /-- Events that wait for shelf firmware, oldest first. R41. Reset: none. -/
  events : List Event
  /-- Warden shared area of the Pantry, 32 MiB. R599. Reset: zeroed by the Pantry's partitioning. -/
  shared : Mem
  /-- Disagreements in the last 24 h. R618. Reset: none. -/
  disagreements : List Nat
  /-- Warden restarts in the last 24 h. R618. Reset: none. -/
  restarts : List Nat
  /-- Uncorrectable Cellar and Pantry errors in the last 24 h. R618. Reset: none. -/
  ues : List Nat
  /-- TESTS_FAILED, bit n: item n. R617. Reset: 0. -/
  testsFailed : Nat
  /-- TESTS_RUN since the previous report. R618. Reset: 0. -/
  testsRun : Nat
  /-- Spare Pantry rows no longer used as spares: bank * 20 + block * 2 + spare. Table 16-6. Reset: none. -/
  badSpares : List Nat
  /-- Next SEQ of the stock report. R618. Reset: 0. -/
  reportSeq : Nat
  /-- Stock report in force, 256 B. R618. Reset: DESIGN CHOICE 0 (entry 6). -/
  report : List Byte
  /-- Snapshot taken by a read of WDN_REPORT[0]. R620. Reset: DESIGN CHOICE 0 (entry 6). -/
  reportSnap : List Byte
  /-- Firmware staging area, 1 MiB: bytes staged by offset. R623. Reset: empty. -/
  staging : Mem
  /-- Ranges staged: (offset, length). R623. Reset: none. -/
  staged : List (Nat × Nat)
  deriving DecidableEq, Repr

/-- The peer states (R642, Table 17-4). -/
inductive PeerState where
  | solo | joining | mirrored | linkLost | sidebandLost | arbitrating | fenced
  deriving DecidableEq, Repr

/-- A peer link frame (R637). -/
structure PeerFrame where
  /-- TYPE, 8 bits. R637. -/
  kind : Nat
  /-- SEQ, 32 bits. R637. -/
  seq : Nat
  /-- Payload. R637. -/
  payload : List Byte
  /-- Time it was last sent. R637. -/
  sentAt : Nat
  deriving DecidableEq, Repr

/-- A handover this side gives (R652). -/
structure HandoverRun where
  /-- Group mask. R652. -/
  groups : Nat
  /-- Its checkpoint has begun. R652. -/
  ckpt : Bool
  /-- HANDOVER_OFFER sent. R652. -/
  offered : Bool
  /-- Commands accepted before step 1. R652. -/
  slots : List Nat
  deriving DecidableEq, Repr

/-- What the reservation commands the peer agent issues one by one are for (R658, R661). -/
inductive TakeStep where
  | idle
  /-- After a won arbitration: the bays not held. R658. -/
  | winning
  /-- Before a takeover. R661. -/
  | taking
  /-- The replay of a takeover waits for keys with some intents. R486, R662. -/
  | closing
  deriving DecidableEq, Repr

/-- PEER: the peer agent (17_peer_and_takeover.md), beside its registers. -/
structure Peer where
  /-- STATE. R665. Reset: SOLO. -/
  state : PeerState
  /-- FENCED by arbitration. R631. Reset: clear. -/
  byArbitration : Bool
  /-- Groups this side owns, 8 bits. R665. Reset: 0. -/
  own : Nat
  /-- Lane groups up, 2 bits. R636. Reset: 0. -/
  groups : Nat
  /-- Last valid peer link frame. R641. Reset: none. -/
  linkAt : Option Nat
  /-- The link is lost. R641. Reset: 1 until a frame arrives (DESIGN CHOICE, assumption 7). -/
  linkLost : Bool
  /-- Last valid sideband frame. R641. Reset: none. -/
  sideAt : Option Nat
  /-- The sideband is lost. R641. Reset: 1 (SIDEBAND_OK reads 0). -/
  sideLost : Bool
  /-- FLAGS of the last peer heartbeat. R665. Reset: 0. -/
  flags : Nat
  /-- OWN of the last peer heartbeat. R665. Reset: 0. -/
  peerOwn : Nat
  /-- Arbitration set: bays READY at both sides at the last heartbeat. R654. Reset: 0. -/
  arbSet : Nat
  /-- Arbitration: time of entry, bays still to preempt, the one under way, bays held. R655. Reset: none. -/
  arb : Option (Nat × List Nat × Option Nat × List Nat)
  /-- PEER_ARB: N, HELD, RESULT. R665. Reset: 0. -/
  arbResult : Nat × Nat × Nat
  /-- The side has just won arbitration. R660. Reset: clear. -/
  won : Bool
  /-- Next SEQ to send. R637. Reset: DESIGN CHOICE 1 (entry 7). -/
  txSeq : Nat
  /-- Last SEQ received in order. R637. Reset: DESIGN CHOICE 0 (entry 7). -/
  rxSeq : Nat
  /-- Frames sent and not covered by ACK_SEQ. R637. Reset: none. -/
  unacked : List PeerFrame
  /-- MIRROR_BLOCKS waiting for credit: stripe write names. R645. Reset: none. -/
  creditWait : List Nat
  /-- Mirror credit held, block slots. R665. Reset: 0. -/
  credit : Nat
  /-- MIRROR_START sent, received. R642. Reset: clear. -/
  startSent : Bool
  /-- MIRROR_START received. R642. Reset: clear. -/
  startGot : Bool
  /-- A mirror of the peer's journal is held. R649, R650. Reset: clear. -/
  mirrorHeld : Bool
  /-- Time to which the mirror held was kept up; none while it is. R357, R651. Reset: none. -/
  mirrorEnd : Option Nat
  /-- Stripe writes whose intents the peer has been told of since the last MIRROR_START: name to the credit taken for the buffer.
  R335, R645. Reset: none. -/
  told : Tab Nat
  /-- Intents copied at MIRROR_START and not yet acknowledged. R650. Reset: none. -/
  copying : List Nat
  /-- Mirror transfers tried once more: stripe write names. R647. Reset: none. -/
  retriedMirror : List Nat
  /-- Peer mirror region slots used by the peer's intents: intent to (first slot, number, received). R644. Reset: none. -/
  mirror : Tab (Nat × Nat × Nat)
  /-- Peer's journal id from its JOIN. R665. Reset: 0. -/
  journalId : Nat
  /-- Handover given. R652. Reset: none. -/
  giving : Option HandoverRun
  /-- Groups offered to this side and not yet taken: mask and offer payload. R653. Reset: none. -/
  offer : Option (Nat × List Byte)
  /-- Reservation commands still to be issued, as (bay, 1 REGISTER or 3 PREEMPT), the first under way if the flag is set.
  R658, R661. Reset: none. -/
  takes : List (Nat × Nat)
  /-- The first of them is under way. R658. Reset: clear. -/
  takeBusy : Bool
  /-- What they are for. R658, R661. Reset: idle. -/
  takeStep : TakeStep
  /-- Takeover running, with its groups. R661. Reset: none. -/
  takeover : Option Nat
  /-- Groups taken over and not yet opened. R663. Reset: 0. -/
  taken : Nat
  /-- YIELD flag. R652. Reset: 0. -/
  yield_ : Bool
  /-- Last WAKE_ACK owed. R682. Reset: clear. -/
  oweAck : Bool
  /-- Sideband SEQ, 8 bits. R639. Reset: DESIGN CHOICE 0 (entry 7). -/
  sideSeq : Nat
  /-- Last sideband frame sent, 10 B (the model's own output). Reset: none. -/
  lastSide : List Byte
  /-- The peer's last stock report. R618. Reset: none. -/
  health : List Byte
  /-- Drive commands held on a reservation conflict. R659. Reset: none. -/
  held : List Nat
  deriving DecidableEq, Repr

/-- The power modes (R672). -/
inductive PowerMode where
  | active | trim | doze | dormant
  deriving DecidableEq, Repr

/-- The phases of a mode transition (R692, Table 18-5). -/
inductive Phase where
  | steady | waiting | entering | exiting
  deriving DecidableEq, Repr

/-- An island (R666, R669). -/
structure Island where
  /-- Voltage, mV. R692. Reset: 0. -/
  volt : Nat
  /-- Frequency in 1/1,024 MHz. R692. Reset: 0. -/
  freq : Nat
  /-- THROTTLED. R670. Reset: 0. -/
  throttled : Bool
  /-- GATED. R692. Reset: 0. -/
  gated : Bool
  /-- Consecutive periods in which every canary passed with margin. R669. Reset: 0. -/
  passes : Nat
  /-- Periods since the last raise of frequency. R670. Reset: 0. -/
  periods : Nat
  deriving DecidableEq, Repr

/-- PWR: the power manager (18_power_modes_and_islands.md), beside its registers. -/
structure Pwr where
  /-- CUR. R692. Reset: Active. -/
  cur : PowerMode
  /-- TARGET. R692. Reset: Active. -/
  target : PowerMode
  /-- PENDING with PENDING_VALID. R680. Reset: none. -/
  pending : Option PowerMode
  /-- PHASE. R692. Reset: STEADY. -/
  phase : Phase
  /-- Time of entry to the phase. R677. Reset: 0. -/
  since : Nat
  /-- Drain's checkpoint: 0 not begun, 1 running, 2 taken. R676. Reset: 0. -/
  drainCkpt : Nat
  /-- Sources present at the start of the exit, with REQUEST in bit 7. R684. Reset: 0. -/
  cause : Nat
  /-- Wake causes present now that only an input shows: SMB_ALERT_N low. R681. Reset: 0. -/
  smbAlert : Bool
  /-- Islands. R666. Reset: stopped until BOOT_START. -/
  islands : Tab Island
  /-- Last AVSBus update. R671. Reset: 0. -/
  avsAt : Nat
  /-- AVSBus transactions not acknowledged in a row. R733. Reset: 0. -/
  avsMiss : Nat
  deriving DecidableEq, Repr

/-- A kept ledger reply of the management port (R700). -/
structure KeptReply where
  /-- Requester's IP address bytes. R700. -/
  src : List Byte
  /-- Requester's UDP port, 16 bits. R700. -/
  port : Nat
  /-- REQUEST_ID, 32 bits. R700. -/
  id : Nat
  /-- The reply message. R700. -/
  bytes : List Byte
  /-- Time it was made. R700. -/
  at_ : Nat
  deriving DecidableEq, Repr

/-- The self-test that runs (R259, R715). -/
structure SelfTest where
  /-- Test 1 short, 2 extended. R259. -/
  kind : Nat
  /-- Path code of Table 19-12: 0 data port, 1 management port, 2 and 3 SMBus, 4 Wardens. R722. -/
  path : Nat
  /-- Endpoint that started it, or 0. R722. -/
  endpoint : Nat
  /-- Start time. R722. -/
  start : Nat
  /-- Failing items found: area code and instance, in order. R716. -/
  found : List (Nat × Nat)
  /-- Areas, or stripes, done. R717. -/
  done : Nat
  /-- Areas, or stripes, to do. R717. -/
  total : Nat
  deriving DecidableEq, Repr

/-- An entry of the self-test log page (R718, R722). -/
structure TestEntry where
  /-- Result, 32 bits, Table 06-7. R722. -/
  result : Word
  /-- Start time. R722. -/
  start : Nat
  /-- End time. R722. -/
  stop : Nat
  /-- Path code. R722. -/
  path : Nat
  /-- Endpoint. R722. -/
  endpoint : Nat
  /-- Instance of the first failing item. R722. -/
  inst : Nat
  deriving DecidableEq, Repr

/-- MGT: ledger access, Tally, self-tests, firmware staging and debug tokens (19_management.md), beside registers. -/
structure Mgt where
  /-- Tally ring, 4,096 records of 64 B by slot. R708. Reset: none. -/
  tally : Tab (BitVec 512)
  /-- SEQ of the next record, 64 bits. R708. Reset: 0. -/
  seq : Nat
  /-- READ, slot of the oldest unread record. R711. Reset: 0. -/
  read : Nat
  /-- UNREAD, 0 to 4,096. R711. Reset: 0. -/
  unread : Nat
  /-- Snapshot of MGT_TALLY_REC, 64 B. R712. Reset: 0. -/
  snap : BitVec 512
  /-- Records that wait for an event frame, oldest first. R714. Reset: none. -/
  waiting : List (BitVec 512)
  /-- FRAME_SEQ of the next event frame, 32 bits. R714. Reset: 0. -/
  frameSeq : Nat
  /-- Kept replies, oldest first, at most 64. R700. Reset: none. -/
  replies : List KeptReply
  /-- Last reply of each SMBus port; none as a byte count of 0. R702. Reset: none. -/
  smb : Tab (List Byte)
  /-- Self-test running. R715. Reset: none. -/
  test : Option SelfTest
  /-- Self-test log, newest first, at most 8. R722. Reset: empty. -/
  log : List TestEntry
  /-- Firmware area append offset. R719. Reset: 0. -/
  fwOffset : Nat
  /-- A write ran beyond 1 MiB since OPEN. R719. Reset: clear. -/
  fwOver : Bool
  /-- Debug token buffer. R720. Reset: empty. -/
  dbg : List Byte
  deriving DecidableEq, Repr

/-- The phase of the part around its resets (R730, R735, R736, Table 08-5). -/
inductive ChipPhase where
  /-- Held in reset, or booting: BOOT_START ends it. R730. -/
  | held
  /-- Running from the reset on. R737. -/
  | running
  /-- Dumping before a reset of the cause given. R735. -/
  | resetDump (cause : Nat)
  /-- Dumping after a power-loss assertion. R343. -/
  | lossDump
  /-- POWER_HOLD. R344. -/
  | powerHold
  deriving DecidableEq, Repr

/-- A GLB_SPI command that runs (R742, R748). -/
structure SpiRun where
  /-- 1 READ, 2 PROGRAM, 3 ERASE_4K, 4 ERASE_64K. R748. -/
  cmd : Nat
  /-- Flash byte address. R748. -/
  addr : Nat
  /-- LEN. R748. -/
  len : Nat
  /-- Bytes to be programmed. R748. -/
  data : List Byte
  deriving DecidableEq, Repr

/-- GLB: reset, boot, thermal and flash access (20_electrical_and_package.md), beside its registers. -/
structure Glb where
  /-- Phase. R730. Reset: held. -/
  phase : ChipPhase
  /-- A reset request recorded while a dump or POWER_HOLD runs. R736. Reset: clear. -/
  wanted : Bool
  /-- Pin PG_IN. R730. Reset: DESIGN CHOICE low (entry 8). -/
  pgIn : Bool
  /-- Pin RESET_N. R730. Reset: DESIGN CHOICE low (entry 8). -/
  resetN : Bool
  /-- PG_IN low has acted as a power loss. R731. Reset: clear. -/
  pgLoss : Bool
  /-- GLB_SPI command running. R748. Reset: none. -/
  spi : Option SpiRun
  deriving DecidableEq, Repr

/-- One-time-programmable fuses: they survive every reset (R58, R735). -/
structure Fuses where
  /-- Signing key slots 0 to 3. R58. Reset: kept; DESIGN CHOICE the slots unprogrammed (entry 9). -/
  keys : Tab KeySlot
  /-- Device transport key, 32 B. R481. Reset: kept; DESIGN CHOICE zeros (entry 9). -/
  dtk : List Byte
  deriving DecidableEq, Repr

/-- The boot flash: it survives every reset (R735, R740). -/
structure Flash where
  /-- Size in bytes, 32 MiB to 256 MiB. R740. Reset: kept; DESIGN CHOICE 32 MiB (entry 9). -/
  size : Nat
  /-- Contents; an unlisted byte is erased, 0xFF. R741. Reset: kept; nothing listed. -/
  mem : Mem
  deriving DecidableEq, Repr

/-- The state of the K24. -/
structure State where
  /-- Registers by address, 32 bits each: an unlisted register holds its reset value of the register tables (R5, R7).
  Reset: nothing listed. -/
  regs : Tab Word
  /-- High-word snapshots of 64-bit pairs by the address of the low word. R8, R9. Reset: none. -/
  snaps : Tab Word
  /-- Held low words of writable pairs by address. R11. Reset: none. -/
  heldLow : Tab Word
  /-- What the last read command answered with, most significant byte of a register first: a value that leaves the part, held
  by the model (R7, R702). Reset: DESIGN CHOICE none (entry 35). -/
  answer : List Byte
  /-- Shelf time, 64-bit count of ns. R4. Reset: 0. -/
  now : Nat
  /-- The model's own counter of free values taken (assumption 1). Reset: DESIGN CHOICE 0 (entry 1). -/
  free : Nat
  /-- Multiple of its period that each periodic row has last served, as a time, by the model's own number of the row. Reset: 0. -/
  served : Tab Nat
  /-- Inventory loader. -/
  inv : Inv
  /-- Cellar, Pantry and Hoist. -/
  hst : Hst
  /-- Transport. -/
  trn : Trn
  /-- Window unit. -/
  win : Win
  /-- Command queue engine. -/
  cq : Cq
  /-- Volume mapper. -/
  vol : Vol
  /-- Stripe engines and journal controller. -/
  str : Str
  /-- Attic. -/
  attic : Attic
  /-- Rebuild, patrol and reshape. -/
  rbd : Rbd
  /-- Read service unit. -/
  rsv : Rsv
  /-- Cipher engines and key store. -/
  cip : Cip
  /-- Ethernet ports. -/
  mac : Mac
  /-- Traffic control. -/
  tc : Tc
  /-- Drive ports. -/
  drv : Drv
  /-- The drives in the bays, by bay: the outside world that drive commands meet. Reset: kept; nothing listed
  (DESIGN CHOICE, assumption 11). -/
  drives : Tab Drive
  /-- Bay power die. -/
  bay : Bay
  /-- Warden complex and Stocktake. -/
  wdn : Wdn
  /-- Peer agent. -/
  peer : Peer
  /-- Power manager. -/
  pwr : Pwr
  /-- Management unit. -/
  mgt : Mgt
  /-- Reset, boot and flash access. -/
  glb : Glb
  /-- Fuses. -/
  fuses : Fuses
  /-- Boot flash. -/
  flash : Flash
  /-- The commands that wait, first in, first out. Reset: empty. -/
  pending : List Instr
  deriving DecidableEq, Repr

/-- How a step can stop with a fault: no command of the K24 does (the spec gives every row an effect). -/
inductive Fault where
  deriving DecidableEq, Repr

/-- How a step can refuse a command. -/
inductive Refusal where
  /-- Raised by an arm of `exec` whose command has no meaning yet; safe: no state is claimed. -/
  | notModelled (mnemonic : String)
  deriving DecidableEq, Repr

/-- The inventory loader after reset: EMPTY, no load open (Table 02-10). -/
def Inv.reset : Inv where
  state := .empty
  prior := .empty
  path := none
  buffer := []
  lastData := 0
  sections := []
  flags := 0
  lock := false

/-- Cellar, Pantry and Hoist after reset: nothing stored, nothing queued (R87, R109). -/
def Hst.reset : Hst where
  pcs := []
  withdrawn := []
  pool := []
  sliceMap := []
  migration := []
  mem := []
  poison := []
  badSlices := []
  goodCells := []
  voq := []
  wbuf := []
  rq := []
  inGrant := []
  inAccept := []
  egGrant := []
  egAccept := []
  acks := []
  egress := []
  flows := []
  freedFlows := []
  nextFlow := 0
  pantryPoison := []
  pantryCe := []
  pantrySpare := []
  pantrySpent := []
  pantryHalf := none

/-- Transport after reset: every SA INVALID, no message (R145). -/
def Trn.reset : Trn where
  sa := []
  aux := []
  tests := []
  rx := []
  tx := []
  held := []
  blocked := []
  nextKey := 0
  probeSeq := 0

/-- Window unit after reset: every key FREE with GENERATION 1 (R186). -/
def Win.reset : Win where
  keys := []
  accesses := []
  nextAccess := 0
  held := []
  fences := []

/-- Command queue engine after reset: no endpoint enabled, no queue, every slot FREE (R226). -/
def Cq.reset : Cq where
  eps := []
  queues := []
  incarnation := []
  slots := []
  intake := []
  order := 0
  run := none

/-- Volume mapper after reset (R285, R298, R307). -/
def Vol.reset : Vol where
  vols := []
  grps := []
  exts := []
  access := []
  cached := []
  waitingExt := none
  deactivating := none
  init := none

/-- Stripe engines and journal controller after reset (R366). -/
def Str.reset : Str where
  waiting := []
  live := []
  nextName := 0
  buffers := []
  clocks := []
  ckpt := none
  ckptDue := false
  copies := []
  lastCkpt := 0
  shutdown := false
  replayBusy := false
  replayed := false
  replaySource := (0, 0)
  replayLeft := []
  prior := none

/-- A new Attic: journal id 0 and nothing recorded; at a device reset the Attic is kept instead (R340). Floors
of 0 and no staged image are DESIGN CHOICE, assumption 161. -/
def Attic.blank : Attic where
  journalId := 0
  journalGen := 0
  clean := false
  dumpSealed := false
  dump := []
  sealed := none
  intents := []
  lost := []
  saMarks := []
  clockMarks := []
  resident := []
  staged := none
  floor := 0
  fwFloor := 0
  peerIntents := []
  peerClocks := []
  peerLost := []
  retired := []
  withdrawn := []
  sliceMap := []
  pool := []
  rebuild := []
  patrols := []
  kwk := none
  pipes := []
  cores := []

/-- Rebuild, patrol and reshape after reset (R415). -/
def Rbd.reset : Rbd where
  targets := []
  patrols := []
  errors := []
  written := []
  reshape := none
  losses := []

/-- Read service after reset (R428). -/
def Rsv.reset : Rsv where
  dir := []
  ghost := []
  slots := 0
  pending := []
  dests := []
  lat := []
  serial := 0
  nextName := 0

/-- Cipher after reset: slots of kinds 1 to 3 EMPTY (R484). -/
def Cip.reset : Cip where
  sa := []
  vol := []
  job := []
  install := none
  jobs := []
  results := []
  present := []
  zeroing := false
  checks := []
  marking := []

/-- Ethernet ports after reset (R529). -/
def Mac.reset : Mac where
  sps := []
  exact := []
  speed := 0
  mdio := none
  nextName := 0

/-- Traffic control after reset (R553). -/
def Tc.reset : Tc where
  meters := []
  nodes := []
  hist := []

/-- Drive ports after reset: EMPTY (R566). -/
def Drv.reset : Drv where
  ports := []
  cmds := []
  nextName := 0

/-- Bay power die after reset: every sub-channel OFF (R584). -/
def Bay.reset : Bay where
  subs := []
  overLimit := []
  tel := (0, 0, 0, 0, 0)
  powerLoss := false
  lineAt := 0

/-- Warden complex after reset (R598, R600). -/
def Wdn.reset : Wdn where
  cores := []
  mode := .triple
  startReason := 0
  entry := 0
  fwSerial := 0
  fwSlot := none
  recovery := false
  events := []
  shared := []
  disagreements := []
  restarts := []
  ues := []
  testsFailed := 0
  testsRun := 0
  badSpares := []
  reportSeq := 0
  report := []
  reportSnap := []
  staging := []
  staged := []

/-- Peer agent after reset: SOLO (R665). -/
def Peer.reset : Peer where
  state := .solo
  byArbitration := false
  own := 0
  groups := 0
  linkAt := none
  linkLost := true
  sideAt := none
  sideLost := true
  flags := 0
  peerOwn := 0
  arbSet := 0
  arb := none
  arbResult := (0, 0, 0)
  won := false
  txSeq := 1
  rxSeq := 0
  unacked := []
  creditWait := []
  credit := 0
  startSent := false
  startGot := false
  mirrorHeld := false
  mirrorEnd := none
  told := []
  copying := []
  retriedMirror := []
  mirror := []
  journalId := 0
  giving := none
  offer := none
  takes := []
  takeBusy := false
  takeStep := .idle
  takeover := none
  taken := 0
  yield_ := false
  oweAck := false
  sideSeq := 0
  lastSide := []
  health := []
  held := []

/-- Power manager after reset: Active, STEADY (R692). -/
def Pwr.reset : Pwr where
  cur := .active
  target := .active
  pending := none
  phase := .steady
  since := 0
  drainCkpt := 0
  cause := 0
  smbAlert := false
  islands := []
  avsAt := 0
  avsMiss := 0

/-- Management unit after reset: an empty Tally (R708). -/
def Mgt.reset : Mgt where
  tally := []
  seq := 0
  read := 0
  unread := 0
  snap := 0
  waiting := []
  frameSeq := 0
  replies := []
  smb := []
  test := none
  log := []
  fwOffset := 0
  fwOver := false
  dbg := []

/-- Reset and boot after a power-on reset: held, both pins low (R730). -/
def Glb.reset : Glb where
  phase := .held
  wanted := false
  pgIn := false
  resetN := false
  pgLoss := false
  spi := none

/-- The K24 right after power-on reset, with blank fuses, flash and Attic and no drives seen (R735; entries 1 to 9). -/
def State.reset : State where
  regs := []
  snaps := []
  heldLow := []
  answer := []
  now := 0
  free := 0
  served := []
  inv := .reset
  hst := .reset
  trn := .reset
  win := .reset
  cq := .reset
  vol := .reset
  str := .reset
  attic := .blank
  rbd := .reset
  rsv := .reset
  cip := .reset
  mac := .reset
  tc := .reset
  drv := .reset
  drives := []
  bay := .reset
  wdn := .reset
  peer := .reset
  pwr := .reset
  mgt := .reset
  glb := .reset
  fuses := { keys := [], dtk := List.replicate 32 0 }
  flash := { size := 0x2000000, mem := [] }
  pending := []

end Sys2Proof.Machine
end

