-- ==== Sys2Proof/Machine/Ops.lean ====
section
/-!
DEFINITION. The named operations over tables, bit fields, byte strings, stores and registers that every meaning uses.
-/

namespace Sys2Proof.Machine

/-! ### Sparse tables -/

/-- The entry at a key. -/
def Tab.find? {α : Type} (k : Nat) : Tab α → Option α
  | [] => none
  | (j, v) :: t => if j = k then some v else Tab.find? k t

/-- The entry at a key, or the default of the table. -/
def Tab.getD {α : Type} (k : Nat) (d : α) (t : Tab α) : α := (Tab.find? k t).getD d

/-- The table with an entry set, keys kept rising. -/
def Tab.set {α : Type} (k : Nat) (v : α) : Tab α → Tab α
  | [] => [(k, v)]
  | (j, w) :: t =>
    if k < j then (k, v) :: (j, w) :: t
    else if j = k then (k, v) :: t
    else (j, w) :: Tab.set k v t

/-- The table without the entry at a key. -/
def Tab.erase {α : Type} (k : Nat) : Tab α → Tab α
  | [] => []
  | (j, w) :: t => if j = k then Tab.erase k t else (j, w) :: Tab.erase k t

/-- Write an entry in canonical form: an entry equal to the table's default is not listed. -/
def Tab.put {α : Type} [DecidableEq α] (d : α) (k : Nat) (v : α) (t : Tab α) : Tab α :=
  if v = d then Tab.erase k t else Tab.set k v t

/-- Change the entry at a key, read with the default where it is not listed. -/
def Tab.modify {α : Type} (d : α) (k : Nat) (f : α → α) (t : Tab α) : Tab α := Tab.set k (f (Tab.getD k d t)) t

/-- The canonical form: keys strictly rising. -/
def Tab.sorted {α : Type} : Tab α → Bool
  | [] => true
  | [_] => true
  | (j, _) :: (k, v) :: t => decide (j < k) && Tab.sorted ((k, v) :: t)

/-! ### Bit fields of words and of table entries (R2: little-endian) -/

/-- Bits lo to lo + n - 1 as a number. -/
def getBits {m : Nat} (x : BitVec m) (lo n : Nat) : Nat := (x >>> lo).toNat % 2 ^ n

/-- The ones of a field. -/
def fieldMask (m lo n : Nat) : BitVec m := BitVec.ofNat m (2 ^ n - 1) <<< lo

/-- The value with bits lo to lo + n - 1 replaced. -/
def putBits {m : Nat} (x : BitVec m) (lo n v : Nat) : BitVec m :=
  (x &&& ~~~(fieldMask m lo n)) ||| (BitVec.ofNat m (v % 2 ^ n) <<< lo)

/-- Bytes off to off + n - 1 of a little-endian structure, as a number (R2). -/
def getBytes {m : Nat} (x : BitVec m) (off n : Nat) : Nat := getBits x (8 * off) (8 * n)

/-- The structure with bytes off to off + n - 1 replaced (R2). -/
def putBytes {m : Nat} (x : BitVec m) (off n v : Nat) : BitVec m := putBits x (8 * off) (8 * n) v

/-- One bit of a structure. -/
def bit {m : Nat} (x : BitVec m) (i : Nat) : Bool := x.getLsbD i

/-- A truth value as a bit. -/
def ofBool (b : Bool) : Nat := if b then 1 else 0

/-! ### Byte strings -/

/-- A little-endian number from its bytes (R2). -/
def leNat : List Byte → Nat
  | [] => 0
  | b :: t => b.toNat + 256 * leNat t

/-- The n little-endian bytes of a number (R2). -/
def leBytes : Nat → Nat → List Byte
  | 0, _ => []
  | n + 1, v => BitVec.ofNat 8 v :: leBytes n (v / 256)

/-- A big-endian number from its bytes (R3). -/
def beNat (l : List Byte) : Nat := l.foldl (fun a b => a * 256 + b.toNat) 0

/-- The n big-endian bytes of a number (R3). -/
def beBytes (n v : Nat) : List Byte := (leBytes n v).reverse

/-- n bytes from an offset. -/
def slice (l : List Byte) (off n : Nat) : List Byte := (l.drop off).take n

/-- The little-endian number of n bytes at an offset. -/
def leAt (l : List Byte) (off n : Nat) : Nat := leNat (slice l off n)

/-- The big-endian number of n bytes at an offset. -/
def beAt (l : List Byte) (off n : Nat) : Nat := beNat (slice l off n)

/-- A byte string padded with zeros, or cut, to n bytes. -/
def padTo (n : Nat) (l : List Byte) : List Byte := l.take n ++ List.replicate (n - l.length) 0

/-- A structure of m bits from little-endian bytes (R2). -/
def ofBytes (m : Nat) (l : List Byte) : BitVec m := BitVec.ofNat m (leNat l)

/-- The n bytes of a structure (R2). -/
def toBytes {m : Nat} (n : Nat) (x : BitVec m) : List Byte := leBytes n x.toNat

/-- Characters as ASCII bytes. -/
def ascii (s : String) : List Byte := s.toList.map fun c => BitVec.ofNat 8 c.toNat

/-! ### Byte stores -/

/-- One byte of a store whose unlisted bytes read d. -/
def Mem.byte (d : Byte) (m : Mem) (a : Nat) : Byte := Tab.getD a d m

/-- Write one byte, keeping the canonical form. -/
def Mem.setByte (d : Byte) (m : Mem) (a : Nat) (v : Byte) : Mem := Tab.put d a v m

/-- Read n bytes from an address. -/
def Mem.read (d : Byte) (m : Mem) : Nat → Nat → List Byte
  | _, 0 => []
  | a, n + 1 => Mem.byte d m a :: Mem.read d m (a + 1) n

/-- Write bytes from an address. -/
def Mem.write (d : Byte) (m : Mem) : Nat → List Byte → Mem
  | _, [] => m
  | a, b :: t => Mem.write d (Mem.setByte d m a b) (a + 1) t

/-- The canonical form of a store: addresses strictly rising, no byte equal to the unlisted value. -/
def Mem.wf (d : Byte) (m : Mem) : Bool := Tab.sorted m && m.all fun c => decide (c.2 ≠ d)

/-! ### Registers (R5 to R12) -/

/-- Whether a descriptor covers the register at an aligned address. -/
def RegDesc.hit (d : RegDesc) (a : Nat) : Bool :=
  decide (d.addr ≤ a) && decide (a < d.addr + d.count * d.stride) &&
    decide ((a - d.addr) % d.stride < if d.pair then 8 else 4)

/-- The descriptor of the register at an address, if the address is not reserved (R6). -/
def regDesc (a : Nat) : Option RegDesc := (regsOf a).find? fun d => d.hit a

/-- The reset value of a register as its table gives it; a reserved address reads 0 (R6). -/
def regReset (a : Nat) : Word :=
  match regDesc a with
  | some d => d.fields.foldl (fun w f => putBits w f.lo f.width f.reset) 0
  | none => 0

/-- The stored word of a register. -/
def State.word (s : State) (a : Nat) : Word := Tab.getD a (regReset a) s.regs

/-- Store a register's word; a word equal to the reset value is not listed. -/
def State.setWord (s : State) (a : Nat) (w : Word) : State :=
  { s with regs := Tab.put (regReset a) a w s.regs }

/-- A field of a register. -/
def State.fld (s : State) (f : Fld) : Nat := getBits (s.word f.addr) f.lo f.width

/-- Set a field of a register. -/
def State.setFld (s : State) (f : Fld) (v : Nat) : State :=
  s.setWord f.addr (putBits (s.word f.addr) f.lo f.width v)

/-- A one-bit field is 1. -/
def State.is (s : State) (f : Fld) : Bool := s.fld f == 1

/-- A 64-bit pair by the address of its low word (R8). -/
def State.pair (s : State) (a : Nat) : Nat := (s.word a).toNat + 2 ^ 32 * (s.word (a + 4)).toNat

/-- Set a 64-bit pair. -/
def State.setPair (s : State) (a v : Nat) : State :=
  (s.setWord a (BitVec.ofNat 32 v)).setWord (a + 4) (BitVec.ofNat 32 (v / 2 ^ 32))

/-- Count n events in a 64-bit counter (R8). -/
def State.bump (s : State) (a : Nat) (n : Nat := 1) : State := s.setPair a (s.pair a + n)

/-- Count in a field that saturates at its largest value (R705). -/
def State.satAdd (s : State) (f : Fld) (n : Nat := 1) : State :=
  s.setFld f (min (s.fld f + n) (2 ^ f.width - 1))

/-- The larger of a field and a value (a high-water mark, R705). -/
def State.maxFld (s : State) (f : Fld) (v : Nat) : State := s.setFld f (max (s.fld f) (min v (2 ^ f.width - 1)))

/-! ### Changing one block -/

/-- Change the inv block alone. -/
def State.onInv (s : State) (f : Inv → Inv) : State := { s with inv := f s.inv }

/-- Change the hst block alone. -/
def State.onHst (s : State) (f : Hst → Hst) : State := { s with hst := f s.hst }

/-- Change the trn block alone. -/
def State.onTrn (s : State) (f : Trn → Trn) : State := { s with trn := f s.trn }

/-- Change the win block alone. -/
def State.onWin (s : State) (f : Win → Win) : State := { s with win := f s.win }

/-- Change the cq block alone. -/
def State.onCq (s : State) (f : Cq → Cq) : State := { s with cq := f s.cq }

/-- Change the vol block alone. -/
def State.onVol (s : State) (f : Vol → Vol) : State := { s with vol := f s.vol }

/-- Change the str block alone. -/
def State.onStr (s : State) (f : Str → Str) : State := { s with str := f s.str }

/-- Change the attic block alone. -/
def State.onAttic (s : State) (f : Attic → Attic) : State := { s with attic := f s.attic }

/-- Change the rbd block alone. -/
def State.onRbd (s : State) (f : Rbd → Rbd) : State := { s with rbd := f s.rbd }

/-- Change the rsv block alone. -/
def State.onRsv (s : State) (f : Rsv → Rsv) : State := { s with rsv := f s.rsv }

/-- Change the cip block alone. -/
def State.onCip (s : State) (f : Cip → Cip) : State := { s with cip := f s.cip }

/-- Change the mac block alone. -/
def State.onMac (s : State) (f : Mac → Mac) : State := { s with mac := f s.mac }

/-- Change the tc block alone. -/
def State.onTc (s : State) (f : Tc → Tc) : State := { s with tc := f s.tc }

/-- Change the drv block alone. -/
def State.onDrv (s : State) (f : Drv → Drv) : State := { s with drv := f s.drv }

/-- Change the bay block alone. -/
def State.onBay (s : State) (f : Bay → Bay) : State := { s with bay := f s.bay }

/-- Change the wdn block alone. -/
def State.onWdn (s : State) (f : Wdn → Wdn) : State := { s with wdn := f s.wdn }

/-- Change the peer block alone. -/
def State.onPeer (s : State) (f : Peer → Peer) : State := { s with peer := f s.peer }

/-- Change the pwr block alone. -/
def State.onPwr (s : State) (f : Pwr → Pwr) : State := { s with pwr := f s.pwr }

/-- Change the mgt block alone. -/
def State.onMgt (s : State) (f : Mgt → Mgt) : State := { s with mgt := f s.mgt }

/-- Change the glb block alone. -/
def State.onGlb (s : State) (f : Glb → Glb) : State := { s with glb := f s.glb }

/-! ### Steps by cases -/

/-- A change made only if a condition holds. -/
def State.when (s : State) (b : Bool) (f : State → State) : State := if b then f s else s

/-- Fold a change over a list. -/
def State.each {α : Type} (s : State) (l : List α) (f : State → α → State) : State := l.foldl f s

/-- A command that names something: its change, or none where it names nothing. -/
def State.with? {α : Type} (s : State) (o : Option α) (f : State → α → State) : State :=
  match o with
  | some a => f s a
  | none => s

/-- A free value of w bits: the next one, and the state that has taken it (assumption 1). -/
def State.draw (s : State) (w : Nat) : Nat × State :=
  ((Config.freeValue s.free).toNat % 2 ^ w, { s with free := s.free + 1 })

/-- A free choice and the state that has taken it (assumption 1). -/
def State.drawBool (s : State) : Bool × State := (Config.freeBool s.free, { s with free := s.free + 1 })

/-- Replace the first element that satisfies a test. -/
def replaceFirst {α : Type} (p : α → Bool) (f : α → α) : List α → List α
  | [] => []
  | a :: t => if p a then f a :: t else a :: replaceFirst p f t

/-- Insert a number into a rising list without repeats. -/
def insertNat (n : Nat) : List Nat → List Nat
  | [] => [n]
  | m :: t => if n < m then n :: m :: t else if n = m then m :: t else m :: insertNat n t

/-- 24 h of shelf time in ns. -/
def day : Nat := 86400 * 1000000000

end Sys2Proof.Machine
end

