-- ==== Sys2Proof/Machine/Crypto.lean ====
section
/-!
DEFINITION. The checks and ciphers the spec names by their standards: CRC-16, CRC-32C and CRC-32, SHA-384, ECDSA P-384,
AES with its modes, and the field of the P and Q blocks. The algorithms are those of the standards the rules cite
(assumption 12, PRESUMED).
-/

namespace Sys2Proof.Machine

/-! ### Cyclic redundancy checks -/

/-- One byte of the CRC-16 of R79: polynomial 0x1021, most significant bit first. -/
def crc16Byte (c : BitVec 16) (b : Byte) : BitVec 16 :=
  (List.range 8).foldl (fun c _ => if c.msb then (c <<< 1) ^^^ 0x1021 else c <<< 1) (c ^^^ (b.zeroExtend 16 <<< 8))

/-- The CRC-16 of R79: initial value 0xFFFF, no final inversion. -/
def crc16 (l : List Byte) : BitVec 16 := l.foldl crc16Byte 0xFFFF

/-- One byte of a bit-reflected CRC with a reflected polynomial. -/
def crcReflByte (poly : BitVec 32) (c : BitVec 32) (b : Byte) : BitVec 32 :=
  (List.range 8).foldl (fun c _ => if bit c 0 then (c >>> 1) ^^^ poly else c >>> 1) (c ^^^ b.zeroExtend 32)

/-- CRC-32C of R292: polynomial 0x1EDC_6F41 reflected, initial value and final XOR 0xFFFF_FFFF. -/
def crc32c (l : List Byte) : BitVec 32 := l.foldl (crcReflByte 0x82F63B78) 0xFFFFFFFF ^^^ 0xFFFFFFFF

/-- CRC-32 of R521 and of the frame check sequence: polynomial 0x04C1_1DB7 reflected, initial value and final XOR
0xFFFF_FFFF. -/
def crc32 (l : List Byte) : BitVec 32 := l.foldl (crcReflByte 0xEDB88320) 0xFFFFFFFF ^^^ 0xFFFFFFFF

/-! ### SHA-384 (FIPS 180-4) -/

/-- Round constants of SHA-384 (FIPS 180-4), part 0. -/
def shaK0 : List (BitVec 64) := [
  0x428A2F98D728AE22, 0x7137449123EF65CD, 0xB5C0FBCFEC4D3B2F, 0xE9B5DBA58189DBBC,
  0x3956C25BF348B538, 0x59F111F1B605D019, 0x923F82A4AF194F9B, 0xAB1C5ED5DA6D8118,
  0xD807AA98A3030242, 0x12835B0145706FBE, 0x243185BE4EE4B28C, 0x550C7DC3D5FFB4E2,
  0x72BE5D74F27B896F, 0x80DEB1FE3B1696B1, 0x9BDC06A725C71235, 0xC19BF174CF692694,
  0xE49B69C19EF14AD2, 0xEFBE4786384F25E3, 0x0FC19DC68B8CD5B5, 0x240CA1CC77AC9C65]

/-- Round constants of SHA-384 (FIPS 180-4), part 1. -/
def shaK1 : List (BitVec 64) := [
  0x2DE92C6F592B0275, 0x4A7484AA6EA6E483, 0x5CB0A9DCBD41FBD4, 0x76F988DA831153B5,
  0x983E5152EE66DFAB, 0xA831C66D2DB43210, 0xB00327C898FB213F, 0xBF597FC7BEEF0EE4,
  0xC6E00BF33DA88FC2, 0xD5A79147930AA725, 0x06CA6351E003826F, 0x142929670A0E6E70,
  0x27B70A8546D22FFC, 0x2E1B21385C26C926, 0x4D2C6DFC5AC42AED, 0x53380D139D95B3DF,
  0x650A73548BAF63DE, 0x766A0ABB3C77B2A8, 0x81C2C92E47EDAEE6, 0x92722C851482353B]

/-- Round constants of SHA-384 (FIPS 180-4), part 2. -/
def shaK2 : List (BitVec 64) := [
  0xA2BFE8A14CF10364, 0xA81A664BBC423001, 0xC24B8B70D0F89791, 0xC76C51A30654BE30,
  0xD192E819D6EF5218, 0xD69906245565A910, 0xF40E35855771202A, 0x106AA07032BBD1B8,
  0x19A4C116B8D2D0C8, 0x1E376C085141AB53, 0x2748774CDF8EEB99, 0x34B0BCB5E19B48A8,
  0x391C0CB3C5C95A63, 0x4ED8AA4AE3418ACB, 0x5B9CCA4F7763E373, 0x682E6FF3D6B2B8A3,
  0x748F82EE5DEFB2FC, 0x78A5636F43172F60, 0x84C87814A1F0AB72, 0x8CC702081A6439EC]

/-- Round constants of SHA-384 (FIPS 180-4), part 3. -/
def shaK3 : List (BitVec 64) := [
  0x90BEFFFA23631E28, 0xA4506CEBDE82BDE9, 0xBEF9A3F7B2C67915, 0xC67178F2E372532B,
  0xCA273ECEEA26619C, 0xD186B8C721C0C207, 0xEADA7DD6CDE0EB1E, 0xF57D4F7FEE6ED178,
  0x06F067AA72176FBA, 0x0A637DC5A2C898A6, 0x113F9804BEF90DAE, 0x1B710B35131C471B,
  0x28DB77F523047D84, 0x32CAAB7B40C72493, 0x3C9EBE0A15C9BEBC, 0x431D67C49C100D4C,
  0x4CC5D4BECB3E42B6, 0x597F299CFC657E2A, 0x5FCB6FAB3AD6FAEC, 0x6C44198C4A475817]

/-- Round constants of SHA-384 (FIPS 180-4). -/
def shaK : List (BitVec 64) := shaK0 ++ shaK1 ++ shaK2 ++ shaK3

/-- Initial hash value of SHA-384. -/
def shaIv : List (BitVec 64) := [0xCBBB9D5DC1059ED8, 0x629A292A367CD507, 0x9159015A3070DD17, 0x152FECD8F70E5939, 0x67332667FFC00B31, 0x8EB44A8768581511, 0xDB0C2E0D64F98FA7, 0x47B5481DBEFA4FA4]

/-- The padded message: one 1 bit, zeros, and the length in bits in 128 bits. -/
def shaPad (l : List Byte) : List Byte :=
  l ++ 0x80 :: List.replicate ((111 + 128 - l.length % 128) % 128) 0 ++ beBytes 16 (8 * l.length)

/-- The message schedule, newest word first. -/
def shaSchedule (w : List (BitVec 64)) : Nat → List (BitVec 64)
  | 0 => w.reverse
  | n + 1 =>
    let l := shaSchedule w n
    let x := l.getD 1 0
    let y := l.getD 14 0
    let s1 := x.rotateRight 19 ^^^ x.rotateRight 61 ^^^ (x >>> 6)
    let s0 := y.rotateRight 1 ^^^ y.rotateRight 8 ^^^ (y >>> 7)
    (s1 + l.getD 6 0 + s0 + l.getD 15 0) :: l

/-- One round on the working variables a to h. -/
def shaRound (v : List (BitVec 64)) (kw : BitVec 64 × BitVec 64) : List (BitVec 64) :=
  match v with
  | [a, b, c, d, e, f, g, h] =>
    let t1 := h + (e.rotateRight 14 ^^^ e.rotateRight 18 ^^^ e.rotateRight 41) + ((e &&& f) ^^^ (~~~e &&& g)) + kw.1 + kw.2
    let t2 := (a.rotateRight 28 ^^^ a.rotateRight 34 ^^^ a.rotateRight 39) + ((a &&& b) ^^^ (a &&& c) ^^^ (b &&& c))
    [t1 + t2, a, b, c, d + t1, e, f, g]
  | _ => v

/-- One 128 B block. -/
def shaBlock (h : List (BitVec 64)) (blk : List Byte) : List (BitVec 64) :=
  let w := (List.range 16).map fun i => BitVec.ofNat 64 (beAt blk (8 * i) 8)
  let v := (shaK.zip (shaSchedule w 64).reverse).foldl shaRound h
  (h.zip v).map fun p => p.1 + p.2

/-- n chunks of k bytes. -/
def chunks (k : Nat) : Nat → List Byte → List (List Byte)
  | 0, _ => []
  | n + 1, l => l.take k :: chunks k n (l.drop k)

/-- SHA-384, as a 384-bit number whose first byte is the most significant. -/
def sha384 (l : List Byte) : Nat :=
  let p := shaPad l
  let h := (chunks 128 (p.length / 128) p).foldl shaBlock shaIv
  (h.take 6).foldl (fun a w => a * 2 ^ 64 + w.toNat) 0

/-! ### ECDSA over P-384 (FIPS 186-4) -/

/-- The field prime of P-384. -/
def p384P : Nat := 2 ^ 384 - 2 ^ 128 - 2 ^ 96 + 2 ^ 32 - 1

/-- The group order of P-384. -/
def p384N : Nat :=
  0xFFFFFFFFFFFFFFFFFFFFFFFFFFFFFFFFFFFFFFFFFFFFFFFFC7634D81F4372DDF581A0DB248B0A77AECEC196ACCC52973

/-- The coefficient b of P-384. -/
def p384B : Nat :=
  0xB3312FA7E23EE7E4988E056BE3F82D19181D9C6EFE8141120314088F5013875AC656398D8A2ED19D2A85C8EDD3EC2AEF

/-- The base point of P-384. -/
def p384G : Option (Nat × Nat) := some (
  0xAA87CA22BE8B05378EB1C71EF320AD746E1D3B628BA79B9859F741E082542A385502F25DBF55296C3A545E3872760AB7,
  0x3617DE4A96262C6F5D9E98BF9292DC29F8F41DBD289A147CE9DA3113B5F0B8C00A60B1CE1D7E819D7A431D7C90EA0E5F)

/-- x to the power e modulo m, over the lowest n bits of e. -/
def powMod (m x : Nat) : Nat → Nat → Nat
  | 0, _ => 1 % m
  | n + 1, e =>
    let r := powMod m x n (e / 2)
    if e % 2 = 1 then r * r % m * x % m else r * r % m

/-- The inverse modulo a prime. -/
def invMod (m x : Nat) : Nat := powMod m x 384 (m - 2)

/-- Addition on the curve; none is the point at infinity. -/
def ecAdd (a b : Option (Nat × Nat)) : Option (Nat × Nat) :=
  match a, b with
  | none, q => q
  | q, none => q
  | some (x1, y1), some (x2, y2) =>
    if x1 = x2 ∧ (y1 + y2) % p384P = 0 then none
    else
      let l := if x1 = x2 then 3 * (x1 * x1 - 1) % p384P * invMod p384P (2 * y1) % p384P
        else (y2 + p384P - y1) * invMod p384P (x2 + p384P - x1) % p384P
      let x3 := (l * l + 2 * p384P - x1 - x2) % p384P
      some (x3, (l * (x1 + p384P - x3) + p384P - y1) % p384P)

/-- Multiplication by the lowest n bits of k. -/
def ecMul (q : Option (Nat × Nat)) : Nat → Nat → Option (Nat × Nat)
  | 0, _ => none
  | n + 1, k =>
    let h := ecMul q n (k / 2)
    let d := ecAdd h h
    if k % 2 = 1 then ecAdd d q else d

/-- Whether an ECDSA P-384 signature (r, s) of a SHA-384 digest verifies under a public key (R59). -/
def ecdsaVerify (x y r sg digest : Nat) : Bool :=
  decide (x < p384P) && decide (y < p384P) &&
  decide (y * y % p384P = (x * x % p384P * x + (p384P - 3) * x + p384B) % p384P) &&
  decide (0 < r) && decide (r < p384N) && decide (0 < sg) && decide (sg < p384N) &&
  let w := invMod p384N sg
  match ecAdd (ecMul p384G 384 (digest * w % p384N)) (ecMul (some (x, y)) 384 (r * w % p384N)) with
  | none => false
  | some (px, _) => decide (px % p384N = r)

/-! ### AES (FIPS 197) -/

/-- Multiplication by x in the AES field. -/
def xtime (b : Byte) : Byte := if b.msb then (b <<< 1) ^^^ 0x1B else b <<< 1

/-- Multiplication in the AES field. -/
def gmul (a b : Byte) : Byte :=
  ((List.range 8).foldl (fun (p : Byte × Byte) i => (if bit b i then p.1 ^^^ p.2 else p.1, xtime p.2)) (0, a)).1

/-- The inverse in the AES field (a to the power 254; 0 for 0). -/
def ginv (a : Byte) : Byte :=
  ((List.range 7).foldl (fun (p : Byte × Byte) _ => let q := gmul p.2 p.2; (gmul p.1 q, q)) (1, a)).1

/-- The S-box. -/
def subByte (a : Byte) : Byte :=
  let b := ginv a
  b ^^^ b.rotateLeft 1 ^^^ b.rotateLeft 2 ^^^ b.rotateLeft 3 ^^^ b.rotateLeft 4 ^^^ 0x63

/-- The inverse S-box. -/
def invSubByte (a : Byte) : Byte := ginv (a.rotateLeft 1 ^^^ a.rotateLeft 3 ^^^ a.rotateLeft 6 ^^^ 0x05)

/-- Byte by byte exclusive or. -/
def xorBytes (a b : List Byte) : List Byte := List.zipWith (· ^^^ ·) a b

/-- The key schedule words, newest first; nk is the key's length in words. -/
def aesWords (nk : Nat) (w : List (List Byte)) : Nat → Byte → Nat → List (List Byte)
  | 0, _, _ => w
  | n + 1, rcon, i =>
    let prev := w.getD 0 []
    let t :=
      if i % nk = 0 then
        match (prev.drop 1 ++ prev.take 1).map subByte with
        | b :: r => (b ^^^ rcon) :: r
        | [] => []
      else if nk > 6 ∧ i % nk = 4 then prev.map subByte else prev
    aesWords nk (xorBytes (w.getD (nk - 1) []) t :: w) n (if i % nk = 0 then xtime rcon else rcon) (i + 1)

/-- The round keys, 16 B each, first round first. -/
def aesKeys (key : List Byte) : List (List Byte) :=
  let nk := key.length / 4
  let total := 4 * (nk + 7)
  let ws := (aesWords nk (chunks 4 nk key).reverse (total - nk) 1 nk).reverse
  (List.range (nk + 7)).map fun r => ((ws.drop (4 * r)).take 4).flatten

/-- ShiftRows on a block in column order; the inverse shifts the other way. -/
def shiftRows (inv : Bool) (b : List Byte) : List Byte :=
  (List.range 16).map fun i =>
    let r := i % 4
    b.getD (((i / 4 + (if inv then 4 - r else r)) % 4) * 4 + r) 0

/-- MixColumns with the coefficients of a column. -/
def mixColumns (c : List Byte) (b : List Byte) : List Byte :=
  (List.range 16).map fun i =>
    (List.range 4).foldl (fun a j => a ^^^ gmul (c.getD ((j + 4 - i % 4) % 4) 0) (b.getD (i / 4 * 4 + j) 0)) 0

/-- AES encryption of one block. -/
def aesEnc (key : List Byte) (blk : List Byte) : List Byte :=
  match aesKeys key with
  | [] => blk
  | k0 :: ks =>
    let body := ks.dropLast.foldl (fun b k => xorBytes (mixColumns [2, 3, 1, 1] (shiftRows false (b.map subByte))) k)
      (xorBytes blk k0)
    xorBytes (shiftRows false (body.map subByte)) (ks.getLastD [])

/-- AES decryption of one block. -/
def aesDec (key : List Byte) (blk : List Byte) : List Byte :=
  match (aesKeys key).reverse with
  | [] => blk
  | k0 :: ks =>
    let body := ks.dropLast.foldl
      (fun b k => mixColumns [14, 11, 13, 9] (xorBytes ((shiftRows true b).map invSubByte) k)) (xorBytes blk k0)
    xorBytes ((shiftRows true body).map invSubByte) (ks.getLastD [])

/-- The blocks of 16 B of a byte string, the last one short if the length is no multiple. -/
def blocks16 (l : List Byte) : List (List Byte) := chunks 16 ((l.length + 15) / 16) l

/-- ECB. -/
def aesEcb (dec : Bool) (key l : List Byte) : List Byte :=
  (blocks16 l).flatMap (if dec then aesDec key else aesEnc key)

/-- CBC encryption with PKCS#7 padding (Table 11-5). -/
def aesCbcEnc (key iv l : List Byte) : List Byte :=
  let pad := 16 - l.length % 16
  ((blocks16 (l ++ List.replicate pad (BitVec.ofNat 8 pad))).foldl
    (fun (p : List Byte × List Byte) b => let c := aesEnc key (xorBytes b p.2); (p.1 ++ c, c)) ([], iv)).1

/-- CBC decryption; none where the padding is bad (Table 11-5). -/
def aesCbcDec (key iv l : List Byte) : Option (List Byte) :=
  let p := ((blocks16 l).foldl
    (fun (p : List Byte × List Byte) b => (p.1 ++ xorBytes (aesDec key b) p.2, b)) ([], iv)).1
  let n := (p.getLastD 0).toNat
  if 1 ≤ n ∧ n ≤ 16 ∧ n ≤ p.length ∧ p.drop (p.length - n) = List.replicate n (BitVec.ofNat 8 n) then
    some (p.take (p.length - n)) else none

/-- CTR from an initial counter block, counting as a big-endian integer modulo 2^128 (Table 11-5). -/
def aesCtr (key ctr l : List Byte) : List Byte :=
  ((blocks16 l).foldl
    (fun (p : List Byte × Nat) b => (p.1 ++ xorBytes b (aesEnc key (beBytes 16 p.2)), (p.2 + 1) % 2 ^ 128))
    ([], beNat ctr)).1

/-- Multiplication in the field of GCM (NIST SP 800-38D). -/
def gcmMul (x y : BitVec 128) : BitVec 128 :=
  ((List.range 128).foldl (fun (p : BitVec 128 × BitVec 128) i =>
    (if bit x (127 - i) then p.1 ^^^ p.2 else p.1,
     if bit p.2 0 then (p.2 >>> 1) ^^^ (0xE1 <<< 120) else p.2 >>> 1)) (0, y)).1

/-- GHASH of whole blocks. -/
def ghash (h : BitVec 128) (l : List Byte) : BitVec 128 :=
  (blocks16 l).foldl (fun y b => gcmMul (y ^^^ BitVec.ofNat 128 (beNat (padTo 16 b))) h) 0

/-- A byte string padded with zeros to whole blocks. -/
def padBlocks (l : List Byte) : List Byte := padTo ((l.length + 15) / 16 * 16) l

/-- The tag of GCM with a 96-bit IV over additional data and ciphertext. -/
def gcmTag (key iv aad ct : List Byte) : List Byte :=
  let h := BitVec.ofNat 128 (beNat (aesEnc key (List.replicate 16 0)))
  let y := ghash h (padBlocks aad ++ padBlocks ct ++ beBytes 8 (8 * aad.length) ++ beBytes 8 (8 * ct.length))
  xorBytes (beBytes 16 y.toNat) (aesEnc key (iv ++ beBytes 4 1))

/-- The cipher of GCM: CTR from counter 2, in its low 32 bits. -/
def gcmCrypt (key iv l : List Byte) : List Byte := aesCtr key (iv ++ beBytes 4 2) l

/-- GCM seal: ciphertext and tag. -/
def gcmSeal (key iv aad pt : List Byte) : List Byte × List Byte :=
  let ct := gcmCrypt key iv pt
  (ct, gcmTag key iv aad ct)

/-- GCM open: the plaintext if the tag verifies. -/
def gcmOpen (key iv aad ct tag : List Byte) : Option (List Byte) :=
  if gcmTag key iv aad ct = tag then some (gcmCrypt key iv ct) else none

/-- Doubling of a subkey of CMAC (NIST SP 800-38B). -/
def cmacDouble (l : List Byte) : List Byte :=
  let n := beNat l
  let d := 2 * n % 2 ^ 128
  beBytes 16 (if n < 2 ^ 127 then d else Nat.xor d 0x87)

/-- CMAC (NIST SP 800-38B). -/
def aesCmac (key l : List Byte) : List Byte :=
  let k1 := cmacDouble (aesEnc key (List.replicate 16 0))
  let bs := if l = [] then [[]] else blocks16 l
  let last := bs.getLastD []
  let m := if last.length = 16 then xorBytes last k1
    else xorBytes (padTo 16 (last ++ [0x80])) (cmacDouble k1)
  aesEnc key (xorBytes (bs.dropLast.foldl (fun c b => aesEnc key (xorBytes c b)) (List.replicate 16 0)) m)

/-- Key wrap of RFC 3394 with the default IV: 6 rounds over n semiblocks. -/
def keyWrap (key l : List Byte) : List Byte :=
  let n := l.length / 8
  let r := (List.range (6 * n)).foldl (fun (p : List Byte × List (List Byte)) t =>
      let i := t % n
      let b := aesEnc key (p.1 ++ p.2.getD i [])
      (beBytes 8 (Nat.xor (beNat (b.take 8)) (t + 1)), p.2.set i (b.drop 8)))
    (List.replicate 8 0xA6, chunks 8 n l)
  r.1 ++ r.2.flatten

/-- Key unwrap of RFC 3394: none where the integrity check fails. -/
def keyUnwrap (key l : List Byte) : Option (List Byte) :=
  let n := l.length / 8 - 1
  let r := (List.range (6 * n)).foldl (fun (p : List Byte × List (List Byte)) k =>
      let t := 6 * n - 1 - k
      let i := t % n
      let b := aesDec key (beBytes 8 (Nat.xor (beNat p.1) (t + 1)) ++ p.2.getD i [])
      (b.take 8, p.2.set i (b.drop 8)))
    (l.take 8, chunks 8 n (l.drop 8))
  if r.1 = List.replicate 8 0xA6 then some r.2.flatten else none

/-- Multiplication of a tweak by x (IEEE 1619), the tweak little-endian. -/
def xtsNext (t : Nat) : Nat :=
  let d := 2 * t % 2 ^ 128
  if t < 2 ^ 127 then d else Nat.xor d 0x87

/-- One block of XTS under a tweak. -/
def xtsBlock (dec : Bool) (key : List Byte) (t : Nat) (b : List Byte) : List Byte :=
  let w := leBytes 16 t
  xorBytes ((if dec then aesDec else aesEnc) key (xorBytes b w)) w

/-- XTS-AES (IEEE 1619) of one data unit of at least 16 B, with ciphertext stealing (R469, Table 11-5); the 64 B key is
key 1 then key 2. -/
def aesXts (dec : Bool) (key64 : List Byte) (unit : Nat) (l : List Byte) : List Byte :=
  let k1 := key64.take 32
  let t0 := leNat (aesEnc (key64.drop 32) (leBytes 16 unit))
  let full := l.length / 16
  let rest := l.length % 16
  let head := if rest = 0 then full else full - 1
  let p := (chunks 16 head l).foldl
    (fun (p : List Byte × Nat) b => (p.1 ++ xtsBlock dec k1 p.2 b, xtsNext p.2)) ([], t0)
  if rest = 0 then p.1
  else
    let a := slice l (16 * head) 16
    let b := l.drop (16 * full)
    let ta := if dec then xtsNext p.2 else p.2
    let tb := if dec then p.2 else xtsNext p.2
    let c := xtsBlock dec k1 ta a
    p.1 ++ xtsBlock dec k1 tb (b ++ c.drop rest) ++ c.take rest

/-! ### P and Q -/

/-- Multiplication by x in the field of R320, polynomial 0x11D. -/
def pqTime (b : Byte) : Byte := if b.msb then (b <<< 1) ^^^ 0x1D else b <<< 1

/-- Multiplication in the field of R320. -/
def pqMul (a b : Byte) : Byte :=
  ((List.range 8).foldl (fun (p : Byte × Byte) i => (if bit b i then p.1 ^^^ p.2 else p.1, pqTime p.2)) (0, a)).1

/-- The power of the generator 2. -/
def pqPow : Nat → Byte
  | 0 => 1
  | n + 1 => pqTime (pqPow n)

/-- The inverse in the field of R320: a to the power 254. -/
def pqInv (a : Byte) : Byte :=
  ((List.range 7).foldl (fun (p : Byte × Byte) _ => let q := pqMul p.2 p.2; (pqMul p.1 q, q)) (1, a)).1

end Sys2Proof.Machine
end

