-- ==== Sys2Proof/Machine/Flags.lean ====
section
/-!
DEFINITION. Status flags, the Tally and the events to the Wardens: what a command reports beside its own effect.
-/

namespace Sys2Proof.Machine

/-- Hardware sets a W1C status flag (R7, R704). -/
def State.flag (s : State) (f : Fld) : State := s.setFld f 1

/-- Hand an event to the Wardens; it waits for shelf firmware (R41). -/
def State.event (s : State) (e : Event) : State := { s with wdn := { s.wdn with events := s.wdn.events ++ [e] } }

/-- The record classes of Table 19-6. -/
inductive TallyClass where
  | hardware | transport | command | media | integrity | security | peer | config | power | firmware
  deriving DecidableEq, Repr

/-- The code of a class (Table 19-6). -/
def TallyClass.code : TallyClass → Nat
  | .hardware => 1
  | .transport => 2
  | .command => 3
  | .media => 4
  | .integrity => 5
  | .security => 6
  | .peer => 7
  | .config => 8
  | .power => 9
  | .firmware => 10

/-- The 64 B of a record (R708, Table 19-5). -/
def tallyRecord (time seq blk cls code inst : Nat) (args : List Nat) : BitVec 512 :=
  ofBytes 512 (leBytes 8 time ++ leBytes 8 seq ++ leBytes 1 blk ++ leBytes 1 cls ++ leBytes 2 0 ++ leBytes 4 code ++
    leBytes 4 inst ++ leBytes 4 0 ++ leBytes 8 (args.getD 0 0) ++ leBytes 8 (args.getD 1 0) ++
    leBytes 8 (args.getD 2 0) ++ leBytes 8 (args.getD 3 0))

/-- CODE of a record that names a status field (R709). -/
def flagCode (f : Fld) : Nat := f.addr % 0x100000 + f.lo * 0x100000

/-- CODE of a record that carries an event number of Table 19-7 (R709). -/
def eventCode (n : Nat) : Nat := 0x80000000 + n

/-- The management port's link is up (R714, R527). -/
def State.mgtLink (s : State) : Bool :=
  match Tab.find? 32 s.mac.sps with
  | some p => p.link
  | none => false

/-- Put a record into the ring: a full ring loses its oldest unread record (R711). -/
def State.tallyPut (s : State) (r : BitVec 512) : State :=
  let m := s.mgt
  let slot := (m.read + m.unread) % 4096
  if m.unread < 4096 then
    ({ s with mgt := { m with tally := Tab.set slot r m.tally, seq := m.seq + 1, unread := m.unread + 1 } }
      ).bump A.MGT_TALLY_RECORDS
  else
    ((({ s with mgt := { m with tally := Tab.set slot r m.tally, seq := m.seq + 1, read := (m.read + 1) % 4096 } }
      ).bump A.MGT_TALLY_RECORDS).bump A.MGT_TALLY_LOST).flag F.MGT_STATUS_TALLY_LOST

/-- Hand a record to the event frames if its class is sent (R714). -/
def State.tallyFrame (s : State) (cls : Nat) (r : BitVec 512) : State :=
  if s.is F.MGT_CTRL_EVT_EN ∧ s.fld F.MGT_EVT_PORT_PORT ≠ 0 ∧ (s.fld F.MGT_EVT_CLASSES_MASK).testBit cls then
    if s.mgtLink then { s with mgt := { s.mgt with waiting := s.mgt.waiting ++ [r] } }
    else (s.bump A.MGT_EVT_DROPS).flag F.MGT_STATUS_EVT_DROP
  else s

/-- Append a Tally record (R708 to R711, R714): block number of Table 00-4 order (or 0x10), class, CODE, INSTANCE and
arguments. One of class INTEGRITY is an event for the Wardens (Table 01-9). -/
def State.tallyRaw (s : State) (blk cls code inst : Nat) (args : List Nat) : State :=
  let r := tallyRecord s.now s.mgt.seq blk cls code inst args
  let s := (s.tallyPut r).tallyFrame cls r
  if cls = 5 then s.event .integrity else s

/-- Append the record of an event that set a status field (R709). -/
def State.tallyFlag (s : State) (c : TallyClass) (f : Fld) (inst : Nat) (args : List Nat) : State :=
  s.tallyRaw (f.addr / 0x100000) c.code (flagCode f) inst args

/-- Append the record of an event of Table 19-7 (R709). -/
def State.tallyEvent (s : State) (c : TallyClass) (blk n inst : Nat) (args : List Nat) : State :=
  s.tallyRaw blk c.code (eventCode n) inst args

/-- The part runs: neither held in reset, nor dumping, nor in POWER_HOLD (R730, R736). -/
def State.up (s : State) : Bool := decide (s.glb.phase = .running)

/-- The data path runs: Active or Trim (Table 18-2). -/
def State.awake (s : State) : Bool := s.up && (decide (s.pwr.cur = .active) || decide (s.pwr.cur = .trim))

/-- Islands 5 and 127 run for management: every mode but Dormant (Table 18-2). -/
def State.managed (s : State) : Bool := s.up && decide (s.pwr.cur ≠ .dormant)

/-- A change made only under a condition of the state. -/
def State.gate (s : State) (b : State → Bool) (f : State → State) : State := if b s then f s else s

/-- A command of a unit that runs in every mode. -/
def State.ifUp (s : State) (f : State → State) : State := if s.up then f s else s

/-- A command of the data path (Table 18-2). -/
def State.ifAwake (s : State) (f : State → State) : State := if s.awake then f s else s

/-- A command of the management unit (Table 18-2). -/
def State.ifManaged (s : State) (f : State → State) : State := if s.managed then f s else s

/-- A row that runs at the multiples of a period: it acts if one has come that it has not served yet, under the row's own
number (assumption 5). -/
def State.every (s : State) (row period : Nat) (f : State → State) : State :=
  let t := s.now / period * period
  if Tab.getD row 0 s.served < t then f { s with served := Tab.set row t s.served } else s

/-- The model's numbers of the periodic rows. -/
abbrev Tick.rebuildRecord : Nat := 0
abbrev Tick.ckpt : Nat := 1
abbrev Tick.hotness : Nat := 2
abbrev Tick.heartbeat : Nat := 4
abbrev Tick.avs : Nat := 7
abbrev Tick.watch : Nat := 8
abbrev Tick.telemetry : Nat := 9
abbrev Tick.ceClear : Nat := 10
abbrev Tick.report : Nat := 12
abbrev Tick.resident : Nat := 13
abbrev Tick.sweep : Nat := 14
abbrev Tick.hist : Nat := 15
abbrev Tick.mi : Nat := 16
abbrev Tick.island : Nat := 256
abbrev Tick.stock : Nat := 512

/-! ### Power modes and the machine check -/

/-- The part is in Doze or Dormant (R672). -/
def State.asleep (s : State) : Bool := decide (s.pwr.cur = .doze) || decide (s.pwr.cur = .dormant)

/-- The code of a mode (Table 18-5). -/
def PowerMode.code : PowerMode → Nat
  | .active => 0
  | .trim => 1
  | .doze => 2
  | .dormant => 3

/-- A mode that stops the data path. -/
def PowerMode.low (m : PowerMode) : Bool := decide (m = .doze) || decide (m = .dormant)

/-- The code of a phase (Table 18-5). -/
def Phase.code : Phase → Nat
  | .steady => 0
  | .waiting => 1
  | .entering => 2
  | .exiting => 3

/-- A request for Doze or Dormant waits or enters: the data path drains (R676). -/
def State.draining (s : State) : Bool :=
  (decide (s.pwr.phase = .waiting) || decide (s.pwr.phase = .entering)) && s.pwr.target.low

/-- PWR_MODE as read (Table 18-5). -/
def State.pwrWord (s : State) : Nat :=
  16 * s.pwr.cur.code + 64 * s.pwr.target.code + 256 * (s.pwr.pending.getD .active).code +
    1024 * ofBool s.pwr.pending.isSome + 4096 * s.pwr.phase.code

/-- BAY_STATUS as read (Table 15-6). -/
def State.bayWord (s : State) : Nat := (s.word A.BAY_STATUS).toNat + 32 * ofBool s.bay.powerLoss

/-- Arguments of a record of class POWER: PWR_MODE, PWR_WAKE_CAUSE and BAY_STATUS (Table 19-6). -/
def State.powerArgs (s : State) : List Nat :=
  [s.pwrWord, (s.word A.PWR_WAKE_CAUSE).toNat, s.bayWord]

/-- A record of class POWER (R710). -/
def State.tallyPower (s : State) (f : Fld) : State := s.tallyFlag .power f 0 s.powerArgs

/-- Record a machine-check source; a read of WDN_MCHECK gives the first since the previous read (R603). -/
def State.mcheck (s : State) (source : Nat) : State :=
  s.when (s.fld F.WDN_MCHECK_SOURCE == 0) fun s => s.setFld F.WDN_MCHECK_SOURCE source

/-- Times of the last 24 h only. -/
def within24h (now : Nat) (l : List Nat) : List Nat := l.filter fun t => decide (now < t + day)

end Sys2Proof.Machine
end

