-- ==== Sys2Proof/Machine/Structure.lean ====
section
/-!
DEFINITION. What the Inventory in force fixes (02_inventory.md): the sections' records as the other blocks read them.
-/

namespace Sys2Proof.Machine

/-- The body of a section in force; empty if the image has none. -/
def State.sect (s : State) (code : Nat) : List Byte := Tab.getD code [] s.inv.sections

/-- The records of n bytes of a section body. -/
def recordsOf (n : Nat) (body : List Byte) : List (List Byte) := chunks n (body.length / n) body

/-- A byte of a record. -/
def rb (r : List Byte) (i : Nat) : Nat := (r.getD i 0).toNat

/-- ISLAND records (Table 02-3). -/
def State.islandRecs (s : State) : List (List Byte) := recordsOf 8 (s.sect 0x01)

/-- The ISLAND record of an island, if the Inventory holds one: of two for one island the first (DESIGN CHOICE, assumption 120). -/
def State.islandRec (s : State) (i : Nat) : Option (List Byte) := s.islandRecs.find? fun r => rb r 0 == i

/-- Design limits of the islands in MHz (Table 18-1). -/
def islandLimit (i : Nat) : Nat :=
  if i = 0 then 25 else if i = 1 then 2000 else if i = 2 then 1000 else if i = 3 then 1600
  else if i ≤ 5 then 500 else if i = 127 then 1000 else 1600

/-- Islands that take the reference clock only (Table 18-1). -/
def islandRefOnly (i : Nat) : Bool := decide (8 ≤ i ∧ i ≤ 15) || decide (52 ≤ i ∧ i ≤ 91)

/-- LANE records (Table 02-3). -/
def laneRecs (body : List Byte) : List (List Byte) := recordsOf 8 body

/-- The mode of a port of a kind (0 data, 1 drive, 2 peer, 3 management) in a LANE body; 0 without a record. -/
def laneMode (body : List Byte) (kind port : Nat) : Nat :=
  match (laneRecs body).find? fun r => rb r 0 == kind && rb r 1 == port with
  | some r => rb r 2
  | none => 0

/-- The sub-ports of a data port mode (Table 12-1). -/
def subPortsOf (port mode : Nat) : List Nat :=
  match mode with
  | 1 => [4 * port]
  | 2 => [4 * port, 4 * port + 2]
  | 3 => [4 * port, 4 * port + 1, 4 * port + 2, 4 * port + 3]
  | _ => []

/-- Every enabled sub-port of a LANE body, rising (Table 12-1). -/
def laneSubPorts (body : List Byte) : List Nat := (List.range 8).flatMap fun p => subPortsOf p (laneMode body 0 p)

/-- Mode of data port n in force (Table 12-7). -/
def State.portMode (s : State) (n : Nat) : Nat := laneMode (s.sect 0x02) 0 n

/-- A sub-port exists in the port modes in force (R498). -/
def State.hasSubPort (s : State) (sp : Nat) : Bool := (laneSubPorts (s.sect 0x02)).contains sp

/-- TWO_CONTROLLER of the image in force (R43). -/
def State.twoControllers (s : State) : Bool := s.inv.flags.testBit 1

/-- SIDE_B of the image in force (R43): 0 single-controller or side A, 1 side B. -/
def State.side (s : State) : Nat := ofBool (s.inv.flags.testBit 2)

/-- An agent takes part in the Hoist (R21). -/
def State.agentOn (s : State) (n : Nat) : Bool := (leAt (s.sect 0x03) 0 8).testBit n

/-- Role of agents 38 to 41: 0 none, 1 test cell source, 2 test cell sink (Table 02-3). -/
def State.agentRole (s : State) (n : Nat) : Nat := rb (s.sect 0x03) (8 + 8 * (n - 38))

/-- The record of a Pantry partition (Table 02-4). -/
def pantryRec (body : List Byte) (code : Nat) : Option (List Byte) := (recordsOf 8 body).find? fun r => rb r 0 == code

/-- Entries of a Pantry partition in force; 0 if it is absent. -/
def State.pantryEntries (s : State) (code : Nat) : Nat :=
  match pantryRec (s.sect 0x04) code with
  | some r => leAt r 4 4
  | none => 0

/-- A partition has an entry of an index (R122). -/
def State.entryExists (s : State) (code i : Nat) : Bool := decide (i < s.pantryEntries code)

/-- Size in 64 KiB units of a Pantry partition in force. -/
def State.pantryUnits (s : State) (code : Nat) : Nat :=
  match pantryRec (s.sect 0x04) code with
  | some r => leAt r 2 2
  | none => 0

/-- First unit of a Pantry partition: partitions stand in ascending code order from unit 0 (R53). -/
def State.pantryBase (s : State) (code : Nat) : Nat :=
  ((recordsOf 8 (s.sect 0x04)).map fun r => if rb r 0 < code then leAt r 2 2 else 0).sum

/-- The CHAIN record of a path, if the Inventory holds one (R55). -/
def State.chainRec (s : State) (path : Nat) : Option (List Byte) := (recordsOf 16 (s.sect 0x05)).find? fun r => rb r 0 == path

/-- Stripe engine mask of a path; every engine where no record names it (R24, R55). -/
def State.chainEngines (s : State) (path : Nat) : Nat :=
  match s.chainRec path with
  | some r => rb r 2
  | none => 15

/-- Cut-through is present (R55). -/
def State.cutPresent (s : State) : Bool :=
  match s.chainRec 5 with
  | some r => (rb r 1).testBit 0
  | none => true

/-- Breren UDP port (AUTHORITY). -/
def State.brerenPort (s : State) : Nat := leAt (s.sect 0x06) 0 2

/-- Ledger access UDP port: the AUTHORITY section's, or 47078 while the loader is EMPTY (R695). -/
def State.ledgerPort (s : State) : Nat := if s.inv.lock then leAt (s.sect 0x06) 2 2 else 47078

/-- Data port n may carry admin commands (AUTHORITY, R249). -/
def State.adminPort (s : State) (n : Nat) : Bool := (rb (s.sect 0x06) (4 + n)).testBit 0

/-- SMBus port n answers (R695). -/
def State.smbActive (s : State) (n : Nat) : Bool := !s.inv.lock || (rb (s.sect 0x06) 12).testBit n

/-- The GROUP template of a group (Table 02-3). -/
def State.groupTemplate (s : State) (g : Nat) : Option (List Byte) := (recordsOf 32 (s.sect 0x07)).find? fun r => rb r 0 == g

/-- Spare bay mask of a group's template. -/
def State.spareBays (s : State) (g : Nat) : Nat :=
  match s.groupTemplate g with
  | some r => leAt r 28 3
  | none => 0

/-- The BAY_PROFILE record of a channel (Table 02-3). -/
def bayProfile (body : List Byte) (ch : Nat) : Option (List Byte) := (recordsOf 16 body).find? fun r => rb r 0 == ch

/-- The BAY_PROFILE record of a channel in force. -/
def State.bayProfile (s : State) (ch : Nat) : Option (List Byte) := Machine.bayProfile (s.sect 0x08) ch

/-- The SCHED record of a node in force (Table 02-3). -/
def State.schedNode (s : State) (id : Nat) : Option (List Byte) := (recordsOf 32 (s.sect 0x10)).find? fun r => leAt r 0 4 == id

/-- The POLICER profile records in force (Table 02-3). -/
def State.profiles (s : State) : List (List Byte) := recordsOf 24 ((s.sect 0x11).drop 8)

/-- Data port n is marked pre-coloured (POLICER). -/
def State.preColoured (s : State) (n : Nat) : Bool := (rb (s.sect 0x11) 0).testBit n

/-- Power limit of a channel in units of 0.1 W (BAY_LIMIT). -/
def State.bayLimit (s : State) (ch : Nat) : Option Nat :=
  ((recordsOf 8 (s.sect 0x12)).find? fun r => rb r 0 == ch).map fun r => leAt r 2 2

/-- Larder size in 256 KiB lines (LARDER). -/
def State.larderLines (s : State) : Nat := leAt (s.sect 0x13) 0 4

/-- Admission hotness threshold (LARDER). -/
def State.larderAdmit (s : State) : Nat := leAt (s.sect 0x13) 4 2

/-- Hotness decay period in ms (LARDER). -/
def State.larderDecay (s : State) : Nat := leAt (s.sect 0x13) 6 2

/-- Coalescing window in us (LARDER). -/
def State.coalesceWindow (s : State) : Nat := leAt (s.sect 0x13) 8 2

/-- Group delivery is permitted (LARDER). -/
def State.groupPermitted (s : State) : Bool := (rb (s.sect 0x13) 10).testBit 0

/-! ### Image checks (R42 to R61, R667) -/

/-- Why an image fails: INV_ERROR's CODE, SECTION and RECORD (Table 02-12). -/
structure LoadErr where
  code : Nat
  sec : Nat
  record : Nat
  deriving DecidableEq, Repr

/-- A parsed section: type code, record count and body (R44). -/
structure Section where
  code : Nat
  count : Nat
  body : List Byte
  deriving DecidableEq, Repr

/-- The section types of Table 02-2 and whether a full image needs each. -/
def sectionTypes : List (Nat × Bool) :=
  [(0x01, true), (0x02, true), (0x03, true), (0x04, true), (0x05, false), (0x06, true), (0x07, false), (0x08, true),
   (0x10, true), (0x11, true), (0x12, true), (0x13, true)]

/-- Body length of a section for its record count (R45, Tables 02-2 and 02-3). -/
def bodySize (code count : Nat) : Nat :=
  match code with
  | 0x03 => 40
  | 0x05 => 16 * count
  | 0x06 => 16
  | 0x07 => 32 * count
  | 0x08 => 16 * count
  | 0x10 => 32 * count
  | 0x11 => 8 + 24 * count
  | 0x13 => 16
  | _ => 8 * count

/-- The first failure of a list of checks. -/
def firstErr (l : List (Option LoadErr)) : Option LoadErr := l.findSome? id

/-- A check: the failure unless the condition holds. -/
def need (b : Bool) (code sec rec : Nat) : Option LoadErr := if b then none else some ⟨code, sec, rec⟩

/-- Checks of the 128 B header (R43); the CODEs are DEDUCED from their names (assumption 13). -/
def headerCheck (img : List Byte) : Option LoadErr :=
  firstErr [
    need (decide (336 ≤ img.length)) 0x03 0 0xFFFF,
    need (decide (img.take 4 = [0x4B, 0x49, 0x4E, 0x56])) 0x01 0 0xFFFF,
    need (leAt img 4 2 == 1) 0x0A 0 0xFFFF,
    need (decide (leAt img 6 2 < 8)) 0x0A 0 0xFFFF,
    need (leAt img 8 4 == 0x4B2400A1) 0x02 0 0xFFFF,
    need (leAt img 12 4 == img.length && decide (img.length ≤ 4194304)) 0x03 0 0xFFFF,
    need (decide (leAt img 16 8 ≠ 0)) 0x0A 0 0xFFFF,
    need ((leAt img 6 2).testBit 0 || leAt img 24 8 == 0) 0x0A 0 0xFFFF,
    need (decide (leAt img 42 1 < 4)) 0x06 0 0xFFFF,
    need (leAt img 43 5 == 0 && (slice img 96 32).all (· == 0)) 0x0A 0 0xFFFF]

/-- Parse the sections that stand between header and signature block (R44 to R46, R48). The codes of an unknown type and of a wrong
count are DESIGN CHOICE, assumption 160. -/
def parseSections : Nat → Nat → List Byte → Except LoadErr (List Section)
  | 0, _, l => if l = [] then .ok [] else .error ⟨0x03, 0, 0xFFFF⟩
  | n + 1, prev, l =>
    let code := leAt l 0 2
    let len := leAt l 4 4
    let count := leAt l 8 4
    match firstErr [
      need (decide (16 ≤ l.length)) 0x03 0 0xFFFF,
      need (sectionTypes.any fun t => t.1 == code) 0x0A code 0xFFFF,
      need (decide (prev < code)) 0x08 code 0xFFFF,
      need (rb l 2 == 1 && rb l 3 == 0) 0x0A code 0xFFFF,
      need (len == 16 + bodySize code count && len % 8 == 0 && decide (len ≤ l.length)) 0x03 code 0xFFFF,
      need (leAt l 12 4 == (crc32c (slice l 16 (len - 16))).toNat) 0x09 code 0xFFFF] with
    | some e => .error e
    | none =>
      match parseSections n code (l.drop len) with
      | .error e => .error e
      | .ok r => .ok (⟨code, count, slice l 16 (len - 16)⟩ :: r)

/-- Number the records of a body and report the first that fails. -/
def checkRecords (code : Nat) (ok : List Byte → Bool) : List (List Byte) → Nat → Option LoadErr
  | [], _ => none
  | r :: t, i => if ok r then checkRecords code ok t (i + 1) else some ⟨0x0A, code, i⟩

/-- Bytes i to i + n - 1 of a record are 0. -/
def zeros (r : List Byte) (i n : Nat) : Bool := (slice r i n).all (· == 0)

/-- A list has no repeats. -/
def noRepeats : List Nat → Bool
  | [] => true
  | a :: t => !t.contains a && noRepeats t

/-- ISLAND (R54, R667): the failing island's number is RECORD. -/
def islandCheck (body : List Byte) : Option LoadErr :=
  (recordsOf 8 body).findSome? fun r =>
    let i := rb r 0
    let mhz := leAt r 2 2
    need (decide (i < 128) && decide (rb r 1 < 2) && decide (600 ≤ leAt r 4 2) && decide (leAt r 4 2 ≤ leAt r 6 2) &&
      decide (leAt r 6 2 ≤ 850) && decide (mhz ≤ islandLimit i) && !(i == 0 && (rb r 1 == 1 || mhz != 25)) &&
      !(islandRefOnly i && rb r 1 == 0) && !(decide (52 ≤ i) && decide (i ≤ 91) && mhz != 1600)) 0x0A 0x01 i

/-- The lane bytes of a LANE record: 0xFF, or a physical lane with a polarity bit; no physical lane twice (R51). -/
def laneBytesOk (r : List Byte) : Bool :=
  let used := ((List.range 4).map fun i => rb r (4 + i)).filter fun b => b != 0xFF
  used.all (fun b => b &&& 0x7C == 0) && noRepeats (used.map fun b => b % 4)

/-- The lane bytes that the records of a kind and port use between them; no physical lane of a port is used twice (R51). -/
def portLanesOk (rs : List (List Byte)) (r : List Byte) : Bool :=
  noRepeats ((rs.filter fun q => rb q 0 == rb r 0 && rb q 1 == rb r 1).flatMap fun q =>
    (((List.range 4).map fun i => rb q (4 + i)).filter fun b => b != 0xFF).map fun b => b % 4)

/-- The management port takes one record, and the peer link two, ports 0 and 1 (R49). -/
def laneCounts (rs : List (List Byte)) : Bool :=
  let peer := (rs.filter fun r => rb r 0 == 2).map fun r => rb r 1
  (rs.filter fun r => rb r 0 == 3).length == 1 && (peer == [] || peer == [0, 1] || peer == [1, 0])

/-- LANE (R49, R51). The mode and ceiling bytes of peer and management records are free, and no peer record is asked for (DESIGN
CHOICE, assumption 158). -/
def laneCheck (flags : Nat) (body : List Byte) : Option LoadErr :=
  let rs := recordsOf 8 body
  firstErr [checkRecords 0x02 (fun r =>
    let kind := rb r 0
    let port := rb r 1
    let mode := rb r 2
    let ceil := rb r 3
    laneBytesOk r && portLanesOk rs r &&
    match kind with
    | 0 => decide (port < 8) && decide (mode ≤ 3) && ceil == 0
    | 1 => decide (port < 24) && decide (mode ≤ 2) && decide (3 ≤ ceil) && decide (ceil ≤ 6) &&
        !(mode == 1 && flags.testBit 1)
    | 2 => decide (port < 2) && flags.testBit 1
    | 3 => port == 0 && rb r 4 != 0xFF && (slice r 5 3).all (· == 0xFF)
    | _ => false) rs 0,
    need (laneCounts rs) 0x0A 0x02 0xFFFF]

/-- AGENT (R49, R52). Bits without a meaning are 0 (DESIGN CHOICE, assumption 159). -/
def agentCheck (flags : Nat) (lane body : List Byte) : Option LoadErr :=
  let m := leAt body 0 8
  need (decide (m < 2 ^ 42) && ((List.range 29).all fun i => m.testBit (8 + i)) &&
    ((List.range 8).all fun n => m.testBit n == decide (laneMode lane 0 n ≠ 0)) &&
    (m.testBit 37 == flags.testBit 1) &&
    ((List.range 4).all fun k => decide (rb body (8 + 8 * k) ≤ 2) && zeros body (9 + 8 * k) 7 &&
      !(m.testBit (38 + k) && rb body (8 + 8 * k) == 0))) 0x0A 0x03 0xFFFF

/-- Bytes per entry and maximum entries of the Pantry partitions (Table 02-4). -/
def pantryTable : List (Nat × Nat × Nat) :=
  [(0x01, 64, 524288), (0x02, 128, 131072), (0x03, 128, 131072), (0x04, 32, 65536), (0x05, 256, 8192),
   (0x06, 32, 1048576), (0x07, 80, 1572864), (0x08, 8192, 16384), (0x09, 16, 163840), (0x0A, 64, 65536),
   (0x0B, 16, 524288), (0x0C, 32, 24576), (0x0D, 32, 8192), (0x0E, 65536, 512)]

/-- PANTRY (R49, R53). -/
def pantryCheck (body : List Byte) : Option LoadErr :=
  let rs := recordsOf 8 body
  firstErr [
    checkRecords 0x04 (fun r =>
      match pantryTable.find? fun t => t.1 == rb r 0 with
      | some (_, per, most) => decide (rb r 1 < 2) && decide (leAt r 4 4 ≤ most) &&
          decide (leAt r 4 4 * per ≤ leAt r 2 2 * 65536)
      | none => false) rs 0,
    need (noRepeats (rs.map fun r => rb r 0)) 0x0A 0x04 0xFFFF,
    need (decide ((rs.map fun r => leAt r 2 2).sum ≤ 2560)) 0x0A 0x04 0xFFFF]

/-- The stage order of each path in Table 01-4, in stage codes of Table 02-3 (the place of stage 8 in path 5 is DEDUCED,
assumption 13). -/
def chainStages (path : Nat) : List Nat :=
  match path with
  | 1 => [1, 2, 4, 6]
  | 2 => [5, 3, 1]
  | 3 => [7, 5, 3, 1]
  | 4 => [1]
  | 5 => [8, 5, 3, 1]
  | 6 => [9]
  | _ => []

/-- CHAIN (R49, R55). Stage-code bytes beyond the count are 0 (DESIGN CHOICE, assumption 157). -/
def chainCheck (body : List Byte) : Option LoadErr :=
  checkRecords 0x05 (fun r =>
    let p := rb r 0
    decide (1 ≤ p) && decide (p ≤ 6) && decide (rb r 1 < 2) && decide (rb r 2 < 16) &&
    ((rb r 1).testBit 0 || p == 5) && rb r 3 == (chainStages p).length &&
    decide ((List.range (chainStages p).length).map (fun i => rb r (4 + i)) = chainStages p) &&
    zeros r (4 + (chainStages p).length) (12 - (chainStages p).length) &&
    !((p == 1 || p == 3) && rb r 2 == 0)) (recordsOf 16 body) 0

/-- AUTHORITY (R49). -/
def authorityCheck (body : List Byte) : Option LoadErr :=
  need (((List.range 8).all fun n => decide (rb body (4 + n) < 2)) && decide (rb body 12 < 4) && zeros body 13 3)
    0x0A 0x06 0xFFFF

/-- The member bays of a GROUP record. -/
def groupBays (r : List Byte) : List Nat := (List.range (rb r 1)).map fun i => rb r (4 + i)

/-- GROUP (R49, R56). -/
def groupCheck (body : List Byte) : Option LoadErr :=
  let rs := recordsOf 32 body
  let members := rs.flatMap groupBays
  firstErr [
    checkRecords 0x07 (fun r =>
      decide (rb r 0 < 8) && decide (4 ≤ rb r 1) && decide (rb r 1 ≤ 24) && decide (14 ≤ rb r 2) && decide (rb r 2 ≤ 20) &&
      rb r 3 == 0 && (groupBays r).all (fun b => decide (b < 24)) && noRepeats (groupBays r) &&
      ((List.range (24 - rb r 1)).all fun i => rb r (4 + rb r 1 + i) == 0xFF) && rb r 31 == 0) rs 0,
    need (noRepeats members) 0x0A 0x07 0xFFFF,
    checkRecords 0x07 (fun r => members.all fun b => !(leAt r 28 3).testBit b) rs 0]

/-- BAY_PROFILE (R49). -/
def bayProfileCheck (body : List Byte) : Option LoadErr :=
  checkRecords 0x08 (fun r =>
    decide (rb r 0 < 26) && rb r 1 == 0 && decide (2 ≤ rb r 2) && decide (rb r 2 ≤ 8) && rb r 3 == 0 &&
    !(decide (24 ≤ rb r 0) && leAt r 6 2 != 0) && decide (500 ≤ leAt r 8 4) && decide (leAt r 8 4 ≤ 50000) &&
    zeros r 14 2) (recordsOf 16 body) 0

/-- The first record whose key an earlier record has: RECORD is its index. -/
def dupRecord (code : Nat) : List Nat → List Nat → Nat → Option LoadErr
  | _, [], _ => none
  | seen, k :: t, n => if seen.contains k then some ⟨0x0A, code, n⟩ else dupRecord code (k :: seen) t (n + 1)

/-- A SCHED record keeps the node id rules, the quantum range and the shaper range (R538, R539). -/
def schedRecordOk (rs : List (List Byte)) (r : List Byte) : Bool :=
  let id := leAt r 0 4
  let level := id / 2 ^ 30
  let parent := rs.find? fun q => leAt q 0 4 == leAt r 4 4
  level == rb r 8 && id / 2 ^ 25 % 32 == leAt r 10 2 && id / 2 ^ 16 % 8 == 0 &&
    (level == 3 || id / 2 ^ 19 % 64 == 0) && (level == 1 || id / 2 ^ 12 % 16 == 0) && (decide (2 ≤ level) || id % 2 ^ 12 == 0) &&
    (match parent with
      | some q => leAt q 10 2 == leAt r 10 2 && (level != 3 || leAt q 0 4 % 2 ^ 12 == id % 2 ^ 12)
      | none => level == 0) &&
    (level == 0 || decide (1024 ≤ leAt r 12 4) && decide (leAt r 12 4 ≤ 16777215)) &&
    decide (leAt r 16 4 ≤ 400000) && (leAt r 16 4 == 0 || decide (9620 ≤ leAt r 20 4))

/-- SCHED against the reset sections LANE and PANTRY (R49, R57, R538, R539). -/
def schedCheck (lane pantry body : List Byte) : Option LoadErr :=
  let rs := recordsOf 32 body
  let roots := (rs.filter fun r => rb r 8 == 0).map fun r => leAt r 10 2
  let cap := match pantryRec pantry 0x0C with
    | some r => leAt r 4 4
    | none => 0
  firstErr [
    checkRecords 0x10 (fun r => decide (rb r 8 < 4) && rb r 9 == 0 && zeros r 24 8) rs 0,
    dupRecord 0x10 [] (rs.map fun r => leAt r 0 4) 0,
    need (decide (rs.length ≤ cap)) 0x0A 0x10 0xFFFF,
    need (noRepeats roots && roots.all (fun p => (laneSubPorts lane).contains p) &&
      (laneSubPorts lane).all (fun p => roots.contains p)) 0x0A 0x10 0xFFFF,
    checkRecords 0x10 (fun r =>
      if rb r 8 = 0 then leAt r 4 4 == 0xFFFFFFFF
      else rs.any fun q => leAt q 0 4 == leAt r 4 4 && rb q 8 + 1 == rb r 8) rs 0,
    checkRecords 0x10 (schedRecordOk rs) rs 0]

/-- POLICER against LANE and PANTRY (R49, R57, R537). -/
def policerCheck (lane pantry body : List Byte) : Option LoadErr :=
  let rs := recordsOf 24 (body.drop 8)
  let cap := match pantryRec pantry 0x0D with
    | some r => leAt r 4 4
    | none => 0
  firstErr [
    need (zeros body 1 7) 0x0A 0x11 0xFFFF,
    checkRecords 0x11 (fun r => decide (rb r 2 < 2) && rb r 3 == 0 && zeros r 20 4 && leAt r 0 2 != 0xFFFF &&
      decide (leAt r 4 4 ≤ leAt r 8 4) && decide (1 ≤ leAt r 8 4) && decide (leAt r 8 4 ≤ 400000) &&
      decide (9600 ≤ leAt r 12 4) && decide (leAt r 12 4 ≤ 16777215) && decide (9600 ≤ leAt r 16 4) &&
      decide (leAt r 16 4 ≤ 16777215)) rs 0,
    dupRecord 0x11 [] (rs.map fun r => leAt r 0 2) 0,
    need (decide (rs.length ≤ cap)) 0x0A 0x11 0xFFFF,
    need ((List.range 8).all fun n => !(rb body 0).testBit n || decide (laneMode lane 0 n ≠ 0)) 0x0A 0x11 0xFFFF]

/-- BAY_LIMIT against BAY_PROFILE (R49, R57): at most 12 V times the main current threshold. -/
def bayLimitCheck (profile body : List Byte) : Option LoadErr :=
  checkRecords 0x12 (fun r =>
    decide (rb r 0 < 26) && rb r 1 == 0 && zeros r 4 4 &&
    match bayProfile profile (rb r 0) with
    | some p => decide (leAt r 2 2 * 100 ≤ 12 * leAt p 4 2)
    | none => false) (recordsOf 8 body) 0

/-- LARDER against PANTRY (R49, R57). -/
def larderCheck (pantry body : List Byte) : Option LoadErr :=
  let cap := match pantryRec pantry 0x09 with
    | some r => leAt r 4 4
    | none => 0
  need (decide (rb body 10 < 2) && zeros body 11 5 && decide (leAt body 0 4 ≤ cap) && decide (leAt body 8 2 ≤ 2000))
    0x0A 0x13 0xFFFF

/-- The record counts Table 02-2 requires. -/
def countCheck (x : Section) : Option LoadErr :=
  need (match x.code with
    | 0x01 => x.count == 128
    | 0x03 => x.count == 1
    | 0x06 => x.count == 1
    | 0x08 => x.count == 26
    | 0x12 => x.count == 26
    | 0x13 => x.count == 1
    | _ => true) 0x0A x.code 0xFFFF

/-- The checks of one section against the sections it depends on: the image's own, or those in force for a partial image
(R49 to R57, R667). -/
def sectionCheck (flags : Nat) (body : Nat → List Byte) (x : Section) : Option LoadErr :=
  firstErr [countCheck x,
    match x.code with
    | 0x01 => islandCheck x.body
    | 0x02 => laneCheck flags x.body
    | 0x03 => agentCheck flags (body 0x02) x.body
    | 0x04 => pantryCheck x.body
    | 0x05 => chainCheck x.body
    | 0x06 => authorityCheck x.body
    | 0x07 => groupCheck x.body
    | 0x08 => bayProfileCheck x.body
    | 0x10 => schedCheck (body 0x02) (body 0x04) x.body
    | 0x11 => policerCheck (body 0x02) (body 0x04) x.body
    | 0x12 => bayLimitCheck (body 0x08) x.body
    | 0x13 => larderCheck (body 0x04) x.body
    | _ => none]

/-- The bytes before the signature block. -/
def signedPart (img : List Byte) : List Byte := img.take (img.length - 208)

/-- A signature block's layout (R47): the public key, the signature and zeros between. -/
def sigBlockOk (sig : List Byte) : Bool := rb sig 0 == 4 && zeros sig 97 7 && zeros sig 200 8

/-- Key slot check of R58: 0x06 KEY_SLOT. -/
def keySlotOk (keys : Tab KeySlot) (slot : Nat) (sig : List Byte) : Bool :=
  match Tab.find? slot keys with
  | some k => !k.revoked && decide (k.hash = some (sha384 (sig.take 97)))
  | none => false

/-- The signature of a signature block over a digest (R59). -/
def signatureOk (sig : List Byte) (digest : Nat) : Bool :=
  sigBlockOk sig && ecdsaVerify (beAt sig 1 48) (beAt sig 49 48) (beAt sig 104 48) (beAt sig 152 48) digest

/-- The signing checks of an Inventory image (R58, R59). -/
def signingCheck (keys : Tab KeySlot) (img : List Byte) : Option LoadErr :=
  let sig := img.drop (img.length - 208)
  firstErr [
    need (keySlotOk keys (leAt img 42 1) sig) 0x06 0 0xFFFF,
    need (beAt img 48 48 == sha384 (slice img 128 (img.length - 336))) 0x04 0 0xFFFF,
    need (signatureOk sig (sha384 (signedPart img))) 0x05 0 0xFFFF]

/-- The sections of an image that passes R50 to R59; `inForce` gives the sections a partial image is checked against. An image
whose PARTIAL flag is not that of the commit is rejected with FIELD (DESIGN CHOICE, assumption 117). -/
def imageCheck (keys : Tab KeySlot) (part : Bool) (flagsInForce : Nat) (inForce : Nat → List Byte) (img : List Byte) :
    Except LoadErr (List Section) :=
  match headerCheck img with
  | some e => .error e
  | none =>
    if (leAt img 6 2).testBit 0 != part then .error ⟨0x0A, 0, 0xFFFF⟩ else
    match parseSections (leAt img 40 2) 0 (slice img 128 (img.length - 336)) with
    | .error e => .error e
    | .ok xs =>
      let own := fun c => match xs.find? fun (x : Section) => x.code == c with
        | some x => x.body
        | none => if part then inForce c else []
      let flags := if part then flagsInForce else leAt img 6 2
      match firstErr ([
        if part then need (decide (xs ≠ [])) 0x0A 0 0xFFFF else none,
        if part then (xs.find? fun (x : Section) => decide (x.code < 0x10)).map fun x => ⟨0x0D, x.code, 0xFFFF⟩ else none,
        if part then none else (sectionTypes.find? fun t => t.2 && !xs.any fun (x : Section) => x.code == t.1).map fun t =>
          ⟨0x0B, t.1, 0xFFFF⟩] ++ xs.map (sectionCheck flags own) ++ [signingCheck keys img]) with
      | some e => .error e
      | none => .ok xs

/-- The sections of an image as a table. -/
def sectionTable (xs : List Section) : Tab (List Byte) := xs.map fun x => (x.code, x.body)

end Sys2Proof.Machine
end

