-- ==== Sys2Proof/Machine/Channels.lean ====
section
/-!
DEFINITION. The channels of the bay power die (15_bay_power.md): switching sub-channels, latches and what they report.
-/

namespace Sys2Proof.Machine

/-- A sub-channel after reset: OFF (Table 15-10). -/
def subDefault : SubChan where
  state := .off
  pg := false
  cause := 0
  limiting := none
  reverse := false
  since := 0
  disabledAt := none
  vout := 0
  vin := 0
  cur := 0
  pow := 0
  avg := []
  energy := 0

/-- A sub-channel: channel 0 to 25, sub 0 main or 1 auxiliary. -/
def State.sub (s : State) (n k : Nat) : SubChan := Tab.getD (n * 2 + k) subDefault s.bay.subs

/-- Set a sub-channel. -/
def State.setSub (s : State) (n k : Nat) (x : SubChan) : State := s.onBay fun b => { b with subs := Tab.put subDefault (n * 2 + k) x b.subs }

/-- A sub-channel exists: a feed has a main one only. -/
def subExists (n k : Nat) : Bool := decide (n < 26) && decide (k < 2) && (k == 0 || decide (n < 24))

/-- The enable field of a sub-channel (Table 15-9). -/
def enField (n k : Nat) : Fld := if k = 0 then F.BAY_EN_MAIN_EN n else F.BAY_EN_AUX_EN n

/-- The state's code (Table 15-10). -/
def SubState.code : SubState → Nat
  | .off => 0
  | .ramping => 1
  | .on => 2
  | .latched => 3

/-- The eight bits of BAY_STATE that one sub-channel has (Table 15-10). -/
def SubChan.view (x : SubChan) : Nat :=
  x.state.code + 4 * ofBool x.pg + 8 * x.cause + 64 * ofBool x.limiting.isSome + 128 * ofBool x.reverse

/-- BAY_STATE[n] as read (Table 15-10). -/
def State.bayState (s : State) (n : Nat) : Nat :=
  (s.sub n 0).view + 256 * (if n < 24 then (s.sub n 1).view else 0) + 65536 * ofBool (s.bay.overLimit.contains n)

/-- A record of class HARDWARE of a channel (Table 19-6). -/
def State.tallyBay (s : State) (f : Fld) (n cause : Nat) : State := s.tallyFlag .hardware f n [s.bayState n, cause]

/-- Power-good of a sub-channel falls, if it was given (R586). -/
def State.pgFall (s : State) (n k : Nat) : State :=
  let x := s.sub n k
  if x.pg then (s.setSub n k { x with pg := false }).flag F.BAY_STATUS_PG_CHANGE else s

/-- R579: a write of 1 to an enable bit is ignored. -/
def State.enIgnored (s : State) : Bool :=
  !s.inv.lock || s.bay.powerLoss || match s.glb.phase with
    | .running => false
    | .held => false
    | _ => true

/-- The enable bit of a sub-channel goes from 0 to 1 (R578, R579, R583). -/
def State.enableSub (s : State) (n k : Nat) : State :=
  if subExists n k ∧ !s.enIgnored ∧ !s.is (enField n k) then
    let s := s.setFld (enField n k) 1
    let x := s.sub n k
    match x.state with
    | .off => s.setSub n k { x with state := .ramping, cause := 0, since := s.now, disabledAt := none, limiting := none }
    | _ => s.setSub n k { x with disabledAt := none }
  else s

/-- The enable bit of a sub-channel goes from 1 to 0, by software or by the K24 (Table 15-2, R583). -/
def State.disableSub (s : State) (n k : Nat) : State :=
  if subExists n k ∧ s.is (enField n k) then
    let s := (s.setFld (enField n k) 0).pgFall n k
    let x := { s.sub n k with disabledAt := some s.now }
    match x.state with
    | .latched => s.setSub n k x
    | _ => s.setSub n k { x with state := .off, limiting := none, reverse := false }
  else s

/-- Both enables of a bay are cleared (R588, R590). -/
def State.bayOff (s : State) (n : Nat) : State := (s.disableSub n 0).disableSub n 1

/-- The counter of a cause (Table 15-12). -/
def causeCounter (n cause : Nat) : Nat :=
  if cause = 1 then A.BAY_BREAKER_TRIPS n else if cause = 2 then A.BAY_TIMER_TRIPS n else A.BAY_INRUSH_TRIPS n

/-- One sub-channel latches off: `counted` is the cause it counts under (R584, Table 15-12). -/
def State.latchOne (s : State) (n k cause counted : Nat) : State :=
  let s := s.pgFall n k
  let s := s.setSub n k { s.sub n k with state := .latched, cause := cause, limiting := none, reverse := false }
  (((s.flag F.BAY_STATUS_LATCHED).bump (causeCounter n counted)).tallyBay F.BAY_STATUS_LATCHED n cause).event (.bayFault n)

/-- A sub-channel is in RAMPING or ON. -/
def SubChan.runs (x : SubChan) : Bool := decide (x.state = .ramping) || decide (x.state = .on)

/-- A sub-channel latches off with a cause, and its partner with it (R582, R584). -/
def State.latchOff (s : State) (n k cause : Nat) : State :=
  if subExists n k ∧ (s.sub n k).runs then
    let s := s.latchOne n k cause cause
    if n < 24 ∧ (s.sub n (1 - k)).runs then s.latchOne n (1 - k) 4 cause else s
  else s

/-- Both power-good signals of a bay are given. -/
def State.bayPowered (s : State) (n : Nat) : Bool := (s.sub n 0).pg && (s.sub n 1).pg

/-- Neither power-good signal of a bay is given. -/
def State.bayDark (s : State) (n : Nat) : Bool := !(s.sub n 0).pg && !(s.sub n 1).pg

end Sys2Proof.Machine
end

