-- ==== Sys2Proof/Machine/PeerSend.lean ====
section
/-!
DEFINITION. Sending on the peer link, as every engine that mirrors does (17_peer_and_takeover.md).
-/

namespace Sys2Proof.Machine

/-- The peer message types (Table 17-2). -/
abbrev Pm.heartbeat : Nat := 1
abbrev Pm.mirrorIntent : Nat := 2
abbrev Pm.mirrorBlocks : Nat := 3
abbrev Pm.mirrorAck : Nat := 4
abbrev Pm.completed : Nat := 5
abbrev Pm.retire : Nat := 6
abbrev Pm.clockMark : Nat := 7
abbrev Pm.lostRange : Nat := 8
abbrev Pm.health : Nat := 9
abbrev Pm.mirrorStart : Nat := 10
abbrev Pm.offer : Nat := 11
abbrev Pm.accept : Nat := 12
abbrev Pm.handoverDone : Nat := 13
abbrev Pm.join : Nat := 14

/-- Send a message on the peer link under the next SEQ (R637): it stays until ACK_SEQ covers it. -/
def State.peerSend (s : State) (kind : Nat) (payload : List Byte) : State :=
  s.onPeer fun p =>
    { p with unacked := p.unacked ++ [⟨kind, p.txSeq, payload, s.now⟩], txSeq := (p.txSeq + 1) % 2 ^ 32 }

/-- Mirroring is in force (R643). -/
def State.mirroring (s : State) : Bool := decide (s.peer.state = .mirrored)

/-- INV_RESIDENT_SERIAL: the highest serial that has supplied a resident section (R73). -/
def State.residentSerial (s : State) : Nat := s.attic.resident.foldl (fun n r => max n r.serial) 0

/-- The side is FENCED: its engines stop (R657). -/
def State.isFenced (s : State) : Bool := decide (s.peer.state = .fenced)

/-- This side keeps a group's rebuild walk, patrol and spares: every group in a single-controller shelf, the groups it owns
otherwise (R630). -/
def State.ownsGroup (s : State) (g : Nat) : Bool := !s.twoControllers || s.peer.own.testBit g

/-- This side walks and patrols a group: not one it is handing over (R652). -/
def State.walksGroup (s : State) (g : Nat) : Bool :=
  s.ownsGroup g && match s.peer.giving with | some h => !h.groups.testBit g | none => true

/-- The peer holds copies that changes must reach: mirroring is in force, or its copies are being made (R650). -/
def State.peerFollows (s : State) : Bool :=
  s.mirroring || (decide (s.peer.state = .joining) && s.peer.startSent && s.peer.startGot)

/-- Send a message if the peer follows. -/
def State.peerTell (s : State) (kind : Nat) (payload : List Byte) : State :=
  s.when s.peerFollows fun s => s.peerSend kind payload

/-- Tell the peer a group clock's mark (R646). -/
def State.tellClock (s : State) (g mark : Nat) : State := s.peerTell Pm.clockMark (beBytes 1 g ++ beBytes 6 mark)

/-- Tell the peer a lost-range entry (R646): the entry keeps the layout of Table 09-3. -/
def State.tellLost (s : State) (g i : Nat) (e : LostEntry) : State :=
  s.peerTell Pm.lostRange (beBytes 1 g ++ beBytes 2 i ++ toBytes 16 e)

end Sys2Proof.Machine
end

