-- ==== Sys2Proof/Machine/Cellar.lean ====
section
/-!
DEFINITION. The Cellar and the flows of the Hoist (03_cellar_and_hoist.md): addresses, regions, poison, reads and writes of
cells, and how a flow of cells is opened and fed.
-/

namespace Sys2Proof.Machine

/-! ### Addresses (R87, R88) -/

/-- Bank group of a cell index. -/
def bankGroup (caddr : Nat) : Nat := (caddr % 32 + caddr / 32 % 32 + caddr / 2 ^ 18 % 32) % 32

/-- Segment of a cell index. -/
def segmentOf (caddr : Nat) : Nat := caddr / 2 ^ 18

/-- Slice of a cell index: segment * 32 + bank group. -/
def sliceOf (caddr : Nat) : Nat := segmentOf caddr * 32 + bankGroup caddr

/-- Default place of a slice: pseudo-channel and slice slot. -/
def defaultPlace (slice : Nat) : Nat × Nat := (2 * (slice % 32) + slice / 32 % 2, slice / 64)

/-- Place of a slice now: the slice map's if switched (R120). -/
def State.slicePlace (s : State) (slice : Nat) : Nat × Nat := Tab.getD slice (defaultPlace slice) s.hst.sliceMap

/-- A pseudo-channel's record; ACTIVE where nothing is listed. -/
def pcDefault : PcRec := ⟨.active, 0, 0, [], false⟩

/-- The record of a pseudo-channel. -/
def State.pc (s : State) (p : Nat) : PcRec := Tab.getD p pcDefault s.hst.pcs

/-- Set the record of a pseudo-channel. -/
def State.setPc (s : State) (p : Nat) (r : PcRec) : State := { s with hst := { s.hst with pcs := Tab.put pcDefault p r s.hst.pcs } }

/-- Reads of the slice return POISON and writes are acknowledged FAILED: it stands on a retired pseudo-channel and is not
switched, or on one in the failure condition outside the limits (R85, R118, Table 03-5). -/
def State.sliceFailed (s : State) (slice : Nat) : Bool :=
  let r := s.pc (s.slicePlace slice).1
  decide (r.state = .retired) || r.critical

/-! ### Regions (R89) -/

/-- Kind of the region that holds a segment; 0 outside every region (Table 03-3). -/
def State.regionKind (s : State) (seg : Nat) : Nat :=
  match (List.range 8).find? fun n => decide (seg < 768) && decide (s.fld (F.HST_REGION_BASE n) ≤ seg) &&
      decide (seg < s.fld (F.HST_REGION_BASE n) + s.fld (F.HST_REGION_COUNT n)) &&
      decide (s.fld (F.HST_REGION_KIND n) ≠ 0) with
  | some n => s.fld (F.HST_REGION_KIND n)
  | none => 0

/-- The first region of a kind: first segment and number of segments that exist (R87). -/
def State.regionOf (s : State) (kind : Nat) : Option (Nat × Nat) :=
  ((List.range 8).find? fun n => s.fld (F.HST_REGION_KIND n) == kind).map fun n =>
    (s.fld (F.HST_REGION_BASE n), min (s.fld (F.HST_REGION_COUNT n)) (768 - s.fld (F.HST_REGION_BASE n)))

/-- Byte address of the first segment of a region of a kind. -/
def State.regionBase (s : State) (kind : Nat) : Nat :=
  match s.regionOf kind with
  | some (b, _) => b * 2 ^ 26
  | none => 0

/-- Bytes of the first region of a kind. -/
def State.regionSize (s : State) (kind : Nat) : Nat :=
  match s.regionOf kind with
  | some (_, c) => c * 2 ^ 26
  | none => 0

/-- A byte range lies wholly within one region of a kind. -/
def State.inRegion (s : State) (kind addr len : Nat) : Bool :=
  (List.range 8).any fun n => s.fld (F.HST_REGION_KIND n) == kind &&
    decide (s.fld (F.HST_REGION_BASE n) * 2 ^ 26 ≤ addr) && decide (addr + len ≤ 768 * 2 ^ 26) &&
    decide (addr + len ≤ (s.fld (F.HST_REGION_BASE n) + s.fld (F.HST_REGION_COUNT n)) * 2 ^ 26)

/-! ### Stored bytes and poison -/

/-- Cellar bytes; a byte nothing has written reads 0 (assumption 14). -/
def State.cellar (s : State) (addr n : Nat) : List Byte := Mem.read 0 s.hst.mem addr n

/-- A cell of a slice switched with the poison pattern and not yet fully written (Table 03-5). -/
def Hst.cellBad (h : Hst) (caddr : Nat) : Bool := h.badSlices.contains (sliceOf caddr) && !h.goodCells.contains caddr

/-- A cell delivers POISON: its slice has failed, or it holds a poisoned granule (R109, Table 03-5). -/
def State.cellPoison (s : State) (caddr : Nat) : Bool :=
  s.sliceFailed (sliceOf caddr) || s.hst.cellBad caddr || s.hst.poison.any fun g => g / 8 == caddr

/-- A byte range touches a cell that delivers POISON. -/
def State.rangePoison (s : State) (addr len : Nat) : Bool :=
  (List.range ((addr + len + 255) / 256 - addr / 256)).any fun k => s.cellPoison (addr / 256 + k)

/-- Write bytes to the Cellar: a granule wholly covered is no longer poisoned (R84, R109), and a full-cell write ends the
poison pattern of its cell. -/
def Hst.write (h : Hst) (addr : Nat) (data : List Byte) : Hst :=
  let stop := addr + data.length
  { h with
    mem := Mem.write 0 h.mem addr data
    poison := h.poison.filter fun g => !(decide (addr ≤ 32 * g) && decide (32 * g + 32 ≤ stop))
    goodCells := (List.range (stop / 256 - (addr + 255) / 256)).foldl (fun l k =>
      let c := (addr + 255) / 256 + k
      if h.badSlices.contains (sliceOf c) then insertNat c l else l) h.goodCells }

/-- Some pseudo-channel fails the cells of its slices. -/
def State.anyFailed (s : State) : Bool := s.hst.pcs.any fun x => decide (x.2.state = .retired) || x.2.critical

/-- A write of a cell is acknowledged FAILED: its segment is outside every region, or its slice has failed (R85). -/
def State.cellFailed (s : State) (caddr : Nat) : Bool :=
  decide (s.regionKind (segmentOf caddr) = 0) || s.sliceFailed (sliceOf caddr)

/-- A byte range touches a cell to which a write is acknowledged FAILED. -/
def State.rangeFailed (s : State) (addr len : Nat) : Bool :=
  ((List.range ((addr + len + 2 ^ 26 - 1) / 2 ^ 26 - addr / 2 ^ 26)).any fun k => decide (s.regionKind (addr / 2 ^ 26 + k) = 0)) ||
    (s.anyFailed && (List.range ((addr + len + 255) / 256 - addr / 256)).any fun k => s.sliceFailed (sliceOf (addr / 256 + k)))

/-- Cut bytes over the cells of a run: address and bytes of each part. -/
def cutCells : List (Nat × Nat × Nat) → List Byte → List (Nat × List Byte)
  | [], _ => []
  | r :: t, l => (256 * r.1 + r.2.1, l.take r.2.2) :: cutCells t (l.drop r.2.2)

/-- The cells that cover a byte range: cell index, start and length each. -/
def coverCells : Nat → Nat → Nat → List (Nat × Nat × Nat)
  | 0, _, _ => []
  | k + 1, addr, len =>
    if len = 0 then []
    else
      let n := min len (256 - addr % 256)
      (addr / 256, addr % 256, n) :: coverCells k (addr + n) (len - n)

/-- Cells that cover a byte range. -/
def cellSpan (addr len : Nat) : Nat := if len = 0 then 0 else (addr + len + 255) / 256 - addr / 256

/-- Cells an agent sends into the ingress crossbar, counted where the model does not carry them one by one (Table 03-18,
assumption 15). -/
def State.cellsSent (s : State) (agent n : Nat) : State := if n = 0 then s else s.bump (A.HST_AGENT_CELLS_IN agent) n

/-- Cells an agent takes from the egress crossbar, counted likewise. -/
def State.cellsTaken (s : State) (agent n : Nat) : State := if n = 0 then s else s.bump (A.HST_AGENT_CELLS_OUT agent) n

/-- Write bytes to the Cellar: a cell whose write is acknowledged FAILED takes nothing (R85). -/
def State.cellarPut (s : State) (addr : Nat) (data : List Byte) : State :=
  if s.rangeFailed addr data.length then
    { s with hst := (cutCells (coverCells (data.length / 256 + 2) addr data.length) data).foldl (fun h x =>
        if s.cellFailed (x.1 / 256) then h else h.write x.1 x.2) s.hst }
  else { s with hst := s.hst.write addr data }

/-- Write bytes to the Cellar for an agent whose cells the model does not carry one by one (assumption 15). -/
def State.cellarWrite (s : State) (agent addr : Nat) (data : List Byte) : State :=
  (s.cellarPut addr data).cellsSent agent (cellSpan addr data.length)

/-! ### Cells -/

/-- KIND of a cell (Table 03-2). -/
def CellKind.code : CellKind → Nat
  | .write => 1
  | .read => 2
  | .testWrite => 3
  | .testRead => 4

/-- Header bits 111:0 of a cell (Table 03-1). -/
def HCell.headerLow (c : HCell) : BitVec 128 :=
  let x : BitVec 128 := 0
  let x := putBits x 0 6 c.src
  let x := putBits x 8 6 c.dst
  let x := putBits x 16 5 (bankGroup c.caddr)
  let x := putBits x 24 20 c.flow
  let x := putBits x 44 16 c.seq
  let x := putBits x 60 4 c.kind.code
  let x := putBits x 64 1 (ofBool c.last)
  let x := putBits x 65 1 (ofBool c.poison)
  let x := putBits x 66 8 c.start
  let x := putBits x 74 9 c.data.length
  putBits x 83 28 c.caddr

/-- The cell header with HCHK (R78, R79). -/
def HCell.header (c : HCell) : BitVec 128 :=
  let x := c.headerLow
  putBits x 112 16 (crc16 (toBytes 14 x)).toNat

/-- HCHK of a header holds (R79). -/
def hchkOk (h : BitVec 128) : Bool := getBits h 112 16 == (crc16 (toBytes 14 (putBits h 112 16 0))).toNat

/-- Read a cell's kind (Table 03-2). -/
def cellKindOf (k : Nat) : Option CellKind :=
  match k with
  | 1 => some .write
  | 2 => some .read
  | 3 => some .testWrite
  | 4 => some .testRead
  | _ => none

/-- The cell that a received header and its payload describe. -/
def cellOf (k : CellKind) (h : BitVec 128) (payload : List Byte) : HCell where
  src := getBits h 0 6
  dst := getBits h 8 6
  flow := getBits h 24 20
  seq := getBits h 44 16
  kind := k
  last := bit h 64
  poison := bit h 65
  start := getBits h 66 8
  caddr := getBits h 83 28
  data := padTo (getBits h 74 9) payload

/-- Count a cell dropped at a crossbar port (R80). -/
def State.cellDrop (s : State) : State := (s.bump A.HST_HCHK_ERR).flag F.HST_STATUS_HCHK_ERR

/-- What the bank group answers to a write cell (R84, R85). A write of part of a cell that still reads the poison pattern of
its slice is POISONED, also where it covers whole granules (DEDUCED, assumption 121). -/
def State.writeOutcome (s : State) (c : HCell) : AckOutcome :=
  let kind := s.regionKind (segmentOf c.caddr)
  if s.cellFailed c.caddr ∨ (c.kind = .testWrite ∧ kind ≠ 7) then .failed
  else
    let full := c.start = 0 ∧ c.data.length = 256
    let lo := 256 * c.caddr + c.start
    let hi := lo + c.data.length
    if (s.hst.cellBad c.caddr ∧ ¬ full) ∨
      (s.hst.poison.any fun g => decide (32 * g < hi) && decide (lo < 32 * g + 32) &&
        !(decide (lo ≤ 32 * g) && decide (32 * g + 32 ≤ hi))) then .poisoned
    else .ok

/-- A cell's payload as the bank group delivers it: bytes and POISON (R82, R109). -/
def State.readCell (s : State) (c : HCell) (len : Nat) : HCell :=
  { c with data := s.cellar (256 * c.caddr + c.start) len, poison := s.cellPoison c.caddr }

/-! ### Flows -/

/-- RESEQ_TIMEOUT in ns, 2 to 100 us (Table 03-8). -/
def State.reseqTimeout (s : State) : Nat := 1000 * max 2 (min 100 (s.fld F.HST_CTRL_RESEQ_TIMEOUT))

/-- A FLOW id may be assigned: not in use, nor released less than 2 x RESEQ_TIMEOUT ago (R97). -/
def State.flowFree (s : State) (id : Nat) : Bool :=
  !(s.hst.flows.any fun f => f.id == id) &&
    !(s.hst.freedFlows.any fun p => p.1 == id && decide (s.now < p.2 + 2 * s.reseqTimeout))

/-- The first free FLOW id from n on, within a number of tries. -/
def State.pickFlow (s : State) : Nat → Nat → Nat
  | 0, n => n % 2 ^ 20
  | k + 1, n => if s.flowFree (n % 2 ^ 20) then n % 2 ^ 20 else s.pickFlow k (n + 1)

/-- The cells of runs of the Cellar, in order. -/
def runCells (runs : List (Nat × Nat)) : List (Nat × Nat × Nat) :=
  runs.flatMap fun r => coverCells (r.2 / 256 + 2) r.1 r.2

/-- Cells an agent has in its ingress buffer (R91). -/
def Hst.ingressFill (h : Hst) (agent : Nat) : Nat :=
  ((List.range 32).map fun b => (Tab.getD (agent * 32 + b) [] h.voq).length).sum

/-- Slots an agent's resequencer has reserved: requested and not yet released (R100). -/
def Hst.slotsUsed (h : Hst) (agent : Nat) : Nat :=
  ((h.flows.filter fun f => f.agent == agent && f.egress).map fun f => f.issued - f.next).sum

/-- Put the next cell of an ingress flow into its agent's virtual output queue (R91, R99). -/
def State.sendCell (s : State) (f : Flow) (c : HCell) : State :=
  let q := f.agent * 32 + bankGroup c.caddr
  { s with hst := { s.hst with
      voq := Tab.modify [] q (· ++ [c]) s.hst.voq
      flows := replaceFirst (fun g => g.id == f.id)
        (fun g => { g with issued := g.issued + 1, sent := g.sent ++ [(c.seq, s.now, false)] }) s.hst.flows } }

/-- Request the next cell of an egress flow: its bank group accepts the read and holds the cell ready (R82, R100). -/
def State.requestCell (s : State) (f : Flow) (c : HCell) : State :=
  let q := bankGroup c.caddr * 42 + f.agent
  { s with hst := { s.hst with
      rq := Tab.modify [] q (· ++ [s.readCell c c.data.length]) s.hst.rq
      flows := replaceFirst (fun g => g.id == f.id) (fun g => { g with issued := g.issued + 1 }) s.hst.flows } }

/-- Feed one cell of a flow if its agent has room (R91, R98, R100). -/
def State.feedOne (s : State) (id : Nat) : State :=
  match s.hst.flows.find? fun f => f.id == id with
  | none => s
  | some f =>
    match f.cells[f.issued]? with
    | none => s
    | some c =>
      if f.egress then
        if s.hst.slotsUsed f.agent < 1024 ∧ f.issued - f.next < 512 ∧
            (Tab.getD (bankGroup c.caddr * 42 + f.agent) [] s.hst.rq).length < 64 then s.requestCell f c else s
      else if s.hst.ingressFill f.agent < 512 then s.sendCell f c else s

/-- Feed a flow as far as its agent has room. -/
def State.feed (s : State) (id n : Nat) : State := (List.range n).foldl (fun t _ => t.feedOne id) s

/-- Feed the flows of an agent that have cells left. -/
def State.feedAgent (s : State) (agent : Nat) : State :=
  (s.hst.flows.filter fun f => f.agent == agent && decide (f.issued < f.cells.length)).foldl
    (fun t f => t.feed f.id (f.cells.length - f.issued)) s

/-- The cell of a flow at a place of a run. -/
def flowCell (agent id : Nat) (egress test : Bool) (n i : Nat) (r : Nat × Nat × Nat) (data : List Byte) : HCell where
  src := agent
  dst := if egress then agent else 0x3F
  flow := id
  seq := i
  kind := match egress, test with
    | true, true => .testRead
    | true, false => .read
    | false, true => .testWrite
    | false, false => .write
  last := i + 1 == n
  poison := false
  start := r.2.1
  caddr := r.1
  data := data

/-- Number the cells of a flow and cut the payload over them; an egress cell holds as many zeros as it asks for. -/
def flowCells (agent id : Nat) (egress test : Bool) (n : Nat) :
    Nat → List (Nat × Nat × Nat) → List Byte → List HCell
  | _, [], _ => []
  | i, r :: t, l => flowCell agent id egress test n i r (padTo r.2.2 l) ::
      flowCells agent id egress test n (i + 1) t (l.drop r.2.2)

/-- Open a flow over runs of the Cellar (R97, R98): an ingress flow carries the payload given. -/
def State.openFlow (s : State) (agent : Nat) (egress : Bool) (use : FlowUse) (runs : List (Nat × Nat))
    (payload : List Byte) (retry : Bool) : State :=
  let id := s.pickFlow (s.hst.flows.length + s.hst.freedFlows.length + 1) s.hst.nextFlow
  let rs := runCells runs
  let f : Flow := {
    id := id, agent := agent, egress := egress, use := use
    cells := flowCells agent id egress (decide (use = .test)) rs.length 0 rs payload
    issued := 0, next := 0, held := [], got := [], acked := [], sent := [], lastArrival := s.now
    retry := retry, poison := false }
  ({ s with hst := { s.hst with flows := s.hst.flows ++ [f], nextFlow := (id + 1) % 2 ^ 20 } }).feed id rs.length

/-- End a flow: its id is released (R97). -/
def State.closeFlow (s : State) (id : Nat) : State :=
  { s with hst := { s.hst with
      flows := s.hst.flows.filter fun f => f.id != id
      freedFlows := (s.hst.freedFlows.filter fun p => decide (s.now < p.2 + 2 * s.reseqTimeout)) ++ [(id, s.now)] } }

end Sys2Proof.Machine
end

