-- ==== Sys2Proof/Machine/Operands.lean ====
section
/-!
DEFINITION. The little-endian structures the spec gives by byte (R2): one named part per field of each table.
-/

namespace Sys2Proof.Machine

/-- A field of a byte structure: offset and length in bytes. -/
structure Part where
  off : Nat
  len : Nat
  deriving DecidableEq, Repr

/-- A field's value. -/
def getPart {m : Nat} (x : BitVec m) (p : Part) : Nat := getBytes x p.off p.len

/-- The structure with a field replaced. -/
def putPart {m : Nat} (x : BitVec m) (p : Part) (v : Nat) : BitVec m := putBytes x p.off p.len v

/-! SA entry, 256 B (Table 04-10) -/

/-- state of the SA entry. -/
abbrev Sa.state : Part := ⟨0, 1⟩
/-- kind of the SA entry. -/
abbrev Sa.kind : Part := ⟨1, 1⟩
/-- segment of the SA entry. -/
abbrev Sa.segment : Part := ⟨2, 1⟩
/-- dscp of the SA entry. -/
abbrev Sa.dscp : Part := ⟨3, 1⟩
/-- endpoint of the SA entry. -/
abbrev Sa.endpoint : Part := ⟨4, 2⟩
/-- hopLimit of the SA entry. -/
abbrev Sa.hopLimit : Part := ⟨6, 1⟩
/-- flags of the SA entry. -/
abbrev Sa.flags : Part := ⟨7, 1⟩
/-- remoteSa of the SA entry. -/
abbrev Sa.remoteSa : Part := ⟨8, 4⟩
/-- remotePort of the SA entry. -/
abbrev Sa.remotePort : Part := ⟨12, 2⟩
/-- pathBase of the SA entry. -/
abbrev Sa.pathBase : Part := ⟨14, 2⟩
/-- addr0 of the SA entry. -/
abbrev Sa.addr0 : Part := ⟨16, 16⟩
/-- addr1 of the SA entry. -/
abbrev Sa.addr1 : Part := ⟨32, 16⟩
/-- path of the SA entry. -/
abbrev Sa.path : Part := ⟨48, 16⟩
/-- pathState of the SA entry. -/
abbrev Sa.pathState : Part := ⟨64, 4⟩
/-- cwnd of the SA entry. -/
abbrev Sa.cwnd : Part := ⟨68, 4⟩
/-- txCounter of the SA entry. -/
abbrev Sa.txCounter : Part := ⟨72, 8⟩
/-- rxRight of the SA entry. -/
abbrev Sa.rxRight : Part := ⟨80, 8⟩
/-- replay of the SA entry. -/
abbrev Sa.replay : Part := ⟨88, 64⟩
/-- txNextId of the SA entry. -/
abbrev Sa.txNextId : Part := ⟨152, 6⟩
/-- rotate of the SA entry. -/
abbrev Sa.rotate : Part := ⟨158, 2⟩
/-- rxLeft of the SA entry. -/
abbrev Sa.rxLeft : Part := ⟨160, 6⟩
/-- reapFloor of the SA entry. -/
abbrev Sa.reapFloor : Part := ⟨168, 6⟩
/-- msgWindow of the SA entry. -/
abbrev Sa.msgWindow : Part := ⟨176, 64⟩
/-- srtt of the SA entry. -/
abbrev Sa.srtt : Part := ⟨240, 4⟩
/-- rttvar of the SA entry. -/
abbrev Sa.rttvar : Part := ⟨244, 4⟩
/-- challenge of the SA entry. -/
abbrev Sa.challenge : Part := ⟨248, 8⟩

/-! Window key entry, 32 B (Table 05-1) -/

/-- state of the window key entry. -/
abbrev Key.state : Part := ⟨0, 1⟩
/-- perms of the window key entry. -/
abbrev Key.perms : Part := ⟨1, 1⟩
/-- generation of the window key entry. -/
abbrev Key.generation : Part := ⟨2, 2⟩
/-- endpoint of the window key entry. -/
abbrev Key.endpoint : Part := ⟨4, 2⟩
/-- kind of the window key entry. -/
abbrev Key.kind : Part := ⟨6, 1⟩
/-- pend of the window key entry. -/
abbrev Key.pend : Part := ⟨7, 1⟩
/-- base of the window key entry. -/
abbrev Key.base : Part := ⟨8, 8⟩
/-- length of the window key entry. -/
abbrev Key.length : Part := ⟨16, 4⟩
/-- inflightCur of the window key entry. -/
abbrev Key.inflightCur : Part := ⟨20, 3⟩
/-- inflightOld of the window key entry. -/
abbrev Key.inflightOld : Part := ⟨24, 3⟩
/-- fenceMs of the window key entry. -/
abbrev Key.fenceMs : Part := ⟨28, 4⟩

/-! Token, 16 B (Table 05-2) -/

/-- key of the token. -/
abbrev Token.key : Part := ⟨0, 4⟩
/-- length of the token. -/
abbrev Token.length : Part := ⟨4, 4⟩
/-- base of the token. -/
abbrev Token.base : Part := ⟨8, 8⟩

/-! Command capsule, 64 B (Table 06-1) -/

/-- opcode of the command capsule. -/
abbrev Cap.opcode : Part := ⟨0, 1⟩
/-- flags of the command capsule. -/
abbrev Cap.flags : Part := ⟨1, 1⟩
/-- tag of the command capsule. -/
abbrev Cap.tag : Part := ⟨2, 1⟩
/-- queue of the command capsule. -/
abbrev Cap.queue : Part := ⟨3, 1⟩
/-- incarnation of the command capsule. -/
abbrev Cap.incarnation : Part := ⟨4, 2⟩
/-- volume of the command capsule. -/
abbrev Cap.volume : Part := ⟨6, 2⟩
/-- lba of the command capsule. -/
abbrev Cap.lba : Part := ⟨8, 6⟩
/-- blockCount of the command capsule. -/
abbrev Cap.blockCount : Part := ⟨14, 2⟩
/-- dataToken of the command capsule. -/
abbrev Cap.dataToken : Part := ⟨16, 16⟩
/-- ringToken of the command capsule. -/
abbrev Cap.ringToken : Part := ⟨32, 16⟩
/-- arg0 of the command capsule. -/
abbrev Cap.arg0 : Part := ⟨48, 8⟩
/-- arg1 of the command capsule. -/
abbrev Cap.arg1 : Part := ⟨56, 8⟩

/-! Completion entry, 16 B (Table 06-4) -/

/-- result of the completion entry. -/
abbrev Cpl.result : Part := ⟨0, 4⟩
/-- status of the completion entry. -/
abbrev Cpl.status : Part := ⟨4, 2⟩
/-- incarnation of the completion entry. -/
abbrev Cpl.incarnation : Part := ⟨6, 2⟩
/-- tag of the completion entry. -/
abbrev Cpl.tag : Part := ⟨8, 1⟩
/-- queue of the completion entry. -/
abbrev Cpl.queue : Part := ⟨9, 1⟩
/-- service of the completion entry. -/
abbrev Cpl.service : Part := ⟨10, 1⟩
/-- phase of the completion entry. -/
abbrev Cpl.phase : Part := ⟨15, 1⟩

/-! Extent map entry, 32 B (Table 07-2) -/

/-- state of the extent map entry. -/
abbrev Ext.state : Part := ⟨0, 1⟩
/-- group of the extent map entry. -/
abbrev Ext.group : Part := ⟨1, 1⟩
/-- altGroup of the extent map entry. -/
abbrev Ext.altGroup : Part := ⟨2, 1⟩
/-- volume of the extent map entry. -/
abbrev Ext.volume : Part := ⟨4, 2⟩
/-- extent of the extent map entry. -/
abbrev Ext.extent : Part := ⟨8, 3⟩
/-- firstStripe of the extent map entry. -/
abbrev Ext.firstStripe : Part := ⟨12, 6⟩
/-- altFirst of the extent map entry. -/
abbrev Ext.altFirst : Part := ⟨20, 6⟩
/-- boundary of the extent map entry. -/
abbrev Ext.boundary : Part := ⟨28, 4⟩

/-! Block trailer, 16 B (Table 07-4) -/

/-- guard of the block trailer. -/
abbrev Trl.guard : Part := ⟨0, 4⟩
/-- generation of the block trailer. -/
abbrev Trl.generation : Part := ⟨4, 6⟩
/-- refTag of the block trailer. -/
abbrev Trl.refTag : Part := ⟨10, 4⟩
/-- volumeKind of the block trailer. -/
abbrev Trl.volumeKind : Part := ⟨14, 2⟩

/-! Volume entry, 64 B (Table 07-6) -/

/-- state of the volume entry. -/
abbrev Volu.state : Part := ⟨0, 1⟩
/-- attr of the volume entry. -/
abbrev Volu.attr : Part := ⟨1, 1⟩
/-- owner of the volume entry. -/
abbrev Volu.owner : Part := ⟨2, 1⟩
/-- extentBase of the volume entry. -/
abbrev Volu.extentBase : Part := ⟨4, 4⟩
/-- extentCount of the volume entry. -/
abbrev Volu.extentCount : Part := ⟨8, 4⟩
/-- size of the volume entry. -/
abbrev Volu.size : Part := ⟨12, 6⟩
/-- readMask of the volume entry. -/
abbrev Volu.readMask : Part := ⟨20, 8⟩
/-- writeMask of the volume entry. -/
abbrev Volu.writeMask : Part := ⟨28, 8⟩

/-! Group entry, 64 B (Table 07-8) -/

/-- state of the group entry. -/
abbrev Grp.state : Part := ⟨0, 1⟩
/-- members of the group entry. -/
abbrev Grp.members : Part := ⟨1, 1⟩
/-- stripLog2 of the group entry. -/
abbrev Grp.stripLog2 : Part := ⟨2, 1⟩
/-- flags of the group entry. -/
abbrev Grp.flags : Part := ⟨3, 1⟩
/-- memberBay of the group entry. -/
abbrev Grp.memberBay : Part := ⟨4, 24⟩
/-- dataStart of the group entry. -/
abbrev Grp.dataStart : Part := ⟨28, 6⟩
/-- stripes of the group entry. -/
abbrev Grp.stripes : Part := ⟨36, 5⟩
/-- memberState of the group entry. -/
abbrev Grp.memberState : Part := ⟨44, 6⟩
/-- spareMask of the group entry. -/
abbrev Grp.spareMask : Part := ⟨52, 3⟩

/-! Intent record, 32 B (Table 08-2) -/

/-- mode of the intent record. -/
abbrev Intent.mode : Part := ⟨0, 1⟩
/-- flags of the intent record. -/
abbrev Intent.flags : Part := ⟨1, 1⟩
/-- group of the intent record. -/
abbrev Intent.group : Part := ⟨2, 1⟩
/-- state of the intent record. -/
abbrev Intent.state : Part := ⟨3, 1⟩
/-- stripe of the intent record. -/
abbrev Intent.stripe : Part := ⟨4, 6⟩
/-- newGen of the intent record. -/
abbrev Intent.newGen : Part := ⟨10, 6⟩
/-- oldGen of the intent record. -/
abbrev Intent.oldGen : Part := ⟨16, 6⟩
/-- dataFirst of the intent record. -/
abbrev Intent.dataFirst : Part := ⟨22, 2⟩
/-- dataCount of the intent record. -/
abbrev Intent.dataCount : Part := ⟨24, 2⟩
/-- memberMask of the intent record. -/
abbrev Intent.memberMask : Part := ⟨26, 3⟩
/-- dirtyIndex of the intent record. -/
abbrev Intent.dirtyIndex : Part := ⟨29, 3⟩

/-! Lost-range entry, 16 B (Table 09-3) -/

/-- stripe of the lost-range entry. -/
abbrev Lost.stripe : Part := ⟨0, 6⟩
/-- member of the lost-range entry. -/
abbrev Lost.member : Part := ⟨6, 1⟩
/-- flags of the lost-range entry. -/
abbrev Lost.flags : Part := ⟨7, 1⟩
/-- first of the lost-range entry. -/
abbrev Lost.first : Part := ⟨8, 2⟩
/-- count of the lost-range entry. -/
abbrev Lost.count : Part := ⟨10, 2⟩
/-- time of the lost-range entry. -/
abbrev Lost.time : Part := ⟨12, 4⟩

/-! Sub-port entry, 64 B (Table 12-3) -/

/-- mac of the sub-port entry. -/
abbrev Ent.mac : Part := ⟨0, 6⟩
/-- vlan of the sub-port entry. -/
abbrev Ent.vlan : Part := ⟨6, 2⟩
/-- nextHop of the sub-port entry. -/
abbrev Ent.nextHop : Part := ⟨8, 6⟩
/-- ipv4 of the sub-port entry. -/
abbrev Ent.ipv4 : Part := ⟨16, 4⟩
/-- ipv6 of the sub-port entry. -/
abbrev Ent.ipv6 : Part := ⟨20, 16⟩

/-! Job descriptor, 64 B (Table 11-4) -/

/-- mode of the job descriptor. -/
abbrev Job.mode : Part := ⟨0, 1⟩
/-- flags of the job descriptor. -/
abbrev Job.flags : Part := ⟨1, 1⟩
/-- slot of the job descriptor. -/
abbrev Job.slot : Part := ⟨2, 1⟩
/-- length of the job descriptor. -/
abbrev Job.length : Part := ⟨4, 4⟩
/-- aadLength of the job descriptor. -/
abbrev Job.aadLength : Part := ⟨8, 4⟩
/-- src of the job descriptor. -/
abbrev Job.src : Part := ⟨16, 8⟩
/-- dst of the job descriptor. -/
abbrev Job.dst : Part := ⟨24, 8⟩
/-- iv of the job descriptor. -/
abbrev Job.iv : Part := ⟨32, 16⟩
/-- tag of the job descriptor. -/
abbrev Job.tag : Part := ⟨48, 16⟩

/-! Tally record, 64 B (Table 19-5) -/

/-- time of the tally record. -/
abbrev Trec.time : Part := ⟨0, 8⟩
/-- seq of the tally record. -/
abbrev Trec.seq : Part := ⟨8, 8⟩
/-- block of the tally record. -/
abbrev Trec.block : Part := ⟨16, 1⟩
/-- cls of the tally record. -/
abbrev Trec.cls : Part := ⟨17, 1⟩
/-- code of the tally record. -/
abbrev Trec.code : Part := ⟨20, 4⟩
/-- inst of the tally record. -/
abbrev Trec.inst : Part := ⟨24, 4⟩

/-! Larder directory entry, 16 B (Table 10-2) -/

/-- line of the larder directory entry. -/
abbrev Dir.line : Part := ⟨0, 6⟩
/-- volState of the larder directory entry. -/
abbrev Dir.volState : Part := ⟨6, 2⟩
/-- hot of the larder directory entry. -/
abbrev Dir.hot : Part := ⟨8, 1⟩
/-- pins of the larder directory entry. -/
abbrev Dir.pins : Part := ⟨10, 2⟩
/-- groupSent of the larder directory entry. -/
abbrev Dir.groupSent : Part := ⟨12, 4⟩

/-- The index of a register of a row of `count` registers `stride` bytes apart. -/
def regIndex (a base count stride : Nat) : Option Nat :=
  if base ≤ a ∧ a < base + count * stride ∧ (a - base) % stride = 0 then some ((a - base) / stride) else none

end Sys2Proof.Machine
end

