-- ==== Sys2Proof/Machine/Ports.lean ====
section
/-!
DEFINITION. Sub-ports and their egress queues (12_ethernet_ports.md, 13_traffic_control.md): counters, pause and its
watchdog, the scheduling tree, meters, histograms, and the bytes of the frames the K24 builds.
-/

namespace Sys2Proof.Machine

/-! ### Sub-ports -/

/-- A sub-port after reset: MERGE 1, WAKE_EN 1 (Table 12-9). -/
def spDefault : SubPort where
  ctrl := 0x24
  entry := 0
  link := false
  energy := false
  fec := false
  merge := false
  holds := []
  wdog := []
  holdOff := []
  xoff := none
  queue := []
  wire := none
  counts := []
  shadow := none
  lastTx := []
  rxPrio := 0

/-- A sub-port; 32 is the management port. -/
def State.sp (s : State) (n : Nat) : SubPort := Tab.getD n spDefault s.mac.sps

/-- Set a sub-port. -/
def State.setSp (s : State) (n : Nat) (p : SubPort) : State :=
  { s with mac := { s.mac with sps := Tab.put spDefault n p s.mac.sps } }

/-- Change a sub-port. -/
def State.modSp (s : State) (n : Nat) (f : SubPort → SubPort) : State := s.setSp n (f (s.sp n))

/-- The counters of Table 12-15 in their order. -/
inductive MacCount where
  | rxFrames | rxBytes | rxFcsErr | rxStomped | rxTooLong | rxRunt | rxFiltered | rxIpDrop | rxUdpErr | rxOther | rxPause
  | rxPauseIgnored | rxAssemblyErr | txFrames | txBytes | txStomped | txExpress | txPreemptions | txPause | txWdogDrop
  | txLinkDrop | fecCorrected | fecUncorrected | wdogBreaks
  deriving DecidableEq, Repr

/-- Place of a counter in Table 12-15. -/
def MacCount.index (c : MacCount) : Nat := c.ctorIdx

/-- Count n events of a sub-port (R8). -/
def State.macCount (s : State) (n : Nat) (c : MacCount) (k : Nat := 1) : State :=
  s.modSp n fun p => { p with counts := Tab.put 0 c.index ((Tab.getD c.index 0 p.counts + k) % 2 ^ 64) p.counts }

/-- Pipes of a direction of a network agent (Table 11-1). -/
def agentPipes (n : Nat) (ingress : Bool) : List Nat := if ingress then [4 * n + 2, 4 * n + 3] else [4 * n, 4 * n + 1]

/-- A data port has a pipe in each direction: one without is disabled (R456, Table 11-2). -/
def State.piped (s : State) (n : Nat) : Bool :=
  !(agentPipes n true).all s.attic.pipes.contains && !(agentPipes n false).all s.attic.pipes.contains

/-- The sub-port runs: EN of its control word, or of MAC_MGT_CTRL (R501, Table 12-14), on a port that has its pipes. Under the recovery
loop data ports stay closed (R739). -/
def State.spEn (s : State) (n : Nat) : Bool :=
  if n = 32 then s.is F.MAC_MGT_CTRL_EN else bit (s.sp n).ctrl 0 && s.piped (n / 4) && !s.wdn.recovery

/-- PAUSE_MODE of a sub-port: 0 none, 1 802.3x, 2 PFC (Table 12-9, R526). -/
def State.pauseMode (s : State) (n : Nat) : Nat :=
  if n = 32 then ofBool (s.is F.MAC_MGT_CTRL_PAUSE_EN)
  else if getBits (s.sp n).ctrl 6 2 = 3 then 0 else getBits (s.sp n).ctrl 6 2

/-- MERGE mode of a sub-port; 3 acts as 0 (Table 12-9). -/
def State.mergeMode (s : State) (n : Nat) : Nat := if getBits (s.sp n).ctrl 2 2 = 3 then 0 else getBits (s.sp n).ctrl 2 2

/-- Speed of a sub-port in Mb/s (Table 12-1, Table 12-14). -/
def State.spSpeed (s : State) (n : Nat) : Nat :=
  if n = 32 then (if s.mac.speed = 0 then 10 else if s.mac.speed = 1 then 100 else 1000)
  else
    match s.portMode (n / 4) with
    | 1 => 400000
    | 2 => 200000
    | _ => 100000

/-- Priority of a DSCP (R515). -/
def State.dscpPrio (s : State) (d : Nat) : Nat := getBits (s.word (A.MAC_DSCP_PRIO (d / 8 % 8))) (4 * (d % 8)) 3

/-- A priority of a sub-port is held: by PFC, or with the whole port (R516). -/
def SubPort.heldPrio (p : SubPort) (prio : Nat) : Bool := (Tab.find? prio p.holds).isSome || (Tab.find? 8 p.holds).isSome

/-- Frames of a held priority that wait: 8 stands for the whole port (R518). -/
def SubPort.waiting (p : SubPort) (prio : Nat) : List EgFrame :=
  p.queue.filter fun f => decide (f.cls ≠ .control) && (prio == 8 || f.prio == prio)

/-- Start and stop the watchdogs of a sub-port as its holds and queues now stand (R518). -/
def SubPort.watch (now : Nat) (p : SubPort) : SubPort :=
  { p with wdog := (List.range 9).foldl (fun t k =>
      if (Tab.find? k p.holds).isSome && !(p.waiting k).isEmpty then Tab.set k (Tab.getD k now p.wdog) t else t) [] }

/-- Change a sub-port's holds or queue and let its watchdogs follow. -/
def State.modQueue (s : State) (n : Nat) (f : SubPort → SubPort) : State := s.modSp n fun p => (f p).watch s.now

/-! ### The egress tree (R538 to R547) -/

/-- Key of a sub-port's group queue among the children of its root: after every class child (R545). -/
def groupKey (n : Nat) : Nat := 2 ^ 32 + n

/-- Node id of a root (Table 13-3). -/
def rootId (n : Nat) : Nat := n * 2 ^ 25

/-- Node id of a leaf (Table 13-3). -/
def leafId (n e q : Nat) : Nat := 3 * 2 ^ 30 + n * 2 ^ 25 + q * 2 ^ 19 + e

/-- SCHED records in force of a sub-port. -/
def State.spNodes (s : State) (n : Nat) : List (List Byte) := (recordsOf 32 (s.sect 0x10)).filter fun r => leAt r 10 2 == n

/-- The tree of a sub-port as the selection sees it. -/
structure Tree where
  /-- Sub-port. -/
  sp : Nat
  /-- Its records. -/
  recs : List (List Byte)
  /-- The sub-port's queues and holds. -/
  port : SubPort
  /-- TC_GROUP.QUANTUM in force. -/
  groupQuantum : Nat
  /-- Shelf time. -/
  now : Nat

/-- The tree of a sub-port now. -/
def State.tree (s : State) (n : Nat) : Tree := ⟨n, s.spNodes n, s.sp n, max 1024 (s.fld F.TC_GROUP_QUANTUM), s.now⟩

/-- The record of a node. -/
def Tree.rec? (t : Tree) (id : Nat) : Option (List Byte) := t.recs.find? fun r => leAt r 0 4 == id

/-- Children of a node in ascending order, the group queue last at the root (R545). -/
def Tree.children (t : Tree) (id : Nat) : List Nat :=
  let own := ((t.recs.filter fun r => leAt r 4 4 == id).map fun r => leAt r 0 4).foldl (fun l i => insertNat i l) []
  if id = rootId t.sp then own ++ [groupKey t.sp] else own

/-- The oldest frame of a queue. -/
def Tree.head (t : Tree) (c : EgClass) : Option EgFrame := t.port.queue.find? fun f => decide (f.cls = c)

/-- The queue a leaf id or the group key names. -/
def clsOf (id : Nat) : EgClass := if id < 2 ^ 32 then .leaf id else .group

/-- A leaf or group queue may send: its oldest frame is whole in the agent and its priority is not held (R104, R546). -/
def Tree.ready (t : Tree) (c : EgClass) : Bool :=
  match t.head c with
  | some f => !f.waits && !t.port.heldPrio f.prio
  | none => false

/-- State of a node: at its start, deficit 0, no child visited and a full shaper (R547, R551). -/
def nodeState (now : Nat) (nodes : Tab TreeNode) (id : Nat) (r : Option (List Byte)) : TreeNode :=
  match Tab.find? id nodes with
  | some n => n
  | none => ⟨0, none, match r with | some r => (leAt r 20 4 : Int) * 8000 | none => 0, now⟩

/-- Tokens of a node's shaper now, in 1/8,000 B (R547). -/
def Tree.tokens (t : Tree) (nodes : Tab TreeNode) (r : List Byte) : Int :=
  let n := nodeState t.now nodes (leAt r 0 4) (some r)
  min ((leAt r 20 4 : Int) * 8000) (n.tokens + (leAt r 16 4 * (t.now - n.last) : Nat))

/-- The node's shaper, if it has one, holds more than 0 tokens (R546). -/
def Tree.unshaped (t : Tree) (nodes : Tab TreeNode) (r : List Byte) : Bool :=
  leAt r 16 4 == 0 || decide (0 < t.tokens nodes r)

/-- A node is eligible (R546), down to a number of levels. -/
def Tree.eligible (t : Tree) (nodes : Tab TreeNode) : Nat → Nat → Bool
  | 0, _ => false
  | k + 1, id =>
    if 2 ^ 32 ≤ id then t.ready .group
    else
      match t.rec? id with
      | none => false
      | some r => t.unshaped nodes r &&
          (if rb r 8 = 3 then t.ready (.leaf id) else (t.children id).any fun c => t.eligible nodes k c)

/-- A frame is queued beneath a node, held or not (R545). -/
def Tree.beneath (t : Tree) : Nat → Nat → List EgFrame
  | 0, _ => []
  | k + 1, id =>
    if 2 ^ 32 ≤ id then t.port.queue.filter fun f => decide (f.cls = .group)
    else
      match t.rec? id with
      | none => []
      | some r =>
        if rb r 8 = 3 then t.port.queue.filter fun f => decide (f.cls = .leaf id)
        else (t.children id).flatMap fun c => t.beneath k c

/-- Charged length of a frame (R543). -/
def EgFrame.charged (f : EgFrame) : Nat := f.len + 20

/-- Quantum of a child (R545). -/
def Tree.quantum (t : Tree) (id : Nat) : Nat :=
  match t.rec? id with
  | some r => leAt r 12 4
  | none => t.groupQuantum

/-- The next eligible child after a place, wrapping (R545). -/
def nextChild (cs : List Nat) (after : Option Nat) : Option Nat :=
  match after with
  | none => cs.head?
  | some p => (cs.find? fun c => decide (p < c)).orElse fun _ => cs.head?

/-- Change the deficit of a node. -/
def Tree.setDeficit (t : Tree) (nodes : Tab TreeNode) (id d : Nat) : Tab TreeNode :=
  Tab.set id { nodeState t.now nodes id (t.rec? id) with deficit := d } nodes

/-- Move a node's pointer from one child to the next: the child left with nothing beneath it loses its deficit, the child
reached gains its quantum (R545). -/
def Tree.move (t : Tree) (nodes : Tab TreeNode) (id : Nat) (left : Option Nat) (c : Nat) : Tab TreeNode :=
  let n1 := match left with
    | some p => if (t.beneath 4 p).isEmpty then t.setDeficit nodes p 0 else nodes
    | none => nodes
  let n2 := t.setDeficit n1 c ((nodeState t.now n1 c (t.rec? c)).deficit + t.quantum c)
  Tab.set id { nodeState t.now n2 id (t.rec? id) with pointer := some c } n2

/-- Take a packet at a node: its shaper pays the charged length (R547). -/
def Tree.pay (t : Tree) (nodes : Tab TreeNode) (id len : Nat) : Tab TreeNode :=
  match t.rec? id with
  | some r =>
    if leAt r 16 4 = 0 then nodes
    else Tab.set id { nodeState t.now nodes id (some r) with tokens := t.tokens nodes r - 8000 * len, last := t.now } nodes
  | none => nodes

/-- The rounds of one node: visit children until one's packet fits its deficit (R545). A child that is not taken keeps its
own state (DEDUCED, assumption 49: the rule speaks of the packet it would select). -/
def Tree.rounds (t : Tree) (sub : Tab TreeNode → Nat → Option (EgFrame × Tab TreeNode)) (cs : List Nat) (id : Nat) :
    Nat → Tab TreeNode → Option (EgFrame × Tab TreeNode)
  | 0, _ => none
  | k + 1, nodes =>
    let p := (nodeState t.now nodes id (t.rec? id)).pointer
    let go : Option (EgFrame × Tab TreeNode) :=
      match p with
      | some c =>
        if cs.contains c then
          match sub nodes c with
          | some (f, nodes') =>
            let d := (nodeState t.now nodes' c (t.rec? c)).deficit
            if f.charged ≤ d then some (f, t.setDeficit nodes' c (d - f.charged)) else none
          | none => none
        else none
      | none => none
    match go with
    | some x => some x
    | none =>
      match nextChild cs p with
      | some c => Tree.rounds t sub cs id k (t.move nodes id p c)
      | none => none

/-- The packet a node selects and the tree's state once it is taken (R545 to R547). -/
def Tree.select (t : Tree) : Nat → Tab TreeNode → Nat → Option (EgFrame × Tab TreeNode)
  | 0, _, _ => none
  | k + 1, nodes, id =>
    let leaf := decide (2 ^ 32 ≤ id) || decide (3 * 2 ^ 30 ≤ id)
    let got :=
      if leaf then (t.head (clsOf id)).map fun f => (f, nodes)
      else
        let cs := (t.children id).filter fun c => t.eligible nodes k c
        Tree.rounds t (fun ns c => Tree.select t k ns c) cs id (12 * cs.length + 12) nodes
    got.map fun x => (x.1, t.pay x.2 id x.1.charged)

/-- The packet the root of a sub-port selects (R544). -/
def State.rootSelect (s : State) (n : Nat) : Option (EgFrame × Tab TreeNode) :=
  let t := s.tree n
  if t.eligible s.tc.nodes 4 (rootId n) then t.select 4 s.tc.nodes (rootId n) else none

/-! ### Queueing (R541, R542, R754) -/

/-- Most packets of a leaf or group queue (Table 13-8). -/
def State.leafLimit (s : State) : Nat := max 8 (min 4096 (s.fld F.TC_LEAF_LIMIT_PACKETS))

/-- The queue a packet goes to, if there is one: its leaf, else the leaf of queue 0 of its endpoint (R541). -/
def State.queueFor (s : State) (n : Nat) (c : EgClass) : Option EgClass :=
  match c with
  | .leaf id =>
    if (s.schedNode id).isSome then some c
    else
      let z := leafId n (id % 2 ^ 12) 0
      if (s.schedNode z).isSome then some (.leaf z) else none
  | c => some c

/-- The line of the group send that a packet belongs to, by its place among the repair keys (R443, R445). -/
def State.groupLine (s : State) (pkt : Packet) : Nat :=
  let j := (pkt.key / 65536 + 65536 - s.fld F.RSV_REPAIR_BASE_KEY) % 65536
  let off := j * 2 ^ 30 + pkt.offset
  if off < 0x400000 then off / 16 else (off - 0x400000) / 262144

/-- The port copy of a line on a group SA whose packets go out now: the latest. -/
def State.portCopyOf (s : State) (sa i : Nat) : Option Dest :=
  s.rsv.dests.reverse.find? fun d => d.cmd.isNone && d.sa == sa && d.line == some i

/-- Change the port copy of a line on a group SA. -/
def State.modCopy (s : State) (sa i : Nat) (f : Dest → Dest) : State :=
  let x := s.portCopyOf sa i
  s.onRsv fun r => { r with dests := r.dests.map fun d => if some d = x then f d else d }

/-- A packet of a port copy was lost: what is left of the copy is not sent, and it counts as dropped, once (Table 10-4). -/
def State.copyDropped (s : State) (sa i : Nat) : State :=
  let keep := fun (m : TxMsg) => decide (m.use ≠ .group i)
  let fresh := (s.portCopyOf sa i).any fun d => !d.lost
  let s := s.onTrn fun t => { t with
    tx := t.tx.filter fun m => m.sa != sa || keep m
    held := t.held.filter fun h => h.sa != sa || keep h.msg }
  s.when fresh fun s =>
    ((s.modCopy sa i fun d => { d with lost := true, lastPacket := some (d.lastPacket.getD s.now) }).bump A.RSV_GROUP_DROPS).flag
      F.RSV_STATUS_GROUP_DROP

/-- Packets that could not be kept for their destinations (Table 10-4): a unicast copy's packet is lost and counted, and a
port copy of a group send ends. -/
def State.destDropped (s : State) (l : List EgFrame) : State :=
  let data := l.filter fun f => match f.body with
    | .breren _ _ _ (some k) => s.trn.tx.any fun m => m.key == k && match m.use with | .readData _ _ => true | _ => false
    | _ => false
  let copies := l.filterMap fun f => match f.body with
    | .breren sa _ pkt _ => if pkt.flags.testBit 4 then some (sa, s.groupLine pkt) else none
    | _ => none
  let s := if data = [] then s else (s.bump A.RSV_DEST_DROPS data.length).flag F.RSV_STATUS_DEST_DROP
  s.each copies fun s x => s.copyDropped x.1 x.2

/-- Place a frame in an egress queue: the name it got, or none where it counts as sent and lost: its leaf is missing or full,
or its sub-port's link is down (R502, R541, R542, Table 10-4). -/
def State.enqueue (s : State) (n : Nat) (c : EgClass) (prio len : Nat) (waits : Bool) (cut : Option Nat) (body : FrameBody) :
    Option Nat × State :=
  let frame := fun (q : EgClass) => (⟨s.mac.nextName, body, q, prio, waits, s.now, len, cut, false, false, 0, 0⟩ : EgFrame)
  match s.queueFor n c with
  | none => (none, ((s.bump A.TC_NO_LEAF).flag F.TC_STATUS_NO_LEAF).destDropped [frame c])
  | some q =>
    if !(s.sp n).link then (none, (s.macCount n .txLinkDrop).destDropped [frame q])
    else if (decide (q ≠ .control) && decide (q ≠ .express)) &&
        decide (s.leafLimit ≤ ((s.sp n).queue.filter fun f => decide (f.cls = q)).length) then
      (none, ((s.bump A.TC_LEAF_DROP).flag F.TC_STATUS_LEAF_FULL).destDropped [frame q])
    else
      let name := s.mac.nextName
      let f := frame q
      (some name, ({ s with mac := { s.mac with nextName := name + 1 } }).modQueue n fun p => { p with queue := p.queue ++ [f] })

/-- Change a queued or started frame by name, wherever it stands. -/
def State.modFrame (s : State) (name : Nat) (g : EgFrame → EgFrame) : State :=
  let upd := fun (f : EgFrame) => if f.name = name then g f else f
  { s with mac := { s.mac with sps := s.mac.sps.map fun x =>
      (x.1, { x.2 with queue := x.2.queue.map upd, wire := x.2.wire.map upd }) } }

/-- Frames queued or started on every sub-port. -/
def State.allFrames (s : State) : List (Nat × EgFrame) :=
  s.mac.sps.flatMap fun x => (x.2.queue ++ x.2.wire.toList).map fun f => (x.1, f)

/-- Take queued frames out of a sub-port, counting each (R502, R518). -/
def State.dropFrames (s : State) (n : Nat) (c : MacCount) (sel : EgFrame → Bool) : State :=
  let gone := (s.sp n).queue.filter sel
  ((s.macCount n c gone.length).modQueue n fun p => { p with queue := p.queue.filter fun f => !sel f }).destDropped gone

/-! ### Frame bytes -/

/-- Bytes of an entry's field in wire order (R503). -/
def SubPort.field (p : SubPort) (f : Part) : List Byte := leBytes f.len (getPart p.entry f)

/-- An Ethernet frame: addresses, tag if TAG_EN, type and payload, padded to 60 B, without FCS (R505, R506). -/
def State.ethFrame (s : State) (n : Nat) (dst : List Byte) (prio ethertype : Nat) (body : List Byte) : List Byte :=
  let p := s.sp n
  let tag := if bit p.ctrl 4 then beBytes 2 0x8100 ++ beBytes 2 (prio * 2 ^ 13 + getPart p.entry Ent.vlan % 2 ^ 12) else []
  let l := dst ++ p.field Ent.mac ++ tag ++ beBytes 2 ethertype ++ body
  padTo (max 60 l.length) l

/-- A frame with its FCS, or with the inverse of it if it is stomped (R512). -/
def withFcs (stomp : Bool) (l : List Byte) : List Byte :=
  l ++ leBytes 4 (if stomp then (crc32 l ^^^ 0xFFFFFFFF).toNat else (crc32 l).toNat)

/-- The ones' complement sum of the 16-bit words of a byte string. -/
def sum16 (l : List Byte) : Nat :=
  let t := ((chunks 2 ((l.length + 1) / 2) l).map fun w => beNat (padTo 2 w)).sum
  let t := t % 65536 + t / 65536
  t % 65536 + t / 65536

/-- The Internet checksum of a byte string. -/
def inetSum (l : List Byte) : Nat := 65535 - sum16 l

/-- An IPv4 packet of a UDP datagram: DF set, no options (R131); the identification is a free value. -/
def ipv4Packet (ident dscpEcn hop : Nat) (src dst udp : List Byte) : List Byte :=
  let h := fun (c : Nat) => beBytes 1 0x45 ++ beBytes 1 dscpEcn ++ beBytes 2 (20 + udp.length) ++ beBytes 2 ident ++
    beBytes 2 0x4000 ++ beBytes 1 hop ++ beBytes 1 17 ++ beBytes 2 c ++ src ++ dst
  h (inetSum (h 0)) ++ udp

/-- An IPv6 packet of a next header: no extension headers (R131); the flow label is a free value. -/
def ipv6Packet (flow dscpEcn hop next : Nat) (src dst body : List Byte) : List Byte :=
  beBytes 4 (6 * 2 ^ 28 + dscpEcn * 2 ^ 20 + flow % 2 ^ 20) ++ beBytes 2 body.length ++ beBytes 1 next ++ beBytes 1 hop ++
    src ++ dst ++ body

/-- The pseudo-header of IPv6 for a checksum. -/
def pseudo6 (src dst : List Byte) (len next : Nat) : List Byte := src ++ dst ++ beBytes 4 len ++ beBytes 4 next

/-- A UDP datagram: checksum 0 on IPv4, computed on IPv6 (R133). -/
def udpDatagram (v6 : Bool) (src dst : List Byte) (sport dport : Nat) (body : List Byte) : List Byte :=
  let h := fun (c : Nat) => beBytes 2 sport ++ beBytes 2 dport ++ beBytes 2 (8 + body.length) ++ beBytes 2 c ++ body
  if v6 then
    let c := inetSum (pseudo6 src dst (8 + body.length) 17 ++ h 0)
    h (if c = 0 then 65535 else c)
  else h 0

/-- A UDP packet of a sub-port with its IP header and the free value that the spec leaves in it (assumption 16). -/
def State.udpPacket (s : State) (v6 : Bool) (dscpEcn hop : Nat) (src dst : List Byte) (sport dport : Nat) (body : List Byte) :
    List Byte × State :=
  let u := udpDatagram v6 src dst sport dport body
  let (x, s) := s.draw 20
  (if v6 then ipv6Packet x dscpEcn hop 17 src dst u else ipv4Packet (x % 65536) dscpEcn hop src dst u, s)

/-- Opcodes on the wire (Table 04-3). -/
def Opcode.code : Opcode → Nat
  | .command => 0x01
  | .place => 0x02
  | .fetch => 0x03
  | .fetchReply => 0x04
  | .ack => 0x05
  | .nak => 0x06
  | .probe => 0x08
  | .probeReply => 0x09
  | .saSync => 0x0A

/-- The opcode of a code (Table 04-3). -/
def opcodeOf (n : Nat) : Option Opcode :=
  [Opcode.command, .place, .fetch, .fetchReply, .ack, .nak, .probe, .probeReply, .saSync].find? fun o => o.code == n

/-- The Breren header of a packet (Table 04-2). -/
def Packet.header (p : Packet) : List Byte :=
  beBytes 1 1 ++ beBytes 1 p.opcode.code ++ beBytes 2 p.flags ++ beBytes 4 p.saIndex ++ beBytes 8 p.counter ++
    beBytes 6 p.msgId ++ beBytes 2 p.index ++ beBytes 4 p.length ++ beBytes 4 p.key ++ beBytes 8 p.offset

/-- The SA entry of an index; an unlisted entry is 0 (assumption 3). -/
def State.sa (s : State) (n : Nat) : BitVec 2048 := Tab.getD n 0 s.trn.sa

/-- Header bytes of a frame of an SA around its Breren packet: Ethernet, tag, IP, UDP, header, tag and FCS. -/
def State.frameLen (s : State) (sa sp payload : Nat) : Nat :=
  let ip := if (getPart (s.sa sa) Sa.flags).testBit 0 then 40 else 20
  max 64 (14 + (if bit (s.sp sp).ctrl 4 then 4 else 0) + ip + 8 + 40 + payload + 16 + 4)

/-- Sub-port of a path of an SA (Table 04-10). -/
def pathByte (e : BitVec 2048) (p : Nat) : Nat := getBytes e (48 + p % 16) 1

/-- The bytes of a Breren packet on the wire, without FCS: addresses, IP, UDP, header, ciphertext and tag; none where its
key is gone or its tag cannot be produced (R134, R136, R458, R461, R505). -/
def State.brerenFrame (s : State) (n sa path prio : Nat) (pkt : Packet) : Option (List Byte) × State :=
  let e := s.sa sa
  let p := s.sp n
  let v6 := (getPart e Sa.flags).testBit 0
  let group := decide (getPart e Sa.kind = 1)
  let addr := leBytes 16 (if !group && path.testBit 4 then getPart e Sa.addr1 else getPart e Sa.addr0)
  let dst := if v6 then addr else addr.take 4
  let src := if v6 then p.field Ent.ipv6 else p.field Ent.ipv4
  let mac :=
    if group then
      if v6 then beBytes 2 0x3333 ++ addr.drop 12 else beBytes 3 0x01005E ++ beBytes 3 (beAt addr 1 3 % 2 ^ 23)
    else p.field Ent.nextHop
  match Tab.find? sa s.cip.sa with
  | none => (none, s)
  | some k =>
    let (ct, tag) := gcmSeal k.key (k.saltDown ++ beBytes 8 pkt.counter) pkt.header pkt.payload
    let ecn := if (getPart e Sa.flags).testBit 1 then 2 else 0
    let (ip, s) := s.udpPacket v6 (getPart e Sa.dscp % 64 * 4 + ecn) (getPart e Sa.hopLimit) src dst
      (getPart e Sa.pathBase % 4096 * 16 + path % 16) (getPart e Sa.remotePort) (pkt.header ++ ct ++ tag)
    (some (s.ethFrame n mac prio (if v6 then 0x86DD else 0x0800) ip), s)

/-- A pause frame of a sub-port without FCS: 802.3x, or PFC for the priorities enabled (R516, R517; the frame's layout is
IEEE 802.3's, assumption 16); it carries the tag of TAG_EN as every frame does (R506). -/
def State.pauseFrame (s : State) (n quanta : Nat) : List Byte :=
  let p := s.sp n
  let en := getBits p.ctrl 8 8
  let body :=
    if s.pauseMode n = 2 then
      beBytes 2 0x0101 ++ beBytes 2 en ++ (List.range 8).flatMap fun k => beBytes 2 (if en.testBit k then quanta else 0)
    else beBytes 2 0x0001 ++ beBytes 2 quanta
  s.ethFrame n (beBytes 6 0x0180C2000001) 0 0x8808 body

/-- Queue a whole frame on a sub-port. -/
def State.sendRaw (s : State) (n : Nat) (c : EgClass) (prio : Nat) (bytes : List Byte) : State :=
  (s.enqueue n c prio (bytes.length + 4) false none (.raw bytes)).2

/-! ### Sending -/

/-- The frame a free sub-port sends next and the tree's state once it is taken: MAC control frames and the express queue
first, then the root's choice; with PREEMPTABLE_ONLY the express queue's packets are sent as preemptable frames (R508,
R516, R544). A frame that carries no Breren packet stands in the express queue (DESIGN CHOICE, assumption 17). -/
def State.nextFrame (s : State) (n : Nat) : Option (EgFrame × Tab TreeNode) :=
  let p := s.sp n
  let ready := fun (f : EgFrame) => !f.waits && (decide (f.cls = .control) || !p.heldPrio f.prio)
  match (p.queue.filter fun f => decide (f.cls = .control)).find? ready with
  | some f => some (f, s.tc.nodes)
  | none =>
    match (p.queue.filter fun f => decide (f.cls = .express)).find? ready with
    | some f => some (f, s.tc.nodes)
    | none => s.rootSelect n

/-- The frame carries a Breren packet: only such frames are express frames (R139). -/
def EgFrame.isBreren (f : EgFrame) : Bool :=
  match f.body with
  | .breren _ _ _ _ => true
  | .raw _ => false

/-- The frame leaves with the bytes given: counted, its stomp if any, and kept as the last output. -/
def State.frameOut (s : State) (n : Nat) (f : EgFrame) (stomp : Bool) (l : List Byte) : State :=
  let b := withFcs stomp l
  let s := (s.macCount n .txFrames).macCount n .txBytes b.length
  let s := s.when (decide (f.cls = .express) && f.isBreren && decide (s.mergeMode n ≠ 2)) fun s => s.macCount n .txExpress
  let s := s.when (decide (f.cls = .control)) fun s => s.macCount n .txPause
  let s := s.when stomp fun s => s.macCount n .txStomped
  s.modSp n fun p => { p with lastTx := b }

/-- Put a frame on the wire. A packet whose tag cannot be produced is stomped (R461); a frame stomped part way ends with the
fragment in progress (R513). -/
def State.frameSend (s : State) (n : Nat) (f : EgFrame) (stomp : Bool) : State :=
  match f.body with
  | .raw b => s.frameOut n f stomp b
  | .breren sa path pkt _ =>
    match s.brerenFrame n sa path f.prio pkt with
    | (some l, s) => s.frameOut n f (stomp || f.stomp) (if f.stomp && decide (0 < f.sent) then l.take f.sent else l)
    | (none, s) => s.frameOut n f true (s.ethFrame n ((s.sp n).field Ent.nextHop) f.prio 0x0800 pkt.header)

/-! ### Pause -/

/-- Time of a number of quanta on a sub-port, in ns: 512 bit times each (R516). -/
def State.quantaTime (s : State) (n q : Nat) : Nat := (q * 512 * 1000 + s.spSpeed n - 1) / s.spSpeed n

/-- Watchdog limit in ns (Table 12-10). -/
def State.wdogTimeout (s : State) : Nat := 1000000 * max 1 (min 2000 (s.fld F.MAC_WDOG_TIMEOUT))

/-- Pause for a priority is ignored: in hold-off, and at the instant at which its watchdog breaks (R518, R519). -/
def State.pauseDeaf (s : State) (n prio : Nat) : Bool :=
  (Tab.find? prio (s.sp n).holdOff).isSome || (Tab.find? prio (s.sp n).wdog).any fun t => decide (t + s.wdogTimeout ≤ s.now)

/-- Hold or release one priority of a sub-port by a received quanta value, unless pause is ignored now (R516, R518, R519). -/
def State.pauseOne (s : State) (n prio quanta : Nat) : State :=
  if s.pauseDeaf n prio then s
  else s.modQueue n fun p =>
    { p with holds := if quanta = 0 then Tab.erase prio p.holds else Tab.set prio (s.now + s.quantaTime n quanta) p.holds }

/-- A received pause or PFC frame, from its MAC control opcode on (R504, R516, R518). -/
def State.pauseReceived (s : State) (n : Nat) (body : List Byte) : State :=
  let s := s.macCount n .rxPause
  let op := beAt body 0 2
  let named :=
    if s.pauseMode n = 1 ∧ op = 0x0001 then [(8, beAt body 2 2)]
    else if s.pauseMode n = 2 ∧ op = 0x0101 then
      ((List.range 8).filter fun k => (beAt body 2 2).testBit k && bit (s.sp n).ctrl (8 + k)).map fun k =>
        (k, beAt body (4 + 2 * k) 2)
    else []
  let ignored := named.any fun x => s.pauseDeaf n x.1
  (s.when ignored fun s => s.macCount n .rxPauseIgnored).each named fun s x => s.pauseOne n x.1 x.2

/-- XOFF level of the holding buffers in bytes, 1 to 255 KiB; 0 acts as the nearest limit (Table 12-10). -/
def State.xoffLevel (s : State) : Nat := 1024 * max 1 (s.fld F.MAC_PAUSE_XOFF)

/-- XON level in bytes: at or above XOFF it acts as XOFF - 16 (Table 12-10). -/
def State.xonLevel (s : State) : Nat :=
  if max 1 (s.fld F.MAC_PAUSE_XOFF) ≤ s.fld F.MAC_PAUSE_XON then 1024 * (max 1 (s.fld F.MAC_PAUSE_XOFF) - 16)
  else 1024 * s.fld F.MAC_PAUSE_XON

/-- The sub-ports of a data port that send pause frames (R517). -/
def State.pausers (s : State) (port : Nat) : List Nat :=
  (subPortsOf port (s.portMode port)).filter fun n => decide (s.pauseMode n ≠ 0)

/-- Send a pause frame on a sub-port (R517). -/
def State.sendPause (s : State) (n quanta : Nat) : State := s.sendRaw n .control 0 (s.pauseFrame n quanta)

/-! ### Meters (R530 to R536) -/

/-- The colours of a packet. -/
inductive Colour where
  | green | yellow | red
  deriving DecidableEq, Repr

/-- The profile of an id in the POLICER section in force. -/
def State.profile (s : State) (id : Nat) : Option (List Byte) := s.profiles.find? fun r => leAt r 0 2 == id

/-- A meter's buckets brought up to now, in 1/65,536 B, at the rates of a profile (R533, R534). -/
def meterNow (now : Nat) (r : List Byte) (m : Option Meter) : Meter :=
  let cbs := leAt r 12 4 * 65536
  let pbs := leAt r 16 4 * 65536
  match m with
  | none => ⟨cbs, pbs, now⟩
  | some m => ⟨min cbs (m.tc + leAt r 4 4 * (now - m.last) * 65536 / 8000),
      min pbs (m.tp + leAt r 8 4 * (now - m.last) * 65536 / 8000), now⟩

/-- One decision of a meter with its buckets up to date (R533). -/
def meterDecide (m : Meter) (blind : Bool) (inp : Colour) (len : Nat) : Colour × Meter :=
  let b := len * 65536
  let i := if blind then Colour.green else inp
  if i = .red ∨ m.tp < b then (.red, m)
  else if i = .yellow ∨ m.tc < b then (.yellow, { m with tp := m.tp - b })
  else (.green, { m with tp := m.tp - b, tc := m.tc - b })

/-- One meter of a packet: an absent meter passes the colour on, and one whose profile is not in force counts (R532, R535).
The flag says whether it may meter colour-aware. -/
def State.meter (s : State) (index profile : Nat) (aware : List Byte → Bool) (inp : Colour) (len : Nat) : Colour × State :=
  if profile = 0xFFFF then (inp, s)
  else
    match s.profile profile with
    | none => (inp, (s.bump A.TC_NO_PROFILE).flag F.TC_STATUS_NO_PROFILE)
    | some r =>
      let (c, m) := meterDecide (meterNow s.now r (Tab.find? index s.tc.meters)) (!aware r) inp len
      (c, { s with tc := { s.tc with meters := Tab.set index m s.tc.meters } })

/-- Input colour of a packet (R532). -/
def State.inputColour (s : State) (port dscp : Nat) : Colour :=
  if s.preColoured port then
    match getBits (s.word (A.TC_DSCP_COLOUR (dscp / 16 % 4))) (2 * (dscp % 16)) 2 with
    | 1 => .yellow
    | 2 => .red
    | _ => .green
  else .green

/-- The colour of a packet of an endpoint (R531, R532). -/
def State.colour (s : State) (port dscp e len : Nat) : Colour × State :=
  let c := s.pantryEntries 0x0D
  let cls := s.fld (F.TC_EP_CLASS e)
  let pre := s.preColoured port
  let (x, s) :=
    if e < c - 16 then s.meter e (s.fld (F.TC_EP_PROFILE e)) (fun r => (rb r 2).testBit 0 && pre) (s.inputColour port dscp) len
    else (s.inputColour port dscp, s)
  s.meter (c - 16 + cls) (s.fld (F.TC_CLASS_PROFILE_PROFILE cls)) (fun _ => true) x len

/-- Meter a packet that the UDP check passed: none where it is discarded, else its ECN field (R530 to R536). -/
def State.police (s : State) (port dscp ecn sa op len : Nat) : Option Nat × State :=
  if 1 ≤ op ∧ op ≤ 4 ∧ sa < 8192 ∧ getPart (s.sa sa) Sa.state ≠ 0 ∧ getPart (s.sa sa) Sa.kind = 0 then
    let mark := s.is F.TC_CTRL_ECN_MARK
    let yellow := fun (s : State) =>
      if ecn = 0 then (some ecn, s.bump A.TC_NOT_ECT)
      else (some (if mark then 3 else ecn), s.when (mark || ecn == 3) fun s => s.bump A.TC_CE_MARKED)
    match (if s.is F.TC_CTRL_POLICE_EN then s.colour port dscp (getPart (s.sa sa) Sa.endpoint) len else (.green, s)) with
    | (.green, s) => (some ecn, s.bump A.TC_GREEN)
    | (.yellow, s) => yellow (s.bump A.TC_YELLOW)
    | (.red, s) =>
      let s := (s.bump A.TC_RED).flag F.TC_STATUS_RED
      if s.is F.TC_CTRL_RED_DROP then (none, s) else yellow s
  else (some ecn, s)

/-! ### Histograms (R548, R549) -/

/-- Bin of a value whose bin k holds 2^(k-1) to 2^k - 1. -/
def histBin (v : Nat) : Nat := if v = 0 then 0 else min 15 (Nat.log2 v + 1)

/-- Add one count to a histogram bin, saturating: sub-port (32 for the watch node), kind 0 depth or 1 delay. -/
def State.histAdd (s : State) (n kind bin : Nat) : State :=
  let k := (n * 2 + kind) * 16 + bin
  { s with tc := { s.tc with hist := Tab.set k (min (Tab.getD k 0 s.tc.hist + 1) (2 ^ 32 - 1)) s.tc.hist } }

/-- Sample a queue: depth in packets and the time its oldest packet has waited. -/
def State.histQueue (s : State) (n : Nat) (fs : List EgFrame) : State :=
  let delay := fs.foldl (fun d f => max d ((s.now - f.queued) / 1000)) 0
  (s.histAdd n 0 (histBin fs.length)).histAdd n 1 (histBin delay)

/-- The queues of a sub-port that a sample takes: its non-empty leaves and its group queue (R548). -/
def SubPort.sampled (p : SubPort) : List (List EgFrame) :=
  let leaves := (p.queue.filterMap fun f => match f.cls with | .leaf i => some i | _ => none).foldl (fun l i => insertNat i l) []
  leaves.map (fun i => p.queue.filter fun f => decide (f.cls = .leaf i)) ++ [p.queue.filter fun f => decide (f.cls = .group)]

/-- Sub-port of a node id (Table 13-3). -/
def nodeSp (id : Nat) : Nat := id / 2 ^ 25 % 32

/-- One sample of every existing sub-port and of the watch node (R548). -/
def State.histSample (s : State) : State :=
  let s := s.each (laneSubPorts (s.sect 0x02)) fun s n => s.each (s.sp n).sampled fun s q => s.histQueue n q
  let w := s.fld F.TC_WATCH_NODE
  if (s.schedNode w).isSome then
    let t := s.tree (nodeSp w)
    let under := t.beneath 4 w
    s.histQueue 32 (t.port.queue.filter fun f => under.contains f)
  else s

/-! ### Live replacement (R550 to R552) -/

/-- Where a leaf's packets go when SCHED is replaced: it stays, moves to the leaf of queue 0, or has no place (R551). -/
def State.schedMove (s : State) (n : Nat) : State :=
  let p := s.sp n
  let gone := fun (f : EgFrame) => match f.cls with | .leaf i => (s.schedNode i).isNone | _ => false
  let moved := p.queue.filter gone
  let kept := moved.filter fun f => (s.queueFor n f.cls).isSome
  let placed := kept.map fun f => { f with cls := (s.queueFor n f.cls).getD f.cls }
  let s := s.modQueue n fun p => { p with queue := (p.queue.filter fun f => !gone f) ++ placed }
  let lost := moved.filter fun f => (s.queueFor n f.cls).isNone
  ((s.bump A.TC_MOVED kept.length).bump A.TC_NO_LEAF lost.length).when (decide (lost ≠ [])) fun s =>
    (s.flag F.TC_STATUS_NO_LEAF).destDropped lost

/-- The states of the tree's nodes under a new SCHED section: a node in both keeps its pointer and tokens, cut to the new
burst, and its deficit if its parent is unchanged; a group queue keeps its own, and a node of the new section alone has none, which
is its start: deficit 0, a full shaper, and its pointer about to reach its lowest child (R551). -/
def schedNodes (now : Nat) (old new : List (List Byte)) (nodes : Tab TreeNode) : Tab TreeNode :=
  let both := new.filterMap fun r => (old.find? fun o => leAt o 0 4 == leAt r 0 4).map fun o => (o, r)
  both.foldl (fun (t : Tab TreeNode) (o, r) =>
    let id := leAt r 0 4
    let x := nodeState now nodes id (some o)
    let full := (leAt r 20 4 : Int) * 8000
    let tok := if leAt o 16 4 = 0 then full
      else min ((leAt o 20 4 : Int) * 8000) (x.tokens + (leAt o 16 4 * (now - x.last) : Nat))
    Tab.set id { x with tokens := min full tok, last := now, deficit := if leAt o 4 4 = leAt r 4 4 then x.deficit else 0 } t)
    (nodes.filter fun x => decide (2 ^ 32 ≤ x.1))

/-- The SCHED section has just been replaced; old is the body it replaces (R551, R552). -/
def State.schedSwitch (s : State) (old : List Byte) : State :=
  let s := { s with tc := { s.tc with nodes := schedNodes s.now (recordsOf 32 old) (recordsOf 32 (s.sect 0x10)) s.tc.nodes } }
  (s.each (s.mac.sps.map (·.1)) fun s n => s.schedMove n).flag F.TC_STATUS_SWITCHED

/-- Profile id that a meter entry uses (R531); there is no entry past the last class meter. -/
def State.meterProfile (s : State) (i : Nat) : Nat :=
  let c := s.pantryEntries 0x0D
  if i < c - 16 then s.fld (F.TC_EP_PROFILE i)
  else if i < c then s.fld (F.TC_CLASS_PROFILE_PROFILE (i - (c - 16)))
  else 0xFFFF

/-- Meter entries that have been used or whose profile has been set. -/
def State.meterEntries (s : State) : List Nat :=
  let entry := fun (a : Nat) => (regIndex a (A.TC_EP 0) 4096 4).orElse fun _ =>
    (regIndex a (A.TC_CLASS_PROFILE 0) 16 4).map fun c => s.pantryEntries 0x0D - 16 + c
  (s.regs.filterMap (fun x => entry x.1) ++ s.tc.meters.map (·.1)).foldl (fun l i => insertNat i l) []

/-- A meter at a replacement of the section whose profiles are `ps`: tokens up to now count at the rates there, an unused meter is
full by them, and a meter that was absent gains none for the past (R534, R535, R550). -/
def State.meterCarry (s : State) (ps : List (List Byte)) (i : Nat) : Option Meter :=
  let m := Tab.find? i s.tc.meters
  match ps.find? fun r => leAt r 0 2 == s.meterProfile i with
  | some r => some (meterNow s.now r m)
  | none => m.map fun m => { m with last := s.now }

/-- The POLICER section has just been replaced; old is the body it replaces: tokens up to now count at the old rates
(R550, R552). -/
def State.policerSwitch (s : State) (old : List Byte) : State :=
  let ps := recordsOf 24 (old.drop 8)
  let ms := s.meterEntries.filterMap fun i => (s.meterCarry ps i).map fun m => (i, m)
  ({ s with tc := { s.tc with meters := ms } }).flag F.TC_STATUS_SWITCHED

end Sys2Proof.Machine
end

