-- ==== Sys2Proof/Machine/Larder.lean ====
section
/-!
DEFINITION. The Larder directory, its catalogue and the pins of destinations (10_read_service.md).
-/

namespace Sys2Proof.Machine

/-- Directory entry of a line slot (R428). -/
def State.dirEnt (s : State) (i : Nat) : BitVec 128 := Tab.getD i 0 s.rsv.dir

/-- STATE of a directory entry: 0 FREE, 1 FILLING, 2 VALID, 3 STALE (Table 10-2). -/
def dirState (e : BitVec 128) : Nat := getPart e Dir.volState / 4096

/-- Volume of a directory entry (Table 10-2). -/
def dirVol (e : BitVec 128) : Nat := getPart e Dir.volState % 4096

/-- Set a directory entry. -/
def State.setDir (s : State) (i : Nat) (e : BitVec 128) : State := s.onRsv fun r => { r with dir := Tab.put 0 i e r.dir }

/-- Cellar address of a line slot (R427). -/
def State.lineAddr (s : State) (i : Nat) : Nat := s.regionBase 5 + 0x400000 + i * 262144

/-- Rewrite the catalogue record of a slot: SERIAL is 0 unless the slot has just become VALID (R444). -/
def State.catalogue (s : State) (i serial : Nat) : State :=
  let e := s.dirEnt i
  s.cellarPut (s.regionBase 5 + 16 * i) (leBytes 6 (getPart e Dir.line) ++ leBytes 2 (dirVol e) ++ leBytes 8 serial)

/-- Move a slot to another state and rewrite its catalogue record (R428, R444). -/
def State.lineState (s : State) (i st : Nat) : State :=
  let e := s.dirEnt i
  let s := s.setDir i (if st = 0 then 0 else putPart e Dir.volState (dirVol e + 4096 * st))
  let serial := if st = 2 then s.rsv.serial + 1 else s.rsv.serial
  (s.onRsv fun r => { r with serial := serial % 2 ^ 64 }).catalogue i (if st = 2 then serial % 2 ^ 64 else 0)

/-- A fill writes into a slot. -/
def State.filling (s : State) (i : Nat) : Bool := s.rsv.pending.any fun p => p.fill == some i

/-- A STALE slot that nothing holds becomes FREE; a slot whose fill still runs waits for the fill (R433, R434). -/
def State.lineFree (s : State) (i : Nat) : State :=
  let e := s.dirEnt i
  if dirState e = 3 ∧ getPart e Dir.pins = 0 ∧ ¬ s.filling i then s.lineState i 0 else s

/-- Make a line STALE (R434). -/
def State.lineStale (s : State) (i : Nat) : State :=
  let st := dirState (s.dirEnt i)
  if st = 1 ∨ st = 2 then
    let s := s.onRsv fun r => { r with pending := r.pending.map fun p => if p.fill = some i then { p with stale := true } else p }
    ((s.lineState i 3).bump A.RSV_INVALIDATIONS).lineFree i
  else s

/-- Slots in use whose entry satisfies a test. -/
def State.linesWhere (s : State) (p : Nat → BitVec 128 → Bool) : List Nat := (s.rsv.dir.filter fun x => p x.1 x.2).map (·.1)

/-- Make STALE every line that satisfies a test (Table 10-3). -/
def State.staleWhere (s : State) (p : Nat → BitVec 128 → Bool) : State := s.each (s.linesWhere p) fun s i => s.lineStale i

/-- Make STALE the lines of a volume (Table 10-3). -/
def State.staleVolume (s : State) (v : Nat) : State := s.staleWhere fun _ e => dirVol e == v

/-- Make STALE the line that holds a block of a volume (R419, Table 10-3). -/
def State.staleBlock (s : State) (v lba : Nat) : State := s.staleWhere fun _ e => dirVol e == v && getPart e Dir.line == lba / 64

/-- The set of a line among S sets (R428). -/
def lineSet (v line sets : Nat) : Nat := (crc32c (leBytes 8 (v + line * 4096))).toNat % sets

/-- The 8 slots a line may occupy; none while the Larder has no line (R428). -/
def State.lineSlots (s : State) (v line : Nat) : List Nat :=
  let sets := s.rsv.slots / 8
  if sets = 0 then [] else (List.range 8).map fun k => 8 * lineSet v line sets + k

/-- The slot of a line in a state. -/
def State.findLine (s : State) (v line st : Nat) : Option Nat :=
  (s.lineSlots v line).find? fun i =>
    let e := s.dirEnt i
    dirState e == st && dirVol e == v && getPart e Dir.line == line

/-- Segments of the Larder region that are not withdrawn (R90, R115). -/
def State.larderSegments (s : State) : Nat :=
  match s.regionOf 5 with
  | some (b, c) => ((List.range c).filter fun k => !s.hst.withdrawn.contains (b + k)).length
  | none => 0

/-- Slot count of R90. -/
def State.larderSize (s : State) : Nat :=
  let room := (s.larderSegments * 2 ^ 26 - 0x400000) / 262144
  min s.larderLines room / 8 * 8

/-- Take the slot count of R90 into force: a change of S makes every line STALE (R428, Table 10-3). -/
def State.larderResize (s : State) : State :=
  let n := s.larderSize
  if n = s.rsv.slots then s
  else
    let s := s.when (decide (n < s.rsv.slots)) fun s => s.flag F.RSV_STATUS_LARDER_SHRUNK
    (s.staleWhere fun _ _ => true).onRsv fun r => { r with slots := n }

/-- Count a destination's pin on a line (R435). -/
def State.pin (s : State) (i : Nat) : State :=
  let e := s.dirEnt i
  s.setDir i (putPart e Dir.pins (min (getPart e Dir.pins + 1) 65535))

/-- Release a destination's pin on a line (R434, R435): PINS follows the destinations held. -/
def State.unpin (s : State) (line : Option Nat) : State :=
  match line with
  | none => s
  | some i =>
    let n := (s.rsv.dests.filter fun d => d.line == some i).length
    (s.setDir i (putPart (s.dirEnt i) Dir.pins (min n 65535))).lineFree i

/-- Give up or acknowledge destinations that satisfy a test: their pins are released (R435). -/
def State.releaseDests (s : State) (p : Dest → Bool) : State :=
  let gone := s.rsv.dests.filter p
  (s.onRsv fun r => { r with dests := r.dests.filter fun d => !p d }).each gone fun s d => s.unpin d.line

end Sys2Proof.Machine
end

