-- ==== Sys2Proof/Machine/Slots.lean ====
section
/-!
DEFINITION. Command slots and queues as every engine sees them (06_command_queues.md): finding a command, settling it,
stopping it, and what a queue does when a completion cannot be placed.
-/

namespace Sys2Proof.Machine

/-! ### Status codes (Table 06-6) -/

abbrev St.success : Nat := 0x0000
abbrev St.invalidOpcode : Nat := 0x0101
abbrev St.invalidField : Nat := 0x0102
abbrev St.lbaRange : Nat := 0x0103
abbrev St.tokenInvalid : Nat := 0x0104
abbrev St.aborted : Nat := 0x0105
abbrev St.abortTooLate : Nat := 0x0106
abbrev St.abortNotFound : Nat := 0x0107
abbrev St.abortedByReset : Nat := 0x0108
abbrev St.timeout : Nat := 0x0109
abbrev St.internalError : Nat := 0x010A
abbrev St.selfTestBusy : Nat := 0x010B
abbrev St.firmwareImage : Nat := 0x010C
abbrev St.firmwareSegment : Nat := 0x010D
abbrev St.unrecoveredRead : Nat := 0x0201
abbrev St.lostRange : Nat := 0x0202
abbrev St.disputed : Nat := 0x0203
abbrev St.writeFault : Nat := 0x0204
abbrev St.cellarDataError : Nat := 0x0205
abbrev St.groupFailed : Nat := 0x0206
abbrev St.fetchFailed : Nat := 0x0301
abbrev St.fetchDenied : Nat := 0x0302
abbrev St.placeDenied : Nat := 0x0303
abbrev St.saExhausted : Nat := 0x0304
abbrev St.portNotAuthorised : Nat := 0x0401
abbrev St.windowRevoked : Nat := 0x0402
abbrev St.volumeAccess : Nat := 0x0403
abbrev St.keyUnavailable : Nat := 0x0404
abbrev St.writeProtected : Nat := 0x0405
abbrev St.noQueueSlot : Nat := 0x0501
abbrev St.firmwareBusy : Nat := 0x0502
abbrev St.notOwner : Nat := 0x0601
abbrev St.handover : Nat := 0x0602
abbrev St.lostArbitration : Nat := 0x0603
abbrev St.fenced : Nat := 0x0604

/-! ### Commands by acceptance order -/

/-- Queue key of a slot key: endpoint * 64 + queue. -/
def queueOf (slot : Nat) : Nat := slot / 32

/-- The slot of a command, by acceptance order. -/
def State.cmd? (s : State) (c : Nat) : Option (Nat × Slot) := List.find? (fun x => x.2.order == c) s.cq.slots

/-- Change the command of an acceptance order. -/
def State.modCmd (s : State) (c : Nat) (f : Slot → Slot) : State :=
  { s with cq := { s.cq with slots := s.cq.slots.map fun x => if x.2.order = c then (x.1, f x.2) else x } }

/-- Free a slot (Table 06-3). -/
def State.freeSlot (s : State) (k : Nat) : State := { s with cq := { s.cq with slots := Tab.erase k s.cq.slots } }

/-- Opcode of a command's capsule. -/
def Slot.opcode (x : Slot) : Nat := getPart x.cap Cap.opcode

/-- DATA_TOKEN of a capsule (Table 06-1). -/
def dataToken (cap : BitVec 512) : BitVec 128 := BitVec.ofNat 128 (getPart cap Cap.dataToken)

/-- RING_TOKEN of a capsule (Table 06-1). -/
def ringToken (cap : BitVec 512) : BitVec 128 := BitVec.ofNat 128 (getPart cap Cap.ringToken)

/-- Volume of a command. -/
def Slot.volume (x : Slot) : Nat := getPart x.cap Cap.volume % 4096

/-- First block of a command. -/
def Slot.lba (x : Slot) : Nat := getPart x.cap Cap.lba

/-- Blocks of a command. -/
def Slot.blockCount (x : Slot) : Nat := getPart x.cap Cap.blockCount

/-- The command is a volume command: READ, WRITE, VERIFY or ZERO. -/
def Slot.onVolume (x : Slot) : Bool := [1, 2, 4, 5].contains x.opcode

/-- The command is an IDENTIFY of page 0x00, which names a volume (R302). -/
def Slot.identifies (x : Slot) : Bool := x.opcode == 0x41 && getPart x.cap Cap.arg0 == 0

/-- The command has not reached its completion point (Table 06-3). -/
def Slot.alive (x : Slot) : Bool := decide (x.state ≠ .completing)

/-- Settle a command's status: the first status stands, and the command waits for its completion point (R236). -/
def State.finish (s : State) (c status : Nat) : State :=
  s.modCmd c fun x => if x.alive && decide (x.wait ≠ .finished) then { x with status := status, wait := .finished } else x

/-- Add to a command's RESULT (R243). -/
def State.setResult (s : State) (c v : Nat) : State := s.modCmd c fun x => { x with result := v }

/-- Set SERVICE bits of a READ (R452). -/
def State.service (s : State) (c bits : Nat) : State := s.modCmd c fun x => { x with service := x.service ||| bits }

/-! ### Accesses in flight (R194) -/

/-- An access's end of Table 05-3 has come; ACCESS_END counts it. -/
def State.endAccess (s : State) (a : Option Nat) : State :=
  match a with
  | some n => { s with win := { s.win with accesses := s.win.accesses.map fun x => if x.name = n then { x with ended := true } else x } }
  | none => s

/-- The destinations of a command are acknowledged once its slot is free and no data message of it is left (R435). -/
def State.releaseCmd (s : State) (c : Nat) : State :=
  let left := s.trn.tx.any fun m => match m.use with | .readData d _ => d == c | .completion d => d == c | _ => false
  if left || (s.cmd? c).isSome then s else s.releaseDests fun d => d.cmd == some c

/-! ### Stopping a command (R255) -/

/-- What a stopped command takes out of the transport: unsent and unacknowledged data messages, FETCHes that have not been
sent, and the timers of those that have (R29, R255). -/
def Trn.stop (t : Trn) (c : Nat) : Trn :=
  let mine := fun (m : TxMsg) => match m.use with | .readData d _ => d == c | _ => false
  let fetch := fun (m : TxMsg) => match m.use with | .fetch d => d == c | _ => false
  let quiet := fun (m : TxMsg) =>
    if fetch m then { m with packets := m.packets.map fun p => { p with acked := true } } else m
  let parked := fun (m : TxMsg) => t.blocked.any fun b => b.msg == some m.key && !b.pkt.flags.testBit 2
  let unsent := fun (m : TxMsg) => fetch m && (decide (m.packets = []) || parked m)
  let gone := (t.tx.filter fun m => mine m || fetch m).map (·.key)
  { t with
    tx := (t.tx.filter fun m => !mine m && !unsent m).map quiet
    blocked := t.blocked.filter fun b => match b.msg with | some k => !gone.contains k | none => true
    held := t.held.filter fun h => !(mine h.msg || fetch h.msg) }

/-- Data packets of a command that wait in an egress queue are not sent (R255, Table 11-9). -/
def State.pullFrames (s : State) (c : Nat) : State :=
  let keys := (s.trn.tx.filter fun m => match m.use with | .readData d _ => d == c | _ => false).map (·.key)
  let mine := fun (f : EgFrame) => match f.body with | .breren _ _ _ (some k) => keys.contains k | _ => false
  if keys = [] then s
  else s.each (s.mac.sps.map (·.1)) fun s n => s.modQueue n fun p => { p with queue := p.queue.filter fun f => !mine f }

/-- A live stripe write's intent is in FILLING (Table 08-3). -/
def State.isFilling (s : State) (w : StripeWrite) : Bool :=
  match w.intent with
  | some i => getPart (Tab.getD i 0 s.attic.intents) Intent.state == 1
  | none => false

/-- Stop a command (R255): no further FETCH or data placement, nothing written without a recorded intent, its intents in
FILLING freed with their buffers (Table 08-3), no longer a waiter of a pending read, and withdrawn from the Wardens. -/
def State.stopCmd (s : State) (c : Nat) : State :=
  match s.cmd? c with
  | none => s
  | some (_, x) =>
    let owned := fun (w : StripeWrite) => match w.owner with | .command d => d == c | _ => false
    let keep := fun (e : Event) =>
      decide (e ≠ .adminCommand c) && decide (e ≠ .volumeCommand c) && decide (e ≠ .commandTimeout c)
    let gone := (s.str.live.filter fun w => owned w && s.isFilling w).filterMap (·.intent)
    let keepLive := fun (w : StripeWrite) => !(owned w && s.isFilling w)
    let str := { s.str with
      waiting := s.str.waiting.filter fun w => !owned w
      live := s.str.live.filter keepLive
      buffers := gone.foldl (fun b i => Tab.erase i b) s.str.buffers }
    let attic := { s.attic with intents := gone.foldl (fun b i => Tab.erase i b) s.attic.intents }
    let pending := s.rsv.pending.map fun p => { p with waiters := p.waiters.filter fun d => d != c }
    let s := s.pullFrames c
    let rsv := { s.rsv with pending := pending }
    let wdn := { s.wdn with events := s.wdn.events.filter keep }
    let s := { s with trn := s.trn.stop c, str := str, attic := attic, rsv := rsv, wdn := wdn }
    ((s.releaseDests fun d => d.cmd == some c).endAccess x.access).modCmd c fun x => { x with stopped := true, toAdmit := [], intents := [], unready := [], covers := [] }

/-- Stop a command with a status (R254, R258, R262, R753): it stands even where the command had finished and had yet to reach
its completion point, unless the command was stopped before. -/
def State.stopWith (s : State) (c status : Nat) : State :=
  (s.modCmd c fun x => if x.alive && !x.stopped then { x with status := status, wait := .finished } else x).stopCmd c

/-- A stripe write of a command fails, its first block at a position of the command's range (R753): the others act as for an
abort, and the command takes the status of the failing one of lowest LBA, unless something else had stopped it. -/
def State.stripeFails (s : State) (c pos status : Nat) : State :=
  let fail := fun (x : Slot) =>
    if x.alive && (!x.stopped || decide (x.fails ≠ [])) then
      let l := Tab.set pos status x.fails
      { x with fails := l, status := (l.head?.map (·.2)).getD status, wait := .finished }
    else x
  (s.modCmd c fail).stopCmd c

/-- The FIRMWARE_ACTIVATE that runs, from its acceptance to its completion, if one does (R625). -/
def State.activation (s : State) : Option Nat :=
  ((s.cq.slots.filter fun x => x.2.opcode == 0x46 && x.2.alive).map fun x => x.2.order).foldl
    (fun a c => match a with | some d => some (min c d) | none => some c) none

/-! ### Queues -/

/-- A queue's record, if it exists. -/
def State.queue? (s : State) (k : Nat) : Option Queue := Tab.find? k s.cq.queues

/-- Change a queue. -/
def State.modQ (s : State) (k : Nat) (f : Queue → Queue) : State :=
  { s with cq := { s.cq with queues := s.cq.queues.map fun x => if x.1 = k then (x.1, f x.2) else x } }

/-- Features of an endpoint at their defaults (Table 06-8). -/
def epDefault : Endpoint where
  enabled := false
  writeFua := false
  coalesce := true

/-- An endpoint. -/
def State.ep (s : State) (e : Nat) : Endpoint := Tab.getD e epDefault s.cq.eps

/-- Incarnation of an endpoint's queue (R227). -/
def State.incarnation (s : State) (k : Nat) : Nat := Tab.getD k 0 s.cq.incarnation

/-- The next incarnation: plus 1, skipping 0 (R227). -/
def nextIncarnation (n : Nat) : Nat := if n = 0xFFFF then 1 else n + 1

/-- Move an incarnation on (R228). -/
def State.moveIncarnation (s : State) (k : Nat) : State :=
  { s with cq := { s.cq with incarnation := Tab.set k (nextIncarnation (s.incarnation k)) s.cq.incarnation } }

/-- The commands of a queue that have not reached their completion point, in acceptance order. -/
def State.queueCmds (s : State) (k : Nat) : List Nat :=
  ((s.cq.slots.filter fun x => queueOf x.1 == k && x.2.alive).map fun x => x.2.order).foldl (fun l c => insertNat c l) []

/-- End a command with no completion entry: its slot is FREE (R248). -/
def State.endUndelivered (s : State) (c : Nat) : State :=
  match s.cmd? c with
  | some (k, _) => ((s.stopCmd c).freeSlot k).bump A.CQ_UNDELIVERED
  | none => s

/-- Arguments of a COMMAND record (Table 19-6): queue, tag and incarnation, status, opcode. -/
def commandArgs (slot : Nat) (cap : BitVec 512) (status : Nat) : List Nat :=
  [slot / 32 % 64 + slot % 32 * 2 ^ 8 + getPart cap Cap.incarnation * 2 ^ 16, status, getPart cap Cap.opcode]

/-- A completion of a queue cannot be placed: the queue enters FAILED, or queue 0 returns to ACTIVE unbound (R248). The
record names the command in the slot given. -/
def State.queueFailed (s : State) (slot : Nat) (cap : BitVec 512) (status : Nat) : State :=
  let k := queueOf slot
  match s.queue? k with
  | none => s
  | some q =>
    if q.state = .failed then s
    else
      let s := (s.moveIncarnation k).each (s.queueCmds k) fun s c => s.endUndelivered c
      let args := commandArgs slot cap status
      if k % 64 = 0 then
        (s.modQ k fun q => { q with state := .active, ring := none, producer := 0, phase := true }).tallyEvent
          .command 4 4 (k / 64) args
      else
        ((s.modQ k fun q => { q with state := .failed }).flag F.CQ_STATUS_QUEUE_FAILED).tallyFlag .command
          F.CQ_STATUS_QUEUE_FAILED (k / 64) args

/-- A command's data or completion cannot be placed (R171, R248). -/
def State.undeliverable (s : State) (c : Nat) : State :=
  match s.cmd? c with
  | some (k, x) => (s.endUndelivered c).queueFailed k x.cap x.status
  | none => s

end Sys2Proof.Machine
end

