-- ==== Sys2Proof/Machine/Volume.lean ====
section
/-!
DEFINITION. Volumes, groups, extents and block trailers (07_volumes_and_blocks.md): the tables, the geometry of a group,
translation, and the trailer check.
-/

namespace Sys2Proof.Machine

/-! ### Tables -/

/-- A volume entry (Table 07-6). -/
def State.vent (s : State) (v : Nat) : BitVec 512 := Tab.getD v 0 s.vol.vols

/-- Set a volume entry. -/
def State.setVent (s : State) (v : Nat) (e : BitVec 512) : State := s.onVol fun x => { x with vols := Tab.put 0 v e x.vols }

/-- A group entry (Table 07-8). -/
def State.grp (s : State) (g : Nat) : BitVec 512 := Tab.getD g 0 s.vol.grps

/-- An extent map entry (Table 07-2). -/
def State.ext (s : State) (i : Nat) : BitVec 256 := Tab.getD i 0 s.vol.exts

/-- The states of an extent map entry (Table 07-2). -/
abbrev Exts.free : Nat := 0
abbrev Exts.init : Nat := 1
abbrev Exts.mapped : Nat := 2
abbrev Exts.moving : Nat := 3

/-- The volume is ACTIVE (Table 07-6). -/
def State.volActive (s : State) (v : Nat) : Bool := getPart (s.vent v) Volu.state == 1

/-- An attribute bit of a volume (Table 07-6): 0 CUT_THROUGH, 1 GROUP_DELIVERY, 2 WRITE_PROTECT, 3 LARDER_OFF,
4 PRIVILEGED. -/
def State.volAttr (s : State) (v bit : Nat) : Bool := (getPart (s.vent v) Volu.attr).testBit bit

/-- A loaded volume key slot, if it holds a key (R479). -/
def State.volKey (s : State) (v : Nat) : Option KeyRec := Tab.find? v s.cip.vol

/-- A group entry's ENABLED bit (Table 07-8). -/
def State.grpOn (s : State) (g : Nat) : Bool := (getPart (s.grp g) Grp.flags).testBit 0

/-- The states of a member (Table 07-8). -/
abbrev Mem.active : Nat := 0
abbrev Mem.rebuilding : Nat := 1
abbrev Mem.failed : Nat := 2
abbrev Mem.absent : Nat := 3

/-- Members of a group. -/
def grpMembers (e : BitVec 512) : Nat := getPart e Grp.members

/-- State of a member in a group entry. -/
def memberOf (e : BitVec 512) (m : Nat) : Nat := getPart e Grp.memberState / 4 ^ m % 4

/-- State of a member. -/
def State.member (s : State) (g m : Nat) : Nat := memberOf (s.grp g) m

/-- A group entry with a member's state set. -/
def setMemberState (e : BitVec 512) (m v : Nat) : BitVec 512 :=
  putPart e Grp.memberState (getPart e Grp.memberState - memberOf e m * 4 ^ m + v * 4 ^ m)

/-- Bay of a member in a group entry. -/
def bayOf (e : BitVec 512) (m : Nat) : Nat := getBytes e (Grp.memberBay.off + m) 1

/-- Bay of a member. -/
def State.bayOfMember (s : State) (g m : Nat) : Nat := bayOf (s.grp g) m

/-- Members of a group entry not in ACTIVE. -/
def membersDown (e : BitVec 512) : Nat := ((List.range (grpMembers e)).filter fun m => memberOf e m != 0).length

/-- STATE of a group entry by its members (R275). -/
def groupStateOf (e : BitVec 512) : Nat :=
  if (getPart e Grp.flags).testBit 0 then min (membersDown e) 3 + 1 else 0

/-- STATE of a group: 0 OFFLINE, 1 OPTIMAL, 2 DEGRADED, 3 CRITICAL, 4 FAILED. -/
def State.groupState (s : State) (g : Nat) : Nat := getPart (s.grp g) Grp.state

/-- Set a group entry with its STATE by R275: a change of it is flagged. -/
def State.setGrp (s : State) (g : Nat) (e : BitVec 512) : State :=
  let e := putPart e Grp.state (groupStateOf e)
  let s := s.when (decide (groupStateOf e ≠ s.groupState g)) fun s => s.flag F.VOL_STATUS_GROUP_STATE
  s.onVol fun x => { x with grps := Tab.put 0 g e x.grps }

/-- The member of an enabled group that a bay serves, if any (R269). -/
def State.memberAt (s : State) (bay : Nat) : Option (Nat × Nat) :=
  (List.range 8).findSome? fun g =>
    if s.grpOn g then
      ((List.range (grpMembers (s.grp g))).find? fun m => s.bayOfMember g m == bay).map fun m => (g, m)
    else none

/-! ### Geometry (R271, R272, R282) -/

/-- Data strips d of a group entry. -/
def dataStrips (e : BitVec 512) : Nat := grpMembers e - 2

/-- Blocks b of a strip. -/
def stripBlocks (e : BitVec 512) : Nat := 2 ^ (getPart e Grp.stripLog2 - 12)

/-- Data blocks d × b of a stripe. -/
def stripeBlocks (e : BitVec 512) : Nat := dataStrips e * stripBlocks e

/-- Stripes E of an extent (R282). -/
def extentStripes (e : BitVec 512) : Nat := (1048576 + stripeBlocks e - 1) / stripeBlocks e

/-- Member of P in a stripe (R272). -/
def pMember (e : BitVec 512) (stripe : Nat) : Nat := grpMembers e - 1 - stripe % grpMembers e

/-- Member of Q in a stripe (R272). -/
def qMember (e : BitVec 512) (stripe : Nat) : Nat := (pMember e stripe + 1) % grpMembers e

/-- Member of data strip j in a stripe (R272). -/
def dataMember (e : BitVec 512) (stripe j : Nat) : Nat := (qMember e stripe + 1 + j) % grpMembers e

/-- What a member holds in a stripe. -/
inductive Strip where
  | data (j : Nat)
  | p
  | q
  deriving DecidableEq, Repr

/-- The strip of a member in a stripe (R272). -/
def stripOf (e : BitVec 512) (stripe m : Nat) : Strip :=
  if m = pMember e stripe then .p
  else if m = qMember e stripe then .q
  else .data ((m + 2 * grpMembers e - qMember e stripe - 1) % grpMembers e)

/-- Data position r of row k of a member's strip in a stripe; none for P and Q (R272, R290). -/
def dataPos (e : BitVec 512) (stripe m k : Nat) : Option Nat :=
  match stripOf e stripe m with
  | .data j => some (j * stripBlocks e + k)
  | _ => none

/-- Volume LBA of the block that a stripe write has at row k of a member; none for P, Q and a pad block (R290). -/
def State.writtenLba (s : State) (w : StripeWrite) (m k : Nat) : Option Nat :=
  (dataPos (s.grp w.group) w.stripe m k).bind fun r => if r < w.valid then some (w.lba0 + r) else none

/-- Member LBA of row k of a stripe (R271). -/
def memberLba (e : BitVec 512) (stripe k : Nat) : Nat := getPart e Grp.dataStart + stripe * stripBlocks e + k

/-! ### Translation (R290) -/

/-- A block's place: group, stripe and data position r, with the extent entry it was found through. -/
structure Place where
  group : Nat
  stripe : Nat
  pos : Nat
  entry : Nat
  /-- Block within the extent. -/
  block : Nat
  deriving DecidableEq, Repr

/-- The place of block o of an extent entry at its first or its second location. -/
def State.placeAt (s : State) (i : Nat) (x : BitVec 256) (alt : Bool) (o : Nat) : Place :=
  let g := (if alt then getPart x Ext.altGroup else getPart x Ext.group) % 8
  let f := if alt then getPart x Ext.altFirst else getPart x Ext.firstStripe
  let per := stripeBlocks (s.grp g)
  { group := g, stripe := f + o / per, pos := o % per, entry := i, block := o }

/-- The place of block o of an extent entry (R290). -/
def State.place (s : State) (i : Nat) (x : BitVec 256) (o : Nat) : Place :=
  s.placeAt i x (getPart x Ext.state == Exts.moving && decide (o < getPart x Ext.boundary)) o

/-- Extent map entry of a volume LBA (R281). -/
def State.entryOf (s : State) (v lba : Nat) : Nat := (getPart (s.vent v) Volu.extentBase + lba / 1048576) % 1048576

/-- Member number of a place (R290). -/
def State.placeMember (s : State) (p : Place) : Nat :=
  let e := s.grp p.group
  dataMember e p.stripe (p.pos / stripBlocks e)

/-- Row within the stripe of a place (R290). -/
def State.placeRow (s : State) (p : Place) : Nat := p.pos % stripBlocks (s.grp p.group)

/-- Look an extent entry up: a miss of the Pantry cache is counted and the entry held (R285; the entry replaced in a full
cache is the one held longest, assumption 19). -/
def State.lookup (s : State) (i : Nat) : State :=
  if s.vol.cached.contains i then s
  else
    let room := s.pantryEntries 6
    (s.onVol fun x => { x with cached := (x.cached ++ [i]).drop (x.cached.length + 1 - room) }).bump A.VOL_MAP_MISS

/-- The translation a command takes at the start of its execution: its extent entries in order (R287). -/
def State.translate (s : State) (c : Nat) : State :=
  match s.cmd? c with
  | none => s
  | some (_, x) =>
    let first := x.lba / 1048576
    let n := (x.lba + x.blockCount + 1048575) / 1048576 - first
    let es := (List.range n).map fun k => s.entryOf x.volume ((first + k) * 1048576)
    let s := (s.each es fun s i => s.lookup i).bump A.VOL_XLATE
    s.modCmd c fun x => { x with xlate := es.map fun i => s.ext i, started := true }

/-- The place of a block of a command by the translation it holds (R287). -/
def State.slotPlace (s : State) (x : Slot) (lba : Nat) : Place :=
  let k := lba / 1048576 - x.lba / 1048576
  s.place (s.entryOf x.volume lba) (x.xlate.getD k 0) (lba % 1048576)

/-- A command that has not reached its completion point holds a translation through an entry (R288). -/
def State.holdsEntry (s : State) (i : Nat) (x : Slot) : Bool :=
  x.alive && x.started && x.onVolume && (List.range x.xlate.length).any fun k =>
    s.entryOf x.volume ((x.lba / 1048576 + k) * 1048576) == i

/-- Commands that hold a translation through an entry. -/
def State.holders (s : State) (i : Nat) : List Nat :=
  (s.cq.slots.filter fun x => s.holdsEntry i x.2).map fun x => x.2.order

/-- First stripe of the location of an extent entry, as a command holds it, that a stripe of a group lies in (R287). -/
def State.extBase (s : State) (x : BitVec 256) (g stripe : Nat) : Nat :=
  let f := getPart x Ext.firstStripe
  if getPart x Ext.group % 8 = g ∧ f ≤ stripe ∧ stripe < f + extentStripes (s.grp g) then f else getPart x Ext.altFirst

/-! ### Which extent a stripe belongs to (R283) -/

/-- The extent that holds a stripe: entry index, entry, and first stripe of the location. A second location counts as far
as it has been filled: while building beside up to the blocks copied, else up to BOUNDARY. -/
def State.extentOf (s : State) (g stripe : Nat) : Option (Nat × BitVec 256 × Nat) :=
  let e := s.grp g
  s.vol.exts.findSome? fun (i, x) =>
    let st := getPart x Ext.state
    let f := getPart x Ext.firstStripe
    let a := getPart x Ext.altFirst
    let copied := match s.rbd.reshape with
      | some r => if r.entry = i ∧ r.mode = 1 then r.copied else getPart x Ext.boundary
      | none => getPart x Ext.boundary
    if st ≠ Exts.free ∧ getPart x Ext.group % 8 = g ∧ f ≤ stripe ∧ stripe < f + extentStripes e then some (i, x, f)
    else if st = Exts.moving ∧ getPart x Ext.altGroup % 8 = g ∧ a ≤ stripe ∧
        (stripe - a) * stripeBlocks e < copied then some (i, x, a)
    else none

/-! ### Block trailers (R291 to R297) -/

/-- A block on a member: its stored bytes and trailer (R291). -/
abbrev Block := List Byte × BitVec 128

/-- Kind codes (Table 07-5). -/
abbrev Kind.data : Nat := 0
abbrev Kind.p : Nat := 1
abbrev Kind.q : Nat := 2
abbrev Kind.journal : Nat := 3
abbrev Kind.metadata : Nat := 4
abbrev Kind.pad : Nat := 5

/-- GUARD of stored bytes and trailer bytes 4 to 15 (R291, R292). -/
def guardOf (stored : List Byte) (t : BitVec 128) : Nat := (crc32c (stored ++ (toBytes 16 t).drop 4)).toNat

/-- The block of stored bytes with a trailer (R291, R297): GUARD is computed last. -/
def mkBlock (gen ref vol kind : Nat) (stored : List Byte) : Block :=
  let t := putPart (putPart (putPart 0 Trl.generation gen) Trl.refTag ref) Trl.volumeKind (vol % 4096 + kind * 4096)
  (stored, putPart t Trl.guard (guardOf stored t))

/-- GENERATION of a block. -/
def Block.gen (b : Block) : Nat := getPart b.2 Trl.generation

/-- Kind of a block. -/
def Block.kind (b : Block) : Nat := getPart b.2 Trl.volumeKind / 4096

/-- 4,096 zero bytes. -/
def zeroBlock : List Byte := List.replicate 4096 0

/-- What a trailer must say: kind, volume and REF_TAG (Table 07-5). -/
structure Expect where
  kind : Nat
  vol : Nat
  ref : Nat
  deriving DecidableEq, Repr

/-- What the trailer of row k of a member of a stripe must say, for the extent that holds it (R293). -/
def expectAt (e : BitVec 512) (x : BitVec 256) (first stripe m k : Nat) : Expect :=
  let vol := getPart x Ext.volume % 4096
  let row := (stripe * stripBlocks e + k) % 2 ^ 32
  match stripOf e stripe m with
  | .p => { kind := Kind.p, vol := vol, ref := row }
  | .q => { kind := Kind.q, vol := vol, ref := row }
  | .data j =>
    let o := (stripe - first) * stripeBlocks e + j * stripBlocks e + k
    if o < 1048576 then { kind := Kind.data, vol := vol, ref := (getPart x Ext.extent * 1048576 + o) % 2 ^ 32 }
    else { kind := Kind.pad, vol := vol, ref := row }

/-- GUARD matches (R294). -/
def guardOk (b : Block) : Bool := decide (getPart b.2 Trl.guard = guardOf b.1 b.2)

/-- Kind, volume and REF_TAG are those expected (R294). -/
def tagOk (x : Expect) (b : Block) : Bool :=
  decide (getPart b.2 Trl.volumeKind = x.vol + x.kind * 4096) && decide (getPart b.2 Trl.refTag = x.ref)

/-- The trailer check (R294). -/
def trailerOk (x : Expect) (b : Block) : Bool := guardOk b && tagOk x b

/-- A block with the trailer expected of its place. -/
def blockFor (x : Expect) (gen : Nat) (stored : List Byte) : Block := mkBlock gen x.ref x.vol x.kind stored

/-- The loss marker of a data position (R388). -/
def markerFor (x : Expect) (row gen : Nat) : Block := mkBlock gen row x.vol Kind.pad zeroBlock

/-- A block at a data position is a loss marker (R388). -/
def isMarker (x : Expect) (row : Nat) (b : Block) : Bool :=
  decide (x.kind = Kind.data) && trailerOk { kind := Kind.pad, vol := x.vol, ref := row } b && decide (b.1 = zeroBlock)

/-- The ciphertext of a data block (R469): the data unit number is the volume LBA. -/
def sealData (k : KeyRec) (lba : Nat) (l : List Byte) : List Byte := aesXts false k.key lba l

/-- The plaintext of a data block (R469). -/
def openData (k : KeyRec) (lba : Nat) (l : List Byte) : List Byte := aesXts true k.key lba l

/-! ### Refusals -/

/-- Refuse a VOL_CMD (Table 07-13). -/
def State.volRefuse (s : State) (code : Nat) : State := (s.setFld F.VOL_ERROR_CODE code).flag F.VOL_STATUS_CMD_REFUSED

/-- Commands of a list still hold a translation through an entry (R288). -/
def State.stillHold (s : State) (i : Nat) (cs : List Nat) : Bool :=
  cs.any fun c => match s.cmd? c with | some (_, x) => s.holdsEntry i x | none => false

/-- The reshape waits under R288: a moving-boundary step for its blocks, or the switch (R408, R410). -/
def State.reshapeWaits (s : State) : Bool :=
  match s.rbd.reshape with
  | some r => (r.state == .switching || r.step == .waiting) && s.stillHold r.entry r.waits
  | none => false

/-- VOL_STATUS.BUSY: a commit waits or an INIT runs (R288, R289, R305, R408, R410). -/
def State.volBusy (s : State) : Bool :=
  s.vol.waitingExt.isSome || s.vol.deactivating.isSome || s.vol.init.isSome || s.reshapeWaits

/-- Bytes of the VOL_WORD staging copy (R311). -/
def State.volStaged (s : State) (words : Nat) : List Byte :=
  (List.range words).flatMap fun n => leBytes 4 (s.word (A.VOL_WORD n)).toNat

/-- Copy an entry's words into VOL_WORD (R311). -/
def State.volShow (s : State) (l : List Byte) : State :=
  s.each (List.range (l.length / 4)) fun s n => s.setWord (A.VOL_WORD n) (BitVec.ofNat 32 (leAt l (4 * n) 4))

/-- VOL_CMD READ (R311). -/
def State.volRead (s : State) : State :=
  let i := s.fld F.VOL_SEL_INDEX
  match s.fld F.VOL_SEL_TABLE with
  | 0 => if i < 4096 then (s.volShow (toBytes 64 (s.vent i))).flag F.VOL_STATUS_CMD_DONE else s.volRefuse 7
  | 1 => if i < 8 then (s.volShow (toBytes 64 (s.grp i))).flag F.VOL_STATUS_CMD_DONE else s.volRefuse 7
  | 2 => (s.volShow (toBytes 32 (s.ext i))).flag F.VOL_STATUS_CMD_DONE
  | _ => if i < 4096 then (s.volShow (leBytes 4 (Tab.getD i 0 s.vol.access))).flag F.VOL_STATUS_CMD_DONE else s.volRefuse 7

/-- Commit an extent entry: table, region and cache together (R286), with the Larder lines of the extent made STALE
(Table 10-3). -/
def State.setExt (s : State) (i : Nat) (e : BitVec 256) : State :=
  let old := s.ext i
  let v := getPart old Ext.volume % 4096
  let x := getPart old Ext.extent
  let s := s.onVol fun y => { y with exts := Tab.put 0 i e y.exts }
  let s := s.cellarWrite 36 (s.regionBase 6 + 32 * i) (toBytes 32 e)
  s.staleWhere fun _ d => dirVol d == v && getPart d Dir.line / 16384 == x

/-- An ACTIVE volume refers to an extent entry (R306). -/
def State.entryActive (s : State) (i : Nat) : Bool :=
  s.vol.vols.any fun (_, e) =>
    getPart e Volu.state == 1 && decide (getPart e Volu.extentBase ≤ i) &&
      decide (i < getPart e Volu.extentBase + getPart e Volu.extentCount)

/-- R306 stands in the way of an extent write: it changes an entry that an ACTIVE volume refers to, which only a reshape may
touch. -/
def State.extHeld (s : State) (i : Nat) (e : BitVec 256) : Bool := s.entryActive i && decide (e ≠ s.ext i)

/-- The extents of a volume are as ACTIVATE needs them (R301). -/
def State.extentsOk (s : State) (v : Nat) (e : BitVec 512) : Bool :=
  let n := getPart e Volu.extentCount
  let base := getPart e Volu.extentBase
  decide ((n - 1) * 1048576 < getPart e Volu.size) && decide (getPart e Volu.size ≤ n * 1048576) && decide (1 ≤ n) &&
    decide (base + n ≤ 1048576) && (List.range n).all fun k =>
      let x := s.ext (base + k)
      (getPart x Ext.state == Exts.mapped || getPart x Ext.state == Exts.moving) && getPart x Ext.volume % 4096 == v && getPart x Ext.extent == k

/-- An entry with byte ranges 0: its reserved bytes (R285, R298, R307). -/
def clearParts {n : Nat} (e : BitVec n) (l : List (Nat × Nat)) : BitVec n := l.foldl (fun e p => putBytes e p.1 p.2 0) e

/-- A field of an entry with only its low bits kept: the others are reserved. -/
def lowBits {n : Nat} (e : BitVec n) (p : Part) (k : Nat) : BitVec n := putPart e p (getPart e p % 2 ^ k)

/-- A staged extent entry as it is stored (Table 07-2). -/
def extEntry (e : BitVec 256) : BitVec 256 :=
  lowBits (lowBits (lowBits (clearParts e [(3, 1), (6, 2), (11, 1), (18, 2), (26, 2)]) Ext.group 3) Ext.altGroup 3) Ext.volume 12

/-- A staged volume entry as it is stored (Table 07-6). -/
def volEntry (e : BitVec 512) : BitVec 512 :=
  lowBits (lowBits (lowBits (clearParts e [(3, 1), (18, 2), (36, 28)]) Volu.attr 5) Volu.extentBase 20) Volu.extentCount 21

/-- A staged group entry as it is stored (Table 07-8): 0xFF in MEMBER_BAY from member n onward. -/
def grpEntry (e : BitVec 512) : BitVec 512 :=
  let e := lowBits (clearParts e [(34, 2), (41, 3), (50, 2), (55, 9)]) Grp.flags 1
  (List.range 24).foldl (fun e m => if grpMembers e ≤ m then putBytes e (Grp.memberBay.off + m) 1 0xFF else e) e

/-- VOL_CMD WRITE of a volume entry (R304, R311): STATE keeps its value. -/
def State.volCommit (s : State) (v : Nat) : State :=
  if 4096 ≤ v then s.volRefuse 7
  else
    let old := s.vent v
    let e := volEntry (putPart (ofBytes 512 (s.volStaged 16)) Volu.state (getPart old Volu.state))
    let shrink := decide (getPart e Volu.size < getPart old Volu.size) ||
      decide (getPart e Volu.extentCount < getPart old Volu.extentCount)
    if getPart old Volu.state = 1 ∧ getPart e Volu.extentBase ≠ getPart old Volu.extentBase then s.volRefuse 2
    else if getPart old Volu.state = 1 ∧ shrink then s.volRefuse 5
    else if getPart old Volu.state = 1 ∧ !s.extentsOk v e then s.volRefuse 2
    else
      let off := (getPart e Volu.attr).testBit 3 && !(getPart old Volu.attr).testBit 3
      ((s.setVent v e).when off fun s => s.staleVolume v).flag F.VOL_STATUS_CMD_DONE

/-- VOL_CMD WRITE of an extent entry (R288, R306): it waits for the commands that hold a translation through it.
Its fields are stored as staged (DESIGN CHOICE, assumption 166). -/
def State.extCommit (s : State) (i : Nat) : State :=
  let e := extEntry (ofBytes 256 (s.volStaged 8))
  if s.extHeld i e then s.volRefuse 1
  else if s.holders i = [] then (s.setExt i e).flag F.VOL_STATUS_CMD_DONE
  else s.onVol fun x => { x with waitingExt := some (i, e, s.holders i) }

/-- VOL_CMD WRITE of an endpoint entry (R300, R311). -/
def State.accessCommit (s : State) (n : Nat) : State :=
  if 4096 ≤ n then s.volRefuse 7
  else (s.onVol fun x => { x with access := Tab.put 0 n ((s.word (A.VOL_WORD 0)).toNat % 64) x.access }).flag
    F.VOL_STATUS_CMD_DONE

/-- The waiting extent write commits when no command of its wait is left (R288). -/
def State.extWaitDone (s : State) : State :=
  match s.vol.waitingExt with
  | none => s
  | some (i, e, cs) =>
    if s.stillHold i cs then s
    else ((s.onVol fun x => { x with waitingExt := none }).setExt i e).flag F.VOL_STATUS_CMD_DONE

/-- VOL_CMD ACTIVATE (R301). -/
def State.volActivate (s : State) : State :=
  let v := s.fld F.VOL_SEL_INDEX
  if s.fld F.VOL_SEL_TABLE ≠ 0 then s.volRefuse 2
  else if 4096 ≤ v then s.volRefuse 7
  else if s.volActive v then s.volRefuse 1
  else if s.extentsOk v (s.vent v) then (s.setVent v (putPart (s.vent v) Volu.state 1)).flag F.VOL_STATUS_CMD_DONE
  else s.volRefuse 4

/-- Commands accepted on a volume and short of their completion point (R305), an IDENTIFY of it with the Wardens among them. -/
def State.volBusyCmds (s : State) (v : Nat) : Bool :=
  s.cq.slots.any fun x => x.2.alive && (x.2.onVolume || x.2.identifies) && x.2.volume == v

/-- DEACTIVATE is done (R305). -/
def State.deactivateDone (s : State) : State :=
  match s.vol.deactivating with
  | none => s
  | some v =>
    if s.volBusyCmds v then s
    else (s.onVol fun x => { x with deactivating := none }).flag F.VOL_STATUS_CMD_DONE

/-- VOL_CMD DEACTIVATE (R305): the volume is in NONE from now on, and its lines are STALE. -/
def State.deactivate (s : State) : State :=
  let v := s.fld F.VOL_SEL_INDEX
  if s.fld F.VOL_SEL_TABLE ≠ 0 then s.volRefuse 2
  else if 4096 ≤ v then s.volRefuse 7
  else if !s.volActive v then s.volRefuse 1
  else
    let s := (s.setVent v (putPart (s.vent v) Volu.state 0)).staleVolume v
    (s.onVol fun x => { x with deactivating := some v }).deactivateDone

end Sys2Proof.Machine
end

