-- ==== Sys2Proof/Machine/Media.lean ====
section
/-!
DEFINITION. Blocks on the members as the engines of one step read and write them, rows and their reconstruction, and the
lost-range tables (08_stripe_writes_and_attic.md, 09_failure_rebuild_reshape.md).
-/

namespace Sys2Proof.Machine

/-! ### Drives -/

/-- A drive of which nothing is known yet. -/
def driveDefault : Drive where
  blocks := []
  capacity := 0
  vectors := 0
  ckpts := []
  meta_ := none
  reshape := none

/-! ### The reserved area of a member (R348, R349, R633) -/

/-- First member LBA of a journal slot (Table 08-6, R633): slots 0 and 1, and 2 and 3 for side B. -/
def slotLba (k : Nat) : Nat := 0x100000 + 0x20000 * k

/-- L of a checkpoint (R349): a copy of every intent live at the cut, 128 to a block, and the buffers' blocks. -/
def Checkpoint.logBlocks (c : Checkpoint) : Nat := (c.live + 127) / 128 + (c.log.map fun r => r.blocks.length).sum

/-- The checkpoint header (Table 08-8). -/
def Checkpoint.header (c : Checkpoint) (slot : Nat) : List Byte :=
  [0x4B, 0x4A, 0x4E, 0x4C] ++ leBytes 2 1 ++ leBytes 1 c.side ++ leBytes 1 (slot % 2) ++ leBytes 8 c.journalId ++
    leBytes 8 c.gen ++ leBytes 8 c.cut ++ c.clocks.flatMap (leBytes 6) ++ leBytes 4 c.live ++ leBytes 4 c.logBlocks

/-- The data log's copy of an intent (R349, R352): FREE once the intent has been retired. -/
def Checkpoint.logCopy (c : Checkpoint) (x : Nat × BitVec 256) : BitVec 256 :=
  match List.find? (fun r => r.index == x.1) c.log with
  | some r => r.intent
  | none => x.2

/-- The intents that a checkpoint leaves open: those as at the cut that its data log does not give as FREE (R352; DEDUCED,
assumption 133). -/
def Checkpoint.openIntents (c : Checkpoint) : List (Nat × BitVec 256) :=
  c.intents.filter fun x => getPart (c.logCopy x) Intent.state != 0

/-- Stored bytes of block n of a checkpoint before its seal (Table 08-7): header, intent records, lost-range tables and data
log. -/
def Checkpoint.content (c : Checkpoint) (slot n : Nat) : List Byte :=
  if n = 0 then padTo 4096 (c.header slot)
  else if n ≤ 512 then (List.range 128).flatMap fun i => toBytes 32 (Tab.getD (128 * (n - 1) + i) 0 c.intents)
  else if n ≤ 640 then (List.range 256).flatMap fun i => toBytes 16 (Tab.getD (256 * (n - 513) + i) 0 c.lost)
  else
    let m := (c.live + 127) / 128
    let j := n - 641
    if j < m then padTo 4096 (((c.intents.drop (128 * j)).take 128).flatMap fun x => toBytes 32 (c.logCopy x))
    else (((c.log.flatMap fun r => r.blocks)[j - m]?).map (·.1)).getD zeroBlock

/-- The seal block (R349): MAGIC, JOURNAL_ID, JOURNAL_GEN and the CRC-32C over the blocks before it. -/
def Checkpoint.sealBlock (c : Checkpoint) (slot : Nat) : List Byte :=
  padTo 4096 ([0x4B, 0x4A, 0x4E, 0x4C] ++ leBytes 4 0 ++ leBytes 8 c.journalId ++ leBytes 8 c.gen ++
    leBytes 4 (crc32c ((List.range (641 + c.logBlocks)).flatMap (c.content slot))).toNat)

/-- Block n of a journal slot that holds a checkpoint: kind Journal, its GENERATION the journal generation (DEDUCED, assumption
133). -/
def Checkpoint.block (c : Checkpoint) (slot n : Nat) : Option Block :=
  let put := fun (l : List Byte) => mkBlock (c.gen % 2 ^ 48) ((slotLba slot + n) % 2 ^ 32) 0 Kind.journal l
  if n ≤ 640 + c.logBlocks then some (put (c.content slot n))
  else if n = 641 + c.logBlocks ∧ c.sealed then some (put (c.sealBlock slot))
  else none

/-- A block of a drive's reserved area as the K24 or shelf firmware has written it (Table 08-6): group metadata and the reshape
record with kind Metadata, checkpoints with kind Journal. -/
def Drive.reserved (d : Drive) (lba : Nat) : Option Block :=
  let meta_ := fun (gen : Nat) (l : List Byte) => mkBlock (gen % 2 ^ 48) (lba % 2 ^ 32) 0 Kind.metadata (padTo 4096 l)
  if lba = 16383 then d.reshape.map fun x => meta_ x.1 x.2
  else if lba < 16383 then
    d.meta_.bind fun x => if lba * 4096 < x.2.length then some (meta_ x.1 (slice x.2 (lba * 4096) 4096)) else none
  else if slotLba 0 ≤ lba ∧ lba < slotLba 4 then
    let k := (lba - slotLba 0) / 0x20000
    (Tab.find? k d.ckpts).bind fun c => c.block k (lba - slotLba k)
  else none

/-- The block a bay's drive holds at a member LBA; one never written has no valid trailer (assumption 11). -/
def State.media (s : State) (bay lba : Nat) : Block :=
  match Tab.find? bay s.drives with
  | some d => if lba < slotLba 4 then (d.reserved lba).getD (Tab.getD lba (zeroBlock, 0) d.blocks) else Tab.getD lba (zeroBlock, 0) d.blocks
  | none => (zeroBlock, 0)

/-- Change a bay's drive. -/
def State.modDrive (s : State) (bay : Nat) (f : Drive → Drive) : State :=
  { s with drives := Tab.modify driveDefault bay f s.drives }

/-- A block written to a bay's drive. -/
def State.mediaPut (s : State) (bay lba : Nat) (b : Block) : State :=
  s.modDrive bay fun d => { d with blocks := Tab.set lba b d.blocks }

/-- A drive's latency tracker (R421). -/
def State.lat (s : State) (bay : Nat) : Latency := Tab.getD bay { est := 0, last := 0 } s.rsv.lat

/-- A latency sample of x ns (R421). -/
def State.sample (s : State) (bay x : Nat) : State :=
  let e := (s.lat bay).est
  let u := max 64 (e / 4096)
  let e' := if e < x then e + 99 * u else e - u
  s.onRsv fun r => { r with lat := Tab.set bay { est := e', last := s.now } r.lat }

/-! ### Stripe engines (R24, R319, Table 11-2) -/

/-- A stripe engine has a pipe that is not retired (Table 11-2). -/
def State.engineHasPipe (s : State) (e : Nat) : Bool := !((List.range 4).all fun k => s.attic.pipes.contains (80 + 4 * e + k))

/-- The stripe engines of a path: those its chain names that have a pipe (R24, Table 11-2). -/
def State.namedEngines (s : State) (path : Nat) : List Nat :=
  (List.range 4).filter fun e => (s.chainEngines path).testBit e && s.engineHasPipe e

/-- Of the stripe engines that a path's chain names, the one with the fewest cells queued, the lowest on a tie (R319). -/
def State.pickEngine (s : State) (path : Nat) : Nat :=
  match (s.namedEngines path).foldl (fun (a : Option (Nat × Nat)) e =>
      let n := s.hst.ingressFill (32 + e)
      match a with
      | some (_, k) => if n < k then some (e, n) else a
      | none => some (e, n)) none with
  | some (e, _) => e
  | none => 0

/-- A member block crosses the Cellar: 17 cells from one agent, which another takes (R22, Table 01-4). -/
def State.blockCrosses (s : State) (source dest : Nat) : State := (s.cellsSent source 17).cellsTaken dest 17

/-- A read that an engine carries out within one step: counted, and sampled with a free latency, since the step has no
duration (assumption 21). The block crosses the Cellar from its drive agent to a stripe engine. -/
def State.quickRead (s : State) (bay : Nat) : State :=
  let (x, s) := s.draw 32
  ((s.bump (A.DRV_READS bay)).sample bay x).blockCrosses (8 + bay) (32 + s.pickEngine 3)

/-- A write that an engine carries out within one step: the block crosses the Cellar to its drive agent. -/
def State.quickWrite (s : State) (bay lba : Nat) (b : Block) : State :=
  ((s.mediaPut bay lba b).bump (A.DRV_WRITES bay)).blockCrosses (32 + s.pickEngine 1) (8 + bay)

/-- A read that failed its retry as well (Table 14-6). -/
def State.failedRead (s : State) (bay : Nat) : State :=
  ((s.quickRead bay).bump (A.DRV_RETRIES bay)).bump (A.DRV_MEDIA_ERR bay)

/-- A block of a member found unreadable: it counts toward RBD_ERR_LIMIT (Table 09-1), for the bay that serves
the member (DEDUCED: a spare that takes its place starts anew, assumption 25). -/
def State.countError (s : State) (g m : Nat) : State :=
  s.onRbd fun r => { r with errors := Tab.modify [] (s.bayOfMember g m) (fun l => s.now :: within24h s.now l) r.errors }

/-- A block failed its trailer check (R295, Table 07-10). -/
def State.countTrailer (s : State) (x : Expect) (b : Block) : State :=
  let s := s.when (!guardOk b) fun s => (s.bump A.VOL_GUARD_ERR).flag F.VOL_STATUS_GUARD_ERR
  s.when (!tagOk x b) fun s => (s.bump A.VOL_TAG_ERR).flag F.VOL_STATUS_TAG_ERR

/-! ### Rebuild progress (R377, R378) -/

/-- The target record of a member, if any. -/
def State.target (s : State) (g m : Nat) : Option Target :=
  ((List.range 2).filterMap fun t => Tab.find? (g * 2 + t) s.rbd.targets).find? fun t => t.member == m

/-- A stripe is passed for a target (R378). -/
def Target.passed (t : Target) (stripe : Nat) : Bool :=
  t.done || if t.wrapped then decide (t.start ≤ stripe) || decide (stripe < t.point)
    else decide (t.start ≤ stripe) && decide (stripe < t.point)

/-- A member's block of a stripe can be read as far as its state goes (R371). -/
def State.memberIn (s : State) (g m stripe : Nat) : Bool :=
  match s.member g m with
  | 0 => true
  | 1 => match s.target g m with
    | some t => t.passed stripe
    | none => false
  | _ => false

/-! ### Lost ranges (R389 to R391) -/

/-- A lost-range entry is VALID. -/
def lostValid (e : LostEntry) : Bool := (getPart e Lost.flags).testBit 0

/-- A lost-range entry is a disputed one. -/
def lostDisputed (e : LostEntry) : Bool := (getPart e Lost.flags).testBit 1

/-- The valid entries of a group with their indices. -/
def State.lostOf (s : State) (g : Nat) : List (Nat × LostEntry) :=
  s.attic.lost.filterMap fun (k, e) => if k / 4096 = g ∧ lostValid e then some (k % 4096, e) else none

/-- A block lies in a lost range other than a disputed entry (R371). -/
def State.lostAt (s : State) (g stripe m k : Nat) : Bool :=
  (s.lostOf g).any fun (_, e) =>
    !lostDisputed e && getPart e Lost.stripe == stripe && getPart e Lost.member == m &&
      decide (getPart e Lost.first ≤ k) && decide (k < getPart e Lost.first + getPart e Lost.count)

/-- A stripe is disputed (R399). -/
def State.disputed (s : State) (g stripe : Nat) : Bool :=
  (s.lostOf g).any fun (_, e) => lostDisputed e && getPart e Lost.stripe == stripe

/-- A lost-range entry (Table 09-3) made now. -/
def lostEntry (now stripe m flags first count : Nat) : LostEntry :=
  putPart (putPart (putPart (putPart (putPart (putPart 0 Lost.stripe stripe) Lost.member m) Lost.flags flags) Lost.first
    first) Lost.count count) Lost.time (now / 1024 % 2 ^ 32)

/-- Set an entry of a group's table; the peer hears of it (R646). -/
def State.setLost (s : State) (g i : Nat) (e : LostEntry) : State :=
  (s.onAttic fun a => { a with lost := Tab.put 0 (g * 4096 + i) e a.lost }).tellLost g i e

/-- A free entry of a group's table. -/
def State.freeLost (s : State) (g : Nat) : Option Nat :=
  (List.range 4096).find? fun i => !lostValid (Tab.getD (g * 4096 + i) 0 s.attic.lost)

/-- Arguments of an INTEGRITY record (Table 19-6): stripe, member, rows, and an intent index or a generation. -/
def integrityArgs (stripe m first count last : Nat) : List Nat := [stripe, m, first * 65536 + count, last]

/-- No free entry is left for a loss (R390). -/
def State.lostFull (s : State) (g stripe m first count : Nat) : State :=
  (s.flag F.RBD_STATUS_LOST_FULL).tallyFlag .integrity F.RBD_STATUS_LOST_FULL g (integrityArgs stripe m first count 0)

/-- There is room for the loss of one row of a member (R390): an entry it merges with, or a free one. -/
def State.lostRoom (s : State) (g stripe m k : Nat) : Option (Nat × LostEntry) :=
  let near := (s.lostOf g).find? fun (_, e) =>
    !lostDisputed e && getPart e Lost.stripe == stripe && getPart e Lost.member == m &&
      decide (getPart e Lost.first ≤ k + 1) && decide (k ≤ getPart e Lost.first + getPart e Lost.count)
  match near with
  | some (i, e) =>
    let a := min k (getPart e Lost.first)
    let b := max (k + 1) (getPart e Lost.first + getPart e Lost.count)
    some (i, putPart (putPart e Lost.first a) Lost.count (b - a))
  | none => (s.freeLost g).map fun i => (i, lostEntry s.now stripe m 1 k 1)

/-- Add the loss of one row of a member (R390): a loss listed already stays as it is. -/
def State.addLost (s : State) (g stripe m k : Nat) : State :=
  if s.lostAt g stripe m k then s
  else
    match s.lostRoom g stripe m k with
    | some (i, e) => ((s.setLost g i e).flag F.RBD_STATUS_LOST_ADDED).bump A.RBD_LOST_BLOCKS
    | none => s.lostFull g stripe m k 1

/-- Remove n written rows of a member, from row k on, from the lost ranges (R391). What is left of an entry below them keeps its
place, and what is left above them only, too; where both are left the second piece takes a free entry, without which the entry
stays whole. -/
def State.clearLost (s : State) (g stripe m k n : Nat) : State :=
  let hits := (s.lostOf g).filter fun (_, e) =>
    !lostDisputed e && getPart e Lost.stripe == stripe && getPart e Lost.member == m &&
      decide (getPart e Lost.first < k + n) && decide (k < getPart e Lost.first + getPart e Lost.count)
  s.each hits fun s (i, e) =>
    let below := k - getPart e Lost.first
    let above := getPart e Lost.first + getPart e Lost.count - (k + n)
    let low := putPart e Lost.count below
    let high := putPart (putPart e Lost.first (k + n)) Lost.count above
    match below, above with
    | 0, 0 => s.setLost g i 0
    | _, 0 => s.setLost g i low
    | 0, _ => s.setLost g i high
    | _, _ =>
      match s.freeLost g with
      | none => s.flag F.RBD_STATUS_LOST_FULL
      | some j => (s.setLost g i low).setLost g j high

/-- Mark a stripe disputed (R399). -/
def State.dispute (s : State) (g stripe : Nat) : State :=
  let b := stripBlocks (s.grp g)
  if s.disputed g stripe then s
  else
    match s.freeLost g with
    | none => s.lostFull g stripe 0xFF 0 b
    | some i =>
      (((s.setLost g i (lostEntry s.now stripe 0xFF 3 0 b)).flag F.RBD_STATUS_DISPUTED).tallyFlag .integrity
        F.RBD_STATUS_DISPUTED g (integrityArgs stripe 0xFF 0 b 0)).event (.disputed g stripe)

/-- Remove the disputed entry of a stripe (R400, R401). -/
def State.undispute (s : State) (g stripe : Nat) : State :=
  match (s.lostOf g).find? fun (_, e) => lostDisputed e && getPart e Lost.stripe == stripe with
  | some (i, _) => s.setLost g i 0
  | none => s

/-! ### P and Q (R320 to R322) -/

/-- P of the data strips of a row (R321). -/
def pOf (ds : List (List Byte)) : List Byte := ds.foldl xorBytes zeroBlock

/-- A strip times a field element. -/
def scale (c : Byte) (l : List Byte) : List Byte := l.map (pqMul c)

/-- Q of the data strips of a row from strip j on (R321). -/
def qFrom : Nat → List (List Byte) → List Byte
  | _, [] => zeroBlock
  | j, d :: t => xorBytes (scale (pqPow j) d) (qFrom (j + 1) t)

/-- Q of the data strips of a row (R321). -/
def qOf (ds : List (List Byte)) : List Byte := qFrom 0 ds

/-- One lost data strip from P (R322): the exclusive or of P and the others, which stand with zero in its place. -/
def solveP (ds : List (List Byte)) (p : List Byte) : List Byte := xorBytes p (pOf ds)

/-- One lost data strip x from Q (R322). -/
def solveQ (ds : List (List Byte)) (x : Nat) (q : List Byte) : List Byte := scale (pqInv (pqPow x)) (xorBytes q (qOf ds))

/-- Two lost data strips x and y from P and Q (R322). -/
def solvePQ (ds : List (List Byte)) (x y : Nat) (p q : List Byte) : List Byte × List Byte :=
  let p2 := xorBytes p (pOf ds)
  let q2 := xorBytes q (qOf ds)
  let dx := scale (pqInv (pqPow x ^^^ pqPow y)) (xorBytes (scale (pqPow y) p2) q2)
  (dx, xorBytes p2 dx)

/-! ### Rows (R371 to R373) -/

/-- What reading one member block of a row gave. -/
inductive Fetch where
  /-- Its member cannot be read for this stripe. R371. -/
  | away
  /-- The read or the trailer check failed. R371. -/
  | bad
  /-- A loss marker. R388. -/
  | marker (b : Block)
  /-- Intact. -/
  | ok (b : Block)
  deriving DecidableEq, Repr

/-- The block read, marker or not. -/
def Fetch.block? : Fetch → Option Block
  | .marker b => some b
  | .ok b => some b
  | _ => none

/-- A row as read: what its members gave, by member, with what is known of its stripe. -/
structure Row where
  group : Nat
  stripe : Nat
  row : Nat
  entry : BitVec 512
  /-- Expected trailer of each member. -/
  expect : List Expect
  fetch : List Fetch
  /-- Members whose block of the row lies in a lost range. R371. -/
  lost : List Nat
  deriving DecidableEq, Repr

/-- Read row k of a stripe, every member or those asked for; `bad` lists the (member, row) whose drive read fails. -/
def State.readRow (s : State) (g stripe k : Nat) (x : BitVec 256) (first : Nat) (bad : List (Nat × Nat)) : Row :=
  let e := s.grp g
  let ms := List.range (grpMembers e)
  let ex := ms.map fun m => expectAt e x first stripe m k
  let row := (stripe * stripBlocks e + k) % 2 ^ 32
  let one := fun (m : Nat) (t : Expect) =>
    if !s.memberIn g m stripe then Fetch.away
    else if bad.contains (m, k) then Fetch.bad
    else
      let b := s.media (bayOf e m) (memberLba e stripe k)
      if trailerOk t b then Fetch.ok b else if isMarker t row b then Fetch.marker b else Fetch.bad
  { group := g, stripe := stripe, row := k, entry := e, expect := ex, fetch := List.zipWith one ms ex
    lost := ms.filter fun m => s.lostAt g stripe m k }

/-- What a member gave. -/
def Row.at_ (r : Row) (m : Nat) : Fetch := r.fetch.getD m .away

/-- The block of a member is missing (R371). -/
def Row.missing (r : Row) (m : Nat) : Bool :=
  r.lost.contains m || match r.at_ m with | .away => true | .bad => true | _ => false

/-- The missing members of a row. -/
def Row.missingMembers (r : Row) : List Nat := (List.range (grpMembers r.entry)).filter r.missing

/-- Member of data strip j of the row. -/
def Row.dataAt (r : Row) (j : Nat) : Nat := dataMember r.entry r.stripe j

/-- The position is a pad block (R283). -/
def Row.isPad (r : Row) (m : Nat) : Bool := ((r.expect.getD m ⟨0, 0, 0⟩).kind == Kind.pad)

/-- The known stored bytes of data strip j: a marker and a pad are zero, a lost block is not known (R371). -/
def Row.known (r : Row) (j : Nat) : Option (List Byte) :=
  let m := r.dataAt j
  if r.isPad m then some zeroBlock
  else if r.lost.contains m then none
  else match r.at_ m with
    | .ok b => some b.1
    | .marker _ => some zeroBlock
    | _ => none

/-- Highest GENERATION of the data blocks read in the row (R373). -/
def Row.dataGen (r : Row) : Nat :=
  ((List.range (dataStrips r.entry)).filterMap fun j => (r.at_ (r.dataAt j)).block?).foldl (fun a b => max a b.gen) 0

/-- Highest GENERATION of every block read in the row (R374). -/
def Row.topGen (r : Row) : Nat := (r.fetch.filterMap Fetch.block?).foldl (fun a b => max a b.gen) 0

/-- A parity block that may be used (R373). -/
def Row.parity (r : Row) (m : Nat) : Option (List Byte) :=
  if r.lost.contains m then none
  else match r.at_ m with
    | .ok b => if r.dataGen ≤ b.gen then some b.1 else none
    | _ => none

/-- P of the row, if it may be used. -/
def Row.p? (r : Row) : Option (List Byte) := r.parity (pMember r.entry r.stripe)

/-- Q of the row, if it may be used. -/
def Row.q? (r : Row) : Option (List Byte) := r.parity (qMember r.entry r.stripe)

/-- The data strips that are not known. -/
def Row.unknown (r : Row) : List Nat := (List.range (dataStrips r.entry)).filter fun j => (r.known j).isNone

/-- The data strips with zero for those not known. -/
def Row.withZeros (r : Row) : List (List Byte) := (List.range (dataStrips r.entry)).map fun j => (r.known j).getD zeroBlock

/-- The data strips of a row, the unknown ones solved by R322 from the parity that R373 lets be used. -/
def Row.solveData (r : Row) : Option (List (List Byte)) :=
  let ds := r.withZeros
  match r.unknown with
  | [] => some ds
  | [x] =>
    match r.p?, r.q? with
    | some p, _ => some (ds.set x (solveP ds p))
    | none, some q => some (ds.set x (solveQ ds x q))
    | none, none => none
  | [x, y] =>
    match r.p?, r.q? with
    | some p, some q => let (a, b) := solvePQ ds x y p q; some ((ds.set x a).set y b)
    | _, _ => none
  | _ => none

/-- A stripe of a group whose post-replay patrol has not yet passed it (R373). -/
def State.unpatrolled (s : State) (g stripe : Nat) : Bool :=
  match Tab.find? g s.rbd.patrols with
  | some p => p.postReplay && decide (p.point ≤ stripe)
  | none => false

/-- The data strips of a row as R373 lets them be reconstructed; in a stripe the post-replay patrol has not passed, one
missing data block with P and Q that agree. -/
def Row.reconstruct (r : Row) (post : Bool) : Option (List (List Byte)) :=
  if 2 < r.missingMembers.length then none
  else if !post then r.solveData
  else
    match r.unknown, r.p?, r.q? with
    | [x], some p, some q =>
      let ds := r.withZeros
      if solveP ds p = solveQ ds x q then some (ds.set x (solveP ds p)) else none
    | _, _, _ => none

/-- Outcome of data strip j of a row that was read (Table 09-2), with its stored bytes and whether reconstruction served
it. -/
def Row.outcome (r : Row) (disputed grpFailed : Bool) (rec : Option (List (List Byte))) (j : Nat) :
    Nat × List Byte × Bool :=
  let m := r.dataAt j
  if disputed && r.missing m then (St.disputed, zeroBlock, false)
  else match r.at_ m with
    | .marker _ => (St.lostRange, zeroBlock, false)
    | .ok b => if r.lost.contains m then (St.lostRange, zeroBlock, false) else (St.success, b.1, false)
    | _ =>
      if r.lost.contains m then (St.lostRange, zeroBlock, false)
      else match rec with
        | some ds => (St.success, ds.getD j zeroBlock, true)
        | none =>
          if grpFailed && decide (2 < r.missingMembers.length) then (St.groupFailed, zeroBlock, false)
          else (St.unrecoveredRead, zeroBlock, false)

/-- What reading the members of a row costs and shows: one read of each member asked for, and each unreadable block
counted (R367, R570). -/
def State.noteRow (s : State) (r : Row) (bad : List (Nat × Nat)) (ms : List Nat) (count : Bool) : State :=
  s.each ms fun s m =>
    let bay := bayOf r.entry m
    match r.at_ m with
    | .away => s
    | .bad =>
      let b := s.media bay (memberLba r.entry r.stripe r.row)
      let x := r.expect.getD m ⟨0, 0, 0⟩
      let s := s.when count fun s => s.quickRead bay
      (if bad.contains (m, r.row) then s.failedRead bay else s.countTrailer x b).countError r.group m
    | _ => s.when count fun s => s.quickRead bay

/-- A member can be written at a stripe (R317): ACTIVE, or REBUILDING at a passed stripe. -/
def State.writable (s : State) (g m stripe : Nat) : Bool := s.memberIn g m stripe

/-- Write back a block recovered by reconstruction (R374). -/
def State.writeBack (s : State) (r : Row) (m : Nat) (stored : List Byte) : State :=
  s.quickWrite (bayOf r.entry m) (memberLba r.entry r.stripe r.row) (blockFor (r.expect.getD m ⟨0, 0, 0⟩) r.topGen stored)

/-- Read repair (R374): a block on a member in service that is unreadable and has been reconstructed; a FENCED side writes none
(R657). -/
def State.readRepair (s : State) (r : Row) (j : Nat) (stored : List Byte) : State :=
  let m := r.dataAt j
  if r.at_ m = .bad ∧ s.writable r.group m r.stripe ∧ s.peer.state ≠ .fenced then (s.writeBack r m stored).bump A.RBD_READ_REPAIRS else s

end Sys2Proof.Machine
end

