-- ==== Sys2Proof/Machine/Drives.lean ====
section
/-!
DEFINITION. The drive ports' queue engines (14_drive_ports.md): issuing, holding and ending drive commands.
-/

namespace Sys2Proof.Machine

/-- A drive port after reset: EMPTY, PERST# asserted (Table 14-12). -/
def portDefault : Port where
  state := .empty
  since := 0
  presence := false
  presenceAt := 0
  perst := true
  clkreq := false
  refclk := false
  l12 := false
  rate := 0
  width := 0
  started := false
  retrainFrom := none
  cap := 0
  trained := (0, 0)
  sqCount := 0
  sqDepth := 0
  vectors := 0
  cqHead := []
  sizes := (0, 0)
  fit := false
  resv := (false, 0, 0)
  resvCmd := none
  mi := 0
  miValid := false
  miMiss := 0

/-- A drive port. -/
def State.port (s : State) (n : Nat) : Port := Tab.getD n portDefault s.drv.ports

/-- Set a drive port. -/
def State.setPort (s : State) (n : Nat) (p : Port) : State := s.onDrv fun d => { d with ports := Tab.set n p d.ports }

/-- Change a drive port. -/
def State.modPort (s : State) (n : Nat) (f : Port → Port) : State := s.setPort n (f (s.port n))

/-- A drive port runs its queues. -/
def State.portReady (s : State) (n : Nat) : Bool := decide ((s.port n).state = .ready)

/-- The ports of a group's members in service are READY: an engine that reads the group's members waits otherwise, as the
agents hold its commands (R568). -/
def State.groupReady (s : State) (g : Nat) : Bool :=
  (List.range (grpMembers (s.grp g))).all fun m => decide (2 ≤ s.member g m) || s.portReady (s.bayOfMember g m)

/-- Commands outstanding on a submission queue. -/
def State.onQueue (s : State) (bay q : Nat) : Nat :=
  (s.drv.cmds.filter fun c => c.bay == bay && c.queue == some q).length

/-- The submission queue of R563: the fewest commands outstanding, the lowest number on a tie; none while all are full. -/
def State.pickQueue (s : State) (bay : Nat) : Option Nat :=
  let p := s.port bay
  let best := (List.range p.sqCount).foldl (fun (a : Option (Nat × Nat)) q =>
    let n := s.onQueue bay q
    match a with
    | none => some (q, n)
    | some (_, k) => if n < k then some (q, n) else a) none
  match best with
  | some (q, n) => if n < p.sqDepth then some q else none
  | none => none

/-- Put the first waiting command of a port on a queue, if there is room (R563); one held on a reservation conflict stays
(R659). -/
def State.issueOne (s : State) (bay : Nat) : State :=
  if s.portReady bay then
    match s.pickQueue bay with
    | some q =>
      let put := fun (c : DriveCmd) => { c with queue := some q, issued := some (c.issued.getD s.now) }
      s.onDrv fun d => { d with cmds := replaceFirst (fun c => c.bay == bay && c.queue.isNone && !s.peer.held.contains c.name) put d.cmds }
    | none => s
  else s

/-- Issue what waits in an agent, in arrival order (R563). -/
def State.issueAll (s : State) (bay : Nat) : State :=
  s.each (s.drv.cmds.filter fun c => c.bay == bay && c.queue.isNone) fun s _ => s.issueOne bay

/-- A drive command of an engine (R563). -/
def State.issue (s : State) (bay : Nat) (write : Bool) (lba count : Nat) (b : Block) (use : DriveUse) : State :=
  let c : DriveCmd :=
    { name := s.drv.nextName, bay := bay, queue := none, write := write, lba := lba, count := count, block := b.1
      trailer := b.2, fua := write, use := use, issued := none, retried := false }
  (s.onDrv fun d => { d with cmds := d.cmds ++ [c], nextName := d.nextName + 1 }).issueOne bay

/-- A drive command by name. -/
def State.drvCmd (s : State) (n : Nat) : Option DriveCmd := List.find? (fun c => c.name == n) s.drv.cmds

/-- Take a drive command out; what waits may go on (R563). -/
def State.dropCmd (s : State) (c : DriveCmd) : State :=
  (s.onDrv fun d => { d with cmds := d.cmds.filter fun x => x.name != c.name }).issueAll c.bay

/-- Issue a drive command once more on the same drive (R570, Table 14-6). -/
def State.retryCmd (s : State) (c : DriveCmd) : State :=
  let again := fun (x : DriveCmd) => { x with queue := none, issued := none, retried := true }
  ((s.onDrv fun d => { d with cmds := d.cmds.map fun x => if x.name = c.name then again x else x }).bump
    (A.DRV_RETRIES c.bay)).issueAll c.bay

/-- The agent of a port holds its commands until the port is READY again (R568); a reservation command is not repeated. -/
def State.holdCmds (s : State) (bay : Nat) : State :=
  let hold := fun (c : DriveCmd) => if c.bay = bay then { c with queue := none } else c
  s.onDrv fun d => { d with cmds := d.cmds.map hold }

/-- End the reservation command of a port (R572): result code and holder. -/
def State.resvEnd (s : State) (bay code holder : Nat) : State :=
  let mine := fun (c : DriveCmd) => c.bay == bay && match c.use with | .reservation _ _ _ => true | _ => false
  let s := s.onDrv fun d => { d with cmds := d.cmds.filter fun c => !mine c }
  (s.modPort bay fun p => { p with resv := (true, code, holder), resvCmd := none }).flag F.DRV_STATUS_RESV_DONE

end Sys2Proof.Machine
end

