-- ==== Sys2Proof/Machine/Journal.lean ====
section
/-!
DEFINITION. Generation clocks, intents and the dirty store (08_stripe_writes_and_attic.md), and the recording of a loss.
-/

namespace Sys2Proof.Machine

/-! ### Generations (R323 to R325) -/

/-- The value held for a group's generation clock: the clock itself or, after a restart until a replay has set it, its
high-water mark, at which it resumes (R324); 0 where none is held. -/
def State.clockHeld (s : State) (g : Nat) : Nat := Tab.getD g (Tab.getD g 0 s.attic.clockMarks) s.str.clocks

/-- A group's generation clock; it starts at 1 (R323). -/
def State.clock (s : State) (g : Nat) : Nat := if s.clockHeld g = 0 then 1 else s.clockHeld g

/-- STR_GEN_CLOCK of a group (Table 08-19): 0 before the group has a clock. -/
def State.clockWord (s : State) (g : Nat) : Nat := if s.grpOn g then s.clock g else Tab.getD g 0 s.str.clocks

/-- The group clocks as a dump seal and a checkpoint carry them (R324, R344): 0 for a group that has none. -/
def State.clockList (s : State) : List Nat := (List.range 8).map s.clockHeld

/-- Set a group's clock, with its high-water mark in the Attic and at the peer (R324, R646). -/
def State.setClock (s : State) (g v : Nat) : State :=
  let old := s.clock g
  let s := s.onStr fun x => { x with clocks := Tab.set g v x.clocks }
  let s := s.when (decide (Tab.getD g 0 s.attic.clockMarks < v)) fun s =>
    let mark := (v / 2 ^ 20 + 1) * 2 ^ 20
    (s.onAttic fun a => { a with clockMarks := Tab.set g mark a.clockMarks }).tellClock g mark
  s.when (decide (old ≤ 2 ^ 47) && decide (2 ^ 47 < v)) fun s =>
    (s.flag F.STR_STATUS_GEN_HIGH).tallyFlag .integrity F.STR_STATUS_GEN_HIGH g (integrityArgs 0 0xFF 0 0 v)

/-- The next generation of a group would lie above the limit (R325). -/
def State.genOut (s : State) (g : Nat) : Bool := decide (2 ^ 48 - 2 ^ 33 < s.clock g + 1)

/-- Take the next generation of a group (R323). -/
def State.nextGen (s : State) (g : Nat) : Nat × State := (s.clock g + 1, s.setClock g (s.clock g + 1))

/-! ### Intents (R326 to R331) -/

/-- REPLAY_BUSY: a replay runs, after a restart or for a takeover (Table 08-13, R662). -/
def State.replayRuns (s : State) : Bool := s.str.replayBusy || s.peer.takeStep == .closing

/-- The states of an intent (Table 08-2). -/
abbrev Ins.free : Nat := 0
abbrev Ins.filling : Nat := 1
abbrev Ins.ready : Nat := 2
abbrev Ins.destaging : Nat := 3

/-- An intent record; an unlisted one is FREE. -/
def State.intent (s : State) (i : Nat) : BitVec 256 := Tab.getD i 0 s.attic.intents

/-- State of an intent. -/
def State.intentState (s : State) (i : Nat) : Nat := getPart (s.intent i) Intent.state

/-- Set an intent record. -/
def State.setIntent (s : State) (i : Nat) (e : BitVec 256) : State :=
  s.onAttic fun a => { a with intents := if getPart e Intent.state = 0 then Tab.erase i a.intents else Tab.set i e a.intents }

/-- The lowest FREE intent (DESIGN CHOICE, assumption 20). -/
def State.freeIntent (s : State) : Option Nat := (List.range 65536).find? fun i => s.intentState i == 0

/-- The live intent of a stripe, if any (R318). -/
def State.liveIntent (s : State) (g stripe : Nat) : Option (Nat × BitVec 256) :=
  List.find? (fun x => getPart x.2 Intent.state != 0 && getPart x.2 Intent.group % 8 == g &&
    getPart x.2 Intent.stripe == stripe) s.attic.intents

/-- A live stripe write by name. -/
def State.live? (s : State) (n : Nat) : Option StripeWrite := List.find? (fun w => w.name == n) s.str.live

/-- Change a live stripe write. -/
def State.modLive (s : State) (n : Nat) (f : StripeWrite → StripeWrite) : State :=
  s.onStr fun x => { x with live := x.live.map fun w => if w.name = n then f w else w }

/-- State of a live stripe write's intent. -/
def State.writeState (s : State) (w : StripeWrite) : Nat :=
  match w.intent with
  | some i => s.intentState i
  | none => 0

/-- Block slots of the dirty store region, 4,352 B each (R327). -/
def State.dirtySlots (s : State) : Nat := s.regionSize 3 / 4352

/-- Cellar address of a block slot. -/
def State.slotAddr (s : State) (i : Nat) : Nat := s.regionBase 3 + 4352 * i

/-- Block slots held (STR_USE, R331). -/
def State.slotsHeld (s : State) : Nat := s.str.buffers.foldl (fun n x => n + x.2.2) 0

/-- The lowest run of n free block slots (DESIGN CHOICE, assumption 20), trying the start and the end of each buffer. -/
def State.findSlots (s : State) (n : Nat) : Option Nat :=
  let free := fun (a : Nat) => s.str.buffers.all fun (_, (f, k)) => decide (a + n ≤ f) || decide (f + k ≤ a)
  let starts := s.str.buffers.foldl (fun l (_, (f, k)) => insertNat (f + k) l) [0]
  starts.find? fun a => free a && decide (a + n ≤ s.dirtySlots)

/-- A block slot's content: 4,096 stored bytes and the trailer (R327). -/
def State.slotBlock (s : State) (i : Nat) : Block :=
  (s.cellar (s.slotAddr i) 4096, ofBytes 128 (s.cellar (s.slotAddr i + 4096) 16))

/-- A block slot delivers POISON. -/
def State.slotPoison (s : State) (i : Nat) : Bool := s.rangePoison (s.slotAddr i) 4112

/-- Write a block slot: 17 full cells, the last holding the trailer (R327). -/
def State.putSlot (s : State) (i : Nat) (b : Block) : State :=
  s.cellarPut (s.slotAddr i) (b.1 ++ toBytes 16 b.2 ++ List.replicate 240 0)

/-! ### Recording a loss (R387) -/

/-- One of a row's missing data blocks is neither a marker nor in a lost range (R387). -/
def Row.fresh (r : Row) : Bool :=
  (List.range (dataStrips r.entry)).any fun j =>
    let m := r.dataAt j
    !r.isPad m && !r.lost.contains m && match r.at_ m with | .away => true | .bad => true | _ => false

/-- A row of more than two missing blocks is to be recorded (R387): one of them is neither a marker nor in a lost range. A
missing P or Q counts where its member can be written, since the record puts it right (DEDUCED,
assumption 138). -/
def State.lossFresh (s : State) (r : Row) : Bool :=
  let mendable := fun (m : Nat) => decide (r.at_ m = .bad) && s.writable r.group m r.stripe
  decide (2 < r.missingMembers.length) && decide (s.groupState r.group ≠ 4) && !s.genOut r.group &&
    (r.fresh || mendable (pMember r.entry r.stripe) || mendable (qMember r.entry r.stripe))

/-- The missing data strips of a row that a loss is recorded for. -/
def Row.lostStrips (r : Row) : List Nat :=
  (List.range (dataStrips r.entry)).filter fun j => r.missing (r.dataAt j) && !r.isPad (r.dataAt j)

/-- The lost-range table with the losses (member, row) of a stripe added one after the other, or the first for which no entry
is left (R390). -/
def State.lossRoom (s : State) (g stripe : Nat) (l : List (Nat × Nat)) : Except (Nat × Nat) State :=
  l.foldl (fun acc (m, k) =>
    match acc with
    | .error e => .error e
    | .ok s =>
      if s.lostAt g stripe m k then .ok s
      else match s.lostRoom g stripe m k with
        | some (i, e) => .ok (s.setLost g i e)
        | none => .error (m, k)) (.ok s)

/-- The blocks that record a loss (R387): markers, P and Q under a new generation, for the members that can be written or,
with `target`, are being rebuilt at the stripe now. -/
def State.lossBlocks (s : State) (r : Row) (target : Nat → Bool) (gen : Nat) : List (Nat × Block) :=
  let row := (r.stripe * stripBlocks r.entry + r.row) % 2 ^ 32
  let ex := fun m => r.expect.getD m ⟨0, 0, 0⟩
  let p := pMember r.entry r.stripe
  let q := qMember r.entry r.stripe
  let marks := r.lostStrips.map fun j => (r.dataAt j, markerFor (ex (r.dataAt j)) row gen)
  (marks ++ [(p, blockFor (ex p) gen (pOf r.withZeros)), (q, blockFor (ex q) gen (qOf r.withZeros))]).filter fun y =>
    s.writable r.group y.1 r.stripe || target y.1

/-- A row's loss waits: for the intent live on its stripe, or for a free one (R318, R387). -/
def State.lossWaits (s : State) (r : Row) : State :=
  let bad := (List.range (grpMembers r.entry)).filter fun m => r.at_ m = .bad
  let mine := (r.group, r.stripe, r.row, bad)
  s.onRbd fun b => { b with losses := if b.losses.contains mine then b.losses else b.losses ++ [mine] }

/-- Record the loss of a row with more than two missing blocks (R387), under an intent of MODE RMW that opens and closes
within the step: markers, P and Q under a new generation, and lost-range entries; with no room for them nothing is written
(R390). `target m` says that a REBUILDING member's stripe is being rebuilt now, `wbad` the (member, row) whose write fails. -/
def State.recordLoss (s : State) (r : Row) (target : Nat → Bool) (wbad : List (Nat × Nat)) : State :=
  if !s.lossFresh r then s
  else if s.freeIntent = none then s.lossWaits r
  else
    let l := r.lostStrips.map fun j => (r.dataAt j, r.row)
    match s.lossRoom r.group r.stripe l with
    | .error (m, k) => s.lostFull r.group r.stripe m k 1
    | .ok _ =>
      let (gen, s) := s.nextGen r.group
      let lba := memberLba r.entry r.stripe r.row
      let s := s.each ((s.lossBlocks r target gen).filter fun y => !wbad.contains (y.1, r.row)) fun s y =>
        s.quickWrite (bayOf r.entry y.1) lba y.2
      let s := s.each r.lostStrips fun s j =>
        let x := r.expect.getD (r.dataAt j) ⟨0, 0, 0⟩
        let s := s.addLost r.group r.stripe (r.dataAt j) r.row
        s.staleWhere fun _ d => dirVol d == x.vol && decide (getPart d Dir.line % 2 ^ 26 = x.ref / 64)
      (s.flag F.STR_STATUS_LOST_ADDED).tallyFlag .integrity F.STR_STATUS_LOST_ADDED r.group
        (integrityArgs r.stripe ((r.lostStrips.head?.map r.dataAt).getD 0xFF) r.row 1 gen)

/-- Members whose write of a loss's record fails (Table 09-1). -/
def State.lossFails (s : State) (r : Row) (target : Nat → Bool) (wbad : List (Nat × Nat)) : List Nat :=
  if s.lossFresh r then ((s.lossBlocks r target 0).filter fun y => wbad.contains (y.1, r.row)).map (·.1) else []

/-- Record a loss met by a read; it waits while an intent of the stripe is live (R387). -/
def State.readLoss (s : State) (r : Row) : State :=
  if (s.liveIntent r.group r.stripe).isSome then (if 2 < r.missingMembers.length then s.lossWaits r else s)
  else s.recordLoss r (fun _ => false) []

end Sys2Proof.Machine
end

