-- ==== Sys2Proof/Machine/Checkpoint.lean ====
section
/-!
DEFINITION. Member checkpoints (08_stripe_writes_and_attic.md R347 to R356).
-/

namespace Sys2Proof.Machine

/-- The groups that give copies, in order (R354). -/
def State.copyGroups (s : State) : List Nat :=
  ((List.range 8).filter fun g => s.groupState g == 1) ++ (List.range 8).filter fun g => s.groupState g == 2

/-- ACTIVE members of a group by rising bay: bay and member. -/
def State.activeByBay (s : State) (g : Nat) : List (Nat × Nat) :=
  let e := s.grp g
  let t : Tab Nat := ((List.range (grpMembers e)).filter fun m => memberOf e m == 0).foldl (fun t m => Tab.set (bayOf e m) m t) []
  t

/-- The copy members (R354): group, member and bay. -/
def State.chooseCopies (s : State) : List (Nat × Nat × Nat) :=
  let gs := s.copyGroups
  ((List.range 24).flatMap fun i => gs.filterMap fun g => ((s.activeByBay g)[i]?).map fun (b, m) => (g, m, b)).take 3

/-- The copy of a live READY or DESTAGING intent with its buffer, as the
dump and a checkpoint hold it (R343, R352). -/
def State.dumpRecord (s : State) (w : StripeWrite) : Option DumpRecord :=
  match w.intent with
  | none => none
  | some i =>
    match Tab.find? i s.str.buffers with
    | none => none
    | some (first, n) =>
      if 2 ≤ s.intentState i then
        some { intent := s.intent i, index := i, blocks := (List.range n).map fun j => s.slotBlock (first + j), places := w.places }
      else none

/-- The records of every live READY or DESTAGING intent, in ascending intent index (R343). -/
def State.dumpRecords (s : State) : List DumpRecord :=
  let t : Tab DumpRecord := (s.str.live.filterMap s.dumpRecord).foldl (fun t r => Tab.set r.index r t) []
  t.map (·.2)

/-- The journal slots of this side on a member (R633): 0 and 1, or 2 and 3 for side B. -/
def State.ownSlots (s : State) : List Nat := [2 * s.side, 2 * s.side + 1]

/-- Valid checkpoints of a journal that a bay's drive holds (R350): slot and checkpoint. One whose header, seal, CRC or block
trailers have been found to fail is none (`State.copyFaults`, assumption 133). -/
def State.copiesOn (s : State) (bay id side : Nat) : List (Nat × Checkpoint) :=
  match Tab.find? bay s.drives with
  | some d => d.ckpts.filter fun (k, c) => k / 2 == side && c.side == side && c.journalId == id && c.sealed && c.whole
  | none => []

/-- Slot and generation of the newest valid copy of a journal on a bay (R351). -/
def State.newestCopy (s : State) (bay id side : Nat) : Option (Nat × Nat) :=
  (s.copiesOn bay id side).foldl (fun (a : Option (Nat × Nat)) (k, c) =>
    match a with
    | some (_, g) => if g < c.gen then some (k, c.gen) else a
    | none => some (k, c.gen)) none

/-- The slot a new checkpoint goes to: not the one of the newest valid copy (R351). -/
def State.ckptSlot (s : State) (bay : Nat) : Nat :=
  match s.newestCopy bay s.attic.journalId s.side with
  | some (k, _) => if k = 2 * s.side then 2 * s.side + 1 else 2 * s.side
  | none => 2 * s.side

/-- A copy, by bay and slot, is found not valid (R350): a trailer that fails is counted (R295), and so is a read that fails. It
is no valid copy from then on. -/
def State.copyFault (s : State) (bay slot : Nat) (f : CopyFault) : State :=
  match (Tab.find? bay s.drives).bind fun (d : Drive) => Tab.find? slot d.ckpts with
  | none => s
  | some c =>
    if c.sealed && c.whole then
      let s := s.modDrive bay fun d => { d with ckpts := Tab.set slot { c with whole := false } d.ckpts }
      match f with
      | .unread => s.failedRead bay
      | .guard => (s.bump A.VOL_GUARD_ERR).flag F.VOL_STATUS_GUARD_ERR
      | .tag => (s.bump A.VOL_TAG_ERR).flag F.VOL_STATUS_TAG_ERR
      | .seal => s
    else s

/-- The copies of a list of (bay, slot, fault) are found not valid (R350, R362). -/
def State.copyFaults (s : State) (l : List (Nat × Nat × CopyFault)) : State := s.each l fun s (b, k, f) => s.copyFault b k f

/-- Take the cut and begin a checkpoint on the copy members (R351, R352): the slots it overwrites hold none that is sealed
meanwhile. -/
def State.ckptBegin (s : State) (shutdown : Bool) : State :=
  let c : Checkpoint := {
    side := s.side, journalId := s.attic.journalId, gen := s.attic.journalGen, cut := s.now
    clocks := s.clockList, live := s.attic.intents.length, intents := s.attic.intents, lost := s.attic.lost, log := s.dumpRecords
    sealed := false, whole := true }
  let copies := s.chooseCopies
  let s := s.each copies fun s (_, _, b) =>
    let k := s.ckptSlot b
    s.modDrive b fun d => { d with ckpts := Tab.set k c d.ckpts }
  s.onStr fun x => { x with
    ckpt := some { content := c, copies := copies, shutdown := shutdown }, copies := copies, lastCkpt := s.now, ckptDue := false }

/-- A checkpoint falls due (R351, R353): one that still runs delays it. A FENCED side writes none (R657). -/
def State.ckptStart (s : State) (shutdown : Bool) : State :=
  if s.isFenced then s
  else if s.str.ckpt.isSome then (s.onStr fun x => { x with ckptDue := true }).flag F.STR_STATUS_CKPT_LATE
  else s.ckptBegin shutdown

/-- SHUTDOWN goes on (R356): with every live intent destaged the last checkpoint is written; one that still runs delays it
(R353). -/
def State.shutdownNext (s : State) : State :=
  if s.str.shutdown && s.str.live.isEmpty then
    match s.str.ckpt with
    | none => s.ckptBegin true
    | some r => if r.shutdown then s else s.flag F.STR_STATUS_CKPT_LATE
  else s

/-- Blocks of a checkpoint (Table 08-7). -/
def ckptBlocks (c : Checkpoint) : Nat := 642 + c.logBlocks

/-- A copy member is ACTIVE still (R355). -/
def State.copyStands (s : State) (c : Nat × Nat × Nat) : Bool :=
  s.grpOn c.1 && s.member c.1 c.2.1 == 0 && s.bayOfMember c.1 c.2.1 == c.2.2

/-- All three copies of the checkpoint are sealed (R351, R352): an intent retired since the cut is logged as FREE, without
data. -/
def State.ckptSealed (s : State) (r : CkptRun) : State :=
  let same := fun (i : Nat) (e : BitVec 256) => getPart (s.intent i) Intent.state != 0 &&
    getPart (s.intent i) Intent.newGen == getPart e Intent.newGen && getPart (s.intent i) Intent.stripe == getPart e Intent.stripe
  let c := { r.content with
    log := r.content.log.map fun x =>
      if same x.index x.intent then x else { x with intent := putPart x.intent Intent.state Ins.free, blocks := [], places := [] }
    sealed := true }
  let s := s.each r.copies fun s (_, _, b) =>
    let k := s.ckptSlot b
    s.modDrive b fun d => { d with ckpts := Tab.set k c d.ckpts }
  let s := s.bump A.STR_CKPT_BLOCKS (r.copies.length * ckptBlocks c)
  let s := (s.onStr fun x => { x with ckpt := none }).flag F.STR_STATUS_CKPT_DONE
  let s := s.onAttic fun a => { a with journalGen := a.journalGen + 1, clean := a.clean || (r.shutdown && s.str.live.isEmpty) }
  let s := s.when r.shutdown fun s => s.onStr fun x => { x with shutdown := false }
  if s.str.ckptDue then s.ckptBegin false else s.shutdownNext

/-- CHECKPOINT_DONE (R351): the checkpoint ends once all three copies are sealed, and waits while a port of theirs is not READY.
With a copy member that has left ACTIVE, or with fewer than three, it is given up, and a full one goes to the three members
that R354 gives now, if it gives three (R355; DEDUCED, assumption 130). -/
def State.ckptDone (s : State) : State :=
  match s.str.ckpt with
  | none => s
  | some r =>
    if r.copies.length < 3 ∨ !r.copies.all s.copyStands then
      if s.chooseCopies.length = 3 then s.ckptBegin r.shutdown else s
    else if r.copies.all fun c => s.portReady c.2.2 then s.ckptSealed r
    else s

/-- STR_CMD SHUTDOWN (R356). -/
def State.shutdownCmd (s : State) : State := (s.onStr fun x => { x with shutdown := true }).shutdownNext

end Sys2Proof.Machine
end

