-- ==== Sys2Proof/Machine/Transport.lean ====
section
/-!
DEFINITION. The Breren transport's sending side, its paths and its security associations (04_breren_transport.md,
R463 to R467).
-/

namespace Sys2Proof.Machine

/-! ### SA entries (R145, R146) -/

/-- A field of an SA entry. -/
def State.saGet (s : State) (n : Nat) (p : Part) : Nat := getPart (s.sa n) p

/-- Set an SA entry. -/
def State.setSa (s : State) (n : Nat) (e : BitVec 2048) : State := s.onTrn fun t => { t with sa := Tab.put 0 n e t.sa }

/-- Set a field of an SA entry. -/
def State.saPut (s : State) (n : Nat) (p : Part) (v : Nat) : State := s.setSa n (putPart (s.sa n) p v)

abbrev Sas.invalid : Nat := 0
abbrev Sas.active : Nat := 1
abbrev Sas.syncing : Nat := 2
abbrev Sas.exhausted : Nat := 3
abbrev Sas.draining : Nat := 4

/-- STATE of an SA (Table 04-10). -/
def State.saState (s : State) (n : Nat) : Nat := s.saGet n Sa.state

/-- Times and requests of an SA that has none. -/
def auxDefault : SaAux := ⟨none, none, 0, 0, none, [], false, 0, []⟩

/-- Times and requests of an SA. -/
def State.aux (s : State) (n : Nat) : SaAux := Tab.getD n auxDefault s.trn.aux

/-- Change the times and requests of an SA. -/
def State.modAux (s : State) (n : Nat) (f : SaAux → SaAux) : State :=
  s.onTrn fun t => { t with aux := Tab.put auxDefault n (f (s.aux n)) t.aux }

/-- Segment size of an SA in bytes (Table 04-10). -/
def State.segment (s : State) (n : Nat) : Nat := 8192 / 2 ^ (s.saGet n Sa.segment % 4)

/-- A record of class TRANSPORT (Table 19-6). -/
def State.tallyTransport (s : State) (f : Fld) (inst id path status : Nat) : State :=
  s.tallyFlag .transport f inst [id, path, status]

/-! ### Paths (R158, R159) -/

/-- A path is valid (Table 04-10). -/
def pathValid (e : BitVec 2048) (p : Nat) : Bool := (pathByte e p).testBit 7

/-- Local sub-port of a path (Table 04-10). -/
def pathSp (e : BitVec 2048) (p : Nat) : Nat := pathByte e p % 32

/-- PATH_STATE of a path: 0 UP, 1 SUSPECT, 2 DOWN, 3 unused (Table 04-10). -/
def pathState (e : BitVec 2048) (p : Nat) : Nat := getBits e (8 * 64 + 2 * p) 2

/-- Set PATH_STATE of a path. -/
def setPathState (e : BitVec 2048) (p v : Nat) : BitVec 2048 := putBits e (8 * 64 + 2 * p) 2 v

/-- Valid paths in a state, ascending. -/
def pathsIn (e : BitVec 2048) (v : Nat) : List Nat := (List.range 16).filter fun p => pathValid e p && pathState e p == v

/-- The next path of a list from a place on, wrapping; with the place itself only if asked. -/
def nextPath (l : List Nat) (at_ : Nat) (incl : Bool) : Option Nat :=
  (l.find? fun p => decide (at_ < p) || (incl && p == at_)).orElse fun _ => l.head?

/-- The path R158 gives from a place on: among the UP paths, else SUSPECT, else DOWN. -/
def choosePath (e : BitVec 2048) (at_ : Nat) (incl : Bool) : Option Nat :=
  ((nextPath (pathsIn e 0) at_ incl).orElse fun _ => nextPath (pathsIn e 1) at_ incl).orElse fun _ =>
    nextPath (pathsIn e 2) at_ incl

/-- Path of the next new packet of an SA (R158). -/
def State.newPath (s : State) (sa : Nat) : Option Nat := choosePath (s.sa sa) (s.saGet sa Sa.rotate % 16) true

/-- Move ROTATE past the path just used (R158). -/
def State.rotate (s : State) (sa used : Nat) : State :=
  match choosePath (s.sa sa) used false with
  | some p => s.saPut sa Sa.rotate p
  | none => s

/-- The test of a path not yet tested. -/
def testDefault : PathTest := ⟨0, 0, 0, 0, []⟩

/-- The test of a path. -/
def State.pathTest (s : State) (sa p : Nat) : PathTest := Tab.getD (sa * 16 + p) testDefault s.trn.tests

/-- Set the test of a path. -/
def State.setTest (s : State) (sa p : Nat) (t : PathTest) : State :=
  s.onTrn fun x => { x with tests := Tab.put testDefault (sa * 16 + p) t x.tests }

/-! ### Counters and queueing (R149, R463 to R466, R754) -/

/-- Initial retry interval in ns, 5 to 1,000 us (Table 04-16). -/
def State.initRetry (s : State) : Nat := 1000 * max 5 (min 1000 (s.fld F.TRN_INIT_RETRY_INTERVAL))

/-- RTO0 of an SA in ns (R165). -/
def State.rto0 (s : State) (sa : Nat) : Nat :=
  let srtt := s.saGet sa Sa.srtt
  if s.is F.TRN_CTRL_ADAPTIVE_RTO ∧ srtt ≠ 0 then min 1000000 (max 5000 (srtt + 4 * s.saGet sa Sa.rttvar)) else s.initRetry

/-- High-water mark of an SA's packet counter (R463). -/
def State.saMark (s : State) (sa : Nat) : Nat :=
  match Tab.find? sa s.attic.saMarks with
  | some r => r.mark
  | none => 0

/-- From counter 2^62 an ACTIVE SA is EXHAUSTED (R466, Table 04-11), also one that becomes ACTIVE with such a counter. -/
def State.saSpent (s : State) (sa : Nat) : State :=
  if 2 ^ 62 ≤ s.saGet sa Sa.txCounter ∧ s.saState sa = Sas.active then
    ((s.saPut sa Sa.state Sas.exhausted).flag F.TRN_STATUS_SA_EXHAUSTED).event (.saExhausted sa)
  else s

/-- From counter 2^48 an SA is due for a new key, told once: when it reaches that counter, or starts with one past it while its
flag does not say so yet (R465). -/
def State.saRekey (s : State) (sa : Nat) : State :=
  s.when (decide (2 ^ 48 ≤ s.saGet sa Sa.txCounter) && !(s.saGet sa Sa.flags).testBit 2) fun s =>
    ((s.saPut sa Sa.flags (s.saGet sa Sa.flags ||| 4)).flag F.TRN_STATUS_REKEY_DUE).event (.saRekeyDue sa)

/-- What TX_COUNTER's new value brings: a new mark to be written, REKEY_DUE, EXHAUSTED (R463, R465, R466). -/
def State.counterEvents (s : State) (sa : Nat) : State :=
  let c := s.saGet sa Sa.txCounter
  let s := s.when (decide (s.saMark sa ≤ c + 2 ^ 19) && (Tab.find? sa s.cip.marking).isNone) fun s =>
    s.onCip fun x => { x with marking := Tab.set sa (s.saMark sa + 2 ^ 20) x.marking }
  (s.saRekey sa).saSpent sa

/-- Change a packet of a send entry. -/
def State.modPacket (s : State) (key index : Nat) (f : TxPacket → TxPacket) : State :=
  s.onTrn fun t => { t with tx := t.tx.map fun m =>
    if m.key = key then { m with packets := m.packets.map fun p => if p.index = index then f p else p } else m }

/-- A send entry by name. -/
def State.tx? (s : State) (key : Nat) : Option TxMsg := s.trn.tx.find? fun m => m.key == key

/-- A message is done with: its send entry is freed. -/
def State.dropTx (s : State) (key : Nat) : State := s.onTrn fun t => { t with tx := t.tx.filter fun m => m.key != key }

/-- A packet as it leaves: with its counter, and with what its payload says of that moment, the time of a PROBE (Table 04-7)
and the NEXT_COUNTER of a RESUME_ACK, its own plus 1 (R155). -/
def Packet.leaving (p : Packet) (counter remote now : Nat) : Packet :=
  { p with
    counter := counter
    saIndex := remote
    payload := match p.opcode with
      | .probe => beBytes 8 now ++ p.payload.drop 8
      | .saSync => if beAt p.payload 0 1 = 2 then p.payload.take 16 ++ beBytes 8 (counter + 1) ++ p.payload.drop 24 else p.payload
      | _ => p.payload }

/-- A send entry after one of its packets has been sent on a path: the time its retry timer, its 2 s and its sample count from
(R754). -/
def TxMsg.sentAt (m : TxMsg) (i path now : Nat) : TxMsg :=
  { m with
    packets := m.packets.map fun p => if p.index = i then { p with sentAt := now, path := path } else p
    first := some (m.first.getD now) }

/-- A path's test after a probe has been sent (R159): its answer counts for 200 us. -/
def PathTest.probed (t : PathTest) (seq now : Nat) : PathTest :=
  { t with lastProbe := now, waiting := (t.waiting.filter fun w => decide (now < w.2 + 200000)) ++ [(seq, now)] }

/-- What the sending of a packet notes: the times of its message (R754), the probe its path now waits for (R159), or the time of
the SA_SYNC request that its interval counts from (R151). -/
def Trn.sent (t : Trn) (b : Blocked) (now : Nat) : Trn :=
  match b.msg with
  | some k => { t with tx := t.tx.map fun m => if m.key = k then m.sentAt b.pkt.index b.path now else m }
  | none =>
    match b.pkt.opcode with
    | .probe =>
      let at_ := b.sa * 16 + b.path
      { t with tests := Tab.put testDefault at_ ((Tab.getD at_ testDefault t.tests).probed (beAt b.pkt.payload 8 8) now) t.tests }
    | .saSync =>
      let a := Tab.getD b.sa auxDefault t.aux
      let sent := fun (r : SyncReq) => if r.subtype = beAt b.pkt.payload 0 1 then { r with sentAt := now, path := b.path } else r
      { t with aux := Tab.put auxDefault b.sa { a with sync := a.sync.map sent } t.aux }
    | _ => t

/-- Place a packet's frame in its egress queue, and have its payload read out of the Cellar for it (R22, R754). A frame goes to
the remote address that its path names now: bit 4 of the frame's path (R181). -/
def State.placePacket (s : State) (b : Blocked) (pkt : Packet) : State :=
  let e := s.sa b.sa
  let n := pathSp e b.path
  let (name, s) := s.enqueue n b.cls (s.dscpPrio (getPart e Sa.dscp % 64)) (s.frameLen b.sa n b.len) (decide (b.runs ≠ []))
    b.cut (.breren b.sa (b.path + 16 * ofBool ((pathByte e b.path).testBit 5)) pkt b.msg)
  match name with
  | some f => if b.runs = [] then s else s.openFlow (n / 4) true (.send f) b.runs [] false
  | none => s

/-- The last packet of a group message has been sent: its entry is freed (R442), and the data message's ends the port copy,
which counts as sent (R446, R453). -/
def State.groupSent (s : State) (key : Nat) : State :=
  match s.tx? key with
  | none => s
  | some m =>
    match m.use with
    | .group i =>
      (s.dropTx key).when (m.length == 262144) fun s =>
        (s.modCopy m.sa i fun d => { d with lastPacket := some s.now }).bump A.RSV_GROUP_LINES
    | _ => s

/-- Give a packet its counter and place it in its egress queue: that is the moment it is sent (R149, R754). -/
def State.transmit (s : State) (b : Blocked) : State :=
  let c := s.saGet b.sa Sa.txCounter
  let pkt := b.pkt.leaving c (s.saGet b.sa Sa.remoteSa) s.now
  let s := ((s.saPut b.sa Sa.txCounter (c + 1)).counterEvents b.sa).bump A.TRN_TX_PKTS
  let s := (s.onTrn fun t => t.sent b s.now).placePacket b pkt
  s.when (pkt.flags.testBit 4 && pkt.flags.testBit 0) fun s => s.with? b.msg State.groupSent

/-- A message's first packet was sent more than 2 s ago: no packet of it is sent any more (R166). -/
def State.tooOld (s : State) (first : Option Nat) : Bool :=
  match first with
  | some t => decide (t + 2000000000 < s.now)
  | none => false

/-- A packet that waited for its counter mark belongs to a message that is still under way and not too old (R166), and has not
been acknowledged meanwhile. -/
def State.msgLives (s : State) (b : Blocked) : Bool :=
  match b.msg with
  | some k => s.trn.tx.any fun m => m.key == k && !s.tooOld m.first &&
      (m.group || m.packets.any fun p => p.index == b.pkt.index && !p.acked)
  | none => true

/-- The path on which a packet that waited for its counter mark leaves: a group packet's is PATH[0] (R442), a probe keeps the
path it tests (R159), an answer the path it answers on while that is valid (R150), and any other packet takes the path that
R158 gives from its own on (R181). -/
def State.leavingPath (s : State) (b : Blocked) : Option Nat :=
  let e := s.sa b.sa
  let request := decide (b.pkt.opcode = .saSync) && beAt b.pkt.payload 0 1 % 2 == 1
  if b.cls = .group then some 0
  else if b.msg.isSome ∨ request then choosePath e b.path true
  else if pathValid e b.path then some b.path
  else if b.pkt.opcode = .probe then none
  else s.newPath b.sa

/-- A packet that waited for its counter mark as it is sent now; none where it is given up. Its leaf is one of the sub-port its
path now has (R181, R541). -/
def State.stillSent (s : State) (b : Blocked) : Option Blocked :=
  if s.msgLives b then
    (s.leavingPath b).map fun p => { b with
      path := p
      cls := match b.cls with
        | .leaf q => .leaf (leafId (pathSp (s.sa b.sa) p) (q % 2 ^ 19) (q / 2 ^ 19 % 64))
        | c => c }
  else none

/-- A packet may take the SA's next counter: one from 2^62 on only if it is a control packet or a retransmission, none from 2^63
on (R466). -/
def State.counterAllows (s : State) (b : Blocked) : Bool :=
  let c := s.saGet b.sa Sa.txCounter
  decide (c < 2 ^ 62) || (decide (c < 2 ^ 63) && (b.msg.isNone || b.pkt.flags.testBit 2))

/-- An SA sends at all: the transport engine is enabled (Table 04-15), and the SA is neither INVALID nor stopped by a poisoned
entry (R127). -/
def State.saOpen (s : State) (sa : Nat) : Bool :=
  s.is F.TRN_CTRL_EN && decide (s.saState sa ≠ Sas.invalid) && !(s.aux sa).stopped

/-- Send a packet, or let it wait for its SA's counter mark (R463, R466). -/
def State.sendPkt (s : State) (b : Blocked) : State :=
  if ¬ s.saOpen b.sa ∨ ¬ s.counterAllows b then s
  else if s.saMark b.sa ≤ s.saGet b.sa Sa.txCounter ∨ (s.trn.blocked.any fun x => x.sa == b.sa && s.counterAllows x) then
    s.onTrn fun t => { t with blocked := t.blocked ++ [b] }
  else s.transmit b

/-- The packets of an SA that its mark no longer holds back, in order (R463). -/
def State.releaseBlocked (s : State) (sa : Nat) : Nat → State
  | 0 => s
  | k + 1 =>
    match s.trn.blocked.find? fun b => b.sa == sa && s.counterAllows b with
    | some b =>
      if s.saOpen sa ∧ s.saGet sa Sa.txCounter < s.saMark sa then
        let s := s.onTrn fun t => { t with blocked := t.blocked.erase b }
        (match s.stillSent b with | some b => s.transmit b | none => s).releaseBlocked sa k
      else s
    | none => s

/-- The packets of every SA that wait though its mark no longer holds them back: TRN_CTRL.EN may have held them. -/
def State.releaseAll (s : State) : State :=
  s.each (s.trn.blocked.map (·.sa)) fun s sa => s.releaseBlocked sa s.trn.blocked.length

/-- A packet with no data of its own. -/
def packetOf (op : Opcode) (flags id : Nat) (payload : List Byte) : Packet where
  opcode := op
  flags := flags
  saIndex := 0
  counter := 0
  msgId := id
  index := 0
  length := payload.length
  key := 0
  offset := 0
  payload := payload

/-- Send a control packet on a path: express, or on the leaf of queue 0 for SA_SYNC (R139, R541). -/
def State.sendControl (s : State) (sa path : Nat) (op : Opcode) (id : Nat) (payload : List Byte) : State :=
  let n := pathSp (s.sa sa) path
  let sync := decide (op = .saSync)
  s.sendPkt {
    sa := sa, path := path, pkt := packetOf op (if sync then 1 else 9) id payload, runs := [], len := payload.length
    msg := none, cls := if sync then .leaf (leafId n (s.saGet sa Sa.endpoint) 0) else .express, cut := none }

/-- A packet of an opcode waits on a path of an SA for the SA's counter mark: it has not been sent (R463, R754). -/
def State.parked (s : State) (sa : Nat) (op : Opcode) (f : Blocked → Bool) : Bool :=
  s.trn.blocked.any fun b => b.sa == sa && decide (b.pkt.opcode = op) && f b

/-- Send a probe on a path, unless one waits to be sent there already (R159, Table 04-7). A group SA sends none (R442). -/
def State.sendProbe (s : State) (sa p : Nat) : State :=
  let q := s.trn.probeSeq
  if s.saGet sa Sa.kind = 1 ∨ s.parked sa .probe (·.path == p) then s
  else (s.onTrn fun x => { x with probeSeq := (q + 1) % 2 ^ 64 }).sendControl sa p .probe 0 (beBytes 8 s.now ++ beBytes 8 q)

/-- A path enters SUSPECT: three probes, the first at once (R159). -/
def State.suspect (s : State) (sa p : Nat) : State :=
  ((s.setSa sa (setPathState (s.sa sa) p 1)).setTest sa p { s.pathTest sa p with timeouts := 0, probes := 1, since := s.now }).sendProbe sa p

/-- A path returns to UP. -/
def State.pathUp (s : State) (sa p : Nat) : State :=
  (s.setSa sa (setPathState (s.sa sa) p 0)).setTest sa p { s.pathTest sa p with timeouts := 0, probes := 0 }

/-- A path goes DOWN (Table 04-12). -/
def State.pathDown (s : State) (sa p : Nat) : State :=
  ((s.setSa sa (setPathState (s.sa sa) p 2)).setTest sa p { s.pathTest sa p with timeouts := 0, probes := 0 }).flag F.TRN_STATUS_PATH_DOWN

/-- A retry timeout of a packet sent on a path: the second in a row makes it SUSPECT (R159). -/
def State.pathTimeout (s : State) (sa p : Nat) : State :=
  let t := s.pathTest sa p
  let s := s.setTest sa p { t with timeouts := t.timeouts + 1 }
  if 2 ≤ t.timeouts + 1 ∧ pathValid (s.sa sa) p ∧ pathState (s.sa sa) p = 0 then s.suspect sa p else s

/-- An ACK for a packet sent on a path (R159). -/
def State.pathAcked (s : State) (sa p : Nat) : State :=
  let s := s.setTest sa p { s.pathTest sa p with timeouts := 0 }
  if pathValid (s.sa sa) p ∧ pathState (s.sa sa) p = 1 then s.pathUp sa p else s

/-- A sub-port's link changes: its paths go DOWN, or are probed (Table 04-12). A group SA keeps to its PATH[0] (R442). -/
def State.pathsLink (s : State) (n : Nat) (up : Bool) : State :=
  s.each (s.trn.sa.map (·.1)) fun s sa =>
    if s.saState sa = Sas.invalid ∨ s.saGet sa Sa.kind = 1 then s
    else s.each ((List.range 16).filter fun p => pathValid (s.sa sa) p && pathSp (s.sa sa) p == n) fun s p =>
      if up then (if pathState (s.sa sa) p = 2 then s.sendProbe sa p else s)
      else if pathState (s.sa sa) p = 2 then s else s.pathDown sa p

/-! ### Congestion (R168) -/

/-- Time of one halving at most: SRTT, or TRN_INIT_RETRY while there is no sample (R168). -/
def State.halfTime (s : State) (sa : Nat) : Nat := if s.saGet sa Sa.srtt = 0 then s.initRetry else s.saGet sa Sa.srtt

/-- Halve CWND, not below 16. -/
def State.halve (s : State) (sa : Nat) : State := s.saPut sa Sa.cwnd (max 16 (s.saGet sa Sa.cwnd / 2))

/-- A time at least one interval ago, or never. -/
def longAgo (now interval : Nat) : Option Nat → Bool
  | none => true
  | some t => decide (t + interval ≤ now)

/-- An ACK reported CE marks (R168). -/
def State.ceMark (s : State) (sa : Nat) : State :=
  if longAgo s.now (s.halfTime sa) (s.aux sa).ceHalf then (s.halve sa).modAux sa fun a => { a with ceHalf := some s.now, growFrom := s.now }
  else s.modAux sa fun a => { a with growFrom := s.now }

/-- A retry timer expired (R168). -/
def State.timerLoss (s : State) (sa : Nat) : State :=
  if longAgo s.now (s.halfTime sa) (s.aux sa).toHalf then (s.halve sa).modAux sa fun a => { a with toHalf := some s.now, growFrom := s.now }
  else s.modAux sa fun a => { a with growFrom := s.now }

/-- A round-trip sample (R165). Every quotient is rounded down (DESIGN CHOICE, assumption 123). -/
def State.rttSample (s : State) (sa x : Nat) : State :=
  let srtt := s.saGet sa Sa.srtt
  let var := s.saGet sa Sa.rttvar
  if srtt = 0 then (s.saPut sa Sa.srtt x).saPut sa Sa.rttvar (x / 2)
  else
    let d := if srtt < x then x - srtt else srtt - x
    (s.saPut sa Sa.rttvar ((3 * var + d) / 4)).saPut sa Sa.srtt ((7 * srtt + x) / 8)

/-! ### Messages (R161 to R171, R751) -/

/-- Packets of a message (R161). -/
def packetCount (len seg : Nat) : Nat := max 1 ((len + seg - 1) / seg)

/-- Payload bytes of a packet of a message (R161). -/
def packetLen (len seg i : Nat) : Nat := min seg (len - i * seg)

/-- Packets of a send entry: a FETCH has one and no payload (Table 04-3). -/
def State.txCount (s : State) (m : TxMsg) : Nat := if m.opcode = .fetch then 1 else packetCount m.length (s.segment m.sa)

/-- Part of runs of the Cellar: skip some bytes, take some. -/
def subRuns : List (Nat × Nat) → Nat → Nat → List (Nat × Nat)
  | [], _, _ => []
  | (a, n) :: t, skip, len =>
    if len = 0 then []
    else if n ≤ skip then subRuns t (skip - n) len
    else
      let k := min len (n - skip)
      (a + skip, k) :: subRuns t 0 (len - k)

/-- Cellar runs of a byte range of a READ, if every block of it is there (R201, R439). -/
def Slot.runs (x : Slot) (pos len : Nat) : Option (List (Nat × Nat)) :=
  let b0 := pos / 4096
  let bs := List.range ((pos + len + 4095) / 4096 - b0)
  if bs.all fun k => (Tab.find? (b0 + k) x.blocks).isSome then
    some (subRuns (bs.map fun k => (Tab.getD (b0 + k) 0 x.blocks, 4096)) (pos % 4096) len)
  else none

/-- Payload of a packet of a message: bytes it carries, or Cellar runs; none while its data is not there. -/
def State.payloadOf (s : State) (m : TxMsg) (i : Nat) : Option (List Byte × List (Nat × Nat)) :=
  let seg := s.segment m.sa
  let len := packetLen m.length seg i
  match m.data with
  | .bytes b => some (slice b (i * seg) len, [])
  | .cellar r => some ([], subRuns r (i * seg) len)
  | .none => some ([], [])
  | .blocks =>
    match m.use with
    | .readData c pos => (s.cmd? c).bind fun x => (x.2.runs (pos + i * seg) len).map fun r => ([], r)
    | _ => none

/-- The pending read whose verdicts a packet's blocks still wait for, if any (R448). -/
def State.cutOf (s : State) (m : TxMsg) (i : Nat) : Option Nat :=
  match m.use with
  | .readData c pos =>
    let seg := s.segment m.sa
    match s.cmd? c with
    | some (_, x) =>
      let b0 := (pos + i * seg) / 4096
      let bs := (List.range ((pos + i * seg + packetLen m.length seg i + 4095) / 4096 - b0)).map fun k => b0 + k
      (s.rsv.pending.find? fun p => p.waiters.contains c && p.volume == x.volume && bs.any fun b =>
        p.line == (x.lba + b) / 64 && p.blocks.any fun y => y.pos == (x.lba + b) % 64 && y.verdict.isNone).map (·.name)
    | none => none
  | _ => none

/-- Endpoint and queue of the leaf that a message's packets go to (R541): a completion or data goes to its command's queue,
a FETCH_REPLY serves no command. -/
def State.leafQueue (s : State) (m : TxMsg) : Nat :=
  let q := fun (c : Nat) => match s.cmd? c with
    | some (k, _) => queueOf k % 64
    | none => 0
  match m.use with
  | .readData c _ => q c
  | .completion c => q c
  | .fetch c => q c
  | _ => 0

/-- The packet of a message at an index (R138, R140, R161, R189). A FETCH never carries ACK_NOW (DESIGN CHOICE,
assumption 163). -/
def State.txPacket (s : State) (m : TxMsg) (i : Nat) (retry : Bool) (payload : List Byte) : Packet :=
  let n := s.txCount m
  let last := i + 1 == n
  let fetch := decide (m.opcode = .fetch)
  { opcode := m.opcode
    flags := ofBool last + 2 * ofBool m.commit + 4 * ofBool retry + 16 * ofBool m.group +
      32 * ofBool (!fetch && (retry || last))
    saIndex := 0
    counter := 0
    msgId := m.id
    index := i
    length := m.length
    key := m.wkey
    offset := m.offset + i * s.segment m.sa
    payload := payload }

/-- Send a packet of a message on a path. -/
def State.sendTx (s : State) (m : TxMsg) (i path : Nat) (retry : Bool) (payload : List Byte) (runs : List (Nat × Nat)) : State :=
  let n := pathSp (s.sa m.sa) path
  s.sendPkt {
    sa := m.sa, path := path, pkt := s.txPacket m i retry payload, runs := runs
    len := if m.opcode = .fetch then 0 else packetLen m.length (s.segment m.sa) i
    msg := some m.key
    cls := if m.group then .group else .leaf (leafId n (s.saGet m.sa Sa.endpoint) (s.leafQueue m))
    cut := s.cutOf m i }

/-- Packets of an SA sent and not yet acknowledged (R168). -/
def State.inFlight (s : State) (sa : Nat) : Nat :=
  ((s.trn.tx.filter fun m => m.sa == sa).map fun m => (m.packets.filter fun p => !p.acked).length).sum

/-- The completion of an ABORT waits for that of the command it stopped (R257): the stopped command is older, and its
completion's packet has yet to be sent. -/
def State.abortWaits (s : State) (c : Nat) : Bool :=
  match s.cmd? c with
  | some (k, x) =>
    let arg := getPart x.cap Cap.arg0
    let mine := fun (m : TxMsg) => match m.use with
      | .completion d => decide (d < c) && (s.cmd? d).any fun y =>
          y.1 == k / 2048 * 2048 + arg % 64 * 32 + arg / 256 % 32 && y.2.status == St.aborted
      | _ => false
    let parked := fun (m : TxMsg) => s.trn.blocked.any fun b => b.msg == some m.key
    x.opcode == 0x23 && x.status == St.success && ((s.trn.held.any fun h => mine h.msg) || s.trn.tx.any fun m => mine m && (decide (m.packets = []) || parked m))
  | none => false

/-- A message may send a new packet: its SA's state and counter (R466, Table 04-11), window, age and the order of R157, R168 and
R257. -/
def State.maySend (s : State) (m : TxMsg) : Bool :=
  let st := s.saState m.sa
  s.saOpen m.sa && (st == Sas.active || st == Sas.draining) && decide (s.saGet m.sa Sa.txCounter < 2 ^ 62) &&
    decide (m.packets.length < s.txCount m) && (m.group || decide (s.inFlight m.sa < s.saGet m.sa Sa.cwnd)) &&
    !s.tooOld m.first &&
    (match m.use with
      | .completion c => !s.abortWaits c && !(s.trn.tx.any fun d => decide (d.sa ≠ m.sa) && match d.use with | .readData e _ => e == c | _ => false)
      | _ => true)

/-- A packet may leave on a path: while its blocks wait for verdicts, not on a port in preemptable-only mode (R448). -/
def State.cutAllows (s : State) (m : TxMsg) (i path : Nat) : Bool :=
  (s.cutOf m i).isNone || s.mergeMode (pathSp (s.sa m.sa) path) != 2

/-- Send the next new packet of a message (R158, R161, R168). -/
def State.sendNext (s : State) (m : TxMsg) : State :=
  if s.maySend m then
    let path := if m.group then some 0 else (s.newPath m.sa).filter (s.cutAllows m m.packets.length)
    match path, s.payloadOf m m.packets.length with
    | some p, some (payload, runs) =>
      let i := m.packets.length
      let pk : TxPacket := ⟨i, s.now, p, 0, s.rto0 m.sa, m.group, runs, false, false⟩
      let s := s.onTrn fun t => { t with tx := t.tx.map fun x =>
        if x.key = m.key then { x with packets := x.packets ++ [pk] } else x }
      (s.when (!m.group) fun s => s.rotate m.sa p).sendTx m i p false payload runs
    | _, _ => s
  else s

/-- A message that cannot be started ends as a failed message of its kind does (R171, R751). -/
def State.endUse (s : State) (u : MsgUse) (status : Nat) : State :=
  match u with
  | .readData c _ => s.undeliverable c
  | .completion c => s.undeliverable c
  | .fetch c => (s.finish c status).onTrn fun t => t.stop c
  | .fetchReply _ => s
  | .group _ => s

/-- The access a FETCH_REPLY serves has ended (Table 05-3). -/
def State.endReply (s : State) (m : TxMsg) : State :=
  match m.use with
  | .fetchReply a => s.endAccess (some a)
  | _ => s

/-- A message of the K24 fails (R171, R202). -/
def State.msgFail (s : State) (m : TxMsg) (status : Nat) : State :=
  let path := match m.packets.getLast? with | some p => p.path | none => 0
  let code := match m.use with | .fetchReply _ => 0 | _ => status
  let s := ((s.dropTx m.key).bump A.TRN_MSG_FAILED).flag F.TRN_STATUS_MSG_FAILED
  ((s.tallyTransport F.TRN_STATUS_MSG_FAILED m.sa m.id path code).endReply m).endUse m.use status

/-- Status of a message that fails by the retry limit, its age or STALE (R171). -/
def TxMsg.failStatus (m : TxMsg) : Nat := if m.opcode = .fetch then St.fetchFailed else 0

/-- Whether a message takes a new message id (R162). -/
def TxMsg.newId (m : TxMsg) : Bool := decide (m.opcode ≠ .fetchReply)

/-- An SA can take a new message now: the id window and a free send entry (R163, R170). -/
def State.roomFor (s : State) (sa : Nat) (m : TxMsg) : Bool :=
  decide (s.trn.tx.length < s.pantryEntries 0x03) &&
    !(m.newId && s.trn.tx.any fun x => x.sa == sa && x.newId && decide (x.id + 512 ≤ s.saGet sa Sa.txNextId))

/-- Take a send entry for a message (R162). -/
def State.takeTx (s : State) (sa : Nat) (m : TxMsg) : State :=
  let id := if m.newId then s.saGet sa Sa.txNextId else m.id
  let s := s.when m.newId fun s => s.saPut sa Sa.txNextId (id + 1)
  let s := s.onTrn fun t => { t with nextKey := t.nextKey + 1, tx := t.tx ++ [{ m with key := t.nextKey, sa := sa, id := id }] }
  match m.use with
  | .fetch c => s.modCmd c fun x => { x with fetches := x.fetches ++ [(id, m.offset - getPart (dataToken x.cap) Token.base, m.length)] }
  | .readData c _ => s.modCmd c fun x => { x with messages := x.messages ++ [s.trn.nextKey - 1] }
  | _ => s

/-- Hold a message (R170, R751); each counts in TRN_TX_WAITS (DESIGN CHOICE, assumption 164). -/
def State.holdTx (s : State) (sa : Nat) (m : TxMsg) : State :=
  (s.onTrn fun t => { t with held := t.held ++ [⟨sa, m⟩] }).bump A.TRN_TX_WAITS

/-- The SA on which a new message for an SA starts: past every switch from a DRAINING SA to the one that replaces it (R157,
R751), following at most as many switches as the number given. -/
def State.followSa (s : State) : Nat → Nat → Nat
  | 0, sa => sa
  | k + 1, sa =>
    if s.saState sa = Sas.draining then
      match (s.aux sa).newSa with
      | some n => s.followSa k n
      | none => sa
    else sa

/-- The SA of a message for an SA: a reply stays where its FETCH came in (R157, R162). -/
def State.msgSa (s : State) (sa : Nat) (m : TxMsg) : Nat := if m.newId then s.followSa s.trn.aux.length sa else sa

/-- A command's message that an EXHAUSTED SA ends: the command completes with SA_EXHAUSTED and sends nothing more (R29,
R467). -/
def State.spentUse (s : State) (u : MsgUse) : Option State :=
  match u with
  | .readData c _ => some ((s.finish c St.saExhausted).onTrn fun t => t.stop c)
  | .fetch c => some ((s.finish c St.saExhausted).onTrn fun t => t.stop c)
  | _ => none

/-- A message waits behind held ones of the same SA, or of one that the SA replaces: messages start in order (R162, R208). -/
def State.behindHeld (s : State) (sa : Nat) (m : TxMsg) : Bool := m.newId && s.trn.held.any fun h => h.msg.newId && s.msgSa h.sa h.msg == sa

/-- Start a message on the SA it goes to, as that SA's state allows (R467, R751). -/
def State.startMsg (s : State) (at_ : Nat) (m : TxMsg) : State :=
  let sa := s.msgSa at_ m
  let take := fun (_ : Unit) => if s.roomFor sa m ∧ !s.behindHeld sa m then s.takeTx sa m else s.holdTx sa m
  match s.saState sa with
  | 1 => take ()
  | 2 => s.holdTx sa m
  | 3 => (s.spentUse m.use).getD (if m.newId then s.holdTx sa m else take ())
  | 4 => if m.newId then s.holdTx sa m else take ()
  | _ => (s.endReply m).endUse m.use m.failStatus

/-- A message as yet without an entry. -/
def msgOf (op : Opcode) (length wkey offset : Nat) (use : MsgUse) (data : MsgData) : TxMsg where
  key := 0
  sa := 0
  id := 0
  opcode := op
  commit := false
  group := false
  length := length
  wkey := wkey
  offset := offset
  use := use
  data := data
  packets := []
  first := none

/-! ### Acknowledged messages -/

/-- A message is acknowledged whole: its entry is freed and what waits for it goes on (Table 06-3, R194, R435). -/
def State.txDone (s : State) (m : TxMsg) : State :=
  let s := s.dropTx m.key
  match m.use with
  | .completion c =>
    match s.cmd? c with
    | some (k, _) => (s.freeSlot k).releaseCmd c
    | none => s.releaseCmd c
  | .readData c _ => s.releaseCmd c
  | .fetchReply a => (s.endAccess (some a)).bump A.WIN_FETCH_SERVED
  | _ => s

/-! ### Windows' held COMMIT placements (R214) -/

/-- Discard a held COMMIT placement (R214). -/
def State.commitDiscard (s : State) (h : HeldCommit) : State :=
  let s := s.onWin fun w => { w with held := w.held.erase h }
  (((s.endAccess (some h.access)).bump A.WIN_COMMIT_DISCARD).flag F.WIN_STATUS_COMMIT_DISCARD).tallyTransport
    F.WIN_STATUS_COMMIT_DISCARD h.sa h.id 0 0

/-! ### SA commands and SA_SYNC (R146, R151 to R157, R181, R464) -/

/-- Packets of an SA that wait in an egress queue are not sent: its key may change before their turn (R149). -/
def State.pullSa (s : State) (sa : Nat) : State :=
  let mine := fun (f : EgFrame) => match f.body with | .breren a _ _ _ => a == sa | _ => false
  s.each ((s.mac.sps.filter fun x => x.2.queue.any mine).map (·.1)) fun s n =>
    s.modQueue n fun p => { p with queue := p.queue.filter fun f => !mine f }

/-- An SA becomes INVALID: its messages fail, its holds are discarded but for one that is being written, and nothing more is
sent (R146, R214). -/
def State.invalidate (s : State) (sa : Nat) : State :=
  let s := s.when (s.saState sa == Sas.syncing) fun s => s.flag F.TRN_STATUS_SYNC_DONE
  let s := (s.pullSa sa).saPut sa Sa.state Sas.invalid
  let s := s.onTrn fun t => { t with blocked := t.blocked.filter fun b => b.sa != sa, rx := t.rx.filter fun m => m.sa != sa }
  let s := s.each (s.trn.tx.filter fun m => m.sa == sa) fun s m => if (s.tx? m.key).isSome then s.msgFail m m.failStatus else s
  let held := s.trn.held.filter fun h => h.sa == sa
  let s := (s.onTrn fun t => { t with held := t.held.filter fun h => h.sa != sa }).each held fun s h =>
    (s.endReply h.msg).endUse h.msg.use h.msg.failStatus
  (s.each (s.win.held.filter fun h => h.sa == sa && !h.writing) fun s h => s.commitDiscard h).modAux sa fun _ => auxDefault

/-- What ACTIVATE and RESUME set beside the state (R181, R464). -/
def State.saStart (s : State) (sa : Nat) : State :=
  let e := s.sa sa
  let e := (List.range 16).foldl (fun e p => setPathState e p (if pathValid e p then 0 else 3)) e
  let e := putPart (putPart (putPart e Sa.cwnd 512) Sa.srtt 0) Sa.rttvar 0
  let low := (List.range 16).find? fun p => pathValid e p
  let e := if pathValid e (getPart e Sa.rotate % 16) then e else putPart e Sa.rotate (low.getD 0)
  let c := max (getPart e Sa.txCounter) (s.saMark sa)
  let s := s.setSa sa (putPart e Sa.txCounter c)
  let s := s.modAux sa fun _ => { auxDefault with growFrom := s.now, firstId := getPart e Sa.rxLeft }
  let s := s.onTrn fun t => { t with tests := t.tests.filter fun x => x.1 / 16 != sa }
  s.onCip fun x => { x with marking := Tab.set sa (c / 2 ^ 20 * 2 ^ 20 + 2 ^ 21) x.marking }

/-- Payload of an SA_SYNC packet (Table 04-8). -/
def syncPayload (subtype challenge nextCounter nextId newSa : Nat) : List Byte :=
  beBytes 1 subtype ++ beBytes 7 0 ++ beBytes 8 challenge ++ beBytes 8 nextCounter ++
    (if 3 ≤ subtype then beBytes 4 0 ++ beBytes 4 newSa else beBytes 6 nextId ++ beBytes 2 0)

/-- An SA_SYNC request is outstanding in the place of any other of its subtype (R151). -/
def State.setSync (s : State) (sa : Nat) (r : SyncReq) : State :=
  s.modAux sa fun a => { a with sync := a.sync.filter (fun x => x.subtype != r.subtype) ++ [r] }

/-- An SA_SYNC request of a subtype has been answered (R151). -/
def State.endSync (s : State) (sa subtype : Nat) : State :=
  s.modAux sa fun a => { a with sync := a.sync.filter fun x => x.subtype != subtype }

/-- The outstanding SA_SYNC request of a subtype. -/
def State.syncOf (s : State) (sa subtype : Nat) : Option SyncReq := (s.aux sa).sync.find? fun r => r.subtype == subtype

/-- Send an SA_SYNC request, first or again, on a path (R151). -/
def State.sendSync (s : State) (sa : Nat) (r : SyncReq) : State :=
  let ch := if r.subtype = 1 then s.saGet sa Sa.challenge else 0
  (s.setSync sa r).sendControl sa r.path .saSync 0 (syncPayload r.subtype ch 0 0 r.newSa)

/-- Begin an SA_SYNC request (R151, R158). -/
def State.startSync (s : State) (sa subtype newSa : Nat) : State :=
  match s.newPath sa with
  | some p => (s.rotate sa p).sendSync sa ⟨subtype, newSa, s.now, s.initRetry, p⟩
  | none => s.setSync sa ⟨subtype, newSa, s.now, s.initRetry, 0⟩

/-- A side in SYNCING sends RESUME with a fresh challenge, a free value (R154). -/
def State.resume (s : State) (sa : Nat) : State :=
  let (c, s) := s.draw 64
  (s.saPut sa Sa.challenge c).startSync sa 1 0

/-- An SA enters DRAINING: new messages, the held ones among them, go to the new SA (R146, R157, R751). -/
def State.drain (s : State) (sa : Nat) (new : Nat) : State :=
  if s.saState sa = Sas.active ∨ s.saState sa = Sas.exhausted then
    let s := (s.endSync sa 3).saPut sa Sa.state Sas.draining
    let s := s.onTrn fun t => { t with held := t.held.map fun h => if h.sa = sa ∧ h.msg.newId then { h with sa := new } else h }
    s.modAux sa fun a => { a with drainAt := s.now, newSa := some new }
  else s

/-- A write of words 12 to 15 of an SA: path states follow (R181). -/
def pathWrite (e : BitVec 2048) (n : Nat) (v : Word) : BitVec 2048 :=
  let new := putBytes e (4 * n) 4 v.toNat
  (List.range 4).foldl (fun x k =>
    let p := 4 * (n - 12) + k
    if pathValid new p then (if pathValid e p then x else setPathState x p 0) else setPathState x p 3) new

/-- A write of TRN_SA_WORD[n] (R181). -/
def State.saWordWrite (s : State) (sa n : Nat) (v : Word) : State :=
  if s.saState sa = Sas.invalid then
    let old := s.sa sa
    s.setSa sa (putPart (putBytes old (4 * n) 4 v.toNat) Sa.state (getPart old Sa.state))
  else if 12 ≤ n ∧ n < 16 then s.setSa sa (pathWrite (s.sa sa) n v)
  else s

end Sys2Proof.Machine
end

