-- ==== Sys2Proof/Machine/Window.lean ====
section
/-!
DEFINITION. The window unit: window keys, the key check, accesses in flight, revocation and held COMMIT placements
(05_windows_and_placement.md).
-/

namespace Sys2Proof.Machine

abbrev Keys.free : Nat := 0
abbrev Keys.valid : Nat := 1
abbrev Keys.rotating : Nat := 2
abbrev Keys.revoking : Nat := 3
abbrev Keys.retired : Nat := 4

/-- A window key entry after reset: FREE with GENERATION 1 (R186). -/
def keyDefault : BitVec 256 := putPart 0 Key.generation 1

/-- A window key index exists (R187). -/
def State.keyExists (s : State) (k : Nat) : Bool := decide (k < s.pantryEntries 0x04)

/-- A window key entry; an index beyond the partition reads 0, which is FREE (R187). -/
def State.keyEnt (s : State) (k : Nat) : BitVec 256 := if s.keyExists k then Tab.getD k keyDefault s.win.keys else 0

/-- Set a window key entry. -/
def State.setKey (s : State) (k : Nat) (e : BitVec 256) : State := s.onWin fun w => { w with keys := Tab.put keyDefault k e w.keys }

/-- Refuse a WIN_CMD (R184, R218). -/
def State.winRefuse (s : State) : State := s.flag F.WIN_STATUS_CMD_REFUSED

/-- Another landing window of an endpoint stands in the way of a BIND (R184). -/
def State.landingTaken (s : State) (k e : Nat) : Bool :=
  s.win.keys.any fun x =>
    let st := getPart x.2 Key.state
    x.1 != k && getPart x.2 Key.kind == 0 && getPart x.2 Key.endpoint == e &&
      (st == Keys.valid || st == Keys.rotating || (st == Keys.retired && !(getPart x.2 Key.pend).testBit 0))

/-- The conditions of a BIND (R184). -/
def State.bindOk (s : State) (k : Nat) : Bool :=
  let e := s.keyEnt k
  let kind := getPart e Key.kind
  let base := getPart e Key.base
  let len := getPart e Key.length
  let perms := getPart e Key.perms
  s.keyExists k && getPart e Key.state == Keys.free && (kind == 0 || kind == 1) &&
    s.inRegion (if kind = 0 then 1 else 5) base len &&
    (kind == 1 || (decide (getPart e Key.endpoint < 4096) && !s.landingTaken k (getPart e Key.endpoint))) &&
    !(kind == 1 && (perms.testBit 0 || perms.testBit 2)) &&
    base % 4096 == 0 && len % 4096 == 0 && decide (4096 ≤ len) && decide (len ≤ 2 ^ 30) && getPart e Key.generation != 0

/-- WIN_CMD BIND (R184, R186). -/
def State.bindKey (s : State) (k : Nat) : State :=
  if s.bindOk k then s.setKey k (putPart (s.keyEnt k) Key.state Keys.valid) else s.winRefuse

/-- A revocation is done (R222): key, generation before the fence. -/
def State.revokeDone (s : State) (k gen : Nat) : State :=
  let s := (s.setFld F.WIN_DONE_GENERATION gen).setFld F.WIN_DONE_KEY k
  ((s.flag F.WIN_STATUS_REVOKE_DONE).tallyTransport F.WIN_STATUS_REVOKE_DONE k gen 0 0).event (.revocationDone k)

/-- Old accesses of a key have run out: a rotation or revocation is done (R218, R221). -/
def State.fenceCheck (s : State) (k : Nat) : State :=
  let e := s.keyEnt k
  let st := getPart e Key.state
  if getPart e Key.inflightOld = 0 then
    if st = Keys.rotating then (s.setKey k (putPart e Key.state Keys.valid)).revokeDone k (getPart e Key.generation - 1)
    else if st = Keys.revoking then (s.setKey k (putPart e Key.state Keys.free)).revokeDone k (getPart e Key.generation - 1)
    else s
  else s

/-- The fence of a ROTATE or REVOKE of a VALID key (Table 05-4). -/
def State.fence (s : State) (k : Nat) (revoke : Bool) : State :=
  let e := s.keyEnt k
  if s.keyExists k ∧ getPart e Key.state = Keys.valid then
    let gen := getPart e Key.generation
    let last := decide (gen = 0xFFFF)
    let e := putPart (putPart e Key.inflightOld (getPart e Key.inflightCur)) Key.inflightCur 0
    let e := putPart e Key.fenceMs (s.now / 1000000)
    let e := if last then putPart e Key.pend (ofBool revoke) else putPart e Key.generation (gen + 1)
    let e := putPart e Key.state (if last then Keys.retired else if revoke then Keys.revoking else Keys.rotating)
    let s := (s.setKey k e).onWin fun w => { w with
      accesses := w.accesses.map fun a => if a.key = k then { a with old := true } else a
      fences := Tab.set k (gen, s.now) w.fences }
    s.fenceCheck k
  else s.winRefuse

/-- A key that is treated as revoked although no REVOKE was accepted (R127): a VALID one is fenced; a rotation under way becomes
a revocation, the accesses under the generation in force going with the older ones; a RETIRED key becomes FREE when its second
is over. The generation of a rotation under way is left as it is (DESIGN CHOICE, assumption 128). -/
def State.forceRevoke (s : State) (k : Nat) : State :=
  let e := s.keyEnt k
  let st := getPart e Key.state
  if st = Keys.valid then s.fence k true
  else if st = Keys.rotating then
    let e := putPart (putPart e Key.inflightOld (getPart e Key.inflightOld + getPart e Key.inflightCur)) Key.inflightCur 0
    (s.setKey k (putPart e Key.state Keys.revoking)).onWin fun w => { w with
      accesses := w.accesses.map fun a => if a.key = k then { a with old := true } else a }
  else if st = Keys.retired then s.setKey k (putPart e Key.pend 1)
  else s

/-- A second of shelf time has passed since a key's fence (Table 05-4). -/
def State.fencePast (s : State) (k : Nat) : Bool :=
  match Tab.find? k s.win.fences with
  | some (_, t) => decide (t + 1000000000 ≤ s.now)
  | none => true

/-- A RETIRED key's second after its fence has passed with nothing in flight (Table 05-4). -/
def State.retiredExpiry (s : State) (k : Nat) : State :=
  let e := s.keyEnt k
  if getPart e Key.state = Keys.retired ∧ getPart e Key.inflightOld = 0 ∧ s.fencePast k then
    let st := if (getPart e Key.pend).testBit 0 then Keys.free else Keys.valid
    let e := putPart (putPart (putPart e Key.generation 1) Key.pend 0) Key.state st
    (s.setKey k e).revokeDone k 0xFFFF
  else s

/-- Count an access under a key's generation in force (R192, R194): its name. -/
def State.beginAccess (s : State) (k : Nat) : Nat × State :=
  let e := s.keyEnt k
  let n := s.win.nextAccess
  (n, (s.setKey k (putPart e Key.inflightCur (getPart e Key.inflightCur + 1))).onWin fun w =>
    { w with nextAccess := n + 1, accesses := w.accesses ++ [⟨n, k, false, false⟩] })

/-- An access that has ended leaves its counter (R194). -/
def State.accessEnd (s : State) (n : Nat) : State :=
  match s.win.accesses.find? fun a => a.name == n && a.ended with
  | none => s
  | some a =>
    let e := s.keyEnt a.key
    let e := if a.old then putPart e Key.inflightOld (getPart e Key.inflightOld - 1)
      else putPart e Key.inflightCur (getPart e Key.inflightCur - 1)
    ((s.setKey a.key e).onWin fun w => { w with accesses := w.accesses.filter fun x => x.name != n }).fenceCheck a.key

/-- What a key check answers: the access counted and the Cellar address, or a NAK with its reason and detail. -/
inductive KeyCheck where
  | ok (access addr : Nat)
  | nak (reason detail : Nat)
  deriving DecidableEq, Repr

/-- The failing step of the key check, if any (R192): reason and detail. -/
def State.keyFault (s : State) (k gen endpoint : Nat) (fetch : Bool) (offset bytes : Nat) : Option (Nat × Nat) :=
  let e := s.keyEnt k
  let st := getPart e Key.state
  let g := getPart e Key.generation
  if st = Keys.free ∨ ¬ s.is F.WIN_CTRL_EN then some (2, 0)
  else if getPart e Key.endpoint ≠ 0xFFFF ∧ getPart e Key.endpoint ≠ endpoint then some (2, 0)
  else if st = Keys.revoking ∨ st = Keys.retired then some (2, 0)
  else if gen ≠ g then some (2, g)
  else if ¬ (getPart e Key.perms).testBit (if fetch then 1 else 0) then some (2, g)
  else if getPart e Key.length < offset + bytes then some (3, 0)
  else none

/-- A refused access carried the generation that was old after the key's last fence (R220), whatever the key's state now. -/
def State.fenceLate (s : State) (k gen : Nat) : Bool :=
  match Tab.find? k s.win.fences with
  | some (g, _) => gen == g
  | none => false

/-- The key check of a received PLACE or FETCH (R192, R220). -/
def State.keyCheck (s : State) (key endpoint : Nat) (fetch : Bool) (offset bytes : Nat) : KeyCheck × State :=
  let k := key / 65536
  let gen := key % 65536
  match s.keyFault k gen endpoint fetch offset bytes with
  | some (r, d) =>
    let s := if r = 3 then (s.bump A.WIN_BOUNDS_NAK).flag F.WIN_STATUS_BOUNDS_NAK
      else (s.bump A.WIN_ACCESS_NAK).flag F.WIN_STATUS_ACCESS_NAK
    (.nak r d, s.when (s.fenceLate k gen && r == 2) fun s => s.bump A.WIN_FENCE_LATE)
  | none =>
    let (n, s) := s.beginAccess k
    (.ok n (getPart (s.keyEnt k) Key.base + offset), s.when (!fetch) fun s => s.bump A.WIN_PLACE_OK)

/-- The token check of a pushed WRITE (R198): its failing status, if any. -/
def State.pushFault (s : State) (token : BitVec 128) (endpoint blocks : Nat) : Option Nat :=
  let key := getPart token Token.key
  let e := s.keyEnt (key / 65536)
  if ¬ s.is F.WIN_CTRL_EN ∨ getPart e Key.state ≠ Keys.valid ∨ key % 65536 ≠ getPart e Key.generation then some St.windowRevoked
  else if getPart e Key.endpoint ≠ endpoint ∨ getPart e Key.kind ≠ 0 ∨ ¬ (getPart e Key.perms).testBit 2 ∨
      getPart token Token.base % 4096 ≠ 0 ∨ getPart token Token.length < blocks * 4096 ∨
      getPart e Key.length < getPart token Token.base + blocks * 4096 then some St.tokenInvalid
  else none

/-- Keys with an open fence (Table 05-9). -/
def State.fencesOpen (s : State) : Nat := (s.win.keys.filter fun x => decide (2 ≤ getPart x.2 Key.state)).length

/-- A write of WIN_WORD[n]: the writable bits of a FREE entry; PERMS bits [7:3] are 0 and BASE has bits [35:0] (R182, R225). -/
def State.winWordWrite (s : State) (k n : Nat) (v : Word) : State :=
  let e := s.keyEnt k
  if s.keyExists k ∧ getPart e Key.state = Keys.free then
    let w := putBytes e (4 * n) 4 v.toNat
    let keep := fun (x : BitVec 256) (p : Part × Nat) => putPart x p.1 (getPart w p.1 % 2 ^ p.2)
    s.setKey k ([(Key.perms, 3), (Key.generation, 16), (Key.endpoint, 16), (Key.kind, 8), (Key.base, 36), (Key.length, 32)].foldl keep e)
  else s

/-! ### Held COMMIT placements (R211 to R217) -/

/-- Message m of an SA is complete or reaped (R175). -/
def State.rxDone (s : State) (sa m : Nat) : Bool :=
  let l := s.saGet sa Sa.rxLeft
  decide (m < l) || (decide (m < l + 512) && getBytes (s.sa sa) 176 64 / 2 ^ (m - l) % 2 == 1)

/-- A message of the window before a COMMIT placement has been reaped already, so that R212 can never be met (R214): REAP_FLOOR
lies there, or another id that was reaped. -/
def State.reapedBefore (s : State) (sa m : Nat) : Bool :=
  (s.saGet sa Sa.reapFloor :: (s.aux sa).reaped).any fun f =>
    decide ((s.aux sa).firstId ≤ f) && decide (f < m) && decide (m ≤ f + 511)

/-- A held COMMIT placement may be written: every earlier message of its window is complete, which a reaped one never is, and has
landed (R212). -/
def State.commitReady (s : State) (h : HeldCommit) : Bool :=
  !s.reapedBefore h.sa h.id && (List.range (min 511 h.id)).all (fun k => s.rxDone h.sa (h.id - 1 - k)) &&
    !(s.win.held.any fun x => x.sa == h.sa && decide (x.id < h.id) && decide (h.id ≤ x.id + 511))

/-- Held COMMIT placements of a network agent (R217). -/
def State.holds (s : State) (agent : Nat) : Nat := (s.win.held.filter fun h => h.agent == agent).length

/-- Hold a COMMIT placement (R212, R217). -/
def State.holdCommit (s : State) (h : HeldCommit) : State :=
  let s := (s.onWin fun w => { w with held := w.held ++ [h] }).bump A.WIN_COMMIT_HELD
  s.maxFld (F.WIN_HOLD_HIGH_WATER h.agent) (s.holds h.agent)

/-- Write a held COMMIT placement that may be written (R212). -/
def State.commitWrite (s : State) (h : HeldCommit) : State :=
  let s := s.onWin fun w => { w with held := w.held.map fun x => if x.access = h.access then { x with writing := true } else x }
  s.openFlow h.agent false (.commit h.access) [(h.addr, h.data.length)] h.data false

/-- Message m of a stream has been reaped: the COMMIT placements that wait for it are discarded (R214). -/
def State.commitReap (s : State) (sa m : Nat) : State :=
  s.each (s.win.held.filter fun h => h.sa == sa && decide (m < h.id) && decide (h.id ≤ m + 511) && !h.writing) fun s h =>
    s.commitDiscard h

end Sys2Proof.Machine
end

