-- ==== Sys2Proof/Machine/Reads.lean ====
section
/-!
DEFINITION. The read service unit (10_read_service.md): the sources of a READ's blocks, pending drive reads, steering,
reconstruction, and handing the blocks to the commands that wait.
-/

namespace Sys2Proof.Machine

/-! ### Read buffers and pins -/

/-- A read buffer slot is held. -/
def State.bufferHeld (s : State) (a : Nat) : Bool :=
  s.rsv.pending.any (fun p => p.fill.isNone && p.buffer == a) || s.rsv.dests.any fun d => d.buffer == some a

/-- The lowest free read buffer: 256 KiB of the read buffer region, one line (DESIGN CHOICE, assumption 22). -/
def State.freeBuffer (s : State) : Option Nat :=
  let base := s.regionBase 4
  ((List.range (s.regionSize 4 / 262144)).find? fun i => !s.bufferHeld (base + i * 262144)).map fun i => base + i * 262144

/-- A destination's egress request: it holds a pin on its line or buffer (R435). -/
def State.addDest (s : State) (c : Nat) (line buffer : Option Nat) : State :=
  let d : Dest := { cmd := some c, sa := 0, line := line, buffer := buffer, since := s.now, lastPacket := none, lost := false }
  let s := s.onRsv fun r => { r with dests := r.dests ++ [d] }
  match line with
  | some i => s.pin i
  | none => s

/-- A block of a READ has its outcome: an address for its data, and its status where it is not SUCCESS. -/
def State.giveBlock (s : State) (c pos addr status : Nat) : State :=
  s.modCmd c fun x => { x with
    unready := x.unready.filter fun b => b != pos
    blocks := Tab.set pos addr x.blocks
    fails := if status = St.success then x.fails else Tab.set pos status x.fails }

/-- A READ whose blocks all have their outcome is settled: the status of its lowest-LBA failing block (R372). -/
def State.readSettle (s : State) (c : Nat) : State :=
  match s.cmd? c with
  | some (_, x) =>
    if x.opcode = 1 ∧ x.started ∧ x.unready = [] ∧ x.lines = [] then s.finish c ((x.fails.headD (0, St.success)).2) else s
  | none => s

/-! ### Steering (R423, R424) -/

/-- The FACTOR in eighths (Table 10-7). -/
def State.steerFactor (s : State) : Nat := min 64 (max 8 (s.fld F.RSV_CTRL_FACTOR))

/-- The FLOOR in ns (Table 10-7). -/
def State.steerFloor (s : State) : Nat := min 10000 (max 50 (s.fld F.RSV_CTRL_FLOOR)) * 1000

/-- Insert into a rising list, keeping repeats. -/
def insertSorted (n : Nat) : List Nat → List Nat
  | [] => [n]
  | m :: t => if n ≤ m then n :: m :: t else m :: insertSorted n t

/-- The threshold T of a group (R423). -/
def State.threshold (s : State) (g : Nat) : Nat :=
  let e := s.grp g
  let es := ((List.range (grpMembers e)).filter fun m => memberOf e m == 0).map fun m => (s.lat (bayOf e m)).est
  let sorted := es.foldl (fun l n => insertSorted n l) []
  let m := sorted.getD ((sorted.length + 1) / 2 - 1) 0
  max s.steerFloor (s.steerFactor * m / 8)

/-- The slowest member of a row above its group's threshold, of those whose block can be read, if any (R424). -/
def State.slowMember (s : State) (g stripe k : Nat) : Option Nat :=
  let e := s.grp g
  let t := s.threshold g
  let there := (List.range (grpMembers e)).filter fun m => s.memberIn g m stripe && !s.lostAt g stripe m k
  let best := there.foldl (fun (a : Option (Nat × Nat)) m =>
    let v := (s.lat (bayOf e m)).est
    if v ≤ t then a else match a with
      | some (_, w) => if w < v then some (m, v) else a
      | none => some (m, v)) none
  best.map (·.1)

/-- Members of a row known to be missing before it is read: away or in a lost range. -/
def State.knownMissing (s : State) (g stripe k : Nat) : Nat :=
  ((List.range (grpMembers (s.grp g))).filter fun m => !s.memberIn g m stripe || s.lostAt g stripe m k).length

/-- A member may be read around in a row (R424): no more than two blocks of it would be missing, and in a stripe that the
post-replay patrol has not passed only this one (R373). -/
def State.mayAvoid (s : State) (g stripe k m : Nat) : Bool :=
  !s.disputed g stripe && s.memberIn g m stripe && !s.lostAt g stripe m k &&
    decide (s.knownMissing g stripe k < if s.unpatrolled g stripe then 1 else 2)

/-! ### Pending reads -/

/-- A pending read by name. -/
def State.pend? (s : State) (n : Nat) : Option PendingRead := List.find? (fun p => p.name == n) s.rsv.pending

/-- Change a pending read. -/
def State.modPend (s : State) (n : Nat) (f : PendingRead → PendingRead) : State :=
  s.onRsv fun r => { r with pending := r.pending.map fun p => if p.name = n then f p else p }

/-- Change a block of a pending read. -/
def PendingRead.modBlock (p : PendingRead) (pos : Nat) (f : PendBlock → PendBlock) : PendingRead :=
  { p with blocks := p.blocks.map fun y => if y.pos = pos then f y else y }

/-- Volume LBA of a position of a pending read's line. -/
def PendingRead.lba (p : PendingRead) (pos : Nat) : Nat := p.line * 64 + pos

/-- The place of a position of a pending read. -/
def State.pendPlace (s : State) (p : PendingRead) (pos : Nat) : Place :=
  s.place (s.entryOf p.volume (p.lba pos)) p.ext (p.lba pos % 1048576)

/-- The member block of a place. -/
def State.mblock (s : State) (p : Place) : MBlock :=
  { group := p.group, stripe := p.stripe, member := s.placeMember p, row := s.placeRow p }

/-- The member block of a position of a pending read. -/
def State.pendMb (s : State) (p : PendingRead) (pos : Nat) : MBlock := s.mblock (s.pendPlace p pos)

/-- Member blocks that drive commands of a pending read are still to bring. -/
def State.pendOut (s : State) (name : Nat) : List MBlock :=
  s.drv.cmds.flatMap fun c => match c.use with
    | .read n first _ => if n = name then (List.range c.count).map fun i => { first with row := first.row + i } else []
    | _ => []

/-- A block's own read serves it: it is in service, not lost, not found unreadable and not read around (R371, R424). -/
def State.direct (s : State) (p : PendingRead) (pos : Nat) : Bool :=
  let b := s.pendMb p pos
  s.memberIn b.group b.member b.stripe && !s.lostAt b.group b.stripe b.member b.row && !p.bad.contains b &&
    !p.around.contains pos

/-- The member blocks a block needs: its own, or the other members of its row (R373, R381). -/
def State.blockNeeds (s : State) (p : PendingRead) (pos : Nat) : List MBlock :=
  let b := s.pendMb p pos
  if s.direct p pos then [b]
  else if s.disputed b.group b.stripe || s.lostAt b.group b.stripe b.member b.row then []
  else
    (((List.range (grpMembers (s.grp b.group))).filter fun m =>
      m != b.member && s.memberIn b.group m b.stripe && !s.lostAt b.group b.stripe m b.row).map fun m =>
        { b with member := m }).filter fun x => !p.bad.contains x

/-- The member blocks a pending read has yet to ask for. -/
def State.pendNeeds (s : State) (p : PendingRead) : List MBlock :=
  let out := s.pendOut p.name
  ((p.blocks.filter fun y => y.verdict.isNone).flatMap fun y => s.blockNeeds p y.pos).foldl
    (fun l b => if p.got.contains b || out.contains b || l.contains b then l else l ++ [b]) []

/-- Length of the run of rows from a block on. -/
def runLength (l : List MBlock) (b : MBlock) : Nat → Nat
  | 0 => 0
  | n + 1 => if l.contains b then 1 + runLength l { b with row := b.row + 1 } n else 0

/-- One drive read per member touched (R31): runs of rows of one member and stripe. -/
def runsIn (l : List MBlock) : List (MBlock × Nat) :=
  (l.filter fun b => b.row = 0 || !l.contains { b with row := b.row - 1 }).map fun b => (b, runLength l b l.length)

/-- Positions of a pending read that a run of rows of a member holds. -/
def State.runPositions (s : State) (p : PendingRead) (b : MBlock) (n : Nat) : List Nat :=
  (p.blocks.map (·.pos)).filter fun q =>
    let x := s.pendMb p q
    x.group == b.group && x.stripe == b.stripe && x.member == b.member && decide (b.row ≤ x.row) && decide (x.row < b.row + n)

/-- Runs of rising numbers. -/
def natRuns : List Nat → List (Nat × Nat)
  | [] => []
  | n :: t => match natRuns t with
    | (a, k) :: r => if a = n + 1 then (n, k + 1) :: r else (n, 1) :: (a, k) :: r
    | [] => [(n, 1)]

/-- Plaintext of a direct block as the drive agent's XTS pipe gives it (R469); none once the key is gone. -/
def State.plainOf (s : State) (p : PendingRead) (pos : Nat) : Option (List Byte) :=
  let b := s.pendMb p pos
  let e := s.grp b.group
  (s.volKey p.volume).map fun k => openData k (p.lba pos) (s.media (bayOf e b.member) (memberLba e b.stripe b.row)).1

/-- A drive agent has no pipe left: it reads in bypass, and a stripe engine decrypts (Table 11-2). -/
def State.bypasses (s : State) (bay : Nat) : Bool := [0, 1].all fun k => s.attic.pipes.contains (32 + 2 * bay + k)

/-- The agent that decrypts what a bay's drive agent reads: its own, or a stripe engine of the reconstructing-read chain
(Table 11-2). None where no engine of that chain has a pipe either. -/
def State.decryptor (s : State) (bay : Nat) : Option Nat :=
  if !s.bypasses bay then some (8 + bay) else if s.namedEngines 3 = [] then none else some (32 + s.pickEngine 3)

/-- Bay that holds the member of a position of a pending read. -/
def State.pendBay (s : State) (p : PendingRead) (pos : Nat) : Nat :=
  s.bayOfMember (s.pendMb p pos).group (s.pendMb p pos).member

/-- Send the data of directly read blocks into the buffer through the Hoist (R22): one flow per run of positions, of the drive
agent, or of the stripe engine that its cells cross to where it has no pipe (Table 11-2). -/
def State.landRun (s : State) (p : PendingRead) (pos n : Nat) : State :=
  let data := (List.range n).flatMap fun i => (s.plainOf p (pos + i)).getD zeroBlock
  let bay := s.pendBay p pos
  let agent := (s.decryptor bay).getD (8 + bay)
  let s := s.when (s.bypasses bay) fun s => s.each (List.range n) fun s _ => s.blockCrosses (8 + bay) agent
  s.openFlow agent false (.driveIn p.name pos n (p.again.contains pos)) [(p.buffer + pos * 4096, n * 4096)] data false

/-- Issue what a pending read needs; a cut-through read's data begins to land at once (R448). -/
def State.pendIssue (s : State) (name : Nat) : State :=
  match s.pend? name with
  | none => s
  | some p =>
    s.each (runsIn (s.pendNeeds p)) fun s (b, n) =>
      let e := s.grp b.group
      let again := (s.runPositions p b n).any p.again.contains
      let s := s.issue (bayOf e b.member) false (memberLba e b.stripe b.row) n (zeroBlock, 0) (.read name b again)
      let direct := (s.runPositions p b n).filter fun q => s.direct p q && !s.bypasses (s.pendBay p q)
      s.when p.cut fun s => s.each (natRuns direct) fun s (q, k) => s.landRun p q k

/-- Volume LBAs of the blocks that a queued frame of read data carries. -/
def State.frameLbas (s : State) (f : EgFrame) : List Nat :=
  match f.body with
  | .breren _ _ pkt (some k) =>
    match s.tx? k with
    | some m =>
      match m.use with
      | .readData c pos =>
        match s.cmd? c with
        | some (_, x) =>
          let at_ := pos + pkt.index * s.segment m.sa
          let len := packetLen m.length (s.segment m.sa) pkt.index
          (List.range ((at_ + len + 4095) / 4096 - at_ / 4096)).map fun i => x.lba + at_ / 4096 + i
        | none => []
      | _ => []
    | none => []
  | _ => []

/-- A block of a cut-through read has failed (R451): a started frame that carries it is to be stomped, and one not yet
started waits for the reconstructed block. -/
def State.cutFails (s : State) (name lba : Nat) : State :=
  s.each (s.allFrames.filter fun x => x.2.cut == some name && (s.frameLbas x.2).contains lba) fun s (n, f) =>
    if (s.sp n).wire.any fun g => g.name == f.name then s.modFrame f.name fun g => { g with stomp := true }
    else
      let flows := s.hst.flows.filter fun x => decide (x.use = .send f.name)
      (s.each flows fun s x => s.closeFlow x.id).modFrame f.name fun g => { g with waits := true }

/-- Settle a block of a pending read: with another outcome than SUCCESS it fails every frame that carries it (R451). -/
def State.verdict (s : State) (name pos status : Nat) (landed rec : Bool) : State :=
  let s := s.when (decide (status ≠ St.success)) fun s => s.with? (s.pend? name) fun s p => s.cutFails name (p.lba pos)
  s.modPend name fun p => p.modBlock pos fun y =>
    { y with verdict := some status, landed := y.landed || landed, recon := y.recon || rec }

/-- Reconstruct a block of a pending read from its row (R372, R373); it waits where no engine of the chain has a pipe left
(Table 11-2). -/
def State.pendSolve (s : State) (p : PendingRead) (pos : Nat) : State :=
  if s.namedEngines 3 = [] then s else
  let pl := s.pendPlace p pos
  let b := s.mblock pl
  let e := s.grp b.group
  let around := p.around.contains pos
  let bad := (p.bad.filter fun x => x.group == b.group && x.stripe == b.stripe && x.row == b.row).map fun x => (x.member, x.row)
  let first := pl.stripe - pl.block / stripeBlocks e
  let r := s.readRow b.group b.stripe b.row p.ext first (if around then (b.member, b.row) :: bad else bad)
  let (status, stored, rec) := r.outcome (s.disputed b.group b.stripe) (s.groupState b.group == 4)
    (r.reconstruct (s.unpatrolled b.group b.stripe)) (pl.pos / stripBlocks e)
  let own := around && !p.bad.contains b && s.memberIn b.group b.member b.stripe
  if own && decide (status ≠ St.success) then s.modPend p.name fun p => { p with around := p.around.filter fun q => q != pos }
  else
    let s := s.when (!own) fun s => s.readLoss r
    match status, s.volKey p.volume with
    | 0, some k =>
      let n := 32 + s.pickEngine 3
      let s := s.when rec fun s => s.each ((List.range (grpMembers e)).filter fun m => (r.at_ m).block?.isSome) fun s m =>
        s.blockCrosses (8 + bayOf e m) n
      if s.rangeFailed (p.buffer + pos * 4096) 4096 then s.verdict p.name pos St.cellarDataError false false else
      let s := s.cellarWrite n (p.buffer + pos * 4096) (openData k (p.lba pos) stored)
      let s := s.when rec fun s => s.bump A.RBD_RECON_BLOCKS
      let s := s.when (rec && !own) fun s => s.readRepair r (pl.pos / stripBlocks e) stored
      s.verdict p.name pos St.success true rec
    | 0, none => s.verdict p.name pos St.keyUnavailable false false
    | st, _ => s.verdict p.name pos st false false

/-- The data of a block read directly is on its way to the buffer. -/
def State.landing (s : State) (name pos : Nat) : Bool :=
  s.hst.flows.any fun f => match f.use with
    | .driveIn n q k _ => n == name && decide (q ≤ pos) && decide (pos < q + k)
    | _ => false

/-- Settle a block of a pending read as far as what has been read allows (Table 09-2). -/
def State.pendBlock (s : State) (name pos : Nat) : State :=
  match s.pend? name with
  | none => s
  | some p =>
    match p.blocks.find? fun y => y.pos == pos with
    | none => s
    | some y =>
      let b := s.pendMb p pos
      let e := s.grp b.group
      if y.verdict.isSome then s
      else if s.direct p pos || (p.around.contains pos && p.got.contains b) then
        if !p.got.contains b then s
        else
          let x := p.ext
          let first := (s.pendPlace p pos).stripe - (s.pendPlace p pos).block / stripeBlocks e
          let blk := s.media (bayOf e b.member) (memberLba e b.stripe b.row)
          let ex := expectAt e x first b.stripe b.member b.row
          if isMarker ex ((b.stripe * stripBlocks e + b.row) % 2 ^ 32) blk then s.verdict name pos St.lostRange false false
          else if (s.volKey p.volume).isNone then s.verdict name pos St.keyUnavailable false false
          else if (s.decryptor (s.pendBay p pos)).isNone then s
          else (s.when (!p.cut || s.bypasses (s.pendBay p pos)) fun s => s.landRun p pos 1).verdict name pos St.success false false
      else if s.disputed b.group b.stripe then
        if p.around.contains pos then s.modPend name fun p => { p with around := p.around.filter fun q => q != pos }
        else s.verdict name pos St.disputed false false
      else if s.lostAt b.group b.stripe b.member b.row then s.verdict name pos St.lostRange false false
      else if s.landing name pos || (s.blockNeeds p pos).any fun x => !p.got.contains x then s
      else s.pendSolve p pos

/-- Carry a pending read on: ask for what it needs, settle what it can (R372, R424). -/
def State.pendStep (s : State) (name : Nat) : State :=
  match s.pend? name with
  | none => s
  | some p => ((s.pendIssue name).each (p.blocks.map (·.pos)) fun s q => s.pendBlock name q).pendIssue name

/-- Carry a pending read on until a dropped steering has been asked for again. -/
def State.pendEval (s : State) (name : Nat) : State := (s.pendStep name).pendStep name

/-- Frames of a cut-through read that waited for a reconstructed block are read out of the Cellar again (R451). -/
def State.cutAgain (s : State) (name : Nat) : State :=
  let idle := fun (f : EgFrame) => !(s.hst.flows.any fun x => decide (x.use = .send f.name))
  s.each (s.allFrames.filter fun x => x.2.cut == some name && x.2.waits && idle x.2) fun s (n, f) =>
    match f.body with
    | .breren _ _ pkt (some k) =>
      let runs := (s.tx? k).bind fun m => (m.packets.find? fun p => p.index == pkt.index).map (·.runs)
      s.openFlow (n / 4) true (.send f.name) (runs.getD []) [] false
    | _ => s

/-- A drive read of a pending read has ended (Table 14-6): its blocks pass their trailer check or are unreadable (R295,
R371). -/
def State.readArrived (s : State) (name : Nat) (first : MBlock) (count : Nat) (failed : Bool) : State :=
  match s.pend? name with
  | none => s
  | some p =>
    let e := s.grp first.group
    let s := s.each (List.range count) fun s i =>
      let b := { first with row := first.row + i }
      let blk := s.media (bayOf e b.member) (memberLba e b.stripe b.row)
      let base := s.extBase p.ext b.group b.stripe
      let x := expectAt e p.ext base b.stripe b.member b.row
      let ok := trailerOk x blk || isMarker x ((b.stripe * stripBlocks e + b.row) % 2 ^ 32) blk
      if failed then (s.countError b.group b.member).modPend name fun p => { p with bad := p.bad ++ [b] }
      else if ok then s.modPend name fun p => { p with got := p.got ++ [b] }
      else ((s.countTrailer x blk).countError b.group b.member).modPend name fun p => { p with bad := p.bad ++ [b] }
    let failing := fun (p : PendingRead) => if p.cut then (s.runPositions p first count).filter fun q => p.bad.contains (s.pendMb p q) else []
    let s := s.with? (s.pend? name) fun s p => s.each (failing p) fun s q => s.cutFails name (p.lba q)
    s.pendEval name

/-- Directly read blocks have landed in the buffer (R439). -/
def State.pendLanded (s : State) (name pos n : Nat) : State :=
  s.each (List.range n) fun s i => s.modPend name fun p => p.modBlock (pos + i) fun y => { y with landed := true }

/-- Cells of a drive read could not be written: the read is issued once more, then the block is unreadable (Table 03-4). -/
def State.pendLandFail (s : State) (name pos n : Nat) (again : Bool) : State :=
  match s.pend? name with
  | none => s
  | some p =>
    let s := s.each (List.range n) fun s i =>
      let b := s.pendMb p (pos + i)
      s.modPend name fun p => { p.modBlock (pos + i) fun y => { y with verdict := none, landed := again } with
        got := p.got.filter fun x => x != b
        bad := if again then p.bad ++ [b] else p.bad
        again := if again then p.again else p.again ++ [pos + i] }
    s.pendEval name

/-- Reads of a member that has left service are carried on by reconstruction (R368); what was outstanding on it ends. -/
def State.reissueReads (s : State) (g m : Nat) : State :=
  let mine := fun (c : DriveCmd) => match c.use with
    | .read _ first _ => first.group == g && first.member == m
    | _ => false
  let s := s.onDrv fun d => { d with cmds := d.cmds.filter fun c => !mine c }
  let drop := fun (p : PendingRead) => { p with got := p.got.filter fun b => !(b.group == g && b.member == m) }
  let s := s.onRsv fun r => { r with pending := r.pending.map drop }
  s.each (s.rsv.pending.map (·.name)) fun s n => s.pendEval n

/-! ### Serving the waiters (R437 to R439) -/

/-- Every block of a pending read has its outcome and its data. -/
def PendingRead.done (p : PendingRead) : Bool :=
  p.blocks.all fun y => match y.verdict with
    | some st => decide (st ≠ St.success) || y.landed
    | none => false

/-- A command may take its blocks by cut-through (R448), on a port that is not in preemptable-only mode. -/
def State.mayCut (s : State) (x : Slot) : Bool :=
  (getPart x.cap Cap.flags).testBit 3 && s.volAttr x.volume 0 && s.is F.RSV_CTRL_CUT_EN && s.cutPresent

/-- A waiter takes its blocks out of a pending read (R439), those that satisfy a test: its egress request begins here. -/
def State.serveWaiter (s : State) (p : PendingRead) (c : Nat) (there : PendBlock → Bool) : State :=
  match s.cmd? c with
  | none => s
  | some (_, x) =>
    let mine := p.blocks.filter fun y => x.unready.contains (p.lba y.pos - x.lba) && decide (x.lba ≤ p.lba y.pos) && there y
    let buffer := if p.fill.isNone then some p.buffer else none
    let held := s.rsv.dests.any fun d => d.cmd == some c && d.line == p.fill && d.buffer == buffer
    if mine = [] then s
    else
      let s := s.when (!held) fun s => s.addDest c p.fill buffer
      let s := s.each mine fun s y =>
        s.giveBlock c (p.lba y.pos - x.lba) (p.buffer + y.pos * 4096) (y.verdict.getD St.success)
      let bits := (if p.opener = c then 0 else 2) + (if mine.any (·.recon) then 4 else 0)
      (s.service c bits).readSettle c

/-- A waiter served by cut-through learns the outcomes that came late (R450, R452): a block that could not be had is sent as
zero bytes and settles the command's status. -/
def State.lateOutcome (s : State) (p : PendingRead) (c : Nat) : State :=
  match s.cmd? c with
  | none => s
  | some (_, x) =>
    let mine := p.blocks.filter fun y => decide (x.lba ≤ p.lba y.pos) &&
      Tab.find? (p.lba y.pos - x.lba) x.blocks == some (p.buffer + y.pos * 4096)
    let failing := mine.filter fun y => y.verdict.any fun st => decide (st ≠ St.success)
    let s := s.each failing fun s y => s.modCmd c fun x =>
      { x with fails := Tab.set (p.lba y.pos - x.lba) (y.verdict.getD St.success) x.fails }
    let s := if failing = [] then s
      else s.modCmd c fun x => if x.alive then { x with status := (x.fails.headD (0, x.status)).2 } else x
    s.when (mine.any (·.recon)) fun s => s.service c 4

/-- A pending read's data is ready: it closes, and its waiters are served in join order (R36, R438, R439). A cut-through
read serves the commands that may cut with each block that is in the Cellar, before its verdict (R448). -/
def State.pendReady (s : State) (name : Nat) : State :=
  match s.pend? name with
  | none => s
  | some p =>
    if p.done then
      let s := if p.cut then
          let failing := p.blocks.filter fun y => y.verdict.any fun st => decide (st ≠ St.success)
          let s := s.each failing fun s y => s.cellarPut (p.buffer + y.pos * 4096) zeroBlock
          (s.each p.waiters fun s c => s.lateOutcome p c).cutAgain name
        else s
      let s := s.each p.waiters fun s c => s.serveWaiter p c fun _ => true
      if p.fill.isSome then s.modPend name fun p => { p with isOpen := false, waiters := [] }
      else s.onRsv fun r => { r with pending := r.pending.filter fun q => q.name != name }
    else if p.cut && p.blocks.any (·.landed) then
      let may := fun (c : Nat) => match s.cmd? c with | some (_, x) => s.mayCut x | none => false
      (s.each (p.waiters.filter may) fun s c => s.serveWaiter p c (·.landed)).modPend name fun p => { p with isOpen := false }
    else s

/-- A fill ends (R433): its line becomes VALID, or its slot FREE. -/
def State.fillDone (s : State) (name : Nat) : State :=
  match s.pend? name with
  | none => s
  | some p =>
    match p.fill with
    | none => s
    | some i =>
      if p.done && p.waiters.isEmpty then
        let s := s.onRsv fun r => { r with pending := r.pending.filter fun q => q.name != name }
        if p.blocks.any fun y => y.verdict != some St.success then
          (s.lineState i 0).flag F.RSV_STATUS_FILL_FAILED
        else if p.stale then s.lineFree i
        else s.lineState i 2
      else s

/-- An intent that enters READY closes the pending reads that cover a block it writes (R419). -/
def State.closeReads (s : State) (v lba : Nat) : State :=
  s.onRsv fun r => { r with pending := r.pending.map fun p =>
    if p.volume = v ∧ p.line = lba / 64 ∧ p.blocks.any (fun y => y.pos == lba % 64) then { p with isOpen := false } else p }

/-! ### Sources (R417, Table 10-1) -/

/-- The block slot of a live READY or DESTAGING intent that writes a place, if any (Table 10-1). -/
def State.dirtySlot (s : State) (p : Place) : Option Nat :=
  match s.str.live.find? fun w =>
      w.group == p.group && w.stripe == p.stripe && decide (w.owner ≠ .resolve) && decide (2 ≤ s.writeState w) && decide (w.first ≤ p.pos) &&
        decide (p.pos < w.first + w.count) with
  | some w =>
    (w.intent.bind fun i => Tab.find? i s.str.buffers).map fun (a, _) => a + (if w.mode = 2 then p.pos - w.first else p.pos)
  | none => none

/-- Ghost counter of a line (R429). -/
def ghostIndex (v line : Nat) : Nat := (crc32c (leBytes 8 (v + line * 4096))).toNat % 32768

/-- A command took no block of a line out of the Larder: its ghost counter (R429). -/
def State.ghostUp (s : State) (v line : Nat) : State :=
  let g := ghostIndex v line
  s.onRsv fun r => { r with ghost := Tab.put 0 g (min 255 (Tab.getD g 0 r.ghost + 1)) r.ghost }

/-- A command is served from a line: its hotness (R429). -/
def State.hotUp (s : State) (i : Nat) : State :=
  let e := s.dirEnt i
  s.setDir i (putPart e Dir.hot (min 255 (getPart e Dir.hot + 1)))

/-- The victim of a fill (R432). -/
def State.victim (s : State) (v line ghost : Nat) : Option Nat :=
  let slots := s.lineSlots v line
  let idle := fun i => !s.hst.withdrawn.contains (s.lineAddr i / 2 ^ 26) && !(s.rsv.dests.any fun d => d.line == some i) && getPart (s.dirEnt i) Dir.pins == 0 && !s.filling i
  match slots.find? fun i => dirState (s.dirEnt i) == 0 && idle i with
  | some i => some i
  | none =>
    match slots.find? fun i => dirState (s.dirEnt i) == 3 && idle i with
    | some i => some i
    | none =>
      let best := slots.foldl (fun (a : Option (Nat × Nat)) i =>
        let h := getPart (s.dirEnt i) Dir.hot
        if dirState (s.dirEnt i) = 2 ∧ idle i then
          match a with
          | some (_, k) => if h < k then some (i, h) else a
          | none => some (i, h)
        else a) none
      match best with
      | some (i, h) => if h < ghost then some i else none
      | none => none

/-- A live READY or DESTAGING intent writes a block of a line, a loss marker among them (R387, R419). -/
def State.lineDirty (s : State) (v line : Nat) : Bool :=
  s.str.live.any fun w => w.volume == v && decide (2 ≤ s.writeState w) && w.places.any fun (m, k) =>
    (s.writtenLba w m k).any fun a => a / 64 == line

/-- The slot of a fill that a new drive read becomes, if it becomes one (R431). -/
def State.fillSlot (s : State) (v line : Nat) : Option Nat :=
  let g := Tab.getD (ghostIndex v line) 0 s.rsv.ghost
  if s.larderAdmit ≤ g ∧ !s.volAttr v 3 ∧ !s.lineDirty v line ∧
      (s.rsv.pending.filter fun p => p.fill.isSome).length < 64 then s.victim v line g
  else none

/-- Positions of a line that a new drive read reads around (R424). -/
def State.steer (s : State) (p : PendingRead) : List Nat :=
  if s.is F.RSV_CTRL_STEER_EN then
    (p.blocks.map (·.pos)).filter fun q =>
      let b := s.pendMb p q
      s.slowMember b.group b.stripe b.row == some b.member && s.mayAvoid b.group b.stripe b.row b.member
  else []

/-- Rows among some positions. -/
def State.rowsOf (s : State) (p : PendingRead) (qs : List Nat) : Nat :=
  (qs.foldl (fun (l : List (Nat × Nat × Nat)) q =>
    let b := s.pendMb p q
    if l.contains (b.group, b.stripe, b.row) then l else (b.group, b.stripe, b.row) :: l) []).length

/-- Register a new drive read for a command's blocks of a line, or make it a fill (R431, R437); none while no buffer is
free. -/
def State.newRead (s : State) (c : Nat) (x : Slot) (line : Nat) (qs : List Nat) : Option State :=
  let v := x.volume
  let ext := x.xlate.getD (line / 16384 - x.lba / 1048576) 0
  let fill := s.fillSlot v line
  let buffer := match fill with | some i => some (s.lineAddr i) | none => s.freeBuffer
  buffer.map fun a =>
    let s := match fill with
      | some i =>
        let g := ghostIndex v line
        let hot := Tab.getD g 0 s.rsv.ghost
        let s := s.when (dirState (s.dirEnt i) == 2) fun s => s.bump A.RSV_EVICTIONS
        let s := s.onRsv fun r => { r with ghost := Tab.put 0 g 0 r.ghost }
        let e := putPart (putPart (putPart 0 Dir.line line) Dir.volState (v + 4096)) Dir.hot hot
        ((s.setDir i e).lineState i 1).bump A.RSV_FILLS
      | none => s
    let poss := if fill.isSome then List.range 64 else qs
    let blocks := poss.map fun q => { pos := q, landed := false, verdict := none, recon := false : PendBlock }
    let p : PendingRead :=
      { name := s.rsv.nextName, volume := v, line := line, blocks := blocks, registered := s.now
        window := s.coalesceWindow * 1000, waiters := [c], isOpen := true, fill := fill, stale := false, buffer := a
        ext := ext, around := [], got := [], bad := [], again := [], opener := c, hedged := [], cut := s.mayCut x }
    let around := s.steer p
    let s := s.onRsv fun r => { r with pending := r.pending ++ [{ p with around := around }], nextName := r.nextName + 1 }
    let s := (s.bump A.RSV_DRIVE_BLOCKS blocks.length).bump A.RSV_STEERED_ROWS (s.rowsOf p around)
    s.pendEval p.name

/-- The pending read a command in a slot may join for a line: the one registered most recently (R437). -/
def State.joinable (s : State) (k : Nat) (x : Slot) (line : Nat) (qs : List Nat) : Option PendingRead :=
  if (getPart x.cap Cap.flags).testBit 2 ∧ (s.ep (queueOf k / 64)).coalesce then
    s.rsv.pending.reverse.find? fun p =>
      p.isOpen && p.volume == x.volume && p.line == line && decide (0 < p.window) && decide (s.now ≤ p.registered + p.window) &&
        decide (p.waiters.length < 1024) && qs.all fun q => p.blocks.any fun y => y.pos == q
  else none

/-- A command joins a pending read (R437). Where it may take its blocks by cut-through and the read's blocks did not yet land before
their verdicts, those read directly do from now on (R448). -/
def State.joinRead (s : State) (c : Nat) (x : Slot) (p : PendingRead) : State :=
  let s := s.modPend p.name fun p => { p with waiters := p.waiters ++ [c] }
  if s.mayCut x ∧ !p.cut then
    let out := s.pendOut p.name
    let due := (p.blocks.filter fun y => y.verdict.isNone && !y.landed).map (·.pos)
    let due := due.filter fun q => s.direct p q && out.contains (s.pendMb p q) && !s.bypasses (s.pendBay p q)
    (s.modPend p.name fun p => { p with cut := true }).each (natRuns due) fun s (q, n) => s.landRun p q n
  else s

/-- Serve dirty-store blocks of a line into a read buffer (R418); a block that cannot be read or fails its check has the
outcome UNRECOVERED_READ (DEDUCED, assumption 23). -/
def State.serveDirty (s : State) (c : Nat) (x : Slot) (line : Nat) (ds : List (Nat × Nat)) : Option State :=
  if ds = [] then some s
  else if s.namedEngines 3 = [] then none
  else
    match s.freeBuffer with
    | none => none
    | some a =>
      let s := (s.addDest c none (some a)).bump A.RSV_DIRTY_BLOCKS ds.length
      some <| s.each ds fun s (q, slot) =>
        let lba := line * 64 + q
        let pl := s.slotPlace x lba
        let e := s.grp pl.group
        let b := s.slotBlock slot
        let want : Expect := { kind := Kind.data, vol := x.volume, ref := lba % 2 ^ 32 }
        let ok := !s.slotPoison slot && trailerOk want b && decide (0 < grpMembers e)
        match ok, s.volKey x.volume with
        | true, some k =>
          let n := 32 + s.pickEngine 3
          let st := if s.rangeFailed (a + q * 4096) 4096 then St.cellarDataError else St.success
          ((s.cellsTaken n 17).cellarWrite n (a + q * 4096) (openData k lba b.1)).giveBlock c (lba - x.lba) (a + q * 4096) st
        | true, none => s.giveBlock c (lba - x.lba) (a + q * 4096) St.keyUnavailable
        | false, _ => s.giveBlock c (lba - x.lba) (a + q * 4096) St.unrecoveredRead

/-- Give the blocks of one line of a READ their sources (Table 10-1); none while no buffer is free. -/
def State.readLine (s : State) (c : Nat) (x : Slot) (line : Nat) : Option State :=
  let lbas := (List.range 64).filter fun q =>
    decide (x.lba ≤ line * 64 + q) && decide (line * 64 + q < x.lba + x.blockCount)
  let dirty := lbas.filterMap fun q => (s.dirtySlot (s.slotPlace x (line * 64 + q))).map fun a => (q, a)
  let rest := lbas.filter fun q => !dirty.any fun d => d.1 == q
  (s.serveDirty c x line dirty).bind fun s =>
    let hit := if s.volAttr x.volume 3 then none else s.findLine x.volume line 2
    let cold := fun (s : State) => s.ghostUp x.volume line
    if rest = [] then some (s.when hit.isNone cold)
    else
      match hit with
      | some i =>
        let s := ((s.addDest c (some i) none).hotUp i).bump A.RSV_LARDER_BLOCKS rest.length
        let s := s.each rest fun s q => s.giveBlock c (line * 64 + q - x.lba) (s.lineAddr i + q * 4096) St.success
        some (s.service c 1)
      | none =>
        match (s.cmd? c).bind fun y => s.joinable y.1 x line lbas with
        | some p =>
          let s := (s.joinRead c x p).bump A.RSV_JOINED_BLOCKS rest.length
          some (match p.fill with | some i => s.hotUp i | none => cold s)
        | none => (cold s).newRead c x line rest

/-- Lines still to be served, in order, as far as buffers are free. -/
def State.readLines (s : State) (c : Nat) : List Nat → State
  | [] => s
  | l :: t =>
    match s.cmd? c with
    | none => s
    | some (_, x) =>
      match s.readLine c x l with
      | some s => State.readLines (s.modCmd c fun x => { x with lines := t }) c t
      | none => s

/-- Blocks of an extent that a moving-boundary step holds: commands that would translate one wait (R410). -/
def State.stepHolds (s : State) (x : Slot) : Bool :=
  match s.rbd.reshape with
  | none => false
  | some r =>
    let c := stripeBlocks (s.grp r.dstGroup)
    r.mode == 2 && decide (r.step ≠ .idle) && (List.range x.blockCount).any fun k =>
      s.entryOf x.volume (x.lba + k) == r.entry && decide (r.copied ≤ (x.lba + k) % 1048576) &&
        decide ((x.lba + k) % 1048576 < r.copied + c)

/-- The PLACE messages of a READ's data: 1 MiB each, in order (R201). -/
def State.startData (s : State) (c : Nat) : State :=
  match s.cmd? c with
  | none => s
  | some (_, x) =>
    let len := x.blockCount * 4096
    let token := dataToken x.cap
    s.each (List.range ((len + 1048575) / 1048576)) fun s i =>
      let pos := i * 1048576
      s.startMsg x.sa (msgOf .place (min 1048576 (len - pos)) (getPart token Token.key) (getPart token Token.base + pos)
        (.readData c pos) .blocks)

/-- A READ executes (R417), or is carried on where lines wait for a buffer or are read again (Table 03-4). -/
def State.readStart (s : State) (c : Nat) : State :=
  match s.cmd? c with
  | none => s
  | some (_, x) =>
    if x.opcode = 1 ∧ !x.stopped then
      if !x.started then
        if x.state ≠ .executing ∨ x.wait ≠ .running ∨ s.stepHolds x then s
        else
          let s := (s.translate c).startData c
          let first := x.lba / 64
          let lines := (List.range ((x.lba + x.blockCount + 63) / 64 - first)).map fun k => first + k
          let s := s.modCmd c fun x => { x with unready := List.range x.blockCount, lines := lines }
          (s.readLines c lines).readSettle c
      else (s.readLines c x.lines).readSettle c
    else s

end Sys2Proof.Machine
end

