-- ==== Sys2Proof/Machine/Stripe.lean ====
section
/-!
DEFINITION. Stripe writes (08_stripe_writes_and_attic.md): cutting a range, admission, the buffer with P and Q, the
completion conditions, destage and retirement.
-/

namespace Sys2Proof.Machine

/-! ### Cutting a range (R312, R313, R407) -/

/-- Data positions of a stripe that are not pad blocks (R283). -/
def validData (e : BitVec 512) (first stripe : Nat) : Nat := min (stripeBlocks e) (1048576 - (stripe - first) * stripeBlocks e)

/-- A stripe write with nothing admitted yet. -/
def stripeWrite (owner : StripeFor) (group stripe volume lba0 first count valid mode pos : Nat) (fua : Bool)
    (queue : Option Nat) : StripeWrite where
  name := 0
  owner := owner
  queue := queue
  group := group
  stripe := stripe
  volume := volume
  lba0 := lba0
  first := first
  count := count
  valid := valid
  mode := mode
  fua := fua
  pos := pos
  engine := 0
  intent := none
  places := []
  left := []
  retried := []
  mirrorWait := false
  mirrored := false
  counted := false

/-- Cut blocks of a volume into stripe writes at one location of its extents: n blocks from a volume LBA on, whose place is
given by `at_`; `k` bounds the stripes. -/
def State.cut (s : State) (owner : StripeFor) (v base : Nat) (fua : Bool) (queue : Option Nat) (at_ : Nat → Place) :
    Nat → Nat → Nat → List StripeWrite
  | 0, _, _ => []
  | k + 1, lba, n =>
    if n = 0 then []
    else
      let p := at_ lba
      let e := s.grp p.group
      let per := stripeBlocks e
      let same := (List.range (min n (min (per - p.pos) (1048576 - p.block)))).takeWhile fun i =>
        (at_ (lba + i)).group == p.group && (at_ (lba + i)).stripe == p.stripe
      let c := max 1 same.length
      let valid := validData e (p.stripe - p.block / per) p.stripe
      let mode := if p.pos = 0 ∧ valid ≤ c then 1 else 2
      stripeWrite owner p.group p.stripe v (lba - p.pos) p.pos c valid mode (lba - base) fua queue ::
        State.cut s owner v base fua queue at_ k (lba + c) (n - c)

/-- The extent is being built beside: every write goes to both locations (R407). -/
def State.beside (s : State) (i : Nat) : Bool :=
  match s.rbd.reshape with
  | some r => r.entry == i && r.mode == 1 && getPart (s.ext i) Ext.state == Exts.moving
  | none => false

/-- The stripe writes of a WRITE or ZERO (R312, R407). -/
def State.cutCommand (s : State) (c k : Nat) (x : Slot) : List StripeWrite :=
  let own := StripeFor.command c
  let q := some (queueOf k)
  let one := s.cut own x.volume x.lba x.fua q (s.slotPlace x) x.blockCount x.lba x.blockCount
  let second := (List.range x.xlate.length).flatMap fun j =>
    let from_ := max x.lba ((x.lba / 1048576 + j) * 1048576)
    let upto := min (x.lba + x.blockCount) ((x.lba / 1048576 + j + 1) * 1048576)
    let i := s.entryOf x.volume from_
    if s.beside i then
      s.cut own x.volume x.lba x.fua q (fun a => s.placeAt i (x.xlate.getD j 0) true (a % 1048576)) (upto - from_) from_ (upto - from_)
    else []
  one ++ second

/-- Put stripe writes behind those that wait, under new names (R330): the names given. -/
def State.queueWrites (s : State) (ws : List StripeWrite) : List Nat × State :=
  let n := s.str.nextName
  let named := (List.range ws.length).zipWith (fun i (w : StripeWrite) => { w with name := n + i }) ws
  (named.map (·.name), s.onStr fun x => { x with waiting := x.waiting ++ named, nextName := n + ws.length })

/-! ### The data of a write (R26, R199, R208) -/

/-- Bytes of write staging that a command's FETCHes fill: a pulled WRITE's data, or a firmware segment (R208, R623). -/
def Slot.stagingBytes (x : Slot) : Nat := if x.opcode = 0x45 then getPart (dataToken x.cap) Token.length else x.blockCount * 4096

/-- Write staging in use: address and bytes. -/
def State.stagingHeld (s : State) : List (Nat × Nat) :=
  s.cq.slots.filterMap fun (_, x) => x.staging.map fun a => (a, x.stagingBytes)

/-- The lowest free run of write staging (DESIGN CHOICE, assumption 22). -/
def State.findStaging (s : State) (n : Nat) : Option Nat :=
  let base := s.regionBase 2
  let held := s.stagingHeld
  let starts := held.foldl (fun l (a, k) => insertNat (a + k) l) [base]
  starts.find? fun a => held.all (fun (b, k) => decide (a + n ≤ b) || decide (b + k ≤ a)) &&
    decide (base ≤ a) && decide (a + n ≤ base + s.regionSize 2)

/-- A WRITE is pushed (R230). -/
def Slot.pushed (x : Slot) : Bool := (getPart x.cap Cap.flags).testBit 4

/-- Cellar address of a WRITE's data: in its landing window, or in write staging (R199, R208). -/
def State.dataAddr (s : State) (x : Slot) : Option Nat :=
  if x.pushed then
    let t := dataToken x.cap
    some (getPart (s.keyEnt (getPart t Token.key / 65536)) Key.base + getPart t Token.base)
  else x.staging

/-- A WRITE's FETCHes not yet issued go out, at most 4 outstanding (R29, R208). -/
def State.fetchMore (s : State) (c : Nat) : Nat → State
  | 0 => s
  | k + 1 =>
    match s.cmd? c with
    | none => s
    | some (_, x) =>
      let total := x.blockCount * 4096
      let waiting := s.trn.held.filter fun h => match h.msg.use with | .fetch d => d == c | _ => false
      if x.opcode = 2 ∧ !x.pushed ∧ !x.stopped ∧ x.staging.isSome ∧ x.wait = .running ∧ x.fetchNext < total ∧
          x.fetches.length + waiting.length < 4 then
        let n := min 1048576 (total - x.fetchNext)
        let t := dataToken x.cap
        let m := msgOf .fetch n (getPart t Token.key) (getPart t Token.base + x.fetchNext) (.fetch c) .none
        let s := s.modCmd c fun x => { x with fetchNext := x.fetchNext + n }
        State.fetchMore (s.startMsg x.sa m) c k
      else s

/-- A WRITE's data is all in the Cellar (R208). -/
def State.dataThere (s : State) (c : Nat) (x : Slot) : Bool :=
  x.opcode != 2 || x.pushed ||
    (decide (x.blockCount * 4096 ≤ x.fetchNext) && decide (x.fetches = []) &&
      !s.trn.held.any fun h => match h.msg.use with | .fetch d => d == c | _ => false)

/-- A WRITE or ZERO executes. A pulled WRITE first takes write staging and begins its FETCHes, and goes on when every reply has
landed there (R208); then it is translated and cut into stripe writes (R312, R370). -/
def State.writeStart (s : State) (c op : Nat) : State :=
  match s.cmd? c with
  | none => s
  | some (k, x) =>
    if x.opcode = op ∧ x.state = .executing ∧ x.wait = .running ∧ !x.started ∧ !x.stopped then
      if op = 2 ∧ !x.pushed ∧ x.staging.isNone then
        match s.findStaging (x.blockCount * 4096) with
        | none => s
        | some a => (s.modCmd c fun x => { x with staging := some a }).fetchMore c 4
      else if s.stepHolds x ∨ !s.dataThere c x then s
      else
        let s := s.translate c
        match s.cmd? c with
        | none => s
        | some (_, y) =>
          let ws := s.cutCommand c k y
          if ws.any fun w => s.groupState w.group == 4 then s.finish c St.groupFailed
          else
            let (names, s) := s.queueWrites ws
            s.modCmd c fun x => { x with toAdmit := names }
    else s

/-! ### Failing stripe writes (R753) -/

/-- Drop a stripe write's intent and buffer (Table 08-3). -/
def State.freeWrite (s : State) (w : StripeWrite) : State :=
  let s := s.onStr fun x => { x with
    live := x.live.filter fun y => y.name != w.name
    waiting := x.waiting.filter fun y => y.name != w.name
    buffers := match w.intent with | some i => Tab.erase i x.buffers | none => x.buffers }
  match w.intent with
  | some i => s.setIntent i 0
  | none => s

/-- An INIT ends early (R289): its stripe writes not yet READY are freed, those READY destage, and the entry stays INIT. -/
def State.initEnd (s : State) : State :=
  match s.vol.init with
  | none => s
  | some _ =>
    let mine := fun (w : StripeWrite) => decide (w.owner = .init)
    let s := s.each ((s.str.waiting ++ s.str.live.filter s.isFilling).filter mine) fun s w => s.freeWrite w
    (s.onVol fun v => { v with init := none }).volRefuse 1

/-- The reshape is held (R413); what it waits for under R288 stands. -/
def State.reshapeHold (s : State) : State :=
  match s.rbd.reshape with
  | some r => (s.onRbd fun b => { b with reshape := some { r with state := .held, step := .idle, stopping := false } }).flag F.RBD_STATUS_RESHAPE_HELD
  | none => s

/-- A stripe write fails: its command completes with its status, the command's other stripe writes acting as for an abort
(R753); an INIT ends early (R289) and a reshape is held (R413). -/
def State.failWrite (s : State) (w : StripeWrite) (status : Nat) : State :=
  let s := s.freeWrite w
  match w.owner with
  | .command c => (s.when (decide (status = St.writeFault)) fun s => s.flag F.STR_STATUS_WRITE_FAULT).stripeFails c w.pos status
  | .init => s.initEnd
  | .reshape => s.reshapeHold
  | .resolve => s

/-- A stripe write of a command meets its completion condition (R332, R333): the command is settled by its last. -/
def State.writeMet (s : State) (w : StripeWrite) : State :=
  match w.owner with
  | .command c =>
    let s := s.modCmd c fun x => { x with intents := x.intents.filter fun n => n != w.name }
    match s.cmd? c with
    | some (_, x) => if x.intents = [] ∧ x.toAdmit = [] ∧ x.started then s.finish c St.success else s
    | none => s
  | _ => s

/-- The command of a stripe write has reached its completion point. -/
def State.ownerDone (s : State) (w : StripeWrite) : Bool :=
  match w.owner with
  | .command c => match s.cmd? c with
    | some (_, x) => !x.alive
    | none => true
  | _ => false

/-- A stripe write of a completed command can no longer be made FUA-equivalent: its group was discarded with it (R242), or the
Cellar lost a block of it (R339). -/
def State.neverSafe (s : State) (w : StripeWrite) (discarded : Bool) : State :=
  match w.queue with
  | some k => s.when (s.ownerDone w) fun s => s.modQ k fun q => { q with unsafeWrites := q.unsafeWrites ++ [(w.name, discarded)] }
  | none => s

/-- A FLUSH no longer waits for a stripe write that is FUA-equivalent (R241): its intent has been retired, with every block of it
on its member or supplied by the rebuild. -/
def State.flushMet (s : State) (w : StripeWrite) : State :=
  let never := (w.queue.bind s.queue?).any fun q => q.unsafeWrites.any fun y => y.1 == w.name
  if never then s
  else { s with cq := { s.cq with slots := s.cq.slots.map fun (k, x) => (k, { x with covers := x.covers.filter fun m => m != w.name }) } }

/-- Without FUA a stripe write meets its condition once its buffer and intent stand, and, in a two-controller shelf, once
the peer holds them, unless SOLO_WB lets a SOLO side do without (R332, R643). -/
def State.durable (s : State) (w : StripeWrite) : Bool :=
  !w.fua && decide (2 ≤ s.writeState w) &&
    (!s.twoControllers || w.mirrored || (decide (s.peer.state = .solo) && s.is F.PEER_CTRL_SOLO_WB))

/-- A stripe write completes by R333, when its intent is retired: it carries FUA, or no acknowledgement of the peer for it can
come any more (R643, R647). -/
def State.byRetirement (s : State) (w : StripeWrite) : Bool :=
  w.fua || (s.twoControllers && !w.mirrored && !(w.mirrorWait && s.mirroring))

/-! ### Mirroring a stripe write (R335, R644, R645) -/

/-- Block slots of a buffer in messages of at most 15 slots, from a slot on (Table 17-2). -/
def State.sendBlocks (s : State) (i first n : Nat) : Nat → Nat → State
  | 0, _ => s
  | k + 1, a =>
    if n ≤ a then s
    else
      let c := min 15 (n - a)
      let body := (List.range c).flatMap fun j => let b := s.slotBlock (first + a + j); b.1 ++ toBytes 16 b.2
      let s := (s.peerSend Pm.mirrorBlocks (beBytes 4 i ++ beBytes 4 a ++ body)).bump A.PEER_MIRROR_BLOCKS c
      let s := s.cellsTaken 37 (17 * c)
      State.sendBlocks s i first n k (a + c)

/-- Credit taken for the buffer of a stripe write, and what the peer has been told of it (R645). -/
def State.toldPeer (s : State) (w : StripeWrite) (n : Nat) : State :=
  s.onPeer fun p => { p with credit := p.credit - n, told := Tab.set w.name n p.told }

/-- The credit taken for a stripe write comes back: the peer frees its copy, or takes the transfer anew (R645, R647). -/
def State.creditBack (s : State) (w : StripeWrite) : State :=
  s.onPeer fun p => { p with
    credit := p.credit + Tab.getD w.name 0 p.told
    creditWait := p.creditWait.filter fun m => m != w.name
    told := Tab.erase w.name p.told }

/-- A mirror transfer has failed twice: the intent stays unmirrored, and its stripe write completes by R333 (R647). -/
def State.mirrorLost (s : State) (w : StripeWrite) : State :=
  let s := s.modLive w.name fun w => { w with mirrorWait := false }
  let s := s.onPeer fun p => { p with
    copying := p.copying.filter fun m => m != w.name
    creditWait := p.creditWait.filter fun m => m != w.name }
  (s.bump A.PEER_MIRROR_FAIL).flag F.PEER_STATUS_MIRROR_FAIL

/-- A block slot of a buffer delivers POISON: its transfer fails, and fails again (R647, Table 03-4). -/
def State.bufferPoison (s : State) (first n : Nat) : Bool := (List.range n).any fun j => s.slotPoison (first + j)

/-- Copy a live stripe write to the peer (R335): its intent, and its buffer within credit unless it carries FUA. -/
def State.mirrorWrite (s : State) (w : StripeWrite) : State :=
  match w.intent with
  | none => s
  | some i =>
    let s := ((s.creditBack w).toldPeer w 0).peerSend Pm.mirrorIntent (beBytes 4 i ++ toBytes 32 (s.intent i))
    let s := s.bump A.PEER_MIRROR_INTENTS
    let s := s.modLive w.name fun w => { w with mirrorWait := true }
    match Tab.find? i s.str.buffers with
    | some (first, n) =>
      if w.fua ∨ s.intentState i < 2 then s
      else if s.bufferPoison first n then s.mirrorLost w
      else if n ≤ s.peer.credit then (s.toldPeer w n).sendBlocks i first n n 0
      else (s.onPeer fun p => { p with creditWait := p.creditWait ++ [w.name] }).bump A.PEER_CREDIT_WAITS
    | none => s

/-- Credit has come back: buffers that wait for it go out in order (R645). -/
def State.creditMore (s : State) : List Nat → State
  | [] => s
  | n :: t =>
    match s.live? n with
    | none => State.creditMore (s.onPeer fun p => { p with creditWait := p.creditWait.filter fun m => m != n }) t
    | some w =>
      match w.intent.bind fun i => (Tab.find? i s.str.buffers).map fun x => (i, x) with
      | some (i, (first, k)) =>
        if s.bufferPoison first k then State.creditMore (s.mirrorLost w) t
        else if k ≤ s.peer.credit then
          let s := s.onPeer fun p => { p with creditWait := p.creditWait.filter fun m => m != n }
          State.creditMore ((s.toldPeer w k).sendBlocks i first k k 0) t
        else s
      | none => s

/-- A retired intent that the peer was told of is freed there too, and its slots come back as credit (R335, R645). -/
def State.mirrorRetire (s : State) (w : StripeWrite) : State :=
  match w.intent with
  | none => s
  | some i =>
    if (Tab.find? w.name s.peer.told).isSome then
      let s := (s.peerSend Pm.retire (beBytes 4 i)).creditBack w
      s.creditMore s.peer.creditWait
    else s

/-! ### Retirement (R329, R336, R391) -/

/-- Losses that waited for their stripe's intent, or for a free one, are recorded (R387). -/
def State.waitingLosses (s : State) : State :=
  let mine := fun (x : Nat × Nat × Nat × List Nat) => (s.liveIntent x.1 x.2.1).isNone
  let ls := s.rbd.losses.filter mine
  let s := s.onRbd fun b => { b with losses := b.losses.filter fun x => !mine x }
  s.each ls fun s (g, stripe, k, bad) =>
    match s.extentOf g stripe with
    | some (_, x, first) => s.recordLoss (s.readRow g stripe k x first (bad.map fun m => (m, k))) (fun _ => false) []
    | none => s

/-- Rows of a stripe that a partial write touches, rising. -/
def touchedRows (b first count : Nat) : List Nat :=
  if b ≤ count then List.range b else (List.range count).foldl (fun l i => insertNat ((first + i) % b) l) []

/-- Rising numbers as runs: first and length of each. -/
def runsOf (l : List Nat) : List (Nat × Nat) :=
  l.foldr (fun k t => match t with
    | (a, n) :: r => if k + 1 = a then (k, n + 1) :: r else (k, 1) :: t
    | [] => [(k, 1)]) []

/-- Retire an intent (Table 08-3): buffer and budget returned, the peer told, written rows taken out of the lost ranges
(R391), a dispute cleared by a full-stripe write or a RESOLVE (R400, R401), and what waited for it met. -/
def State.retire (s : State) (w : StripeWrite) : State :=
  let e := s.grp w.group
  let b := stripBlocks e
  let s := (s.mirrorRetire w).freeWrite w
  let clears := match w.owner with | .resolve => 0 | .reshape => 0 | _ => w.count
  let s := s.each (List.range (dataStrips e)) fun s j =>
    let m := dataMember e w.stripe j
    let rs := (List.range b).filter fun k => decide (w.first ≤ j * b + k) && decide (j * b + k < w.first + clears)
    let gone := rs.filter fun k => s.lostAt w.group w.stripe m k
    (s.each (runsOf rs) fun s r => s.clearLost w.group w.stripe m r.1 r.2).each gone fun s k =>
      s.staleBlock w.volume (w.lba0 + j * b + k)
  let s := s.each (if clears = 0 then [] else runsOf (touchedRows b w.first w.count)) fun s r =>
    (s.clearLost w.group w.stripe (pMember e w.stripe) r.1 r.2).clearLost w.group w.stripe (qMember e w.stripe) r.1 r.2
  let whole := w.mode == 1 || decide (w.owner = .init) || decide (w.owner = .resolve)
  let s := s.when whole fun s => s.undispute w.group w.stripe
  let written := fun (r : Reshape) =>
    if r.step = .writing ∧ w.group = r.dstGroup ∧ w.stripe = r.dstFirst + r.copied / stripeBlocks e then { r with step := .written } else r
  let s := s.when (decide (w.owner = .reshape)) fun s => s.onRbd fun b => { b with reshape := b.reshape.map written }
  (((s.writeMet w).flushMet w).waitingLosses).shutdownNext

/-! ### Destage (R336 to R338) -/

/-- Retire a destaging stripe write whose blocks are all written or dropped (R336). -/
def State.retireIfDone (s : State) (n : Nat) : State :=
  match s.live? n with
  | some w => if w.left = [] ∧ s.writeState w = Ins.destaging ∧ s.groupState w.group ≠ 4 then s.retire w else s
  | none => s

/-- Hold an intent of a FAILED group: a FUA write that waits on it completes with WRITE_FAULT (R338), and a FLUSH that
covers it with GROUP_FAILED (R242). -/
def State.holdWrite (s : State) (w : StripeWrite) : State :=
  let s := match w.owner with
    | .command c =>
      match s.cmd? c with
      | some (_, x) =>
        if x.intents.contains w.name ∧ s.byRetirement w then (s.flag F.STR_STATUS_WRITE_FAULT).stripeFails c w.pos St.writeFault
        else s
      | none => s
    | _ => s
  s.each (s.cq.slots.filter fun x => x.2.opcode == 3 && x.2.covers.contains w.name) fun s (_, x) =>
    s.finish x.order St.groupFailed

/-- Begin, or resume, the destage of a READY stripe write (R336, R338): blocks of members that cannot be written are
dropped (R317), the others leave the dirty store for their drive agents. -/
def State.destage (s : State) (n : Nat) : State :=
  match s.live? n with
  | none => s
  | some w =>
    if s.groupState w.group = 4 then s.holdWrite w
    else if s.isFenced then s
    else
      match w.intent.bind fun i => (Tab.find? i s.str.buffers).map fun x => (i, x.1) with
      | none => s
      | some (i, first) =>
        let s := s.setIntent i (putPart (s.intent i) Intent.state Ins.destaging)
        let go := w.left.filter fun (m, _, _) => s.writable w.group m w.stripe
        let busy := fun (m k : Nat) =>
          s.hst.flows.any (fun f => f.use == .destage n m k) || s.drv.cmds.any fun c => c.use == .destage n m k
        let s := s.modLive n fun w => { w with left := go }
        let s := s.each (go.filter fun (m, k, _) => !busy m k) fun s (m, k, j) =>
          s.openFlow (8 + s.bayOfMember w.group m) true (.destage n m k) [(s.slotAddr (first + j), 4112)] [] false
        s.retireIfDone n

/-- A destage block has left the dirty store whole: its member write is issued with FUA (R336). -/
def State.destageIssue (s : State) (n m k : Nat) (b : Block) : State :=
  match s.live? n with
  | some w =>
    if w.left.any (fun (a, c, _) => a == m && c == k) && !s.isFenced then
      let e := s.grp w.group
      s.issue (bayOf e m) true (memberLba e w.stripe k) 1 b (.destage n m k)
    else s
  | none => s

/-- A member write of a stripe write is done, or its block is dropped (R336, R337). -/
def State.destageDone (s : State) (n m k : Nat) (written : Bool) : State :=
  let s := s.when written fun s => s.bump A.STR_DESTAGE_BLOCKS
  (s.modLive n fun w => { w with left := w.left.filter fun (a, c, _) => !(a == m && c == k) }).retireIfDone n

/-- A member has left service: its blocks are dropped from every destaging stripe write of its group (R317, R569). -/
def State.dropMember (s : State) (g m : Nat) : State :=
  let gone := fun (c : DriveCmd) => match c.use with
    | .destage n a _ => a == m && (match s.live? n with | some w => w.group == g | none => false)
    | _ => false
  let flow := fun (f : Flow) => match f.use with
    | .destage n a _ => a == m && (match s.live? n with | some w => w.group == g | none => false)
    | _ => false
  let s := s.each (s.hst.flows.filter flow) fun s f => s.closeFlow f.id
  let s := s.onDrv fun d => { d with cmds := d.cmds.filter fun c => !gone c }
  s.each ((s.str.live.filter fun w => w.group == g && s.writeState w == Ins.destaging).map (·.name)) fun s n =>
    let s := s.modLive n fun w => { w with left := if s.groupState g = 4 then w.left else w.left.filter fun (a, _, _) => a != m }
    s.retireIfDone n

/-- A group has left FAILED: the destage of every held intent resumes at once (R338). -/
def State.resumeGroup (s : State) (g : Nat) : State :=
  s.each ((s.str.live.filter fun w => w.group == g && decide (2 ≤ s.writeState w)).map (·.name)) fun s n => s.destage n

/-! ### Admission (R318, R319, R323, R330, R331) -/

/-- Block slots of a stripe write's buffer (R327): a RESOLVE writes P and Q of every row. -/
def State.bufferSize (s : State) (w : StripeWrite) : Nat :=
  let e := s.grp w.group
  let b := stripBlocks e
  if decide (w.owner = .resolve) then 2 * b
  else if w.mode = 2 then w.count + 2 * (touchedRows b w.first w.count).length
  else grpMembers e * b

/-- The members a stripe write gives blocks to, as MEMBER_MASK (Table 08-2). -/
def State.maskOf (s : State) (w : StripeWrite) : Nat :=
  let e := s.grp w.group
  let b := stripBlocks e
  let pq := [pMember e w.stripe, qMember e w.stripe]
  let ms := if decide (w.owner = .resolve) then pq
    else if w.mode = 2 then ((List.range w.count).map fun i => dataMember e w.stripe ((w.first + i) / b)) ++ pq
    else List.range (grpMembers e)
  (ms.foldl (fun l m => insertNat m l) []).foldl (fun a m => if s.writable w.group m w.stripe then a + 2 ^ m else a) 0

/-- A reshape step's stripes: no other stripe write is admitted to them while it runs (R405). -/
def State.stepSource (s : State) (g stripe : Nat) : Bool :=
  match s.rbd.reshape with
  | none => false
  | some r =>
    let c := stripeBlocks (s.grp r.dstGroup)
    decide (r.step = .writing) && ((g == r.dstGroup && stripe == r.dstFirst + r.copied / c) ||
      (List.range c).any fun k =>
        let p := s.placeAt r.entry (s.ext r.entry) false (r.copied + k)
        decide (r.copied + k < 1048576) && p.group == g && p.stripe == stripe)

/-- A waiting stripe write may be looked at: its stripe has no live intent and no step holds it (R318, R380, R405). -/
def State.stripeFree (s : State) (w : StripeWrite) : Bool :=
  (s.liveIntent w.group w.stripe).isNone && (decide (w.owner = .reshape) || !s.stepSource w.group w.stripe)

/-- The journal controller admits (R330, R657): STR_CTRL.EN, no SHUTDOWN, no replay running, not FENCED. -/
def State.admits (s : State) : Bool :=
  s.is F.STR_CTRL_EN && !s.str.shutdown && !s.str.replayBusy && !s.isFenced && decide (s.namedEngines 1 ≠ [])

/-- A stripe write waits for budget or for an intent: counted once (R330). -/
def State.admitWait (s : State) (w : StripeWrite) (intents : Bool) : State :=
  if w.counted then s
  else
    let s := s.onStr fun x => { x with waiting := x.waiting.map fun y => if y.name = w.name then { y with counted := true } else y }
    if intents then (s.bump A.STR_INTENT_WAITS).flag F.STR_STATUS_INTENTS_FULL
    else (s.bump A.STR_BUDGET_WAITS).flag F.STR_STATUS_BUDGET_FULL

/-- Admit a stripe write (Table 08-3): record in the Attic, budget taken, NEW_GEN assigned; CLEAN clears (R356). -/
def State.admitWrite (s : State) (w : StripeWrite) (i first n : Nat) : State :=
  let (gen, s) := if w.mode = 3 then (1, s) else s.nextGen w.group
  let w := { w with intent := some i, engine := s.pickEngine 1 }
  let rec0 : BitVec 256 := putPart (putPart (putPart (putPart 0 Intent.mode w.mode) Intent.flags (ofBool w.fua)) Intent.group
    w.group) Intent.state Ins.filling
  let rec1 := putPart (putPart (putPart rec0 Intent.stripe w.stripe) Intent.newGen gen) Intent.dataFirst w.first
  let rec2 := putPart (putPart (putPart rec1 Intent.dataCount w.count) Intent.memberMask (s.maskOf w)) Intent.dirtyIndex first
  let s := (s.setIntent i rec2).onAttic fun a => { a with clean := false }
  let s := s.onStr fun x => { x with
    waiting := x.waiting.filter fun y => y.name != w.name
    live := x.live ++ [w]
    buffers := Tab.set i (first, n) x.buffers }
  match w.owner with
  | .command c => s.modCmd c fun x => { x with
      toAdmit := x.toAdmit.filter fun m => m != w.name
      intents := x.intents ++ [w.name] }
  | _ => s

/-- The next stripe of a running INIT joins those that wait, one at a time (R289; DESIGN CHOICE, assumption 20). -/
def State.initFeed (s : State) : State :=
  match s.vol.init with
  | none => s
  | some j =>
    let x := s.ext j.entry
    let g := getPart x Ext.group % 8
    let e := s.grp g
    let first := getPart x Ext.firstStripe
    if j.next < extentStripes e ∧ !s.str.waiting.any (fun w => decide (w.owner = .init)) then
      let v := getPart x Ext.volume % 4096
      let stripe := first + j.next
      let w := stripeWrite .init g stripe v (getPart x Ext.extent * 1048576 + j.next * stripeBlocks e) 0
        (validData e first stripe) (validData e first stripe) 3 0 true none
      (s.queueWrites [w]).2.onVol fun v => { v with init := some { j with next := j.next + 1 } }
    else s

/-- The first waiting stripe write that may be looked at is admitted, fails or waits (R318, R325, R330, R370). -/
def State.admitNext (s : State) : State :=
  if s.admits then
    let s := s.initFeed
    match s.str.waiting.find? s.stripeFree with
    | none => s
    | some w =>
      if s.groupState w.group = 4 then s.failWrite w St.groupFailed
      else if w.mode ≠ 3 ∧ s.genOut w.group then s.failWrite w St.writeFault
      else
        let n := s.bufferSize w
        match s.freeIntent with
        | none => s.admitWait w true
        | some i =>
          if 114688 < s.slotsHeld + n then s.admitWait w false
          else
            match s.findSlots n with
            | none => s.admitWait w false
            | some a => s.admitWrite w i a n
  else s

/-! ### The buffer (R314 to R316, R321, R322, R327) -/

/-- What a buffer holds: blocks as (member, row, block) in buffer order, and what building it found. -/
structure Built where
  data : List (Nat × Nat × Block)
  p : List (Nat × Nat × Block)
  q : List (Nat × Nat × Block)
  /-- Loss markers, kept behind the other blocks (DESIGN CHOICE, assumption 20). -/
  markers : List (Nat × Nat × Block)
  oldGen : Nat
  recon : Nat
  /-- Rows read: what the reads cost. -/
  rows : List (Row × List Nat)
  /-- Losses to be listed: member and row. -/
  lost : List (Nat × Nat)
  /-- Unreadable blocks that were reconstructed and are written back: row, strip and stored bytes. R374. -/
  backs : List (Row × Nat × List Byte)
  /-- Source rows of a reshape with more than two missing blocks. R387. -/
  losses : List Row
  deriving DecidableEq, Repr

/-- Nothing built yet. -/
def Built.none_ : Built := { data := [], p := [], q := [], markers := [], oldGen := 0, recon := 0, rows := [], lost := [], backs := [], losses := [] }

/-- Plaintext of a data position of a stripe write; none where its cells deliver POISON (Table 03-4). -/
def State.writePlain (s : State) (w : StripeWrite) (r : Nat) : Option (List Byte) :=
  match w.owner with
  | .command c =>
    match s.cmd? c with
    | some (_, x) =>
      if x.opcode = 5 then some zeroBlock
      else match s.dataAddr x with
        | some a =>
          let at_ := a + (w.pos + r - w.first) * 4096
          if s.rangePoison at_ 4096 then none else some (s.cellar at_ 4096)
        | none => none
    | none => none
  | _ => some zeroBlock

/-- Why a buffer cannot be built: a status for the command. -/
abbrev Building := Except Nat Built

/-- Stored bytes of the data positions a write of a command or an INIT gives, by position. -/
def State.writeStored (s : State) (w : StripeWrite) : Except Nat (List (Nat × List Byte)) :=
  match s.volKey w.volume with
  | none => .error St.keyUnavailable
  | some k => ((List.range w.count).map (w.first + ·)).mapM fun r =>
      match s.writePlain w r with
      | some l => .ok (r, sealData k (w.lba0 + r) l)
      | none => .error St.cellarDataError

/-- A full stripe from the stored bytes of its data positions: the rest are pad blocks (R314, R327). -/
def fullStripe (e : BitVec 512) (x : BitVec 256) (first stripe gen : Nat) (ds : List (List Byte)) : Built :=
  let b := stripBlocks e
  let at_ := fun (r : Nat) => ds.getD r zeroBlock
  let blk := fun (m k : Nat) (l : List Byte) => (m, k, blockFor (expectAt e x first stripe m k) gen l)
  let row := fun (k : Nat) => (List.range (dataStrips e)).map fun j => at_ (j * b + k)
  { Built.none_ with
    data := (List.range (stripeBlocks e)).map fun r => blk (dataMember e stripe (r / b)) (r % b) (at_ r)
    p := (List.range b).map fun k => blk (pMember e stripe) k (pOf (row k))
    q := (List.range b).map fun k => blk (qMember e stripe) k (qOf (row k)) }

/-- The extent location of a stripe write as its command's translation gives it, whatever the map holds now (R287): the entry
that trailers need and the location's first stripe. -/
def State.writeExtent (s : State) (w : StripeWrite) : Option (BitVec 256 × Nat) :=
  match w.owner with
  | .command _ =>
    some (putPart (putPart 0 Ext.volume w.volume) Ext.extent (w.lba0 / 1048576),
      w.stripe - w.lba0 % 1048576 / stripeBlocks (s.grp w.group))
  | _ => (s.extentOf w.group w.stripe).map fun y => (y.2.1, y.2.2)

/-- What a stripe write records of a row with missing data strips that it neither writes nor can solve (R387): where one of them is
not listed as lost yet, loss markers in place of those whose members can be written, and the blocks to be listed. -/
def State.rowLosses (s : State) (r : Row) (gen : Nat) (js : List Nat) : List (Nat × Nat × Block) × List (Nat × Nat) :=
  let fresh := js.filter fun j => !r.lost.contains (r.dataAt j)
  let row := (r.stripe * stripBlocks r.entry + r.row) % 2 ^ 32
  let takes := fun (j : Nat) => s.writable r.group (r.dataAt j) r.stripe && match r.at_ (r.dataAt j) with | .marker _ => false | _ => true
  if fresh = [] then ([], [])
  else ((js.filter takes).map fun j => (r.dataAt j, r.row, markerFor (r.expect.getD (r.dataAt j) ⟨0, 0, 0⟩) row gen),
    fresh.map fun j => (r.dataAt j, r.row))

/-- One row of a partial write (R315, R316, R322, R387, R391): `new` gives the stored bytes of the strips written. A block that
R373 or a dispute does not let be reconstructed, and that the write does not replace, is recorded as a loss (DEDUCED,
assumption 56). -/
def State.partialRow (s : State) (w : StripeWrite) (gen : Nat) (x : BitVec 256) (first : Nat) (bad : List (Nat × Nat))
    (new : List (Nat × List Byte)) (k : Nat) : Built :=
  let r := s.readRow w.group w.stripe k x first bad
  let e := r.entry
  let pm := pMember e w.stripe
  let qm := qMember e w.stripe
  let js := new.map (·.1)
  let touched := js.map r.dataAt ++ [pm, qm]
  let blk := fun (m : Nat) (l : List Byte) => (m, k, blockFor (r.expect.getD m ⟨0, 0, 0⟩) gen l)
  let put := fun (ds : List (List Byte)) => new.foldl (fun ds (j, l) => ds.set j l) ds
  let away := (List.range (grpMembers e)).any fun m => r.lost.contains m || r.at_ m = .away
  let disputed := s.disputed w.group w.stripe
  let failed := touched.any fun m => r.at_ m = .bad
  let data := new.map fun (j, l) => blk (r.dataAt j) l
  let old := max (match (r.at_ pm).block? with | some b => b.gen | none => 0)
    (match (r.at_ qm).block? with | some b => b.gen | none => 0)
  match away || failed || disputed, (r.at_ pm).block?, (r.at_ qm).block? with
  | false, some p, some q =>
    let delta := fun (j : Nat) (l : List Byte) => xorBytes ((r.known j).getD zeroBlock) l
    let p' := new.foldl (fun a (j, l) => xorBytes a (delta j l)) p.1
    let q' := new.foldl (fun a (j, l) => xorBytes a (scale (pqPow j) (delta j l))) q.1
    { Built.none_ with data := data, p := [blk pm p'], q := [blk qm q'], oldGen := old, rows := [(r, touched)] }
  | _, _, _ =>
    let others := ((List.range (dataStrips e)).filter fun j => !js.contains j).map r.dataAt
    let need := r.unknown.filter fun j => !js.contains j
    let solved := if need = [] then some r.withZeros
      else if disputed then none else r.reconstruct (s.unpatrolled w.group w.stripe)
    let ds := put (solved.getD r.withZeros)
    let (marks, lost) := if solved.isSome then ([], []) else s.rowLosses r gen need
    let before := if away || disputed then [] else touched
    let parity := if need = [] || (!away && !disputed) then [] else [pm, qm]
    let read := before ++ others ++ parity
    { data := data, p := [blk pm (pOf ds)], q := [blk qm (qOf ds)]
      markers := marks
      oldGen := if read.contains pm then old else 0, recon := 1, rows := [(r, read)]
      lost := lost
      backs := if need = [] then [] else (solved.map fun l => need.map fun j => (r, j, l.getD j zeroBlock)).getD []
      losses := [] }

/-- Join two parts of a buffer. -/
def Built.join (a b : Built) : Built where
  data := a.data ++ b.data
  p := a.p ++ b.p
  q := a.q ++ b.q
  markers := a.markers ++ b.markers
  oldGen := max a.oldGen b.oldGen
  recon := a.recon + b.recon
  rows := a.rows ++ b.rows
  lost := a.lost ++ b.lost
  backs := a.backs ++ b.backs
  losses := a.losses ++ b.losses

/-- The source row of a block that a reshape step copies, and its data strip (R405). -/
def State.stepRow (s : State) (w : StripeWrite) (entry : Nat) (bad : List (Nat × Nat)) (r : Nat) : Row × Nat :=
  let x := s.ext entry
  let p := s.placeAt entry x false ((w.lba0 + r) % 1048576)
  let e := s.grp p.group
  (s.readRow p.group p.stripe (p.pos % stripBlocks e) x (getPart x Ext.firstStripe) bad, p.pos / stripBlocks e)

/-- A block of a reshape step as a read of the volume gives it (R405, R406): its stored bytes, and whether it could be read; one
that could not enters as zero and is listed as lost (DEDUCED, assumption 24). -/
def State.stepBlock (s : State) (row : Row) (j : Nat) : List Byte × Bool :=
  let (st, l, _) := row.outcome (s.disputed row.group row.stripe) false (row.reconstruct (s.unpatrolled row.group row.stripe)) j
  (l, decide (st = St.success))

/-- A row met once more: the members read of it are joined. -/
def joinRow (l : List (Row × List Nat)) (r : Row) (ms : List Nat) : List (Row × List Nat) :=
  if l.any fun y => decide (y.1 = r) then l.map fun y => if y.1 = r then (r, y.2 ++ ms.filter fun m => !y.2.contains m) else y
  else l ++ [(r, ms)]

/-- The buffer of a reshape step (R405, R406), with what reading its source costs and brings: read repairs, and the losses of
rows with more than two missing blocks. -/
def State.stepBuilt (s : State) (w : StripeWrite) (entry gen : Nat) (bad : List (Nat × Nat)) : Built :=
  let x := s.ext entry
  let e := s.grp w.group
  let rows := (List.range w.count).map (s.stepRow w entry bad)
  let ds := rows.map fun (r, j) => s.stepBlock r j
  let gone := (List.range ds.length).filter fun i => !(ds.getD i ([], true)).2
  let read := rows.foldl (fun l (r, j) =>
    joinRow l r (if r.missing (r.dataAt j) then List.range (grpMembers r.entry) else [r.dataAt j])) []
  let again := (List.zip rows ds).filter fun y => y.2.2 && decide (y.1.1.at_ (y.1.1.dataAt y.1.2) = .bad)
  { fullStripe e x (getPart x Ext.altFirst) w.stripe gen (ds.map (·.1)) with
    rows := read
    lost := gone.map fun i => (dataMember e w.stripe (i / stripBlocks e), i % stripBlocks e)
    backs := again.map fun y => (y.1.1, y.1.2, y.2.1)
    losses := (read.map (·.1)).filter fun r => decide (2 < r.missingMembers.length) }

/-- P and Q of every row of a stripe from its data blocks as they stand (R401); an unreadable one enters as zero. A row with more
than two missing blocks is recorded within the write (R387). -/
def State.resolveBuilt (s : State) (w : StripeWrite) (gen : Nat) (x : BitVec 256) (first : Nat) (bad : List (Nat × Nat)) : Built :=
  ((List.range (stripBlocks (s.grp w.group))).map fun k =>
    let r := s.readRow w.group w.stripe k x first bad
    let blk := fun (m : Nat) (l : List Byte) => (m, k, blockFor (r.expect.getD m ⟨0, 0, 0⟩) gen l)
    let (marks, lost) := if 2 < r.missingMembers.length then s.rowLosses r gen r.unknown else ([], [])
    { Built.none_ with
      p := [blk (pMember r.entry w.stripe) (pOf r.withZeros)]
      q := [blk (qMember r.entry w.stripe) (qOf r.withZeros)]
      markers := marks
      lost := lost
      rows := [(r, (List.range (dataStrips r.entry)).map r.dataAt)] : Built }).foldl Built.join Built.none_

/-- The buffer of a stripe write (R314 to R316), or the status it fails with. -/
def State.build (s : State) (w : StripeWrite) (gen : Nat) (bad : List (Nat × Nat)) : Building :=
  let e := s.grp w.group
  match s.writeExtent w, w.owner with
  | _, .reshape =>
    match s.rbd.reshape with
    | some r => .ok (s.stepBuilt w r.entry gen bad)
    | none => .error St.writeFault
  | none, _ => .error St.writeFault
  | some (x, first), .resolve => .ok (s.resolveBuilt w gen x first bad)
  | some (x, first), _ =>
    match s.writeStored w with
    | .error st => .error st
    | .ok ds =>
      if w.mode = 2 then
        let b := stripBlocks e
        .ok (((touchedRows b w.first w.count).map fun k =>
          s.partialRow w gen x first bad ((ds.filter fun d => d.1 % b == k).map fun d => (d.1 / b, d.2)) k).foldl Built.join Built.none_)
      else .ok (fullStripe e x first w.stripe gen (ds.map (·.2)))

/-- A buffer as the lost-range table has room for (R390): a row whose loss finds no entry gets no marker and no parity, and the
first block without an entry is named. -/
def State.fitLosses (s : State) (w : StripeWrite) (b : Built) : Built × State :=
  let rows := b.lost.foldl (fun a y => insertNat y.2 a) []
  let (_, b, full) := rows.foldl (fun (t, b, full) k =>
    match t.lossRoom w.group w.stripe (b.lost.filter fun y => y.2 == k) with
    | .ok t => (t, b, full)
    | .error f =>
      let keep := fun (l : List (Nat × Nat × Block)) => l.filter fun y => y.2.1 != k
      (t, { b with p := keep b.p, q := keep b.q, markers := keep b.markers, lost := b.lost.filter fun y => y.2 != k }, full ++ [f]))
    (s, b, [])
  (b, s.each full fun s f => s.lostFull w.group w.stripe f.1 f.2 1)

/-- The reads that a buffer took: their counts, read repairs, and losses at a reshape's source (R367, R374, R387, R405). -/
def State.builtReads (s : State) (b : Built) (bad : List (Nat × Nat)) : State :=
  let s := s.each b.rows fun s (r, ms) => s.noteRow r bad ms true
  let s := s.each b.backs fun s (r, j, l) => s.readRepair r j l
  s.each b.losses fun s r => s.readLoss r

/-- Buffer order of the written data: ascending position (R327). -/
def orderData (e : BitVec 512) (stripe : Nat) (l : List (Nat × Nat × Block)) : List (Nat × Nat × Block) :=
  let pos := fun (x : Nat × Nat × Block) => match stripOf e stripe x.1 with
    | .data j => j * stripBlocks e + x.2.1
    | _ => 0
  l.foldl (fun (a : List (Nat × Nat × Block)) x => (a.takeWhile fun y => decide (pos y < pos x)) ++ [x] ++ a.dropWhile fun y => decide (pos y < pos x)) []

/-- A stripe write is ready for its buffer to be built: FILLING, its command at hand, its group's members too, and an engine of
its chain with a pipe left, without which it waits (Table 11-2). -/
def State.canBuild (s : State) (w : StripeWrite) : Bool :=
  s.writeState w == Ins.filling && s.groupReady w.group && decide (s.namedEngines 1 ≠ []) &&
    match w.owner with
    | .command c => (s.cmd? c).isSome
    | _ => true

/-- The stripe engine has read the last cell of a pushed write's data once none of the command's stripe writes has its buffer
still to be filled: the access ends (Table 05-3). -/
def State.sourceRead (s : State) (o : StripeFor) : State :=
  match o with
  | .command c =>
    match s.cmd? c with
    | some (_, x) =>
      let mine := fun (w : StripeWrite) => decide (w.owner = o)
      if x.toAdmit = [] ∧ !s.str.waiting.any mine ∧ !s.str.live.any (fun w => mine w && s.isFilling w) then
        (s.endAccess x.access).modCmd c fun x => { x with access := none }
      else s
    | none => s
  | _ => s

/-- The buffer is complete in the dirty store: the intent becomes READY (Table 08-3), older copies of its blocks are made
STALE or closed (R419, R434), the peer gets its copy (R335), the completion condition is checked (R332) and destage begins
(R336). -/
def State.makeReady (s : State) (w : StripeWrite) (i first : Nat) (b : Built) : State :=
  let e := s.grp w.group
  let all := orderData e w.stripe b.data ++ b.p ++ b.q ++ b.markers
  let put := (List.range all.length).zip all
  let s := s.each put fun s (j, (_, _, blk)) => s.putSlot (first + j) blk
  let fed := match w.owner with | .command _ => 16 * w.count | _ => 0
  let s := (s.cellsTaken (32 + w.engine) fed).cellsSent (32 + w.engine) (17 * all.length)
  let mask := (b.markers.map (·.1)).foldl (fun a m => if a.testBit m then a else a + 2 ^ m) (getPart (s.intent i) Intent.memberMask)
  let it := putPart (putPart (putPart (putPart (s.intent i) Intent.state Ins.ready) Intent.oldGen b.oldGen) Intent.memberMask mask)
    Intent.dirtyIndex first
  let held := match Tab.find? i s.str.buffers with | some (_, k) => max k all.length | none => all.length
  let s := (s.setIntent i it).onStr fun x => { x with buffers := Tab.set i (first, held) x.buffers }
  let s := s.modLive w.name fun w => { w with places := all.map fun (m, k, _) => (m, k), left := put.map fun (j, (m, k, _)) => (m, k, j) }
  let moved := decide (w.owner = .reshape)
  let s := s.each (if moved then List.range (grpMembers e) else []) fun s m => s.clearLost w.group w.stripe m 0 (stripBlocks e)
  let s := s.each b.lost fun s (m, k) => ((s.addLost w.group w.stripe m k).flag F.STR_STATUS_LOST_ADDED).tallyFlag .integrity
    F.STR_STATUS_LOST_ADDED w.group (integrityArgs w.stripe m k 1 i)
  let s := (s.bump A.STR_RECON_ROWS b.recon).bump (if w.mode = 2 then A.STR_RMW_STRIPES else A.STR_FULL_STRIPES)
  let s := s.each (b.lost.filterMap fun (m, k) => s.writtenLba w m k) fun s a => s.staleBlock w.volume a
  let s := s.each (all.filterMap fun (m, k, _) => s.writtenLba w m k) fun s a =>
    (s.staleBlock w.volume a).closeReads w.volume a
  let s := s.sourceRead w.owner
  let s := s.when s.peerFollows fun s => s.mirrorWrite w
  let s := s.when (s.durable w) fun s => s.writeMet w
  s.destage w.name

/-- Where a buffer of n slots goes: where it stands, or, grown by loss markers, to a new run within the dirty budget (R331). -/
def State.bufferPlace (s : State) (i first size n : Nat) : Option Nat :=
  if n ≤ size then some first
  else if 114688 < s.slotsHeld - size + n then none
  else ({ s with str := { s.str with buffers := Tab.erase i s.str.buffers } } : State).findSlots n

/-- Fill a stripe write's buffer (R332): `bad` lists the (member, row) whose drive read fails. Where a cell of the buffer's slots
would be acknowledged FAILED (R85, R118), nothing is written and the write fails with CELLAR_DATA_ERROR (DESIGN CHOICE,
assumption 131). -/
def State.bufferComplete (s : State) (n : Nat) (bad : List (Nat × Nat)) : State :=
  match s.live? n with
  | none => s
  | some w =>
    match w.intent.bind fun i => (Tab.find? i s.str.buffers).map fun x => (i, x) with
    | none => s
    | some (i, (first, size)) =>
      if s.canBuild w then
        match s.build w (getPart (s.intent i) Intent.newGen) bad with
        | .error st => s.failWrite w st
        | .ok b =>
          let (b, t) := (s.builtReads b bad).fitLosses w b
          let n := b.data.length + b.p.length + b.q.length + b.markers.length
          match t.bufferPlace i first size n with
          | none => s
          | some a =>
            if t.rangeFailed (t.slotAddr a) (4352 * n) then t.failWrite w St.cellarDataError else t.makeReady w i a b
      else s

end Sys2Proof.Machine
end

