-- ==== Sys2Proof/Machine/Members.lean ====
section
/-!
DEFINITION. Members that leave and enter service, spares, group entries and INIT (07_volumes_and_blocks.md,
09_failure_rebuild_reshape.md R367 to R377).
-/

namespace Sys2Proof.Machine

/-! ### Copy members (R354, R355) -/

/-- A copy member has left ACTIVE: the copy members are chosen again, and a full checkpoint to the new set begins at once, or
after the one that runs (R353, R355). -/
def State.copyLost (s : State) (g m : Nat) : State :=
  if s.str.copies.any fun c => c.1 == g && c.2.1 == m then
    let cs := s.chooseCopies
    let s := ((s.onStr fun x => { x with copies := cs }).flag F.STR_STATUS_COPY_LOST).event .copyMemberLost
    s.ckptStart false
  else s

/-! ### Rebuild targets (R377, R384, R386) -/

/-- Target records of a group that are in use, with their index. -/
def State.targets (s : State) (g : Nat) : List (Nat × Target) :=
  (List.range 2).filterMap fun t => (Tab.find? (g * 2 + t) s.rbd.targets).bind fun x =>
    if s.grpOn g && s.member g x.member == Mem.rebuilding then some (t, x) else none

/-- Record the targets in the Attic (R384); the points recorded of a group that is not enabled yet stand. The patrol points, which
the Attic gives after a restart (Table 09-13), are recorded at the same times (DEDUCED, assumption 152). -/
def State.saveTargets (s : State) : State :=
  let old : Tab (Nat × Nat × Bool) := s.attic.rebuild.filter fun x => !s.grpOn (x.1 / 32)
  let recs : Tab (Nat × Nat × Bool) := (List.range 8).foldl (fun t g => (s.targets g).foldl (fun t (_, x) =>
    Tab.set (g * 32 + x.member) (x.start, x.point, x.wrapped) t) t) old
  let points : Tab Nat := s.rbd.patrols.map fun x => (x.1, x.2.point)
  s.onAttic fun a => { a with rebuild := recs, patrols := points }

/-- The walk's current point, or 0 if no walk runs (R377). -/
def State.walkPoint (s : State) (g : Nat) : Nat :=
  match (s.targets g).find? fun (_, x) => !x.done with
  | some (_, x) => x.point
  | none => 0

/-- End the target records that no REBUILDING member has (R386). -/
def State.endTargets (s : State) (g : Nat) : State :=
  s.each [g * 2, g * 2 + 1] fun s k =>
    match Tab.find? k s.rbd.targets with
    | some x => if s.member g x.member = Mem.rebuilding then s else s.onRbd fun r => { r with targets := Tab.erase k r.targets }
    | none => s

/-- Give a REBUILDING member of an enabled group its target record, unless it has one (R377, R385). -/
def State.startTarget (s : State) (g m : Nat) : State :=
  if (s.target g m).isSome then s
  else
    let p := s.walkPoint g
    let t : Target := { member := m, start := p, point := p, wrapped := false, done := false }
    match [g * 2, g * 2 + 1].find? fun k => (Tab.find? k s.rbd.targets).isNone with
    | some k => s.onRbd fun r => { r with targets := Tab.set k t r.targets }
    | none => s

/-- Target records follow a change of member states, and are recorded (R377, R384, R386). -/
def State.followTargets (s : State) (g : Nat) : State :=
  let s := s.endTargets g
  let s := if s.grpOn g then
      s.each ((List.range (grpMembers (s.grp g))).filter fun m => s.member g m == Mem.rebuilding) fun s m => s.startTarget g m
    else s
  s.saveTargets

/-! ### A group's state changes (R338, R370, R413) -/

/-- What a change of a group's state brings: a group that has become FAILED holds its intents and ends an INIT or holds a
reshape; one that has left FAILED resumes its destage (R289, R338, R413). -/
def State.groupChanged (s : State) (g old : Nat) : State :=
  let new := s.groupState g
  if new = 4 ∧ old ≠ 4 then
    let s := s.each (s.str.live.filter fun w => w.group == g && decide (2 ≤ s.writeState w)) fun s w => s.holdWrite w
    let mine := match s.vol.init with | some j => getPart (s.ext j.entry) Ext.group % 8 == g | none => false
    let s := s.when mine fun s => s.initEnd
    match s.rbd.reshape with
    | some r =>
      let near := r.dstGroup == g || getPart (s.ext r.entry) Ext.group % 8 == g
      let busy := decide (r.state = .copying) && (r.step == .writing || r.step == .written)
      if !near || r.state == .held then s
      else if busy then s.onRbd fun b => { b with reshape := some { r with stopping := true } }
      else s.reshapeHold
    | none => s
  else if old = 4 ∧ new ≠ 4 then s.resumeGroup g
  else s

/-- Every target has been passed everywhere: all REBUILDING members become ACTIVE at one commit (R382). -/
def State.rebuildEnd (s : State) (g : Nat) : State :=
  let ts := (s.targets g).map (·.2)
  if ts ≠ [] ∧ ts.all (·.done) then
    let old := s.groupState g
    let e := ts.foldl (fun e t => setMemberState e t.member Mem.active) (s.grp g)
    (((s.setGrp g e).flag F.RBD_STATUS_REBUILD_DONE).followTargets g).groupChanged g old
  else s

/-! ### Spares (R278 to R280, R375, R376, R634) -/

/-- A bay meets R278 for a group, and R634 lets this side take it; one that another enabled group holds would be refused
(R280). -/
def State.spareFits (s : State) (g bay : Nat) : Bool :=
  let e := s.grp g
  let p := s.port bay
  (getPart e Grp.spareMask).testBit bay && p.presence && p.fit &&
    !([PortState.empty, .lost, .fault, .unfit, .removed].contains p.state) &&
    decide (getPart e Grp.dataStart + getPart e Grp.stripes * stripBlocks e ≤ p.cap) &&
    ((s.fld F.PEER_BAY_OWN_SIDE_B).testBit bay == (s.side == 1)) && (s.memberAt bay).isNone

/-- Clear bays from the SPARE_MASK of every group (R279). -/
def State.clearSpares (s : State) (bays : List Nat) : State :=
  s.each (List.range 8) fun s g =>
    let e := s.grp g
    let mask := (List.range 24).foldl (fun a b => if (getPart e Grp.spareMask).testBit b && !bays.contains b then a + 2 ^ b else a) 0
    s.onVol fun x => { x with grps := Tab.put 0 g (putPart e Grp.spareMask mask) x.grps }

/-- A record of class MEDIA (Table 19-6). -/
def State.tallyMedia (s : State) (f : Fld) (bay g m lba : Nat) : State := s.tallyFlag .media f bay [g, m, lba]

/-- Replace a failed member by a spare (R375), or report that there is none (R376). -/
def State.takeSpare (s : State) (g m : Nat) : State :=
  match (List.range 24).find? fun b => s.spareFits g b with
  | none => (s.flag F.RBD_STATUS_NO_SPARE).tallyMedia F.RBD_STATUS_NO_SPARE (s.bayOfMember g m) g m 0
  | some b =>
    let old := s.groupState g
    let e := putBytes (s.grp g) (Grp.memberBay.off + m) 1 b
    let s := ((s.setGrp g (setMemberState e m Mem.rebuilding)).clearSpares [b]).flag F.RBD_STATUS_SPARE_TAKEN
    (s.followTargets g).groupChanged g old

/-! ### A member leaves service (R367, R368) -/

/-- What follows a member's leaving ACTIVE or REBUILDING, its state and its group's already set (R317, R338, R355, R368,
R375, R386). -/
def State.memberLeft (s : State) (g m oldGroup : Nat) : State :=
  let bay := s.bayOfMember g m
  let s := (s.flag F.RBD_STATUS_MEMBER_FAILED).tallyMedia F.RBD_STATUS_MEMBER_FAILED bay g m 0
  let s := (s.event (.memberFailure g m)).followTargets g
  let s := (s.groupChanged g oldGroup).dropMember g m
  let s := ((s.reissueReads g m).copyLost g m).rebuildEnd g
  if s.is F.RBD_CTRL_AUTO_SPARE && s.ownsGroup g && !s.isFenced then s.takeSpare g m else s

/-- An event of Table 09-1 sets a member FAILED or ABSENT. -/
def State.memberDown (s : State) (g m state : Nat) : State :=
  if s.grpOn g ∧ s.member g m ≤ 1 ∧ m < grpMembers (s.grp g) then
    let old := s.groupState g
    (s.setGrp g (setMemberState (s.grp g) m state)).memberLeft g m old
  else s

/-- A bay's drive has been lost or removed (Table 09-1). -/
def State.bayDown (s : State) (bay state : Nat) : State :=
  match s.memberAt bay with
  | some (g, m) => s.memberDown g m state
  | none => s

/-- Unreadable blocks of a member within the last 24 h have reached RBD_ERR_LIMIT (Table 09-1). -/
def State.overErrors (s : State) (g m : Nat) : Bool :=
  let limit := s.fld F.RBD_ERR_LIMIT_LIMIT
  limit != 0 && decide (limit ≤ (within24h s.now (Tab.getD (s.bayOfMember g m) [] s.rbd.errors)).length)

/-- A member whose errors have reached the limit fails (R367). -/
def State.errorCheck (s : State) (g m : Nat) : State := if s.overErrors g m then s.memberDown g m Mem.failed else s

/-! ### Group entries (R277 to R280, R308, R309, R414) -/

/-- A staged group entry fails R309. -/
def grpFieldBad (e : BitVec 512) : Bool :=
  let bays := ((List.range 24).map (bayOf e)).filter fun b => b != 0xFF
  decide (grpMembers e < 4) || decide (24 < grpMembers e) || decide (getPart e Grp.stripLog2 < 14) ||
    decide (20 < getPart e Grp.stripLog2) || decide (getPart e Grp.dataStart < 0x400000) || getPart e Grp.stripes == 0 ||
    !noRepeats bays

/-- A change of an enabled group entry that R308 does not commit: all but MEMBER_STATE, SPARE_MASK, the RO STATE and the
bays of FAILED and ABSENT members stays; and a member leaves FAILED or ABSENT only for REBUILDING (R369). -/
def grpHeld (old new : BitVec 512) : Bool :=
  let keep := fun (e : BitVec 512) => putPart (putPart (putPart e Grp.state 0) Grp.memberState 0) Grp.spareMask 0
  let eased := (List.range 24).foldl (fun (e : BitVec 512) m =>
    if 2 ≤ memberOf old m then putBytes e (Grp.memberBay.off + m) 1 (bayOf old m) else e) new
  decide (keep old ≠ keep eased) ||
    (List.range (grpMembers old)).any fun m => decide (2 ≤ memberOf old m) && memberOf new m == Mem.active

/-- A commit names a bay that another enabled group has (R280). -/
def State.bayInUse (s : State) (g : Nat) (e : BitVec 512) : Bool :=
  (List.range (grpMembers e)).any fun m => (List.range 8).any fun h =>
    h != g && s.grpOn h && (List.range (grpMembers (s.grp h))).any fun k => s.bayOfMember h k == bayOf e m

/-- The template in force has another member count, strip size or member bay list (R277). -/
def State.templateDiffers (s : State) (g : Nat) (e : BitVec 512) : Bool :=
  match s.groupTemplate g with
  | some r => rb r 1 != grpMembers e || rb r 2 != getPart e Grp.stripLog2 ||
      (List.range (grpMembers e)).any fun m => rb r (4 + m) != bayOf e m
  | none => false

/-- Commit a group entry: spares taken, the template compared, the clock started (R323), and what its member states
change carried on. -/
def State.grpPut (s : State) (g : Nat) (e : BitVec 512) : State :=
  let old := s.grp g
  let oldState := s.groupState g
  let on := (getPart e Grp.flags).testBit 0
  let s := s.setGrp g e
  let s := if on then s.clearSpares ((List.range (grpMembers e)).map (bayOf e)) else s
  let s := s.when (on && s.templateDiffers g e) fun s => s.flag F.VOL_STATUS_TEMPLATE_MISMATCH
  let s := s.when (on && (Tab.find? g s.str.clocks).isNone && (Tab.find? g s.attic.clockMarks).isNone) fun s => s.setClock g 1
  let wasOn := (getPart old Grp.flags).testBit 0
  let left := if wasOn && on then
      (List.range (grpMembers e)).filter fun m => decide (memberOf old m ≤ 1) && decide (2 ≤ memberOf e m)
    else []
  let s := (s.followTargets g).groupChanged g oldState
  let s := s.each left fun s m => if s.member g m = memberOf e m then s.memberLeft g m (s.groupState g) else s
  let back := if wasOn && on then (List.range (grpMembers e)).filter fun m => memberOf old m == 0 && memberOf e m == 1 else []
  let s := s.each back fun s m => s.copyLost g m
  (s.rebuildEnd g).flag F.VOL_STATUS_CMD_DONE

/-- VOL_CMD WRITE of a group entry (R277 to R280, R308, R309). -/
def State.grpCommit (s : State) (g : Nat) : State :=
  if 8 ≤ g then s.volRefuse 7
  else
    let staged := ofBytes 512 (s.volStaged 16)
    let e := grpEntry staged
    if grpFieldBad staged then s.volRefuse 2
    else if s.grpOn g ∧ grpHeld (s.grp g) e then s.volRefuse 1
    else if s.bayInUse g e then s.volRefuse 3
    else s.grpPut g e

/-- RBD_CMD GROUP_REDEFINE (R414): refused while an extent map entry names the group; ENABLED stays. -/
def State.groupRedefine (s : State) (g : Nat) : State :=
  let staged := ofBytes 512 (s.volStaged 16)
  let e := grpEntry staged
  let named := s.vol.exts.any fun (_, x) => getPart x Ext.state != 0 &&
    (getPart x Ext.group % 8 == g || (getPart x Ext.state == Exts.moving && getPart x Ext.altGroup % 8 == g))
  if 8 ≤ g then s.volRefuse 7
  else if named then s.volRefuse 1
  else if grpFieldBad staged then s.volRefuse 2
  else if s.bayInUse g e then s.volRefuse 3
  else s.grpPut g (putPart e Grp.flags (getPart (s.grp g) Grp.flags))

/-! ### VOL_CMD (R288, R289, R311) -/

/-- VOL_CMD WRITE by table (R311). -/
def State.volWrite (s : State) : State :=
  let i := s.fld F.VOL_SEL_INDEX
  match s.fld F.VOL_SEL_TABLE with
  | 0 => s.volCommit i
  | 1 => s.grpCommit i
  | 2 => s.extCommit i
  | _ => s.accessCommit i

/-- VOL_CMD INIT (R289). -/
def State.volInit (s : State) : State :=
  let i := s.fld F.VOL_SEL_INDEX
  let x := s.ext i
  let g := getPart x Ext.group % 8
  if s.fld F.VOL_SEL_TABLE ≠ 2 then s.volRefuse 2
  else if 1 < getPart x Ext.state ∨ !s.grpOn g ∨ s.groupState g = 4 ∨ (s.volKey (getPart x Ext.volume % 4096)).isNone then
    s.volRefuse 1
  else
    (s.setExt i (putPart x Ext.state Exts.init)).onVol fun v => { v with init := some { entry := i, next := 0, intents := [] } }

/-- The last INIT stripe has been written to every member (R289). -/
def State.initDone (s : State) : State :=
  match s.vol.init with
  | none => s
  | some j =>
    let x := s.ext j.entry
    let busy := (s.str.live ++ s.str.waiting).any fun w => decide (w.owner = .init)
    if extentStripes (s.grp (getPart x Ext.group % 8)) ≤ j.next ∧ !busy then
      ((s.setExt j.entry (putPart x Ext.state Exts.mapped)).onVol fun v => { v with init := none }).flag F.VOL_STATUS_CMD_DONE
    else s

/-- A VOL_CMD is refused while BUSY is 1 (Table 07-12). -/
def State.volIdle (s : State) (f : State → State) : State := if s.volBusy then s.volRefuse 6 else f s

end Sys2Proof.Machine
end

