-- ==== Sys2Proof/Machine/Fence.lean ====
section
/-!
DEFINITION. The peer's states and the fence (17_peer_and_takeover.md R642, R657).
-/

namespace Sys2Proof.Machine

/-- The code of a peer state (Table 17-8). -/
def PeerState.code : PeerState → Nat
  | .solo => 0
  | .joining => 1
  | .mirrored => 2
  | .linkLost => 3
  | .sidebandLost => 4
  | .arbitrating => 5
  | .fenced => 6

/-- PEER_STATE as read (Table 17-8). -/
def State.peerWord (s : State) : Nat :=
  let p := s.peer
  p.state.code + 8 * (p.groups % 4) + 32 * ofBool (!p.sideLost) + 2 ^ 8 * (p.flags % 256) + 2 ^ 16 * (p.peerOwn % 256) +
    2 ^ 24 * (p.own % 256)

/-- PEER_ARB as read (Table 17-9): while an arbitration runs, with the bays held so far. -/
def State.arbWord (s : State) : Nat :=
  let (n, ended, result) := s.peer.arbResult
  let held := match s.peer.arb with | some (_, _, _, bays) => bays.length | none => ended
  n % 32 + 2 ^ 8 * (held % 32) + 2 ^ 16 * (result % 4)

/-- A record of class PEER (Table 19-6). -/
def State.tallyPeer (s : State) (f : Option Fld) (groups : Nat) : State :=
  match f with
  | some f => s.tallyFlag .peer f 0 [s.peerWord, s.arbWord, groups]
  | none => s.tallyEvent .peer 0xD 6 0 [s.peerWord, s.arbWord, groups]

/-- The PEER_STATUS bit of a state that has one (R642). -/
def peerFlag (old new : PeerState) : Option Fld :=
  match new with
  | .mirrored => if old = .sidebandLost then none else some F.PEER_STATUS_JOINED
  | .linkLost => some F.PEER_STATUS_LINK_LOST
  | .sidebandLost => some F.PEER_STATUS_SIDEBAND_LOST
  | .fenced => some F.PEER_STATUS_FENCED
  | .solo => if old = .arbitrating then some F.PEER_STATUS_ARB_WON else none
  | _ => none

/-- Change the peer state: its status bit and a record of class PEER (R642, R710). -/
def State.peerEnter (s : State) (st : PeerState) : State :=
  if s.peer.state = st then s
  else
    let f := peerFlag s.peer.state st
    let kept := st == .mirrored || st == .sidebandLost
    let s := s.onPeer fun p => { p with state := st, mirrorEnd := if kept then none else p.mirrorEnd.orElse fun _ => some s.now }
    match f with
    | some b => (s.flag b).tallyPeer (some b) s.peer.own
    | none => s.tallyPeer none s.peer.own

/-! ### Volumes and commands of groups (R630, R631) -/

/-- The group of a volume: that of its first extent map entry (R630). -/
def State.volGroup (s : State) (v : Nat) : Nat := getPart (s.ext (getPart (s.vent v) Volu.extentBase % 1048576)) Ext.group % 8

/-- Volumes of the groups of a mask. -/
def State.volsOf (s : State) (mask : Nat) : List Nat := (s.vol.vols.map (·.1)).filter fun v => mask.testBit (s.volGroup v)

/-- Set or clear OWNER bits of the volumes of a mask of groups: bit 0 OWNED, bit 1 HANDOVER (Table 07-6). -/
def State.setOwner (s : State) (mask bit : Nat) (v : Bool) : State :=
  s.each (s.volsOf mask) fun s n =>
    let o := getPart (s.vent n) Volu.owner
    let o' := if v then (if o.testBit bit then o else o + 2 ^ bit) else if o.testBit bit then o - 2 ^ bit else o
    s.setVent n (putPart (s.vent n) Volu.owner o')

/-- Commands that wait for a handover on volumes of a mask, in acceptance order (R631). -/
def State.handoverCmds (s : State) (mask : Nat) : List Nat :=
  ((s.cq.slots.filter fun x => decide (x.2.wait = .handover) && mask.testBit (s.volGroup x.2.volume)).map fun x => x.2.order).foldl
    (fun l c => insertNat c l) []

/-- A handover given is abandoned (R653): HANDOVER is cleared and the commands that wait run. -/
def State.handoverAbort (s : State) : State :=
  match s.peer.giving with
  | none => s
  | some h =>
    let cs := s.handoverCmds h.groups
    let s := ((s.setOwner h.groups 1 false).onPeer fun p => { p with giving := none }).flag F.PEER_STATUS_HANDOVER_ABORT
    s.each cs fun s c => s.modCmd c fun x => { x with wait := if x.onVolume then .running else .firmware }

/-! ### The fence (R657, R659) -/

/-- Status of every command of a FENCED side (R631). -/
def State.fenceStatus (s : State) : Nat := if s.peer.byArbitration then St.lostArbitration else St.fenced

/-- The side is fenced (R657), which abandons a handover it gives (R653): every command short of its completion point completes with the status of R631, and member
writes stop; intents in the Attic stay. -/
def State.fenceSide (s : State) (byArbitration : Bool) : State :=
  let s := s.when (decide (s.peer.state = .mirrored)) State.handoverAbort
  let s := (s.onPeer fun p => { p with byArbitration := byArbitration }).peerEnter .fenced
  let s := s.each ((s.cq.slots.filter fun x => x.2.alive).map fun x => x.2.order) fun s c => s.stopWith c s.fenceStatus
  let write := fun (c : DriveCmd) => match c.use with | .destage _ _ _ => true | _ => false
  s.onDrv fun d => { d with cmds := d.cmds.filter fun c => !write c }

/-- A drive command has met a reservation conflict (Table 14-6, R659): it is held, and outside ARBITRATING the conflict
fences the side. -/
def State.driveConflict (s : State) (c : DriveCmd) : State :=
  let s := ((s.flag F.DRV_STATUS_RESV_CONFLICT).bump (A.DRV_RESV_CONFLICTS c.bay)).event (.reservationConflict c.bay)
  let hold := fun (x : DriveCmd) => if x.name = c.name then { x with queue := none } else x
  let s := s.onDrv fun d => { d with cmds := d.cmds.map hold }
  let s := s.onPeer fun p => { p with held := p.held ++ [c.name] }
  match s.peer.state with
  | .arbitrating => s
  | .fenced => s
  | _ => s.fenceSide false

end Sys2Proof.Machine
end

