-- ==== Sys2Proof/Machine/DrivePort.lean ====
section
/-!
DEFINITION. The drive ports' states, the outcomes of drive commands and reservations (14_drive_ports.md).
-/

namespace Sys2Proof.Machine

/-! ### States (R557, R566) -/

/-- The code of a port state (Table 14-12). -/
def PortState.code : PortState → Nat
  | .empty => 0
  | .present => 1
  | .reset => 2
  | .training => 3
  | .init => 4
  | .ready => 5
  | .retraining => 6
  | .lost => 7
  | .fault => 8
  | .unfit => 9
  | .removed => 10

/-- The REFCLK enable (R557): with the link in L1.2 it follows CLKREQ# alone; a removed bay has none (Table 14-3). -/
def Port.clock (p : Port) : Port :=
  { p with refclk :=
      match p.state with
      | .removed => false
      | .reset => true
      | .training => true
      | .init => true
      | .retraining => true
      | .ready => p.clkreq || !p.l12
      | _ => p.clkreq }

/-- Move a port to a state. -/
def State.portTo (s : State) (n : Nat) (st : PortState) (f : Port → Port) : State :=
  s.modPort n fun p => (f { p with state := st, since := s.now }).clock

/-- A PRESENT port whose bay has both power-good signals goes to RESET (Table 14-3), while ports run; asleep it follows at the
exit (R688). -/
def State.portPower (s : State) (n : Nat) : State :=
  if n < 24 ∧ (s.port n).state = .present ∧ s.is F.DRV_CTRL_EN ∧ s.bayPowered n ∧ !s.asleep then
    s.portTo n .reset fun p => { p with perst := true, started := false }
  else s

/-- An insertion is recognised (Table 14-3): E of the drive starts at 0 (R421). -/
def State.portInserted (s : State) (n : Nat) : State :=
  let s := s.modPort n fun p => { p with presence := true, presenceAt := s.now }
  if (s.port n).state = .empty then
    let s := (s.portTo n .present id).onRsv fun r => { r with lat := Tab.erase n r.lat }
    ((s.flag F.DRV_STATUS_INSERTED).event (.driveInserted n)).portPower n
  else s

/-- RESET has lasted 100 ms (Table 14-3). -/
def State.portTrain (s : State) (n : Nat) : State :=
  let p := s.port n
  if p.state = .reset ∧ p.since + 100000000 ≤ s.now ∧ (s.is F.DRV_CTRL_AUTO_BRINGUP ∨ p.started) then
    s.portTo n .training fun p => { p with perst := false }
  else s

/-- I/O queue pairs in effect at the next INIT (Table 14-13). -/
def State.sqCountSet (s : State) (n : Nat) : Nat := min 64 (max 1 (s.fld (F.DRV_PORT_CTRL_SQ_COUNT n)))

/-- Entries per queue in effect at the next INIT (Table 14-13). -/
def State.sqDepthSet (s : State) (n : Nat) : Nat := 32 * 2 ^ min 5 (s.fld (F.DRV_PORT_CTRL_SQ_DEPTH n))

/-- Highest rate and widest width of a drive port: its LANE record's ceiling and mode (R554, R555); mode 0 is a disabled port. -/
def State.linkLimit (s : State) (n : Nat) : Nat × Nat :=
  match (laneRecs (s.sect 0x02)).find? fun r => rb r 0 == 1 && rb r 1 == n with
  | some r => (rb r 3, if rb r 2 = 0 then 0 else if rb r 2 = 2 then 2 else 4)
  | none => (6, 4)

/-- A link of Table 14-1, or one trained down to x1 (R554, R555). -/
def linkOk (rate width : Nat) : Bool := decide (3 ≤ rate) && decide (rate ≤ 6) && [1, 2, 4].contains width

/-- The link states that a power mode uses (Table 18-2, R555). -/
inductive LinkPower where
  | down | l0 | l1 | l12
  deriving DecidableEq, Repr

/-- The power state of a port's link: no ASPM in Active and Trim, L1 in Doze, L1.2 in Dormant (R555, Table 18-2). -/
def State.linkPower (s : State) (n : Nat) : LinkPower :=
  if (s.port n).rate = 0 then .down else if (s.port n).l12 then .l12 else if s.pwr.cur = .doze then .l1 else .l0

/-- A drive's link comes up at the rate and width that the drive offers, within the port's own (Table 14-3, R554 to R556). -/
def State.portLinkUp (s : State) (n rate width : Nat) (nvme : Bool) : State :=
  let p := s.port n
  let top := s.linkLimit n
  if !linkOk (min rate top.1) (min width top.2) then s
  else
  let s := s.modPort n fun p => { p with rate := min rate top.1, width := min width top.2, sizes := (512, 4096) }
  if p.state = .training ∨ p.state = .retraining then
    if nvme then
      (s.portTo n .init fun p => { p with sqCount := s.sqCountSet n, sqDepth := s.sqDepthSet n }).event (.driveLinkUp n)
    else (s.portTo n .unfit fun p => { p with fit := false }).flag F.DRV_STATUS_UNFIT
  else s

/-- No link within 1 s of TRAINING (Table 14-3). -/
def State.portFault (s : State) (n : Nat) : State :=
  let p := s.port n
  if p.state = .training ∧ p.since + 1000000000 ≤ s.now then (s.portTo n .fault id).flag F.DRV_STATUS_FAULT else s

/-- A drive's link goes down: a fatal error that took it down is counted (R557), and a READY port holds its commands and retrains
(R568). -/
def State.portLinkDown (s : State) (n : Nat) (fatal : Bool) : State :=
  let s := (s.modPort n fun p => { p with rate := 0, width := 0, sizes := (0, 0) }).when fatal fun s => s.bump (A.DRV_AER_UNCORR n)
  if (s.port n).state = .ready then
    let s := (s.portTo n .retraining fun p => { p with retrainFrom := some s.now }).flag F.DRV_STATUS_LINK_DOWN
    let s := s.when (s.port n).resvCmd.isSome fun s => s.resvEnd n 5 0
    s.holdCmds n
  else s

/-- Every command of a port ends (R569): reads and writes of a member as its leaving service says, the rest with it. -/
def State.portEnd (s : State) (n resvCode memberState : Nat) : State :=
  let s := s.when (s.port n).resvCmd.isSome fun s => s.resvEnd n resvCode 0
  let s := s.bayDown n memberState
  s.onDrv fun d => { d with cmds := d.cmds.filter fun c => c.bay != n }

/-- A port is LOST and its member FAILED (R567, R569). -/
def State.portLose (s : State) (n resvCode : Nat) : State :=
  ((s.portTo n .lost fun p => { p with retrainFrom := none }).flag F.DRV_STATUS_LOST).portEnd n resvCode Mem.failed

/-- Command limit in ns (Table 14-9). -/
def State.cmdLimit (s : State) : Nat := 1000000 * min 10000 (max 100 (s.fld F.DRV_TIMEOUT_CMD))

/-- Limit from link down to READY in ns (Table 14-9). -/
def State.retrainLimit (s : State) : Nat := 1000000 * min 10000 (max 100 (s.fld F.DRV_TIMEOUT_RETRAIN))

/-- Controller fatal status, or a command outstanding longer than DRV_TIMEOUT.CMD, on a READY port (Table 14-3). -/
def State.portLost (s : State) (n : Nat) (fatal : Bool) : State :=
  if (s.port n).state = .ready then
    let late := s.drv.cmds.find? fun c => c.bay == n && c.queue.isSome && match c.issued with
      | some t => decide (t + s.cmdLimit < s.now)
      | none => false
    match fatal, late with
    | true, _ => s.portLose n 5
    | false, some c => (s.bump (A.DRV_TIMEOUTS n)).portLose n (match c.use with | .reservation _ _ _ => 4 | _ => 5)
    | false, none => s
  else s

/-- DRV_TIMEOUT.RETRAIN has passed since the link went down, without READY (Table 14-3). -/
def State.portRetrain (s : State) (n : Nat) : State :=
  let p := s.port n
  match p.retrainFrom with
  | some t => if (p.state = .retraining ∨ p.state = .init) ∧ t + s.retrainLimit ≤ s.now then s.portLose n 5 else s
  | none => s

/-- A removal is recognised (Table 14-3, R567, R588). -/
def State.portRemoved (s : State) (n : Nat) : State :=
  let st := (s.port n).state
  let s := s.modPort n fun p => { p with presence := false, presenceAt := s.now }
  if st = .empty ∨ st = .removed then s
  else
    let s := s.portTo n .removed fun p => { p with
      perst := true, rate := 0, width := 0, sizes := (0, 0), retrainFrom := none, fit := false }
    ((s.flag F.DRV_STATUS_REMOVED).bayOff n).portEnd n 5 Mem.absent

/-- Both power-good signals of a REMOVED port's bay are low (Table 14-3). -/
def State.portGone (s : State) (n : Nat) : State :=
  if (s.port n).state = .removed ∧ s.bayDark n then s.portTo n .empty id else s

/-! ### Port commands (Table 14-14) -/

/-- A DRV_PORT_CMD is refused. -/
def State.portRefuse (s : State) : State := s.flag F.DRV_STATUS_CMD_REFUSED

/-- DRV_PORT_CMD START (Table 14-3). -/
def State.portStart (s : State) (n : Nat) : State :=
  if (s.port n).state = .reset then (s.modPort n fun p => { p with started := true }).portTrain n else s.portRefuse

/-- Entries of NVMe queues that the other ports hold (R562). -/
def State.queueEntries (s : State) (n : Nat) : Nat :=
  (s.drv.ports.map fun (k, p) =>
    if k != n && (decide (p.state = .ready) || p.retrainFrom.isSome) then p.sqCount * p.sqDepth else 0).sum

/-- Namespace size of a bay's drive, in blocks: that of the drive where it is known, else a free value, which is the drive's from
then on (assumption 132). -/
def State.driveCapacity (s : State) (n : Nat) : Nat × State :=
  match (Tab.find? n s.drives).filter fun d => d.capacity != 0 with
  | some d => (d.capacity, s)
  | none =>
    let (x, s) := s.draw 48
    (x, s.modDrive n fun d => { d with capacity := x })

/-- MSI-X vectors that a bay's drive offers, at least the two of Table 14-2: those of the drive where they are known, else a free
value, which is the drive's from then on (assumption 132). -/
def State.driveVectors (s : State) (n : Nat) : Nat × State :=
  match (Tab.find? n s.drives).filter fun d => d.vectors != 0 with
  | some d => (d.vectors, s)
  | none =>
    let (x, s) := s.draw 11
    (max 2 x, s.modDrive n fun d => { d with vectors := max 2 x })

/-- Another drive is in a bay: formatted, of so many blocks (assumption 132). -/
def State.newDrive (s : State) (n : Nat) (other : Option Nat) : State :=
  match other with
  | some k => if n < 24 ∧ !(s.port n).presence then { s with drives := Tab.set n { driveDefault with capacity := k } s.drives } else s
  | none => s

/-- DRV_PORT_CMD READY (R560, R562, R564, R568). -/
def State.portMakeReady (s : State) (n : Nat) : State :=
  let p := s.port n
  if p.state = .init ∧ s.queueEntries n + p.sqCount * p.sqDepth ≤ s.pantryEntries 0x07 then
    let (cap, s) := s.driveCapacity n
    let (vs, s) := s.driveVectors n
    let s := s.portTo n .ready fun p => { p with
      cap := cap, trained := (p.rate, p.width), vectors := vs, cqHead := [], retrainFrom := none, miValid := false, miMiss := 0, fit := true }
    (s.flag F.DRV_STATUS_READY).issueAll n
  else s.portRefuse

/-- DRV_PORT_CMD UNFIT (Table 14-3). -/
def State.portUnfit (s : State) (n : Nat) : State :=
  if (s.port n).state = .init then
    (s.portTo n .unfit fun p => { p with retrainFrom := none, fit := false }).flag F.DRV_STATUS_UNFIT
  else s.portRefuse

/-- DRV_PORT_CMD RELEASE (Table 14-3). -/
def State.portRelease (s : State) (n : Nat) : State :=
  match (s.port n).state with
  | .lost => (s.portTo n .present fun p => { p with perst := true }).portPower n
  | .fault => (s.portTo n .present fun p => { p with perst := true }).portPower n
  | .unfit => (s.portTo n .present fun p => { p with perst := true }).portPower n
  | _ => s.portRefuse

/-! ### Outcomes of drive commands (R336, R337, R421, R564, R570) -/

/-- A member write has failed twice (R337): the member is FAILED and its blocks are dropped. -/
def State.memberWriteFailed (s : State) (g m : Nat) : State := (s.bump A.STR_MEMBER_WRITE_ERR).memberDown g m Mem.failed

/-- A read command of a pending read has ended. -/
def State.readEnded (s : State) (name : Nat) (first : MBlock) (count : Nat) (failed : Bool) : State :=
  let s := s.readArrived name first count failed
  s.errorCheck first.group first.member

/-- A command has ended for good, successfully or not. -/
def State.cmdEnded (s : State) (c : DriveCmd) (ok : Bool) : State :=
  let s := s.dropCmd c
  match c.use with
  | .read p first _ => s.readEnded p first c.count (!ok)
  | .destage n m k =>
    if ok then (s.mediaPut c.bay c.lba (c.block, c.trailer)).destageDone n m k true
    else
      match s.live? n with
      | some w => (s.memberWriteFailed w.group m).destageDone n m k false
      | none => s
  | .reservation _ _ _ => s

/-- Count a completion entry, and sample a read (R421, R570). -/
def State.countCompletion (s : State) (c : DriveCmd) : State :=
  match c.use with
  | .reservation _ _ _ => s
  | _ =>
    if c.write then s.bump (A.DRV_WRITES c.bay)
    else (s.bump (A.DRV_READS c.bay)).sample c.bay (s.now - c.issued.getD s.now)

/-- Handle one outcome of a drive command (Table 14-6). A completion timeout or poisoned data on the link is an uncorrectable
error that is not fatal (R557). -/
def State.outcome (s : State) (name : Nat) (o : DriveOutcome) : State :=
  match s.drvCmd name with
  | none => s
  | some c =>
    if c.queue.isNone then s
    else
      match o with
      | .success => (s.countCompletion c).cmdEnded c true
      | .status => if c.retried then ((s.countCompletion c).bump (A.DRV_MEDIA_ERR c.bay)).cmdEnded c false
          else (s.countCompletion c).retryCmd c
      | .link =>
        let s := s.bump (A.DRV_AER_UNCORR c.bay)
        if c.retried then (s.bump (A.DRV_MEDIA_ERR c.bay)).cmdEnded c false else s.retryCmd c
      | .corrected => s
      | .stray => s
      | .conflict => (s.countCompletion c).driveConflict c
      | .dnr => ((s.countCompletion c).event (.driveError c.bay)).cmdEnded c false

/-- The MSI-X vector of a completion queue: one of its own, or the vectors are shared in turn (R564). -/
def Port.vectorOf (p : Port) (q : Nat) : Nat := q % max 1 p.vectors

/-- A completion entry of a queue is consumed (R564): head and phase move on. -/
def Port.consume (p : Port) (q : Nat) : Port :=
  { p with cqHead := Tab.put 0 q ((Tab.getD q 0 p.cqHead + 1) % (2 * p.sqDepth)) p.cqHead }

/-- An MSI-X write makes the engine scan the completion queues of a vector (R564): the entries found, in order. What the link met
meanwhile is counted: an error it corrected, and a request of the drive that is answered with Unsupported Request (R556, R557). -/
def State.msixScan (s : State) (bay vector : Nat) (l : List (Nat × DriveOutcome)) : State :=
  s.each l fun s (name, o) =>
    match o with
    | .corrected => s.when (decide (bay < 24)) fun s => s.bump (A.DRV_AER_CORR bay)
    | .stray => s.when (decide (bay < 24)) fun s => s.bump (A.DRV_AER_UNCORR bay)
    | o =>
      match s.drvCmd name with
      | some c =>
        match c.queue with
        | some q =>
          if c.bay = bay ∧ (s.port bay).vectorOf q = vector then
            (s.when (decide (o ≠ .link)) fun s => s.modPort bay fun p => p.consume q).outcome name o
          else s
        | none => s
      | none => s

/-! ### Reservations (R571, R572) -/

/-- DRV_RESV_CMD on a port: 1 REGISTER, 2 ACQUIRE, 3 PREEMPT, 4 REPORT, with this side's key and the key to preempt (R571, R572). -/
def State.resvCmd (s : State) (n cmd : Nat) : State :=
  if s.is F.DRV_CTRL_RESV_EN ∧ n < 24 then
    let p := s.port n
    if p.state ≠ .ready then (s.modPort n fun p => { p with resv := (true, 2, 0) }).flag F.DRV_STATUS_RESV_DONE
    else if p.resvCmd.isSome then (s.modPort n fun p => { p with resv := (true, 3, 0) }).flag F.DRV_STATUS_RESV_DONE
    else (s.modPort n fun p => { p with resv := (false, 0, 0), resvCmd := some cmd }).issue n true 0 1 (zeroBlock, 0)
      (.reservation cmd (if cmd = 4 then 0 else s.pair A.DRV_RESV_KEY) (if cmd = 3 then s.pair A.DRV_RESV_PEER_KEY else 0))
  else s

/-- A reservation command of a port has ended with a code and a holder (R572, R573). -/
def State.resvDone (s : State) (n code holder : Nat) : State :=
  if (s.port n).resvCmd.isSome then
    let s := s.when (decide (code = 1)) fun s =>
      ((s.flag F.DRV_STATUS_RESV_CONFLICT).bump (A.DRV_RESV_CONFLICTS n)).event (.reservationConflict n)
    s.resvEnd n code holder
  else s

/-! ### Sideband outputs (Tables 14-7 and 14-13) -/

/-- What a bay's FAULT LED shows: 0 off, 1 on, 2 blinking; AUTO_FAULT_LED overrides with on. -/
def State.faultLed (s : State) (n : Nat) : Nat :=
  if s.is F.DRV_CTRL_AUTO_FAULT_LED && [PortState.lost, .fault, .unfit].contains (s.port n).state then 1
  else s.fld (F.DRV_PORT_CTRL_FAULT_LED n) % 3

/-- What a bay's LOCATE LED shows: 0 off, 1 on, 2 blinking. -/
def State.locateLed (s : State) (n : Nat) : Nat := s.fld (F.DRV_PORT_CTRL_LOCATE_LED n) % 3

/-! ### Management data (R574) -/

/-- The poll of a READY bay: temperature, life used and warnings, or no valid answer (R574). -/
def State.miPoll (s : State) (n : Nat) (answer : Option (Nat × Nat × Nat)) : State :=
  if s.is F.DRV_CTRL_MI_EN ∧ (s.port n).state = .ready then
    match answer with
    | some (t, l, w) => s.modPort n fun p => { p with mi := t % 256 + 2 ^ 8 * min l 255 + 2 ^ 16 * (w % 256), miValid := true, miMiss := 0 }
    | none =>
      let k := (s.port n).miMiss + 1
      (s.modPort n fun p => { p with miMiss := k }).when (k == 3) fun s => s.flag F.DRV_STATUS_MI_STALE
  else s

end Sys2Proof.Machine
end

