-- ==== Sys2Proof/Machine/Replay.lean ====
section
/-!
DEFINITION. The power-loss dump, DISCARD_GROUP and replay (08_stripe_writes_and_attic.md R338, R342 to R346, R357 to
R364).
-/

namespace Sys2Proof.Machine

/-! ### DISCARD_GROUP (R338) -/

/-- Free one live intent of a group for DISCARD_GROUP: a record of class INTEGRITY if it was COMPLETED; a command that
still waits on it completes with WRITE_FAULT (DEDUCED, assumption 26). -/
def State.discardOne (s : State) (w : StripeWrite) : State :=
  let i := w.intent.getD 0
  let done := (getPart (s.intent i) Intent.flags).testBit 2
  let mine := fun (c : DriveCmd) => match c.use with | .destage n _ _ => n == w.name | _ => false
  let flows := s.hst.flows.filter fun f => match f.use with | .destage n _ _ => n == w.name | _ => false
  let s := (s.each flows fun s f => s.closeFlow f.id).onDrv fun d => { d with cmds := d.cmds.filter fun c => !mine c }
  let s := s.neverSafe w true
  let s := s.when done fun s => s.tallyEvent .integrity 6 1 w.group
    (integrityArgs w.stripe 0xFF (w.first % stripBlocks (s.grp w.group)) w.count i)
  let s := s.mirrorRetire w
  match w.owner with
  | .command c =>
    match s.cmd? c with
    | some (_, x) => if x.intents.contains w.name then s.failWrite w St.writeFault else s.freeWrite w
    | none => s.freeWrite w
  | _ => s.failWrite w St.writeFault

/-- STR_CMD DISCARD_GROUP (R338). -/
def State.discardGroup (s : State) (g : Nat) : State :=
  (s.each ((s.str.live.filter fun w => w.group == g).map (·.name)) fun s n =>
    match s.live? n with
    | some w => s.discardOne w
    | none => s).shutdownNext

/-! ### The dump (R342 to R344) -/

/-- A member write already issued completes, or does not, once power fails or a reset cuts it (R345): a free choice each. -/
def State.landIssued (s : State) : State :=
  s.each (s.drv.cmds.filter fun c => c.write && c.queue.isSome) fun s c =>
    let (lands, s) := s.drawBool
    s.when lands fun s => s.mediaPut c.bay c.lba (c.block, c.trailer)

/-- CRC-32C over the record headers of a dump, the 32 B intent copies (R343, R344). -/
def dumpCrc (l : List DumpRecord) : BitVec 32 := crc32c (l.flatMap fun r => toBytes 32 r.intent)

/-- Write the dump seal (R344). -/
def State.dumpSeal (s : State) : State :=
  let a := s.attic
  let mark : DumpSeal := ⟨a.journalId, a.journalGen, a.dump.length, s.clockList, dumpCrc a.dump⟩
  s.onAttic fun a => { a with dumpSealed := true, sealed := some mark }

/-- The seal of the dump held, where it is that of this journal and of the records there (R344). -/
def Attic.goodSeal (a : Attic) : Option DumpSeal :=
  a.sealed.filter fun x => x.journalId == a.journalId && x.gen == a.journalGen && x.count == a.dump.length && x.crc == dumpCrc a.dump

/-- A record holds the buffer of an intent: same group, STRIPE and NEW_GEN, and not logged as FREE (R352). -/
def DumpRecord.holds (r : DumpRecord) (i : BitVec 256) : Bool :=
  getPart r.intent Intent.state != 0 && getPart r.intent Intent.group % 8 == getPart i Intent.group % 8 &&
    getPart r.intent Intent.stripe == getPart i Intent.stripe && getPart r.intent Intent.newGen == getPart i Intent.newGen

/-- A block of a dump record passes its trailer check (R294): a data, pad, P or Q block of its place, or a loss marker. -/
def State.dumpBlockOk (s : State) (i : BitVec 256) (y : (Nat × Nat) × Block) : Bool :=
  let g := getPart i Intent.group % 8
  let stripe := getPart i Intent.stripe
  let e := s.grp g
  match s.extentOf g stripe with
  | some (_, x, first) =>
    let t := expectAt e x first stripe y.1.1 y.1.2
    trailerOk t y.2 || isMarker t ((stripe * stripBlocks e + y.1.2) % 2 ^ 32) y.2
  | none => guardOk y.2

/-- The dump's record of an intent's buffer; of an unsealed dump only records whose blocks pass their checks (Table 08-9). -/
def State.dumpRecordOf (s : State) (i : BitVec 256) : Option DumpRecord :=
  s.attic.dump.find? fun r => r.holds i && (s.attic.goodSeal.isSome || (r.places.zip r.blocks).all (s.dumpBlockOk i))

/-- Records of the dump held whose intents no replay has closed yet: a further dump keeps them, so that a power loss before or
during the replay loses no completed write (R365; DEDUCED, assumption 150). -/
def State.heldRecords (s : State) : List DumpRecord :=
  s.attic.intents.filterMap fun x => if s.str.live.any fun w => w.intent == some x.1 then none else s.dumpRecordOf x.2

/-- The records a dump holds: those of the dump held that no replay has closed yet, and those of the live intents in their place
(R343, R365). -/
def State.allRecords (s : State) : List DumpRecord :=
  ((s.heldRecords ++ s.dumpRecords).foldl (fun (t : Tab DumpRecord) r => Tab.set r.index r t) []).map (·.2)

/-- Write the dump records; the dump is unsealed until its seal is written (R343, R344). Member writes already issued may
complete or not (R345). -/
def State.dump (s : State) : State :=
  s.landIssued.onAttic fun a => { a with dump := s.allRecords, dumpSealed := false, sealed := none }

/-- A request for Doze or Dormant that waits or enters is abandoned (R690). -/
def State.entryAbandon (s : State) : State :=
  if s.draining then
    (s.onPwr fun p => { p with phase := .steady, target := p.cur, since := s.now, drainCkpt := 0 }).flag
      F.PWR_STATUS_ENTRY_ABANDONED
  else s

/-- The power-loss line asserts (R589, R590, Table 08-5): counted and reported once, every bay is cut off, and the dump is
written. A reset dump that runs goes on to its seal and then to POWER_HOLD (R736). -/
def State.powerLoss (s : State) : State :=
  if s.bay.powerLoss then s
  else
    let s := (s.onBay fun b => { b with powerLoss := true, lineAt := s.now }).bump A.BAY_PL_EVENTS
    let s := s.flag F.BAY_STATUS_POWER_LOSS
    let s := (s.tallyPower F.BAY_STATUS_POWER_LOSS).event .powerLoss
    let s := s.each (List.range 24) fun s n => s.bayOff n
    match s.glb.phase with
    | .running =>
      if s.asleep then
        s.dump.dumpSeal.onGlb fun g => { g with phase := .powerHold }
      else s.entryAbandon.dump.onGlb fun g => { g with phase := .lossDump }
    | .resetDump _ => s.onGlb fun g => { g with phase := .lossDump, wanted := true }
    | _ => s

/-! ### Replay (R357 to R364) -/

/-- A journal source: its code in STR_REPLAY, its bay, generation, intents and lost-range entries. -/
structure Source where
  code : Nat
  bay : Nat
  gen : Nat
  intents : List (Nat × BitVec 256)
  lost : Option (List (Nat × LostEntry))
  clocks : Option (List Nat)
  deriving DecidableEq, Repr

/-- The own Attic as a source, if its journal id is that of the group metadata (R358). -/
def State.atticSource (s : State) (metaId : Nat) : Option Source :=
  if s.attic.journalId = metaId then
    let code := if s.attic.clean then 5 else if s.attic.goodSeal.isSome then 1 else 2
    some { code := code, bay := 0, gen := s.attic.journalGen, intents := s.attic.intents, lost := none
           clocks := s.attic.goodSeal.map (·.clocks) }
  else none

/-- The valid member copies of a journal in ascending bay (R350). -/
def State.memberSources (s : State) (id side : Nat) : List Source :=
  (List.range 24).flatMap fun b =>
    (s.copiesOn b id side).map fun (_, c) =>
      { code := 4, bay := b, gen := c.gen, intents := c.openIntents, lost := some c.lost
        clocks := some (c.clocks.map fun v => if v = 0 then 0 else v + 2 ^ 32) }

/-- The source of the highest generation, the first on a tie (R357). -/
def bestSource (l : List Source) : Option Source :=
  l.foldl (fun (a : Option Source) x =>
    match a with
    | some y => if y.gen < x.gen then some x else a
    | none => some x) none

/-- The newest member copy's record of an intent's buffer (Table 08-9). -/
def State.copyRecord (s : State) (id side : Nat) (i : BitVec 256) : Option DumpRecord :=
  let cs := (List.range 24).flatMap fun b => (s.copiesOn b id side).map (·.2)
  (cs.foldl (fun (a : Option (Nat × DumpRecord)) c =>
    match c.log.find? fun r => r.holds i with
    | some r =>
      match a with
      | some (g, _) => if g < c.gen then some (c.gen, r) else a
      | none => some (c.gen, r)
    | none => a) none).map (·.2)

/-- What one closing of an intent reads and writes: places and blocks of its buffer, if it has one. -/
abbrev Buffer := Option (List ((Nat × Nat) × Block))

/-- A record's blocks with their places. -/
def DumpRecord.buffer (r : DumpRecord) : List ((Nat × Nat) × Block) := r.places.zip r.blocks

/-- What the trailer of a block says of its place. -/
def expectOf (b : Block) : Expect where
  kind := getPart b.2 Trl.volumeKind / 4096
  vol := getPart b.2 Trl.volumeKind % 4096
  ref := getPart b.2 Trl.refTag

/-- A closing's write of one block; one that fails twice (`wbad`) fails its member (R337, Table 09-1). -/
def State.closePut (s : State) (g stripe : Nat) (wbad : List (Nat × Nat)) (y : (Nat × Nat) × Block) : State :=
  let e := s.grp g
  if wbad.contains y.1 then s.memberWriteFailed g y.1.1
  else (s.quickWrite (bayOf e y.1.1) (memberLba e stripe y.1.2) y.2).bump A.STR_REPLAY_WRITES

/-- Close an intent that has its buffer (R359): blocks of ACTIVE members that do not carry the generation yet are written. A
block read is checked against the trailer of the buffer's own block of that place, and a failure is counted (R295). -/
def State.closeWith (s : State) (i : BitVec 256) (buf : List ((Nat × Nat) × Block)) (bad wbad : List (Nat × Nat)) : State :=
  let g := getPart i Intent.group % 8
  let stripe := getPart i Intent.stripe
  let gen := getPart i Intent.newGen
  let e := s.grp g
  s.each buf fun s ((m, k), b) =>
    if s.member g m ≠ 0 then s
    else
      let bay := bayOf e m
      let old := s.media bay (memberLba e stripe k)
      let t := expectOf b
      let s := s.quickRead bay
      let s := if bad.contains (m, k) then (s.failedRead bay).countError g m
        else if trailerOk t old then s
        else (s.countTrailer t old).countError g m
      if !bad.contains (m, k) && trailerOk t old && decide (gen ≤ old.gen) then s
      else s.closePut g stripe wbad ((m, k), b)

/-- Add a block to the lost ranges for a replay (R359, R360); with no entry for it nothing is added (R390). -/
def State.replayLose (s : State) (g stripe m k : Nat) : State :=
  if s.lostAt g stripe m k then s
  else if (s.lostRoom g stripe m k).isNone then s.addLost g stripe m k
  else ((s.addLost g stripe m k).flag F.STR_STATUS_LOST_ADDED).bump A.STR_REPLAY_LOST

/-- What the parity of before the write gives for a touched row of which no block was kept or lost, under the conditions of R373
and R400: parity that the write has already replaced counts as unreadable. -/
def State.rowBefore (s : State) (i x : BitVec 256) (first k : Nat) (bad : List (Nat × Nat)) : Option (Row × List (List Byte)) :=
  let g := getPart i Intent.group % 8
  let stripe := getPart i Intent.stripe
  let r := s.readRow g stripe k x first bad
  let isNew := fun (m : Nat) => match r.at_ m with | .ok b => b.gen == getPart i Intent.newGen | _ => false
  let old := s.readRow g stripe k x first (bad ++ (([pMember r.entry stripe, qMember r.entry stripe].filter isNew).map fun m => (m, k)))
  if s.disputed g stripe && !r.unknown.isEmpty then none else (old.reconstruct (s.unpatrolled g stripe)).map fun ds => (old, ds)

/-- Close one touched row of an intent without a buffer (R359): `js` are the strips the intent writes. In a row of which no block
was kept or lost, a data block that cannot be read is what the parity of before the write gives, and is written back (R373,
R374); where that gives nothing, and in the other rows, it is added to the lost ranges, since P and Q take it as zero
(DEDUCED, assumption 27). -/
def State.closeRow (s : State) (i x : BitVec 256) (first k : Nat) (js : List Nat) (bad wbad : List (Nat × Nat)) : State :=
  let g := getPart i Intent.group % 8
  let stripe := getPart i Intent.stripe
  let gen := getPart i Intent.newGen
  let r := s.readRow g stripe k x first bad
  let e := r.entry
  let s := s.noteRow r bad (List.range (grpMembers e)) true
  let done := (getPart i Intent.flags).testBit 2
  let isNew := fun (m : Nat) => match r.at_ m with | .ok b => b.gen == gen | _ => false
  let lose := js.filter fun j => !isNew (r.dataAt j) && done
  let hit := js.any (fun j => isNew (r.dataAt j)) || !lose.isEmpty
  let solved := if hit then none else s.rowBefore i x first k bad
  let s := s.each lose fun s j => s.replayLose g stripe (r.dataAt j) k
  let away := (List.range (grpMembers e)).filter fun m => decide (s.member g m ≠ 0)
  let s := s.when hit fun s => s.each away fun s m => s.replayLose g stripe m k
  let gone := if solved.isSome then [] else r.unknown.filter fun j => !r.lost.contains (r.dataAt j)
  let s := s.each gone fun s j => s.replayLose g stripe (r.dataAt j) k
  let s := match solved with
    | some (old, ds) =>
      let mend := (r.unknown.filter fun j => !wbad.contains (r.dataAt j, k)).filter fun j => r.at_ (r.dataAt j) = .bad
      let s := s.each mend fun s j => s.readRepair old j (ds.getD j zeroBlock)
      s.each (r.unknown.filter fun j => wbad.contains (r.dataAt j, k) && decide (r.at_ (r.dataAt j) = .bad)) fun s j =>
        s.memberWriteFailed g (r.dataAt j)
    | none => s
  let ds := (solved.map (·.2)).getD r.withZeros
  let put := fun (s : State) (m : Nat) (l : List Byte) =>
    if s.writable g m stripe then s.closePut g stripe wbad ((m, k), blockFor (r.expect.getD m ⟨0, 0, 0⟩) gen l) else s
  put (put s (pMember e stripe) (pOf ds)) (qMember e stripe) (qOf ds)

/-- Close an intent that has no buffer (R359, R360). -/
def State.closeWithout (s : State) (idx : Nat) (i : BitVec 256) (bad wbad : List (Nat × Nat)) : State :=
  let g := getPart i Intent.group % 8
  let stripe := getPart i Intent.stripe
  let b := stripBlocks (s.grp g)
  let r0 := getPart i Intent.dataFirst
  let c := getPart i Intent.dataCount
  let rows := touchedRows b r0 c
  let s := s.tallyEvent .integrity 6 2 g (integrityArgs stripe 0xFF (rows.headD 0) rows.length idx)
  match s.extentOf g stripe with
  | none => s
  | some (_, x, first) =>
    s.each rows fun s k =>
      s.closeRow i x first k (((List.range c).filter fun n => (r0 + n) % b == k).map fun n => (r0 + n) / b) bad wbad

/-- Close an intent of MODE INIT (R289, R359): the whole stripe is rewritten with zeros under generation 1. None while the
volume's key is not loaded (R486) or no stripe engine has a pipe for XTS (Table 11-2). -/
def State.closeInit (s : State) (i : BitVec 256) (wbad : List (Nat × Nat)) : Option State :=
  let g := getPart i Intent.group % 8
  let stripe := getPart i Intent.stripe
  match s.extentOf g stripe with
  | none => some s
  | some (_, x, first) =>
    if s.namedEngines 1 = [] then none
    else (s.volKey (getPart x Ext.volume % 4096)).map fun k =>
      let e := s.grp g
      let base := getPart x Ext.extent * 1048576 + (stripe - first) * stripeBlocks e
      let ds := (List.range (validData e first stripe)).map fun r => sealData k (base + r) zeroBlock
      let b := fullStripe e x first stripe 1 ds
      s.each (b.data ++ b.p ++ b.q) fun s (m, k, blk) =>
        if s.writable g m stripe then s.closePut g stripe wbad ((m, k), blk) else s

/-- Close one intent of a source (R359): `find` gives its buffer; the flag says whether it is closed. -/
def State.closeIntent (s : State) (idx : Nat) (i : BitVec 256) (find : State → BitVec 256 → Buffer)
    (bad wbad : List (Nat × Nat)) : Bool × State :=
  let st := getPart i Intent.state
  if st = Ins.free ∨ st = Ins.filling then (true, s)
  else if getPart i Intent.mode = 3 then
    match s.closeInit i wbad with
    | some t => (true, t)
    | none => (false, s)
  else
    match find s i with
    | some b => (true, s.closeWith i b bad wbad)
    | none => (true, s.closeWithout idx i bad wbad)

/-- Close the intents of a list: those left wait for a key (R486). -/
def State.closeIntents (s : State) (l : List (Nat × BitVec 256)) (find : State → BitVec 256 → Buffer)
    (bad wbad : List (Nat × Nat)) : List (Nat × BitVec 256) × State :=
  l.foldl (fun (left, s) (k, i) =>
    let (ok, t) := s.closeIntent k i find bad wbad
    (if ok then left else left ++ [(k, i)], t)) ([], s)

/-- No patrol of a group. -/
def patrolDefault : Patrol where
  kind := .idle
  point := 0
  began := 0
  late := false
  postReplay := false
  every := false
  passed := false
  kept := none
  ext := none

/-- A group's patrol. -/
def State.patrol (s : State) (g : Nat) : Patrol := Tab.getD g patrolDefault s.rbd.patrols

/-- Set a group's patrol. -/
def State.setPatrol (s : State) (g : Nat) (p : Patrol) : State := s.onRbd fun r => { r with patrols := Tab.set g p r.patrols }

/-- The periodic patrol that an unpaced one interrupts, to resume from its point (R397). -/
def Patrol.toKeep (p : Patrol) : Option (Nat × Nat × Bool) :=
  if p.kind = .periodic then some (p.point, p.began, p.late) else p.kept

/-- An unpaced patrol of every group of a list; after a replay from a member copy its stripes ahead fall under R373 (R363, R364,
R397). -/
def State.patrolAll (s : State) (gs : List Nat) : State :=
  s.each gs fun s g =>
    if s.grpOn g then
      s.setPatrol g { patrolDefault with kind := .unpaced, began := s.now, postReplay := true, every := true, kept := (s.patrol g).toKeep }
    else s

/-- The place of buffers of a restart (Table 08-9). -/
def State.restartBuffer (id side code : Nat) (s : State) (i : BitVec 256) : Buffer :=
  let own := if code = 1 ∨ code = 2 then s.dumpRecordOf i else none
  (own.orElse fun _ => s.copyRecord id side i).map (·.buffer)

/-- Resume the clocks that a seal or a checkpoint gives, none below what the group has taken since the restart (R324, R325). -/
def State.resumeClocks (s : State) (l : List Nat) : State :=
  s.each ((List.range 8).zip l) fun s (g, v) => if v = 0 then s else s.setClock g (max v (Tab.getD g 0 s.str.clocks))

/-- The Attic's own journal (R340). -/
def Attic.ownJournal (a : Attic) : PriorJournal := ⟨a.journalId, a.journalGen, a.clean, a.intents, a.lost⟩

/-- The Attic with the journal a replay had found in it (R362). -/
def Attic.putJournal (a : Attic) (p : PriorJournal) : Attic :=
  { a with journalId := p.journalId, journalGen := p.journalGen, clean := p.clean, intents := p.intents, lost := p.lost }

/-- Replay from the first source of R357 on. The journal goes on under the id in the group metadata and, from a member copy,
with the generation after the copy's (R340, R341; DEDUCED, assumption 63). With no source an Attic journal of another shelf is
dropped (R358). -/
def State.replayFrom (s : State) (metaId : Nat) (bad wbad : List (Nat × Nat)) : State :=
  let s := s.onStr fun x => { x with replayed := true, replayBusy := true, prior := some s.attic.ownJournal }
  match bestSource ((s.atticSource metaId).toList ++ s.memberSources metaId s.side) with
  | none =>
    let s := s.onAttic fun a => { a with journalId := metaId, intents := [], lost := [], clean := false, dump := [], sealed := none }
    ((s.onStr fun x => { x with replaySource := (0, 0), replayLeft := [] }).flag F.STR_STATUS_NO_JOURNAL).patrolAll (List.range 8)
  | some src =>
    let s := s.onStr fun x => { x with replaySource := (src.code, src.bay) }
    let s := match src.lost with
      | some l => s.onAttic fun a => { a with lost := l }
      | none => s
    let (left, s) := if src.code = 5 then ([], s)
      else s.closeIntents src.intents (fun s i => s.restartBuffer metaId s.side src.code i) bad wbad
    let gen := if src.code = 4 then src.gen + 1 else src.gen
    let s := s.onAttic fun a => { a with intents := left, journalId := metaId, journalGen := gen }
    let s := match src.clocks with
      | some cs => s.resumeClocks cs
      | none => s
    let s := s.onStr fun x => { x with replayLeft := left.map (·.1) }
    if src.code = 4 then s.patrolAll (List.range 8) else s

/-- The member copy that the replay running reads is one of those now found to fail (R362). -/
def State.sourceFails (s : State) (id side : Nat) (failing : List (Nat × Nat × CopyFault)) : Bool :=
  s.str.replaySource.1 == 4 && match s.newestCopy s.str.replaySource.2 id side with
    | some (k, _) => failing.any fun x => x.1 == s.str.replaySource.2 && x.2.1 == k
    | none => false

/-- Replay after a reset (R357 to R363): `metaId` is the journal id in the group metadata, `failing` the copies, by bay and slot,
found not valid, `bad` and `wbad` the (member, row) whose reads and writes fail. A second replay goes on with the intents that
waited for a key; if the member copy being read fails, it is given up and the replay starts again from the next source (R362). -/
def State.replay (s : State) (metaId : Nat) (failing : List (Nat × Nat × CopyFault)) (bad wbad : List (Nat × Nat)) : State :=
  if s.str.replayBusy then
    let again := s.sourceFails metaId s.side failing
    let s := s.copyFaults failing
    if again then
      (match s.str.prior with
      | some p => s.onAttic fun a => a.putJournal p
      | none => s).replayFrom metaId bad wbad
    else
      let l := s.str.replayLeft.map fun k => (k, s.intent k)
      let (left, s) := s.closeIntents l (fun s i => s.restartBuffer metaId s.side s.str.replaySource.1 i) bad wbad
      let s := s.each (l.filter fun x => !(left.map (·.1)).contains x.1) fun s x => s.setIntent x.1 0
      s.onStr fun x => { x with replayLeft := left.map (·.1) }
  else if s.str.replayed then s
  else (s.copyFaults failing).replayFrom metaId bad wbad

/-- Every intent is closed: a group whose clock has no value yet resumes at its high-water mark (R324), a checkpoint is taken
at once, and REPLAY_DONE is set (R361). The dump is done with. -/
def State.replayDone (s : State) : State :=
  if s.str.replayBusy ∧ s.str.replayLeft = [] then
    let s := s.each s.attic.clockMarks fun s (g, m) => if (Tab.find? g s.str.clocks).isSome then s else s.setClock g m
    let s := (s.onStr fun x => { x with replayBusy := false, prior := none }).onAttic fun a => { a with dump := [], sealed := none }
    (s.ckptStart false).flag F.STR_STATUS_REPLAY_DONE
  else s

end Sys2Proof.Machine
end

