-- ==== Sys2Proof/Machine/Rebuild.lean ====
section
/-!
DEFINITION. The rebuild walk, the patrol, disputes and the reshape (09_failure_rebuild_reshape.md R377 to R414).
-/

namespace Sys2Proof.Machine

/-- Member writes of one row that a repair makes: member, row and block. -/
abbrev Puts := List (Nat × Nat × Block)

/-- Write the blocks of a repair to their members; a write that fails twice (`wbad`) leaves its member to be failed. -/
def State.putAll (s : State) (g stripe : Nat) (l : Puts) (wbad : List (Nat × Nat)) : State :=
  let e := s.grp g
  s.each l fun s (m, k, b) =>
    if wbad.contains (m, k) then s else s.quickWrite (bayOf e m) (memberLba e stripe k) b

/-- Members whose write of a repair has failed twice fail (Table 09-1). -/
def State.putFails (s : State) (g : Nat) (ms : List Nat) : State := s.each ms fun s m => s.memberWriteFailed g m

/-- Members of the failing writes of a list. -/
def failedOf (l : Puts) (wbad : List (Nat × Nat)) : List Nat :=
  (l.filter fun (m, k, _) => wbad.contains (m, k)).foldl (fun a (m, _, _) => insertNat m a) []

/-- An engine may work on a stripe: no live intent, no reshape step, the members at hand (R380, R405). -/
def State.stripeIdle (s : State) (g stripe : Nat) : Bool :=
  (s.liveIntent g stripe).isNone && !s.stepSource g stripe && s.groupReady g

/-- What one row of a stripe shows and what repairing it writes. -/
structure RowFix where
  /-- One of cases 1, 2 and 4 of R394. -/
  found : Bool
  /-- Blocks written back by R374, by R398 to parity and by R398 to a member. -/
  back : Puts
  parity : Puts
  member : Puts
  /-- The stripe is to be marked disputed (R399). -/
  dispute : Bool
  /-- A loss is to be recorded (R387). -/
  loss : Bool

/-- A row that needs nothing. -/
def RowFix.none_ : RowFix := { found := false, back := [], parity := [], member := [], dispute := false, loss := false }

/-- The stored bytes of a member of a row, from its data strips (R321). -/
def Row.storedOf (r : Row) (ds : List (List Byte)) (m : Nat) : List Byte :=
  match stripOf r.entry r.stripe m with
  | .p => pOf ds
  | .q => qOf ds
  | .data j => ds.getD j zeroBlock

/-- A member's block of a row under a generation. -/
def Row.blockAt (r : Row) (gen m : Nat) (l : List Byte) : Nat × Nat × Block :=
  (m, r.row, blockFor (r.expect.getD m ⟨0, 0, 0⟩) gen l)

/-- What R374 writes back of a row of at most two missing blocks: the unreadable blocks of members that can be written, as
reconstructed. -/
def State.backOf (s : State) (r : Row) : Puts :=
  match r.reconstruct (s.unpatrolled r.group r.stripe) with
  | none => []
  | some ds =>
    (r.missingMembers.filter fun m =>
      decide (r.at_ m = .bad) && !r.lost.contains m && s.writable r.group m r.stripe).map fun m =>
        r.blockAt r.topGen m (r.storedOf ds m)

/-- Table 09-4 for a row whose blocks are all present and whose P or Q disagrees (R398). -/
def Row.judge (r : Row) : RowFix :=
  let e := r.entry
  let pm := pMember e r.stripe
  let qm := qMember e r.stripe
  let ds := r.withZeros
  match (r.at_ pm).block?, (r.at_ qm).block? with
  | some p, some q =>
    let p2 := xorBytes p.1 (pOf ds)
    let q2 := xorBytes q.1 (qOf ds)
    let badP := decide (p2 ≠ zeroBlock)
    let badQ := decide (q2 ≠ zeroBlock)
    let gd := r.dataGen
    if !badP && !badQ then RowFix.none_
    else if (!badP || decide (p.gen < gd)) && (!badQ || decide (q.gen < gd)) then
      let fp := if badP then [r.blockAt gd pm (pOf ds)] else []
      let fq := if badQ then [r.blockAt gd qm (qOf ds)] else []
      { RowFix.none_ with found := true, parity := fp ++ fq }
    else
      let which :=
        if !badQ then some pm
        else if !badP then some qm
        else ((List.range (dataStrips e)).find? fun j => decide (scale (pqPow j) p2 = q2)).map r.dataAt
      let lower : Nat → Bool := fun m => match (r.at_ m).block? with | some b => decide (b.gen < r.topGen) | none => false
      match which with
      | some m =>
        if p.gen = gd ∧ q.gen = gd ∧ lower m then
          let fixed := match stripOf e r.stripe m with
            | .data j => xorBytes (ds.getD j zeroBlock) p2
            | _ => r.storedOf ds m
          { RowFix.none_ with found := true, member := [r.blockAt r.topGen m fixed] }
        else { RowFix.none_ with found := true, dispute := true }
      | none => { RowFix.none_ with found := true, dispute := true }
  | _, _ => RowFix.none_

/-- The case of R394 that a row falls under. -/
def State.rowCase (s : State) (r : Row) : RowFix :=
  let n := r.missingMembers.length
  if 2 < n then { RowFix.none_ with found := true, loss := true }
  else if n = 0 then r.judge
  else { RowFix.none_ with found := true, back := s.backOf r }

/-- Act on a row by R394: the state, whether it is a failing item, and the members that a write has failed. -/
def State.patrolRow (s : State) (g stripe k : Nat) (x : BitVec 256) (first : Nat) (repair : Bool)
    (bad wbad : List (Nat × Nat)) : State × Bool × List Nat :=
  let r := s.readRow g stripe k x first bad
  let s := s.noteRow r bad (List.range (grpMembers r.entry)) true
  let f := s.rowCase r
  if s.disputed g stripe then (s, f.found, [])
  else
    let s := s.bump A.RBD_READ_REPAIRS f.back.length
    let s := (s.bump A.RBD_PARITY_FIXED f.parity.length).bump A.RBD_MEMBER_FIXED f.member.length
    if !repair then (s, f.found, [])
    else
      let puts := (f.back ++ f.parity ++ f.member).filter fun (m, _, _) => s.writable g m stripe
      let s := s.putAll g stripe puts wbad
      let s := s.when f.dispute fun s => s.dispute g stripe
      let lost := if f.loss then s.lossFails r (fun _ => false) wbad else []
      let s := s.when f.loss fun s => s.recordLoss r (fun _ => false) wbad
      (s, f.found, failedOf puts wbad ++ lost)

/-- Block writes counted on every drive (R576). -/
def State.driveWrites (s : State) : Nat := ((List.range 24).map fun b => s.pair (A.DRV_WRITES b)).sum

/-- Act on every row of a stripe by R394: the state and the number of failing rows. -/
def State.patrolRows (s : State) (g stripe : Nat) (repair : Bool) (bad wbad : List (Nat × Nat)) : State × Nat :=
  match s.extentOf g stripe with
  | none => (s, 0)
  | some (_, x, first) =>
    let (s, n, ms) := (List.range (stripBlocks (s.grp g))).foldl (fun (s, n, ms) k =>
      let (s, f, l) := s.patrolRow g stripe k x first repair bad wbad
      (s, n + ofBool f, l.foldl (fun a m => insertNat m a) ms)) (s, 0, [])
    (s.putFails g ms, n)

/-! ### The rebuild walk (R377 to R384) -/

/-- The targets that the walk serves now: those whose point is the walk's. -/
def State.served_ (s : State) (g : Nat) : List Target :=
  let p := s.walkPoint g
  ((s.targets g).map (·.2)).filter fun t => !t.done && t.point == p

/-- Bytes written to a target within the last 1 s (R383). -/
def State.rateOf (s : State) (g m : Nat) : Nat :=
  ((s.rbd.written.filter fun (k, t, _) => k == g * 32 + m && decide (s.now < t + 1000000000)).map fun x => x.2.2).sum

/-- The walk may write another stripe to its targets (R383): at most CEIL MB/s each, a CEIL below FLOOR acting as FLOOR. A stripe
of more bytes than one second allows waits for as long as it takes at that rate. -/
def State.rateAllows (s : State) (g : Nat) : Bool :=
  let ceil := max (s.fld F.RBD_RATE_CEIL) (s.fld F.RBD_RATE_FLOOR) * 1000000
  let n := stripBlocks (s.grp g) * 4096
  let quiet := fun (m : Nat) => s.rbd.written.all fun x => x.1 != g * 32 + m || decide (x.2.1 + n * 1000000000 / ceil ≤ s.now)
  (s.served_ g).all fun t =>
    decide (s.rateOf g t.member + n ≤ ceil) || (decide (0 < ceil) && decide (ceil < n) && quiet t.member)

/-- The blocks the walk writes to its targets for a row (R381): lost positions get markers; in a row whose losses are all
recorded P and Q stand for them as zero (DEDUCED, assumption 28). -/
def State.targetPuts (s : State) (r : Row) (ms : List Nat) : Puts :=
  let e := r.entry
  let row := (r.stripe * stripBlocks e + r.row) % 2 ^ 32
  let many := decide (2 < r.missingMembers.length)
  let known := (List.range (dataStrips e)).all fun j => (r.known j).isSome || r.lost.contains (r.dataAt j)
  let ds := if many then (if known then some r.withZeros else none) else r.reconstruct (s.unpatrolled r.group r.stripe)
  ms.filterMap fun m =>
    let x := r.expect.getD m ⟨0, 0, 0⟩
    if r.lost.contains m && x.kind == Kind.data then some (m, r.row, markerFor x row r.topGen)
    else if r.isPad m then some (r.blockAt r.topGen m zeroBlock)
    else ds.map fun ds => r.blockAt r.topGen m (r.storedOf ds m)

/-- Rebuild one row for the targets served (R381, R387): the state and the members whose write has failed. -/
def State.rebuildRow (s : State) (g stripe k : Nat) (x : BitVec 256) (first : Nat) (ms : List Nat) (bad wbad : List (Nat × Nat)) :
    State × List Nat :=
  let r := s.readRow g stripe k x first bad
  let s := s.noteRow r bad (List.range (grpMembers r.entry)) true
  if s.lossFresh r then
    let target := fun (m : Nat) => ms.contains m
    let rest := (s.targetPuts r ms).filter fun y => r.isPad y.1
    (((s.recordLoss r target wbad).putAll g stripe rest wbad), failedOf rest wbad ++ s.lossFails r target wbad)
  else
    let back := if 2 < r.missingMembers.length then [] else s.backOf r
    let puts := s.targetPuts r ms ++ back
    ((s.putAll g stripe puts wbad).bump A.RBD_READ_REPAIRS back.length, failedOf puts wbad)

/-- Rebuild every row of a stripe for the targets served: the state and the members whose write has failed. -/
def State.rebuildRows (s : State) (g p : Nat) (x : BitVec 256) (first : Nat) (ms : List Nat) (bad wbad : List (Nat × Nat)) :
    State × List Nat :=
  (List.range (stripBlocks (s.grp g))).foldl (fun (s, fs) k =>
    let (s, l) := s.rebuildRow g p k x first ms bad wbad
    (s, l.foldl (fun a m => insertNat m a) fs)) (s, [])

/-- A target after its walk has finished stripe p (R377). -/
def Target.pass (t : Target) (p stripes : Nat) : Target :=
  if p + 1 = stripes then
    if t.start = 0 then { t with point := 0, wrapped := true, done := true } else { t with point := 0, wrapped := true }
  else if t.wrapped ∧ p + 1 = t.start then { t with point := p + 1, done := true }
  else { t with point := p + 1 }

/-- The walk has finished stripe p for the members served (R378). -/
def State.walkOn (s : State) (g p : Nat) (ms : List Nat) : State :=
  let n := getPart (s.grp g) Grp.stripes
  s.each (s.targets g) fun s (i, t) =>
    if ms.contains t.member then s.onRbd fun r => { r with targets := Tab.set (g * 2 + i) (t.pass p n) r.targets } else s

/-- The walk of a group can take its next stripe. -/
def State.walkReady (s : State) (g : Nat) : Bool :=
  let p := s.walkPoint g
  decide (g < 8) && s.grpOn g && s.walksGroup g && !s.isFenced && decide (s.served_ g ≠ []) &&
    decide (p < getPart (s.grp g) Grp.stripes) && s.stripeIdle g p && s.rateAllows g

/-- REBUILD_STRIPE: the walk rebuilds the stripe at its point for each target served (R379 to R383, R400). `bad` lists the
(member, row) whose read fails, `wbad` those whose write fails. -/
def State.rebuildStripe (s : State) (g : Nat) (bad wbad : List (Nat × Nat)) : State :=
  if s.walkReady g ∧ !s.draining then
    let p := s.walkPoint g
    let ms := (s.served_ g).map (·.member)
    match s.extentOf g p with
    | none => (s.walkOn g p ms).rebuildEnd g
    | some (_, x, first) =>
      if s.disputed g p then (s.walkOn g p ms).rebuildEnd g
      else
        let b := stripBlocks (s.grp g)
        let (s, fs) := s.rebuildRows g p x first ms bad wbad
        let now := s.now
        let wrote := ms.map fun m => (g * 32 + m, now, b * 4096)
        let s := s.onRbd fun r => { r with
          written := (r.written.filter fun x => decide (now < x.2.1 + 2000000000)) ++ wrote }
        (((s.bump A.RBD_REBUILT_STRIPES).walkOn g p ms).putFails g fs).rebuildEnd g
  else s

/-- REBUILD_RECORD (R384): every 1 s. -/
def State.rebuildRecord (s : State) : State := s.every Tick.rebuildRecord 1000000000 fun s => s.saveTargets

/-! ### Group metadata (R402) -/

/-- The three ACTIVE members of lowest number, by bay (R402). -/
def State.metaBays (s : State) (g : Nat) : List Nat :=
  let e := s.grp g
  (((List.range (grpMembers e)).filter fun m => memberOf e m == 0).take 3).map (bayOf e)

/-- The copy of R402 among copies by rising member number, and whether rule 3 chose it. -/
def firstCopy (l : List (Nat × List Byte)) : Option ((Nat × List Byte) × Bool) :=
  let top := l.foldl (fun a x => max a x.1) 0
  let cs := l.filter fun x => x.1 == top
  match cs with
  | [] => none
  | [c] => some (c, false)
  | c :: _ =>
    match cs.find? fun x => decide (2 ≤ (cs.filter fun y => decide (y.2 = x.2)).length) with
    | some x => some (x, false)
    | none => some (c, true)

/-- Choose among copies by R402: rule 3 sets META_MISMATCH and is recorded. -/
def State.chooseCopy (s : State) (g : Nat) (l : List (Nat × List Byte)) : Option (Nat × List Byte) × State :=
  match firstCopy l with
  | none => (none, s)
  | some (c, third) =>
    (some c, s.when third fun s => (s.flag F.RBD_STATUS_META_MISMATCH).tallyFlag .integrity F.RBD_STATUS_META_MISMATCH g
      (integrityArgs 0 0xFF 0 0 c.1))

/-- Compare the copies that a group's members of R402 hold of a block kept there, and rewrite those that did not come first. -/
def State.compareCopies (s : State) (g : Nat) (repair : Bool) (get : Drive → Option (Nat × List Byte))
    (put : (Nat × List Byte) → Drive → Drive) : State :=
  let bays := s.metaBays g
  let copy := fun (b : Nat) => (Tab.find? b s.drives).bind get
  match s.chooseCopy g (bays.filterMap copy) with
  | (none, s) => s
  | (some c, s) =>
    if repair then
      s.each (bays.filter fun b => decide (copy b ≠ some c)) fun s b => (s.modDrive b (put c)).bump (A.DRV_WRITES b)
    else s

/-- The patrol compares the three copies of a group's metadata, the reshape record of block 16,383 with them (R402, R411). -/
def State.metaCompare (s : State) (g : Nat) (repair : Bool) : State :=
  let s := s.each (s.metaBays g) fun s b => s.quickRead b
  let s := s.compareCopies g repair (·.meta_) fun c d => { d with meta_ := some c }
  s.compareCopies g repair (·.reshape) fun c d => { d with reshape := some c }

/-! ### The patrol (R393 to R397) -/

/-- An extended self-test runs. -/
def State.extTest (s : State) : Bool := match s.mgt.test with | some t => t.kind == 2 | none => false

/-- RBD_PATROL.PAUSED (R395). -/
def State.patrolPaused (s : State) (g : Nat) : Bool :=
  decide (s.targets g ≠ []) || (s.extTest && (s.patrol g).ext.isNone)

/-- The periodic patrol walks a group (R393). -/
def State.patrolDue (s : State) (g : Nat) : Bool :=
  s.is F.RBD_CTRL_PATROL_EN && (s.groupState g == 1 || s.groupState g == 2)

/-- Days of a patrol cycle (Table 09-7). -/
def State.patrolDays (s : State) : Nat := min 60 (max 1 (s.fld F.RBD_CTRL_PATROL_DAYS))

/-- A group's unpaced patrol ends: the periodic patrol it interrupted resumes from its point (R397). -/
def Patrol.unpacedEnd (p : Patrol) : Patrol :=
  match p.kept with
  | some (point, began, late) => { patrolDefault with kind := .periodic, point := point, began := began, late := late, ext := p.ext }
  | none => { patrolDefault with ext := p.ext }

/-- The unpaced patrol of every group ends once it has passed every group that is enabled (R397). -/
def State.unpacedDone (s : State) : State :=
  let mine := fun (x : Nat × Patrol) => x.2.every && decide (x.2.kind = .unpaced)
  if s.rbd.patrols.all fun x => !mine x || x.2.passed || !s.grpOn x.1 then
    s.onRbd fun r => { r with patrols := r.patrols.map fun x => if mine x then (x.1, x.2.unpacedEnd) else x }
  else s

/-- A patrol has passed its last stripe (R393, R397). -/
def State.patrolEnd (s : State) (g : Nat) (p : Patrol) : State :=
  let s := s.flag F.RBD_STATUS_PATROL_DONE
  match p.kind with
  | .periodic => (s.metaCompare g (s.is F.RBD_CTRL_PATROL_REPAIR)).setPatrol g
      { p with point := 0, began := s.now, late := false, postReplay := false }
  | _ =>
    if p.every then (s.setPatrol g { p with point := getPart (s.grp g) Grp.stripes, postReplay := false, passed := true }).unpacedDone
    else s.setPatrol g p.unpacedEnd

/-- The patrol of a kind takes the stripe at its point. -/
def State.patrolAt (s : State) (g : Nat) (p : Patrol) (bad wbad : List (Nat × Nat)) : State :=
  let n := getPart (s.grp g) Grp.stripes
  if n ≤ p.point then s.patrolEnd g p
  else if s.stripeIdle g p.point then
    let s := ((s.patrolRows g p.point (s.is F.RBD_CTRL_PATROL_REPAIR) bad wbad).1).bump A.RBD_PATROL_STRIPES
    if p.point + 1 = n then s.patrolEnd g p else s.setPatrol g { p with point := p.point + 1 }
  else s

/-- The extended self-test takes the stripe at its point in a group (R396): each row found is a failing item of area
0x20 + g (R716). -/
def State.extAt (s : State) (g a : Nat) (bad wbad : List (Nat × Nat)) : State :=
  let n := getPart (s.grp g) Grp.stripes
  if s.stripeIdle g a then
    let (s, k) := s.patrolRows g a (s.is F.RBD_CTRL_PATROL_REPAIR) bad wbad
    let s := (s.bump A.RBD_PATROL_STRIPES).setPatrol g { s.patrol g with ext := if a + 1 < n then some (a + 1) else none }
    let add := fun (t : SelfTest) => { t with done := t.done + 1, found := t.found ++ List.replicate k (0x20 + g, g) }
    { s with mgt := { s.mgt with test := s.mgt.test.map add } }
  else s

/-- PATROL_STRIPE: the patrol of a group takes its next stripe, or starts a cycle (R393 to R397). -/
def State.patrolStripe (s : State) (g : Nat) (bad wbad : List (Nat × Nat)) : State :=
  if g < 8 ∧ s.grpOn g ∧ s.walksGroup g ∧ !s.isFenced ∧ !s.draining ∧ !s.patrolPaused g then
    let p := s.patrol g
    match p.ext, p.kind with
    | some a, _ => s.extAt g a bad wbad
    | none, .unpaced => if p.passed then s.unpacedDone else s.patrolAt g p bad wbad
    | none, .periodic => if s.patrolDue g then s.patrolAt g p bad wbad else s
    | none, .idle =>
      if s.patrolDue g then s.patrolAt g { p with kind := .periodic, began := s.now } bad wbad else s
  else s

/-- PATROL_LATE (R393). -/
def State.patrolLate (s : State) (g : Nat) : State :=
  let p := s.patrol g
  if p.kind = .periodic ∧ !p.late ∧ p.began + s.patrolDays * day ≤ s.now then
    (s.setPatrol g { p with late := true }).flag F.RBD_STATUS_PATROL_LATE
  else s

/-- RBD_CMD PATROL_START (Table 09-11): what R373 says of stripes a post-replay patrol has yet to pass stays. -/
def State.patrolStart (s : State) (g : Nat) : State :=
  let p := s.patrol g
  if s.grpOn g then
    s.setPatrol g { p with kind := .unpaced, point := 0, began := s.now, late := false, every := p.every && !p.passed, passed := false, kept := p.toKeep }
  else s

/-- RBD_CMD PATROL_STOP (Table 09-11): every group's patrol stops; the periodic patrol starts a new cycle while PATROL_EN
is 1 (R393). -/
def State.patrolStop (s : State) : State :=
  s.onRbd fun r => { r with patrols := r.patrols.map fun (g, p) => (g, { p with
    kind := .idle, point := 0, late := false, every := false, passed := false, kept := none }) }

/-! ### RESOLVE (R401) -/

/-- RBD_CMD RESOLVE: the stripe write joins those that wait. -/
def State.resolve (s : State) : State :=
  let g := s.fld F.RBD_LOST_SEL_GROUP
  let e := Tab.getD (g * 4096 + s.fld F.RBD_LOST_SEL_INDEX) 0 s.attic.lost
  let stripe := getPart e Lost.stripe
  if lostValid e ∧ lostDisputed e then
    match s.extentOf g stripe with
    | none => s
    | some (_, x, first) =>
      let en := s.grp g
      let lba := getPart x Ext.extent * 1048576 + (stripe - first) * stripeBlocks en
      let v := validData en first stripe
      (s.queueWrites [stripeWrite .resolve g stripe (getPart x Ext.volume % 4096) lba 0 v v 2 0 true none]).2
  else s

/-! ### The reshape (R403 to R413) -/

/-- A RESHAPE_START is refused (R403). -/
def State.reshapeRefuse (s : State) : State := s.flag F.RBD_STATUS_RESHAPE_HELD

/-- SEQ of the reshape record that R402 chooses on the members of two groups, 0 with none (R411). -/
def State.recordSeq (s : State) (a b : Nat) : Nat × State :=
  let l := ((s.metaBays a ++ s.metaBays b).eraseDups).filterMap fun x => (Tab.find? x s.drives).bind (·.reshape)
  let (c, s) := s.chooseCopy a l
  ((c.map (·.1)).getD 0, s)

/-- RBD_CMD RESHAPE_START (R403, R412, R413). -/
def State.reshapeStart (s : State) : State :=
  let i := s.fld F.RBD_RESHAPE_CFG_EXTENT
  let g := s.fld F.RBD_RESHAPE_CFG_GROUP
  let mode := s.fld F.RBD_RESHAPE_CFG_MODE
  let f := s.pair A.RBD_RESHAPE_DST % 2 ^ 48
  let x := s.ext i
  let v := getPart x Ext.volume % 4096
  let dstBad := !s.grpOn g || s.groupState g == 4
  let modeBad := !(mode == 1 || mode == 2) || (mode == 2 && !s.volAttr v 4)
  match s.rbd.reshape with
  | some r =>
    if r.state = .held ∧ r.entry = i ∧ r.dstGroup = g ∧ r.dstFirst = f ∧ r.mode = mode ∧ !dstBad then
      s.onRbd fun b => { b with reshape := some { r with state := if 1048576 ≤ r.copied then .switching else .copying, step := .idle } }
    else s.reshapeRefuse
  | none =>
    let fresh : Reshape := { state := .copying, entry := i, dstGroup := g, dstFirst := f, mode := mode, copied := 0
                             seq := 0, step := .idle, waits := s.holders i, stopping := false }
    if dstBad ∨ modeBad then s.reshapeRefuse
    else if getPart x Ext.state = Exts.mapped then
      let (seq, s) := s.recordSeq (getPart x Ext.group % 8) g
      let fresh := { fresh with seq := seq }
      let y := putPart (putPart (putPart (putPart x Ext.state Exts.moving) Ext.altGroup g) Ext.altFirst f) Ext.boundary 0
      (s.setExt i y).onRbd fun b => { b with reshape := some fresh }
    else if getPart x Ext.state = Exts.moving ∧ mode = 2 ∧ getPart x Ext.altGroup % 8 = g ∧ getPart x Ext.altFirst = f then
      let (seq, s) := s.recordSeq (getPart x Ext.group % 8) g
      let n := getPart x Ext.boundary
      s.onRbd fun b => { b with reshape := some { fresh with
        seq := seq, copied := n, state := if 1048576 ≤ n then .switching else .copying } }
    else s.reshapeRefuse

/-- RBD_CMD RESHAPE_ABORT (R408): not in moving boundary. -/
def State.reshapeAbort (s : State) : State :=
  match s.rbd.reshape with
  | none => s
  | some r =>
    if r.mode ≠ 1 then s
    else
      let mine := fun (w : StripeWrite) => decide (w.owner = .reshape)
      let s := s.each ((s.str.waiting ++ s.str.live.filter s.isFilling).filter mine) fun s w => s.freeWrite w
      let s := s.setExt r.entry (putPart (s.ext r.entry) Ext.state Exts.mapped)
      (s.onRbd fun b => { b with reshape := none }).flag F.RBD_STATUS_RESHAPE_DONE

/-- Blocks of the current step. -/
def State.stepCount (s : State) (r : Reshape) : Nat := min (stripeBlocks (s.grp r.dstGroup)) (1048576 - r.copied)

/-- Commands that hold a translation of a block of the current step (R410). -/
def State.stepHolders (s : State) (r : Reshape) : List Nat :=
  let c := s.stepCount r
  (s.cq.slots.filter fun x => s.holdsEntry r.entry x.2 && (List.range x.2.blockCount).any fun k =>
    s.entryOf x.2.volume (x.2.lba + k) == r.entry && decide (r.copied ≤ (x.2.lba + k) % 1048576) &&
      decide ((x.2.lba + k) % 1048576 < r.copied + c)).map fun x => x.2.order

/-- No intent is live on the step's destination stripe or on a source stripe (R405). -/
def State.stepClear (s : State) (r : Reshape) : Bool :=
  let c := s.stepCount r
  let dst := r.dstFirst + r.copied / stripeBlocks (s.grp r.dstGroup)
  (s.liveIntent r.dstGroup dst).isNone && (List.range c).all fun k =>
    let p := s.placeAt r.entry (s.ext r.entry) false (r.copied + k)
    (s.liveIntent p.group p.stripe).isNone && s.groupReady p.group

/-- Set the reshape. -/
def State.setReshape (s : State) (r : Reshape) : State := s.onRbd fun b => { b with reshape := some r }

/-- The step's stripe write joins those that wait (R405). -/
def State.stepWrite (s : State) (r : Reshape) : State :=
  let x := s.ext r.entry
  let c := s.stepCount r
  let stripe := r.dstFirst + r.copied / stripeBlocks (s.grp r.dstGroup)
  let w := stripeWrite .reshape r.dstGroup stripe (getPart x Ext.volume % 4096) (getPart x Ext.extent * 1048576 + r.copied)
    0 c c 1 0 true none
  ((s.queueWrites [w]).2).setReshape { r with step := .writing, waits := [] }

/-- The 40 bytes of the reshape record (Table 09-5). -/
def State.reshapeRecord (s : State) (r : Reshape) (boundary seq : Nat) : List Byte :=
  let x := s.ext r.entry
  [0x4B, 0x52, 0x53, 0x48] ++ leBytes 8 s.attic.journalId ++ leBytes 3 r.entry ++ leBytes 1 r.mode ++
    leBytes 1 (getPart x Ext.group % 8) ++ leBytes 1 r.dstGroup ++ leBytes 6 r.dstFirst ++ leBytes 4 boundary ++
    leBytes 6 seq ++ leBytes 6 (getPart x Ext.firstStripe)

/-- A moving-boundary step records and commits the new BOUNDARY (R410, R411). -/
def State.boundaryCommit (s : State) (r : Reshape) (n : Nat) : State :=
  let x := s.ext r.entry
  let seq := r.seq + 1
  let rec_ := padTo 4096 (s.reshapeRecord r n seq)
  let bays := (s.metaBays (getPart x Ext.group % 8) ++ s.metaBays r.dstGroup).eraseDups
  let s := s.each bays fun s b => (s.modDrive b fun d => { d with reshape := some (seq, rec_) }).bump (A.DRV_WRITES b)
  (s.setExt r.entry (putPart x Ext.boundary n)).setReshape { r with seq := seq }

/-- The step has been written: on to the next, or to the switch (R405, R408, R410). -/
def State.stepDone (s : State) (r : Reshape) : State :=
  let c := s.stepCount r
  let n := r.copied + c
  let s := s.bump A.RBD_MOVED_BLOCKS c
  let s := s.when (r.mode == 2) fun s => s.boundaryCommit r n
  let seq := match s.rbd.reshape with | some q => q.seq | none => r.seq
  let s := if n < 1048576 then s.setReshape { r with copied := n, step := .idle, waits := [], seq := seq }
    else s.setReshape { r with state := .switching, copied := n, step := .idle, waits := s.holders r.entry, seq := seq }
  s.when r.stopping fun s => s.reshapeHold

/-- The switch (R408): the entry is MAPPED at the destination. -/
def State.reshapeSwitch (s : State) (r : Reshape) : State :=
  if s.stillHold r.entry r.waits then s
  else
    let x := s.ext r.entry
    let y := putPart (putPart (putPart x Ext.state Exts.mapped) Ext.group (getPart x Ext.altGroup)) Ext.firstStripe
      (getPart x Ext.altFirst)
    ((s.setExt r.entry y).onRbd fun b => { b with reshape := none }).flag F.RBD_STATUS_RESHAPE_DONE

/-- The next step begins, or the reshape is held (R405, R410, R413). -/
def State.stepBegin (s : State) (r : Reshape) : State :=
  if s.groupState r.dstGroup = 4 ∨ s.groupState (getPart (s.ext r.entry) Ext.group % 8) = 4 ∨ s.genOut r.dstGroup then
    s.reshapeHold
  else if s.stillHold r.entry r.waits then s
  else if r.mode = 2 ∧ r.step = .idle then
    let hs := s.stepHolders r
    if hs = [] ∧ s.stepClear r then s.stepWrite r else s.setReshape { r with step := .waiting, waits := hs }
  else if s.stepClear r then s.stepWrite r
  else s

/-- RESHAPE_STEP: the reshape goes on as far as it can now (R405 to R413). -/
def State.reshapeStep (s : State) : State :=
  match s.rbd.reshape with
  | none => s
  | some r =>
    if s.isFenced then s
    else match r.state, r.step with
      | .switching, _ => s.reshapeSwitch r
      | .copying, .written => s.stepDone r
      | .copying, .writing => s
      | .copying, .idle => if s.draining then s else s.stepBegin r
      | .copying, _ => s.stepBegin r
      | _, _ => s

end Sys2Proof.Machine
end

