-- ==== Sys2Proof/Machine/PeerLink.lean ====
section
/-!
DEFINITION. The peer link, the sideband, mirroring, handover, arbitration and takeover (17_peer_and_takeover.md R630 to
R665).
-/

namespace Sys2Proof.Machine

/-- The peer agent runs: PEER_CTRL.EN in a part that is up (Table 17-6, R639). -/
def State.peerOn (s : State) : Bool := s.up && s.is F.PEER_CTRL_EN

/-- A peer loss time, 20 ms (R641). -/
def lossTime : Nat := 20000000

/-! ### Frames (Tables 17-1 and 17-3) -/

/-- A peer link frame as bytes (Table 17-1): header, payload, CRC-32C. -/
def State.peerFrame (s : State) (f : PeerFrame) : List Byte :=
  let h := beBytes 1 1 ++ beBytes 1 f.kind ++ beBytes 1 s.side ++ beBytes 1 0 ++ beBytes 4 f.seq ++ beBytes 4 s.peer.rxSeq ++
    beBytes 4 f.payload.length
  h ++ f.payload ++ beBytes 4 (crc32c (h ++ f.payload)).toNat

/-- FLAGS of this side's heartbeats (Table 17-3); the link is up while a lane group is (R636). -/
def State.beatFlags (s : State) : Nat :=
  s.side + 2 * ofBool (decide (s.peer.groups ≠ 0)) + 4 * ofBool s.isFenced + 8 * ofBool (decide (s.wdn.mode = .halted)) +
    16 * ofBool s.peer.yield_ + 32 * ofBool (decide (s.peer.state = .arbitrating)) +
    64 * ofBool (s.is F.HST_STATUS_CELLAR_CRITICAL) + 128 * ofBool s.asleep

/-- This side's READY mask (Table 17-3). -/
def State.readyMask (s : State) : Nat := ((List.range 24).filter s.portReady).foldl (fun a n => a + 2 ^ n) 0

/-- Bytes 0 to 7 of a sideband frame (Table 17-3). -/
def State.beatBytes (s : State) (kind seq : Nat) : List Byte :=
  beBytes 1 kind ++ beBytes 1 s.beatFlags ++ beBytes 1 s.peer.own ++ beBytes 1 seq ++ beBytes 3 s.readyMask ++ beBytes 1 0

/-- Send a sideband frame (R639): CHECK is sent most significant byte first. -/
def State.sideSend (s : State) (kind : Nat) : State :=
  let b := s.beatBytes kind s.peer.sideSeq
  s.onPeer fun p => { p with
    lastSide := b ++ beBytes 2 (crc16 b).toNat
    sideSeq := (p.sideSeq + 1) % 256 }

/-- SIDEBAND_HEARTBEAT_SEND (R639): every 1 ms, in every power mode. A link that is up carries a HEARTBEAT at the same time
(DEDUCED, assumption 29). -/
def State.heartbeat (s : State) : State :=
  if s.peerOn then
    s.every Tick.heartbeat 1000000 fun s =>
      let b := s.beatBytes 1 s.peer.sideSeq
      let s := s.sideSend 1
      s.when (decide (s.peer.groups ≠ 0) && !s.asleep) fun s => s.peerSend Pm.heartbeat (b ++ beBytes 8 s.now)
  else s

/-- PEER_RETRANSMIT (R637): frames not covered within 50 us go out again, in order. -/
def State.peerRetransmit (s : State) : State :=
  if s.peerOn ∧ s.peer.groups ≠ 0 ∧ !s.asleep then
    let late := fun (f : PeerFrame) => decide (f.sentAt + 50000 ≤ s.now)
    let n := (s.peer.unacked.filter late).length
    let again := fun (f : PeerFrame) => if late f then { f with sentAt := s.now } else f
    (s.onPeer fun p => { p with unacked := p.unacked.map again }).bump A.PEER_RETRANSMITS n
  else s

/-! ### Joining and mirroring (R642 to R651) -/

/-- Slots of 4,352 B of the peer mirror region (R645). -/
def State.mirrorSlots (s : State) : Nat := s.regionSize 8 / 4352

/-- A side enters JOINING: it clears its own copy state and sends MIRROR_START with its credit (R645, R650). -/
def State.enterJoining (s : State) : State :=
  let s := (s.peerEnter .joining).onPeer fun p => { p with startSent := true, startGot := false, copying := [] }
  s.peerSend Pm.mirrorStart (beBytes 4 (min 114688 s.mirrorSlots))

/-- MIRROR_START has run both ways and every copy is acknowledged: MIRRORED (R650). -/
def State.joinedNow (s : State) : State :=
  let p := s.peer
  if p.state = .joining ∧ p.startSent ∧ p.startGot ∧ p.copying = [] then s.peerEnter .mirrored else s

/-- The number of block slots of an intent's buffer at the peer (R335): none for FUA and before READY. -/
def State.mirrorSize (s : State) (i : BitVec 256) : Nat :=
  let b := stripBlocks (s.grp (getPart i Intent.group % 8))
  let r0 := getPart i Intent.dataFirst
  let c := getPart i Intent.dataCount
  if (getPart i Intent.flags).testBit 0 ∨ getPart i Intent.state < 2 then 0
  else if getPart i Intent.mode = 2 then c + 2 * (touchedRows b r0 c).length
  else grpMembers (s.grp (getPart i Intent.group % 8)) * b

/-- Member and row of the blocks of an intent's buffer, in buffer order (R327). -/
def State.intentPlaces (s : State) (i : BitVec 256) : List (Nat × Nat) :=
  let e := s.grp (getPart i Intent.group % 8)
  let b := stripBlocks e
  let stripe := getPart i Intent.stripe
  let r0 := getPart i Intent.dataFirst
  let c := getPart i Intent.dataCount
  let full := getPart i Intent.mode ≠ 2
  let ps := if full then List.range (stripeBlocks e) else (List.range c).map (r0 + ·)
  let rows := if full then List.range b else touchedRows b r0 c
  (ps.map fun r => (dataMember e stripe (r / b), r % b)) ++ (rows.map fun k => (pMember e stripe, k)) ++
    rows.map fun k => (qMember e stripe, k)

/-- The lowest free run of n slots of the peer mirror region (DESIGN CHOICE, assumption 20). -/
def State.findMirror (s : State) (n : Nat) : Option Nat :=
  let free := fun (a : Nat) => s.peer.mirror.all fun (_, (f, k, _)) => decide (a + n ≤ f) || decide (f + k ≤ a)
  let starts := s.peer.mirror.foldl (fun l (_, (f, k, _)) => insertNat (f + k) l) [0]
  starts.find? fun a => free a && decide (a + n ≤ s.mirrorSlots)

/-- Cellar address of a peer mirror slot. -/
def State.mirrorAddr (s : State) (i : Nat) : Nat := s.regionBase 8 + 4352 * i

/-- Intent and whole buffer are held: acknowledge (R644). -/
def State.mirrorHeld (s : State) (i : Nat) : State :=
  match Tab.find? i s.peer.mirror with
  | some (_, n, got) => if n ≤ got then s.peerSend Pm.mirrorAck (beBytes 4 i) else s
  | none => s.peerSend Pm.mirrorAck (beBytes 4 i)

/-- MIRROR_INTENT: the record goes into the Attic, and slots of the region are set aside for its buffer (R644). -/
def State.gotIntent (s : State) (i : Nat) (rec_ : BitVec 256) : State :=
  let n := s.mirrorSize rec_
  let s := s.onAttic fun a => { a with peerIntents := Tab.set i rec_ a.peerIntents }
  let s := s.onPeer fun p => { p with mirror := Tab.erase i p.mirror }
  if n = 0 then s.mirrorHeld i
  else match s.findMirror n with
    | some a => s.onPeer fun p => { p with mirror := Tab.set i (a, n, 0) p.mirror }
    | none => s

/-- MIRROR_BLOCKS: whole slots of 4,112 B go into the peer mirror region (R644); slots behind the buffer that the intent
describes hold loss markers and are taken as far as the run set aside goes. Where a cell of theirs would be acknowledged FAILED the
transfer is refused: the peer is not answered (R647). -/
def State.gotBlocks (s : State) (i first : Nat) (body : List Byte) : State :=
  match Tab.find? i s.peer.mirror with
  | none => s
  | some (a, n, got) =>
    let k := min (body.length / 4112) (n - first)
    if s.rangeFailed (s.mirrorAddr (a + first)) (4352 * k) then s
    else
      let s := s.each (List.range k) fun s j =>
        s.cellarWrite 37 (s.mirrorAddr (a + first + j)) (slice body (4112 * j) 4112 ++ List.replicate 240 0)
      (s.onPeer fun p => { p with mirror := Tab.set i (a, n, max got (first + k)) p.mirror }).mirrorHeld i

/-- MIRROR_ACK: the intent is MIRRORED, and condition 3 of R332 is met (R644). -/
def State.gotAck (s : State) (i : Nat) : State :=
  match s.str.live.find? fun w => w.intent == some i with
  | none => s
  | some w =>
    let e := s.intent i
    let f := getPart e Intent.flags
    let s := s.setIntent i (putPart e Intent.flags (if f.testBit 1 then f else f + 2))
    let s := s.modLive w.name fun w => { w with mirrorWait := false, mirrored := true }
    let s := s.onPeer fun p => { p with copying := p.copying.filter fun n => n != w.name }
    match s.live? w.name with
    | some w => (s.when (s.durable w) fun s => s.writeMet w).joinedNow
    | none => s.joinedNow

/-- COMPLETED: the flag of the peer's mirrored intent (R334). -/
def State.gotCompleted (s : State) (i : Nat) : State :=
  s.onAttic fun a => match Tab.find? i a.peerIntents with
    | some e =>
      let f := getPart e Intent.flags
      { a with peerIntents := Tab.set i (putPart e Intent.flags (if f.testBit 2 then f else f + 4)) a.peerIntents }
    | none => a

/-- RETIRE: the copy is freed (R335, R645). -/
def State.gotRetire (s : State) (i : Nat) : State :=
  (s.onAttic fun a => { a with peerIntents := Tab.erase i a.peerIntents }).onPeer fun p => { p with mirror := Tab.erase i p.mirror }

/-- MIRROR_START: the peer mirror is cleared, and with it the lost-range entries that the peer now sends again; credit is granted,
and every live intent with its buffer, the clock marks and the lost-range entries go to the peer (R645, R650). -/
def State.gotStart (s : State) (credit : Nat) : State :=
  if s.peer.state = .joining then
    let ws := s.str.live.filter fun w => w.intent.isSome
    let s := s.onAttic fun a => { a with peerIntents := [], peerLost := [] }
    let s := s.onPeer fun p => { p with
      mirror := [], credit := credit, creditWait := [], startGot := true, mirrorHeld := true, mirrorEnd := none, copying := ws.map (·.name), retriedMirror := [], told := [] }
    let s := s.each ws fun s w =>
      (s.modLive w.name fun w => { w with mirrored := false }).mirrorWrite { w with mirrored := false }
    let s := s.each s.attic.clockMarks fun s (g, m) => s.tellClock g m
    let s := s.each s.attic.lost fun s (k, e) => s.when (lostValid e) fun s => s.tellLost (k / 4096) (k % 4096) e
    s.joinedNow
  else s

/-- JOIN: the peer's journal id is taken, and a side in SOLO answers and enters JOINING (R642). -/
def State.joinBytes (s : State) : List Byte :=
  beBytes 8 s.attic.journalId ++ beBytes 8 s.wdn.fwSerial ++ beBytes 8 s.residentSerial

/-- JOIN has arrived (Table 17-4). -/
def State.gotJoin (s : State) (id : Nat) : State :=
  let s := s.onPeer fun p => { p with journalId := id }
  if s.peer.state = .solo then (s.peerSend Pm.join s.joinBytes).enterJoining else s

/-- MIRROR_FAIL (R647): a failed transfer is tried once more; failing again, the stripe write completes by R333. -/
def State.mirrorFail (s : State) (n : Nat) : State :=
  match s.live? n with
  | none => s
  | some w =>
    if !w.mirrorWait then s
    else if s.peer.retriedMirror.contains n then
      (s.mirrorLost w).joinedNow
    else ((s.onPeer fun p => { p with retriedMirror := p.retriedMirror ++ [n] }).mirrorWrite w).joinedNow

/-- MIRROR_WAIT_EXPIRY (R651): 20 ms after the link was lost, writes that wait for a MIRROR_ACK complete by R333. -/
def State.mirrorExpiry (s : State) : State :=
  let due : Bool := match s.peer.linkAt with | some t => decide (t + 2 * lossTime ≤ s.now) | none => true
  if s.peer.state ≠ .mirrored ∧ s.peer.linkLost ∧ due then
    s.onStr fun x => { x with live := x.live.map fun w => { w with mirrorWait := false } }
  else s

/-! ### Handover (R652, R653) -/

/-- A change of peer state: leaving MIRRORED abandons a handover given, and SOLO with SOLO_WB lets writes complete as in a
single-controller shelf (R643, R653). -/
def State.peerGo (s : State) (st : PeerState) : State :=
  let s := s.when (decide (s.peer.state = .mirrored) && decide (st ≠ .mirrored)) fun s => s.handoverAbort
  let s := s.peerEnter st
  if st = .solo then s.each s.str.live fun s w => s.when (s.durable w) fun s => s.writeMet w else s

/-- PEER_CMD HANDOVER_GIVE (R652): accepted only in MIRRORED, for owned groups. -/
def State.handoverGive (s : State) (mask : Nat) : State :=
  if s.peer.state = .mirrored ∧ s.peer.giving = none ∧ mask ≠ 0 ∧ mask &&& s.peer.own = mask then
    let vs := s.volsOf mask
    let cs := (s.cq.slots.filter fun x => x.2.alive && x.2.onVolume && vs.contains x.2.volume).map fun x => x.2.order
    (s.setOwner mask 1 true).onPeer fun p => { p with giving := some { groups := mask, ckpt := false, offered := false, slots := cs } }
  else s

/-- A group's part of HANDOVER_OFFER: clock, two target records and patrol point (R652; the layout is DESIGN CHOICE,
assumption 30). -/
def State.offerGroup (s : State) (g : Nat) : List Byte :=
  let ts := (s.targets g).map (·.2)
  let one := fun (i : Nat) => match ts[i]? with
    | some t => beBytes 1 (t.member + 32 + 64 * ofBool t.wrapped + 128 * ofBool t.done) ++ beBytes 6 t.start ++ beBytes 6 t.point
    | none => beBytes 13 0
  beBytes 6 (s.clock g) ++ one 0 ++ one 1 ++ beBytes 6 (s.patrol g).point

/-- HANDOVER_OFFER (Table 17-2). -/
def State.offerBytes (s : State) (mask : Nat) : List Byte :=
  beBytes 1 mask ++ ((List.range 8).filter mask.testBit).flatMap s.offerGroup

/-- HANDOVER_QUIESCED (R652): earlier commands past their completion points and every intent of the groups destaged; first
the checkpoint, then the offer. -/
def State.handoverQuiesced (s : State) : State :=
  match s.peer.giving with
  | none => s
  | some h =>
    let busy := h.slots.any fun c => match s.cmd? c with | some (_, x) => x.alive | none => false
    let live := (s.str.live ++ s.str.waiting).any fun w => h.groups.testBit w.group
    if busy ∨ live ∨ h.offered then s
    else if !h.ckpt then (s.onPeer fun p => { p with giving := some { h with ckpt := true } }).ckptStart false
    else if s.str.ckpt.isSome || s.str.ckptDue then s
    else (s.peerSend Pm.offer (s.offerBytes h.groups)).onPeer fun p => { p with giving := some { h with offered := true } }

/-- The lost-range entries of the groups of a mask, which their owner keeps (R630), pass from the table of one side's groups to that
of the other's (DEDUCED, assumption 155). -/
def lostMoves (mask : Nat) (source dest : Tab LostEntry) : Tab LostEntry × Tab LostEntry :=
  let mine := fun (k : Nat) => mask.testBit (k / 4096)
  (source.filter fun x => !mine x.1,
    (source.filter fun x => mine x.1).foldl (fun t x => Tab.set x.1 x.2 t) (dest.filter fun x => !mine x.1))

/-- This side gives groups up: their lost ranges stay as the copy of the peer's (R630, R646). -/
def State.lostGiven (s : State) (mask : Nat) : State :=
  s.onAttic fun a => let (l, p) := lostMoves mask a.lost a.peerLost; { a with lost := l, peerLost := p }

/-- This side takes groups: the copies of their lost ranges that LOST_RANGE brought are its own now (R630, R646). -/
def State.lostTaken (s : State) (mask : Nat) : State :=
  s.onAttic fun a => let (p, l) := lostMoves mask a.peerLost a.lost; { a with lost := l, peerLost := p }

/-- HANDOVER_ACCEPT (R652): ownership is given up, and the commands that wait complete with PEER/NOT_OWNER. -/
def State.gotAccept (s : State) (mask : Nat) : State :=
  match s.peer.giving with
  | some h =>
    if h.offered ∧ mask = h.groups then
      let cs := s.handoverCmds mask
      let s := ((s.setOwner mask 0 false).setOwner mask 1 false).onPeer fun p => { p with giving := none, own := p.own - (p.own &&& mask) }
      ((s.lostGiven mask).peerSend Pm.handoverDone (beBytes 1 mask)).each cs fun s c => s.stopWith c St.notOwner
    else s
  | none => s

/-- Install a target record of an offer. -/
def offerTarget (l : List Byte) : Option Target :=
  let b := beAt l 0 1
  if b.testBit 5 then
    some { member := b % 32, start := beAt l 1 6, point := beAt l 7 6, wrapped := b.testBit 6, done := b.testBit 7 }
  else none

/-- Install one group of an offer: clock, targets, patrol point (R653). -/
def State.installGroup (s : State) (g : Nat) (l : List Byte) : State :=
  let put := fun (t : Tab Target) (i : Nat) => match offerTarget (slice l (6 + 13 * i) 13) with
    | some x => Tab.set (g * 2 + i) x t
    | none => Tab.erase (g * 2 + i) t
  let s := (s.setClock g (beAt l 0 6)).onRbd fun r => { r with targets := put (put r.targets 0) 1 }
  s.setPatrol g { s.patrol g with point := beAt l 32 6 }

/-- HANDOVER_OFFER: installed and accepted (R653). -/
def State.gotOffer (s : State) (l : List Byte) : State :=
  let mask := beAt l 0 1
  let gs := (List.range 8).filter mask.testBit
  let s := s.each ((List.range gs.length).zip gs) fun s (i, g) => s.installGroup g (slice l (1 + 38 * i) 38)
  (s.peerSend Pm.accept (beBytes 1 mask)).onPeer fun p => { p with offer := some (mask, l) }

/-- The receiver takes the groups it was offered, with their lost ranges (R630, R653). -/
def State.takeOffer (s : State) : State :=
  match s.peer.offer with
  | some (mask, _) =>
    (((s.onPeer fun p => { p with offer := none, own := p.own ||| mask }).setOwner mask 0 true).lostTaken mask).flag
      F.PEER_STATUS_HANDOVER_DONE
  | none => s

/-- HANDOVER_WAIT_EXPIRY (R653): a command that waits longer than HO_LIMIT completes with PEER/HANDOVER. -/
def State.handoverExpiry (s : State) (c : Nat) : State :=
  let limit := 1000000 * min 2000 (max 10 (s.fld F.PEER_CTRL_HO_LIMIT))
  match s.cmd? c with
  | some (_, x) => if x.wait = .handover ∧ x.accepted + limit < s.now then s.stopWith c St.handover else s
  | none => s

/-! ### Reservations of the peer agent (R655, R658, R661) -/

/-- Bays of a mask in the order of R655: groups and members rising, then bays in no group. -/
def State.arbOrder (s : State) (mask : Nat) : List Nat :=
  let ms := (List.range 8).flatMap fun g =>
    if s.grpOn g then (List.range (grpMembers (s.grp g))).map (s.bayOfMember g) else []
  (ms ++ (List.range 24).filter fun b => !ms.contains b).filter mask.testBit

/-- Start the next preempt of the arbitration on a port that is free (R655). -/
def State.arbStart (s : State) : State :=
  match s.peer.arb with
  | some (t, b :: left, none, held) =>
    if (s.port b).resvCmd.isSome then s
    else
      let s := s.resvCmd b 3
      if (s.port b).resvCmd.isSome then s.onPeer fun p => { p with arb := some (t, left, some b, held) }
      else s.onPeer fun p => { p with arb := some (t, left, none, held) }
  | _ => s

/-- Start preempts until one is under way. -/
def State.arbGo (s : State) : State := s.each (List.range 24) fun s _ => s.arbStart

/-- Start the next reservation command of a won arbitration or a takeover; a port that cannot run one is left out. -/
def State.takeStart (s : State) : State :=
  match s.peer.takeBusy, s.peer.takes with
  | false, (b, cmd) :: rest =>
    if (s.port b).resvCmd.isSome then s
    else
      let s := s.resvCmd b cmd
      if (s.port b).resvCmd.isSome then s.onPeer fun p => { p with takeBusy := true } else s.onPeer fun p => { p with takes := rest }
  | _, _ => s

/-- Members and peer-owned spares of the groups of a mask whose ports are READY (R661). -/
def State.takeBays (s : State) (mask : Nat) : List Nat :=
  let gs := (List.range 8).filter mask.testBit
  let ms := gs.flatMap fun g => (List.range (grpMembers (s.grp g))).map (s.bayOfMember g)
  let spare := fun b => gs.any (fun g => (getPart (s.grp g) Grp.spareMask).testBit b) &&
    ((s.fld F.PEER_BAY_OWN_SIDE_B).testBit b != (s.side == 1))
  (ms ++ (List.range 24).filter fun b => spare b && !ms.contains b).filter s.portReady

/-- Start what R661 does before a takeover of a mask of groups. -/
def State.takeoverStart (s : State) (mask : Nat) : State :=
  let l := (s.takeBays mask).flatMap fun b => [(b, 1), (b, 3)]
  s.onPeer fun p => { p with takeover := some mask, takes := l, takeBusy := false, takeStep := .taking }

/-- The commands after a won arbitration are done: held drive commands go out again, and the takeover starts if AUTO_TAKEOVER
is 1 (R658). -/
def State.winEnd (s : State) : State :=
  let s := s.onPeer fun p => { p with held := [], takeStep := .idle }
  let s := s.each (List.range 24) fun s b => s.issueAll b
  if s.is F.PEER_CTRL_AUTO_TAKEOVER ∧ s.peer.peerOwn ≠ 0 then s.takeoverStart s.peer.peerOwn else s

/-- Go on with the list of reservation commands. -/
def State.takeGo (s : State) : State :=
  let s := s.each (List.range 48) fun s _ => s.takeStart
  let s := if s.peer.takes = [] ∧ s.peer.takeStep = .winning then s.winEnd else s
  s.each (List.range 48) fun s _ => s.takeStart

/-- RESV_DONE (R572, R655): a reservation command of a port has ended; the peer agent goes on with its own. -/
def State.resvEnded (s : State) (n code holder : Nat) : State :=
  if (s.port n).resvCmd.isNone then s
  else
    let s := s.resvDone n code holder
    let arb := match s.peer.arb with
      | some (t, left, some b, held) =>
        if b = n then some (t, left, none, if code = 0 then held ++ [b] else held) else some (t, left, some b, held)
      | a => a
    let mine := s.peer.takeBusy && match s.peer.takes with | (b, _) :: _ => b == n | [] => false
    let s := s.onPeer fun p => { p with
      arb := arb
      takes := if mine then p.takes.drop 1 else p.takes
      takeBusy := p.takeBusy && !mine }
    s.arbGo.takeGo

/-! ### Losses and arbitration (R641, R642, R654 to R658) -/

/-- Link and sideband are both lost: ARBITRATING (R654, R655). -/
def State.arbitrate (s : State) : State :=
  let s := s.peerGo .arbitrating
  let n := ((List.range 24).filter s.peer.arbSet.testBit).length
  let order := (s.arbOrder s.peer.arbSet).filter s.portReady
  (s.onPeer fun p => { p with arb := some (s.now, order, none, []), arbResult := (n, 0, 1) }).arbGo

/-- A loss changes the peer state by Table 17-4. -/
def State.lossState (s : State) : State :=
  let both := s.peer.linkLost && s.peer.sideLost
  match s.peer.state with
  | .mirrored => if both then s.arbitrate else if s.peer.linkLost then s.peerGo .linkLost else s.peerGo .sidebandLost
  | .linkLost => if both then s.arbitrate else s
  | .sidebandLost => if both then s.arbitrate else s
  | .joining => if both then s.arbitrate else s
  | _ => s

/-- A path has given no valid frame for 20 ms. -/
def lostSince (t : Option Nat) (now : Nat) : Bool := match t with | some x => decide (x + lossTime ≤ now) | none => false

/-- PEER_LINK_LOST (R641). -/
def State.linkLoss (s : State) : State :=
  if s.peerOn ∧ !s.asleep ∧ !s.peer.linkLost ∧ lostSince s.peer.linkAt s.now then
    ((s.onPeer fun p => { p with linkLost := true }).flag F.PEER_STATUS_LINK_LOST).lossState
  else s

/-- SIDEBAND_LOST (R641); a side that sleeps does not act on it (R691). -/
def State.sideLoss (s : State) : State :=
  if s.peerOn ∧ !s.peer.sideLost ∧ lostSince s.peer.sideAt s.now then
    let s := (s.onPeer fun p => { p with sideLost := true }).flag F.PEER_STATUS_SIDEBAND_LOST
    if s.asleep then s else s.lossState
  else s

/-- ARBITRATION_DECIDE (R656 to R658). -/
def State.arbDecide (s : State) : State :=
  match s.peer.state, s.peer.arb with
  | .arbitrating, some (t, left, cur, held) =>
    if (left = [] ∧ cur = none) ∨ t + 2000000000 ≤ s.now then
      let n := s.peer.arbResult.1
      let k := held.length
      if n < 2 * k ∨ (2 * k = n ∧ s.side = 0) then
        let rest := (s.arbOrder s.peer.arbSet).filter fun b => !held.contains b
        let s := s.onPeer fun p => { p with arb := none, arbResult := (n, k, 2), won := true }
        let s := s.peerGo .solo
        (s.onPeer fun p => { p with takes := rest.flatMap fun b => [(b, 1), (b, 3)], takeBusy := false, takeStep := .winning }).takeGo
      else
        let drop := s.peer.held
        let s := s.onPeer fun p => { p with arb := none, arbResult := (n, k, 3), held := [] }
        let s := s.onDrv fun d => { d with cmds := d.cmds.filter fun c => !drop.contains c.name }
        (s.flag F.PEER_STATUS_ARB_LOST).fenceSide true
    else s
  | _, _ => s

/-! ### Heartbeats (R639 to R641, R653, R654) -/

/-- What a heartbeat on either path says: FLAGS, OWN and the arbitration set at its arrival, which stands while an arbitration
uses it (R653, R654, R658). -/
def State.gotBeat (s : State) (l : List Byte) : State :=
  let ready := beAt l 4 3
  let set := if s.peer.state = .arbitrating ∨ s.peer.takeStep = .winning then s.peer.arbSet else s.readyMask &&& ready
  let s := s.onPeer fun p => { p with flags := beAt l 1 1, peerOwn := beAt l 2 1, arbSet := set }
  match s.peer.offer with
  | some (mask, _) => if mask &&& s.peer.peerOwn = 0 then s.takeOffer else s
  | none => s

/-- Side B keeps its shelf time in step with side A's (R640): it steps forward when it lags by more than 1 ms (the round
trip is taken as 0, assumption 31). -/
def State.stepClock (s : State) (t : Nat) : State := if s.side = 1 ∧ s.now + 1000000 < t then { s with now := t } else s

/-- A valid sideband frame arrives and `f` takes it: the sideband is restored, which ends SIDEBAND_LOST (R641, Table 17-4). -/
def State.sideHeard (s : State) (f : State → State) : State :=
  let s := f (s.onPeer fun p => { p with sideAt := some s.now, sideLost := false })
  if s.peer.state = .sidebandLost then s.peerGo .mirrored else s

/-- SIDEBAND_FRAME_RECEIVE of a HEARTBEAT (R639, R641). -/
def State.sideBeat (s : State) (l : List Byte) : State := s.sideHeard (fun s => s.gotBeat l)

/-- A sideband frame whose CHECK holds (Table 17-3). -/
def sideOk (l : List Byte) : Bool := l.length == 10 && beAt l 8 2 == (crc16 (l.take 8)).toNat

/-- Deliver one peer message (Table 17-2). -/
def State.peerMessage (s : State) (kind : Nat) (l : List Byte) : State :=
  match kind with
  | 1 => (s.gotBeat l).stepClock (beAt l 8 8)
  | 2 => s.gotIntent (beAt l 0 4 % 65536) (ofBytes 256 (slice l 4 32))
  | 3 => s.gotBlocks (beAt l 0 4 % 65536) (beAt l 4 4) (l.drop 8)
  | 4 => s.gotAck (beAt l 0 4)
  | 5 => s.gotCompleted (beAt l 0 4)
  | 6 => s.gotRetire (beAt l 0 4)
  | 7 => s.onAttic fun a => { a with peerClocks := Tab.set (beAt l 0 1 % 8) (beAt l 1 6) a.peerClocks }
  | 8 =>
    let k := beAt l 0 1 % 8 * 4096 + beAt l 1 2 % 4096
    s.onAttic fun a => { a with peerLost := Tab.put 0 k (ofBytes 128 (slice l 3 16)) a.peerLost }
  | 9 => s.onPeer fun p => { p with health := padTo 256 l }
  | 10 => s.gotStart (beAt l 0 4)
  | 11 => s.gotOffer l
  | 12 => s.gotAccept (beAt l 0 1)
  | 13 => if (s.peer.offer.map (·.1)) = some (beAt l 0 1) then s.takeOffer else s
  | 14 => s.gotJoin (beAt l 0 8)
  | _ => s

/-- A valid peer link frame has arrived: the link is restored, what ACK_SEQ covers is done with, and a frame in SEQ order is
delivered once (R637, R641). In SOLO, whose peer may be another one, the first frame after a loss may carry any SEQ (DESIGN CHOICE,
assumption 7). -/
def State.peerFrameOk (s : State) (l : List Byte) : State :=
  let seq := beAt l 4 4
  let ack := beAt l 8 4
  let fresh := s.peer.linkLost && decide (s.peer.state = .solo)
  let open_ := fun (f : PeerFrame) => decide (2 ^ 31 ≤ (ack + 2 ^ 32 - f.seq) % 2 ^ 32)
  let s := s.onPeer fun p => { p with linkAt := some s.now, linkLost := false, unacked := p.unacked.filter open_ }
  let s := if s.peer.state = .linkLost then s.enterJoining else s
  if fresh ∨ seq = (s.peer.rxSeq + 1) % 2 ^ 32 then
    (s.onPeer fun p => { p with rxSeq := seq }).peerMessage (beAt l 1 1) (slice l 16 (beAt l 12 4))
  else s

/-- PEER_FRAME_RECEIVE (R637). -/
def State.peerReceive (s : State) (l : List Byte) : State :=
  if s.peerOn ∧ !s.asleep then
    let n := l.length - 4
    if l.length < 20 ∨ beAt l n 4 ≠ (crc32c (l.take n)).toNat then s.bump A.PEER_FRAME_ERR
    else if beAt l 0 1 = 1 ∧ beAt l 12 4 + 20 = l.length then s.peerFrameOk l
    else s
  else s

/-! ### Takeover (R660 to R663) -/

/-- PEER_CMD TAKEOVER (R660, R661). -/
def State.takeoverCmd (s : State) (mask : Nat) : State :=
  let f := s.peer.flags
  let may := (s.peer.won && decide (s.peer.state = .solo)) || f.testBit 2 || f.testBit 3 || f.testBit 4 || f.testBit 6
  let m := mask &&& s.peer.peerOwn
  if may ∧ m ≠ 0 ∧ m = mask ∧ s.peer.takeover = none ∧ s.peer.takeStep = .idle ∧ !s.isFenced then (s.takeoverStart m).takeGo else s

/-- A buffer of a takeover: the peer mirror region, then the newest member copy of the other side (Table 08-9). -/
def State.takeoverBuffer (idx : BitVec 256 → Option Nat) (s : State) (i : BitVec 256) : Buffer :=
  let own := (idx i).bind fun k => (Tab.find? k s.peer.mirror).bind fun (a, n, got) =>
    if n ≤ got ∧ n ≠ 0 then
      some ((s.intentPlaces i).zip ((List.range n).map fun j =>
        ((s.cellar (s.mirrorAddr (a + j)) 4096, ofBytes 128 (s.cellar (s.mirrorAddr (a + j) + 4096) 16)) : Block)))
    else none
  own.orElse fun _ => (s.copyRecord s.peer.journalId (1 - s.side) i).map (·.buffer)

/-- Every intent of the groups taken is closed: a checkpoint at once, REPLAY_DONE, an unpaced patrol of each and TAKEOVER_DONE
(R361, R662). -/
def State.takeoverEnd (s : State) (mask : Nat) : State :=
  let s := (s.ckptStart false).flag F.STR_STATUS_REPLAY_DONE
  ((s.patrolAll ((List.range 8).filter mask.testBit)).onPeer fun p => { p with
    takeover := none, takeStep := .idle, taken := p.taken ||| mask }).flag F.PEER_STATUS_TAKEOVER_DONE

/-- The peer's intents of a mask of groups are closed with the buffers of the mirror region or of member copies (R359, R486);
those of other groups stay, and so do those that wait for a key. -/
def State.takeoverClose (s : State) (mask : Nat) (src : List (Nat × BitVec 256)) (bad wbad : List (Nat × Nat)) : State :=
  let mine := fun (x : Nat × BitVec 256) => mask.testBit (getPart x.2 Intent.group % 8)
  let idx := fun (i : BitVec 256) => (List.find? (fun x => decide (x.2 = i)) s.attic.peerIntents).map (·.1)
  let (left, s) := s.closeIntents (src.filter mine) (fun s i => State.takeoverBuffer idx s i) bad wbad
  let rest := s.attic.peerIntents.filter fun x => !mine x
  let keep := left.foldl (fun (t : Tab (BitVec 256)) x => Tab.set x.1 x.2 t) rest
  let s := s.onAttic fun a => { a with peerIntents := keep }
  if left = [] then s.takeoverEnd mask else s.onPeer fun p => { p with takeStep := .closing }

/-- Valid member checkpoints of the other side's journal. -/
def State.peerCopies (s : State) : List Checkpoint :=
  (List.range 24).flatMap fun b => (s.copiesOn b s.peer.journalId (1 - s.side)).map (·.2)

/-- The journal generation of the peer's mirror: the one its live journal carried while the mirror was kept up, after that of the
last checkpoint cut by then (R341, R357; no message carries it: DEDUCED, assumption 151). -/
def State.mirrorGen (s : State) : Nat :=
  let cut := s.peer.mirrorEnd.getD s.now
  let (older, later) := s.peerCopies.partition fun c => decide (c.cut ≤ cut)
  match older, later with
  | [], [] => 0
  | [], c :: l => l.foldl (fun n x => min n x.gen) c.gen
  | l, _ => l.foldl (fun n x => max n x.gen) 0 + 1

/-- The mirror is the source of a takeover (R357): of equal generations the peer's comes before a member copy. -/
def State.mirrorSource (s : State) (copy : Option Source) : Bool :=
  s.peer.mirrorHeld && match copy with
    | some c => decide (c.gen ≤ s.mirrorGen)
    | none => true

/-- The replay of a takeover begins (R357, R662): from the source of the higher generation, the peer's mirror or the newest member
copy of the other side; the lost ranges and the clocks come first. With no source NO_JOURNAL is set (R363). -/
def State.takeoverReplay (s : State) (mask : Nat) (bad wbad : List (Nat × Nat)) : State :=
  let copy := bestSource (s.memberSources s.peer.journalId (1 - s.side))
  let mirror := s.mirrorSource copy
  let src := if mirror then s.attic.peerIntents else match copy with | some c => c.intents | none => []
  let from_ := if mirror then (3, 0) else match copy with | some c => (4, c.bay) | none => (0, 0)
  let s := (s.onStr fun x => { x with replaySource := from_ }).when (from_.1 == 0) fun s => s.flag F.STR_STATUS_NO_JOURNAL
  let lost := if mirror then s.attic.peerLost else match copy with | some c => c.lost.getD [] | none => s.attic.peerLost
  let s := s.each (lost.filter fun (k, _) => mask.testBit (k / 4096)) fun s (k, e) =>
    s.onAttic fun a => { a with lost := Tab.put 0 k e a.lost }
  let s := s.each ((List.range 8).filter mask.testBit) fun s g =>
    let a := Tab.getD g 0 s.attic.peerClocks + 2 ^ 20
    let b := match copy with | some c => (c.clocks.getD []).getD g 0 | none => 0
    s.setClock g (max a b)
  s.takeoverClose mask src bad wbad

/-- TAKEOVER_DONE (R661, R662): the preempts are done, and the peer's journal is replayed for the groups taken; intents that
wait for a key are closed by a later one (R486), and if the member copy being read fails, the replay starts again from the next
source (R362). -/
def State.takeoverDone (s : State) (failing : List (Nat × Nat × CopyFault)) (bad wbad : List (Nat × Nat)) : State :=
  match s.peer.takeover, s.peer.takeStep with
  | some mask, .taking => if s.peer.takes ≠ [] then s else (s.copyFaults failing).takeoverReplay mask bad wbad
  | some mask, .closing =>
    let again := s.sourceFails s.peer.journalId (1 - s.side) failing
    let s := s.copyFaults failing
    if again then s.takeoverReplay mask bad wbad else s.takeoverClose mask s.attic.peerIntents bad wbad
  | _, _ => s

/-- PEER_CMD OPEN (R663): groups taken over join this side's own. -/
def State.openGroups (s : State) (mask : Nat) : State :=
  let m := mask &&& s.peer.taken
  (s.onPeer fun p => { p with own := p.own ||| m, taken := p.taken - m }).setOwner m 0 true

/-- PEER_CMD YIELD (R652). -/
def State.yieldCmd (s : State) : State := s.onPeer fun p => { p with yield_ := true }

/-- PEER_CMD JOIN (R642). -/
def State.joinCmd (s : State) : State := s.peerSend Pm.join s.joinBytes

/-- PEER_CMD SET_OWN (R665): accepted only in SOLO or JOINING, for groups that are neither ENABLED nor the peer's. -/
def State.setOwn (s : State) (mask : Nat) : State :=
  let ok := (List.range 8).all fun g => !mask.testBit g || (!s.grpOn g && !s.peer.peerOwn.testBit g)
  if (s.peer.state = .solo ∨ s.peer.state = .joining) ∧ ok then s.onPeer fun p => { p with own := mask } else s

/-- A PEER_CMD while the peer agent runs. -/
def State.ifPeer (s : State) (f : State → State) : State := if s.peerOn then f s else s

/-- PEER_LINK_GROUP_CHANGE (R636). -/
def State.linkGroups (s : State) (mask : Nat) : State := s.onPeer fun p => { p with groups := mask % 4 }

end Sys2Proof.Machine
end

