-- ==== Sys2Proof/Machine/BayPower.lean ====
section
/-!
DEFINITION. What the bay power die does at its comparators, timers and samples (15_bay_power.md).
-/

namespace Sys2Proof.Machine

/-- Power-good is given (R585): a port that waits for both signals of its bay goes on (Table 14-3). -/
def State.pgGive (s : State) (n k : Nat) : State :=
  let x := s.sub n k
  if subExists n k ∧ x.runs ∧ x.limiting = none ∧ !x.pg then
    ((s.setSub n k { x with state := .on, pg := true }).flag F.BAY_STATUS_PG_CHANGE).portPower n
  else s

/-- Power-good falls with the sub-channel still on (R586): its output has been low with no fault timer running. -/
def State.pgLose (s : State) (n k : Nat) : State :=
  if subExists n k ∧ (s.sub n k).limiting = none then s.pgFall n k else s

/-- The current has reached the threshold: the fault timer starts (R580). -/
def State.limitStart (s : State) (n k : Nat) : State :=
  let x := s.sub n k
  if subExists n k ∧ x.runs ∧ x.limiting = none then s.setSub n k { x with limiting := some s.now } else s

/-- Limiting ends: the fault timer returns to 0 (R580). -/
def State.limitEnd (s : State) (n k : Nat) : State :=
  if subExists n k then s.setSub n k { s.sub n k with limiting := none } else s

/-- Fault timer of a channel in ns (Table 02-3). -/
def State.faultTime (s : State) (n : Nat) : Nat :=
  match s.bayProfile n with
  | some r => 1000 * leAt r 8 4
  | none => 0

/-- The fault timer expires (R582). -/
def State.timerTrip (s : State) (n k : Nat) : State :=
  match (s.sub n k).limiting with
  | some t => if t + s.faultTime n ≤ s.now then s.latchOff n k 2 else s
  | none => s

/-- The fast circuit breaker (R581): armed while the enable bit is 1. -/
def State.breakerTrip (s : State) (n k : Nat) : State := if s.is (enField n k) then s.latchOff n k 1 else s

/-- 20 ms in RAMPING without power-good (R582). -/
def State.inrushTrip (s : State) (n k : Nat) : State :=
  let x := s.sub n k
  if x.state = .ramping ∧ !x.pg ∧ x.since + 20000000 ≤ s.now then s.latchOff n k 3 else s

/-- A latch is released (R583). -/
def State.latchRelease (s : State) (n k : Nat) : State :=
  let x := s.sub n k
  match x.state, x.disabledAt with
  | .latched, some t =>
    if subExists n k ∧ !s.is (enField n k) ∧ t + 10000 ≤ s.now then
      s.setSub n k { x with state := .off, disabledAt := none }
    else s
  | _, _ => s

/-- Reverse current: the gate goes off, or on again (R587). -/
def State.reverse (s : State) (n k : Nat) (on : Bool) : State :=
  let x := s.sub n k
  if !subExists n k ∨ !x.runs ∨ x.reverse = on then s
  else
    let s := s.setSub n k { x with reverse := on }
    if on then (s.bump (A.BAY_REVERSE_EVENTS n)).flag F.BAY_STATUS_REVERSE else s

/-! ### Telemetry (R592 to R596) -/

/-- A sub-channel's 1 ms update (R592, R593). -/
def SubChan.update (x : SubChan) (t : TelSample) : SubChan :=
  { x with vout := t.vout, vin := t.vin, cur := t.cur, pow := t.pow, avg := (t.pow :: x.avg).take 1000, energy := x.energy + t.energy }

/-- 1 s average power of a channel in mW, main and auxiliary together for a bay (R595). -/
def State.chanAverage (s : State) (n : Nat) : Int :=
  let sum := fun (l : List Int) => l.foldl (· + ·) 0
  (sum (s.sub n 0).avg + if n < 24 then sum (s.sub n 1).avg else 0) / 1000

/-- Compare one channel's average with its limit (R595). -/
def State.limitCheck (s : State) (n : Nat) : State :=
  let l : Int := 100 * ((s.bayLimit n).getD 0 : Nat)
  let a := s.chanAverage n
  if l = 0 then s
  else if l < a then
    if s.bay.overLimit.contains n then s.flag F.BAY_STATUS_OVER_LIMIT
    else
      let s := (s.onBay fun b => { b with overLimit := insertNat n b.overLimit }).flag F.BAY_STATUS_OVER_LIMIT
      s.tallyBay F.BAY_STATUS_OVER_LIMIT n 0
  else if 100 * a ≤ 95 * l then s.onBay fun b => { b with overLimit := b.overLimit.filter fun m => m != n }
  else s

/-- TELEMETRY_UPDATE: the means of the last 1,000 samples, and the limits (R592, R595). -/
def State.telemetry (s : State) (l : List TelSample) : State :=
  let s := s.each l fun s t =>
    if subExists t.channel t.sub then s.setSub t.channel t.sub ((s.sub t.channel t.sub).update t) else s
  if s.is F.BAY_CTRL_LIMIT_EN then s.each (List.range 26) fun s n => s.limitCheck n else s

/-- BAY_TEL_SEL_WRITE: latch the selected set (R594, Table 15-7). -/
def State.telSelect (s : State) : State :=
  let n := s.fld F.BAY_TEL_SEL_CHANNEL
  let k := s.fld F.BAY_TEL_SEL_SUB
  let x := s.sub n k
  let set := if subExists n k then (x.vout, x.vin, x.cur, x.pow, s.chanAverage n) else (0, 0, 0, 0, 0)
  s.onBay fun b => { b with tel := set }

/-- The power-loss line deasserts: the feed condition of R589 holds, and PG_IN is high again (R731). -/
def State.powerBack (s : State) : State :=
  if s.bay.powerLoss then
    (s.onBay fun b => { b with powerLoss := false, lineAt := s.now }).onGlb fun g =>
      { g with pgIn := g.pgIn || g.pgLoss, pgLoss := false }
  else s

end Sys2Proof.Machine
end

