-- ==== Sys2Proof/Machine/Pantry.lean ====
section
/-!
DEFINITION. The Pantry: poisoned words, row repair and what a poisoned or zeroed entry of each partition brings
(03_cellar_and_hoist.md R121 to R127, Table 03-6; 18_power_modes_and_islands.md R686).
-/

namespace Sys2Proof.Machine

/-! ### Places (R121) -/

/-- Bytes per entry of a partition (Table 02-4). -/
def pantryEntrySize (code : Nat) : Nat :=
  match pantryTable.find? fun r => r.1 == code with
  | some r => r.2.1
  | none => 1

/-- The partition that holds an Inventory unit, with the unit's place in it (R53). -/
def State.partitionAt (s : State) (unit : Nat) : Option (Nat × Nat) :=
  ((List.range 15).find? fun c =>
    decide (s.pantryBase c ≤ unit) && decide (unit < s.pantryBase c + s.pantryUnits c)).map fun c => (c, unit - s.pantryBase c)

/-- The name of a word: bank * 327680 + row * 64 + word (R121). -/
def pantryWord (bank row word : Nat) : Nat := bank * 327680 + row * 64 + word

/-- The name of the word at a byte offset of a partition (R121). -/
def State.pantryAt (s : State) (code off : Nat) : Nat :=
  let u := s.pantryBase code + off / 65536
  pantryWord (u % 64) (u / 64 * 128 + off % 65536 / 512) (off % 512 / 8)

/-- A word of an entry is poisoned (R123). -/
def State.entryPoison (s : State) (code i : Nat) : Bool :=
  let b := pantryEntrySize code
  decide (s.hst.pantryPoison ≠ []) &&
    (List.range ((b + 7) / 8)).any fun k => s.hst.pantryPoison.contains (s.pantryAt code (i * b + 8 * k))

/-- A partition is written whole with zeros, which ends the poison of its words (R123). -/
def State.pantryZeroed (s : State) (code : Nat) : State :=
  let mine := fun (w : Nat) => (s.partitionAt (w % 327680 / 64 / 128 * 64 + w / 327680)).any fun x => x.1 == code
  if s.hst.pantryPoison = [] then s else s.onHst fun h => { h with pantryPoison := h.pantryPoison.filter fun w => !mine w }

/-- A full write of bytes of a partition ends the poison of its words (R123). -/
def State.pantryClean (s : State) (code off len : Nat) : State :=
  let mine := (List.range ((len + 7) / 8)).map fun k => s.pantryAt code (off + 8 * k)
  let left := s.hst.pantryPoison.filter fun w => !mine.contains w
  s.onHst fun h => { h with pantryPoison := left }

/-! ### Consequences (Table 03-6) -/

/-- A receive entry is given up; the sender's retries build the message again (Table 03-6). -/
def State.dropRx (s : State) (m : RxMsg) : State :=
  s.onTrn fun t => { t with rx := t.rx.filter fun x => x.key != m.key }

/-- Send a message again under a new message id (Table 03-6); a FETCH_REPLY keeps the id of its fetch. -/
def State.restartTx (s : State) (m : TxMsg) : State :=
  let s := s.dropTx m.key
  let s := match m.use with
    | .fetch c => s.modCmd c fun x => { x with fetches := x.fetches.filter fun f => f.1 != m.id }
    | .readData c _ => s.modCmd c fun x => { x with messages := x.messages.filter fun k => k != m.key }
    | _ => s
  s.startMsg m.sa { m with packets := [], first := none }

/-- A window key entry is lost: it is treated as revoked, and the Wardens rewrite it (Table 03-6). -/
def State.loseKey (s : State) (k : Nat) : State :=
  (s.forceRevoke k).event (.windowKeyPoisoned k)

/-- A command is issued again for one line it waits for (Table 03-6). -/
def State.reissueLine (s : State) (c line : Nat) : State :=
  (s.modCmd c fun x => { x with lines := if x.lines.contains line then x.lines else x.lines ++ [line] }).readStart c

/-- A coalescing entry is lost: the pending read ends, and each waiter is issued as its own drive read (Table 03-6). -/
def State.losePending (s : State) (p : PendingRead) : State :=
  let mine := fun (c : DriveCmd) => match c.use with | .read n _ _ => n == p.name | _ => false
  let flows := s.hst.flows.filter fun f => match f.use with | .driveIn n _ _ _ => n == p.name | _ => false
  let s := (s.each flows fun s f => s.closeFlow f.id).onDrv fun d => { d with cmds := d.cmds.filter fun c => !mine c }
  let s := s.onRsv fun r => { r with pending := r.pending.filter fun q => q.name != p.name }
  let s := match p.fill with
    | some i => (s.lineStale i).lineFree i
    | none => s
  s.each p.waiters fun s c =>
    match s.cmd? c with
    | none => s
    | some (_, x) =>
      let qs := (List.range 64).filter fun q =>
        decide (x.lba ≤ p.line * 64 + q) && decide (p.line * 64 + q < x.lba + x.blockCount) &&
          x.unready.contains (p.line * 64 + q - x.lba)
      if qs = [] then s
      else match s.newRead c x p.line qs with
        | some t => t
        | none => s.modCmd c fun x => { x with lines := x.lines ++ [p.line] }

/-- First entry of partition 0x07 that a port's queues take: ports in ascending order (DESIGN CHOICE, assumption 33). -/
def State.queueBase (s : State) (n : Nat) : Nat := ((List.range n).map fun k => (s.port k).sqCount * (s.port k).sqDepth).sum

/-- Queues of a port that hold one of a range of entries are deleted and recreated, and their commands issued again
(Table 03-6). -/
def State.recreateQueues (s : State) (n lo hi : Nat) : State :=
  let p := s.port n
  let b := s.queueBase n
  let hitQ := fun (q : Nat) => decide (b + q * p.sqDepth < hi) && decide (lo < b + (q + 1) * p.sqDepth)
  let back := fun (c : DriveCmd) =>
    if c.bay = n ∧ (match c.queue with | some q => hitQ q | none => false) = true then { c with queue := none } else c
  (s.onDrv fun d => { d with cmds := d.cmds.map back }).issueAll n

/-- The members of a list whose places lie in a range. -/
def placesIn {α : Type} (lo hi : Nat) (l : List α) : List α :=
  (l.zipIdx.filter fun x => decide (lo ≤ x.2) && decide (x.2 < hi)).map (·.1)

/-- Entries lo to hi - 1 of a partition are poisoned, or zeroed at an exit from a low-power mode (Table 03-6, R686). -/
def State.loseEntries (s : State) (power : Bool) (code lo hi : Nat) : State :=
  let inR := fun (i : Nat) => decide (lo ≤ i) && decide (i < hi)
  match code with
  | 0x01 =>
    if power then
      let ks := (s.cq.queues.filter fun x => decide (x.2.slot * 32 < hi) && decide (lo < x.2.slot * 32 + 32)).map (·.1)
      s.each ks fun s k => s.queueFailed (k * 32) 0 0
    else
      let place := fun (k : Nat) => match s.queue? (queueOf k) with | some q => q.slot * 32 + k % 32 | none => hi
      s.each ((s.cq.slots.filter fun x => inR (place x.1)).map fun x => x.2.order) fun s c => s.stopWith c St.internalError
  | 0x02 => s.each (placesIn lo hi s.trn.rx) fun s m => s.dropRx m
  | 0x03 => s.each (placesIn lo hi s.trn.tx) fun s m => s.restartTx m
  | 0x04 => s.each ((s.win.keys.filter fun x => inR x.1).map (·.1)) fun s k => s.loseKey k
  | 0x05 =>
    s.each ((s.trn.sa.filter fun x => inR x.1).map (·.1)) fun s n =>
      (if power then (s.invalidate n).setSa n 0 else s.modAux n fun a => { a with stopped := true }).event (.saPoisoned n)
  | 0x06 =>
    let gone := placesIn lo hi s.vol.cached
    s.onVol fun v => { v with cached := v.cached.filter fun e => !gone.contains e }
  | 0x07 => s.each (List.range 24) fun s n => s.recreateQueues n lo hi
  | 0x09 => s.each (s.linesWhere fun i _ => inR i) fun s i => s.lineStale i
  | 0x0A => s.each (placesIn lo hi s.rsv.pending) fun s p => s.losePending p
  | 0x0B =>
    s.each (placesIn lo hi s.rsv.pending) fun s p =>
      (s.modPend p.name fun p => { p with waiters := [] }).each p.waiters fun s c => s.reissueLine c p.line
  | 0x0C =>
    let ids := (placesIn lo hi (recordsOf 32 (s.sect 0x10))).map fun r => leAt r 0 4
    s.onTc fun t => { t with nodes := t.nodes.filter fun x => !ids.contains x.1 }
  | 0x0D => s.onTc fun t => { t with meters := t.meters.filter fun x => !inR x.1 }
  | 0x0E => if power then s else s.mcheck 2
  | _ => s

/-! ### Poison, scrub and repair (R123 to R127) -/

/-- A block reads a poisoned word (R127). -/
def State.poisonRead (s : State) (bank row word : Nat) : State :=
  let s := s.tallyFlag .hardware F.HST_STATUS_PANTRY_UE bank [(s.word A.HST_PANTRY_UE_LOC).toNat, 0]
  match s.partitionAt (row / 128 * 64 + bank) with
  | none => s
  | some (code, k) =>
    let off := k * 65536 + row % 128 * 512 + word * 8
    let b := pantryEntrySize code
    let lo := off / b
    let hi := min ((off + 7) / b + 1) (s.pantryEntries code)
    let s := s.loseEntries false code lo hi
    if [0x04, 0x05, 0x0E].contains code then s else s.pantryClean code off 8

/-- A block reads an entry: a poisoned word of it acts as Table 03-6 states (R127). -/
def State.readEntry (s : State) (code i : Nat) : State :=
  if s.entryPoison code i then
    let s := s.tallyFlag .hardware F.HST_STATUS_PANTRY_UE ((s.pantryBase code + i * pantryEntrySize code / 65536) % 64)
      [(s.word A.HST_PANTRY_UE_LOC).toNat, 0]
    s.loseEntries false code i (i + 1)
  else s

/-- A word has become poisoned (R123): its place is shown and counted. -/
def State.poisonWord (s : State) (bank row word : Nat) : State :=
  let s := s.onHst fun h => { h with pantryPoison := insertNat (pantryWord bank row word) h.pantryPoison }
  let s := ((s.setFld F.HST_PANTRY_UE_LOC_BANK bank).setFld F.HST_PANTRY_UE_LOC_ROW row).setFld F.HST_PANTRY_UE_LOC_WORD word
  let s := ((s.bump A.HST_UE_TOTAL).flag F.HST_STATUS_PANTRY_UE).setFld (F.HST_PANTRY_BANK_UE_SEEN bank) 1
  s.onWdn fun w => { w with ues := s.now :: within24h s.now w.ues }

/-- A free spare row of a row's block (R125): one that failed in use is none. -/
def State.freeSpare (s : State) (bank row : Nat) : Option Nat :=
  let used := (s.hst.pantrySpare.filter fun x => x.1 / 512 == (bank * 5120 + row) / 512).map (·.2)
  let spent := fun (k : Nat) =>
    s.wdn.badSpares.contains (bank * 20 + row / 512 * 2 + k) || s.hst.pantrySpent.contains (bank * 20 + row / 512 * 2 + k)
  (List.range 2).find? fun k => !used.contains k && !spent k

/-- Repair a failing row, or report that its block has no spare (R125, R126): a spare that the row has had is given up. -/
def State.repairRow (s : State) (bank row : Nat) : State :=
  let r := bank * 5120 + row
  match s.freeSpare bank row with
  | some k =>
    let old := Tab.find? r s.hst.pantrySpare
    let s := s.onHst fun h => { h with pantrySpare := Tab.set r k h.pantrySpare, pantryCe := h.pantryCe.filter fun x => x != r }
    let s := match old with
      | some j => s.onHst fun h => { h with pantrySpent := insertNat (bank * 20 + row / 512 * 2 + j) h.pantrySpent }
      | none => s.satAdd (F.HST_PANTRY_BANK_SPARES_USED bank)
    s.flag F.HST_STATUS_PANTRY_REPAIRED
  | none => s.flag F.HST_STATUS_PANTRY_SPARES_OUT

/-- PANTRY_SCRUB of one row (R123 to R127): whether an error was corrected, the word found uncorrectable, and whether a block's
own read met it, which does not wait for the scrub to be on. The scrub writes a corrected row back, a block's read does not; so a row
fails at its next corrected read after a scrub has corrected it (R125). -/
def State.pantryScrub (s : State) (bank row : Nat) (corrected : Bool) (poisoned : Option Nat) (used : Bool) : State :=
  if bank < 64 ∧ row < 5120 ∧ (s.is F.HST_CTRL_PANTRY_SCRUB_EN ∨ used) then
    let r := bank * 5120 + row
    let again := s.hst.pantryCe.contains r
    let s := s.when corrected fun s =>
      let s := ((s.bump A.HST_CE_TOTAL).flag F.HST_STATUS_PANTRY_CE).satAdd (F.HST_PANTRY_BANK_CE_COUNT bank)
      if used then s else s.onHst fun h => { h with pantryCe := insertNat r h.pantryCe }
    match poisoned with
    | some w =>
      let w := w % 64
      let s := (s.poisonWord bank row w).repairRow bank row
      if used then s.poisonRead bank row w else s
    | none => if corrected ∧ again then s.repairRow bank row else s
  else s

/-! ### Retention (R685 to R687) -/

/-- Units of the retained partitions that lie in a bank, as partition code and place in it (R685). -/
def State.retainedIn (s : State) (bank : Nat) : List (Nat × Nat) :=
  (List.range 15).flatMap fun c =>
    match pantryRec (s.sect 0x04) c with
    | some r =>
      if (rb r 1).testBit 0 then
        ((List.range (s.pantryUnits c)).filter fun k => (s.pantryBase c + k) % 64 == bank).map fun k => (c, k)
      else []
    | none => []

/-- One unit of a retained partition was lost (R686). -/
def State.loseUnit (s : State) (code k : Nat) : State :=
  let b := pantryEntrySize code
  let lo := k * 65536 / b
  let hi := min (((k + 1) * 65536 + b - 1) / b) (s.pantryEntries code)
  let s := if code = 0x0E then
      s.onWdn fun w => { w with shared := w.shared.filter fun c => !(decide (lo * b ≤ c.1) && decide (c.1 < hi * b)) }
    else s
  (s.loseEntries true code lo hi).setWord A.PWR_WAKE_PART_FAIL (s.word A.PWR_WAKE_PART_FAIL ||| BitVec.ofNat 32 (2 ^ code))

/-- A retained bank whose signature differs (R686). -/
def State.loseBank (s : State) (bank : Nat) : State :=
  match s.retainedIn bank with
  | [] => s
  | us =>
    let s := s.setPair A.PWR_WAKE_RETENTION_FAIL (s.pair A.PWR_WAKE_RETENTION_FAIL ||| 2 ^ bank)
    let s := (s.bump A.PWR_RETENTION_FAILS).flag F.PWR_STATUS_RETENTION_FAIL
    let s := s.tallyFlag .hardware F.PWR_STATUS_RETENTION_FAIL bank [(s.word A.HST_PANTRY_UE_LOC).toNat, 0]
    s.each us fun s u => s.loseUnit u.1 u.2

/-- A partition's flag bit 0: its banks are retained in Doze and Dormant (R685). -/
def State.retained (s : State) (code : Nat) : Bool :=
  match pantryRec (s.sect 0x04) code with
  | some r => (rb r 1).testBit 0
  | none => false

/-- A partition that is not retained is zeroed at the exit and rebuilt or started empty where R687 says so. -/
def State.zeroPartition (s : State) (code : Nat) : State :=
  let s := s.pantryZeroed code
  match code with
  | 0x01 => s.onCq fun q => { q with queues := [], slots := [] }
  | 0x02 => s.onTrn fun t => { t with rx := [] }
  | 0x03 => s.onTrn fun t => { t with tx := [], held := [] }
  | 0x04 => s.onWin fun w => { w with keys := (List.range (s.pantryEntries 0x04)).map fun k => (k, 0) }
  | 0x05 => s.onTrn fun t => { t with sa := [], aux := [], tests := [], blocked := [] }
  | 0x06 => s.onVol fun v => { v with cached := [] }
  | 0x09 => (s.each (s.rsv.dir.map (·.1)) fun s i => s.lineState i 0).onRsv fun r => { r with dir := [] }
  | 0x0A => s.onRsv fun r => { r with pending := [] }
  | 0x0B => s.onRsv fun r => { r with pending := r.pending.map fun p => { p with waiters := [] } }
  | 0x0C => s.onTc fun t => { t with nodes := [] }
  | 0x0D => s.onTc fun t => { t with meters := [] }
  | 0x0E => s.onWdn fun w => { w with shared := [] }
  | _ => s

/-- R687. -/
def State.zeroUnretained (s : State) : State :=
  s.each (List.range 15) fun s c => if s.retained c then s else s.zeroPartition c

end Sys2Proof.Machine
end

