-- ==== Sys2Proof/Machine/Cipher.lean ====
section
/-!
DEFINITION. The key store, alarms, cipher pipes, packet-counter marks and the job engine (11_cipher.md).
-/

namespace Sys2Proof.Machine

/-! ### Key slots (R479 to R485) -/

/-- Slots of a kind (Table 11-6). -/
def keySlots : Nat → Nat
  | 1 => 8192
  | 2 => 4096
  | 3 => 64
  | 4 => 1
  | _ => 0

/-- The key in a slot; none while EMPTY. -/
def State.keyRec (s : State) (kind slot : Nat) : Option KeyRec :=
  match kind with
  | 1 => Tab.find? slot s.cip.sa
  | 2 => Tab.find? slot s.cip.vol
  | 3 => Tab.find? slot s.cip.job
  | 4 => s.attic.kwk
  | _ => none

/-- Load a slot. -/
def State.loadKey (s : State) (kind slot : Nat) (r : KeyRec) : State :=
  match kind with
  | 1 => s.onCip fun c => { c with sa := Tab.set slot r c.sa }
  | 2 => s.onCip fun c => { c with vol := Tab.set slot r c.vol }
  | 3 => s.onCip fun c => { c with job := Tab.set slot r c.job }
  | 4 => s.onAttic fun a => { a with kwk := some r }
  | _ => s

/-- The check value of a key: bytes 0 to 2 of AES of 16 zero bytes under it, or under key 1 of an XTS pair (R481). -/
def KeyRec.kcv (r : KeyRec) : Nat :=
  leNat ((aesEnc (if r.bits = 3 then r.key.take 32 else r.key) (List.replicate 16 0)).take 3)

/-- CIP_ALARM as read (Table 11-13). -/
def State.alarmWord (s : State) : Word :=
  s.cip.present.foldl (fun w c => putBits w (16 + c) 1 1) (s.word A.CIP_ALARM)

/-- A record of class SECURITY (Table 19-6). -/
def State.tallySecurity (s : State) (f : Fld) : State :=
  s.tallyFlag .security f 0 [s.alarmWord.toNat, (s.word A.MGT_DBG_STATE).toNat]

/-- A key store command fails with a code. -/
def State.cipErr (s : State) (code : Nat) : State := (s.setFld F.CIP_ERROR_CODE code).flag F.CIP_STATUS_CMD_ERR

/-- INSTALL ends: CIP_INSTALL_WORD is cleared (Table 11-18). -/
def State.clearInstall (s : State) : State := s.each (List.range 20) fun s n => s.setWord (A.CIP_INSTALL_WORD n) 0

/-- The wrapped record: the first CIP_INSTALL_LEN bytes of CIP_INSTALL_WORD. -/
def State.wrapped (s : State) : List Byte :=
  ((List.range 20).flatMap fun n => toBytes 4 (s.word (A.CIP_INSTALL_WORD n))).take (s.fld F.CIP_INSTALL_LEN_LEN)

/-- KEY_BITS and key length of a kind's record of a wrapped length (R479). -/
def wrapShape (kind len : Nat) : Option (Nat × Nat) :=
  match kind, len with
  | 1, 40 => some (1, 16)
  | 1, 56 => some (2, 32)
  | 2, 80 => some (3, 64)
  | 3, 32 => some (1, 16)
  | 3, 48 => some (2, 32)
  | 3, 80 => some (3, 64)
  | 4, 48 => some (2, 32)
  | _, _ => none

/-- A key record from its bytes (Table 11-7). -/
def keyRecord (l : List Byte) (bits n : Nat) : KeyRec where
  bits := bits
  usage := leAt l 4 4
  key := slice l 8 n
  saltDown := slice l (8 + n) 4
  saltUp := slice l (12 + n) 4

/-- Check 9: equal salts, or an XTS pair of equal keys (R480). -/
def weakKey (kind : Nat) (r : KeyRec) : Bool :=
  (kind == 1 && r.saltDown == r.saltUp) || (r.bits == 3 && r.key.take 32 == r.key.drop 32)

/-- The checks of INSTALL in the order of R480: the record to load, or the code. -/
def State.installCheck (s : State) (kind slot : Nat) : Except Nat KeyRec :=
  if s.cip.install.isSome then .error 0x01
  else if s.fld F.CIP_ALARM_L1_CAUSE ≠ 0 ∨ s.fld F.CIP_ALARM_L2_CAUSE ≠ 0 then .error 0x0A
  else if keySlots kind = 0 then .error 0x02
  else if keySlots kind ≤ slot then .error 0x03
  else if (s.keyRec kind slot).isSome then .error 0x04
  else
    let kek := if kind = 4 then some s.fuses.dtk else s.attic.kwk.map (·.key)
    match kek with
    | none => .error 0x09
    | some k =>
      match wrapShape kind (s.fld F.CIP_INSTALL_LEN_LEN) with
      | none => .error 0x05
      | some (bits, n) =>
        match keyUnwrap k s.wrapped with
        | none => .error 0x06
        | some l =>
          let r := keyRecord l bits n
          if leAt l 0 1 ≠ kind ∨ leAt l 2 2 ≠ slot ∨ leAt l 1 1 ≠ bits then .error 0x07
          else if weakKey kind r then .error 0x08
          else .ok r

/-- CIP_CMD INSTALL (R480, R483). -/
def State.cipInstall (s : State) (kind slot : Nat) : State :=
  match s.installCheck kind slot with
  | .ok r => s.onCip fun c => { c with install := some ⟨kind, slot, r⟩ }
  | .error e =>
    let s := (s.cipErr e).bump A.CIP_INSTALL_FAIL
    if e = 0x01 then s else s.clearInstall

/-- The SA's high-water mark record takes an installed key (R464). -/
def State.markFor (s : State) (sa : Nat) (r : KeyRec) : State :=
  let same := match Tab.find? sa s.attic.saMarks with | some m => m.kcv == r.kcv | none => false
  if same then s else s.onAttic fun a => { a with saMarks := Tab.set sa ⟨0, r.kcv⟩ a.saMarks }

/-- INSTALL_DONE (R480): the slot becomes LOADED and CMD_DONE is set. -/
def State.installDone (s : State) : State :=
  match s.cip.install with
  | none => s
  | some r =>
    let s := (s.onCip fun c => { c with install := none }).loadKey r.kind r.slot r.record
    let s := s.when (decide (r.kind = 1)) fun s => s.markFor r.slot r.record
    (s.clearInstall.bump A.CIP_INSTALLS).flag F.CIP_STATUS_CMD_DONE

/-! ### Job results (R476, R478) -/

/-- A job ends with a code: every byte it wrote is left zero, how many being open (R476); or with its output (R478). -/
def State.jobFinish (s : State) (ch : Nat) (j : JobRun) (code : Nat) (out : List Byte) (written : Nat) : State :=
  let dst := getPart j.desc Job.dst % 2 ^ 36
  let (k, s) := if code = 0 ∨ written = 0 then (0, s) else s.draw 32
  let s := s.cellarPut dst (if code = 0 then out else List.replicate (k % (written + 1)) 0)
  (s.onCip fun c => { c with
    jobs := Tab.erase ch c.jobs
    results := Tab.set ch (true, code, if code = 0 then out.length else 0) c.results }).bump A.CIP_JOBS

/-- Output bytes of a job that is not refused (Table 11-5). -/
def jobOut (mode : Nat) (inverse : Bool) (len : Nat) : Nat :=
  match mode with
  | 2 => if inverse then len else 16 * (len / 16 + 1)
  | 4 => if inverse then len else len + 16
  | 6 => if inverse then 0 else 16
  | 7 => if inverse then len - 8 else len + 8
  | _ => len

/-- Bytes of DST that a running job may have written. -/
def JobRun.room (j : JobRun) : Nat :=
  match j.code with
  | some _ => 0
  | none => jobOut (getPart j.desc Job.mode) ((getPart j.desc Job.flags).testBit 0) (getPart j.desc Job.length)

/-- A running job ends before its time: CANCELLED or ERASED (R477, Table 11-9). -/
def State.jobStop (s : State) (ch code : Nat) : State :=
  match Tab.find? ch s.cip.jobs with
  | some j => s.jobFinish ch j code [] j.room
  | none => s

/-! ### Keys that vanish (R493 to R495) -/

/-- Frames of an SA on the wire are stomped and not resent (R462, Table 11-9). -/
def State.stompWire (s : State) (sa : Nat) : State :=
  s.each (s.mac.sps.map (·.1)) fun s n =>
    match (s.sp n).wire with
    | some f =>
      match f.body with
      | .breren a _ _ _ =>
        if a = sa ∧ !f.stomp then
          (s.modSp n fun p => { p with wire := some { f with stomp := true } }).bump A.CIP_ERASE_STOMPS
        else s
      | .raw _ => s
    | none => s

/-- The key of an SA slot vanishes: what waits in a queue under it is never sealed under another (R149). -/
def State.saKeyGone (s : State) (n : Nat) : State :=
  ((s.onCip fun c => { c with sa := Tab.erase n c.sa }).stompWire n).pullSa n

/-- One of a WRITE's or ZERO's stripe writes is not yet READY (R495), as before it has any: also one that waits for a handover. -/
def State.notReady (s : State) (c : Nat) (x : Slot) : Bool :=
  let owned := fun (w : StripeWrite) => match w.owner with | .command d => d == c | _ => false
  decide (x.toAdmit ≠ []) || (s.str.waiting.any owned) || (s.str.live.any fun w => owned w && s.isFilling w) ||
    (decide (x.intents = []) && decide (x.wait ≠ .finished))

/-- Drive reads of a volume whose key vanishes bring nothing: what is not settled yet is discarded as it comes, no flow of plaintext
lands any more, and no READ joins (R493, Table 11-9). The drives' samples are still taken. -/
def State.readsKeyless (s : State) (v : Nat) : State :=
  s.each (s.rsv.pending.filter fun p => p.volume == v) fun s p =>
    let flows := s.hst.flows.filter fun f => match f.use with | .driveIn n _ _ _ => n == p.name | _ => false
    let s := (s.each flows fun s f => s.closeFlow f.id).modPend p.name fun p => { p with isOpen := false }
    s.each ((p.blocks.filter fun y => y.verdict.isNone || !y.landed).map (·.pos)) fun s q =>
      s.verdict p.name q St.keyUnavailable false false

/-- Group sends of a volume's lines whose key vanishes: their packets not yet started are not sent (Table 11-9). -/
def State.copiesKeyless (s : State) (v : Nat) : State :=
  let lines := s.linesWhere fun _ e => dirVol e == v
  let mine := fun (i : Nat) => lines.contains i
  let gone := fun (m : TxMsg) => match m.use with | .group i => mine i | _ => false
  let frame := fun (f : EgFrame) => match f.body with
    | .breren _ _ pkt _ => pkt.flags.testBit 4 && mine (s.groupLine pkt)
    | .raw _ => false
  let s := s.onTrn fun t => { t with tx := t.tx.filter fun m => !gone m, held := t.held.filter fun h => !gone h.msg }
  let s := s.onRsv fun r => { r with dests := r.dests.map fun d =>
    if d.cmd.isNone ∧ d.lastPacket.isNone ∧ d.line.any mine then { d with lost := true, lastPacket := some s.now } else d }
  s.each ((s.mac.sps.filter fun x => x.2.queue.any frame).map (·.1)) fun s n =>
    s.modQueue n fun p => { p with queue := p.queue.filter fun f => !frame f }

/-- The key of a volume slot vanishes (R495, Table 11-9). -/
def State.volKeyGone (s : State) (v : Nat) : State :=
  let s := s.onCip fun c => { c with vol := Tab.erase v c.vol }
  let on := (s.cq.slots.filter fun x => x.2.alive && x.2.onVolume && decide (x.2.volume = v) && !x.2.stopped &&
    (x.2.opcode == 1 || decide (x.2.wait ≠ .finished))).map fun x => x.2.order
  let s := s.each on fun s c =>
    match s.cmd? c with
    | some (_, x) =>
      if x.opcode = 1 ∨ ((x.opcode = 2 ∨ x.opcode = 5) ∧ s.notReady c x) then s.stopWith c St.keyUnavailable else s
    | none => s
  let s := match s.vol.init with
    | some j => if getPart (s.ext j.entry) Ext.volume % 4096 = v then s.initEnd else s
    | none => s
  ((s.readsKeyless v).copiesKeyless v).staleVolume v

/-- The key of a job slot vanishes: a job that uses it ends with ERASED (Table 11-9). -/
def State.jobKeyGone (s : State) (k : Nat) : State :=
  let s := s.onCip fun c => { c with job := Tab.erase k c.job }
  s.each ((s.cip.jobs.filter fun x => getPart x.2.desc Job.slot == k && x.2.code.isNone).map (·.1)) fun s ch =>
    s.jobStop ch 0x06

/-- CIP_CMD CLEAR (R482, R483). -/
def State.cipClear (s : State) (kind slot : Nat) : State :=
  if s.cip.install.isSome then s.cipErr 0x01
  else if keySlots kind = 0 then s.cipErr 0x02
  else if keySlots kind ≤ slot then s.cipErr 0x03
  else
    let s := match kind with
      | 1 => (s.saKeyGone slot).invalidate slot
      | 2 => if (Tab.find? slot s.cip.vol).isSome then s.volKeyGone slot else s
      | 3 => s.jobKeyGone slot
      | _ => s.onAttic fun a => { a with kwk := none }
    (s.bump A.CIP_CLEARS).flag F.CIP_STATUS_CMD_DONE

/-- The part dumps: at a loss of power, or for a reset (Table 08-5, R734). -/
def State.dumping (s : State) : Bool := match s.glb.phase with | .lossDump => true | .resetDump _ => true | _ => false

/-! ### Alarms (R487 to R496, R750) -/

/-- The cause bit of an alarm (Table 11-13). -/
def alarmCode : AlarmCause → Nat
  | .voltage => 0
  | .clock => 1
  | .temperature => 2
  | .inventory => 3
  | .tamper => 8
  | .lid => 9
  | .zeroise => 10

/-- A Level 2 cause. -/
def alarmLevel2 (c : AlarmCause) : Bool := decide (8 ≤ (alarmCode c))

/-- Set an alarm's cause bit. -/
def State.alarmBit (s : State) (c : Nat) : State := s.setWord A.CIP_ALARM (putBits (s.word A.CIP_ALARM) c 1 1)

/-- Every command not in FREE ends without a completion, and its queue enters FAILED, or returns unbound (R496). -/
def State.alarmStop (s : State) : State :=
  let held := s.cq.slots
  let ks := (held.map fun x => queueOf x.1).foldl (fun l k => insertNat k l) []
  let s := s.each (held.map fun x => x.2.order) fun s c => s.endUndelivered c
  s.each ks fun s k =>
    match List.find? (fun (x : Nat × Slot) => queueOf x.1 == k) held with
    | some (i, x) => s.queueFailed i x.cap x.status
    | none => s

/-- Erase every SA, volume and job slot (R488), with what Table 11-9 states for the work that used them. -/
def State.eraseSlots (s : State) : State :=
  let s := s.each (s.cip.sa.map (·.1)) fun s n => s.saKeyGone n
  let s := s.each (s.cip.vol.map (·.1)) fun s v => s.volKeyGone v
  s.each (s.cip.job.map (·.1)) fun s k => s.jobKeyGone k

/-- An INSTALL that runs as an alarm begins loads no key: it ends with code ALARM (R480, R490, R750). -/
def State.installEnds (s : State) : State :=
  s.when s.cip.install.isSome fun s =>
    (((s.onCip fun c => { c with install := none }).cipErr 0x0A).bump A.CIP_INSTALL_FAIL).clearInstall

/-- An alarm's onset (R490). -/
def State.alarm (s : State) (c : AlarmCause) : State :=
  let s := s.installEnds
  let s := (s.alarmBit (alarmCode c)).bump A.CIP_ALARMS
  let s := s.tallySecurity (if alarmLevel2 c then F.CIP_ALARM_L2_CAUSE else F.CIP_ALARM_L1_CAUSE)
  let s := (s.staleWhere fun _ _ => true).alarmStop.eraseSlots
  let s := s.each ((s.trn.sa.filter fun x => decide (getPart x.2 Sa.state ≠ 0)).map (·.1)) fun s n => s.invalidate n
  let s := s.when (alarmLevel2 c) fun s =>
    (s.onAttic fun a => { a with kwk := none }).onCip fun c => { c with zeroing := true }
  s.event .alarmErasure

/-- An input's condition is one that CIP_CTRL lets act (Table 11-8). -/
def State.alarmArmed (s : State) (c : AlarmCause) : Bool :=
  match c with
  | .voltage => true
  | .clock => true
  | .temperature => true
  | .tamper => s.is F.CIP_CTRL_TAMPER_EN
  | .lid => s.is F.CIP_CTRL_LID_EN
  | .inventory => false
  | .zeroise => false

/-- ALARM_ONSET (R490): a condition that counts at a sample; one still present only sets its bit again. -/
def State.alarmOnset (s : State) (c : AlarmCause) : State :=
  if s.alarmArmed c then
    if s.cip.present.contains (alarmCode c) then s.alarmBit (alarmCode c)
    else (s.onCip fun x => { x with present := insertNat (alarmCode c) x.present }).alarm c
  else s

/-- ALARM_CONDITION_END (R490). -/
def State.alarmEnd (s : State) (c : AlarmCause) : State :=
  s.onCip fun x => { x with present := x.present.filter fun k => k != (alarmCode c) }

/-- CIP_CMD ZEROISE (R750). -/
def State.zeroise (s : State) (confirm : Nat) : State :=
  if confirm = 0xA5 then
    (s.alarm .zeroise).flag F.CIP_STATUS_CMD_DONE
  else s.cipErr 0x0B

/-- Write zeros over every Cellar region of a kind (R489). -/
def State.zeroRegion (s : State) (kind : Nat) : State :=
  s.each (List.range 8) fun s n =>
    if s.fld (F.HST_REGION_KIND n) = kind then
      let a := s.fld (F.HST_REGION_BASE n) * 2 ^ 26
      let b := a + s.fld (F.HST_REGION_COUNT n) * 2 ^ 26
      let out := fun (x : Nat) => decide (x < a) || decide (b ≤ x)
      s.onHst fun h => { h with mem := h.mem.filter fun c => out c.1, poison := h.poison.filter fun p => out (p * 32) }
    else s

/-- LEVEL2_ZEROING_DONE (R489): once no dump runs, the landing, staging, read buffer and Larder regions are zeros, and the Pantry
staging partition, which holds nothing between rows (assumption 15), is written whole with zeros. -/
def State.zeroingDone (s : State) : State :=
  if s.cip.zeroing ∧ !s.dumping then
    ((s.each [1, 2, 4, 5] fun s k => s.zeroRegion k).pantryZeroed 0x08).onCip fun c => { c with zeroing := false }
  else s

/-- CIP_CTRL has been written: an input that no longer acts is no present condition (Table 11-8). -/
def State.cipCtrl (s : State) : State :=
  let s := if s.is F.CIP_CTRL_TAMPER_EN then s else s.alarmEnd .tamper
  if s.is F.CIP_CTRL_LID_EN then s else s.alarmEnd .lid

/-- CIP_ALARM has been written: a cause whose condition is present is set again at once (R490). -/
def State.alarmAgain (s : State) : State := s.each s.cip.present fun s c => s.alarmBit c

/-! ### Pipes (R454 to R456) -/

/-- A data port without a pipe in one direction is disabled, and every path on its sub-ports goes DOWN (Table 11-2). -/
def State.portNoPipe (s : State) (n : Nat) : State :=
  if s.piped n then s
  else
    s.each ((List.range 4).map fun k => 4 * n + k) fun s sp =>
      (s.modSp sp fun p => { p with ctrl := putBits p.ctrl 0 1 0 }).pathsLink sp false

/-- Retire a pipe (R456). -/
def State.pipeRetire (s : State) (p : Nat) : State :=
  if p < 98 ∧ !s.attic.pipes.contains p then
    let s := s.onAttic fun a => { a with pipes := insertNat p a.pipes }
    let s := (s.flag F.CIP_STATUS_PIPE_RETIRED).tallyFlag .hardware F.CIP_STATUS_PIPE_RETIRED p [0, 0]
    if p < 32 then s.portNoPipe (p / 4) else s
  else s

/-- What follows a check failure of a pipe (Table 11-2): `what` is the sub-port whose frame the egress pipe sealed, the drive
command whose read a drive agent decrypted, or the job channel. An ingress packet is discarded before it arrives, and a
stripe engine's operation runs again with the same result. -/
def State.checkFailed (s : State) (p what : Nat) : State :=
  if p < 32 then
    if p % 4 < 2 ∧ what / 4 = p / 4 then
      match (s.sp what).wire with
      | some f => s.modSp what fun q => { q with wire := some { f with stomp := true } }
      | none =>
        match s.nextFrame what with
        | some (f, _) => s.modSp what fun q => { q with queue := q.queue.map fun x => if x.name = f.name then { x with stomp := true } else x }
        | none => s
    else s
  else if p < 80 then
    match s.drvCmd what with
    | some c => if c.bay = (p - 32) / 2 ∧ !c.write then s.retryCmd c else s
    | none => s
  else if p < 96 then s
  else
    match Tab.find? what s.cip.jobs with
    | some j => s.onCip fun c => { c with jobs := Tab.set what { j with again := true } c.jobs }
    | none => s

/-- PIPE_CHECK_FAIL (R455, R456). -/
def State.pipeCheck (s : State) (p what : Nat) : State :=
  if p < 98 ∧ !s.attic.pipes.contains p then
    let s := (s.bump A.CIP_CHECK_FAIL).flag F.CIP_STATUS_CHECK_FAIL
    let recent := (s.cip.checks.filter fun x => decide (s.now < x.2 + 1000000000)) ++ [(p, s.now)]
    let s := (s.onCip fun c => { c with checks := recent }).checkFailed p what
    if 3 ≤ (recent.filter fun x => x.1 == p).length then s.pipeRetire p else s
  else s

/-- PIPE_RETIRED_WRITE (R456): ones retire the pipes of a word. -/
def State.pipeWrite (s : State) (w : Nat) (v : Word) : State :=
  s.each ((List.range 32).filter fun b => bit v b) fun s b => s.pipeRetire (32 * w + b)

/-- CIP_STATUS.NO_ENGINE: a chain names no engine with a pipe (Table 11-2). -/
def State.noEngine (s : State) : Bool :=
  s.inv.lock && [1, 2, 3, 4, 5].any fun p => decide (s.chainEngines p ≠ 0) && decide (s.namedEngines p = [])

/-! ### Packet-counter marks (R463) -/

/-- COUNTER_MARK_LANDED: the mark being written becomes the mark, and packets that waited for it go out. -/
def State.markLanded (s : State) (sa : Nat) : State :=
  match Tab.find? sa s.cip.marking with
  | none => s
  | some m =>
    let kcv := match Tab.find? sa s.attic.saMarks with | some r => r.kcv | none => 0
    let s := s.onAttic fun a => { a with saMarks := Tab.set sa ⟨m, kcv⟩ a.saMarks }
    let s := s.onCip fun c => { c with marking := Tab.erase sa c.marking }
    s.releaseBlocked sa s.trn.blocked.length

/-! ### The job engine (R472 to R478) -/

/-- LENGTH rule of a mode and direction (Table 11-5). -/
def jobLengthOk (mode : Nat) (inv : Bool) (len aad : Nat) : Bool :=
  (if mode = 4 then decide (aad ≤ 65536) else decide (aad = 0)) &&
  match mode with
  | 1 => len % 16 == 0 && decide (16 ≤ len) && decide (len ≤ 0x1000000)
  | 2 => if inv then len % 16 == 0 && decide (16 ≤ len) && decide (len ≤ 0x1000000) else decide (len ≤ 0x1000000 - 16)
  | 5 => decide (16 ≤ len) && decide (len ≤ 0x1000000)
  | 7 => len % 8 == 0 && if inv then decide (24 ≤ len) && decide (len ≤ 4104) else decide (16 ≤ len) && decide (len ≤ 4096)
  | _ => decide (len ≤ 0x1000000)

/-- A job's input and output ranges are allowed (R474). -/
def State.jobRangesOk (s : State) (d : BitVec 512) : Bool :=
  let mode := getPart d Job.mode
  let src := getPart d Job.src % 2 ^ 36
  let dst := getPart d Job.dst % 2 ^ 36
  let nin := getPart d Job.aadLength + getPart d Job.length
  let nout := jobOut mode ((getPart d Job.flags).testBit 0) (getPart d Job.length)
  (nin == 0 || s.inRegion 7 src nin) && (nout == 0 || s.inRegion 7 dst nout) &&
    (decide (src + nin ≤ dst) || decide (dst + nout ≤ src) || decide (nin = 0) || decide (nout = 0) ||
      (src == dst && (mode == 1 || mode == 3 || mode == 5)))

/-- The code by which a job is refused, in the order MODE, KEY, LENGTH, ADDRESS (DESIGN CHOICE, assumption 34). -/
def State.jobRefusal (s : State) (d : BitVec 512) : Option Nat :=
  let mode := getPart d Job.mode
  let inv := (getPart d Job.flags).testBit 0
  if mode = 0 ∨ 7 < mode then some 0x0A
  else
    match Tab.find? (getPart d Job.slot) s.cip.job with
    | none => some 0x02
    | some r =>
      if (r.bits == 3) != (mode == 5) ∨ !r.usage.testBit mode ∨ !r.usage.testBit (if inv then 9 else 8) then some 0x02
      else if !jobLengthOk mode inv (getPart d Job.length) (getPart d Job.aadLength) then some 0x01
      else if !s.jobRangesOk d then some 0x07
      else none

/-- The descriptor words of a channel (Table 11-19). -/
def State.jobDesc (s : State) (ch : Nat) : BitVec 512 :=
  let w := fun n => s.word (if ch = 0 then A.CIP_JOB_WORD_0 n else A.CIP_JOB_WORD_1 n)
  ofBytes 512 ((List.range 16).flatMap fun n => toBytes 4 (w n))

/-- CIP_JOB_CMD START (R477). -/
def State.jobStart (s : State) (ch : Nat) : State :=
  if ch < 2 then
    if (Tab.find? ch s.cip.jobs).isSome then s.bump A.CIP_JOB_REFUSED
    else
      let d := s.jobDesc ch
      let j : JobRun := ⟨d, s.jobRefusal d, false⟩
      s.onCip fun c => { c with results := Tab.erase ch c.results, jobs := Tab.set ch j c.jobs }
  else s

/-- CIP_JOB_CMD CANCEL (R477). -/
def State.jobCancel (s : State) (ch : Nat) : State := s.jobStop ch 0x09

/-- What a job computes (Table 11-5): its output, or its code. -/
def jobCompute (mode : Nat) (inv : Bool) (key iv tag aad data : List Byte) : Except Nat (List Byte) :=
  match mode, inv with
  | 1, _ => .ok (aesEcb inv key data)
  | 2, false => .ok (aesCbcEnc key iv data)
  | 2, true => match aesCbcDec key iv data with | some l => .ok l | none => .error 0x04
  | 3, _ => .ok (aesCtr key iv data)
  | 4, false => .ok ((gcmSeal key (iv.take 12) aad data).1 ++ (gcmSeal key (iv.take 12) aad data).2)
  | 4, true => match gcmOpen key (iv.take 12) aad data tag with | some l => .ok l | none => .error 0x03
  | 5, _ => .ok (aesXts inv key (leNat iv) data)
  | 6, false => .ok (aesCmac key data)
  | 6, true => if aesCmac key data = tag then .ok [] else .error 0x03
  | 7, false => .ok (keyWrap key data)
  | 7, true => match keyUnwrap key data with | some l => .ok l | none => .error 0x05
  | _, _ => .error 0x0A

/-- JOB_END (R473 to R478). -/
def State.jobEnd (s : State) (ch : Nat) : State :=
  match Tab.find? ch s.cip.jobs with
  | none => s
  | some j =>
    match j.code with
    | some c => s.jobFinish ch j c [] 0
    | none =>
      let d := j.desc
      let inv := (getPart d Job.flags).testBit 0
      let src := getPart d Job.src % 2 ^ 36
      let aadLen := getPart d Job.aadLength
      let len := getPart d Job.length
      if s.attic.pipes.contains 96 ∧ s.attic.pipes.contains 97 then s.jobFinish ch j 0x0B [] 0
      else if s.rangePoison src (aadLen + len) then s.jobFinish ch j 0x08 [] j.room
      else
        match Tab.find? (getPart d Job.slot) s.cip.job with
        | none => s.jobFinish ch j 0x06 [] j.room
        | some r =>
          match jobCompute (getPart d Job.mode) inv r.key (leBytes 16 (getPart d Job.iv)) (leBytes 16 (getPart d Job.tag))
              (s.cellar src aadLen) (s.cellar (src + aadLen) len) with
          | .ok out => if s.rangeFailed (getPart d Job.dst % 2 ^ 36) out.length then s.jobFinish ch j 0x08 [] j.room else s.jobFinish ch j 0 out 0
          | .error e => s.jobFinish ch j e [] j.room

/-! ### The resident check (R63) -/

/-- RESIDENT_CHECK: a resident section whose bytes are damaged, or do not hash to their digest, fails. -/
def State.residentCheck (s : State) (damaged : List Nat) : State :=
  if s.attic.resident.any fun r => damaged.contains r.code || (decide (sha384 r.body ≠ r.digest)) then
    (s.flag F.INV_STATUS_RESIDENT_FAIL).alarm .inventory
  else s

end Sys2Proof.Machine
end

