-- ==== Sys2Proof/Machine/SelfTest.lean ====
section
/-!
DEFINITION. Self-tests (06_command_queues.md R259 to R261; 19_management.md R715 to R718, R722) and the Warden cores as
records (16_wardens.md R598, R609).
-/

namespace Sys2Proof.Machine

/-- A Warden core after reset (R598; entry 6). -/
def coreDefault : WCore where
  state := .active
  regs := []
  pc := 0
  csrs := []
  mem := []
  wfi := false
  fences := []
  since := 0

/-- A Warden core, 0 to 2. -/
def State.core (s : State) (n : Nat) : WCore := Tab.getD n coreDefault s.wdn.cores

/-- Set a Warden core. -/
def State.setCore (s : State) (n : Nat) (c : WCore) : State := s.onWdn fun w => { w with cores := Tab.set n c w.cores }

/-- The cores in ACTIVE. -/
def State.activeCores (s : State) : List Nat := (List.range 3).filter fun n => decide ((s.core n).state = .active)

/-! ### Results (R261, R718, Table 06-7) -/

/-- The result word of a test that has ended. -/
def testResult (t : SelfTest) (outcome : Nat) : Word :=
  let area := match t.found with | x :: _ => x.1 | [] => 0
  BitVec.ofNat 32 (1 + 2 * t.kind + 16 * outcome + 256 * area + 65536 * min t.found.length 65535)

/-- The result of the last test started; READY is 0 while it runs (R261). -/
def State.testResult (s : State) : Word :=
  match s.mgt.test, s.mgt.log with
  | none, e :: _ => e.result
  | _, _ => 0

/-- MGT_ST_PROGRESS as read (R717). -/
def State.testProgress (s : State) : Word :=
  match s.mgt.test with
  | none => 0
  | some t =>
    let area := if t.kind = 1 then min (t.done + 1) 12
      else match (List.range 8).find? fun g => (s.patrol g).ext.isSome with | some g => 0x20 + g | none => 0
    BitVec.ofNat 32 (t.done * 100 / max 1 t.total + 256 * area + 65536)

/-! ### Start, abort and end -/

/-- Groups that the extended test patrols (R396). -/
def State.testGroups (s : State) : List Nat :=
  (List.range 8).filter fun g => s.grpOn g && s.walksGroup g && decide (getPart (s.grp g) Grp.stripes ≠ 0)

/-- A self-test starts, if none runs (R259): kind 1 short, 2 extended; path code and endpoint for the log (R722). -/
def State.testStart (s : State) (kind path endpoint : Nat) : State :=
  if s.mgt.test.isSome then s
  else
    let gs := s.testGroups
    let total := if kind = 2 then (gs.map fun g => getPart (s.grp g) Grp.stripes).sum else 12
    let t : SelfTest :=
      { kind := kind, path := path, endpoint := endpoint, start := s.now, found := [], done := 0, total := total }
    let s := { s with mgt := { s.mgt with test := some t } }
    if kind = 2 then s.each gs fun s g => s.setPatrol g { s.patrol g with ext := some 0 } else s

/-- The running test ends with an outcome: 1 passed, 2 failed, 3 aborted (R718). -/
def State.testEnd (s : State) (outcome : Nat) : State :=
  match s.mgt.test with
  | none => s
  | some t =>
    let e : TestEntry :=
      { result := Machine.testResult t outcome, start := t.start, stop := s.now, path := t.path, endpoint := t.endpoint
        inst := match t.found with | x :: _ => x.2 | [] => 0 }
    let s := { s with mgt := { s.mgt with test := none, log := (e :: s.mgt.log).take 8 } }
    let s := s.each ((List.range 8).filter fun g => (s.patrol g).ext.isSome) fun s g =>
      s.setPatrol g { s.patrol g with ext := none }
    s.flag F.MGT_STATUS_ST_DONE

/-- SELF_TEST_ABORT stops a running test (R259). -/
def State.testAbort (s : State) : State := s.testEnd 3

/-- Items of an area that the state shows failing, by instance (Table 19-9). -/
def State.areaFails (s : State) (area : Nat) : List Nat :=
  match area with
  | 0x07 => (List.range 3).filter fun n => decide ((s.core n).state ≠ .active)
  | 0x08 => (List.range 32).filter fun n => s.hasSubPort n && s.spEn n && !(s.sp n).link
  | 0x09 => (List.range 24).filter fun n =>
      decide ((s.port n).state = .ready) && decide (((s.port n).rate, (s.port n).width) ≠ (s.port n).trained)
  | 0x0A =>
    (List.range 8).flatMap fun g =>
      if s.grpOn g then
        ((List.range (grpMembers (s.grp g))).filter fun m =>
          s.member g m == Mem.active && !guardOk (s.media (s.bayOfMember g m) 0)).map fun m => s.bayOfMember g m
      else []
  | 0x0B => if s.twoControllers && decide (s.peer.state ≠ .mirrored) then [0] else []
  | 0x0C =>
    (List.range 26).filter fun n => (List.range 2).any fun k =>
      subExists n k && s.is (enField n k) && !(decide ((s.sub n k).state = .on) && (s.sub n k).pg)
  | _ => []

/-- SELF_TEST_END (R716): the short test ends with the items given beside those that the state shows; the extended test ends
once every group has been patrolled. -/
def State.testFinish (s : State) (items : List (Nat × Nat)) : State :=
  match s.mgt.test with
  | none => s
  | some t =>
    if t.kind = 2 then
      if (List.range 8).any fun g => (s.patrol g).ext.isSome then s else s.testEnd (if t.found = [] then 1 else 2)
    else
      let found := (List.range 13).flatMap fun a =>
        (s.areaFails a).map (fun i => (a, i)) ++ items.filter fun x => x.1 == a
      let s := s.each ((List.range 24).filter fun b => match s.memberAt b with
        | some (g, m) => s.member g m == Mem.active
        | none => false) fun s b => s.bump (A.DRV_READS b)
      let s := { s with mgt := { s.mgt with test := some { t with found := found, done := 12 } } }
      s.testEnd (if found = [] then 1 else 2)

end Sys2Proof.Machine
end

