-- ==== Sys2Proof/Machine/Power.lean ====
section
/-!
DEFINITION. Power modes, wake, retention at the exit, islands and the AVSBus (18_power_modes_and_islands.md).
-/

namespace Sys2Proof.Machine

/-! ### Link changes (R502) -/

/-- A sub-port's link changes state: queued frames are lost and the paths on it follow (R159, R502). -/
def State.linkChange (s : State) (n : Nat) (up : Bool) : State :=
  if (s.sp n).link = up then s
  else
    let s := s.modSp n fun p => { p with link := up, fec := up, merge := false }
    let s := if up then s else (s.dropFrames n .txLinkDrop fun _ => true).modSp n fun p => { p with wire := none }
    if n = 32 then s.flag F.MAC_STATUS_MGT_LINK_CHANGE else (s.pathsLink n up).flag F.MAC_STATUS_LINK_CHANGE

/-! ### Islands (R666 to R670) -/

/-- An island; stopped until its first start. -/
def State.island (s : State) (i : Nat) : Island := Tab.getD i ⟨0, 0, false, false, 0, 0⟩ s.pwr.islands

/-- Set an island. -/
def State.setIsland (s : State) (i : Nat) (x : Island) : State := s.onPwr fun p => { p with islands := Tab.set i x p.islands }

/-- Islands at half their maxima in Trim (R673). -/
def trimHalf (i : Nat) : Bool := i == 3 || i == 6 || decide (16 ≤ i)

/-- Maximum of an island in MHz: its ISLAND record's, within its design limit (Table 18-1, R54). -/
def State.islandMax (s : State) (i : Nat) : Nat :=
  match s.islandRec i with
  | some r => min (leAt r 2 2) (islandLimit i)
  | none => islandLimit i

/-- Vmin and Vmax of an island's ISLAND record in mV (R669). -/
def State.islandVolts (s : State) (i : Nat) : Nat × Nat :=
  match s.islandRec i with
  | some r => (leAt r 4 2, leAt r 6 2)
  | none => (0, 0)

/-- An island runs in a mode (Table 18-2): islands of enabled ports are those of agents with a sub-port EN. -/
def State.islandRuns (s : State) (m : PowerMode) (i : Nat) : Bool :=
  let port := decide (8 ≤ i) && decide (i < 16) && (List.range 4).any fun k =>
    s.spEn (4 * (i - 8) + k) && (m != .dormant || bit (s.sp (4 * (i - 8) + k)).ctrl 5)
  match m with
  | .doze => i == 0 || i == 5 || i == 127 || port
  | .dormant => i == 0 || i == 5 || port
  | _ => true

/-- Frequency of an island in a mode, in 1/1,024 MHz (Table 18-2, R673). -/
def State.islandTarget (s : State) (m : PowerMode) (i : Nat) : Nat :=
  let f := s.islandMax i * 1024
  if m = .trim ∧ trimHalf i then f / 2 else f

/-- The islands take a mode. -/
def State.islandsTake (s : State) (m : PowerMode) : State :=
  s.each (List.range 128) fun s i =>
    let x := s.island i
    if s.islandRuns m i then
      let v := if x.volt = 0 then (s.islandVolts i).2 else x.volt
      s.setIsland i { x with volt := v, freq := s.islandTarget m i, gated := false, throttled := false, passes := 0, periods := 0 }
    else s.setIsland i { x with freq := 0, gated := true, throttled := false, passes := 0, periods := 0 }

/-- An island's loop acts on the last period: whether a canary failed, or all passed with margin (R669, R670). -/
def State.islandLoop (s : State) (i : Nat) (failed margin : Bool) : State :=
  let x := s.island i
  let (lo, hi) := s.islandVolts i
  let t := s.islandTarget s.pwr.cur i
  if i < 128 ∧ x.freq ≠ 0 then
    if failed then
      if x.volt < hi then s.setIsland i { x with volt := min hi (x.volt + 5), passes := 0, periods := 0 }
      else
        let s := if x.throttled then s else s.bump A.PWR_THROTTLE_EVENTS
        (s.setIsland i { x with freq := x.freq - t / 32, throttled := true, passes := 0, periods := 0 }).flag F.PWR_STATUS_THROTTLED
    else
      let n := if margin then x.passes + 1 else 0
      let x := if n = 256 then { x with volt := max lo (x.volt - 5), passes := 0 } else { x with passes := n }
      if x.throttled ∧ x.volt + 20 ≤ hi then
        if x.periods + 1 = 1000 then
          let f := min t (x.freq + t / 32)
          s.setIsland i { x with freq := f, throttled := decide (f < t), periods := 0 }
        else s.setIsland i { x with periods := x.periods + 1 }
      else s.setIsland i { x with periods := 0 }
  else s

/-- ISLAND_LOOP_TICK, every 1 us. -/
def State.islandTick (s : State) (i : Nat) (failed margin : Bool) : State :=
  s.every (Tick.island + i) 1000 fun s => s.islandLoop i failed margin

/-- PWR_ISL_STATE as read (Table 18-9). -/
def State.islandWord (s : State) : Word :=
  let x := s.island (s.fld F.PWR_ISL_SEL_ISLAND)
  BitVec.ofNat 32 (x.volt % 1024 + 4096 * (x.freq / 1024 % 2048) + 2 ^ 24 * ofBool x.throttled + 2 ^ 25 * ofBool x.gated)

/-! ### AVSBus (R671, R732, R733) -/

/-- The setpoint of R671 within the rail's limits of R726. -/
def State.railPoint (s : State) : Nat :=
  let v := (s.pwr.islands.map fun x => x.2.volt).foldl max 0
  min 890 (max 640 ((v + 40 + 9) / 10 * 10))

/-- AVS_UPDATE: the power manager sets the regulator, which acknowledges or not; three misses in a row are an error
(R671, R733). -/
def State.avsUpdate (s : State) (acked : Bool) : State :=
  if s.is F.PWR_CTRL_AVS_EN then
    s.every Tick.avs 10000 fun s =>
      let n := if acked then 0 else s.pwr.avsMiss + 1
      let s := (s.onPwr fun p => { p with avsAt := s.now, avsMiss := n }).setFld F.PWR_RAIL_SETPOINT s.railPoint
      if n = 3 then (s.flag F.GLB_STATUS_AVS_ERR).tallyFlag .hardware F.GLB_STATUS_AVS_ERR 0 [s.islandWord.toNat, 0] else s
  else s

/-- PWR_CTRL has been written: AVS_EN gone to 0 writes 0.89 V once (R732). -/
def State.avsCtrl (s : State) (was : Bool) : State :=
  if was ∧ !s.is F.PWR_CTRL_AVS_EN then s.setFld F.PWR_RAIL_SETPOINT 890 else s

/-! ### Mode requests (R674 to R677, R680) -/

/-- The mode of a REQ code (Table 18-5). -/
def modeOf (n : Nat) : PowerMode :=
  match n % 4 with
  | 0 => .active
  | 1 => .trim
  | 2 => .doze
  | _ => .dormant

/-- A request enters WAITING (R674, R676). -/
def State.modeStart (s : State) (m : PowerMode) : State :=
  (s.when m.low State.testAbort).onPwr fun p => { p with phase := .waiting, target := m, since := s.now, drainCkpt := 0 }

/-- MODE_REQUEST: a PWR_MODE write with GO (R674, R675, R680). -/
def State.modeRequest (s : State) (m : PowerMode) : State :=
  if s.pwr.phase = .steady then
    if s.asleep then s.flag F.PWR_STATUS_REFUSED
    else if m = s.pwr.cur then s
    else s.modeStart m
  else if m = s.pwr.target then (s.onPwr fun p => { p with pending := none }).flag F.PWR_STATUS_PENDING_DROPPED
  else s.onPwr fun p => { p with pending := some m }

/-- The transition under way has completed: a pending request runs as a new one (R680). -/
def State.runPending (s : State) : State :=
  match s.pwr.pending with
  | some m => (s.onPwr fun p => { p with pending := none }).modeRequest m
  | none => s

/-- Every Warden in ACTIVE is in WFI (R604, R674). -/
def State.wardensWait (s : State) : Bool := s.activeCores.all fun n => (s.core n).wfi

/-- The drain of R676 but for its checkpoint. -/
def State.drained (s : State) : Bool :=
  decide (s.cq.slots = []) && decide (s.str.live = []) && decide (s.str.waiting = []) && decide (s.trn.tx = []) &&
    decide (s.trn.rx = []) && decide (s.trn.held = [])

/-- The drain goes on: its checkpoint is taken as STR_CMD CHECKPOINT takes one (R676). -/
def State.drainStep (s : State) : State :=
  if s.drained then
    match s.pwr.drainCkpt with
    | 0 => (s.ckptStart false).onPwr fun p => { p with drainCkpt := 1 }
    | 1 => if s.str.ckpt.isNone && !s.str.ckptDue then s.onPwr fun p => { p with drainCkpt := 2 } else s
    | _ => s
  else s

/-- ENTERING begins: PWR_WAKE_RETENTION_FAIL is cleared (R678, Table 18-8). -/
def State.modeEnter (s : State) (m : PowerMode) : State :=
  (s.onPwr fun p => { p with phase := .entering, target := m, since := s.now }).when m.low fun s =>
    s.setPair A.PWR_WAKE_RETENTION_FAIL 0

/-- MODE_COMMIT (R674, R676, R678); a request waits while firmware is activated (R675). -/
def State.modeCommit (s : State) : State :=
  if s.pwr.phase = .waiting ∧ s.activation.isNone then
    if s.pwr.target.low then
      let s := s.drainStep.drainStep
      if s.pwr.drainCkpt = 2 ∧ s.drained ∧ s.wardensWait then s.modeEnter s.pwr.target else s
    else if s.wardensWait then s.modeEnter s.pwr.target
    else s
  else s

/-- DRAIN_LIMIT in ns (Table 18-7). -/
def State.drainLimit (s : State) : Nat := 1000000 * min 10000 (max 1 (s.fld F.PWR_CTRL_DRAIN_LIMIT))

/-- DRAIN_TIMEOUT (R677). -/
def State.drainTimeout (s : State) : State :=
  if s.pwr.phase = .waiting ∧ s.pwr.since + s.drainLimit ≤ s.now then
    let s := s.onPwr fun p => { p with phase := .steady, target := p.cur, since := s.now, drainCkpt := 0 }
    ((s.bump A.PWR_DRAIN_TIMEOUTS).flag F.PWR_STATUS_DRAIN_TIMEOUT).runPending
  else s

/-! ### Wake (R681 to R683) -/

/-- Level wake sources present now (Table 18-3). -/
def State.wakePresent (s : State) : Nat :=
  let energy := (List.range 32).any fun n =>
    (s.fld F.PWR_WAKE_ENERGY_ARMED).testBit n && (s.sp n).energy && !(s.sp n).link
  ofBool energy + 2 * ofBool ((s.sp 32).energy && !(s.sp 32).link) + 4 * ofBool (s.is F.MAC_STATUS_WAKE_PATTERN) +
    8 * ofBool s.pwr.smbAlert + 16 * ofBool (s.peerOn && s.peer.sideLost) +
    64 * ofBool (decide (s.pair A.PWR_WAKE_TIMER ≤ s.now))

/-- An exit starts with the causes given (R684). -/
def State.exitStart (s : State) (cause : Nat) : State :=
  s.onPwr fun p => { p with phase := .exiting, target := .active, since := s.now, cause := cause }

/-- An enabled source that is present ends Doze or Dormant (R681). -/
def State.wakeCheck (s : State) (edge : Nat) : State :=
  let present := s.wakePresent + edge
  if s.asleep ∧ s.pwr.phase = .steady ∧ present &&& s.fld F.PWR_WAKE_EN_EN ≠ 0 then s.exitStart present else s

/-- WAKE: SMB_ALERT_N is sampled with the other sources. -/
def State.wake (s : State) (alertLow : Bool) : State := (s.onPwr fun p => { p with smbAlert := alertLow }).wakeCheck 0

/-- SIDEBAND_WAKE (R682). -/
def State.sideWake (s : State) : State :=
  if s.peerOn then
    s.sideHeard fun s =>
      if s.asleep then
        let t := s.wakeCheck 32
        if s.pwr.phase = .steady ∧ t.pwr.phase = .exiting ∧ (s.fld F.PWR_WAKE_EN_EN).testBit 5 then t.onPeer fun p => { p with oweAck := true } else t
      else (s.sideSend 3).flag F.PEER_STATUS_WAKE_RX
  else s

/-- SIDEBAND_WAKE_ACK (R683). -/
def State.sideWakeAck (s : State) : State := if s.peerOn then s.sideHeard fun s => s.flag F.PWR_STATUS_WAKE_ACK else s

/-- PWR_CMD WAKE_PEER (R683). -/
def State.wakePeer (s : State) : State := if s.peerOn then s.sideSend 2 else s

/-! ### Entry and exit (R678 to R691) -/

/-- A record of class POWER: CUR has changed (R710). -/
def State.tallyMode (s : State) : State := s.tallyEvent .power 14 5 0 s.powerArgs

/-- What an entry to Doze or Dormant does to links (Table 18-2, R678, R691). -/
def State.sleepLinks (s : State) (m : PowerMode) : State :=
  let s := s.when (decide (m = .dormant)) fun s =>
    let off := (List.range 32).filter fun n => !bit (s.sp n).ctrl 5
    let s := s.each (off ++ [32]) fun s n => s.linkChange n false
    s.each (List.range 24) fun s n =>
      if (s.port n).state = .ready then s.modPort n fun p => ({ p with l12 := true }).clock else s
  let down := decide (s.peer.state = .mirrored) || decide (s.peer.state = .joining) || decide (s.peer.state = .sidebandLost)
  (s.onPeer fun p => { p with groups := 0, linkLost := true }).when down fun s => s.peerGo .linkLost

/-- An entry to Doze or Dormant ends: a pending request acts (R680), then the wake sources. -/
def State.enteredLow (s : State) (m : PowerMode) (counter : Nat) : State :=
  let s := (s.bump counter).sleepLinks m
  match s.pwr.pending with
  | some .dormant =>
    let s := s.onPwr fun p => { p with pending := none }
    if m = .doze then s.modeEnter .dormant else (s.modeRequest .dormant).wakeCheck 0
  | some .doze => ((s.onPwr fun p => { p with pending := none }).modeRequest .doze).wakeCheck 0
  | some _ => (s.onPwr fun p => { p with pending := none }).exitStart (s.wakePresent + 128)
  | none => s.wakeCheck 0

/-- MODE_ENTRY_DONE: CUR takes the new mode; sources are sampled after the wake window (R678 to R681). -/
def State.modeEntered (s : State) : State :=
  if s.pwr.phase = .entering then
    let m := s.pwr.target
    let s := (s.onPwr fun p => { p with cur := m, phase := .steady, since := s.now }).tallyMode.islandsTake m
    match m with
    | .doze => s.enteredLow m A.PWR_DOZE_ENTRIES
    | .dormant => s.enteredLow m A.PWR_DORMANT_ENTRIES
    | .trim => ((s.bump A.PWR_TRIM_ENTRIES).flag F.PWR_STATUS_MODE_DONE).runPending
    | .active => (s.flag F.PWR_STATUS_MODE_DONE).runPending
  else s

/-- Time of an exit in ns (Table 18-2). -/
def exitTime (m : PowerMode) : Nat := if m = .dormant then 30000000 else 200000

/-- A drive came or went while the part slept: its port takes the transition at the exit (R688). -/
def State.portsWake (s : State) : State :=
  s.each (List.range 24) fun s n =>
    let p := s.port n
    let s := s.modPort n fun p => ({ p with l12 := false }).clock
    if !p.presence ∧ p.state ≠ .empty ∧ p.state ≠ .removed then s.portRemoved n
    else if p.presence ∧ p.state = .empty then s.portInserted n
    else s.portPower n

/-- EXIT_DONE (R684 to R688): the banks whose signatures differ, and the resident sections found damaged. The peer agent resumes by
Table 17-4: a sideband that was lost meanwhile is acted on (R691). -/
def State.exitDone (s : State) (lost damaged : List Nat) : State :=
  if s.pwr.phase = .exiting ∧ s.pwr.since + exitTime s.pwr.cur ≤ s.now then
    let s := (s.setWord A.PWR_WAKE_PART_FAIL 0).setWord A.PWR_WAKE_CAUSE (BitVec.ofNat 32 s.pwr.cause)
    let s := (s.onPwr fun p => { p with cur := .active, phase := .steady, since := s.now }).bump A.PWR_WAKES
    let s := (((s.tallyMode.flag F.PWR_STATUS_WOKEN).flag F.PWR_STATUS_MODE_DONE).islandsTake .active)
    let s := (s.each lost fun s b => s.loseBank b).zeroUnretained
    let s := (s.residentCheck damaged).portsWake
    let now := s.now
    let s := s.onRsv fun r => { r with lat := r.lat.map fun x => (x.1, { x.2 with last := now }) }
    let s := s.when (decide (s.peer.state = .linkLost)) State.lossState
    let s := s.when s.peer.oweAck fun s => (s.sideSend 3).onPeer fun p => { p with oweAck := false }
    s.runPending
  else s

/-- REMOVAL_RECOGNISED (R567, R688): asleep, the bay's enables are cleared at once and the port follows at the exit. -/
def State.removal (s : State) (n : Nat) : State :=
  if s.asleep then (s.modPort n fun p => { p with presence := false, presenceAt := s.now }).bayOff n else s.portRemoved n

/-- INSERTION_RECOGNISED (R565, R688). -/
def State.insertion (s : State) (n : Nat) : State :=
  if s.asleep then s.modPort n fun p => { p with presence := true, presenceAt := s.now } else s.portInserted n

end Sys2Proof.Machine
end

