-- ==== Sys2Proof/Machine/Loader.lean ====
section
/-!
DEFINITION. The Inventory loader: loads, commits, key slots and the boot load (02_inventory.md R58 to R77).
-/

namespace Sys2Proof.Machine

/-- The code of a path (Table 02-10). -/
def pathCode : Path → Nat
  | .mgmt => 1
  | .smbus0 => 2
  | .smbus1 => 3
  | .wardens => 4

/-- The code of a loader state (Table 02-10). -/
def LoaderState.code : LoaderState → Nat
  | .empty => 0
  | .opened => 1
  | .locked => 4

/-- Serial of the resident image; 0 while none is in force (R73, Table 02-13). -/
def State.invSerial (s : State) : Nat := if s.inv.lock then s.residentSerial else 0

/-- Serial of the staged candidate, or 0 (Table 02-13). -/
def State.stagedSerial (s : State) : Nat :=
  match s.attic.staged with
  | some l => leAt l 16 8
  | none => 0

/-- INV_STATUS as read (Table 02-10). -/
def State.invWord (s : State) : Word :=
  let w := putBits (s.word A.INV_STATUS) 0 4 s.inv.state.code
  let w := putBits w 8 1 (ofBool (decide (s.invSerial < s.stagedSerial)))
  putBits w 12 3 (match s.inv.path with | some p => pathCode p | none => 0)

/-- A record of class CONFIG (R710, Table 19-6): serial and status word. -/
def State.tallyConfig (s : State) (f : Fld) (serial status : Nat) : State := s.tallyFlag .config f 0 [serial, status]

/-- A loader command ends with an error (Table 02-12). -/
def State.invErr (s : State) (e : LoadErr) : State :=
  let s := (s.setFld F.INV_ERROR_CODE e.code).setFld F.INV_ERROR_SECTION e.sec
  (s.setFld F.INV_ERROR_RECORD e.record).flag F.INV_STATUS_ERR

/-- The open load is closed and its buffer discarded (Table 02-5). -/
def State.invClose (s : State) : State := s.onInv fun i => { i with state := i.prior, path := none, buffer := [] }

/-- A load is open. -/
def State.loadOpen (s : State) : Bool := decide (s.inv.state = .opened)

/-- A loader access by a path: while a load is open, one by another path is ignored and counted (R64). -/
def State.fromPath (s : State) (p : Path) (f : State → State) : State :=
  if s.loadOpen && decide (s.inv.path ≠ some p) then s.satAdd F.INV_STATUS_FOREIGN else f s

/-- INV_CTRL OPEN (R64): from another path than the open load's it is a foreign command, counted and without BUSY (DEDUCED,
entry 118). -/
def State.invOpen (s : State) (p : Path) : State :=
  s.fromPath p fun s =>
    if s.loadOpen then s.invErr ⟨0x0E, 0, 0xFFFF⟩
    else s.onInv fun i => { i with prior := i.state, state := .opened, path := some p, buffer := [], lastData := s.now }

/-- A write of INV_DATA (R64, Table 02-11). -/
def State.invData (s : State) (p : Path) (w : Word) : State :=
  s.fromPath p fun s =>
    if s.loadOpen then
      if 4194304 < s.inv.buffer.length + 4 then (s.invErr ⟨0x0F, 0, 0xFFFF⟩).invClose
      else s.onInv fun i => { i with buffer := i.buffer ++ toBytes 4 w, lastData := s.now }
    else s

/-- INV_CTRL ABORT (Table 02-5). -/
def State.invAbort (s : State) (p : Path) : State := s.fromPath p fun s => if s.loadOpen then s.invClose else s

/-- LOAD_IDLE_TIMEOUT (R65). -/
def State.invIdle (s : State) : State := if s.loadOpen ∧ s.inv.lastData + 10000000000 ≤ s.now then s.invClose else s

/-! ### Applying images (R68 to R74) -/

/-- Resident sections of an image (R63). -/
def residentOf (serial : Nat) (xs : List Section) : List ResidentSection :=
  xs.map fun x => { code := x.code, body := x.body, digest := sha384 x.body, serial := serial }

/-- INV_SECTION_SERIAL of the live sections of an image (Table 02-15). -/
def State.sectionSerials (s : State) (serial : Nat) (xs : List Section) : State :=
  s.each ((List.range 4).filter fun n => xs.any fun x => x.code == 0x10 + n) fun s n =>
    s.setWord (A.INV_SECTION_SERIAL n) (BitVec.ofNat 32 serial)

/-- Apply a full image: sections in type order, the Pantry partitioned and zeroed, resident copy, lock (Table 02-6). -/
def State.applyImage (s : State) (img : List Byte) (xs : List Section) : State :=
  let serial := leAt img 16 8
  let s := s.onInv fun i => { i with sections := sectionTable xs, flags := leAt img 6 2 }
  let s := s.each ((List.range 15).filter fun c => c != 0x04) fun s c => s.zeroPartition c
  let s := (s.onWin fun w => { w with keys := [] }).onAttic fun a => { a with resident := residentOf serial xs }
  let s := ((s.islandsTake s.pwr.cur).larderResize).sectionSerials serial xs
  s.onInv fun i => { i with lock := true, state := .locked, path := none, buffer := [] }

/-- Switch the live sections of a partial image (R72, R73). -/
def State.partialSwitch (s : State) (img : List Byte) (xs : List Section) : State :=
  let serial := leAt img 16 8
  let sched := s.sect 0x10
  let policer := s.sect 0x11
  let has := fun (c : Nat) => xs.any fun x => x.code == c
  let body := fun (c : Nat) (l : List Byte) => match xs.find? fun x => x.code == c with | some x => x.body | none => l
  let s := s.onInv fun i => { i with sections := i.sections.map fun x => (x.1, body x.1 x.2) }
  let s := (s.when (has 0x10) fun s => s.schedSwitch sched).when (has 0x11) fun s => s.policerSwitch policer
  let fresh := residentOf serial xs
  let s := (s.when (has 0x13) State.larderResize).onAttic fun a => { a with
    resident := a.resident.map fun r => (fresh.find? fun f => f.code == r.code).getD r }
  s.sectionSerials serial xs

/-- INV_CTRL COMMIT_FULL (R50 to R60, R66, R67); with no load open it does nothing (DESIGN CHOICE, assumption 119). -/
def State.commitFull (s : State) (p : Path) : State :=
  s.fromPath p fun s =>
    if s.loadOpen then
      let img := s.inv.buffer
      match imageCheck s.fuses.keys false 0 (fun _ => []) img with
      | .error e => (s.invErr e).invClose
      | .ok xs =>
        if leAt img 16 8 < s.attic.floor then (s.invErr ⟨0x07, 0, 0xFFFF⟩).invClose
        else
          let s := s.onAttic fun a => { a with staged := some img }
          let s := if s.inv.prior = .empty then s.applyImage img xs else s.invClose
          let s := s.flag F.INV_STATUS_DONE
          s.tallyConfig F.INV_STATUS_DONE (leAt img 16 8) s.invWord.toNat
    else s

/-- INV_CTRL COMMIT_PARTIAL (R61, R71 to R74): with no image in force it ends in BASE_SERIAL (Table 02-5), before any other
check (DEDUCED, assumption 173); with no load open it does nothing (DESIGN CHOICE, assumption 119).
A serial not greater than the resident one is refused with ROLLBACK (DESIGN CHOICE, assumption 156). -/
def State.commitPartial (s : State) (p : Path) : State :=
  s.fromPath p fun s =>
    if s.loadOpen then
      let img := s.inv.buffer
      if s.inv.prior = .empty then (s.invErr ⟨0x0C, 0, 0xFFFF⟩).invClose else
      match imageCheck s.fuses.keys true s.inv.flags s.sect img with
      | .error e => (s.invErr e).invClose
      | .ok xs =>
        if leAt img 24 8 ≠ s.invSerial then (s.invErr ⟨0x0C, 0, 0xFFFF⟩).invClose
        else if leAt img 16 8 ≤ s.invSerial then (s.invErr ⟨0x07, 0, 0xFFFF⟩).invClose
        else
          let s := ((s.partialSwitch img xs).invClose).flag F.INV_STATUS_DONE
          s.tallyConfig F.INV_STATUS_DONE (leAt img 16 8) s.invWord.toNat
    else s

/-! ### Key slots and the floor (R62, R76, R77) -/

/-- A signing key slot. -/
def State.keySlot (s : State) (n : Nat) : KeySlot := Tab.getD n ⟨none, false⟩ s.fuses.keys

/-- Set a signing key slot. -/
def State.setKeySlot (s : State) (n : Nat) (k : KeySlot) : State :=
  { s with fuses := { s.fuses with keys := Tab.set n k s.fuses.keys } }

/-- INV_CTRL KEY_PROGRAM (R76): a slot that may not be programmed leaves KEY_SLOT, and then no open load or a buffer of
another length LENGTH (DESIGN CHOICE, assumption 116). -/
def State.keyProgram (s : State) (p : Path) (slot : Nat) : State :=
  s.fromPath p fun s =>
    if ¬ (1 ≤ slot ∧ slot ≤ 3 ∧ (s.keySlot slot).hash = none) then s.invErr ⟨0x06, 0, 0xFFFF⟩
    else if ¬ (s.loadOpen ∧ s.inv.buffer.length = 48) then s.invErr ⟨0x03, 0, 0xFFFF⟩
    else (s.setKeySlot slot { s.keySlot slot with hash := some (beNat s.inv.buffer) }).flag F.INV_STATUS_DONE

/-- INV_CTRL RAISE_FLOOR (R77). -/
def State.raiseFloor (s : State) (p : Path) : State :=
  s.fromPath p fun s => (s.onAttic fun a => { a with floor := max a.floor s.invSerial }).flag F.INV_STATUS_DONE

/-- KEYSLOT_REVOKE (R62). -/
def State.keyRevoke (s : State) (n : Nat) : State :=
  if n < 4 then s.setKeySlot n { s.keySlot n with revoked := true } else s

/-! ### The boot load (R68) -/

/-- Bytes of the boot flash; an erased byte reads 0xFF (R741). -/
def State.flashRead (s : State) (addr n : Nat) : List Byte := Mem.read 0xFF s.flash.mem addr n

/-- A flash slot's image, if the slot is not empty (R741). -/
def State.flashImage (s : State) (off limit lenAt : Nat) : Option (List Byte) :=
  if s.flashRead off 4 = [0xFF, 0xFF, 0xFF, 0xFF] then none
  else
    let n := leNat (s.flashRead (off + lenAt) 4)
    if n ≤ limit then some (s.flashRead off n) else none

/-- The candidates of R68 in order, with their BOOT_SOURCE codes. -/
def State.bootCandidates (s : State) : List (Nat × List Byte) :=
  [(1, s.attic.staged), (2, s.flashImage 0 0x400000 12), (3, s.flashImage 0x400000 0x400000 12)].filterMap fun x =>
    x.2.map fun l => (x.1, l)

/-- The candidate the loader applies (R68): its source, image and sections. -/
def State.bootChoice (s : State) : Option (Nat × List Byte × List Section) :=
  let ok := s.bootCandidates.filterMap fun x =>
    match imageCheck s.fuses.keys false 0 (fun _ => []) x.2 with
    | .ok xs => if leAt x.2 16 8 < s.attic.floor then none else some (x.1, x.2, xs)
    | .error _ => none
  ok.foldl (fun (a : Option (Nat × List Byte × List Section)) x =>
    match a with
    | some y => if leAt y.2.1 16 8 < leAt x.2.1 16 8 then some x else a
    | none => some x) none

/-- BOOT_LOAD (R68, Table 02-6): with no valid candidate the loader stays EMPTY. -/
def State.bootLoad (s : State) : State :=
  match s.bootChoice with
  | some (src, img, xs) => (s.applyImage img xs).setFld F.INV_STATUS_BOOT_SOURCE src
  | none => s.onAttic fun a => { a with resident := [] }

end Sys2Proof.Machine
end

