-- ==== Sys2Proof/Machine/Warden.lean ====
section
/-!
DEFINITION. The Warden complex, Stocktake, firmware images and interrupts (16_wardens.md).
-/

namespace Sys2Proof.Machine

/-! ### Registers as read (Tables 16-13 and 16-14) -/

/-- Code of MODE (Table 16-13). -/
def ComplexMode.code : ComplexMode → Nat
  | .triple => 0
  | .duplex => 1
  | .restarting => 2
  | .halted => 3

/-- A mask of the cores in states of a test. -/
def State.coreMask (s : State) (p : CoreState → Bool) : Nat :=
  ((List.range 3).filter fun n => p (s.core n).state).foldl (fun a n => a + 2 ^ n) 0

/-- FENCED, TESTING or RESYNCING (Table 16-13). -/
def CoreState.away : CoreState → Bool
  | .fenced => true
  | .testing => true
  | .resyncing => true
  | _ => false

/-- WDN_CORE as read (Table 16-13). -/
def State.coreWord (s : State) : Word :=
  BitVec.ofNat 32 (s.coreMask (· == .active) + 16 * s.coreMask CoreState.away + 256 * s.coreMask (· == .retired) +
    4096 * s.wdn.mode.code)

/-- A block has a W1C field that reads 1 (Table 16-2). -/
def State.blockPending (s : State) (blk : Nat) : Bool :=
  s.regs.any fun x => x.1 / 0x100000 == blk && match regDesc x.1 with
    | some d => d.fields.any fun f => decide (f.acc = .w1c) && decide (getBits x.2 f.lo f.width ≠ 0)
    | none => false

/-- A command waits for the Wardens (Table 16-2). -/
def State.adminPending (s : State) : Bool :=
  s.cq.slots.any fun x => decide (x.2.state = .executing) && decide (x.2.wait = .firmware)

/-- Unread records at which TALLY pends (Table 16-14). -/
def State.tallyMark (s : State) : Nat := min 4096 (max 1 (s.fld F.WDN_TALLY_MARK_MARK))

/-- The oldest unread record is more than 1 ms old, or enough are unread (Table 16-2). -/
def State.tallyPending (s : State) : Bool :=
  decide (s.tallyMark ≤ s.mgt.unread) || (decide (0 < s.mgt.unread) &&
    match Tab.find? s.mgt.read s.mgt.tally with
    | some r => decide (getPart r Trec.time + 1000000 < s.now)
    | none => false)

/-- WDN_IRQ_PEND as read (Table 16-14). -/
def State.irqPend (s : State) : Nat :=
  ((List.range 16).filter s.blockPending).foldl (fun a n => a + 2 ^ n) 0 + 2 ^ 16 * ofBool s.adminPending +
    2 ^ 17 * ofBool s.tallyPending

/-- The machine timer interrupt pends (R602). -/
def State.timerPending (s : State) : Bool := decide (s.pair A.WDN_MTIMECMP ≤ s.now)

/-- An interrupt of R602 pends. -/
def State.irqPending (s : State) : Bool :=
  s.timerPending || decide (s.irqPend &&& s.fld F.WDN_IRQ_EN_EN ≠ 0) || decide (s.fld F.WDN_MCHECK_SOURCE ≠ 0)

/-- WFI (R604): the cores in ACTIVE execute it in lockstep; a pending interrupt ends it at once. -/
def State.wfi (s : State) : State :=
  if s.irqPending then s else s.each s.activeCores fun s n => s.setCore n { s.core n with wfi := true }

/-- TIMER_INTERRUPT (R602): a pending interrupt ends the WFI of running cores. -/
def State.timerInterrupt (s : State) : State :=
  if s.timerPending then s.each s.activeCores fun s n => s.setCore n { s.core n with wfi := false } else s

/-! ### Firmware images (R621, R622, R738, R739) -/

/-- An image passes R622. -/
def fwImageOk (keys : Tab KeySlot) (floor : Nat) (img : List Byte) : Bool :=
  let code := leAt img 24 4
  let sig := img.drop (128 + code)
  decide (img.take 4 = [0x4B, 0x46, 0x57, 0x49]) && leAt img 4 2 == 1 && leAt img 6 2 == 0 && leAt img 8 4 == 0x4B2400A1 &&
    leAt img 12 4 == 128 + code + 208 && img.length == 128 + code + 208 && decide (leAt img 16 8 ≠ 0) && code % 8 == 0 &&
    decide (4096 ≤ code) && decide (code ≤ 786432) && leAt img 28 4 % 2 == 0 && decide (leAt img 28 4 < code) &&
    decide (leAt img 32 1 < 4) && zeros img 33 15 && zeros img 96 32 && keySlotOk keys (leAt img 32 1) sig &&
    beAt img 48 48 == sha384 (slice img 128 code) && decide (floor ≤ leAt img 16 8) &&
    signatureOk sig (sha384 (img.take (128 + code)))

/-- The firmware images of slots 0 and 1 that pass, by slot. -/
def State.fwImages (s : State) : List (Nat × List Byte) :=
  [0, 1].filterMap fun k =>
    (s.flashImage (0x800000 + 0x100000 * k) 0x100000 12).bind fun l =>
      if fwImageOk s.fuses.keys s.attic.fwFloor l then some (k, l) else none

/-- The image the boot ROM starts (R738). -/
def State.fwChoice (s : State) : Option (Nat × List Byte) :=
  s.fwImages.foldl (fun (a : Option (Nat × List Byte)) x =>
    match a with
    | some y => if leAt y.2 16 8 < leAt x.2 16 8 then some x else a
    | none => some x) none

/-- Code in private memory from offset 0 (R600). -/
def codeMem (code : List Byte) : Mem := (code.zipIdx.filter fun x => x.1 != 0).map fun x => (x.2, x.1)

/-- Start the ACTIVE cores on an image: private memory, ENTRY, a0 (R600). -/
def State.startCores (s : State) (img : List Byte) (slot : Option Nat) (reason : Nat) : State :=
  let m := codeMem (slice img 128 (leAt img 24 4))
  let entry := leAt img 28 4
  let s := s.each s.activeCores fun s n => s.setCore n { s.core n with
    regs := Tab.put 0 10 (BitVec.ofNat 64 reason) [], csrs := [], mem := m, wfi := false
    pc := BitVec.ofNat 64 (0x100000 + entry) }
  let s := s.setFld F.GLB_BOOT_FW_SLOT (slot.getD 3)
  s.onWdn fun w => { w with startReason := reason, entry := entry, fwSerial := leAt img 16 8, fwSlot := slot, recovery := false }

/-- FIRMWARE_BOOT (R738, R739): the chosen image, or the recovery loop. -/
def State.fwBoot (s : State) (reason : Nat) : State :=
  match s.fwChoice with
  | some (k, img) => s.startCores img (some k) reason
  | none =>
    let s := s.each s.activeCores fun s n => s.setCore n { s.core n with regs := [], csrs := [], mem := [], wfi := false, pc := 0 }
    (s.setFld F.GLB_BOOT_FW_SLOT 3).onWdn fun w =>
      { w with startReason := reason, entry := 0, fwSerial := 0, fwSlot := none, recovery := true }

/-! ### Core states (R607 to R612) -/

/-- MODE by the number of ACTIVE cores, while the complex runs. -/
def State.complexMode (s : State) : State :=
  match s.wdn.mode with
  | .restarting => s
  | .halted => s
  | _ => s.onWdn fun w => { w with mode := if s.activeCores.length = 3 then .triple else .duplex }

/-- A core is retired: recorded in the Attic (Table 16-4). -/
def State.coreRetire (s : State) (n : Nat) : State :=
  let s := s.setCore n { s.core n with state := .retired, since := s.now, wfi := false }
  ((s.onAttic fun a => { a with cores := insertNat n a.cores }).flag F.WDN_STATUS_CORE_RETIRED).complexMode

/-- A core is FENCED (Table 16-4). -/
def State.coreFence (s : State) (n : Nat) : State :=
  let c := s.core n
  let s := s.setCore n { c with state := .fenced, since := s.now, wfi := false, fences := s.now :: within24h s.now c.fences }
  (s.flag F.WDN_STATUS_FENCED).complexMode

/-- A disagreement is counted and recorded: its mask of cores and its site (R607, R608). -/
def State.disagreed (s : State) (mask site inst : Nat) : State :=
  let s := (s.setFld F.WDN_DISAGREE_CORE mask).setFld F.WDN_DISAGREE_SITE site
  let s := (s.bump A.WDN_DISAGREEMENTS).flag F.WDN_STATUS_DISAGREE
  let s := s.onWdn fun w => { w with disagreements := s.now :: within24h s.now w.disagreements }
  s.tallyFlag .hardware F.WDN_STATUS_DISAGREE inst [(s.word A.WDN_DISAGREE).toNat, site]

/-- NO_MAJORITY: every core is held in reset for the restart of R608. -/
def State.noMajority (s : State) : State :=
  let s := s.disagreed 7 4 0
  let s := s.each ((List.range 3).filter fun n => decide ((s.core n).state ≠ .retired)) fun s n =>
    s.setCore n { s.core n with state := .testing, since := s.now, wfi := false }
  let s := s.onWdn fun w => { w with mode := .restarting, restarts := s.now :: within24h s.now w.restarts }
  (s.bump A.WDN_RESTARTS).flag F.WDN_STATUS_RESTARTED

/-- The complex runs: neither RESTARTING nor HALTED. -/
def State.complexRuns (s : State) : Bool := decide (s.wdn.mode = .triple) || decide (s.wdn.mode = .duplex)

/-- DISAGREEMENT at a site 1 to 3 with a core in the minority (R606, R607); at site 4, NO_MAJORITY, all cores differ, and with
only two cores ACTIVE there is no majority either (DEDUCED, assumption 170). -/
def State.disagreement (s : State) (core site : Nat) : State :=
  if s.complexRuns ∧ s.activeCores.contains core ∧ 1 ≤ site ∧ site ≤ 4 then
    if s.activeCores.length = 3 ∧ site ≠ 4 then (s.disagreed (2 ^ core) site core).coreFence core else s.noMajority
  else s

/-- What a comparison of one value per ACTIVE core shows (R606). -/
def State.compareCores {α : Type} [DecidableEq α] (s : State) (site : Nat) (f : WCore → α) : State :=
  match s.activeCores with
  | [a, b, c] =>
    let x := f (s.core a)
    let y := f (s.core b)
    let z := f (s.core c)
    if x = y ∧ y = z then s
    else if x = y then s.disagreement c site
    else if x = z then s.disagreement b site
    else if y = z then s.disagreement a site
    else s.noMajority
  | [a, b] => if f (s.core a) = f (s.core b) then s else s.noMajority
  | _ => s

/-- A core's signature: CRC-32C of its integer registers and CSRs (R606; the order of the bytes is DESIGN CHOICE,
assumption 6). -/
def WCore.signature (c : WCore) : BitVec 32 :=
  crc32c ((List.range 32).flatMap (fun n => toBytes 8 (Tab.getD n 0 c.regs)) ++ c.csrs.flatMap fun x => leBytes 2 x.1 ++ toBytes 8 x.2)

/-- SIGNATURE_COMPARE, every 1 ms (R606). -/
def State.signatures (s : State) : State :=
  s.every Tick.watch 1000000 fun s => if s.complexRuns then s.compareCores 2 WCore.signature else s

/-- MEMORY_SWEEP, every 100 ms (R606, R615): words found uncorrectable as (core, word); one bad in two or three cores is a
machine check (Table 16-3). -/
def State.memorySweep (s : State) (bad : List (Nat × Nat)) : State :=
  s.every Tick.sweep 100000000 fun s =>
    if s.complexRuns then
      let hit := fun (x : Nat × Nat) => bad.any fun y => y.2 == x.2 && y.1 != x.1
      let s := s.when (bad.any hit) fun s => s.mcheck 3
      let s := s.each (bad.filter fun x => !hit x) fun s x => s.disagreement x.1 3
      s.compareCores 3 WCore.mem
    else s

/-- WARDEN_RESTART (R608): the cores whose BIST fails are retired, and those that pass boot in lockstep. -/
def State.wardenRestart (s : State) (failing : List Nat) : State :=
  if s.wdn.mode = .halted then s
  else
    let s := if s.wdn.mode = .restarting then s else s.noMajority
    let ready := (List.range 3).filter fun n => decide ((s.core n).state ≠ .retired)
    let s := s.each (ready.filter failing.contains) fun s n => s.coreRetire n
    let pass := ready.filter fun n => !failing.contains n
    if pass.length < 2 then s.onWdn fun w => { w with mode := .halted }
    else
      let s := s.each pass fun s n => s.setCore n { s.core n with state := .active, since := s.now }
      (s.onWdn fun w => { w with mode := .duplex }).complexMode.fwBoot 1

/-- FENCE_EXPIRY (Table 16-4). -/
def State.fenceExpiry (s : State) (n : Nat) : State :=
  let c := s.core n
  if n < 3 ∧ c.state = .fenced ∧ s.is F.WDN_CTRL_AUTO_RESYNC ∧ c.since + 1000000 ≤ s.now then
    s.setCore n { c with state := .testing, since := s.now }
  else s

/-- WDN_CTRL.FENCE_LIMIT in force (Table 16-11). -/
def State.fenceLimit (s : State) : Nat := max 1 (s.fld F.WDN_CTRL_FENCE_LIMIT)

/-- A run of a Stocktake test: its bit, counters and record (R617, R618). -/
def State.testRan (s : State) (item inst : Nat) (failed : Bool) : State :=
  let b := 2 ^ item
  let s := (s.bump A.WDN_STOCK_TESTS).onWdn fun w => { w with
    testsRun := w.testsRun ||| b
    testsFailed := if failed then w.testsFailed ||| b else if w.testsFailed.testBit item then w.testsFailed - b else w.testsFailed }
  if failed then
    ((s.bump A.WDN_STOCK_FAILS).flag F.WDN_STATUS_STOCK_FAIL).tallyFlag .hardware F.WDN_STATUS_STOCK_FAIL inst
      [(s.word A.WDN_DISAGREE).toNat, item]
  else s

/-- BIST_DONE of a core that was fenced (Table 16-4); it is Stocktake's item 1. -/
def State.bistDone (s : State) (n : Nat) (pass : Bool) : State :=
  let c := s.core n
  if n < 3 ∧ c.state = .testing ∧ s.wdn.mode ≠ .restarting ∧ c.since + 40000000 ≤ s.now then
    let s := s.testRan 1 n (!pass)
    if pass ∧ (within24h s.now c.fences).length < s.fenceLimit then s.setCore n { c with state := .resyncing, since := s.now }
    else s.coreRetire n
  else s

/-- The cores wait in WFI for a power mode (R611). -/
def State.modeWait (s : State) : Bool := decide (s.pwr.phase ≠ .steady) && s.wardensWait

/-- RESYNC_COPY (R610, R611). -/
def State.resyncCopy (s : State) (n : Nat) : State :=
  match s.activeCores with
  | a :: _ :: _ =>
    if n < 3 ∧ (s.core n).state = .resyncing ∧ s.complexRuns ∧ s.activation.isNone ∧ !s.modeWait then
      let c := s.core a
      let s := s.setCore n { s.core n with
        state := .active, since := s.now, regs := c.regs, csrs := c.csrs, pc := c.pc, mem := c.mem, wfi := c.wfi }
      ((s.bump A.WDN_RESYNCS).flag F.WDN_STATUS_RESYNC_DONE).complexMode
    else s
  | _ => s

/-- WDN_CMD FENCE (R612). -/
def State.fenceCmd (s : State) (n : Nat) : State :=
  if s.activeCores.contains n ∧ 3 ≤ s.activeCores.length then s.coreFence n else s

/-- WDN_CMD RESYNC (Table 16-4). -/
def State.resyncCmd (s : State) (n : Nat) : State :=
  if n < 3 ∧ (s.core n).state = .fenced then s.setCore n { s.core n with state := .testing, since := s.now } else s

/-- WDN_CMD RETIRE (R612). -/
def State.retireCmd (s : State) (n : Nat) : State :=
  if n < 3 ∧ (s.core n).state ≠ .retired ∧ 2 ≤ (s.activeCores.filter fun k => k != n).length then s.coreRetire n else s

/-! ### Activation and floor (R627, R628) -/

/-- The firmware slot that did not supply the running image (R624); slot 0 under the recovery loop (R739). -/
def State.otherSlot (s : State) : Nat := match s.wdn.fwSlot with | some 0 => 1 | _ => 0

/-- WDN_CMD ACTIVATE (R627). A poisoned cell of the image is a machine check (R603). -/
def State.wdnActivate (s : State) : State :=
  let a := s.pair A.WDN_FW_SRC % 2 ^ 36
  let code := leAt (s.cellar a 128) 24 4
  let img := s.cellar a (128 + code)
  let here := s.inRegion 7 a (128 + code)
  let bad := here && s.rangePoison a (128 + code)
  let valid := here && decide (code ≤ 786432) && !bad && beAt img 48 48 == sha384 (slice img 128 code)
  let s := s.when s.complexRuns fun s => (s.when here fun s => s.cellsTaken 36 (cellSpan a (128 + code))).when bad fun s => s.mcheck 1
  if !s.complexRuns then s
  else if valid then
    let s := s.startCores img (some s.otherSlot) 2
    let s := (s.bump A.WDN_ACTIVATIONS).flag F.WDN_STATUS_ACTIVATED
    s.tallyConfig F.WDN_STATUS_ACTIVATED (leAt img 16 8) (s.word A.WDN_STATUS).toNat
  else s.flag F.WDN_STATUS_ACTIVATE_FAIL

/-- WDN_CMD RAISE_FLOOR (R628). -/
def State.wdnRaiseFloor (s : State) : State := s.onAttic fun a => { a with fwFloor := max a.fwFloor s.wdn.fwSerial }

/-! ### Stocktake (R616 to R620) -/

/-- Interval of an item's test on one instance, in s (Table 16-6). -/
def stockInterval (item : Nat) : Nat :=
  match item with
  | 0 => 1
  | 2 => 10
  | 3 => 3600
  | 4 => 60
  | 5 => 1
  | 6 => 3600
  | 7 => 10
  | 8 => 1
  | 9 => 60
  | _ => 86400

/-- An item's test has something to run on (Table 16-6): item 5 an agent of either role, item 7 an OFF sub-channel. Item 1 runs
with the BIST of a fenced core. -/
def State.stockMay (s : State) (item inst : Nat) : Bool :=
  let role := fun (k : Nat) => [38, 39, 40, 41].any fun n => s.agentOn n && s.agentRole n == k
  match item with
  | 1 => false
  | 5 => role 1 && role 2
  | 7 => (List.range 2).any fun k => subExists inst k && decide ((s.sub inst k).state = .off)
  | _ => decide (item ≤ 10)

/-- What a test that failed brings (Table 16-6). -/
def State.stockFailed (s : State) (item inst : Nat) : State :=
  match item with
  | 0 => s.flag F.WDN_STATUS_VOTER_FAULT
  | 2 => s.pipeRetire inst
  | 3 => s.onWdn fun w => { w with badSpares := insertNat inst w.badSpares }
  | _ => s

/-- STOCKTAKE_TEST: one run of an item on an instance, once in its interval (R616, R617). -/
def State.stocktake (s : State) (item inst : Nat) (failed : Bool) : State :=
  if s.is F.WDN_CTRL_STOCKTAKE_EN ∧ s.stockMay item inst then
    s.every (Tick.stock + item + 11 * inst) (1000000000 * stockInterval item) fun s =>
      (s.testRan item inst failed).when failed fun s => s.stockFailed item inst
  else s

/-- Blocks of Pantry rows with no free spare (PANTRY_OUT). -/
def State.pantryOut (s : State) : Nat :=
  if s.hst.pantrySpare = [] ∧ s.wdn.badSpares = [] then 0
  else ((List.range 640).filter fun b => (s.freeSpare (b / 10) (b % 10 * 512)).isNone).length

/-- HEALTH (R619). -/
def State.healthCode (s : State) : Nat :=
  let gs := (List.range 8).map s.groupState
  let retired := s.attic.retired.length
  if s.wdn.mode = .halted ∨ s.is F.HST_STATUS_CELLAR_CRITICAL ∨ gs.contains 4 then 3
  else if s.wdn.testsFailed ≠ 0 ∨ gs.contains 3 ∨ retired = 4 ∨ s.noEngine then 2
  else if s.activeCores.length ≠ 3 ∨ s.attic.pipes ≠ [] ∨ retired ≠ 0 ∨ s.pantryOut ≠ 0 ∨ gs.contains 2 then 1
  else 0

/-- The stock report, 256 B (Table 16-7). -/
def State.stockBytes (s : State) : List Byte :=
  let n24 := fun (l : List Nat) => (within24h s.now l).length
  let ce := (s.hst.pcs.map fun x => x.2.ce24h).sum
  let groups := ((List.range 8).map fun g => s.groupState g * 8 ^ g).sum
  let l := [0x4B, 0x53, 0x54, 0x4B] ++ leBytes 2 1 ++ leBytes 1 s.side ++ leBytes 1 s.healthCode ++ leBytes 8 s.wdn.reportSeq ++
    leBytes 8 s.now ++ leBytes 1 (s.coreMask (· == .active) + 8 * s.coreMask CoreState.away) ++
    leBytes 1 (s.coreMask (· == .retired) + 16 * s.wdn.mode.code) ++ leBytes 2 (n24 s.wdn.disagreements) ++
    leBytes 2 (n24 s.wdn.restarts) ++ leBytes 2 s.hst.pantrySpare.length ++ leBytes 2 s.pantryOut ++
    leBytes 1 s.attic.retired.length ++ leBytes 1 s.attic.pipes.length ++ leBytes 4 ce ++ leBytes 4 (n24 s.wdn.ues) ++
    leBytes 4 s.wdn.testsFailed ++ leBytes 4 s.wdn.testsRun ++ leBytes 4 groups ++ leBytes 4 s.readyMask ++
    leBytes 1 (s.fld F.GLB_THERM_TEMP) ++ leBytes 1 (s.fld F.CIP_ALARM_L1_CAUSE + 16 * s.fld F.CIP_ALARM_L2_CAUSE) ++
    leBytes 2 0 ++ leBytes 8 s.invSerial ++ leBytes 8 s.wdn.fwSerial ++ List.replicate 172 0
  l ++ leBytes 4 (crc32c l).toNat

/-- STOCK_REPORT, every 1 s of shelf time (R618). -/
def State.stockReport (s : State) : State :=
  s.every Tick.report 1000000000 fun s =>
    let l := s.stockBytes
    let s := (s.onWdn fun w => { w with report := l, reportSeq := w.reportSeq + 1, testsRun := 0 }).flag F.WDN_STATUS_REPORT
    s.when (s.twoControllers && s.is F.WDN_CTRL_REPORT_PEER && s.peerOn) fun s => s.peerSend Pm.health l

/-- A read of WDN_REPORT[0] (R620). -/
def State.reportRead (s : State) : State := s.onWdn fun w => { w with reportSnap := w.report }

end Sys2Proof.Machine
end

