-- ==== Sys2Proof/Machine/Retire.lean ====
section
/-!
DEFINITION. Cellar errors and the retirement of pseudo-channels (03_cellar_and_hoist.md R108 to R120).
-/

namespace Sys2Proof.Machine

/-! ### Where slices stand -/

/-- The slices that stand on a pseudo-channel: those of withdrawn segments are no longer used (R88, R115). -/
def State.slicesOn (s : State) (p : Nat) : List Nat :=
  (List.range 24576).filter fun x => !s.hst.withdrawn.contains (x / 32) && (s.slicePlace x).1 == p

/-- A pseudo-channel takes spill slices: it is neither retired nor being retired. -/
def State.pcSound (s : State) (p : Nat) : Bool := decide ((s.pc p).state = .active)

/-- Free slices of the spare pool that may be spilled to: they stand on pseudo-channels neither retired nor being retired
(R115). -/
def State.poolSlices (s : State) : List (Nat × Nat) := s.hst.pool.filter fun x => s.pcSound x.1

/-- How many of a list of places stand on pseudo-channels not retired, as R115 and Table 03-10 count them. -/
def State.heldPlaces (s : State) (l : List (Nat × Nat)) : Nat := (l.filter fun x => decide ((s.pc x.1).state ≠ .retired)).length

/-- The places of the slices of a segment. -/
def State.segmentPlaces (s : State) (seg : Nat) : List (Nat × Nat) := (List.range 32).map fun b => s.slicePlace (seg * 32 + b)

/-- Retired pseudo-channels. -/
def State.retiredPcs (s : State) : Nat := ((List.range 64).filter fun p => decide ((s.pc p).state = .retired)).length

/-! ### Starting a retirement (R113 to R118) -/

/-- Retirement of a pseudo-channel is possible (R117): while the slices of a failed one are still switched it is, since no
pseudo-channel is MIGRATING. -/
def State.mayRetire (s : State) (p : Nat) : Bool :=
  decide (s.retiredPcs < 4) && decide ((s.pc (p / 2 * 2 + 1 - p % 2)).state ≠ .retired) &&
    (List.range 64).all fun q => decide ((s.pc q).state ≠ .migrating)

/-- Slices that the retirements in progress still take from the pool, beyond those that their withdrawn segments bring. -/
def State.poolPromised (s : State) : Nat :=
  (s.hst.migration.map fun m =>
    if m.pinWait then (s.slicesOn m.pc).length - (m.segs.flatMap s.segmentPlaces |>.filter fun x => s.pcSound x.1).length
    else m.todo.length).sum

/-- Segments withdrawn from the highest of the Larder region down until the pool holds 384 slices (R115). -/
def State.withdrawFor (s : State) (free : Nat) : List Nat → List Nat
  | [] => []
  | g :: t =>
    if 384 ≤ free then []
    else g :: s.withdrawFor (free + s.heldPlaces (s.segmentPlaces g)) t

/-- Segments of the Larder region not yet withdrawn, highest first. -/
def State.larderTop (s : State) : List Nat :=
  match s.regionOf 5 with
  | some (b, c) => ((List.range c).map fun k => b + (c - 1 - k)).filter fun g => !s.hst.withdrawn.contains g
  | none => []

/-- A retirement starts: segments are withdrawn, and the lines in them made STALE (R115). Slices promised to another
retirement in progress do not count (DEDUCED, assumption 126). -/
def State.retireStart (s : State) (p cause : Nat) (failure : Bool) : State :=
  let s := s.setPc p { s.pc p with state := if failure then .retired else .migrating, cause := cause }
  let segs := s.withdrawFor (s.heldPlaces s.hst.pool - s.poolPromised) s.larderTop
  let s := s.staleWhere fun i _ => segs.contains (s.lineAddr i / 2 ^ 26)
  let m : Migration := { pc := p, failure := failure, pinWait := true, segs := segs, todo := [] }
  s.onHst fun h => { h with withdrawn := h.withdrawn ++ segs, migration := h.migration ++ [m] }

/-- The Attic takes a retirement with the slice map, the pool and the withdrawn segments (Table 03-5). -/
def State.retireSave (s : State) (p : Nat) : State :=
  let c := (s.pc p).cause
  let h := s.hst
  s.onAttic fun a => { a with
    retired := (a.retired.filter fun x => x.1 != p) ++ [(p, c)], withdrawn := h.withdrawn, pool := h.pool, sliceMap := h.sliceMap }

/-- A pseudo-channel reaches RETIRED (Table 03-5). -/
def State.retireRecord (s : State) (p : Nat) : State := (s.retireSave p).flag F.HST_STATUS_PC_RETIRED

/-- The predictive condition (R113, R117): outside the limits it is refused. -/
def State.predictive (s : State) (p cause : Nat) : State :=
  if !s.mayRetire p then s.flag F.HST_STATUS_RETIRE_REFUSED
  else if (s.pc p).state = .retired then s
  else s.retireStart p cause false

/-- HST_RETIRE (R113, Table 03-11). -/
def State.retireCommand (s : State) (p : Nat) : State := if p < 64 then s.predictive p 2 else s

/-- Four uncorrectable granules found within 1 s (R114). -/
def State.fourErrors (s : State) (p : Nat) : Bool :=
  match (s.pc p).ueTimes with
  | a :: _ :: _ :: d :: _ => decide (a ≤ d + 1000000000)
  | _ => false

/-- Change the retirement in progress of a pseudo-channel. -/
def State.modMigration (s : State) (p : Nat) (f : Migration → Migration) : State :=
  s.onHst fun h => { h with migration := h.migration.map fun m => if m.pc = p then f m else m }

/-- The failure condition (R114, R117, R118, Table 03-5). -/
def State.pcFailure (s : State) (p : Nat) (noAnswer : Bool) : State :=
  if p < 64 ∧ (noAnswer ∨ s.fourErrors p) then
    match (s.pc p).state with
    | .active =>
      if s.mayRetire p then (s.retireStart p 3 true).retireRecord p
      else (s.setPc p { s.pc p with critical := true }).flag F.HST_STATUS_CELLAR_CRITICAL
    | .migrating =>
      let s := s.setPc p { s.pc p with state := .retired, cause := 3 }
      (s.modMigration p fun m => { m with failure := true }).retireRecord p
    | .retired => s
  else s

/-! ### Errors of granules (R109, R110, R114) -/

/-- CE limit in force (Table 03-12). -/
def State.ceLimit (s : State) : Nat := max 1 (s.fld F.HST_CE_LIMIT_LIMIT)

/-- Pseudo-channel that holds a granule. -/
def State.granulePc (s : State) (g : Nat) : Nat := (s.slicePlace (sliceOf (g / 8))).1

/-- A correction is counted; the predictive condition may follow (R110, R113). -/
def State.granuleCe (s : State) (g : Nat) : State :=
  let p := s.granulePc g
  let s := (s.bump A.HST_CE_TOTAL).flag F.HST_STATUS_CELLAR_CE
  let r := s.pc p
  let s := s.setPc p { r with ce24h := min 65535 (r.ce24h + 1) }
  if s.is F.HST_CTRL_AUTO_RETIRE ∧ s.ceLimit ≤ (s.pc p).ce24h then s.predictive p 1 else s

/-- An uncorrectable granule is found: the cells of it that are still to be delivered carry POISON, and every cell read until a write
covers it (R109, R114). One found again counts again
towards the four of R114 (DEDUCED, assumption 122). -/
def State.granuleUe (s : State) (g : Nat) : State :=
  let p := s.granulePc g
  let s := (s.bump A.HST_UE_TOTAL).flag F.HST_STATUS_CELLAR_UE
  let s := (s.setFld F.HST_UE_CELL_CELL (g / 8)).setFld F.HST_UE_CELL_GRANULE (g % 8)
  let mark := fun (c : HCell) => if c.caddr = g / 8 then { c with poison := true } else c
  let s := s.onHst fun h => { h with poison := insertNat g h.poison, rq := h.rq.map fun x => (x.1, x.2.map mark) }
  let s := s.onWdn fun w => { w with ues := s.now :: within24h s.now w.ues }
  let r := s.pc p
  s.setPc p { r with ueTimes := (s.now :: r.ueTimes).take 4 }

/-- What the granule code makes of a read (R108): one erroneous byte is corrected; two or three, and a read of the wrong location,
are detected. Of more the spec says nothing: whether they are detected, taken for a correction or missed is free (assumption 127). -/
def State.granuleRead (s : State) (g : Nat) : GranuleFault → State
  | .location => s.granuleUe g
  | .bytes n =>
    match n with
    | 0 => s
    | 1 => s.granuleCe g
    | 2 => s.granuleUe g
    | 3 => s.granuleUe g
    | _ =>
      let (k, s) := s.draw 32
      match k % 3 with
      | 0 => s
      | 1 => s.granuleCe g
      | _ => s.granuleUe g

/-- CELLAR_SCRUB of a granule (R110). -/
def State.cellarScrub (s : State) (g : Nat) (finding : GranuleFault) : State :=
  if s.is F.HST_CTRL_CELLAR_SCRUB_EN ∧ g < 768 * 2 ^ 21 then s.granuleRead g finding else s

/-- CE_24H_CLEAR (R112). -/
def State.ceClear (s : State) : State :=
  s.every Tick.ceClear day fun s => s.each (List.range 64) fun s p => s.setPc p { s.pc p with ce24h := 0 }

/-! ### The slices (R115, R119, R120) -/

/-- No line in a withdrawn segment is pinned (R115). -/
def State.unpinned (s : State) (segs : List Nat) : Bool :=
  (s.linesWhere fun i e => segs.contains (s.lineAddr i / 2 ^ 26) && (getPart e Dir.pins != 0 || s.filling i)).isEmpty

/-- The last slice has been switched (R119, Table 03-5). -/
def State.retireDone (s : State) (m : Migration) : State :=
  let s := s.onHst fun h => { h with migration := h.migration.filter fun x => x.pc != m.pc }
  if m.failure then s.retireSave m.pc
  else
    let s := (s.setPc m.pc { s.pc m.pc with state := .retired }).retireRecord m.pc
    (s.flag F.HST_STATUS_MIGRATION_DONE).tallyFlag .hardware F.HST_STATUS_PC_RETIRED m.pc
      [(s.word A.HST_UE_CELL).toNat, (s.pc m.pc).cause]

/-- PIN_WAIT_END (R115): the pool is filled, the Larder takes its new size, and the slices are ready to switch. -/
def State.pinWaitEnd (s : State) : State :=
  match s.hst.migration.find? fun m => m.pinWait && s.unpinned m.segs with
  | some m =>
    let places := m.segs.flatMap s.segmentPlaces
    let todo := s.slicesOn m.pc
    let s := (s.modMigration m.pc fun m => { m with pinWait := false, segs := [], todo := todo }).onHst fun h =>
      { h with pool := h.pool ++ places }
    let s := s.larderResize
    if todo = [] then s.retireDone { m with todo := [] } else s
  | none => s

/-- SLICE_SWITCH (R119, R120): the lowest slice left of a retirement moves to the pool's first slice; after a failure every
cell of it reads POISON until a full-cell write. -/
def State.sliceSwitch (s : State) : State :=
  match s.hst.migration.find? fun m => !m.pinWait, s.poolSlices with
  | some m, y :: _ =>
    match m.todo with
    | x :: t =>
      let m := { m with todo := t }
      let s := (s.modMigration m.pc fun _ => m).onHst fun h => { h with
        sliceMap := Tab.set x y h.sliceMap, pool := h.pool.erase y
        badSlices := if m.failure then insertNat x h.badSlices else h.badSlices
        goodCells := if m.failure then h.goodCells.filter fun c => sliceOf c != x else h.goodCells }
      if t = [] then s.retireDone m
      else if m.failure then s.retireSave m.pc else s
    | [] => s
  | _, _ => s

/-! ### HST_CAPACITY and HST_SLICE_DATA (Tables 03-10 and 03-16) -/

/-- HST_CAPACITY as read. -/
def State.capacityWord (s : State) : Word :=
  BitVec.ofNat 32 ((768 - s.hst.withdrawn.length) + 2 ^ 10 * s.retiredPcs + 2 ^ 16 * (s.heldPlaces s.hst.pool % 512))

/-- A cell of a slice is poisoned. -/
def State.slicePoison (s : State) (x : Nat) : Bool :=
  s.sliceFailed x || (s.hst.poison.any fun g => sliceOf (g / 8) == x) ||
    (s.hst.badSlices.contains x && decide ((s.hst.goodCells.filter fun c => sliceOf c == x).length < 8192))

/-- HST_SLICE_DATA as read: the entry that HST_SLICE_INDEX selects; a segment that does not exist reads 0 (DEDUCED,
assumption 140). -/
def State.sliceWord (s : State) : Word :=
  let g := s.fld F.HST_SLICE_INDEX_SEGMENT
  let x := g * 32 + s.fld F.HST_SLICE_INDEX_BANK_GROUP
  if 768 ≤ g then 0
  else
    let y := s.slicePlace x
    BitVec.ofNat 32 (y.1 + 2 ^ 6 * y.2 + 2 ^ 15 * ofBool (Tab.find? x s.hst.sliceMap).isSome +
      2 ^ 16 * ofBool (s.slicePoison x) + 2 ^ 17 * ofBool (s.hst.withdrawn.contains g))

/-- HST_PC_STATE as read (Table 03-19). -/
def State.pcWord (s : State) (p : Nat) : Word :=
  let r := s.pc p
  let st := match r.state with | .active => 0 | .migrating => 1 | .retired => 2
  BitVec.ofNat 32 (st + 4 * r.cause + 2 ^ 16 * min 65535 r.ce24h)

end Sys2Proof.Machine
end

