-- ==== Sys2Proof/Machine/Package.lean ====
section
/-!
DEFINITION. Resets, boot, PG_IN, the boot flash and THERM_N (20_electrical_and_package.md R728 to R748).
-/

namespace Sys2Proof.Machine

/-! ### Resets (R735, R736) -/

/-- A port after a device reset: the presence the bay shows is the drive's, not the part's (R565). -/
def portAfterReset (p : Port) : Port := { portDefault with presence := p.presence }

/-- The machine after a device reset: fuses, boot flash, Attic, the drives and the pins outside the part are kept (R735). -/
def State.resetKeep (s : State) : State :=
  let ports := s.drv.ports.filterMap fun x => if x.2.presence then some (x.1, portAfterReset x.2) else none
  let drv := { State.reset.drv with ports := ports }
  let glb := { State.reset.glb with pgIn := s.glb.pgIn, resetN := s.glb.resetN }
  { State.reset with
    free := s.free, attic := s.attic, fuses := s.fuses, flash := s.flash, drives := s.drives, pending := s.pending
    drv := drv, glb := glb }

/-- A full device reset (R735): its cause, and whether a sealed dump preceded it (R748). -/
def State.deviceReset (s : State) (cause : Nat) (dumped : Bool) : State :=
  (s.resetKeep.setFld F.GLB_RESET_CAUSE_CAUSE cause).setFld F.GLB_RESET_CAUSE_DUMPED (ofBool dumped)

/-- POWER_ON_RESET (R728, R735): no dump; the board raises PG_IN and RESET_N afresh (Table 20-4). Held in reset already, what
preceded the reset is unchanged. -/
def State.powerOnReset (s : State) : State :=
  let dumped := match s.glb.phase with
    | .powerHold => true
    | .held => s.is F.GLB_RESET_CAUSE_DUMPED
    | _ => false
  (s.onGlb fun g => { g with pgIn := false, resetN := false }).deviceReset 0 dumped

/-- A request for a reset of a cause (R735, R736). -/
def State.resetRequest (s : State) (cause : Nat) : State :=
  match s.glb.phase with
  | .running => s.dump.onGlb fun g => { g with phase := .resetDump cause }
  | .lossDump => s.onGlb fun g => { g with wanted := true }
  | .powerHold => s.onGlb fun g => { g with wanted := true }
  | .resetDump _ => s
  | .held => s

/-- RESET_N low for 1 us (Table 20-5). -/
def State.resetPin (s : State) : State := (s.onGlb fun g => { g with resetN := false }).resetRequest 1

/-- A write of GLB_RESET (Table 20-11). -/
def State.resetCommand (s : State) (confirm : Nat) : State := if confirm = 0x5A then s.resetRequest 2 else s

/-- DUMP_SEALED (R344, R346, R735, R736). -/
def State.dumpSealed (s : State) : State :=
  match s.glb.phase with
  | .lossDump => s.dumpSeal.onGlb fun g => { g with phase := .powerHold }
  | .resetDump c => s.dumpSeal.deviceReset c true
  | _ => s

/-- POWER_HOLD_EXIT (R346): the line has stayed deasserted for 100 ms. -/
def State.powerHoldExit (s : State) : State :=
  if s.glb.phase = .powerHold ∧ !s.bay.powerLoss ∧ s.bay.lineAt + 100000000 ≤ s.now then s.deviceReset 3 true else s

/-! ### Boot (R730, R737 to R739) -/

/-- Map the slices of a retired pseudo-channel that its retirement had not switched yet onto the spare pool (Table 20-6). -/
def State.bootSlices (s : State) (p : Nat) : State :=
  s.each (s.slicesOn p) fun s x =>
    match s.attic.pool with
    | y :: t => s.onAttic fun a => { a with pool := t, sliceMap := Tab.set x y a.sliceMap }
    | [] => s

/-- Restore what the Attic header holds of pseudo-channels and slices (Table 03-5, Table 20-6). -/
def State.restoreCellar (s : State) : State :=
  let a := s.attic
  let s := s.onHst fun h => { h with withdrawn := a.withdrawn, pool := a.pool, sliceMap := a.sliceMap }
  let s := s.each a.retired fun s x => s.setPc x.1 { pcDefault with state := .retired, cause := x.2 }
  let s := s.each a.retired fun s x => (s.bootSlices x.1).onHst fun h => { h with sliceMap := s.attic.sliceMap, pool := s.attic.pool }
  s.onHst fun h => { h with sliceMap := s.attic.sliceMap, pool := s.attic.pool }

/-- Restore the rebuild walks' records (R384): up to two targets of each group. -/
def State.restoreRebuild (s : State) : State :=
  s.each (List.range 8) fun s g =>
    let l := s.attic.rebuild.filter fun x => x.1 / 32 == g
    s.each (l.zip (List.range 2)) fun s (x, t) =>
      let whole := x.2.2.2 && (x.2.1 == 0 || x.2.2.1 == x.2.1)
      let y : Target := { member := x.1 % 32, start := x.2.1, point := x.2.2.1, wrapped := x.2.2.2, done := whole }
      s.onRbd fun r => { r with targets := Tab.set (2 * g + t) y r.targets }

/-- The patrol points come back with the Attic (Table 09-13). -/
def State.restorePatrol (s : State) : State :=
  s.onRbd fun r => { r with patrols := s.attic.patrols.map fun x => (x.1, { patrolDefault with point := x.2 }) }

/-- BOOT_START (R730, R737, Table 20-6): the time to firmware start, the flash mode found, and the cores whose BIST fails.
The reset it ends has drawn a debug nonce, which nothing could read before (R720). -/
def State.bootStart (s : State) (fwMs flashMode : Nat) (failing : List Nat) : State :=
  if s.glb.phase = .held then
    let s := s.onGlb fun g => { g with pgIn := true, resetN := true, phase := .running }
    let s := s.restoreCellar.restoreRebuild.restorePatrol.islandsTake .active
    let s := s.each s.attic.cores fun s n => s.setCore n { s.core n with state := .retired }
    let s := s.each (s.activeCores.filter failing.contains) fun s n => s.coreRetire n
    let s := (s.setFld F.GLB_BOOT_FW_MS fwMs).setFld F.GLB_BOOT_FLASH_MODE flashMode
    let (nonce, s) := s.bootLoad.draw 64
    let s := s.setPair A.MGT_DBG_NONCE nonce
    let s := if s.activeCores.length < 2 then s.onWdn fun w => { w with mode := .halted } else (s.complexMode).fwBoot 0
    s.each ((List.range 24).filter fun n => (s.port n).presence) fun s n => s.portInserted n
  else s

/-- PG_IN_LOW (R731). -/
def State.pgInLow (s : State) : State :=
  let s := s.onGlb fun g => { g with pgIn := false }
  if s.glb.phase = .held then s
  else ((s.onGlb fun g => { g with pgLoss := true }).when s.up fun s => s.flag F.GLB_STATUS_PG_LOST).powerLoss

/-! ### The boot flash (R740 to R742) -/

/-- Bytes a GLB_SPI command reaches: first and number. An erase uses the sector that holds the address. -/
def SpiRun.span (r : SpiRun) : Nat × Nat :=
  match r.cmd with
  | 3 => (r.addr / 4096 * 4096, 4096)
  | 4 => (r.addr / 65536 * 65536, 65536)
  | _ => (r.addr, r.len)

/-- Two byte ranges meet. -/
def rangesMeet (a n b m : Nat) : Bool := decide (a < b + m) && decide (b < a + n)

/-- The protected slots: first byte and size (R742). -/
def State.flashGuarded (s : State) : List (Nat × Nat) :=
  (match s.wdn.fwSlot with | some k => [(0x800000 + 0x100000 * k, 0x100000)] | none => []) ++
    (match s.fld F.INV_STATUS_BOOT_SOURCE with | 2 => [(0, 0x400000)] | 3 => [(0x400000, 0x400000)] | _ => [])

/-- A GLB_SPI command starts (Table 20-13); LEN above 64 acts as 64 (DESIGN CHOICE, assumption 167). -/
def State.spiStart (s : State) (cmd len : Nat) : State :=
  if s.glb.spi.isSome then s
  else
    let n := min 64 len
    let data := ((List.range 16).flatMap fun k => toBytes 4 (s.word (A.GLB_SPI_DATA k))).take n
    s.onGlb fun g => { g with spi := some { cmd := cmd, addr := s.fld F.GLB_SPI_ADDR_ADDR, len := n, data := data } }

/-- How a GLB_SPI command ends (Table 20-13, R742). -/
def State.spiError (s : State) (r : SpiRun) (timeout : Bool) : Nat :=
  let (a, n) := r.span
  if r.cmd ≠ 1 ∧ s.flashGuarded.any fun x => rangesMeet a n x.1 x.2 then 1
  else if s.flash.size < a + n then 3
  else if timeout then 2
  else 0

/-- Put the bytes read into GLB_SPI_DATA from byte 0 on. -/
def State.spiData (s : State) (l : List Byte) : State :=
  s.each (List.range ((l.length + 3) / 4)) fun s k =>
    let old := toBytes 4 (s.word (A.GLB_SPI_DATA k))
    let new := slice l (4 * k) 4
    s.setWord (A.GLB_SPI_DATA k) (BitVec.ofNat 32 (leNat (new ++ old.drop new.length)))

/-- The bytes a command leaves in its span: programming clears bits (PRESUMED, as a NOR flash does: assumption 36), erasing sets them. -/
def State.spiBytes (s : State) (r : SpiRun) : List Byte :=
  match r.cmd with
  | 2 => (s.flashRead r.span.1 r.span.2).zipWith (· &&& ·) r.data
  | 3 => List.replicate 4096 0xFF
  | 4 => List.replicate 65536 0xFF
  | _ => s.flashRead r.span.1 r.span.2

/-- Write flash bytes. -/
def State.flashWrite (s : State) (addr : Nat) (l : List Byte) : State :=
  { s with flash := { s.flash with mem := Mem.write 0xFF s.flash.mem addr l } }

/-- A command that timed out: which of its bytes were reached is free (assumption 1). -/
def State.spiPart (s : State) (old new : List Byte) : List Byte × State :=
  ((old.zip new).zipIdx.map fun x => if Config.freeBool (s.free + x.2) then x.1.2 else x.1.1, { s with free := s.free + old.length })

/-- SPI_DONE (R742, Table 20-13). -/
def State.spiDone (s : State) (timeout : Bool) : State :=
  match s.glb.spi with
  | none => s
  | some r =>
    let e := s.spiError r timeout
    let s := (s.onGlb fun g => { g with spi := none }).setFld F.GLB_SPI_CTRL_ERR e
    let put := fun (s : State) (l : List Byte) => if r.cmd = 1 then s.spiData l else s.flashWrite r.span.1 l
    if e = 0 then (put s (s.spiBytes r)).flag F.GLB_STATUS_SPI_DONE
    else
      let s := s.flag F.GLB_STATUS_SPI_ERR
      if e = 2 then
        let old := if r.cmd = 1 then ((List.range 16).flatMap fun k => toBytes 4 (s.word (A.GLB_SPI_DATA k))).take r.len
          else s.flashRead r.span.1 r.span.2
        let (l, s) := s.spiPart old (s.spiBytes r)
        put s l
      else s

/-! ### THERM_N (R745) -/

/-- GLB_THERM.LIMIT in force, 90 to 130 degrees (Table 20-12). -/
def State.thermLimit (s : State) : Nat := max 90 (min 130 (s.fld F.GLB_THERM_LIMIT))

/-- THERM: the highest die sensor, in degrees (R745). -/
def State.therm (s : State) (temp : Int) : State :=
  let l : Int := (s.thermLimit : Nat)
  let was := s.is F.GLB_THERM_THERM
  let low := decide (l ≤ temp) || (was && decide (l - 3 < temp))
  let s := (s.setFld F.GLB_THERM_TEMP (temp % 256).toNat).setFld F.GLB_THERM_THERM (ofBool low)
  if low && !was then s.flag F.GLB_STATUS_THERM else s

end Sys2Proof.Machine
end

