-- ==== Sys2Proof/Machine/Frames.lean ====
section
/-!
DEFINITION. A received frame: its checks, its filters and the answers hardware gives (12_ethernet_ports.md R501, R504,
R507, R510, R515, R520, R521, R524 to R527).
-/

namespace Sys2Proof.Machine

/-! ### Address filters -/

/-- An exact entry matches a destination at a sub-port (R520). -/
def State.exactHit (s : State) (n : Nat) (da : List Byte) : Bool :=
  (List.range 32).any fun e =>
    match Tab.find? (n / 4 * 32 + e) s.mac.exact with
    | some (lo, hi) => bit hi 31 && bit hi (16 + n % 4) && beNat da == lo.toNat + 2 ^ 32 * getBits hi 0 16
    | none => false

/-- A group address's bin accepts it at a port (R521). -/
def State.hashHit (s : State) (port : Nat) (da : List Byte) : Bool :=
  let b := (crc32 da).toNat % 512
  (s.fld (F.MAC_HASH_BINS (16 * port + b / 32))).testBit (b % 32)

/-! ### What a frame is -/

/-- What a received frame is for, or why it is dropped (R504). -/
inductive RxFrame where
  /-- Dropped under a counter. -/
  | drop (c : MacCount)
  /-- A wake pattern frame's payload (R524). -/
  | wake (body : List Byte)
  /-- A pause or PFC frame, from its MAC control opcode on (R516). -/
  | pause (body : List Byte)
  /-- An ARP packet (R507). -/
  | arp (body : List Byte)
  /-- A neighbour solicitation: source address and target (R507). -/
  | solicit (src target : List Byte)
  /-- A UDP datagram: IPv6, traffic class, addresses, source port, destination port, payload, IP length. -/
  | udp (v6 : Bool) (tos : Nat) (src dst : List Byte) (sport dport : Nat) (body : List Byte) (iplen : Nat)
  deriving DecidableEq, Repr

/-- Type and payload of a frame past its addresses and its one tag; none with any other tag (R504).
0x88A8 and 0x9100 are the other tags (PRESUMED, assumption 172). -/
def untag (l : List Byte) : Option (Nat × List Byte) :=
  let t := fun (n : Nat) => n == 0x8100 || n == 0x88A8 || n == 0x9100
  let a := beAt l 12 2
  let b := beAt l 16 2
  if a = 0x8100 then if t b then none else some (b, l.drop 18)
  else if t a then none else some (a, l.drop 14)

/-- The IPv6 extension headers (R130, PRESUMED from RFC 8200's registry, assumption 172). -/
def isExtension (n : Nat) : Bool := [0, 43, 44, 50, 51, 60, 135, 139, 140, 253, 254].contains n

/-- The UDP datagram of an IP payload, or its drop (R133, R504): a length that does not fit fails the UDP check. -/
def udpOf (v6 : Bool) (tos : Nat) (src dst l : List Byte) (iplen : Nat) : RxFrame :=
  let n := beAt l 4 2
  let c := beAt l 6 2
  let pseudo := if v6 then pseudo6 src dst n 17 else src ++ dst ++ [0, 17] ++ beBytes 2 n
  if n < 8 ∨ l.length < n then .drop .rxUdpErr
  else if (c = 0 ∧ v6) ∨ (c ≠ 0 ∧ sum16 (pseudo ++ l.take n) ≠ 0xFFFF) then .drop .rxUdpErr
  else .udp v6 tos src dst (beAt l 0 2) (beAt l 2 2) ((l.take n).drop 8) iplen

/-- An IP packet against the rules of R130 and the sub-port's own addresses (R504). -/
def SubPort.ipv4Rx (p : SubPort) (l : List Byte) : RxFrame :=
  let n := beAt l 2 2
  let dst := slice l 16 4
  if beAt l 0 1 ≠ 0x45 ∨ n < 20 ∨ l.length < n ∨ beAt l 6 2 % 0x4000 ≠ 0 then .drop .rxIpDrop
  else if dst ≠ p.field Ent.ipv4 ∨ dst = [0, 0, 0, 0] then .drop .rxFiltered
  else if beAt l 9 1 ≠ 17 then .drop .rxOther
  else udpOf false (beAt l 1 1) (slice l 12 4) dst ((l.take n).drop 20) n

/-- An IPv6 packet (R504); a neighbour solicitation is answered whatever its destination address. -/
def SubPort.ipv6Rx (p : SubPort) (l : List Byte) : RxFrame :=
  let n := beAt l 4 2
  let next := beAt l 6 1
  let src := slice l 8 16
  let dst := slice l 24 16
  let body := (l.drop 40).take n
  if beAt l 0 1 / 16 ≠ 6 ∨ l.length < 40 + n then .drop .rxIpDrop
  else if next = 58 ∧ beAt body 0 1 = 135 then .solicit src (slice body 8 16)
  else if isExtension next then .drop .rxIpDrop
  else if dst ≠ p.field Ent.ipv6 ∨ leNat dst = 0 then .drop .rxFiltered
  else if next ≠ 17 then .drop .rxOther
  else udpOf true (beAt l 0 2 / 16 % 256) src dst body (40 + n)

/-- Whether a destination passes a sub-port's filters (R504, R527). -/
def State.daPass (s : State) (n : Nat) (da : List Byte) (type : Nat) : Bool :=
  decide (da = (s.sp n).field Ent.mac) || (beNat da == 0xFFFFFFFFFFFF && type == 0x0806) ||
    (n != 32 && (s.exactHit n da || (bit (da.headD 0) 0 && beNat da != 0xFFFFFFFFFFFF && s.hashHit (n / 4) da)))

/-- Priority of a received frame (R515): its PCP if it is tagged, else that of its DSCP; 0 for frames other than IP. -/
def State.rxPriority (s : State) (l : List Byte) : Nat :=
  if beAt l 12 2 = 0x8100 then beAt l 14 2 / 2 ^ 13
  else if beAt l 12 2 = 0x0800 then s.dscpPrio (beAt l 15 1 / 4)
  else if beAt l 12 2 = 0x86DD then s.dscpPrio (beAt l 14 2 / 64 % 64)
  else 0

/-- Longest frame of a port (Table 12-10, R527). -/
def State.maxFrame (s : State) (n : Nat) : Nat :=
  if n = 32 then 1522 else max 1518 (min 9600 (s.fld F.MAC_MAX_FRAME_LEN))

/-- What a frame with a correct FCS is, its FCS taken off (R504, R524, R527). -/
def State.frameKind (s : State) (n : Nat) (l : List Byte) : RxFrame :=
  let p := s.sp n
  let da := l.take 6
  if l.length + 4 < 64 then .drop .rxRunt
  else if s.maxFrame n < l.length + 4 then .drop .rxTooLong
  else if beNat da = 0x0180C2000001 ∧ beAt l 12 2 = 0x8808 then .pause (l.drop 14)
  else
    match untag l with
    | none => .drop .rxFiltered
    | some (type, body) =>
      if n ≠ 32 ∧ bit p.ctrl 5 ∧ type = 0x88B5 ∧ (da = p.field Ent.mac ∨ beNat da = 0xFFFFFFFFFFFF) ∧
          beAt body 0 4 = 0x4B574B45 then .wake body
      else if !s.daPass n da type then .drop .rxFiltered
      else if type = 0x0806 then .arp body
      else if type = 0x0800 then p.ipv4Rx body
      else if type = 0x86DD then p.ipv6Rx body
      else .drop .rxOther

/-! ### Answers (R507) -/

/-- Answer an ARP request for the sub-port's own address (R507). The reply goes to NEXT_HOP as every unicast frame does
(Table 12-3). -/
def State.arpAnswer (s : State) (n : Nat) (l : List Byte) : State :=
  let p := s.sp n
  let own := p.field Ent.ipv4
  if beAt l 0 2 = 1 ∧ beAt l 2 2 = 0x0800 ∧ beAt l 4 2 = 0x0604 ∧ beAt l 6 2 = 1 ∧ slice l 24 4 = own ∧ leNat own ≠ 0 then
    let body := beBytes 2 1 ++ beBytes 2 0x0800 ++ beBytes 2 0x0604 ++ beBytes 2 2 ++ p.field Ent.mac ++ own ++ slice l 8 10
    s.sendRaw n .express 0 (s.ethFrame n (p.field Ent.nextHop) 0 0x0806 body)
  else s

/-- Answer a neighbour solicitation for the sub-port's own address with a solicited, overriding advertisement (R507). -/
def State.solicitAnswer (s : State) (n : Nat) (src target : List Byte) : State :=
  let p := s.sp n
  let own := p.field Ent.ipv6
  if target = own ∧ leNat own ≠ 0 then
    let h := fun (c : Nat) => [136, 0] ++ beBytes 2 c ++ beBytes 4 0x60000000 ++ own ++ [2, 1] ++ p.field Ent.mac
    let msg := h (inetSum (pseudo6 own src 32 58 ++ h 0))
    let (x, s) := s.draw 20
    s.sendRaw n .express (s.dscpPrio 0) (s.ethFrame n (p.field Ent.nextHop) (s.dscpPrio 0) 0x86DD (ipv6Packet x 0 255 58 own src msg))
  else s

/-- A wake pattern frame: the latch is set if its WAKE_ID is the part's and bytes 12 to 15 are 0 (R525, Table 12-6). -/
def State.wakeFrame (s : State) (l : List Byte) : State :=
  if beAt l 4 8 = s.pair A.MAC_WAKE_ID ∧ beAt l 12 4 = 0 then s.flag F.MAC_STATUS_WAKE_PATTERN else s

/-- Codewords of a frame corrected and not correctable (R499). -/
def State.fecCount (s : State) (n corrected uncorrected : Nat) : State :=
  if n = 32 then s
  else
    let s := (s.macCount n .fecCorrected corrected).macCount n .fecUncorrected uncorrected
    s.when (decide (0 < uncorrected)) fun s => s.flag F.MAC_STATUS_FEC_UNCORR

/-- The receiver of a sub-port takes frames: it is enabled, exists and has link (R501, R529). -/
def State.receives (s : State) (n : Nat) : Bool :=
  s.spEn n && (s.sp n).link && (n == 32 || s.hasSubPort n)

/-- The FCS checks of R504: the frame without its FCS, or its drop. A codeword that cannot be corrected marks the frame
errored (R499). -/
def fcsCheck (errored : Bool) (l : List Byte) : Except MacCount (List Byte) :=
  let body := l.take (l.length - 4)
  let fcs := leNat (l.drop (l.length - 4))
  let c := (crc32 body).toNat
  if l.length < 4 ∨ errored then .error .rxFcsErr
  else if fcs = 0xFFFFFFFF - c then .error .rxStomped
  else if fcs ≠ c then .error .rxFcsErr
  else .ok body

end Sys2Proof.Machine
end

