-- ==== Sys2Proof/Machine/Receive.lean ====
section
/-!
DEFINITION. The Breren transport's receiving side: the checks of a packet, replies, acknowledgements, SA_SYNC, and message
assembly (04_breren_transport.md R129 to R179, R206, R207, R209 to R214).
-/

namespace Sys2Proof.Machine

/-! ### Replies (R142 to R144, R150) -/

/-- A packet's arrival: its SA, packet, path (16 where its id names no valid path), network agent and ECN CE mark. -/
structure Arrival where
  sa : Nat
  pkt : Packet
  path : Nat
  agent : Nat
  ce : Bool
  deriving DecidableEq, Repr

/-- Send a control packet of an SA on a path of arrival (R144, R150). -/
def State.reply (s : State) (sa path : Nat) (op : Opcode) (id : Nat) (payload : List Byte) : State :=
  let p := if path < 16 ∧ pathValid (s.sa sa) path then some path else s.newPath sa
  match p with
  | some p => s.sendControl sa p op id payload
  | none => s

abbrev Nak.stale : Nat := 1
abbrev Nak.access : Nat := 2
abbrev Nak.bounds : Nat := 3
abbrev Nak.noResource : Nat := 4
abbrev Nak.malformed : Nat := 5
abbrev Nak.resync : Nat := 6
abbrev Nak.window : Nat := 7

/-- Refuse a packet (R143, Table 04-6). -/
def State.nak (s : State) (a : Arrival) (reason detail : Nat) : State :=
  let forReply := if a.pkt.opcode = .fetchReply then 2 else 0
  let s := s.bump A.TRN_NAK_TX
  let s := s.when (reason == Nak.noResource || reason == Nak.window) fun s => s.flag F.TRN_STATUS_NO_RESOURCE
  let s := s.when (reason == Nak.stale) fun s => s.flag F.TRN_STATUS_STALE
  s.reply a.sa a.path .nak a.pkt.msgId (beBytes 1 reason ++ beBytes 1 forReply ++ beBytes 2 a.pkt.index ++ beBytes 4 detail)

/-- Count a malformed packet (R137). -/
def State.badPacket (s : State) : State := (s.bump A.TRN_MALFORMED).flag F.TRN_STATUS_MALFORMED

/-- Count a packet refused by the replay window (R147, R156). -/
def State.replayDrop (s : State) : State := (s.bump A.TRN_REPLAY_DROP).flag F.TRN_STATUS_REPLAY

/-- Payload of an ACK (Table 04-5). -/
def ackPayload (got : List Nat) (trig ce : Nat) (complete forReply : Bool) : List Byte :=
  let cum := ((List.range 8193).find? fun i => !got.contains i).getD 8193
  let base := trig / 64 * 64
  let map := ((List.range 64).filter fun k => got.contains (base + k)).foldl (fun a k => a + 2 ^ k) 0
  beBytes 2 cum ++ beBytes 2 base ++ beBytes 8 map ++ beBytes 1 (ofBool complete + 2 * ofBool forReply) ++ beBytes 3 0 ++
    beBytes 4 ce ++ beBytes 4 0

/-- A receive entry by name. -/
def State.rx? (s : State) (key : Nat) : Option RxMsg := s.trn.rx.find? fun m => m.key == key

/-- Change a receive entry. -/
def State.modRx (s : State) (key : Nat) (f : RxMsg → RxMsg) : State :=
  s.onTrn fun t => { t with rx := t.rx.map fun m => if m.key = key then f m else m }

/-- Packets of a message being received. -/
def State.rxCount (s : State) (m : RxMsg) : Nat := packetCount m.length (s.segment m.sa)

/-- Send an ACK for a message (R178). -/
def State.sendAck (s : State) (m : RxMsg) (trig path : Nat) (complete : Bool) : State :=
  (s.modRx m.key fun m => { m with sinceAck := 0, ackFrom := none, ce := 0 }).reply m.sa path .ack m.id
    (ackPayload m.marked trig m.ce complete m.reply)

/-- ACK with COMPLETE for a message that is complete already (R175, rule 3). -/
def State.ackDone (s : State) (a : Arrival) (n : Nat) : State :=
  s.reply a.sa a.path .ack a.pkt.msgId
    (ackPayload (List.range n) a.pkt.index (ofBool a.ce) true (decide (a.pkt.opcode = .fetchReply)))

/-! ### Windows of an SA (R147, R148, R175 to R177) -/

/-- A counter falls to the replay window (R147): at or beyond the left edge, or already marked. -/
def replayHit (e : BitVec 2048) (c : Nat) : Bool :=
  let r := getPart e Sa.rxRight
  decide (c + 512 ≤ r) || (decide (c ≤ r) && bit e (8 * Sa.replay.off + (r - c)))

/-- Mark a verified counter (R147, R148). -/
def replayMark (e : BitVec 2048) (c : Nat) : BitVec 2048 :=
  let r := getPart e Sa.rxRight
  if r < c then
    let map := if 512 ≤ c - r then 1 else (getPart e Sa.replay * 2 ^ (c - r) + 1) % 2 ^ 512
    putPart (putPart e Sa.rxRight c) Sa.replay map
  else putPart e Sa.replay (getPart e Sa.replay ||| 2 ^ (r - c))

/-- Slide MSG_WINDOW past its leading set bits (R176). -/
def slideWindow : Nat → Nat → Nat → Nat × Nat
  | 0, left, map => (left, map)
  | k + 1, left, map => if map % 2 = 1 then slideWindow k (left + 1) (map / 2) else (left, map)

/-- A message is complete or reaped: its MSG_WINDOW bit, and the window slides (R176, R177). -/
def State.closeId (s : State) (sa m : Nat) : State :=
  let e := s.sa sa
  let l := getPart e Sa.rxLeft
  if l ≤ m ∧ m < l + 512 then
    let (l, map) := slideWindow 512 l (getPart e Sa.msgWindow ||| 2 ^ (m - l))
    s.setSa sa (putPart (putPart e Sa.rxLeft l) Sa.msgWindow map)
  else s

/-- Free a receive entry. -/
def State.freeRx (s : State) (key : Nat) : State := s.onTrn fun t => { t with rx := t.rx.filter fun m => m.key != key }

/-- Receive entries a message of n packets takes (04_breren_transport.md, Receiving). -/
def entriesFor (n : Nat) : Nat := (n + 511) / 512

/-- Receive entries in use, or those of one SA; a FETCH_REPLY's assembly counts with its fetch. -/
def State.rxUsed (s : State) (p : RxMsg → Bool) : Nat :=
  ((s.trn.rx.filter fun m => !m.reply && p m).map fun m => entriesFor (s.rxCount m)).sum

/-- Room for a new message of n packets on an SA (R175 rule 5; R676 while the part drains). -/
def State.rxRoom (s : State) (sa n : Nat) : Bool :=
  let quota := s.fld F.TRN_RX_QUOTA_QUOTA
  !s.draining && decide (s.rxUsed (fun _ => true) + entriesFor n ≤ s.pantryEntries 0x02) &&
    (quota == 0 || decide (s.rxUsed (fun m => m.sa == sa) + entriesFor n ≤ quota))

/-! ### Messages that complete -/

/-- A fetch of a command has its whole reply: the fetch is done with, and the next one goes out (R208). -/
def State.fetchDone (s : State) (sa id : Nat) : State :=
  match s.trn.tx.find? fun m => m.sa == sa && m.id == id && decide (m.opcode = .fetch) with
  | some m =>
    match m.use with
    | .fetch c =>
      ((s.dropTx m.key).modCmd c fun x => { x with fetches := x.fetches.filter fun f => f.1 != id }).fetchMore c 4
    | _ => s.dropTx m.key
  | none => s

/-- A message whose every index is marked is handed on and acknowledged (R172, R176). -/
def State.rxComplete (s : State) (key trig path : Nat) : State :=
  match s.rx? key with
  | none => s
  | some m =>
    if (List.range (s.rxCount m)).all m.marked.contains then
      let s := (s.sendAck m trig path true).freeRx key
      if m.reply then s.fetchDone m.sa m.id else s.closeId m.sa m.id
    else s

/-- A packet of a message being received has arrived: it counts towards the 8 of R178, and the ACK delay runs from the earliest
one that no ACK has followed. -/
def State.arrive (s : State) (key index path : Nat) : State :=
  s.modRx key fun m => { m with
    sinceAck := m.sinceAck + 1
    ackFrom := some (m.ackFrom.getD s.now)
    trigIndex := if m.ackFrom.isNone then index else m.trigIndex
    trigPath := if m.ackFrom.isNone then path else m.trigPath }

/-- The ACK that a packet's arrival brings: it carries ACK_NOW, or is the eighth since the last (R178). -/
def State.ackDue (s : State) (key index path : Nat) (now : Bool) : State :=
  match s.rx? key with
  | some m => if now ∨ 8 ≤ m.sinceAck then s.sendAck m index path false else s
  | none => s

/-- A packet has been placed or queued for placement: its index is marked, and the message may be complete (R172, R195). The ACK
delay runs from its arrival if no earlier packet is unacknowledged: an ACK that went out meanwhile could not cover it (DEDUCED,
assumption 139). -/
def State.mark (s : State) (key index path : Nat) : State :=
  let s := s.modRx key fun m =>
    let came := match m.landing.find? fun x => x.1 == index with
      | some (_, _, t) => t
      | none => s.now
    let first := m.ackFrom.all fun t => decide (came < t)
    { m with
      marked := if m.marked.contains index then m.marked else insertNat index m.marked
      landing := m.landing.filter fun x => x.1 != index
      ackFrom := if first then some came else m.ackFrom
      trigIndex := if first then index else m.trigIndex
      trigPath := if first then path else m.trigPath }
  s.rxComplete key index path

/-- A packet that is placed or queued for placement as it arrives (R178, R213). -/
def State.markNow (s : State) (a : Arrival) (key : Nat) : State :=
  let i := a.pkt.index
  ((s.arrive key i a.path).mark key i a.path).ackDue key i a.path (a.pkt.flags.testBit 5)

/-- A duplicate packet: discarded, counted, and acknowledged as R178 says (R175, rule 1). One whose index is still on its way
to the Cellar is taken as one too (DEDUCED, assumption 83). -/
def State.dupOf (s : State) (a : Arrival) (x : RxMsg) : State :=
  let s := (s.bump A.TRN_DUP_PKTS).when a.ce fun s => s.modRx x.key fun m => { m with ce := m.ce + 1 }
  (s.arrive x.key a.pkt.index a.path).ackDue x.key a.pkt.index a.path (a.pkt.flags.testBit 5)

/-- The cells of a packet have all been acknowledged (R195, Table 05-3). -/
def State.packetLanded (s : State) (key index : Nat) (access : Option Nat) : State :=
  let s := s.endAccess access
  match s.rx? key with
  | some m =>
    match m.landing.find? fun x => x.1 == index with
    | some (_, path, _) => s.mark key index path
    | none => s
  | none => s

/-- The write of a packet failed: it is neither acknowledged nor marked (Table 03-4, R195). -/
def State.packetLost (s : State) (key index : Nat) (access : Option Nat) : State :=
  (s.endAccess access).modRx key fun m => { m with landing := m.landing.filter fun x => x.1 != index }

/-- Write a packet's payload to the Cellar through the Hoist (R22, R196). -/
def State.landPacket (s : State) (a : Arrival) (key addr : Nat) (access : Option Nat) : State :=
  let i := a.pkt.index
  if a.pkt.payload = [] then (s.endAccess access).markNow a key
  else
    let s := (s.arrive key i a.path).modRx key fun m => { m with landing := m.landing ++ [(i, a.path, s.now)] }
    let s := s.ackDue key i a.path (a.pkt.flags.testBit 5)
    s.openFlow a.agent false (.packet key i access) [(addr, a.pkt.payload.length)] a.pkt.payload false

/-! ### COMMAND, PLACE and FETCH (R172 to R176, R192 to R197, R206, R207, R211 to R217) -/

/-- The shape of a message packet (R137, R161, R174, R211): a COMMAND is one packet. -/
def wellFormedPacket (p : Packet) (seg : Nat) : Bool :=
  let n := if p.opcode = .fetch then 1 else packetCount p.length seg
  let last := p.flags.testBit 0 == (p.index + 1 == n)
  decide (p.index < n) && last && decide (p.length ≤ 8192 * seg) &&
    match p.opcode with
    | .fetch => p.length != 0 && decide (p.payload = [])
    | .command => n == 1 && decide (64 ≤ p.length) && decide (p.length ≤ 8192) && p.length % 64 == 0 && p.key == 0 &&
        p.offset == 0 && p.payload.length == p.length
    | .place => p.payload.length == packetLen p.length seg p.index && (!p.flags.testBit 1 || decide (p.length ≤ seg))
    | _ => p.payload.length == packetLen p.length seg p.index

/-- The packet disagrees with its message's first packet (R174, R197). -/
def RxMsg.differs (m : RxMsg) (p : Packet) (seg : Nat) : Bool :=
  p.length != m.length || decide (p.opcode ≠ m.opcode) ||
    (decide (p.opcode = .place) && (p.flags.testBit 1 != m.commit ||
      match m.base with | some (o, i) => p.offset + i * seg != o + p.index * seg | none => false))

/-- A new receive entry, named by the next key (R175, rule 6). -/
def State.newRx (s : State) (a : Arrival) (reply : Bool) : Nat × State :=
  let m : RxMsg := {
    key := s.trn.nextKey, sa := a.sa, id := a.pkt.msgId, reply := reply, opcode := a.pkt.opcode, length := a.pkt.length
    commit := decide (a.pkt.opcode = .place) && a.pkt.flags.testBit 1, wkey := a.pkt.key, marked := [], landing := []
    base := if a.pkt.opcode = .place then some (a.pkt.offset, a.pkt.index) else none
    created := s.now, sinceAck := 0, ackFrom := none, trigIndex := 0, trigPath := 0, ce := 0 }
  (s.trn.nextKey, s.onTrn fun t => { t with nextKey := t.nextKey + 1, rx := t.rx ++ [m] })

/-- The entry of a packet's message, or a new one; the CE mark is counted. -/
def State.rxEntry (s : State) (a : Arrival) (found : Option RxMsg) (reply : Bool) : Nat × State :=
  let (k, s) := match found with
    | some m => (m.key, s)
    | none => s.newRx a reply
  (k, s.when a.ce fun s => s.modRx k fun m => { m with ce := m.ce + 1 })

/-- Hand the capsules of a COMMAND to the intake (R232): none where it has no room. -/
def State.intake (s : State) (a : Arrival) : Option State :=
  let n := a.pkt.payload.length / 64
  if s.cq.intake.length + n ≤ 8192 then
    let caps := (List.range n).map fun k => (ofBytes 512 (slice a.pkt.payload (64 * k) 64), a.sa, a.agent)
    some (s.onCq fun c => { c with intake := c.intake ++ caps })
  else none

/-- A COMMIT placement that has passed its check: discarded on arrival, placed at once, refused for want of a hold slot, or
held (R212 to R214, R217). -/
def State.takeCommit (s : State) (a : Arrival) (key access addr : Nat) : State :=
  let m := a.pkt.msgId
  let h : HeldCommit :=
    { sa := a.sa, id := m, agent := a.agent, addr := addr, data := a.pkt.payload, access := access, writing := false }
  if s.reapedBefore a.sa m then (s.commitDiscard h).markNow a key
  else if s.commitReady h then s.landPacket a key addr (some access)
  else if 256 ≤ s.holds a.agent then ((s.endAccess (some access)).flag F.WIN_STATUS_COMMIT_FULL).nak a Nak.noResource 0
  else (s.holdCommit h).markNow a key

/-- The reply to a FETCH that has passed its check (R206): a FETCH_REPLY message of the fetch's id. -/
def State.serveFetch (s : State) (a : Arrival) (key access addr : Nat) : State :=
  let p := a.pkt
  let m := { msgOf .fetchReply p.length p.key p.offset (.fetchReply access) (.cellar [(addr, p.length)]) with id := p.msgId }
  ((s.freeRx key).closeId a.sa p.msgId).startMsg a.sa m

/-- A well-formed packet of a message that has an entry: its window key is checked, its payload placed (R173, R192, R196). A
packet refused here leaves the entry as it was (R175, rule 6). -/
def State.takePacket (s : State) (a : Arrival) (key : Nat) : State :=
  let p := a.pkt
  let endpoint := s.saGet a.sa Sa.endpoint
  let check := fun (s : State) (fetch : Bool) (n : Nat) (go : State → Nat → Nat → State) =>
    match (s.readEntry 0x04 (p.key / 65536)).keyCheck p.key endpoint fetch p.offset n with
    | (.ok access addr, s) => go s access addr
    | (.nak r d, s) => s.nak a r d
  match p.opcode with
  | .command =>
    if s.cq.run.isSome then s.nak a Nak.noResource 0
    else
      match s.intake a with
      | some s => s.markNow a key
      | none => ((s.bump A.CQ_INTAKE_FULL).flag F.CQ_STATUS_INTAKE_FULL).nak a Nak.noResource 0
  | .fetch => check s true p.length fun s access addr => s.serveFetch a key access addr
  | _ => check s false p.payload.length fun s access addr =>
      if p.flags.testBit 1 then s.takeCommit a key access addr else s.landPacket a key addr (some access)

/-- The FETCH_REPLY that answers a duplicate FETCH (R207): its first packet goes again, with RETRY, while the message is not too
old (R166). It is then no packet sent once only (R165). -/
def State.fetchAgain (s : State) (m : TxMsg) : State :=
  match m.packets.head?, s.payloadOf m 0 with
  | some p, some (payload, runs) =>
    match choosePath (s.sa m.sa) p.path false, s.tooOld m.first with
    | some q, false =>
      ((s.bump A.TRN_RETRIES).modPacket m.key 0 fun p => { p with path := q, resent := true }).sendTx m 0 q true payload runs
    | _, _ => s
  | _, _ => s

/-- A FETCH whose reply has begun, or waits for a send entry, comes again (R207): of a waiting reply nothing has been sent that
could go again. -/
def State.fetchDup (s : State) (a : Arrival) : Option State :=
  let mine := fun (sa : Nat) (m : TxMsg) => sa == a.sa && m.id == a.pkt.msgId && decide (m.opcode = .fetchReply)
  let bad := s.badPacket.nak a Nak.malformed 0
  match s.trn.tx.find? fun m => mine m.sa m, s.trn.held.find? fun h => mine h.sa h.msg with
  | some m, _ => some (if m.length = a.pkt.length then s.fetchAgain m else bad)
  | none, some h => some (if h.msg.length = a.pkt.length then s else bad)
  | none, none => none

/-- A COMMAND, PLACE or FETCH packet (R174, R175). -/
def State.rxMessage (s : State) (a : Arrival) : State :=
  let p := a.pkt
  let e := s.sa a.sa
  let seg := s.segment a.sa
  let m := p.msgId
  let left := getPart e Sa.rxLeft
  let s := match (s.trn.rx.zipIdx.find? fun x => x.1.sa == a.sa && x.1.id == m && !x.1.reply) with
    | some x => s.readEntry 0x02 x.2
    | none => s
  let n := if p.opcode = .fetch then 1 else packetCount p.length seg
  let take := fun (s : State) (found : Option RxMsg) =>
    let (k, s) := s.rxEntry a found false
    s.takePacket a k
  if !wellFormedPacket p seg then s.badPacket.nak a Nak.malformed 0
  else
    match (if p.opcode = .fetch then s.fetchDup a else none),
        s.trn.rx.find? fun x => x.sa == a.sa && x.id == m && !x.reply with
    | some s, _ => s
    | none, some x =>
      if x.differs p seg then s.badPacket.nak a Nak.malformed 0
      else if x.marked.contains p.index || x.landing.any (fun l => l.1 == p.index) then s.dupOf a x
      else take s (some x)
    | none, none =>
      if m ≤ getPart e Sa.reapFloor then s.nak a Nak.stale 0
      else if m < left ∨ (m < left + 512 ∧ bit e (8 * Sa.msgWindow.off + (m - left))) then s.ackDone a n
      else if left + 512 ≤ m then s.nak a Nak.window 0
      else if !s.rxRoom a.sa n then s.nak a Nak.noResource 0
      else take s none

/-! ### FETCH_REPLY (R169, R208 to R210) -/

/-- A FETCH's retry timer stops (R169). -/
def State.fetchQuiet (s : State) (key : Nat) : State :=
  s.onTrn fun t => { t with tx := t.tx.map fun m =>
    if m.key = key then { m with packets := m.packets.map fun p => { p with acked := true } } else m }

/-- A FETCH_REPLY packet: its payload goes to write staging. The reply of a fetch of a command that has been stopped or has
failed is acknowledged and discarded (R210, R255). -/
def State.rxReply (s : State) (a : Arrival) : State :=
  let p := a.pkt
  let seg := s.segment a.sa
  let fetch := s.trn.tx.find? fun x => x.sa == a.sa && x.id == p.msgId && decide (x.opcode = .fetch)
  let found := s.trn.rx.find? fun x => x.sa == a.sa && x.id == p.msgId && x.reply
  if !wellFormedPacket p seg then s.badPacket.nak a Nak.malformed 0
  else
    match fetch with
    | none => s.ackDone a (packetCount p.length seg)
    | some f =>
      if p.key ≠ f.wkey ∨ p.offset ≠ f.offset + p.index * seg ∨ p.length ≠ f.length then s.badPacket.nak a Nak.malformed 0
      else
        let s := s.fetchQuiet f.key
        let take := fun (s : State) =>
          let (k, s) := s.rxEntry a found true
          match f.use with
          | .fetch c =>
            match s.cmd? c with
            | some (_, x) =>
              match x.staging, x.stopped || decide (x.wait = .finished) with
              | some base, false =>
                let pos := f.offset - getPart (dataToken x.cap) Token.base
                s.landPacket a k (base + pos + p.index * seg) none
              | _, _ => s.markNow a k
            | none => s.markNow a k
          | _ => s
        match found with
        | some x =>
          if x.marked.contains p.index || x.landing.any (fun l => l.1 == p.index) then s.dupOf a x else take s
        | none => take s

/-! ### ACK, NAK, PROBE and SA_SYNC -/

/-- A packet of a message is acknowledged for the first time (R159, R165, R167). -/
def State.ackPacket (s : State) (m : TxMsg) (p : TxPacket) : State :=
  let s := s.modPacket m.key p.index fun p => { p with acked := true }
  let s := s.pathAcked m.sa p.path
  if p.retries = 0 ∧ !p.stomped ∧ !p.resent then s.rttSample m.sa (s.now - p.sentAt) else s

/-- An ACK (R167, R168): it acknowledges no FETCH (R169). -/
def State.rxAck (s : State) (a : Arrival) : State :=
  let l := a.pkt.payload
  let reply := (beAt l 12 1).testBit 1
  match s.trn.tx.find? fun x => x.sa == a.sa && x.id == a.pkt.msgId && decide (x.opcode ≠ .fetch) &&
      decide (x.opcode = .fetchReply) == reply with
  | none => s
  | some m =>
    let complete := (beAt l 12 1).testBit 0
    let covered := fun (i : Nat) => complete || decide (i < beAt l 0 2) ||
      (decide (beAt l 2 2 ≤ i) && decide (i < beAt l 2 2 + 64) && (beAt l 4 8).testBit (i - beAt l 2 2))
    let s := s.each (m.packets.filter fun p => covered p.index && !p.acked) fun s p => s.ackPacket m p
    let s := s.when (decide (0 < beAt l 16 4)) fun s => s.ceMark a.sa
    match s.tx? m.key with
    | some m => if complete ∨ (m.packets.length = s.txCount m ∧ m.packets.all (·.acked)) then s.txDone m else s
    | none => s

/-- A NAK (Table 04-9). -/
def State.rxNak (s : State) (a : Arrival) : State :=
  let l := a.pkt.payload
  let reply := (beAt l 1 1).testBit 1
  let s := s.bump A.TRN_NAK_RX
  match s.trn.tx.find? fun x => x.sa == a.sa && x.id == a.pkt.msgId && decide (x.opcode = .fetchReply) == reply with
  | none => s
  | some m =>
    let fetch := decide (m.opcode = .fetch)
    match beAt l 0 1 with
    | 1 => s.msgFail m m.failStatus
    | 2 => s.msgFail m (if fetch then St.fetchDenied else St.placeDenied)
    | 3 => s.msgFail m (if fetch then St.fetchDenied else St.placeDenied)
    | 5 => s.msgFail m m.failStatus
    | 6 => (s.when fetch fun s => s.fetchQuiet m.key).when (s.syncOf a.sa 1).isNone fun s => s.resume a.sa
    | _ => s

/-- A PROBE_REPLY (R159, Table 04-12): it answers a probe sent within 200 us. -/
def State.rxProbeReply (s : State) (a : Arrival) : State :=
  let q := beAt a.pkt.payload 8 8
  let hit := fun (p : Nat) => (s.pathTest a.sa p).waiting.any fun w => w.1 == q && decide (s.now ≤ w.2 + 200000)
  match (List.range 16).find? hit with
  | some p =>
    let s := s.setTest a.sa p { s.pathTest a.sa p with waiting := (s.pathTest a.sa p).waiting.filter fun w => w.1 != q }
    let st := pathState (s.sa a.sa) p
    if pathValid (s.sa a.sa) p ∧ (st = 1 ∨ st = 2) then s.pathUp a.sa p else s
  | none => s

/-- RESUME is answered (R155): every message in flight on the SA fails. The answer takes its NEXT_COUNTER as it leaves. -/
def State.rxResume (s : State) (a : Arrival) (challenge : Nat) : State :=
  let s := s.reply a.sa a.path .saSync 0 (syncPayload 2 challenge 0 (s.saGet a.sa Sa.txNextId) 0)
  s.each (s.trn.tx.filter fun m => m.sa == a.sa) fun s m => if (s.tx? m.key).isSome then s.msgFail m m.failStatus else s

/-- RESUME_ACK (R156, R214). -/
def State.rxResumeAck (s : State) (a : Arrival) (challenge nextCounter nextId : Nat) : State :=
  let e := s.sa a.sa
  if getPart e Sa.challenge = 0 ∨ challenge ≠ getPart e Sa.challenge then s.replayDrop
  else
    let e := putPart (putPart e Sa.rxRight (nextCounter - 1)) Sa.replay (2 ^ 512 - 1)
    let e := putPart (putPart (putPart e Sa.rxLeft nextId) Sa.msgWindow 0) Sa.reapFloor (nextId - 1)
    let s := (s.setSa a.sa (putPart e Sa.challenge 0)).onTrn fun t => { t with rx := t.rx.filter fun m => m.sa != a.sa || m.reply }
    let s := s.each (s.win.held.filter fun h => h.sa == a.sa && !h.writing) fun s h => s.commitDiscard h
    let s := (s.endSync a.sa 1).modAux a.sa fun x => { x with firstId := nextId, reaped := [] }
    if s.saState a.sa = Sas.syncing then ((s.saPut a.sa Sa.state Sas.active).flag F.TRN_STATUS_SYNC_DONE).saSpent a.sa else s

/-- The K24's index of the new SA that a SWITCH names by the sender's index: the ACTIVE SA of the same endpoint whose
REMOTE_SA it is (DEDUCED, assumption 81). -/
def State.newSaOf (s : State) (sa index : Nat) : Option Nat :=
  (List.find? (fun (x : Nat × BitVec 2048) => x.1 != sa && getPart x.2 Sa.state == Sas.active && getPart x.2 Sa.remoteSa == index &&
    getPart x.2 Sa.endpoint == s.saGet sa Sa.endpoint && getPart x.2 Sa.kind == 0) s.trn.sa).map (·.1)

/-- SWITCH is answered, and the old SA drains (R157). -/
def State.rxSwitch (s : State) (a : Arrival) (index : Nat) : State :=
  match s.newSaOf a.sa index with
  | some n => (s.reply a.sa a.path .saSync 0 (syncPayload 4 0 0 0 n)).drain a.sa n
  | none => s

/-- SWITCH_ACK (R157). -/
def State.rxSwitchAck (s : State) (a : Arrival) : State :=
  match s.syncOf a.sa 3 with
  | some r => s.drain a.sa r.newSa
  | none => s

/-- An SA_SYNC packet (Table 04-8); a reserved subtype is malformed. -/
def State.rxSync (s : State) (a : Arrival) : State :=
  let l := a.pkt.payload
  match beAt l 0 1 with
  | 1 => s.rxResume a (beAt l 8 8)
  | 2 => s.rxResumeAck a (beAt l 8 8) (beAt l 16 8) (beAt l 24 6)
  | 3 => s.rxSwitch a (beAt l 28 4)
  | 4 => s.rxSwitchAck a
  | _ => s.badPacket

/-- A control packet is well formed (R137, Tables 04-3 and 04-4). -/
def controlOk (p : Packet) : Bool :=
  let n := match p.opcode with | .ack => 24 | .nak => 8 | .saSync => 32 | _ => 16
  let anon := match p.opcode with | .ack => false | .nak => false | _ => true
  p.index == 0 && p.key == 0 && p.offset == 0 && p.length == n && p.payload.length == n && (!anon || p.msgId == 0) &&
    p.flags.testBit 0 && (decide (p.opcode = .saSync) || p.flags.testBit 3)

/-- A packet that has passed R147 is handed to message handling. -/
def State.handle (s : State) (a : Arrival) : State :=
  let p := a.pkt
  match p.opcode with
  | .command => s.rxMessage a
  | .place => if p.flags.testBit 4 then s.badPacket else s.rxMessage a
  | .fetch => s.rxMessage a
  | .fetchReply => s.rxReply a
  | _ =>
    if !controlOk p then s.badPacket
    else
      match p.opcode with
      | .ack => s.rxAck a
      | .nak => s.rxNak a
      | .probe => s.reply a.sa a.path .probeReply 0 p.payload
      | .probeReply => s.rxProbeReply a
      | _ => s.rxSync a

/-! ### The checks of a packet (R147, R150, R459, R460) -/

/-- Bytes in the holding buffer of a network agent: packets whose cells are not all acknowledged (R459). -/
def State.holding (s : State) (agent : Nat) : Nat :=
  ((s.hst.flows.filter fun f => f.agent == agent && !f.egress).map fun f => (f.cells.map fun c => c.data.length).sum).sum

/-- The header of a packet, its payload still as received (Table 04-2). -/
def parseHeader (op : Opcode) (l payload : List Byte) : Packet where
  opcode := op
  flags := beAt l 2 2
  saIndex := beAt l 4 4
  counter := beAt l 8 8
  msgId := beAt l 16 6
  index := beAt l 22 2
  length := beAt l 24 4
  key := beAt l 28 4
  offset := beAt l 32 8
  payload := payload

/-- The source address is one of the SA's remote addresses (R147). -/
def fromRemote (e : BitVec 2048) (v6 : Bool) (src : List Byte) : Bool :=
  let n := if v6 then 16 else 4
  v6 == (getPart e Sa.flags).testBit 0 &&
    (src == (leBytes 16 (getPart e Sa.addr0)).take n || src == (leBytes 16 (getPart e Sa.addr1)).take n)

/-- A path id names a valid path: the arrival's path, counted where it is on another sub-port or names none (R150). -/
def State.arrivalPath (s : State) (sa n id : Nat) : Nat × State :=
  let e := s.sa sa
  if pathValid e id then (id, s.when (pathSp e id != n) fun s => s.bump A.TRN_PATH_MISMATCH)
  else (16, s.bump A.TRN_PATH_MISMATCH)

/-- A verified packet: its windows, and on to its handling (R147). In SYNCING every opcode but SA_SYNC, PROBE and PROBE_REPLY,
a reserved one too, is answered NAK RESYNC. What becomes of a reserved opcode otherwise the spec does not say: it is counted
malformed and not answered (DESIGN CHOICE, assumption 124). -/
def State.verified (s : State) (n sa pathId : Nat) (op : Option Opcode) (l pt : List Byte) (ce : Bool) : State :=
  let s := s.setSa sa (replayMark (s.sa sa) (beAt l 8 8))
  let (path, s) := s.arrivalPath sa n pathId
  let a : Arrival := { sa := sa, pkt := parseHeader (op.getD .command) l pt, path := path, agent := n / 4, ce := ce }
  if s.saState sa = Sas.syncing ∧ op ≠ some .saSync ∧ op ≠ some .probe ∧ op ≠ some .probeReply then s.nak a Nak.resync 0
  else if op = none then s.badPacket
  else s.handle a

/-- A Breren packet received on a sub-port: the checks of R147 in order. -/
def State.packetIn (s : State) (n : Nat) (v6 : Bool) (src : List Byte) (sport : Nat) (l : List Byte) (ce : Bool) : State :=
  let s := s.bump A.TRN_RX_PKTS
  let sa := beAt l 4 4
  let s := s.when (s.entryExists 0x05 sa) fun s => s.readEntry 0x05 sa
  let e := s.sa sa
  let c := beAt l 8 8
  if l.length < 56 then s.badPacket
  else if s.holding (n / 4) + l.length > 262144 then (s.bump A.CIP_HOLD_DROP).flag F.CIP_STATUS_HOLD_DROP
  else if 8192 ≤ sa then s
  else if beAt l 0 1 ≠ 1 then s.badPacket
  else if ¬ s.entryExists 0x05 sa ∨ getPart e Sa.state = 0 ∨ getPart e Sa.kind = 1 ∨ !fromRemote e v6 src then
    s.bump A.TRN_NO_SA
  else if (s.aux sa).stopped then s
  else if replayHit e c then s.replayDrop
  else
    let ct := slice l 40 (l.length - 56)
    let pt := (Tab.find? sa s.cip.sa).bind fun k =>
      gcmOpen k.key (k.saltUp ++ beBytes 8 c) (l.take 40) ct (l.drop (l.length - 16))
    match pt with
    | some pt => s.verified n sa (sport % 16) (opcodeOf (beAt l 1 1)) l pt ce
    | none => (s.bump A.TRN_TAG_FAIL).flag F.TRN_STATUS_TAG_FAIL

/-- A UDP datagram for the Breren port: policed, then received (R129, R530). -/
def State.brerenIn (s : State) (n : Nat) (v6 : Bool) (tos : Nat) (src : List Byte) (sport : Nat) (l : List Byte) (iplen : Nat) : State :=
  if s.is F.TRN_CTRL_EN then
    match s.police (n / 4) (tos / 4) (tos % 4) (beAt l 4 4) (beAt l 1 1) iplen with
    | (none, s) => s
    | (some ecn, s) => s.packetIn n v6 src sport l (ecn == 3)
  else s

/-! ### The rows of the transport's receiving side -/

/-- RECEIVE_REAP (R177): an entry not complete 4 s after it was made. The assembly of a FETCH's reply is named by an id of the
K24's own (R162), so the receive window has nothing to do with it. -/
def State.rxReap (s : State) (sa id : Nat) : State :=
  match s.trn.rx.find? fun m => m.sa == sa && m.id == id && decide (m.created + 4000000000 ≤ s.now) with
  | some m =>
    let s := (s.freeRx m.key).bump A.TRN_REAPED
    if m.reply then s
    else
      let s := s.modAux sa fun a => { a with reaped := (a.reaped.filter fun j => decide (id ≤ j + 1023)) ++ [id] }
      ((s.saPut sa Sa.reapFloor (max (s.saGet sa Sa.reapFloor) id)).closeId sa id).commitReap sa id
  | none => s

/-- ACK delay in ns, 1 to 20 us (Table 04-15). -/
def State.ackDelay (s : State) : Nat := 1000 * max 1 (min 20 (s.fld F.TRN_CTRL_ACK_DELAY))

/-- ACK_DELAY_EXPIRY (R178): of a message or of a fetch's reply. -/
def State.ackExpiry (s : State) (sa id : Nat) (reply : Bool) : State :=
  match s.trn.rx.find? fun m => m.sa == sa && m.id == id && m.reply == reply with
  | some m =>
    match m.ackFrom with
    | some t => if s.is F.TRN_CTRL_EN ∧ t + s.ackDelay ≤ s.now then s.sendAck m m.trigIndex m.trigPath false else s
    | none => s
  | none => s

end Sys2Proof.Machine
end

