-- ==== Sys2Proof/Machine/Hoist.lean ====
section
/-!
DEFINITION. The Hoist at work (03_cellar_and_hoist.md R80 to R105, R339): the crossbars, commits and acknowledgements, the
resequencers, and what a consumer does with a failed write, a failed flow or a poisoned cell (Table 03-4).
-/

namespace Sys2Proof.Machine

/-! ### Cells at a port (R80) -/

/-- The cell that a crossbar port takes in: none where its header check fails, its kind is not one of the port's direction, or
its range is too long (R80, Table 03-2). That a kind of the other direction is dropped as a reserved one is DESIGN CHOICE, assumption
162. -/
def portCell (egress : Bool) (h : BitVec 128) (payload : List Byte) : Option HCell :=
  match cellKindOf (getBits h 60 4) with
  | some k =>
    let way := match k with | .read => egress | .testRead => egress | _ => !egress
    if hchkOk h && way && decide (getBits h 66 8 + getBits h 74 9 ≤ 256) then some (cellOf k h payload) else none
  | none => none

/-- An agent remembers a cell that it offers at its port until the acknowledgement (R86, R99): a flow of the cells it has
offered under one FLOW, unless the Hoist has opened a flow of that id for it. -/
def State.offered (s : State) (agent : Nat) (c : HCell) : State :=
  let own := fun (f : Flow) => f.id == c.flow && f.agent == agent && !f.egress
  match s.hst.flows.find? own with
  | some f =>
    if f.use = .warden ∨ f.use = .test then
      s.onHst fun h => { h with flows := replaceFirst own (fun f => { f with
        cells := f.cells ++ [c], issued := f.issued + 1, sent := f.sent ++ [(c.seq, s.now, false)] }) h.flows }
    else s
  | none => s.onHst fun h => { h with flows := h.flows ++ [{
      id := c.flow, agent := agent, egress := false, use := if agent = 36 then .warden else .test, cells := [c], issued := 1
      next := 0, held := [], got := [], acked := [], sent := [(c.seq, s.now, false)], lastArrival := s.now
      retry := false, poison := false }] }

/-- CELL_INGRESS: an agent offers a cell of its own; its ingress buffer holds 512 (R80, R91). -/
def State.cellIngress (s : State) (agent : Nat) (h : BitVec 128) (payload : List Byte) : State :=
  if 42 ≤ agent then s
  else
    match portCell false h payload with
    | none => s.cellDrop
    | some c =>
      if s.hst.ingressFill agent < 512 then
        (s.onHst fun x => { x with voq := Tab.modify [] (agent * 32 + bankGroup c.caddr) (· ++ [c]) x.voq }).offered agent c
      else s

/-! ### Matching (R91 to R94) -/

/-- The first of n ports at or after a place, wrapping. -/
def firstFrom (n start : Nat) (p : Nat → Bool) : Option Nat := ((List.range n).map fun k => (start + k) % n).find? p

/-- A matching under way: pairs of requester and granter, and the two kinds of pointer. -/
structure Matching where
  pairs : List (Nat × Nat)
  grant : Tab Nat
  accept : Tab Nat
  deriving DecidableEq, Repr

/-- One request–grant–accept iteration of nr requesters and ng granters; only the first moves pointers (R91, R92). -/
def Matching.round (m : Matching) (nr ng : Nat) (req : Nat → Nat → Bool) (first : Bool) : Matching :=
  let freeR := fun (r : Nat) => !(m.pairs.any fun p => p.1 == r)
  let freeG := fun (g : Nat) => !(m.pairs.any fun p => p.2 == g)
  let grants := (List.range ng).filterMap fun g =>
    if freeG g then (firstFrom nr (Tab.getD g 0 m.grant) fun r => freeR r && req r g).map fun r => (r, g) else none
  let accepts := (List.range nr).filterMap fun r =>
    if grants.any fun p => p.1 == r then (firstFrom ng (Tab.getD r 0 m.accept) fun g => grants.contains (r, g)).map fun g => (r, g)
    else none
  { pairs := m.pairs ++ accepts
    grant := if first then accepts.foldl (fun t p => Tab.set p.2 ((p.1 + 1) % nr) t) m.grant else m.grant
    accept := if first then accepts.foldl (fun t p => Tab.set p.1 ((p.2 + 1) % ng) t) m.accept else m.accept }

/-- The matching of one cell time: three iterations (R91). -/
def matching (nr ng : Nat) (req : Nat → Nat → Bool) (grant accept : Tab Nat) : Matching :=
  let m : Matching := { pairs := [], grant := grant, accept := accept }
  ((m.round nr ng req true).round nr ng req false).round nr ng req false

/-- The ingress matching: agents request the bank groups that have room for their cells (R91, R21). -/
def State.ingressMatch (s : State) : Matching :=
  let h := s.hst
  let room := fun (b : Nat) => decide ((Tab.getD b [] h.wbuf).length < 64)
  matching 42 32 (fun a b => s.agentOn a && room b && !(Tab.getD (a * 32 + b) [] h.voq).isEmpty) h.inGrant h.inAccept

/-- The egress matching: bank groups request the agents for which they hold a ready cell (R93, R21). -/
def State.egressMatch (s : State) : Matching :=
  let h := s.hst
  matching 32 42 (fun b a => s.agentOn a && !(Tab.getD (b * 42 + a) [] h.rq).isEmpty) h.egGrant h.egAccept

/-- The cell an agent sends in this cell time crosses to its bank group; `damage` changes its header on the way (R80, R94). -/
def State.cellIn (s : State) (damage : List (Nat × BitVec 128)) (a b : Nat) : State :=
  match Tab.getD (a * 32 + b) [] s.hst.voq with
  | [] => s
  | c :: t =>
    let s := (s.onHst fun h => { h with voq := Tab.put [] (a * 32 + b) t h.voq }).bump (A.HST_AGENT_CELLS_IN a)
    match damage.find? fun d => d.1 == a with
    | none => s.onHst fun h => { h with wbuf := Tab.modify [] b (· ++ [c]) h.wbuf }
    | some (_, x) =>
      match portCell false (c.header ^^^ x) c.data with
      | some c => s.onHst fun h => { h with wbuf := Tab.modify [] b (· ++ [c]) h.wbuf }
      | none => s.cellDrop

/-- The cell a bank group sends in this cell time leaves for its agent (R94). -/
def State.cellOut (s : State) (b a : Nat) : State :=
  match Tab.getD (b * 42 + a) [] s.hst.rq with
  | [] => s
  | c :: t => s.onHst fun h => { h with rq := Tab.put [] (b * 42 + a) t h.rq, egress := h.egress ++ [c] }

/-! ### Commit (R81 to R85) -/

/-- WRITE_CELL_COMMIT: a bank group serves the oldest cell of its write buffer and answers it. -/
def State.cellCommit (s : State) (b : Nat) : State :=
  match Tab.getD b [] s.hst.wbuf with
  | [] => s
  | c :: t =>
    let o := s.writeOutcome c
    let ack : CellAck := { agent := c.src, flow := c.flow, seq := c.seq, outcome := o }
    s.onHst fun h =>
      let h := if o = .failed then h else h.write (256 * c.caddr + c.start) c.data
      { h with wbuf := Tab.put [] b t h.wbuf, acks := h.acks ++ [ack] }

/-! ### Consumers of write flows (R86, R195, Table 03-4) -/

/-- A flow of cells has been written whole. -/
def State.flowWritten (s : State) (f : Flow) : State :=
  match f.use with
  | .packet m i a => s.packetLanded m i a
  | .commit a => (s.onWin fun w => { w with held := w.held.filter fun h => h.access != a }).endAccess (some a)
  | .driveIn p pos n _ => s.pendLanded p pos n
  | _ => s

/-- A write error of a flow (Table 03-4). -/
def State.flowUnwritten (s : State) (f : Flow) : State :=
  match f.use with
  | .packet m i a => s.packetLost m i a
  | .commit a => match s.win.held.find? fun h => h.access == a with | some h => s.commitDiscard h | none => s
  | .driveIn p pos n again => s.pendLandFail p pos n again
  | .warden => s.mcheck 1
  | _ => s

/-- Change a flow by its id. -/
def State.modFlow (s : State) (id : Nat) (g : Flow → Flow) : State :=
  s.onHst fun h => { h with flows := h.flows.map fun f => if f.id = id then g f else f }

/-- An ingress flow of an agent by id, with what was sent under a SEQ and is not acknowledged. -/
def State.sentCell (s : State) (id seq : Nat) : Option (Flow × Nat × Bool) :=
  (s.hst.flows.find? fun f => f.id == id && !f.egress).bind fun f =>
    (List.find? (fun (x : Nat × Nat × Bool) => x.1 == seq) f.sent).map fun x => (f, x.2.1, x.2.2)

/-- A cell is not written: it is sent once more under the same FLOW and SEQ, then it is a write error (R86). -/
def State.cellAgain (s : State) (f : Flow) (seq : Nat) (again : Bool) : State :=
  match again, f.cells.find? fun c => c.seq == seq with
  | false, some c =>
    let s := s.modFlow f.id fun g => { g with sent := g.sent.map fun x => if x.1 = seq then (seq, s.now, true) else x }
    s.onHst fun h => { h with voq := Tab.modify [] (f.agent * 32 + bankGroup c.caddr) (· ++ [c]) h.voq }
  | _, _ => (s.closeFlow f.id).flowUnwritten f

/-- An acknowledgement OK or POISONED of a cell (R81, R99). -/
def State.cellAcked (s : State) (f : Flow) (seq : Nat) (poison : Bool) : State :=
  let g := { f with acked := f.acked ++ [seq], sent := f.sent.filter fun x => x.1 != seq, poison := f.poison || poison }
  if g.acked.length = g.cells.length then (s.closeFlow f.id).flowWritten g else s.modFlow f.id fun _ => g

/-- WRITE_ACK_RECEIVED: an agent takes its next acknowledgement (R86). -/
def State.ackReceived (s : State) (agent : Nat) : State :=
  match s.hst.acks.find? fun a => a.agent == agent with
  | none => s
  | some a =>
    let s := s.onHst fun h => { h with acks := h.acks.erase a }
    match s.sentCell a.flow a.seq with
    | none => s
    | some (f, _, again) =>
      if f.agent ≠ agent then s
      else match a.outcome with
        | .ok => s.cellAcked f a.seq false
        | .poisoned => s.cellAcked f a.seq true
        | .failed => s.cellAgain f a.seq again

/-- WRITE_ACK_TIMEOUT: no acknowledgement of a cell within 16 us (R86). -/
def State.ackTimeout (s : State) (flow seq : Nat) : State :=
  match s.sentCell flow seq with
  | some (f, t, again) => if t + 16000 ≤ s.now then s.cellAgain f seq again else s
  | none => s

/-- Staging buffers that hold a poisoned word of partition 0x08 are given up: the transfers on their way to the Cellar through
them are fetched or read again from their source (R127, Table 03-6). The transfers take the partition's entries in the order
in which they began (DESIGN CHOICE, assumption 20). -/
def State.stagingLost (s : State) (bank row word : Nat) : State :=
  match s.partitionAt (row / 128 * 64 + bank) with
  | some (0x08, k) =>
    let i := (k * 65536 + row % 128 * 512 + word % 64 * 8) / pantryEntrySize 0x08
    s.each (placesIn i (i + 1) (s.hst.flows.filter fun f => !f.egress)) fun s f => (s.closeFlow f.id).flowUnwritten f
  | _ => s

/-- PANTRY_SCRUB with what a block's read of a staging buffer brings (R123 to R127). -/
def State.pantryRow (s : State) (bank row : Nat) (corrected : Bool) (poisoned : Option Nat) (used : Bool) : State :=
  let s := s.pantryScrub bank row corrected poisoned used
  match used, poisoned with
  | true, some w => s.when (decide (bank < 64) && decide (row < 5120)) fun s => s.stagingLost bank row w
  | _, _ => s

/-! ### Consumers of read flows (R104, R339, Table 03-4) -/

/-- The Larder slot that holds a Cellar address, if one does. -/
def State.slotAt (s : State) (addr : Nat) : Option Nat :=
  let base := s.regionBase 5 + 0x400000
  if base ≤ addr ∧ (addr - base) / 262144 < s.rsv.slots then some ((addr - base) / 262144) else none

/-- Lines of a READ whose blocks are to be read again from the drives (Table 03-4). -/
def State.readAgain (s : State) (c : Nat) (blocks : List Nat) : State :=
  match s.cmd? c with
  | none => s
  | some (_, x) =>
    let lines := blocks.foldl (fun l b => insertNat ((x.lba + b) / 64) l) []
    let ofLines := fun (b : Nat) => lines.contains ((x.lba + b) / 64)
    let s := s.modCmd c fun x => { x with
      blocks := x.blocks.filter fun y => !ofLines y.1
      unready := (List.range x.blockCount).filter fun b => x.unready.contains b || ofLines b }
    s.readLines c (x.lines ++ lines.filter fun l => !x.lines.contains l)

/-- A packet's cells did not come out of the Cellar sound: its frame is not started; a Larder line is invalidated, and read
data is read again from the drives (Table 03-4). The packet's retry timer sends it again. -/
def State.sendFailed (s : State) (name : Nat) : State :=
  match s.allFrames.find? fun x => x.2.name == name with
  | none => s
  | some (n, f) =>
    let s := s.modQueue n fun p => { p with queue := p.queue.filter fun g => g.name != name }
    match f.body with
    | .breren _ _ pkt (some k) =>
      match s.tx? k with
      | none => s
      | some m =>
        let runs := match m.packets.find? fun p => p.index == pkt.index with | some p => p.runs | none => []
        let s := s.each runs fun s r => s.with? (s.slotAt r.1) fun s i => s.lineStale i
        match m.use with
        | .readData c pos =>
          let seg := s.segment m.sa
          let at_ := pos + pkt.index * seg
          let b0 := at_ / 4096
          s.readAgain c ((List.range ((at_ + packetLen m.length seg pkt.index + 4095) / 4096 - b0)).map (b0 + ·))
        | _ => s
    | _ => s

/-- The data strips of a row whose P or Q is to be recomputed (R339), as the buffer and the members hold them, with the strips that
cannot be had any more: they stand as zeros and are lost (R387). One strip that neither gives comes from the buffer's other
parity block by R322, at `other`; more come from the row as it stood before, while the members still hold its parity (R373). -/
def State.rowAgain (s : State) (w : StripeWrite) (x : BitVec 256) (base first other k : Nat) : List Nat × List (List Byte) :=
  let r := s.readRow w.group w.stripe k x base []
  let held := fun (a : Nat) => (w.places.zipIdx.find? fun y => y.1 == (a, k) && !s.slotPoison (first + y.2)).map fun y =>
    (s.slotBlock (first + y.2)).1
  let before := if s.disputed w.group w.stripe then none else r.reconstruct (s.unpatrolled w.group w.stripe)
  let one := fun (j : Nat) => (held (r.dataAt j)).orElse fun _ =>
    if r.lost.contains (r.dataAt j) then some zeroBlock else r.known j
  let js := List.range (dataStrips r.entry)
  let ds := js.map fun j => (one j).getD zeroBlock
  match js.filter (fun j => (one j).isNone), held other, before with
  | [], _, _ => ([], ds)
  | [y], some o, _ => ([], ds.set y (if other = pMember r.entry w.stripe then solveP ds o else solveQ ds y o))
  | ys, _, some l => ([], ys.foldl (fun ds y => ds.set y (l.getD y zeroBlock)) ds)
  | ys, _, none => (ys, ds)

/-- A data position's block of a stripe write read again from its source (R339): encrypted again under the same key and LBA, a pad
block or a loss marker made again, or copied again by a reshape. -/
def State.sourceAgain (s : State) (w : StripeWrite) (gen j m k : Nat) : Option Block :=
  let e := s.grp w.group
  let r := j * stripBlocks e + k
  match w.owner, s.writeExtent w with
  | .reshape, _ => match s.build w gen [] with
    | .ok b => (b.data.find? fun y => y.1 == m && y.2.1 == k).map (·.2.2)
    | .error _ => none
  | _, none => none
  | _, some (x, base) =>
    let t := expectAt e x base w.stripe m k
    if w.first ≤ r ∧ r < w.first + w.count then
      (s.volKey w.volume).bind fun key => (s.writePlain w r).map fun l => blockFor t gen (sealData key (w.lba0 + r) l)
    else if t.kind = Kind.pad then some (blockFor t gen zeroBlock)
    else some (markerFor t ((w.stripe * stripBlocks e + k) % 2 ^ 32) gen)

/-- A data block of a failed destage read as R339 lets it be had again: an uncompleted one from its source, a mirrored one from
the peer's copy. -/
def State.destageAgain (s : State) (w : StripeWrite) (i first j m k : Nat) : Option Block :=
  let it := s.intent i
  if !(getPart it Intent.flags).testBit 2 then s.sourceAgain w (getPart it Intent.newGen) j m k
  else if w.mirrored && !w.fua && s.mirroring then
    (w.places.zipIdx.find? fun y => y.1 == (m, k)).map fun y => s.slotBlock (first + y.2)
  else none

/-- A block of a stripe write under intent i is lost (R339, R387). -/
def State.destageLoss (s : State) (w : StripeWrite) (i m k : Nat) : State :=
  ((s.addLost w.group w.stripe m k).flag F.STR_STATUS_LOST_ADDED).tallyFlag .integrity F.STR_STATUS_LOST_ADDED w.group
    (integrityArgs w.stripe m k 1 i)

/-- A P or Q block whose destage read has failed is recomputed and destaged (R339); with strips given up, the row's other parity
block in the buffer takes them as zeros too. -/
def State.destageParity (s : State) (w : StripeWrite) (i first m k : Nat) : State :=
  match s.writeExtent w with
  | none => s.destageDone w.name m k false
  | some (x, base) =>
    let e := s.grp w.group
    let isP := decide (m = pMember e w.stripe)
    let other := if isP then qMember e w.stripe else pMember e w.stripe
    let (gone, ds) := s.rowAgain w x base first other k
    let blk := fun (m : Nat) (l : List Byte) => blockFor (expectAt e x base w.stripe m k) (getPart (s.intent i) Intent.newGen) l
    let s := s.each gone fun s j => s.destageLoss w i (dataMember e w.stripe j) k
    let s := s.when (decide (gone ≠ [])) fun s =>
      s.with? (w.places.zipIdx.find? fun y => y.1 == (other, k)) fun s y =>
        s.putSlot (first + y.2) (blk other (if isP then qOf ds else pOf ds))
    s.destageIssue w.name m k (blk m (if isP then pOf ds else qOf ds))

/-- A destage read has failed (R339). -/
def State.destageFailed (s : State) (n m k : Nat) : State :=
  match s.live? n with
  | none => s
  | some w =>
    match w.intent.bind fun i => (Tab.find? i s.str.buffers).map fun x => (i, x.1) with
    | none => s
    | some (i, first) =>
      match stripOf (s.grp w.group) w.stripe m with
      | .data j =>
        match s.destageAgain w i first j m k with
        | some b => s.destageIssue n m k b
        | none =>
          let s := (s.destageLoss w i m k).neverSafe w false
          let s := match w.owner, (getPart (s.intent i) Intent.flags).testBit 2 with
            | .command c, false => (s.flag F.STR_STATUS_WRITE_FAULT).stripeFails c w.pos St.writeFault
            | _, _ => s
          s.destageDone n m k false
      | _ => s.destageParity w i first m k

/-- A flow has been released whole and sound. -/
def State.flowRead (s : State) (f : Flow) : State :=
  match f.use with
  | .send n => s.modFrame n fun g => { g with
      waits := false
      body := match g.body with | .breren sa p pkt m => .breren sa p { pkt with payload := f.got } m | b => b }
  | .destage n m k => s.destageIssue n m k (f.got.take 4096, ofBytes 128 (f.got.drop 4096))
  | _ => s

/-- A flow has failed twice, or delivered POISON (Table 03-4). -/
def State.flowUnread (s : State) (f : Flow) : State :=
  match f.use with
  | .send n => s.sendFailed n
  | .destage n m k => s.destageFailed n m k
  | .warden => s.mcheck 1
  | _ => s

/-! ### Resequencers (R100 to R105) -/

/-- The held cell of a SEQ. -/
def Flow.heldCell (f : Flow) : Option HCell := f.held.find? fun c => c.seq == f.next

/-- Release the next cell in SEQ order, if it is held (R101). -/
def Flow.release (f : Flow) : Flow :=
  match f.heldCell with
  | some c => { f with
      next := f.next + 1, held := f.held.filter (fun d => d.seq != c.seq), got := f.got ++ c.data, poison := f.poison || c.poison }
  | none => f

/-- Cells an agent's resequencer holds. -/
def State.cellsHeld (s : State) (agent : Nat) : Nat :=
  ((s.hst.flows.filter fun f => f.agent == agent && f.egress).map fun f => f.held.length).sum

/-- A cell without a slot, or of an ended flow, is dropped and counted (R103). -/
def State.lateCell (s : State) : State := (s.bump A.HST_FLOW_ERR).flag F.HST_STATUS_FLOW_ERR

/-- A flow takes its place again after an arrival or a release; released whole, it ends and its consumer has its data. -/
def State.flowStep (s : State) (g : Flow) : State :=
  if g.next = g.cells.length then
    let s := s.closeFlow g.id
    if g.poison then s.flowUnread g else s.flowRead g
  else s.modFlow g.id fun _ => g

/-- The resequencers release one held cell of each flow whose next cell they hold (R101). -/
def State.releaseCells (s : State) : State :=
  s.each (s.hst.flows.filter fun f => f.egress && f.heldCell.isSome) fun s f => s.flowStep { f.release with lastArrival := s.now }

/-- EGRESS_CELL_ARRIVAL: the next cell for an agent arrives, its header changed on the way by `damage` (R80, R101, R103). It is
released at once if it is the next of its flow and no other cell of it is held; the held ones follow one in each cell time. -/
def State.cellArrives (s : State) (agent : Nat) (damage : BitVec 128) : State :=
  match s.hst.egress.find? fun c => c.dst == agent with
  | none => s
  | some c =>
    let s := (s.onHst fun h => { h with egress := h.egress.erase c }).bump (A.HST_AGENT_CELLS_OUT agent)
    match portCell true (c.header ^^^ damage) c.data with
    | none => s.cellDrop
    | some c =>
      match s.hst.flows.find? fun f => f.id == c.flow && f.agent == agent && f.egress with
      | none => s.lateCell
      | some f =>
        if c.seq < f.next ∨ f.issued ≤ c.seq ∨ f.held.any (fun d => d.seq == c.seq) then s.lateCell
        else
          let g := { f with held := f.held ++ [c] }
          let s := s.modFlow f.id fun _ => g
          let s := s.maxFld (F.HST_RESEQ_HIGH_WATER agent) (s.cellsHeld agent)
          let g := if f.held = [] ∧ (f.next = 0 ∨ c.seq = f.next) then { g with lastArrival := s.now } else g
          (s.flowStep (if f.held = [] then g.release else g)).feedAgent agent

/-- The missing cell of a flow and every later one are asked for once more, under a new flow (R105). -/
def State.flowAgain (s : State) (f : Flow) : State :=
  let left := (f.cells.drop f.next).map fun c => (256 * c.caddr + c.start, c.data.length)
  let id := s.pickFlow (s.hst.flows.length + s.hst.freedFlows.length + 1) s.hst.nextFlow
  (s.openFlow f.agent true f.use left [] true).modFlow id fun g => { g with got := f.got, poison := f.poison }

/-- RESEQ_TIMEOUT: a flow's next cell has not come in time, and the flow ends in a flow error (R102, R105). -/
def State.reseqExpiry (s : State) (id : Nat) : State :=
  match s.hst.flows.find? fun f => f.id == id && f.egress with
  | none => s
  | some f =>
    if (f.held ≠ [] ∨ 0 < f.next) ∧ f.heldCell = none ∧ f.lastArrival + s.reseqTimeout ≤ s.now then
      let s := (s.lateCell.satAdd (F.HST_RESEQ_FLOW_ERRS f.agent)).closeFlow f.id
      let s := if f.retry then s.flowUnread f else s.flowAgain f
      s.feedAgent f.agent
    else s

/-! ### The cell time (R91 to R94, R101) -/

/-- CELL_TIME (R91 to R94): both crossbars match and move cells; `bad` and `misplaced` are the granules that the bank groups'
reads found damaged (R108, R109). During a dump no ingress request is taken (R96), and the
resequencers stand still. -/
def State.cellTime (s : State) (damage : List (Nat × BitVec 128)) (bad : List (Nat × Nat)) (misplaced : List Nat) : State :=
  let s := s.each bad fun s x => s.granuleRead x.1 (.bytes x.2)
  let s := s.each misplaced fun s g => s.granuleRead g .location
  let s := if s.dumping then s
    else
      let m := s.ingressMatch
      (s.each m.pairs fun s (a, b) => s.cellIn damage a b).onHst fun h => { h with inGrant := m.grant, inAccept := m.accept }
  let m := s.egressMatch
  let s := (s.each m.pairs fun s (b, a) => s.cellOut b a).onHst fun h => { h with egGrant := m.grant, egAccept := m.accept }
  let s := s.when (!s.dumping) State.releaseCells
  s.each (List.range 42) fun s a => s.feedAgent a

end Sys2Proof.Machine
end

