-- ==== Sys2Proof/Machine/Sending.lean ====
section
/-!
DEFINITION. The transport's timers and commands (04_breren_transport.md R146 to R171, R181, R485) and the writing of held
COMMIT placements (R212).
-/

namespace Sys2Proof.Machine

/-! ### Sending and retrying (R158, R164, R166) -/

/-- SEND_PACKET: the next packet of a message, if its window and its data allow (R158, R161), after the packets of its SA that
its counter mark no longer holds back (R463). -/
def State.sendRow (s : State) (key : Nat) : State :=
  s.with? (s.tx? key) fun s m =>
    let s := s.releaseBlocked m.sa s.trn.blocked.length
    s.with? (s.tx? key) fun s m => s.sendNext m

/-- A packet of a send entry. -/
def TxMsg.packet? (m : TxMsg) (i : Nat) : Option TxPacket := m.packets.find? fun p => p.index == i

/-- A packet waits for its SA's counter mark, so it has not been sent yet (R463). -/
def State.isBlocked (s : State) (key i : Nat) : Bool := s.trn.blocked.any fun b => b.msg == some key && b.pkt.index == i

/-- Retransmit a packet on the next path with RETRY and ACK_NOW, its interval doubled (R158, R164). While its data is being
read again its timer runs anew. -/
def State.retransmit (s : State) (m : TxMsg) (p : TxPacket) : State :=
  let wait := min 64000000 (2 * p.interval)
  match (choosePath (s.sa m.sa) p.path false).filter (s.cutAllows m p.index), s.payloadOf m p.index with
  | some q, some (payload, runs) =>
    let s := s.modPacket m.key p.index fun x =>
      { x with path := q, retries := x.retries + 1, interval := wait, runs := runs, sentAt := s.now }
    (s.bump A.TRN_RETRIES).sendTx m p.index q true payload runs
  | _, _ => s.modPacket m.key p.index fun x => { x with sentAt := s.now, interval := wait }

/-- The retry limit, 1 to 15 (Table 04-15). -/
def State.retryLimit (s : State) : Nat := max 1 (s.fld F.TRN_CTRL_RETRY_LIMIT)

/-- RETRY_TIMER_EXPIRY (R164 to R168, R159). A transport engine that is not enabled sends nothing, so its timers stand
(Table 04-15). -/
def State.retryExpiry (s : State) (key i : Nat) : State :=
  match s.tx? key with
  | none => s
  | some m =>
    match m.packet? i with
    | none => s
    | some p =>
      if p.acked ∨ p.stomped ∨ s.isBlocked key i ∨ (s.aux m.sa).stopped ∨ ¬ s.is F.TRN_CTRL_EN ∨
          s.now < p.sentAt + p.interval then s
      else
        let s := (s.timerLoss m.sa).pathTimeout m.sa p.path
        if s.tooOld m.first || decide (s.retryLimit ≤ p.retries) then s.msgFail m m.failStatus else s.retransmit m p

/-- MESSAGE_AGE_LIMIT (R166): incomplete 2 s after its first packet. -/
def State.msgAge (s : State) (key : Nat) : State :=
  s.with? (s.tx? key) fun s m =>
    match m.first with
    | some t => if t + 2000000000 ≤ s.now then s.msgFail m m.failStatus else s
    | none => s

/-! ### Paths (R159, Table 04-12) -/

/-- A valid path of an SA in a state, where the SA sends at all. -/
def State.pathIs (s : State) (sa p st : Nat) : Bool :=
  decide (s.saState sa ≠ Sas.invalid) && decide (p < 16) && pathValid (s.sa sa) p && pathState (s.sa sa) p == st

/-- An interval has passed since a path's last probe was sent, or since it entered SUSPECT, and no probe of it waits to be sent
(R159). -/
def State.probeGap (s : State) (sa p interval : Nat) : Bool :=
  let t := s.pathTest sa p
  decide (max t.since t.lastProbe + interval ≤ s.now) && !s.parked sa .probe (·.path == p)

/-- SUSPECT_PROBE_SEND: the second and third probes of a SUSPECT path, 50 us apart (R159). -/
def State.suspectProbe (s : State) (sa p : Nat) : State :=
  let t := s.pathTest sa p
  if s.is F.TRN_CTRL_EN ∧ s.pathIs sa p 1 ∧ t.probes < 3 ∧ s.probeGap sa p 50000 then
    (s.setTest sa p { t with probes := t.probes + 1 }).sendProbe sa p
  else s

/-- PROBE_TIMEOUT: 200 us after the third probe of a SUSPECT path, with none answered (R159). -/
def State.probeTimeout (s : State) (sa p : Nat) : State :=
  let t := s.pathTest sa p
  if s.pathIs sa p 1 ∧ t.probes = 3 ∧ s.probeGap sa p 200000 then
    (s.pathDown sa p).tallyTransport F.TRN_STATUS_PATH_DOWN sa 0 p 0
  else s

/-- DOWN_PATH_PROBE: 10 ms since the last probe of a DOWN path (Table 04-12). The spec does not say from when the 10 ms of a path
that has never been probed count: from time 0 here (DESIGN CHOICE, assumption 125). -/
def State.downProbe (s : State) (sa p : Nat) : State :=
  if s.is F.TRN_CTRL_EN ∧ s.pathIs sa p 2 ∧ (s.pathTest sa p).lastProbe + 10000000 ≤ s.now then s.sendProbe sa p else s

/-- CWND_GROWTH: an SRTT has passed without a CE report or a timer's expiry (R168). -/
def State.cwndGrow (s : State) (sa : Nat) : State :=
  let srtt := s.saGet sa Sa.srtt
  if s.saState sa ≠ Sas.invalid ∧ srtt ≠ 0 ∧ (s.aux sa).growFrom + srtt ≤ s.now then
    (s.saPut sa Sa.cwnd (min 4096 (s.saGet sa Sa.cwnd + 8))).modAux sa fun a => { a with growFrom := s.now }
  else s

/-! ### Security associations (R146, R151 to R157, R181) -/

/-- SA_SYNC_RETRY: the first unanswered request whose interval has passed since it was sent goes again on the next path, its
interval doubled up to 64 ms (R151). One that still waits for the SA's counter mark has not been sent (R754). -/
def State.syncRetry (s : State) (sa : Nat) : State :=
  let waits := fun (r : SyncReq) => s.parked sa .saSync fun b => beAt b.pkt.payload 0 1 == r.subtype
  match (s.aux sa).sync.find? fun r => decide (r.sentAt + r.interval ≤ s.now) && !waits r with
  | none => s
  | some r =>
    if s.is F.TRN_CTRL_EN ∧ s.saState sa ≠ Sas.invalid then
      let r := { r with sentAt := s.now, interval := min 64000000 (2 * r.interval) }
      match choosePath (s.sa sa) r.path false with
      | some p => s.sendSync sa { r with path := p }
      | none => s.setSync sa r
    else s

/-- DRAINING_EXPIRY: 2 s after entry the SA is INVALID and the Wardens hear of it (Table 04-11). -/
def State.drainExpiry (s : State) (sa : Nat) : State :=
  if s.saState sa = Sas.draining ∧ (s.aux sa).drainAt + 2000000000 ≤ s.now then (s.invalidate sa).event (.saDrained sa) else s

/-- TRN_SA_CMD's entry. -/
def State.saSel (s : State) : Nat := s.fld F.TRN_SA_SEL_SA

/-- An SA may be started: its entry exists (R122), and its key slot is loaded, ACTIVATE and RESUME being ignored otherwise
(R485). -/
def State.saKeyed (s : State) (sa : Nat) : Bool := s.entryExists 0x05 sa && (Tab.find? sa s.cip.sa).isSome

/-- TRN_SA_CMD ACTIVATE (R181, R464 to R466, R485). -/
def State.saActivate (s : State) : State :=
  let n := s.saSel
  if s.saState n = Sas.invalid ∧ s.saKeyed n then
    ((((s.saStart n).saPut n Sa.challenge 0).saPut n Sa.state Sas.active).saRekey n).saSpent n
  else s

/-- TRN_SA_CMD RESUME (R152, R154, R181, R465, R485). -/
def State.saResume (s : State) : State :=
  let n := s.saSel
  if s.saState n = Sas.invalid ∧ s.saKeyed n then (((s.saStart n).saPut n Sa.state Sas.syncing).saRekey n).resume n else s

/-- TRN_SA_CMD INVALIDATE (Table 04-11). -/
def State.saInvalidate (s : State) : State := s.invalidate s.saSel

/-- TRN_SA_CMD SWITCH (R157): from ACTIVE or EXHAUSTED, to an ACTIVE SA. -/
def State.saSwitch (s : State) (new : Nat) : State :=
  let n := s.saSel
  let st := s.saState n
  if (st = Sas.active ∨ st = Sas.exhausted) ∧ new ≠ n ∧ s.saState new = Sas.active then s.startSync n 3 new else s

/-! ### Held messages (R163, R170, R467, R751) -/

/-- The SA on which a held message starts now: its own, or the one that replaces it. -/
def State.heldSa (s : State) (h : HeldMsg) : Option Nat :=
  let sa := s.msgSa h.sa h.msg
  let st := s.saState sa
  let may := st == Sas.active || (!h.msg.newId && (st == Sas.draining || st == Sas.exhausted))
  if may && s.roomFor sa h.msg then some sa else none

/-- A held message that an EXHAUSTED SA ends (R467). -/
def State.heldEnds (s : State) (h : HeldMsg) : Option State :=
  if s.saState (s.msgSa h.sa h.msg) = Sas.exhausted then s.spentUse h.msg.use else none

/-- SA_HELD_MESSAGE_START: the first held message whose wait is over starts, or ends with its SA's exhaustion. -/
def State.heldStart (s : State) : State :=
  match s.trn.held.find? fun h => (s.heldSa h).isSome || (s.heldEnds h).isSome with
  | none => s
  | some h =>
    let s := s.onTrn fun t => { t with held := t.held.erase h }
    (s.heldEnds h).getD (s.with? (s.heldSa h) fun s sa => s.takeTx sa h.msg)

/-! ### Held COMMIT placements (R212) -/

/-- COMMIT_PLACE_WRITE: the first held COMMIT placement that may be written is written. -/
def State.commitRow (s : State) : State :=
  s.with? (s.win.held.find? fun h => !h.writing && s.commitReady h) fun s h => s.commitWrite h

/-! ### Register views -/

/-- TRN_RX_IN_USE (Table 04-18). -/
def State.rxWord (s : State) : Nat := s.rxUsed fun _ => true

/-- TRN_TX_IN_USE (Table 04-19): send entries in use. -/
def State.txWord (s : State) : Nat := s.trn.tx.length

end Sys2Proof.Machine
end

