-- ==== Sys2Proof/Machine/ReadRows.lean ====
section
/-!
DEFINITION. The read service unit's own times, group delivery, and frames on their way out (10_read_service.md R422 to R450,
12_ethernet_ports.md, R544).
-/

namespace Sys2Proof.Machine

/-! ### Latency and hedging (R422, R425) -/

/-- E after a number of ms without a sample. -/
def decayed : Nat → Nat → Nat
  | 0, e => e
  | k + 1, e => decayed k (e - e / 16)

/-- LATENCY_DECAY: every whole 1 ms in which a drive took no sample lowers its E (R422); past 4,096 ms E no longer changes. -/
def State.latencyDecay (s : State) : State :=
  s.each (List.range 24) fun s n =>
    let x := s.lat n
    let k := (s.now - x.last) / 1000000
    if k = 0 then s
    else s.onRsv fun r => { r with lat := Tab.put ⟨0, 0⟩ n { est := decayed (min k 4096) x.est, last := x.last + k * 1000000 } r.lat }

/-- Positions of a pending read whose direct read has been out on a member for longer than its group's T, that may be read around
and have had no hedge yet, one of a row (R424, R425). -/
def State.hedgeable (s : State) (p : PendingRead) : List Nat :=
  let slow := s.drv.cmds.filter fun c => match c.use, c.issued with
    | .read n b _, some t => n == p.name && decide (t + s.threshold b.group < s.now)
    | _, _ => false
  let late := slow.flatMap fun c => match c.use with
    | .read _ b _ => (s.runPositions p b c.count).filter fun q =>
        let x := s.pendMb p q
        s.direct p q && !p.hedged.contains q && (p.blocks.any fun y => y.pos == q && y.verdict.isNone) && s.mayAvoid x.group x.stripe x.row x.member
    | _ => []
  let sameRow := fun (q z : Nat) =>
    let x := s.pendMb p q
    let w := s.pendMb p z
    w.group == x.group && w.stripe == x.stripe && w.row == x.row
  late.foldl (fun l q => if (p.around ++ l).any (sameRow q) then l else l ++ [q]) []

/-- HEDGE_START: a reconstructing read of the same blocks is started beside the direct read (R425). -/
def State.hedgeStart (s : State) (name : Nat) : State :=
  s.with? (s.pend? name) fun s p =>
    let qs := if s.is F.RSV_CTRL_HEDGE_EN then s.hedgeable p else []
    if qs = [] then s
    else ((s.modPend name fun p => { p with hedged := p.hedged ++ qs, around := p.around ++ qs }).bump A.RSV_HEDGES).pendEval name

/-! ### Hotness and pins (R430, R435, R446) -/

/-- HOTNESS_DECAY (R430). -/
def State.hotDecay (s : State) : State :=
  if s.larderDecay = 0 then s
  else s.every Tick.hotness (s.larderDecay * 1000000) fun s =>
    let s := s.each (s.rsv.dir.map (·.1)) fun s i => s.setDir i (putPart (s.dirEnt i) Dir.hot (getPart (s.dirEnt i) Dir.hot / 2))
    s.onRsv fun r => { r with ghost := (r.ghost.map fun x => (x.1, x.2 / 2)).filter fun x => x.2 != 0 }

/-- 64 ms of shelf time. -/
def holdTime : Nat := 64000000

/-- PIN_HOLD_EXPIRY: a destination held 64 ms after its egress request is given up; a unicast waiter's message fails (R435,
Table 10-4). -/
def State.pinExpiry (s : State) : State :=
  match s.rsv.dests.find? fun d => decide (d.since + holdTime ≤ s.now) && (d.cmd.isSome || d.lastPacket.isNone) with
  | none => s
  | some d =>
    let s := (s.bump A.RSV_HOLD_EXPIRED).flag F.RSV_STATUS_HOLD_EXPIRED
    let s := match d.cmd with
      | none => s
      | some c =>
        let mine := fun (m : TxMsg) => match m.use with | .readData e _ => e == c | .completion e => e == c | _ => false
        match s.trn.tx.find? mine with
        | some m => s.msgFail m m.failStatus
        | none => s.undeliverable c
    s.releaseDests fun x => decide (x = d)

/-- GROUP_COPY_PIN_RELEASE: 64 ms after the last packet of a port copy (R446). -/
def State.copyRelease (s : State) : State :=
  s.releaseDests fun d => d.cmd.isNone && d.lastPacket.any fun t => decide (t + holdTime ≤ s.now)

/-! ### Group delivery (R441 to R447) -/

/-- WINDOW_KEY of a repair key by its generation in force (R443, R445). -/
def State.repairKey (s : State) (j : Nat) : Nat :=
  let k := (s.fld F.RSV_REPAIR_BASE_KEY + j) % 65536
  k * 65536 + getPart (s.keyEnt k) Key.generation

/-- The line of a slot may be sent by group delivery now (R441). -/
def State.groupReadyLine (s : State) (i : Nat) : Bool :=
  let e := s.dirEnt i
  let ms := s.now / 1000000 % 2 ^ 32
  let sent := getPart e Dir.groupSent
  s.is F.RSV_CTRL_GROUP_EN && s.groupPermitted && !s.draining && s.volAttr (dirVol e) 1 && dirState e == 2 &&
    decide (s.fld F.RSV_GROUP_THRESH ≤ getPart e Dir.hot) &&
    (sent == 0 || decide (max 1 (s.fld F.RSV_GROUP_INTERVAL) ≤ (ms + 2 ^ 32 - sent) % 2 ^ 32))

/-- One port copy of a line (R442, R443): the catalogue message, then the data message. -/
def State.portCopy (s : State) (i port : Nat) : State :=
  let sa := s.fld (F.RSV_GROUP_SA_SA port)
  let sp := pathSp (s.sa sa) 0
  let off := 0x400000 + i * 262144
  let msg := fun (len j offset addr : Nat) =>
    { msgOf .place len (s.repairKey j) offset (.group i) (.cellar [(addr, len)]) with group := true }
  if getPart (s.sa sa) Sa.kind ≠ 1 ∨ s.saState sa ≠ Sas.active then s
  else if !(s.sp sp).link then (s.bump A.RSV_GROUP_DROPS).flag F.RSV_STATUS_GROUP_DROP
  else
    let d : Dest := { cmd := none, sa := sa, line := some i, buffer := none, since := s.now, lastPacket := none, lost := false }
    let s := (s.onRsv fun r => { r with dests := r.dests ++ [d] }).pin i
    let s := s.startMsg sa (msg 16 0 (16 * i) (s.regionBase 5 + 16 * i))
    s.startMsg sa (msg 262144 (off / 2 ^ 30) (off % 2 ^ 30) (s.lineAddr i))

/-- GROUP_SEND of the line in a slot (R441). -/
def State.groupSend (s : State) (i : Nat) : State :=
  if s.groupReadyLine i then
    let s := s.each ((List.range 8).filter fun n => s.is (F.RSV_GROUP_SA_VALID n)) fun s n => s.portCopy i n
    s.setDir i (putPart (s.dirEnt i) Dir.groupSent (s.now / 1000000 % 2 ^ 32))
  else s

/-! ### Frames on the wire (R449, R462, R544) -/

/-- A cut-through frame's verdicts are not all in, or one has failed (R449). -/
def State.cutFailing (s : State) (f : EgFrame) : Bool :=
  match f.cut.bind s.pend? with
  | some p => (s.frameLbas f).any fun l => p.blocks.any fun y => p.lba y.pos == l && y.verdict != some St.success
  | none => false

/-- The packet of a stomped frame: its retry timer is cancelled and it waits for its resend (R449, R455). A control packet goes
again at once, under the next counter, on the next path (R455, Table 11-2). -/
def State.markStomped (s : State) (f : EgFrame) : State :=
  match f.body with
  | .breren _ _ pkt (some k) => s.modPacket k pkt.index fun p => { p with stomped := true }
  | .breren sa path pkt none =>
    s.with? (choosePath (s.sa sa) (path % 16) false) fun s q => s.sendControl sa q pkt.opcode pkt.msgId pkt.payload
  | .raw _ => s

/-- Put a frame on the wire, whole or stomped. -/
def State.frameEnds (s : State) (n : Nat) (f : EgFrame) : State :=
  let late := s.cutFailing f
  let s := s.when late fun s => (s.bump A.RSV_STOMPS).flag F.RSV_STATUS_STOMP
  let stomp := late || f.stomp
  (s.when stomp fun s => s.markStomped f).frameSend n f stomp

/-- A sub-port can send: enabled, its link up, and running in the mode (R498, R529, Table 18-2). -/
def State.canSend (s : State) (n : Nat) : Bool :=
  decide (n ≤ 32) && s.spEn n && (s.sp n).link && (n == 32 || s.awake || decide (s.pwr.cur = .doze))

/-- The frame that a free sub-port sends next: in Doze a data port sends the answers of R507 alone (Table 18-2). -/
def State.frameDue (s : State) (n : Nat) : Option (EgFrame × Tab TreeNode) :=
  if n = 32 ∨ s.awake then s.nextFrame n
  else
    let p := s.sp n
    (p.queue.find? fun f => decide (f.cls = .express) && !f.isBreren && !p.heldPrio f.prio).map fun f => (f, s.tc.nodes)

/-- A frame on the wire may be broken here (R510): with its mCRC the fragment has at least 64 B, and at least 64 B of the frame
remain. -/
def EgFrame.breakable (f : EgFrame) : Bool := decide (f.brk + 64 ≤ f.sent + 4) && decide (f.sent + 64 ≤ f.len)

/-- The express frame that interrupts the preemptable frame on the wire: the oldest frame of the express MAC that may go, once
preemption is verified (R508, R510, Table 12-4, R139). -/
def State.interrupter (s : State) (n : Nat) (f : EgFrame) : Option EgFrame :=
  let p := s.sp n
  let fits := fun (g : EgFrame) => !g.waits &&
    (decide (g.cls = .control) || (decide (g.cls = .express) && g.isBreren && !p.heldPrio g.prio))
  if s.mergeMode n = 1 ∧ p.merge ∧ f.cls ≠ .express ∧ f.cls ≠ .control ∧ f.breakable then p.queue.find? fits else none

/-- The frame on the wire is interrupted, counted the first time, and the express frame goes (R510, Table 12-15). -/
def State.interrupt (s : State) (n : Nat) (f g : EgFrame) : State :=
  let s := s.when (!f.parted) fun s => s.macCount n .txPreemptions
  let s := s.modQueue n fun p => { p with
    queue := p.queue.filter fun x => x.name != g.name, wire := some { f with parted := true, brk := f.sent } }
  s.frameEnds n g

/-- A frame goes on: so many bytes of it have left now, it waits for outstanding verdicts, or it ends. -/
def State.frameGoes (s : State) (n : Nat) (f : EgFrame) (sent : Option Nat) (waits : Bool) : State :=
  let part := match sent with
    | some k => if f.sent < k ∧ k < f.len then some k else none
    | none => none
  match part with
  | some k => s.modSp n fun p => { p with wire := some { f with sent := k } }
  | none => if waits then s.modSp n fun p => { p with wire := some f } else (s.modSp n fun p => { p with wire := none }).frameEnds n f

/-- FRAME_TRANSMIT: the frame on the wire is interrupted, goes on or ends, or the next frame starts; a cut-through frame whose
verdicts are outstanding takes until the next (R449, R544). One stomped part way ends at once (R513). -/
def State.frameTransmit (s : State) (n : Nat) (sent : Option Nat) : State :=
  if s.canSend n then
    match (s.sp n).wire with
    | some f =>
      if f.stomp && decide (0 < f.sent) then (s.modSp n fun p => { p with wire := none }).frameEnds n f
      else match s.interrupter n f with
        | some g => s.interrupt n f g
        | none => s.frameGoes n f sent false
    | none =>
      match s.frameDue n with
      | none => s
      | some (f, nodes) =>
        let s := (s.modQueue n fun p => { p with queue := p.queue.filter fun g => g.name != f.name }).onTc fun t => { t with nodes := nodes }
        s.frameGoes n f sent (s.cutFailing f && !f.stomp)
  else s

/-- STOMP_RESEND: once the verdicts of its blocks are known, a stomped packet goes again with the same id and index (R450). It
counts no retry and gives no sample (R449, R165). -/
def State.stompResend (s : State) (key i : Nat) : State :=
  match s.tx? key with
  | none => s
  | some m =>
    match m.packet? i with
    | none => s
    | some p =>
      if !p.stomped ∨ (s.cutOf m i).isSome ∨ s.tooOld m.first ∨ ¬ s.is F.TRN_CTRL_EN then s
      else
        match choosePath (s.sa m.sa) p.path false, s.payloadOf m i with
        | some q, some (payload, runs) =>
          let s := s.modPacket key i fun x => { x with stomped := false, resent := true, path := q, runs := runs, sentAt := s.now }
          s.sendTx m i q true payload runs
        | _, _ => s

/-! ### Register views (R453) -/

/-- RSV_USE (Table 10-11). -/
def State.useWord (s : State) : Nat :=
  (s.linesWhere fun _ e => dirState e == 2).length % 2 ^ 18 + 2 ^ 18 * min 16383 (s.rsv.pending.filter (·.isOpen)).length

/-- RSV_DRV_LAT of a drive port (Table 10-13). -/
def State.latWord (s : State) (n : Nat) : Nat :=
  let e := (s.lat n).est
  let slow := match s.memberAt n with | some (g, _) => decide (s.threshold g < e) | none => false
  min (2 ^ 20 - 1) (e / 1000) + 2 ^ 20 * ofBool slow

/-- RSV_GRP_THRESH of a group (Table 10-13); a group without an ACTIVE member has no M, hence no T, and reads its reset value 0
(R423). -/
def State.threshWord (s : State) (g : Nat) : Nat :=
  let e := s.grp g
  if (List.range (grpMembers e)).any fun m => memberOf e m == 0 then min (2 ^ 20 - 1) (s.threshold g / 1000) else 0

end Sys2Proof.Machine
end

