-- ==== Sys2Proof/Machine/Capsules.lean ====
section
/-!
DEFINITION. The command queue engine: capsules, order of execution, completions, queues and resets
(06_command_queues.md R226 to R258, R262 to R265).
-/

namespace Sys2Proof.Machine

/-! ### Capsule fields (R230, R231, Table 06-2) -/

/-- QUEUE of a capsule. -/
def capQueue (cap : BitVec 512) : Nat := getPart cap Cap.queue % 64

/-- TAG of a capsule. -/
def capTag (cap : BitVec 512) : Nat := getPart cap Cap.tag % 32

/-- The I/O opcodes with the flags they permit (Table 06-2). -/
def ioFlags (op : Nat) : Option Nat :=
  match op with
  | 1 => some 0x0D
  | 2 => some 0x13
  | 3 => some 0x01
  | 4 => some 0x01
  | 5 => some 0x03
  | _ => none

/-- The admin opcodes of Table 06-2. -/
def adminOps : List Nat := [0x20, 0x21, 0x22, 0x23, 0x30, 0x31, 0x32, 0x41, 0x42, 0x43, 0x44, 0x45, 0x46]

/-- An opcode stands in Table 06-2 and is permitted on a queue (R231). -/
def opcodeOk (op queue : Nat) : Bool := if queue = 0 then adminOps.contains op else (ioFlags op).isSome

/-- A ring token's LENGTH gives E as R244 wants it, and its generation is not 0. -/
def ringOk (t : BitVec 128) : Bool :=
  let n := getPart t Token.length
  (List.range 12).any (fun k => n == 512 * 2 ^ k) && getPart t Token.key % 65536 != 0

/-- Sizes of the log pages by id; 0 for an unknown id (Table 19-12). -/
def logSize (id : Nat) : Nat :=
  match id with
  | 1 => 256
  | 2 => 256
  | 3 => 64
  | _ => 0

/-- ARG0 and ARG1 of an admin command keep Table 06-5 and R722. -/
def adminArgsOk (op a0 a1 : Nat) : Bool :=
  let queue := decide (1 ≤ a0 % 64)
  match op with
  | 0x20 => decide (a0 < 64) && queue && a1 == 0
  | 0x21 => decide (a0 < 64) && queue && a1 == 0
  | 0x22 => decide (a0 < 64) && queue && a1 == 0
  | 0x23 => decide (a0 < 2 ^ 32) && queue && getBits (BitVec.ofNat 64 a0) 6 2 == 0 && getBits (BitVec.ofNat 64 a0) 13 3 == 0 && a1 == 0
  | 0x30 => (a0 == 1 || a0 == 2) && a1 == 0
  | 0x31 => a0 == 0 && a1 == 0
  | 0x32 => a0 == 0 && a1 == 0
  | 0x41 => decide (a0 ≤ 2) && a1 == 0
  | 0x42 => decide (a0 < 256) && a1 % 4 == 0 && decide (a1 < logSize a0)
  | 0x43 => [1, 2, 4, 0x0E].contains a0 && a1 == 0
  | 0x44 => [1, 2].contains a0 && decide (a1 ≤ 1)
  | 0x45 => a0 % 4096 == 0 && a1 == 0
  | 0x46 => (a0 == 1 || a0 == 2) && a1 == 0
  | _ => false

/-- Step 3 of R234: reserved bits, fields marked 0, flags, BLOCK_COUNT and admin arguments. -/
def fieldsOk (cap : BitVec 512) : Bool :=
  let op := getPart cap Cap.opcode
  let g := getPart cap
  let zero := fun (p : Part) => g p == 0
  let reserved := decide (g Cap.tag < 32) && decide (g Cap.queue < 64) && decide (g Cap.volume < 4096)
  let noRange := zero Cap.lba && zero Cap.blockCount
  match ioFlags op with
  | some fl =>
    reserved && g Cap.flags &&& fl == g Cap.flags && zero Cap.arg0 && zero Cap.arg1 &&
      (if op = 3 then zero Cap.volume && noRange && zero Cap.dataToken
       else decide (1 ≤ g Cap.blockCount) && decide (g Cap.blockCount ≤ 16384) && (op == 1 || op == 2 || zero Cap.dataToken))
  | none =>
    let token := [0x20, 0x22, 0x41, 0x42, 0x45].contains op
    let vol := op == 0x41 && g Cap.arg0 == 0
    reserved && zero Cap.flags && noRange && (vol || zero Cap.volume) && (token || zero Cap.dataToken) &&
      adminArgsOk op (g Cap.arg0) (g Cap.arg1)

/-! ### The checks of R234 -/

/-- The ownership checks of R631: a status, or whether the command waits for a handover. -/
def State.ownerCheck (s : State) (v : Nat) : Except Nat Bool :=
  let o := getPart (s.vent v) Volu.owner
  if s.isFenced then .error s.fenceStatus
  else if !o.testBit 0 then .error St.notOwner
  else .ok (o.testBit 1)

/-- Access group of an endpoint (R300). -/
def State.accessGroup (s : State) (ep : Nat) : Nat := Tab.getD ep 0 s.vol.access % 64

/-- An endpoint may read or write a volume by its masks (R302). -/
def State.maskAllows (s : State) (v ep : Nat) (write : Bool) : Bool :=
  (getPart (s.vent v) (if write then Volu.writeMask else Volu.readMask)).testBit (s.accessGroup ep)

/-- The volume checks of R302: the failing status, or whether the command waits for a handover. -/
def State.volumeCheck (s : State) (ep : Nat) (cap : BitVec 512) : Except Nat Bool :=
  let op := getPart cap Cap.opcode
  let v := getPart cap Cap.volume % 4096
  let write := op == 2 || op == 5
  if !s.is F.VOL_CTRL_EN || !s.volActive v || !s.maskAllows v ep write then .error St.volumeAccess
  else if write && s.volAttr v 2 then .error St.writeProtected
  else if getPart (s.vent v) Volu.size < getPart cap Cap.lba + getPart cap Cap.blockCount then .error St.lbaRange
  else
    match s.ownerCheck v with
    | .error e => .error e
    | .ok wait => if (s.volKey v).isNone then .error St.keyUnavailable else .ok wait

/-- The token check of a READ or a pulled WRITE (R200). -/
def pullFault (t : BitVec 128) (blocks : Nat) : Option Nat :=
  if getPart t Token.key % 65536 = 0 ∨ getPart t Token.length < blocks * 4096 then some St.tokenInvalid else none

/-- Step 6 of R234: the token checks of R198 and R200. -/
def State.tokenFault (s : State) (ep : Nat) (cap : BitVec 512) : Option Nat :=
  let t := dataToken cap
  let n := getPart cap Cap.blockCount
  match getPart cap Cap.opcode with
  | 1 => pullFault t n
  | 2 => if (getPart cap Cap.flags).testBit 4 then s.pushFault t ep n else pullFault t n
  | _ => none

/-- The checks of an accepted command in the order of R234: the failing status, or whether it waits for a handover. -/
def State.validate (s : State) (k port : Nat) (cap : BitVec 512) : Except Nat Bool :=
  let op := getPart cap Cap.opcode
  let bound := match s.queue? k with | some q => q.ring == some (ringToken cap) | none => false
  if !bound then .error St.tokenInvalid
  else if !opcodeOk op (k % 64) then .error St.invalidOpcode
  else if !fieldsOk cap then .error St.invalidField
  else if [0x44, 0x45, 0x46].contains op && !s.adminPort port then .error St.portNotAuthorised
  else
    let onVol := [1, 2, 4, 5].contains op || (op == 0x41 && getPart cap Cap.arg0 == 0)
    match if onVol then s.volumeCheck (k / 64) cap else .ok false with
    | .error e => .error e
    | .ok wait =>
      match s.tokenFault (k / 64) cap with
      | some e => .error e
      | none => .ok wait

/-- A failing status of R234 that only the volume checks of R302 give: VOL_REFUSED counts it (Table 07-15). -/
def volumeFault (e : Nat) : Bool :=
  !List.contains [St.tokenInvalid, St.invalidOpcode, St.invalidField, St.portNotAuthorised, St.windowRevoked] e

/-! ### Order of execution (R237 to R239) -/

/-- ORDERED of a command (Table 06-1). -/
def Slot.ordered (x : Slot) : Bool := (getPart x.cap Cap.flags).testBit 0

/-- The condition of R238: no command of the queue accepted before it is short of COMPLETING where one of the two is
ORDERED. -/
def State.orderClear (s : State) (k : Nat) (x : Slot) : Bool :=
  !s.cq.slots.any fun (j, y) =>
    queueOf j == queueOf k && y.alive && decide (y.order < x.order) && (x.ordered || y.ordered)

/-- A command enters EXECUTING: an admin command is handed to the Wardens (Table 01-9, R41). -/
def State.enterExec (s : State) (c : Nat) : State :=
  match s.cmd? c with
  | none => s
  | some (k, x) =>
    let admin := decide (k / 32 % 64 = 0) && decide (x.wait = .running)
    let s := s.modCmd c fun x => { x with state := .executing, wait := if admin then .firmware else x.wait }
    s.when admin fun s => s.event (.adminCommand c)

/-- ORDERED_RELEASE: a WAITING command enters EXECUTING once R238 lets it. -/
def State.orderedRelease (s : State) (c : Nat) : State :=
  match s.cmd? c with
  | some (k, x) => if x.state = .waiting ∧ x.wait ≠ .finished ∧ s.orderClear k x then s.enterExec c else s
  | none => s

/-! ### Completion (R236, R243 to R248) -/

/-- The completion entry of a command (Table 06-4). -/
def completionEntry (k : Nat) (x : Slot) (phase : Bool) : BitVec 128 :=
  let e := putPart (putPart 0 Cpl.result (x.result % 2 ^ 32)) Cpl.status x.status
  let e := putPart (putPart e Cpl.incarnation (getPart x.cap Cap.incarnation)) Cpl.tag (k % 32)
  let e := putPart (putPart e Cpl.queue (k / 32 % 64)) Cpl.service (if x.opcode = 1 then x.service % 8 else 0)
  putPart e Cpl.phase (ofBool phase)

/-- COMPLETED is set in the intent of every live stripe write of a command, here and at the peer (R334). -/
def State.markCompleted (s : State) (c : Nat) : State :=
  let mine := s.str.live.filter fun w => match w.owner with | .command d => d == c | _ => false
  s.each mine fun s w =>
    match w.intent with
    | some i =>
      let e := s.intent i
      let f := getPart e Intent.flags
      (s.setIntent i (putPart e Intent.flags (if f.testBit 2 then f else f + 4))).peerTell Pm.completed (beBytes 4 i)
    | none => s

/-- Ring entries E of a bound ring token (R244). -/
def ringEntries (t : BitVec 128) : Nat := getPart t Token.length / 16

/-- The queue after an entry has been sent: the producer index advances, and the phase inverts at the wrap (R245). -/
def Queue.advance (q : Queue) (entries : Nat) : Queue :=
  if q.producer + 1 = entries then { q with producer := 0, phase := !q.phase } else { q with producer := q.producer + 1 }

/-- An event of the Wardens that a command's end withdraws. -/
def Event.names (e : Event) (c : Nat) : Bool :=
  decide (e = .adminCommand c) || decide (e = .volumeCommand c) || decide (e = .commandTimeout c)

/-- The completion point of a command: its entry is built and sent as a single-packet COMMIT PLACE at the producer index
(R236, R245). -/
def State.complete (s : State) (c : Nat) : State :=
  match s.cmd? c with
  | none => s
  | some (k, x) =>
    match (s.queue? (queueOf k)).bind fun q => q.ring.map fun t => (q, t) with
    | none => s.endUndelivered c
    | some (q, t) =>
      let s := ((s.markCompleted c).endAccess x.access).modCmd c fun x => { x with state := .completing, access := none }
      let s := s.onWdn fun w => { w with events := w.events.filter fun e => !e.names c }
      let s := (s.bump A.CQ_COMPLETED).when (x.status == St.aborted || x.status == St.abortedByReset) fun s => s.bump A.CQ_ABORTED
      let off := getPart t Token.base + 16 * q.producer
      let s := s.modQ (queueOf k) fun q => q.advance (ringEntries t)
      let m := msgOf .place 16 (getPart t Token.key) off (.completion c) (.bytes (toBytes 16 (completionEntry k x q.phase)))
      s.startMsg x.sa { m with commit := true }

/-- A message has packets still to be sent, or sent packets that wait for a counter mark or for a resend after a stomp. -/
def State.txUnsent (s : State) (m : TxMsg) : Bool :=
  decide (m.packets.length < s.txCount m) || (m.packets.any fun p => p.stomped) ||
    s.trn.blocked.any fun b => b.msg == some m.key

/-- Data of a READ still to be sent: its completion waits for it (R33). A cut-through frame on the wire or in a queue may
yet be stomped (R449). -/
def State.dataUnsent (s : State) (c : Nat) : Bool :=
  let mine := fun (m : TxMsg) => match m.use with | .readData d _ => d == c | _ => false
  let keys := (s.trn.tx.filter mine).map (·.key)
  let cut := fun (f : EgFrame) => f.cut.isSome && match f.body with
    | .breren _ _ _ (some k) => keys.contains k
    | _ => false
  (s.trn.tx.any fun m => mine m && s.txUnsent m) || (s.trn.held.any fun h => mine h.msg) ||
    s.mac.sps.any fun x => x.2.queue.any cut || (match x.2.wire with | some f => cut f | none => false)

/-- COMPLETION_POINT: a finished command whose data has all been sent (R33, R236). -/
def State.completionPoint (s : State) (c : Nat) : State :=
  match s.cmd? c with
  | some (_, x) => if x.alive ∧ x.wait = .finished ∧ !s.dataUnsent c then s.complete c else s
  | none => s

/-- Stop a command and build its completion entry at once (R254, R258, R262). -/
def State.stopComplete (s : State) (c status : Nat) : State := (s.stopWith c status).complete c

/-! ### Accepting a capsule (R229, R233) -/

/-- Set an endpoint. -/
def State.setEp (s : State) (e : Nat) (x : Endpoint) : State := s.onCq fun c => { c with eps := Tab.put epDefault e x c.eps }

/-- The slot of a command just accepted (R233): nothing of it has begun. -/
def newSlot (cap : BitVec 512) (now order sa port : Nat) (ep : Endpoint) : Slot where
  state := .waiting
  cap := cap
  accepted := now
  order := order
  sa := sa
  port := port
  fua := (getPart cap Cap.flags).testBit 1 || (ep.writeFua && (getPart cap Cap.opcode == 2 || getPart cap Cap.opcode == 5))
  started := false
  xlate := []
  wait := .running
  status := 0
  result := 0
  service := 0
  fetchNext := 0
  fetches := []
  staging := none
  access := none
  intents := []
  toAdmit := []
  unready := []
  messages := []
  blocks := []
  lines := []
  fails := []
  covers := []
  stopped := false
  timedOut := false

/-- Stripe writes that a FLUSH covers: those of WRITEs and ZEROs of its queue that have reached their completion point and are
not FUA-equivalent, live ones and those that never will be (R241, R242). -/
def State.flushCovers (s : State) (k : Nat) : List Nat :=
  (s.str.live.filter fun w => decide (w.queue = some k) && s.ownerDone w).map (·.name) ++
    match s.queue? k with
    | some q => q.unsafeWrites.map (·.1)
    | none => []

/-- The command in a slot has been accepted and passes or fails its checks (R234, Table 06-3). -/
def State.checkCmd (s : State) (k key port : Nat) (cap : BitVec 512) (c : Nat) : State :=
  let t := dataToken cap
  let push := getPart cap Cap.opcode == 2 && (getPart cap Cap.flags).testBit 4
  let s := s.when push fun s => s.readEntry 0x04 (getPart t Token.key / 65536)
  match s.validate k port cap with
  | .error e =>
    let s := (s.when (volumeFault e) fun s => s.bump A.VOL_REFUSED).when (decide (e = St.notOwner)) fun s =>
      s.event (.volumeCommand c)
    (s.modCmd c fun x => { x with status := e, wait := .finished }).complete c
  | .ok wait =>
    let (acc, s) := if push then (fun (n, s) => (some n, s)) (s.beginAccess (getPart t Token.key / 65536)) else (none, s)
    let covers := if getPart cap Cap.opcode = 3 then s.flushCovers k else []
    let s := s.modCmd c fun x => { x with access := acc, covers := covers, wait := if wait then .handover else .running }
    let s := s.when wait fun s => s.event (.volumeCommand c)
    match Tab.find? key s.cq.slots with
    | some x => if s.orderClear key x then s.enterExec c else s
    | none => s

/-- A capsule that no discard of R233 takes: the command is accepted here. -/
def State.acceptCmd (s : State) (k key sa port : Nat) (cap : BitVec 512) : State :=
  let c := s.cq.order
  let x := newSlot cap s.now c sa port (s.ep (k / 64))
  let s := s.onCq fun q => { q with order := c + 1, slots := Tab.set key x q.slots }
  (s.bump A.CQ_ACCEPTED).checkCmd k key port cap c

/-- One capsule of the intake (R233). -/
def State.capsule (s : State) (cap : BitVec 512) (sa port : Nat) : State :=
  let ep := s.saGet sa Sa.endpoint
  let k := ep * 64 + capQueue cap
  let key := k * 32 + capTag cap
  if !s.is F.CQ_CTRL_EN || !(s.ep ep).enabled then s.bump A.CQ_NO_QUEUE
  else
    match s.queue? k with
    | none => s.bump A.CQ_NO_QUEUE
    | some q =>
      if q.state ≠ .active ∨ getPart cap Cap.incarnation ≠ s.incarnation k then s.bump A.CQ_STALE
      else
        let s := s.readEntry 0x01 (q.slot * 32 + capTag cap)
        match (Tab.find? key s.cq.slots).filter fun x => x.alive with
        | some x =>
          if x.cap = cap then s.bump A.CQ_DUPLICATE
          else ((s.bump A.CQ_TAG_CONFLICT).flag F.CQ_STATUS_TAG_CONFLICT).tallyFlag .command F.CQ_STATUS_TAG_CONFLICT ep
            (commandArgs key cap 0)
        | none =>
          let s := s.freeSlot key
          if q.ring.isSome then s.acceptCmd k key sa port cap
          else if ringOk (ringToken cap) then
            (s.modQ k fun q => { q with ring := some (ringToken cap), producer := 0, phase := true }).acceptCmd k key sa port cap
          else (s.bump A.CQ_NO_QUEUE).tallyEvent .command 4 3 ep (commandArgs key cap 0)

/-- CAPSULE_ACCEPT: the next capsule of the intake; none is taken while the part drains for a low-power mode (R676). -/
def State.capsuleAccept (s : State) : State :=
  if s.draining then s
  else
    match s.cq.intake with
    | [] => s
    | (cap, sa, port) :: t => (s.onCq fun c => { c with intake := t }).capsule cap sa port

/-! ### The hardware commands -/

/-- A command that executes: its opcode, and nothing has stopped or settled it. -/
def Slot.runs_ (x : Slot) (op : Nat) : Bool :=
  x.opcode == op && decide (x.state = .executing) && decide (x.wait = .running) && !x.stopped

/-- FLUSH (R241, R242): GROUP_FAILED where a stripe write that it covers has a FAILED group or was discarded with one (R338); it
waits for every other, without end for one that lost a block in the Cellar and never is FUA-equivalent (R339; DEDUCED,
assumption 129). -/
def State.flush (s : State) (c : Nat) : State :=
  match s.cmd? c with
  | some (k, x) =>
    if x.runs_ 3 then
      let lost := fun (n : Nat) => match s.live? n with
        | some w => s.groupState w.group == 4
        | none => (s.queue? (queueOf k)).any fun q => q.unsafeWrites.contains (n, true)
      let failed := x.covers.any lost
      if failed then s.finish c St.groupFailed
      else if x.covers = [] then s.finish c St.success
      else s
    else s
  | none => s

/-- Outcomes of the blocks of a VERIFY in one stripe (R372): position and status of each that is not SUCCESS. `p` is the
place of the first of its n blocks, at a position of the command's range. -/
def State.verifyFails (s : State) (x : Slot) (p : Place) (pos n : Nat) (bad : List (Nat × Nat)) : List (Nat × Nat) :=
  let e := s.grp p.group
  let b := stripBlocks e
  let ent := x.xlate.getD ((x.lba + pos) / 1048576 - x.lba / 1048576) 0
  let first := p.stripe - p.block / stripeBlocks e
  (List.range n).filterMap fun i =>
    let r := s.readRow p.group p.stripe ((p.pos + i) % b) ent first bad
    let st := (r.outcome (s.disputed p.group p.stripe) (s.groupState p.group == 4)
      (r.reconstruct (s.unpatrolled p.group p.stripe)) ((p.pos + i) / b)).1
    if st = St.success then none else some (pos + i, st)

/-- A VERIFY whose whole range has been read takes the status of its lowest block that failed (R372). -/
def State.verifySettle (s : State) (c : Nat) : State :=
  match s.cmd? c with
  | some (_, x) =>
    if x.blockCount ≤ x.fetchNext then s.finish c (match x.fails with | f :: _ => f.2 | [] => St.success) else s
  | none => s

/-- VERIFY: the next stripe of its range is read through the checks and treated by R394, once no intent of it is live; the
RESULT counts the blocks written. `bad` and `wbad` list the (member, row) whose drive read or write fails. -/
def State.verify (s : State) (c : Nat) (bad wbad : List (Nat × Nat)) : State :=
  let s := match s.cmd? c with
    | some (_, x) => if x.runs_ 4 && !x.started && !s.stepHolds x then s.translate c else s
    | none => s
  match s.cmd? c with
  | none => s
  | some (_, x) =>
    if x.runs_ 4 && x.started then
      let lba := x.lba + x.fetchNext
      let p := s.slotPlace x lba
      let n := min (min (stripeBlocks (s.grp p.group) - p.pos) (1048576 - lba % 1048576)) (x.blockCount - x.fetchNext)
      if s.stripeIdle p.group p.stripe then
        let fails := s.verifyFails x p x.fetchNext n bad
        let before := s.driveWrites
        let s := (s.patrolRows p.group p.stripe (s.is F.RBD_CTRL_PATROL_REPAIR) bad wbad).1
        let wrote := s.driveWrites - before
        (s.modCmd c fun x => { x with
          fetchNext := x.fetchNext + max 1 n, result := x.result + wrote, fails := x.fails ++ fails }).verifySettle c
      else s
    else s

/-! ### Command timeout (R258) -/

/-- The Wardens take commands: the complex runs shelf firmware, not the recovery loop (R613, R739). -/
def State.firmwareRuns (s : State) : Bool := s.complexRuns && !s.wdn.recovery

/-- COMMAND_TIMEOUT: 8 s after acceptance the event is raised; shelf firmware then stops the command (R258). -/
def State.commandTimeout (s : State) (c : Nat) : State :=
  match s.cmd? c with
  | none => s
  | some (_, x) =>
    if !x.alive || decide (s.now < x.accepted + 8000000000) then s
    else if !x.timedOut then
      (((s.modCmd c fun x => { x with timedOut := true }).bump A.CQ_TIMEOUTS).flag F.CQ_STATUS_TIMEOUT).event (.commandTimeout c)
    else if s.firmwareRuns then s.stopComplete c St.timeout
    else s

/-! ### Queues and resets (R250 to R252, R262 to R265) -/

/-- Queue slots of the pool (R226, Table 06-13). -/
def State.poolSlots (s : State) : Nat := min 16384 (s.pantryEntries 0x01 / 32)

/-- The lowest free queue slot (DESIGN CHOICE, assumption 20). -/
def State.freeQueueSlot (s : State) : Option Nat :=
  let used := s.cq.queues.map fun x => x.2.slot
  (List.range (used.length + 1)).find? fun n => !used.contains n && decide (n < s.poolSlots)

/-- A queue comes to exist: ACTIVE, its ring bound or not, its incarnation moved on (R226, R228). -/
def State.openQueue (s : State) (k slot : Nat) (ring : Option (BitVec 128)) : State :=
  let q : Queue := { slot := slot, state := .active, ring := ring, producer := 0, phase := true, closing := none, unsafeWrites := [] }
  (s.onCq fun c => { c with queues := Tab.set k q c.queues }).moveIncarnation k

/-- A queue closes to new capsules and its incarnation moves on; a FAILED one starts its ring afresh (R252, R262, R264). -/
def State.closeQueue (s : State) (k : Nat) (how : Option Closing) : State :=
  (s.modQ k fun q =>
    let fresh := decide (q.state = .failed)
    { q with state := .resetting, closing := how, producer := if fresh then 0 else q.producer, phase := fresh || q.phase }
    ).moveIncarnation k

/-- Every command of a queue in WAITING or EXECUTING is stopped and completed with ABORTED_BY_RESET (R262). -/
def State.stopQueue (s : State) (k : Nat) : State := s.each (s.queueCmds k) fun s c => s.stopComplete c St.abortedByReset

/-- Every completion of a queue has been sent, and none of its commands is left (R262). -/
def State.queueQuiet (s : State) (k : Nat) : Bool :=
  let mine := fun (m : TxMsg) => match m.use with
    | .completion c => (match s.cmd? c with | some (j, _) => queueOf j == k | none => false)
    | _ => false
  decide (s.queueCmds k = []) && !(s.trn.held.any fun h => mine h.msg) && !s.trn.tx.any fun m => mine m && s.txUnsent m

/-- A queue stops existing: its queue slot and command slots are free, its ring unbound (R251). -/
def State.eraseQueue (s : State) (k : Nat) : State :=
  s.onCq fun c => { c with queues := Tab.erase k c.queues, slots := c.slots.filter fun x => queueOf x.1 != k }

/-- The queue whose reset or deletion a command asked for. -/
def State.closingOf (s : State) (c : Nat) : Option (Nat × Queue) :=
  List.find? (fun (x : Nat × Queue) => match x.2.closing with | some y => y.by_ == c | none => false) s.cq.queues

/-- A reset or deletion of a queue ends: it is ACTIVE again with the ring of R252, or gone (R251). -/
def State.closingEnd (s : State) (k : Nat) (h : Closing) : State :=
  if h.delete then s.eraseQueue k
  else
    s.modQ k fun q =>
      let fresh := h.ring.isSome || decide (q.state = .failed)
      { q with state := .active, closing := none, ring := h.ring.or q.ring
               producer := if fresh then 0 else q.producer, phase := fresh || q.phase }

/-- QUEUE_CREATE (R250). -/
def State.queueCreate (s : State) (k c : Nat) (cap : BitVec 512) : State :=
  if (s.queue? k).isSome then s.finish c St.invalidField
  else if !ringOk (dataToken cap) then s.finish c St.tokenInvalid
  else
    match s.freeQueueSlot with
    | none => s.finish c St.noQueueSlot
    | some n =>
      let s := s.openQueue k n (some (dataToken cap))
      (s.setResult c (s.incarnation k)).finish c St.success

/-- QUEUE_RESET and QUEUE_DELETE begin: the queue closes and its commands are stopped (R251, R262). -/
def State.queueClose (s : State) (k c : Nat) (delete : Bool) (cap : BitVec 512) : State :=
  let t := dataToken cap
  if (s.queue? k).isNone then s.finish c St.invalidField
  else if t ≠ 0 ∧ !ringOk t then s.finish c St.tokenInvalid
  else (s.closeQueue k (some ⟨c, if t = 0 then none else some t, delete⟩)).stopQueue k

/-- QUEUE_RESET and QUEUE_DELETE go on: once every completion of the reset has been sent, the command completes (R251,
R262). -/
def State.queueCloseOn (s : State) (c : Nat) (delete : Bool) : State :=
  match s.closingOf c with
  | none => s
  | some (k, q) =>
    match q.closing with
    | some h =>
      if s.queueQuiet k then
        let s := s.closingEnd k h
        (s.setResult c (if delete then 0 else s.incarnation k)).finish c St.success
      else s
    | none => s

/-- CQ_CMD EP_ENABLE (R226, R752). -/
def State.epEnable (s : State) (ep : Nat) : State :=
  match s.freeQueueSlot, (s.ep ep).enabled with
  | some n, false => (s.setEp ep { epDefault with enabled := true }).openQueue (ep * 64) n none
  | _, _ => s.flag F.CQ_STATUS_CMD_REFUSED

/-- I/O queues of an endpoint. -/
def State.ioQueues (s : State) (ep : Nat) : List Nat :=
  (s.cq.queues.map (·.1)).filter fun k => k / 64 == ep && k % 64 != 0

/-- The CQ_CMD under way has ended. -/
def State.cqRunEnd (s : State) : State := (s.onCq fun c => { c with run := none }).flag F.CQ_STATUS_RESET_DONE

/-- CQ_CMD EP_DISABLE begins: every I/O queue of the endpoint closes (R265, R752). -/
def State.epDisable (s : State) (ep : Nat) : State :=
  if (s.ep ep).enabled then
    (s.onCq fun c => { c with run := some (.disable ep) }).each (s.ioQueues ep) fun s k => (s.closeQueue k none).stopQueue k
  else s.flag F.CQ_STATUS_CMD_REFUSED

/-- EP_DISABLE goes on: the I/O queues are deleted, one that queue 0 has opened since the beginning among them, then queue 0 is
reset, then the endpoint is disabled (R265). -/
def State.epDisableOn (s : State) (ep : Nat) : State :=
  let io := s.ioQueues ep
  let k := ep * 64
  let anew := io.filter fun k => (s.queue? k).any fun q => decide (q.state ≠ .resetting)
  if anew ≠ [] then s.each anew fun s k => (s.closeQueue k none).stopQueue k
  else if io ≠ [] then (if io.all s.queueQuiet then s.each io fun s k => s.eraseQueue k else s)
  else if (s.queue? k).any fun q => decide (q.state ≠ .resetting) then (s.closeQueue k none).stopQueue k
  else if s.queueQuiet k then ((s.eraseQueue k).setEp ep epDefault).cqRunEnd
  else s

/-- CQ_CMD CONTROLLER_RESET begins: every queue closes, and a checkpoint is taken (R228, R264). -/
def State.controllerReset (s : State) : State :=
  let s := s.onCq fun c => { c with run := some (.controller false) }
  (s.each (s.cq.queues.map (·.1)) fun s k => s.closeQueue k none).ckptStart false

/-- CONTROLLER_RESET goes on: with the checkpoint taken every command is stopped; with every completion sent every queue is
ACTIVE (R264). -/
def State.controllerResetOn (s : State) (stopped : Bool) : State :=
  let ks := s.cq.queues.map (·.1)
  if !stopped then
    if s.str.ckpt.isNone && !s.str.ckptDue then
      (s.onCq fun c => { c with run := some (.controller true) }).each ks fun s k => s.stopQueue k
    else s
  else if ks.all s.queueQuiet then
    (s.each ks fun s k => s.modQ k fun q =>
      let fresh := decide (q.state = .failed)
      { q with state := .active, producer := if fresh then 0 else q.producer, phase := fresh || q.phase }).cqRunEnd
  else s

/-- A write of CQ_CMD: ignored while RESET_BUSY is 1 (Table 06-11). -/
def State.cqCmd (s : State) (cmd ep : Nat) : State :=
  if s.cq.run.isSome then s
  else
    match cmd with
    | 1 => s.controllerReset
    | 2 => s.epEnable ep
    | 3 => s.epDisable ep
    | _ => s

/-! ### Register views (Tables 06-12 to 06-16) -/

/-- CQ_POOL as read. -/
def State.poolWord (s : State) : Nat := s.poolSlots + 65536 * s.cq.queues.length

/-- The queue that CQ_Q_SEL selects. -/
def State.selQueue (s : State) : Nat := s.fld F.CQ_Q_SEL_EP * 64 + s.fld F.CQ_Q_SEL_QUEUE

/-- CQ_EP_STATE as read. -/
def State.epWord (s : State) : Nat :=
  let ep := s.fld F.CQ_Q_SEL_EP
  ofBool (s.ep ep).enabled + 2 * (s.cq.queues.filter fun x => x.1 / 64 == ep).length

/-- Code of a queue's state (Table 06-15). -/
def QueueState.code : QueueState → Nat
  | .none => 0
  | .active => 1
  | .resetting => 2
  | .failed => 3

/-- CQ_Q_STATE as read. -/
def State.queueWord (s : State) : Nat :=
  let k := s.selQueue
  let inc := 65536 * s.incarnation k
  match s.queue? k with
  | some q => q.state.code + 4 * ofBool q.ring.isSome + 8 * (s.cq.slots.filter fun x => queueOf x.1 == k).length + inc
  | none => inc

/-- CQ_Q_RING as read. -/
def State.ringWord (s : State) : Nat :=
  match s.queue? s.selQueue with
  | some q => q.producer + 65536 * ofBool q.phase
  | none => 65536

/-- CQ_Q_TOKEN[n] as read. -/
def State.tokenWord (s : State) (n : Nat) : Nat :=
  match (s.queue? s.selQueue).bind (·.ring) with
  | some t => getBytes t (4 * n) 4
  | none => 0

end Sys2Proof.Machine
end

