-- ==== Sys2Proof/Machine/Admin.lean ====
section
/-!
DEFINITION. The admin commands as the Wardens execute them (06_command_queues.md R250 to R254, R259 to R261; 16_wardens.md
R623 to R626; 19_management.md R718 to R722), and the firmware staging area.
-/

namespace Sys2Proof.Machine

/-- An admin command that waits for shelf firmware, which takes it now: its slot key and slot (R41, R250). -/
def State.adminCmd (s : State) (c op : Nat) : Option (Nat × Slot) :=
  if s.firmwareRuns then
    (s.cmd? c).filter fun x => x.2.opcode == op && decide (x.2.state = .executing) && decide (x.2.wait = .firmware) && !x.2.stopped
  else none

/-- Carry out an admin command that firmware takes now. -/
def State.admin (s : State) (c op : Nat) (f : State → Nat → Slot → State) : State :=
  match s.adminCmd c op with
  | some (k, x) => f s k x
  | none => s

/-- ARG0 of a command. -/
def Slot.arg0 (x : Slot) : Nat := getPart x.cap Cap.arg0

/-- ARG1 of a command. -/
def Slot.arg1 (x : Slot) : Nat := getPart x.cap Cap.arg1

/-- Endpoint of a slot key. -/
def endpointOf (key : Nat) : Nat := key / 2048

/-- The queue that an admin command names by ARG0 bits 5:0. -/
def namedQueue (key : Nat) (x : Slot) : Nat := endpointOf key * 64 + x.arg0 % 64

/-- QUEUE_CREATE (R250). -/
def State.adminCreate (s : State) (c : Nat) : State :=
  s.admin c 0x20 fun s key x => s.queueCreate (namedQueue key x) c x.cap

/-- QUEUE_DELETE (R251) and QUEUE_RESET (R262): the command begins or goes on. -/
def State.adminClose (s : State) (c : Nat) (delete : Bool) : State :=
  if (s.closingOf c).isSome then (if s.firmwareRuns then s.queueCloseOn c delete else s)
  else s.admin c (if delete then 0x21 else 0x22) fun s key x => s.queueClose (namedQueue key x) c delete x.cap

/-- ABORT (R254, R257). -/
def State.adminAbort (s : State) (c : Nat) : State :=
  s.admin c 0x23 fun s key x =>
    let target := namedQueue key x * 32 + x.arg0 / 256 % 32
    match (Tab.find? target s.cq.slots).filter fun y => getPart y.cap Cap.incarnation == x.arg0 / 65536 with
    | none => s.finish c St.abortNotFound
    | some y => if y.alive then (s.stopComplete y.order St.aborted).finish c St.success else s.finish c St.abortTooLate

/-- SELF_TEST_START (R259). -/
def State.adminTestStart (s : State) (c : Nat) : State :=
  s.admin c 0x30 fun s key x =>
    if s.mgt.test.isSome then s.finish c St.selfTestBusy
    else (s.testStart x.arg0 0 (endpointOf key)).finish c St.success

/-- SELF_TEST_ABORT (R259). -/
def State.adminTestAbort (s : State) (c : Nat) : State := s.admin c 0x31 fun s _ _ => s.testAbort.finish c St.success

/-- SELF_TEST_RESULT (R261). -/
def State.adminTestResult (s : State) (c : Nat) : State :=
  s.admin c 0x32 fun s _ _ => (s.setResult c s.testResult.toNat).finish c St.success

/-! ### Identify and log pages (R721, R722) -/

/-- A page of n bytes from its fields, each an offset and bytes; bytes not listed are 0. -/
def pageOf (n : Nat) (l : List (Nat × List Byte)) : List Byte :=
  l.foldl (fun p x => p.take x.1 ++ x.2 ++ p.drop (x.1 + x.2.length)) (List.replicate n 0)

/-- Identify page 0x01 (Table 19-11). -/
def State.controllerPage (s : State) : List Byte :=
  pageOf 4096 [
    (0, leBytes 4 0x4B2400A1), (4, padTo 16 (ascii "SK24-A1-F77     ")), (20, leBytes 1 s.side), (21, leBytes 1 s.peer.own),
    (22, leBytes 2 4096), (24, leBytes 2 64), (26, leBytes 1 32), (27, leBytes 1 128), (28, leBytes 2 16384),
    (30, leBytes 2 4096), (32, leBytes 8 s.wdn.fwSerial), (40, leBytes 8 s.invSerial), (48, leBytes 1 1),
    (50, leBytes 2 s.coalesceWindow)]

/-- Identify page 0x00 of a volume for an endpoint (Table 19-11). -/
def State.volumePage (s : State) (v ep : Nat) : List Byte :=
  let e := s.vent v
  let g := s.volGroup v
  let may := ofBool (s.maskAllows v ep false) + 2 * ofBool (s.maskAllows v ep true)
  pageOf 4096 [
    (0, leBytes 2 v), (2, leBytes 1 (getPart e Volu.attr)), (3, leBytes 1 (getPart e Volu.owner)),
    (4, leBytes 6 (getPart e Volu.size)), (10, leBytes 1 g), (11, leBytes 1 (s.groupState g)),
    (12, leBytes 1 (grpMembers (s.grp g))), (13, leBytes 1 (getPart (s.grp g) Grp.stripLog2)), (14, leBytes 1 may)]

/-- The landing window of an endpoint: its key index and entry. -/
def State.landingKey (s : State) (ep : Nat) : Option (Nat × BitVec 256) :=
  List.find? (fun (x : Nat × BitVec 256) =>
    getPart x.2 Key.kind == 0 && getPart x.2 Key.endpoint == ep &&
      (getPart x.2 Key.state == Keys.valid || getPart x.2 Key.state == Keys.rotating)) s.win.keys

/-- Identify page 0x02 of an endpoint (Table 19-11). -/
def State.endpointPage (s : State) (ep sa : Nat) : List Byte :=
  let key := match s.landingKey ep with
    | some (i, e) => [(8, leBytes 4 (i * 65536 + getPart e Key.generation)), (12, leBytes 4 (getPart e Key.length))]
    | none => []
  let queues := ((List.range 64).map fun q => if (s.queue? (ep * 64 + q)).isSome then 2 ^ q else 0).sum
  let incs := (List.range 64).flatMap fun q => leBytes 2 (s.incarnation (ep * 64 + q))
  pageOf 4096 ([(0, leBytes 2 ep), (2, leBytes 1 (s.accessGroup ep)), (4, leBytes 4 sa), (16, leBytes 8 queues), (24, incs)] ++ key)

/-- An entry of the self-test log page (Table 19-12). -/
def testEntryBytes (e : TestEntry) : List Byte :=
  toBytes 4 e.result ++ leBytes 8 e.start ++ leBytes 8 e.stop ++ leBytes 1 e.path ++ [0] ++ leBytes 2 e.endpoint ++
    leBytes 4 e.inst ++ leBytes 4 0

/-- Serial in the header of a firmware slot, or 0 where the slot is empty (Table 19-12). -/
def State.slotSerial (s : State) (k : Nat) : Nat :=
  let a := 0x800000 + 0x100000 * k
  if s.flashRead a 4 = [0xFF, 0xFF, 0xFF, 0xFF] then 0 else leNat (s.flashRead (a + 16) 8)

/-- Bytes staged in the firmware staging area. -/
def State.stagedBytes (s : State) : Nat := (s.wdn.staged.map (·.2)).sum

/-- A log page (Table 19-12). -/
def State.logPage (s : State) (id : Nat) : List Byte :=
  match id with
  | 1 => padTo 256 s.wdn.report
  | 2 => padTo 256 (s.mgt.log.flatMap testEntryBytes)
  | 3 => padTo 64 (leBytes 8 s.wdn.fwSerial ++ leBytes 8 (s.slotSerial 0) ++ leBytes 8 (s.slotSerial 1) ++
      leBytes 1 (s.wdn.fwSlot.getD 3) ++ leBytes 3 0 ++ leBytes 4 s.stagedBytes ++ leBytes 8 s.attic.fwFloor)
  | _ => []

/-- Place bytes into a command's DATA_TOKEN (R250). -/
def State.placeData (s : State) (c : Nat) (x : Slot) (l : List Byte) : State :=
  let t := dataToken x.cap
  s.startMsg x.sa (msgOf .place l.length (getPart t Token.key) (getPart t Token.base) (.readData c 0) (.bytes l))

/-- IDENTIFY (R721). -/
def State.adminIdentify (s : State) (c : Nat) : State :=
  s.admin c 0x41 fun s key x =>
    if getPart (dataToken x.cap) Token.length < 4096 then s.finish c St.tokenInvalid
    else
      let page := match x.arg0 with
        | 0 => s.volumePage x.volume (endpointOf key)
        | 1 => s.controllerPage
        | _ => s.endpointPage (endpointOf key) x.sa
      (s.placeData c x page).finish c St.success

/-- LOG_READ (R722). -/
def State.adminLogRead (s : State) (c : Nat) : State :=
  s.admin c 0x42 fun s _ x =>
    let n := getPart (dataToken x.cap) Token.length
    if n < 4 ∨ 65536 < n then s.finish c St.tokenInvalid
    else
      let l := ((s.logPage x.arg0).drop x.arg1).take n
      ((s.placeData c x l).setResult c l.length).finish c St.success

/-- Value of a feature (Table 06-8). -/
def State.featureValue (s : State) (ep id : Nat) : Nat :=
  match id with
  | 1 => ofBool (s.ep ep).writeFua
  | 2 => ofBool (s.ep ep).coalesce
  | 4 => 63
  | _ => s.now / 1000 % 2 ^ 32

/-- FEATURE_GET (R250). -/
def State.adminFeatureGet (s : State) (c : Nat) : State :=
  s.admin c 0x43 fun s key x => (s.setResult c (s.featureValue (endpointOf key) x.arg0)).finish c St.success

/-- FEATURE_SET (R253). -/
def State.adminFeatureSet (s : State) (c : Nat) : State :=
  s.admin c 0x44 fun s key x =>
    let ep := endpointOf key
    let on := decide (x.arg1 = 1)
    let e := s.ep ep
    (s.setEp ep (if x.arg0 = 1 then { e with writeFua := on } else { e with coalesce := on })).finish c St.success

/-! ### The firmware staging area (R623, R719) -/

/-- Bytes of the staging area: 1 MiB. -/
def stagingSize : Nat := 0x100000

/-- A range joins the staged ranges: those it meets or touches become one with it, and the list stays rising. -/
def joinRange (a n : Nat) : List (Nat × Nat) → List (Nat × Nat)
  | [] => [(a, n)]
  | (b, m) :: t =>
    if a + n < b then (a, n) :: (b, m) :: t
    else if b + m < a then (b, m) :: joinRange a n t
    else joinRange (min a b) (max (a + n) (b + m) - min a b) t

/-- Stage bytes at an offset. -/
def State.stageBytes (s : State) (off : Nat) (l : List Byte) : State :=
  s.onWdn fun w => { w with staging := Mem.write 0 w.staging off l, staged := joinRange off l.length w.staged }

/-- Empty the staging area. -/
def State.stagingClear (s : State) : State := s.onWdn fun w => { w with staging := [], staged := [] }

/-- The staged image, if every byte below the TOTAL_LENGTH of its header is staged and it passes R622 (R624). -/
def State.stagedImage (s : State) : Option (List Byte) :=
  let n := leNat (Mem.read 0 s.wdn.staging 12 4)
  if n ≤ stagingSize ∧ (s.wdn.staged.any fun r => r.1 == 0 && decide (n ≤ r.2)) = true then
    let img := Mem.read 0 s.wdn.staging 0 n
    if fwImageOk s.fuses.keys s.attic.fwFloor img then some img else none
  else none

/-- Write a firmware image to a slot of the boot flash; the rest of the slot is erased. -/
def State.flashImagePut (s : State) (slot : Nat) (img : List Byte) : State :=
  let a := 0x800000 + 0x100000 * slot
  let keep := fun (c : Host.Cell) => decide (c.1 < a) || decide (a + 0x100000 ≤ c.1)
  { s with flash := { s.flash with mem := Mem.write 0xFF (s.flash.mem.filter keep) a img } }

/-- Activate a verified image (R626, R627): through a Cellar region of kind Warden, or by the recovery loop (R739). -/
def State.activateImage (s : State) (img : List Byte) (slot : Nat) : State :=
  if s.wdn.recovery then s.startCores img (some slot) 0
  else
    let a := s.regionBase 7
    let s := s.when (decide (img.length ≤ s.regionSize 7)) fun s => s.cellarWrite 36 a img
    (s.setPair A.WDN_FW_SRC a).wdnActivate

/-- FIRMWARE_ACTIVATE's effect (R624): the staged image is verified and written to the slot that did not supply the running
one, and activated if asked for. The staging area is empty afterwards. The flag says whether it succeeded: an activation
that ACTIVATE_FAIL ends has not (DEDUCED, assumption 95). -/
def State.fwActivate (s : State) (activate : Bool) : Bool × State :=
  match s.stagedImage with
  | none => (false, s.stagingClear)
  | some img =>
    let slot := s.otherSlot
    let s := (s.flashImagePut slot img).stagingClear
    if activate then
      let t := s.activateImage img slot
      (decide (t.wdn.fwSlot = some slot), t)
    else (true, s)

/-- FIRMWARE_SEGMENT: its data is fetched, and placed into the staging area once it is there (R623, R625). What it may not be is
tested as it starts and as it ends, never while its FETCH is outstanding (R29). Data that the Cellar delivers with POISON is a
machine check (Table 16-3), and the command ends with CELLAR_DATA_ERROR (DEDUCED, assumption 149). -/
def State.adminSegment (s : State) (c : Nat) : State :=
  s.admin c 0x45 fun s _ x =>
    let t := dataToken x.cap
    let n := getPart t Token.length
    let off := x.arg0
    let meets := s.wdn.staged.any fun r => decide (off < r.1 + r.2) && decide (r.1 < off + n)
    let held := s.trn.held.any fun h => match h.msg.use with | .fetch d => d == c | _ => false
    if x.started && (held || decide (x.fetches ≠ [])) then s
    else if n = 0 ∨ n % 4096 ≠ 0 ∨ 0x100000 < n then s.finish c St.tokenInvalid
    else if meets || decide (stagingSize < off + n) then s.finish c St.firmwareSegment
    else if s.activation.isSome then s.finish c St.firmwareBusy
    else if !x.started then
      match s.findStaging n with
      | none => s
      | some a =>
        let s := s.modCmd c fun x => { x with started := true, staging := some a }
        s.startMsg x.sa (msgOf .fetch n (getPart t Token.key) (getPart t Token.base) (.fetch c) .none)
    else
      match x.staging with
      | none => s
      | some a =>
        let s := s.cellsTaken 36 (cellSpan a n)
        if s.rangePoison a n then (s.mcheck 1).finish c St.cellarDataError
        else (s.stageBytes off (s.cellar a n)).finish c St.success

/-- FIRMWARE_ACTIVATE (R624, R625): while another one runs it completes FIRMWARE_BUSY. It waits for a GLB_SPI command to
end, since the flash is written through GLB_SPI_CTRL (R742). -/
def State.adminActivate (s : State) (c : Nat) : State :=
  s.admin c 0x46 fun s _ x =>
    if s.activation ≠ some c then
      s.finish c (if s.stagedImage.isNone then St.firmwareImage else St.firmwareBusy)
    else if s.glb.spi.isSome then s
    else
      let (ok, s) := s.fwActivate (decide (x.arg0 = 2))
      s.finish c (if ok then St.success else St.firmwareImage)

end Sys2Proof.Machine
end

