-- ==== Sys2Proof/Machine/Manage.lean ====
section
/-!
DEFINITION. The management unit's own commands: the Tally and its event frames, self-tests, firmware staging and debug
tokens (19_management.md R708 to R720).
-/

namespace Sys2Proof.Machine

/-! ### The Tally (R711 to R713) -/

/-- MGT_TALLY_CMD ADVANCE (R712). -/
def State.tallyAdvance (s : State) (n : Nat) : State :=
  let k := min n s.mgt.unread
  s.onMgt fun m => { m with read := (m.read + k) % 4096, unread := m.unread - k }

/-- A read of MGT_TALLY_REC[0]: the selected record is copied into the snapshot (R712). -/
def State.tallySnap (s : State) : State :=
  s.onMgt fun m => { m with snap := Tab.getD (s.fld F.MGT_TALLY_SEL_SLOT) 0 m.tally }

/-- MGT_TALLY_APPEND: the record staged by firmware is appended (R713). TIME, SEQ, BLOCK, CLASS and CODE bit 31 are the
K24's; the other bytes stand as staged. -/
def State.tallyAppend (s : State) : State :=
  let l := (List.range 16).flatMap fun n => toBytes 4 (s.word (A.MGT_TALLY_IN n))
  let r : BitVec 512 := ofBytes 512 l
  let r := putBytes (putBytes r 0 8 s.now) 8 8 s.mgt.seq
  let r := putBytes (putBytes r 16 1 0x10) 17 1 0x0A
  let r := putBits r (8 * 23 + 7) 1 1
  (s.tallyPut r).tallyFrame 0x0A r

/-! ### UDP from the management port (R527) -/

/-- Send a UDP datagram from the ledger access port of the management port. The spec gives its DSCP and hop limit no value:
both are free (assumption 16). -/
def State.mgtUdp (s : State) (v6 : Bool) (dst : List Byte) (dport : Nat) (body : List Byte) : State :=
  let p := s.sp 32
  let (x, s) := s.draw 14
  let dscp := x % 64
  let own := if v6 then p.field Ent.ipv6 else p.field Ent.ipv4
  let (ip, s) := s.udpPacket v6 (dscp * 4) (x / 64) own dst s.ledgerPort dport body
  s.sendRaw 32 .express (s.dscpPrio dscp)
    (s.ethFrame 32 (p.field Ent.nextHop) (s.dscpPrio dscp) (if v6 then 0x86DD else 0x0800) ip)

/-! ### Event frames (R714) -/

/-- Event frames are on. -/
def State.eventsOn (s : State) : Bool := s.is F.MGT_CTRL_EVT_EN && decide (s.fld F.MGT_EVT_PORT_PORT ≠ 0)

/-- An event frame is due: 16 records wait, or 1 ms has passed since the first of them. -/
def State.eventsDue (s : State) : Bool :=
  match s.mgt.waiting with
  | [] => false
  | r :: _ => decide (16 ≤ s.mgt.waiting.length) || decide (getBytes r 0 8 + 1000000 ≤ s.now)

/-- The collector's address in wire order (Table 19-14). -/
def State.collector (s : State) (v6 : Bool) : List Byte :=
  let l := (List.range 4).flatMap fun n => toBytes 4 (s.word (A.MGT_EVT_ADDR n))
  if v6 then l else l.take 4

/-- The event frame's payload: header and records (Table 19-8). -/
def State.eventBytes (s : State) (l : List (BitVec 512)) : List Byte :=
  ascii "KTLY" ++ beBytes 1 1 ++ beBytes 1 l.length ++ beBytes 1 s.side ++ beBytes 1 0 ++ beBytes 4 s.mgt.frameSeq ++
    beBytes 4 0 ++ l.flatMap (toBytes 64)

/-- EVENT_FRAME_SEND (R714): with the link down the records are dropped and counted. -/
def State.eventFrame (s : State) : State :=
  if !s.eventsDue then s
  else
    let l := s.mgt.waiting.take 16
    let t := s.onMgt fun m => { m with waiting := m.waiting.drop 16 }
    if !s.eventsOn then t
    else if !s.mgtLink then (t.bump A.MGT_EVT_DROPS l.length).flag F.MGT_STATUS_EVT_DROP
    else
      let v6 := s.is F.MGT_EVT_PORT_IPV6
      let t := t.mgtUdp v6 (s.collector v6) (s.fld F.MGT_EVT_PORT_PORT) (s.eventBytes l)
      (t.onMgt fun m => { m with frameSeq := (m.frameSeq + 1) % 2 ^ 32 }).bump A.MGT_EVT_FRAMES

/-! ### Self-tests (R715) -/

/-- MGT_ST_CTRL START_SHORT (1) and START_EXTENDED (2) from a path: the path's code in the log is Table 19-12's. -/
def State.stStart (s : State) (kind : Nat) (p : Path) : State :=
  if s.mgt.test.isSome then s.flag F.MGT_STATUS_ST_BUSY else s.testStart kind (pathCode p) 0

/-! ### Firmware staging (R719) -/

/-- A MGT_FW_CTRL command ends with a code. -/
def State.fwEnd (s : State) (code : Nat) : State :=
  ((s.setFld F.MGT_FW_STATUS_CODE code).setFld F.MGT_FW_STATUS_READY 1).flag F.MGT_STATUS_FW_DONE

/-- MGT_FW_CTRL OPEN: the area is emptied. -/
def State.fwOpen (s : State) : State :=
  if s.activation.isSome then s.fwEnd 1
  else (s.stagingClear.onMgt fun m => { m with fwOffset := 0, fwOver := false }).fwEnd 0

/-- A write of MGT_FW_DATA: beyond 1 MiB it sets OVERFLOW, and nothing more is appended until OPEN. -/
def State.fwData (s : State) (w : Word) : State :=
  if s.mgt.fwOver then s
  else if stagingSize < s.mgt.fwOffset + 4 then
    (s.onMgt fun m => { m with fwOver := true }).setFld F.MGT_FW_STATUS_CODE 3
  else (s.stageBytes s.mgt.fwOffset (toBytes 4 w)).onMgt fun m => { m with fwOffset := m.fwOffset + 4 }

/-- MGT_FW_CTRL VERIFY_STAGE, or ACTIVATE (R624, R719). -/
def State.fwRun (s : State) (activate : Bool) : State :=
  if s.activation.isSome then s.fwEnd 1
  else
    let (ok, s) := s.fwActivate activate
    s.fwEnd (if ok then 0 else 2)

/-- MGT_FW_STATUS as read: STAGED_KIB follows the staging area. -/
def State.fwWord (s : State) : Word :=
  putBits (s.word A.MGT_FW_STATUS) F.MGT_FW_STATUS_STAGED_KIB.lo F.MGT_FW_STATUS_STAGED_KIB.width (s.stagedBytes / 1024)

/-! ### Debug tokens (R720) -/

/-- A write of MGT_DBG_DATA appends four bytes. -/
def State.dbgData (s : State) (w : Word) : State := s.onMgt fun m => { m with dbg := m.dbg ++ toBytes 4 w }

/-- MGT_DBG_CMD OPEN empties the buffer. -/
def State.dbgOpen (s : State) : State := s.onMgt fun m => { m with dbg := [] }

/-- The header of a debug token is laid out as R720 says, and a signature block follows it. -/
def dbgFormat (l : List Byte) : Bool :=
  l.length == 336 && decide (l.take 4 = ascii "KDBG") && leAt l 4 2 == 1 && decide (leAt l 6 2 < 8) && leAt l 8 4 == 0x4B2400A1 &&
    zeros l 21 107

/-- The code a debug token ends with: the format, then the conditions of R720 in their order. -/
def State.dbgCode (s : State) (l : List Byte) : Nat :=
  let sig := l.drop 128
  if !dbgFormat l then 1
  else if !(decide (leAt l 20 1 < 4) && keySlotOk s.fuses.keys (leAt l 20 1) sig) then 4
  else if !signatureOk sig (sha384 (l.take 128)) then 2
  else if leAt l 12 8 ≠ s.pair A.MGT_DBG_NONCE then 3
  else 0

/-- MGT_DBG_CMD COMMIT: an accepted token opens its scopes; bits 1 and 2 only after the key slots are erased. -/
def State.dbgCommit (s : State) : State :=
  let code := s.dbgCode s.mgt.dbg
  let s := s.setFld F.MGT_DBG_STATE_CODE code
  if code = 0 then
    let scope := leAt s.mgt.dbg 6 2
    let s := s.when (decide (scope / 2 ≠ 0)) fun s => s.eraseSlots
    let s := s.setFld F.MGT_DBG_STATE_SCOPE (s.fld F.MGT_DBG_STATE_SCOPE ||| scope)
    s.tallyEvent .security 15 7 0 [s.alarmWord.toNat, (s.word A.MGT_DBG_STATE).toNat]
  else (s.flag F.MGT_STATUS_DBG_REFUSED).tallySecurity F.MGT_STATUS_DBG_REFUSED

end Sys2Proof.Machine
end

