-- ==== Sys2Proof/Machine/Views.lean ====
section
/-!
DEFINITION. The read-only fields of the register tables that show state held elsewhere: what a read of such a register
returns (the register tables of chapters 02 to 20).
-/

namespace Sys2Proof.Machine

/-- The first answer of a list of alternatives. -/
def firstSome {α : Type} : List (Option α) → Option α
  | [] => none
  | some a :: _ => some a
  | none :: t => firstSome t

/-! ### GLB, INV, HST, TRN, WIN and CQ -/

/-- GLB registers (Tables 20-11, 20-12). -/
def State.viewGlb (s : State) (a : Nat) : Option Nat :=
  if a = A.GLB_LOCK then some (ofBool s.inv.lock + 2 * s.fld F.MGT_DBG_STATE_SCOPE)
  else if a = A.GLB_STATUS then some ((s.word a).toNat + 32 * ofBool s.glb.spi.isSome)
  else none

/-- INV_KEYSLOT as read (Table 02-14). -/
def KeySlot.view (k : KeySlot) : Nat := ofBool k.hash.isSome + 2 * ofBool k.revoked

/-- INV registers (Tables 02-10, 02-14). -/
def State.viewInv (s : State) (a : Nat) : Option Nat :=
  if a = A.INV_STATUS then some s.invWord.toNat
  else (regIndex a (A.INV_KEYSLOT 0) 4 4).map fun n => (s.keySlot n).view

/-- HST registers (Tables 03-10, 03-16, 03-19). -/
def State.viewHst (s : State) (a : Nat) : Option Nat :=
  if a = A.HST_CAPACITY then some s.capacityWord.toNat
  else if a = A.HST_SLICE_DATA then some s.sliceWord.toNat
  else (regIndex a (A.HST_PC_STATE 0) 64 4).map fun p => (s.pcWord p).toNat

/-- TRN and WIN registers (Tables 04-19, 04-22, 05-9, 05-11, 05-13). -/
def State.viewTrn (s : State) (a : Nat) : Option Nat :=
  if a = A.TRN_RX_IN_USE then some s.rxWord
  else if a = A.TRN_TX_IN_USE then some s.txWord
  else if a = A.WIN_STATUS then some ((s.word a).toNat + 65536 * min 65535 s.fencesOpen)
  else firstSome [
    (regIndex a (A.TRN_SA_WORD 0) 64 4).map fun n => getBytes (s.sa s.saSel) (4 * n) 4,
    (regIndex a (A.WIN_WORD 0) 8 4).map fun n => getBytes (s.keyEnt (s.fld F.WIN_SEL_KEY)) (4 * n) 4,
    (regIndex a (A.WIN_HOLD 0) 8 4).map fun n => (putBits (s.word a) 0 9 (s.holds n)).toNat]

/-- CQ registers (Tables 06-12 to 06-16). -/
def State.viewCq (s : State) (a : Nat) : Option Nat :=
  if a = A.CQ_STATUS then some ((s.word a).toNat + ofBool s.cq.run.isSome)
  else if a = A.CQ_POOL then some s.poolWord
  else if a = A.CQ_EP_STATE then some s.epWord
  else if a = A.CQ_Q_STATE then some s.queueWord
  else if a = A.CQ_Q_RING then some s.ringWord
  else (regIndex a (A.CQ_Q_TOKEN 0) 4 4).map s.tokenWord

/-! ### VOL, RBD, RSV, STR and CIP -/

/-- The group that RBD_GROUP_SEL selects. -/
def State.selGroup (s : State) : Nat := s.fld F.RBD_GROUP_SEL_GROUP

/-- A target record of the selected group as its registers show it (R385, Table 09-12). -/
def State.selTarget (s : State) (t : Nat) : Target :=
  Tab.getD (s.selGroup * 2 + t) { member := 0, start := 0, point := 0, wrapped := false, done := false } s.rbd.targets

/-- RBD_TGT_STATE as read (Table 09-12). -/
def State.targetWord (s : State) (t : Nat) : Nat :=
  let x := s.selTarget t
  x.member % 32 + 32 * ofBool ((s.targets s.selGroup).any fun y => y.1 == t) + 64 * ofBool x.wrapped

/-- RBD_PATROL as read (Table 09-14). -/
def State.patrolWord (s : State) : Nat :=
  let p := s.patrol s.selGroup
  let kind := if p.ext.isSome then 2
    else match p.kind with
      | .idle => if p.postReplay then 3 else 0
      | .periodic => if p.postReplay then 3 else 1
      | .unpaced => 3
  kind + 4 * ofBool (s.patrolPaused s.selGroup)

/-- Code of a reshape's state (Table 09-16). -/
def ReshapeState.code : ReshapeState → Nat
  | .idle => 0
  | .copying => 1
  | .held => 2
  | .switching => 3

/-- Valid lost-range entries of a group. -/
def State.lostUse (s : State) (g : Nat) : Nat := (s.attic.lost.filter fun x => x.1 / 4096 == g && lostValid x.2).length

/-- The lost-range entry that RBD_LOST_SEL selects. -/
def State.selLost (s : State) : LostEntry :=
  Tab.getD (s.fld F.RBD_LOST_SEL_GROUP * 4096 + s.fld F.RBD_LOST_SEL_INDEX) 0 s.attic.lost

/-- VOL, RBD and RSV registers (Tables 07-10, 09-12 to 09-16, 10-11, 10-13). -/
def State.viewVol (s : State) (a : Nat) : Option Nat :=
  if a = A.VOL_STATUS then some ((s.word a).toNat + 4 * ofBool s.volBusy)
  else if a = A.RBD_PATROL then some s.patrolWord
  else if a = A.RBD_LOST_USE then some (s.lostUse (s.fld F.RBD_LOST_SEL_GROUP))
  else if a = A.RBD_RESHAPE_STATE then some (match s.rbd.reshape with | some r => r.state.code | none => 0)
  else if a = A.RSV_USE then some s.useWord
  else firstSome [
    (regIndex a (A.RBD_TGT_STATE 0) 2 32).map s.targetWord,
    (regIndex a (A.RBD_LOST_WORD 0) 4 4).map fun n => getBytes s.selLost (4 * n) 4,
    (regIndex a (A.RSV_DRV_LAT 0) 24 4).map s.latWord,
    (regIndex a (A.RSV_GRP_THRESH 0) 8 4).map s.threshWord]

/-- STR_COPY as read (Table 08-17): a copy is valid while its drive holds a checkpoint of this journal. -/
def State.copyWord (s : State) : Nat :=
  let l := s.str.copies.zip (List.range 3)
  l.foldl (fun n (x, k) => n + x.2.2 % 32 * 2 ^ (8 * k) +
    2 ^ (24 + k) * ofBool (!(s.copiesOn x.2.2 s.attic.journalId s.side).isEmpty)) 0

/-- STR registers (Tables 08-13, 08-15 to 08-18). -/
def State.viewStr (s : State) (a : Nat) : Option Nat :=
  if a = A.STR_STATUS then some ((s.word a).toNat + 8 * ofBool s.attic.dumpSealed + 2048 * ofBool s.replayRuns)
  else if a = A.STR_USE then some s.slotsHeld
  else if a = A.STR_LIVE then some s.attic.intents.length
  else if a = A.STR_COPY then some s.copyWord
  else if a = A.STR_REPLAY then some (s.str.replaySource.1 + 256 * s.str.replaySource.2)
  else none

/-- CIP_STATUS as read (Table 11-12). -/
def State.cipWord (s : State) : Nat :=
  (s.word A.CIP_STATUS).toNat + 4 * ofBool s.cip.install.isSome + 8 * ofBool s.attic.kwk.isSome + 64 * ofBool s.noEngine +
    s.cip.jobs.foldl (fun n x => n + 256 * 2 ^ x.1) 0

/-- CIP_SLOT_INFO as read (Table 11-17). -/
def State.slotInfo (s : State) : Nat :=
  match s.keyRec (s.fld F.CIP_SLOT_SEL_KIND) (s.fld F.CIP_SLOT_SEL_SLOT) with
  | some r => 1 + 4 * r.bits + 256 * r.kcv
  | none => 0

/-- CIP registers (Tables 11-12, 11-13, 11-17, 11-18, 11-20, 11-21). -/
def State.viewCip (s : State) (a : Nat) : Option Nat :=
  if a = A.CIP_STATUS then some s.cipWord
  else if a = A.CIP_ALARM then some s.alarmWord.toNat
  else if a = A.CIP_SLOT_INFO then some s.slotInfo
  else firstSome [
    (regIndex a (A.CIP_PIPE_RETIRED 0) 4 4).map fun w =>
      (s.attic.pipes.filter fun p => p / 32 == w).foldl (fun n p => n + 2 ^ (p % 32)) 0,
    (regIndex a (A.CIP_JOB_STATUS 0) 2 128).map fun ch =>
      let r := Tab.getD ch (false, 0, 0) s.cip.results
      ofBool r.1 + 256 * r.2.1,
    (regIndex a (A.CIP_JOB_OUTLEN 0) 2 128).map fun ch => (Tab.getD ch (false, 0, 0) s.cip.results).2.2]

/-! ### MAC and TC -/

/-- A mask of the sub-ports of a data port that satisfy a test. -/
def State.portMask (s : State) (n : Nat) (p : SubPort → Bool) : Nat :=
  (List.range 4).foldl (fun x k => x + 2 ^ k * ofBool (p (s.sp (4 * n + k)))) 0

/-- MAC_PORT_STATUS as read (Table 12-7). -/
def State.macPortWord (s : State) (n : Nat) : Nat :=
  s.portMode n + 16 * s.portMask n (·.link) + 256 * s.portMask n (·.energy) + 4096 * s.portMask n (·.fec) +
    65536 * s.portMask n (·.merge)

/-- The sub-port that MAC_SP_SEL selects. -/
def State.selSp (s : State) : Nat := s.fld F.MAC_SP_SEL_SUBPORT

/-- The exact entry that MAC_EXACT_SEL selects. -/
def State.selExact (s : State) : Nat := s.fld F.MAC_EXACT_SEL_PORT * 32 + s.fld F.MAC_EXACT_SEL_ENTRY

/-- MAC_MGT_STATUS as read (Table 12-14). -/
def State.macMgtWord (s : State) : Nat := ofBool (s.sp 32).link + 2 * s.mac.speed + 8 * ofBool (s.sp 32).energy

/-- MAC registers (Tables 12-7 to 12-14). -/
def State.viewMac (s : State) (a : Nat) : Option Nat :=
  if a = A.MAC_SP_CTRL then some (s.sp s.selSp).ctrl.toNat
  else if a = A.MAC_CNT_SNAP then some (4 * ofBool (s.sp s.selSp).shadow.isSome)
  else if a = A.MAC_EXACT_LO then some (Tab.getD s.selExact (0, 0) s.mac.exact).1.toNat
  else if a = A.MAC_EXACT_HI then some (Tab.getD s.selExact (0, 0) s.mac.exact).2.toNat
  else if a = A.MAC_MGT_STATUS then some s.macMgtWord
  else if a = A.MAC_MGT_MDIO then some (putBits (putBits (s.word a) 26 2 0) 31 1 (ofBool s.mac.mdio.isSome)).toNat
  else firstSome [
    (regIndex a (A.MAC_PORT_STATUS 0) 8 4).map s.macPortWord,
    (regIndex a (A.MAC_SP_WORD 0) 16 4).map fun n => getBytes (s.sp s.selSp).entry (4 * n) 4,
    (regIndex a (A.MAC_MGT_WORD 0) 16 4).map fun n => getBytes (s.sp 32).entry (4 * n) 4]

/-- Whole bytes of the selected meter's buckets Tc and Tp as last updated (Table 13-9): full where it has not been used, 0 where it
has no profile in force either. -/
def State.meterWord (s : State) : Nat × Nat :=
  let i := s.fld F.TC_METER_SEL_INDEX
  match (Tab.find? i s.tc.meters).orElse fun _ => (s.profile (s.meterProfile i)).map fun r => meterNow s.now r none with
  | some m => (m.tc / 65536, m.tp / 65536)
  | none => (0, 0)

/-- A leaf's priority is paused: its oldest frame's is held. -/
def Tree.paused (t : Tree) (id : Nat) : Bool :=
  match t.head (.leaf id) with
  | some f => t.port.heldPrio f.prio
  | none => false

/-- TC_NODE_STATE as read (Table 13-10). -/
def State.nodeWord (s : State) : Nat :=
  let id := s.fld F.TC_NODE_SEL_NODE
  let t := s.tree (nodeSp id)
  match t.rec? id with
  | none => 0
  | some r =>
    min 65535 (t.beneath 5 id).length + 65536 + 2 ^ 17 * ofBool (!t.unshaped s.tc.nodes r) +
      2 ^ 18 * ofBool (rb r 8 == 3 && t.paused id)

/-- The histogram bin that a register shows: key of its count. -/
def State.histKey (s : State) (kind n : Nat) : Nat :=
  ((if s.is F.TC_HIST_SEL_WATCH then 32 else s.fld F.TC_HIST_SEL_SUBPORT) * 2 + kind) * 16 + n

/-- The count that a histogram register's address names, by key. -/
def State.histAt (s : State) (a : Nat) : Option Nat :=
  firstSome [(regIndex a (A.TC_HIST_DEPTH 0) 16 4).map (s.histKey 0), (regIndex a (A.TC_HIST_DELAY 0) 16 4).map (s.histKey 1)]

/-- TC registers (Tables 13-9, 13-10, 13-13). -/
def State.viewTc (s : State) (a : Nat) : Option Nat :=
  if a = A.TC_METER_TC then some s.meterWord.1
  else if a = A.TC_METER_TP then some s.meterWord.2
  else if a = A.TC_NODE_STATE then some s.nodeWord
  else if a = A.TC_NODE_DEFICIT then some ((Tab.find? (s.fld F.TC_NODE_SEL_NODE) s.tc.nodes).elim 0 (·.deficit))
  else (s.histAt a).map fun k => Tab.getD k 0 s.tc.hist

/-! ### DRV, BAY, WDN, PEER, PWR and MGT -/

/-- DRV_PORT_STATE as read (Table 14-12). -/
def Port.view (p : Port) : Nat :=
  p.state.code + 16 * ofBool p.presence + 32 * ofBool p.perst + 64 * ofBool p.clkreq + 256 * p.rate + 2048 * p.width

/-- DRV_MI as read (Table 14-15): three reads in a row without a valid answer make it stale (R574). -/
def Port.miView (p : Port) : Nat := p.mi + 2 ^ 24 * ofBool p.miValid + 2 ^ 25 * ofBool (decide (3 ≤ p.miMiss))

/-- DRV_RESV_RESULT as read (Table 14-11). -/
def Port.resvView (p : Port) : Nat := ofBool p.resv.1 + 16 * p.resv.2.1 + 256 * p.resv.2.2

/-- DRV registers (Tables 14-11, 14-12, 14-15). -/
def State.viewDrv (s : State) (a : Nat) : Option Nat :=
  firstSome [
    (regIndex a (A.DRV_RESV_RESULT 0) 24 4).map fun n => (s.port n).resvView,
    (regIndex a (A.DRV_PORT_STATE 0) 24 4).map fun n => (s.port n).view,
    (regIndex a (A.DRV_MI 0) 24 4).map fun n => (s.port n).miView]

/-- BAY registers (Tables 15-6, 15-8, 15-10). -/
def State.viewBay (s : State) (a : Nat) : Option Nat :=
  let (out, in_, cur, pow, avg) := s.bay.tel
  if a = A.BAY_STATUS then some s.bayWord
  else if a = A.BAY_TEL_V then some (out % 65536 + 65536 * (in_ % 65536))
  else if a = A.BAY_TEL_I then some (BitVec.ofInt 32 cur).toNat
  else if a = A.BAY_TEL_P then some (BitVec.ofInt 32 pow).toNat
  else if a = A.BAY_TEL_P1S then some (BitVec.ofInt 32 avg).toNat
  else (regIndex a (A.BAY_STATE 0) 26 4).map s.bayState

/-- WDN registers (Tables 16-13, 16-14, 16-16). -/
def State.viewWdn (s : State) (a : Nat) : Option Nat :=
  if a = A.WDN_CORE then some s.coreWord.toNat
  else if a = A.WDN_IRQ_PEND then some s.irqPend
  else (regIndex a (A.WDN_REPORT 0) 64 4).map fun n => leAt s.wdn.reportSnap (4 * n) 4

/-- PEER registers (Tables 17-8, 17-9). -/
def State.viewPeer (s : State) (a : Nat) : Option Nat :=
  if a = A.PEER_STATE then some s.peerWord
  else if a = A.PEER_ARB then some s.arbWord
  else if a = A.PEER_ARB_SET then some s.peer.arbSet
  else if a = A.PEER_CREDIT then some s.peer.credit
  else none

/-- PWR registers (Tables 18-5, 18-9). -/
def State.viewPwr (s : State) (a : Nat) : Option Nat :=
  if a = A.PWR_MODE then some s.pwrWord
  else if a = A.PWR_ISL_STATE then some s.islandWord.toNat
  else none

/-- MGT registers (Tables 19-13 to 19-15). -/
def State.viewMgt (s : State) (a : Nat) : Option Nat :=
  if a = A.MGT_SMB_ADDR then
    some (putBits (s.word a) 16 2 (ofBool (s.smbActive 0) + 2 * ofBool (s.smbActive 1))).toNat
  else if a = A.MGT_TALLY_PTR then some (s.mgt.read + 4096 * s.mgt.unread)
  else if a = A.MGT_ST_PROGRESS then some s.testProgress.toNat
  else if a = A.MGT_ST_RESULT then some s.testResult.toNat
  else if a = A.MGT_FW_STATUS then some s.fwWord.toNat
  else (regIndex a (A.MGT_TALLY_REC 0) 16 4).map fun n => getBytes s.mgt.snap (4 * n) 4

/-! ### Every register -/

/-- What a single register that shows other state reads as; none for one that is stored. -/
def State.view (s : State) (a : Nat) : Option Nat :=
  match a / 0x100000 with
  | 0 => s.viewGlb a
  | 1 => s.viewInv a
  | 2 => s.viewHst a
  | 3 => s.viewTrn a
  | 4 => s.viewCq a
  | 5 => s.viewVol a
  | 6 => s.viewStr a
  | 7 => s.viewCip a
  | 8 => s.viewMac a
  | 9 => s.viewTc a
  | 10 => s.viewDrv a
  | 11 => s.viewBay a
  | 12 => s.viewWdn a
  | 13 => s.viewPeer a
  | 14 => s.viewPwr a
  | 15 => s.viewMgt a
  | _ => none

/-- The sub-port and counter that a pair of the MAC counter windows names (Table 12-15). -/
def State.macWindow (s : State) (a : Nat) : Option (Nat × Nat) :=
  firstSome [
    (regIndex a (A.MAC_CNT 0) 24 8).map fun i => (s.selSp, i),
    (regIndex a (A.MAC_MGT_CNT 0) 24 8).map fun i => (32, i)]

/-- A counter as its window shows it: its shadow while one is latched (R522). -/
def SubPort.counter (p : SubPort) (i : Nat) : Nat := Tab.getD i 0 (p.shadow.getD p.counts)

/-- Energy counter of a sub-channel in uJ (R593). -/
def SubChan.microjoules (x : SubChan) : Nat := x.energy / 1000000

/-- What a 64-bit pair holds by the address of its low word. -/
def State.pairView (s : State) (a : Nat) : Nat :=
  let v : Option Nat :=
    if a = A.INV_RESIDENT_SERIAL then some s.invSerial
    else if a = A.INV_STAGED_SERIAL then some s.stagedSerial
    else if a = A.INV_FLOOR then some s.attic.floor
    else if a = A.STR_GEN_CLOCK then some (s.clockWord (s.fld F.STR_GEN_SEL_GROUP))
    else if a = A.STR_JOURNAL_GEN then some s.attic.journalGen
    else if a = A.RBD_PATROL_POINT then some ((s.patrol s.selGroup).ext.getD (s.patrol s.selGroup).point)
    else if a = A.WDN_MTIME then some s.now
    else if a = A.WDN_FW_SERIAL then some s.wdn.fwSerial
    else if a = A.WDN_FW_FLOOR then some s.attic.fwFloor
    else if a = A.PEER_JOURNAL_ID then some s.peer.journalId
    else firstSome [
      (regIndex a (A.RBD_TGT_START 0) 2 32).map fun t => (s.selTarget t).start,
      (regIndex a (A.RBD_TGT_POINT 0) 2 32).map fun t => (s.selTarget t).point,
      (regIndex a (A.DRV_PORT_CAP 0) 24 8).map fun n => (s.port n).cap,
      (regIndex a (A.BAY_ENERGY_MAIN 0) 26 16).map fun n => (s.sub n 0).microjoules,
      (regIndex a (A.BAY_ENERGY_AUX 0) 26 16).map fun n => (s.sub n 1).microjoules,
      (s.macWindow a).map fun w => (s.sp w.1).counter w.2]
  (v.getD (s.pair a)) % 2 ^ 64

end Sys2Proof.Machine
end

