-- ==== Sys2Proof/Machine/Bus.lean ====
section
/-!
DEFINITION. Register accesses (00_scope.md R5 to R12; 19_management.md R693 to R696): what a read returns and clears, what
a write stores, and the command that a written register carries.
-/

namespace Sys2Proof.Machine

/-- A register access takes effect: the part is neither held in reset nor in POWER_HOLD (R346, R730). -/
def State.busOn (s : State) : Bool :=
  match s.glb.phase with
  | .held => false
  | .powerHold => false
  | _ => true

/-- The mode in force lets an access of a path reach a block (R672, R696, Table 18-2): in Doze only GLB, PWR, MGT and WDN, in
Dormant only GLB and PWR over SMBus. -/
def State.modeLets (s : State) (p : Path) (a : Nat) : Bool :=
  let b := a / 0x100000
  match s.pwr.cur with
  | .doze => b == 0 || b == 12 || b == 14 || b == 15
  | .dormant => (b == 0 || b == 14) && (decide (p = .smbus0) || decide (p = .smbus1))
  | _ => true

/-- The aligned address of an access: bits 1:0 are ignored (R5). -/
def regAddr (a : Nat) : Nat := a / 4 * 4

/-- The value of a field of a written word. -/
def fval (f : Fld) (v : Word) : Nat := getBits v f.lo f.width

/-! ### Reads -/

/-- An address is the high word of a pair. -/
def RegDesc.high (d : RegDesc) (a : Nat) : Bool := d.pair && (a - d.addr) % d.stride == 4

/-- A pair is of type RC (R10). -/
def RegDesc.clears (d : RegDesc) : Bool := d.fields.any fun f => decide (f.acc = .rc)

/-- A pair is writable (R11). -/
def RegDesc.writes (d : RegDesc) : Bool := d.fields.any fun f => decide (f.acc = .rw)

/-- Clear a 64-bit counter after its low word was read (R10); a latched shadow clears nothing (R522). -/
def State.pairClear (s : State) (a : Nat) : State :=
  match s.macWindow a with
  | some (n, i) =>
    s.modSp n fun p => if p.shadow.isSome then p else { p with counts := Tab.put 0 i 0 p.counts }
  | none => s.setPair a 0

/-- A pair that its table does not have read as R8 describes: a setting whose two words are read as they stand (R7, Tables
09-16, 12-13, 14-6). -/
def plainPair (a : Nat) : Bool :=
  decide (a = A.RBD_RESHAPE_DST ∨ a = A.MAC_WAKE_ID ∨ a = A.DRV_RESV_KEY ∨ a = A.DRV_RESV_PEER_KEY)

/-- A read of one word of a pair (R8 to R11). The snapshot belongs to the register address, whatever a select register shows
there (DESIGN CHOICE, assumption 114). -/
def State.pairRead (s : State) (d : RegDesc) (a : Nat) : Word × State :=
  if plainPair a then (BitVec.ofNat 32 (s.pairView a), s)
  else if plainPair (a - 4) then (BitVec.ofNat 32 (s.pairView (a - 4) / 2 ^ 32), s)
  else if d.high a then (Tab.getD (a - 4) 0 s.snaps, s)
  else
    let v := s.pairView a
    let s := { s with snaps := Tab.put 0 a (BitVec.ofNat 32 (v / 2 ^ 32)) s.snaps }
    (BitVec.ofNat 32 v, s.when d.clears fun s => s.pairClear a)

/-- A register word with a number put into each of the fields that a rule gives one. -/
def putFields (g : FieldDesc → Option Nat) (w : Word) (fs : List FieldDesc) : Word :=
  fs.foldl (fun x f => match g f with | some n => putBits x f.lo f.width n | none => x) w

/-- Fields of an access type become 0. -/
def zeroOf (acc : Access) (f : FieldDesc) : Option Nat := if f.acc = acc then some 0 else none

/-- What a read of word 0 of a snapshot register copies first (R620, R712). -/
def State.beforeRead (s : State) (a : Nat) : State :=
  if a = A.WDN_REPORT 0 then s.reportRead
  else if a = A.MGT_TALLY_REC 0 then s.tallySnap
  else s

/-- Clear the RC fields of a register that was read (R7), or the histogram bin it shows (R549). -/
def State.afterRead (s : State) (d : RegDesc) (a : Nat) : State :=
  match s.histAt a with
  | some k => { s with tc := { s.tc with hist := Tab.put 0 k 0 s.tc.hist } }
  | none =>
    if d.clears then
      s.setWord a (putFields (zeroOf .rc) (s.word a) d.fields)
    else s

/-- A stored register's word as read: WO fields read 0 (R7). -/
def RegDesc.mask (d : RegDesc) (w : Word) : Word := putFields (zeroOf .wo) w d.fields

/-- A read of a single register. -/
def State.wordRead (s : State) (d : RegDesc) (a : Nat) : Word × State :=
  let s := s.beforeRead a
  let v := match s.view a with
    | some n => BitVec.ofNat 32 n
    | none => d.mask (s.word a)
  (v, s.afterRead d a)

/-- A register read from a path: its value, and the state after it (R5 to R10). -/
def State.busRead (s : State) (p : Path) (a : Nat) : Word × State :=
  if s.busOn && s.modeLets p a then
    match regDesc (regAddr a) with
    | none => (0, s)
    | some d => if d.pair then s.pairRead d (regAddr a) else s.wordRead d (regAddr a)
  else (0, s)

/-! ### What a write stores -/

/-- What a write of a word leaves in a field by its access type (R7): RW takes the value, W1C clears the bits written, RWL
takes it before the Inventory lock; the rest keep theirs. -/
def fieldPut (lock : Bool) (w v : Word) (f : FieldDesc) : Option Nat :=
  match f.acc with
  | .rw => some (getBits v f.lo f.width)
  | .rwl => if lock then none else some (getBits v f.lo f.width)
  | .w1c => some (getBits (w &&& ~~~v) f.lo f.width)
  | _ => none

/-- The word a write leaves in a stored register. -/
def storeFields (lock : Bool) (w v : Word) (fs : List FieldDesc) : Word := putFields (fieldPut lock w v) w fs

/-- Store a written word. -/
def State.storeWord (s : State) (d : RegDesc) (a : Nat) (v : Word) : State :=
  s.setWord a (storeFields s.inv.lock (s.word a) v d.fields)

/-- Bits of a pair that are not reserved: stripe numbers have 48, a Cellar address 36. -/
def pairBits (a : Nat) : Nat :=
  if a = A.RBD_RESHAPE_DST ∨ (regIndex a (A.RBD_TGT_START 0) 2 32).isSome ∨ (regIndex a (A.RBD_TGT_POINT 0) 2 32).isSome then 48
  else if a = A.WDN_FW_SRC then 36
  else 64

/-- A target record of the selected group is written (R385, Table 09-12). -/
def State.targetPut (s : State) (t : Nat) (f : Target → Target) : State :=
  let x := f (s.selTarget t)
  s.onRbd fun r => { r with targets := Tab.set (s.selGroup * 2 + t) x r.targets }

/-- START or POINT of a target record of the selected group is written, while the group is not ENABLED (Table 09-13). -/
def State.targetWrite (s : State) (t : Nat) (f : Target → Target) : State :=
  if s.grpOn s.selGroup then s else s.targetPut t f

/-- A writable pair takes a value, both words at one instant (R11). -/
def State.pairPut (s : State) (a v : Nat) : State :=
  let v := v % 2 ^ pairBits a
  match regIndex a (A.RBD_TGT_START 0) 2 32, regIndex a (A.RBD_TGT_POINT 0) 2 32 with
  | some t, _ => s.targetWrite t fun x => { x with start := v }
  | _, some t => s.targetWrite t fun x => { x with point := v }
  | none, none => s.setPair a v

/-- A write of one word of a writable pair (R11): the low word is held, the high word makes both take effect. The held low
word belongs to the register address: where RBD_GROUP_SEL changes before the high write, the pair of the group selected then
takes both (DESIGN CHOICE, assumption 115). -/
def State.pairWrite (s : State) (d : RegDesc) (a : Nat) (v : Word) : State :=
  if !d.writes then s
  else if d.high a then
    let low := match Tab.find? (a - 4) s.heldLow with
      | some w => w.toNat
      | none => s.pairView (a - 4) % 2 ^ 32
    ({ s with heldLow := Tab.erase (a - 4) s.heldLow }).pairPut (a - 4) (low + 2 ^ 32 * v.toNat)
  else { s with heldLow := Tab.set a v s.heldLow }

/-! ### The commands that written registers carry -/

/-- INV registers: the loader's commands by path (Table 02-9). -/
def State.writeInv (s : State) (p : Path) (a : Nat) (v : Word) : Option State :=
  if a = A.INV_CTRL then
    some (match fval F.INV_CTRL_CMD v with
      | 1 => s.invOpen p
      | 2 => s.commitFull p
      | 3 => s.commitPartial p
      | 4 => s.invAbort p
      | 5 => s.keyProgram p (fval F.INV_CTRL_SLOT v)
      | 6 => s.raiseFloor p
      | _ => s)
  else if a = A.INV_DATA then some (s.invData p v)
  else (regIndex a (A.INV_KEYSLOT 0) 4 4).map fun n => if bit v 1 then s.keyRevoke n else s

/-- GLB registers (Tables 20-11, 20-13). -/
def State.writeGlb (s : State) (a : Nat) (v : Word) : Option State :=
  if a = A.GLB_RESET then some (s.resetCommand (fval F.GLB_RESET_CONFIRM v))
  else if a = A.GLB_SPI_CTRL then
    let c := fval F.GLB_SPI_CTRL_CMD v
    some (if 1 ≤ c ∧ c ≤ 4 then s.spiStart c (fval F.GLB_SPI_CTRL_LEN v) else s)
  else none

/-- HST registers: a region's write lets the Larder follow its region (R90). -/
def State.writeHst (s : State) (d : RegDesc) (a : Nat) (v : Word) : Option State :=
  if a = A.HST_RETIRE then some (if bit v 8 then s.retireCommand (fval F.HST_RETIRE_PC v) else s)
  else (regIndex a (A.HST_REGION 0) 8 4).map fun _ => (s.storeWord d a v).larderResize

/-- A 32-bit half of a Pantry word is written by a register: the word is written whole, and poisoned no longer, once its high
half follows its low half (R123; DEDUCED, assumption 68). -/
def State.halfWrite (s : State) (code off : Nat) : State :=
  let w := s.pantryAt code off
  if off % 8 = 0 then s.onHst fun h => { h with pantryHalf := some w }
  else
    (s.when (decide (s.hst.pantryHalf = some w)) fun s => s.pantryClean code (off - 4) 8).onHst fun h => { h with pantryHalf := none }

/-- A word of the selected SA entry is written (R123, R181). An entry at or above the partition's count is refused and counted as
a packet for no SA is (R122; the spec names no counter: DESIGN CHOICE, assumption 148). -/
def State.saWrite (s : State) (n : Nat) (v : Word) : State :=
  let sa := s.saSel
  let lets := decide (s.saState sa = Sas.invalid) || (decide (12 ≤ n) && decide (n < 16))
  if s.entryExists 0x05 sa then
    (s.saWordWrite sa n v).when lets fun s => s.halfWrite 0x05 (256 * sa + 4 * n)
  else s.bump A.TRN_NO_SA

/-- A word of the selected window key is written (R123, R225); one that R225 ignores counts as a half write
(DESIGN CHOICE, assumption 165). -/
def State.keyWrite (s : State) (n : Nat) (v : Word) : State :=
  let k := s.fld F.WIN_SEL_KEY
  let lets := decide (getPart (s.keyEnt k) Key.state = Keys.free)
  let s := s.winWordWrite k n v
  s.when (lets && s.keyExists k) fun s => s.halfWrite 0x04 (32 * k + 4 * n)

/-- WIN_CMD (Table 05-8). -/
def State.winCmd (s : State) (cmd : Nat) : State :=
  let k := s.fld F.WIN_SEL_KEY
  match cmd with
  | 1 => s.bindKey k
  | 2 => s.fence k false
  | 3 => s.fence k true
  | _ => s

/-- TRN_SA_CMD (Table 04-21). -/
def State.saCmd (s : State) (cmd new : Nat) : State :=
  match cmd with
  | 1 => s.saActivate
  | 2 => s.saInvalidate
  | 3 => s.saResume
  | 4 => s.saSwitch new
  | _ => s

/-- TRN and WIN registers. Packets that no counter mark holds back any more go out when TRN_CTRL enables the engine (R463). -/
def State.writeTrn (s : State) (d : RegDesc) (a : Nat) (v : Word) : Option State :=
  if a = A.TRN_CTRL then some (s.storeWord d a v).releaseAll
  else if a = A.TRN_SA_CMD then some (s.saCmd (fval F.TRN_SA_CMD_CMD v) (fval F.TRN_SA_CMD_NEW_SA v))
  else if a = A.WIN_CMD then some (s.winCmd (fval F.WIN_CMD_CMD v))
  else firstSome [
    (regIndex a (A.TRN_SA_WORD 0) 64 4).map fun n => s.saWrite n v,
    (regIndex a (A.WIN_WORD 0) 8 4).map fun n => s.keyWrite n v]

/-- VOL_CMD (Table 07-12). -/
def State.volCmd (s : State) (cmd : Nat) : State :=
  match cmd with
  | 1 => s.volIdle State.volRead
  | 2 => s.volIdle State.volWrite
  | 3 => s.volIdle State.volActivate
  | 4 => s.volIdle State.deactivate
  | 5 => s.volIdle State.volInit
  | _ => s

/-- RBD_CMD (Table 09-11). -/
def State.rbdCmd (s : State) (cmd g : Nat) : State :=
  match cmd with
  | 1 => s.patrolStart g
  | 2 => s.patrolStop
  | 3 => s.resolve
  | 4 => s.reshapeStart
  | 5 => s.reshapeAbort
  | 6 => s.groupRedefine g
  | _ => s

/-- VOL and RBD registers. -/
def State.writeVol (s : State) (a : Nat) (v : Word) : Option State :=
  if a = A.VOL_CMD then some (s.ifUp fun s => s.volCmd (fval F.VOL_CMD_CMD v))
  else if a = A.RBD_CMD then some (s.ifUp fun s => s.rbdCmd (fval F.RBD_CMD_CMD v) (fval F.RBD_CMD_GROUP v))
  else (regIndex a (A.RBD_TGT_STATE 0) 2 32).map fun t =>
    s.targetPut t fun x => { x with member := v.toNat % 32, wrapped := bit v 6 }

/-- STR_CMD (Table 08-14): ignored while a replay runs. -/
def State.strCmd (s : State) (cmd g : Nat) : State :=
  if s.replayRuns then s
  else
    match cmd with
    | 1 => s.ckptStart false
    | 2 => s.shutdownCmd
    | 3 => s.discardGroup g
    | _ => s

/-- STR registers. -/
def State.writeStr (s : State) (a : Nat) (v : Word) : Option State :=
  if a = A.STR_CMD then some (s.ifUp fun s => s.strCmd (fval F.STR_CMD_CMD v) (fval F.STR_CMD_GROUP v)) else none

/-- CIP_CMD (Table 11-14). -/
def State.cipCmd (s : State) (v : Word) : State :=
  let kind := fval F.CIP_CMD_KIND v
  let slot := fval F.CIP_CMD_SLOT v
  match fval F.CIP_CMD_CMD v with
  | 1 => s.cipInstall kind slot
  | 2 => s.cipClear kind slot
  | 3 => s.zeroise (fval F.CIP_CMD_CONFIRM v)
  | _ => s

/-- CIP_JOB_CMD (Table 11-19). -/
def State.jobCmd (s : State) (ch cmd : Nat) : State :=
  match cmd with
  | 1 => s.jobStart ch
  | 2 => s.jobCancel ch
  | _ => s

/-- CIP registers. -/
def State.writeCip (s : State) (d : RegDesc) (a : Nat) (v : Word) : Option State :=
  if a = A.CIP_CMD then some (s.cipCmd v)
  else if a = A.CIP_CTRL then some (s.storeWord d a v).cipCtrl
  else if a = A.CIP_ALARM then some (s.storeWord d a v).alarmAgain
  else firstSome [
    (regIndex a (A.CIP_INSTALL_WORD 0) 20 4).map fun _ => s.setWord a v,
    (regIndex a (A.CIP_PIPE_RETIRED 0) 4 4).map fun w => s.pipeWrite w v,
    (regIndex a (A.CIP_JOB_CMD 0) 2 128).map fun ch => s.jobCmd ch (fval (F.CIP_JOB_CMD_CMD ch) v)]

/-- The bits of MAC_SP_CTRL that are not reserved (Table 12-9). -/
def spCtrlMask : Word := 0xFFFF

/-- The bits of an entry word that are not reserved: bytes 14, 15 and 36 to 63 and bits [15:12] of VLAN are 0 (R503,
Table 12-3). -/
def entryMask (n : Nat) : Word := if n = 1 then 0x0FFFFFFF else if n = 3 then 0x0000FFFF else if n < 9 then 0xFFFFFFFF else 0

/-- Write a word of a sub-port's entry (R503). -/
def State.entryWrite (s : State) (sp n : Nat) (v : Word) : State :=
  s.modSp sp fun p => { p with entry := putBytes p.entry (4 * n) 4 (v &&& entryMask n).toNat }

/-- The bits of MAC_EXACT_HI that are not reserved (Table 12-12). -/
def exactHiMask : Word := 0x800FFFFF

/-- MAC_CNT_SNAP SNAP: the selected sub-port's counters are latched and cleared (R522). -/
def State.cntSnap (s : State) : State := s.modSp s.selSp fun p => { p with shadow := some p.counts, counts := [] }

/-- MAC_CNT_SNAP RELEASE: the shadow is discarded (R522). -/
def State.cntRelease (s : State) : State := s.modSp s.selSp fun p => { p with shadow := none }

/-- An MDIO cycle starts on an OP of 1 or 2 (R528). -/
def State.mdioStart (s : State) (v : Word) : State :=
  let op := fval F.MAC_MGT_MDIO_OP v
  if s.mac.mdio.isNone ∧ (op = 1 ∨ op = 2) then s.onMac fun m => { m with mdio := some v } else s

/-- An MDIO cycle ends: a read leaves the PHY's answer in DATA (R528). -/
def State.mdioDone (s : State) (data : Nat) : State :=
  match s.mac.mdio with
  | none => s
  | some v =>
    let s := s.onMac fun m => { m with mdio := none }
    if fval F.MAC_MGT_MDIO_OP v = 2 then s.setFld F.MAC_MGT_MDIO_DATA data else s

/-- The lengths of the queued packets of a sub-port follow its TAG_EN (R506, R543). -/
def State.retag (s : State) (n : Nat) : State :=
  s.modSp n fun p => { p with queue := p.queue.map fun f =>
    match f.body with
    | .breren sa _ pkt _ => { f with len := s.frameLen sa n pkt.payload.length }
    | .raw _ => f }

/-- MAC_SP_CTRL of a sub-port; ignored for one that does not exist in its port's mode (R529). -/
def State.ctrlWrite (s : State) (n : Nat) (v : Word) : State :=
  if s.hasSubPort n then (s.modSp n fun p => { p with ctrl := v &&& spCtrlMask }).retag n else s

/-- MAC registers. -/
def State.writeMac (s : State) (d : RegDesc) (a : Nat) (v : Word) : Option State :=
  let exact := Tab.getD s.selExact (0, 0) s.mac.exact
  if a = A.MAC_SP_CTRL then some (s.ctrlWrite s.selSp v)
  else if a = A.MAC_CNT_SNAP then
    some ((s.when (bit v 0) State.cntSnap).when (bit v 1) State.cntRelease)
  else if a = A.MAC_EXACT_LO then some (s.onMac fun m => { m with exact := Tab.put (0, 0) s.selExact (v, exact.2) m.exact })
  else if a = A.MAC_EXACT_HI then
    some (s.onMac fun m => { m with exact := Tab.put (0, 0) s.selExact (exact.1, v &&& exactHiMask) m.exact })
  else if a = A.MAC_MGT_MDIO then some ((s.storeWord d a v).mdioStart v)
  else firstSome [
    (regIndex a (A.MAC_SP_WORD 0) 16 4).map fun n => if s.hasSubPort s.selSp then s.entryWrite s.selSp n v else s,
    (regIndex a (A.MAC_MGT_WORD 0) 16 4).map fun n => s.entryWrite 32 n v]

/-- A write has given a meter another profile: it starts again with full buckets (R534, R550). -/
def State.meterRestart (s : State) (i old : Nat) : State :=
  if s.meterProfile i = old then s else { s with tc := { s.tc with meters := Tab.erase i s.tc.meters } }

/-- TC registers: a profile id may change. -/
def State.writeTc (s : State) (d : RegDesc) (a : Nat) (v : Word) : Option State :=
  firstSome [
    (regIndex a (A.TC_EP 0) 4096 4).map fun e => (s.storeWord d a v).meterRestart e (s.meterProfile e),
    (regIndex a (A.TC_CLASS_PROFILE 0) 16 4).map fun c =>
      let i := s.pantryEntries 0x0D - 16 + c
      (s.storeWord d a v).meterRestart i (s.meterProfile i)]

/-- DRV_PORT_CMD (Table 14-14). -/
def State.portCmd (s : State) (n cmd : Nat) : State :=
  match cmd with
  | 1 => s.portStart n
  | 2 => s.portMakeReady n
  | 3 => s.portUnfit n
  | 4 => s.portRelease n
  | _ => s

/-- DRV registers: ports held in PRESENT go on once EN is 1 (Table 14-7). -/
def State.writeDrv (s : State) (d : RegDesc) (a : Nat) (v : Word) : Option State :=
  if a = A.DRV_CTRL then some ((s.storeWord d a v).each (List.range 24) State.portPower)
  else if a = A.DRV_RESV_CMD then
    let c := fval F.DRV_RESV_CMD_CMD v
    some (if 1 ≤ c ∧ c ≤ 4 then s.resvCmd (fval F.DRV_RESV_CMD_PORT v) c else s)
  else (regIndex a (A.DRV_PORT_CMD 0) 24 4).map fun n => s.portCmd n (fval (F.DRV_PORT_CMD_CMD n) v)

/-- BAY registers (Tables 15-7, 15-9): each enable bit acts on its change. -/
def State.writeBay (s : State) (d : RegDesc) (a : Nat) (v : Word) : Option State :=
  if a = A.BAY_TEL_SEL then some (s.storeWord d a v).telSelect
  else (regIndex a (A.BAY_EN 0) 26 4).map fun n =>
    s.each [0, 1] fun s k => if bit v k then s.enableSub n k else s.disableSub n k

/-- WDN_CMD (Table 16-13). -/
def State.wdnCmd (s : State) (cmd core : Nat) : State :=
  match cmd with
  | 1 => s.fenceCmd core
  | 2 => s.resyncCmd core
  | 3 => s.retireCmd core
  | 4 => s.wdnActivate
  | 5 => s.wdnRaiseFloor
  | _ => s

/-- WDN registers. -/
def State.writeWdn (s : State) (a : Nat) (v : Word) : Option State :=
  if a = A.WDN_CMD then some (s.wdnCmd (fval F.WDN_CMD_CMD v) (fval F.WDN_CMD_CORE v)) else none

/-- PEER_CMD (Table 17-8). -/
def State.peerCmd (s : State) (cmd mask : Nat) : State :=
  s.ifPeer fun s =>
    match cmd with
    | 1 => s.handoverGive mask
    | 2 => s.takeoverCmd mask
    | 3 => s.openGroups mask
    | 4 => s.yieldCmd
    | 5 => s.joinCmd
    | 6 => s.setOwn mask
    | _ => s

/-- In SOLO, stripe writes that are durable by now meet their completion condition (R332, R643). -/
def State.soloWrites (s : State) : State :=
  if s.peer.state = .solo then s.each s.str.live fun s w => s.when (s.durable w) fun s => s.writeMet w else s

/-- PEER registers. -/
def State.writePeer (s : State) (d : RegDesc) (a : Nat) (v : Word) : Option State :=
  if a = A.PEER_CMD then some (s.peerCmd (fval F.PEER_CMD_CMD v) (fval F.PEER_CMD_GROUPS v))
  else if a = A.PEER_CTRL then some (s.storeWord d a v).soloWrites
  else none

/-- PWR registers (Tables 18-5, 18-7). -/
def State.writePwr (s : State) (d : RegDesc) (a : Nat) (v : Word) : Option State :=
  if a = A.PWR_MODE then some (if bit v 2 then s.ifUp fun s => s.modeRequest (modeOf (fval F.PWR_MODE_REQ v)) else s)
  else if a = A.PWR_CTRL then some ((s.storeWord d a v).avsCtrl (s.is F.PWR_CTRL_AVS_EN))
  else if a = A.PWR_CMD then some (if bit v 0 then s.wakePeer else s)
  else none

/-- MGT_ST_CTRL from a path (R715). -/
def State.stCtrl (s : State) (p : Path) (cmd : Nat) : State :=
  match cmd with
  | 1 => s.stStart 1 p
  | 2 => s.stStart 2 p
  | 3 => s.testAbort
  | _ => s

/-- MGT_FW_CTRL (R719). -/
def State.fwCtrl (s : State) (cmd : Nat) : State :=
  match cmd with
  | 1 => s.fwOpen
  | 2 => s.fwRun false
  | 3 => s.fwRun true
  | _ => s

/-- MGT_DBG_CMD (R720). -/
def State.dbgCmd (s : State) (cmd : Nat) : State :=
  match cmd with
  | 1 => s.dbgOpen
  | 2 => s.dbgCommit
  | _ => s

/-- MGT registers (Tables 19-14, 19-15). -/
def State.writeMgt (s : State) (p : Path) (a : Nat) (v : Word) : Option State :=
  if a = A.MGT_TALLY_CMD then some (s.tallyAdvance (fval F.MGT_TALLY_CMD_ADVANCE v))
  else if a = A.MGT_TALLY_APPEND then some (if bit v 0 then s.tallyAppend else s)
  else if a = A.MGT_ST_CTRL then some (s.stCtrl p (fval F.MGT_ST_CTRL_CMD v))
  else if a = A.MGT_FW_CTRL then some (s.fwCtrl (fval F.MGT_FW_CTRL_CMD v))
  else if a = A.MGT_FW_DATA then some (s.fwData v)
  else if a = A.MGT_DBG_DATA then some (s.dbgData v)
  else if a = A.MGT_DBG_CMD then some (s.dbgCmd (fval F.MGT_DBG_CMD_CMD v))
  else none

/-- What a write of a single register does where its tables give it more than storing: none for a register that is only
stored. -/
def State.writeCmd (s : State) (p : Path) (d : RegDesc) (a : Nat) (v : Word) : Option State :=
  match a / 0x100000 with
  | 0 => s.writeGlb a v
  | 1 => s.writeInv p a v
  | 2 => s.writeHst d a v
  | 3 => s.writeTrn d a v
  | 4 => if a = A.CQ_CMD then some (s.cqCmd (fval F.CQ_CMD_CMD v) (fval F.CQ_CMD_EP v)) else none
  | 5 => s.writeVol a v
  | 6 => s.writeStr a v
  | 7 => s.writeCip d a v
  | 8 => s.writeMac d a v
  | 9 => s.writeTc d a v
  | 10 => s.writeDrv d a v
  | 11 => s.writeBay d a v
  | 12 => s.writeWdn a v
  | 13 => s.writePeer d a v
  | 14 => s.writePwr d a v
  | 15 => s.writeMgt p a v
  | _ => none

/-- A write of a single register. -/
def State.wordWrite (s : State) (p : Path) (d : RegDesc) (a : Nat) (v : Word) : State :=
  (s.writeCmd p d a v).getD (s.storeWord d a v)

/-- A register write from a path (R5 to R7, R11, R693): a write of a reserved address is ignored. -/
def State.busWrite (s : State) (p : Path) (a : Nat) (v : Word) : State :=
  if s.busOn && s.modeLets p a then
    match regDesc (regAddr a) with
    | none => s
    | some d => if d.pair then s.pairWrite d (regAddr a) v else s.wordWrite p d (regAddr a) v
  else s

end Sys2Proof.Machine
end

