-- ==== Sys2Proof/Machine/Ledger.lean ====
section
/-!
DEFINITION. Ledger access over the management port and over SMBus (19_management.md R694 to R702).
-/

namespace Sys2Proof.Machine

/-- A ledger access request (Table 19-2). -/
structure LedgerReq where
  version : Nat
  op : Nat
  id : Nat
  count : Nat
  addr : Nat
  data : List Byte
  deriving DecidableEq, Repr

/-- Read a request's header (R697). -/
def ledgerReq (l : List Byte) : LedgerReq where
  version := beAt l 0 1
  op := beAt l 1 1
  id := beAt l 4 4
  count := beAt l 8 2
  addr := beAt l 12 4
  data := l.drop 16

/-- A request as bytes (R697): what a requester sends. -/
def ledgerBytes (op id count addr : Nat) (words : List Word) : List Byte :=
  beBytes 1 1 ++ beBytes 1 op ++ beBytes 2 0 ++ beBytes 4 id ++ beBytes 2 count ++ beBytes 2 0 ++ beBytes 4 addr ++
    words.flatMap fun w => beBytes 4 w.toNat

/-- The status of a request (Table 19-3): 0 OK, 1 MALFORMED, 2 ADDRESS. -/
def LedgerReq.status (r : LedgerReq) (limit : Nat) : Nat :=
  let len := if r.op = 1 then 0 else 4 * r.count
  if r.version ≠ 1 ∨ r.op = 0 ∨ 3 < r.op ∨ r.count = 0 ∨ limit < r.count ∨ r.data.length ≠ len then 1
  else if 0x1000000 ≤ r.addr ∨ (r.op ≠ 3 ∧ 0x1000000 < regAddr r.addr + 4 * r.count) then 2
  else 0

/-- The reply to a request (Table 19-2). -/
def LedgerReq.reply (r : LedgerReq) (low : Bool) (status : Nat) (data : List Byte) : List Byte :=
  beBytes 1 1 ++ beBytes 1 (r.op ||| 0x80) ++ beBytes 1 (ofBool low) ++ beBytes 1 0 ++ beBytes 4 r.id ++ beBytes 2 r.count ++
    beBytes 2 status ++ beBytes 4 r.addr ++ data

/-- Read n registers from an address upward: the words, most significant byte first, and the state after (R699). -/
def State.readRun (s : State) (p : Path) : Nat → Nat → List Byte × State
  | _, 0 => ([], s)
  | a, n + 1 =>
    let (w, t) := s.busRead p a
    let (l, u) := t.readRun p (a + 4) n
    (beBytes 4 w.toNat ++ l, u)

/-- Write words from an address, `step` bytes on from each to the next (R698). -/
def State.writeRun (s : State) (p : Path) (step : Nat) : Nat → List Word → State
  | _, [] => s
  | a, w :: t => (s.busWrite p a w).writeRun p step (a + step) t

/-- The data words of a request. -/
def LedgerReq.words (r : LedgerReq) : List Word :=
  (List.range r.count).map fun i => BitVec.ofNat 32 (beAt r.data (4 * i) 4)

/-- Some access of a request meets a block that the power mode has off (R696). -/
def State.ledgerLow (s : State) (p : Path) (r : LedgerReq) : Bool :=
  (List.range r.count).any fun i => !s.modeLets p (regAddr r.addr + if r.op = 3 then 0 else 4 * i)

/-- A ledger error is counted and flagged (R699). -/
def State.ledgerErr (s : State) : State := (s.bump A.MGT_LEDGER_ERRS).flag F.MGT_STATUS_LEDGER_ERR

/-- Handle a request of at least 16 B from a path: its reply, whether it was executed, and the state after (R699). -/
def State.ledger (s : State) (p : Path) (limit : Nat) (l : List Byte) : List Byte × Bool × State :=
  let r := ledgerReq l
  let st := r.status limit
  if st ≠ 0 then (r.reply false st [], false, s.ledgerErr)
  else
    let low := s.ledgerLow p r
    let s := s.bump A.MGT_LEDGER_REQS
    match r.op with
    | 1 =>
      let (d, s) := s.readRun p (regAddr r.addr) r.count
      (r.reply low 0 d, true, s)
    | 2 => (r.reply low 0 [], true, s.writeRun p 4 (regAddr r.addr) r.words)
    | _ => (r.reply low 0 [], true, s.writeRun p 0 (regAddr r.addr) r.words)

/-! ### The management port (R695, R700) -/

/-- The management port takes ledger access: both enables are 1, and the mode keeps it running (R695, Table 18-2). -/
def State.ledgerOn (s : State) : Bool :=
  s.busOn && decide (s.pwr.cur ≠ .dormant) && s.is F.MAC_MGT_CTRL_EN && s.is F.MGT_CTRL_LEDGER_EN

/-- Replies made within the last 1 s (R700). -/
def State.keptReplies (s : State) : List KeptReply := s.mgt.replies.filter fun k => decide (s.now < k.at_ + 1000000000)

/-- Send a reply to a request's source (R700); one that a reset has overtaken is not sent. -/
def State.sendReply (s : State) (src : List Byte) (port : Nat) (l : List Byte) : State :=
  if s.busOn then s.mgtUdp (decide (src.length = 16)) src port l else s

/-- A request that reached the management port from an address and port (R699, R700). -/
def State.mgtRequest (s : State) (src : List Byte) (port : Nat) (l : List Byte) : State :=
  if !s.ledgerOn then s
  else if l.length < 16 then s.ledgerErr
  else
    let id := (ledgerReq l).id
    match s.keptReplies.find? fun k => decide (k.src = src) && k.port == port && k.id == id with
    | some k => (s.bump A.MGT_LEDGER_REPLAYS).sendReply src port k.bytes
    | none =>
      let (reply, done, s) := s.ledger .mgmt 256 l
      let k : KeptReply := { src := src, port := port, id := id, bytes := reply, at_ := s.now }
      let keep := s.keptReplies
      let s := s.when done fun s => s.onMgt fun m => { m with replies := keep.drop (keep.length - 63) ++ [k] }
      s.sendReply src port reply

/-! ### SMBus (R701, R702) -/

/-- The path of an SMBus port. -/
def smbPath (n : Nat) : Path := if n = 0 then .smbus0 else .smbus1

/-- A Block Write of 0x4C on an SMBus port (R701, R702): a bad PEC discards it; a block too short to be a request leaves
nothing to read. -/
def State.smbWrite (s : State) (n : Nat) (l : List Byte) (pecOk : Bool) : State :=
  if !(decide (n < 2) && s.busOn && s.smbActive n && decide (l.length ≤ 255)) then s
  else if !pecOk then s.bump A.MGT_SMB_PEC_ERR
  else if l.length < 16 then s.ledgerErr.onMgt fun m => { m with smb := Tab.put [] n [] m.smb }
  else
    let (reply, _, s) := s.ledger (smbPath n) 59 l
    s.onMgt fun m => { m with smb := Tab.put [] n reply m.smb }

/-- What a Block Read of 0x4D returns on an SMBus port: the last reply, or nothing (R702). -/
def State.smbReply (s : State) (n : Nat) : List Byte := Tab.getD n [] s.mgt.smb

/-- What a Block Read of 0x4D gives: nothing on a port that does not answer (R695). -/
def State.smbRead (s : State) (n : Nat) : List Byte := if n < 2 ∧ s.smbActive n then s.smbReply n else []

end Sys2Proof.Machine
end

