-- ==== Sys2Proof/Machine/Ethernet.lean ====
section
/-!
DEFINITION. Frames received, links, flow control and watchdogs of the Ethernet ports (12_ethernet_ports.md R499 to R527).
-/

namespace Sys2Proof.Machine

/-! ### Reception (R504, R516, R524 to R527) -/

/-- What a frame of a sub-port does in a power mode that keeps its receiver only in part (Table 18-2): Doze keeps ARP,
neighbour solicitation and wake patterns, Dormant only wake patterns on sub-ports with WAKE_EN. -/
def State.frameAsleep (s : State) (n : Nat) (k : RxFrame) : State :=
  match k with
  | .wake l => s.wakeFrame l
  | .arp l => if s.pwr.cur = .doze then s.arpAnswer n l else s
  | .solicit src target => if s.pwr.cur = .doze then s.solicitAnswer n src target else s
  | _ => s

/-- A UDP datagram of a sub-port: ledger access on the management port, Breren on a data port (R504, R527). -/
def State.datagram (s : State) (n : Nat) (v6 : Bool) (tos : Nat) (src : List Byte) (sport dport : Nat) (l : List Byte)
    (iplen : Nat) : State :=
  if n = 32 then
    if dport = s.ledgerPort ∧ s.is F.MGT_CTRL_LEDGER_EN then s.mgtRequest src sport l else s.macCount n .rxOther
  else if dport = s.brerenPort then s.brerenIn n v6 tos src sport l iplen
  else s.macCount n .rxOther

/-- The management port counts in RX_OTHER what none of its own uses takes (R527). -/
def State.portKind (_ : State) (n : Nat) (k : RxFrame) : RxFrame :=
  match k with
  | .drop c => .drop (if n = 32 && [MacCount.rxFiltered, .rxIpDrop, .rxUdpErr].contains c then .rxOther else c)
  | k => k

/-- Hand a frame with a correct FCS on (R504). -/
def State.frameTaken (s : State) (n : Nat) (k : RxFrame) : State :=
  match k with
  | .drop c => s.macCount n c
  | .wake l => s.wakeFrame l
  | .pause l => s.pauseReceived n l
  | .arp l => s.arpAnswer n l
  | .solicit src target => s.solicitAnswer n src target
  | .udp v6 tos src _ sport dport l iplen => s.datagram n v6 tos src sport dport l iplen

/-- A sub-port's receiver takes frames now: data ports not while the part dumps (Table 08-5), the management port not in
Dormant, and in Dormant only data sub-ports with WAKE_EN (Table 18-2). -/
def State.listens (s : State) (n : Nat) : Bool :=
  s.receives n &&
    if n = 32 then s.busOn && decide (s.pwr.cur ≠ .dormant)
    else s.up && (decide (s.pwr.cur ≠ .dormant) || bit (s.sp n).ctrl 5)

/-- FRAME_RECEIVE: a frame with its FCS, the codewords of it that were corrected and that were not correctable, and whether
its fragments broke the preemption rules (R499, R504, R510). -/
def State.frameReceive (s : State) (n corrected uncorrected : Nat) (broken : Bool) (l : List Byte) : State :=
  if !s.listens n then s
  else
    let s := s.fecCount n corrected uncorrected
    if broken then s.macCount n .rxAssemblyErr
    else
      match fcsCheck (decide (0 < uncorrected)) l with
      | .error c => s.macCount n c
      | .ok body =>
        let s := ((s.macCount n .rxFrames).macCount n .rxBytes l.length).modSp n fun p => { p with rxPrio := s.rxPriority body }
        let k := s.portKind n (s.frameKind n body)
        if n ≠ 32 ∧ s.asleep then s.frameAsleep n k else s.frameTaken n k

/-! ### Links (R502, R509, R526) -/

/-- LINK_CHANGE: a data sub-port's link and energy as its receiver now shows them (R501, R502). -/
def State.spLink (s : State) (n : Nat) (up energy : Bool) : State :=
  if n < 32 ∧ s.hasSubPort n then
    (s.modSp n fun p => { p with energy := energy }).linkChange n (up && s.spEn n)
  else s

/-- MGT_LINK_CHANGE: the management port's link, speed code and receive activity (R526, Table 12-14). -/
def State.mgtLinkChange (s : State) (up : Bool) (speed : Nat) (energy : Bool) : State :=
  ((s.onMac fun m => { m with speed := speed % 4 }).modSp 32 fun p => { p with energy := energy }).linkChange 32
    (up && s.spEn 32)

/-- PREEMPT_VERIFY: the verify exchange of a link-up ends (R509). -/
def State.preemptVerify (s : State) (n : Nat) (ok : Bool) : State :=
  if n < 32 ∧ (s.sp n).link ∧ s.mergeMode n = 1 then
    (s.modSp n fun p => { p with merge := ok }).when (!ok) fun s => s.flag F.MAC_STATUS_VERIFY_FAIL
  else s

/-- A port's own times run: a data port's in Active and Trim, the management port's in every mode but Dormant (Table 18-2). -/
def State.portRuns (s : State) (n : Nat) : Bool := if n = 32 then s.managed else s.awake

/-! ### Flow control (R516, R517) -/

/-- Quanta of a pause frame sent; 0 acts as 1 (Table 12-10). -/
def State.pauseQuanta (s : State) : Nat := max 1 (s.fld F.MAC_PAUSE_QUANTA)

/-- PAUSE_XOFF: the holding buffer of a port has risen to XOFF, or stays above XON half a quanta time later (R517). -/
def State.pauseXoff (s : State) (port : Nat) : State :=
  let level := s.holding port
  s.each (s.pausers port) fun s n =>
    let due := match (s.sp n).xoff with
      | none => decide (s.xoffLevel ≤ level)
      | some t => decide (s.xonLevel < level) && decide (t + s.quantaTime n s.pauseQuanta / 2 ≤ s.now)
    s.when due fun s => (s.sendPause n s.pauseQuanta).modSp n fun p => { p with xoff := some s.now }

/-- PAUSE_XON: the holding buffer of a port has fallen to XON (R517). -/
def State.pauseXon (s : State) (port : Nat) : State :=
  if s.xonLevel < s.holding port then s
  else s.each ((s.pausers port).filter fun n => (s.sp n).xoff.isSome) fun s n =>
    (s.sendPause n 0).modSp n fun p => { p with xoff := none }

/-- PAUSE_TIMER_EXPIRY: the holds of a sub-port whose time is over end (R516). -/
def State.pauseExpiry (s : State) (n : Nat) : State :=
  s.modQueue n fun p => { p with holds := p.holds.filter fun h => decide (s.now < h.2) }

/-! ### The pause watchdog (R518, R519) -/

/-- WATCHDOG_BREAK: the watchdog of a priority (8: the whole port) has reached its limit. -/
def State.wdogBreak (s : State) (n prio : Nat) : State :=
  match Tab.find? prio (s.sp n).wdog with
  | none => s
  | some t =>
    if s.now < t + s.wdogTimeout then s
    else
      let gone := fun (f : EgFrame) => decide (f.cls ≠ .control) && (prio == 8 || f.prio == prio)
      let s := (s.dropFrames n .txWdogDrop gone).macCount n .wdogBreaks
      let s := s.modQueue n fun p =>
        { p with holds := Tab.erase prio p.holds, holdOff := Tab.set prio (s.now + 200000000) p.holdOff }
      let (arg, s) := if prio = 8 then s.draw 64 else (prio, s)
      (s.flag F.MAC_STATUS_WDOG_BREAK).tallyTransport F.MAC_STATUS_WDOG_BREAK n 0 arg 0

/-- HOLD_OFF_END: the hold-offs of a sub-port whose time is over end. -/
def State.holdOffEnd (s : State) (n : Nat) : State :=
  s.modSp n fun p => { p with holdOff := p.holdOff.filter fun h => decide (s.now < h.2) }

end Sys2Proof.Machine
end

