-- ==== Sys2Proof/Machine/Rows.lean ====
section
/-!
DEFINITION. What the rows of the command table share: a command's outcome, the units that a mode or a dump stops, register
rows, and the small effects that one row alone has.
-/

namespace Sys2Proof.Machine

/-- The outcome of a command: its effect on everything but the queue of waiting commands. -/
def State.row (s : State) (f : State → State) : Host.Outcome State Fault Refusal := .next { f s with pending := s.pending }

/-- A register row that comes from a path: it acts where the access does (R5, R672, R696). -/
def State.onBus (s : State) (p : Path) (a : Nat) (f : State → State) : State := s.gate (fun s => s.busOn && s.modeLets p a) f

/-- A register row of a unit that a dump has stopped. -/
def State.onBusUp (s : State) (p : Path) (a : Nat) (f : State → State) : State := s.onBus p a fun s => s.ifUp f

/-- A command of the control die, which runs through a dump as well (R345, R589). -/
def State.ifOn (s : State) (f : State → State) : State := s.gate State.busOn f

/-- A command of the crossbars and bank groups, which serve a dump too (R96). -/
def State.ifCells (s : State) (f : State → State) : State := s.gate (fun s => s.awake || s.dumping) f

/-- A command of the peer's link, which is off in Doze and Dormant (Table 18-2). -/
def State.ifLink (s : State) (f : State → State) : State := s.gate (fun s => s.peerOn && !s.asleep) f

/-! ### Register rows (R7 to R12, R705) -/

/-- The state that a read leaves, holding the read's answer. -/
def State.answers (r : Word × State) : State := { r.2 with answer := beBytes 4 r.1.toNat }

/-- A read from a path, with its answer; nothing answers while the part is held in reset or in POWER_HOLD (R346, R730). -/
def State.readAnswer (s : State) (p : Path) (a : Nat) : State := if s.busOn then State.answers (s.busRead p a) else s

/-- A descriptor of the register at an address passes a test. -/
def regIs (a : Nat) (t : RegDesc → Bool) : Bool :=
  match regDesc (regAddr a) with
  | some d => t d
  | none => false

/-- The low word of a 64-bit pair lies at an address. -/
def isPairLow (a : Nat) : Bool := regIs a fun d => d.pair && !d.high (regAddr a)

/-- The high word of a 64-bit pair lies at an address. -/
def isPairHigh (a : Nat) : Bool := regIs a fun d => d.pair && d.high (regAddr a)

/-- A single register with an RC field lies at an address. -/
def isRc (a : Nat) : Bool := regIs a fun d => !d.pair && d.clears

/-- COUNTER_LOW_READ (R8, R9, R10). -/
def State.counterLowRead (s : State) (p : Path) (a : Nat) : State := if isPairLow a then s.readAnswer p a else s

/-- RC_FIELD_READ (R705). -/
def State.rcFieldRead (s : State) (p : Path) (a : Nat) : State := if isRc a then s.readAnswer p a else s

/-- PAIR_LOW_WRITE (R11). -/
def State.pairLowWrite (s : State) (p : Path) (a : Nat) (v : Word) : State := if isPairLow a then s.busWrite p a v else s

/-- PAIR_HIGH_WRITE (R11). -/
def State.pairHighWrite (s : State) (p : Path) (a : Nat) (v : Word) : State := if isPairHigh a then s.busWrite p a v else s

/-! ### Rows that begin something and are applied again to go on -/

/-- CONTROLLER_RESET: begins, or goes on (R264). -/
def State.resetController (s : State) : State :=
  match s.cq.run with
  | some (.controller b) => s.controllerResetOn b
  | _ => s.cqCmd 1 0

/-- EP_DISABLE: begins, or goes on (R265). -/
def State.disableEndpoint (s : State) (ep : Nat) : State :=
  match s.cq.run with
  | some (.disable e) => if e = ep then s.epDisableOn e else s
  | _ => s.cqCmd 3 ep

/-- SHUTDOWN: begins, or goes on (R356). -/
def State.shutdown (s : State) : State := if s.str.shutdown then s.shutdownNext else s.strCmd 2 0

/-- PERIODIC_CHECKPOINT: every 1 s while CKPT_EN is 1 (R351, R353). -/
def State.periodicCkpt (s : State) : State :=
  s.every Tick.ckpt 1000000000 fun s => s.when (s.is F.STR_CTRL_CKPT_EN) fun s => s.ckptStart false

/-! ### Pins of the bays (R557, R565, R566) -/

/-- Presence of a bay's drive, recognised or lost: the pin alone while the part is held, dumps or watches the feed. -/
def State.presenceRow (s : State) (n : Nat) (there : Bool) : State :=
  if 24 ≤ n then s
  else if s.up then (if there then s.insertion n else s.removal n)
  else s.modPort n fun p => { p with presence := there, presenceAt := s.now }

/-- CLKREQ_CHANGE (R557). -/
def State.clkreqRow (s : State) (n : Nat) (on : Bool) : State :=
  if n < 24 then s.modPort n fun p => ({ p with clkreq := on }).clock else s

/-! ### The sideband (R639, R682, R683) -/

/-- A sideband frame by its type: a bad CHECK is counted, and the frame discarded (R639). -/
def State.sideReceive (s : State) (l : List Byte) : State :=
  if !s.peerOn then s
  else if !sideOk l then s.bump A.PEER_SIDEBAND_ERR
  else
    match beAt l 0 1 with
    | 1 => s.sideBeat l
    | 2 => s.sideWake
    | 3 => s.sideWakeAck
    | _ => s.sideHeard id

/-! ### Interrupts (R602, R604) -/

/-- MODE_COMMIT: an interrupt that pends has ended the Wardens' WFI, so the request waits on (R604, R674). -/
def State.commitMode (s : State) : State := if s.irqPending then s else s.modeCommit

/-- TALLY_RECORD_AGE: the oldest unread record is more than 1 ms old, which pends TALLY; where it is enabled, the WFI of
running cores ends, unless their clocks are stopped (R679). -/
def State.tallyAge (s : State) : State :=
  if s.tallyPending ∧ s.irqPending ∧ s.awake then s.each s.activeCores fun s n => s.setCore n { s.core n with wfi := false } else s

end Sys2Proof.Machine
end

