-- ==== Sys2Proof/Machine/ExecBay.lean ====
section
/-!
DEFINITION. Bay and feed power rows (15_bay_power.md). A sub-channel is a channel with 0 for main or 1 for auxiliary.
-/

namespace Sys2Proof.Machine

/-- CHANNEL_ENABLE (R578, R579). -/
def execChannelEnable (path : Path) (channel : Nat) (sub : Nat) (s : State) : Host.Outcome State Fault Refusal :=
  s.row fun s => s.onBus path (A.BAY_EN channel) fun s => (if subExists channel sub then s.enableSub channel sub else s)

/-- CHANNEL_DISABLE (R584, Table 15-2). -/
def execChannelDisable (path : Path) (channel : Nat) (sub : Nat) (s : State) : Host.Outcome State Fault Refusal :=
  s.row fun s => s.onBus path (A.BAY_EN channel) fun s => (if subExists channel sub then s.disableSub channel sub else s)

/-- POWER_GOOD_GIVEN (R585). -/
def execPowerGoodGiven (channel : Nat) (sub : Nat) (s : State) : Host.Outcome State Fault Refusal :=
  s.row fun s => s.ifOn fun s => s.pgGive channel sub

/-- POWER_GOOD_LOST (R586). -/
def execPowerGoodLost (channel : Nat) (sub : Nat) (s : State) : Host.Outcome State Fault Refusal :=
  s.row fun s => s.ifOn fun s => s.pgLose channel sub

/-- BREAKER (R581). -/
def execBreakerTrip (channel : Nat) (sub : Nat) (s : State) : Host.Outcome State Fault Refusal :=
  s.row fun s => s.ifOn fun s => s.breakerTrip channel sub

/-- TIMER (R582). -/
def execTimerTrip (channel : Nat) (sub : Nat) (s : State) : Host.Outcome State Fault Refusal :=
  s.row fun s => s.ifOn fun s => s.timerTrip channel sub

/-- INRUSH (R582). -/
def execInrushTrip (channel : Nat) (sub : Nat) (s : State) : Host.Outcome State Fault Refusal :=
  s.row fun s => s.ifOn fun s => s.inrushTrip channel sub

/-- LATCH_RELEASE (R583). -/
def execLatchRelease (channel : Nat) (sub : Nat) (s : State) : Host.Outcome State Fault Refusal :=
  s.row fun s => s.ifOn fun s => s.latchRelease channel sub

/-- REVERSE (R587): the gate goes off, or on again. -/
def execReverseCurrent (channel : Nat) (sub : Nat) (off : Bool) (s : State) : Host.Outcome State Fault Refusal :=
  s.row fun s => s.ifOn fun s => s.reverse channel sub off

/-- TELEMETRY_UPDATE (R592, R595): every 1 ms. -/
def execTelemetryUpdate (samples : List TelSample) (s : State) : Host.Outcome State Fault Refusal :=
  s.row fun s => s.ifOn fun s => s.every Tick.telemetry 1000000 fun s => s.telemetry samples

/-- BAY_TEL_SEL_WRITE (R594). -/
def execBayTelSelWrite (path : Path) (value : Word) (s : State) : Host.Outcome State Fault Refusal :=
  s.row fun s => s.busWrite path A.BAY_TEL_SEL value

/-- LIMITING_START (R580). -/
def execLimitingStart (channel : Nat) (sub : Nat) (s : State) : Host.Outcome State Fault Refusal :=
  s.row fun s => s.ifOn fun s => s.limitStart channel sub

/-- LIMITING_END (R580). -/
def execLimitingEnd (channel : Nat) (sub : Nat) (s : State) : Host.Outcome State Fault Refusal :=
  s.row fun s => s.ifOn fun s => s.limitEnd channel sub

end Sys2Proof.Machine
end

