-- ==== Sys2Proof/Machine/ExecCip.lean ====
section
/-!
DEFINITION. Cipher rows (11_cipher.md).
-/

namespace Sys2Proof.Machine

/-- INSTALL (R480, R483). -/
def execInstall (path : Path) (kind : Nat) (slot : Nat) (s : State) : Host.Outcome State Fault Refusal :=
  s.row fun s => s.onBus path A.CIP_CMD fun s => s.cipInstall kind slot

/-- INSTALL_DONE (R480). -/
def execInstallDone (s : State) : Host.Outcome State Fault Refusal :=
  s.row fun s => s.ifAwake fun s => s.installDone

/-- CLEAR (R482, R483). -/
def execCipClear (path : Path) (kind : Nat) (slot : Nat) (s : State) : Host.Outcome State Fault Refusal :=
  s.row fun s => s.onBus path A.CIP_CMD fun s => s.cipClear kind slot

/-- ZEROISE (R750). -/
def execZeroise (path : Path) (confirm : Nat) (s : State) : Host.Outcome State Fault Refusal :=
  s.row fun s => s.onBus path A.CIP_CMD fun s => s.zeroise confirm

/-- ALARM_ONSET (R487 to R490, R689). -/
def execAlarmOnset (cause : AlarmCause) (s : State) : Host.Outcome State Fault Refusal :=
  s.row fun s => s.ifOn fun s => s.alarmOnset cause

/-- LEVEL2_ZEROING_DONE (R489): in POWER_HOLD too, where a sealed dump leaves it to begin. -/
def execLevel2ZeroingDone (s : State) : Host.Outcome State Fault Refusal :=
  s.row State.zeroingDone

/-- PIPE_CHECK_FAIL (R455, R456, Table 11-2): `what` names what the pipe worked on. -/
def execPipeCheckFail (pipe : Nat) (what : Nat) (s : State) : Host.Outcome State Fault Refusal :=
  s.row fun s => s.ifAwake fun s => s.pipeCheck pipe what

/-- PIPE_RETIRED_WRITE (R456). -/
def execPipeRetiredWrite (path : Path) (word : Nat) (value : Word) (s : State) : Host.Outcome State Fault Refusal :=
  s.row fun s => s.onBus path (A.CIP_PIPE_RETIRED word) fun s => (if word < 4 then s.pipeWrite word value else s)

/-- COUNTER_MARK_LANDED (R463). -/
def execCounterMarkLanded (sa : Nat) (s : State) : Host.Outcome State Fault Refusal :=
  s.row fun s => s.ifAwake fun s => s.markLanded sa

/-- START (R477). -/
def execJobStart (path : Path) (channel : Nat) (s : State) : Host.Outcome State Fault Refusal :=
  s.row fun s => s.onBus path (A.CIP_JOB_CMD channel) fun s => (if channel < 2 then s.jobStart channel else s)

/-- CANCEL (R477). -/
def execJobCancel (path : Path) (channel : Nat) (s : State) : Host.Outcome State Fault Refusal :=
  s.row fun s => s.onBus path (A.CIP_JOB_CMD channel) fun s => (if channel < 2 then s.jobCancel channel else s)

/-- JOB_END (R473 to R478). -/
def execJobEnd (channel : Nat) (s : State) : Host.Outcome State Fault Refusal :=
  s.row fun s => s.ifAwake fun s => s.jobEnd channel

end Sys2Proof.Machine
end

