-- ==== Sys2Proof/Machine/ExecCq.lean ====
section
/-!
DEFINITION. Command queue rows (06_command_queues.md). A command is named by its number of acceptance.
-/

namespace Sys2Proof.Machine

/-- CAPSULE_ACCEPT (R233, R234). -/
def execCapsuleAccept (s : State) : Host.Outcome State Fault Refusal :=
  s.row fun s => s.ifAwake fun s => s.capsuleAccept

/-- ORDERED_RELEASE (R238). -/
def execOrderedRelease (command : Nat) (s : State) : Host.Outcome State Fault Refusal :=
  s.row fun s => s.ifAwake fun s => s.orderedRelease command

/-- READ (R417): also carried on where lines wait. -/
def execReadCommand (command : Nat) (s : State) : Host.Outcome State Fault Refusal :=
  s.row fun s => s.ifAwake fun s => s.readStart command

/-- WRITE (R208, R312). -/
def execWriteCommand (command : Nat) (s : State) : Host.Outcome State Fault Refusal :=
  s.row fun s => s.ifAwake fun s => s.writeStart command 2

/-- FLUSH (R241, R242). -/
def execFlushCommand (command : Nat) (s : State) : Host.Outcome State Fault Refusal :=
  s.row fun s => s.ifAwake fun s => s.flush command

/-- VERIFY (R394, R372): `bad` and `wbad` list the (member, row) whose drive read or write fails. -/
def execVerifyCommand (command : Nat) (bad : List (Nat × Nat)) (wbad : List (Nat × Nat))
    (s : State) : Host.Outcome State Fault Refusal :=
  s.row fun s => s.ifAwake fun s => s.verify command bad wbad

/-- ZERO (R312). -/
def execZeroCommand (command : Nat) (s : State) : Host.Outcome State Fault Refusal :=
  s.row fun s => s.ifAwake fun s => s.writeStart command 5

/-- COMPLETION_POINT (R33, R236, R245). -/
def execCompletionPoint (command : Nat) (s : State) : Host.Outcome State Fault Refusal :=
  s.row fun s => s.ifAwake fun s => s.completionPoint command

/-- COMMAND_TIMEOUT (R258). -/
def execCommandTimeout (command : Nat) (s : State) : Host.Outcome State Fault Refusal :=
  s.row fun s => s.ifAwake fun s => s.commandTimeout command

/-- QUEUE_CREATE (R250). -/
def execQueueCreate (command : Nat) (s : State) : Host.Outcome State Fault Refusal :=
  s.row fun s => s.ifAwake fun s => s.adminCreate command

/-- QUEUE_DELETE (R251). -/
def execQueueDelete (command : Nat) (s : State) : Host.Outcome State Fault Refusal :=
  s.row fun s => s.ifAwake fun s => s.adminClose command true

/-- QUEUE_RESET (R262). -/
def execQueueReset (command : Nat) (s : State) : Host.Outcome State Fault Refusal :=
  s.row fun s => s.ifAwake fun s => s.adminClose command false

/-- ABORT (R254, R257). -/
def execAdminAbort (command : Nat) (s : State) : Host.Outcome State Fault Refusal :=
  s.row fun s => s.ifAwake fun s => s.adminAbort command

/-- SELF_TEST_START (R259). -/
def execSelfTestStart (command : Nat) (s : State) : Host.Outcome State Fault Refusal :=
  s.row fun s => s.ifAwake fun s => s.adminTestStart command

/-- SELF_TEST_ABORT (R259). -/
def execSelfTestAbort (command : Nat) (s : State) : Host.Outcome State Fault Refusal :=
  s.row fun s => s.ifAwake fun s => s.adminTestAbort command

/-- SELF_TEST_RESULT (R261). -/
def execSelfTestResult (command : Nat) (s : State) : Host.Outcome State Fault Refusal :=
  s.row fun s => s.ifAwake fun s => s.adminTestResult command

/-- IDENTIFY (R721). -/
def execIdentify (command : Nat) (s : State) : Host.Outcome State Fault Refusal :=
  s.row fun s => s.ifAwake fun s => s.adminIdentify command

/-- LOG_READ (R722). -/
def execLogRead (command : Nat) (s : State) : Host.Outcome State Fault Refusal :=
  s.row fun s => s.ifAwake fun s => s.adminLogRead command

/-- FEATURE_GET (R250). -/
def execFeatureGet (command : Nat) (s : State) : Host.Outcome State Fault Refusal :=
  s.row fun s => s.ifAwake fun s => s.adminFeatureGet command

/-- FEATURE_SET (R253). -/
def execFeatureSet (command : Nat) (s : State) : Host.Outcome State Fault Refusal :=
  s.row fun s => s.ifAwake fun s => s.adminFeatureSet command

/-- FIRMWARE_SEGMENT (R623, R625). -/
def execFirmwareSegment (command : Nat) (s : State) : Host.Outcome State Fault Refusal :=
  s.row fun s => s.ifAwake fun s => s.adminSegment command

/-- FIRMWARE_ACTIVATE (R624 to R627). -/
def execFirmwareActivate (command : Nat) (s : State) : Host.Outcome State Fault Refusal :=
  s.row fun s => s.ifAwake fun s => s.adminActivate command

/-- CONTROLLER_RESET (R228, R264): begins, or goes on. -/
def execControllerReset (path : Path) (s : State) : Host.Outcome State Fault Refusal :=
  s.row fun s => s.onBusUp path A.CQ_CMD fun s => s.resetController

/-- EP_ENABLE (R226, R752). -/
def execEpEnable (path : Path) (endpoint : Nat) (s : State) : Host.Outcome State Fault Refusal :=
  s.row fun s => s.onBus path A.CQ_CMD fun s => s.cqCmd 2 endpoint

/-- EP_DISABLE (R265, R752): begins, or goes on. -/
def execEpDisable (path : Path) (endpoint : Nat) (s : State) : Host.Outcome State Fault Refusal :=
  s.row fun s => s.onBusUp path A.CQ_CMD fun s => s.disableEndpoint endpoint

end Sys2Proof.Machine
end

