-- ==== Sys2Proof/Machine/ExecDrv.lean ====
section
/-!
DEFINITION. Drive port rows (14_drive_ports.md).
-/

namespace Sys2Proof.Machine

/-- INSERTION_RECOGNISED (R565, R688): the drive that was there before, or a formatted one of so many blocks. -/
def execInsertionRecognised (insertion : Insertion) (s : State) : Host.Outcome State Fault Refusal :=
  s.row fun s => (s.newDrive insertion.bay insertion.other).presenceRow insertion.bay true

/-- REMOVAL_RECOGNISED (R566, R567, R688). -/
def execRemovalRecognised (bay : Nat) (s : State) : Host.Outcome State Fault Refusal :=
  s.row fun s => s.presenceRow bay false

/-- PERST_RELEASE (R566). -/
def execPerstRelease (bay : Nat) (s : State) : Host.Outcome State Fault Refusal :=
  s.row fun s => s.ifAwake fun s => s.portTrain bay

/-- DRIVE_LINK_UP (R566, R556). -/
def execDriveLinkUp (bay : Nat) (rate : Nat) (width : Nat) (nvme : Bool)
    (s : State) : Host.Outcome State Fault Refusal :=
  s.row fun s => s.ifAwake fun s => s.portLinkUp bay rate width nvme

/-- TRAINING_TIMEOUT (R566). -/
def execTrainingTimeout (bay : Nat) (s : State) : Host.Outcome State Fault Refusal :=
  s.row fun s => s.ifAwake fun s => s.portFault bay

/-- DRIVE_LINK_DOWN (R557, R568): whether a fatal error took it down. -/
def execDriveLinkDown (loss : LinkLoss) (s : State) : Host.Outcome State Fault Refusal :=
  s.row fun s => s.ifAwake fun s => s.portLinkDown loss.bay loss.fatal

/-- DRIVE_LOST (R567, R569). -/
def execDriveLost (bay : Nat) (fatal : Bool) (s : State) : Host.Outcome State Fault Refusal :=
  s.row fun s => s.ifAwake fun s => s.portLost bay fatal

/-- RETRAIN_TIMEOUT (R566). -/
def execRetrainTimeout (bay : Nat) (s : State) : Host.Outcome State Fault Refusal :=
  s.row fun s => s.ifAwake fun s => s.portRetrain bay

/-- BAY_POWER_GONE (R566). -/
def execBayPowerGone (bay : Nat) (s : State) : Host.Outcome State Fault Refusal :=
  s.row fun s => s.ifAwake fun s => s.portGone bay

/-- PORT_START (R566). -/
def execPortStart (path : Path) (bay : Nat) (s : State) : Host.Outcome State Fault Refusal :=
  s.row fun s => s.onBus path (A.DRV_PORT_CMD bay) fun s => (if bay < 24 then s.portCmd bay 1 else s)

/-- PORT_READY (R560, R562). -/
def execPortReady (path : Path) (bay : Nat) (s : State) : Host.Outcome State Fault Refusal :=
  s.row fun s => s.onBus path (A.DRV_PORT_CMD bay) fun s => (if bay < 24 then s.portCmd bay 2 else s)

/-- UNFIT (R566). -/
def execPortUnfit (path : Path) (bay : Nat) (s : State) : Host.Outcome State Fault Refusal :=
  s.row fun s => s.onBus path (A.DRV_PORT_CMD bay) fun s => (if bay < 24 then s.portCmd bay 3 else s)

/-- PORT_RELEASE (R566). -/
def execPortRelease (path : Path) (bay : Nat) (s : State) : Host.Outcome State Fault Refusal :=
  s.row fun s => s.onBus path (A.DRV_PORT_CMD bay) fun s => (if bay < 24 then s.portCmd bay 4 else s)

/-- MSIX_SCAN (R564, Table 14-6): the vector, and the drive commands that have ended, with their outcomes, in order. -/
def execMsixScan (bay : Nat) (message : MsixWrite) (s : State) : Host.Outcome State Fault Refusal :=
  s.row fun s => s.ifAwake fun s => s.msixScan bay message.vector message.entries

/-- REGISTER (R571). -/
def execResvRegister (path : Path) (bay : Nat) (s : State) : Host.Outcome State Fault Refusal :=
  s.row fun s => s.onBus path A.DRV_RESV_CMD fun s => s.resvCmd bay 1

/-- ACQUIRE (R571). -/
def execResvAcquire (path : Path) (bay : Nat) (s : State) : Host.Outcome State Fault Refusal :=
  s.row fun s => s.onBus path A.DRV_RESV_CMD fun s => s.resvCmd bay 2

/-- PREEMPT (R571). -/
def execResvPreempt (path : Path) (bay : Nat) (s : State) : Host.Outcome State Fault Refusal :=
  s.row fun s => s.onBus path A.DRV_RESV_CMD fun s => s.resvCmd bay 3

/-- REPORT (R571). -/
def execResvReport (path : Path) (bay : Nat) (s : State) : Host.Outcome State Fault Refusal :=
  s.row fun s => s.onBus path A.DRV_RESV_CMD fun s => s.resvCmd bay 4

/-- RESV_DONE (R572, R655): what the drive answered. -/
def execResvDone (bay : Nat) (code : Nat) (holder : Nat) (s : State) : Host.Outcome State Fault Refusal :=
  s.row fun s => s.ifAwake fun s => s.resvEnded bay code holder

/-- NVME_MI_POLL (R574): temperature, life used and warnings, or no valid answer. -/
def execNvmeMiPoll (bay : Nat) (reply : Option (Nat × Nat × Nat)) (s : State) : Host.Outcome State Fault Refusal :=
  s.row fun s => s.ifAwake fun s => s.every (Tick.mi + bay % 24) 1000000000 fun s => s.miPoll (bay % 24) reply

/-- CLKREQ_CHANGE (R557). -/
def execClkreqChange (bay : Nat) (asserted : Bool) (s : State) : Host.Outcome State Fault Refusal :=
  s.row fun s => s.ifOn fun s => s.clkreqRow bay asserted

end Sys2Proof.Machine
end

