-- ==== Sys2Proof/Machine/ExecGlb.lean ====
section
/-!
DEFINITION. Reset, boot, flash and package rows (20_electrical_and_package.md).
-/

namespace Sys2Proof.Machine

/-- POWER_ON_RESET (R728, R735). -/
def execPowerOnReset (s : State) : Host.Outcome State Fault Refusal :=
  s.row fun s => s.powerOnReset

/-- RESET_N (R735, R736). -/
def execResetPin (s : State) : Host.Outcome State Fault Refusal :=
  s.row fun s => s.resetPin

/-- GLB_RESET (R735, Table 20-11). -/
def execGlbReset (path : Path) (confirm : Nat) (s : State) : Host.Outcome State Fault Refusal :=
  s.row fun s => s.onBus path A.GLB_RESET fun s => s.resetCommand confirm

/-- BOOT_START (R730, R737): the time to firmware start in ms, the flash mode found, and the cores whose self-test
fails. -/
def execBootStart (fwMs : Nat) (flashMode : Nat) (failing : List Nat) (s : State) : Host.Outcome State Fault Refusal :=
  s.row fun s => s.bootStart fwMs flashMode failing

/-- PG_IN_LOW (R731). -/
def execPgInLow (s : State) : Host.Outcome State Fault Refusal :=
  s.row fun s => s.pgInLow

/-- SPI_READ (R742). -/
def execSpiRead (path : Path) (length : Nat) (s : State) : Host.Outcome State Fault Refusal :=
  s.row fun s => s.onBus path A.GLB_SPI_CTRL fun s => s.spiStart 1 length

/-- PROGRAM (R742). -/
def execSpiProgram (path : Path) (length : Nat) (s : State) : Host.Outcome State Fault Refusal :=
  s.row fun s => s.onBus path A.GLB_SPI_CTRL fun s => s.spiStart 2 length

/-- ERASE_4K (R742). -/
def execErase4k (path : Path) (s : State) : Host.Outcome State Fault Refusal :=
  s.row fun s => s.onBus path A.GLB_SPI_CTRL fun s => s.spiStart 3 0

/-- ERASE_64K (R742). -/
def execErase64k (path : Path) (s : State) : Host.Outcome State Fault Refusal :=
  s.row fun s => s.onBus path A.GLB_SPI_CTRL fun s => s.spiStart 4 0

/-- SPI_DONE (R742, Table 20-13). -/
def execSpiDone (timeout : Bool) (s : State) : Host.Outcome State Fault Refusal :=
  s.row fun s => s.ifManaged fun s => s.spiDone timeout

/-- THERM (R745): the highest die sensor in degrees. -/
def execTherm (temp : Int) (s : State) : Host.Outcome State Fault Refusal :=
  s.row fun s => s.ifOn fun s => s.therm temp

end Sys2Proof.Machine
end

