-- ==== Sys2Proof/Machine/ExecHst.lean ====
section
/-!
DEFINITION. Cellar, Pantry and Hoist rows (03_cellar_and_hoist.md).
-/

namespace Sys2Proof.Machine

/-- CELL_INGRESS (R80): a cell of an agent at its crossbar port. -/
def execCellIngress (agent : Nat) (header : BitVec 128) (payload : List Byte)
    (s : State) : Host.Outcome State Fault Refusal :=
  s.row fun s => s.ifAwake fun s => s.cellIngress agent header payload

/-- CELL_TIME (R91 to R94): `damage` changes header bits of the cell an agent sends; `bad` and `misplaced` are the
granules that the bank groups' reads found with so many bad bytes, or as another address's (R108). -/
def execCellTime (damage : List (Nat × BitVec 128)) (bad : List (Nat × Nat)) (misplaced : List Nat)
    (s : State) : Host.Outcome State Fault Refusal :=
  s.row fun s => s.ifCells fun s => s.cellTime damage bad misplaced

/-- WRITE_CELL_COMMIT (R81 to R85): a bank group writes its oldest cell. -/
def execWriteCellCommit (group : Nat) (s : State) : Host.Outcome State Fault Refusal :=
  s.row fun s => s.ifCells fun s => s.cellCommit group

/-- WRITE_ACK_RECEIVED (R86, R99). -/
def execWriteAckReceived (agent : Nat) (s : State) : Host.Outcome State Fault Refusal :=
  s.row fun s => s.ifAwake fun s => s.ackReceived agent

/-- WRITE_ACK_TIMEOUT (R86): 16 us without an acknowledgement of a cell. -/
def execWriteAckTimeout (flow : Nat) (seq : Nat) (s : State) : Host.Outcome State Fault Refusal :=
  s.row fun s => s.ifAwake fun s => s.ackTimeout flow seq

/-- EGRESS_CELL_ARRIVAL (R80, R101, R103). -/
def execEgressCellArrival (agent : Nat) (damage : BitVec 128) (s : State) : Host.Outcome State Fault Refusal :=
  s.row fun s => s.ifAwake fun s => s.cellArrives agent damage

/-- RESEQ_TIMEOUT (R102, R105). -/
def execReseqTimeout (flow : Nat) (s : State) : Host.Outcome State Fault Refusal :=
  s.row fun s => s.ifAwake fun s => s.reseqExpiry flow

/-- CELLAR_SCRUB (R110): `finding` is what the read meets. -/
def execCellarScrub (granule : Nat) (finding : GranuleFault) (s : State) : Host.Outcome State Fault Refusal :=
  s.row fun s => s.ifAwake fun s => s.cellarScrub granule finding

/-- CE_24H_CLEAR (R112). -/
def execCe24hClear (s : State) : Host.Outcome State Fault Refusal :=
  s.row fun s => s.ifAwake fun s => s.ceClear

/-- HST_RETIRE_GO (R113, Table 03-11). -/
def execHstRetireGo (path : Path) (pc : Nat) (s : State) : Host.Outcome State Fault Refusal :=
  s.row fun s => s.onBus path A.HST_RETIRE fun s => s.retireCommand pc

/-- PC_FAILURE (R114, R117, R118). -/
def execPcFailure (pc : Nat) (noAnswer : Bool) (s : State) : Host.Outcome State Fault Refusal :=
  s.row fun s => s.ifAwake fun s => s.pcFailure pc noAnswer

/-- PIN_WAIT_END (R115). -/
def execPinWaitEnd (s : State) : Host.Outcome State Fault Refusal :=
  s.row fun s => s.ifAwake fun s => s.pinWaitEnd

/-- SLICE_SWITCH (R119, R120). -/
def execSliceSwitch (s : State) : Host.Outcome State Fault Refusal :=
  s.row fun s => s.ifAwake fun s => s.sliceSwitch

/-- PANTRY_SCRUB (R124 to R127): whether an error was corrected, the word found uncorrectable, and whether its block
then reads it. -/
def execPantryScrub (bank : Nat) (row : Nat) (corrected : Bool) (poisoned : Option Nat) (used : Bool)
    (s : State) : Host.Outcome State Fault Refusal :=
  s.row fun s => s.ifAwake fun s => s.pantryRow bank row corrected poisoned used

end Sys2Proof.Machine
end

