-- ==== Sys2Proof/Machine/ExecInv.lean ====
section
/-!
DEFINITION. Inventory loader rows (02_inventory.md).
-/

namespace Sys2Proof.Machine

/-- OPEN (R64): INV_CTRL OPEN from a path. -/
def execLoadOpen (path : Path) (s : State) : Host.Outcome State Fault Refusal :=
  s.row fun s => s.onBus path A.INV_CTRL fun s => s.invOpen path

/-- INV_DATA_WRITE (R64): four image bytes from a path. -/
def execInvDataWrite (path : Path) (value : Word) (s : State) : Host.Outcome State Fault Refusal :=
  s.row fun s => s.onBus path A.INV_DATA fun s => s.invData path value

/-- COMMIT_FULL (R50 to R60, R66, R67). -/
def execCommitFull (path : Path) (s : State) : Host.Outcome State Fault Refusal :=
  s.row fun s => s.onBus path A.INV_CTRL fun s => s.commitFull path

/-- COMMIT_PARTIAL (R61, R71 to R74). -/
def execCommitPartial (path : Path) (s : State) : Host.Outcome State Fault Refusal :=
  s.row fun s => s.onBus path A.INV_CTRL fun s => s.commitPartial path

/-- ABORT_LOAD (R64, Table 02-5). -/
def execAbortLoad (path : Path) (s : State) : Host.Outcome State Fault Refusal :=
  s.row fun s => s.onBus path A.INV_CTRL fun s => s.invAbort path

/-- LOAD_IDLE_TIMEOUT (R65): 10 s without a write of INV_DATA. -/
def execLoadIdleTimeout (s : State) : Host.Outcome State Fault Refusal :=
  s.row fun s => s.ifAwake fun s => s.invIdle

/-- KEY_PROGRAM (R76): the signing key slot of INV_CTRL.SLOT. -/
def execKeyProgram (path : Path) (slot : Nat) (s : State) : Host.Outcome State Fault Refusal :=
  s.row fun s => s.onBus path A.INV_CTRL fun s => s.keyProgram path slot

/-- RAISE_FLOOR (R77). -/
def execRaiseFloor (path : Path) (s : State) : Host.Outcome State Fault Refusal :=
  s.row fun s => s.onBus path A.INV_CTRL fun s => s.raiseFloor path

/-- KEYSLOT_REVOKE (R62): a 1 written to INV_KEYSLOT[slot].REVOKED. -/
def execKeyslotRevoke (path : Path) (slot : Nat) (s : State) : Host.Outcome State Fault Refusal :=
  s.row fun s => s.onBus path (A.INV_KEYSLOT slot) fun s => s.keyRevoke slot

/-- RESIDENT_CHECK (R63): every 60 s; `damaged` names the resident sections whose stored bytes have changed. -/
def execResidentCheck (damaged : List Nat) (s : State) : Host.Outcome State Fault Refusal :=
  s.row fun s => s.ifAwake fun s => s.every Tick.resident 60000000000 fun s => s.residentCheck damaged

end Sys2Proof.Machine
end

