-- ==== Sys2Proof/Machine/ExecMac.lean ====
section
/-!
DEFINITION. Ethernet and traffic rows (12_ethernet_ports.md, 13_traffic_control.md). Sub-port 32 is the management
port.
-/

namespace Sys2Proof.Machine

/-- FRAME_RECEIVE (R499, R504, R510): a frame with its FCS; codewords of it corrected and not correctable; whether its
fragments broke the preemption rules. -/
def execFrameReceive (sp : Nat) (corrected : Nat) (uncorrected : Nat) (broken : Bool) (bytes : List Byte)
    (s : State) : Host.Outcome State Fault Refusal :=
  s.row fun s => s.ifOn fun s => s.frameReceive sp corrected uncorrected broken bytes

/-- LINK_CHANGE (R501, R502). -/
def execLinkChange (sp : Nat) (up : Bool) (energy : Bool) (s : State) : Host.Outcome State Fault Refusal :=
  s.row fun s => s.ifOn fun s => s.spLink sp up energy

/-- PREEMPT_VERIFY (R509). -/
def execPreemptVerify (sp : Nat) (ok : Bool) (s : State) : Host.Outcome State Fault Refusal :=
  s.row fun s => s.ifAwake fun s => s.preemptVerify sp ok

/-- PAUSE_XOFF (R517). -/
def execPauseXoff (port : Nat) (s : State) : Host.Outcome State Fault Refusal :=
  s.row fun s => s.ifAwake fun s => s.pauseXoff port

/-- PAUSE_XON (R517). -/
def execPauseXon (port : Nat) (s : State) : Host.Outcome State Fault Refusal :=
  s.row fun s => s.ifAwake fun s => s.pauseXon port

/-- WATCHDOG_BREAK (R518): a priority, or 8 for the whole sub-port. -/
def execWatchdogBreak (sp : Nat) (prio : Nat) (s : State) : Host.Outcome State Fault Refusal :=
  s.row fun s => s.gate (fun s => s.portRuns sp) fun s => s.wdogBreak sp prio

/-- HOLD_OFF_END (R519). -/
def execHoldOffEnd (sp : Nat) (s : State) : Host.Outcome State Fault Refusal :=
  s.row fun s => s.gate (fun s => s.portRuns sp) fun s => s.holdOffEnd sp

/-- FRAME_TRANSMIT (R544, R449, R510): the frame on the wire leaves whole, or so many bytes of it have left by now. -/
def execFrameTransmit (turn : WireTurn) (s : State) : Host.Outcome State Fault Refusal :=
  s.row fun s => s.ifUp fun s => s.frameTransmit turn.sp turn.sent

/-- SNAP (R522). -/
def execCounterSnap (path : Path) (s : State) : Host.Outcome State Fault Refusal :=
  s.row fun s => s.onBus path A.MAC_CNT_SNAP fun s => s.cntSnap

/-- RELEASE (R522). -/
def execCounterRelease (path : Path) (s : State) : Host.Outcome State Fault Refusal :=
  s.row fun s => s.onBus path A.MAC_CNT_SNAP fun s => s.cntRelease

/-- MDIO_OP (R528): the word written. -/
def execMdioOp (path : Path) (value : Word) (s : State) : Host.Outcome State Fault Refusal :=
  s.row fun s => s.busWrite path A.MAC_MGT_MDIO value

/-- MDIO_DONE (R528): what the PHY answers. -/
def execMdioDone (data : Nat) (s : State) : Host.Outcome State Fault Refusal :=
  s.row fun s => s.ifManaged fun s => s.mdioDone data

/-- HISTOGRAM_SAMPLE (R548): every 10 us. -/
def execHistogramSample (s : State) : Host.Outcome State Fault Refusal :=
  s.row fun s => s.ifAwake fun s => s.every Tick.hist 10000 State.histSample

end Sys2Proof.Machine
end

