-- ==== Sys2Proof/Machine/ExecMgt.lean ====
section
/-!
DEFINITION. Management rows (19_management.md).
-/

namespace Sys2Proof.Machine

/-- LEDGER_READ (R698, R699): from an address and UDP port. -/
def execLedgerRead (src : List Byte) (port : Nat) (id : Nat) (count : Nat) (addr : Nat)
    (s : State) : Host.Outcome State Fault Refusal :=
  s.row fun s => s.ifManaged fun s => s.mgtRequest src port (ledgerBytes 1 id count addr [])

/-- LEDGER_WRITE (R698, R699). -/
def execLedgerWrite (src : List Byte) (port : Nat) (id : Nat) (addr : Nat) (words : List Word)
    (s : State) : Host.Outcome State Fault Refusal :=
  s.row fun s => s.ifManaged fun s => s.mgtRequest src port (ledgerBytes 2 id words.length addr words)

/-- WRITE_FIXED (R698, R699). -/
def execWriteFixed (src : List Byte) (port : Nat) (id : Nat) (addr : Nat) (words : List Word)
    (s : State) : Host.Outcome State Fault Refusal :=
  s.row fun s => s.ifManaged fun s => s.mgtRequest src port (ledgerBytes 3 id words.length addr words)

/-- SMBUS_BLOCK_WRITE (R701). -/
def execSmbusBlockWrite (port : Nat) (bytes : List Byte) (pecOk : Bool)
    (s : State) : Host.Outcome State Fault Refusal :=
  s.row fun s => s.ifOn fun s => s.smbWrite port bytes pecOk

/-- SMBUS_BLOCK_READ (R702); a port that R695 disables does not acknowledge its address. -/
def execSmbusBlockRead (port : Nat) (s : State) : Host.Outcome State Fault Refusal :=
  s.row fun s => s.ifOn fun s => { s with answer := s.smbRead port }

/-- ADVANCE (R712). -/
def execTallyAdvance (path : Path) (count : Nat) (s : State) : Host.Outcome State Fault Refusal :=
  s.row fun s => s.onBus path A.MGT_TALLY_CMD fun s => s.tallyAdvance count

/-- TALLY_REC_READ (R712). -/
def execTallyRecRead (path : Path) (s : State) : Host.Outcome State Fault Refusal :=
  s.row fun s => s.readAnswer path (A.MGT_TALLY_REC 0)

/-- TALLY_APPEND (R713). -/
def execTallyAppend (path : Path) (s : State) : Host.Outcome State Fault Refusal :=
  s.row fun s => s.onBus path A.MGT_TALLY_APPEND fun s => s.tallyAppend

/-- EVENT_FRAME_SEND (R714). -/
def execEventFrameSend (s : State) : Host.Outcome State Fault Refusal :=
  s.row fun s => s.ifManaged fun s => s.eventFrame

/-- START_SHORT (R715). -/
def execStartShort (path : Path) (s : State) : Host.Outcome State Fault Refusal :=
  s.row fun s => s.onBus path A.MGT_ST_CTRL fun s => s.stStart 1 path

/-- START_EXTENDED (R715). -/
def execStartExtended (path : Path) (s : State) : Host.Outcome State Fault Refusal :=
  s.row fun s => s.onBus path A.MGT_ST_CTRL fun s => s.stStart 2 path

/-- ST_ABORT (R715). -/
def execStAbort (path : Path) (s : State) : Host.Outcome State Fault Refusal :=
  s.row fun s => s.onBus path A.MGT_ST_CTRL fun s => s.testAbort

/-- SELF_TEST_END (R716, R718): items found failing beside those the state shows, as (area, item). -/
def execSelfTestEnd (items : List (Nat × Nat)) (s : State) : Host.Outcome State Fault Refusal :=
  s.row fun s => s.ifManaged fun s => s.testFinish items

/-- FW_OPEN (R719). -/
def execFwOpen (path : Path) (s : State) : Host.Outcome State Fault Refusal :=
  s.row fun s => s.onBus path A.MGT_FW_CTRL fun s => s.fwOpen

/-- MGT_FW_DATA_WRITE (R719). -/
def execFwDataWrite (path : Path) (value : Word) (s : State) : Host.Outcome State Fault Refusal :=
  s.row fun s => s.onBus path A.MGT_FW_DATA fun s => s.fwData value

/-- VERIFY_STAGE (R719). -/
def execVerifyStage (path : Path) (s : State) : Host.Outcome State Fault Refusal :=
  s.row fun s => s.onBus path A.MGT_FW_CTRL fun s => s.fwRun false

/-- FW_ACTIVATE (R719). -/
def execFwActivate (path : Path) (s : State) : Host.Outcome State Fault Refusal :=
  s.row fun s => s.onBus path A.MGT_FW_CTRL fun s => s.fwRun true

/-- MGT_DBG_DATA_WRITE (R720). -/
def execDbgDataWrite (path : Path) (value : Word) (s : State) : Host.Outcome State Fault Refusal :=
  s.row fun s => s.onBus path A.MGT_DBG_DATA fun s => s.dbgData value

/-- DBG_OPEN (R720). -/
def execDbgOpen (path : Path) (s : State) : Host.Outcome State Fault Refusal :=
  s.row fun s => s.onBus path A.MGT_DBG_CMD fun s => s.dbgOpen

/-- DBG_COMMIT (R720). -/
def execDbgCommit (path : Path) (s : State) : Host.Outcome State Fault Refusal :=
  s.row fun s => s.onBus path A.MGT_DBG_CMD fun s => s.dbgCommit

/-- MGT_LINK_CHANGE (R526). -/
def execMgtLinkChange (up : Bool) (speed : Nat) (energy : Bool) (s : State) : Host.Outcome State Fault Refusal :=
  s.row fun s => s.ifOn fun s => s.mgtLinkChange up speed energy

/-- TALLY_RECORD_AGE (R602). -/
def execTallyRecordAge (s : State) : Host.Outcome State Fault Refusal :=
  s.row fun s => s.ifManaged fun s => s.tallyAge

end Sys2Proof.Machine
end

