-- ==== Sys2Proof/Machine/ExecMore.lean ====
section
/-!
DEFINITION. Rows that end what others began.
-/

namespace Sys2Proof.Machine

/-- ALARM_CONDITION_END (R490). -/
def execAlarmConditionEnd (cause : AlarmCause) (s : State) : Host.Outcome State Fault Refusal :=
  s.row fun s => s.ifOn fun s => s.alarmEnd cause

/-- SUSPECT_PROBE_SEND (R159). -/
def execSuspectProbeSend (sa : Nat) (way : Nat) (s : State) : Host.Outcome State Fault Refusal :=
  s.row fun s => s.ifAwake fun s => s.suspectProbe sa way

/-- PAUSE_TIMER_EXPIRY (R516). -/
def execPauseTimerExpiry (sp : Nat) (s : State) : Host.Outcome State Fault Refusal :=
  s.row fun s => s.gate (fun s => s.portRuns sp) fun s => s.pauseExpiry sp

/-- GROUP_COPY_PIN_RELEASE (R446). -/
def execGroupCopyPinRelease (s : State) : Host.Outcome State Fault Refusal :=
  s.row fun s => s.ifAwake fun s => s.copyRelease

/-- PEER_LINK_GROUP_CHANGE (R636). -/
def execPeerLinkGroupChange (mask : Nat) (s : State) : Host.Outcome State Fault Refusal :=
  s.row fun s => s.ifUp fun s => s.linkGroups mask

end Sys2Proof.Machine
end

