-- ==== Sys2Proof/Machine/ExecPeer.lean ====
section
/-!
DEFINITION. Peer rows (17_peer_and_takeover.md).
-/

namespace Sys2Proof.Machine

/-- PEER_FRAME_RECEIVE (R637). -/
def execPeerFrameReceive (bytes : List Byte) (s : State) : Host.Outcome State Fault Refusal :=
  s.row fun s => s.ifLink fun s => s.peerReceive bytes

/-- PEER_RETRANSMIT (R637). -/
def execPeerRetransmit (s : State) : Host.Outcome State Fault Refusal :=
  s.row fun s => s.ifLink fun s => s.peerRetransmit

/-- SIDEBAND_FRAME_RECEIVE (R639): a frame of any type of Table 17-3. -/
def execSidebandFrameReceive (bytes : List Byte) (s : State) : Host.Outcome State Fault Refusal :=
  s.row fun s => s.ifUp fun s => s.sideReceive bytes

/-- SIDEBAND_HEARTBEAT_SEND (R639): every 1 ms. -/
def execSidebandHeartbeatSend (s : State) : Host.Outcome State Fault Refusal :=
  s.row fun s => s.ifUp fun s => s.heartbeat

/-- SIDEBAND_WAKE (R682): a WAKE frame has arrived. -/
def execSidebandWake (s : State) : Host.Outcome State Fault Refusal :=
  s.row fun s => s.ifUp fun s => s.sideWake

/-- SIDEBAND_WAKE_ACK (R683): a WAKE_ACK frame has arrived. -/
def execSidebandWakeAck (s : State) : Host.Outcome State Fault Refusal :=
  s.row fun s => s.ifUp fun s => s.sideWakeAck

/-- PEER_LINK_LOST (R641, Table 17-4). -/
def execPeerLinkLost (s : State) : Host.Outcome State Fault Refusal :=
  s.row fun s => s.ifLink fun s => s.linkLoss

/-- SIDEBAND_LOST (R641, Table 17-4). -/
def execSidebandLost (s : State) : Host.Outcome State Fault Refusal :=
  s.row fun s => s.ifUp fun s => s.sideLoss

/-- ARBITRATION_DECIDE (R656 to R658). -/
def execArbitrationDecide (s : State) : Host.Outcome State Fault Refusal :=
  s.row fun s => s.ifAwake fun s => s.arbDecide

/-- MIRROR_WAIT_EXPIRY (R651). -/
def execMirrorWaitExpiry (s : State) : Host.Outcome State Fault Refusal :=
  s.row fun s => s.ifAwake fun s => s.mirrorExpiry

/-- MIRROR_FAIL (R647). -/
def execMirrorFail (write : Nat) (s : State) : Host.Outcome State Fault Refusal :=
  s.row fun s => s.ifAwake fun s => s.mirrorFail write

/-- HANDOVER_GIVE (R652): a mask of groups. -/
def execHandoverGive (path : Path) (groups : Nat) (s : State) : Host.Outcome State Fault Refusal :=
  s.row fun s => s.onBus path A.PEER_CMD fun s => s.peerCmd 1 groups

/-- HANDOVER_QUIESCED (R652). -/
def execHandoverQuiesced (s : State) : Host.Outcome State Fault Refusal :=
  s.row fun s => s.ifAwake fun s => s.handoverQuiesced

/-- HANDOVER_WAIT_EXPIRY (R653). -/
def execHandoverWaitExpiry (command : Nat) (s : State) : Host.Outcome State Fault Refusal :=
  s.row fun s => s.ifAwake fun s => s.handoverExpiry command

/-- TAKEOVER (R660, R661). -/
def execTakeover (path : Path) (groups : Nat) (s : State) : Host.Outcome State Fault Refusal :=
  s.row fun s => s.onBus path A.PEER_CMD fun s => s.peerCmd 2 groups

/-- TAKEOVER_DONE (R661, R662). -/
def execTakeoverDone (failing : List (Nat × Nat × CopyFault)) (media : MediaErrors) (s : State) : Host.Outcome State Fault Refusal :=
  s.row fun s => s.ifAwake fun s => s.takeoverDone failing media.reads media.writes

/-- PEER_OPEN (R663). -/
def execPeerOpen (path : Path) (groups : Nat) (s : State) : Host.Outcome State Fault Refusal :=
  s.row fun s => s.onBus path A.PEER_CMD fun s => s.peerCmd 3 groups

/-- YIELD (R652). -/
def execPeerYield (path : Path) (s : State) : Host.Outcome State Fault Refusal :=
  s.row fun s => s.onBus path A.PEER_CMD fun s => s.peerCmd 4 0

/-- PEER_JOIN_CMD (R642). -/
def execPeerJoin (path : Path) (s : State) : Host.Outcome State Fault Refusal :=
  s.row fun s => s.onBus path A.PEER_CMD fun s => s.peerCmd 5 0

/-- SET_OWN (R665). -/
def execSetOwn (path : Path) (groups : Nat) (s : State) : Host.Outcome State Fault Refusal :=
  s.row fun s => s.onBus path A.PEER_CMD fun s => s.peerCmd 6 groups

end Sys2Proof.Machine
end

