-- ==== Sys2Proof/Machine/ExecPwr.lean ====
section
/-!
DEFINITION. Power mode rows (18_power_modes_and_islands.md).
-/

namespace Sys2Proof.Machine

/-- MODE_REQUEST (R674, R675, R680): PWR_MODE.REQ with GO. -/
def execModeRequest (path : Path) (mode : Nat) (s : State) : Host.Outcome State Fault Refusal :=
  s.row fun s => s.onBusUp path A.PWR_MODE fun s => s.modeRequest (modeOf mode)

/-- MODE_COMMIT (R674, R676, R678). -/
def execModeCommit (s : State) : Host.Outcome State Fault Refusal :=
  s.row fun s => s.ifUp fun s => s.commitMode

/-- DRAIN_TIMEOUT (R677). -/
def execDrainTimeout (s : State) : Host.Outcome State Fault Refusal :=
  s.row fun s => s.ifUp fun s => s.drainTimeout

/-- MODE_ENTRY_DONE (R678 to R681). -/
def execModeEntryDone (s : State) : Host.Outcome State Fault Refusal :=
  s.row fun s => s.ifUp fun s => s.modeEntered

/-- WAKE (R681): SMB_ALERT_N as it stands. -/
def execPowerWake (alertLow : Bool) (s : State) : Host.Outcome State Fault Refusal :=
  s.row fun s => s.ifUp fun s => s.wake alertLow

/-- EXIT_DONE (R684 to R688): the banks whose signature differs, and the resident sections whose bytes have changed.
-/
def execExitDone (lost : List Nat) (damaged : List Nat) (s : State) : Host.Outcome State Fault Refusal :=
  s.row fun s => s.ifUp fun s => s.exitDone lost damaged

/-- WAKE_PEER (R683). -/
def execWakePeer (path : Path) (s : State) : Host.Outcome State Fault Refusal :=
  s.row fun s => s.onBus path A.PWR_CMD fun s => s.wakePeer

/-- ISLAND_LOOP_TICK (R669, R670): every 1 us; what the canaries of the period showed. -/
def execIslandLoopTick (island : Nat) (failed : Bool) (margin : Bool) (s : State) : Host.Outcome State Fault Refusal :=
  s.row fun s => s.ifUp fun s => s.islandTick island failed margin

/-- AVS_UPDATE (R671, R733). -/
def execAvsUpdate (acked : Bool) (s : State) : Host.Outcome State Fault Refusal :=
  s.row fun s => s.ifUp fun s => s.avsUpdate acked

end Sys2Proof.Machine
end

