-- ==== Sys2Proof/Machine/ExecRbd.lean ====
section
/-!
DEFINITION. Rebuild, patrol and reshape rows (09_failure_rebuild_reshape.md).
-/

namespace Sys2Proof.Machine

/-- MEMBER_STATE_CHANGE (R367, Table 09-1). -/
def execMemberStateChange (group : Nat) (member : Nat) (s : State) : Host.Outcome State Fault Refusal :=
  s.row fun s => s.ifAwake fun s => s.errorCheck group member

/-- REBUILD_STRIPE (R379 to R383, R400). -/
def execRebuildStripe (group : Nat) (bad : List (Nat × Nat)) (wbad : List (Nat × Nat))
    (s : State) : Host.Outcome State Fault Refusal :=
  s.row fun s => s.ifAwake fun s => s.rebuildStripe group bad wbad

/-- REBUILD_RECORD (R384). -/
def execRebuildRecord (s : State) : Host.Outcome State Fault Refusal :=
  s.row fun s => s.ifAwake fun s => s.rebuildRecord

/-- PATROL_STRIPE (R393 to R397). -/
def execPatrolStripe (group : Nat) (bad : List (Nat × Nat)) (wbad : List (Nat × Nat))
    (s : State) : Host.Outcome State Fault Refusal :=
  s.row fun s => s.ifAwake fun s => s.patrolStripe group bad wbad

/-- PATROL_LATE (R393). -/
def execPatrolLate (group : Nat) (s : State) : Host.Outcome State Fault Refusal :=
  s.row fun s => s.ifAwake fun s => s.patrolLate group

/-- PATROL_START (R415). -/
def execPatrolStart (path : Path) (group : Nat) (s : State) : Host.Outcome State Fault Refusal :=
  s.row fun s => s.onBusUp path A.RBD_CMD fun s => s.rbdCmd 1 group

/-- PATROL_STOP (R415). -/
def execPatrolStop (path : Path) (s : State) : Host.Outcome State Fault Refusal :=
  s.row fun s => s.onBusUp path A.RBD_CMD fun s => s.rbdCmd 2 0

/-- RESOLVE (R401). -/
def execResolve (path : Path) (s : State) : Host.Outcome State Fault Refusal :=
  s.row fun s => s.onBusUp path A.RBD_CMD fun s => s.rbdCmd 3 0

/-- RESHAPE_START (R403). -/
def execReshapeStart (path : Path) (s : State) : Host.Outcome State Fault Refusal :=
  s.row fun s => s.onBusUp path A.RBD_CMD fun s => s.rbdCmd 4 0

/-- RESHAPE_ABORT (R408). -/
def execReshapeAbort (path : Path) (s : State) : Host.Outcome State Fault Refusal :=
  s.row fun s => s.onBusUp path A.RBD_CMD fun s => s.rbdCmd 5 0

/-- GROUP_REDEFINE (R414). -/
def execGroupRedefine (path : Path) (group : Nat) (s : State) : Host.Outcome State Fault Refusal :=
  s.row fun s => s.onBusUp path A.RBD_CMD fun s => s.rbdCmd 6 group

/-- RESHAPE_STEP (R405 to R413). -/
def execReshapeStep (s : State) : Host.Outcome State Fault Refusal :=
  s.row fun s => s.ifAwake fun s => s.reshapeStep

end Sys2Proof.Machine
end

