-- ==== Sys2Proof/Machine/ExecReg.lean ====
section
/-!
DEFINITION. General register rows (R5 to R12).
-/

namespace Sys2Proof.Machine

/-- REGISTER_WRITE (R5, R7): a register write from a path. -/
def execRegisterWrite (path : Path) (addr : Nat) (value : Word) (s : State) : Host.Outcome State Fault Refusal :=
  s.row fun s => s.busWrite path addr value

/-- COUNTER_LOW_READ (R8 to R10): the low word is answered, the high word kept, and an RC counter cleared. -/
def execCounterLowRead (path : Path) (addr : Nat) (s : State) : Host.Outcome State Fault Refusal :=
  s.row fun s => s.counterLowRead path addr

/-- PAIR_LOW_WRITE (R11): the low word of a writable pair is held. -/
def execPairLowWrite (path : Path) (addr : Nat) (value : Word) (s : State) : Host.Outcome State Fault Refusal :=
  s.row fun s => s.pairLowWrite path addr value

/-- PAIR_HIGH_WRITE (R11): both words take effect at one instant. -/
def execPairHighWrite (path : Path) (addr : Nat) (value : Word) (s : State) : Host.Outcome State Fault Refusal :=
  s.row fun s => s.pairHighWrite path addr value

/-- RC_FIELD_READ (R705): a register with an RC field is answered and cleared. -/
def execRcFieldRead (path : Path) (addr : Nat) (s : State) : Host.Outcome State Fault Refusal :=
  s.row fun s => s.rcFieldRead path addr

end Sys2Proof.Machine
end

