-- ==== Sys2Proof/Machine/ExecRsv.lean ====
section
/-!
DEFINITION. Read service rows (10_read_service.md). A pending read and a message are named by the model's numbers.
-/

namespace Sys2Proof.Machine

/-- PENDING_READ_READY (R36, R438, R439). -/
def execPendingReadReady (read : Nat) (s : State) : Host.Outcome State Fault Refusal :=
  s.row fun s => s.ifAwake fun s => s.pendReady read

/-- LATENCY_DECAY (R422). -/
def execLatencyDecay (s : State) : Host.Outcome State Fault Refusal :=
  s.row fun s => s.ifAwake fun s => s.latencyDecay

/-- HEDGE_START (R425). -/
def execHedgeStart (read : Nat) (s : State) : Host.Outcome State Fault Refusal :=
  s.row fun s => s.ifAwake fun s => s.hedgeStart read

/-- FILL_DONE (R433). -/
def execFillDone (read : Nat) (s : State) : Host.Outcome State Fault Refusal :=
  s.row fun s => s.ifAwake fun s => s.fillDone read

/-- HOTNESS_DECAY (R430). -/
def execHotnessDecay (s : State) : Host.Outcome State Fault Refusal :=
  s.row fun s => s.ifAwake fun s => s.hotDecay

/-- PIN_HOLD_EXPIRY (R435). -/
def execPinHoldExpiry (s : State) : Host.Outcome State Fault Refusal :=
  s.row fun s => s.ifAwake fun s => s.pinExpiry

/-- GROUP_SEND (R441 to R443). -/
def execGroupSend (slot : Nat) (s : State) : Host.Outcome State Fault Refusal :=
  s.row fun s => s.ifAwake fun s => s.groupSend slot

/-- STOMP_RESEND (R450). -/
def execStompResend (message : Nat) (index : Nat) (s : State) : Host.Outcome State Fault Refusal :=
  s.row fun s => s.ifAwake fun s => s.stompResend message index

end Sys2Proof.Machine
end

