-- ==== Sys2Proof/Machine/ExecStr.lean ====
section
/-!
DEFINITION. Stripe write, journal and dump rows (08_stripe_writes_and_attic.md).
-/

namespace Sys2Proof.Machine

/-- STRIPE_WRITE_ADMIT (R330). -/
def execStripeWriteAdmit (s : State) : Host.Outcome State Fault Refusal :=
  s.row fun s => s.ifAwake fun s => s.admitNext

/-- BUFFER_COMPLETE (R314 to R316, R332): `bad` lists the (member, row) whose drive read fails. -/
def execBufferComplete (write : Nat) (bad : List (Nat × Nat)) (s : State) : Host.Outcome State Fault Refusal :=
  s.row fun s => s.ifAwake fun s => s.bufferComplete write bad

/-- CHECKPOINT (R351). -/
def execCheckpoint (path : Path) (s : State) : Host.Outcome State Fault Refusal :=
  s.row fun s => s.onBusUp path A.STR_CMD fun s => s.strCmd 1 0

/-- PERIODIC_CHECKPOINT (R351, R353). -/
def execPeriodicCheckpoint (s : State) : Host.Outcome State Fault Refusal :=
  s.row fun s => s.ifAwake fun s => s.periodicCkpt

/-- CHECKPOINT_DONE (R351, R352). -/
def execCheckpointDone (s : State) : Host.Outcome State Fault Refusal :=
  s.row fun s => s.ifAwake fun s => s.ckptDone

/-- SHUTDOWN (R356): begins, or goes on. -/
def execShutdown (path : Path) (s : State) : Host.Outcome State Fault Refusal :=
  s.row fun s => s.onBusUp path A.STR_CMD fun s => s.shutdown

/-- DISCARD_GROUP (R338). -/
def execDiscardGroup (path : Path) (group : Nat) (s : State) : Host.Outcome State Fault Refusal :=
  s.row fun s => s.onBusUp path A.STR_CMD fun s => s.strCmd 3 group

/-- POWER_LOSS_ASSERT (R589, R590, R342, R690). -/
def execPowerLossAssert (s : State) : Host.Outcome State Fault Refusal :=
  s.row fun s => s.gate (fun s => decide (s.glb.phase ≠ .held)) fun s => s.powerLoss

/-- DUMP_SEALED (R344, R346, R736). -/
def execDumpSealed (s : State) : Host.Outcome State Fault Refusal :=
  s.row fun s => s.dumpSealed

/-- POWER_HOLD_EXIT (R346). -/
def execPowerHoldExit (s : State) : Host.Outcome State Fault Refusal :=
  s.row fun s => s.powerHoldExit

/-- POWER_LOSS_DEASSERT (R589). -/
def execPowerLossDeassert (s : State) : Host.Outcome State Fault Refusal :=
  s.row fun s => s.gate (fun s => decide (s.glb.phase ≠ .held)) fun s => s.powerBack

/-- REPLAY (R357 to R363): `metaId` is the journal id in the group metadata, `failing` the copies, by bay and journal slot, found not
valid, `media` the (member, row) whose drive reads and writes fail. -/
def execReplay (metaId : Nat) (failing : List (Nat × Nat × CopyFault)) (media : MediaErrors)
    (s : State) : Host.Outcome State Fault Refusal :=
  s.row fun s => s.ifAwake fun s => s.replay metaId failing media.reads media.writes

/-- REPLAY_DONE (R361). -/
def execReplayDone (s : State) : Host.Outcome State Fault Refusal :=
  s.row fun s => s.ifAwake fun s => s.replayDone

end Sys2Proof.Machine
end

