-- ==== Sys2Proof/Machine/ExecTrn.lean ====
section
/-!
DEFINITION. Breren transport rows (04_breren_transport.md).
-/

namespace Sys2Proof.Machine

/-- SEND_PACKET (R158, R161). -/
def execSendPacket (message : Nat) (s : State) : Host.Outcome State Fault Refusal :=
  s.row fun s => s.ifAwake fun s => s.sendRow message

/-- RETRY_TIMER_EXPIRY (R164 to R168). -/
def execRetryTimerExpiry (message : Nat) (index : Nat) (s : State) : Host.Outcome State Fault Refusal :=
  s.row fun s => s.ifAwake fun s => s.retryExpiry message index

/-- MESSAGE_AGE_LIMIT (R166). -/
def execMessageAgeLimit (message : Nat) (s : State) : Host.Outcome State Fault Refusal :=
  s.row fun s => s.ifAwake fun s => s.msgAge message

/-- RECEIVE_REAP (R177). -/
def execReceiveReap (sa : Nat) (id : Nat) (s : State) : Host.Outcome State Fault Refusal :=
  s.row fun s => s.ifAwake fun s => s.rxReap sa id

/-- ACK_DELAY_EXPIRY (R178): of a message, or of the reply to a fetch of the K24. -/
def execAckDelayExpiry (sa : Nat) (id : Nat) (reply : Bool) (s : State) : Host.Outcome State Fault Refusal :=
  s.row fun s => s.ifAwake fun s => s.ackExpiry sa id reply

/-- PROBE_TIMEOUT (R159). -/
def execProbeTimeout (sa : Nat) (way : Nat) (s : State) : Host.Outcome State Fault Refusal :=
  s.row fun s => s.ifAwake fun s => s.probeTimeout sa way

/-- DOWN_PATH_PROBE (R159, Table 04-12). -/
def execDownPathProbe (sa : Nat) (way : Nat) (s : State) : Host.Outcome State Fault Refusal :=
  s.row fun s => s.ifAwake fun s => s.downProbe sa way

/-- SA_SYNC_RETRY (R151). -/
def execSaSyncRetry (sa : Nat) (s : State) : Host.Outcome State Fault Refusal :=
  s.row fun s => s.ifAwake fun s => s.syncRetry sa

/-- DRAINING_EXPIRY (R146, Table 04-11). -/
def execDrainingExpiry (sa : Nat) (s : State) : Host.Outcome State Fault Refusal :=
  s.row fun s => s.ifAwake fun s => s.drainExpiry sa

/-- CWND_GROWTH (R168). -/
def execCwndGrowth (sa : Nat) (s : State) : Host.Outcome State Fault Refusal :=
  s.row fun s => s.ifAwake fun s => s.cwndGrow sa

/-- ACTIVATE (R181, R464, R485): the entry that TRN_SA_SEL names. -/
def execSaActivate (path : Path) (s : State) : Host.Outcome State Fault Refusal :=
  s.row fun s => s.onBus path A.TRN_SA_CMD fun s => s.saCmd 1 0

/-- INVALIDATE (R146, Table 04-11). -/
def execSaInvalidate (path : Path) (s : State) : Host.Outcome State Fault Refusal :=
  s.row fun s => s.onBus path A.TRN_SA_CMD fun s => s.saCmd 2 0

/-- SA_RESUME_CMD (R152, R154, R485). -/
def execSaResume (path : Path) (s : State) : Host.Outcome State Fault Refusal :=
  s.row fun s => s.onBus path A.TRN_SA_CMD fun s => s.saCmd 3 0

/-- SA_SWITCH_CMD (R157). -/
def execSaSwitch (path : Path) (successor : Nat) (s : State) : Host.Outcome State Fault Refusal :=
  s.row fun s => s.onBus path A.TRN_SA_CMD fun s => s.saCmd 4 successor

/-- TRN_SA_WORD_WRITE (R181). -/
def execSaWordWrite (path : Path) (word : Nat) (value : Word) (s : State) : Host.Outcome State Fault Refusal :=
  s.row fun s => s.onBus path (A.TRN_SA_WORD word) fun s => (if word < 64 then s.saWrite word value else s)

/-- SA_HELD_MESSAGE_START (R751, R467). -/
def execSaHeldMessageStart (s : State) : Host.Outcome State Fault Refusal :=
  s.row fun s => s.ifAwake fun s => s.heldStart

end Sys2Proof.Machine
end

