-- ==== Sys2Proof/Machine/ExecVol.lean ====
section
/-!
DEFINITION. Volume mapper rows (07_volumes_and_blocks.md).
-/

namespace Sys2Proof.Machine

/-- VOL_READ (R311). -/
def execVolRead (path : Path) (s : State) : Host.Outcome State Fault Refusal :=
  s.row fun s => s.onBusUp path A.VOL_CMD fun s => s.volCmd 1

/-- VOL_WRITE (R311). -/
def execVolWrite (path : Path) (s : State) : Host.Outcome State Fault Refusal :=
  s.row fun s => s.onBusUp path A.VOL_CMD fun s => s.volCmd 2

/-- EXTENT_COMMIT (R288). -/
def execExtentCommit (s : State) : Host.Outcome State Fault Refusal :=
  s.row fun s => s.ifAwake fun s => s.extWaitDone

/-- VOL_ACTIVATE (R301). -/
def execVolActivate (path : Path) (s : State) : Host.Outcome State Fault Refusal :=
  s.row fun s => s.onBusUp path A.VOL_CMD fun s => s.volCmd 3

/-- DEACTIVATE (R305). -/
def execVolDeactivate (path : Path) (s : State) : Host.Outcome State Fault Refusal :=
  s.row fun s => s.onBusUp path A.VOL_CMD fun s => s.volCmd 4

/-- DEACTIVATE_DONE (R305). -/
def execDeactivateDone (s : State) : Host.Outcome State Fault Refusal :=
  s.row fun s => s.ifAwake fun s => s.deactivateDone

/-- INIT (R289). -/
def execVolInit (path : Path) (s : State) : Host.Outcome State Fault Refusal :=
  s.row fun s => s.onBusUp path A.VOL_CMD fun s => s.volCmd 5

/-- INIT_DONE (R289). -/
def execInitDone (s : State) : Host.Outcome State Fault Refusal :=
  s.row fun s => s.ifAwake fun s => s.initDone

end Sys2Proof.Machine
end

