-- ==== Sys2Proof/Machine/ExecWdn.lean ====
section
/-!
DEFINITION. Warden and Stocktake rows (16_wardens.md).
-/

namespace Sys2Proof.Machine

/-- DISAGREEMENT (R606, R607): the core in the minority at a voting site. -/
def execDisagreement (core : Nat) (site : Nat) (s : State) : Host.Outcome State Fault Refusal :=
  s.row fun s => s.ifAwake fun s => s.disagreement core site

/-- SIGNATURE_COMPARE (R606): every 1 ms. -/
def execSignatureCompare (s : State) : Host.Outcome State Fault Refusal :=
  s.row fun s => s.ifAwake fun s => s.signatures

/-- MEMORY_SWEEP (R606, R615): every 100 ms; words found uncorrectable, as (core, word). -/
def execMemorySweep (bad : List (Nat × Nat)) (s : State) : Host.Outcome State Fault Refusal :=
  s.row fun s => s.ifAwake fun s => s.memorySweep bad

/-- WARDEN_RESTART (R608): the cores whose self-test fails. -/
def execWardenRestart (failing : List Nat) (s : State) : Host.Outcome State Fault Refusal :=
  s.row fun s => s.ifAwake fun s => s.wardenRestart failing

/-- FENCE_EXPIRY (R609). -/
def execFenceExpiry (core : Nat) (s : State) : Host.Outcome State Fault Refusal :=
  s.row fun s => s.ifAwake fun s => s.fenceExpiry core

/-- BIST_DONE (R609). -/
def execBistDone (core : Nat) (pass : Bool) (s : State) : Host.Outcome State Fault Refusal :=
  s.row fun s => s.ifAwake fun s => s.bistDone core pass

/-- RESYNC_COPY (R610, R611). -/
def execResyncCopy (core : Nat) (s : State) : Host.Outcome State Fault Refusal :=
  s.row fun s => s.ifAwake fun s => s.resyncCopy core

/-- FENCE (R612). -/
def execCoreFence (path : Path) (core : Nat) (s : State) : Host.Outcome State Fault Refusal :=
  s.row fun s => s.onBus path A.WDN_CMD fun s => s.wdnCmd 1 core

/-- RESYNC (R609). -/
def execCoreResync (path : Path) (core : Nat) (s : State) : Host.Outcome State Fault Refusal :=
  s.row fun s => s.onBus path A.WDN_CMD fun s => s.wdnCmd 2 core

/-- RETIRE (R609, R612). -/
def execCoreRetire (path : Path) (core : Nat) (s : State) : Host.Outcome State Fault Refusal :=
  s.row fun s => s.onBus path A.WDN_CMD fun s => s.wdnCmd 3 core

/-- WDN_ACTIVATE (R627). -/
def execWdnActivate (path : Path) (s : State) : Host.Outcome State Fault Refusal :=
  s.row fun s => s.onBus path A.WDN_CMD fun s => s.wdnCmd 4 0

/-- WDN_RAISE_FLOOR (R628). -/
def execWdnRaiseFloor (path : Path) (s : State) : Host.Outcome State Fault Refusal :=
  s.row fun s => s.onBus path A.WDN_CMD fun s => s.wdnCmd 5 0

/-- WFI (R604). -/
def execWfi (s : State) : Host.Outcome State Fault Refusal :=
  s.row fun s => s.ifAwake fun s => s.wfi

/-- TIMER_INTERRUPT (R602). -/
def execTimerInterrupt (s : State) : Host.Outcome State Fault Refusal :=
  s.row fun s => s.ifAwake fun s => s.timerInterrupt

/-- STOCKTAKE_TEST (R616, R617, Table 16-6). -/
def execStocktakeTest (item : Nat) (inst : Nat) (failed : Bool) (s : State) : Host.Outcome State Fault Refusal :=
  s.row fun s => s.ifAwake fun s => s.stocktake item inst failed

/-- STOCK_REPORT (R618): every 1 s. -/
def execStockReport (s : State) : Host.Outcome State Fault Refusal :=
  s.row fun s => s.ifManaged fun s => s.stockReport

/-- WDN_REPORT_READ (R620). -/
def execWdnReportRead (path : Path) (s : State) : Host.Outcome State Fault Refusal :=
  s.row fun s => s.readAnswer path (A.WDN_REPORT 0)

end Sys2Proof.Machine
end

