-- ==== Sys2Proof/Machine/ExecWin.lean ====
section
/-!
DEFINITION. Window rows (05_windows_and_placement.md).
-/

namespace Sys2Proof.Machine

/-- BIND (R184, R186): the key that WIN_SEL names. -/
def execKeyBind (path : Path) (s : State) : Host.Outcome State Fault Refusal :=
  s.row fun s => s.onBus path A.WIN_CMD fun s => s.winCmd 1

/-- ROTATE (R218, R219). -/
def execKeyRotate (path : Path) (s : State) : Host.Outcome State Fault Refusal :=
  s.row fun s => s.onBus path A.WIN_CMD fun s => s.winCmd 2

/-- REVOKE (R218, R219). -/
def execKeyRevoke (path : Path) (s : State) : Host.Outcome State Fault Refusal :=
  s.row fun s => s.onBus path A.WIN_CMD fun s => s.winCmd 3

/-- WIN_WORD_WRITE (R225). -/
def execWinWordWrite (path : Path) (word : Nat) (value : Word) (s : State) : Host.Outcome State Fault Refusal :=
  s.row fun s => s.onBus path (A.WIN_WORD word) fun s => (if word < 8 then s.keyWrite word value else s)

/-- ACCESS_END (R194). -/
def execAccessEnd (access : Nat) (s : State) : Host.Outcome State Fault Refusal :=
  s.row fun s => s.ifAwake fun s => s.accessEnd access

/-- RETIRED_KEY_EXPIRY (R218, Table 05-4). -/
def execRetiredKeyExpiry (key : Nat) (s : State) : Host.Outcome State Fault Refusal :=
  s.row fun s => s.ifAwake fun s => s.retiredExpiry key

/-- COMMIT_PLACE_WRITE (R212). -/
def execCommitPlaceWrite (s : State) : Host.Outcome State Fault Refusal :=
  s.row fun s => s.ifAwake fun s => s.commitRow

end Sys2Proof.Machine
end

