-- ==== Sys2Proof/Machine/Dispatch.lean ====
section
/-!
DEFINITION. The dispatch of a command to its meaning: one arm per row of the command table.
-/

namespace Sys2Proof.Machine

/-- The effect of a command on everything but the queue of waiting commands. -/
def exec (i : Instr) (s : State) : Host.Outcome State Fault Refusal :=
  match i with
  | .registerWrite path addr value => Sys2Proof.Machine.execRegisterWrite path addr value s
  | .counterLowRead path addr => Sys2Proof.Machine.execCounterLowRead path addr s
  | .pairLowWrite path addr value => Sys2Proof.Machine.execPairLowWrite path addr value s
  | .pairHighWrite path addr value => Sys2Proof.Machine.execPairHighWrite path addr value s
  | .rcFieldRead path addr => Sys2Proof.Machine.execRcFieldRead path addr s
  | .loadOpen path => Sys2Proof.Machine.execLoadOpen path s
  | .invDataWrite path value => Sys2Proof.Machine.execInvDataWrite path value s
  | .commitFull path => Sys2Proof.Machine.execCommitFull path s
  | .commitPartial path => Sys2Proof.Machine.execCommitPartial path s
  | .abortLoad path => Sys2Proof.Machine.execAbortLoad path s
  | .loadIdleTimeout => Sys2Proof.Machine.execLoadIdleTimeout s
  | .keyProgram path slot => Sys2Proof.Machine.execKeyProgram path slot s
  | .raiseFloor path => Sys2Proof.Machine.execRaiseFloor path s
  | .keyslotRevoke path slot => Sys2Proof.Machine.execKeyslotRevoke path slot s
  | .residentCheck damaged => Sys2Proof.Machine.execResidentCheck damaged s
  | .cellIngress agent header payload => Sys2Proof.Machine.execCellIngress agent header payload s
  | .cellTime damage bad misplaced => Sys2Proof.Machine.execCellTime damage bad misplaced s
  | .writeCellCommit group => Sys2Proof.Machine.execWriteCellCommit group s
  | .writeAckReceived agent => Sys2Proof.Machine.execWriteAckReceived agent s
  | .writeAckTimeout flow seq => Sys2Proof.Machine.execWriteAckTimeout flow seq s
  | .egressCellArrival agent damage => Sys2Proof.Machine.execEgressCellArrival agent damage s
  | .reseqTimeout flow => Sys2Proof.Machine.execReseqTimeout flow s
  | .cellarScrub granule finding => Sys2Proof.Machine.execCellarScrub granule finding s
  | .ce24hClear => Sys2Proof.Machine.execCe24hClear s
  | .hstRetireGo path pc => Sys2Proof.Machine.execHstRetireGo path pc s
  | .pcFailure pc noAnswer => Sys2Proof.Machine.execPcFailure pc noAnswer s
  | .pinWaitEnd => Sys2Proof.Machine.execPinWaitEnd s
  | .sliceSwitch => Sys2Proof.Machine.execSliceSwitch s
  | .pantryScrub bank row corrected poisoned used => Sys2Proof.Machine.execPantryScrub bank row corrected poisoned used s
  | .sendPacket message => Sys2Proof.Machine.execSendPacket message s
  | .retryTimerExpiry message index => Sys2Proof.Machine.execRetryTimerExpiry message index s
  | .messageAgeLimit message => Sys2Proof.Machine.execMessageAgeLimit message s
  | .receiveReap sa id => Sys2Proof.Machine.execReceiveReap sa id s
  | .ackDelayExpiry sa id reply => Sys2Proof.Machine.execAckDelayExpiry sa id reply s
  | .probeTimeout sa way => Sys2Proof.Machine.execProbeTimeout sa way s
  | .downPathProbe sa way => Sys2Proof.Machine.execDownPathProbe sa way s
  | .saSyncRetry sa => Sys2Proof.Machine.execSaSyncRetry sa s
  | .drainingExpiry sa => Sys2Proof.Machine.execDrainingExpiry sa s
  | .cwndGrowth sa => Sys2Proof.Machine.execCwndGrowth sa s
  | .saActivate path => Sys2Proof.Machine.execSaActivate path s
  | .saInvalidate path => Sys2Proof.Machine.execSaInvalidate path s
  | .saResume path => Sys2Proof.Machine.execSaResume path s
  | .saSwitch path successor => Sys2Proof.Machine.execSaSwitch path successor s
  | .saWordWrite path word value => Sys2Proof.Machine.execSaWordWrite path word value s
  | .saHeldMessageStart => Sys2Proof.Machine.execSaHeldMessageStart s
  | .keyBind path => Sys2Proof.Machine.execKeyBind path s
  | .keyRotate path => Sys2Proof.Machine.execKeyRotate path s
  | .keyRevoke path => Sys2Proof.Machine.execKeyRevoke path s
  | .winWordWrite path word value => Sys2Proof.Machine.execWinWordWrite path word value s
  | .accessEnd access => Sys2Proof.Machine.execAccessEnd access s
  | .retiredKeyExpiry key => Sys2Proof.Machine.execRetiredKeyExpiry key s
  | .commitPlaceWrite => Sys2Proof.Machine.execCommitPlaceWrite s
  | .capsuleAccept => Sys2Proof.Machine.execCapsuleAccept s
  | .orderedRelease command => Sys2Proof.Machine.execOrderedRelease command s
  | .readCommand command => Sys2Proof.Machine.execReadCommand command s
  | .writeCommand command => Sys2Proof.Machine.execWriteCommand command s
  | .flushCommand command => Sys2Proof.Machine.execFlushCommand command s
  | .verifyCommand command bad wbad => Sys2Proof.Machine.execVerifyCommand command bad wbad s
  | .zeroCommand command => Sys2Proof.Machine.execZeroCommand command s
  | .completionPoint command => Sys2Proof.Machine.execCompletionPoint command s
  | .commandTimeout command => Sys2Proof.Machine.execCommandTimeout command s
  | .queueCreate command => Sys2Proof.Machine.execQueueCreate command s
  | .queueDelete command => Sys2Proof.Machine.execQueueDelete command s
  | .queueReset command => Sys2Proof.Machine.execQueueReset command s
  | .adminAbort command => Sys2Proof.Machine.execAdminAbort command s
  | .selfTestStart command => Sys2Proof.Machine.execSelfTestStart command s
  | .selfTestAbort command => Sys2Proof.Machine.execSelfTestAbort command s
  | .selfTestResult command => Sys2Proof.Machine.execSelfTestResult command s
  | .identify command => Sys2Proof.Machine.execIdentify command s
  | .logRead command => Sys2Proof.Machine.execLogRead command s
  | .featureGet command => Sys2Proof.Machine.execFeatureGet command s
  | .featureSet command => Sys2Proof.Machine.execFeatureSet command s
  | .firmwareSegment command => Sys2Proof.Machine.execFirmwareSegment command s
  | .firmwareActivate command => Sys2Proof.Machine.execFirmwareActivate command s
  | .controllerReset path => Sys2Proof.Machine.execControllerReset path s
  | .epEnable path endpoint => Sys2Proof.Machine.execEpEnable path endpoint s
  | .epDisable path endpoint => Sys2Proof.Machine.execEpDisable path endpoint s
  | .volRead path => Sys2Proof.Machine.execVolRead path s
  | .volWrite path => Sys2Proof.Machine.execVolWrite path s
  | .extentCommit => Sys2Proof.Machine.execExtentCommit s
  | .volActivate path => Sys2Proof.Machine.execVolActivate path s
  | .volDeactivate path => Sys2Proof.Machine.execVolDeactivate path s
  | .deactivateDone => Sys2Proof.Machine.execDeactivateDone s
  | .volInit path => Sys2Proof.Machine.execVolInit path s
  | .initDone => Sys2Proof.Machine.execInitDone s
  | .stripeWriteAdmit => Sys2Proof.Machine.execStripeWriteAdmit s
  | .bufferComplete write bad => Sys2Proof.Machine.execBufferComplete write bad s
  | .checkpoint path => Sys2Proof.Machine.execCheckpoint path s
  | .periodicCheckpoint => Sys2Proof.Machine.execPeriodicCheckpoint s
  | .checkpointDone => Sys2Proof.Machine.execCheckpointDone s
  | .shutdown path => Sys2Proof.Machine.execShutdown path s
  | .discardGroup path group => Sys2Proof.Machine.execDiscardGroup path group s
  | .powerLossAssert => Sys2Proof.Machine.execPowerLossAssert s
  | .dumpSealed => Sys2Proof.Machine.execDumpSealed s
  | .powerHoldExit => Sys2Proof.Machine.execPowerHoldExit s
  | .powerLossDeassert => Sys2Proof.Machine.execPowerLossDeassert s
  | .replay metaId failing media => Sys2Proof.Machine.execReplay metaId failing media s
  | .replayDone => Sys2Proof.Machine.execReplayDone s
  | .memberStateChange group member => Sys2Proof.Machine.execMemberStateChange group member s
  | .rebuildStripe group bad wbad => Sys2Proof.Machine.execRebuildStripe group bad wbad s
  | .rebuildRecord => Sys2Proof.Machine.execRebuildRecord s
  | .patrolStripe group bad wbad => Sys2Proof.Machine.execPatrolStripe group bad wbad s
  | .patrolLate group => Sys2Proof.Machine.execPatrolLate group s
  | .patrolStart path group => Sys2Proof.Machine.execPatrolStart path group s
  | .patrolStop path => Sys2Proof.Machine.execPatrolStop path s
  | .resolve path => Sys2Proof.Machine.execResolve path s
  | .reshapeStart path => Sys2Proof.Machine.execReshapeStart path s
  | .reshapeAbort path => Sys2Proof.Machine.execReshapeAbort path s
  | .groupRedefine path group => Sys2Proof.Machine.execGroupRedefine path group s
  | .reshapeStep => Sys2Proof.Machine.execReshapeStep s
  | .pendingReadReady read => Sys2Proof.Machine.execPendingReadReady read s
  | .latencyDecay => Sys2Proof.Machine.execLatencyDecay s
  | .hedgeStart read => Sys2Proof.Machine.execHedgeStart read s
  | .fillDone read => Sys2Proof.Machine.execFillDone read s
  | .hotnessDecay => Sys2Proof.Machine.execHotnessDecay s
  | .pinHoldExpiry => Sys2Proof.Machine.execPinHoldExpiry s
  | .groupSend slot => Sys2Proof.Machine.execGroupSend slot s
  | .stompResend message index => Sys2Proof.Machine.execStompResend message index s
  | .install path kind slot => Sys2Proof.Machine.execInstall path kind slot s
  | .installDone => Sys2Proof.Machine.execInstallDone s
  | .cipClear path kind slot => Sys2Proof.Machine.execCipClear path kind slot s
  | .zeroise path confirm => Sys2Proof.Machine.execZeroise path confirm s
  | .alarmOnset cause => Sys2Proof.Machine.execAlarmOnset cause s
  | .level2ZeroingDone => Sys2Proof.Machine.execLevel2ZeroingDone s
  | .pipeCheckFail pipe what => Sys2Proof.Machine.execPipeCheckFail pipe what s
  | .pipeRetiredWrite path word value => Sys2Proof.Machine.execPipeRetiredWrite path word value s
  | .counterMarkLanded sa => Sys2Proof.Machine.execCounterMarkLanded sa s
  | .jobStart path channel => Sys2Proof.Machine.execJobStart path channel s
  | .jobCancel path channel => Sys2Proof.Machine.execJobCancel path channel s
  | .jobEnd channel => Sys2Proof.Machine.execJobEnd channel s
  | .frameReceive sp corrected uncorrected broken bytes => Sys2Proof.Machine.execFrameReceive sp corrected uncorrected broken bytes s
  | .linkChange sp up energy => Sys2Proof.Machine.execLinkChange sp up energy s
  | .preemptVerify sp ok => Sys2Proof.Machine.execPreemptVerify sp ok s
  | .pauseXoff port => Sys2Proof.Machine.execPauseXoff port s
  | .pauseXon port => Sys2Proof.Machine.execPauseXon port s
  | .watchdogBreak sp prio => Sys2Proof.Machine.execWatchdogBreak sp prio s
  | .holdOffEnd sp => Sys2Proof.Machine.execHoldOffEnd sp s
  | .frameTransmit turn => Sys2Proof.Machine.execFrameTransmit turn s
  | .counterSnap path => Sys2Proof.Machine.execCounterSnap path s
  | .counterRelease path => Sys2Proof.Machine.execCounterRelease path s
  | .mdioOp path value => Sys2Proof.Machine.execMdioOp path value s
  | .mdioDone data => Sys2Proof.Machine.execMdioDone data s
  | .histogramSample => Sys2Proof.Machine.execHistogramSample s
  | .insertionRecognised insertion => Sys2Proof.Machine.execInsertionRecognised insertion s
  | .removalRecognised bay => Sys2Proof.Machine.execRemovalRecognised bay s
  | .perstRelease bay => Sys2Proof.Machine.execPerstRelease bay s
  | .driveLinkUp bay rate width nvme => Sys2Proof.Machine.execDriveLinkUp bay rate width nvme s
  | .trainingTimeout bay => Sys2Proof.Machine.execTrainingTimeout bay s
  | .driveLinkDown loss => Sys2Proof.Machine.execDriveLinkDown loss s
  | .driveLost bay fatal => Sys2Proof.Machine.execDriveLost bay fatal s
  | .retrainTimeout bay => Sys2Proof.Machine.execRetrainTimeout bay s
  | .bayPowerGone bay => Sys2Proof.Machine.execBayPowerGone bay s
  | .portStart path bay => Sys2Proof.Machine.execPortStart path bay s
  | .portReady path bay => Sys2Proof.Machine.execPortReady path bay s
  | .portUnfit path bay => Sys2Proof.Machine.execPortUnfit path bay s
  | .portRelease path bay => Sys2Proof.Machine.execPortRelease path bay s
  | .msixScan bay message => Sys2Proof.Machine.execMsixScan bay message s
  | .resvRegister path bay => Sys2Proof.Machine.execResvRegister path bay s
  | .resvAcquire path bay => Sys2Proof.Machine.execResvAcquire path bay s
  | .resvPreempt path bay => Sys2Proof.Machine.execResvPreempt path bay s
  | .resvReport path bay => Sys2Proof.Machine.execResvReport path bay s
  | .resvDone bay code holder => Sys2Proof.Machine.execResvDone bay code holder s
  | .nvmeMiPoll bay reply => Sys2Proof.Machine.execNvmeMiPoll bay reply s
  | .channelEnable path channel sub => Sys2Proof.Machine.execChannelEnable path channel sub s
  | .channelDisable path channel sub => Sys2Proof.Machine.execChannelDisable path channel sub s
  | .powerGoodGiven channel sub => Sys2Proof.Machine.execPowerGoodGiven channel sub s
  | .powerGoodLost channel sub => Sys2Proof.Machine.execPowerGoodLost channel sub s
  | .breakerTrip channel sub => Sys2Proof.Machine.execBreakerTrip channel sub s
  | .timerTrip channel sub => Sys2Proof.Machine.execTimerTrip channel sub s
  | .inrushTrip channel sub => Sys2Proof.Machine.execInrushTrip channel sub s
  | .latchRelease channel sub => Sys2Proof.Machine.execLatchRelease channel sub s
  | .reverseCurrent channel sub off => Sys2Proof.Machine.execReverseCurrent channel sub off s
  | .telemetryUpdate samples => Sys2Proof.Machine.execTelemetryUpdate samples s
  | .bayTelSelWrite path value => Sys2Proof.Machine.execBayTelSelWrite path value s
  | .disagreement core site => Sys2Proof.Machine.execDisagreement core site s
  | .signatureCompare => Sys2Proof.Machine.execSignatureCompare s
  | .memorySweep bad => Sys2Proof.Machine.execMemorySweep bad s
  | .wardenRestart failing => Sys2Proof.Machine.execWardenRestart failing s
  | .fenceExpiry core => Sys2Proof.Machine.execFenceExpiry core s
  | .bistDone core pass => Sys2Proof.Machine.execBistDone core pass s
  | .resyncCopy core => Sys2Proof.Machine.execResyncCopy core s
  | .coreFence path core => Sys2Proof.Machine.execCoreFence path core s
  | .coreResync path core => Sys2Proof.Machine.execCoreResync path core s
  | .coreRetire path core => Sys2Proof.Machine.execCoreRetire path core s
  | .wdnActivate path => Sys2Proof.Machine.execWdnActivate path s
  | .wdnRaiseFloor path => Sys2Proof.Machine.execWdnRaiseFloor path s
  | .wfi => Sys2Proof.Machine.execWfi s
  | .timerInterrupt => Sys2Proof.Machine.execTimerInterrupt s
  | .stocktakeTest item inst failed => Sys2Proof.Machine.execStocktakeTest item inst failed s
  | .stockReport => Sys2Proof.Machine.execStockReport s
  | .wdnReportRead path => Sys2Proof.Machine.execWdnReportRead path s
  | .peerFrameReceive bytes => Sys2Proof.Machine.execPeerFrameReceive bytes s
  | .peerRetransmit => Sys2Proof.Machine.execPeerRetransmit s
  | .sidebandFrameReceive bytes => Sys2Proof.Machine.execSidebandFrameReceive bytes s
  | .sidebandHeartbeatSend => Sys2Proof.Machine.execSidebandHeartbeatSend s
  | .sidebandWake => Sys2Proof.Machine.execSidebandWake s
  | .sidebandWakeAck => Sys2Proof.Machine.execSidebandWakeAck s
  | .peerLinkLost => Sys2Proof.Machine.execPeerLinkLost s
  | .sidebandLost => Sys2Proof.Machine.execSidebandLost s
  | .arbitrationDecide => Sys2Proof.Machine.execArbitrationDecide s
  | .mirrorWaitExpiry => Sys2Proof.Machine.execMirrorWaitExpiry s
  | .mirrorFail write => Sys2Proof.Machine.execMirrorFail write s
  | .handoverGive path groups => Sys2Proof.Machine.execHandoverGive path groups s
  | .handoverQuiesced => Sys2Proof.Machine.execHandoverQuiesced s
  | .handoverWaitExpiry command => Sys2Proof.Machine.execHandoverWaitExpiry command s
  | .takeover path groups => Sys2Proof.Machine.execTakeover path groups s
  | .takeoverDone failing media => Sys2Proof.Machine.execTakeoverDone failing media s
  | .peerOpen path groups => Sys2Proof.Machine.execPeerOpen path groups s
  | .peerYield path => Sys2Proof.Machine.execPeerYield path s
  | .peerJoin path => Sys2Proof.Machine.execPeerJoin path s
  | .setOwn path groups => Sys2Proof.Machine.execSetOwn path groups s
  | .modeRequest path mode => Sys2Proof.Machine.execModeRequest path mode s
  | .modeCommit => Sys2Proof.Machine.execModeCommit s
  | .drainTimeout => Sys2Proof.Machine.execDrainTimeout s
  | .modeEntryDone => Sys2Proof.Machine.execModeEntryDone s
  | .powerWake alertLow => Sys2Proof.Machine.execPowerWake alertLow s
  | .exitDone lost damaged => Sys2Proof.Machine.execExitDone lost damaged s
  | .wakePeer path => Sys2Proof.Machine.execWakePeer path s
  | .islandLoopTick island failed margin => Sys2Proof.Machine.execIslandLoopTick island failed margin s
  | .avsUpdate acked => Sys2Proof.Machine.execAvsUpdate acked s
  | .ledgerRead src port id count addr => Sys2Proof.Machine.execLedgerRead src port id count addr s
  | .ledgerWrite src port id addr words => Sys2Proof.Machine.execLedgerWrite src port id addr words s
  | .writeFixed src port id addr words => Sys2Proof.Machine.execWriteFixed src port id addr words s
  | .smbusBlockWrite port bytes pecOk => Sys2Proof.Machine.execSmbusBlockWrite port bytes pecOk s
  | .smbusBlockRead port => Sys2Proof.Machine.execSmbusBlockRead port s
  | .tallyAdvance path count => Sys2Proof.Machine.execTallyAdvance path count s
  | .tallyRecRead path => Sys2Proof.Machine.execTallyRecRead path s
  | .tallyAppend path => Sys2Proof.Machine.execTallyAppend path s
  | .eventFrameSend => Sys2Proof.Machine.execEventFrameSend s
  | .startShort path => Sys2Proof.Machine.execStartShort path s
  | .startExtended path => Sys2Proof.Machine.execStartExtended path s
  | .stAbort path => Sys2Proof.Machine.execStAbort path s
  | .selfTestEnd items => Sys2Proof.Machine.execSelfTestEnd items s
  | .fwOpen path => Sys2Proof.Machine.execFwOpen path s
  | .fwDataWrite path value => Sys2Proof.Machine.execFwDataWrite path value s
  | .verifyStage path => Sys2Proof.Machine.execVerifyStage path s
  | .fwActivate path => Sys2Proof.Machine.execFwActivate path s
  | .dbgDataWrite path value => Sys2Proof.Machine.execDbgDataWrite path value s
  | .dbgOpen path => Sys2Proof.Machine.execDbgOpen path s
  | .dbgCommit path => Sys2Proof.Machine.execDbgCommit path s
  | .powerOnReset => Sys2Proof.Machine.execPowerOnReset s
  | .resetPin => Sys2Proof.Machine.execResetPin s
  | .glbReset path confirm => Sys2Proof.Machine.execGlbReset path confirm s
  | .bootStart fwMs flashMode failing => Sys2Proof.Machine.execBootStart fwMs flashMode failing s
  | .pgInLow => Sys2Proof.Machine.execPgInLow s
  | .spiRead path length => Sys2Proof.Machine.execSpiRead path length s
  | .spiProgram path length => Sys2Proof.Machine.execSpiProgram path length s
  | .erase4k path => Sys2Proof.Machine.execErase4k path s
  | .erase64k path => Sys2Proof.Machine.execErase64k path s
  | .spiDone timeout => Sys2Proof.Machine.execSpiDone timeout s
  | .therm temp => Sys2Proof.Machine.execTherm temp s
  | .limitingStart channel sub => Sys2Proof.Machine.execLimitingStart channel sub s
  | .limitingEnd channel sub => Sys2Proof.Machine.execLimitingEnd channel sub s
  | .alarmConditionEnd cause => Sys2Proof.Machine.execAlarmConditionEnd cause s
  | .suspectProbeSend sa way => Sys2Proof.Machine.execSuspectProbeSend sa way s
  | .pauseTimerExpiry sp => Sys2Proof.Machine.execPauseTimerExpiry sp s
  | .mgtLinkChange up speed energy => Sys2Proof.Machine.execMgtLinkChange up speed energy s
  | .clkreqChange bay asserted => Sys2Proof.Machine.execClkreqChange bay asserted s
  | .groupCopyPinRelease => Sys2Proof.Machine.execGroupCopyPinRelease s
  | .tallyRecordAge => Sys2Proof.Machine.execTallyRecordAge s
  | .peerLinkGroupChange mask => Sys2Proof.Machine.execPeerLinkGroupChange mask s

end Sys2Proof.Machine
end

