-- ==== Sys2Proof/Safety.lean ====
section
/-!
DEFINITION. What a safe run of the block is: every step answers a next state, and the commands are taken in order. With it
stands what lets a unit act at once, where several statements name it.
-/

namespace Sys2Proof.Machine

/-- A step that is safe: it answers a next state and takes exactly the command at the front of the queue. -/
def SafeStep (s : State) : Prop := ∃ t, step s = .next t ∧ t.pending = s.pending.tail

/-- A packet of an SA is sent at once: the transport engine is enabled, the SA sends at all, its counter is below the limit of
R466 and below its mark, and no packet of it waits for a mark (R146, R463, R466, R127, Table 04-15). -/
def State.saSends (s : State) (sa : Nat) : Prop :=
  s.is F.TRN_CTRL_EN = true ∧ s.saState sa ≠ Sas.invalid ∧ s.saGet sa Sa.txCounter < 2 ^ 63 ∧ (s.aux sa).stopped = false ∧
    s.saGet sa Sa.txCounter < s.saMark sa ∧ (s.trn.blocked.any fun b => b.sa == sa) = false

/-- Between two states a dump has been written: its records stand unsealed, the Attic is as it was otherwise, and only a write
already issued can have reached a drive (R343 to R345). -/
def State.dumpedTo (s t : State) : Prop :=
  t.attic = { s.attic with dump := s.allRecords, dumpSealed := false, sealed := none } ∧
  ∀ b, (∀ c ∈ s.drv.cmds, c.write = true → c.queue.isSome = true → c.bay ≠ b) → Tab.find? b t.drives = Tab.find? b s.drives

end Sys2Proof.Machine
end

