-- ==== Sys2Proof/Certificates/Slice0/Obligations.lean ====
section
/-!
DEFINITION. The statements about the K24 for the provers. A row's statement names the state it answers under conditions on
the state before and the operands alone; whatever a clause does not name is left as it was.
-/

open Sys2Proof Sys2Proof.Machine

/-! ### The queue and the registers (00_scope.md) -/

/-- With a command at the front of the queue, a step is that command's effect on the state with the queue's rest; with
nothing waiting, 40 ns pass (the model's choice, assumption 5). -/
def Obligations.StepTakesFrontCommand : Prop :=
  (∀ (c : Instr) (rest : List Instr) (s : State), step { s with pending := c :: rest } = exec c { s with pending := rest }) ∧
  (∀ s : State, s.pending = [] → step s = .next { s with now := s.now + 40 })

/-- Every command of the table answers a next state, and takes or adds no waiting command. Every step answers a next state and takes
exactly the front of the queue. -/
def Obligations.EveryCommandAnswers : Prop :=
  (∀ (c : Instr) (s : State), ∃ t, exec c s = .next t ∧ t.pending = s.pending) ∧
  (∀ s : State, SafeStep s)

/-- A register access, written or read, ignores address bits 1:0 (R5); a reserved address ignores a write and reads 0 (R6). -/
def Obligations.ReservedAddresses : Prop :=
  (∀ (p : Path) (a : Nat) (v : Word) (s : State),
    exec (.registerWrite p a v) s = exec (.registerWrite p (a / 4 * 4) v) s ∧ s.busRead p a = s.busRead p (a / 4 * 4)) ∧
  (∀ (p : Path) (a : Nat) (v : Word) (s : State), regDesc (a / 4 * 4) = none →
    exec (.registerWrite p a v) s = .next s ∧ s.busRead p a = (0, s))

/-- A write of a register that is only stored changes its fields by their access types and nothing else (R7): RW takes the
value, RWL takes it before the Inventory lock, W1C clears the ones written, RO and RC keep theirs. -/
def Obligations.RegisterWriteByAccessType : Prop :=
  ∀ (p : Path) (a : Nat) (v : Word) (d : RegDesc) (s : State),
    s.busOn = true → s.modeLets p a = true → regDesc (a / 4 * 4) = some d → d.pair = false →
    s.writeCmd p d (a / 4 * 4) v = none →
    ∃ t, exec (.registerWrite p a v) s = .next t ∧ t = { s with regs := t.regs } ∧
      (∀ b, b ≠ a / 4 * 4 → t.word b = s.word b) ∧
      ∀ f ∈ d.fields,
        (f.acc = .rw → getBits (t.word (a / 4 * 4)) f.lo f.width = getBits v f.lo f.width) ∧
        (f.acc = .rwl → getBits (t.word (a / 4 * 4)) f.lo f.width =
          getBits (if s.inv.lock then s.word (a / 4 * 4) else v) f.lo f.width) ∧
        (f.acc = .w1c → getBits (t.word (a / 4 * 4)) f.lo f.width = getBits (s.word (a / 4 * 4) &&& ~~~v) f.lo f.width) ∧
        (f.acc = .ro ∨ f.acc = .rc → getBits (t.word (a / 4 * 4)) f.lo f.width = getBits (s.word (a / 4 * 4)) f.lo f.width)

/-- COUNTER_LOW_READ answers the low word of a 64-bit pair, keeps the high word in the snapshot that later reads of the high word
return, and clears an RC counter held in the registers (R8 to R10); the four pairs that their tables do not have read so answer
each word as it stands and change nothing (R7). RC_FIELD_READ answers a register with an RC field as it stands and clears its RC
fields; the other fields keep theirs (R7, R705). A histogram register clears the bin it shows (R549). -/
def Obligations.CounterReads : Prop :=
  ((∀ (p : Path) (x a : Nat) (d : RegDesc) (s : State), s.busOn = true → s.modeLets p x = true → a = x / 4 * 4 →
     regDesc a = some d → d.pair = true → d.high a = false →
     ∃ t, exec (.counterLowRead p x) s = .next t ∧
       t.answer = beBytes 4 (s.pairView a % 2 ^ 32) ∧
       (plainPair a = true → t = { s with answer := t.answer }) ∧
       (plainPair a = false →
         Tab.getD a 0 t.snaps = BitVec.ofNat 32 (s.pairView a / 2 ^ 32) ∧
         (∀ b, b ≠ a → Tab.getD b 0 t.snaps = Tab.getD b 0 s.snaps) ∧
         (d.clears = true → s.macWindow a = none → t.pair a = 0) ∧
         (∀ b, b ≠ a → b ≠ a + 4 → t.word b = s.word b) ∧
         (d.clears = false → t = { s with answer := t.answer, snaps := t.snaps }))) ∧
   (∀ (p : Path) (a : Nat) (d : RegDesc) (s : State), a % 4 = 0 → 4 ≤ a → s.busOn = true → s.modeLets p a = true →
     regDesc a = some d → d.pair = true → d.high a = true → s.busRead p a =
       (if plainPair (a - 4) then BitVec.ofNat 32 (s.pairView (a - 4) / 2 ^ 32) else Tab.getD (a - 4) 0 s.snaps, s)) ∧
   (∀ a : Nat, Tab.getD a 0 State.reset.snaps = 0)) ∧
  (∀ (p : Path) (x a : Nat) (d : RegDesc) (s : State), s.busOn = true → s.modeLets p x = true → a = x / 4 * 4 →
     regDesc a = some d → d.pair = false → d.clears = true →
     ∃ t, exec (.rcFieldRead p x) s = .next t ∧
       t.answer = beBytes 4 (match s.view a with | some n => n % 2 ^ 32 | none => (d.mask (s.word a)).toNat) ∧
       (s.histAt a = none → t = { s with answer := t.answer, regs := t.regs } ∧ (∀ b, b ≠ a → t.word b = s.word b) ∧
         ∀ f ∈ d.fields, getBits (t.word a) f.lo f.width = if f.acc = .rc then 0 else getBits (s.word a) f.lo f.width) ∧
       (∀ k, s.histAt a = some k → t = { s with answer := t.answer, tc := { s.tc with hist := t.tc.hist } } ∧
         Tab.getD k 0 t.tc.hist = 0 ∧ ∀ j, j ≠ k → Tab.getD j 0 t.tc.hist = Tab.getD j 0 s.tc.hist))

/-- PAIR_LOW_WRITE holds the low word and changes nothing else; PAIR_HIGH_WRITE makes both words take effect at one instant,
the low word unchanged where none is held (R11). Stated of the pairs that live in the registers with all 64 bits. -/
def Obligations.PairWrites : Prop :=
  ∀ (p : Path) (a : Nat) (d : RegDesc) (v : Word) (s : State), a % 4 = 0 → s.busOn = true → s.modeLets p a = true →
    s.modeLets p (a + 4) = true → regDesc a = some d → regDesc (a + 4) = some d → d.pair = true → d.writes = true →
    d.high a = false → d.high (a + 4) = true →
    (∃ t, exec (.pairLowWrite p a v) s = .next t ∧ t = { s with heldLow := t.heldLow } ∧
      Tab.find? a t.heldLow = some v ∧ ∀ b, b ≠ a → Tab.find? b t.heldLow = Tab.find? b s.heldLow) ∧
    (pairBits a = 64 → regIndex a (A.RBD_TGT_START 0) 2 32 = none → regIndex a (A.RBD_TGT_POINT 0) 2 32 = none →
      ∃ t, exec (.pairHighWrite p (a + 4) v) s = .next t ∧ t = { s with heldLow := t.heldLow, regs := t.regs } ∧
        t.word (a + 4) = v ∧
        t.word a = (match Tab.find? a s.heldLow with | some w => w | none => BitVec.ofNat 32 (s.pairView a)) ∧
        Tab.find? a t.heldLow = none ∧ ∀ b, b ≠ a → b ≠ a + 4 → t.word b = s.word b)

/-! ### The Inventory loader (02_inventory.md) -/

/-- OPEN, INV_DATA_WRITE, ABORT_LOAD and LOAD_IDLE_TIMEOUT open, fill and close a load; while one is open, an access by
another path changes nothing but the count INV_STATUS.FOREIGN (R64, R65). -/
def Obligations.InventoryLoads : Prop :=
  (∀ (p : Path) (s : State), s.busOn = true → s.modeLets p A.INV_CTRL = true → s.inv.state ≠ .opened →
    exec (.loadOpen p) s = .next { s with inv := { s.inv with
      prior := s.inv.state, state := .opened, path := some p, buffer := [], lastData := s.now } }) ∧
  (∀ (p : Path) (v : Word) (s : State), s.busOn = true → s.modeLets p A.INV_DATA = true → s.inv.state = .opened →
    s.inv.path = some p → s.inv.buffer.length + 4 ≤ 4194304 →
    exec (.invDataWrite p v) s = .next { s with inv := { s.inv with
      buffer := s.inv.buffer ++ leBytes 4 v.toNat, lastData := s.now } }) ∧
  (∀ (p : Path) (s : State), s.busOn = true → s.modeLets p A.INV_CTRL = true → s.inv.state = .opened →
    s.inv.path = some p →
    exec (.abortLoad p) s = .next { s with inv := { s.inv with state := s.inv.prior, path := none, buffer := [] } }) ∧
  (∀ s : State, s.awake = true → s.inv.state = .opened → s.inv.lastData + 10000000000 ≤ s.now →
    exec .loadIdleTimeout s = .next { s with inv := { s.inv with state := s.inv.prior, path := none, buffer := [] } }) ∧
  (∀ (p q : Path) (v : Word) (s : State), s.inv.state = .opened → s.inv.path = some q → p ≠ q → s.busOn = true →
    s.modeLets p A.INV_CTRL = true → s.modeLets p A.INV_DATA = true →
    (∀ c ∈ ([.loadOpen p, .invDataWrite p v, .commitFull p, .commitPartial p, .abortLoad p, .keyProgram p v.toNat,
      .raiseFloor p] : List Instr),
      exec c s = .next (s.setFld F.INV_STATUS_FOREIGN (min (s.fld F.INV_STATUS_FOREIGN + 1) 255))))

/-- COMMIT_FULL of an image that every check passes keeps it as the staged candidate; before the Inventory lock it puts its sections
in force and sets the lock, after it the image in force stays (R66 to R69). COMMIT_PARTIAL of an image for the serial in force,
with a higher serial, replaces the bodies of the sections it carries and no other section (R61, R71 to R73). -/
def Obligations.InventoryCommits : Prop :=
  (∀ (p : Path) (s : State) (xs : List Section), s.busOn = true → s.modeLets p A.INV_CTRL = true →
     s.inv.state = .opened → s.inv.path = some p → imageCheck s.fuses.keys false 0 (fun _ => []) s.inv.buffer = .ok xs →
     s.attic.floor ≤ leAt s.inv.buffer 16 8 →
     ∃ t, exec (.commitFull p) s = .next t ∧ t.attic.staged = some s.inv.buffer ∧ t.inv.path = none ∧ t.inv.buffer = [] ∧
       (s.inv.prior = .empty → t.inv.sections = sectionTable xs ∧ t.inv.lock = true ∧ t.inv.state = .locked) ∧
       (s.inv.prior ≠ .empty → t.inv.sections = s.inv.sections ∧ t.inv.lock = s.inv.lock ∧ t.inv.state = s.inv.prior)) ∧
  (∀ (p : Path) (s : State) (xs : List Section), s.busOn = true → s.modeLets p A.INV_CTRL = true →
     s.inv.state = .opened → s.inv.path = some p → s.inv.prior ≠ .empty →
     imageCheck s.fuses.keys true s.inv.flags s.sect s.inv.buffer = .ok xs →
     leAt s.inv.buffer 24 8 = s.invSerial → s.invSerial < leAt s.inv.buffer 16 8 →
     ∃ t, exec (.commitPartial p) s = .next t ∧ t.inv.lock = s.inv.lock ∧ t.inv.state = s.inv.prior ∧ t.inv.path = none ∧
       t.inv.sections = s.inv.sections.map fun x =>
         (x.1, match xs.find? fun y => y.code == x.1 with | some y => y.body | none => x.2))

/-- KEY_PROGRAM, RAISE_FLOOR and KEYSLOT_REVOKE write the fuses and the floor that no reset clears, and never lower them
(R62, R76, R77); RESIDENT_CHECK, each 60 s, leaves sections that hash to their digests as they are (R63). -/
def Obligations.InventoryFuses : Prop :=
  (∀ (p : Path) (n : Nat) (s : State), s.busOn = true → s.modeLets p A.INV_CTRL = true → 1 ≤ n → n ≤ 3 →
    (s.keySlot n).hash = none → s.inv.state = .opened → s.inv.path = some p → s.inv.buffer.length = 48 →
    ∃ t, exec (.keyProgram p n) s = .next t ∧
      t.keySlot n = { hash := some (beNat s.inv.buffer), revoked := (s.keySlot n).revoked } ∧
      (∀ k, k ≠ n → t.keySlot k = s.keySlot k) ∧ t.is F.INV_STATUS_DONE = true ∧
      t = { s with fuses := t.fuses, regs := t.regs }) ∧
  (∀ (p : Path) (s : State), s.busOn = true → s.modeLets p A.INV_CTRL = true → s.inv.state ≠ .opened →
    ∃ t, exec (.raiseFloor p) s = .next t ∧ t.attic.floor = max s.attic.floor s.invSerial ∧
      t = { s with attic := { s.attic with floor := t.attic.floor }, regs := t.regs } ∧ t.is F.INV_STATUS_DONE = true) ∧
  (∀ (p : Path) (n : Nat) (s : State), s.busOn = true → s.modeLets p (A.INV_KEYSLOT n) = true → n < 4 →
    ∃ t, exec (.keyslotRevoke p n) s = .next t ∧ t.keySlot n = { hash := (s.keySlot n).hash, revoked := true } ∧
      (∀ k, k ≠ n → t.keySlot k = s.keySlot k) ∧ t = { s with fuses := t.fuses }) ∧
  (∀ (l : List Nat) (s : State), s.awake = true → Tab.getD Tick.resident 0 s.served < s.now / 60000000000 * 60000000000 →
    (∀ r ∈ s.attic.resident, r.code ∉ l ∧ sha384 r.body = r.digest) →
    exec (.residentCheck l) s =
      .next { s with served := Tab.set Tick.resident (s.now / 60000000000 * 60000000000) s.served })

/-! ### The Cellar, the Pantry and the Hoist (03_cellar_and_hoist.md) -/

/-- CELL_INGRESS puts a sound cell into the agent's virtual output queue of its bank group, and the agent remembers it until
its acknowledgement; a full ingress buffer takes none; a cell whose check fails is dropped and counted (R80, R86, R91). -/
def Obligations.CellsAtPorts : Prop :=
  (∀ (a : Nat) (h : BitVec 128) (l : List Byte) (c : HCell) (s : State), s.awake = true → a < 42 →
    portCell false h l = some c →
    (s.hst.ingressFill a < 512 → ∃ t, exec (.cellIngress a h l) s = .next t ∧ t = { s with hst := { s.hst with
        voq := Tab.set (a * 32 + bankGroup c.caddr) (Tab.getD (a * 32 + bankGroup c.caddr) [] s.hst.voq ++ [c]) s.hst.voq
        flows := t.hst.flows } } ∧
      ∃ f ∈ t.hst.flows, f.id = c.flow ∧ f.agent = a ∧ f.egress = false ∧
        ((∀ g ∈ s.hst.flows, g.id ≠ c.flow) → f.cells = [c] ∧ f.sent = [(c.seq, s.now, false)])) ∧
    (512 ≤ s.hst.ingressFill a → exec (.cellIngress a h l) s = .next s)) ∧
  (∀ (a : Nat) (h : BitVec 128) (l : List Byte) (s : State), s.awake = true → a < 42 → portCell false h l = none →
    exec (.cellIngress a h l) s = .next ((s.bump A.HST_HCHK_ERR).flag F.HST_STATUS_HCHK_ERR)) ∧
  (∀ (g : Bool) (h : BitVec 128) (l : List Byte), hchkOk h = false ∨ cellKindOf (getBits h 60 4) = none ∨
    256 < getBits h 66 8 + getBits h 74 9 → portCell g h l = none)

/-- WRITE_CELL_COMMIT serves the oldest cell of a bank group's write buffer: it changes exactly the bytes START to
START + LEN - 1 of the cell and answers with one acknowledgement; where the outcome is FAILED it writes nothing (R81 to
R85). -/
def Obligations.CellCommit : Prop :=
  ∀ (g : Nat) (c : HCell) (rest : List HCell) (s : State), s.awake = true ∨ s.dumping = true →
    Tab.getD g [] s.hst.wbuf = c :: rest →
    ∃ t, exec (.writeCellCommit g) s = .next t ∧ t = { s with hst := t.hst } ∧
      t.hst.acks = s.hst.acks ++ [{ agent := c.src, flow := c.flow, seq := c.seq, outcome := s.writeOutcome c }] ∧
      Tab.getD g [] t.hst.wbuf = rest ∧
      (s.writeOutcome c = .failed → t.hst.mem = s.hst.mem) ∧
      (s.writeOutcome c ≠ .failed →
        (∀ i v, c.data[i]? = some v → Mem.byte 0 t.hst.mem (256 * c.caddr + c.start + i) = v) ∧
        ∀ x, x < 256 * c.caddr + c.start ∨ 256 * c.caddr + c.start + c.data.length ≤ x →
          Mem.byte 0 t.hst.mem x = Mem.byte 0 s.hst.mem x)

/-- WRITE_ACK_RECEIVED takes the agent's oldest acknowledgement: OK or POISONED ends the wait for the cell, and the last of a flow
ends the flow; FAILED sends the cell once more, and the second time ends the flow. WRITE_ACK_TIMEOUT after 16 us does what
FAILED does (R86, R99). EGRESS_CELL_ARRIVAL hands a cell that comes in its turn to the agent, the last of a flow ends the flow;
it holds a cell that comes before its turn, and drops and counts one that no slot waits for (R101, R103). RESEQ_TIMEOUT ends the
wait of a flow whose next cell has not come: it is counted, and the flow's rest asked for once more (R102, R105). -/
def Obligations.CellAnswers : Prop :=
  ((∀ (a : CellAck) (f : Flow) (t0 : Nat) (again : Bool) (s : State), s.awake = true →
     s.hst.acks.find? (fun x => x.agent == a.agent) = some a → a.outcome = .ok →
     s.sentCell a.flow a.seq = some (f, t0, again) → f.agent = a.agent → f.acked.length + 1 ≠ f.cells.length →
     exec (.writeAckReceived a.agent) s = .next { s with hst := { s.hst with
       acks := s.hst.acks.erase a
       flows := s.hst.flows.map fun g => if g.id = f.id then
         { f with acked := f.acked ++ [a.seq], sent := f.sent.filter fun x => x.1 != a.seq } else g } }) ∧
   (∀ (a : CellAck) (f : Flow) (t0 : Nat) (again : Bool) (s : State), s.awake = true →
     s.hst.acks.find? (fun x => x.agent == a.agent) = some a → s.sentCell a.flow a.seq = some (f, t0, again) →
     f.agent = a.agent →
     ∃ t, exec (.writeAckReceived a.agent) s = .next t ∧ t.hst.acks = s.hst.acks.erase a ∧
       (a.outcome ≠ .failed → f.acked.length + 1 = f.cells.length → ∀ g ∈ t.hst.flows, g.id ≠ f.id) ∧
       (a.outcome = .poisoned → f.acked.length + 1 ≠ f.cells.length → t.hst.flows = s.hst.flows.map fun g => if g.id = f.id then
         { f with acked := f.acked ++ [a.seq], sent := f.sent.filter fun x => x.1 != a.seq, poison := true } else g) ∧
       (∀ c, a.outcome = .failed → again = false → f.cells.find? (fun x => x.seq == a.seq) = some c →
         Tab.getD (f.agent * 32 + bankGroup c.caddr) [] t.hst.voq =
           Tab.getD (f.agent * 32 + bankGroup c.caddr) [] s.hst.voq ++ [c] ∧
         t.hst.flows = s.hst.flows.map fun g => if g.id = f.id then
           { g with sent := g.sent.map fun x => if x.1 = a.seq then (a.seq, s.now, true) else x } else g) ∧
       (a.outcome = .failed → again = true → ∀ g ∈ t.hst.flows, g.id ≠ f.id)) ∧
   (∀ (a : CellAck) (s : State), s.awake = true → s.hst.acks.find? (fun x => x.agent == a.agent) = some a →
     s.sentCell a.flow a.seq = none →
     exec (.writeAckReceived a.agent) s = .next { s with hst := { s.hst with acks := s.hst.acks.erase a } }) ∧
   (∀ (id seq t0 : Nat) (f : Flow) (s : State), s.awake = true → s.sentCell id seq = some (f, t0, true) → t0 + 16000 ≤ s.now →
     ∃ t, exec (.writeAckTimeout id seq) s = .next t ∧ ∀ g ∈ t.hst.flows, g.id ≠ f.id) ∧
   (∀ (id seq t0 : Nat) (f : Flow) (c : HCell) (s : State), s.awake = true → s.sentCell id seq = some (f, t0, false) →
     f.cells.find? (fun x => x.seq == seq) = some c → t0 + 16000 ≤ s.now →
     ∃ t, exec (.writeAckTimeout id seq) s = .next t ∧ t = { s with hst := t.hst } ∧
       Tab.getD (f.agent * 32 + bankGroup c.caddr) [] t.hst.voq =
         Tab.getD (f.agent * 32 + bankGroup c.caddr) [] s.hst.voq ++ [c] ∧
       t.hst.flows = s.hst.flows.map fun g => if g.id = f.id then
         { g with sent := g.sent.map fun x => if x.1 = seq then (seq, s.now, true) else x } else g)) ∧
  ((∀ (agent : Nat) (d : BitVec 128) (c x : HCell) (f : Flow) (s : State), s.awake = true → s.hst.egress.find? (fun y => y.dst == agent) = some c →
     portCell true (c.header ^^^ d) c.data = some x →
     s.hst.flows.find? (fun g => g.id == x.flow && g.agent == agent && g.egress) = some f →
     f.next < x.seq → x.seq < f.issued → f.held.any (fun y => y.seq == x.seq) = false → f.heldCell = none →
     (∀ g ∈ s.hst.flows, g.agent = agent → g.cells.length ≤ g.issued) → f.next ≠ f.cells.length →
     ∃ t, exec (.egressCellArrival agent d) s = .next t ∧ t = { s with hst := t.hst, regs := t.regs } ∧
       t.hst.egress = s.hst.egress.erase c ∧ t.hst.mem = s.hst.mem ∧
       t.hst.flows = s.hst.flows.map fun g => if g.id = f.id then
         { f with held := f.held ++ [x], lastArrival := if f.held = [] ∧ f.next = 0 then s.now else f.lastArrival } else g) ∧
   (∀ (agent : Nat) (d : BitVec 128) (c x : HCell) (f : Flow) (s : State), s.awake = true → s.hst.egress.find? (fun y => y.dst == agent) = some c →
     portCell true (c.header ^^^ d) c.data = some x →
     s.hst.flows.find? (fun g => g.id == x.flow && g.agent == agent && g.egress) = some f →
     x.seq = f.next → x.seq < f.issued → f.held = [] →
     ∃ t, exec (.egressCellArrival agent d) s = .next t ∧ t.hst.egress = s.hst.egress.erase c ∧
       ((∀ g ∈ s.hst.flows, g.agent = agent → g.cells.length ≤ g.issued) → f.next + 1 ≠ f.cells.length →
         t = { s with hst := t.hst, regs := t.regs } ∧ t.hst.mem = s.hst.mem ∧ t.hst.flows = s.hst.flows.map fun g => if g.id = f.id then
           { f with next := f.next + 1, got := f.got ++ x.data, poison := f.poison || x.poison, lastArrival := s.now } else g) ∧
       (f.next + 1 = f.cells.length → ∀ g ∈ t.hst.flows, g.id ≠ f.id)) ∧
   (∀ (agent : Nat) (d : BitVec 128) (c x : HCell) (s : State), s.awake = true → s.hst.egress.find? (fun y => y.dst == agent) = some c →
     portCell true (c.header ^^^ d) c.data = some x →
     s.hst.flows.find? (fun g => g.id == x.flow && g.agent == agent && g.egress) = none →
     ∃ t, exec (.egressCellArrival agent d) s = .next t ∧ t = { s with hst := t.hst, regs := t.regs } ∧
       t.hst = { s.hst with egress := s.hst.egress.erase c } ∧
       t.regs = (((s.bump (A.HST_AGENT_CELLS_OUT agent)).bump A.HST_FLOW_ERR).flag F.HST_STATUS_FLOW_ERR).regs) ∧
   (∀ (id : Nat) (f : Flow) (s : State), s.awake = true →
     s.hst.flows.find? (fun g => g.id == id && g.egress) = some f → f.held ≠ [] ∨ 0 < f.next → f.heldCell = none →
     f.lastArrival + s.reseqTimeout ≤ s.now →
     ∃ t, exec (.reseqTimeout id) s = .next t ∧ ∀ g ∈ t.hst.flows, g.id ≠ f.id) ∧
   (∀ (id : Nat) (f : Flow) (s : State), s.awake = true →
     s.hst.flows.find? (fun g => g.id == id && g.egress) = some f → f.held ≠ [] ∨ 0 < f.next → f.heldCell = none →
     f.lastArrival + s.reseqTimeout ≤ s.now → f.retry = false →
     ∃ t, exec (.reseqTimeout id) s = .next t ∧ t = { s with hst := t.hst, regs := t.regs } ∧ t.hst.mem = s.hst.mem ∧
       t.regs = (((s.bump A.HST_FLOW_ERR).flag F.HST_STATUS_FLOW_ERR).satAdd (F.HST_RESEQ_FLOW_ERRS f.agent)).regs))

/-- CELL_TIME with nothing damaged and no held cell whose turn has come moves the pointers of both crossbars as their
matchings give and changes no byte of the Cellar; a single matched agent's oldest cell crosses to its bank group's write buffer (R91 to R94). -/
def Obligations.CellTime : Prop :=
  ∀ (s : State), s.awake = true → s.dumping = false → (∀ f ∈ s.hst.flows, f.egress = true → f.heldCell = none) →
    ∃ t, exec (.cellTime [] [] []) s = .next t ∧ t = { s with hst := t.hst, regs := t.regs } ∧ t.hst.mem = s.hst.mem ∧
      t.hst.inGrant = s.ingressMatch.grant ∧ t.hst.inAccept = s.ingressMatch.accept ∧
      t.hst.egGrant = s.egressMatch.grant ∧ t.hst.egAccept = s.egressMatch.accept ∧
      (∀ (a b : Nat) (c : HCell) (rest : List HCell), s.ingressMatch.pairs = [(a, b)] →
        Tab.getD (a * 32 + b) [] s.hst.voq = c :: rest → Tab.getD b [] t.hst.wbuf = Tab.getD b [] s.hst.wbuf ++ [c]) ∧
      (s.ingressMatch.pairs = [] → t.hst.wbuf = s.hst.wbuf) ∧ (s.egressMatch.pairs = [] → t.hst.egress = s.hst.egress)

/-- CELLAR_SCRUB reports what it finds in a granule (R108 to R110); PANTRY_SCRUB marks a row that it corrects and writes back, and
maps it to a free spare at its next correction, by scrub or by a block's own read (R124, R125); CE_24H_CLEAR sets the 24 h
counts to 0 (R112). HST_RETIRE_GO starts a predictive retirement (R113, R115, R117); PIN_WAIT_END and SLICE_SWITCH move the
slices of the pseudo-channel to the spare pool, lowest first (R115, R119, R120); PC_FAILURE outside the limits leaves the
pseudo-channel in the critical condition (R118). -/
def Obligations.ScrubsAndRetirement : Prop :=
  ((∀ (g : Nat) (s : State), s.awake = true → s.is F.HST_CTRL_CELLAR_SCRUB_EN = true → g < 768 * 2 ^ 21 →
     s.is F.HST_CTRL_AUTO_RETIRE = false →
     ∃ t, exec (.cellarScrub g (.bytes 1)) s = .next t ∧ t = { s with hst := t.hst, regs := t.regs } ∧
       t.hst.mem = s.hst.mem ∧ t.is F.HST_STATUS_CELLAR_CE = true ∧
       (t.pc (s.granulePc g)).ce24h = min 65535 ((s.pc (s.granulePc g)).ce24h + 1) ∧
       (∀ p, p ≠ s.granulePc g → t.pc p = s.pc p)) ∧
   (∀ (g : Nat) (f : GranuleFault) (s : State), s.awake = true → s.is F.HST_CTRL_CELLAR_SCRUB_EN = true → g < 768 * 2 ^ 21 →
     f = .bytes 2 ∨ f = .bytes 3 ∨ f = .location →
     ∃ t, exec (.cellarScrub g f) s = .next t ∧ t = { s with hst := t.hst, regs := t.regs, wdn := t.wdn } ∧
       t.hst.mem = s.hst.mem ∧ t.hst.poison = insertNat g s.hst.poison ∧ t.is F.HST_STATUS_CELLAR_UE = true ∧
       t.fld F.HST_UE_CELL_CELL = g / 8 % 2 ^ 28 ∧ t.fld F.HST_UE_CELL_GRANULE = g % 8 ∧
       (t.pc (s.granulePc g)).ueTimes = (s.now :: (s.pc (s.granulePc g)).ueTimes).take 4) ∧
   (∀ (b r : Nat) (u : Bool) (s : State), s.awake = true → s.is F.HST_CTRL_PANTRY_SCRUB_EN = true → b < 64 → r < 5120 →
     s.hst.pantryCe.contains (b * 5120 + r) = false →
     ∃ t, exec (.pantryScrub b r true none u) s = .next t ∧ t = { s with hst := t.hst, regs := t.regs } ∧
       t.hst = { s.hst with pantryCe := if u then s.hst.pantryCe else insertNat (b * 5120 + r) s.hst.pantryCe } ∧
       t.fld (F.HST_PANTRY_BANK_CE_COUNT b) = min (s.fld (F.HST_PANTRY_BANK_CE_COUNT b) + 1) 65535) ∧
   (∀ (b r k : Nat) (u : Bool) (s : State), s.awake = true → s.is F.HST_CTRL_PANTRY_SCRUB_EN = true → b < 64 → r < 5120 →
     s.hst.pantryCe.contains (b * 5120 + r) = true → s.freeSpare b r = some k →
     ∃ t, exec (.pantryScrub b r true none u) s = .next t ∧ t = { s with hst := t.hst, regs := t.regs } ∧
       t.hst.pantrySpare = Tab.set (b * 5120 + r) k s.hst.pantrySpare ∧ t.is F.HST_STATUS_PANTRY_REPAIRED = true ∧
       t.hst.pantryCe.contains (b * 5120 + r) = false) ∧
   (∀ s : State, s.awake = true → Tab.getD Tick.ceClear 0 s.served < s.now / day * day →
     ∃ t, exec .ce24hClear s = .next t ∧ t = { s with hst := { s.hst with pcs := t.hst.pcs }, served := t.served } ∧
       ∀ p < 64, t.pc p = { s.pc p with ce24h := 0 })) ∧
  ((∀ (q : Path) (p : Nat) (s : State), s.busOn = true → s.modeLets q A.HST_RETIRE = true → p < 64 →
     (s.pc p).state = .active → s.mayRetire p = true →
     ∃ t, exec (.hstRetireGo q p) s = .next t ∧ (t.pc p).state = .migrating ∧ (t.pc p).cause = 2 ∧
       (∀ k, k ≠ p → t.pc k = s.pc k) ∧ ∃ m, t.hst.migration = s.hst.migration ++ [m] ∧ m.pc = p ∧ m.failure = false ∧ m.pinWait = true) ∧
   (∀ (p : Nat) (s : State), s.awake = true → p < 64 → (s.pc p).state = .active → s.mayRetire p = false →
     ∃ t, exec (.pcFailure p true) s = .next t ∧ t = { s with hst := { s.hst with pcs := t.hst.pcs }, regs := t.regs } ∧
       t.pc p = { s.pc p with critical := true } ∧ (∀ k, k ≠ p → t.pc k = s.pc k) ∧
       t.is F.HST_STATUS_CELLAR_CRITICAL = true) ∧
   (∀ (m : Migration) (s : State), s.awake = true → s.hst.migration = [m] → m.pinWait = true → s.unpinned m.segs = true →
     s.slicesOn m.pc ≠ [] →
     ∃ t, exec .pinWaitEnd s = .next t ∧
       t.hst.migration = [{ m with pinWait := false, segs := [], todo := s.slicesOn m.pc }] ∧
       t.hst.pool = s.hst.pool ++ m.segs.flatMap s.segmentPlaces) ∧
   (∀ (m : Migration) (x y0 y1 : Nat) (r : List Nat) (l : List (Nat × Nat)) (s : State), s.awake = true →
     s.hst.migration = [m] → m.pinWait = false → m.failure = false → m.todo = x :: r → r ≠ [] →
     s.poolSlices = (y0, y1) :: l →
     exec .sliceSwitch s = .next { s with hst := { s.hst with
       sliceMap := Tab.set x (y0, y1) s.hst.sliceMap, pool := s.hst.pool.erase (y0, y1), migration := [{ m with todo := r }] } }))

/-! ### The Breren transport (04_breren_transport.md) -/

/-- SEND_PACKET sends the next new packet of a message on the path R158 gives: it takes the SA's next counter (R149), and the
send entry records its path, its time and its first interval (R158, R161, R164). RETRY_TIMER_EXPIRY sends a packet again on
the next path with the interval doubled, up to 64 ms, as long as its retries are below RETRY_LIMIT, 0 acting as 1 (R158, R164 to R166). -/
def Obligations.PacketSending : Prop :=
  (∀ (key p : Nat) (m : TxMsg) (payload : List Byte) (runs : List (Nat × Nat)) (s : State), s.awake = true →
    s.tx? key = some m → m.group = false → s.maySend m = true → s.newPath m.sa = some p →
    s.payloadOf m m.packets.length = some (payload, runs) → s.saSends m.sa →
    ∃ t x, exec (.sendPacket key) s = .next t ∧
      t.saGet m.sa Sa.txCounter = s.saGet m.sa Sa.txCounter + 1 ∧ t.tx? key = some x ∧
      x.first = some (m.first.getD s.now) ∧ x.packets.length = m.packets.length + 1 ∧
      x.packets.getLast? = some ⟨m.packets.length, s.now, p, 0, s.rto0 m.sa, false, runs, false, false⟩ ∧
      (∀ k, k ≠ key → t.tx? k = s.tx? k) ∧ (∀ k, k ≠ m.sa → t.sa k = s.sa k) ∧ t.trn.rx = s.trn.rx ∧
      t = { s with trn := t.trn, cip := t.cip, regs := t.regs, wdn := t.wdn, mac := t.mac, hst := t.hst }) ∧
  (∀ (key i q : Nat) (m : TxMsg) (p : TxPacket) (payload : List Byte) (runs : List (Nat × Nat)) (s : State),
    s.awake = true → s.tx? key = some m → m.group = false → m.packet? i = some p → p.acked = false → p.stomped = false →
    s.isBlocked key i = false → p.sentAt + p.interval ≤ s.now → (∀ a, m.first = some a → s.now ≤ a + 2000000000) →
    p.retries < s.retryLimit → (s.pathTest m.sa p.path).timeouts = 0 →
    choosePath (s.sa m.sa) p.path false = some q → s.payloadOf m i = some (payload, runs) → s.saSends m.sa →
    ∃ t x y, exec (.retryTimerExpiry key i) s = .next t ∧ t.saGet m.sa Sa.txCounter = s.saGet m.sa Sa.txCounter + 1 ∧
      t.tx? key = some x ∧ x.packet? i = some y ∧ y.path = q ∧ y.retries = p.retries + 1 ∧
      y.interval = min 64000000 (2 * p.interval) ∧ y.sentAt = s.now ∧ (t.pathTest m.sa p.path).timeouts = 1 ∧
      (longAgo s.now (s.halfTime m.sa) (s.aux m.sa).toHalf = true →
        t.saGet m.sa Sa.cwnd = max 16 (s.saGet m.sa Sa.cwnd / 2)) ∧
      (∀ k, k ≠ key → t.tx? k = s.tx? k) ∧ t.trn.rx = s.trn.rx)

/-- MESSAGE_AGE_LIMIT ends a message not complete 2 s after its first packet (R166, R171): a FETCH's command is settled with
FETCH_FAILED. SA_HELD_MESSAGE_START starts the first held message whose SA is ACTIVE and has room, with the SA's next message
id, a FETCH_REPLY with the fetch's (R162, R751). RECEIVE_REAP frees a receive entry not complete after 4 s (R177). ACK_DELAY_EXPIRY acknowledges what has
been received since the last ACK (R178). -/
def Obligations.MessageLife : Prop :=
  (∀ (key a0 : Nat) (m : TxMsg) (s : State), s.awake = true → s.tx? key = some m → m.first = some a0 →
    a0 + 2000000000 ≤ s.now →
    ∃ t, exec (.messageAgeLimit key) s = .next t ∧ t.tx? key = none ∧ t.is F.TRN_STATUS_MSG_FAILED = true ∧
      ((∀ c n, m.use ≠ .readData c n) → (∀ c, m.use ≠ .completion c) → t.pair A.TRN_MSG_FAILED = (s.pair A.TRN_MSG_FAILED + 1) % 2 ^ 64 ∧
      (∀ k, k ≠ key → (∀ c, m.use ≠ .fetch c) → t.tx? k = s.tx? k)) ∧
      (∀ c k x, m.use = .fetch c → m.opcode = .fetch → s.cmd? c = some (k, x) → x.state ≠ .completing →
        x.wait ≠ .finished → ∃ y, t.cmd? c = some (k, y) ∧ y.status = St.fetchFailed ∧ y.wait = .finished)) ∧
  (∀ (h : HeldMsg) (n : Nat) (s : State), s.awake = true →
    s.trn.held.find? (fun x => (s.heldSa x).isSome || (s.heldEnds x).isSome) = some h → (s.heldEnds h).isNone = true →
    s.heldSa h = some n →
    ∃ t, exec .saHeldMessageStart s = .next t ∧ t = { s with trn := t.trn, cq := t.cq } ∧ t.trn.held = s.trn.held.erase h ∧
      t.trn.tx = s.trn.tx ++ [{ h.msg with
        key := s.trn.nextKey, sa := n, id := if h.msg.newId then s.saGet n Sa.txNextId else h.msg.id }] ∧
      (h.msg.newId = true → t.saGet n Sa.txNextId = (s.saGet n Sa.txNextId + 1) % 2 ^ 48) ∧
      (h.msg.newId = false → t.saGet n Sa.txNextId = s.saGet n Sa.txNextId)) ∧
  (∀ (sa id : Nat) (m : RxMsg) (s : State), s.awake = true → id < 2 ^ 48 →
    s.trn.rx.find? (fun x => x.sa == sa && x.id == id && decide (x.created + 4000000000 ≤ s.now)) = some m →
    ∃ t, exec (.receiveReap sa id) s = .next t ∧ t.trn.rx = s.trn.rx.filter (fun x => x.key != m.key) ∧
      t.pair A.TRN_REAPED = (s.pair A.TRN_REAPED + 1) % 2 ^ 64 ∧
      t.saGet sa Sa.reapFloor = (if m.reply then s.saGet sa Sa.reapFloor else max (s.saGet sa Sa.reapFloor) id) ∧
      t.trn.tx = s.trn.tx ∧ ∀ k, k ≠ sa → t.sa k = s.sa k) ∧
  (∀ (sa id a0 : Nat) (r : Bool) (m : RxMsg) (s : State), s.awake = true →
    s.trn.rx.find? (fun x => x.sa == sa && x.id == id && x.reply == r) = some m → m.ackFrom = some a0 →
    a0 + s.ackDelay ≤ s.now → m.trigPath < 16 → pathValid (s.sa sa) m.trigPath = true → s.saSends sa →
    ∃ t, exec (.ackDelayExpiry sa id r) s = .next t ∧ t.saGet sa Sa.txCounter = s.saGet sa Sa.txCounter + 1 ∧
      t.trn.rx = s.trn.rx.map (fun x => if x.key = m.key then { x with sinceAck := 0, ackFrom := none, ce := 0 } else x) ∧
      t.trn.tx = s.trn.tx ∧ (∀ k, k ≠ sa → t.sa k = s.sa k) ∧
      t = { s with trn := t.trn, cip := t.cip, regs := t.regs, wdn := t.wdn, mac := t.mac, hst := t.hst })

/-- PROBE_TIMEOUT puts a SUSPECT path DOWN 200 us after its third probe, DOWN_PATH_PROBE probes a DOWN path each 10 ms, and
SUSPECT_PROBE_SEND sends the second and third probes of a SUSPECT path 50 us apart (R159, Table 04-12); a group SA probes no path
(R442). CWND_GROWTH adds 8 to
the window after an SRTT without a CE mark or a timer's expiry, up to 4,096 (R168). -/
def Obligations.PathsAndWindow : Prop :=
  (∀ (sa w : Nat) (s : State), s.awake = true → s.pathIs sa w 1 = true → (s.pathTest sa w).probes = 3 →
    s.probeGap sa w 200000 = true →
    ∃ t, exec (.probeTimeout sa w) s = .next t ∧ pathState (t.sa sa) w = 2 ∧ t.is F.TRN_STATUS_PATH_DOWN = true ∧
      (t.pathTest sa w).timeouts = 0 ∧ (∀ k < 16, k ≠ w → pathState (t.sa sa) k = pathState (s.sa sa) k) ∧
      (∀ k, k ≠ sa → t.sa k = s.sa k) ∧ t = { s with trn := t.trn, regs := t.regs, wdn := t.wdn, mgt := t.mgt }) ∧
  (∀ (sa w : Nat) (s : State), s.awake = true → s.pathIs sa w 2 = true →
    (s.pathTest sa w).lastProbe + 10000000 ≤ s.now → s.saSends sa → s.saGet sa Sa.kind ≠ 1 →
    ∃ t, exec (.downPathProbe sa w) s = .next t ∧ (t.pathTest sa w).lastProbe = s.now ∧
      t.trn.probeSeq = (s.trn.probeSeq + 1) % 2 ^ 64 ∧ t.saGet sa Sa.txCounter = s.saGet sa Sa.txCounter + 1 ∧
      t = { s with trn := t.trn, cip := t.cip, regs := t.regs, wdn := t.wdn, mac := t.mac, hst := t.hst }) ∧
  (∀ (sa w : Nat) (s : State), s.awake = true → s.pathIs sa w 1 = true → (s.pathTest sa w).probes < 3 →
    s.probeGap sa w 50000 = true → s.saSends sa → s.saGet sa Sa.kind ≠ 1 →
    ∃ t, exec (.suspectProbeSend sa w) s = .next t ∧ (t.pathTest sa w).probes = (s.pathTest sa w).probes + 1 ∧
      (t.pathTest sa w).lastProbe = s.now ∧ t.saGet sa Sa.txCounter = s.saGet sa Sa.txCounter + 1 ∧
      t = { s with trn := t.trn, cip := t.cip, regs := t.regs, wdn := t.wdn, mac := t.mac, hst := t.hst }) ∧
  (∀ (sa w : Nat) (s : State), s.awake = true → s.saGet sa Sa.kind = 1 → exec (.downPathProbe sa w) s = .next s) ∧
  (∀ (sa : Nat) (s : State), s.awake = true → s.saState sa ≠ Sas.invalid → s.saGet sa Sa.srtt ≠ 0 →
    (s.aux sa).growFrom + s.saGet sa Sa.srtt ≤ s.now →
    ∃ t, exec (.cwndGrowth sa) s = .next t ∧ t.saGet sa Sa.cwnd = min 4096 (s.saGet sa Sa.cwnd + 8) ∧
      (t.aux sa).growFrom = s.now ∧ (∀ k, k ≠ sa → t.sa k = s.sa k) ∧ t = { s with trn := t.trn })

/-- ACTIVATE makes an INVALID SA whose key slot is loaded ACTIVE with a fresh window and its counter at or above its mark, EXHAUSTED
where that is 2^62 or more (R181, R464, R466); RESUME makes it SYNCING with a fresh challenge, a free value, and sends RESUME
(R152, R154); SWITCH begins the exchange of R157; a write of TRN_SA_WORD reaches every word of an INVALID SA but STATE, and only
the path words of another (R181); at or above the partition's count it is refused (R122), and counted in TRN_NO_SA (the model's
choice, assumption 148). INVALIDATE and DRAINING_EXPIRY make an SA INVALID: what it had waiting is gone, and the Wardens hear of
a drained one (R146, Table 04-11). SA_SYNC_RETRY repeats an unanswered request on the next path, its interval doubled up to 64
ms (R151). -/
def Obligations.SecurityAssociations : Prop :=
  ((∀ (p : Path) (s : State), s.busOn = true → s.modeLets p A.TRN_SA_CMD = true → s.saState s.saSel = Sas.invalid →
     s.saKeyed s.saSel = true → s.saMark s.saSel < 2 ^ 64 →
     ∃ t, exec (.saActivate p) s = .next t ∧
       t.saState s.saSel = (if 2 ^ 62 ≤ max (s.saGet s.saSel Sa.txCounter) (s.saMark s.saSel) then Sas.exhausted else Sas.active) ∧ t.saGet s.saSel Sa.cwnd = 512 ∧
       t.saGet s.saSel Sa.srtt = 0 ∧ t.saGet s.saSel Sa.rttvar = 0 ∧ t.saGet s.saSel Sa.challenge = 0 ∧
       t.saGet s.saSel Sa.txCounter = max (s.saGet s.saSel Sa.txCounter) (s.saMark s.saSel) ∧
       (∀ w < 16, pathState (t.sa s.saSel) w = if pathValid (s.sa s.saSel) w then 0 else 3) ∧
       (∀ k, k ≠ s.saSel → t.sa k = s.sa k) ∧ t = { s with trn := t.trn, cip := t.cip, regs := t.regs, wdn := t.wdn }) ∧
   (∀ (p : Path) (s : State), s.busOn = true → s.modeLets p A.TRN_SA_CMD = true → s.saState s.saSel = Sas.invalid →
     s.saKeyed s.saSel = true →
     ∃ t r, exec (.saResume p) s = .next t ∧ t.saState s.saSel = Sas.syncing ∧
       t.saGet s.saSel Sa.challenge = (Config.freeValue s.free).toNat % 2 ^ 64 ∧ t.free = s.free + 1 ∧
       (t.aux s.saSel).sync = [r] ∧ r.subtype = 1 ∧ r.sentAt = s.now ∧ r.interval = s.initRetry) ∧
   (∀ (p : Path) (n : Nat) (s : State), s.busOn = true → s.modeLets p A.TRN_SA_CMD = true →
     s.saState s.saSel = Sas.active → n ≠ s.saSel → s.saState n = Sas.active →
     ∃ t r, exec (.saSwitch p n) s = .next t ∧ t.saState s.saSel ≠ Sas.draining ∧ r ∈ (t.aux s.saSel).sync ∧
       r.subtype = 3 ∧ r.newSa = n ∧ r.sentAt = s.now ∧ r.interval = s.initRetry) ∧
   (∀ (p : Path) (w : Nat) (v : Word) (s : State), s.busOn = true → s.modeLets p (A.TRN_SA_WORD w) = true → w < 64 →
     (s.entryExists 0x05 s.saSel = false → exec (.saWordWrite p w v) s = .next (s.bump A.TRN_NO_SA)) ∧
     (s.entryExists 0x05 s.saSel = true → s.saState s.saSel = Sas.invalid →
       ∃ t, exec (.saWordWrite p w v) s = .next t ∧ t = { s with trn := t.trn, hst := t.hst } ∧
         getBits (t.sa s.saSel) (if w = 0 then 8 else 32 * w) (if w = 0 then 24 else 32) = (if w = 0 then v.toNat / 256 else v.toNat) ∧
         t.saState s.saSel = Sas.invalid ∧
         (∀ k < 64, k ≠ w → getBits (t.sa s.saSel) (32 * k) 32 = getBits (s.sa s.saSel) (32 * k) 32) ∧
         ∀ k, k ≠ s.saSel → t.sa k = s.sa k) ∧
     (s.entryExists 0x05 s.saSel = true → s.saState s.saSel ≠ Sas.invalid → w < 12 ∨ 16 ≤ w →
       exec (.saWordWrite p w v) s = .next s) ∧
     (s.entryExists 0x05 s.saSel = true → s.saState s.saSel ≠ Sas.invalid → 12 ≤ w → w < 16 →
       ∃ t, exec (.saWordWrite p w v) s = .next t ∧ t = { s with trn := t.trn, hst := t.hst } ∧
         getBits (t.sa s.saSel) (32 * w) 32 = v.toNat))) ∧
  ((∀ (p : Path) (s : State), s.busOn = true → s.modeLets p A.TRN_SA_CMD = true →
     (∀ m ∈ s.trn.tx, m.sa ≠ s.saSel) → (∀ h ∈ s.trn.held, h.sa ≠ s.saSel) → (∀ h ∈ s.win.held, h.sa ≠ s.saSel) →
     ∃ t, exec (.saInvalidate p) s = .next t ∧ t = { s with trn := t.trn, regs := t.regs, mac := t.mac, hst := t.hst } ∧ t.saState s.saSel = Sas.invalid ∧
       t.trn.rx = s.trn.rx.filter (fun m => m.sa != s.saSel) ∧
       t.trn.blocked = s.trn.blocked.filter (fun b => b.sa != s.saSel) ∧ t.trn.tx = s.trn.tx ∧ t.trn.held = s.trn.held ∧
       t.aux s.saSel = auxDefault ∧ ∀ k, k ≠ s.saSel → t.sa k = s.sa k) ∧
   (∀ (p : Path) (m : TxMsg) (s : State), s.busOn = true → s.modeLets p A.TRN_SA_CMD = true → s.trn.tx = [m] →
     m.sa = s.saSel → (∃ a, m.use = .fetchReply a) → s.trn.held = [] → s.win.held = [] →
     ∃ t, exec (.saInvalidate p) s = .next t ∧ t.saState s.saSel = Sas.invalid ∧ t.trn.tx = [] ∧
       t.is F.TRN_STATUS_MSG_FAILED = true) ∧
   (∀ (sa : Nat) (s : State), s.awake = true → s.saState sa = Sas.draining → (s.aux sa).drainAt + 2000000000 ≤ s.now →
     (∀ m ∈ s.trn.tx, m.sa ≠ sa) → (∀ h ∈ s.trn.held, h.sa ≠ sa) → (∀ h ∈ s.win.held, h.sa ≠ sa) →
     ∃ t, exec (.drainingExpiry sa) s = .next t ∧ t = { s with trn := t.trn, wdn := t.wdn, mac := t.mac, hst := t.hst } ∧
       t.saState sa = Sas.invalid ∧ t.wdn.events = s.wdn.events ++ [.saDrained sa] ∧ t.aux sa = auxDefault) ∧
   (∀ (sa q : Nat) (r : SyncReq) (s : State), s.awake = true → (s.aux sa).sync = [r] → r.sentAt + r.interval ≤ s.now →
     choosePath (s.sa sa) r.path false = some q → s.saSends sa →
     ∃ t, exec (.saSyncRetry sa) s = .next t ∧ t.saGet sa Sa.txCounter = s.saGet sa Sa.txCounter + 1 ∧
       (t.aux sa).sync = [{ r with sentAt := s.now, interval := min 64000000 (2 * r.interval), path := q }] ∧
       t = { s with trn := t.trn, cip := t.cip, regs := t.regs, wdn := t.wdn, mac := t.mac, hst := t.hst }))

/-! ### Windows and placement (05_windows_and_placement.md) -/

/-- BIND makes a FREE key that meets every condition of R184 VALID and refuses any other. ROTATE and REVOKE of a VALID key raise its
generation and fence the accesses in flight; with none in flight they are done at once (R218, R221). A write of WIN_WORD reaches
the writable bytes of a FREE key alone (R225). ACCESS_END takes an ended access out of the counter of its generation; the last
access before a fence ends the rotation or revocation (R194, R218, R221). RETIRED_KEY_EXPIRY makes a RETIRED key whose second
has passed VALID or FREE with GENERATION 1 (Table 05-4). COMMIT_PLACE_WRITE writes the first held COMMIT placement that may be
written (R212). -/
def Obligations.WindowKeys : Prop :=
  ((∀ (p : Path) (s : State), s.busOn = true → s.modeLets p A.WIN_CMD = true →
     (s.bindOk (s.fld F.WIN_SEL_KEY) = true →
       ∃ t, exec (.keyBind p) s = .next t ∧ t = { s with win := { s.win with keys := t.win.keys } } ∧
         getPart (t.keyEnt (s.fld F.WIN_SEL_KEY)) Key.state = Keys.valid ∧
         getPart (t.keyEnt (s.fld F.WIN_SEL_KEY)) Key.generation = getPart (s.keyEnt (s.fld F.WIN_SEL_KEY)) Key.generation ∧
         ∀ k, k ≠ s.fld F.WIN_SEL_KEY → t.keyEnt k = s.keyEnt k) ∧
     (s.bindOk (s.fld F.WIN_SEL_KEY) = false → exec (.keyBind p) s = .next (s.flag F.WIN_STATUS_CMD_REFUSED))) ∧
   (∀ (p : Path) (k : Nat) (s : State), s.busOn = true → s.modeLets p A.WIN_CMD = true → k = s.fld F.WIN_SEL_KEY →
     s.keyExists k = true → getPart (s.keyEnt k) Key.state = Keys.valid → getPart (s.keyEnt k) Key.generation < 65535 →
     (getPart (s.keyEnt k) Key.inflightCur ≠ 0 →
       (∃ t, exec (.keyRotate p) s = .next t ∧ t = { s with win := t.win } ∧
         getPart (t.keyEnt k) Key.state = Keys.rotating ∧
         getPart (t.keyEnt k) Key.generation = getPart (s.keyEnt k) Key.generation + 1 ∧
         getPart (t.keyEnt k) Key.inflightOld = getPart (s.keyEnt k) Key.inflightCur ∧
         getPart (t.keyEnt k) Key.inflightCur = 0 ∧ ∀ j, j ≠ k → t.keyEnt j = s.keyEnt j) ∧
       (∃ t, exec (.keyRevoke p) s = .next t ∧ t = { s with win := t.win } ∧
         getPart (t.keyEnt k) Key.state = Keys.revoking ∧
         getPart (t.keyEnt k) Key.generation = getPart (s.keyEnt k) Key.generation + 1 ∧
         getPart (t.keyEnt k) Key.inflightOld = getPart (s.keyEnt k) Key.inflightCur ∧
         getPart (t.keyEnt k) Key.inflightCur = 0 ∧ ∀ j, j ≠ k → t.keyEnt j = s.keyEnt j)) ∧
     (getPart (s.keyEnt k) Key.inflightCur = 0 →
       (∃ t, exec (.keyRotate p) s = .next t ∧ getPart (t.keyEnt k) Key.state = Keys.valid ∧
         getPart (t.keyEnt k) Key.generation = getPart (s.keyEnt k) Key.generation + 1 ∧
         t.wdn.events = s.wdn.events ++ [.revocationDone k] ∧ t.is F.WIN_STATUS_REVOKE_DONE = true ∧
         t.fld F.WIN_DONE_KEY = k ∧ t.fld F.WIN_DONE_GENERATION = getPart (s.keyEnt k) Key.generation) ∧
       (∃ t, exec (.keyRevoke p) s = .next t ∧ getPart (t.keyEnt k) Key.state = Keys.free ∧
         getPart (t.keyEnt k) Key.generation = getPart (s.keyEnt k) Key.generation + 1 ∧
         t.wdn.events = s.wdn.events ++ [.revocationDone k] ∧ t.is F.WIN_STATUS_REVOKE_DONE = true))) ∧
   (∀ (p : Path) (w : Nat) (v : Word) (s : State), s.busOn = true → s.modeLets p (A.WIN_WORD w) = true → w < 8 →
     (getPart (s.keyEnt (s.fld F.WIN_SEL_KEY)) Key.state ≠ Keys.free → exec (.winWordWrite p w v) s = .next s) ∧
     (s.keyExists (s.fld F.WIN_SEL_KEY) = true → getPart (s.keyEnt (s.fld F.WIN_SEL_KEY)) Key.state = Keys.free →
       ∃ t, exec (.winWordWrite p w v) s = .next t ∧ t = { s with win := t.win, hst := t.hst } ∧ t.hst.mem = s.hst.mem ∧
         (2 ≤ w → w < 5 →
           getBits (t.keyEnt (s.fld F.WIN_SEL_KEY)) (32 * w) 32 = if w = 3 then v.toNat % 16 else v.toNat) ∧
         getPart (t.keyEnt (s.fld F.WIN_SEL_KEY)) Key.state = Keys.free ∧
         (∀ j, j ≠ s.fld F.WIN_SEL_KEY → t.keyEnt j = s.keyEnt j)))) ∧
  ((∀ (n : Nat) (a : WinAccess) (s : State), s.awake = true →
     s.win.accesses.find? (fun x => x.name == n && x.ended) = some a → s.keyExists a.key = true →
     (a.old = false → getPart (s.keyEnt a.key) Key.state = Keys.valid →
       ∃ t, exec (.accessEnd n) s = .next t ∧ t = { s with win := t.win } ∧
         t.win.accesses = s.win.accesses.filter (fun x => x.name != n) ∧
         getPart (t.keyEnt a.key) Key.inflightCur = getPart (s.keyEnt a.key) Key.inflightCur - 1 ∧
         getPart (t.keyEnt a.key) Key.state = Keys.valid) ∧
     (a.old = true → getPart (s.keyEnt a.key) Key.inflightOld = 1 →
       (getPart (s.keyEnt a.key) Key.state = Keys.rotating →
         ∃ t, exec (.accessEnd n) s = .next t ∧ getPart (t.keyEnt a.key) Key.state = Keys.valid ∧
           getPart (t.keyEnt a.key) Key.inflightOld = 0 ∧ t.is F.WIN_STATUS_REVOKE_DONE = true ∧
           t.wdn.events = s.wdn.events ++ [.revocationDone a.key]) ∧
       (getPart (s.keyEnt a.key) Key.state = Keys.revoking →
         ∃ t, exec (.accessEnd n) s = .next t ∧ getPart (t.keyEnt a.key) Key.state = Keys.free ∧
           t.is F.WIN_STATUS_REVOKE_DONE = true ∧ t.wdn.events = s.wdn.events ++ [.revocationDone a.key])) ∧
     (a.old = true → 1 < getPart (s.keyEnt a.key) Key.inflightOld →
       ∃ t, exec (.accessEnd n) s = .next t ∧ t = { s with win := t.win } ∧
         getPart (t.keyEnt a.key) Key.inflightOld = getPart (s.keyEnt a.key) Key.inflightOld - 1 ∧
         getPart (t.keyEnt a.key) Key.state = getPart (s.keyEnt a.key) Key.state)) ∧
   (∀ (k : Nat) (s : State), s.awake = true → s.keyExists k = true → getPart (s.keyEnt k) Key.state = Keys.retired →
     getPart (s.keyEnt k) Key.inflightOld = 0 →
     (∀ g t0, Tab.find? k s.win.fences = some (g, t0) → t0 + 1000000000 ≤ s.now) →
     ∃ t, exec (.retiredKeyExpiry k) s = .next t ∧ getPart (t.keyEnt k) Key.generation = 1 ∧
       getPart (t.keyEnt k) Key.state = (if (getPart (s.keyEnt k) Key.pend).testBit 0 then Keys.free else Keys.valid) ∧
       t.fld F.WIN_DONE_GENERATION = 65535 ∧ t.is F.WIN_STATUS_REVOKE_DONE = true ∧
       t.wdn.events = s.wdn.events ++ [.revocationDone k] ∧ (∀ j, j ≠ k → t.keyEnt j = s.keyEnt j) ∧
       t = { s with win := t.win, regs := t.regs, wdn := t.wdn, mgt := t.mgt }) ∧
   (∀ (h : HeldCommit) (rest : List HeldCommit) (s : State), s.awake = true → s.win.held = h :: rest → h.writing = false →
     s.commitReady h = true → (∀ x ∈ rest, x.access ≠ h.access) →
     ∃ t, exec .commitPlaceWrite s = .next t ∧ t.win.held = { h with writing := true } :: rest ∧
       t.hst.flows.map (fun f => (f.use, f.agent)) = s.hst.flows.map (fun f => (f.use, f.agent)) ++ [(.commit h.access, h.agent)] ∧
       t.hst.mem = s.hst.mem ∧ t = { s with win := t.win, hst := t.hst }))

/-! ### The command queue engine (06_command_queues.md) -/

/-- CAPSULE_ACCEPT gives a capsule that passes R233 and R234 the next place in acceptance order and a slot, and counts one of
another incarnation as stale; ORDERED_RELEASE lets a command execute that R238 holds back no longer. -/
def Obligations.CapsuleAcceptance : Prop :=
  (∀ (cap : BitVec 512) (sa port k key : Nat) (q : Queue) (w : Bool) (rest : List (BitVec 512 × Nat × Nat)) (s : State),
    s.awake = true → s.draining = false → s.cq.intake = (cap, sa, port) :: rest → s.is F.CQ_CTRL_EN = true →
    (s.ep (s.saGet sa Sa.endpoint)).enabled = true → k = s.saGet sa Sa.endpoint * 64 + capQueue cap →
    key = k * 32 + capTag cap → s.queue? k = some q → q.state = .active →
    (getPart cap Cap.incarnation = s.incarnation k → s.hst.pantryPoison = [] → Tab.find? key s.cq.slots = none →
      q.ring = some (ringToken cap) → s.validate k port cap = .ok w →
      ∃ t x, exec .capsuleAccept s = .next t ∧ Tab.find? key t.cq.slots = some x ∧ x.cap = cap ∧ x.order = s.cq.order ∧
        x.accepted = s.now ∧ x.sa = sa ∧ x.port = port ∧ x.state ≠ .completing ∧ t.cq.order = s.cq.order + 1 ∧
        t.cq.intake = rest ∧ t.pair A.CQ_ACCEPTED = (s.pair A.CQ_ACCEPTED + 1) % 2 ^ 64 ∧
        (s.cq.slots = [] → x.state = .executing)) ∧
    (getPart cap Cap.incarnation ≠ s.incarnation k →
      ∃ t, exec .capsuleAccept s = .next t ∧ t = { s with cq := { s.cq with intake := rest }, regs := t.regs } ∧
        t.pair A.CQ_STALE = (s.pair A.CQ_STALE + 1) % 2 ^ 64)) ∧
  (∀ (c k : Nat) (x : Slot) (s : State), s.awake = true → s.cmd? c = some (k, x) → x.state = .waiting →
    x.wait ≠ .finished → s.orderClear k x = true →
    ∃ t y, exec (.orderedRelease c) s = .next t ∧ t.cmd? c = some (k, y) ∧ y.state = .executing ∧ y.cap = x.cap ∧
      t = { s with cq := t.cq, wdn := t.wdn } ∧
      (k / 32 % 64 = 0 → x.wait = .running → y.wait = .firmware ∧ t.wdn.events = s.wdn.events ++ [.adminCommand c]) ∧
      (k / 32 % 64 ≠ 0 → y.wait = x.wait ∧ t.wdn = s.wdn))

/-- COMPLETION_POINT of a finished command whose data has been sent starts its completion as one COMMIT PLACE of 16 bytes at the
queue's producer index, which moves on (R33, R236, R245). COMMAND_TIMEOUT raises the event 8 s after acceptance (R258). ABORT
stops its target, whose completion entry carries ABORTED, and itself settles with SUCCESS (R254, R257); FEATURE_GET answers a
feature's value in its RESULT and FEATURE_SET sets one (R250, R253). -/
def Obligations.CompletionsAndAborts : Prop :=
  ((∀ (c k : Nat) (x : Slot) (q : Queue) (tok : BitVec 128) (s : State), s.awake = true → s.cmd? c = some (k, x) →
     x.state ≠ .completing → x.wait = .finished → s.dataUnsent c = false → s.queue? (queueOf k) = some q →
     q.ring = some tok → s.str.live = [] → s.saState x.sa = Sas.active →
     s.roomFor x.sa (msgOf .place 16 0 0 (.completion c) .none) = true → s.trn.held = [] →
     ∃ t y m, exec (.completionPoint c) s = .next t ∧ t.cmd? c = some (k, y) ∧ y.state = .completing ∧ y.status = x.status ∧
       t.queue? (queueOf k) = some (q.advance (ringEntries tok)) ∧
       t.pair A.CQ_COMPLETED = (s.pair A.CQ_COMPLETED + 1) % 2 ^ 64 ∧ t.trn.tx = s.trn.tx ++ [m] ∧ m.commit = true ∧
       m.length = 16 ∧ m.sa = x.sa ∧ m.wkey = getPart tok Token.key ∧
       m.offset = getPart tok Token.base + 16 * q.producer ∧
       m.data = .bytes (toBytes 16 (completionEntry k x q.phase))) ∧
   (∀ (c k : Nat) (x : Slot) (s : State), s.awake = true → s.cmd? c = some (k, x) → x.state ≠ .completing →
     x.accepted + 8000000000 ≤ s.now → x.timedOut = false →
     ∃ t, exec (.commandTimeout c) s = .next t ∧ t.cmd? c = some (k, { x with timedOut := true }) ∧
       t.is F.CQ_STATUS_TIMEOUT = true ∧ t.pair A.CQ_TIMEOUTS = (s.pair A.CQ_TIMEOUTS + 1) % 2 ^ 64 ∧
       t.wdn.events = s.wdn.events ++ [.commandTimeout c] ∧ t = { s with cq := t.cq, regs := t.regs, wdn := t.wdn })) ∧
  ((∀ (c key tgt : Nat) (x y : Slot) (q : Queue) (tok : BitVec 128) (s : State), s.awake = true →
     s.adminCmd c 0x23 = some (key, x) → tgt = namedQueue key x * 32 + x.arg0 / 256 % 32 →
     Tab.find? tgt s.cq.slots = some y → s.cmd? y.order = some (tgt, y) → getPart y.cap Cap.incarnation = x.arg0 / 65536 →
     y.state ≠ .completing → y.stopped = false → y.order ≠ c → s.queue? (queueOf tgt) = some q → q.ring = some tok →
     s.str.live = [] → s.trn.held = [] → s.trn.tx = [] → s.saState y.sa = Sas.active →
     s.roomFor y.sa (msgOf .place 16 0 0 (.completion y.order) .none) = true →
     ∃ t z, exec (.adminAbort c) s = .next t ∧ Tab.find? tgt t.cq.slots = some z ∧ z.state = .completing ∧
       z.status = St.aborted ∧ z.stopped = true ∧ t.pair A.CQ_ABORTED = (s.pair A.CQ_ABORTED + 1) % 2 ^ 64 ∧
       t.cmd? c = some (key, { x with status := St.success, wait := .finished })) ∧
   (∀ (c key : Nat) (x : Slot) (s : State), s.awake = true → s.adminCmd c 0x43 = some (key, x) →
     ∃ t, exec (.featureGet c) s = .next t ∧ t = { s with cq := t.cq } ∧
       t.cmd? c = some (key, { x with
         status := St.success, wait := .finished, result := s.featureValue (endpointOf key) x.arg0 })) ∧
   (∀ (c key : Nat) (x : Slot) (s : State), s.awake = true → s.adminCmd c 0x44 = some (key, x) →
     x.arg0 = 1 ∨ x.arg0 = 2 →
     ∃ t, exec (.featureSet c) s = .next t ∧ t = { s with cq := t.cq } ∧
       t.cmd? c = some (key, { x with status := St.success, wait := .finished }) ∧
       (x.arg0 = 1 → t.ep (endpointOf key) = { s.ep (endpointOf key) with writeFua := decide (x.arg1 = 1) }) ∧
       (x.arg0 = 2 → t.ep (endpointOf key) = { s.ep (endpointOf key) with coalesce := decide (x.arg1 = 1) }) ∧
       ∀ e, e ≠ endpointOf key → t.ep e = s.ep e))

/-- A READ takes its translation, and each of its blocks is still to come, has its place, or has failed (R287, R417). One whose
blocks all stand in one VALID Larder line is served from it: its data goes out of the line and it settles with SUCCESS (R417,
R201). A FLUSH with nothing left to cover settles with SUCCESS, and with GROUP_FAILED where a stripe write it covers has a group
that has failed, or was discarded with one (R241, R242). A pulled WRITE takes write staging and begins its first four FETCHes of
1 MiB at most (R208). With its data in the Cellar, as that of a pushed WRITE is from the start, a WRITE is translated and cut
into stripe writes (R287, R312); so is a ZERO, which fetches nothing. A VERIFY takes its translation at its start (R287) and
then goes on by one stripe of its range at a time; with the whole range read it settles with the status of its lowest block that
failed, or SUCCESS (R372, R394). -/
def Obligations.DataCommands : Prop :=
  ((∀ (c k i : Nat) (x : Slot) (s : State), s.awake = true → s.cmd? c = some (k, x) → x.opcode = 1 → x.stopped = false →
     x.started = false → x.state = .executing → x.wait = .running → s.stepHolds x = false → 1 ≤ x.blockCount →
     x.lba % 64 + x.blockCount ≤ 64 → s.volAttr x.volume 3 = false → s.findLine x.volume (x.lba / 64) 2 = some i →
     s.str.live = [] → x.fails = [] → s.saState x.sa = Sas.active →
     ∃ t y, exec (.readCommand c) s = .next t ∧ t.cmd? c = some (k, y) ∧ y.started = true ∧ y.wait = .finished ∧
       y.status = St.success ∧ y.unready = [] ∧ t.hst.mem = s.hst.mem ∧
       (∀ j < x.blockCount, Tab.find? j y.blocks = some (s.lineAddr i + (x.lba + j) % 64 * 4096)) ∧
       t.pair A.RSV_LARDER_BLOCKS = (s.pair A.RSV_LARDER_BLOCKS + x.blockCount) % 2 ^ 64) ∧
   (∀ (c k : Nat) (x z : Slot) (s : State), s.awake = true → s.cmd? c = some (k, x) → x.opcode = 1 → x.stopped = false →
     x.started = false → x.state = .executing → x.wait = .running → s.stepHolds x = false → s.saState x.sa = Sas.active →
     (s.translate c).cmd? c = some (k, z) →
     ∃ t y, exec (.readCommand c) s = .next t ∧ t.cmd? c = some (k, y) ∧ y.cap = x.cap ∧ y.started = true ∧ y.xlate = z.xlate ∧
       ∀ j < x.blockCount, j ∈ y.unready ∨ (Tab.find? j y.blocks).isSome = true ∨ ∃ f ∈ y.fails, f.1 = j) ∧
   (∀ (c k : Nat) (x : Slot) (s : State), s.awake = true → s.cmd? c = some (k, x) → x.runs_ 3 = true →
     (x.covers = [] → ∃ t, exec (.flushCommand c) s = .next t ∧
       t.cmd? c = some (k, { x with status := St.success, wait := .finished }) ∧ t = { s with cq := t.cq }) ∧
     ((∃ n ∈ x.covers, (∃ w, s.live? n = some w ∧ s.groupState w.group = 4) ∨
         (s.live? n = none ∧ ∃ q, s.queue? (queueOf k) = some q ∧ (n, true) ∈ q.unsafeWrites)) →
       ∃ t, exec (.flushCommand c) s = .next t ∧
         t.cmd? c = some (k, { x with status := St.groupFailed, wait := .finished }) ∧ t = { s with cq := t.cq }))) ∧
  ((∀ (c k a : Nat) (x : Slot) (s : State), s.awake = true → s.cmd? c = some (k, x) → x.opcode = 2 → x.pushed = false →
     x.state = .executing → x.wait = .running → x.started = false → x.stopped = false → x.staging = none →
     1 ≤ x.blockCount → x.fetches = [] → x.fetchNext = 0 → s.trn.held = [] → s.saState x.sa = Sas.active →
     s.findStaging (x.blockCount * 4096) = some a →
     ∃ t z, exec (.writeCommand c) s = .next t ∧ t.cmd? c = some (k, z) ∧ z.staging = some a ∧ z.cap = x.cap ∧
       z.fetchNext = min (x.blockCount * 4096) 4194304 ∧ z.wait = .running ∧ t = { s with cq := t.cq, trn := t.trn }) ∧
   (∀ (c k : Nat) (x y : Slot) (s : State), s.awake = true → s.cmd? c = some (k, x) → x.opcode = 2 →
     x.pushed = true ∨ x.staging.isSome = true → s.dataThere c x = true →
     x.state = .executing → x.wait = .running → x.started = false → x.stopped = false → s.stepHolds x = false →
     (s.translate c).cmd? c = some (k, y) →
     (((s.translate c).cutCommand c k y).any fun w => s.groupState w.group == 4) = false →
     ∃ t z, exec (.writeCommand c) s = .next t ∧ t.cmd? c = some (k, z) ∧ z.started = true ∧ z.xlate = y.xlate ∧
       t.str.waiting.length = s.str.waiting.length + ((s.translate c).cutCommand c k y).length ∧
       z.toAdmit.length = ((s.translate c).cutCommand c k y).length ∧ t.trn = s.trn ∧ t.hst = s.hst) ∧
   (∀ (c k : Nat) (x y : Slot) (s : State), s.awake = true → s.cmd? c = some (k, x) → x.opcode = 5 →
     x.state = .executing → x.wait = .running → x.started = false → x.stopped = false → s.stepHolds x = false →
     (s.translate c).cmd? c = some (k, y) →
     (((s.translate c).cutCommand c k y).any fun w => s.groupState w.group == 4) = false →
     ∃ t z, exec (.zeroCommand c) s = .next t ∧ t.cmd? c = some (k, z) ∧ z.started = true ∧ z.xlate = y.xlate ∧
       t.str.waiting.length = s.str.waiting.length + ((s.translate c).cutCommand c k y).length ∧
       z.toAdmit.length = ((s.translate c).cutCommand c k y).length ∧ t.trn = s.trn ∧ t.hst = s.hst)) ∧
  ((∀ (c k n : Nat) (x : Slot) (p : Place) (bad : List (Nat × Nat)) (s : State), s.awake = true →
     s.cmd? c = some (k, x) → x.runs_ 4 = true → x.started = true → p = s.slotPlace x (x.lba + x.fetchNext) →
     s.stripeIdle p.group p.stripe = true →
     n = min (min (stripeBlocks (s.grp p.group) - p.pos) (1048576 - (x.lba + x.fetchNext) % 1048576))
       (x.blockCount - x.fetchNext) →
     ∃ t y, exec (.verifyCommand c bad []) s = .next t ∧ t.cmd? c = some (k, y) ∧
       y.fetchNext = x.fetchNext + max 1 n ∧ y.fails = x.fails ++ s.verifyFails x p x.fetchNext n bad ∧
       (x.blockCount ≤ y.fetchNext → y.wait = .finished ∧
         y.status = (match y.fails with | f :: _ => f.2 | [] => St.success)) ∧
       (y.fetchNext < x.blockCount → y.wait = .running)) ∧
   (∀ (c k : Nat) (x z : Slot) (bad : List (Nat × Nat)) (s : State), s.awake = true → s.cmd? c = some (k, x) →
     x.runs_ 4 = true → x.started = false → s.stepHolds x = false → (s.translate c).cmd? c = some (k, z) →
     ∃ t y, exec (.verifyCommand c bad []) s = .next t ∧ t.cmd? c = some (k, y) ∧ y.started = true ∧ y.xlate = z.xlate ∧
       y.cap = x.cap))

/-- QUEUE_CREATE makes a queue ACTIVE in the lowest free queue slot (the choice of assumption 20), its ring bound and its
incarnation moved on (R226 to R228, R250); QUEUE_RESET and QUEUE_DELETE close a queue and, once it is quiet, make it ACTIVE
again or erase it (R251, R262). EP_ENABLE and EP_DISABLE open an endpoint with its queue 0 and close it again (R226, R265,
R752); CONTROLLER_RESET closes every queue and, once every completion has been sent, makes every queue ACTIVE again (R228,
R264). -/
def Obligations.QueueCommands : Prop :=
  ((∀ (c key k n : Nat) (x : Slot) (s : State), s.awake = true → s.adminCmd c 0x20 = some (key, x) → k = namedQueue key x →
     s.queue? k = none → ringOk (dataToken x.cap) = true → s.freeQueueSlot = some n →
     ∃ t, exec (.queueCreate c) s = .next t ∧ t = { s with cq := t.cq } ∧
       t.queue? k = some ⟨n, .active, some (dataToken x.cap), 0, true, none, []⟩ ∧
       t.incarnation k = nextIncarnation (s.incarnation k) ∧ (∀ j, j ≠ k → t.queue? j = s.queue? j) ∧
       t.cmd? c = some (key, { x with status := St.success, wait := .finished, result := t.incarnation k })) ∧
   (∀ (c key k : Nat) (x : Slot) (q : Queue) (d : Bool) (s : State), s.awake = true → s.closingOf c = none →
     s.adminCmd c (if d then 0x21 else 0x22) = some (key, x) → k = namedQueue key x → s.queue? k = some q →
     q.state = .active → dataToken x.cap = 0 → s.queueCmds k = [] →
     ∃ t, exec (if d then .queueDelete c else .queueReset c) s = .next t ∧ t = { s with cq := t.cq } ∧
       t.queue? k = some { q with state := .resetting, closing := some ⟨c, none, d⟩ } ∧
       t.incarnation k = nextIncarnation (s.incarnation k) ∧ (∀ j, j ≠ k → t.queue? j = s.queue? j)) ∧
   (∀ (c key k : Nat) (x : Slot) (q : Queue) (d : Bool) (s : State), s.awake = true → s.firmwareRuns = true →
     s.closingOf c = some (k, q) → s.queue? k = some q → q.closing = some ⟨c, none, d⟩ → q.state = .resetting →
     s.queueQuiet k = true → s.cmd? c = some (key, x) → queueOf key ≠ k → x.state ≠ .completing → x.wait ≠ .finished →
     ∃ t, exec (if d then .queueDelete c else .queueReset c) s = .next t ∧ t = { s with cq := t.cq } ∧
       t.queue? k = (if d then none else some { q with state := .active, closing := none }) ∧
       (∃ y, t.cmd? c = some (key, y) ∧ y.status = St.success ∧ y.wait = .finished ∧
         y.result = if d then 0 else s.incarnation k) ∧
       (d = true → ∀ z ∈ t.cq.slots, queueOf z.1 ≠ k))) ∧
  ((∀ (p : Path) (e n : Nat) (s : State), s.busOn = true → s.modeLets p A.CQ_CMD = true → s.cq.run = none →
     s.freeQueueSlot = some n → (s.ep e).enabled = false →
     ∃ t, exec (.epEnable p e) s = .next t ∧ t = { s with cq := t.cq } ∧ t.ep e = { epDefault with enabled := true } ∧
       t.queue? (e * 64) = some ⟨n, .active, none, 0, true, none, []⟩ ∧
       t.incarnation (e * 64) = nextIncarnation (s.incarnation (e * 64)) ∧
       (∀ k, k ≠ e * 64 → t.queue? k = s.queue? k) ∧ ∀ f, f ≠ e → t.ep f = s.ep f) ∧
   (∀ (p : Path) (e : Nat) (s : State), s.up = true → s.modeLets p A.CQ_CMD = true →
     (s.cq.run = none → (s.ep e).enabled = true → s.ioQueues e = [] →
       exec (.epDisable p e) s = .next { s with cq := { s.cq with run := some (.disable e) } }) ∧
     (∀ q, s.cq.run = some (.disable e) → s.ioQueues e = [] → s.queue? (e * 64) = some q → q.state = .resetting →
       s.queueQuiet (e * 64) = true →
       ∃ t, exec (.epDisable p e) s = .next t ∧ t = { s with cq := t.cq, regs := t.regs } ∧ t.cq.run = none ∧
         t.queue? (e * 64) = none ∧ t.ep e = epDefault ∧ t.is F.CQ_STATUS_RESET_DONE = true)) ∧
   (∀ (p : Path) (s : State), s.up = true → s.modeLets p A.CQ_CMD = true →
     (s.cq.run = none → ∃ t, exec (.controllerReset p) s = .next t ∧ t.cq.run = some (.controller false) ∧
       t.cq.slots = s.cq.slots ∧ (∀ k q, t.queue? k = some q → q.state = .resetting) ∧
       (Tab.sorted s.cq.queues = true → ∀ k q, s.queue? k = some q → t.incarnation k = nextIncarnation (s.incarnation k))) ∧
     (s.cq.run = some (.controller true) → (∀ x ∈ s.cq.queues, s.queueQuiet x.1 = true) →
       ∃ t, exec (.controllerReset p) s = .next t ∧ t = { s with cq := t.cq, regs := t.regs } ∧ t.cq.run = none ∧
         (∀ k q, t.queue? k = some q → q.state = .active) ∧ t.is F.CQ_STATUS_RESET_DONE = true)))

/-- SELF_TEST_START, SELF_TEST_ABORT and SELF_TEST_RESULT start and end a self-test and answer the result of the last one (R259,
R261); IDENTIFY and LOG_READ place a page as data of the command (R721, R722). FIRMWARE_SEGMENT fetches its data into write
staging and then places it into the staging area (R623); FIRMWARE_ACTIVATE writes the staged image to the slot that did not
supply the running one and, where asked to, activates it (R624). -/
def Obligations.AdminCommands : Prop :=
  ((∀ (c key : Nat) (x : Slot) (s : State), s.awake = true → s.adminCmd c 0x30 = some (key, x) → s.mgt.test = none →
     x.arg0 = 1 →
     ∃ t, exec (.selfTestStart c) s = .next t ∧ t = { s with cq := t.cq, mgt := t.mgt } ∧
       t.mgt.test = some ⟨1, 0, endpointOf key, s.now, [], 0, 12⟩ ∧
       t.cmd? c = some (key, { x with status := St.success, wait := .finished })) ∧
   (∀ (c key : Nat) (x : Slot) (s : State), s.awake = true → s.adminCmd c 0x30 = some (key, x) → s.mgt.test = none →
     x.arg0 = 2 →
     ∃ t z, exec (.selfTestStart c) s = .next t ∧ t = { s with cq := t.cq, mgt := t.mgt, rbd := { s.rbd with patrols := t.rbd.patrols } } ∧
       t.mgt.test = some z ∧ z.kind = 2 ∧ z.endpoint = endpointOf key ∧ z.start = s.now ∧ z.found = [] ∧
       (∀ g ∈ s.testGroups, t.patrol g = { s.patrol g with ext := some 0 }) ∧
       t.cmd? c = some (key, { x with status := St.success, wait := .finished })) ∧
   (∀ (c key : Nat) (x : Slot) (s : State), s.awake = true → s.adminCmd c 0x31 = some (key, x) → s.mgt.test ≠ none →
     ∃ t e, exec (.selfTestAbort c) s = .next t ∧ t.mgt.test = none ∧ t.mgt.log.head? = some e ∧
       e.result = t.testResult ∧ e.stop = s.now ∧ t.is F.MGT_STATUS_ST_DONE = true ∧
       t.cmd? c = some (key, { x with status := St.success, wait := .finished })) ∧
   (∀ (c key : Nat) (x : Slot) (s : State), s.awake = true → s.adminCmd c 0x32 = some (key, x) →
     ∃ t, exec (.selfTestResult c) s = .next t ∧ t = { s with cq := t.cq } ∧
       t.cmd? c = some (key, { x with status := St.success, wait := .finished, result := s.testResult.toNat })) ∧
   (∀ (c key : Nat) (x : Slot) (s : State), s.awake = true → s.adminCmd c 0x41 = some (key, x) →
     4096 ≤ getPart (dataToken x.cap) Token.length → s.saState x.sa = Sas.active → s.trn.held = [] →
     s.roomFor x.sa (msgOf .place 16 0 0 (.completion c) .none) = true →
     ∃ t y m, exec (.identify c) s = .next t ∧ t = { s with cq := t.cq, trn := t.trn } ∧ t.trn.tx = s.trn.tx ++ [m] ∧
       m.use = .readData c 0 ∧ m.data = .bytes (if x.arg0 = 0 then s.volumePage x.volume (endpointOf key)
         else if x.arg0 = 1 then s.controllerPage else s.endpointPage (endpointOf key) x.sa) ∧ m.length = 4096 ∧ t.cmd? c = some (key, y) ∧
       y.status = St.success ∧ y.wait = .finished) ∧
   (∀ (c key : Nat) (x : Slot) (s : State), s.awake = true → s.adminCmd c 0x42 = some (key, x) →
     4 ≤ getPart (dataToken x.cap) Token.length → getPart (dataToken x.cap) Token.length ≤ 65536 →
     s.saState x.sa = Sas.active → s.trn.held = [] →
     s.roomFor x.sa (msgOf .place 16 0 0 (.completion c) .none) = true →
     ∃ t y m, exec (.logRead c) s = .next t ∧ t = { s with cq := t.cq, trn := t.trn } ∧ t.trn.tx = s.trn.tx ++ [m] ∧
       m.data = .bytes (((s.logPage x.arg0).drop x.arg1).take (getPart (dataToken x.cap) Token.length)) ∧
       t.cmd? c = some (key, y) ∧ y.status = St.success ∧ y.wait = .finished ∧ y.result = m.length)) ∧
  ((∀ (c key n : Nat) (x : Slot) (s : State), s.awake = true → s.adminCmd c 0x45 = some (key, x) →
     n = getPart (dataToken x.cap) Token.length → 0 < n → n % 4096 = 0 → n ≤ 1048576 → x.arg0 + n ≤ stagingSize →
     s.wdn.staged = [] → s.activation = none →
     (∀ a, x.started = false → s.findStaging n = some a → s.saState x.sa = Sas.active → s.trn.held = [] →
       s.roomFor x.sa (msgOf .fetch 16 0 0 (.fetch c) .none) = true →
       ∃ t y m, exec (.firmwareSegment c) s = .next t ∧ t = { s with cq := t.cq, trn := t.trn } ∧
         t.cmd? c = some (key, y) ∧ y.started = true ∧ y.staging = some a ∧ t.trn.tx = s.trn.tx ++ [m] ∧
         m.opcode = .fetch ∧ m.length = n ∧ m.use = .fetch c) ∧
     (∀ a, x.started = true → x.staging = some a → x.fetches = [] → s.trn.held = [] → s.rangePoison a n = false →
       ∃ t, exec (.firmwareSegment c) s = .next t ∧ t = { s with cq := t.cq, wdn := t.wdn, regs := t.regs } ∧
         t.cmd? c = some (key, { x with status := St.success, wait := .finished }) ∧ t.wdn.staged = [(x.arg0, n)] ∧
         (∀ i < n, Mem.byte 0 t.wdn.staging (x.arg0 + i) = Mem.byte 0 s.hst.mem (a + i)) ∧
         ∀ i, i < x.arg0 ∨ x.arg0 + n ≤ i → Mem.byte 0 t.wdn.staging i = Mem.byte 0 s.wdn.staging i)) ∧
   (∀ (c key : Nat) (img : List Byte) (x : Slot) (s : State), s.awake = true → s.adminCmd c 0x46 = some (key, x) →
     s.activation = some c → s.glb.spi = none → x.arg0 = 1 → s.stagedImage = some img →
     ∃ t, exec (.firmwareActivate c) s = .next t ∧ t = { s with cq := t.cq, wdn := t.wdn, flash := t.flash } ∧
       t.cmd? c = some (key, { x with status := St.success, wait := .finished }) ∧ t.wdn.staged = [] ∧
       t.wdn.staging = [] ∧
       ∀ i v, img[i]? = some v → Mem.byte 0xFF t.flash.mem (0x800000 + 0x100000 * s.otherSlot + i) = v) ∧
   (∀ (c key : Nat) (img : List Byte) (x : Slot) (s : State), s.awake = true → s.adminCmd c 0x46 = some (key, x) →
     s.activation = some c → s.glb.spi = none → x.arg0 = 2 → s.stagedImage = some img →
     ∃ t w : State, exec (.firmwareActivate c) s = .next t ∧
       w = ((s.flashImagePut s.otherSlot img).stagingClear).activateImage img s.otherSlot ∧
       t = { w.finish c (if w.wdn.fwSlot = some s.otherSlot then St.success else St.firmwareImage) with pending := s.pending }))

/-! ### The volume mapper (07_volumes_and_blocks.md) -/

/-- VOL_CMD READ shows the selected entry in VOL_WORD, and WRITE commits an access group, a volume entry or an extent entry, its
reserved bits 0; an extent entry that commands still use waits, and EXTENT_COMMIT commits it once they are gone (R288, R304,
R311). ACTIVATE makes a volume whose extents are as R301 needs them ACTIVE; DEACTIVATE takes it out of use at once and is done
when none of its commands is left (R305). INIT writes an extent whose group and key are in place, and INIT_DONE makes it MAPPED
(R289). -/
def Obligations.Volumes : Prop :=
  ((∀ (p : Path) (s : State), s.up = true → s.modeLets p A.VOL_CMD = true → s.volBusy = false →
     s.fld F.VOL_SEL_TABLE = 0 → s.fld F.VOL_SEL_INDEX < 4096 →
     ∃ t, exec (.volRead p) s = .next t ∧ t = { s with regs := t.regs } ∧ t.is F.VOL_STATUS_CMD_DONE = true ∧
       ∀ n < 16, (t.word (A.VOL_WORD n)).toNat = getBits (s.vent (s.fld F.VOL_SEL_INDEX)) (32 * n) 32) ∧
   (∀ (p : Path) (i : Nat) (s : State), s.up = true → s.modeLets p A.VOL_CMD = true → s.volBusy = false →
     i = s.fld F.VOL_SEL_INDEX →
     (s.fld F.VOL_SEL_TABLE = 3 → i < 4096 →
       ∃ t, exec (.volWrite p) s = .next t ∧ t = { s with vol := { s.vol with access := t.vol.access }, regs := t.regs } ∧
         t.accessGroup i = (s.word (A.VOL_WORD 0)).toNat % 64 ∧ (∀ e, e ≠ i → t.accessGroup e = s.accessGroup e) ∧
         t.is F.VOL_STATUS_CMD_DONE = true) ∧
     (s.fld F.VOL_SEL_TABLE = 0 → i < 4096 → getPart (s.vent i) Volu.state ≠ 1 →
       ∃ t, exec (.volWrite p) s = .next t ∧
         t.vent i = volEntry (putPart (ofBytes 512 (s.volStaged 16)) Volu.state (getPart (s.vent i) Volu.state)) ∧
         (∀ e, e ≠ i → t.vent e = s.vent e) ∧ t.is F.VOL_STATUS_CMD_DONE = true ∧ t.vol.grps = s.vol.grps ∧
         t.vol.exts = s.vol.exts) ∧
     (s.fld F.VOL_SEL_TABLE = 2 → s.extHeld i (extEntry (ofBytes 256 (s.volStaged 8))) = false →
       (s.holders i = [] → ∃ t, exec (.volWrite p) s = .next t ∧ t.ext i = extEntry (ofBytes 256 (s.volStaged 8)) ∧
         (∀ e, e ≠ i → t.ext e = s.ext e) ∧ t.is F.VOL_STATUS_CMD_DONE = true ∧
         t = { s with vol := t.vol, hst := t.hst, rsv := t.rsv, regs := t.regs }) ∧
       (s.holders i ≠ [] → exec (.volWrite p) s = .next { s with vol := { s.vol with
         waitingExt := some (i, extEntry (ofBytes 256 (s.volStaged 8)), s.holders i) } }))) ∧
   (∀ (i : Nat) (e : BitVec 256) (cs : List Nat) (s : State), s.awake = true → s.vol.waitingExt = some (i, e, cs) →
     ((cs.any fun c => match s.cmd? c with | some (_, x) => s.holdsEntry i x | none => false) = false →
       ∃ t, exec .extentCommit s = .next t ∧ t.ext i = e ∧ (∀ k, k ≠ i → t.ext k = s.ext k) ∧ t.vol.waitingExt = none ∧
         t.is F.VOL_STATUS_CMD_DONE = true) ∧
     ((cs.any fun c => match s.cmd? c with | some (_, x) => s.holdsEntry i x | none => false) = true →
       exec .extentCommit s = .next s))) ∧
  ((∀ (p : Path) (v : Nat) (s : State), s.up = true → s.modeLets p A.VOL_CMD = true → s.volBusy = false →
     s.fld F.VOL_SEL_TABLE = 0 → v = s.fld F.VOL_SEL_INDEX → v < 4096 →
     (s.volActive v = false → s.extentsOk v (s.vent v) = true →
       ∃ t, exec (.volActivate p) s = .next t ∧ t.vent v = putPart (s.vent v) Volu.state 1 ∧
         (∀ e, e ≠ v → t.vent e = s.vent e) ∧ t.is F.VOL_STATUS_CMD_DONE = true ∧
         t = { s with vol := { s.vol with vols := t.vol.vols }, regs := t.regs }) ∧
     (s.volActive v = false → s.extentsOk v (s.vent v) = false →
       ∃ t, exec (.volActivate p) s = .next t ∧ t = { s with regs := t.regs } ∧ t.fld F.VOL_ERROR_CODE = 4 ∧
         t.is F.VOL_STATUS_CMD_REFUSED = true) ∧
     (s.volActive v = true →
       ∃ t, exec (.volDeactivate p) s = .next t ∧ t.volActive v = false ∧ (∀ e, e ≠ v → t.vent e = s.vent e) ∧
         (s.volBusyCmds v = false → t.vol.deactivating = none ∧ t.is F.VOL_STATUS_CMD_DONE = true) ∧
         (s.volBusyCmds v = true → t.vol.deactivating = some v))) ∧
   (∀ (v : Nat) (s : State), s.awake = true → s.vol.deactivating = some v →
     (s.volBusyCmds v = false → ∃ t, exec .deactivateDone s = .next t ∧
       t = { s with vol := { s.vol with deactivating := none }, regs := t.regs } ∧ t.is F.VOL_STATUS_CMD_DONE = true) ∧
     (s.volBusyCmds v = true → exec .deactivateDone s = .next s)) ∧
   (∀ (p : Path) (i : Nat) (s : State), s.up = true → s.modeLets p A.VOL_CMD = true → s.volBusy = false →
     s.fld F.VOL_SEL_TABLE = 2 → i = s.fld F.VOL_SEL_INDEX → getPart (s.ext i) Ext.state ≤ 1 →
     s.grpOn (getPart (s.ext i) Ext.group % 8) = true → s.groupState (getPart (s.ext i) Ext.group % 8) ≠ 4 →
     (s.volKey (getPart (s.ext i) Ext.volume % 4096)).isSome = true →
     ∃ t, exec (.volInit p) s = .next t ∧ t.ext i = putPart (s.ext i) Ext.state Exts.init ∧
       (∀ k, k ≠ i → t.ext k = s.ext k) ∧ t.vol.init = some { entry := i, next := 0, intents := [] }) ∧
   (∀ (j : InitJob) (s : State), s.awake = true → s.vol.init = some j → s.str.live = [] → s.str.waiting = [] →
     extentStripes (s.grp (getPart (s.ext j.entry) Ext.group % 8)) ≤ j.next →
     ∃ t, exec .initDone s = .next t ∧ t.ext j.entry = putPart (s.ext j.entry) Ext.state Exts.mapped ∧
       (∀ k, k ≠ j.entry → t.ext k = s.ext k) ∧ t.vol.init = none ∧ t.is F.VOL_STATUS_CMD_DONE = true))

/-- P, Q and data strip j lie on the members that R272 names. In a group of three members or more, P, Q and the data strips so
lie on members of their own, and every member holds one: the geometry is a rotation and loses no member. -/
def Obligations.StripeGeometry : Prop :=
  ∀ (e : BitVec 512) (stripe : Nat), 3 ≤ grpMembers e →
    pMember e stripe = grpMembers e - 1 - stripe % grpMembers e ∧ qMember e stripe = (pMember e stripe + 1) % grpMembers e ∧
    (∀ j < dataStrips e, dataMember e stripe j = (qMember e stripe + 1 + j) % grpMembers e) ∧ dataStrips e = grpMembers e - 2 ∧
    pMember e stripe < grpMembers e ∧ qMember e stripe < grpMembers e ∧ pMember e stripe ≠ qMember e stripe ∧
    stripOf e stripe (pMember e stripe) = .p ∧ stripOf e stripe (qMember e stripe) = .q ∧
    (∀ j < dataStrips e, dataMember e stripe j < grpMembers e ∧ dataMember e stripe j ≠ pMember e stripe ∧
      dataMember e stripe j ≠ qMember e stripe ∧ stripOf e stripe (dataMember e stripe j) = .data j) ∧
    (∀ i < dataStrips e, ∀ j < dataStrips e, dataMember e stripe i = dataMember e stripe j → i = j) ∧
    (∀ m < grpMembers e, (stripOf e stripe m = .p ∧ m = pMember e stripe) ∨
      (stripOf e stripe m = .q ∧ m = qMember e stripe) ∨
      ∃ j < dataStrips e, stripOf e stripe m = .data j ∧ dataMember e stripe j = m)

/-! ### Stripe writes, journal and dump (08_stripe_writes_and_attic.md) -/

/-- STRIPE_WRITE_ADMIT records the first stripe write that may be looked at as an intent in FILLING with a buffer and, but for INIT,
the group's next generation (R318, R323, R327, R330; the numbers taken are the choices of assumption 20). BUFFER_COMPLETE makes
the intent READY once its buffer is built, and fails the write where it cannot be (R314 to R316, R332; CELLAR_DATA_ERROR for a
buffer in failed slices is the choice of assumption 131). REPLAY, the copies found damaged left out, takes the first of the best
sources. Without any it drops an Attic journal of another shelf, records NO_JOURNAL and patrols every enabled group; after a
clean shutdown it takes no intent up; from any source it goes on with the journal, an intent left over being one that waits for
its key (R340, R341, R350, R357 to R359, R364, R486; the generation after a member copy is the reading of assumption 63).
REPLAY_DONE, with every intent closed, empties the dump area, starts a checkpoint and sets REPLAY_DONE (R361). -/
def Obligations.StripeWriteLife : Prop :=
  ((∀ (w : StripeWrite) (i a : Nat) (s : State), s.awake = true → s.admits = true → s.vol.init = none →
     s.str.waiting.find? s.stripeFree = some w → s.groupState w.group ≠ 4 → w.mode = 3 ∨ s.genOut w.group = false →
     s.freeIntent = some i → s.slotsHeld + s.bufferSize w ≤ 114688 → s.findSlots (s.bufferSize w) = some a →
     ∃ t v, exec .stripeWriteAdmit s = .next t ∧ t.str.live = s.str.live ++ [v] ∧ v.name = w.name ∧ v.intent = some i ∧
       t.str.waiting = s.str.waiting.filter (fun y => y.name != w.name) ∧
       Tab.find? i t.str.buffers = some (a, s.bufferSize w) ∧ t.intentState i = Ins.filling ∧ t.attic.clean = false ∧
       (w.mode ≠ 3 → t.clock w.group = s.clock w.group + 1) ∧ (w.mode = 3 → t.clock w.group = s.clock w.group) ∧
       ∀ k, k ≠ i → t.intent k = s.intent k) ∧
   (∀ (n i first size : Nat) (bad : List (Nat × Nat)) (w : StripeWrite) (s : State), s.awake = true →
     s.live? n = some w → w.intent = some i → Tab.find? i s.str.buffers = some (first, size) → s.canBuild w = true →
     (∀ b0 b t len, s.build w (getPart (s.intent i) Intent.newGen) bad = .ok b0 → (s.builtReads b0 bad).fitLosses w b0 = (b, t) →
       len = b.data.length + b.p.length + b.q.length + b.markers.length →
       (∀ a, t.bufferPlace i first size len = some a →
         (t.rangeFailed (t.slotAddr a) (4352 * len) = false →
           exec (.bufferComplete n bad) s = .next { t.makeReady w i a b with pending := s.pending }) ∧
         (t.rangeFailed (t.slotAddr a) (4352 * len) = true →
           exec (.bufferComplete n bad) s = .next { t.failWrite w St.cellarDataError with pending := s.pending })) ∧
       (t.bufferPlace i first size len = none → exec (.bufferComplete n bad) s = .next s) ∧
       (len ≤ size → ∃ a, t.bufferPlace i first size len = some a)) ∧
     (∀ st, s.build w (getPart (s.intent i) Intent.newGen) bad = .error st →
       exec (.bufferComplete n bad) s = .next { s.failWrite w st with pending := s.pending }))) ∧
  ((∀ (m : Nat) (f : List (Nat × Nat × CopyFault)) (media : MediaErrors) (s u : State), s.awake = true → s.str.replayBusy = false →
     s.str.replayed = false → u = s.copyFaults f →
     (bestSource ((u.atticSource m).toList ++ u.memberSources m u.side) = none →
       ∃ t, exec (.replay m f media) s = .next t ∧ t.str = { s.str with
           replayed := true, replayBusy := true, replaySource := (0, 0), replayLeft := [], prior := some s.attic.ownJournal } ∧
         t.is F.STR_STATUS_NO_JOURNAL = true ∧
         t.attic = { s.attic with journalId := m, intents := [], lost := [], clean := false, dump := [], sealed := none } ∧
         t = { u with str := t.str, regs := t.regs, rbd := t.rbd, attic := t.attic } ∧
         ∀ g < 8, s.grpOn g = true → (t.patrol g).kind = .unpaced ∧ (t.patrol g).point = 0) ∧
     (∀ src, bestSource ((u.atticSource m).toList ++ u.memberSources m u.side) = some src → src.code = 5 →
       src.lost = none → src.clocks = none →
       exec (.replay m f media) s = .next { u with
         str := { s.str with
           replayed := true, replayBusy := true, replaySource := (5, src.bay), replayLeft := [], prior := some s.attic.ownJournal }
         attic := { s.attic with intents := [], journalId := m, journalGen := src.gen } }) ∧
     (∀ src, bestSource ((u.atticSource m).toList ++ u.memberSources m u.side) = some src →
       ∃ t, exec (.replay m f media) s = .next t ∧ t.str.replayed = true ∧ t.str.replayBusy = true ∧
         t.str.replaySource = (src.code, src.bay) ∧ t.attic.journalId = m ∧ t.str.prior = some s.attic.ownJournal ∧
         t.attic.journalGen = (if src.code = 4 then src.gen + 1 else src.gen) ∧
         t.attic.intents.map (·.1) = t.str.replayLeft ∧ (∀ k ∈ t.str.replayLeft, ∃ i, (k, i) ∈ src.intents) ∧
         (src.code = 4 → ∀ g < 8, s.grpOn g = true → (t.patrol g).kind = .unpaced ∧ (t.patrol g).postReplay = true))) ∧
   (∀ s : State, s.awake = true → s.str.replayBusy = true → s.str.replayLeft = [] → s.attic.clockMarks = [] →
     s.isFenced = false → s.str.ckpt = none →
     ∃ t r, exec .replayDone s = .next t ∧ t.str.replayBusy = false ∧ t.str.prior = none ∧ t.attic = { s.attic with dump := [], sealed := none } ∧
       t.str.ckpt = some r ∧ r.content.gen = s.attic.journalGen ∧ t.is F.STR_STATUS_REPLAY_DONE = true ∧
       t = { s with str := t.str, attic := t.attic, drives := t.drives, regs := t.regs }))

/-- CHECKPOINT and PERIODIC_CHECKPOINT take the cut of the journal and begin a checkpoint on the copy members (R351, R352);
CHECKPOINT_DONE seals its three copies once their ports are READY and raises the journal generation (R351). SHUTDOWN stops admission and, with nothing live, writes
the last checkpoint (R356). DISCARD_GROUP frees the live intents of a group (R338). -/
def Obligations.Checkpoints : Prop :=
  (∀ (p : Path) (s : State), s.up = true → s.modeLets p A.STR_CMD = true → s.str.replayBusy = false → s.isFenced = false →
    (s.str.ckpt = none → ∃ t r, exec (.checkpoint p) s = .next t ∧ t.str.ckpt = some r ∧
      r.content.gen = s.attic.journalGen ∧ r.content.cut = s.now ∧ r.content.intents = s.attic.intents ∧
      r.content.lost = s.attic.lost ∧ r.content.log = s.dumpRecords ∧ r.content.sealed = false ∧ r.copies = s.chooseCopies ∧
      r.shutdown = false ∧
      t.str.lastCkpt = s.now ∧ t = { s with str := t.str, drives := t.drives }) ∧
    (s.str.ckpt ≠ none → ∃ t, exec (.checkpoint p) s = .next t ∧
      t = { s with str := { s.str with ckptDue := true }, regs := t.regs } ∧ t.is F.STR_STATUS_CKPT_LATE = true)) ∧
  (∀ s : State, s.awake = true → Tab.getD Tick.ckpt 0 s.served < s.now / 1000000000 * 1000000000 →
    s.is F.STR_CTRL_CKPT_EN = true → s.isFenced = false → s.str.ckpt = none →
    ∃ t r, exec .periodicCheckpoint s = .next t ∧ t.str.ckpt = some r ∧ r.content.gen = s.attic.journalGen ∧
      r.content.log = s.dumpRecords ∧ r.shutdown = false ∧ t.str.lastCkpt = s.now ∧
      t = { s with str := t.str, drives := t.drives, served := t.served }) ∧
  (∀ (r : CkptRun) (s : State), s.awake = true → s.str.ckpt = some r → r.shutdown = false → s.str.ckptDue = false →
    s.str.shutdown = false → 3 ≤ r.copies.length → r.copies.all s.copyStands = true →
    ((r.copies.all fun c => s.portReady c.2.2) = false → exec .checkpointDone s = .next s) ∧
    ((r.copies.all fun c => s.portReady c.2.2) = true → ∃ t, exec .checkpointDone s = .next t ∧ t.str = { s.str with ckpt := none } ∧ t.is F.STR_STATUS_CKPT_DONE = true ∧
      t.attic = { s.attic with journalGen := s.attic.journalGen + 1 } ∧
      (∀ x ∈ r.copies, ∃ k c, Tab.find? k (Tab.getD x.2.2 driveDefault t.drives).ckpts = some c ∧
        c.gen = r.content.gen ∧ c.sealed = true) ∧
      t = { s with str := t.str, attic := t.attic, drives := t.drives, regs := t.regs })) ∧
  (∀ (p : Path) (s : State), s.up = true → s.modeLets p A.STR_CMD = true → s.str.shutdown = false →
    s.str.replayBusy = false →
    (s.str.live ≠ [] → exec (.shutdown p) s = .next { s with str := { s.str with shutdown := true } }) ∧
    (s.str.live = [] → s.str.ckpt = none → ∃ t r, exec (.shutdown p) s = .next t ∧ t.str.shutdown = true ∧
      t.str.ckpt = some r ∧ r.shutdown = true ∧ t = { s with str := t.str, drives := t.drives })) ∧
  (∀ (p : Path) (g i c : Nat) (w : StripeWrite) (s : State), s.up = true → s.modeLets p A.STR_CMD = true →
    s.str.replayBusy = false → s.str.shutdown = false → s.str.live = [w] → w.group = g → w.owner = .command c →
    s.cmd? c = none → w.intent = some i → w.mirrorWait = false → w.mirrored = false →
    ∃ t, exec (.discardGroup p g) s = .next t ∧ t.str.live = [] ∧ Tab.find? i t.str.buffers = none ∧ t.intent i = 0 ∧
      (∀ k, k ≠ i → t.intent k = s.intent k) ∧ t.trn = s.trn ∧ t.vol = s.vol)

/-- POWER_LOSS_ASSERT cuts every bay off and writes the dump records, and only writes already issued can still reach a drive;
DUMP_SEALED seals them and the part goes to POWER_HOLD;
POWER_LOSS_DEASSERT restarts the 100 ms that POWER_HOLD_EXIT waits for, and that is a device reset that keeps the Attic, the
fuses, the boot flash and the drives (R342 to R346, R589, R590, R735). -/
def Obligations.PowerLoss : Prop :=
  (∀ s : State, s.glb.phase = .running → s.asleep = false → s.draining = false → s.bay.powerLoss = false →
    ∃ t, exec .powerLossAssert s = .next t ∧ t.bay.powerLoss = true ∧ t.bay.lineAt = s.now ∧ t.glb.phase = .lossDump ∧
      s.dumpedTo t ∧ t.is F.BAY_STATUS_POWER_LOSS = true ∧
      t.pair A.BAY_PL_EVENTS = (s.pair A.BAY_PL_EVENTS + 1) % 2 ^ 64 ∧
      (∀ n < 24, t.is (F.BAY_EN_MAIN_EN n) = false ∧ t.is (F.BAY_EN_AUX_EN n) = false) ∧ t.trn = s.trn ∧ t.cq = s.cq ∧
      t.str = s.str ∧ t.hst = s.hst) ∧
  (∀ s : State, s.glb.phase = .lossDump → exec .dumpSealed s = .next { s with
    attic := { s.attic with
      dumpSealed := true
      sealed := some ⟨s.attic.journalId, s.attic.journalGen, s.attic.dump.length, s.clockList, dumpCrc s.attic.dump⟩ }
    glb := { s.glb with phase := .powerHold } }) ∧
  (∀ s : State, s.glb.phase ≠ .held → s.bay.powerLoss = true →
    ∃ t, exec .powerLossDeassert s = .next t ∧
      t = { s with bay := { s.bay with powerLoss := false, lineAt := s.now }, glb := t.glb } ∧
      t.glb.phase = s.glb.phase ∧ t.glb.pgIn = (s.glb.pgIn || s.glb.pgLoss)) ∧
  (∀ s : State, s.glb.phase = .powerHold → s.bay.powerLoss = false →
    (s.now < s.bay.lineAt + 100000000 → exec .powerHoldExit s = .next s) ∧
    (s.bay.lineAt + 100000000 ≤ s.now → ∃ t, exec .powerHoldExit s = .next t ∧ t.glb.phase = State.reset.glb.phase ∧
      t.fld F.GLB_RESET_CAUSE_CAUSE = 3 ∧ t.is F.GLB_RESET_CAUSE_DUMPED = true ∧ t.attic = s.attic ∧ t.fuses = s.fuses ∧
      t.flash = s.flash ∧ t.drives = s.drives ∧ t.hst = State.reset.hst ∧ t.cq = State.reset.cq ∧
      t.vol = State.reset.vol ∧ t.now = State.reset.now ∧
      ∀ a, a ≠ F.GLB_RESET_CAUSE_CAUSE.addr → t.word a = State.reset.word a))

/-! ### Rebuild, patrol and reshape (09_failure_rebuild_reshape.md) -/

/-- REBUILD_STRIPE takes the stripe at the walk's point and moves each target served on by one (R377 to R380); a stripe that
no extent holds, or a disputed one, is passed without a write (R400). REBUILD_RECORD records the targets in the Attic each 1 s
(R384), and what is recorded of a group not enabled stands; the patrol points go with them (assumption 152). MEMBER_STATE_CHANGE sets a member FAILED once its errors within 24 h reach the limit, and not before (R367). -/
def Obligations.RebuildWalk : Prop :=
  (∀ (g i : Nat) (x : Target) (bad wbad : List (Nat × Nat)) (s : State), s.awake = true → s.walkReady g = true →
    s.draining = false → s.targets g = [(i, x)] → x.done = false → x.wrapped = false →
    x.point + 1 < getPart (s.grp g) Grp.stripes →
    s.extentOf g x.point = none ∨ s.disputed g x.point = true →
    exec (.rebuildStripe g bad wbad) s = .next { s with rbd := { s.rbd with
      targets := Tab.set (g * 2 + i) { x with point := x.point + 1 } s.rbd.targets } }) ∧
  (∀ (g : Nat) (e : Nat × BitVec 256 × Nat) (bad wbad : List (Nat × Nat)) (s : State), s.awake = true →
    s.walkReady g = true → s.draining = false → s.extentOf g (s.walkPoint g) = some e →
    s.disputed g (s.walkPoint g) = false →
    ∃ t u : State, exec (.rebuildStripe g bad wbad) s = .next t ∧
      t = { (((u.bump A.RBD_REBUILT_STRIPES).walkOn g (s.walkPoint g) ((s.served_ g).map (·.member))).putFails g
        (s.rebuildRows g (s.walkPoint g) e.2.1 e.2.2 ((s.served_ g).map (·.member)) bad wbad).2).rebuildEnd g with
        pending := s.pending } ∧
      u.drives = (s.rebuildRows g (s.walkPoint g) e.2.1 e.2.2 ((s.served_ g).map (·.member)) bad wbad).1.drives ∧
      ∀ m ∈ (s.served_ g).map (·.member), (g * 32 + m, s.now, stripBlocks (s.grp g) * 4096) ∈ u.rbd.written) ∧
  (∀ (k i : Nat) (x : Target) (s : State), s.awake = true →
    Tab.getD Tick.rebuildRecord 0 s.served < s.now / 1000000000 * 1000000000 → k < 8 →
    (∀ g < 8, s.targets g = if g = k then [(i, x)] else []) →
    exec .rebuildRecord s = .next { s with
      attic := { s.attic with
        rebuild := Tab.set (k * 32 + x.member) (x.start, x.point, x.wrapped) (s.attic.rebuild.filter fun y => !s.grpOn (y.1 / 32))
        patrols := s.rbd.patrols.map fun y => (y.1, y.2.point) }
      served := Tab.set Tick.rebuildRecord (s.now / 1000000000 * 1000000000) s.served }) ∧
  (∀ (g m : Nat) (s : State), s.awake = true → s.overErrors g m = false →
    exec (.memberStateChange g m) s = .next s) ∧
  (∀ (g m : Nat) (s : State), s.awake = true → s.overErrors g m = true → s.grpOn g = true → s.member g m ≤ 1 →
    m < grpMembers (s.grp g) → m < 24 →
    ∃ t u : State, exec (.memberStateChange g m) s = .next t ∧
      t = { u.memberLeft g m (s.groupState g) with pending := s.pending } ∧
      u.member g m = Mem.failed ∧ (∀ k, k ≠ m → k < 24 → u.member g k = s.member g k) ∧
      u.groupState g = groupStateOf (setMemberState (s.grp g) m Mem.failed) ∧
      u = { s with vol := { s.vol with grps := u.vol.grps }, regs := u.regs })

/-- A row's strips as the walk and the patrol take them: where all blocks of a row are readable but one, reconstruction gives
the strips of which P and Q are the parities (R321, R322, R371), so the target gets the stored bytes of its own strip (R381),
and a row whose blocks agree needs nothing (R398). -/
def Obligations.RowJudged : Prop :=
  (∀ (s : State) (r : Row) (m : Nat) (ds : List (List Byte)), r.missingMembers.length ≤ 2 →
    r.reconstruct (s.unpatrolled r.group r.stripe) = some ds → r.lost.contains m = false → r.isPad m = false →
    s.targetPuts r [m] = [r.blockAt r.topGen m (r.storedOf ds m)]) ∧
  (∀ (s : State) (r : Row) (p q : Block), r.missingMembers = [] →
    (r.at_ (pMember r.entry r.stripe)).block? = some p → (r.at_ (qMember r.entry r.stripe)).block? = some q →
    p.1.length = 4096 → q.1.length = 4096 → p.1 = pOf r.withZeros → q.1 = qOf r.withZeros → s.rowCase r = RowFix.none_) ∧
  (∀ (s : State) (r : Row), 2 < r.missingMembers.length →
    (s.rowCase r).loss = true ∧ (s.rowCase r).back = [] ∧ (s.rowCase r).parity = [] ∧ (s.rowCase r).member = [])

/-- PATROL_STRIPE takes the stripe at the patrol's point and moves on (R393); PATROL_LATE flags a cycle that takes too long;
PATROL_START begins a walk at stripe 0 and PATROL_STOP ends every patrol (R415). RESOLVE rewrites the disputed stripe that
RBD_LOST_SEL names (R401). RESHAPE_START gives a MAPPED extent its second location and begins the copy (R403), and is refused
where Table 09-10 says so; RESHAPE_STEP copies a stripe, records it and at the end switches the entry (R405, R408);
RESHAPE_ABORT ends a reshape that builds beside (R408); GROUP_REDEFINE commits an entry for a group that no extent names,
ENABLED unchanged (R414). -/
def Obligations.PatrolsAndReshapes : Prop :=
  ((∀ (g : Nat) (bad wbad : List (Nat × Nat)) (s : State), s.awake = true → g < 8 → s.grpOn g = true →
     s.walksGroup g = true → s.isFenced = false → s.draining = false → s.patrolPaused g = false →
     (s.patrol g).ext = none → (s.patrol g).kind = .unpaced → (s.patrol g).passed = false →
     (s.patrol g).point + 1 < getPart (s.grp g) Grp.stripes → s.stripeIdle g (s.patrol g).point = true →
     (s.extentOf g (s.patrol g).point = none →
       ∃ t, exec (.patrolStripe g bad wbad) s = .next t ∧ t = { s with rbd := t.rbd, regs := t.regs } ∧
         t.rbd = { s.rbd with patrols := Tab.set g { s.patrol g with point := (s.patrol g).point + 1 } s.rbd.patrols } ∧
         t.pair A.RBD_PATROL_STRIPES = (s.pair A.RBD_PATROL_STRIPES + 1) % 2 ^ 64) ∧
     ∃ t u : State, exec (.patrolStripe g bad wbad) s = .next t ∧
       u = (s.patrolRows g (s.patrol g).point (s.is F.RBD_CTRL_PATROL_REPAIR) bad wbad).1.bump A.RBD_PATROL_STRIPES ∧
       t = { u.setPatrol g { s.patrol g with point := (s.patrol g).point + 1 } with pending := s.pending }) ∧
   (∀ (g : Nat) (s : State), s.awake = true → (s.patrol g).kind = .periodic → (s.patrol g).late = false →
     ((s.patrol g).began + s.patrolDays * day ≤ s.now →
       ∃ t, exec (.patrolLate g) s = .next t ∧ t = { s with rbd := t.rbd, regs := t.regs } ∧
         t.is F.RBD_STATUS_PATROL_LATE = true ∧ (t.patrol g).late = true ∧ ∀ k, k ≠ g → t.patrol k = s.patrol k) ∧
     (s.now < (s.patrol g).began + s.patrolDays * day → exec (.patrolLate g) s = .next s)) ∧
   (∀ (p : Path) (g : Nat) (s : State), s.up = true → s.modeLets p A.RBD_CMD = true → s.grpOn g = true →
     ∃ t, exec (.patrolStart p g) s = .next t ∧ t = { s with rbd := { s.rbd with patrols := t.rbd.patrols } } ∧
       t.patrol g = { s.patrol g with
         kind := .unpaced, point := 0, began := s.now, late := false, every := (s.patrol g).every && !(s.patrol g).passed
         passed := false, kept := (s.patrol g).toKeep } ∧
       ∀ k, k ≠ g → t.patrol k = s.patrol k) ∧
   (∀ (p : Path) (s : State), s.up = true → s.modeLets p A.RBD_CMD = true →
     ∃ t, exec (.patrolStop p) s = .next t ∧ t = { s with rbd := { s.rbd with patrols := t.rbd.patrols } } ∧
       ∀ g, (t.patrol g).kind = .idle ∧ (t.patrol g).ext = (s.patrol g).ext) ∧
   (∀ (p : Path) (i first : Nat) (x : BitVec 256) (e : BitVec 128) (s : State), s.up = true → s.modeLets p A.RBD_CMD = true →
     e = Tab.getD (s.fld F.RBD_LOST_SEL_GROUP * 4096 + s.fld F.RBD_LOST_SEL_INDEX) 0 s.attic.lost →
     lostValid e = true → lostDisputed e = true →
     s.extentOf (s.fld F.RBD_LOST_SEL_GROUP) (getPart e Lost.stripe) = some (i, x, first) →
     ∃ t w, exec (.resolve p) s = .next t ∧
       t = { s with str := { s.str with waiting := s.str.waiting ++ [w], nextName := s.str.nextName + 1 } } ∧
       w.name = s.str.nextName ∧ w.owner = .resolve ∧ w.group = s.fld F.RBD_LOST_SEL_GROUP ∧
       w.stripe = getPart e Lost.stripe ∧ w.fua = true)) ∧
  ((∀ (p : Path) (i g f : Nat) (s : State), s.up = true → s.modeLets p A.RBD_CMD = true → s.rbd.reshape = none →
     i = s.fld F.RBD_RESHAPE_CFG_EXTENT → g = s.fld F.RBD_RESHAPE_CFG_GROUP → f = s.pair A.RBD_RESHAPE_DST % 2 ^ 48 →
     (s.fld F.RBD_RESHAPE_CFG_MODE = 1 → s.grpOn g = true → s.groupState g ≠ 4 → getPart (s.ext i) Ext.state = Exts.mapped →
       ∃ t r, exec (.reshapeStart p) s = .next t ∧
         t.ext i = putPart (putPart (putPart (putPart (s.ext i) Ext.state Exts.moving) Ext.altGroup g) Ext.altFirst f)
           Ext.boundary 0 ∧
         (∀ k, k ≠ i → t.ext k = s.ext k) ∧ t.rbd = { s.rbd with reshape := some r } ∧ r.state = .copying ∧
         r.entry = i ∧ r.dstGroup = g ∧ r.dstFirst = f ∧ r.mode = 1 ∧ r.copied = 0 ∧ r.step = .idle ∧
         t = { s with vol := t.vol, hst := t.hst, rsv := t.rsv, rbd := t.rbd, regs := t.regs }) ∧
     (s.grpOn g = false ∨ s.groupState g = 4 ∨ getPart (s.ext i) Ext.state = Exts.free →
       ∃ t, exec (.reshapeStart p) s = .next t ∧ t = { s with regs := t.regs } ∧ t.is F.RBD_STATUS_RESHAPE_HELD = true)) ∧
   (∀ (r : Reshape) (s : State), s.awake = true → s.rbd.reshape = some r → s.isFenced = false → r.mode = 1 →
     (r.state = .copying → r.step = .idle → s.draining = false → s.groupState r.dstGroup ≠ 4 →
       s.groupState (getPart (s.ext r.entry) Ext.group % 8) ≠ 4 → s.genOut r.dstGroup = false →
       s.stillHold r.entry r.waits = false → s.stepClear r = true →
       ∃ t w, exec .reshapeStep s = .next t ∧
         t = { s with
           str := { s.str with waiting := s.str.waiting ++ [w], nextName := s.str.nextName + 1 }
           rbd := { s.rbd with reshape := some { r with step := .writing, waits := [] } } } ∧
         w.owner = .reshape ∧ w.group = r.dstGroup ∧ w.stripe = r.dstFirst + r.copied / stripeBlocks (s.grp r.dstGroup) ∧
         w.count = min (stripeBlocks (s.grp r.dstGroup)) (1048576 - r.copied) ∧ w.fua = true) ∧
     (r.state = .copying → r.step = .written → r.stopping = false → r.copied + s.stepCount r < 1048576 →
       ∃ t, exec .reshapeStep s = .next t ∧ t = { s with rbd := t.rbd, regs := t.regs } ∧
         t.rbd = { s.rbd with reshape := some { r with copied := r.copied + s.stepCount r, step := .idle, waits := [] } } ∧
         t.pair A.RBD_MOVED_BLOCKS = (s.pair A.RBD_MOVED_BLOCKS + s.stepCount r) % 2 ^ 64) ∧
     (r.state = .copying → r.step = .written → r.stopping = true → r.copied + s.stepCount r < 1048576 →
       ∃ t, exec .reshapeStep s = .next t ∧ t = { s with rbd := t.rbd, regs := t.regs } ∧
         t.rbd = { s.rbd with reshape := some { r with
           state := .held, copied := r.copied + s.stepCount r, step := .idle, waits := [], stopping := false } } ∧
         t.is F.RBD_STATUS_RESHAPE_HELD = true) ∧
     (r.state = .switching → s.stillHold r.entry r.waits = true → exec .reshapeStep s = .next s ∧ s.volBusy = true) ∧
     (r.state = .switching → s.stillHold r.entry r.waits = false →
       ∃ t, exec .reshapeStep s = .next t ∧ t.rbd = { s.rbd with reshape := none } ∧ t.is F.RBD_STATUS_RESHAPE_DONE = true ∧
         t.ext r.entry = putPart (putPart (putPart (s.ext r.entry) Ext.state Exts.mapped) Ext.group
           (getPart (s.ext r.entry) Ext.altGroup)) Ext.firstStripe (getPart (s.ext r.entry) Ext.altFirst) ∧
         (∀ k, k ≠ r.entry → t.ext k = s.ext k)) ∧
     (s.str.waiting = [] → s.str.live = [] → ∀ p : Path, s.modeLets p A.RBD_CMD = true →
       ∃ t, exec (.reshapeAbort p) s = .next t ∧ t.rbd = { s.rbd with reshape := none } ∧
         t.is F.RBD_STATUS_RESHAPE_DONE = true ∧ t.ext r.entry = putPart (s.ext r.entry) Ext.state Exts.mapped ∧
         ∀ k, k ≠ r.entry → t.ext k = s.ext k)) ∧
   (∀ (p : Path) (r : Reshape) (s : State), s.up = true → s.modeLets p A.RBD_CMD = true → s.rbd.reshape = some r →
     r.mode ≠ 1 → exec (.reshapeAbort p) s = .next s) ∧
   (∀ (p : Path) (g : Nat) (s : State), s.up = true → s.modeLets p A.RBD_CMD = true → g < 8 →
     ((s.vol.exts.any fun x => getPart x.2 Ext.state != 0 && (getPart x.2 Ext.group % 8 == g ||
         (getPart x.2 Ext.state == Exts.moving && getPart x.2 Ext.altGroup % 8 == g))) = true →
       ∃ t, exec (.groupRedefine p g) s = .next t ∧ t = { s with regs := t.regs } ∧ t.fld F.VOL_ERROR_CODE = 1 ∧
         t.is F.VOL_STATUS_CMD_REFUSED = true) ∧
     (s.vol.exts = [] → grpFieldBad (ofBytes 512 (s.volStaged 16)) = false →
       s.bayInUse g (grpEntry (ofBytes 512 (s.volStaged 16))) = false → s.grpOn g = false → s.groupState g = 0 →
       ∃ t, exec (.groupRedefine p g) s = .next t ∧
         t.grp g = putPart (putPart (grpEntry (ofBytes 512 (s.volStaged 16))) Grp.flags (getPart (s.grp g) Grp.flags)) Grp.state 0 ∧
         (∀ k, k ≠ g → t.grp k = s.grp k) ∧ t.is F.VOL_STATUS_CMD_DONE = true)))

/-! ### The read service (10_read_service.md) -/

/-- PENDING_READ_READY serves the waiters of a finished read in join order and ends it, or closes it while it still fills a line
(R36, R438, R439). FILL_DONE makes the line VALID, or its slot FREE where a block failed (R433). HEDGE_START reads around the
blocks that a slow member still owes, each once (R425). LATENCY_DECAY and HOTNESS_DECAY lower what no sample and no read renews
(R422, R430). PIN_HOLD_EXPIRY gives up a destination held for 64 ms and GROUP_COPY_PIN_RELEASE those whose last packet left 64
ms ago (R435, R446). GROUP_SEND sends a ready line to every port that has a group SA and notes the time (R441, R442).
STOMP_RESEND sends a stomped packet once more under its own index (R450). -/
def Obligations.ReadService : Prop :=
  ((∀ (n : Nat) (p : PendingRead) (s : State), s.awake = true → s.pend? n = some p → p.done = true → p.cut = false →
     ∃ t u : State, exec (.pendingReadReady n) s = .next t ∧ u = s.each p.waiters (fun s c => s.serveWaiter p c fun _ => true) ∧
       (p.fill = none → t = { u with
         rsv := { u.rsv with pending := u.rsv.pending.filter fun q => q.name != n }, pending := s.pending }) ∧
       (p.fill.isSome = true → t = { u.modPend n (fun p => { p with isOpen := false, waiters := [] }) with
         pending := s.pending })) ∧
   (∀ (n i : Nat) (p : PendingRead) (s : State), s.awake = true → s.pend? n = some p → p.fill = some i → p.done = true →
     p.waiters = [] → p.stale = false →
     ∃ t, exec (.fillDone n) s = .next t ∧ t = { s with rsv := t.rsv, hst := t.hst, regs := t.regs } ∧
       t.rsv.pending = s.rsv.pending.filter (fun q => q.name != n) ∧ (∀ k, k ≠ i → t.dirEnt k = s.dirEnt k) ∧
       ((∀ y ∈ p.blocks, y.verdict = some St.success) → dirState (t.dirEnt i) = 2 ∧
         getPart (t.dirEnt i) Dir.line = getPart (s.dirEnt i) Dir.line ∧ t.rsv.serial = (s.rsv.serial + 1) % 2 ^ 64 ∧
         t.regs = s.regs) ∧
       ((∃ y ∈ p.blocks, y.verdict ≠ some St.success) → t.dirEnt i = 0 ∧ t.is F.RSV_STATUS_FILL_FAILED = true)) ∧
   (∀ (n : Nat) (p : PendingRead) (s : State), s.awake = true → s.pend? n = some p →
     (s.is F.RSV_CTRL_HEDGE_EN = false ∨ s.hedgeable p = [] → exec (.hedgeStart n) s = .next s) ∧
     (s.is F.RSV_CTRL_HEDGE_EN = true → s.hedgeable p ≠ [] →
       ∃ t u : State, exec (.hedgeStart n) s = .next t ∧ t = { u.pendEval n with pending := s.pending } ∧
         u.pend? n = some { p with hedged := p.hedged ++ s.hedgeable p, around := p.around ++ s.hedgeable p } ∧
         u = { s with rsv := { s.rsv with pending := u.rsv.pending }, regs := u.regs } ∧
         u.pair A.RSV_HEDGES = (s.pair A.RSV_HEDGES + 1) % 2 ^ 64)) ∧
   (∀ s : State, s.awake = true → ∃ t, exec .latencyDecay s = .next t ∧
     t = { s with rsv := { s.rsv with lat := t.rsv.lat } } ∧ ∀ n < 24, ∀ k, k = (s.now - (s.lat n).last) / 1000000 →
       (t.lat n).last = (s.lat n).last + k * 1000000 ∧ (t.lat n).est = decayed (min k 4096) (s.lat n).est ∧
       (k = 1 → (t.lat n).est = (s.lat n).est - (s.lat n).est / 16)) ∧
   (∀ s : State, s.awake = true →
     (s.larderDecay = 0 → exec .hotnessDecay s = .next s) ∧
     (s.larderDecay ≠ 0 → (s.rsv.dir.map (·.1)).Nodup →
       Tab.getD Tick.hotness 0 s.served < s.now / (s.larderDecay * 1000000) * (s.larderDecay * 1000000) →
       ∃ t, exec .hotnessDecay s = .next t ∧ t = { s with rsv := t.rsv, served := t.served } ∧
         t.rsv = { s.rsv with dir := t.rsv.dir, ghost := t.rsv.ghost } ∧
         (∀ i, getPart (t.dirEnt i) Dir.hot = getPart (s.dirEnt i) Dir.hot / 2) ∧
         (∀ i, getPart (t.dirEnt i) Dir.line = getPart (s.dirEnt i) Dir.line ∧ dirState (t.dirEnt i) = dirState (s.dirEnt i)) ∧
         ∀ x ∈ t.rsv.ghost, ∃ y ∈ s.rsv.ghost, x = (y.1, y.2 / 2)))) ∧
  ((∀ s : State, s.awake = true →
     ((∀ d ∈ s.rsv.dests, s.now < d.since + 64000000) → exec .pinHoldExpiry s = .next s) ∧
     ∀ d : Dest, s.rsv.dests.find? (fun d => decide (d.since + 64000000 ≤ s.now) && (d.cmd.isSome || d.lastPacket.isNone)) = some d →
       d.cmd = none →
       ∃ t, exec .pinHoldExpiry s = .next t ∧ t = { s with rsv := t.rsv, hst := t.hst, regs := t.regs } ∧
         t.rsv.dests = s.rsv.dests.filter (fun x => !decide (x = d)) ∧ t.is F.RSV_STATUS_HOLD_EXPIRED = true ∧
         t.pair A.RSV_HOLD_EXPIRED = (s.pair A.RSV_HOLD_EXPIRED + 1) % 2 ^ 64) ∧
   (∀ (d : Dest) (c : Nat) (s : State), s.awake = true →
     s.rsv.dests.find? (fun d => decide (d.since + 64000000 ≤ s.now) && (d.cmd.isSome || d.lastPacket.isNone)) = some d →
     d.cmd = some c →
     ∃ t, exec .pinHoldExpiry s = .next t ∧ t.is F.RSV_STATUS_HOLD_EXPIRED = true ∧ (∀ x ∈ t.rsv.dests, x ≠ d) ∧
       ∀ m, s.trn.tx.find? (fun m => match m.use with | .readData e _ => e == c | .completion e => e == c | _ => false) = some m →
         t.tx? m.key = none ∧ t.is F.TRN_STATUS_MSG_FAILED = true) ∧
   (∀ s : State, s.awake = true → ∃ t, exec .groupCopyPinRelease s = .next t ∧ t = { s with rsv := t.rsv, hst := t.hst } ∧
     t.rsv.dests = s.rsv.dests.filter fun d => !(d.cmd.isNone && d.lastPacket.any fun x => decide (x + 64000000 ≤ s.now))) ∧
   (∀ (i : Nat) (s : State), s.awake = true →
     (s.groupReadyLine i = false → exec (.groupSend i) s = .next s) ∧
     (s.groupReadyLine i = true → ∃ t u : State, exec (.groupSend i) s = .next t ∧
       u = s.each ((List.range 8).filter fun n => s.is (F.RSV_GROUP_SA_VALID n)) (fun s n => s.portCopy i n) ∧
       t = { u with rsv := t.rsv, pending := s.pending } ∧ t.rsv = { u.rsv with dir := t.rsv.dir } ∧
       t.dirEnt i = putPart (u.dirEnt i) Dir.groupSent (u.now / 1000000 % 2 ^ 32) ∧ ∀ k, k ≠ i → t.dirEnt k = u.dirEnt k)) ∧
   (∀ (key i q : Nat) (m : TxMsg) (p : TxPacket) (payload : List Byte) (runs : List (Nat × Nat)) (s : State),
     s.awake = true → s.tx? key = some m → m.packet? i = some p → s.cutOf m i = none →
     choosePath (s.sa m.sa) p.path false = some q → s.payloadOf m i = some (payload, runs) →
     (p.stomped = false → exec (.stompResend key i) s = .next s) ∧
     (p.stomped = true → s.tooOld m.first = false → s.is F.TRN_CTRL_EN = true →
       ∃ t u : State, exec (.stompResend key i) s = .next t ∧ t = { u.sendTx m i q true payload runs with pending := s.pending } ∧
         u = s.modPacket key i fun x => { x with stomped := false, resent := true, path := q, runs := runs, sentAt := s.now })))

/-! ### The cipher unit (11_cipher.md) -/

/-- INSTALL takes a record that passes every check and INSTALL_DONE loads it into its slot; a failing record leaves every slot as it
was and its code in CIP_ERROR (R480). CLEAR empties a slot; it and ZEROISE act as R482, R483 and R750 say. PIPE_CHECK_FAIL
counts a check failure and retires the pipe at the third within 1 s; PIPE_RETIRED_WRITE retires the pipes of a word (R455,
R456). COUNTER_MARK_LANDED puts an SA's new high-water mark in force (R463). -/
def Obligations.KeysAndPipes : Prop :=
  ((∀ (p : Path) (kind slot : Nat) (s : State), s.busOn = true → s.modeLets p A.CIP_CMD = true →
     (∀ r, s.installCheck kind slot = .ok r → exec (.install p kind slot) s = .next { s with cip := { s.cip with
       install := some { kind := kind, slot := slot, record := r } } }) ∧
     ∀ e, s.installCheck kind slot = .error e → e < 256 →
       ∃ t, exec (.install p kind slot) s = .next t ∧ t = { s with regs := t.regs } ∧ t.fld F.CIP_ERROR_CODE = e ∧
         t.is F.CIP_STATUS_CMD_ERR = true ∧ t.pair A.CIP_INSTALL_FAIL = (s.pair A.CIP_INSTALL_FAIL + 1) % 2 ^ 64 ∧
         (e ≠ 1 → ∀ n < 20, t.word (A.CIP_INSTALL_WORD n) = 0) ∧
         (e = 1 → ∀ n < 20, t.word (A.CIP_INSTALL_WORD n) = s.word (A.CIP_INSTALL_WORD n))) ∧
   (∀ (r : InstallRun) (s : State), s.awake = true → s.cip.install = some r → 1 ≤ r.kind → r.kind ≤ 4 →
     ∃ t, exec .installDone s = .next t ∧ t = { s with cip := t.cip, attic := t.attic, regs := t.regs } ∧
       t.cip.install = none ∧ t.keyRec r.kind r.slot = some r.record ∧
       (∀ k n, k ≠ r.kind ∨ (k ≠ 4 ∧ n ≠ r.slot) → t.keyRec k n = s.keyRec k n) ∧
       (r.kind = 1 → ∀ m, Tab.find? r.slot s.attic.saMarks = some m → m.kcv = r.record.kcv →
         t.attic.saMarks = s.attic.saMarks) ∧
       (r.kind = 1 → Tab.find? r.slot s.attic.saMarks = none →
         Tab.find? r.slot t.attic.saMarks = some { mark := 0, kcv := r.record.kcv }) ∧
       (∀ n < 20, t.word (A.CIP_INSTALL_WORD n) = 0) ∧ t.is F.CIP_STATUS_CMD_DONE = true ∧
       t.pair A.CIP_INSTALLS = (s.pair A.CIP_INSTALLS + 1) % 2 ^ 64) ∧
   (∀ (p : Path) (kind slot : Nat) (s : State), s.busOn = true → s.modeLets p A.CIP_CMD = true →
     (s.cip.install.isSome = true → ∃ t, exec (.cipClear p kind slot) s = .next t ∧ t = { s with regs := t.regs } ∧
       t.fld F.CIP_ERROR_CODE = 1 ∧ t.is F.CIP_STATUS_CMD_ERR = true) ∧
     (s.cip.install = none → kind = 3 → slot < 64 → s.cip.jobs = [] →
       ∃ t, exec (.cipClear p kind slot) s = .next t ∧ t.cip = { s.cip with job := Tab.erase slot s.cip.job } ∧
         t.is F.CIP_STATUS_CMD_DONE = true ∧ t = { s with cip := t.cip, regs := t.regs }) ∧
     (s.cip.install = none → kind = 4 → slot = 0 →
       ∃ t, exec (.cipClear p kind slot) s = .next t ∧ t.attic = { s.attic with kwk := none } ∧
         t.is F.CIP_STATUS_CMD_DONE = true ∧ t = { s with attic := t.attic, regs := t.regs }) ∧
     (s.cip.install = none → kind = 1 → slot < 8192 → s.mac.sps = [] → s.trn.tx = [] → s.trn.held = [] → s.win.held = [] →
       ∃ t, exec (.cipClear p kind slot) s = .next t ∧ t.keyRec 1 slot = none ∧ t.saState slot = Sas.invalid ∧
         (∀ n, n ≠ slot → t.keyRec 1 n = s.keyRec 1 n ∧ t.sa n = s.sa n) ∧ t.attic.saMarks = s.attic.saMarks ∧
         t.is F.CIP_STATUS_CMD_DONE = true)) ∧
   (∀ (p : Path) (v : Nat) (s : State), s.busOn = true → s.modeLets p A.CIP_CMD = true →
     (v ≠ 0xA5 → ∃ t, exec (.zeroise p v) s = .next t ∧ t = { s with regs := t.regs } ∧ t.fld F.CIP_ERROR_CODE = 0x0B ∧
       t.is F.CIP_STATUS_CMD_ERR = true) ∧
     (v = 0xA5 → s.cip.install = none →
       exec (.zeroise p v) s = .next { (s.alarm .zeroise).flag F.CIP_STATUS_CMD_DONE with pending := s.pending }))) ∧
  ((∀ (p what : Nat) (s : State), s.awake = true → 80 ≤ p → p < 96 → s.attic.pipes.contains p = false →
     ∃ t, exec (.pipeCheckFail p what) s = .next t ∧ t.is F.CIP_STATUS_CHECK_FAIL = true ∧
       t.pair A.CIP_CHECK_FAIL = (s.pair A.CIP_CHECK_FAIL + 1) % 2 ^ 64 ∧
       t.cip = { s.cip with
         checks := (s.cip.checks.filter fun x => decide (s.now < x.2 + 1000000000)) ++ [(p, s.now)] } ∧
       ((s.cip.checks.filter fun x => decide (s.now < x.2 + 1000000000) && x.1 == p).length < 2 →
         t = { s with cip := t.cip, regs := t.regs }) ∧
       (2 ≤ (s.cip.checks.filter fun x => decide (s.now < x.2 + 1000000000) && x.1 == p).length →
         t.attic = { s.attic with pipes := insertNat p s.attic.pipes } ∧ t.is F.CIP_STATUS_PIPE_RETIRED = true)) ∧
   (∀ (p what : Nat) (s : State), s.awake = true → p < 98 → s.attic.pipes.contains p = false →
     ∃ t, exec (.pipeCheckFail p what) s = .next t ∧ t.is F.CIP_STATUS_CHECK_FAIL = true ∧
       t.pair A.CIP_CHECK_FAIL = (s.pair A.CIP_CHECK_FAIL + 1) % 2 ^ 64 ∧
       t.cip.checks = (s.cip.checks.filter fun x => decide (s.now < x.2 + 1000000000)) ++ [(p, s.now)] ∧
       (2 ≤ (s.cip.checks.filter fun x => decide (s.now < x.2 + 1000000000) && x.1 == p).length → p ∈ t.attic.pipes) ∧
       (96 ≤ p → ∀ j, Tab.find? what s.cip.jobs = some j → Tab.find? what t.cip.jobs = some { j with again := true })) ∧
   (∀ (p what : Nat) (s : State), s.awake = true → 98 ≤ p ∨ s.attic.pipes.contains p = true →
     exec (.pipeCheckFail p what) s = .next s) ∧
   (∀ (q : Path) (w : Nat) (v : Word) (s : State), s.busOn = true → s.modeLets q (A.CIP_PIPE_RETIRED w) = true → 1 ≤ w → w < 4 →
     ∃ t, exec (.pipeRetiredWrite q w v) s = .next t ∧
       t = { s with attic := { s.attic with pipes := t.attic.pipes }, regs := t.regs, wdn := t.wdn, mgt := t.mgt } ∧
       ∀ p, p ∈ t.attic.pipes ↔ p ∈ s.attic.pipes ∨ (p / 32 = w ∧ p < 98 ∧ bit v (p % 32) = true)) ∧
   (∀ (sa m : Nat) (s : State), s.awake = true → Tab.find? sa s.cip.marking = some m →
     (∀ b ∈ s.trn.blocked, b.sa ≠ sa) →
     ∃ t, exec (.counterMarkLanded sa) s = .next t ∧
       t = { s with attic := { s.attic with saMarks := t.attic.saMarks }, cip := { s.cip with marking := Tab.erase sa s.cip.marking } } ∧
       t.saMark sa = m ∧ ∀ n, n ≠ sa → t.saMark n = s.saMark n))

/-- ALARM_ONSET erases every SA, volume and job slot and ends every SA, and a Level 2 cause the KWK and its sealed copy as well
(R487 to R490); LEVEL2_ZEROING_DONE leaves zeros in the regions that R489 names and no other byte changed. The first clause is
about a part with no command, message, line or job under way. -/
def Obligations.Alarms : Prop :=
  (∀ (c : AlarmCause) (s : State), s.busOn = true → s.alarmArmed c = true → s.cip.present.contains (alarmCode c) = false →
    s.cq.slots = [] → s.trn.tx = [] → s.trn.held = [] → s.win.held = [] → s.rsv.dir = [] → s.mac.sps = [] →
    s.cip.jobs = [] → s.vol.init = none →
    ∃ t, exec (.alarmOnset c) s = .next t ∧ t.cip.sa = [] ∧ t.cip.vol = [] ∧ t.cip.job = [] ∧
      t.cip.present = insertNat (alarmCode c) s.cip.present ∧ bit (t.word A.CIP_ALARM) (alarmCode c) = true ∧
      t.pair A.CIP_ALARMS = (s.pair A.CIP_ALARMS + 1) % 2 ^ 64 ∧ Event.alarmErasure ∈ t.wdn.events ∧
      (∀ n, t.saState n = Sas.invalid) ∧ t.cip.install = none ∧
      (alarmLevel2 c = true → t.attic.kwk = none ∧ t.cip.zeroing = true) ∧
      (alarmLevel2 c = false → t.attic.kwk = s.attic.kwk ∧ t.cip.zeroing = s.cip.zeroing)) ∧
  (∀ (c : AlarmCause) (s : State), s.busOn = true →
    (s.alarmArmed c = false → exec (.alarmOnset c) s = .next s) ∧
    (s.alarmArmed c = true → s.cip.present.contains (alarmCode c) = true →
      ∃ t, exec (.alarmOnset c) s = .next t ∧ t = { s with regs := t.regs } ∧
        bit (t.word A.CIP_ALARM) (alarmCode c) = true) ∧
    exec (.alarmConditionEnd c) s = .next { s with cip := { s.cip with
      present := s.cip.present.filter fun k => k != alarmCode c } }) ∧
  (∀ s : State, s.cip.zeroing = true → s.dumping = false →
    ∃ t, exec .level2ZeroingDone s = .next t ∧ t = { s with cip := { s.cip with zeroing := false }, hst := t.hst } ∧
      (∀ n < 8, s.fld (F.HST_REGION_KIND n) = 1 ∨ s.fld (F.HST_REGION_KIND n) = 2 ∨ s.fld (F.HST_REGION_KIND n) = 4 ∨
          s.fld (F.HST_REGION_KIND n) = 5 →
        ∀ x, s.fld (F.HST_REGION_BASE n) * 2 ^ 26 ≤ x →
          x < s.fld (F.HST_REGION_BASE n) * 2 ^ 26 + s.fld (F.HST_REGION_COUNT n) * 2 ^ 26 →
          Mem.byte 0 t.hst.mem x = 0) ∧
      ∀ x, (∀ n < 8, s.fld (F.HST_REGION_KIND n) = 1 ∨ s.fld (F.HST_REGION_KIND n) = 2 ∨ s.fld (F.HST_REGION_KIND n) = 4 ∨
          s.fld (F.HST_REGION_KIND n) = 5 → x < s.fld (F.HST_REGION_BASE n) * 2 ^ 26 ∨
          s.fld (F.HST_REGION_BASE n) * 2 ^ 26 + s.fld (F.HST_REGION_COUNT n) * 2 ^ 26 ≤ x) →
        Mem.byte 0 t.hst.mem x = Mem.byte 0 s.hst.mem x)

/-- START takes a job's descriptor and clears the channel's result, CANCEL ends it with code 9, and JOB_END gives its output or
its code (R473 to R478). However many bytes an ended job had written (open: R476), they are zero and no other byte changes. -/
def Obligations.Jobs : Prop :=
  (∀ (p : Path) (c : Nat) (s : State), s.busOn = true → s.modeLets p (A.CIP_JOB_CMD c) = true → c < 2 →
    (∀ j, Tab.find? c s.cip.jobs = some j → ∃ t, exec (.jobStart p c) s = .next t ∧ t = { s with regs := t.regs } ∧
      t.pair A.CIP_JOB_REFUSED = (s.pair A.CIP_JOB_REFUSED + 1) % 2 ^ 64) ∧
    (Tab.find? c s.cip.jobs = none → ∃ t j, exec (.jobStart p c) s = .next t ∧
      t = { s with cip := { s.cip with jobs := t.cip.jobs, results := t.cip.results } } ∧
      Tab.find? c t.cip.jobs = some j ∧ j.desc = s.jobDesc c ∧ j.code = s.jobRefusal (s.jobDesc c) ∧
      Tab.find? c t.cip.results = none ∧ ∀ k, k ≠ c → Tab.find? k t.cip.jobs = Tab.find? k s.cip.jobs ∧
        Tab.find? k t.cip.results = Tab.find? k s.cip.results) ∧
    (Tab.find? c s.cip.jobs = none → exec (.jobCancel p c) s = .next s) ∧
    (∀ j, Tab.find? c s.cip.jobs = some j → ∃ t, exec (.jobCancel p c) s = .next t ∧
      t = { s with cip := t.cip, hst := t.hst, regs := t.regs, free := t.free } ∧ Tab.find? c t.cip.jobs = none ∧
      Tab.find? c t.cip.results = some (true, 9, 0) ∧ t.pair A.CIP_JOBS = (s.pair A.CIP_JOBS + 1) % 2 ^ 64 ∧
      ∀ x, Mem.byte 0 t.hst.mem x = Mem.byte 0 s.hst.mem x ∨ (Mem.byte 0 t.hst.mem x = 0 ∧
        getPart j.desc Job.dst % 2 ^ 36 ≤ x ∧ x < getPart j.desc Job.dst % 2 ^ 36 + j.room))) ∧
  (∀ (c d : Nat) (j : JobRun) (s : State), s.awake = true → Tab.find? c s.cip.jobs = some j →
    d = getPart j.desc Job.dst % 2 ^ 36 →
    (∀ k, j.code = some k → k ≠ 0 → ∃ t, exec (.jobEnd c) s = .next t ∧ t.hst.mem = s.hst.mem ∧
      Tab.find? c t.cip.jobs = none ∧ Tab.find? c t.cip.results = some (true, k, 0)) ∧
    (∀ r out, j.code = none → ¬ (s.attic.pipes.contains 96 = true ∧ s.attic.pipes.contains 97 = true) →
      s.rangePoison (getPart j.desc Job.src % 2 ^ 36) (getPart j.desc Job.aadLength + getPart j.desc Job.length) = false →
      Tab.find? (getPart j.desc Job.slot) s.cip.job = some r →
      jobCompute (getPart j.desc Job.mode) ((getPart j.desc Job.flags).testBit 0) r.key (leBytes 16 (getPart j.desc Job.iv))
        (leBytes 16 (getPart j.desc Job.tag)) (s.cellar (getPart j.desc Job.src % 2 ^ 36) (getPart j.desc Job.aadLength))
        (s.cellar (getPart j.desc Job.src % 2 ^ 36 + getPart j.desc Job.aadLength) (getPart j.desc Job.length)) = .ok out →
      (s.rangeFailed d out.length = true → ∃ t, exec (.jobEnd c) s = .next t ∧ Tab.find? c t.cip.jobs = none ∧
        Tab.find? c t.cip.results = some (true, 8, 0)) ∧
      (s.rangeFailed d out.length = false →
      ∃ t, exec (.jobEnd c) s = .next t ∧ t = { s with cip := t.cip, hst := t.hst, regs := t.regs } ∧
        Tab.find? c t.cip.jobs = none ∧ Tab.find? c t.cip.results = some (true, 0, out.length) ∧
        (∀ (i : Nat) (v : Byte), out[i]? = some v → Mem.byte 0 t.hst.mem (d + i) = v) ∧
        ∀ x, x < d ∨ d + out.length ≤ x → Mem.byte 0 t.hst.mem x = Mem.byte 0 s.hst.mem x)) ∧
    (j.code = none → s.attic.pipes.contains 96 = false →
      s.rangePoison (getPart j.desc Job.src % 2 ^ 36) (getPart j.desc Job.aadLength + getPart j.desc Job.length) = true →
      ∃ t, exec (.jobEnd c) s = .next t ∧ Tab.find? c t.cip.results = some (true, 8, 0) ∧
        ∀ x, Mem.byte 0 t.hst.mem x = Mem.byte 0 s.hst.mem x ∨ (Mem.byte 0 t.hst.mem x = 0 ∧ d ≤ x ∧ x < d + j.room)))

/-! ### Ethernet ports and traffic (12_ethernet_ports.md, 13_traffic_control.md) -/

/-- FRAME_RECEIVE discards and counts a frame with broken fragments, a wrong FCS or no use (R499, R504, R510), and hands any other
on; a received pause holds the sub-port for its quanta (R516). LINK_CHANGE follows the receiver, and a link that goes down loses
the frames queued for it (R501, R502). PREEMPT_VERIFY sets MERGE_ACTIVE, or VERIFY_FAIL (R509). PAUSE_XOFF and PAUSE_XON send
pause frames as the holding buffer passes its levels (R517); PAUSE_TIMER_EXPIRY and HOLD_OFF_END end what is over;
WATCHDOG_BREAK discards the frames of a priority held too long and holds pauses off for 200 ms (R516, R518, R519). -/
def Obligations.FramesAndPauses : Prop :=
  ((∀ (n c u : Nat) (b : Bool) (l : List Byte) (s : State),
     (s.listens n = false → exec (.frameReceive n c u b l) s = .next s) ∧
     (s.listens n = true → s.busOn = true → n < 32 → b = true ∨ (∃ k, fcsCheck (decide (0 < u)) l = .error k) →
       ∃ t, exec (.frameReceive n c u b l) s = .next t ∧ t = { s with mac := t.mac, regs := t.regs } ∧
         t.sp n = { s.sp n with counts := (t.sp n).counts } ∧ (∀ k, k ≠ n → t.sp k = s.sp k) ∧
         (0 < u → t.is F.MAC_STATUS_FEC_UNCORR = true) ∧
         Tab.getD MacCount.fecCorrected.index 0 (t.sp n).counts =
           (Tab.getD MacCount.fecCorrected.index 0 (s.sp n).counts + c) % 2 ^ 64 ∧
         Tab.getD MacCount.fecUncorrected.index 0 (t.sp n).counts =
           (Tab.getD MacCount.fecUncorrected.index 0 (s.sp n).counts + u) % 2 ^ 64 ∧
         (b = true → Tab.getD MacCount.rxAssemblyErr.index 0 (t.sp n).counts =
           (Tab.getD MacCount.rxAssemblyErr.index 0 (s.sp n).counts + 1) % 2 ^ 64) ∧
         ∀ e, b = false → fcsCheck (decide (0 < u)) l = .error e →
           Tab.getD e.index 0 (t.sp n).counts = (Tab.getD e.index 0 (s.sp n).counts + 1) % 2 ^ 64) ∧
     (s.listens n = true → s.busOn = true → n = 32 ∨ s.asleep = false → b = false →
       ∀ body, fcsCheck (decide (0 < u)) l = .ok body →
       ∃ t v : State, exec (.frameReceive n c u b l) s = .next t ∧ v = { s with mac := v.mac, regs := v.regs } ∧
         v.sp n = { s.sp n with counts := (v.sp n).counts, rxPrio := s.rxPriority body } ∧ (∀ k, k ≠ n → v.sp k = s.sp k) ∧
         Tab.getD MacCount.rxFrames.index 0 (v.sp n).counts = (Tab.getD MacCount.rxFrames.index 0 (s.sp n).counts + 1) % 2 ^ 64 ∧
         Tab.getD MacCount.rxBytes.index 0 (v.sp n).counts =
           (Tab.getD MacCount.rxBytes.index 0 (s.sp n).counts + l.length) % 2 ^ 64 ∧
         t = { v.frameTaken n (v.portKind n (v.frameKind n body)) with pending := s.pending })) ∧
   (∀ (n : Nat) (body : List Byte) (s : State), s.pauseMode n = 1 → beAt body 0 2 = 1 →
     ∃ t, s.pauseReceived n body = t ∧ t = { s with mac := t.mac } ∧ (∀ k, k ≠ n → t.sp k = s.sp k) ∧
       (t.sp n).queue = (s.sp n).queue ∧
       (s.pauseDeaf n 8 = true → t.sp n = { s.sp n with counts := (t.sp n).counts } ∧
         Tab.getD MacCount.rxPauseIgnored.index 0 (t.sp n).counts =
           (Tab.getD MacCount.rxPauseIgnored.index 0 (s.sp n).counts + 1) % 2 ^ 64) ∧
       (s.pauseDeaf n 8 = false →
       (beAt body 2 2 = 0 → Tab.find? 8 (t.sp n).holds = none) ∧
       (beAt body 2 2 ≠ 0 → Tab.find? 8 (t.sp n).holds = some (s.now + s.quantaTime n (beAt body 2 2))))) ∧
   (∀ (n : Nat) (up e : Bool) (s : State), s.busOn = true → n < 32 → s.hasSubPort n = true →
     ((s.sp n).link = (up && s.spEn n) → ∃ t, exec (.linkChange n up e) s = .next t ∧ t = { s with mac := t.mac } ∧
       t.sp n = { s.sp n with energy := e } ∧ ∀ k, k ≠ n → t.sp k = s.sp k) ∧
     ((s.sp n).link = true → (up && s.spEn n) = false → s.trn.sa = [] →
       ∃ t, exec (.linkChange n up e) s = .next t ∧ (t.sp n).link = false ∧ (t.sp n).energy = e ∧ (t.sp n).queue = [] ∧
         (t.sp n).wire = none ∧ t.is F.MAC_STATUS_LINK_CHANGE = true ∧ (∀ k, k ≠ n → t.sp k = s.sp k) ∧
         Tab.getD MacCount.txLinkDrop.index 0 (t.sp n).counts =
           (Tab.getD MacCount.txLinkDrop.index 0 (s.sp n).counts + (s.sp n).queue.length) % 2 ^ 64) ∧
     ((s.sp n).link = false → (up && s.spEn n) = true → s.trn.sa = [] →
       ∃ t, exec (.linkChange n up e) s = .next t ∧ t = { s with mac := t.mac, regs := t.regs } ∧
         t.sp n = { s.sp n with energy := e, link := true, fec := true, merge := false } ∧
         t.is F.MAC_STATUS_LINK_CHANGE = true ∧ ∀ k, k ≠ n → t.sp k = s.sp k)) ∧
   (∀ (n : Nat) (ok : Bool) (s : State), s.awake = true → n < 32 → (s.sp n).link = true → s.mergeMode n = 1 →
     ∃ t, exec (.preemptVerify n ok) s = .next t ∧ t = { s with mac := t.mac, regs := t.regs } ∧
       t.sp n = { s.sp n with merge := ok } ∧ (∀ k, k ≠ n → t.sp k = s.sp k) ∧
       (ok = false → t.is F.MAC_STATUS_VERIFY_FAIL = true) ∧ (ok = true → t.regs = s.regs))) ∧
  ((∀ (p n : Nat) (s : State), s.awake = true → s.pausers p = [n] → (s.sp n).link = true →
     ((s.sp n).xoff = none → s.xoffLevel ≤ s.holding p → ∃ t f, exec (.pauseXoff p) s = .next t ∧ t = { s with mac := t.mac } ∧
       (t.sp n).queue = (s.sp n).queue ++ [f] ∧ f.cls = .control ∧ f.body = .raw (s.pauseFrame n s.pauseQuanta) ∧
       (t.sp n).xoff = some s.now ∧ ∀ k, k ≠ n → t.sp k = s.sp k) ∧
     ((s.sp n).xoff = none → s.holding p < s.xoffLevel → exec (.pauseXoff p) s = .next s) ∧
     (s.xonLevel < s.holding p → exec (.pauseXon p) s = .next s) ∧
     (s.holding p ≤ s.xonLevel → (s.sp n).xoff.isSome = true → ∃ t f, exec (.pauseXon p) s = .next t ∧
       t = { s with mac := t.mac } ∧ (t.sp n).queue = (s.sp n).queue ++ [f] ∧ f.cls = .control ∧
       f.body = .raw (s.pauseFrame n 0) ∧ (t.sp n).xoff = none ∧ ∀ k, k ≠ n → t.sp k = s.sp k)) ∧
   (∀ (n : Nat) (s : State), s.portRuns n = true → ∃ t, exec (.pauseTimerExpiry n) s = .next t ∧ t = { s with mac := t.mac } ∧
     (t.sp n).holds = (s.sp n).holds.filter (fun h => decide (s.now < h.2)) ∧ (t.sp n).queue = (s.sp n).queue ∧
     ∀ k, k ≠ n → t.sp k = s.sp k) ∧
   (∀ (n : Nat) (s : State), s.portRuns n = true → ∃ t, exec (.holdOffEnd n) s = .next t ∧ t = { s with mac := t.mac } ∧
     t.sp n = { s.sp n with holdOff := (s.sp n).holdOff.filter fun h => decide (s.now < h.2) } ∧
     ∀ k, k ≠ n → t.sp k = s.sp k) ∧
   (∀ (n k t0 : Nat) (s : State), s.portRuns n = true → k < 8 → Tab.find? k (s.sp n).wdog = some t0 →
     (s.now < t0 + s.wdogTimeout → exec (.watchdogBreak n k) s = .next s) ∧
     (t0 + s.wdogTimeout ≤ s.now → ∃ t, exec (.watchdogBreak n k) s = .next t ∧
       (t.sp n).queue = (s.sp n).queue.filter (fun f => !(decide (f.cls ≠ .control) && f.prio == k)) ∧
       Tab.find? k (t.sp n).holds = none ∧ Tab.find? k (t.sp n).holdOff = some (s.now + 200000000) ∧
       Tab.getD MacCount.wdogBreaks.index 0 (t.sp n).counts =
         (Tab.getD MacCount.wdogBreaks.index 0 (s.sp n).counts + 1) % 2 ^ 64 ∧
       t.is F.MAC_STATUS_WDOG_BREAK = true ∧ ∀ j, j ≠ n → t.sp j = s.sp j)))

/-- FRAME_TRANSMIT takes the frame that R544 chooses and sends it with its FCS, counted once, or as many bytes of it as have left;
an express frame interrupts the preemptable one on the wire, which is counted once (R510), and a frame stomped part way ends at once
(R513; assumption 136). SNAP latches and clears the selected sub-port's counters and RELEASE ends that (R522). MDIO_OP starts a cycle
and MDIO_DONE ends it with the PHY's answer (R528). HISTOGRAM_SAMPLE counts a sub-port's queues each 10 us (R548). -/
def Obligations.SendingAndCounters : Prop :=
  (∀ (n : Nat) (k : Option Nat) (s : State), s.up = true →
    (s.canSend n = false → exec (.frameTransmit ⟨n, k⟩) s = .next s) ∧
    (s.canSend n = true → (s.sp n).wire = none → s.frameDue n = none → exec (.frameTransmit ⟨n, k⟩) s = .next s) ∧
    (∀ (f : EgFrame) (ns : Tab TreeNode) (b : List Byte), s.canSend n = true → (s.sp n).wire = none →
      s.frameDue n = some (f, ns) → f.cut = none → f.stomp = false → f.body = .raw b →
      (∀ j, k = some j → j ≤ f.sent ∨ f.len ≤ j) →
      ∃ t, exec (.frameTransmit ⟨n, k⟩) s = .next t ∧ t = { s with mac := t.mac, tc := { s.tc with nodes := ns } } ∧
        (t.sp n).queue = (s.sp n).queue.filter (fun g => g.name != f.name) ∧ (t.sp n).lastTx = withFcs false b ∧
        Tab.getD MacCount.txFrames.index 0 (t.sp n).counts =
          (Tab.getD MacCount.txFrames.index 0 (s.sp n).counts + 1) % 2 ^ 64 ∧
        Tab.getD MacCount.txBytes.index 0 (t.sp n).counts =
          (Tab.getD MacCount.txBytes.index 0 (s.sp n).counts + b.length + 4) % 2 ^ 64 ∧
        (t.sp n).wire = none ∧ ∀ k, k ≠ n → t.sp k = s.sp k) ∧
    (∀ (f : EgFrame) (ns : Tab TreeNode) (j : Nat), s.canSend n = true → (s.sp n).wire = none →
      s.frameDue n = some (f, ns) → k = some j → f.sent < j → j < f.len →
      ∃ t, exec (.frameTransmit ⟨n, k⟩) s = .next t ∧ t = { s with mac := t.mac, tc := { s.tc with nodes := ns } } ∧
        (t.sp n).queue = (s.sp n).queue.filter (fun g => g.name != f.name) ∧ (t.sp n).wire = some { f with sent := j } ∧
        (t.sp n).counts = (s.sp n).counts ∧ (t.sp n).lastTx = (s.sp n).lastTx ∧ ∀ k, k ≠ n → t.sp k = s.sp k) ∧
    (∀ (f g : EgFrame), s.canSend n = true → (s.sp n).wire = some f → f.stomp = false ∨ f.sent = 0 → s.interrupter n f = some g →
      ∃ t u : State, exec (.frameTransmit ⟨n, k⟩) s = .next t ∧ u = { s with mac := u.mac } ∧
        (u.sp n).wire = some { f with parted := true, brk := f.sent } ∧
        (u.sp n).queue = (s.sp n).queue.filter (fun x => x.name != g.name) ∧
        Tab.getD MacCount.txPreemptions.index 0 (u.sp n).counts =
          (Tab.getD MacCount.txPreemptions.index 0 (s.sp n).counts + if f.parted then 0 else 1) % 2 ^ 64 ∧
        (∀ k, k ≠ n → u.sp k = s.sp k) ∧ t = { u.frameEnds n g with pending := s.pending }) ∧
    (∀ (f : EgFrame), s.canSend n = true → (s.sp n).wire = some f → (f.stomp = true ∧ 0 < f.sent) ∨
        (s.interrupter n f = none ∧ ∀ j, k = some j → j ≤ f.sent ∨ f.len ≤ j) →
      ∃ t u : State, exec (.frameTransmit ⟨n, k⟩) s = .next t ∧ u = { s with mac := u.mac } ∧
        u.sp n = { s.sp n with wire := none } ∧ (∀ k, k ≠ n → u.sp k = s.sp k) ∧
        t = { u.frameEnds n f with pending := s.pending }) ∧
    ∀ (f : EgFrame) (j : Nat), s.canSend n = true → (s.sp n).wire = some f → f.stomp = false ∨ f.sent = 0 →
      s.interrupter n f = none → k = some j → f.sent < j → j < f.len →
      ∃ t, exec (.frameTransmit ⟨n, k⟩) s = .next t ∧ t = { s with mac := t.mac } ∧
        t.sp n = { s.sp n with wire := some { f with sent := j } } ∧ ∀ k, k ≠ n → t.sp k = s.sp k) ∧
  (∀ (p : Path) (s : State), s.busOn = true → s.modeLets p A.MAC_CNT_SNAP = true →
    (∃ t, exec (.counterSnap p) s = .next t ∧ t = { s with mac := t.mac } ∧
      t.sp s.selSp = { s.sp s.selSp with shadow := some (s.sp s.selSp).counts, counts := [] } ∧
      ∀ k, k ≠ s.selSp → t.sp k = s.sp k) ∧
    ∃ t, exec (.counterRelease p) s = .next t ∧ t = { s with mac := t.mac } ∧
      t.sp s.selSp = { s.sp s.selSp with shadow := none } ∧ ∀ k, k ≠ s.selSp → t.sp k = s.sp k) ∧
  (∀ (p : Path) (v : Word) (s : State), s.busOn = true → s.modeLets p A.MAC_MGT_MDIO = true →
    ∃ t, exec (.mdioOp p v) s = .next t ∧ t = { s with mac := { s.mac with mdio := t.mac.mdio }, regs := t.regs } ∧
      (∀ a, a ≠ A.MAC_MGT_MDIO → t.word a = s.word a) ∧
      (s.mac.mdio = none → fval F.MAC_MGT_MDIO_OP v = 1 ∨ fval F.MAC_MGT_MDIO_OP v = 2 → t.mac.mdio = some v) ∧
      (s.mac.mdio.isSome = true ∨ fval F.MAC_MGT_MDIO_OP v = 0 ∨ fval F.MAC_MGT_MDIO_OP v = 3 → t.mac.mdio = s.mac.mdio)) ∧
  (∀ (d : Nat) (v : Word) (s : State), s.managed = true → s.mac.mdio = some v → d < 2 ^ 16 →
    (fval F.MAC_MGT_MDIO_OP v = 2 → ∃ t, exec (.mdioDone d) s = .next t ∧
      t = { s with mac := { s.mac with mdio := none }, regs := t.regs } ∧ t.fld F.MAC_MGT_MDIO_DATA = d) ∧
    (fval F.MAC_MGT_MDIO_OP v ≠ 2 → exec (.mdioDone d) s = .next { s with mac := { s.mac with mdio := none } })) ∧
  (∀ s : State, s.awake = true →
    (s.now / 10000 * 10000 ≤ Tab.getD Tick.hist 0 s.served → exec .histogramSample s = .next s) ∧
    ∀ (n : Nat) (f : EgFrame) (q : List EgFrame), Tab.getD Tick.hist 0 s.served < s.now / 10000 * 10000 →
      laneSubPorts (s.sect 0x02) = [n] → (s.sp n).queue = f :: q → (∀ g ∈ f :: q, g.cls = .group) →
      s.schedNode (s.fld F.TC_WATCH_NODE) = none →
      ∃ t, exec .histogramSample s = .next t ∧ t = { s with tc := { s.tc with hist := t.tc.hist }, served := t.served } ∧
        Tab.getD ((n * 2) * 16 + histBin (q.length + 1)) 0 t.tc.hist =
          min (Tab.getD ((n * 2) * 16 + histBin (q.length + 1)) 0 s.tc.hist + 1) (2 ^ 32 - 1) ∧
        ∀ d : Nat, (∀ g ∈ f :: q, (s.now - g.queued) / 1000 ≤ d) → (∃ g ∈ f :: q, (s.now - g.queued) / 1000 = d) →
          Tab.getD ((n * 2 + 1) * 16 + histBin d) 0 t.tc.hist =
            min (Tab.getD ((n * 2 + 1) * 16 + histBin d) 0 s.tc.hist + 1) (2 ^ 32 - 1))

/-! ### Drive ports (14_drive_ports.md) -/

/-- A drive port follows Table 14-3: an insertion takes EMPTY to PRESENT, or to RESET where the bay is powered (R565, R566); RESET
to TRAINING after 100 ms; a link to INIT or UNFIT; no link within 1 s to FAULT; a READY port whose link goes down to RETRAINING
(R568), and one that is lost or not back in time to LOST (R569); a removal to REMOVED, and dark power to EMPTY. START, READY,
UNFIT and RELEASE of DRV_PORT_CMD move a port that Table 14-14 lets move, and are refused otherwise; READY is refused past the
entries of partition 0x07 (R562) and latches the drive's size (R560). CLKREQ_CHANGE and NVME_MI_POLL set what the port shows
(R557, R574). -/
def Obligations.DrivePorts : Prop :=
  ((∀ (n : Nat) (s : State), s.up = true → s.asleep = false → n < 24 →
     ((s.port n).state = .empty →
       ∃ t, exec (.insertionRecognised ⟨n, none⟩) s = .next t ∧ t = { s with drv := t.drv, rsv := t.rsv, regs := t.regs, wdn := t.wdn } ∧
         (t.port n).presence = true ∧ (∀ k, k ≠ n → t.port k = s.port k) ∧ t.is F.DRV_STATUS_INSERTED = true ∧
         t.wdn.events = s.wdn.events ++ [.driveInserted n] ∧
         (s.bayPowered n = false → (t.port n).state = .present) ∧
         (s.bayPowered n = true → s.is F.DRV_CTRL_EN = true → (t.port n).state = .reset ∧ (t.port n).perst = true)) ∧
     ((s.port n).state = .empty → (s.port n).presence = false → ∀ k : Nat, ∃ t, exec (.insertionRecognised ⟨n, some k⟩) s = .next t ∧
       Tab.find? n t.drives = some { driveDefault with capacity := k } ∧ (∀ j, j ≠ n → Tab.find? j t.drives = Tab.find? j s.drives) ∧
       ∃ u, exec (.insertionRecognised ⟨n, none⟩) s = .next u ∧ t = { u with drives := t.drives }) ∧
     ((s.port n).state ≠ .empty → (s.port n).state ≠ .removed → (s.port n).resvCmd = none → s.memberAt n = none →
       ∃ t, exec (.removalRecognised n) s = .next t ∧ t = { s with drv := t.drv, bay := t.bay, regs := t.regs } ∧
         (t.port n).state = .removed ∧ (t.port n).presence = false ∧ (t.port n).perst = true ∧ (t.port n).rate = 0 ∧
         (t.port n).refclk = false ∧ (∀ k, k ≠ n → t.port k = s.port k) ∧
         t.drv.cmds = s.drv.cmds.filter (fun c => c.bay != n) ∧ t.is F.DRV_STATUS_REMOVED = true ∧
         t.is (F.BAY_EN_MAIN_EN n) = false ∧ t.is (F.BAY_EN_AUX_EN n) = false)) ∧
   (∀ (n : Nat) (s : State), s.up = true → s.asleep = true → n < 24 →
     exec (.insertionRecognised ⟨n, none⟩) s = .next (s.modPort n fun p => { p with presence := true, presenceAt := s.now })) ∧
   (∀ (n : Nat) (s : State), s.awake = true → n < 24 →
     ((s.port n).state = .reset → (s.port n).since + 100000000 ≤ s.now →
       s.is F.DRV_CTRL_AUTO_BRINGUP = true ∨ (s.port n).started = true →
       exec (.perstRelease n) s = .next (s.modPort n fun p =>
         { p with state := .training, since := s.now, perst := false, refclk := true })) ∧
     ((s.port n).state = .reset → s.now < (s.port n).since + 100000000 → exec (.perstRelease n) s = .next s) ∧
     ((s.port n).state = .training → (s.port n).since + 1000000000 ≤ s.now →
       ∃ t, exec (.trainingTimeout n) s = .next t ∧ t = { s with drv := t.drv, regs := t.regs } ∧
         (t.port n).state = .fault ∧ t.is F.DRV_STATUS_FAULT = true ∧ ∀ k, k ≠ n → t.port k = s.port k) ∧
     (∀ rate width : Nat, linkOk (min rate (s.linkLimit n).1) (min width (s.linkLimit n).2) = false →
       ∀ nvme : Bool, exec (.driveLinkUp n rate width nvme) s = .next s) ∧
     ((s.port n).state = .training ∨ (s.port n).state = .retraining → ∀ rate width : Nat,
       linkOk (min rate (s.linkLimit n).1) (min width (s.linkLimit n).2) = true →
       (∃ t, exec (.driveLinkUp n rate width true) s = .next t ∧ t = { s with drv := t.drv, wdn := t.wdn } ∧
         (t.port n).state = .init ∧ (t.port n).rate = min rate (s.linkLimit n).1 ∧ (t.port n).width = min width (s.linkLimit n).2 ∧
         (t.port n).sqCount = s.sqCountSet n ∧ (t.port n).sqDepth = s.sqDepthSet n ∧ (t.port n).sizes = (512, 4096) ∧
         t.wdn.events = s.wdn.events ++ [.driveLinkUp n] ∧ ∀ k, k ≠ n → t.port k = s.port k) ∧
       ∃ t, exec (.driveLinkUp n rate width false) s = .next t ∧ t = { s with drv := t.drv, regs := t.regs } ∧
         (t.port n).state = .unfit ∧ t.is F.DRV_STATUS_UNFIT = true ∧ ∀ k, k ≠ n → t.port k = s.port k) ∧
     ((s.port n).state = .ready → (s.port n).resvCmd = none → ∀ fatal : Bool,
       ∃ t, exec (.driveLinkDown ⟨n, fatal⟩) s = .next t ∧ t = { s with drv := t.drv, regs := t.regs } ∧
         (t.port n).state = .retraining ∧ (t.port n).retrainFrom = some s.now ∧ (t.port n).rate = 0 ∧
         (t.port n).width = 0 ∧ t.word (A.DRV_AER_UNCORR n) = s.word (A.DRV_AER_UNCORR n) + (if fatal then 1 else 0) ∧
         t.is F.DRV_STATUS_LINK_DOWN = true ∧ (∀ k, k ≠ n → t.port k = s.port k) ∧
         t.drv.cmds = s.drv.cmds.map fun c => if c.bay = n then { c with queue := none } else c) ∧
     ((s.port n).state = .ready → (s.port n).resvCmd = none → s.memberAt n = none →
       ∃ t, exec (.driveLost n true) s = .next t ∧ t = { s with drv := t.drv, regs := t.regs } ∧
         (t.port n).state = .lost ∧ t.is F.DRV_STATUS_LOST = true ∧ t.drv.cmds = s.drv.cmds.filter fun c => c.bay != n) ∧
     (∀ t0, (s.port n).retrainFrom = some t0 → (s.port n).state = .retraining ∨ (s.port n).state = .init →
       (s.now < t0 + s.retrainLimit → exec (.retrainTimeout n) s = .next s) ∧
       (t0 + s.retrainLimit ≤ s.now → (s.port n).resvCmd = none → s.memberAt n = none →
         ∃ t, exec (.retrainTimeout n) s = .next t ∧ t = { s with drv := t.drv, regs := t.regs } ∧
           (t.port n).state = .lost ∧ t.is F.DRV_STATUS_LOST = true ∧ t.drv.cmds = s.drv.cmds.filter fun c => c.bay != n)) ∧
     ((s.port n).state = .removed → s.bayDark n = true →
       ∃ t, exec (.bayPowerGone n) s = .next t ∧ t = { s with drv := { s.drv with ports := t.drv.ports } } ∧
         (t.port n).state = .empty ∧ ∀ k, k ≠ n → t.port k = s.port k))) ∧
  ((∀ (p : Path) (n : Nat) (s : State), s.busOn = true → s.modeLets p (A.DRV_PORT_CMD n) = true → n < 24 →
     ((s.port n).state = .reset → s.now < (s.port n).since + 100000000 →
       exec (.portStart p n) s = .next (s.modPort n fun p => { p with started := true })) ∧
     ((s.port n).state = .reset → (s.port n).since + 100000000 ≤ s.now →
       exec (.portStart p n) s = .next (s.modPort n fun p =>
         { p with started := true, state := .training, since := s.now, perst := false, refclk := true })) ∧
     ((s.port n).state ≠ .reset → ∃ t, exec (.portStart p n) s = .next t ∧ t = { s with regs := t.regs } ∧
       t.is F.DRV_STATUS_CMD_REFUSED = true) ∧
     ((s.port n).state = .init →
       (s.queueEntries n + (s.port n).sqCount * (s.port n).sqDepth ≤ s.pantryEntries 0x07 →
         ∃ t, exec (.portReady p n) s = .next t ∧ t = { s with drv := t.drv, regs := t.regs, drives := t.drives, free := t.free } ∧
           (t.port n).state = .ready ∧ (t.port n).cap = (Tab.getD n driveDefault t.drives).capacity ∧
           (∀ d, Tab.find? n s.drives = some d → d.capacity ≠ 0 → d.vectors ≠ 0 → (t.port n).vectors = d.vectors ∧ t.drives = s.drives ∧ t.free = s.free) ∧ (t.port n).retrainFrom = none ∧ (t.port n).cqHead = [] ∧
           t.is F.DRV_STATUS_READY = true ∧ ∀ k, k ≠ n → t.port k = s.port k) ∧
       (s.pantryEntries 0x07 < s.queueEntries n + (s.port n).sqCount * (s.port n).sqDepth →
         ∃ t, exec (.portReady p n) s = .next t ∧ t = { s with regs := t.regs } ∧ t.is F.DRV_STATUS_CMD_REFUSED = true) ∧
       ∃ t, exec (.portUnfit p n) s = .next t ∧ t = { s with drv := t.drv, regs := t.regs } ∧
         (t.port n).state = .unfit ∧ t.is F.DRV_STATUS_UNFIT = true ∧ ∀ k, k ≠ n → t.port k = s.port k) ∧
     ((s.port n).state ≠ .init → ∃ t, exec (.portReady p n) s = .next t ∧ exec (.portUnfit p n) s = .next t ∧
       t = { s with regs := t.regs } ∧ t.is F.DRV_STATUS_CMD_REFUSED = true) ∧
     ((s.port n).state = .lost ∨ (s.port n).state = .fault ∨ (s.port n).state = .unfit →
       ∃ t, exec (.portRelease p n) s = .next t ∧ t = { s with drv := { s.drv with ports := t.drv.ports } } ∧
         (∀ k, k ≠ n → t.port k = s.port k) ∧ (t.port n).perst = true ∧
         (s.bayPowered n = false → (t.port n).state = .present) ∧
         (s.bayPowered n = true → s.is F.DRV_CTRL_EN = true → (t.port n).state = .reset)) ∧
     ((s.port n).state = .ready → ∃ t, exec (.portRelease p n) s = .next t ∧ t = { s with regs := t.regs } ∧
       t.is F.DRV_STATUS_CMD_REFUSED = true)) ∧
   (∀ (n : Nat) (on : Bool) (s : State), s.busOn = true → n < 24 →
     ∃ t, exec (.clkreqChange n on) s = .next t ∧ t = { s with drv := { s.drv with ports := t.drv.ports } } ∧
       t.port n = { s.port n with clkreq := on, refclk := (t.port n).refclk } ∧ (∀ k, k ≠ n → t.port k = s.port k) ∧
       ((s.port n).state = .ready → (t.port n).refclk = (on || !(s.port n).l12)) ∧
       ((s.port n).state = .present → (t.port n).refclk = on)) ∧
   (∀ (n : Nat) (r : Option (Nat × Nat × Nat)) (s : State), s.awake = true → n < 24 → s.is F.DRV_CTRL_MI_EN = true →
     (s.port n).state = .ready → Tab.getD (Tick.mi + n) 0 s.served < s.now / 1000000000 * 1000000000 →
     ∃ t, exec (.nvmeMiPoll n r) s = .next t ∧ t = { s with drv := t.drv, regs := t.regs, served := t.served } ∧
       (∀ k, k ≠ n → t.port k = s.port k) ∧
       (∀ a b c, r = some (a, b, c) → t.port n = { s.port n with
         mi := a % 256 + 2 ^ 8 * min b 255 + 2 ^ 16 * (c % 256), miValid := true, miMiss := 0 } ∧ t.regs = s.regs) ∧
       (r = none → t.port n = { s.port n with miMiss := (s.port n).miMiss + 1 } ∧
         ((s.port n).miMiss = 2 → t.is F.DRV_STATUS_MI_STALE = true) ∧ ((s.port n).miMiss ≠ 2 → t.regs = s.regs))))

/-- MSIX_SCAN takes the entries of the completion queues of the vector written: a write's block is on the drive, a failure is tried once
more, and the queue's head moves on; an entry of another vector's queue stays (R564, R570). Errors of the link are counted (R556, R557).
REGISTER, ACQUIRE, PREEMPT and REPORT start one reservation command a port, and RESV_DONE ends it (R571, R572). -/
def Obligations.DriveCommands : Prop :=
  (∀ (b n q : Nat) (c : DriveCmd) (s : State), s.awake = true → s.drvCmd n = some c → c.bay = b → c.queue = some q →
    (∀ w m k, c.use = .destage w m k → c.write = true →
      ∃ t u : State, exec (.msixScan b ⟨(s.port b).vectorOf q, [(n, .success)]⟩) s = .next t ∧
        u = (((s.modPort b fun p => p.consume q).bump (A.DRV_WRITES b)).dropCmd c).mediaPut b c.lba (c.block, c.trailer) ∧
        t = { u.destageDone w m k true with pending := s.pending } ∧ u.media b c.lba = (c.block, c.trailer)) ∧
    (∀ p first f, c.use = .read p first f → c.write = false →
      ∃ t u : State, exec (.msixScan b ⟨(s.port b).vectorOf q, [(n, .success)]⟩) s = .next t ∧
        u = (((s.modPort b fun p => p.consume q).bump (A.DRV_READS b)).sample b (s.now - c.issued.getD s.now)).dropCmd c ∧
        t = { u.readEnded p first c.count false with pending := s.pending }) ∧
    (c.retried = false → exec (.msixScan b ⟨(s.port b).vectorOf q, [(n, .link)]⟩) s =
      .next { (s.bump (A.DRV_AER_UNCORR b)).retryCmd c with pending := s.pending }) ∧
    (c.retried = false → c.write = true → (∀ k key peer, c.use ≠ .reservation k key peer) →
      exec (.msixScan b ⟨(s.port b).vectorOf q, [(n, .status)]⟩) s =
        .next { ((s.modPort b fun p => p.consume q).bump (A.DRV_WRITES b)).retryCmd c with pending := s.pending }) ∧
    ((s.modPort b fun p => p.consume q).port b).cqHead =
      Tab.put 0 q ((Tab.getD q 0 (s.port b).cqHead + 1) % (2 * (s.port b).sqDepth)) (s.port b).cqHead ∧
    ∀ (v : Nat) (o : DriveOutcome), v ≠ (s.port b).vectorOf q → o ≠ .corrected → o ≠ .stray →
      exec (.msixScan b ⟨v, [(n, o)]⟩) s = .next s) ∧
  (∀ (b n v : Nat) (o : DriveOutcome) (s : State), s.awake = true →
    (s.drvCmd n = none → o ≠ .corrected → o ≠ .stray → exec (.msixScan b ⟨v, [(n, o)]⟩) s = .next s) ∧
    (b < 24 → exec (.msixScan b ⟨v, [(n, .corrected)]⟩) s = .next (s.bump (A.DRV_AER_CORR b)) ∧
      exec (.msixScan b ⟨v, [(n, .stray)]⟩) s = .next (s.bump (A.DRV_AER_UNCORR b)))) ∧
  (∀ (p : Path) (n k : Nat) (c : Instr) (s : State), s.busOn = true → s.modeLets p A.DRV_RESV_CMD = true → n < 24 →
    (c, k) ∈ [(Instr.resvRegister p n, 1), (.resvAcquire p n, 2), (.resvPreempt p n, 3), (.resvReport p n, 4)] →
    (s.is F.DRV_CTRL_RESV_EN = false → exec c s = .next s) ∧
    (s.is F.DRV_CTRL_RESV_EN = true → (s.port n).state ≠ .ready →
      ∃ t, exec c s = .next t ∧ t = { s with drv := t.drv, regs := t.regs } ∧
        t.port n = { s.port n with resv := (true, 2, 0) } ∧ t.is F.DRV_STATUS_RESV_DONE = true) ∧
    (s.is F.DRV_CTRL_RESV_EN = true → (s.port n).state = .ready → (s.port n).resvCmd.isSome = true →
      ∃ t, exec c s = .next t ∧ t = { s with drv := t.drv, regs := t.regs } ∧
        t.port n = { s.port n with resv := (true, 3, 0) } ∧ t.is F.DRV_STATUS_RESV_DONE = true) ∧
    (s.is F.DRV_CTRL_RESV_EN = true → (s.port n).state = .ready → (s.port n).resvCmd = none →
      ∃ t, exec c s = .next t ∧ t = { s with drv := t.drv } ∧
        t.port n = { s.port n with resv := (false, 0, 0), resvCmd := some k } ∧ (∀ j, j ≠ n → t.port j = s.port j) ∧
        ∃ d ∈ t.drv.cmds, d.name = s.drv.nextName ∧ d.bay = n ∧ d.use =
          .reservation k (if k = 4 then 0 else s.pair A.DRV_RESV_KEY) (if k = 3 then s.pair A.DRV_RESV_PEER_KEY else 0))) ∧
  (∀ (n code holder : Nat) (s : State), s.awake = true →
    ((s.port n).resvCmd = none → exec (.resvDone n code holder) s = .next s) ∧
    ((s.port n).resvCmd.isSome = true → code ≠ 1 → s.peer.arb = none → s.peer.takes = [] → s.peer.takeBusy = false →
      s.peer.takeStep ≠ .winning →
      ∃ t, exec (.resvDone n code holder) s = .next t ∧ t = { s with drv := t.drv, regs := t.regs } ∧
        t.port n = { s.port n with resv := (true, code, holder), resvCmd := none } ∧ (∀ j, j ≠ n → t.port j = s.port j) ∧
        t.is F.DRV_STATUS_RESV_DONE = true))

/-! ### Bay and feed power (15_bay_power.md) -/

/-- A sub-channel follows Table 15-2: an enable starts it RAMPING, power-good turns it ON, a disable turns it OFF; the breaker, the
fault timer and 20 ms without power-good latch it and its partner off with the cause (R578 to R586), and 10 us disabled release
the latch (R583). TELEMETRY_UPDATE takes the 1 ms means into what a sub-channel reports (R592, R593), and BAY_TEL_SEL_WRITE
latches the selected sub-channel's set, which later updates leave alone (R594). -/
def Obligations.BayPower : Prop :=
  ((∀ (p : Path) (n k : Nat) (s : State), s.busOn = true → s.modeLets p (A.BAY_EN n) = true → subExists n k = true →
     (s.is (enField n k) = false → s.enIgnored = false → (s.sub n k).state = .off →
       ∃ t, exec (.channelEnable p n k) s = .next t ∧ t = { s with bay := { s.bay with subs := t.bay.subs }, regs := t.regs } ∧
         t.is (enField n k) = true ∧ t.sub n k = { s.sub n k with
           state := .ramping, cause := 0, since := s.now, disabledAt := none, limiting := none } ∧
         ∀ i j, subExists i j = true → (i, j) ≠ (n, k) → t.sub i j = s.sub i j) ∧
     (s.is (enField n k) = true ∨ s.enIgnored = true → exec (.channelEnable p n k) s = .next s) ∧
     (s.is (enField n k) = true →
       ∃ t, exec (.channelDisable p n k) s = .next t ∧ t = { s with bay := { s.bay with subs := t.bay.subs }, regs := t.regs } ∧
         t.is (enField n k) = false ∧ (t.sub n k).pg = false ∧ (t.sub n k).disabledAt = some s.now ∧
         ((s.sub n k).state ≠ .latched → (t.sub n k).state = .off) ∧
         ((s.sub n k).state = .latched → (t.sub n k).state = .latched) ∧
         ((s.sub n k).pg = true → t.is F.BAY_STATUS_PG_CHANGE = true) ∧
         ∀ i j, subExists i j = true → (i, j) ≠ (n, k) → t.sub i j = s.sub i j)) ∧
   (∀ (n k : Nat) (s : State), s.busOn = true → subExists n k = true →
     ((s.sub n k).runs = true → (s.sub n k).limiting = none → (s.sub n k).pg = false →
       ∃ t, exec (.powerGoodGiven n k) s = .next t ∧ t = { s with bay := { s.bay with subs := t.bay.subs }, drv := t.drv, regs := t.regs } ∧
         t.sub n k = { s.sub n k with state := .on, pg := true } ∧ t.is F.BAY_STATUS_PG_CHANGE = true ∧
         ∀ i j, subExists i j = true → (i, j) ≠ (n, k) → t.sub i j = s.sub i j) ∧
     ((s.sub n k).limiting = none → (s.sub n k).pg = true →
       ∃ t, exec (.powerGoodLost n k) s = .next t ∧ t = { s with bay := { s.bay with subs := t.bay.subs }, regs := t.regs } ∧
         t.sub n k = { s.sub n k with pg := false } ∧ t.is F.BAY_STATUS_PG_CHANGE = true ∧
         ∀ i j, subExists i j = true → (i, j) ≠ (n, k) → t.sub i j = s.sub i j) ∧
     ((s.sub n k).limiting.isSome = true → exec (.powerGoodLost n k) s = .next s) ∧
     ((s.sub n k).runs = true → (s.sub n k).limiting = none →
       exec (.limitingStart n k) s = .next (s.setSub n k { s.sub n k with limiting := some s.now })) ∧
     exec (.limitingEnd n k) s = .next (s.setSub n k { s.sub n k with limiting := none }) ∧
     (∀ off, (s.sub n k).runs = true → (s.sub n k).reverse ≠ off →
       ∃ t, exec (.reverseCurrent n k off) s = .next t ∧ t = { s with bay := { s.bay with subs := t.bay.subs }, regs := t.regs } ∧
         t.sub n k = { s.sub n k with reverse := off } ∧ (off = false → t.regs = s.regs) ∧
         (off = true → t.is F.BAY_STATUS_REVERSE = true ∧
           t.pair (A.BAY_REVERSE_EVENTS n) = (s.pair (A.BAY_REVERSE_EVENTS n) + 1) % 2 ^ 64))) ∧
   (∀ (n k t0 : Nat) (s : State), s.busOn = true → subExists n k = true → (s.sub n k).state = .latched →
     (s.sub n k).disabledAt = some t0 →
     (s.is (enField n k) = false → t0 + 10000 ≤ s.now →
       exec (.latchRelease n k) s = .next (s.setSub n k { s.sub n k with state := .off, disabledAt := none })) ∧
     (s.now < t0 + 10000 ∨ s.is (enField n k) = true → exec (.latchRelease n k) s = .next s)) ∧
   (∀ (n k cause : Nat) (c : Instr) (s : State), s.busOn = true → subExists n k = true → (s.sub n k).runs = true →
     (c = .breakerTrip n k ∧ cause = 1 ∧ s.is (enField n k) = true) ∨
     (c = .timerTrip n k ∧ cause = 2 ∧ ∃ t0, (s.sub n k).limiting = some t0 ∧ t0 + s.faultTime n ≤ s.now) ∨
     (c = .inrushTrip n k ∧ cause = 3 ∧ (s.sub n k).state = .ramping ∧ (s.sub n k).pg = false ∧
       (s.sub n k).since + 20000000 ≤ s.now) →
     ∃ t, exec c s = .next t ∧
       t = { s with bay := { s.bay with subs := t.bay.subs }, regs := t.regs, wdn := t.wdn, mgt := t.mgt } ∧
       t.sub n k = { s.sub n k with state := .latched, cause := cause, pg := false, limiting := none, reverse := false } ∧
       (n < 24 → (s.sub n (1 - k)).runs = true →
         t.sub n (1 - k) = { s.sub n (1 - k) with state := .latched, cause := 4, pg := false, limiting := none, reverse := false }) ∧
       ((s.sub n (1 - k)).runs = false → t.sub n (1 - k) = s.sub n (1 - k)) ∧
       (∀ i, i ≠ n → t.sub i 0 = s.sub i 0 ∧ (i < 24 → t.sub i 1 = s.sub i 1)) ∧
       t.is F.BAY_STATUS_LATCHED = true ∧ Event.bayFault n ∈ t.wdn.events)) ∧
  ((∀ (x : TelSample) (s : State), s.busOn = true → subExists x.channel x.sub = true → s.is F.BAY_CTRL_LIMIT_EN = false →
     Tab.getD Tick.telemetry 0 s.served < s.now / 1000000 * 1000000 →
     ∃ t, exec (.telemetryUpdate [x]) s = .next t ∧ t = { s with bay := { s.bay with subs := t.bay.subs }, served := t.served } ∧
       t.sub x.channel x.sub = { s.sub x.channel x.sub with
         vout := x.vout, vin := x.vin, cur := x.cur, pow := x.pow
         avg := (x.pow :: (s.sub x.channel x.sub).avg).take 1000, energy := (s.sub x.channel x.sub).energy + x.energy } ∧
       ∀ i j, subExists i j = true → (i, j) ≠ (x.channel, x.sub) → t.sub i j = s.sub i j) ∧
   (∀ (n : Nat) (s : State), (s.bayLimit n).getD 0 ≠ 0 →
     (100 * (((s.bayLimit n).getD 0 : Nat) : Int) < s.chanAverage n →
       (s.limitCheck n).bay.overLimit.contains n = true ∧ (s.limitCheck n).is F.BAY_STATUS_OVER_LIMIT = true) ∧
     (100 * s.chanAverage n ≤ 95 * (100 * (((s.bayLimit n).getD 0 : Nat) : Int)) →
       (s.limitCheck n).bay.overLimit.contains n = false) ∧ (s.limitCheck n).bay.subs = s.bay.subs) ∧
   (∀ (p : Path) (v : Word) (n k : Nat) (s : State), s.busOn = true → s.modeLets p A.BAY_TEL_SEL = true →
     n = fval F.BAY_TEL_SEL_CHANNEL v → k = fval F.BAY_TEL_SEL_SUB v →
     ∃ t, exec (.bayTelSelWrite p v) s = .next t ∧ t = { s with bay := { s.bay with tel := t.bay.tel }, regs := t.regs } ∧
       (∀ a, a ≠ A.BAY_TEL_SEL → t.word a = s.word a) ∧
       (subExists n k = true → t.bay.tel =
         ((s.sub n k).vout, (s.sub n k).vin, (s.sub n k).cur, (s.sub n k).pow, s.chanAverage n))))

/-! ### The Wardens (16_wardens.md) -/

/-- A core in the minority at a voting site is FENCED (R607), whether a site names it, its signature or its memory differs (R606);
where all three differ or only two cores are active there is no majority and the complex restarts (R608); at no site of the four
nothing happens (the model's reading, assumption 170). FENCE_EXPIRY, BIST_DONE and RESYNC_COPY bring a fenced core back, or
retire it (R609 to R611). WDN_CMD: FENCE and RETIRE leave two cores active or do nothing (R612), RESYNC tests a fenced core,
ACTIVATE starts an image from the Cellar whose digest holds (R627), and RAISE_FLOOR raises the floor to the running serial
(R628). -/
def Obligations.Wardens : Prop :=
  ((∀ (n site : Nat) (s : State), s.awake = true → s.complexRuns = true → n ∈ s.activeCores →
     (s.activeCores = [0, 1, 2] → 1 ≤ site → site ≤ 3 → ∃ t, exec (.disagreement n site) s = .next t ∧ (t.core n).state = .fenced ∧
       (∀ k, k ≠ n → t.core k = s.core k) ∧ t.wdn.mode = .duplex ∧ t.fld F.WDN_DISAGREE_CORE = 2 ^ n ∧
       t.fld F.WDN_DISAGREE_SITE = site ∧ t.is F.WDN_STATUS_FENCED = true ∧
       t.pair A.WDN_DISAGREEMENTS = (s.pair A.WDN_DISAGREEMENTS + 1) % 2 ^ 64 ∧
       t = { s with wdn := t.wdn, regs := t.regs, mgt := t.mgt }) ∧
     (site = 0 ∨ 4 < site → exec (.disagreement n site) s = .next s) ∧
     (s.activeCores = [0, 1, 2] ∧ site = 4 ∨ s.activeCores.length = 2 ∧ 1 ≤ site ∧ site ≤ 4 →
       ∃ t, exec (.disagreement n site) s = .next t ∧ t.wdn.mode = .restarting ∧
       (∀ k < 3, (s.core k).state ≠ .retired → (t.core k).state = .testing) ∧ t.fld F.WDN_DISAGREE_SITE = 4 ∧
       t.is F.WDN_STATUS_RESTARTED = true ∧ t = { s with wdn := t.wdn, regs := t.regs, mgt := t.mgt })) ∧
   (∀ s : State, s.awake = true → s.complexRuns = true → s.activeCores = [0, 1, 2] →
     Tab.getD Tick.watch 0 s.served < s.now / 1000000 * 1000000 →
     ((s.core 0).signature = (s.core 1).signature → (s.core 1).signature = (s.core 2).signature →
       exec .signatureCompare s = .next { s with served := Tab.set Tick.watch (s.now / 1000000 * 1000000) s.served }) ∧
     ((s.core 0).signature = (s.core 1).signature → (s.core 1).signature ≠ (s.core 2).signature →
       ∃ t, exec .signatureCompare s = .next t ∧ (t.core 2).state = .fenced ∧ t.core 0 = s.core 0 ∧ t.core 1 = s.core 1 ∧
         t.fld F.WDN_DISAGREE_SITE = 2)) ∧
   (∀ s : State, s.awake = true → s.complexRuns = true → s.activeCores = [0, 1, 2] →
     (s.core 0).mem = (s.core 1).mem → (s.core 1).mem = (s.core 2).mem →
     Tab.getD Tick.sweep 0 s.served < s.now / 100000000 * 100000000 →
     exec (.memorySweep []) s = .next { s with served := Tab.set Tick.sweep (s.now / 100000000 * 100000000) s.served } ∧
     ∀ n w, n < 3 → ∃ t, exec (.memorySweep [(n, w)]) s = .next t ∧ (t.core n).state = .fenced ∧
       (∀ k, k ≠ n → t.core k = s.core k) ∧ t.fld F.WDN_DISAGREE_SITE = 3) ∧
   (∀ (f : List Nat) (s : State), s.awake = true →
     (s.wdn.mode = .halted → exec (.wardenRestart f) s = .next s) ∧
     (s.wdn.mode = .restarting → (∀ n < 3, (s.core n).state ≠ .retired) → f = [] →
       ∃ t, exec (.wardenRestart f) s = .next t ∧ t.wdn.mode = .triple ∧ (∀ n < 3, (t.core n).state = .active) ∧
         t.wdn.startReason = 1) ∧
     (s.wdn.mode = .restarting →
       ((List.range 3).filter fun n => decide ((s.core n).state ≠ .retired) && !f.contains n).length < 2 →
       ∃ t, exec (.wardenRestart f) s = .next t ∧ t.wdn.mode = .halted)) ∧
   (∀ (n : Nat) (s : State), s.awake = true → n < 3 →
     ((s.core n).state = .fenced → s.is F.WDN_CTRL_AUTO_RESYNC = true → (s.core n).since + 1000000 ≤ s.now →
       exec (.fenceExpiry n) s = .next (s.setCore n { s.core n with state := .testing, since := s.now })) ∧
     ((s.core n).state = .fenced → s.is F.WDN_CTRL_AUTO_RESYNC = false → exec (.fenceExpiry n) s = .next s) ∧
     ((s.core n).state = .testing → s.wdn.mode ≠ .restarting → (s.core n).since + 40000000 ≤ s.now →
       ((within24h s.now (s.core n).fences).length < s.fenceLimit →
         ∃ t, exec (.bistDone n true) s = .next t ∧ t.core n = { s.core n with state := .resyncing, since := s.now } ∧
           t.wdn.testsRun.testBit 1 = true ∧ t.attic = s.attic) ∧
       ∃ t, exec (.bistDone n false) s = .next t ∧ (t.core n).state = .retired ∧ n ∈ t.attic.cores ∧
         t.wdn.testsFailed.testBit 1 = true ∧ t.is F.WDN_STATUS_CORE_RETIRED = true) ∧
     (∀ a b l, s.activeCores = a :: b :: l → (s.core n).state = .resyncing → s.complexRuns = true → s.activation = none →
       s.modeWait = false →
       ∃ t, exec (.resyncCopy n) s = .next t ∧ t = { s with wdn := t.wdn, regs := t.regs } ∧ (t.core n).state = .active ∧
         (t.core n).regs = (s.core a).regs ∧ (t.core n).csrs = (s.core a).csrs ∧ (t.core n).pc = (s.core a).pc ∧
         (t.core n).mem = (s.core a).mem ∧ (∀ k, k ≠ n → t.core k = s.core k) ∧ t.is F.WDN_STATUS_RESYNC_DONE = true))) ∧
  ((∀ (p : Path) (n : Nat) (s : State), s.busOn = true → s.modeLets p A.WDN_CMD = true → n < 3 →
     (s.activeCores = [0, 1, 2] →
       (s.complexRuns = true → ∃ t, exec (.coreFence p n) s = .next t ∧ (t.core n).state = .fenced ∧
         (∀ k, k ≠ n → t.core k = s.core k) ∧ t.wdn.mode = .duplex ∧ t.is F.WDN_STATUS_FENCED = true ∧
         t = { s with wdn := t.wdn, regs := t.regs }) ∧
       ∃ t, exec (.coreRetire p n) s = .next t ∧ (t.core n).state = .retired ∧ (∀ k, k ≠ n → t.core k = s.core k) ∧
         t.attic = { s.attic with cores := insertNat n s.attic.cores } ∧ t.is F.WDN_STATUS_CORE_RETIRED = true) ∧
     (s.activeCores.length = 2 → n ∈ s.activeCores →
       exec (.coreFence p n) s = .next s ∧ exec (.coreRetire p n) s = .next s) ∧
     ((s.core n).state = .fenced →
       exec (.coreResync p n) s = .next (s.setCore n { s.core n with state := .testing, since := s.now })) ∧
     ((s.core n).state ≠ .fenced → exec (.coreResync p n) s = .next s)) ∧
   (∀ (p : Path) (a code : Nat) (img : List Byte) (s : State), s.busOn = true → s.modeLets p A.WDN_CMD = true →
     a = s.pair A.WDN_FW_SRC % 2 ^ 36 → code = leAt (s.cellar a 128) 24 4 → img = s.cellar a (128 + code) →
     (s.complexRuns = false → exec (.wdnActivate p) s = .next s) ∧
     (s.complexRuns = true → s.inRegion 7 a (128 + code) = true → code ≤ 786432 → s.rangePoison a (128 + code) = false →
       beAt img 48 48 = sha384 (slice img 128 code) →
       ∃ t, exec (.wdnActivate p) s = .next t ∧ t.is F.WDN_STATUS_ACTIVATED = true ∧ t.wdn.startReason = 2 ∧
         t.wdn.fwSerial = leAt img 16 8 ∧ t.wdn.fwSlot = some s.otherSlot ∧ t.wdn.entry = leAt img 28 4 ∧
         (∀ n ∈ s.activeCores, (t.core n).pc = BitVec.ofNat 64 (0x100000 + leAt img 28 4) ∧
           (t.core n).mem = codeMem (slice img 128 (leAt img 24 4)) ∧ Tab.getD 10 0 (t.core n).regs = 2) ∧
         t.pair A.WDN_ACTIVATIONS = (s.pair A.WDN_ACTIVATIONS + 1) % 2 ^ 64) ∧
     (s.complexRuns = true → s.inRegion 7 a (128 + code) = false ∨ beAt img 48 48 ≠ sha384 (slice img 128 code) →
       ∃ t, exec (.wdnActivate p) s = .next t ∧ t = { s with regs := t.regs } ∧ t.is F.WDN_STATUS_ACTIVATE_FAIL = true)) ∧
   (∀ (p : Path) (s : State), s.busOn = true → s.modeLets p A.WDN_CMD = true →
     exec (.wdnRaiseFloor p) s = .next { s with attic := { s.attic with fwFloor := max s.attic.fwFloor s.wdn.fwSerial } }))

/-- WFI lets the active cores wait unless an interrupt pends, and TIMER_INTERRUPT ends their wait (R602, R604).
STOCKTAKE_TEST counts a run and what fails (R616, R617). STOCK_REPORT writes the 256 bytes of the stock report with its CRC-32C
each 1 s (R618), and WDN_REPORT_READ snaps it (R620). -/
def Obligations.WaitsAndStocktake : Prop :=
  (∀ s : State, s.awake = true →
    (s.irqPending = true → exec .wfi s = .next s) ∧
    (s.irqPending = false → ∃ t, exec .wfi s = .next t ∧ t = { s with wdn := { s.wdn with cores := t.wdn.cores } } ∧
      ∀ n, t.core n = if n ∈ s.activeCores then { s.core n with wfi := true } else s.core n) ∧
    (s.now < s.pair A.WDN_MTIMECMP → exec .timerInterrupt s = .next s) ∧
    (s.pair A.WDN_MTIMECMP ≤ s.now → ∃ t, exec .timerInterrupt s = .next t ∧
      t = { s with wdn := { s.wdn with cores := t.wdn.cores } } ∧
      ∀ n, t.core n = if n ∈ s.activeCores then { s.core n with wfi := false } else s.core n)) ∧
  (∀ (i n : Nat) (b : Bool) (s : State), s.awake = true →
    (s.is F.WDN_CTRL_STOCKTAKE_EN = false ∨ s.stockMay i n = false ∨
        s.now / (1000000000 * stockInterval i) * (1000000000 * stockInterval i) ≤ Tab.getD (Tick.stock + i + 11 * n) 0 s.served →
      exec (.stocktakeTest i n b) s = .next s) ∧
    (s.is F.WDN_CTRL_STOCKTAKE_EN = true → s.stockMay i n = true →
        Tab.getD (Tick.stock + i + 11 * n) 0 s.served < s.now / (1000000000 * stockInterval i) * (1000000000 * stockInterval i) →
      (i ≠ 2 → ∃ t, exec (.stocktakeTest i n b) s = .next t ∧
        t = { s with wdn := t.wdn, regs := t.regs, mgt := t.mgt, served := t.served } ∧
        t.wdn.testsRun = s.wdn.testsRun ||| 2 ^ i ∧ t.wdn.testsFailed.testBit i = b ∧
        t.pair A.WDN_STOCK_TESTS = (s.pair A.WDN_STOCK_TESTS + 1) % 2 ^ 64 ∧
        (b = true → t.is F.WDN_STATUS_STOCK_FAIL = true ∧
          t.pair A.WDN_STOCK_FAILS = (s.pair A.WDN_STOCK_FAILS + 1) % 2 ^ 64)) ∧
      (i = 2 → b = true → 32 ≤ n → n < 98 → ∃ t, exec (.stocktakeTest i n b) s = .next t ∧ n ∈ t.attic.pipes))) ∧
  (∀ s : State, s.managed = true → s.twoControllers = false →
    Tab.getD Tick.report 0 s.served < s.now / 1000000000 * 1000000000 →
    ∃ t, exec .stockReport s = .next t ∧ t = { s with wdn := t.wdn, regs := t.regs, served := t.served } ∧
      t.wdn.report.length = 256 ∧ leAt t.wdn.report 252 4 = (crc32c (t.wdn.report.take 252)).toNat ∧
      leAt t.wdn.report 16 8 = s.now % 2 ^ 64 ∧ rb t.wdn.report 7 = s.healthCode ∧
      t.wdn.reportSeq = s.wdn.reportSeq + 1 ∧ t.wdn.testsRun = 0 ∧ t.is F.WDN_STATUS_REPORT = true) ∧
  (∀ (p : Path) (s : State), s.busOn = true → s.modeLets p (A.WDN_REPORT 0) = true →
    exec (.wdnReportRead p) s = .next { s with
      wdn := { s.wdn with reportSnap := s.wdn.report }, answer := beBytes 4 (leAt s.wdn.report 0 4) })

/-! ### The peer (17_peer_and_takeover.md) -/

/-- PEER_FRAME_RECEIVE discards a damaged frame and counts it, delivers a frame in SEQ order once, and no other (R637);
PEER_RETRANSMIT sends what ACK_SEQ has not covered within 50 us again (R637). The sideband rows send and take frames of
Table 17-3 with a right CHECK (R639, R682, R683). -/
def Obligations.PeerFrames : Prop :=
  (∀ (l : List Byte) (s : State), s.peerOn = true → s.asleep = false →
    (l.length < 20 ∨ beAt l (l.length - 4) 4 ≠ (crc32c (l.take (l.length - 4))).toNat →
      ∃ t, exec (.peerFrameReceive l) s = .next t ∧ t = { s with regs := t.regs } ∧
        t.pair A.PEER_FRAME_ERR = (s.pair A.PEER_FRAME_ERR + 1) % 2 ^ 64) ∧
    (20 ≤ l.length → beAt l (l.length - 4) 4 = (crc32c (l.take (l.length - 4))).toNat → beAt l 0 1 = 1 →
      beAt l 12 4 + 20 = l.length → s.peer.linkLost = false → s.peer.state ≠ .linkLost →
      (beAt l 4 4 ≠ (s.peer.rxSeq + 1) % 2 ^ 32 → ∃ t, exec (.peerFrameReceive l) s = .next t ∧
        t = { s with peer := { s.peer with linkAt := some s.now, unacked := t.peer.unacked } }) ∧
      (beAt l 4 4 = (s.peer.rxSeq + 1) % 2 ^ 32 → ∃ t u : State, exec (.peerFrameReceive l) s = .next t ∧
        u = { s with peer := { s.peer with linkAt := some s.now, rxSeq := beAt l 4 4, unacked := u.peer.unacked } } ∧
        (∀ f ∈ u.peer.unacked, f ∈ s.peer.unacked ∧ 2 ^ 31 ≤ (beAt l 8 4 + 2 ^ 32 - f.seq) % 2 ^ 32) ∧
        t = { u.peerMessage (beAt l 1 1) (slice l 16 (beAt l 12 4)) with pending := s.pending } ∧
        (beAt l 1 1 = 7 → 7 ≤ beAt l 12 4 → Tab.find? (beAt l 16 1 % 8) t.attic.peerClocks = some (beAt l 17 6))))) ∧
  (∀ s : State, s.peerOn = true → s.asleep = false → s.peer.groups ≠ 0 →
    ∃ t, exec .peerRetransmit s = .next t ∧ t = { s with peer := { s.peer with unacked := t.peer.unacked }, regs := t.regs } ∧
      t.peer.unacked = s.peer.unacked.map (fun f => if f.sentAt + 50000 ≤ s.now then { f with sentAt := s.now } else f) ∧
      t.pair A.PEER_RETRANSMITS = (s.pair A.PEER_RETRANSMITS +
        (s.peer.unacked.filter fun f => decide (f.sentAt + 50000 ≤ s.now)).length) % 2 ^ 64) ∧
  (∀ (l : List Byte) (s : State), s.peerOn = true →
    (sideOk l = false → ∃ t, exec (.sidebandFrameReceive l) s = .next t ∧ t = { s with regs := t.regs } ∧
      t.pair A.PEER_SIDEBAND_ERR = (s.pair A.PEER_SIDEBAND_ERR + 1) % 2 ^ 64) ∧
    (sideOk l = true → beAt l 0 1 = 1 → s.peer.offer = none → s.peer.state ≠ .sidebandLost →
      exec (.sidebandFrameReceive l) s = .next { s with peer := { s.peer with
        sideAt := some s.now, sideLost := false, flags := beAt l 1 1, peerOwn := beAt l 2 1
        arbSet := if s.peer.state = .arbitrating ∨ s.peer.takeStep = .winning then s.peer.arbSet else s.readyMask &&& beAt l 4 3 } }) ∧
    (sideOk l = true → beAt l 0 1 = 1 → s.peer.offer = none → s.peer.state = .sidebandLost →
      ∃ t, exec (.sidebandFrameReceive l) s = .next t ∧ t.peer.state = .mirrored ∧ t.peer.sideLost = false ∧
        t.peer.sideAt = some s.now)) ∧
  (∀ s : State, s.peerOn = true →
    (s.now / 1000000 * 1000000 ≤ Tab.getD Tick.heartbeat 0 s.served → exec .sidebandHeartbeatSend s = .next s) ∧
    (Tab.getD Tick.heartbeat 0 s.served < s.now / 1000000 * 1000000 →
      ∃ t, exec .sidebandHeartbeatSend s = .next t ∧ t = { s with peer := t.peer, served := t.served } ∧
        sideOk t.peer.lastSide = true ∧ beAt t.peer.lastSide 0 1 = 1 ∧ beAt t.peer.lastSide 2 1 = s.peer.own % 256 ∧
        t.peer.sideSeq = (s.peer.sideSeq + 1) % 256 ∧
        (s.peer.groups = 0 → t.peer.unacked = s.peer.unacked) ∧
        (s.peer.groups ≠ 0 → s.asleep = false → ∃ f, t.peer.unacked = s.peer.unacked ++ [f] ∧ f.kind = 1 ∧
          f.seq = s.peer.txSeq)) ∧
    (s.asleep = false → s.peer.state ≠ .sidebandLost →
      ∃ t, exec .sidebandWake s = .next t ∧ t = { s with peer := t.peer, regs := t.regs } ∧
      sideOk t.peer.lastSide = true ∧ beAt t.peer.lastSide 0 1 = 3 ∧ t.is F.PEER_STATUS_WAKE_RX = true ∧
      t.peer.sideAt = some s.now ∧ t.peer.sideLost = false ∧ t.peer.state = s.peer.state) ∧
    (s.peer.state ≠ .sidebandLost → ∃ t, exec .sidebandWakeAck s = .next t ∧ t.is F.PWR_STATUS_WAKE_ACK = true ∧
      t = { s with peer := { s.peer with sideAt := some s.now, sideLost := false }, regs := t.regs }) ∧
    (s.peer.state = .sidebandLost → ∃ t, exec .sidebandWakeAck s = .next t ∧ t.is F.PWR_STATUS_WAKE_ACK = true ∧
      t.peer.state = .mirrored ∧ t.peer.sideLost = false ∧ t.peer.sideAt = some s.now)) ∧
  (∀ (m : Nat) (s : State), s.up = true →
    exec (.peerLinkGroupChange m) s = .next { s with peer := { s.peer with groups := m % 4 } })

/-- PEER_LINK_LOST and SIDEBAND_LOST act on 20 ms without a valid frame (R641) and take a MIRRORED side out of it (Table 17-4);
ARBITRATION_DECIDE gives the side SOLO or FENCED by R656 to R658; MIRROR_WAIT_EXPIRY and MIRROR_FAIL let writes complete without
the peer (R647, R651). -/
def Obligations.LossesAndArbitration : Prop :=
  (∀ (t0 : Nat) (s : State), s.peerOn = true →
    (s.asleep = false → s.peer.linkLost = false → s.peer.linkAt = some t0 →
      (s.now < t0 + 20000000 → exec .peerLinkLost s = .next s) ∧
      (t0 + 20000000 ≤ s.now →
        (s.peer.state = .solo → ∃ t, exec .peerLinkLost s = .next t ∧
          t = { s with peer := { s.peer with linkLost := true }, regs := t.regs } ∧ t.is F.PEER_STATUS_LINK_LOST = true) ∧
        (s.peer.state = .mirrored → s.peer.sideLost = false → s.peer.giving = none →
          ∃ t, exec .peerLinkLost s = .next t ∧ t.peer = { s.peer with
              linkLost := true, state := .linkLost, mirrorEnd := s.peer.mirrorEnd.orElse fun _ => some s.now } ∧
            t.is F.PEER_STATUS_LINK_LOST = true ∧
            t = { s with peer := t.peer, regs := t.regs, wdn := t.wdn, mgt := t.mgt }))) ∧
    (s.asleep = false → s.peer.sideLost = false → s.peer.sideAt = some t0 →
      (s.now < t0 + 20000000 → exec .sidebandLost s = .next s) ∧
      (t0 + 20000000 ≤ s.now → s.peer.state = .mirrored → s.peer.linkLost = false → s.peer.giving = none →
        ∃ t, exec .sidebandLost s = .next t ∧ t.peer = { s.peer with
            sideLost := true, state := .sidebandLost, mirrorEnd := none } ∧
          t.is F.PEER_STATUS_SIDEBAND_LOST = true ∧
          t = { s with peer := t.peer, regs := t.regs, wdn := t.wdn, mgt := t.mgt }))) ∧
  (∀ (t0 : Nat) (left held : List Nat) (cur : Option Nat) (s : State), s.awake = true → s.peer.state = .arbitrating →
    s.peer.arb = some (t0, left, cur, held) →
    ((left ≠ [] ∨ cur.isSome = true) → s.now < t0 + 2000000000 → exec .arbitrationDecide s = .next s) ∧
    (t0 + 2000000000 ≤ s.now → 2 * held.length < s.peer.arbResult.1 ∨
        (2 * held.length = s.peer.arbResult.1 ∧ s.side ≠ 0) → s.cq.slots = [] →
      ∃ t, exec .arbitrationDecide s = .next t ∧ t.peer.state = .fenced ∧ t.peer.byArbitration = true ∧
        t.peer.arbResult = (s.peer.arbResult.1, held.length, 3) ∧ t.is F.PEER_STATUS_ARB_LOST = true ∧
        t.is F.PEER_STATUS_FENCED = true) ∧
    (t0 + 2000000000 ≤ s.now → s.peer.arbResult.1 < 2 * held.length ∨
        (2 * held.length = s.peer.arbResult.1 ∧ s.side = 0) → s.str.live = [] → s.drv.cmds = [] →
      (s.arbOrder s.peer.arbSet).filter (fun b => !held.contains b) = [] → s.is F.PEER_CTRL_AUTO_TAKEOVER = false →
      ∃ t, exec .arbitrationDecide s = .next t ∧ t.peer.state = .solo ∧ t.peer.won = true ∧
        t.peer.arbResult = (s.peer.arbResult.1, held.length, 2) ∧ t.peer.takeStep = .idle ∧
        t.is F.PEER_STATUS_ARB_WON = true)) ∧
  (∀ s : State, s.awake = true →
    (s.peer.state = .mirrored ∨ s.peer.linkLost = false → exec .mirrorWaitExpiry s = .next s) ∧
    ∀ t0, s.peer.state ≠ .mirrored → s.peer.linkLost = true → s.peer.linkAt = some t0 → t0 + 40000000 ≤ s.now →
      exec .mirrorWaitExpiry s = .next { s with str := { s.str with
        live := s.str.live.map fun w => { w with mirrorWait := false } } }) ∧
  (∀ (n : Nat) (w : StripeWrite) (s : State), s.awake = true → s.live? n = some w → w.mirrorWait = true →
    (s.peer.retriedMirror.contains n = false → exec (.mirrorFail n) s = .next
      { ((s.onPeer fun p => { p with retriedMirror := p.retriedMirror ++ [n] }).mirrorWrite w).joinedNow with pending := s.pending }) ∧
    (s.peer.retriedMirror.contains n = true → s.peer.state ≠ .joining →
      ∃ t v, exec (.mirrorFail n) s = .next t ∧ t = { s with str := t.str, peer := t.peer, regs := t.regs } ∧
        t.live? n = some v ∧ v.mirrorWait = false ∧ v.mirrored = w.mirrored ∧ t.is F.PEER_STATUS_MIRROR_FAIL = true ∧
        t.pair A.PEER_MIRROR_FAIL = (s.pair A.PEER_MIRROR_FAIL + 1) % 2 ^ 64))

/-- HANDOVER_GIVE marks the volumes of owned groups and, once they are quiet, HANDOVER_QUIESCED writes a checkpoint and offers
them (R652, R653); TAKEOVER takes groups of a peer that R660 lets it take, TAKEOVER_DONE gives them their clocks (R661, R662), and
OPEN makes them this side's own (R663). YIELD, JOIN and SET_OWN act as R642, R652 and R665 say. -/
def Obligations.HandoverAndTakeover : Prop :=
  (∀ (p : Path) (m : Nat) (s : State), s.busOn = true → s.modeLets p A.PEER_CMD = true → s.peerOn = true →
    (s.peer.state = .mirrored → s.peer.giving = none → m ≠ 0 → m &&& s.peer.own = m →
      ∃ t h, exec (.handoverGive p m) s = .next t ∧ t = { s with vol := t.vol, peer := { s.peer with giving := some h } } ∧
        h.groups = m ∧ h.ckpt = false ∧ h.offered = false ∧
        ∀ v ∈ s.volsOf m, (getPart (t.vent v) Volu.owner).testBit 1 = true) ∧
    (s.peer.state ≠ .mirrored ∨ m &&& s.peer.own ≠ m → exec (.handoverGive p m) s = .next s) ∧
    (s.peer.won = false ∨ s.peer.state ≠ .solo → s.peer.flags = 0 → exec (.takeover p m) s = .next s) ∧
    (s.peer.won = true → s.peer.state = .solo → m ≠ 0 → m &&& s.peer.peerOwn = m → s.peer.takeover = none → s.peer.takeStep = .idle →
      s.takeBays m = [] →
      exec (.takeover p m) s = .next { s with peer := { s.peer with
        takeover := some m, takes := [], takeBusy := false, takeStep := .taking } }) ∧
    (∃ t, exec (.peerOpen p m) s = .next t ∧ t = { s with vol := t.vol, peer := { s.peer with
        own := s.peer.own ||| (m &&& s.peer.taken), taken := s.peer.taken - (m &&& s.peer.taken) } } ∧
      ∀ v ∈ s.volsOf (m &&& s.peer.taken), (getPart (t.vent v) Volu.owner).testBit 0 = true) ∧
    exec (.peerYield p) s = .next { s with peer := { s.peer with yield_ := true } } ∧
    (∃ t f, exec (.peerJoin p) s = .next t ∧ t = { s with peer := { s.peer with
        unacked := s.peer.unacked ++ [f], txSeq := (s.peer.txSeq + 1) % 2 ^ 32 } } ∧ f.kind = 14 ∧ f.seq = s.peer.txSeq ∧
      f.payload = s.joinBytes) ∧
    (s.peer.state = .solo ∨ s.peer.state = .joining →
      (∀ g < 8, m.testBit g = true → s.grpOn g = false ∧ s.peer.peerOwn.testBit g = false) →
      exec (.setOwn p m) s = .next { s with peer := { s.peer with own := m } }) ∧
    (s.peer.state = .mirrored ∨ (∃ g < 8, m.testBit g = true ∧ s.grpOn g = true) → exec (.setOwn p m) s = .next s)) ∧
  (∀ (h : HandoverRun) (s : State), s.awake = true → s.peer.giving = some h → h.offered = false → h.slots = [] →
    s.str.live = [] → s.str.waiting = [] → s.str.ckpt = none →
    (h.ckpt = false → s.isFenced = false → ∃ t r, exec .handoverQuiesced s = .next t ∧ t.str.ckpt = some r ∧
      t.peer = { s.peer with giving := some { h with ckpt := true } }) ∧
    (h.ckpt = true → ∃ t f, exec .handoverQuiesced s = .next t ∧ t = { s with peer := { s.peer with
        unacked := s.peer.unacked ++ [f], txSeq := (s.peer.txSeq + 1) % 2 ^ 32, giving := some { h with offered := true } } } ∧
      f.kind = 11 ∧ f.payload = s.offerBytes h.groups)) ∧
  (∀ (c k : Nat) (x : Slot) (s : State), s.awake = true → s.cmd? c = some (k, x) → x.wait = .handover →
    (x.accepted + 1000000 * min 2000 (max 10 (s.fld F.PEER_CTRL_HO_LIMIT)) < s.now →
      exec (.handoverWaitExpiry c) s = .next { s.stopWith c St.handover with pending := s.pending }) ∧
    (s.now ≤ x.accepted + 1000000 * min 2000 (max 10 (s.fld F.PEER_CTRL_HO_LIMIT)) →
      exec (.handoverWaitExpiry c) s = .next s)) ∧
  (∀ (m : Nat) (f : List (Nat × Nat × CopyFault)) (x : MediaErrors) (s : State), s.awake = true → s.peer.takeover = some m →
    (s.peer.takes ≠ [] → s.peer.takeStep ≠ .closing → exec (.takeoverDone f x) s = .next s) ∧
    (s.peer.takes = [] → s.peer.takeStep = .taking ∨ s.peer.takeStep = .closing →
      ∃ t, exec (.takeoverDone f x) s = .next t ∧
        (t.peer.takeStep = .idle ∧ t.peer.takeover = none ∧ t.is F.PEER_STATUS_TAKEOVER_DONE = true ∨
          t.peer.takeStep = .closing ∧ t.peer.takeover = some m) ∧
        (s.peer.takeStep = .taking → ∀ u : State, u = s.copyFaults f →
          (u.mirrorSource (bestSource (u.memberSources s.peer.journalId (1 - s.side))) = true → t.str.replaySource = (3, 0)) ∧
          ∀ c, bestSource (u.memberSources s.peer.journalId (1 - s.side)) = some c → u.mirrorSource (some c) = false →
            t.str.replaySource = (4, c.bay))) ∧
    (s.peer.takes = [] → s.peer.takeStep = .taking → s.peer.mirrorHeld = true → s.attic.peerIntents = [] →
      s.attic.peerLost = [] → bestSource (s.memberSources s.peer.journalId (1 - s.side)) = none →
      ∃ t, exec (.takeoverDone [] x) s = .next t ∧ t.peer.takeover = none ∧ t.peer.takeStep = .idle ∧
        t.peer.taken = s.peer.taken ||| m ∧ t.is F.PEER_STATUS_TAKEOVER_DONE = true ∧
        (∀ g < 8, m.testBit g = true → t.clock g = Tab.getD g 0 s.attic.peerClocks + 2 ^ 20 ∧
          (s.grpOn g = true → (t.patrol g).kind = .unpaced ∧ (t.patrol g).point = 0)) ∧
        ∀ g < 8, m.testBit g = false → t.clock g = s.clock g))

/-! ### Power modes and islands (18_power_modes_and_islands.md) -/

/-- MODE_REQUEST waits, is held as the one pending request, is dropped or refused (R674, R680); MODE_COMMIT enters the mode once
the Wardens wait, and Doze or Dormant only drained (R674, R676); MODE_ENTRY_DONE puts it in force with its islands (R673, R678,
R679); DRAIN_TIMEOUT gives a request up (R677); an enabled source starts the exit (R681) and EXIT_DONE is back in Active (R684). -/
def Obligations.PowerModes : Prop :=
  (∀ (p : Path) (n : Nat) (s : State), s.up = true → s.modeLets p A.PWR_MODE = true →
    (s.pwr.phase = .steady → s.asleep = true → ∃ t, exec (.modeRequest p n) s = .next t ∧ t = { s with regs := t.regs } ∧
      t.is F.PWR_STATUS_REFUSED = true) ∧
    (s.pwr.phase = .steady → s.asleep = false → modeOf n ≠ s.pwr.cur → (modeOf n).low = false ∨ s.mgt.test = none →
      exec (.modeRequest p n) s = .next { s with pwr := { s.pwr with
        phase := .waiting, target := modeOf n, since := s.now, drainCkpt := 0 } }) ∧
    (s.pwr.phase ≠ .steady → modeOf n ≠ s.pwr.target →
      exec (.modeRequest p n) s = .next { s with pwr := { s.pwr with pending := some (modeOf n) } }) ∧
    (s.pwr.phase ≠ .steady → modeOf n = s.pwr.target → ∃ t, exec (.modeRequest p n) s = .next t ∧
      t = { s with pwr := { s.pwr with pending := none }, regs := t.regs } ∧ t.is F.PWR_STATUS_PENDING_DROPPED = true)) ∧
  (∀ s : State, s.up = true → s.pwr.phase = .waiting → s.activation = none →
    (s.irqPending = true ∨ (s.pwr.target.low = false ∧ s.wardensWait = false) ∨
      (s.pwr.target.low = true ∧ s.drained = false) → exec .modeCommit s = .next s) ∧
    (s.irqPending = false → s.wardensWait = true → s.pwr.target.low = false →
      exec .modeCommit s = .next { s with pwr := { s.pwr with phase := .entering, since := s.now } }) ∧
    (s.irqPending = false → s.wardensWait = true → s.pwr.target.low = true → s.drained = true → s.pwr.drainCkpt = 2 →
      ∃ t, exec .modeCommit s = .next t ∧
        t = { s with pwr := { s.pwr with phase := .entering, since := s.now }, regs := t.regs } ∧
        t.pair A.PWR_WAKE_RETENTION_FAIL = 0)) ∧
  (∀ s : State, s.up = true → s.pwr.phase = .waiting → s.pwr.pending = none →
    (s.now < s.pwr.since + s.drainLimit → exec .drainTimeout s = .next s) ∧
    (s.pwr.since + s.drainLimit ≤ s.now → ∃ t, exec .drainTimeout s = .next t ∧ t = { s with regs := t.regs, pwr := { s.pwr with
        phase := .steady, target := s.pwr.cur, since := s.now, drainCkpt := 0 } } ∧
      t.is F.PWR_STATUS_DRAIN_TIMEOUT = true ∧
      t.pair A.PWR_DRAIN_TIMEOUTS = (s.pair A.PWR_DRAIN_TIMEOUTS + 1) % 2 ^ 64)) ∧
  (∀ s : State, s.up = true → s.pwr.phase = .entering → s.pwr.pending = none →
    (s.pwr.target.low = true → s.fld F.PWR_WAKE_EN_EN = 0 ∧ s.peer.state = .solo) →
    ∃ t, exec .modeEntryDone s = .next t ∧ t.pwr.cur = s.pwr.target ∧ t.pwr.phase = .steady ∧ t.pwr.since = s.now ∧
      (∀ i < 128, (s.islandRuns s.pwr.target i = false → (t.island i).gated = true ∧ (t.island i).freq = 0) ∧
        (s.islandRuns s.pwr.target i = true → (t.island i).gated = false ∧
          (t.island i).freq = s.islandTarget s.pwr.target i)) ∧
      (s.pwr.target = .active → t.is F.PWR_STATUS_MODE_DONE = true) ∧
      (s.pwr.target = .trim → t.is F.PWR_STATUS_MODE_DONE = true ∧
        t.pair A.PWR_TRIM_ENTRIES = (s.pair A.PWR_TRIM_ENTRIES + 1) % 2 ^ 64 ∧
        (t.island 3).freq = s.islandMax 3 * 1024 / 2 ∧ (t.island 8).freq = s.islandMax 8 * 1024) ∧
      (s.pwr.target = .doze → t.pair A.PWR_DOZE_ENTRIES = (s.pair A.PWR_DOZE_ENTRIES + 1) % 2 ^ 64 ∧
        t.peer.linkLost = true) ∧
      (s.pwr.target = .dormant → t.pair A.PWR_DORMANT_ENTRIES = (s.pair A.PWR_DORMANT_ENTRIES + 1) % 2 ^ 64 ∧
        t.peer.linkLost = true)) ∧
  (∀ s : State, s.up = true → s.asleep = true → s.pwr.phase = .steady →
    (s.fld F.PWR_WAKE_EN_EN = 0 → ∀ low, exec (.powerWake low) s = .next { s with pwr := { s.pwr with smbAlert := low } }) ∧
    (s.fld F.PWR_WAKE_EN_EN = 8 → ∃ t, exec (.powerWake true) s = .next t ∧ t = { s with pwr := { s.pwr with
        smbAlert := true, phase := .exiting, target := .active, since := s.now, cause := t.pwr.cause } } ∧
      t.pwr.cause.testBit 3 = true)) ∧
  (∀ (l d : List Nat) (s : State), s.up = true → s.pwr.phase = .exiting →
    (s.now < s.pwr.since + exitTime s.pwr.cur → exec (.exitDone l d) s = .next s) ∧
    (s.pwr.since + exitTime s.pwr.cur ≤ s.now → l = [] → s.attic.resident = [] → s.drv.ports = [] → s.peer.oweAck = false →
      s.pwr.pending = none →
      ∃ t, exec (.exitDone l d) s = .next t ∧ t.pwr.cur = .active ∧ t.pwr.phase = .steady ∧
        t.word A.PWR_WAKE_CAUSE = BitVec.ofNat 32 s.pwr.cause ∧ t.is F.PWR_STATUS_WOKEN = true ∧
        t.is F.PWR_STATUS_MODE_DONE = true ∧ (∀ i < 128, (t.island i).freq = s.islandTarget .active i) ∧
        (s.retained 0x05 = true → t.trn.sa = s.trn.sa) ∧ (s.retained 0x05 = false → t.trn.sa = []) ∧ t.hst.mem = s.hst.mem) ∧
    (s.pwr.since + exitTime s.pwr.cur ≤ s.now → s.pwr.pending = none →
      ∃ t, exec (.exitDone l d) s = .next t ∧ t.pwr.cur = .active ∧ t.pwr.phase = .steady ∧ t.pwr.since = s.now ∧
        t.word A.PWR_WAKE_CAUSE = BitVec.ofNat 32 s.pwr.cause ∧ t.is F.PWR_STATUS_WOKEN = true ∧
        t.is F.PWR_STATUS_MODE_DONE = true)) ∧
  (∀ (p : Path) (s : State), s.busOn = true → s.modeLets p A.PWR_CMD = true → s.peerOn = true →
    ∃ t, exec (.wakePeer p) s = .next t ∧ t = { s with peer := { s.peer with lastSide := t.peer.lastSide, sideSeq := (s.peer.sideSeq + 1) % 256 } } ∧
      sideOk t.peer.lastSide = true ∧ beAt t.peer.lastSide 0 1 = 2)

/-- ISLAND_LOOP_TICK raises an island's voltage by 5 mV at a failed period, or at Vmax slows it by 1/32 and flags it, and lowers
it after 256 periods with margin (R669, R670); AVS_UPDATE sets the rail to the highest island's need and flags the third missing
acknowledgement in a row (R671, R733). -/
def Obligations.IslandLoops : Prop :=
  (∀ (i lo hi : Nat) (b : Bool) (x : Island) (s : State), s.up = true → i < 128 → x = s.island i → x.freq ≠ 0 →
    s.islandVolts i = (lo, hi) → Tab.getD (Tick.island + i) 0 s.served < s.now / 1000 * 1000 →
    (∃ t, exec (.islandLoopTick i true b) s = .next t ∧ (x.volt < hi →
        t = { s with pwr := { s.pwr with islands := t.pwr.islands }, served := t.served } ∧
        t.island i = { x with volt := min hi (x.volt + 5), passes := 0, periods := 0 }) ∧
      (hi ≤ x.volt → t.is F.PWR_STATUS_THROTTLED = true ∧ t.island i = { x with
          freq := x.freq - s.islandTarget s.pwr.cur i / 32, throttled := true, passes := 0, periods := 0 } ∧
        t.pair A.PWR_THROTTLE_EVENTS = (s.pair A.PWR_THROTTLE_EVENTS + if x.throttled then 0 else 1) % 2 ^ 64) ∧
      ∀ k, k ≠ i → t.island k = s.island k) ∧
    (x.throttled = false → ∃ t, exec (.islandLoopTick i false true) s = .next t ∧
      t = { s with pwr := { s.pwr with islands := t.pwr.islands }, served := t.served } ∧
      (x.passes = 255 → t.island i = { x with volt := max lo (x.volt - 5), passes := 0, periods := 0 }) ∧
      (x.passes ≠ 255 → t.island i = { x with passes := x.passes + 1, periods := 0 }))) ∧
  (∀ (a : Bool) (s : State), s.up = true →
    (s.is F.PWR_CTRL_AVS_EN = false → exec (.avsUpdate a) s = .next s) ∧
    (s.is F.PWR_CTRL_AVS_EN = true → Tab.getD Tick.avs 0 s.served < s.now / 10000 * 10000 →
      ∃ t, exec (.avsUpdate a) s = .next t ∧ t.pwr.avsAt = s.now ∧ t.fld F.PWR_RAIL_SETPOINT = s.railPoint ∧
        (a = true → t.pwr.avsMiss = 0) ∧ (a = false → t.pwr.avsMiss = s.pwr.avsMiss + 1) ∧
        (a = false → s.pwr.avsMiss = 2 → t.is F.GLB_STATUS_AVS_ERR = true)))

/-! ### Management (19_management.md) -/

/-- A ledger request that passes the checks is executed word by word and answered, and its reply is kept (R698 to R700); one that
matches a kept reply is answered with it and not executed; one that fails is answered with its status alone. SMBUS_BLOCK_WRITE
discards a block with a bad PEC (R701) and counts one too short to be a request (R699); the reply to a request is what
SMBUS_BLOCK_READ returns until the next one (R702). -/
def Obligations.LedgerAndSmbus : Prop :=
  ((∀ (src : List Byte) (port id count addr : Nat) (s : State), s.managed = true → s.ledgerOn = true →
     (s.keptReplies.find? fun k => decide (k.src = src) && k.port == port && k.id == id) = none → id < 2 ^ 32 → addr < 2 ^ 32 →
     (1 ≤ count → count ≤ 256 → regAddr addr + 4 * count ≤ 0x1000000 →
       ∃ (t u : State) (d l : List Byte), exec (.ledgerRead src port id count addr) s = .next t ∧
         (s.bump A.MGT_LEDGER_REQS).readRun .mgmt (regAddr addr) count = (d, u) ∧
         l = beBytes 1 1 ++ beBytes 1 0x81 ++ beBytes 1 (ofBool ((List.range count).any fun i =>
           !s.modeLets .mgmt (regAddr addr + 4 * i))) ++ beBytes 1 0 ++ beBytes 4 id ++ beBytes 2 count ++ beBytes 2 0 ++
           beBytes 4 addr ++ d ∧
         t = { (u.onMgt fun m => { m with replies := u.keptReplies.drop (u.keptReplies.length - 63) ++
           [⟨src, port, id, l, u.now⟩] }).sendReply src port l with pending := s.pending }) ∧
     (count < 2 ^ 16 → count = 0 ∨ 256 < count →
       ∃ t, exec (.ledgerRead src port id count addr) s = .next t ∧ t = { s.ledgerErr.sendReply src port (beBytes 1 1 ++
         beBytes 1 0x81 ++ beBytes 2 0 ++ beBytes 4 id ++ beBytes 2 count ++ beBytes 2 1 ++ beBytes 4 addr) with
         pending := s.pending }) ∧
     (1 ≤ count → count ≤ 256 → 0x1000000 < regAddr addr + 4 * count →
       ∃ t, exec (.ledgerRead src port id count addr) s = .next t ∧ t = { s.ledgerErr.sendReply src port (beBytes 1 1 ++
         beBytes 1 0x81 ++ beBytes 2 0 ++ beBytes 4 id ++ beBytes 2 count ++ beBytes 2 2 ++ beBytes 4 addr) with
         pending := s.pending })) ∧
   (∀ (c : Instr) (src : List Byte) (port id addr op step : Nat) (words : List Word) (s : State), s.managed = true →
     s.ledgerOn = true →
     (s.keptReplies.find? fun k => decide (k.src = src) && k.port == port && k.id == id) = none → id < 2 ^ 32 →
     1 ≤ words.length → words.length ≤ 256 → addr < 0x1000000 →
     (c, op, step) = (.ledgerWrite src port id addr words, 0x82, 4) ∧ regAddr addr + 4 * words.length ≤ 0x1000000 ∨
       (c, op, step) = (.writeFixed src port id addr words, 0x83, 0) →
     ∃ (t u : State) (l : List Byte), exec c s = .next t ∧
       u = (s.bump A.MGT_LEDGER_REQS).writeRun .mgmt step (regAddr addr) words ∧
       l = beBytes 1 1 ++ beBytes 1 op ++ beBytes 1 (ofBool ((List.range words.length).any fun i =>
         !s.modeLets .mgmt (regAddr addr + step * i))) ++ beBytes 1 0 ++ beBytes 4 id ++ beBytes 2 words.length ++ beBytes 2 0 ++
         beBytes 4 addr ∧
       t = { (u.onMgt fun m => { m with replies := u.keptReplies.drop (u.keptReplies.length - 63) ++
         [⟨src, port, id, l, u.now⟩] }).sendReply src port l with pending := s.pending }) ∧
   (∀ (c : Instr) (src : List Byte) (port id count addr : Nat) (words : List Word) (k : KeptReply) (s : State),
     s.managed = true → s.ledgerOn = true → id < 2 ^ 32 →
     (s.keptReplies.find? fun k => decide (k.src = src) && k.port == port && k.id == id) = some k →
     c ∈ [Instr.ledgerRead src port id count addr, .ledgerWrite src port id addr words, .writeFixed src port id addr words] →
     exec c s = .next { (s.bump A.MGT_LEDGER_REPLAYS).sendReply src port k.bytes with pending := s.pending }) ∧
   (∀ (src l : List Byte) (port : Nat) (s : State), s.busOn = true → (s.sp 32).link = true → ∃ f : EgFrame,
     ((s.sendReply src port l).sp 32).queue = (s.sp 32).queue ++ [f] ∧ f.cls = .express ∧
     (s.sendReply src port l).regs = s.regs)) ∧
  ((∀ (n : Nat) (l : List Byte) (s : State), s.busOn = true → n < 2 → s.smbActive n = true → l.length ≤ 255 →
     exec (.smbusBlockWrite n l false) s = .next (s.bump A.MGT_SMB_PEC_ERR) ∧
     (l.length < 16 → ∃ t u : State, exec (.smbusBlockWrite n l true) s = .next t ∧
       t = { s with mgt := { s.mgt with smb := t.mgt.smb }, regs := t.regs } ∧ t.is F.MGT_STATUS_LEDGER_ERR = true ∧
       t.pair A.MGT_LEDGER_ERRS = (s.pair A.MGT_LEDGER_ERRS + 1) % 2 ^ 64 ∧
       exec (.smbusBlockRead n) t = .next u ∧ u = { t with answer := [] }) ∧
     (∀ id addr words, l = ledgerBytes 2 id words.length addr words → id < 2 ^ 32 → 1 ≤ words.length → words.length ≤ 59 →
       addr < 0x1000000 → regAddr addr + 4 * words.length ≤ 0x1000000 →
       ∃ (t u : State) (r : List Byte), exec (.smbusBlockWrite n l true) s = .next t ∧
         u = (s.bump A.MGT_LEDGER_REQS).writeRun (smbPath n) 4 (regAddr addr) words ∧
         t = { u with mgt := { u.mgt with smb := t.mgt.smb }, pending := s.pending } ∧
         (∀ k, k ≠ n → t.smbReply k = u.smbReply k) ∧
         (t.busOn = true → t.smbActive n = true → exec (.smbusBlockRead n) t = .next { t with answer := r }) ∧
         r = beBytes 1 1 ++ beBytes 1 0x82 ++ beBytes 1 (ofBool ((List.range words.length).any fun i =>
           !s.modeLets (smbPath n) (regAddr addr + 4 * i))) ++ beBytes 1 0 ++ beBytes 4 id ++ beBytes 2 words.length ++
           beBytes 2 0 ++ beBytes 4 addr)) ∧
   (∀ (n : Nat) (s : State), s.busOn = true →
     (n < 2 → s.smbActive n = true → exec (.smbusBlockRead n) s = .next { s with answer := s.smbReply n }) ∧
     (2 ≤ n ∨ s.smbActive n = false → exec (.smbusBlockRead n) s = .next { s with answer := [] })))

/-- ADVANCE moves READ, no further than UNREAD (R712); the read of MGT_TALLY_REC[0] takes the record into the snapshot (R712);
MGT_TALLY_APPEND completes the staged record (R713) and a full ring loses its oldest (R711); EVENT_FRAME_SEND sends up to 16
waiting records in one frame, or drops and counts them while the link is down (R714). START_SHORT and START_EXTENDED start a
self-test unless one runs (R715); ABORT and SELF_TEST_END end it, with its log entry and ST_DONE (R716, R718), the extended test
once no patrol of it is left. -/
def Obligations.TallyAndSelfTests : Prop :=
  ((∀ (p : Path) (n : Nat) (s : State), s.busOn = true → s.modeLets p A.MGT_TALLY_CMD = true →
     exec (.tallyAdvance p n) s = .next { s with mgt := { s.mgt with
       read := (s.mgt.read + min n s.mgt.unread) % 4096, unread := s.mgt.unread - min n s.mgt.unread } }) ∧
   (∀ (p : Path) (s : State), s.busOn = true → s.modeLets p (A.MGT_TALLY_REC 0) = true →
     ∃ t r, exec (.tallyRecRead p) s = .next t ∧ r = Tab.getD (s.fld F.MGT_TALLY_SEL_SLOT) 0 s.mgt.tally ∧
       t = { s with mgt := { s.mgt with snap := r }, answer := beBytes 4 (getBytes r 0 4) }) ∧
   (∀ (p : Path) (s : State), s.busOn = true → s.modeLets p A.MGT_TALLY_APPEND = true → s.is F.MGT_CTRL_EVT_EN = false →
     ∃ t r, exec (.tallyAppend p) s = .next t ∧ t = { s with mgt := t.mgt, regs := t.regs } ∧
       t.mgt = { s.mgt with tally := Tab.set ((s.mgt.read + s.mgt.unread) % 4096) r s.mgt.tally, seq := s.mgt.seq + 1,
                            read := t.mgt.read, unread := t.mgt.unread } ∧
       getBytes r 0 8 = s.now % 2 ^ 64 ∧ getBytes r 8 8 = s.mgt.seq % 2 ^ 64 ∧ getBytes r 16 1 = 0x10 ∧
       getBytes r 17 1 = 0x0A ∧ getBytes r 18 2 = (s.word (A.MGT_TALLY_IN 4)).toNat / 2 ^ 16 ∧
       getBytes r 20 4 = (s.word (A.MGT_TALLY_IN 5)).toNat ||| 2 ^ 31 ∧
       (∀ k, 6 ≤ k → k < 16 → getBytes r (4 * k) 4 = (s.word (A.MGT_TALLY_IN k)).toNat) ∧
       t.pair A.MGT_TALLY_RECORDS = (s.pair A.MGT_TALLY_RECORDS + 1) % 2 ^ 64 ∧
       (s.mgt.unread < 4096 → t.mgt.read = s.mgt.read ∧ t.mgt.unread = s.mgt.unread + 1 ∧
         t.is F.MGT_STATUS_TALLY_LOST = s.is F.MGT_STATUS_TALLY_LOST) ∧
       (4096 ≤ s.mgt.unread → t.mgt.read = (s.mgt.read + 1) % 4096 ∧ t.mgt.unread = s.mgt.unread ∧
         t.is F.MGT_STATUS_TALLY_LOST = true ∧ t.pair A.MGT_TALLY_LOST = (s.pair A.MGT_TALLY_LOST + 1) % 2 ^ 64)) ∧
   (∀ s : State, s.managed = true →
     (s.eventsDue = false → exec .eventFrameSend s = .next s) ∧
     (s.eventsDue = true → s.eventsOn = true → s.mgtLink = false →
       ∃ t, exec .eventFrameSend s = .next t ∧ t = { s with mgt := { s.mgt with waiting := s.mgt.waiting.drop 16 }, regs := t.regs } ∧
         t.is F.MGT_STATUS_EVT_DROP = true ∧
         t.pair A.MGT_EVT_DROPS = (s.pair A.MGT_EVT_DROPS + (s.mgt.waiting.take 16).length) % 2 ^ 64) ∧
     (s.eventsDue = true → s.eventsOn = true → s.mgtLink = true →
       ∃ t f, exec .eventFrameSend s = .next t ∧ t.mgt = { s.mgt with waiting := s.mgt.waiting.drop 16
                                                                      frameSeq := (s.mgt.frameSeq + 1) % 2 ^ 32 } ∧
         t = { s with mgt := t.mgt, mac := t.mac, regs := t.regs, free := t.free } ∧
         (t.sp 32).queue = (s.sp 32).queue ++ [f] ∧ f.cls = .express ∧ (∀ k, k ≠ 32 → t.sp k = s.sp k) ∧
         t.pair A.MGT_EVT_FRAMES = (s.pair A.MGT_EVT_FRAMES + 1) % 2 ^ 64)) ∧
   (∀ l : List (BitVec 512), ∀ s : State, l.length < 256 → ∃ b, s.eventBytes l = b ∧ b.length = 16 + 64 * l.length ∧
     b.take 4 = ascii "KTLY" ∧ beAt b 4 1 = 1 ∧ beAt b 5 1 = l.length ∧ beAt b 8 4 = s.mgt.frameSeq % 2 ^ 32 ∧
     b.drop 16 = l.flatMap (toBytes 64)) ∧
   (∀ s : State, s.managed = true →
     (s.tallyPending && s.irqPending && s.awake) = false → exec .tallyRecordAge s = .next s) ∧
   (∀ s : State, s.awake = true → s.tallyPending = true → s.irqPending = true →
     ∃ t, exec .tallyRecordAge s = .next t ∧ t = { s with wdn := { s.wdn with cores := t.wdn.cores } } ∧
       ∀ n < 3, t.core n = if (s.core n).state = .active then { s.core n with wfi := false } else s.core n)) ∧
  ((∀ (p : Path) (s : State), s.busOn = true → s.modeLets p A.MGT_ST_CTRL = true →
     (s.mgt.test.isSome = true → ∃ t, exec (.startShort p) s = .next t ∧ exec (.startExtended p) s = .next t ∧
       t = { s with regs := t.regs } ∧ t.is F.MGT_STATUS_ST_BUSY = true) ∧
     (s.mgt.test = none →
       exec (.startShort p) s = .next { s with mgt := { s.mgt with test := some ⟨1, pathCode p, 0, s.now, [], 0, 12⟩ } } ∧
       ∃ t, exec (.startExtended p) s = .next t ∧ t = { s with rbd := { s.rbd with patrols := t.rbd.patrols }, mgt := t.mgt } ∧
         t.mgt = { s.mgt with test := some ⟨2, pathCode p, 0, s.now, [], 0,
           (s.testGroups.map fun g => getPart (s.grp g) Grp.stripes).sum⟩ } ∧
         (∀ g ∈ s.testGroups, t.patrol g = { s.patrol g with ext := some 0 }) ∧
         ∀ g, g ∉ s.testGroups → t.patrol g = s.patrol g) ∧
     (s.mgt.test = none → exec (.stAbort p) s = .next s) ∧
     (∀ x, s.mgt.test = some x → ∃ t e, exec (.stAbort p) s = .next t ∧ t = { s with rbd := t.rbd, mgt := t.mgt, regs := t.regs } ∧
       t.mgt = { s.mgt with test := none, log := (e :: s.mgt.log).take 8 } ∧ t.is F.MGT_STATUS_ST_DONE = true ∧
       e = { e with start := x.start, stop := s.now, path := x.path, endpoint := x.endpoint } ∧
       (x.found = [] → e.result = BitVec.ofNat 32 (1 + 2 * x.kind + 16 * 3)) ∧
       (∀ a i l, x.found = (a, i) :: l → e.inst = i ∧
         e.result = BitVec.ofNat 32 (1 + 2 * x.kind + 16 * 3 + 256 * a + 65536 * min (l.length + 1) 65535)) ∧
       ∀ g < 8, t.patrol g = { s.patrol g with ext := none })) ∧
   (∀ (items : List (Nat × Nat)) (s : State), s.managed = true →
     (s.mgt.test = none → exec (.selfTestEnd items) s = .next s) ∧
     (∀ x l, s.mgt.test = some x → x.kind = 1 → l = ((List.range 13).flatMap fun a =>
         (s.areaFails a).map (fun i => (a, i)) ++ items.filter fun y => y.1 == a) →
       ∃ t e, exec (.selfTestEnd items) s = .next t ∧ t.mgt = { s.mgt with test := none, log := (e :: s.mgt.log).take 8 } ∧
         t.is F.MGT_STATUS_ST_DONE = true ∧ e = { e with start := x.start, stop := s.now, path := x.path, endpoint := x.endpoint } ∧
         (l = [] → e.result = BitVec.ofNat 32 (1 + 2 + 16 * 1)) ∧
         (∀ a i m, l = (a, i) :: m → e.inst = i ∧
           e.result = BitVec.ofNat 32 (1 + 2 + 16 * 2 + 256 * a + 65536 * min (m.length + 1) 65535))) ∧
     (∀ x, s.mgt.test = some x → x.kind = 2 →
       ((∃ g < 8, (s.patrol g).ext.isSome = true) → exec (.selfTestEnd items) s = .next s) ∧
       ((∀ g < 8, (s.patrol g).ext = none) → x.found = [] → ∃ t e, exec (.selfTestEnd items) s = .next t ∧
         t = { s with mgt := { s.mgt with test := none, log := (e :: s.mgt.log).take 8 }, regs := t.regs } ∧
         t.is F.MGT_STATUS_ST_DONE = true ∧
         e = ⟨BitVec.ofNat 32 (1 + 2 * 2 + 16 * 1), x.start, s.now, x.path, x.endpoint, 0⟩))))

/-- MGT_FW_CTRL and MGT_FW_DATA act on the staging area, which a FIRMWARE_ACTIVATE that runs keeps to itself (R719, R624);
MGT_DBG_CMD COMMIT accepts a token only if it passes every check of R720, and names the check that failed. -/
def Obligations.FirmwareAndDebug : Prop :=
  (∀ (p : Path) (s : State), s.busOn = true → s.modeLets p A.MGT_FW_CTRL = true →
    (s.activation.isSome = true → ∃ t, exec (.fwOpen p) s = .next t ∧ exec (.verifyStage p) s = .next t ∧
      exec (.fwActivate p) s = .next t ∧ t = { s with regs := t.regs } ∧ t.fld F.MGT_FW_STATUS_CODE = 1 ∧
      t.fld F.MGT_FW_STATUS_READY = 1 ∧ t.is F.MGT_STATUS_FW_DONE = true) ∧
    (s.activation = none →
      (∃ t, exec (.fwOpen p) s = .next t ∧ t = { s with wdn := { s.wdn with staging := [], staged := [] }, regs := t.regs
                                                        mgt := { s.mgt with fwOffset := 0, fwOver := false } } ∧
        t.fld F.MGT_FW_STATUS_CODE = 0 ∧ t.fld F.MGT_FW_STATUS_READY = 1 ∧ t.is F.MGT_STATUS_FW_DONE = true) ∧
      (s.stagedImage = none → ∃ t, exec (.verifyStage p) s = .next t ∧ exec (.fwActivate p) s = .next t ∧
        t = { s with wdn := { s.wdn with staging := [], staged := [] }, regs := t.regs } ∧
        t.fld F.MGT_FW_STATUS_CODE = 2 ∧ t.is F.MGT_STATUS_FW_DONE = true) ∧
      (∀ img, s.stagedImage = some img → ∃ t u v w : State, exec (.verifyStage p) s = .next t ∧
        u = (s.flashImagePut s.otherSlot img).stagingClear ∧ t = { u with regs := t.regs } ∧
        t.fld F.MGT_FW_STATUS_CODE = 0 ∧ t.is F.MGT_STATUS_FW_DONE = true ∧
        exec (.fwActivate p) s = .next v ∧ w = u.activateImage img s.otherSlot ∧
        v = { w with regs := v.regs, pending := s.pending } ∧ v.is F.MGT_STATUS_FW_DONE = true ∧
        (w.wdn.fwSlot = some s.otherSlot → v.fld F.MGT_FW_STATUS_CODE = 0) ∧
        (w.wdn.fwSlot ≠ some s.otherSlot → v.fld F.MGT_FW_STATUS_CODE = 2)))) ∧
  (∀ (p : Path) (v : Word) (s : State), s.busOn = true → s.modeLets p A.MGT_FW_DATA = true →
    (s.mgt.fwOver = true → exec (.fwDataWrite p v) s = .next s) ∧
    (s.mgt.fwOver = false → stagingSize < s.mgt.fwOffset + 4 → ∃ t, exec (.fwDataWrite p v) s = .next t ∧
      t = { s with mgt := { s.mgt with fwOver := true }, regs := t.regs } ∧ t.fld F.MGT_FW_STATUS_CODE = 3) ∧
    (s.mgt.fwOver = false → s.mgt.fwOffset + 4 ≤ stagingSize → ∃ t, exec (.fwDataWrite p v) s = .next t ∧
      t = { s with wdn := { s.wdn with staging := t.wdn.staging, staged := joinRange s.mgt.fwOffset 4 s.wdn.staged }
                   mgt := { s.mgt with fwOffset := s.mgt.fwOffset + 4 } } ∧
      (Mem.wf 0 s.wdn.staging = true → Mem.wf 0 t.wdn.staging = true ∧
        Mem.read 0 t.wdn.staging s.mgt.fwOffset 4 = toBytes 4 v ∧
        ∀ a, a < s.mgt.fwOffset ∨ s.mgt.fwOffset + 4 ≤ a → Mem.byte 0 t.wdn.staging a = Mem.byte 0 s.wdn.staging a))) ∧
  (∀ (p : Path) (v : Word) (s : State), s.busOn = true →
    (s.modeLets p A.MGT_DBG_DATA = true →
      exec (.dbgDataWrite p v) s = .next { s with mgt := { s.mgt with dbg := s.mgt.dbg ++ toBytes 4 v } }) ∧
    (s.modeLets p A.MGT_DBG_CMD = true → exec (.dbgOpen p) s = .next { s with mgt := { s.mgt with dbg := [] } })) ∧
  (∀ (p : Path) (s : State) (l : List Byte) (k : Nat), s.busOn = true → s.modeLets p A.MGT_DBG_CMD = true → s.mgt.dbg = l →
    k = leAt l 20 1 →
    (s.dbgCode l ≠ 0 → ∃ t, exec (.dbgCommit p) s = .next t ∧ t.fld F.MGT_DBG_STATE_CODE = s.dbgCode l ∧
      t.is F.MGT_STATUS_DBG_REFUSED = true ∧ t.fld F.MGT_DBG_STATE_SCOPE = s.fld F.MGT_DBG_STATE_SCOPE ∧ t.cip = s.cip) ∧
    (s.dbgCode l = 0 → leAt l 6 2 < 2 → ∃ t, exec (.dbgCommit p) s = .next t ∧ t.fld F.MGT_DBG_STATE_CODE = 0 ∧
      t.fld F.MGT_DBG_STATE_SCOPE = s.fld F.MGT_DBG_STATE_SCOPE ||| leAt l 6 2 ∧ t.cip = s.cip ∧ t.mgt.seq = s.mgt.seq + 1) ∧
    (s.dbgCode l = 0 ↔ dbgFormat l = true ∧ k < 4 ∧ keySlotOk s.fuses.keys k (l.drop 128) = true ∧
      signatureOk (l.drop 128) (sha384 (l.take 128)) = true ∧ leAt l 12 8 = s.pair A.MGT_DBG_NONCE)) ∧
  (∀ l : List Byte, dbgFormat l = true ↔ l.length = 336 ∧ l.take 4 = ascii "KDBG" ∧ leAt l 4 2 = 1 ∧ leAt l 6 2 < 8 ∧
    leAt l 8 4 = 0x4B2400A1 ∧ zeros l 21 107 = true) ∧
  (∀ (up e : Bool) (n : Nat) (s : State), s.busOn = true →
    ((s.sp 32).link = (up && s.spEn 32) → ∃ t, exec (.mgtLinkChange up n e) s = .next t ∧ t = { s with mac := t.mac } ∧
      t.mac.speed = n % 4 ∧ t.sp 32 = { s.sp 32 with energy := e } ∧ ∀ k, k ≠ 32 → t.sp k = s.sp k) ∧
    ((s.sp 32).link = false → (up && s.spEn 32) = true → ∃ t, exec (.mgtLinkChange up n e) s = .next t ∧
      t = { s with mac := t.mac, regs := t.regs } ∧ t.mac.speed = n % 4 ∧
      t.sp 32 = { s.sp 32 with energy := e, link := true, fec := true, merge := false } ∧
      t.is F.MAC_STATUS_MGT_LINK_CHANGE = true ∧ ∀ k, k ≠ 32 → t.sp k = s.sp k) ∧
    ((s.sp 32).link = true → (up && s.spEn 32) = false → ∃ t, exec (.mgtLinkChange up n e) s = .next t ∧
      (t.sp 32).link = false ∧ (t.sp 32).queue = [] ∧ (t.sp 32).wire = none ∧ t.is F.MAC_STATUS_MGT_LINK_CHANGE = true))

/-! ### Resets, boot, the flash and THERM_N (20_electrical_and_package.md) -/

/-- POWER_ON_RESET resets at once (R735); RESET_N and GLB_RESET dump first, and a dump or POWER_HOLD records the request (R736);
DUMP_SEALED then resets, keeping the fuses, the flash and the Attic (R735). BOOT_START ends the reset (R730): without any
candidate image the loader stays EMPTY (R68), and without a firmware image the recovery loop runs (R738, R739). PG_IN_LOW acts
as a power loss (R731). A GLB_SPI command starts unless one runs, and SPI_DONE ends it: a write or erase that touches a
protected slot changes nothing (R742), a READ fills GLB_SPI_DATA, an erase sets its sector to 0xFF, and PROGRAM clears bits
(PRESUMED of a NOR flash, entry 36). THERM drives THERM_N with 3 degrees of hysteresis (R745). -/
def Obligations.BootAndFlash : Prop :=
  ((∀ s : State, ∃ t, exec .powerOnReset s = .next t ∧ t = { State.reset with
       free := s.free, attic := s.attic, fuses := s.fuses, flash := s.flash, drives := s.drives, pending := s.pending
       drv := { State.reset.drv with ports := t.drv.ports }, regs := t.regs } ∧
     (∀ n < 24, t.port n = { portDefault with presence := (s.port n).presence } ∨ (s.port n).presence = false) ∧
     t.fld F.GLB_RESET_CAUSE_CAUSE = 0 ∧ (s.glb.phase = .running → t.is F.GLB_RESET_CAUSE_DUMPED = false) ∧
     (s.glb.phase = .powerHold → t.is F.GLB_RESET_CAUSE_DUMPED = true) ∧
     ∀ a, a ≠ A.GLB_RESET_CAUSE → t.word a = State.reset.word a) ∧
   (∀ s : State,
     (s.glb.phase = .running → ∃ t, exec .resetPin s = .next t ∧ s.dumpedTo t ∧ t = { s with
       attic := t.attic, drives := t.drives, free := t.free, glb := { s.glb with resetN := false, phase := .resetDump 1 } }) ∧
     (s.glb.phase = .lossDump ∨ s.glb.phase = .powerHold →
       exec .resetPin s = .next { s with glb := { s.glb with resetN := false, wanted := true } }) ∧
     (s.glb.phase = .held ∨ (∃ c, s.glb.phase = .resetDump c) →
       exec .resetPin s = .next { s with glb := { s.glb with resetN := false } })) ∧
   (∀ (p : Path) (n : Nat) (s : State), s.modeLets p A.GLB_RESET = true →
     (n ≠ 0x5A → exec (.glbReset p n) s = .next s) ∧
     (s.glb.phase = .running → ∃ t, exec (.glbReset p 0x5A) s = .next t ∧ s.dumpedTo t ∧ t = { s with
       attic := t.attic, drives := t.drives, free := t.free, glb := { s.glb with phase := .resetDump 2 } }) ∧
     (s.glb.phase = .lossDump → exec (.glbReset p 0x5A) s = .next { s with glb := { s.glb with wanted := true } })) ∧
   (∀ (c : Nat) (s : State), s.glb.phase = .resetDump c → c < 8 → ∃ t, exec .dumpSealed s = .next t ∧ t = { State.reset with
       free := s.free, fuses := s.fuses, flash := s.flash, drives := s.drives, pending := s.pending
       attic := { s.attic with
         dumpSealed := true
         sealed := some ⟨s.attic.journalId, s.attic.journalGen, s.attic.dump.length, s.clockList, dumpCrc s.attic.dump⟩ }
       drv := { State.reset.drv with ports := t.drv.ports }, glb := { State.reset.glb with pgIn := s.glb.pgIn, resetN := s.glb.resetN }
       regs := t.regs } ∧ t.fld F.GLB_RESET_CAUSE_CAUSE = c ∧ t.is F.GLB_RESET_CAUSE_DUMPED = true ∧
     ∀ a, a ≠ A.GLB_RESET_CAUSE → t.word a = State.reset.word a) ∧
   (∀ (ms mode : Nat) (bad : List Nat) (s : State), s.glb.phase ≠ .held → exec (.bootStart ms mode bad) s = .next s) ∧
   (∀ (ms mode : Nat) (s : State), s.glb.phase = .held → s.bootChoice = none → s.attic.cores = [] → s.wdn.cores = [] →
     ms < 4096 → mode < 4 →
     ∃ t, exec (.bootStart ms mode []) s = .next t ∧ t.glb = { s.glb with pgIn := true, resetN := true, phase := .running } ∧
       t.fld F.GLB_BOOT_FW_MS = ms ∧ t.fld F.GLB_BOOT_FLASH_MODE = mode ∧ t.inv = s.inv ∧ t.fuses = s.fuses ∧
       t.flash = s.flash ∧ t.drives = s.drives ∧ t.attic.resident = [] ∧ t.attic.dump = s.attic.dump ∧
       t.hst.withdrawn = s.attic.withdrawn ∧
       (∀ i < 128, (t.island i).freq = if s.islandRuns .active i then s.islandTarget .active i else 0) ∧
       (s.fwChoice = none → t.wdn.recovery = true ∧ t.fld F.GLB_BOOT_FW_SLOT = 3) ∧
       (∀ k img, s.fwChoice = some (k, img) → k < 2 → t.wdn.recovery = false ∧ t.wdn.fwSlot = some k ∧
         t.fld F.GLB_BOOT_FW_SLOT = k ∧ t.wdn.startReason = 0 ∧ t.wdn.fwSerial = leAt img 16 8 ∧
         ∀ n < 3, (t.core n).pc = BitVec.ofNat 64 (0x100000 + leAt img 28 4))) ∧
   (∀ s : State, (s.glb.phase = .held → exec .pgInLow s = .next { s with glb := { s.glb with pgIn := false } }) ∧
     (s.glb.phase = .running → s.asleep = false → s.draining = false → s.bay.powerLoss = false →
       ∃ t, exec .pgInLow s = .next t ∧ t.glb = { s.glb with pgIn := false, pgLoss := true, phase := .lossDump } ∧
         t.bay.powerLoss = true ∧ t.is F.GLB_STATUS_PG_LOST = true ∧ t.is F.BAY_STATUS_POWER_LOSS = true ∧
         t.pair A.BAY_PL_EVENTS = (s.pair A.BAY_PL_EVENTS + 1) % 2 ^ 64 ∧
         s.dumpedTo t ∧
         ∀ n < 24, t.is (F.BAY_EN_MAIN_EN n) = false ∧ t.is (F.BAY_EN_AUX_EN n) = false))) ∧
  ((∀ (p : Path) (n cmd len : Nat) (c : Instr) (s : State), s.busOn = true → s.modeLets p A.GLB_SPI_CTRL = true →
     (c, cmd, len) ∈ [(Instr.spiRead p n, 1, n), (.spiProgram p n, 2, n), (.erase4k p, 3, 0), (.erase64k p, 4, 0)] →
     (s.glb.spi.isSome = true → exec c s = .next s) ∧
     (s.glb.spi = none → exec c s = .next { s with glb := { s.glb with spi := some ⟨cmd, s.fld F.GLB_SPI_ADDR_ADDR, min 64 len,
       ((List.range 16).flatMap fun k => toBytes 4 (s.word (A.GLB_SPI_DATA k))).take (min 64 len)⟩ } })) ∧
   (∀ s : State, s.managed = true → s.glb.spi = none → ∀ b, exec (.spiDone b) s = .next s) ∧
   (∀ (r : SpiRun) (a n : Nat) (b : Bool) (s : State), s.managed = true → s.glb.spi = some r →
     ((r.cmd = 1 ∨ r.cmd = 2) ∧ a = r.addr ∧ n = r.len ∨ r.cmd = 3 ∧ a = r.addr / 4096 * 4096 ∧ n = 4096 ∨
       r.cmd = 4 ∧ a = r.addr / 65536 * 65536 ∧ n = 65536) →
     ∃ t, exec (.spiDone b) s = .next t ∧ t.glb = { s.glb with spi := none } ∧
       t = { s with glb := t.glb, flash := { s.flash with mem := t.flash.mem }, regs := t.regs, free := t.free } ∧
       ((r.cmd ≠ 1 ∧ s.flashGuarded.any fun x => rangesMeet a n x.1 x.2) →
         t.fld F.GLB_SPI_CTRL_ERR = 1 ∧ t.is F.GLB_STATUS_SPI_ERR = true ∧ t.flash = s.flash) ∧
       (¬(r.cmd ≠ 1 ∧ s.flashGuarded.any fun x => rangesMeet a n x.1 x.2) →
         (s.flash.size < a + n → t.fld F.GLB_SPI_CTRL_ERR = 3 ∧ t.is F.GLB_STATUS_SPI_ERR = true ∧ t.flash = s.flash) ∧
         (a + n ≤ s.flash.size →
           (b = true → t.fld F.GLB_SPI_CTRL_ERR = 2 ∧ t.is F.GLB_STATUS_SPI_ERR = true) ∧
           (b = false → t.fld F.GLB_SPI_CTRL_ERR = 0 ∧ t.is F.GLB_STATUS_SPI_DONE = true) ∧
           (r.cmd = 1 → t.flash = s.flash ∧ (b = false → ∀ i < n, i < 64 →
             getBits (t.word (A.GLB_SPI_DATA (i / 4))) (8 * (i % 4)) 8 = (Mem.byte 0xFF s.flash.mem (a + i)).toNat)) ∧
           (r.cmd = 2 → b = false → ∀ i < n, ∀ v, r.data[i]? = some v →
             Mem.byte 0xFF t.flash.mem (a + i) = Mem.byte 0xFF s.flash.mem (a + i) &&& v) ∧
           (r.cmd = 3 ∨ r.cmd = 4 → b = false → ∀ i < n, Mem.byte 0xFF t.flash.mem (a + i) = 0xFF) ∧
           ∀ x, x < a ∨ a + n ≤ x → Mem.byte 0xFF t.flash.mem x = Mem.byte 0xFF s.flash.mem x))) ∧
   (∀ (temp : Int) (l : Nat) (s : State), s.busOn = true → -128 ≤ temp → temp < 128 →
     l = max 90 (min 130 (s.fld F.GLB_THERM_LIMIT)) → ∃ t, exec (.therm temp) s = .next t ∧ t = { s with regs := t.regs } ∧
       t.fld F.GLB_THERM_TEMP = (temp % 256).toNat ∧ t.fld F.GLB_THERM_LIMIT = s.fld F.GLB_THERM_LIMIT ∧
       (l ≤ temp → t.is F.GLB_THERM_THERM = true ∧ (s.is F.GLB_THERM_THERM = false → t.is F.GLB_STATUS_THERM = true)) ∧
       (temp ≤ l - 3 → t.is F.GLB_THERM_THERM = false ∧ t.is F.GLB_STATUS_THERM = s.is F.GLB_STATUS_THERM) ∧
       (l - 3 < temp → temp < l → t.is F.GLB_THERM_THERM = s.is F.GLB_THERM_THERM ∧
         t.is F.GLB_STATUS_THERM = s.is F.GLB_STATUS_THERM)))

/-! ### The whole block -/

/-- A data strip that a read-modify-write replaces leaves P ⊕ Δ and Q ⊕ g^j·Δ (R322), of P and Q as R321 gives them. -/
def Obligations.ReadModifyWriteParity : Prop :=
  ∀ (ds : List (List Byte)) (j : Nat) (old new delta : List Byte), (∀ d ∈ ds, d.length = 4096) → new.length = 4096 →
    ds[j]? = some old → delta = xorBytes old new →
    pOf (ds.set j new) = xorBytes (pOf ds) delta ∧ qOf (ds.set j new) = xorBytes (qOf ds) (scale (pqPow j) delta)

/-- One data strip, or two, of a row of up to 22 data strips come back from P, from Q, or from both (R320 to R322): what
reconstruction computes with zero blocks in place of the lost strips is what was lost. -/
def Obligations.StripRecovery : Prop :=
  ∀ (ds : List (List Byte)) (x y : Nat) (a b : List Byte), (∀ d ∈ ds, d.length = 4096) → ds.length ≤ 22 → ds[x]? = some a →
    solveP (ds.set x zeroBlock) (pOf ds) = a ∧ solveQ (ds.set x zeroBlock) x (qOf ds) = a ∧
    (x < y → ds[y]? = some b → solvePQ ((ds.set x zeroBlock).set y zeroBlock) x y (pOf ds) (qOf ds) = (a, b))

/-- In POWER_HOLD the K24 does nothing but watch the feed (R346): every command but the feed's, a reset's and a drive's presence
leaves the state alone; no step leaves POWER_HOLD but a power-on reset and POWER_HOLD_EXIT, which needs the line deasserted for
100 ms; and no step changes the Attic, the fuses, the boot flash or a drive. -/
def Obligations.PowerHoldWatchesTheFeed : Prop :=
  (∀ (c : Instr) (s : State), s.glb.phase = .powerHold → match c with
    | .powerHoldExit .. | .powerLossAssert .. | .powerLossDeassert .. | .powerOnReset .. | .resetPin .. | .pgInLow ..
    | .insertionRecognised .. | .removalRecognised .. => True
    | _ => exec c s = .next s) ∧
  (∀ s t : State, s.glb.phase = .powerHold → step s = .next t →
    t.attic = s.attic ∧ t.fuses = s.fuses ∧ t.flash = s.flash ∧ t.drives = s.drives ∧
    (t.glb.phase = .powerHold ∨ t.glb.phase = .held ∧ (s.pending.head? = some .powerOnReset ∨
      s.pending.head? = some .powerHoldExit ∧ s.bay.powerLoss = false ∧ s.bay.lineAt + 100000000 ≤ s.now)))

/-- The K24 holds itself in reset until BOOT_START (R730): every other command but the resets, PG_IN and a drive's presence
leaves the state alone, and no command but BOOT_START leaves the phase. -/
def Obligations.HeldInReset : Prop :=
  (∀ (c : Instr) (s : State), s.glb.phase = .held → match c with
    | .powerOnReset .. | .resetPin .. | .bootStart .. | .pgInLow .. | .insertionRecognised .. | .removalRecognised .. => True
    | _ => exec c s = .next s) ∧
  (∀ s t : State, s.glb.phase = .held → step s = .next t → (∀ a b c, s.pending.head? ≠ some (.bootStart a b c)) →
    t.glb.phase = .held)

/-- In Doze and Dormant the data path stands still (R672, Table 18-2): a command of it leaves the state alone. -/
def Obligations.DataPathSleeps : Prop :=
  ∀ (c : Instr) (s : State), s.asleep = true → match c with
    | .loadIdleTimeout .. | .residentCheck .. | .cellIngress .. | .writeAckReceived .. | .writeAckTimeout ..
    | .egressCellArrival .. | .reseqTimeout .. | .cellarScrub .. | .ce24hClear .. | .pcFailure .. | .pinWaitEnd ..
    | .sliceSwitch .. | .pantryScrub .. | .sendPacket .. | .retryTimerExpiry .. | .messageAgeLimit .. | .receiveReap ..
    | .ackDelayExpiry .. | .probeTimeout .. | .downPathProbe .. | .saSyncRetry .. | .drainingExpiry .. | .cwndGrowth ..
    | .saHeldMessageStart .. | .accessEnd .. | .retiredKeyExpiry .. | .commitPlaceWrite .. | .capsuleAccept ..
    | .orderedRelease .. | .readCommand .. | .writeCommand .. | .flushCommand .. | .verifyCommand .. | .zeroCommand ..
    | .completionPoint .. | .commandTimeout .. | .queueCreate .. | .queueDelete .. | .queueReset .. | .adminAbort ..
    | .selfTestStart .. | .selfTestAbort .. | .selfTestResult .. | .identify .. | .logRead .. | .featureGet ..
    | .featureSet .. | .firmwareSegment .. | .firmwareActivate .. | .extentCommit .. | .deactivateDone .. | .initDone ..
    | .stripeWriteAdmit .. | .bufferComplete .. | .periodicCheckpoint .. | .checkpointDone .. | .replay .. | .replayDone ..
    | .memberStateChange .. | .rebuildStripe .. | .rebuildRecord .. | .patrolStripe .. | .patrolLate .. | .reshapeStep ..
    | .pendingReadReady .. | .latencyDecay .. | .hedgeStart .. | .fillDone .. | .hotnessDecay .. | .pinHoldExpiry ..
    | .groupSend .. | .stompResend .. | .installDone .. | .pipeCheckFail .. | .counterMarkLanded .. | .jobEnd ..
    | .preemptVerify .. | .pauseXoff .. | .pauseXon .. | .watchdogBreak .. | .holdOffEnd .. | .histogramSample ..
    | .perstRelease .. | .driveLinkUp .. | .trainingTimeout .. | .driveLinkDown .. | .driveLost .. | .retrainTimeout ..
    | .bayPowerGone .. | .msixScan .. | .resvDone .. | .nvmeMiPoll .. | .stocktakeTest .. | .arbitrationDecide ..
    | .mirrorWaitExpiry .. | .mirrorFail .. | .handoverQuiesced .. | .handoverWaitExpiry .. | .takeoverDone ..
    | .suspectProbeSend .. | .pauseTimerExpiry .. | .groupCopyPinRelease .. =>
      exec c s = .next s
    | _ => True

/-- The lists that hold the Cellar, the boot flash and the firmware staging area stay in their one canonical form: a bank group's
commit, a SPI command's end and an append to the staging area keep it, and the reset state has it. -/
def Obligations.CanonicalMemories : Prop :=
  (∀ (g : Nat) (s t : State), Mem.wf 0 s.hst.mem = true → exec (.writeCellCommit g) s = .next t → Mem.wf 0 t.hst.mem = true) ∧
  (∀ (b : Bool) (s t : State), Mem.wf 0xFF s.flash.mem = true → exec (.spiDone b) s = .next t → Mem.wf 0xFF t.flash.mem = true) ∧
  (∀ (p : Path) (v : Word) (s t : State), Mem.wf 0 s.wdn.staging = true → exec (.fwDataWrite p v) s = .next t →
    Mem.wf 0 t.wdn.staging = true) ∧
  Mem.wf 0 State.reset.hst.mem = true ∧ Mem.wf 0xFF State.reset.flash.mem = true ∧ Mem.wf 0 State.reset.wdn.staging = true

/-- The state right after a reset is held in reset (R730), in Active, with the Inventory EMPTY, empty queues, no SA, key, volume,
group, intent or message, and every register at its stated reset value; the power-on reset of it is itself. The pins, fuses and
flash are the model's choice (entries 8 and 9). -/
def Obligations.ResetState : Prop :=
  State.reset.glb.phase = .held ∧ State.reset.pwr.cur = .active ∧ State.reset.inv.lock = false ∧ State.reset.pending = [] ∧
  State.reset.trn.sa = [] ∧ State.reset.win.keys = [] ∧ State.reset.vol.vols = [] ∧ State.reset.vol.grps = [] ∧
  State.reset.attic.intents = [] ∧ State.reset.trn.tx = [] ∧ State.reset.trn.rx = [] ∧ State.reset.cip.sa = [] ∧
  State.reset.now = 0 ∧ (∀ a, State.reset.word a = regReset a) ∧ State.reset.fld F.GLB_THERM_LIMIT = 118 ∧
  State.reset.fld F.GLB_STATUS_THERM = 0 ∧ exec .powerOnReset State.reset = .next State.reset ∧
  (∀ n < 24, State.reset.port n = portDefault) ∧ ∀ n < 3, (State.reset.core n).state = .active
end

