-- ==== Sys2Proof/Laws/Bits.lean ====
section
/-!
SUPPORT. Laws of bit fields: a field reads as it was put, and putting one field leaves every other field.
-/

namespace Sys2Proof.Machine

variable {m : Nat}

theorem getBits_testBit (x : BitVec m) (lo n i : Nat) :
    (getBits x lo n).testBit i = (decide (i < n) && x.getLsbD (lo + i)) := by
  unfold getBits
  rw [Nat.testBit_mod_two_pow]
  simp [BitVec.getLsbD, Nat.testBit_shiftRight]

theorem putBits_getLsbD (x : BitVec m) (lo n v i : Nat) :
    (putBits x lo n v).getLsbD i =
      if lo ≤ i ∧ i < lo + n then decide (i < m) && v.testBit (i - lo) else x.getLsbD i := by
  unfold putBits fieldMask
  simp only [BitVec.getLsbD_or, BitVec.getLsbD_and, BitVec.getLsbD_not, BitVec.getLsbD_shiftLeft, BitVec.getLsbD_ofNat,
    Nat.testBit_two_pow_sub_one, Nat.testBit_mod_two_pow]
  by_cases hm : i < m
  · by_cases h1 : lo ≤ i
    · by_cases h2 : i < lo + n
      · have h3 : i - lo < n := by omega
        have h4 : ¬ i < lo := by omega
        have h5 : i - lo < m := by omega
        simp [hm, h1, h2, h3, h4, h5]
      · have h3 : ¬ i - lo < n := by omega
        simp [hm, h1, h2, h3]
    · have h4 : i < lo := by omega
      simp [hm, h1, h4]
  · have : x.getLsbD i = false := BitVec.getLsbD_of_ge _ _ (by omega)
    simp [hm, this]

/-- A field reads as it was put. -/
theorem getBits_putBits_self {lo n : Nat} (h : lo + n ≤ m) (x : BitVec m) (v : Nat) :
    getBits (putBits x lo n v) lo n = v % 2 ^ n := by
  apply Nat.eq_of_testBit_eq
  intro i
  rw [getBits_testBit, putBits_getLsbD, Nat.testBit_mod_two_pow]
  by_cases hi : i < n
  · have : lo + i < m := by omega
    simp [hi, this]
  · simp [hi]

/-- Putting one field leaves a field of other bits. -/
theorem getBits_putBits_disjoint {lo n lo' n' : Nat} (h : lo' + n' ≤ lo ∨ lo + n ≤ lo') (x : BitVec m) (v : Nat) :
    getBits (putBits x lo n v) lo' n' = getBits x lo' n' := by
  apply Nat.eq_of_testBit_eq
  intro i
  rw [getBits_testBit, getBits_testBit, putBits_getLsbD]
  by_cases hi : i < n'
  · rw [if_neg (by omega)]
  · simp [hi]

/-- Putting what a field holds changes nothing. -/
theorem putBits_getBits (x : BitVec m) (lo n : Nat) : putBits x lo n (getBits x lo n) = x := by
  apply BitVec.eq_of_getLsbD_eq
  intro i hi
  rw [putBits_getLsbD]
  split
  · next h =>
    have h1 : i - lo < n := by omega
    have h2 : lo + (i - lo) = i := by omega
    simp [getBits_testBit, hi, h1, h2]
  · rfl

theorem getBits_lt (x : BitVec m) (lo n : Nat) : getBits x lo n < 2 ^ n := Nat.mod_lt _ (by positivity)

/-- A part reads as it was put. -/
theorem getPart_putPart_self {p : Part} (h : 8 * p.off + 8 * p.len ≤ m) (x : BitVec m) (v : Nat) :
    getPart (putPart x p v) p = v % 2 ^ (8 * p.len) := getBits_putBits_self h x v

/-- Putting one part leaves a part of other bytes. -/
theorem getPart_putPart_disjoint {p q : Part} (h : q.off + q.len ≤ p.off ∨ p.off + p.len ≤ q.off) (x : BitVec m) (v : Nat) :
    getPart (putPart x p v) q = getPart x q := getBits_putBits_disjoint (by omega) x v

end Sys2Proof.Machine
end

