-- ==== Sys2Proof/Laws/State.lean ====
section
/-!
SUPPORT. One lemma per field of the state and per named change of it: what the change leaves in that field.
-/

namespace Sys2Proof.Machine

variable (s : State)

/-! ### A change of the inv block -/

@[simp] theorem State.onInv_regs (g : Inv → Inv) : (s.onInv g).regs = s.regs := rfl
@[simp] theorem State.onInv_snaps (g : Inv → Inv) : (s.onInv g).snaps = s.snaps := rfl
@[simp] theorem State.onInv_heldLow (g : Inv → Inv) : (s.onInv g).heldLow = s.heldLow := rfl
@[simp] theorem State.onInv_answer (g : Inv → Inv) : (s.onInv g).answer = s.answer := rfl
@[simp] theorem State.onInv_now (g : Inv → Inv) : (s.onInv g).now = s.now := rfl
@[simp] theorem State.onInv_free (g : Inv → Inv) : (s.onInv g).free = s.free := rfl
@[simp] theorem State.onInv_served (g : Inv → Inv) : (s.onInv g).served = s.served := rfl
@[simp] theorem State.onInv_inv (g : Inv → Inv) : (s.onInv g).inv = g s.inv := rfl
@[simp] theorem State.onInv_hst (g : Inv → Inv) : (s.onInv g).hst = s.hst := rfl
@[simp] theorem State.onInv_trn (g : Inv → Inv) : (s.onInv g).trn = s.trn := rfl
@[simp] theorem State.onInv_win (g : Inv → Inv) : (s.onInv g).win = s.win := rfl
@[simp] theorem State.onInv_cq (g : Inv → Inv) : (s.onInv g).cq = s.cq := rfl
@[simp] theorem State.onInv_vol (g : Inv → Inv) : (s.onInv g).vol = s.vol := rfl
@[simp] theorem State.onInv_str (g : Inv → Inv) : (s.onInv g).str = s.str := rfl
@[simp] theorem State.onInv_attic (g : Inv → Inv) : (s.onInv g).attic = s.attic := rfl
@[simp] theorem State.onInv_rbd (g : Inv → Inv) : (s.onInv g).rbd = s.rbd := rfl
@[simp] theorem State.onInv_rsv (g : Inv → Inv) : (s.onInv g).rsv = s.rsv := rfl
@[simp] theorem State.onInv_cip (g : Inv → Inv) : (s.onInv g).cip = s.cip := rfl
@[simp] theorem State.onInv_mac (g : Inv → Inv) : (s.onInv g).mac = s.mac := rfl
@[simp] theorem State.onInv_tc (g : Inv → Inv) : (s.onInv g).tc = s.tc := rfl
@[simp] theorem State.onInv_drv (g : Inv → Inv) : (s.onInv g).drv = s.drv := rfl
@[simp] theorem State.onInv_drives (g : Inv → Inv) : (s.onInv g).drives = s.drives := rfl
@[simp] theorem State.onInv_bay (g : Inv → Inv) : (s.onInv g).bay = s.bay := rfl
@[simp] theorem State.onInv_wdn (g : Inv → Inv) : (s.onInv g).wdn = s.wdn := rfl
@[simp] theorem State.onInv_peer (g : Inv → Inv) : (s.onInv g).peer = s.peer := rfl
@[simp] theorem State.onInv_pwr (g : Inv → Inv) : (s.onInv g).pwr = s.pwr := rfl
@[simp] theorem State.onInv_mgt (g : Inv → Inv) : (s.onInv g).mgt = s.mgt := rfl
@[simp] theorem State.onInv_glb (g : Inv → Inv) : (s.onInv g).glb = s.glb := rfl
@[simp] theorem State.onInv_fuses (g : Inv → Inv) : (s.onInv g).fuses = s.fuses := rfl
@[simp] theorem State.onInv_flash (g : Inv → Inv) : (s.onInv g).flash = s.flash := rfl
@[simp] theorem State.onInv_pending (g : Inv → Inv) : (s.onInv g).pending = s.pending := rfl

/-! ### A change of the hst block -/

@[simp] theorem State.onHst_regs (g : Hst → Hst) : (s.onHst g).regs = s.regs := rfl
@[simp] theorem State.onHst_snaps (g : Hst → Hst) : (s.onHst g).snaps = s.snaps := rfl
@[simp] theorem State.onHst_heldLow (g : Hst → Hst) : (s.onHst g).heldLow = s.heldLow := rfl
@[simp] theorem State.onHst_answer (g : Hst → Hst) : (s.onHst g).answer = s.answer := rfl
@[simp] theorem State.onHst_now (g : Hst → Hst) : (s.onHst g).now = s.now := rfl
@[simp] theorem State.onHst_free (g : Hst → Hst) : (s.onHst g).free = s.free := rfl
@[simp] theorem State.onHst_served (g : Hst → Hst) : (s.onHst g).served = s.served := rfl
@[simp] theorem State.onHst_inv (g : Hst → Hst) : (s.onHst g).inv = s.inv := rfl
@[simp] theorem State.onHst_hst (g : Hst → Hst) : (s.onHst g).hst = g s.hst := rfl
@[simp] theorem State.onHst_trn (g : Hst → Hst) : (s.onHst g).trn = s.trn := rfl
@[simp] theorem State.onHst_win (g : Hst → Hst) : (s.onHst g).win = s.win := rfl
@[simp] theorem State.onHst_cq (g : Hst → Hst) : (s.onHst g).cq = s.cq := rfl
@[simp] theorem State.onHst_vol (g : Hst → Hst) : (s.onHst g).vol = s.vol := rfl
@[simp] theorem State.onHst_str (g : Hst → Hst) : (s.onHst g).str = s.str := rfl
@[simp] theorem State.onHst_attic (g : Hst → Hst) : (s.onHst g).attic = s.attic := rfl
@[simp] theorem State.onHst_rbd (g : Hst → Hst) : (s.onHst g).rbd = s.rbd := rfl
@[simp] theorem State.onHst_rsv (g : Hst → Hst) : (s.onHst g).rsv = s.rsv := rfl
@[simp] theorem State.onHst_cip (g : Hst → Hst) : (s.onHst g).cip = s.cip := rfl
@[simp] theorem State.onHst_mac (g : Hst → Hst) : (s.onHst g).mac = s.mac := rfl
@[simp] theorem State.onHst_tc (g : Hst → Hst) : (s.onHst g).tc = s.tc := rfl
@[simp] theorem State.onHst_drv (g : Hst → Hst) : (s.onHst g).drv = s.drv := rfl
@[simp] theorem State.onHst_drives (g : Hst → Hst) : (s.onHst g).drives = s.drives := rfl
@[simp] theorem State.onHst_bay (g : Hst → Hst) : (s.onHst g).bay = s.bay := rfl
@[simp] theorem State.onHst_wdn (g : Hst → Hst) : (s.onHst g).wdn = s.wdn := rfl
@[simp] theorem State.onHst_peer (g : Hst → Hst) : (s.onHst g).peer = s.peer := rfl
@[simp] theorem State.onHst_pwr (g : Hst → Hst) : (s.onHst g).pwr = s.pwr := rfl
@[simp] theorem State.onHst_mgt (g : Hst → Hst) : (s.onHst g).mgt = s.mgt := rfl
@[simp] theorem State.onHst_glb (g : Hst → Hst) : (s.onHst g).glb = s.glb := rfl
@[simp] theorem State.onHst_fuses (g : Hst → Hst) : (s.onHst g).fuses = s.fuses := rfl
@[simp] theorem State.onHst_flash (g : Hst → Hst) : (s.onHst g).flash = s.flash := rfl
@[simp] theorem State.onHst_pending (g : Hst → Hst) : (s.onHst g).pending = s.pending := rfl

/-! ### A change of the trn block -/

@[simp] theorem State.onTrn_regs (g : Trn → Trn) : (s.onTrn g).regs = s.regs := rfl
@[simp] theorem State.onTrn_snaps (g : Trn → Trn) : (s.onTrn g).snaps = s.snaps := rfl
@[simp] theorem State.onTrn_heldLow (g : Trn → Trn) : (s.onTrn g).heldLow = s.heldLow := rfl
@[simp] theorem State.onTrn_answer (g : Trn → Trn) : (s.onTrn g).answer = s.answer := rfl
@[simp] theorem State.onTrn_now (g : Trn → Trn) : (s.onTrn g).now = s.now := rfl
@[simp] theorem State.onTrn_free (g : Trn → Trn) : (s.onTrn g).free = s.free := rfl
@[simp] theorem State.onTrn_served (g : Trn → Trn) : (s.onTrn g).served = s.served := rfl
@[simp] theorem State.onTrn_inv (g : Trn → Trn) : (s.onTrn g).inv = s.inv := rfl
@[simp] theorem State.onTrn_hst (g : Trn → Trn) : (s.onTrn g).hst = s.hst := rfl
@[simp] theorem State.onTrn_trn (g : Trn → Trn) : (s.onTrn g).trn = g s.trn := rfl
@[simp] theorem State.onTrn_win (g : Trn → Trn) : (s.onTrn g).win = s.win := rfl
@[simp] theorem State.onTrn_cq (g : Trn → Trn) : (s.onTrn g).cq = s.cq := rfl
@[simp] theorem State.onTrn_vol (g : Trn → Trn) : (s.onTrn g).vol = s.vol := rfl
@[simp] theorem State.onTrn_str (g : Trn → Trn) : (s.onTrn g).str = s.str := rfl
@[simp] theorem State.onTrn_attic (g : Trn → Trn) : (s.onTrn g).attic = s.attic := rfl
@[simp] theorem State.onTrn_rbd (g : Trn → Trn) : (s.onTrn g).rbd = s.rbd := rfl
@[simp] theorem State.onTrn_rsv (g : Trn → Trn) : (s.onTrn g).rsv = s.rsv := rfl
@[simp] theorem State.onTrn_cip (g : Trn → Trn) : (s.onTrn g).cip = s.cip := rfl
@[simp] theorem State.onTrn_mac (g : Trn → Trn) : (s.onTrn g).mac = s.mac := rfl
@[simp] theorem State.onTrn_tc (g : Trn → Trn) : (s.onTrn g).tc = s.tc := rfl
@[simp] theorem State.onTrn_drv (g : Trn → Trn) : (s.onTrn g).drv = s.drv := rfl
@[simp] theorem State.onTrn_drives (g : Trn → Trn) : (s.onTrn g).drives = s.drives := rfl
@[simp] theorem State.onTrn_bay (g : Trn → Trn) : (s.onTrn g).bay = s.bay := rfl
@[simp] theorem State.onTrn_wdn (g : Trn → Trn) : (s.onTrn g).wdn = s.wdn := rfl
@[simp] theorem State.onTrn_peer (g : Trn → Trn) : (s.onTrn g).peer = s.peer := rfl
@[simp] theorem State.onTrn_pwr (g : Trn → Trn) : (s.onTrn g).pwr = s.pwr := rfl
@[simp] theorem State.onTrn_mgt (g : Trn → Trn) : (s.onTrn g).mgt = s.mgt := rfl
@[simp] theorem State.onTrn_glb (g : Trn → Trn) : (s.onTrn g).glb = s.glb := rfl
@[simp] theorem State.onTrn_fuses (g : Trn → Trn) : (s.onTrn g).fuses = s.fuses := rfl
@[simp] theorem State.onTrn_flash (g : Trn → Trn) : (s.onTrn g).flash = s.flash := rfl
@[simp] theorem State.onTrn_pending (g : Trn → Trn) : (s.onTrn g).pending = s.pending := rfl

/-! ### A change of the win block -/

@[simp] theorem State.onWin_regs (g : Win → Win) : (s.onWin g).regs = s.regs := rfl
@[simp] theorem State.onWin_snaps (g : Win → Win) : (s.onWin g).snaps = s.snaps := rfl
@[simp] theorem State.onWin_heldLow (g : Win → Win) : (s.onWin g).heldLow = s.heldLow := rfl
@[simp] theorem State.onWin_answer (g : Win → Win) : (s.onWin g).answer = s.answer := rfl
@[simp] theorem State.onWin_now (g : Win → Win) : (s.onWin g).now = s.now := rfl
@[simp] theorem State.onWin_free (g : Win → Win) : (s.onWin g).free = s.free := rfl
@[simp] theorem State.onWin_served (g : Win → Win) : (s.onWin g).served = s.served := rfl
@[simp] theorem State.onWin_inv (g : Win → Win) : (s.onWin g).inv = s.inv := rfl
@[simp] theorem State.onWin_hst (g : Win → Win) : (s.onWin g).hst = s.hst := rfl
@[simp] theorem State.onWin_trn (g : Win → Win) : (s.onWin g).trn = s.trn := rfl
@[simp] theorem State.onWin_win (g : Win → Win) : (s.onWin g).win = g s.win := rfl
@[simp] theorem State.onWin_cq (g : Win → Win) : (s.onWin g).cq = s.cq := rfl
@[simp] theorem State.onWin_vol (g : Win → Win) : (s.onWin g).vol = s.vol := rfl
@[simp] theorem State.onWin_str (g : Win → Win) : (s.onWin g).str = s.str := rfl
@[simp] theorem State.onWin_attic (g : Win → Win) : (s.onWin g).attic = s.attic := rfl
@[simp] theorem State.onWin_rbd (g : Win → Win) : (s.onWin g).rbd = s.rbd := rfl
@[simp] theorem State.onWin_rsv (g : Win → Win) : (s.onWin g).rsv = s.rsv := rfl
@[simp] theorem State.onWin_cip (g : Win → Win) : (s.onWin g).cip = s.cip := rfl
@[simp] theorem State.onWin_mac (g : Win → Win) : (s.onWin g).mac = s.mac := rfl
@[simp] theorem State.onWin_tc (g : Win → Win) : (s.onWin g).tc = s.tc := rfl
@[simp] theorem State.onWin_drv (g : Win → Win) : (s.onWin g).drv = s.drv := rfl
@[simp] theorem State.onWin_drives (g : Win → Win) : (s.onWin g).drives = s.drives := rfl
@[simp] theorem State.onWin_bay (g : Win → Win) : (s.onWin g).bay = s.bay := rfl
@[simp] theorem State.onWin_wdn (g : Win → Win) : (s.onWin g).wdn = s.wdn := rfl
@[simp] theorem State.onWin_peer (g : Win → Win) : (s.onWin g).peer = s.peer := rfl
@[simp] theorem State.onWin_pwr (g : Win → Win) : (s.onWin g).pwr = s.pwr := rfl
@[simp] theorem State.onWin_mgt (g : Win → Win) : (s.onWin g).mgt = s.mgt := rfl
@[simp] theorem State.onWin_glb (g : Win → Win) : (s.onWin g).glb = s.glb := rfl
@[simp] theorem State.onWin_fuses (g : Win → Win) : (s.onWin g).fuses = s.fuses := rfl
@[simp] theorem State.onWin_flash (g : Win → Win) : (s.onWin g).flash = s.flash := rfl
@[simp] theorem State.onWin_pending (g : Win → Win) : (s.onWin g).pending = s.pending := rfl

/-! ### A change of the cq block -/

@[simp] theorem State.onCq_regs (g : Cq → Cq) : (s.onCq g).regs = s.regs := rfl
@[simp] theorem State.onCq_snaps (g : Cq → Cq) : (s.onCq g).snaps = s.snaps := rfl
@[simp] theorem State.onCq_heldLow (g : Cq → Cq) : (s.onCq g).heldLow = s.heldLow := rfl
@[simp] theorem State.onCq_answer (g : Cq → Cq) : (s.onCq g).answer = s.answer := rfl
@[simp] theorem State.onCq_now (g : Cq → Cq) : (s.onCq g).now = s.now := rfl
@[simp] theorem State.onCq_free (g : Cq → Cq) : (s.onCq g).free = s.free := rfl
@[simp] theorem State.onCq_served (g : Cq → Cq) : (s.onCq g).served = s.served := rfl
@[simp] theorem State.onCq_inv (g : Cq → Cq) : (s.onCq g).inv = s.inv := rfl
@[simp] theorem State.onCq_hst (g : Cq → Cq) : (s.onCq g).hst = s.hst := rfl
@[simp] theorem State.onCq_trn (g : Cq → Cq) : (s.onCq g).trn = s.trn := rfl
@[simp] theorem State.onCq_win (g : Cq → Cq) : (s.onCq g).win = s.win := rfl
@[simp] theorem State.onCq_cq (g : Cq → Cq) : (s.onCq g).cq = g s.cq := rfl
@[simp] theorem State.onCq_vol (g : Cq → Cq) : (s.onCq g).vol = s.vol := rfl
@[simp] theorem State.onCq_str (g : Cq → Cq) : (s.onCq g).str = s.str := rfl
@[simp] theorem State.onCq_attic (g : Cq → Cq) : (s.onCq g).attic = s.attic := rfl
@[simp] theorem State.onCq_rbd (g : Cq → Cq) : (s.onCq g).rbd = s.rbd := rfl
@[simp] theorem State.onCq_rsv (g : Cq → Cq) : (s.onCq g).rsv = s.rsv := rfl
@[simp] theorem State.onCq_cip (g : Cq → Cq) : (s.onCq g).cip = s.cip := rfl
@[simp] theorem State.onCq_mac (g : Cq → Cq) : (s.onCq g).mac = s.mac := rfl
@[simp] theorem State.onCq_tc (g : Cq → Cq) : (s.onCq g).tc = s.tc := rfl
@[simp] theorem State.onCq_drv (g : Cq → Cq) : (s.onCq g).drv = s.drv := rfl
@[simp] theorem State.onCq_drives (g : Cq → Cq) : (s.onCq g).drives = s.drives := rfl
@[simp] theorem State.onCq_bay (g : Cq → Cq) : (s.onCq g).bay = s.bay := rfl
@[simp] theorem State.onCq_wdn (g : Cq → Cq) : (s.onCq g).wdn = s.wdn := rfl
@[simp] theorem State.onCq_peer (g : Cq → Cq) : (s.onCq g).peer = s.peer := rfl
@[simp] theorem State.onCq_pwr (g : Cq → Cq) : (s.onCq g).pwr = s.pwr := rfl
@[simp] theorem State.onCq_mgt (g : Cq → Cq) : (s.onCq g).mgt = s.mgt := rfl
@[simp] theorem State.onCq_glb (g : Cq → Cq) : (s.onCq g).glb = s.glb := rfl
@[simp] theorem State.onCq_fuses (g : Cq → Cq) : (s.onCq g).fuses = s.fuses := rfl
@[simp] theorem State.onCq_flash (g : Cq → Cq) : (s.onCq g).flash = s.flash := rfl
@[simp] theorem State.onCq_pending (g : Cq → Cq) : (s.onCq g).pending = s.pending := rfl

/-! ### A change of the vol block -/

@[simp] theorem State.onVol_regs (g : Vol → Vol) : (s.onVol g).regs = s.regs := rfl
@[simp] theorem State.onVol_snaps (g : Vol → Vol) : (s.onVol g).snaps = s.snaps := rfl
@[simp] theorem State.onVol_heldLow (g : Vol → Vol) : (s.onVol g).heldLow = s.heldLow := rfl
@[simp] theorem State.onVol_answer (g : Vol → Vol) : (s.onVol g).answer = s.answer := rfl
@[simp] theorem State.onVol_now (g : Vol → Vol) : (s.onVol g).now = s.now := rfl
@[simp] theorem State.onVol_free (g : Vol → Vol) : (s.onVol g).free = s.free := rfl
@[simp] theorem State.onVol_served (g : Vol → Vol) : (s.onVol g).served = s.served := rfl
@[simp] theorem State.onVol_inv (g : Vol → Vol) : (s.onVol g).inv = s.inv := rfl
@[simp] theorem State.onVol_hst (g : Vol → Vol) : (s.onVol g).hst = s.hst := rfl
@[simp] theorem State.onVol_trn (g : Vol → Vol) : (s.onVol g).trn = s.trn := rfl
@[simp] theorem State.onVol_win (g : Vol → Vol) : (s.onVol g).win = s.win := rfl
@[simp] theorem State.onVol_cq (g : Vol → Vol) : (s.onVol g).cq = s.cq := rfl
@[simp] theorem State.onVol_vol (g : Vol → Vol) : (s.onVol g).vol = g s.vol := rfl
@[simp] theorem State.onVol_str (g : Vol → Vol) : (s.onVol g).str = s.str := rfl
@[simp] theorem State.onVol_attic (g : Vol → Vol) : (s.onVol g).attic = s.attic := rfl
@[simp] theorem State.onVol_rbd (g : Vol → Vol) : (s.onVol g).rbd = s.rbd := rfl
@[simp] theorem State.onVol_rsv (g : Vol → Vol) : (s.onVol g).rsv = s.rsv := rfl
@[simp] theorem State.onVol_cip (g : Vol → Vol) : (s.onVol g).cip = s.cip := rfl
@[simp] theorem State.onVol_mac (g : Vol → Vol) : (s.onVol g).mac = s.mac := rfl
@[simp] theorem State.onVol_tc (g : Vol → Vol) : (s.onVol g).tc = s.tc := rfl
@[simp] theorem State.onVol_drv (g : Vol → Vol) : (s.onVol g).drv = s.drv := rfl
@[simp] theorem State.onVol_drives (g : Vol → Vol) : (s.onVol g).drives = s.drives := rfl
@[simp] theorem State.onVol_bay (g : Vol → Vol) : (s.onVol g).bay = s.bay := rfl
@[simp] theorem State.onVol_wdn (g : Vol → Vol) : (s.onVol g).wdn = s.wdn := rfl
@[simp] theorem State.onVol_peer (g : Vol → Vol) : (s.onVol g).peer = s.peer := rfl
@[simp] theorem State.onVol_pwr (g : Vol → Vol) : (s.onVol g).pwr = s.pwr := rfl
@[simp] theorem State.onVol_mgt (g : Vol → Vol) : (s.onVol g).mgt = s.mgt := rfl
@[simp] theorem State.onVol_glb (g : Vol → Vol) : (s.onVol g).glb = s.glb := rfl
@[simp] theorem State.onVol_fuses (g : Vol → Vol) : (s.onVol g).fuses = s.fuses := rfl
@[simp] theorem State.onVol_flash (g : Vol → Vol) : (s.onVol g).flash = s.flash := rfl
@[simp] theorem State.onVol_pending (g : Vol → Vol) : (s.onVol g).pending = s.pending := rfl

/-! ### A change of the str block -/

@[simp] theorem State.onStr_regs (g : Str → Str) : (s.onStr g).regs = s.regs := rfl
@[simp] theorem State.onStr_snaps (g : Str → Str) : (s.onStr g).snaps = s.snaps := rfl
@[simp] theorem State.onStr_heldLow (g : Str → Str) : (s.onStr g).heldLow = s.heldLow := rfl
@[simp] theorem State.onStr_answer (g : Str → Str) : (s.onStr g).answer = s.answer := rfl
@[simp] theorem State.onStr_now (g : Str → Str) : (s.onStr g).now = s.now := rfl
@[simp] theorem State.onStr_free (g : Str → Str) : (s.onStr g).free = s.free := rfl
@[simp] theorem State.onStr_served (g : Str → Str) : (s.onStr g).served = s.served := rfl
@[simp] theorem State.onStr_inv (g : Str → Str) : (s.onStr g).inv = s.inv := rfl
@[simp] theorem State.onStr_hst (g : Str → Str) : (s.onStr g).hst = s.hst := rfl
@[simp] theorem State.onStr_trn (g : Str → Str) : (s.onStr g).trn = s.trn := rfl
@[simp] theorem State.onStr_win (g : Str → Str) : (s.onStr g).win = s.win := rfl
@[simp] theorem State.onStr_cq (g : Str → Str) : (s.onStr g).cq = s.cq := rfl
@[simp] theorem State.onStr_vol (g : Str → Str) : (s.onStr g).vol = s.vol := rfl
@[simp] theorem State.onStr_str (g : Str → Str) : (s.onStr g).str = g s.str := rfl
@[simp] theorem State.onStr_attic (g : Str → Str) : (s.onStr g).attic = s.attic := rfl
@[simp] theorem State.onStr_rbd (g : Str → Str) : (s.onStr g).rbd = s.rbd := rfl
@[simp] theorem State.onStr_rsv (g : Str → Str) : (s.onStr g).rsv = s.rsv := rfl
@[simp] theorem State.onStr_cip (g : Str → Str) : (s.onStr g).cip = s.cip := rfl
@[simp] theorem State.onStr_mac (g : Str → Str) : (s.onStr g).mac = s.mac := rfl
@[simp] theorem State.onStr_tc (g : Str → Str) : (s.onStr g).tc = s.tc := rfl
@[simp] theorem State.onStr_drv (g : Str → Str) : (s.onStr g).drv = s.drv := rfl
@[simp] theorem State.onStr_drives (g : Str → Str) : (s.onStr g).drives = s.drives := rfl
@[simp] theorem State.onStr_bay (g : Str → Str) : (s.onStr g).bay = s.bay := rfl
@[simp] theorem State.onStr_wdn (g : Str → Str) : (s.onStr g).wdn = s.wdn := rfl
@[simp] theorem State.onStr_peer (g : Str → Str) : (s.onStr g).peer = s.peer := rfl
@[simp] theorem State.onStr_pwr (g : Str → Str) : (s.onStr g).pwr = s.pwr := rfl
@[simp] theorem State.onStr_mgt (g : Str → Str) : (s.onStr g).mgt = s.mgt := rfl
@[simp] theorem State.onStr_glb (g : Str → Str) : (s.onStr g).glb = s.glb := rfl
@[simp] theorem State.onStr_fuses (g : Str → Str) : (s.onStr g).fuses = s.fuses := rfl
@[simp] theorem State.onStr_flash (g : Str → Str) : (s.onStr g).flash = s.flash := rfl
@[simp] theorem State.onStr_pending (g : Str → Str) : (s.onStr g).pending = s.pending := rfl

/-! ### A change of the attic block -/

@[simp] theorem State.onAttic_regs (g : Attic → Attic) : (s.onAttic g).regs = s.regs := rfl
@[simp] theorem State.onAttic_snaps (g : Attic → Attic) : (s.onAttic g).snaps = s.snaps := rfl
@[simp] theorem State.onAttic_heldLow (g : Attic → Attic) : (s.onAttic g).heldLow = s.heldLow := rfl
@[simp] theorem State.onAttic_answer (g : Attic → Attic) : (s.onAttic g).answer = s.answer := rfl
@[simp] theorem State.onAttic_now (g : Attic → Attic) : (s.onAttic g).now = s.now := rfl
@[simp] theorem State.onAttic_free (g : Attic → Attic) : (s.onAttic g).free = s.free := rfl
@[simp] theorem State.onAttic_served (g : Attic → Attic) : (s.onAttic g).served = s.served := rfl
@[simp] theorem State.onAttic_inv (g : Attic → Attic) : (s.onAttic g).inv = s.inv := rfl
@[simp] theorem State.onAttic_hst (g : Attic → Attic) : (s.onAttic g).hst = s.hst := rfl
@[simp] theorem State.onAttic_trn (g : Attic → Attic) : (s.onAttic g).trn = s.trn := rfl
@[simp] theorem State.onAttic_win (g : Attic → Attic) : (s.onAttic g).win = s.win := rfl
@[simp] theorem State.onAttic_cq (g : Attic → Attic) : (s.onAttic g).cq = s.cq := rfl
@[simp] theorem State.onAttic_vol (g : Attic → Attic) : (s.onAttic g).vol = s.vol := rfl
@[simp] theorem State.onAttic_str (g : Attic → Attic) : (s.onAttic g).str = s.str := rfl
@[simp] theorem State.onAttic_attic (g : Attic → Attic) : (s.onAttic g).attic = g s.attic := rfl
@[simp] theorem State.onAttic_rbd (g : Attic → Attic) : (s.onAttic g).rbd = s.rbd := rfl
@[simp] theorem State.onAttic_rsv (g : Attic → Attic) : (s.onAttic g).rsv = s.rsv := rfl
@[simp] theorem State.onAttic_cip (g : Attic → Attic) : (s.onAttic g).cip = s.cip := rfl
@[simp] theorem State.onAttic_mac (g : Attic → Attic) : (s.onAttic g).mac = s.mac := rfl
@[simp] theorem State.onAttic_tc (g : Attic → Attic) : (s.onAttic g).tc = s.tc := rfl
@[simp] theorem State.onAttic_drv (g : Attic → Attic) : (s.onAttic g).drv = s.drv := rfl
@[simp] theorem State.onAttic_drives (g : Attic → Attic) : (s.onAttic g).drives = s.drives := rfl
@[simp] theorem State.onAttic_bay (g : Attic → Attic) : (s.onAttic g).bay = s.bay := rfl
@[simp] theorem State.onAttic_wdn (g : Attic → Attic) : (s.onAttic g).wdn = s.wdn := rfl
@[simp] theorem State.onAttic_peer (g : Attic → Attic) : (s.onAttic g).peer = s.peer := rfl
@[simp] theorem State.onAttic_pwr (g : Attic → Attic) : (s.onAttic g).pwr = s.pwr := rfl
@[simp] theorem State.onAttic_mgt (g : Attic → Attic) : (s.onAttic g).mgt = s.mgt := rfl
@[simp] theorem State.onAttic_glb (g : Attic → Attic) : (s.onAttic g).glb = s.glb := rfl
@[simp] theorem State.onAttic_fuses (g : Attic → Attic) : (s.onAttic g).fuses = s.fuses := rfl
@[simp] theorem State.onAttic_flash (g : Attic → Attic) : (s.onAttic g).flash = s.flash := rfl
@[simp] theorem State.onAttic_pending (g : Attic → Attic) : (s.onAttic g).pending = s.pending := rfl

/-! ### A change of the rbd block -/

@[simp] theorem State.onRbd_regs (g : Rbd → Rbd) : (s.onRbd g).regs = s.regs := rfl
@[simp] theorem State.onRbd_snaps (g : Rbd → Rbd) : (s.onRbd g).snaps = s.snaps := rfl
@[simp] theorem State.onRbd_heldLow (g : Rbd → Rbd) : (s.onRbd g).heldLow = s.heldLow := rfl
@[simp] theorem State.onRbd_answer (g : Rbd → Rbd) : (s.onRbd g).answer = s.answer := rfl
@[simp] theorem State.onRbd_now (g : Rbd → Rbd) : (s.onRbd g).now = s.now := rfl
@[simp] theorem State.onRbd_free (g : Rbd → Rbd) : (s.onRbd g).free = s.free := rfl
@[simp] theorem State.onRbd_served (g : Rbd → Rbd) : (s.onRbd g).served = s.served := rfl
@[simp] theorem State.onRbd_inv (g : Rbd → Rbd) : (s.onRbd g).inv = s.inv := rfl
@[simp] theorem State.onRbd_hst (g : Rbd → Rbd) : (s.onRbd g).hst = s.hst := rfl
@[simp] theorem State.onRbd_trn (g : Rbd → Rbd) : (s.onRbd g).trn = s.trn := rfl
@[simp] theorem State.onRbd_win (g : Rbd → Rbd) : (s.onRbd g).win = s.win := rfl
@[simp] theorem State.onRbd_cq (g : Rbd → Rbd) : (s.onRbd g).cq = s.cq := rfl
@[simp] theorem State.onRbd_vol (g : Rbd → Rbd) : (s.onRbd g).vol = s.vol := rfl
@[simp] theorem State.onRbd_str (g : Rbd → Rbd) : (s.onRbd g).str = s.str := rfl
@[simp] theorem State.onRbd_attic (g : Rbd → Rbd) : (s.onRbd g).attic = s.attic := rfl
@[simp] theorem State.onRbd_rbd (g : Rbd → Rbd) : (s.onRbd g).rbd = g s.rbd := rfl
@[simp] theorem State.onRbd_rsv (g : Rbd → Rbd) : (s.onRbd g).rsv = s.rsv := rfl
@[simp] theorem State.onRbd_cip (g : Rbd → Rbd) : (s.onRbd g).cip = s.cip := rfl
@[simp] theorem State.onRbd_mac (g : Rbd → Rbd) : (s.onRbd g).mac = s.mac := rfl
@[simp] theorem State.onRbd_tc (g : Rbd → Rbd) : (s.onRbd g).tc = s.tc := rfl
@[simp] theorem State.onRbd_drv (g : Rbd → Rbd) : (s.onRbd g).drv = s.drv := rfl
@[simp] theorem State.onRbd_drives (g : Rbd → Rbd) : (s.onRbd g).drives = s.drives := rfl
@[simp] theorem State.onRbd_bay (g : Rbd → Rbd) : (s.onRbd g).bay = s.bay := rfl
@[simp] theorem State.onRbd_wdn (g : Rbd → Rbd) : (s.onRbd g).wdn = s.wdn := rfl
@[simp] theorem State.onRbd_peer (g : Rbd → Rbd) : (s.onRbd g).peer = s.peer := rfl
@[simp] theorem State.onRbd_pwr (g : Rbd → Rbd) : (s.onRbd g).pwr = s.pwr := rfl
@[simp] theorem State.onRbd_mgt (g : Rbd → Rbd) : (s.onRbd g).mgt = s.mgt := rfl
@[simp] theorem State.onRbd_glb (g : Rbd → Rbd) : (s.onRbd g).glb = s.glb := rfl
@[simp] theorem State.onRbd_fuses (g : Rbd → Rbd) : (s.onRbd g).fuses = s.fuses := rfl
@[simp] theorem State.onRbd_flash (g : Rbd → Rbd) : (s.onRbd g).flash = s.flash := rfl
@[simp] theorem State.onRbd_pending (g : Rbd → Rbd) : (s.onRbd g).pending = s.pending := rfl

/-! ### A change of the rsv block -/

@[simp] theorem State.onRsv_regs (g : Rsv → Rsv) : (s.onRsv g).regs = s.regs := rfl
@[simp] theorem State.onRsv_snaps (g : Rsv → Rsv) : (s.onRsv g).snaps = s.snaps := rfl
@[simp] theorem State.onRsv_heldLow (g : Rsv → Rsv) : (s.onRsv g).heldLow = s.heldLow := rfl
@[simp] theorem State.onRsv_answer (g : Rsv → Rsv) : (s.onRsv g).answer = s.answer := rfl
@[simp] theorem State.onRsv_now (g : Rsv → Rsv) : (s.onRsv g).now = s.now := rfl
@[simp] theorem State.onRsv_free (g : Rsv → Rsv) : (s.onRsv g).free = s.free := rfl
@[simp] theorem State.onRsv_served (g : Rsv → Rsv) : (s.onRsv g).served = s.served := rfl
@[simp] theorem State.onRsv_inv (g : Rsv → Rsv) : (s.onRsv g).inv = s.inv := rfl
@[simp] theorem State.onRsv_hst (g : Rsv → Rsv) : (s.onRsv g).hst = s.hst := rfl
@[simp] theorem State.onRsv_trn (g : Rsv → Rsv) : (s.onRsv g).trn = s.trn := rfl
@[simp] theorem State.onRsv_win (g : Rsv → Rsv) : (s.onRsv g).win = s.win := rfl
@[simp] theorem State.onRsv_cq (g : Rsv → Rsv) : (s.onRsv g).cq = s.cq := rfl
@[simp] theorem State.onRsv_vol (g : Rsv → Rsv) : (s.onRsv g).vol = s.vol := rfl
@[simp] theorem State.onRsv_str (g : Rsv → Rsv) : (s.onRsv g).str = s.str := rfl
@[simp] theorem State.onRsv_attic (g : Rsv → Rsv) : (s.onRsv g).attic = s.attic := rfl
@[simp] theorem State.onRsv_rbd (g : Rsv → Rsv) : (s.onRsv g).rbd = s.rbd := rfl
@[simp] theorem State.onRsv_rsv (g : Rsv → Rsv) : (s.onRsv g).rsv = g s.rsv := rfl
@[simp] theorem State.onRsv_cip (g : Rsv → Rsv) : (s.onRsv g).cip = s.cip := rfl
@[simp] theorem State.onRsv_mac (g : Rsv → Rsv) : (s.onRsv g).mac = s.mac := rfl
@[simp] theorem State.onRsv_tc (g : Rsv → Rsv) : (s.onRsv g).tc = s.tc := rfl
@[simp] theorem State.onRsv_drv (g : Rsv → Rsv) : (s.onRsv g).drv = s.drv := rfl
@[simp] theorem State.onRsv_drives (g : Rsv → Rsv) : (s.onRsv g).drives = s.drives := rfl
@[simp] theorem State.onRsv_bay (g : Rsv → Rsv) : (s.onRsv g).bay = s.bay := rfl
@[simp] theorem State.onRsv_wdn (g : Rsv → Rsv) : (s.onRsv g).wdn = s.wdn := rfl
@[simp] theorem State.onRsv_peer (g : Rsv → Rsv) : (s.onRsv g).peer = s.peer := rfl
@[simp] theorem State.onRsv_pwr (g : Rsv → Rsv) : (s.onRsv g).pwr = s.pwr := rfl
@[simp] theorem State.onRsv_mgt (g : Rsv → Rsv) : (s.onRsv g).mgt = s.mgt := rfl
@[simp] theorem State.onRsv_glb (g : Rsv → Rsv) : (s.onRsv g).glb = s.glb := rfl
@[simp] theorem State.onRsv_fuses (g : Rsv → Rsv) : (s.onRsv g).fuses = s.fuses := rfl
@[simp] theorem State.onRsv_flash (g : Rsv → Rsv) : (s.onRsv g).flash = s.flash := rfl
@[simp] theorem State.onRsv_pending (g : Rsv → Rsv) : (s.onRsv g).pending = s.pending := rfl

/-! ### A change of the cip block -/

@[simp] theorem State.onCip_regs (g : Cip → Cip) : (s.onCip g).regs = s.regs := rfl
@[simp] theorem State.onCip_snaps (g : Cip → Cip) : (s.onCip g).snaps = s.snaps := rfl
@[simp] theorem State.onCip_heldLow (g : Cip → Cip) : (s.onCip g).heldLow = s.heldLow := rfl
@[simp] theorem State.onCip_answer (g : Cip → Cip) : (s.onCip g).answer = s.answer := rfl
@[simp] theorem State.onCip_now (g : Cip → Cip) : (s.onCip g).now = s.now := rfl
@[simp] theorem State.onCip_free (g : Cip → Cip) : (s.onCip g).free = s.free := rfl
@[simp] theorem State.onCip_served (g : Cip → Cip) : (s.onCip g).served = s.served := rfl
@[simp] theorem State.onCip_inv (g : Cip → Cip) : (s.onCip g).inv = s.inv := rfl
@[simp] theorem State.onCip_hst (g : Cip → Cip) : (s.onCip g).hst = s.hst := rfl
@[simp] theorem State.onCip_trn (g : Cip → Cip) : (s.onCip g).trn = s.trn := rfl
@[simp] theorem State.onCip_win (g : Cip → Cip) : (s.onCip g).win = s.win := rfl
@[simp] theorem State.onCip_cq (g : Cip → Cip) : (s.onCip g).cq = s.cq := rfl
@[simp] theorem State.onCip_vol (g : Cip → Cip) : (s.onCip g).vol = s.vol := rfl
@[simp] theorem State.onCip_str (g : Cip → Cip) : (s.onCip g).str = s.str := rfl
@[simp] theorem State.onCip_attic (g : Cip → Cip) : (s.onCip g).attic = s.attic := rfl
@[simp] theorem State.onCip_rbd (g : Cip → Cip) : (s.onCip g).rbd = s.rbd := rfl
@[simp] theorem State.onCip_rsv (g : Cip → Cip) : (s.onCip g).rsv = s.rsv := rfl
@[simp] theorem State.onCip_cip (g : Cip → Cip) : (s.onCip g).cip = g s.cip := rfl
@[simp] theorem State.onCip_mac (g : Cip → Cip) : (s.onCip g).mac = s.mac := rfl
@[simp] theorem State.onCip_tc (g : Cip → Cip) : (s.onCip g).tc = s.tc := rfl
@[simp] theorem State.onCip_drv (g : Cip → Cip) : (s.onCip g).drv = s.drv := rfl
@[simp] theorem State.onCip_drives (g : Cip → Cip) : (s.onCip g).drives = s.drives := rfl
@[simp] theorem State.onCip_bay (g : Cip → Cip) : (s.onCip g).bay = s.bay := rfl
@[simp] theorem State.onCip_wdn (g : Cip → Cip) : (s.onCip g).wdn = s.wdn := rfl
@[simp] theorem State.onCip_peer (g : Cip → Cip) : (s.onCip g).peer = s.peer := rfl
@[simp] theorem State.onCip_pwr (g : Cip → Cip) : (s.onCip g).pwr = s.pwr := rfl
@[simp] theorem State.onCip_mgt (g : Cip → Cip) : (s.onCip g).mgt = s.mgt := rfl
@[simp] theorem State.onCip_glb (g : Cip → Cip) : (s.onCip g).glb = s.glb := rfl
@[simp] theorem State.onCip_fuses (g : Cip → Cip) : (s.onCip g).fuses = s.fuses := rfl
@[simp] theorem State.onCip_flash (g : Cip → Cip) : (s.onCip g).flash = s.flash := rfl
@[simp] theorem State.onCip_pending (g : Cip → Cip) : (s.onCip g).pending = s.pending := rfl

/-! ### A change of the mac block -/

@[simp] theorem State.onMac_regs (g : Mac → Mac) : (s.onMac g).regs = s.regs := rfl
@[simp] theorem State.onMac_snaps (g : Mac → Mac) : (s.onMac g).snaps = s.snaps := rfl
@[simp] theorem State.onMac_heldLow (g : Mac → Mac) : (s.onMac g).heldLow = s.heldLow := rfl
@[simp] theorem State.onMac_answer (g : Mac → Mac) : (s.onMac g).answer = s.answer := rfl
@[simp] theorem State.onMac_now (g : Mac → Mac) : (s.onMac g).now = s.now := rfl
@[simp] theorem State.onMac_free (g : Mac → Mac) : (s.onMac g).free = s.free := rfl
@[simp] theorem State.onMac_served (g : Mac → Mac) : (s.onMac g).served = s.served := rfl
@[simp] theorem State.onMac_inv (g : Mac → Mac) : (s.onMac g).inv = s.inv := rfl
@[simp] theorem State.onMac_hst (g : Mac → Mac) : (s.onMac g).hst = s.hst := rfl
@[simp] theorem State.onMac_trn (g : Mac → Mac) : (s.onMac g).trn = s.trn := rfl
@[simp] theorem State.onMac_win (g : Mac → Mac) : (s.onMac g).win = s.win := rfl
@[simp] theorem State.onMac_cq (g : Mac → Mac) : (s.onMac g).cq = s.cq := rfl
@[simp] theorem State.onMac_vol (g : Mac → Mac) : (s.onMac g).vol = s.vol := rfl
@[simp] theorem State.onMac_str (g : Mac → Mac) : (s.onMac g).str = s.str := rfl
@[simp] theorem State.onMac_attic (g : Mac → Mac) : (s.onMac g).attic = s.attic := rfl
@[simp] theorem State.onMac_rbd (g : Mac → Mac) : (s.onMac g).rbd = s.rbd := rfl
@[simp] theorem State.onMac_rsv (g : Mac → Mac) : (s.onMac g).rsv = s.rsv := rfl
@[simp] theorem State.onMac_cip (g : Mac → Mac) : (s.onMac g).cip = s.cip := rfl
@[simp] theorem State.onMac_mac (g : Mac → Mac) : (s.onMac g).mac = g s.mac := rfl
@[simp] theorem State.onMac_tc (g : Mac → Mac) : (s.onMac g).tc = s.tc := rfl
@[simp] theorem State.onMac_drv (g : Mac → Mac) : (s.onMac g).drv = s.drv := rfl
@[simp] theorem State.onMac_drives (g : Mac → Mac) : (s.onMac g).drives = s.drives := rfl
@[simp] theorem State.onMac_bay (g : Mac → Mac) : (s.onMac g).bay = s.bay := rfl
@[simp] theorem State.onMac_wdn (g : Mac → Mac) : (s.onMac g).wdn = s.wdn := rfl
@[simp] theorem State.onMac_peer (g : Mac → Mac) : (s.onMac g).peer = s.peer := rfl
@[simp] theorem State.onMac_pwr (g : Mac → Mac) : (s.onMac g).pwr = s.pwr := rfl
@[simp] theorem State.onMac_mgt (g : Mac → Mac) : (s.onMac g).mgt = s.mgt := rfl
@[simp] theorem State.onMac_glb (g : Mac → Mac) : (s.onMac g).glb = s.glb := rfl
@[simp] theorem State.onMac_fuses (g : Mac → Mac) : (s.onMac g).fuses = s.fuses := rfl
@[simp] theorem State.onMac_flash (g : Mac → Mac) : (s.onMac g).flash = s.flash := rfl
@[simp] theorem State.onMac_pending (g : Mac → Mac) : (s.onMac g).pending = s.pending := rfl

/-! ### A change of the tc block -/

@[simp] theorem State.onTc_regs (g : Tc → Tc) : (s.onTc g).regs = s.regs := rfl
@[simp] theorem State.onTc_snaps (g : Tc → Tc) : (s.onTc g).snaps = s.snaps := rfl
@[simp] theorem State.onTc_heldLow (g : Tc → Tc) : (s.onTc g).heldLow = s.heldLow := rfl
@[simp] theorem State.onTc_answer (g : Tc → Tc) : (s.onTc g).answer = s.answer := rfl
@[simp] theorem State.onTc_now (g : Tc → Tc) : (s.onTc g).now = s.now := rfl
@[simp] theorem State.onTc_free (g : Tc → Tc) : (s.onTc g).free = s.free := rfl
@[simp] theorem State.onTc_served (g : Tc → Tc) : (s.onTc g).served = s.served := rfl
@[simp] theorem State.onTc_inv (g : Tc → Tc) : (s.onTc g).inv = s.inv := rfl
@[simp] theorem State.onTc_hst (g : Tc → Tc) : (s.onTc g).hst = s.hst := rfl
@[simp] theorem State.onTc_trn (g : Tc → Tc) : (s.onTc g).trn = s.trn := rfl
@[simp] theorem State.onTc_win (g : Tc → Tc) : (s.onTc g).win = s.win := rfl
@[simp] theorem State.onTc_cq (g : Tc → Tc) : (s.onTc g).cq = s.cq := rfl
@[simp] theorem State.onTc_vol (g : Tc → Tc) : (s.onTc g).vol = s.vol := rfl
@[simp] theorem State.onTc_str (g : Tc → Tc) : (s.onTc g).str = s.str := rfl
@[simp] theorem State.onTc_attic (g : Tc → Tc) : (s.onTc g).attic = s.attic := rfl
@[simp] theorem State.onTc_rbd (g : Tc → Tc) : (s.onTc g).rbd = s.rbd := rfl
@[simp] theorem State.onTc_rsv (g : Tc → Tc) : (s.onTc g).rsv = s.rsv := rfl
@[simp] theorem State.onTc_cip (g : Tc → Tc) : (s.onTc g).cip = s.cip := rfl
@[simp] theorem State.onTc_mac (g : Tc → Tc) : (s.onTc g).mac = s.mac := rfl
@[simp] theorem State.onTc_tc (g : Tc → Tc) : (s.onTc g).tc = g s.tc := rfl
@[simp] theorem State.onTc_drv (g : Tc → Tc) : (s.onTc g).drv = s.drv := rfl
@[simp] theorem State.onTc_drives (g : Tc → Tc) : (s.onTc g).drives = s.drives := rfl
@[simp] theorem State.onTc_bay (g : Tc → Tc) : (s.onTc g).bay = s.bay := rfl
@[simp] theorem State.onTc_wdn (g : Tc → Tc) : (s.onTc g).wdn = s.wdn := rfl
@[simp] theorem State.onTc_peer (g : Tc → Tc) : (s.onTc g).peer = s.peer := rfl
@[simp] theorem State.onTc_pwr (g : Tc → Tc) : (s.onTc g).pwr = s.pwr := rfl
@[simp] theorem State.onTc_mgt (g : Tc → Tc) : (s.onTc g).mgt = s.mgt := rfl
@[simp] theorem State.onTc_glb (g : Tc → Tc) : (s.onTc g).glb = s.glb := rfl
@[simp] theorem State.onTc_fuses (g : Tc → Tc) : (s.onTc g).fuses = s.fuses := rfl
@[simp] theorem State.onTc_flash (g : Tc → Tc) : (s.onTc g).flash = s.flash := rfl
@[simp] theorem State.onTc_pending (g : Tc → Tc) : (s.onTc g).pending = s.pending := rfl

/-! ### A change of the drv block -/

@[simp] theorem State.onDrv_regs (g : Drv → Drv) : (s.onDrv g).regs = s.regs := rfl
@[simp] theorem State.onDrv_snaps (g : Drv → Drv) : (s.onDrv g).snaps = s.snaps := rfl
@[simp] theorem State.onDrv_heldLow (g : Drv → Drv) : (s.onDrv g).heldLow = s.heldLow := rfl
@[simp] theorem State.onDrv_answer (g : Drv → Drv) : (s.onDrv g).answer = s.answer := rfl
@[simp] theorem State.onDrv_now (g : Drv → Drv) : (s.onDrv g).now = s.now := rfl
@[simp] theorem State.onDrv_free (g : Drv → Drv) : (s.onDrv g).free = s.free := rfl
@[simp] theorem State.onDrv_served (g : Drv → Drv) : (s.onDrv g).served = s.served := rfl
@[simp] theorem State.onDrv_inv (g : Drv → Drv) : (s.onDrv g).inv = s.inv := rfl
@[simp] theorem State.onDrv_hst (g : Drv → Drv) : (s.onDrv g).hst = s.hst := rfl
@[simp] theorem State.onDrv_trn (g : Drv → Drv) : (s.onDrv g).trn = s.trn := rfl
@[simp] theorem State.onDrv_win (g : Drv → Drv) : (s.onDrv g).win = s.win := rfl
@[simp] theorem State.onDrv_cq (g : Drv → Drv) : (s.onDrv g).cq = s.cq := rfl
@[simp] theorem State.onDrv_vol (g : Drv → Drv) : (s.onDrv g).vol = s.vol := rfl
@[simp] theorem State.onDrv_str (g : Drv → Drv) : (s.onDrv g).str = s.str := rfl
@[simp] theorem State.onDrv_attic (g : Drv → Drv) : (s.onDrv g).attic = s.attic := rfl
@[simp] theorem State.onDrv_rbd (g : Drv → Drv) : (s.onDrv g).rbd = s.rbd := rfl
@[simp] theorem State.onDrv_rsv (g : Drv → Drv) : (s.onDrv g).rsv = s.rsv := rfl
@[simp] theorem State.onDrv_cip (g : Drv → Drv) : (s.onDrv g).cip = s.cip := rfl
@[simp] theorem State.onDrv_mac (g : Drv → Drv) : (s.onDrv g).mac = s.mac := rfl
@[simp] theorem State.onDrv_tc (g : Drv → Drv) : (s.onDrv g).tc = s.tc := rfl
@[simp] theorem State.onDrv_drv (g : Drv → Drv) : (s.onDrv g).drv = g s.drv := rfl
@[simp] theorem State.onDrv_drives (g : Drv → Drv) : (s.onDrv g).drives = s.drives := rfl
@[simp] theorem State.onDrv_bay (g : Drv → Drv) : (s.onDrv g).bay = s.bay := rfl
@[simp] theorem State.onDrv_wdn (g : Drv → Drv) : (s.onDrv g).wdn = s.wdn := rfl
@[simp] theorem State.onDrv_peer (g : Drv → Drv) : (s.onDrv g).peer = s.peer := rfl
@[simp] theorem State.onDrv_pwr (g : Drv → Drv) : (s.onDrv g).pwr = s.pwr := rfl
@[simp] theorem State.onDrv_mgt (g : Drv → Drv) : (s.onDrv g).mgt = s.mgt := rfl
@[simp] theorem State.onDrv_glb (g : Drv → Drv) : (s.onDrv g).glb = s.glb := rfl
@[simp] theorem State.onDrv_fuses (g : Drv → Drv) : (s.onDrv g).fuses = s.fuses := rfl
@[simp] theorem State.onDrv_flash (g : Drv → Drv) : (s.onDrv g).flash = s.flash := rfl
@[simp] theorem State.onDrv_pending (g : Drv → Drv) : (s.onDrv g).pending = s.pending := rfl

/-! ### A change of the bay block -/

@[simp] theorem State.onBay_regs (g : Bay → Bay) : (s.onBay g).regs = s.regs := rfl
@[simp] theorem State.onBay_snaps (g : Bay → Bay) : (s.onBay g).snaps = s.snaps := rfl
@[simp] theorem State.onBay_heldLow (g : Bay → Bay) : (s.onBay g).heldLow = s.heldLow := rfl
@[simp] theorem State.onBay_answer (g : Bay → Bay) : (s.onBay g).answer = s.answer := rfl
@[simp] theorem State.onBay_now (g : Bay → Bay) : (s.onBay g).now = s.now := rfl
@[simp] theorem State.onBay_free (g : Bay → Bay) : (s.onBay g).free = s.free := rfl
@[simp] theorem State.onBay_served (g : Bay → Bay) : (s.onBay g).served = s.served := rfl
@[simp] theorem State.onBay_inv (g : Bay → Bay) : (s.onBay g).inv = s.inv := rfl
@[simp] theorem State.onBay_hst (g : Bay → Bay) : (s.onBay g).hst = s.hst := rfl
@[simp] theorem State.onBay_trn (g : Bay → Bay) : (s.onBay g).trn = s.trn := rfl
@[simp] theorem State.onBay_win (g : Bay → Bay) : (s.onBay g).win = s.win := rfl
@[simp] theorem State.onBay_cq (g : Bay → Bay) : (s.onBay g).cq = s.cq := rfl
@[simp] theorem State.onBay_vol (g : Bay → Bay) : (s.onBay g).vol = s.vol := rfl
@[simp] theorem State.onBay_str (g : Bay → Bay) : (s.onBay g).str = s.str := rfl
@[simp] theorem State.onBay_attic (g : Bay → Bay) : (s.onBay g).attic = s.attic := rfl
@[simp] theorem State.onBay_rbd (g : Bay → Bay) : (s.onBay g).rbd = s.rbd := rfl
@[simp] theorem State.onBay_rsv (g : Bay → Bay) : (s.onBay g).rsv = s.rsv := rfl
@[simp] theorem State.onBay_cip (g : Bay → Bay) : (s.onBay g).cip = s.cip := rfl
@[simp] theorem State.onBay_mac (g : Bay → Bay) : (s.onBay g).mac = s.mac := rfl
@[simp] theorem State.onBay_tc (g : Bay → Bay) : (s.onBay g).tc = s.tc := rfl
@[simp] theorem State.onBay_drv (g : Bay → Bay) : (s.onBay g).drv = s.drv := rfl
@[simp] theorem State.onBay_drives (g : Bay → Bay) : (s.onBay g).drives = s.drives := rfl
@[simp] theorem State.onBay_bay (g : Bay → Bay) : (s.onBay g).bay = g s.bay := rfl
@[simp] theorem State.onBay_wdn (g : Bay → Bay) : (s.onBay g).wdn = s.wdn := rfl
@[simp] theorem State.onBay_peer (g : Bay → Bay) : (s.onBay g).peer = s.peer := rfl
@[simp] theorem State.onBay_pwr (g : Bay → Bay) : (s.onBay g).pwr = s.pwr := rfl
@[simp] theorem State.onBay_mgt (g : Bay → Bay) : (s.onBay g).mgt = s.mgt := rfl
@[simp] theorem State.onBay_glb (g : Bay → Bay) : (s.onBay g).glb = s.glb := rfl
@[simp] theorem State.onBay_fuses (g : Bay → Bay) : (s.onBay g).fuses = s.fuses := rfl
@[simp] theorem State.onBay_flash (g : Bay → Bay) : (s.onBay g).flash = s.flash := rfl
@[simp] theorem State.onBay_pending (g : Bay → Bay) : (s.onBay g).pending = s.pending := rfl

/-! ### A change of the wdn block -/

@[simp] theorem State.onWdn_regs (g : Wdn → Wdn) : (s.onWdn g).regs = s.regs := rfl
@[simp] theorem State.onWdn_snaps (g : Wdn → Wdn) : (s.onWdn g).snaps = s.snaps := rfl
@[simp] theorem State.onWdn_heldLow (g : Wdn → Wdn) : (s.onWdn g).heldLow = s.heldLow := rfl
@[simp] theorem State.onWdn_answer (g : Wdn → Wdn) : (s.onWdn g).answer = s.answer := rfl
@[simp] theorem State.onWdn_now (g : Wdn → Wdn) : (s.onWdn g).now = s.now := rfl
@[simp] theorem State.onWdn_free (g : Wdn → Wdn) : (s.onWdn g).free = s.free := rfl
@[simp] theorem State.onWdn_served (g : Wdn → Wdn) : (s.onWdn g).served = s.served := rfl
@[simp] theorem State.onWdn_inv (g : Wdn → Wdn) : (s.onWdn g).inv = s.inv := rfl
@[simp] theorem State.onWdn_hst (g : Wdn → Wdn) : (s.onWdn g).hst = s.hst := rfl
@[simp] theorem State.onWdn_trn (g : Wdn → Wdn) : (s.onWdn g).trn = s.trn := rfl
@[simp] theorem State.onWdn_win (g : Wdn → Wdn) : (s.onWdn g).win = s.win := rfl
@[simp] theorem State.onWdn_cq (g : Wdn → Wdn) : (s.onWdn g).cq = s.cq := rfl
@[simp] theorem State.onWdn_vol (g : Wdn → Wdn) : (s.onWdn g).vol = s.vol := rfl
@[simp] theorem State.onWdn_str (g : Wdn → Wdn) : (s.onWdn g).str = s.str := rfl
@[simp] theorem State.onWdn_attic (g : Wdn → Wdn) : (s.onWdn g).attic = s.attic := rfl
@[simp] theorem State.onWdn_rbd (g : Wdn → Wdn) : (s.onWdn g).rbd = s.rbd := rfl
@[simp] theorem State.onWdn_rsv (g : Wdn → Wdn) : (s.onWdn g).rsv = s.rsv := rfl
@[simp] theorem State.onWdn_cip (g : Wdn → Wdn) : (s.onWdn g).cip = s.cip := rfl
@[simp] theorem State.onWdn_mac (g : Wdn → Wdn) : (s.onWdn g).mac = s.mac := rfl
@[simp] theorem State.onWdn_tc (g : Wdn → Wdn) : (s.onWdn g).tc = s.tc := rfl
@[simp] theorem State.onWdn_drv (g : Wdn → Wdn) : (s.onWdn g).drv = s.drv := rfl
@[simp] theorem State.onWdn_drives (g : Wdn → Wdn) : (s.onWdn g).drives = s.drives := rfl
@[simp] theorem State.onWdn_bay (g : Wdn → Wdn) : (s.onWdn g).bay = s.bay := rfl
@[simp] theorem State.onWdn_wdn (g : Wdn → Wdn) : (s.onWdn g).wdn = g s.wdn := rfl
@[simp] theorem State.onWdn_peer (g : Wdn → Wdn) : (s.onWdn g).peer = s.peer := rfl
@[simp] theorem State.onWdn_pwr (g : Wdn → Wdn) : (s.onWdn g).pwr = s.pwr := rfl
@[simp] theorem State.onWdn_mgt (g : Wdn → Wdn) : (s.onWdn g).mgt = s.mgt := rfl
@[simp] theorem State.onWdn_glb (g : Wdn → Wdn) : (s.onWdn g).glb = s.glb := rfl
@[simp] theorem State.onWdn_fuses (g : Wdn → Wdn) : (s.onWdn g).fuses = s.fuses := rfl
@[simp] theorem State.onWdn_flash (g : Wdn → Wdn) : (s.onWdn g).flash = s.flash := rfl
@[simp] theorem State.onWdn_pending (g : Wdn → Wdn) : (s.onWdn g).pending = s.pending := rfl

/-! ### A change of the peer block -/

@[simp] theorem State.onPeer_regs (g : Peer → Peer) : (s.onPeer g).regs = s.regs := rfl
@[simp] theorem State.onPeer_snaps (g : Peer → Peer) : (s.onPeer g).snaps = s.snaps := rfl
@[simp] theorem State.onPeer_heldLow (g : Peer → Peer) : (s.onPeer g).heldLow = s.heldLow := rfl
@[simp] theorem State.onPeer_answer (g : Peer → Peer) : (s.onPeer g).answer = s.answer := rfl
@[simp] theorem State.onPeer_now (g : Peer → Peer) : (s.onPeer g).now = s.now := rfl
@[simp] theorem State.onPeer_free (g : Peer → Peer) : (s.onPeer g).free = s.free := rfl
@[simp] theorem State.onPeer_served (g : Peer → Peer) : (s.onPeer g).served = s.served := rfl
@[simp] theorem State.onPeer_inv (g : Peer → Peer) : (s.onPeer g).inv = s.inv := rfl
@[simp] theorem State.onPeer_hst (g : Peer → Peer) : (s.onPeer g).hst = s.hst := rfl
@[simp] theorem State.onPeer_trn (g : Peer → Peer) : (s.onPeer g).trn = s.trn := rfl
@[simp] theorem State.onPeer_win (g : Peer → Peer) : (s.onPeer g).win = s.win := rfl
@[simp] theorem State.onPeer_cq (g : Peer → Peer) : (s.onPeer g).cq = s.cq := rfl
@[simp] theorem State.onPeer_vol (g : Peer → Peer) : (s.onPeer g).vol = s.vol := rfl
@[simp] theorem State.onPeer_str (g : Peer → Peer) : (s.onPeer g).str = s.str := rfl
@[simp] theorem State.onPeer_attic (g : Peer → Peer) : (s.onPeer g).attic = s.attic := rfl
@[simp] theorem State.onPeer_rbd (g : Peer → Peer) : (s.onPeer g).rbd = s.rbd := rfl
@[simp] theorem State.onPeer_rsv (g : Peer → Peer) : (s.onPeer g).rsv = s.rsv := rfl
@[simp] theorem State.onPeer_cip (g : Peer → Peer) : (s.onPeer g).cip = s.cip := rfl
@[simp] theorem State.onPeer_mac (g : Peer → Peer) : (s.onPeer g).mac = s.mac := rfl
@[simp] theorem State.onPeer_tc (g : Peer → Peer) : (s.onPeer g).tc = s.tc := rfl
@[simp] theorem State.onPeer_drv (g : Peer → Peer) : (s.onPeer g).drv = s.drv := rfl
@[simp] theorem State.onPeer_drives (g : Peer → Peer) : (s.onPeer g).drives = s.drives := rfl
@[simp] theorem State.onPeer_bay (g : Peer → Peer) : (s.onPeer g).bay = s.bay := rfl
@[simp] theorem State.onPeer_wdn (g : Peer → Peer) : (s.onPeer g).wdn = s.wdn := rfl
@[simp] theorem State.onPeer_peer (g : Peer → Peer) : (s.onPeer g).peer = g s.peer := rfl
@[simp] theorem State.onPeer_pwr (g : Peer → Peer) : (s.onPeer g).pwr = s.pwr := rfl
@[simp] theorem State.onPeer_mgt (g : Peer → Peer) : (s.onPeer g).mgt = s.mgt := rfl
@[simp] theorem State.onPeer_glb (g : Peer → Peer) : (s.onPeer g).glb = s.glb := rfl
@[simp] theorem State.onPeer_fuses (g : Peer → Peer) : (s.onPeer g).fuses = s.fuses := rfl
@[simp] theorem State.onPeer_flash (g : Peer → Peer) : (s.onPeer g).flash = s.flash := rfl
@[simp] theorem State.onPeer_pending (g : Peer → Peer) : (s.onPeer g).pending = s.pending := rfl

/-! ### A change of the pwr block -/

@[simp] theorem State.onPwr_regs (g : Pwr → Pwr) : (s.onPwr g).regs = s.regs := rfl
@[simp] theorem State.onPwr_snaps (g : Pwr → Pwr) : (s.onPwr g).snaps = s.snaps := rfl
@[simp] theorem State.onPwr_heldLow (g : Pwr → Pwr) : (s.onPwr g).heldLow = s.heldLow := rfl
@[simp] theorem State.onPwr_answer (g : Pwr → Pwr) : (s.onPwr g).answer = s.answer := rfl
@[simp] theorem State.onPwr_now (g : Pwr → Pwr) : (s.onPwr g).now = s.now := rfl
@[simp] theorem State.onPwr_free (g : Pwr → Pwr) : (s.onPwr g).free = s.free := rfl
@[simp] theorem State.onPwr_served (g : Pwr → Pwr) : (s.onPwr g).served = s.served := rfl
@[simp] theorem State.onPwr_inv (g : Pwr → Pwr) : (s.onPwr g).inv = s.inv := rfl
@[simp] theorem State.onPwr_hst (g : Pwr → Pwr) : (s.onPwr g).hst = s.hst := rfl
@[simp] theorem State.onPwr_trn (g : Pwr → Pwr) : (s.onPwr g).trn = s.trn := rfl
@[simp] theorem State.onPwr_win (g : Pwr → Pwr) : (s.onPwr g).win = s.win := rfl
@[simp] theorem State.onPwr_cq (g : Pwr → Pwr) : (s.onPwr g).cq = s.cq := rfl
@[simp] theorem State.onPwr_vol (g : Pwr → Pwr) : (s.onPwr g).vol = s.vol := rfl
@[simp] theorem State.onPwr_str (g : Pwr → Pwr) : (s.onPwr g).str = s.str := rfl
@[simp] theorem State.onPwr_attic (g : Pwr → Pwr) : (s.onPwr g).attic = s.attic := rfl
@[simp] theorem State.onPwr_rbd (g : Pwr → Pwr) : (s.onPwr g).rbd = s.rbd := rfl
@[simp] theorem State.onPwr_rsv (g : Pwr → Pwr) : (s.onPwr g).rsv = s.rsv := rfl
@[simp] theorem State.onPwr_cip (g : Pwr → Pwr) : (s.onPwr g).cip = s.cip := rfl
@[simp] theorem State.onPwr_mac (g : Pwr → Pwr) : (s.onPwr g).mac = s.mac := rfl
@[simp] theorem State.onPwr_tc (g : Pwr → Pwr) : (s.onPwr g).tc = s.tc := rfl
@[simp] theorem State.onPwr_drv (g : Pwr → Pwr) : (s.onPwr g).drv = s.drv := rfl
@[simp] theorem State.onPwr_drives (g : Pwr → Pwr) : (s.onPwr g).drives = s.drives := rfl
@[simp] theorem State.onPwr_bay (g : Pwr → Pwr) : (s.onPwr g).bay = s.bay := rfl
@[simp] theorem State.onPwr_wdn (g : Pwr → Pwr) : (s.onPwr g).wdn = s.wdn := rfl
@[simp] theorem State.onPwr_peer (g : Pwr → Pwr) : (s.onPwr g).peer = s.peer := rfl
@[simp] theorem State.onPwr_pwr (g : Pwr → Pwr) : (s.onPwr g).pwr = g s.pwr := rfl
@[simp] theorem State.onPwr_mgt (g : Pwr → Pwr) : (s.onPwr g).mgt = s.mgt := rfl
@[simp] theorem State.onPwr_glb (g : Pwr → Pwr) : (s.onPwr g).glb = s.glb := rfl
@[simp] theorem State.onPwr_fuses (g : Pwr → Pwr) : (s.onPwr g).fuses = s.fuses := rfl
@[simp] theorem State.onPwr_flash (g : Pwr → Pwr) : (s.onPwr g).flash = s.flash := rfl
@[simp] theorem State.onPwr_pending (g : Pwr → Pwr) : (s.onPwr g).pending = s.pending := rfl

/-! ### A change of the mgt block -/

@[simp] theorem State.onMgt_regs (g : Mgt → Mgt) : (s.onMgt g).regs = s.regs := rfl
@[simp] theorem State.onMgt_snaps (g : Mgt → Mgt) : (s.onMgt g).snaps = s.snaps := rfl
@[simp] theorem State.onMgt_heldLow (g : Mgt → Mgt) : (s.onMgt g).heldLow = s.heldLow := rfl
@[simp] theorem State.onMgt_answer (g : Mgt → Mgt) : (s.onMgt g).answer = s.answer := rfl
@[simp] theorem State.onMgt_now (g : Mgt → Mgt) : (s.onMgt g).now = s.now := rfl
@[simp] theorem State.onMgt_free (g : Mgt → Mgt) : (s.onMgt g).free = s.free := rfl
@[simp] theorem State.onMgt_served (g : Mgt → Mgt) : (s.onMgt g).served = s.served := rfl
@[simp] theorem State.onMgt_inv (g : Mgt → Mgt) : (s.onMgt g).inv = s.inv := rfl
@[simp] theorem State.onMgt_hst (g : Mgt → Mgt) : (s.onMgt g).hst = s.hst := rfl
@[simp] theorem State.onMgt_trn (g : Mgt → Mgt) : (s.onMgt g).trn = s.trn := rfl
@[simp] theorem State.onMgt_win (g : Mgt → Mgt) : (s.onMgt g).win = s.win := rfl
@[simp] theorem State.onMgt_cq (g : Mgt → Mgt) : (s.onMgt g).cq = s.cq := rfl
@[simp] theorem State.onMgt_vol (g : Mgt → Mgt) : (s.onMgt g).vol = s.vol := rfl
@[simp] theorem State.onMgt_str (g : Mgt → Mgt) : (s.onMgt g).str = s.str := rfl
@[simp] theorem State.onMgt_attic (g : Mgt → Mgt) : (s.onMgt g).attic = s.attic := rfl
@[simp] theorem State.onMgt_rbd (g : Mgt → Mgt) : (s.onMgt g).rbd = s.rbd := rfl
@[simp] theorem State.onMgt_rsv (g : Mgt → Mgt) : (s.onMgt g).rsv = s.rsv := rfl
@[simp] theorem State.onMgt_cip (g : Mgt → Mgt) : (s.onMgt g).cip = s.cip := rfl
@[simp] theorem State.onMgt_mac (g : Mgt → Mgt) : (s.onMgt g).mac = s.mac := rfl
@[simp] theorem State.onMgt_tc (g : Mgt → Mgt) : (s.onMgt g).tc = s.tc := rfl
@[simp] theorem State.onMgt_drv (g : Mgt → Mgt) : (s.onMgt g).drv = s.drv := rfl
@[simp] theorem State.onMgt_drives (g : Mgt → Mgt) : (s.onMgt g).drives = s.drives := rfl
@[simp] theorem State.onMgt_bay (g : Mgt → Mgt) : (s.onMgt g).bay = s.bay := rfl
@[simp] theorem State.onMgt_wdn (g : Mgt → Mgt) : (s.onMgt g).wdn = s.wdn := rfl
@[simp] theorem State.onMgt_peer (g : Mgt → Mgt) : (s.onMgt g).peer = s.peer := rfl
@[simp] theorem State.onMgt_pwr (g : Mgt → Mgt) : (s.onMgt g).pwr = s.pwr := rfl
@[simp] theorem State.onMgt_mgt (g : Mgt → Mgt) : (s.onMgt g).mgt = g s.mgt := rfl
@[simp] theorem State.onMgt_glb (g : Mgt → Mgt) : (s.onMgt g).glb = s.glb := rfl
@[simp] theorem State.onMgt_fuses (g : Mgt → Mgt) : (s.onMgt g).fuses = s.fuses := rfl
@[simp] theorem State.onMgt_flash (g : Mgt → Mgt) : (s.onMgt g).flash = s.flash := rfl
@[simp] theorem State.onMgt_pending (g : Mgt → Mgt) : (s.onMgt g).pending = s.pending := rfl

/-! ### A change of the glb block -/

@[simp] theorem State.onGlb_regs (g : Glb → Glb) : (s.onGlb g).regs = s.regs := rfl
@[simp] theorem State.onGlb_snaps (g : Glb → Glb) : (s.onGlb g).snaps = s.snaps := rfl
@[simp] theorem State.onGlb_heldLow (g : Glb → Glb) : (s.onGlb g).heldLow = s.heldLow := rfl
@[simp] theorem State.onGlb_answer (g : Glb → Glb) : (s.onGlb g).answer = s.answer := rfl
@[simp] theorem State.onGlb_now (g : Glb → Glb) : (s.onGlb g).now = s.now := rfl
@[simp] theorem State.onGlb_free (g : Glb → Glb) : (s.onGlb g).free = s.free := rfl
@[simp] theorem State.onGlb_served (g : Glb → Glb) : (s.onGlb g).served = s.served := rfl
@[simp] theorem State.onGlb_inv (g : Glb → Glb) : (s.onGlb g).inv = s.inv := rfl
@[simp] theorem State.onGlb_hst (g : Glb → Glb) : (s.onGlb g).hst = s.hst := rfl
@[simp] theorem State.onGlb_trn (g : Glb → Glb) : (s.onGlb g).trn = s.trn := rfl
@[simp] theorem State.onGlb_win (g : Glb → Glb) : (s.onGlb g).win = s.win := rfl
@[simp] theorem State.onGlb_cq (g : Glb → Glb) : (s.onGlb g).cq = s.cq := rfl
@[simp] theorem State.onGlb_vol (g : Glb → Glb) : (s.onGlb g).vol = s.vol := rfl
@[simp] theorem State.onGlb_str (g : Glb → Glb) : (s.onGlb g).str = s.str := rfl
@[simp] theorem State.onGlb_attic (g : Glb → Glb) : (s.onGlb g).attic = s.attic := rfl
@[simp] theorem State.onGlb_rbd (g : Glb → Glb) : (s.onGlb g).rbd = s.rbd := rfl
@[simp] theorem State.onGlb_rsv (g : Glb → Glb) : (s.onGlb g).rsv = s.rsv := rfl
@[simp] theorem State.onGlb_cip (g : Glb → Glb) : (s.onGlb g).cip = s.cip := rfl
@[simp] theorem State.onGlb_mac (g : Glb → Glb) : (s.onGlb g).mac = s.mac := rfl
@[simp] theorem State.onGlb_tc (g : Glb → Glb) : (s.onGlb g).tc = s.tc := rfl
@[simp] theorem State.onGlb_drv (g : Glb → Glb) : (s.onGlb g).drv = s.drv := rfl
@[simp] theorem State.onGlb_drives (g : Glb → Glb) : (s.onGlb g).drives = s.drives := rfl
@[simp] theorem State.onGlb_bay (g : Glb → Glb) : (s.onGlb g).bay = s.bay := rfl
@[simp] theorem State.onGlb_wdn (g : Glb → Glb) : (s.onGlb g).wdn = s.wdn := rfl
@[simp] theorem State.onGlb_peer (g : Glb → Glb) : (s.onGlb g).peer = s.peer := rfl
@[simp] theorem State.onGlb_pwr (g : Glb → Glb) : (s.onGlb g).pwr = s.pwr := rfl
@[simp] theorem State.onGlb_mgt (g : Glb → Glb) : (s.onGlb g).mgt = s.mgt := rfl
@[simp] theorem State.onGlb_glb (g : Glb → Glb) : (s.onGlb g).glb = g s.glb := rfl
@[simp] theorem State.onGlb_fuses (g : Glb → Glb) : (s.onGlb g).fuses = s.fuses := rfl
@[simp] theorem State.onGlb_flash (g : Glb → Glb) : (s.onGlb g).flash = s.flash := rfl
@[simp] theorem State.onGlb_pending (g : Glb → Glb) : (s.onGlb g).pending = s.pending := rfl

/-! ### A register word -/

@[simp] theorem State.setWord_snaps (a : Nat) (w : Word) : (s.setWord a w).snaps = s.snaps := rfl
@[simp] theorem State.setWord_heldLow (a : Nat) (w : Word) : (s.setWord a w).heldLow = s.heldLow := rfl
@[simp] theorem State.setWord_answer (a : Nat) (w : Word) : (s.setWord a w).answer = s.answer := rfl
@[simp] theorem State.setWord_now (a : Nat) (w : Word) : (s.setWord a w).now = s.now := rfl
@[simp] theorem State.setWord_free (a : Nat) (w : Word) : (s.setWord a w).free = s.free := rfl
@[simp] theorem State.setWord_served (a : Nat) (w : Word) : (s.setWord a w).served = s.served := rfl
@[simp] theorem State.setWord_inv (a : Nat) (w : Word) : (s.setWord a w).inv = s.inv := rfl
@[simp] theorem State.setWord_hst (a : Nat) (w : Word) : (s.setWord a w).hst = s.hst := rfl
@[simp] theorem State.setWord_trn (a : Nat) (w : Word) : (s.setWord a w).trn = s.trn := rfl
@[simp] theorem State.setWord_win (a : Nat) (w : Word) : (s.setWord a w).win = s.win := rfl
@[simp] theorem State.setWord_cq (a : Nat) (w : Word) : (s.setWord a w).cq = s.cq := rfl
@[simp] theorem State.setWord_vol (a : Nat) (w : Word) : (s.setWord a w).vol = s.vol := rfl
@[simp] theorem State.setWord_str (a : Nat) (w : Word) : (s.setWord a w).str = s.str := rfl
@[simp] theorem State.setWord_attic (a : Nat) (w : Word) : (s.setWord a w).attic = s.attic := rfl
@[simp] theorem State.setWord_rbd (a : Nat) (w : Word) : (s.setWord a w).rbd = s.rbd := rfl
@[simp] theorem State.setWord_rsv (a : Nat) (w : Word) : (s.setWord a w).rsv = s.rsv := rfl
@[simp] theorem State.setWord_cip (a : Nat) (w : Word) : (s.setWord a w).cip = s.cip := rfl
@[simp] theorem State.setWord_mac (a : Nat) (w : Word) : (s.setWord a w).mac = s.mac := rfl
@[simp] theorem State.setWord_tc (a : Nat) (w : Word) : (s.setWord a w).tc = s.tc := rfl
@[simp] theorem State.setWord_drv (a : Nat) (w : Word) : (s.setWord a w).drv = s.drv := rfl
@[simp] theorem State.setWord_drives (a : Nat) (w : Word) : (s.setWord a w).drives = s.drives := rfl
@[simp] theorem State.setWord_bay (a : Nat) (w : Word) : (s.setWord a w).bay = s.bay := rfl
@[simp] theorem State.setWord_wdn (a : Nat) (w : Word) : (s.setWord a w).wdn = s.wdn := rfl
@[simp] theorem State.setWord_peer (a : Nat) (w : Word) : (s.setWord a w).peer = s.peer := rfl
@[simp] theorem State.setWord_pwr (a : Nat) (w : Word) : (s.setWord a w).pwr = s.pwr := rfl
@[simp] theorem State.setWord_mgt (a : Nat) (w : Word) : (s.setWord a w).mgt = s.mgt := rfl
@[simp] theorem State.setWord_glb (a : Nat) (w : Word) : (s.setWord a w).glb = s.glb := rfl
@[simp] theorem State.setWord_fuses (a : Nat) (w : Word) : (s.setWord a w).fuses = s.fuses := rfl
@[simp] theorem State.setWord_flash (a : Nat) (w : Word) : (s.setWord a w).flash = s.flash := rfl
@[simp] theorem State.setWord_pending (a : Nat) (w : Word) : (s.setWord a w).pending = s.pending := rfl

/-! ### A register field -/

@[simp] theorem State.setFld_snaps (f : Fld) (v : Nat) : (s.setFld f v).snaps = s.snaps := rfl
@[simp] theorem State.setFld_heldLow (f : Fld) (v : Nat) : (s.setFld f v).heldLow = s.heldLow := rfl
@[simp] theorem State.setFld_answer (f : Fld) (v : Nat) : (s.setFld f v).answer = s.answer := rfl
@[simp] theorem State.setFld_now (f : Fld) (v : Nat) : (s.setFld f v).now = s.now := rfl
@[simp] theorem State.setFld_free (f : Fld) (v : Nat) : (s.setFld f v).free = s.free := rfl
@[simp] theorem State.setFld_served (f : Fld) (v : Nat) : (s.setFld f v).served = s.served := rfl
@[simp] theorem State.setFld_inv (f : Fld) (v : Nat) : (s.setFld f v).inv = s.inv := rfl
@[simp] theorem State.setFld_hst (f : Fld) (v : Nat) : (s.setFld f v).hst = s.hst := rfl
@[simp] theorem State.setFld_trn (f : Fld) (v : Nat) : (s.setFld f v).trn = s.trn := rfl
@[simp] theorem State.setFld_win (f : Fld) (v : Nat) : (s.setFld f v).win = s.win := rfl
@[simp] theorem State.setFld_cq (f : Fld) (v : Nat) : (s.setFld f v).cq = s.cq := rfl
@[simp] theorem State.setFld_vol (f : Fld) (v : Nat) : (s.setFld f v).vol = s.vol := rfl
@[simp] theorem State.setFld_str (f : Fld) (v : Nat) : (s.setFld f v).str = s.str := rfl
@[simp] theorem State.setFld_attic (f : Fld) (v : Nat) : (s.setFld f v).attic = s.attic := rfl
@[simp] theorem State.setFld_rbd (f : Fld) (v : Nat) : (s.setFld f v).rbd = s.rbd := rfl
@[simp] theorem State.setFld_rsv (f : Fld) (v : Nat) : (s.setFld f v).rsv = s.rsv := rfl
@[simp] theorem State.setFld_cip (f : Fld) (v : Nat) : (s.setFld f v).cip = s.cip := rfl
@[simp] theorem State.setFld_mac (f : Fld) (v : Nat) : (s.setFld f v).mac = s.mac := rfl
@[simp] theorem State.setFld_tc (f : Fld) (v : Nat) : (s.setFld f v).tc = s.tc := rfl
@[simp] theorem State.setFld_drv (f : Fld) (v : Nat) : (s.setFld f v).drv = s.drv := rfl
@[simp] theorem State.setFld_drives (f : Fld) (v : Nat) : (s.setFld f v).drives = s.drives := rfl
@[simp] theorem State.setFld_bay (f : Fld) (v : Nat) : (s.setFld f v).bay = s.bay := rfl
@[simp] theorem State.setFld_wdn (f : Fld) (v : Nat) : (s.setFld f v).wdn = s.wdn := rfl
@[simp] theorem State.setFld_peer (f : Fld) (v : Nat) : (s.setFld f v).peer = s.peer := rfl
@[simp] theorem State.setFld_pwr (f : Fld) (v : Nat) : (s.setFld f v).pwr = s.pwr := rfl
@[simp] theorem State.setFld_mgt (f : Fld) (v : Nat) : (s.setFld f v).mgt = s.mgt := rfl
@[simp] theorem State.setFld_glb (f : Fld) (v : Nat) : (s.setFld f v).glb = s.glb := rfl
@[simp] theorem State.setFld_fuses (f : Fld) (v : Nat) : (s.setFld f v).fuses = s.fuses := rfl
@[simp] theorem State.setFld_flash (f : Fld) (v : Nat) : (s.setFld f v).flash = s.flash := rfl
@[simp] theorem State.setFld_pending (f : Fld) (v : Nat) : (s.setFld f v).pending = s.pending := rfl

/-! ### A register pair -/

@[simp] theorem State.setPair_snaps (a v : Nat) : (s.setPair a v).snaps = s.snaps := rfl
@[simp] theorem State.setPair_heldLow (a v : Nat) : (s.setPair a v).heldLow = s.heldLow := rfl
@[simp] theorem State.setPair_answer (a v : Nat) : (s.setPair a v).answer = s.answer := rfl
@[simp] theorem State.setPair_now (a v : Nat) : (s.setPair a v).now = s.now := rfl
@[simp] theorem State.setPair_free (a v : Nat) : (s.setPair a v).free = s.free := rfl
@[simp] theorem State.setPair_served (a v : Nat) : (s.setPair a v).served = s.served := rfl
@[simp] theorem State.setPair_inv (a v : Nat) : (s.setPair a v).inv = s.inv := rfl
@[simp] theorem State.setPair_hst (a v : Nat) : (s.setPair a v).hst = s.hst := rfl
@[simp] theorem State.setPair_trn (a v : Nat) : (s.setPair a v).trn = s.trn := rfl
@[simp] theorem State.setPair_win (a v : Nat) : (s.setPair a v).win = s.win := rfl
@[simp] theorem State.setPair_cq (a v : Nat) : (s.setPair a v).cq = s.cq := rfl
@[simp] theorem State.setPair_vol (a v : Nat) : (s.setPair a v).vol = s.vol := rfl
@[simp] theorem State.setPair_str (a v : Nat) : (s.setPair a v).str = s.str := rfl
@[simp] theorem State.setPair_attic (a v : Nat) : (s.setPair a v).attic = s.attic := rfl
@[simp] theorem State.setPair_rbd (a v : Nat) : (s.setPair a v).rbd = s.rbd := rfl
@[simp] theorem State.setPair_rsv (a v : Nat) : (s.setPair a v).rsv = s.rsv := rfl
@[simp] theorem State.setPair_cip (a v : Nat) : (s.setPair a v).cip = s.cip := rfl
@[simp] theorem State.setPair_mac (a v : Nat) : (s.setPair a v).mac = s.mac := rfl
@[simp] theorem State.setPair_tc (a v : Nat) : (s.setPair a v).tc = s.tc := rfl
@[simp] theorem State.setPair_drv (a v : Nat) : (s.setPair a v).drv = s.drv := rfl
@[simp] theorem State.setPair_drives (a v : Nat) : (s.setPair a v).drives = s.drives := rfl
@[simp] theorem State.setPair_bay (a v : Nat) : (s.setPair a v).bay = s.bay := rfl
@[simp] theorem State.setPair_wdn (a v : Nat) : (s.setPair a v).wdn = s.wdn := rfl
@[simp] theorem State.setPair_peer (a v : Nat) : (s.setPair a v).peer = s.peer := rfl
@[simp] theorem State.setPair_pwr (a v : Nat) : (s.setPair a v).pwr = s.pwr := rfl
@[simp] theorem State.setPair_mgt (a v : Nat) : (s.setPair a v).mgt = s.mgt := rfl
@[simp] theorem State.setPair_glb (a v : Nat) : (s.setPair a v).glb = s.glb := rfl
@[simp] theorem State.setPair_fuses (a v : Nat) : (s.setPair a v).fuses = s.fuses := rfl
@[simp] theorem State.setPair_flash (a v : Nat) : (s.setPair a v).flash = s.flash := rfl
@[simp] theorem State.setPair_pending (a v : Nat) : (s.setPair a v).pending = s.pending := rfl

/-! ### A counter -/

@[simp] theorem State.bump_snaps (a n : Nat) : (s.bump a n).snaps = s.snaps := rfl
@[simp] theorem State.bump_heldLow (a n : Nat) : (s.bump a n).heldLow = s.heldLow := rfl
@[simp] theorem State.bump_answer (a n : Nat) : (s.bump a n).answer = s.answer := rfl
@[simp] theorem State.bump_now (a n : Nat) : (s.bump a n).now = s.now := rfl
@[simp] theorem State.bump_free (a n : Nat) : (s.bump a n).free = s.free := rfl
@[simp] theorem State.bump_served (a n : Nat) : (s.bump a n).served = s.served := rfl
@[simp] theorem State.bump_inv (a n : Nat) : (s.bump a n).inv = s.inv := rfl
@[simp] theorem State.bump_hst (a n : Nat) : (s.bump a n).hst = s.hst := rfl
@[simp] theorem State.bump_trn (a n : Nat) : (s.bump a n).trn = s.trn := rfl
@[simp] theorem State.bump_win (a n : Nat) : (s.bump a n).win = s.win := rfl
@[simp] theorem State.bump_cq (a n : Nat) : (s.bump a n).cq = s.cq := rfl
@[simp] theorem State.bump_vol (a n : Nat) : (s.bump a n).vol = s.vol := rfl
@[simp] theorem State.bump_str (a n : Nat) : (s.bump a n).str = s.str := rfl
@[simp] theorem State.bump_attic (a n : Nat) : (s.bump a n).attic = s.attic := rfl
@[simp] theorem State.bump_rbd (a n : Nat) : (s.bump a n).rbd = s.rbd := rfl
@[simp] theorem State.bump_rsv (a n : Nat) : (s.bump a n).rsv = s.rsv := rfl
@[simp] theorem State.bump_cip (a n : Nat) : (s.bump a n).cip = s.cip := rfl
@[simp] theorem State.bump_mac (a n : Nat) : (s.bump a n).mac = s.mac := rfl
@[simp] theorem State.bump_tc (a n : Nat) : (s.bump a n).tc = s.tc := rfl
@[simp] theorem State.bump_drv (a n : Nat) : (s.bump a n).drv = s.drv := rfl
@[simp] theorem State.bump_drives (a n : Nat) : (s.bump a n).drives = s.drives := rfl
@[simp] theorem State.bump_bay (a n : Nat) : (s.bump a n).bay = s.bay := rfl
@[simp] theorem State.bump_wdn (a n : Nat) : (s.bump a n).wdn = s.wdn := rfl
@[simp] theorem State.bump_peer (a n : Nat) : (s.bump a n).peer = s.peer := rfl
@[simp] theorem State.bump_pwr (a n : Nat) : (s.bump a n).pwr = s.pwr := rfl
@[simp] theorem State.bump_mgt (a n : Nat) : (s.bump a n).mgt = s.mgt := rfl
@[simp] theorem State.bump_glb (a n : Nat) : (s.bump a n).glb = s.glb := rfl
@[simp] theorem State.bump_fuses (a n : Nat) : (s.bump a n).fuses = s.fuses := rfl
@[simp] theorem State.bump_flash (a n : Nat) : (s.bump a n).flash = s.flash := rfl
@[simp] theorem State.bump_pending (a n : Nat) : (s.bump a n).pending = s.pending := rfl

/-! ### A saturating field -/

@[simp] theorem State.satAdd_snaps (f : Fld) (n : Nat) : (s.satAdd f n).snaps = s.snaps := rfl
@[simp] theorem State.satAdd_heldLow (f : Fld) (n : Nat) : (s.satAdd f n).heldLow = s.heldLow := rfl
@[simp] theorem State.satAdd_answer (f : Fld) (n : Nat) : (s.satAdd f n).answer = s.answer := rfl
@[simp] theorem State.satAdd_now (f : Fld) (n : Nat) : (s.satAdd f n).now = s.now := rfl
@[simp] theorem State.satAdd_free (f : Fld) (n : Nat) : (s.satAdd f n).free = s.free := rfl
@[simp] theorem State.satAdd_served (f : Fld) (n : Nat) : (s.satAdd f n).served = s.served := rfl
@[simp] theorem State.satAdd_inv (f : Fld) (n : Nat) : (s.satAdd f n).inv = s.inv := rfl
@[simp] theorem State.satAdd_hst (f : Fld) (n : Nat) : (s.satAdd f n).hst = s.hst := rfl
@[simp] theorem State.satAdd_trn (f : Fld) (n : Nat) : (s.satAdd f n).trn = s.trn := rfl
@[simp] theorem State.satAdd_win (f : Fld) (n : Nat) : (s.satAdd f n).win = s.win := rfl
@[simp] theorem State.satAdd_cq (f : Fld) (n : Nat) : (s.satAdd f n).cq = s.cq := rfl
@[simp] theorem State.satAdd_vol (f : Fld) (n : Nat) : (s.satAdd f n).vol = s.vol := rfl
@[simp] theorem State.satAdd_str (f : Fld) (n : Nat) : (s.satAdd f n).str = s.str := rfl
@[simp] theorem State.satAdd_attic (f : Fld) (n : Nat) : (s.satAdd f n).attic = s.attic := rfl
@[simp] theorem State.satAdd_rbd (f : Fld) (n : Nat) : (s.satAdd f n).rbd = s.rbd := rfl
@[simp] theorem State.satAdd_rsv (f : Fld) (n : Nat) : (s.satAdd f n).rsv = s.rsv := rfl
@[simp] theorem State.satAdd_cip (f : Fld) (n : Nat) : (s.satAdd f n).cip = s.cip := rfl
@[simp] theorem State.satAdd_mac (f : Fld) (n : Nat) : (s.satAdd f n).mac = s.mac := rfl
@[simp] theorem State.satAdd_tc (f : Fld) (n : Nat) : (s.satAdd f n).tc = s.tc := rfl
@[simp] theorem State.satAdd_drv (f : Fld) (n : Nat) : (s.satAdd f n).drv = s.drv := rfl
@[simp] theorem State.satAdd_drives (f : Fld) (n : Nat) : (s.satAdd f n).drives = s.drives := rfl
@[simp] theorem State.satAdd_bay (f : Fld) (n : Nat) : (s.satAdd f n).bay = s.bay := rfl
@[simp] theorem State.satAdd_wdn (f : Fld) (n : Nat) : (s.satAdd f n).wdn = s.wdn := rfl
@[simp] theorem State.satAdd_peer (f : Fld) (n : Nat) : (s.satAdd f n).peer = s.peer := rfl
@[simp] theorem State.satAdd_pwr (f : Fld) (n : Nat) : (s.satAdd f n).pwr = s.pwr := rfl
@[simp] theorem State.satAdd_mgt (f : Fld) (n : Nat) : (s.satAdd f n).mgt = s.mgt := rfl
@[simp] theorem State.satAdd_glb (f : Fld) (n : Nat) : (s.satAdd f n).glb = s.glb := rfl
@[simp] theorem State.satAdd_fuses (f : Fld) (n : Nat) : (s.satAdd f n).fuses = s.fuses := rfl
@[simp] theorem State.satAdd_flash (f : Fld) (n : Nat) : (s.satAdd f n).flash = s.flash := rfl
@[simp] theorem State.satAdd_pending (f : Fld) (n : Nat) : (s.satAdd f n).pending = s.pending := rfl

/-! ### A high-water field -/

@[simp] theorem State.maxFld_snaps (f : Fld) (v : Nat) : (s.maxFld f v).snaps = s.snaps := rfl
@[simp] theorem State.maxFld_heldLow (f : Fld) (v : Nat) : (s.maxFld f v).heldLow = s.heldLow := rfl
@[simp] theorem State.maxFld_answer (f : Fld) (v : Nat) : (s.maxFld f v).answer = s.answer := rfl
@[simp] theorem State.maxFld_now (f : Fld) (v : Nat) : (s.maxFld f v).now = s.now := rfl
@[simp] theorem State.maxFld_free (f : Fld) (v : Nat) : (s.maxFld f v).free = s.free := rfl
@[simp] theorem State.maxFld_served (f : Fld) (v : Nat) : (s.maxFld f v).served = s.served := rfl
@[simp] theorem State.maxFld_inv (f : Fld) (v : Nat) : (s.maxFld f v).inv = s.inv := rfl
@[simp] theorem State.maxFld_hst (f : Fld) (v : Nat) : (s.maxFld f v).hst = s.hst := rfl
@[simp] theorem State.maxFld_trn (f : Fld) (v : Nat) : (s.maxFld f v).trn = s.trn := rfl
@[simp] theorem State.maxFld_win (f : Fld) (v : Nat) : (s.maxFld f v).win = s.win := rfl
@[simp] theorem State.maxFld_cq (f : Fld) (v : Nat) : (s.maxFld f v).cq = s.cq := rfl
@[simp] theorem State.maxFld_vol (f : Fld) (v : Nat) : (s.maxFld f v).vol = s.vol := rfl
@[simp] theorem State.maxFld_str (f : Fld) (v : Nat) : (s.maxFld f v).str = s.str := rfl
@[simp] theorem State.maxFld_attic (f : Fld) (v : Nat) : (s.maxFld f v).attic = s.attic := rfl
@[simp] theorem State.maxFld_rbd (f : Fld) (v : Nat) : (s.maxFld f v).rbd = s.rbd := rfl
@[simp] theorem State.maxFld_rsv (f : Fld) (v : Nat) : (s.maxFld f v).rsv = s.rsv := rfl
@[simp] theorem State.maxFld_cip (f : Fld) (v : Nat) : (s.maxFld f v).cip = s.cip := rfl
@[simp] theorem State.maxFld_mac (f : Fld) (v : Nat) : (s.maxFld f v).mac = s.mac := rfl
@[simp] theorem State.maxFld_tc (f : Fld) (v : Nat) : (s.maxFld f v).tc = s.tc := rfl
@[simp] theorem State.maxFld_drv (f : Fld) (v : Nat) : (s.maxFld f v).drv = s.drv := rfl
@[simp] theorem State.maxFld_drives (f : Fld) (v : Nat) : (s.maxFld f v).drives = s.drives := rfl
@[simp] theorem State.maxFld_bay (f : Fld) (v : Nat) : (s.maxFld f v).bay = s.bay := rfl
@[simp] theorem State.maxFld_wdn (f : Fld) (v : Nat) : (s.maxFld f v).wdn = s.wdn := rfl
@[simp] theorem State.maxFld_peer (f : Fld) (v : Nat) : (s.maxFld f v).peer = s.peer := rfl
@[simp] theorem State.maxFld_pwr (f : Fld) (v : Nat) : (s.maxFld f v).pwr = s.pwr := rfl
@[simp] theorem State.maxFld_mgt (f : Fld) (v : Nat) : (s.maxFld f v).mgt = s.mgt := rfl
@[simp] theorem State.maxFld_glb (f : Fld) (v : Nat) : (s.maxFld f v).glb = s.glb := rfl
@[simp] theorem State.maxFld_fuses (f : Fld) (v : Nat) : (s.maxFld f v).fuses = s.fuses := rfl
@[simp] theorem State.maxFld_flash (f : Fld) (v : Nat) : (s.maxFld f v).flash = s.flash := rfl
@[simp] theorem State.maxFld_pending (f : Fld) (v : Nat) : (s.maxFld f v).pending = s.pending := rfl

/-! ### A status flag -/

@[simp] theorem State.flag_snaps (f : Fld) : (s.flag f).snaps = s.snaps := rfl
@[simp] theorem State.flag_heldLow (f : Fld) : (s.flag f).heldLow = s.heldLow := rfl
@[simp] theorem State.flag_answer (f : Fld) : (s.flag f).answer = s.answer := rfl
@[simp] theorem State.flag_now (f : Fld) : (s.flag f).now = s.now := rfl
@[simp] theorem State.flag_free (f : Fld) : (s.flag f).free = s.free := rfl
@[simp] theorem State.flag_served (f : Fld) : (s.flag f).served = s.served := rfl
@[simp] theorem State.flag_inv (f : Fld) : (s.flag f).inv = s.inv := rfl
@[simp] theorem State.flag_hst (f : Fld) : (s.flag f).hst = s.hst := rfl
@[simp] theorem State.flag_trn (f : Fld) : (s.flag f).trn = s.trn := rfl
@[simp] theorem State.flag_win (f : Fld) : (s.flag f).win = s.win := rfl
@[simp] theorem State.flag_cq (f : Fld) : (s.flag f).cq = s.cq := rfl
@[simp] theorem State.flag_vol (f : Fld) : (s.flag f).vol = s.vol := rfl
@[simp] theorem State.flag_str (f : Fld) : (s.flag f).str = s.str := rfl
@[simp] theorem State.flag_attic (f : Fld) : (s.flag f).attic = s.attic := rfl
@[simp] theorem State.flag_rbd (f : Fld) : (s.flag f).rbd = s.rbd := rfl
@[simp] theorem State.flag_rsv (f : Fld) : (s.flag f).rsv = s.rsv := rfl
@[simp] theorem State.flag_cip (f : Fld) : (s.flag f).cip = s.cip := rfl
@[simp] theorem State.flag_mac (f : Fld) : (s.flag f).mac = s.mac := rfl
@[simp] theorem State.flag_tc (f : Fld) : (s.flag f).tc = s.tc := rfl
@[simp] theorem State.flag_drv (f : Fld) : (s.flag f).drv = s.drv := rfl
@[simp] theorem State.flag_drives (f : Fld) : (s.flag f).drives = s.drives := rfl
@[simp] theorem State.flag_bay (f : Fld) : (s.flag f).bay = s.bay := rfl
@[simp] theorem State.flag_wdn (f : Fld) : (s.flag f).wdn = s.wdn := rfl
@[simp] theorem State.flag_peer (f : Fld) : (s.flag f).peer = s.peer := rfl
@[simp] theorem State.flag_pwr (f : Fld) : (s.flag f).pwr = s.pwr := rfl
@[simp] theorem State.flag_mgt (f : Fld) : (s.flag f).mgt = s.mgt := rfl
@[simp] theorem State.flag_glb (f : Fld) : (s.flag f).glb = s.glb := rfl
@[simp] theorem State.flag_fuses (f : Fld) : (s.flag f).fuses = s.fuses := rfl
@[simp] theorem State.flag_flash (f : Fld) : (s.flag f).flash = s.flash := rfl
@[simp] theorem State.flag_pending (f : Fld) : (s.flag f).pending = s.pending := rfl

/-! ### An event to the Wardens -/

@[simp] theorem State.event_regs (e : Event) : (s.event e).regs = s.regs := rfl
@[simp] theorem State.event_snaps (e : Event) : (s.event e).snaps = s.snaps := rfl
@[simp] theorem State.event_heldLow (e : Event) : (s.event e).heldLow = s.heldLow := rfl
@[simp] theorem State.event_answer (e : Event) : (s.event e).answer = s.answer := rfl
@[simp] theorem State.event_now (e : Event) : (s.event e).now = s.now := rfl
@[simp] theorem State.event_free (e : Event) : (s.event e).free = s.free := rfl
@[simp] theorem State.event_served (e : Event) : (s.event e).served = s.served := rfl
@[simp] theorem State.event_inv (e : Event) : (s.event e).inv = s.inv := rfl
@[simp] theorem State.event_hst (e : Event) : (s.event e).hst = s.hst := rfl
@[simp] theorem State.event_trn (e : Event) : (s.event e).trn = s.trn := rfl
@[simp] theorem State.event_win (e : Event) : (s.event e).win = s.win := rfl
@[simp] theorem State.event_cq (e : Event) : (s.event e).cq = s.cq := rfl
@[simp] theorem State.event_vol (e : Event) : (s.event e).vol = s.vol := rfl
@[simp] theorem State.event_str (e : Event) : (s.event e).str = s.str := rfl
@[simp] theorem State.event_attic (e : Event) : (s.event e).attic = s.attic := rfl
@[simp] theorem State.event_rbd (e : Event) : (s.event e).rbd = s.rbd := rfl
@[simp] theorem State.event_rsv (e : Event) : (s.event e).rsv = s.rsv := rfl
@[simp] theorem State.event_cip (e : Event) : (s.event e).cip = s.cip := rfl
@[simp] theorem State.event_mac (e : Event) : (s.event e).mac = s.mac := rfl
@[simp] theorem State.event_tc (e : Event) : (s.event e).tc = s.tc := rfl
@[simp] theorem State.event_drv (e : Event) : (s.event e).drv = s.drv := rfl
@[simp] theorem State.event_drives (e : Event) : (s.event e).drives = s.drives := rfl
@[simp] theorem State.event_bay (e : Event) : (s.event e).bay = s.bay := rfl
@[simp] theorem State.event_peer (e : Event) : (s.event e).peer = s.peer := rfl
@[simp] theorem State.event_pwr (e : Event) : (s.event e).pwr = s.pwr := rfl
@[simp] theorem State.event_mgt (e : Event) : (s.event e).mgt = s.mgt := rfl
@[simp] theorem State.event_glb (e : Event) : (s.event e).glb = s.glb := rfl
@[simp] theorem State.event_fuses (e : Event) : (s.event e).fuses = s.fuses := rfl
@[simp] theorem State.event_flash (e : Event) : (s.event e).flash = s.flash := rfl
@[simp] theorem State.event_pending (e : Event) : (s.event e).pending = s.pending := rfl

/-! ### The Tally -/

/-- A change made under a condition leaves in a field what both outcomes leave. -/
theorem State.when_same {α : Type} (b : Bool) (f : State → State) (p : State → α) (h : p (f s) = p s) : p (s.when b f) = p s := by
  cases b <;> simp [State.when, h]

/-- A fold of changes that each keep a value keeps it. -/
theorem State.each_same {α β : Type} (l : List α) (f : State → α → State) (p : State → β)
    (h : ∀ s, ∀ a ∈ l, p (f s a) = p s) : p (s.each l f) = p s := by
  induction l generalizing s with
  | nil => rfl
  | cons a t ih =>
    show p (State.each (f s a) t f) = p s
    rw [ih _ fun s b hb => h s b (List.mem_cons_of_mem _ hb), h s a (List.mem_cons_self ..)]

@[simp] theorem State.tallyPut_snaps (r : BitVec 512) : (s.tallyPut r).snaps = s.snaps := by
  unfold State.tallyPut; dsimp only; split <;> rfl
@[simp] theorem State.tallyPut_heldLow (r : BitVec 512) : (s.tallyPut r).heldLow = s.heldLow := by
  unfold State.tallyPut; dsimp only; split <;> rfl
@[simp] theorem State.tallyPut_answer (r : BitVec 512) : (s.tallyPut r).answer = s.answer := by
  unfold State.tallyPut; dsimp only; split <;> rfl
@[simp] theorem State.tallyPut_now (r : BitVec 512) : (s.tallyPut r).now = s.now := by
  unfold State.tallyPut; dsimp only; split <;> rfl
@[simp] theorem State.tallyPut_free (r : BitVec 512) : (s.tallyPut r).free = s.free := by
  unfold State.tallyPut; dsimp only; split <;> rfl
@[simp] theorem State.tallyPut_served (r : BitVec 512) : (s.tallyPut r).served = s.served := by
  unfold State.tallyPut; dsimp only; split <;> rfl
@[simp] theorem State.tallyPut_inv (r : BitVec 512) : (s.tallyPut r).inv = s.inv := by
  unfold State.tallyPut; dsimp only; split <;> rfl
@[simp] theorem State.tallyPut_hst (r : BitVec 512) : (s.tallyPut r).hst = s.hst := by
  unfold State.tallyPut; dsimp only; split <;> rfl
@[simp] theorem State.tallyPut_trn (r : BitVec 512) : (s.tallyPut r).trn = s.trn := by
  unfold State.tallyPut; dsimp only; split <;> rfl
@[simp] theorem State.tallyPut_win (r : BitVec 512) : (s.tallyPut r).win = s.win := by
  unfold State.tallyPut; dsimp only; split <;> rfl
@[simp] theorem State.tallyPut_cq (r : BitVec 512) : (s.tallyPut r).cq = s.cq := by
  unfold State.tallyPut; dsimp only; split <;> rfl
@[simp] theorem State.tallyPut_vol (r : BitVec 512) : (s.tallyPut r).vol = s.vol := by
  unfold State.tallyPut; dsimp only; split <;> rfl
@[simp] theorem State.tallyPut_str (r : BitVec 512) : (s.tallyPut r).str = s.str := by
  unfold State.tallyPut; dsimp only; split <;> rfl
@[simp] theorem State.tallyPut_attic (r : BitVec 512) : (s.tallyPut r).attic = s.attic := by
  unfold State.tallyPut; dsimp only; split <;> rfl
@[simp] theorem State.tallyPut_rbd (r : BitVec 512) : (s.tallyPut r).rbd = s.rbd := by
  unfold State.tallyPut; dsimp only; split <;> rfl
@[simp] theorem State.tallyPut_rsv (r : BitVec 512) : (s.tallyPut r).rsv = s.rsv := by
  unfold State.tallyPut; dsimp only; split <;> rfl
@[simp] theorem State.tallyPut_cip (r : BitVec 512) : (s.tallyPut r).cip = s.cip := by
  unfold State.tallyPut; dsimp only; split <;> rfl
@[simp] theorem State.tallyPut_mac (r : BitVec 512) : (s.tallyPut r).mac = s.mac := by
  unfold State.tallyPut; dsimp only; split <;> rfl
@[simp] theorem State.tallyPut_tc (r : BitVec 512) : (s.tallyPut r).tc = s.tc := by
  unfold State.tallyPut; dsimp only; split <;> rfl
@[simp] theorem State.tallyPut_drv (r : BitVec 512) : (s.tallyPut r).drv = s.drv := by
  unfold State.tallyPut; dsimp only; split <;> rfl
@[simp] theorem State.tallyPut_drives (r : BitVec 512) : (s.tallyPut r).drives = s.drives := by
  unfold State.tallyPut; dsimp only; split <;> rfl
@[simp] theorem State.tallyPut_bay (r : BitVec 512) : (s.tallyPut r).bay = s.bay := by
  unfold State.tallyPut; dsimp only; split <;> rfl
@[simp] theorem State.tallyPut_wdn (r : BitVec 512) : (s.tallyPut r).wdn = s.wdn := by
  unfold State.tallyPut; dsimp only; split <;> rfl
@[simp] theorem State.tallyPut_peer (r : BitVec 512) : (s.tallyPut r).peer = s.peer := by
  unfold State.tallyPut; dsimp only; split <;> rfl
@[simp] theorem State.tallyPut_pwr (r : BitVec 512) : (s.tallyPut r).pwr = s.pwr := by
  unfold State.tallyPut; dsimp only; split <;> rfl
@[simp] theorem State.tallyPut_glb (r : BitVec 512) : (s.tallyPut r).glb = s.glb := by
  unfold State.tallyPut; dsimp only; split <;> rfl
@[simp] theorem State.tallyPut_fuses (r : BitVec 512) : (s.tallyPut r).fuses = s.fuses := by
  unfold State.tallyPut; dsimp only; split <;> rfl
@[simp] theorem State.tallyPut_flash (r : BitVec 512) : (s.tallyPut r).flash = s.flash := by
  unfold State.tallyPut; dsimp only; split <;> rfl
@[simp] theorem State.tallyPut_pending (r : BitVec 512) : (s.tallyPut r).pending = s.pending := by
  unfold State.tallyPut; dsimp only; split <;> rfl
@[simp] theorem State.tallyFrame_snaps (c : Nat) (r : BitVec 512) : (s.tallyFrame c r).snaps = s.snaps := by
  unfold State.tallyFrame; split <;> [split; skip] <;> rfl
@[simp] theorem State.tallyFrame_heldLow (c : Nat) (r : BitVec 512) : (s.tallyFrame c r).heldLow = s.heldLow := by
  unfold State.tallyFrame; split <;> [split; skip] <;> rfl
@[simp] theorem State.tallyFrame_answer (c : Nat) (r : BitVec 512) : (s.tallyFrame c r).answer = s.answer := by
  unfold State.tallyFrame; split <;> [split; skip] <;> rfl
@[simp] theorem State.tallyFrame_now (c : Nat) (r : BitVec 512) : (s.tallyFrame c r).now = s.now := by
  unfold State.tallyFrame; split <;> [split; skip] <;> rfl
@[simp] theorem State.tallyFrame_free (c : Nat) (r : BitVec 512) : (s.tallyFrame c r).free = s.free := by
  unfold State.tallyFrame; split <;> [split; skip] <;> rfl
@[simp] theorem State.tallyFrame_served (c : Nat) (r : BitVec 512) : (s.tallyFrame c r).served = s.served := by
  unfold State.tallyFrame; split <;> [split; skip] <;> rfl
@[simp] theorem State.tallyFrame_inv (c : Nat) (r : BitVec 512) : (s.tallyFrame c r).inv = s.inv := by
  unfold State.tallyFrame; split <;> [split; skip] <;> rfl
@[simp] theorem State.tallyFrame_hst (c : Nat) (r : BitVec 512) : (s.tallyFrame c r).hst = s.hst := by
  unfold State.tallyFrame; split <;> [split; skip] <;> rfl
@[simp] theorem State.tallyFrame_trn (c : Nat) (r : BitVec 512) : (s.tallyFrame c r).trn = s.trn := by
  unfold State.tallyFrame; split <;> [split; skip] <;> rfl
@[simp] theorem State.tallyFrame_win (c : Nat) (r : BitVec 512) : (s.tallyFrame c r).win = s.win := by
  unfold State.tallyFrame; split <;> [split; skip] <;> rfl
@[simp] theorem State.tallyFrame_cq (c : Nat) (r : BitVec 512) : (s.tallyFrame c r).cq = s.cq := by
  unfold State.tallyFrame; split <;> [split; skip] <;> rfl
@[simp] theorem State.tallyFrame_vol (c : Nat) (r : BitVec 512) : (s.tallyFrame c r).vol = s.vol := by
  unfold State.tallyFrame; split <;> [split; skip] <;> rfl
@[simp] theorem State.tallyFrame_str (c : Nat) (r : BitVec 512) : (s.tallyFrame c r).str = s.str := by
  unfold State.tallyFrame; split <;> [split; skip] <;> rfl
@[simp] theorem State.tallyFrame_attic (c : Nat) (r : BitVec 512) : (s.tallyFrame c r).attic = s.attic := by
  unfold State.tallyFrame; split <;> [split; skip] <;> rfl
@[simp] theorem State.tallyFrame_rbd (c : Nat) (r : BitVec 512) : (s.tallyFrame c r).rbd = s.rbd := by
  unfold State.tallyFrame; split <;> [split; skip] <;> rfl
@[simp] theorem State.tallyFrame_rsv (c : Nat) (r : BitVec 512) : (s.tallyFrame c r).rsv = s.rsv := by
  unfold State.tallyFrame; split <;> [split; skip] <;> rfl
@[simp] theorem State.tallyFrame_cip (c : Nat) (r : BitVec 512) : (s.tallyFrame c r).cip = s.cip := by
  unfold State.tallyFrame; split <;> [split; skip] <;> rfl
@[simp] theorem State.tallyFrame_mac (c : Nat) (r : BitVec 512) : (s.tallyFrame c r).mac = s.mac := by
  unfold State.tallyFrame; split <;> [split; skip] <;> rfl
@[simp] theorem State.tallyFrame_tc (c : Nat) (r : BitVec 512) : (s.tallyFrame c r).tc = s.tc := by
  unfold State.tallyFrame; split <;> [split; skip] <;> rfl
@[simp] theorem State.tallyFrame_drv (c : Nat) (r : BitVec 512) : (s.tallyFrame c r).drv = s.drv := by
  unfold State.tallyFrame; split <;> [split; skip] <;> rfl
@[simp] theorem State.tallyFrame_drives (c : Nat) (r : BitVec 512) : (s.tallyFrame c r).drives = s.drives := by
  unfold State.tallyFrame; split <;> [split; skip] <;> rfl
@[simp] theorem State.tallyFrame_bay (c : Nat) (r : BitVec 512) : (s.tallyFrame c r).bay = s.bay := by
  unfold State.tallyFrame; split <;> [split; skip] <;> rfl
@[simp] theorem State.tallyFrame_wdn (c : Nat) (r : BitVec 512) : (s.tallyFrame c r).wdn = s.wdn := by
  unfold State.tallyFrame; split <;> [split; skip] <;> rfl
@[simp] theorem State.tallyFrame_peer (c : Nat) (r : BitVec 512) : (s.tallyFrame c r).peer = s.peer := by
  unfold State.tallyFrame; split <;> [split; skip] <;> rfl
@[simp] theorem State.tallyFrame_pwr (c : Nat) (r : BitVec 512) : (s.tallyFrame c r).pwr = s.pwr := by
  unfold State.tallyFrame; split <;> [split; skip] <;> rfl
@[simp] theorem State.tallyFrame_glb (c : Nat) (r : BitVec 512) : (s.tallyFrame c r).glb = s.glb := by
  unfold State.tallyFrame; split <;> [split; skip] <;> rfl
@[simp] theorem State.tallyFrame_fuses (c : Nat) (r : BitVec 512) : (s.tallyFrame c r).fuses = s.fuses := by
  unfold State.tallyFrame; split <;> [split; skip] <;> rfl
@[simp] theorem State.tallyFrame_flash (c : Nat) (r : BitVec 512) : (s.tallyFrame c r).flash = s.flash := by
  unfold State.tallyFrame; split <;> [split; skip] <;> rfl
@[simp] theorem State.tallyFrame_pending (c : Nat) (r : BitVec 512) : (s.tallyFrame c r).pending = s.pending := by
  unfold State.tallyFrame; split <;> [split; skip] <;> rfl
@[simp] theorem State.tallyRaw_snaps (b c k i : Nat) (l : List Nat) : (s.tallyRaw b c k i l).snaps = s.snaps := by
  unfold State.tallyRaw; dsimp only; split <;> simp
@[simp] theorem State.tallyRaw_heldLow (b c k i : Nat) (l : List Nat) : (s.tallyRaw b c k i l).heldLow = s.heldLow := by
  unfold State.tallyRaw; dsimp only; split <;> simp
@[simp] theorem State.tallyRaw_answer (b c k i : Nat) (l : List Nat) : (s.tallyRaw b c k i l).answer = s.answer := by
  unfold State.tallyRaw; dsimp only; split <;> simp
@[simp] theorem State.tallyRaw_now (b c k i : Nat) (l : List Nat) : (s.tallyRaw b c k i l).now = s.now := by
  unfold State.tallyRaw; dsimp only; split <;> simp
@[simp] theorem State.tallyRaw_free (b c k i : Nat) (l : List Nat) : (s.tallyRaw b c k i l).free = s.free := by
  unfold State.tallyRaw; dsimp only; split <;> simp
@[simp] theorem State.tallyRaw_served (b c k i : Nat) (l : List Nat) : (s.tallyRaw b c k i l).served = s.served := by
  unfold State.tallyRaw; dsimp only; split <;> simp
@[simp] theorem State.tallyRaw_inv (b c k i : Nat) (l : List Nat) : (s.tallyRaw b c k i l).inv = s.inv := by
  unfold State.tallyRaw; dsimp only; split <;> simp
@[simp] theorem State.tallyRaw_hst (b c k i : Nat) (l : List Nat) : (s.tallyRaw b c k i l).hst = s.hst := by
  unfold State.tallyRaw; dsimp only; split <;> simp
@[simp] theorem State.tallyRaw_trn (b c k i : Nat) (l : List Nat) : (s.tallyRaw b c k i l).trn = s.trn := by
  unfold State.tallyRaw; dsimp only; split <;> simp
@[simp] theorem State.tallyRaw_win (b c k i : Nat) (l : List Nat) : (s.tallyRaw b c k i l).win = s.win := by
  unfold State.tallyRaw; dsimp only; split <;> simp
@[simp] theorem State.tallyRaw_cq (b c k i : Nat) (l : List Nat) : (s.tallyRaw b c k i l).cq = s.cq := by
  unfold State.tallyRaw; dsimp only; split <;> simp
@[simp] theorem State.tallyRaw_vol (b c k i : Nat) (l : List Nat) : (s.tallyRaw b c k i l).vol = s.vol := by
  unfold State.tallyRaw; dsimp only; split <;> simp
@[simp] theorem State.tallyRaw_str (b c k i : Nat) (l : List Nat) : (s.tallyRaw b c k i l).str = s.str := by
  unfold State.tallyRaw; dsimp only; split <;> simp
@[simp] theorem State.tallyRaw_attic (b c k i : Nat) (l : List Nat) : (s.tallyRaw b c k i l).attic = s.attic := by
  unfold State.tallyRaw; dsimp only; split <;> simp
@[simp] theorem State.tallyRaw_rbd (b c k i : Nat) (l : List Nat) : (s.tallyRaw b c k i l).rbd = s.rbd := by
  unfold State.tallyRaw; dsimp only; split <;> simp
@[simp] theorem State.tallyRaw_rsv (b c k i : Nat) (l : List Nat) : (s.tallyRaw b c k i l).rsv = s.rsv := by
  unfold State.tallyRaw; dsimp only; split <;> simp
@[simp] theorem State.tallyRaw_cip (b c k i : Nat) (l : List Nat) : (s.tallyRaw b c k i l).cip = s.cip := by
  unfold State.tallyRaw; dsimp only; split <;> simp
@[simp] theorem State.tallyRaw_mac (b c k i : Nat) (l : List Nat) : (s.tallyRaw b c k i l).mac = s.mac := by
  unfold State.tallyRaw; dsimp only; split <;> simp
@[simp] theorem State.tallyRaw_tc (b c k i : Nat) (l : List Nat) : (s.tallyRaw b c k i l).tc = s.tc := by
  unfold State.tallyRaw; dsimp only; split <;> simp
@[simp] theorem State.tallyRaw_drv (b c k i : Nat) (l : List Nat) : (s.tallyRaw b c k i l).drv = s.drv := by
  unfold State.tallyRaw; dsimp only; split <;> simp
@[simp] theorem State.tallyRaw_drives (b c k i : Nat) (l : List Nat) : (s.tallyRaw b c k i l).drives = s.drives := by
  unfold State.tallyRaw; dsimp only; split <;> simp
@[simp] theorem State.tallyRaw_bay (b c k i : Nat) (l : List Nat) : (s.tallyRaw b c k i l).bay = s.bay := by
  unfold State.tallyRaw; dsimp only; split <;> simp
@[simp] theorem State.tallyRaw_peer (b c k i : Nat) (l : List Nat) : (s.tallyRaw b c k i l).peer = s.peer := by
  unfold State.tallyRaw; dsimp only; split <;> simp
@[simp] theorem State.tallyRaw_pwr (b c k i : Nat) (l : List Nat) : (s.tallyRaw b c k i l).pwr = s.pwr := by
  unfold State.tallyRaw; dsimp only; split <;> simp
@[simp] theorem State.tallyRaw_glb (b c k i : Nat) (l : List Nat) : (s.tallyRaw b c k i l).glb = s.glb := by
  unfold State.tallyRaw; dsimp only; split <;> simp
@[simp] theorem State.tallyRaw_fuses (b c k i : Nat) (l : List Nat) : (s.tallyRaw b c k i l).fuses = s.fuses := by
  unfold State.tallyRaw; dsimp only; split <;> simp
@[simp] theorem State.tallyRaw_flash (b c k i : Nat) (l : List Nat) : (s.tallyRaw b c k i l).flash = s.flash := by
  unfold State.tallyRaw; dsimp only; split <;> simp
@[simp] theorem State.tallyRaw_pending (b c k i : Nat) (l : List Nat) : (s.tallyRaw b c k i l).pending = s.pending := by
  unfold State.tallyRaw; dsimp only; split <;> simp
@[simp] theorem State.tallyFlag_snaps (c : TallyClass) (f : Fld) (i : Nat) (l : List Nat) : (s.tallyFlag c f i l).snaps = s.snaps :=
    by
  simp [State.tallyFlag]
@[simp] theorem State.tallyFlag_heldLow (c : TallyClass) (f : Fld) (i : Nat) (l : List Nat) : (s.tallyFlag c f i l).heldLow = s.heldLow :=
    by
  simp [State.tallyFlag]
@[simp] theorem State.tallyFlag_answer (c : TallyClass) (f : Fld) (i : Nat) (l : List Nat) : (s.tallyFlag c f i l).answer = s.answer :=
    by
  simp [State.tallyFlag]
@[simp] theorem State.tallyFlag_now (c : TallyClass) (f : Fld) (i : Nat) (l : List Nat) : (s.tallyFlag c f i l).now = s.now := by
  simp [State.tallyFlag]
@[simp] theorem State.tallyFlag_free (c : TallyClass) (f : Fld) (i : Nat) (l : List Nat) : (s.tallyFlag c f i l).free = s.free := by
  simp [State.tallyFlag]
@[simp] theorem State.tallyFlag_served (c : TallyClass) (f : Fld) (i : Nat) (l : List Nat) : (s.tallyFlag c f i l).served = s.served :=
    by
  simp [State.tallyFlag]
@[simp] theorem State.tallyFlag_inv (c : TallyClass) (f : Fld) (i : Nat) (l : List Nat) : (s.tallyFlag c f i l).inv = s.inv := by
  simp [State.tallyFlag]
@[simp] theorem State.tallyFlag_hst (c : TallyClass) (f : Fld) (i : Nat) (l : List Nat) : (s.tallyFlag c f i l).hst = s.hst := by
  simp [State.tallyFlag]
@[simp] theorem State.tallyFlag_trn (c : TallyClass) (f : Fld) (i : Nat) (l : List Nat) : (s.tallyFlag c f i l).trn = s.trn := by
  simp [State.tallyFlag]
@[simp] theorem State.tallyFlag_win (c : TallyClass) (f : Fld) (i : Nat) (l : List Nat) : (s.tallyFlag c f i l).win = s.win := by
  simp [State.tallyFlag]
@[simp] theorem State.tallyFlag_cq (c : TallyClass) (f : Fld) (i : Nat) (l : List Nat) : (s.tallyFlag c f i l).cq = s.cq := by
  simp [State.tallyFlag]
@[simp] theorem State.tallyFlag_vol (c : TallyClass) (f : Fld) (i : Nat) (l : List Nat) : (s.tallyFlag c f i l).vol = s.vol := by
  simp [State.tallyFlag]
@[simp] theorem State.tallyFlag_str (c : TallyClass) (f : Fld) (i : Nat) (l : List Nat) : (s.tallyFlag c f i l).str = s.str := by
  simp [State.tallyFlag]
@[simp] theorem State.tallyFlag_attic (c : TallyClass) (f : Fld) (i : Nat) (l : List Nat) : (s.tallyFlag c f i l).attic = s.attic :=
    by
  simp [State.tallyFlag]
@[simp] theorem State.tallyFlag_rbd (c : TallyClass) (f : Fld) (i : Nat) (l : List Nat) : (s.tallyFlag c f i l).rbd = s.rbd := by
  simp [State.tallyFlag]
@[simp] theorem State.tallyFlag_rsv (c : TallyClass) (f : Fld) (i : Nat) (l : List Nat) : (s.tallyFlag c f i l).rsv = s.rsv := by
  simp [State.tallyFlag]
@[simp] theorem State.tallyFlag_cip (c : TallyClass) (f : Fld) (i : Nat) (l : List Nat) : (s.tallyFlag c f i l).cip = s.cip := by
  simp [State.tallyFlag]
@[simp] theorem State.tallyFlag_mac (c : TallyClass) (f : Fld) (i : Nat) (l : List Nat) : (s.tallyFlag c f i l).mac = s.mac := by
  simp [State.tallyFlag]
@[simp] theorem State.tallyFlag_tc (c : TallyClass) (f : Fld) (i : Nat) (l : List Nat) : (s.tallyFlag c f i l).tc = s.tc := by
  simp [State.tallyFlag]
@[simp] theorem State.tallyFlag_drv (c : TallyClass) (f : Fld) (i : Nat) (l : List Nat) : (s.tallyFlag c f i l).drv = s.drv := by
  simp [State.tallyFlag]
@[simp] theorem State.tallyFlag_drives (c : TallyClass) (f : Fld) (i : Nat) (l : List Nat) : (s.tallyFlag c f i l).drives = s.drives :=
    by
  simp [State.tallyFlag]
@[simp] theorem State.tallyFlag_bay (c : TallyClass) (f : Fld) (i : Nat) (l : List Nat) : (s.tallyFlag c f i l).bay = s.bay := by
  simp [State.tallyFlag]
@[simp] theorem State.tallyFlag_peer (c : TallyClass) (f : Fld) (i : Nat) (l : List Nat) : (s.tallyFlag c f i l).peer = s.peer := by
  simp [State.tallyFlag]
@[simp] theorem State.tallyFlag_pwr (c : TallyClass) (f : Fld) (i : Nat) (l : List Nat) : (s.tallyFlag c f i l).pwr = s.pwr := by
  simp [State.tallyFlag]
@[simp] theorem State.tallyFlag_glb (c : TallyClass) (f : Fld) (i : Nat) (l : List Nat) : (s.tallyFlag c f i l).glb = s.glb := by
  simp [State.tallyFlag]
@[simp] theorem State.tallyFlag_fuses (c : TallyClass) (f : Fld) (i : Nat) (l : List Nat) : (s.tallyFlag c f i l).fuses = s.fuses :=
    by
  simp [State.tallyFlag]
@[simp] theorem State.tallyFlag_flash (c : TallyClass) (f : Fld) (i : Nat) (l : List Nat) : (s.tallyFlag c f i l).flash = s.flash :=
    by
  simp [State.tallyFlag]
@[simp] theorem State.tallyFlag_pending (c : TallyClass) (f : Fld) (i : Nat) (l : List Nat) : (s.tallyFlag c f i l).pending = s.pending :=
    by
  simp [State.tallyFlag]
@[simp] theorem State.tallyEvent_snaps (c : TallyClass) (b n i : Nat) (l : List Nat) : (s.tallyEvent c b n i l).snaps = s.snaps :=
    by
  simp [State.tallyEvent]
@[simp] theorem State.tallyEvent_heldLow (c : TallyClass) (b n i : Nat) (l : List Nat) : (s.tallyEvent c b n i l).heldLow = s.heldLow :=
    by
  simp [State.tallyEvent]
@[simp] theorem State.tallyEvent_answer (c : TallyClass) (b n i : Nat) (l : List Nat) : (s.tallyEvent c b n i l).answer = s.answer :=
    by
  simp [State.tallyEvent]
@[simp] theorem State.tallyEvent_now (c : TallyClass) (b n i : Nat) (l : List Nat) : (s.tallyEvent c b n i l).now = s.now := by
  simp [State.tallyEvent]
@[simp] theorem State.tallyEvent_free (c : TallyClass) (b n i : Nat) (l : List Nat) : (s.tallyEvent c b n i l).free = s.free := by
  simp [State.tallyEvent]
@[simp] theorem State.tallyEvent_served (c : TallyClass) (b n i : Nat) (l : List Nat) : (s.tallyEvent c b n i l).served = s.served :=
    by
  simp [State.tallyEvent]
@[simp] theorem State.tallyEvent_inv (c : TallyClass) (b n i : Nat) (l : List Nat) : (s.tallyEvent c b n i l).inv = s.inv := by
  simp [State.tallyEvent]
@[simp] theorem State.tallyEvent_hst (c : TallyClass) (b n i : Nat) (l : List Nat) : (s.tallyEvent c b n i l).hst = s.hst := by
  simp [State.tallyEvent]
@[simp] theorem State.tallyEvent_trn (c : TallyClass) (b n i : Nat) (l : List Nat) : (s.tallyEvent c b n i l).trn = s.trn := by
  simp [State.tallyEvent]
@[simp] theorem State.tallyEvent_win (c : TallyClass) (b n i : Nat) (l : List Nat) : (s.tallyEvent c b n i l).win = s.win := by
  simp [State.tallyEvent]
@[simp] theorem State.tallyEvent_cq (c : TallyClass) (b n i : Nat) (l : List Nat) : (s.tallyEvent c b n i l).cq = s.cq := by
  simp [State.tallyEvent]
@[simp] theorem State.tallyEvent_vol (c : TallyClass) (b n i : Nat) (l : List Nat) : (s.tallyEvent c b n i l).vol = s.vol := by
  simp [State.tallyEvent]
@[simp] theorem State.tallyEvent_str (c : TallyClass) (b n i : Nat) (l : List Nat) : (s.tallyEvent c b n i l).str = s.str := by
  simp [State.tallyEvent]
@[simp] theorem State.tallyEvent_attic (c : TallyClass) (b n i : Nat) (l : List Nat) : (s.tallyEvent c b n i l).attic = s.attic :=
    by
  simp [State.tallyEvent]
@[simp] theorem State.tallyEvent_rbd (c : TallyClass) (b n i : Nat) (l : List Nat) : (s.tallyEvent c b n i l).rbd = s.rbd := by
  simp [State.tallyEvent]
@[simp] theorem State.tallyEvent_rsv (c : TallyClass) (b n i : Nat) (l : List Nat) : (s.tallyEvent c b n i l).rsv = s.rsv := by
  simp [State.tallyEvent]
@[simp] theorem State.tallyEvent_cip (c : TallyClass) (b n i : Nat) (l : List Nat) : (s.tallyEvent c b n i l).cip = s.cip := by
  simp [State.tallyEvent]
@[simp] theorem State.tallyEvent_mac (c : TallyClass) (b n i : Nat) (l : List Nat) : (s.tallyEvent c b n i l).mac = s.mac := by
  simp [State.tallyEvent]
@[simp] theorem State.tallyEvent_tc (c : TallyClass) (b n i : Nat) (l : List Nat) : (s.tallyEvent c b n i l).tc = s.tc := by
  simp [State.tallyEvent]
@[simp] theorem State.tallyEvent_drv (c : TallyClass) (b n i : Nat) (l : List Nat) : (s.tallyEvent c b n i l).drv = s.drv := by
  simp [State.tallyEvent]
@[simp] theorem State.tallyEvent_drives (c : TallyClass) (b n i : Nat) (l : List Nat) : (s.tallyEvent c b n i l).drives = s.drives :=
    by
  simp [State.tallyEvent]
@[simp] theorem State.tallyEvent_bay (c : TallyClass) (b n i : Nat) (l : List Nat) : (s.tallyEvent c b n i l).bay = s.bay := by
  simp [State.tallyEvent]
@[simp] theorem State.tallyEvent_peer (c : TallyClass) (b n i : Nat) (l : List Nat) : (s.tallyEvent c b n i l).peer = s.peer := by
  simp [State.tallyEvent]
@[simp] theorem State.tallyEvent_pwr (c : TallyClass) (b n i : Nat) (l : List Nat) : (s.tallyEvent c b n i l).pwr = s.pwr := by
  simp [State.tallyEvent]
@[simp] theorem State.tallyEvent_glb (c : TallyClass) (b n i : Nat) (l : List Nat) : (s.tallyEvent c b n i l).glb = s.glb := by
  simp [State.tallyEvent]
@[simp] theorem State.tallyEvent_fuses (c : TallyClass) (b n i : Nat) (l : List Nat) : (s.tallyEvent c b n i l).fuses = s.fuses :=
    by
  simp [State.tallyEvent]
@[simp] theorem State.tallyEvent_flash (c : TallyClass) (b n i : Nat) (l : List Nat) : (s.tallyEvent c b n i l).flash = s.flash :=
    by
  simp [State.tallyEvent]
@[simp] theorem State.tallyEvent_pending (c : TallyClass) (b n i : Nat) (l : List Nat) : (s.tallyEvent c b n i l).pending = s.pending :=
    by
  simp [State.tallyEvent]
@[simp] theorem State.tallyPower_snaps (f : Fld) : (s.tallyPower f).snaps = s.snaps := by simp [State.tallyPower]
@[simp] theorem State.tallyPower_heldLow (f : Fld) : (s.tallyPower f).heldLow = s.heldLow := by simp [State.tallyPower]
@[simp] theorem State.tallyPower_answer (f : Fld) : (s.tallyPower f).answer = s.answer := by simp [State.tallyPower]
@[simp] theorem State.tallyPower_now (f : Fld) : (s.tallyPower f).now = s.now := by simp [State.tallyPower]
@[simp] theorem State.tallyPower_free (f : Fld) : (s.tallyPower f).free = s.free := by simp [State.tallyPower]
@[simp] theorem State.tallyPower_served (f : Fld) : (s.tallyPower f).served = s.served := by simp [State.tallyPower]
@[simp] theorem State.tallyPower_inv (f : Fld) : (s.tallyPower f).inv = s.inv := by simp [State.tallyPower]
@[simp] theorem State.tallyPower_hst (f : Fld) : (s.tallyPower f).hst = s.hst := by simp [State.tallyPower]
@[simp] theorem State.tallyPower_trn (f : Fld) : (s.tallyPower f).trn = s.trn := by simp [State.tallyPower]
@[simp] theorem State.tallyPower_win (f : Fld) : (s.tallyPower f).win = s.win := by simp [State.tallyPower]
@[simp] theorem State.tallyPower_cq (f : Fld) : (s.tallyPower f).cq = s.cq := by simp [State.tallyPower]
@[simp] theorem State.tallyPower_vol (f : Fld) : (s.tallyPower f).vol = s.vol := by simp [State.tallyPower]
@[simp] theorem State.tallyPower_str (f : Fld) : (s.tallyPower f).str = s.str := by simp [State.tallyPower]
@[simp] theorem State.tallyPower_attic (f : Fld) : (s.tallyPower f).attic = s.attic := by simp [State.tallyPower]
@[simp] theorem State.tallyPower_rbd (f : Fld) : (s.tallyPower f).rbd = s.rbd := by simp [State.tallyPower]
@[simp] theorem State.tallyPower_rsv (f : Fld) : (s.tallyPower f).rsv = s.rsv := by simp [State.tallyPower]
@[simp] theorem State.tallyPower_cip (f : Fld) : (s.tallyPower f).cip = s.cip := by simp [State.tallyPower]
@[simp] theorem State.tallyPower_mac (f : Fld) : (s.tallyPower f).mac = s.mac := by simp [State.tallyPower]
@[simp] theorem State.tallyPower_tc (f : Fld) : (s.tallyPower f).tc = s.tc := by simp [State.tallyPower]
@[simp] theorem State.tallyPower_drv (f : Fld) : (s.tallyPower f).drv = s.drv := by simp [State.tallyPower]
@[simp] theorem State.tallyPower_drives (f : Fld) : (s.tallyPower f).drives = s.drives := by simp [State.tallyPower]
@[simp] theorem State.tallyPower_bay (f : Fld) : (s.tallyPower f).bay = s.bay := by simp [State.tallyPower]
@[simp] theorem State.tallyPower_peer (f : Fld) : (s.tallyPower f).peer = s.peer := by simp [State.tallyPower]
@[simp] theorem State.tallyPower_pwr (f : Fld) : (s.tallyPower f).pwr = s.pwr := by simp [State.tallyPower]
@[simp] theorem State.tallyPower_glb (f : Fld) : (s.tallyPower f).glb = s.glb := by simp [State.tallyPower]
@[simp] theorem State.tallyPower_fuses (f : Fld) : (s.tallyPower f).fuses = s.fuses := by simp [State.tallyPower]
@[simp] theorem State.tallyPower_flash (f : Fld) : (s.tallyPower f).flash = s.flash := by simp [State.tallyPower]
@[simp] theorem State.tallyPower_pending (f : Fld) : (s.tallyPower f).pending = s.pending := by simp [State.tallyPower]
@[simp] theorem State.mcheck_snaps (n : Nat) : (s.mcheck n).snaps = s.snaps := s.when_same _ _ (·.snaps) rfl
@[simp] theorem State.mcheck_heldLow (n : Nat) : (s.mcheck n).heldLow = s.heldLow := s.when_same _ _ (·.heldLow) rfl
@[simp] theorem State.mcheck_answer (n : Nat) : (s.mcheck n).answer = s.answer := s.when_same _ _ (·.answer) rfl
@[simp] theorem State.mcheck_now (n : Nat) : (s.mcheck n).now = s.now := s.when_same _ _ (·.now) rfl
@[simp] theorem State.mcheck_free (n : Nat) : (s.mcheck n).free = s.free := s.when_same _ _ (·.free) rfl
@[simp] theorem State.mcheck_served (n : Nat) : (s.mcheck n).served = s.served := s.when_same _ _ (·.served) rfl
@[simp] theorem State.mcheck_inv (n : Nat) : (s.mcheck n).inv = s.inv := s.when_same _ _ (·.inv) rfl
@[simp] theorem State.mcheck_hst (n : Nat) : (s.mcheck n).hst = s.hst := s.when_same _ _ (·.hst) rfl
@[simp] theorem State.mcheck_trn (n : Nat) : (s.mcheck n).trn = s.trn := s.when_same _ _ (·.trn) rfl
@[simp] theorem State.mcheck_win (n : Nat) : (s.mcheck n).win = s.win := s.when_same _ _ (·.win) rfl
@[simp] theorem State.mcheck_cq (n : Nat) : (s.mcheck n).cq = s.cq := s.when_same _ _ (·.cq) rfl
@[simp] theorem State.mcheck_vol (n : Nat) : (s.mcheck n).vol = s.vol := s.when_same _ _ (·.vol) rfl
@[simp] theorem State.mcheck_str (n : Nat) : (s.mcheck n).str = s.str := s.when_same _ _ (·.str) rfl
@[simp] theorem State.mcheck_attic (n : Nat) : (s.mcheck n).attic = s.attic := s.when_same _ _ (·.attic) rfl
@[simp] theorem State.mcheck_rbd (n : Nat) : (s.mcheck n).rbd = s.rbd := s.when_same _ _ (·.rbd) rfl
@[simp] theorem State.mcheck_rsv (n : Nat) : (s.mcheck n).rsv = s.rsv := s.when_same _ _ (·.rsv) rfl
@[simp] theorem State.mcheck_cip (n : Nat) : (s.mcheck n).cip = s.cip := s.when_same _ _ (·.cip) rfl
@[simp] theorem State.mcheck_mac (n : Nat) : (s.mcheck n).mac = s.mac := s.when_same _ _ (·.mac) rfl
@[simp] theorem State.mcheck_tc (n : Nat) : (s.mcheck n).tc = s.tc := s.when_same _ _ (·.tc) rfl
@[simp] theorem State.mcheck_drv (n : Nat) : (s.mcheck n).drv = s.drv := s.when_same _ _ (·.drv) rfl
@[simp] theorem State.mcheck_drives (n : Nat) : (s.mcheck n).drives = s.drives := s.when_same _ _ (·.drives) rfl
@[simp] theorem State.mcheck_bay (n : Nat) : (s.mcheck n).bay = s.bay := s.when_same _ _ (·.bay) rfl
@[simp] theorem State.mcheck_wdn (n : Nat) : (s.mcheck n).wdn = s.wdn := s.when_same _ _ (·.wdn) rfl
@[simp] theorem State.mcheck_peer (n : Nat) : (s.mcheck n).peer = s.peer := s.when_same _ _ (·.peer) rfl
@[simp] theorem State.mcheck_pwr (n : Nat) : (s.mcheck n).pwr = s.pwr := s.when_same _ _ (·.pwr) rfl
@[simp] theorem State.mcheck_mgt (n : Nat) : (s.mcheck n).mgt = s.mgt := s.when_same _ _ (·.mgt) rfl
@[simp] theorem State.mcheck_glb (n : Nat) : (s.mcheck n).glb = s.glb := s.when_same _ _ (·.glb) rfl
@[simp] theorem State.mcheck_fuses (n : Nat) : (s.mcheck n).fuses = s.fuses := s.when_same _ _ (·.fuses) rfl
@[simp] theorem State.mcheck_flash (n : Nat) : (s.mcheck n).flash = s.flash := s.when_same _ _ (·.flash) rfl
@[simp] theorem State.mcheck_pending (n : Nat) : (s.mcheck n).pending = s.pending := s.when_same _ _ (·.pending) rfl

end Sys2Proof.Machine
end

