-- ==== Sys2Proof/Laws/Table.lean ====
section
/-!
SUPPORT. Laws of sparse tables and of byte stores: what is read after a write, and that the canonical form is kept.
-/

namespace Sys2Proof.Machine

variable {α : Type}

/-! ### What is read after a write -/

@[simp] theorem Tab.find?_nil (k : Nat) : Tab.find? k ([] : Tab α) = none := rfl

@[simp] theorem Tab.find?_set_self (k : Nat) (v : α) (t : Tab α) : Tab.find? k (Tab.set k v t) = some v := by
  induction t with
  | nil => simp [Tab.set, Tab.find?]
  | cons x t ih =>
    obtain ⟨j, w⟩ := x
    simp only [Tab.set]
    split
    · simp [Tab.find?]
    · split
      · simp [Tab.find?]
      · next h => simp [Tab.find?, h, ih]

theorem Tab.find?_set_ne {k j : Nat} (h : k ≠ j) (v : α) (t : Tab α) :
    Tab.find? j (Tab.set k v t) = Tab.find? j t := by
  induction t with
  | nil => simp [Tab.set, Tab.find?, h]
  | cons x t ih =>
    obtain ⟨i, w⟩ := x
    simp only [Tab.set]
    split
    · simp [Tab.find?, h]
    · split
      · next hi => subst hi; simp [Tab.find?, h]
      · simp [Tab.find?, ih]

@[simp] theorem Tab.find?_erase_self (k : Nat) (t : Tab α) : Tab.find? k (Tab.erase k t) = none := by
  induction t with
  | nil => rfl
  | cons x t ih =>
    obtain ⟨j, w⟩ := x
    simp only [Tab.erase]
    split
    · exact ih
    · next h => simp [Tab.find?, h, ih]

theorem Tab.find?_erase_ne {k j : Nat} (h : k ≠ j) (t : Tab α) : Tab.find? j (Tab.erase k t) = Tab.find? j t := by
  induction t with
  | nil => rfl
  | cons x t ih =>
    obtain ⟨i, w⟩ := x
    simp only [Tab.erase]
    split
    · next hi => subst hi; simp [Tab.find?, h, ih]
    · simp [Tab.find?, ih]

@[simp] theorem Tab.getD_nil (k : Nat) (d : α) : Tab.getD k d ([] : Tab α) = d := rfl

@[simp] theorem Tab.getD_set_self (k : Nat) (d v : α) (t : Tab α) : Tab.getD k d (Tab.set k v t) = v := by simp [Tab.getD]

theorem Tab.getD_set_ne {k j : Nat} (h : k ≠ j) (d v : α) (t : Tab α) :
    Tab.getD j d (Tab.set k v t) = Tab.getD j d t := by simp [Tab.getD, Tab.find?_set_ne h]

@[simp] theorem Tab.getD_put_self [DecidableEq α] (k : Nat) (d v : α) (t : Tab α) : Tab.getD k d (Tab.put d k v t) = v := by
  unfold Tab.put
  split
  · next h => simp [Tab.getD, h]
  · simp

theorem Tab.getD_put_ne [DecidableEq α] {k j : Nat} (h : k ≠ j) (e d v : α) (t : Tab α) :
    Tab.getD j d (Tab.put e k v t) = Tab.getD j d t := by
  unfold Tab.put
  split
  · simp [Tab.getD, Tab.find?_erase_ne h]
  · exact Tab.getD_set_ne h d v t

/-! ### The canonical form -/

/-- The keys of a table rise. -/
def Tab.Rising (t : Tab α) : Prop := (t.map Prod.fst).Pairwise (· < ·)

theorem Tab.sorted_iff (t : Tab α) : Tab.sorted t = true ↔ Tab.Rising t := by
  unfold Tab.Rising
  induction t with
  | nil => simp [Tab.sorted]
  | cons x t ih =>
    obtain ⟨j, w⟩ := x
    cases t with
    | nil => simp [Tab.sorted]
    | cons y t =>
      obtain ⟨k, v⟩ := y
      simp only [Tab.sorted, Bool.and_eq_true, decide_eq_true_eq, ih, List.map_cons, List.pairwise_cons,
        List.mem_cons, forall_eq_or_imp]
      constructor
      · rintro ⟨h, h1, h2⟩
        exact ⟨⟨h, fun a ha => h.trans (h1 a ha)⟩, h1, h2⟩
      · rintro ⟨⟨h, -⟩, h1, h2⟩
        exact ⟨h, h1, h2⟩

theorem Tab.keys_set (k : Nat) (v : α) (t : Tab α) (i : Nat) :
    i ∈ (Tab.set k v t).map Prod.fst ↔ i = k ∨ i ∈ t.map Prod.fst := by
  induction t with
  | nil => simp [Tab.set]
  | cons x t ih =>
    obtain ⟨j, w⟩ := x
    simp only [Tab.set]
    split
    · simp
    · split
      · next h => subst h; simp
      · simp only [List.map_cons, List.mem_cons, ih]; tauto

theorem Tab.keys_erase (k : Nat) (t : Tab α) (i : Nat) :
    i ∈ (Tab.erase k t).map Prod.fst ↔ i ≠ k ∧ i ∈ t.map Prod.fst := by
  induction t with
  | nil => simp [Tab.erase]
  | cons x t ih =>
    obtain ⟨j, w⟩ := x
    simp only [Tab.erase]
    split
    · next h => subst h; simp only [ih, List.map_cons, List.mem_cons]; tauto
    · next h =>
      simp only [List.map_cons, List.mem_cons, ih]
      constructor
      · rintro (rfl | ⟨h1, h2⟩)
        · exact ⟨h, .inl rfl⟩
        · exact ⟨h1, .inr h2⟩
      · rintro ⟨h1, rfl | h2⟩
        · exact .inl rfl
        · exact .inr ⟨h1, h2⟩

theorem Tab.Rising.set {t : Tab α} (h : Tab.Rising t) (k : Nat) (v : α) : Tab.Rising (Tab.set k v t) := by
  unfold Tab.Rising at *
  induction t with
  | nil => simp [Tab.set]
  | cons x t ih =>
    obtain ⟨j, w⟩ := x
    simp only [List.map_cons, List.pairwise_cons] at h
    simp only [Tab.set]
    split
    · next hk =>
      simp only [List.map_cons, List.pairwise_cons, List.mem_cons, forall_eq_or_imp]
      exact ⟨⟨hk, fun a ha => hk.trans (h.1 a ha)⟩, h⟩
    · split
      · next hj => subst hj; simpa using h
      · next hk hj =>
        simp only [List.map_cons, List.pairwise_cons]
        refine ⟨fun a ha => ?_, ih h.2⟩
        rcases (Tab.keys_set k v t a).1 ha with rfl | ha
        · omega
        · exact h.1 a ha

theorem Tab.Rising.erase {t : Tab α} (h : Tab.Rising t) (k : Nat) : Tab.Rising (Tab.erase k t) := by
  unfold Tab.Rising at *
  induction t with
  | nil => simp [Tab.erase]
  | cons x t ih =>
    obtain ⟨j, w⟩ := x
    simp only [List.map_cons, List.pairwise_cons] at h
    simp only [Tab.erase]
    split
    · exact ih h.2
    · simp only [List.map_cons, List.pairwise_cons]
      exact ⟨fun a ha => h.1 a ((Tab.keys_erase k t a).1 ha).2, ih h.2⟩

theorem Tab.set_mem {k : Nat} {v : α} {t : Tab α} {x : Nat × α} (h : x ∈ Tab.set k v t) : x = (k, v) ∨ x ∈ t := by
  induction t with
  | nil => simpa [Tab.set] using h
  | cons y t ih =>
    obtain ⟨j, w⟩ := y
    simp only [Tab.set] at h
    split at h
    · simpa using h
    · split at h
      · rcases List.mem_cons.1 h with h | h
        · exact .inl h
        · exact .inr (List.mem_cons_of_mem _ h)
      · rcases List.mem_cons.1 h with h | h
        · exact .inr (h ▸ List.mem_cons_self ..)
        · exact (ih h).imp id (List.mem_cons_of_mem _)

theorem Tab.erase_mem {k : Nat} {t : Tab α} {x : Nat × α} (h : x ∈ Tab.erase k t) : x ∈ t := by
  induction t with
  | nil => simp [Tab.erase] at h
  | cons y t ih =>
    obtain ⟨j, w⟩ := y
    simp only [Tab.erase] at h
    split at h
    · exact List.mem_cons_of_mem _ (ih h)
    · rcases List.mem_cons.1 h with h | h
      · exact h ▸ List.mem_cons_self ..
      · exact List.mem_cons_of_mem _ (ih h)

/-! ### Byte stores -/

theorem Mem.wf_iff (d : Byte) (m : Mem) : Mem.wf d m = true ↔ Tab.Rising m ∧ ∀ c ∈ m, c.2 ≠ d := by
  simp [Mem.wf, Tab.sorted_iff]

@[simp] theorem Mem.wf_nil (d : Byte) : Mem.wf d [] = true := rfl

@[simp] theorem Mem.byte_nil (d : Byte) (a : Nat) : Mem.byte d [] a = d := rfl

/-- Writing a byte keeps the canonical form. -/
theorem Mem.wf_setByte {d : Byte} {m : Mem} (h : Mem.wf d m = true) (a : Nat) (v : Byte) :
    Mem.wf d (Mem.setByte d m a v) = true := by
  rw [Mem.wf_iff] at *
  unfold Mem.setByte Tab.put
  split
  · exact ⟨h.1.erase a, fun c hc => h.2 c (Tab.erase_mem hc)⟩
  · next hv =>
    refine ⟨h.1.set a v, fun c hc => ?_⟩
    rcases Tab.set_mem hc with rfl | hc
    · exact hv
    · exact h.2 c hc

/-- Every write keeps the canonical form. -/
theorem Mem.wf_write {d : Byte} {m : Mem} (h : Mem.wf d m = true) (a : Nat) (l : List Byte) :
    Mem.wf d (Mem.write d m a l) = true := by
  induction l generalizing m a with
  | nil => exact h
  | cons b t ih => exact ih (Mem.wf_setByte h a b) (a + 1)

@[simp] theorem Mem.byte_setByte_self (d : Byte) (m : Mem) (a : Nat) (v : Byte) :
    Mem.byte d (Mem.setByte d m a v) a = v := by simp [Mem.byte, Mem.setByte]

theorem Mem.byte_setByte_ne (d : Byte) (m : Mem) {a b : Nat} (h : a ≠ b) (v : Byte) :
    Mem.byte d (Mem.setByte d m a v) b = Mem.byte d m b := by simp [Mem.byte, Mem.setByte, Tab.getD_put_ne h]

/-- A write leaves every byte outside it. -/
theorem Mem.byte_write_out (d : Byte) (m : Mem) (a : Nat) (l : List Byte) (b : Nat)
    (h : b < a ∨ a + l.length ≤ b) : Mem.byte d (Mem.write d m a l) b = Mem.byte d m b := by
  induction l generalizing m a with
  | nil => rfl
  | cons x t ih =>
    simp only [List.length_cons] at h
    rw [Mem.write, ih _ _ (by omega), Mem.byte_setByte_ne]
    omega

/-- A byte inside a write reads as written. -/
theorem Mem.byte_write_in (d : Byte) (m : Mem) (a : Nat) (l : List Byte) (i : Nat) (h : i < l.length) :
    Mem.byte d (Mem.write d m a l) (a + i) = l[i] := by
  induction l generalizing m a i with
  | nil => simp at h
  | cons x t ih =>
    cases i with
    | zero => rw [Mem.write, Mem.byte_write_out _ _ _ _ _ (by omega)]; simp
    | succ i =>
      have := ih (Mem.setByte d m a x) (a + 1) i (by simpa using h)
      rw [Mem.write]
      simpa [Nat.add_assoc, Nat.add_comm 1] using this

@[simp] theorem Mem.read_length (d : Byte) (m : Mem) (a n : Nat) : (Mem.read d m a n).length = n := by
  induction n generalizing a with
  | zero => rfl
  | succ n ih => simp [Mem.read, ih]

theorem Mem.read_congr {d : Byte} {m m' : Mem} {a n : Nat}
    (h : ∀ i < n, Mem.byte d m (a + i) = Mem.byte d m' (a + i)) : Mem.read d m a n = Mem.read d m' a n := by
  induction n generalizing a with
  | zero => rfl
  | succ n ih =>
    simp only [Mem.read]
    rw [show Mem.byte d m a = Mem.byte d m' a by simpa using h 0 (by omega)]
    rw [ih fun i hi => by simpa [Nat.add_assoc, Nat.add_comm 1] using h (i + 1) (by omega)]

/-- A read of what was written. -/
theorem Mem.read_write (d : Byte) (m : Mem) (a : Nat) (l : List Byte) : Mem.read d (Mem.write d m a l) a l.length = l := by
  induction l generalizing m a with
  | nil => rfl
  | cons x t ih =>
    have h0 : Mem.byte d (Mem.write d (Mem.setByte d m a x) (a + 1) t) a = x := by
      rw [Mem.byte_write_out _ _ _ _ _ (by omega)]; simp
    simp only [List.length_cons, Mem.read, Mem.write, h0, ih]

end Sys2Proof.Machine
end

