-- ==== Sys2Proof/Laws/Registers.lean ====
section
/-!
SUPPORT. Laws of the stored registers: what a word, a field and a pair read as after a change of one of them.
-/

namespace Sys2Proof.Machine

variable (s : State)

@[simp] theorem State.word_setWord_self (a : Nat) (w : Word) : (s.setWord a w).word a = w := by
  simp [State.word, State.setWord]

theorem State.word_setWord_ne {a b : Nat} (h : a ≠ b) (w : Word) : (s.setWord a w).word b = s.word b := by
  simp [State.word, State.setWord, Tab.getD_put_ne h]

@[simp] theorem State.fld_setFld_self {f : Fld} (h : f.lo + f.width ≤ 32) (v : Nat) :
    (s.setFld f v).fld f = v % 2 ^ f.width := by
  simp [State.fld, State.setFld, getBits_putBits_self h]

/-- Two fields share no bit. -/
def Fld.apart (f g : Fld) : Prop := f.addr ≠ g.addr ∨ g.lo + g.width ≤ f.lo ∨ f.lo + f.width ≤ g.lo

theorem State.fld_setFld_apart {f g : Fld} (h : f.apart g) (v : Nat) : (s.setFld f v).fld g = s.fld g := by
  unfold State.fld State.setFld
  by_cases ha : f.addr = g.addr
  · rw [← ha, State.word_setWord_self]
    rcases h with h | h
    · exact absurd ha h
    · exact getBits_putBits_disjoint h _ _
  · rw [State.word_setWord_ne _ ha]

theorem State.word_setFld_ne {f : Fld} {a : Nat} (h : f.addr ≠ a) (v : Nat) : (s.setFld f v).word a = s.word a :=
  s.word_setWord_ne h _

theorem State.word_flag_ne {f : Fld} {a : Nat} (h : f.addr ≠ a) : (s.flag f).word a = s.word a := s.word_setFld_ne h 1

/-- A flag that hardware sets reads 1. -/
theorem State.is_flag {f : Fld} (h : f.lo + f.width ≤ 32) (hw : 0 < f.width) : (s.flag f).is f = true := by
  have : 1 < 2 ^ f.width := Nat.one_lt_two_pow (by omega)
  simp [State.is, State.flag, s.fld_setFld_self h, Nat.mod_eq_of_lt this]

theorem State.fld_flag_apart {f g : Fld} (h : f.apart g) : (s.flag f).fld g = s.fld g := s.fld_setFld_apart h 1

theorem State.is_flag_apart {f g : Fld} (h : f.apart g) : (s.flag f).is g = s.is g := by
  simp [State.is, s.fld_flag_apart h]

theorem State.pair_lt (a : Nat) : s.pair a < 2 ^ 64 := by
  have h1 := (s.word a).isLt
  have h2 := (s.word (a + 4)).isLt
  unfold State.pair
  omega

/-- A pair reads as it was set. -/
theorem State.pair_setPair_self (a v : Nat) : (s.setPair a v).pair a = v % 2 ^ 64 := by
  unfold State.pair State.setPair
  rw [State.word_setWord_self, State.word_setWord_ne _ (by omega), State.word_setWord_self]
  simp only [BitVec.toNat_ofNat]
  omega

theorem State.word_setPair_ne {a b : Nat} (v : Nat) (h : a ≠ b) (h' : a + 4 ≠ b) : (s.setPair a v).word b = s.word b := by
  unfold State.setPair
  rw [State.word_setWord_ne _ h', State.word_setWord_ne _ h]

/-- A counter of n events is n higher, to 64 bits. -/
theorem State.pair_bump_self (a n : Nat) : (s.bump a n).pair a = (s.pair a + n) % 2 ^ 64 := s.pair_setPair_self a _

theorem State.word_bump_ne {a b : Nat} (n : Nat) (h : a ≠ b) (h' : a + 4 ≠ b) : (s.bump a n).word b = s.word b :=
  s.word_setPair_ne _ h h'

theorem State.fld_bump_ne {a : Nat} {f : Fld} (n : Nat) (h : a ≠ f.addr) (h' : a + 4 ≠ f.addr) :
    (s.bump a n).fld f = s.fld f := by simp [State.fld, s.word_bump_ne n h h']

/-- A register word depends on the stored registers alone. -/
theorem State.word_congr {s t : State} (h : t.regs = s.regs) (a : Nat) : t.word a = s.word a := by simp [State.word, h]

theorem State.fld_congr {s t : State} (h : t.regs = s.regs) (f : Fld) : t.fld f = s.fld f := by
  simp [State.fld, State.word_congr h]

theorem State.is_congr {s t : State} (h : t.regs = s.regs) (f : Fld) : t.is f = s.is f := by
  simp [State.is, State.fld_congr h]

theorem State.pair_congr {s t : State} (h : t.regs = s.regs) (a : Nat) : t.pair a = s.pair a := by
  simp [State.pair, State.word_congr h]

end Sys2Proof.Machine
end

