-- ==== Sys2Proof/Laws/Rows.lean ====
section
/-!
SUPPORT. Laws of what the rows share: their outcome, the units that a mode or a dump stops, and the periodic rows.
-/

namespace Sys2Proof.Machine

variable (s : State)

theorem State.row_eq (f : State → State) : s.row f = .next { f s with pending := s.pending } := rfl

/-- A row whose effect leaves the queue answers that effect. -/
theorem State.row_keep {s : State} {f : State → State} (h : (f s).pending = s.pending) : s.row f = .next (f s) := by
  rw [State.row, ← h]

@[simp] theorem State.gate_true {b : State → Bool} {f : State → State} (h : b s = true) : s.gate b f = f s := by
  simp [State.gate, h]

@[simp] theorem State.gate_false {b : State → Bool} {f : State → State} (h : b s = false) : s.gate b f = s := by
  simp [State.gate, h]

theorem State.up_of_awake {s : State} (h : s.awake = true) : s.up = true := by
  simp only [State.awake, Bool.and_eq_true] at h; exact h.1

theorem State.managed_of_awake {s : State} (h : s.awake = true) : s.managed = true := by
  simp only [State.awake, State.managed, Bool.and_eq_true, Bool.or_eq_true, decide_eq_true_eq] at *
  exact ⟨h.1, by rcases h.2 with h | h <;> simp [h]⟩

theorem State.busOn_of_up {s : State} (h : s.up = true) : s.busOn = true := by
  simp only [State.up, decide_eq_true_eq] at h; simp [State.busOn, h]

theorem State.modeLets_of_awake {s : State} (h : s.awake = true) (p : Path) (a : Nat) : s.modeLets p a = true := by
  simp only [State.awake, Bool.and_eq_true, Bool.or_eq_true, decide_eq_true_eq] at h
  rcases h.2 with h | h <;> simp [State.modeLets, h]

theorem State.not_asleep_of_awake {s : State} (h : s.awake = true) : s.asleep = false := by
  simp only [State.awake, Bool.and_eq_true, Bool.or_eq_true, decide_eq_true_eq] at h
  rcases h.2 with h | h <;> simp [State.asleep, h]

theorem State.ifUp_true {s : State} (h : s.up = true) (f : State → State) : s.ifUp f = f s := by simp [State.ifUp, h]

theorem State.ifUp_false {s : State} (h : s.up = false) (f : State → State) : s.ifUp f = s := by simp [State.ifUp, h]

theorem State.ifAwake_true {s : State} (h : s.awake = true) (f : State → State) : s.ifAwake f = f s := by
  simp [State.ifAwake, h]

theorem State.ifAwake_false {s : State} (h : s.awake = false) (f : State → State) : s.ifAwake f = s := by
  simp [State.ifAwake, h]

theorem State.ifManaged_true {s : State} (h : s.managed = true) (f : State → State) : s.ifManaged f = f s := by
  simp [State.ifManaged, h]

theorem State.ifManaged_false {s : State} (h : s.managed = false) (f : State → State) : s.ifManaged f = s := by
  simp [State.ifManaged, h]

theorem State.ifOn_true {s : State} (h : s.busOn = true) (f : State → State) : s.ifOn f = f s := by simp [State.ifOn, h]

theorem State.ifOn_false {s : State} (h : s.busOn = false) (f : State → State) : s.ifOn f = s := by simp [State.ifOn, h]

theorem State.onBus_true {s : State} {p : Path} {a : Nat} (h : s.busOn = true) (h' : s.modeLets p a = true)
    (f : State → State) : s.onBus p a f = f s := by simp [State.onBus, h, h']

theorem State.onBus_off {s : State} (h : s.busOn = false) (p : Path) (a : Nat) (f : State → State) :
    s.onBus p a f = s := by simp [State.onBus, h]

theorem State.onBus_mode {s : State} {p : Path} {a : Nat} (h : s.modeLets p a = false) (f : State → State) :
    s.onBus p a f = s := by simp [State.onBus, h]

theorem State.onBusUp_true {s : State} {p : Path} {a : Nat} (h : s.up = true) (h' : s.modeLets p a = true)
    (f : State → State) : s.onBusUp p a f = f s := by
  rw [State.onBusUp, State.onBus_true (State.busOn_of_up h) h', State.ifUp_true h]

/-- A periodic row acts at a multiple of its period that it has not served. -/
theorem State.every_due {s : State} {row period : Nat} (h : Tab.getD row 0 s.served < s.now / period * period)
    (f : State → State) :
    s.every row period f = f { s with served := Tab.set row (s.now / period * period) s.served } := by
  simp [State.every, h]

/-- A periodic row that has served the last multiple of its period does nothing. -/
theorem State.every_served {s : State} {row period : Nat} (h : s.now / period * period ≤ Tab.getD row 0 s.served)
    (f : State → State) : s.every row period f = s := by
  simp [State.every, Nat.not_lt.2 h]

/-! ### What a row answers where its unit runs -/

/-- A data-path row answers its effect, and the queue stays. -/
theorem State.awake_row {s : State} (h : s.awake = true) (f : State → State) :
    (s.row fun s => s.ifAwake f) = .next { f s with pending := s.pending } := by rw [State.row_eq, State.ifAwake_true h]

/-- A register's row answers its effect where its bus answers and its mode lets it. -/
theorem State.bus_row {s : State} {p : Path} {a : Nat} (h : s.busOn = true) (h' : s.modeLets p a = true)
    (f : State → State) : (s.row fun s => s.onBus p a f) = .next { f s with pending := s.pending } := by
  rw [State.row_eq, State.onBus_true h h']

/-- A command register's row answers its effect while the part is up. -/
theorem State.busUp_row {s : State} {p : Path} {a : Nat} (h : s.up = true) (h' : s.modeLets p a = true)
    (f : State → State) : (s.row fun s => s.onBusUp p a f) = .next { f s with pending := s.pending } := by
  rw [State.row_eq, State.onBusUp_true h h']

/-- A row of what runs in every mode answers its effect while the part is up. -/
theorem State.up_row {s : State} (h : s.up = true) (f : State → State) :
    (s.row fun s => s.ifUp f) = .next { f s with pending := s.pending } := by rw [State.row_eq, State.ifUp_true h]

/-- A row of what shelf firmware drives answers its effect while that runs. -/
theorem State.managed_row {s : State} (h : s.managed = true) (f : State → State) :
    (s.row fun s => s.ifManaged f) = .next { f s with pending := s.pending } := by rw [State.row_eq, State.ifManaged_true h]

/-- A row of what runs while the part is powered answers its effect. -/
theorem State.on_row {s : State} (h : s.busOn = true) (f : State → State) :
    (s.row fun s => s.ifOn f) = .next { f s with pending := s.pending } := by rw [State.row_eq, State.ifOn_true h]

end Sys2Proof.Machine
end

