-- ==== Sys2Proof/Laws/Frame.lean ====
section
/-!
SUPPORT. What a change of the state leaves alone, said by the names of the fields it may touch: `Frame l s t` says that t
differs from s in the fields of l at most. Frames compose, so a shared operation's frame is proved once from those of its
parts.
-/

namespace Sys2Proof.Machine

/-- A field of the state. -/
inductive Blk where
  | regs
  | snaps
  | heldLow
  | answer
  | now
  | free
  | served
  | inv
  | hst
  | trn
  | win
  | cq
  | vol
  | str
  | attic
  | rbd
  | rsv
  | cip
  | mac
  | tc
  | drv
  | drives
  | bay
  | wdn
  | peer
  | pwr
  | mgt
  | glb
  | fuses
  | flash
  | pending
  deriving DecidableEq

/-- Two states hold the same in a field. -/
def State.agree (s t : State) : Blk → Prop
  | .regs => t.regs = s.regs
  | .snaps => t.snaps = s.snaps
  | .heldLow => t.heldLow = s.heldLow
  | .answer => t.answer = s.answer
  | .now => t.now = s.now
  | .free => t.free = s.free
  | .served => t.served = s.served
  | .inv => t.inv = s.inv
  | .hst => t.hst = s.hst
  | .trn => t.trn = s.trn
  | .win => t.win = s.win
  | .cq => t.cq = s.cq
  | .vol => t.vol = s.vol
  | .str => t.str = s.str
  | .attic => t.attic = s.attic
  | .rbd => t.rbd = s.rbd
  | .rsv => t.rsv = s.rsv
  | .cip => t.cip = s.cip
  | .mac => t.mac = s.mac
  | .tc => t.tc = s.tc
  | .drv => t.drv = s.drv
  | .drives => t.drives = s.drives
  | .bay => t.bay = s.bay
  | .wdn => t.wdn = s.wdn
  | .peer => t.peer = s.peer
  | .pwr => t.pwr = s.pwr
  | .mgt => t.mgt = s.mgt
  | .glb => t.glb = s.glb
  | .fuses => t.fuses = s.fuses
  | .flash => t.flash = s.flash
  | .pending => t.pending = s.pending

/-- The change from s to t touches the fields of l at most. -/
def Frame (l : List Blk) (s t : State) : Prop := ∀ b, b ∉ l → s.agree t b

theorem State.agree_refl (s : State) (b : Blk) : s.agree s b := by cases b <;> rfl

theorem State.agree_trans {s t u : State} {b : Blk} (h : s.agree t b) (h' : t.agree u b) : s.agree u b := by
  cases b <;> exact h'.trans h

/-- States that hold the same in every field are one state. -/
theorem State.eq_of_agree {s t : State} (h : ∀ b, s.agree t b) : t = s := by
  cases s; cases t
  simp only [State.mk.injEq]
  exact ⟨h .regs, h .snaps, h .heldLow, h .answer, h .now, h .free, h .served, h .inv, h .hst, h .trn, h .win, h .cq, h .vol, h .str, h .attic, h .rbd, h .rsv, h .cip, h .mac, h .tc, h .drv, h .drives, h .bay, h .wdn, h .peer, h .pwr, h .mgt, h .glb, h .fuses, h .flash, h .pending⟩

variable {s t u : State} {l k : List Blk}

theorem Frame.refl (l : List Blk) (s : State) : Frame l s s := fun b _ => s.agree_refl b

theorem Frame.mono (h : Frame l s t) (hk : l ⊆ k) : Frame k s t := fun b hb => h b fun h' => hb (hk h')

theorem Frame.trans (h : Frame l s t) (h' : Frame l t u) : Frame l s u := fun b hb => State.agree_trans (h b hb) (h' b hb)

theorem Frame.append (h : Frame l s t) (h' : Frame k t u) : Frame (l ++ k) s u :=
  (h.mono (List.subset_append_left l k)).trans (h'.mono (List.subset_append_right l k))

theorem Frame.when {f : State → State} (b : Bool) (h : Frame l s (f s)) : Frame l s (s.when b f) := by
  cases b
  · exact Frame.refl l s
  · exact h

theorem Frame.ite {c : Prop} [Decidable c] (h : Frame l s t) (h' : Frame l s u) : Frame l s (if c then t else u) := by
  split <;> assumption

theorem Frame.with? {α : Type} {f : State → α → State} (o : Option α) (h : ∀ a, o = some a → Frame l s (f s a)) :
    Frame l s (s.with? o f) := by
  cases o with
  | none => exact Frame.refl l s
  | some a => exact h a rfl

theorem Frame.foldl {α : Type} {f : State → α → State} (h : ∀ s a, Frame l s (f s a)) (xs : List α) (s : State) :
    Frame l s (xs.foldl f s) := by
  induction xs generalizing s with
  | nil => exact Frame.refl l s
  | cons x xs ih => exact (h s x).trans (ih (f s x))

theorem Frame.each {α : Type} {f : State → α → State} (h : ∀ s a, Frame l s (f s a)) (xs : List α) (s : State) :
    Frame l s (s.each xs f) := Frame.foldl h xs s

theorem Frame.regs_eq (h : Frame l s t) (hl : Blk.regs ∉ l := by decide) : t.regs = s.regs := h .regs hl
theorem Frame.snaps_eq (h : Frame l s t) (hl : Blk.snaps ∉ l := by decide) : t.snaps = s.snaps := h .snaps hl
theorem Frame.heldLow_eq (h : Frame l s t) (hl : Blk.heldLow ∉ l := by decide) : t.heldLow = s.heldLow := h .heldLow hl
theorem Frame.answer_eq (h : Frame l s t) (hl : Blk.answer ∉ l := by decide) : t.answer = s.answer := h .answer hl
theorem Frame.now_eq (h : Frame l s t) (hl : Blk.now ∉ l := by decide) : t.now = s.now := h .now hl
theorem Frame.free_eq (h : Frame l s t) (hl : Blk.free ∉ l := by decide) : t.free = s.free := h .free hl
theorem Frame.served_eq (h : Frame l s t) (hl : Blk.served ∉ l := by decide) : t.served = s.served := h .served hl
theorem Frame.inv_eq (h : Frame l s t) (hl : Blk.inv ∉ l := by decide) : t.inv = s.inv := h .inv hl
theorem Frame.hst_eq (h : Frame l s t) (hl : Blk.hst ∉ l := by decide) : t.hst = s.hst := h .hst hl
theorem Frame.trn_eq (h : Frame l s t) (hl : Blk.trn ∉ l := by decide) : t.trn = s.trn := h .trn hl
theorem Frame.win_eq (h : Frame l s t) (hl : Blk.win ∉ l := by decide) : t.win = s.win := h .win hl
theorem Frame.cq_eq (h : Frame l s t) (hl : Blk.cq ∉ l := by decide) : t.cq = s.cq := h .cq hl
theorem Frame.vol_eq (h : Frame l s t) (hl : Blk.vol ∉ l := by decide) : t.vol = s.vol := h .vol hl
theorem Frame.str_eq (h : Frame l s t) (hl : Blk.str ∉ l := by decide) : t.str = s.str := h .str hl
theorem Frame.attic_eq (h : Frame l s t) (hl : Blk.attic ∉ l := by decide) : t.attic = s.attic := h .attic hl
theorem Frame.rbd_eq (h : Frame l s t) (hl : Blk.rbd ∉ l := by decide) : t.rbd = s.rbd := h .rbd hl
theorem Frame.rsv_eq (h : Frame l s t) (hl : Blk.rsv ∉ l := by decide) : t.rsv = s.rsv := h .rsv hl
theorem Frame.cip_eq (h : Frame l s t) (hl : Blk.cip ∉ l := by decide) : t.cip = s.cip := h .cip hl
theorem Frame.mac_eq (h : Frame l s t) (hl : Blk.mac ∉ l := by decide) : t.mac = s.mac := h .mac hl
theorem Frame.tc_eq (h : Frame l s t) (hl : Blk.tc ∉ l := by decide) : t.tc = s.tc := h .tc hl
theorem Frame.drv_eq (h : Frame l s t) (hl : Blk.drv ∉ l := by decide) : t.drv = s.drv := h .drv hl
theorem Frame.drives_eq (h : Frame l s t) (hl : Blk.drives ∉ l := by decide) : t.drives = s.drives := h .drives hl
theorem Frame.bay_eq (h : Frame l s t) (hl : Blk.bay ∉ l := by decide) : t.bay = s.bay := h .bay hl
theorem Frame.wdn_eq (h : Frame l s t) (hl : Blk.wdn ∉ l := by decide) : t.wdn = s.wdn := h .wdn hl
theorem Frame.peer_eq (h : Frame l s t) (hl : Blk.peer ∉ l := by decide) : t.peer = s.peer := h .peer hl
theorem Frame.pwr_eq (h : Frame l s t) (hl : Blk.pwr ∉ l := by decide) : t.pwr = s.pwr := h .pwr hl
theorem Frame.mgt_eq (h : Frame l s t) (hl : Blk.mgt ∉ l := by decide) : t.mgt = s.mgt := h .mgt hl
theorem Frame.glb_eq (h : Frame l s t) (hl : Blk.glb ∉ l := by decide) : t.glb = s.glb := h .glb hl
theorem Frame.fuses_eq (h : Frame l s t) (hl : Blk.fuses ∉ l := by decide) : t.fuses = s.fuses := h .fuses hl
theorem Frame.flash_eq (h : Frame l s t) (hl : Blk.flash ∉ l := by decide) : t.flash = s.flash := h .flash hl
theorem Frame.pending_eq (h : Frame l s t) (hl : Blk.pending ∉ l := by decide) : t.pending = s.pending := h .pending hl

/-! ### The named changes of one field -/

theorem State.onInv_frame (s : State) (g : Inv → Inv) : Frame [.inv] s (s.onInv g) := by intro b hb; cases b <;> first | rfl | exact absurd (by decide) hb
theorem State.onHst_frame (s : State) (g : Hst → Hst) : Frame [.hst] s (s.onHst g) := by intro b hb; cases b <;> first | rfl | exact absurd (by decide) hb
theorem State.onTrn_frame (s : State) (g : Trn → Trn) : Frame [.trn] s (s.onTrn g) := by intro b hb; cases b <;> first | rfl | exact absurd (by decide) hb
theorem State.onWin_frame (s : State) (g : Win → Win) : Frame [.win] s (s.onWin g) := by intro b hb; cases b <;> first | rfl | exact absurd (by decide) hb
theorem State.onCq_frame (s : State) (g : Cq → Cq) : Frame [.cq] s (s.onCq g) := by intro b hb; cases b <;> first | rfl | exact absurd (by decide) hb
theorem State.onVol_frame (s : State) (g : Vol → Vol) : Frame [.vol] s (s.onVol g) := by intro b hb; cases b <;> first | rfl | exact absurd (by decide) hb
theorem State.onStr_frame (s : State) (g : Str → Str) : Frame [.str] s (s.onStr g) := by intro b hb; cases b <;> first | rfl | exact absurd (by decide) hb
theorem State.onAttic_frame (s : State) (g : Attic → Attic) : Frame [.attic] s (s.onAttic g) := by intro b hb; cases b <;> first | rfl | exact absurd (by decide) hb
theorem State.onRbd_frame (s : State) (g : Rbd → Rbd) : Frame [.rbd] s (s.onRbd g) := by intro b hb; cases b <;> first | rfl | exact absurd (by decide) hb
theorem State.onRsv_frame (s : State) (g : Rsv → Rsv) : Frame [.rsv] s (s.onRsv g) := by intro b hb; cases b <;> first | rfl | exact absurd (by decide) hb
theorem State.onCip_frame (s : State) (g : Cip → Cip) : Frame [.cip] s (s.onCip g) := by intro b hb; cases b <;> first | rfl | exact absurd (by decide) hb
theorem State.onMac_frame (s : State) (g : Mac → Mac) : Frame [.mac] s (s.onMac g) := by intro b hb; cases b <;> first | rfl | exact absurd (by decide) hb
theorem State.onTc_frame (s : State) (g : Tc → Tc) : Frame [.tc] s (s.onTc g) := by intro b hb; cases b <;> first | rfl | exact absurd (by decide) hb
theorem State.onDrv_frame (s : State) (g : Drv → Drv) : Frame [.drv] s (s.onDrv g) := by intro b hb; cases b <;> first | rfl | exact absurd (by decide) hb
theorem State.onBay_frame (s : State) (g : Bay → Bay) : Frame [.bay] s (s.onBay g) := by intro b hb; cases b <;> first | rfl | exact absurd (by decide) hb
theorem State.onWdn_frame (s : State) (g : Wdn → Wdn) : Frame [.wdn] s (s.onWdn g) := by intro b hb; cases b <;> first | rfl | exact absurd (by decide) hb
theorem State.onPeer_frame (s : State) (g : Peer → Peer) : Frame [.peer] s (s.onPeer g) := by intro b hb; cases b <;> first | rfl | exact absurd (by decide) hb
theorem State.onPwr_frame (s : State) (g : Pwr → Pwr) : Frame [.pwr] s (s.onPwr g) := by intro b hb; cases b <;> first | rfl | exact absurd (by decide) hb
theorem State.onMgt_frame (s : State) (g : Mgt → Mgt) : Frame [.mgt] s (s.onMgt g) := by intro b hb; cases b <;> first | rfl | exact absurd (by decide) hb
theorem State.onGlb_frame (s : State) (g : Glb → Glb) : Frame [.glb] s (s.onGlb g) := by intro b hb; cases b <;> first | rfl | exact absurd (by decide) hb
theorem State.setWord_frame (s : State) (a : Nat) (w : Word) : Frame [.regs] s (s.setWord a w) := by intro b hb; cases b <;> first | rfl | exact absurd (by decide) hb
theorem State.setFld_frame (s : State) (f : Fld) (v : Nat) : Frame [.regs] s (s.setFld f v) := by intro b hb; cases b <;> first | rfl | exact absurd (by decide) hb
theorem State.flag_frame (s : State) (f : Fld) : Frame [.regs] s (s.flag f) := by intro b hb; cases b <;> first | rfl | exact absurd (by decide) hb
theorem State.bump_frame (s : State) (a n : Nat) : Frame [.regs] s (s.bump a n) := by intro b hb; cases b <;> first | rfl | exact absurd (by decide) hb
theorem State.satAdd_frame (s : State) (f : Fld) (v : Nat) : Frame [.regs] s (s.satAdd f v) := by intro b hb; cases b <;> first | rfl | exact absurd (by decide) hb
theorem State.setPair_frame (s : State) (a v : Nat) : Frame [.regs] s (s.setPair a v) := by intro b hb; cases b <;> first | rfl | exact absurd (by decide) hb

theorem State.event_frame (s : State) (e : Event) : Frame [.wdn] s (s.event e) := by
  intro b hb; cases b <;> first | rfl | exact absurd (by decide) hb

theorem State.tallyRaw_frame (s : State) (b c d i : Nat) (a : List Nat) : Frame [.regs, .wdn, .mgt] s (s.tallyRaw b c d i a) := by
  intro x hx
  cases x <;> first | exact absurd (by decide) hx | simp [State.agree]

theorem State.tallyFlag_frame (s : State) (c : TallyClass) (f : Fld) (i : Nat) (a : List Nat) :
    Frame [.regs, .wdn, .mgt] s (s.tallyFlag c f i a) := s.tallyRaw_frame _ _ _ _ _

theorem State.tallyEvent_frame (s : State) (c : TallyClass) (b n i : Nat) (a : List Nat) :
    Frame [.regs, .wdn, .mgt] s (s.tallyEvent c b n i a) := s.tallyRaw_frame _ _ _ _ _

end Sys2Proof.Machine
end

