-- ==== Sys2Proof/Laws/Hoist.lean ====
section
/-!
SUPPORT. What a flow's opening and feeding change: the Hoist block alone.
-/

namespace Sys2Proof.Machine

variable (s : State)

theorem State.feedOne_frame (id : Nat) : Frame [.hst] s (s.feedOne id) := by
  unfold State.feedOne
  repeat' split
  all_goals first
    | exact Frame.refl _ s
    | exact s.onHst_frame fun _ => _

theorem State.feed_frame (id n : Nat) : Frame [.hst] s (s.feed id n) :=
  Frame.foldl (fun s _ => s.feedOne_frame id) _ s

theorem State.openFlow_frame (agent : Nat) (eg : Bool) (u : FlowUse) (r : List (Nat × Nat)) (p : List Byte) (b : Bool) :
    Frame [.hst] s (s.openFlow agent eg u r p b) :=
  Frame.trans (s.onHst_frame fun _ => _) (State.feed_frame _ _ _)

/-! ### What feeding leaves of the flows and of the Cellar -/

theorem replaceFirst_map {α β : Type} (p : α → Bool) (f : α → α) (g : α → β) (h : ∀ a, g (f a) = g a) (l : List α) :
    (replaceFirst p f l).map g = l.map g := by
  induction l with
  | nil => rfl
  | cons a l ih =>
    unfold replaceFirst
    split <;> simp [h, ih]

/-- Feeding moves cells: every flow keeps its id, use and agent, and the Cellar its bytes. -/
theorem State.feedOne_keeps (id : Nat) :
    (s.feedOne id).hst.flows.map (fun f => (f.id, f.use, f.agent)) = s.hst.flows.map (fun f => (f.id, f.use, f.agent)) ∧
      (s.feedOne id).hst.mem = s.hst.mem := by
  have r : ∀ f c, (s.requestCell f c).hst.flows.map (fun f => (f.id, f.use, f.agent)) =
      s.hst.flows.map (fun f => (f.id, f.use, f.agent)) := fun f c =>
    replaceFirst_map (fun (g : Flow) => g.id == f.id) (fun (g : Flow) => { g with issued := g.issued + 1 }) _ (fun _ => rfl) _
  have w : ∀ f c, (s.sendCell f c).hst.flows.map (fun f => (f.id, f.use, f.agent)) =
      s.hst.flows.map (fun f => (f.id, f.use, f.agent)) := fun f c =>
    replaceFirst_map (fun (g : Flow) => g.id == f.id)
      (fun (g : Flow) => { g with issued := g.issued + 1, sent := g.sent ++ [(c.seq, s.now, false)] }) _ (fun _ => rfl) _
  unfold State.feedOne
  repeat' split
  all_goals first
    | exact ⟨rfl, rfl⟩
    | exact ⟨r _ _, rfl⟩
    | exact ⟨w _ _, rfl⟩

theorem State.feed_keeps (id n : Nat) :
    (s.feed id n).hst.flows.map (fun f => (f.id, f.use, f.agent)) = s.hst.flows.map (fun f => (f.id, f.use, f.agent)) ∧
      (s.feed id n).hst.mem = s.hst.mem := by
  unfold State.feed
  generalize List.range n = l
  induction l generalizing s with
  | nil => exact ⟨rfl, rfl⟩
  | cons k l ih =>
    obtain ⟨a, b⟩ := s.feedOne_keeps id
    obtain ⟨c, d⟩ := ih (s.feedOne id)
    exact ⟨c.trans a, d.trans b⟩

/-- Opening a flow adds it behind the others and changes no byte of the Cellar. -/
theorem State.openFlow_keeps (agent : Nat) (eg : Bool) (u : FlowUse) (r : List (Nat × Nat)) (p : List Byte) (b : Bool) :
    (s.openFlow agent eg u r p b).hst.flows.map (fun f => (f.use, f.agent)) =
        s.hst.flows.map (fun f => (f.use, f.agent)) ++ [(u, agent)] ∧
      (s.openFlow agent eg u r p b).hst.mem = s.hst.mem := by
  unfold State.openFlow
  dsimp only
  obtain ⟨h, h'⟩ := State.feed_keeps _ _ _
  refine ⟨?_, h'⟩
  have := congrArg (List.map Prod.snd) h
  simpa [List.map_map, Function.comp_def] using this

end Sys2Proof.Machine
end

