-- ==== Sys2Proof/Laws/RegisterMap.lean ====
section
/-!
SUPPORT. Laws of the register map: the fields of every register lie apart within its 32 bits, and what that gives for a
write and a read of it.
-/

namespace Sys2Proof.Machine

/-- Two fields share no bit. -/
def FieldDesc.apart (f g : FieldDesc) : Prop := f.lo + f.width ≤ g.lo ∨ g.lo + g.width ≤ f.lo

/-- The fields of a descriptor lie apart and within 32 bits, as one decision. -/
def RegDesc.tidy (d : RegDesc) : Bool :=
  (d.fields.all fun f => decide (f.lo + f.width ≤ 32)) &&
    d.fields.tails.all fun l => match l with
      | [] => true
      | f :: t => t.all fun g => decide (f.lo + f.width ≤ g.lo) || decide (g.lo + g.width ≤ f.lo)

theorem RegDesc.apart_of_tidy {d : RegDesc} (h : d.tidy = true) :
    (∀ f ∈ d.fields, f.lo + f.width ≤ 32) ∧ d.fields.Pairwise FieldDesc.apart := by
  simp only [RegDesc.tidy, Bool.and_eq_true, List.all_eq_true, decide_eq_true_eq] at h
  refine ⟨h.1, ?_⟩
  have h2 := h.2
  generalize d.fields = l at h2
  induction l with
  | nil => exact List.Pairwise.nil
  | cons f t ih =>
    refine List.Pairwise.cons (fun g hg => ?_) (ih fun x hx => h2 x ?_)
    · have := h2 (f :: t) (by simp)
      simp only [List.all_eq_true, Bool.or_eq_true, decide_eq_true_eq] at this
      exact this g hg
    · simp [List.tails]; right; simpa using hx

theorem regsGlb_tidy : regsGlb.all RegDesc.tidy = true := by decide +kernel

theorem regsInv_tidy : regsInv.all RegDesc.tidy = true := by decide +kernel

theorem regsHst_tidy : regsHst.all RegDesc.tidy = true := by decide +kernel

theorem regsTrn_tidy : regsTrn.all RegDesc.tidy = true := by decide +kernel

theorem regsCq_tidy : regsCq.all RegDesc.tidy = true := by decide +kernel

theorem regsVol_tidy : regsVol.all RegDesc.tidy = true := by decide +kernel

theorem regsStr_tidy : regsStr.all RegDesc.tidy = true := by decide +kernel

theorem regsCip_tidy : regsCip.all RegDesc.tidy = true := by decide +kernel

theorem regsMac_tidy : regsMac.all RegDesc.tidy = true := by decide +kernel

theorem regsTc_tidy : regsTc.all RegDesc.tidy = true := by decide +kernel

theorem regsDrv_tidy : regsDrv.all RegDesc.tidy = true := by decide +kernel

theorem regsBay_tidy : regsBay.all RegDesc.tidy = true := by decide +kernel

theorem regsWdn_tidy : regsWdn.all RegDesc.tidy = true := by decide +kernel

theorem regsPeer_tidy : regsPeer.all RegDesc.tidy = true := by decide +kernel

theorem regsPwr_tidy : regsPwr.all RegDesc.tidy = true := by decide +kernel

theorem regsMgt_tidy : regsMgt.all RegDesc.tidy = true := by decide +kernel

/-- Every register of the map is tidy. -/
theorem regsOf_tidy (a : Nat) : (regsOf a).all RegDesc.tidy = true := by
  unfold regsOf
  split
  · exact regsGlb_tidy
  · exact regsInv_tidy
  · exact regsHst_tidy
  · exact regsTrn_tidy
  · exact regsCq_tidy
  · exact regsVol_tidy
  · exact regsStr_tidy
  · exact regsCip_tidy
  · exact regsMac_tidy
  · exact regsTc_tidy
  · exact regsDrv_tidy
  · exact regsBay_tidy
  · exact regsWdn_tidy
  · exact regsPeer_tidy
  · exact regsPwr_tidy
  · exact regsMgt_tidy
  · rfl

theorem regDesc_tidy {a : Nat} {d : RegDesc} (h : regDesc a = some d) : d.tidy = true :=
  List.all_eq_true.1 (regsOf_tidy a) d (List.mem_of_find?_eq_some h)

theorem regDesc_fields {a : Nat} {d : RegDesc} (h : regDesc a = some d) :
    (∀ f ∈ d.fields, f.lo + f.width ≤ 32) ∧ d.fields.Pairwise FieldDesc.apart := RegDesc.apart_of_tidy (regDesc_tidy h)

/-- Putting numbers into some fields of a register, each apart from the rest, leaves each with its number, and every other
field with what it held. -/
theorem putFields_spec (g : FieldDesc → Option Nat) (l : List FieldDesc) (hl : ∀ f ∈ l, f.lo + f.width ≤ 32)
    (ha : l.Pairwise FieldDesc.apart) (w : Word) :
    (∀ f ∈ l, getBits (putFields g w l) f.lo f.width =
        match g f with | some v => v % 2 ^ f.width | none => getBits w f.lo f.width) ∧
      ∀ lo n, (∀ f ∈ l, lo + n ≤ f.lo ∨ f.lo + f.width ≤ lo) → getBits (putFields g w l) lo n = getBits w lo n := by
  induction l generalizing w with
  | nil => simp [putFields]
  | cons f t ih =>
    rw [List.pairwise_cons] at ha
    have ih' := ih (fun x hx => hl x (List.mem_cons_of_mem _ hx)) ha.2
      (match g f with | some v => putBits w f.lo f.width v | none => w)
    have hr : putFields g w (f :: t) = putFields g (match g f with | some v => putBits w f.lo f.width v | none => w) t := rfl
    have one : ∀ lo n, (lo + n ≤ f.lo ∨ f.lo + f.width ≤ lo) →
        getBits (match g f with | some v => putBits w f.lo f.width v | none => w) lo n = getBits w lo n := by
      intro lo n h
      split
      · exact getBits_putBits_disjoint h _ _
      · rfl
    refine ⟨fun x hx => ?_, fun lo n h => ?_⟩
    · rcases List.mem_cons.1 hx with rfl | hx
      · rw [hr, ih'.2 _ _ fun y hy => ha.1 y hy]
        split
        · exact getBits_putBits_self (hl x (List.mem_cons_self ..)) _ _
        · rfl
      · rw [hr, ih'.1 x hx]
        split
        · rfl
        · exact one _ _ (by rcases ha.1 x hx with h | h <;> omega)
    · rw [hr, ih'.2 lo n fun y hy => h y (List.mem_cons_of_mem _ hy)]
      exact one lo n (h f (List.mem_cons_self ..))

/-- The fields of a register of the map after a put. -/
theorem putFields_field {a : Nat} {d : RegDesc} (h : regDesc a = some d) (g : FieldDesc → Option Nat) (w : Word)
    {f : FieldDesc} (hf : f ∈ d.fields) :
    getBits (putFields g w d.fields) f.lo f.width =
      match g f with | some v => v % 2 ^ f.width | none => getBits w f.lo f.width :=
  (putFields_spec g d.fields (regDesc_fields h).1 (regDesc_fields h).2 w).1 f hf

end Sys2Proof.Machine
end

