-- ==== Sys2Proof/Laws/Transport.lean ====
section
/-!
SUPPORT. Laws of the transport's SA table, of its send entries, and of what the sending of a packet changes.
-/

namespace Sys2Proof.Machine

variable (s : State)

/-! ### SA entries -/

@[simp] theorem State.sa_setSa_self (n : Nat) (e : BitVec 2048) : (s.setSa n e).sa n = e := by
  simp [State.setSa, State.sa, State.onTrn]

theorem State.sa_setSa_ne {n k : Nat} (h : k ≠ n) (e : BitVec 2048) : (s.setSa n e).sa k = s.sa k := by
  simp [State.setSa, State.sa, State.onTrn, Tab.getD_put_ne (Ne.symm h)]

/-- A part of an SA entry holds what was put there, cut to its bits. -/
theorem State.saGet_saPut_self {p : Part} (h : 8 * p.off + 8 * p.len ≤ 2048) (n v : Nat) :
    (s.saPut n p v).saGet n p = v % 2 ^ (8 * p.len) := by
  simp [State.saPut, State.saGet, getPart_putPart_self h]

theorem State.saGet_saPut_apart {p q : Part} (h : q.off + q.len ≤ p.off ∨ p.off + p.len ≤ q.off) (n v : Nat) :
    (s.saPut n p v).saGet n q = s.saGet n q := by
  simp [State.saPut, State.saGet, getPart_putPart_disjoint h]

theorem State.sa_saPut_ne {n k : Nat} (h : k ≠ n) (p : Part) (v : Nat) : (s.saPut n p v).sa k = s.sa k :=
  s.sa_setSa_ne h _

theorem State.saGet_congr {s t : State} (h : t.trn.sa = s.trn.sa) (n : Nat) (p : Part) : t.saGet n p = s.saGet n p := by
  simp [State.saGet, State.sa, h]

theorem State.sa_congr {s t : State} (h : t.trn.sa = s.trn.sa) (n : Nat) : t.sa n = s.sa n := by
  simp [State.sa, h]

theorem State.setSa_frame (n : Nat) (e : BitVec 2048) : Frame [.trn] s (s.setSa n e) := s.onTrn_frame _

theorem State.saPut_frame (n : Nat) (p : Part) (v : Nat) : Frame [.trn] s (s.saPut n p v) := s.onTrn_frame _

/-! ### Sending a packet (R149, R463, R754) -/

/-- A dropped frame that is no group send's is counted. -/
theorem State.destDropped_frame (f : EgFrame) (sa path : Nat) (pkt : Packet) (msg : Option Nat)
    (hf : f.body = .breren sa path pkt msg) (h : pkt.flags.testBit 4 = false) : Frame [.regs] s (s.destDropped [f]) := by
  unfold State.destDropped
  simp only [List.filterMap_cons, List.filterMap_nil, hf, h, Bool.false_eq_true, if_false]
  split
  · exact Frame.refl _ s
  · exact (s.bump_frame _ _).trans (State.flag_frame _ _)

/-- Placing a frame that is no group send's changes the ports and the registers alone. -/
theorem State.enqueue_frame (n : Nat) (c : EgClass) (prio len : Nat) (waits : Bool) (cut : Option Nat) (sa path : Nat)
    (pkt : Packet) (msg : Option Nat) (h : pkt.flags.testBit 4 = false) :
    Frame [.mac, .regs] s (s.enqueue n c prio len waits cut (.breren sa path pkt msg)).2 := by
  have m : ∀ {t u}, Frame [.regs] t u → Frame [.mac, .regs] t u := fun h => h.mono (by decide)
  have m' : ∀ {t u}, Frame [.mac] t u → Frame [.mac, .regs] t u := fun h => h.mono (by decide)
  unfold State.enqueue
  dsimp only
  split
  · exact m (((s.bump_frame _ _).trans (State.flag_frame _ _)).trans (State.destDropped_frame _ _ sa path pkt msg rfl h))
  · split
    · exact (m' (s.onMac_frame fun _ => _)).trans (m (State.destDropped_frame _ _ sa path pkt msg rfl h))
    · split
      · exact m (((s.bump_frame _ _).trans (State.flag_frame _ _)).trans (State.destDropped_frame _ _ sa path pkt msg rfl h))
      · exact m' (s.onMac_frame fun _ => _)

/-- What a step of the SA table leaves of the transport's block: everything else. -/
def Trn.onSa (t : Trn) (x : Tab (BitVec 2048)) : Trn := { t with sa := x }

/-- What the sending of a packet notes does not depend on the SA table, and leaves it. -/
theorem Trn.sent_onSa (t : Trn) (b : Blocked) (now : Nat) (x : Tab (BitVec 2048)) :
    (t.onSa x).sent b now = (t.sent b now).onSa x := by
  unfold Trn.sent
  split
  · rfl
  · split <;> rfl

@[simp] theorem Trn.sent_sa (t : Trn) (b : Blocked) (now : Nat) : (t.sent b now).sa = t.sa := by
  unfold Trn.sent
  split
  · rfl
  · split <;> rfl

/-- A change of what a packet counter's new value brings: the SA's FLAGS and STATE, the mark being written, statuses and the
Wardens' events. -/
structure CounterStep (n : Nat) (s t : State) : Prop where
  frame : Frame [.trn, .cip, .regs, .wdn] s t
  trn : ∃ x, t.trn = s.trn.onSa x
  counter : t.saGet n Sa.txCounter = s.saGet n Sa.txCounter
  others : ∀ k, k ≠ n → t.sa k = s.sa k

theorem CounterStep.refl (n : Nat) (s : State) : CounterStep n s s := ⟨Frame.refl _ s, ⟨s.trn.sa, rfl⟩, rfl, fun _ _ => rfl⟩

theorem CounterStep.trans {n : Nat} {s t u : State} (h : CounterStep n s t) (h' : CounterStep n t u) : CounterStep n s u := by
  obtain ⟨x, hx⟩ := h.trn
  obtain ⟨y, hy⟩ := h'.trn
  exact ⟨h.frame.trans h'.frame, ⟨y, hy.trans (by rw [hx]; rfl)⟩, h'.counter.trans h.counter,
    fun k hk => (h'.others k hk).trans (h.others k hk)⟩

theorem CounterStep.when {n : Nat} {s t : State} {f : State → State} (b : Bool) (h : CounterStep n s t)
    (h' : CounterStep n t (f t)) : CounterStep n s (t.when b f) := by
  cases b
  · exact h
  · exact h.trans h'

theorem CounterStep.onCip (n : Nat) (s : State) (g : Cip → Cip) : CounterStep n s (s.onCip g) :=
  ⟨(s.onCip_frame g).mono (by decide), ⟨s.trn.sa, rfl⟩, rfl, fun _ _ => rfl⟩

theorem CounterStep.put (n : Nat) (s : State) (p : Part) (v : Nat) (g : Fld) (e : Event) (hp : p.off + p.len ≤ 72) :
    CounterStep n s (((s.saPut n p v).flag g).event e) :=
  ⟨(((s.saPut_frame _ _ _).mono (by decide)).trans ((State.flag_frame _ _).mono (by decide))).trans
    ((State.event_frame _ _).mono (by decide)), ⟨_, rfl⟩,
    s.saGet_saPut_apart (Or.inr hp) n v, fun _ hk => s.sa_saPut_ne hk _ _⟩

theorem CounterStep.saSpent (n : Nat) (s : State) : CounterStep n s (s.saSpent n) := by
  unfold State.saSpent
  split
  · exact CounterStep.put _ _ _ _ _ _ (by decide)
  · exact CounterStep.refl n s

theorem CounterStep.saRekey (n : Nat) (s : State) : CounterStep n s (s.saRekey n) :=
  CounterStep.when _ (CounterStep.refl n s) (CounterStep.put _ _ _ _ _ _ (by decide))

/-- The events of a new counter value. -/
theorem State.counterEvents_law (n : Nat) : CounterStep n s (s.counterEvents n) := by
  unfold State.counterEvents
  refine CounterStep.trans (CounterStep.trans (CounterStep.when _ (CounterStep.refl n s) ?_) (CounterStep.saRekey n _))
    (CounterStep.saSpent n _)
  exact CounterStep.onCip _ _ _

/-- Placing a packet's frame and opening the flow of its payload change the ports, the Hoist and the registers alone. -/
theorem State.placePacket_frame (b : Blocked) (pkt : Packet) (h : pkt.flags.testBit 4 = false) :
    Frame [.mac, .regs, .hst] s (s.placePacket b pkt) := by
  unfold State.placePacket
  dsimp only
  generalize hq : State.enqueue _ _ _ _ _ _ _ _ = q
  have e := s.enqueue_frame (pathSp (s.sa b.sa) b.path) b.cls (s.dscpPrio (getPart (s.sa b.sa) Sa.dscp % 64))
    (s.frameLen b.sa (pathSp (s.sa b.sa) b.path) b.len) (decide (b.runs ≠ [])) b.cut b.sa
    (b.path + 16 * ofBool ((pathByte (s.sa b.sa) b.path).testBit 5)) pkt b.msg h
  rw [hq] at e
  obtain ⟨o, t⟩ := q
  have e' : Frame [.mac, .regs, .hst] s t := e.mono (by decide)
  cases o with
  | none => exact e'
  | some f => exact Frame.ite e' (e'.trans ((State.openFlow_frame _ _ _ _ _ _ _).mono (by decide)))

/-- A packet leaves with its own flags. -/
theorem Packet.leaving_flags (p : Packet) (c i now : Nat) : (p.leaving c i now).flags = p.flags := by
  unfold Packet.leaving
  split <;> rfl

/-- A packet that is no group send's takes the SA's next counter; it changes the SA table, what the transport notes of its
sending, the ports, the Hoist, the counters and the events alone (R149, R754). -/
theorem State.transmit_law (b : Blocked) (h : b.pkt.flags.testBit 4 = false) :
    Frame [.trn, .cip, .regs, .wdn, .mac, .hst] s (s.transmit b) ∧
      (∃ x, (s.transmit b).trn = { s.trn.sent b s.now with sa := x }) ∧
      (s.transmit b).saGet b.sa Sa.txCounter = (s.saGet b.sa Sa.txCounter + 1) % 2 ^ 64 ∧
      ∀ k, k ≠ b.sa → (s.transmit b).sa k = s.sa k := by
  obtain ⟨h1, ⟨x, h2⟩, h3, h4⟩ := (s.saPut b.sa Sa.txCounter (s.saGet b.sa Sa.txCounter + 1)).counterEvents_law b.sa
  have f1 := ((s.saPut_frame b.sa Sa.txCounter (s.saGet b.sa Sa.txCounter + 1)).mono (k := [.trn, .cip, .regs, .wdn]) (by decide)).trans h1
  have c1 := h3.trans (s.saGet_saPut_self (p := Sa.txCounter) (by decide) b.sa _)
  have o1 : ∀ k, k ≠ b.sa → _ = s.sa k := fun k hk => (h4 k hk).trans (s.sa_saPut_ne hk _ _)
  unfold State.transmit
  dsimp only
  simp only [State.when, Packet.leaving_flags, h, Bool.false_and, Bool.false_eq_true, if_false]
  generalize State.counterEvents _ _ = t at h2 f1 c1 o1
  have f2 := f1.trans ((t.bump_frame A.TRN_TX_PKTS 1).mono (by decide))
  have f3 := f2.trans (((t.bump A.TRN_TX_PKTS).onTrn_frame fun r => r.sent b (t.bump A.TRN_TX_PKTS).now).mono (by decide))
  have p := State.placePacket_frame ((t.bump A.TRN_TX_PKTS).onTrn fun r => r.sent b (t.bump A.TRN_TX_PKTS).now) b
    (b.pkt.leaving (s.saGet b.sa Sa.txCounter) (s.saGet b.sa Sa.remoteSa) s.now) (by rw [Packet.leaving_flags]; exact h)
  have hn : t.trn = s.trn.onSa x := h2
  have ht : ((t.bump A.TRN_TX_PKTS).onTrn fun r => r.sent b (t.bump A.TRN_TX_PKTS).now).trn = (s.trn.sent b s.now).onSa x := by
    rw [State.onTrn_trn, State.bump_trn, State.bump_now, f1.now_eq, hn, Trn.sent_onSa]
  have hs := (congrArg Trn.sa p.trn_eq).trans ((congrArg Trn.sa ht).trans (congrArg Trn.sa hn).symm)
  refine ⟨(f3.mono (k := [.trn, .cip, .regs, .wdn, .mac, .hst]) (by decide)).trans (p.mono (by decide)), ⟨x, p.trn_eq.trans ht⟩, ?_, ?_⟩
  · exact (State.saGet_congr hs _ _).trans c1
  · exact fun k hk => (State.sa_congr hs _).trans (o1 k hk)

/-- A packet that may take the next counter, whose SA may send, has a counter below its mark and has no packet waiting that may
go before it, is sent at once. -/
theorem State.sendPkt_sends (b : Blocked) (h1 : s.saOpen b.sa = true) (h2 : s.counterAllows b = true)
    (h4 : s.saGet b.sa Sa.txCounter < s.saMark b.sa)
    (h5 : (s.trn.blocked.any fun x => x.sa == b.sa && s.counterAllows x) = false) : s.sendPkt b = s.transmit b := by
  unfold State.sendPkt
  rw [if_neg (by simp [h1, h2]), if_neg (by simp only [h5, Bool.false_eq_true, or_false]; omega)]

/-- A packet counter's successor below the limit of R466. -/
theorem counter_succ {c : Nat} (h : c < 2 ^ 63) : (c + 1) % 2 ^ 64 = c + 1 := Nat.mod_eq_of_lt (by omega)

end Sys2Proof.Machine
end

