-- ==== Sys2Proof/WellFormed.lean ====
section
/-!
DEFINITION. Which commands are well formed: operands in the ranges that the spec gives them.
-/

namespace Sys2Proof

/-- A register address lies in the 16 MiB register space (R5). -/
def addrOk (a : Nat) : Bool := decide (a < 0x1000000)

/-- A sub-channel exists: 24 bays with main and auxiliary, two feeds with a main one (R577, R578). -/
def subOk (channel sub : Nat) : Bool := decide (channel < 24 ∧ sub < 2) || decide (channel < 26 ∧ sub = 0)

/-- A source address is an IPv4 or IPv6 address (R695). -/
def srcOk (l : List Byte) : Bool := l.length == 4 || l.length == 16

/-- A granule has 32 data and 4 check bytes (R108). -/
def GranuleFault.wellFormed : GranuleFault → Bool
  | .bytes n => decide (n ≤ 36)
  | .location => true

/-- The operands of a command lie in the ranges the spec gives. -/
def Instr.wellFormed (i : Instr) : Bool :=
  match i with
  | .registerWrite _ addr _ => addrOk addr
  | .counterLowRead _ addr => addrOk addr
  | .pairLowWrite _ addr _ => addrOk addr
  | .pairHighWrite _ addr _ => addrOk addr
  | .rcFieldRead _ addr => addrOk addr
  | .loadOpen _ => true
  | .invDataWrite _ _ => true
  | .commitFull _ => true
  | .commitPartial _ => true
  | .abortLoad _ => true
  | .loadIdleTimeout => true
  | .keyProgram _ slot => decide (slot < 4)
  | .raiseFloor _ => true
  | .keyslotRevoke _ slot => decide (slot < 4)
  | .residentCheck _ => true
  | .cellIngress agent _ payload => decide (agent < 42) && decide (payload.length ≤ 256)
  | .cellTime _ bad misplaced =>
    (bad.all fun x => decide (x.1 < 768 * 2 ^ 21) && (GranuleFault.bytes x.2).wellFormed) &&
      misplaced.all fun g => decide (g < 768 * 2 ^ 21)
  | .writeCellCommit group => decide (group < 32)
  | .writeAckReceived agent => decide (agent < 42)
  | .writeAckTimeout _ _ => true
  | .egressCellArrival agent _ => decide (agent < 42)
  | .reseqTimeout _ => true
  | .cellarScrub granule finding => decide (granule < 768 * 2 ^ 21) && finding.wellFormed
  | .ce24hClear => true
  | .hstRetireGo _ pc => decide (pc < 64)
  | .pcFailure pc _ => decide (pc < 64)
  | .pinWaitEnd => true
  | .sliceSwitch => true
  | .pantryScrub bank row _ _ _ => decide (bank < 64) && decide (row < 5120)
  | .sendPacket _ => true
  | .retryTimerExpiry _ _ => true
  | .messageAgeLimit _ => true
  | .receiveReap sa id => decide (sa < 8192) && decide (id < 2 ^ 48)
  | .ackDelayExpiry sa id _ => decide (sa < 8192) && decide (id < 2 ^ 48)
  | .probeTimeout sa way => decide (sa < 8192) && decide (way < 16)
  | .downPathProbe sa way => decide (sa < 8192) && decide (way < 16)
  | .saSyncRetry sa => decide (sa < 8192)
  | .drainingExpiry sa => decide (sa < 8192)
  | .cwndGrowth sa => decide (sa < 8192)
  | .saActivate _ => true
  | .saInvalidate _ => true
  | .saResume _ => true
  | .saSwitch _ successor => decide (successor < 8192)
  | .saWordWrite _ word _ => decide (word < 64)
  | .saHeldMessageStart => true
  | .keyBind _ => true
  | .keyRotate _ => true
  | .keyRevoke _ => true
  | .winWordWrite _ word _ => decide (word < 8)
  | .accessEnd _ => true
  | .retiredKeyExpiry _ => true
  | .commitPlaceWrite => true
  | .capsuleAccept => true
  | .orderedRelease _ => true
  | .readCommand _ => true
  | .writeCommand _ => true
  | .flushCommand _ => true
  | .verifyCommand _ _ _ => true
  | .zeroCommand _ => true
  | .completionPoint _ => true
  | .commandTimeout _ => true
  | .queueCreate _ => true
  | .queueDelete _ => true
  | .queueReset _ => true
  | .adminAbort _ => true
  | .selfTestStart _ => true
  | .selfTestAbort _ => true
  | .selfTestResult _ => true
  | .identify _ => true
  | .logRead _ => true
  | .featureGet _ => true
  | .featureSet _ => true
  | .firmwareSegment _ => true
  | .firmwareActivate _ => true
  | .controllerReset _ => true
  | .epEnable _ endpoint => decide (endpoint < 4096)
  | .epDisable _ endpoint => decide (endpoint < 4096)
  | .volRead _ => true
  | .volWrite _ => true
  | .extentCommit => true
  | .volActivate _ => true
  | .volDeactivate _ => true
  | .deactivateDone => true
  | .volInit _ => true
  | .initDone => true
  | .stripeWriteAdmit => true
  | .bufferComplete _ _ => true
  | .checkpoint _ => true
  | .periodicCheckpoint => true
  | .checkpointDone => true
  | .shutdown _ => true
  | .discardGroup _ group => decide (group < 8)
  | .powerLossAssert => true
  | .dumpSealed => true
  | .powerHoldExit => true
  | .powerLossDeassert => true
  | .replay _ _ _ => true
  | .replayDone => true
  | .memberStateChange group member => decide (group < 8) && decide (member < 24)
  | .rebuildStripe group _ _ => decide (group < 8)
  | .rebuildRecord => true
  | .patrolStripe group _ _ => decide (group < 8)
  | .patrolLate group => decide (group < 8)
  | .patrolStart _ group => decide (group < 8)
  | .patrolStop _ => true
  | .resolve _ => true
  | .reshapeStart _ => true
  | .reshapeAbort _ => true
  | .groupRedefine _ group => decide (group < 8)
  | .reshapeStep => true
  | .pendingReadReady _ => true
  | .latencyDecay => true
  | .hedgeStart _ => true
  | .fillDone _ => true
  | .hotnessDecay => true
  | .pinHoldExpiry => true
  | .groupSend _ => true
  | .stompResend _ _ => true
  | .install _ kind _ => decide (1 ≤ kind ∧ kind ≤ 4)
  | .installDone => true
  | .cipClear _ kind _ => decide (1 ≤ kind ∧ kind ≤ 4)
  | .zeroise _ confirm => decide (confirm < 256)
  | .alarmOnset _ => true
  | .level2ZeroingDone => true
  | .pipeCheckFail pipe _ => decide (pipe < 128)
  | .pipeRetiredWrite _ word _ => decide (word < 4)
  | .counterMarkLanded sa => decide (sa < 8192)
  | .jobStart _ channel => decide (channel < 2)
  | .jobCancel _ channel => decide (channel < 2)
  | .jobEnd channel => decide (channel < 2)
  | .frameReceive sp _ _ _ _ => decide (sp ≤ 32)
  | .linkChange sp _ _ => decide (sp ≤ 32)
  | .preemptVerify sp _ => decide (sp ≤ 32)
  | .pauseXoff port => decide (port < 8)
  | .pauseXon port => decide (port < 8)
  | .watchdogBreak sp prio => decide (sp ≤ 32) && decide (prio ≤ 8)
  | .holdOffEnd sp => decide (sp ≤ 32)
  | .frameTransmit turn => decide (turn.sp ≤ 32)
  | .counterSnap _ => true
  | .counterRelease _ => true
  | .mdioOp _ _ => true
  | .mdioDone data => decide (data < 65536)
  | .histogramSample => true
  | .insertionRecognised insertion => decide (insertion.bay < 24)
  | .removalRecognised bay => decide (bay < 24)
  | .perstRelease bay => decide (bay < 24)
  | .driveLinkUp bay rate width _ => decide (bay < 24) && decide (3 ≤ rate) && decide (rate ≤ 6) && [1, 2, 4].contains width
  | .trainingTimeout bay => decide (bay < 24)
  | .driveLinkDown loss => decide (loss.bay < 24)
  | .driveLost bay _ => decide (bay < 24)
  | .retrainTimeout bay => decide (bay < 24)
  | .bayPowerGone bay => decide (bay < 24)
  | .portStart _ bay => decide (bay < 24)
  | .portReady _ bay => decide (bay < 24)
  | .portUnfit _ bay => decide (bay < 24)
  | .portRelease _ bay => decide (bay < 24)
  | .msixScan bay _ => decide (bay < 24)
  | .resvRegister _ bay => decide (bay < 24)
  | .resvAcquire _ bay => decide (bay < 24)
  | .resvPreempt _ bay => decide (bay < 24)
  | .resvReport _ bay => decide (bay < 24)
  | .resvDone bay _ _ => decide (bay < 24)
  | .nvmeMiPoll bay _ => decide (bay < 24)
  | .channelEnable _ channel sub => subOk channel sub
  | .channelDisable _ channel sub => subOk channel sub
  | .powerGoodGiven channel sub => subOk channel sub
  | .powerGoodLost channel sub => subOk channel sub
  | .breakerTrip channel sub => subOk channel sub
  | .timerTrip channel sub => subOk channel sub
  | .inrushTrip channel sub => subOk channel sub
  | .latchRelease channel sub => subOk channel sub
  | .reverseCurrent channel sub _ => subOk channel sub
  | .telemetryUpdate samples => samples.all fun t => subOk t.channel t.sub
  | .bayTelSelWrite _ _ => true
  | .disagreement core _ => decide (core < 3)
  | .signatureCompare => true
  | .memorySweep _ => true
  | .wardenRestart _ => true
  | .fenceExpiry core => decide (core < 3)
  | .bistDone core _ => decide (core < 3)
  | .resyncCopy core => decide (core < 3)
  | .coreFence _ core => decide (core < 3)
  | .coreResync _ core => decide (core < 3)
  | .coreRetire _ core => decide (core < 3)
  | .wdnActivate _ => true
  | .wdnRaiseFloor _ => true
  | .wfi => true
  | .timerInterrupt => true
  | .stocktakeTest item _ _ => decide (item ≤ 10)
  | .stockReport => true
  | .wdnReportRead _ => true
  | .peerFrameReceive _ => true
  | .peerRetransmit => true
  | .sidebandFrameReceive _ => true
  | .sidebandHeartbeatSend => true
  | .sidebandWake => true
  | .sidebandWakeAck => true
  | .peerLinkLost => true
  | .sidebandLost => true
  | .arbitrationDecide => true
  | .mirrorWaitExpiry => true
  | .mirrorFail _ => true
  | .handoverGive _ groups => decide (groups < 256)
  | .handoverQuiesced => true
  | .handoverWaitExpiry _ => true
  | .takeover _ groups => decide (groups < 256)
  | .takeoverDone _ _ => true
  | .peerOpen _ groups => decide (groups < 256)
  | .peerYield _ => true
  | .peerJoin _ => true
  | .setOwn _ groups => decide (groups < 256)
  | .modeRequest _ mode => decide (mode < 4)
  | .modeCommit => true
  | .drainTimeout => true
  | .modeEntryDone => true
  | .powerWake _ => true
  | .exitDone _ _ => true
  | .wakePeer _ => true
  | .islandLoopTick island _ _ => decide (island < 128)
  | .avsUpdate _ => true
  | .ledgerRead src port id count addr => srcOk src && decide (port < 65536) && decide (id < 2 ^ 32) && decide (count < 65536) && decide (addr < 2 ^ 32)
  | .ledgerWrite src port id addr _ => srcOk src && decide (port < 65536) && decide (id < 2 ^ 32) && decide (addr < 2 ^ 32)
  | .writeFixed src port id addr _ => srcOk src && decide (port < 65536) && decide (id < 2 ^ 32) && decide (addr < 2 ^ 32)
  | .smbusBlockWrite port bytes _ => decide (port < 2) && decide (bytes.length ≤ 255)
  | .smbusBlockRead port => decide (port < 2)
  | .tallyAdvance _ _ => true
  | .tallyRecRead _ => true
  | .tallyAppend _ => true
  | .eventFrameSend => true
  | .startShort _ => true
  | .startExtended _ => true
  | .stAbort _ => true
  | .selfTestEnd _ => true
  | .fwOpen _ => true
  | .fwDataWrite _ _ => true
  | .verifyStage _ => true
  | .fwActivate _ => true
  | .dbgDataWrite _ _ => true
  | .dbgOpen _ => true
  | .dbgCommit _ => true
  | .powerOnReset => true
  | .resetPin => true
  | .glbReset _ confirm => decide (confirm < 256)
  | .bootStart _ _ _ => true
  | .pgInLow => true
  | .spiRead _ length => decide (length ≤ 64)
  | .spiProgram _ length => decide (length ≤ 64)
  | .erase4k _ => true
  | .erase64k _ => true
  | .spiDone _ => true
  | .therm _ => true
  | .limitingStart channel sub => subOk channel sub
  | .limitingEnd channel sub => subOk channel sub
  | .alarmConditionEnd _ => true
  | .suspectProbeSend sa way => decide (sa < 8192) && decide (way < 16)
  | .pauseTimerExpiry sp => decide (sp ≤ 32)
  | .mgtLinkChange _ speed _ => decide (speed < 4)
  | .clkreqChange bay _ => decide (bay < 24)
  | .groupCopyPinRelease => true
  | .tallyRecordAge => true
  | .peerLinkGroupChange mask => decide (mask < 4)

end Sys2Proof
end

