-- ==== Sys2Proof/Tests/Slice0.lean ====
section
/-!
SUPPORT. Tests. First the ill-formed terms that `Instr.wellFormed` refuses; then small states; then, for each statement of
Certificates/Slice0/Obligations.lean with premises, states and operands that meet the premises of its clauses together.
-/

open Sys2Proof Sys2Proof.Machine

namespace Sys2Proof.Tests

set_option linter.unusedVariables false
set_option Elab.async false

/-! ### Ill-formed commands -/

/-- A telemetry sample of no sub-channel. -/
def badSample : TelSample := ⟨26, 0, 0, 0, 0, 0, 0⟩

theorem test_ill_formed_1 : ([
    .registerWrite .mgmt 0x1000000 0,
    .counterLowRead .mgmt 0x1000000,
    .pairLowWrite .mgmt 0x1000000 0,
    .pairHighWrite .mgmt 0x1000000 0,
    .rcFieldRead .mgmt 0x1000000,
    .keyProgram .mgmt 4,
    .keyslotRevoke .mgmt 4,
    .cellIngress 42 0 [],
    .cellIngress 0 0 (List.replicate 257 0),
    .writeCellCommit 32,
    .writeAckReceived 42,
    .egressCellArrival 42 0,
    .cellarScrub (768 * 2 ^ 21) .location,
    .cellarScrub 0 (.bytes 37),
    .cellTime [] [(0, 37)] [],
    .cellTime [] [(768 * 2 ^ 21, 1)] [],
    .cellTime [] [] [768 * 2 ^ 21],
    .hstRetireGo .mgmt 64,
    .pcFailure 64 false,
    .pantryScrub 64 0 false none false,
    .pantryScrub 0 5120 false none false,
    .receiveReap 8192 0,
    .receiveReap 0 (2 ^ 48),
    .ackDelayExpiry 8192 0 false,
    .ackDelayExpiry 0 (2 ^ 48) false,
    .probeTimeout 8192 0,
    .probeTimeout 0 16,
    .downPathProbe 8192 0,
    .downPathProbe 0 16,
    .saSyncRetry 8192,
    .drainingExpiry 8192,
    .cwndGrowth 8192,
    .saSwitch .mgmt 8192] : List Instr).all (fun i => !i.wellFormed) = true := by decide +kernel

theorem test_ill_formed_2 : ([
    .saWordWrite .mgmt 64 0,
    .winWordWrite .mgmt 8 0,
    .epEnable .mgmt 4096,
    .epDisable .mgmt 4096,
    .discardGroup .mgmt 8,
    .memberStateChange 8 0,
    .memberStateChange 0 24,
    .rebuildStripe 8 [] [],
    .patrolStripe 8 [] [],
    .patrolLate 8,
    .patrolStart .mgmt 8,
    .groupRedefine .mgmt 8,
    .install .mgmt 0 0,
    .install .mgmt 5 0,
    .cipClear .mgmt 0 0,
    .cipClear .mgmt 5 0,
    .zeroise .mgmt 256,
    .pipeCheckFail 128 0,
    .pipeRetiredWrite .mgmt 4 0,
    .counterMarkLanded 8192,
    .jobStart .mgmt 2,
    .jobCancel .mgmt 2,
    .jobEnd 2,
    .frameReceive 33 0 0 false [],
    .linkChange 33 false false,
    .preemptVerify 33 false,
    .pauseXoff 8,
    .pauseXon 8,
    .watchdogBreak 33 0,
    .watchdogBreak 0 9] : List Instr).all (fun i => !i.wellFormed) = true := by decide +kernel

theorem test_ill_formed_3 : ([
    .holdOffEnd 33,
    .frameTransmit ⟨33, none⟩,
    .mdioDone 65536,
    .insertionRecognised ⟨24, none⟩,
    .removalRecognised 24,
    .perstRelease 24,
    .driveLinkUp 24 0 0 false,
    .trainingTimeout 24,
    .driveLinkDown ⟨24, false⟩,
    .driveLost 24 false,
    .retrainTimeout 24,
    .bayPowerGone 24,
    .portStart .mgmt 24,
    .portReady .mgmt 24,
    .portUnfit .mgmt 24,
    .portRelease .mgmt 24,
    .msixScan 24 ⟨0, []⟩,
    .resvRegister .mgmt 24,
    .resvAcquire .mgmt 24,
    .resvPreempt .mgmt 24,
    .resvReport .mgmt 24,
    .resvDone 24 0 0,
    .nvmeMiPoll 24 none,
    .channelEnable .mgmt 26 0,
    .channelEnable .mgmt 24 1,
    .channelDisable .mgmt 26 0,
    .channelDisable .mgmt 24 1,
    .powerGoodGiven 26 0,
    .powerGoodGiven 24 1,
    .powerGoodLost 26 0] : List Instr).all (fun i => !i.wellFormed) = true := by decide +kernel

theorem test_ill_formed_4 : ([
    .powerGoodLost 24 1,
    .breakerTrip 26 0,
    .breakerTrip 24 1,
    .timerTrip 26 0,
    .timerTrip 24 1,
    .inrushTrip 26 0,
    .inrushTrip 24 1,
    .latchRelease 26 0,
    .latchRelease 24 1,
    .reverseCurrent 26 0 false,
    .reverseCurrent 24 1 false,
    .telemetryUpdate [badSample],
    .disagreement 3 0,
    .fenceExpiry 3,
    .bistDone 3 false,
    .resyncCopy 3,
    .coreFence .mgmt 3,
    .coreResync .mgmt 3,
    .coreRetire .mgmt 3,
    .stocktakeTest 11 0 false,
    .handoverGive .mgmt 256,
    .takeover .mgmt 256,
    .peerOpen .mgmt 256,
    .setOwn .mgmt 256,
    .modeRequest .mgmt 4,
    .islandLoopTick 128 false false,
    .ledgerRead [1] 0 0 0 0,
    .ledgerRead [1, 2, 3, 4] 65536 0 0 0,
    .ledgerRead [1, 2, 3, 4] 0 (2 ^ 32) 0 0,
    .ledgerRead [1, 2, 3, 4] 0 0 65536 0] : List Instr).all (fun i => !i.wellFormed) = true := by decide +kernel

theorem test_ill_formed_5 : ([
    .ledgerRead [1, 2, 3, 4] 0 0 0 (2 ^ 32),
    .ledgerWrite [1] 0 0 0 [],
    .ledgerWrite [1, 2, 3, 4] 65536 0 0 [],
    .ledgerWrite [1, 2, 3, 4] 0 (2 ^ 32) 0 [],
    .ledgerWrite [1, 2, 3, 4] 0 0 (2 ^ 32) [],
    .writeFixed [1] 0 0 0 [],
    .writeFixed [1, 2, 3, 4] 65536 0 0 [],
    .writeFixed [1, 2, 3, 4] 0 (2 ^ 32) 0 [],
    .writeFixed [1, 2, 3, 4] 0 0 (2 ^ 32) [],
    .smbusBlockWrite 2 [] false,
    .smbusBlockWrite 0 (List.replicate 256 0) false,
    .smbusBlockRead 2,
    .glbReset .mgmt 256,
    .spiRead .mgmt 65,
    .spiProgram .mgmt 65,
    .limitingStart 26 0,
    .limitingStart 24 1,
    .limitingEnd 26 0,
    .limitingEnd 24 1,
    .suspectProbeSend 8192 0,
    .suspectProbeSend 0 16,
    .pauseTimerExpiry 33,
    .mgtLinkChange false 4 false,
    .clkreqChange 24 false,
    .peerLinkGroupChange 4] : List Instr).all (fun i => !i.wellFormed) = true := by decide +kernel

theorem test_well_formed : ([.registerWrite .mgmt 0xFFFFFC 0, .cellIngress 41 0 (List.replicate 256 0), .install .mgmt 4 0,
    .channelEnable .mgmt 23 1, .channelEnable .mgmt 25 0] : List Instr).all Instr.wellFormed = true := by decide +kernel

/-! ### States -/

/-- The block running after a boot without an Inventory. -/
def run : State := { State.reset with glb := { State.reset.glb with phase := .running } }
/-- The same block in another phase. -/
def inPhase (p : ChipPhase) : State := { State.reset with glb := { State.reset.glb with phase := p } }
/-- The same block in another power mode. -/
def inMode (m : PowerMode) : State := { run with pwr := { run.pwr with cur := m } }
def withMgt (f : Mgt → Mgt) : State := run.onMgt f
def tallyFull : State := withMgt fun m => { m with unread := 4096, read := 5, seq := 77 }
def evWait : State := ((withMgt fun m => { m with waiting := List.replicate 17 5 }).setFld F.MGT_CTRL_EVT_EN 1).setFld F.MGT_EVT_PORT_PORT 99
def evSend : State := evWait.setSp 32 { spDefault with link := true }
def tallyOld : State :=
  { (withMgt fun m => { m with tally := [(0, 0)], unread := 1 }).setFld F.WDN_IRQ_EN_EN 0x3FFFF with now := 2000000 }
def ledger : State := (run.setFld F.MAC_MGT_CTRL_EN 1).setFld F.MGT_CTRL_LEDGER_EN 1
def ledgerUp : State := ledger.setSp 32 { spDefault with link := true }
def ledgerKept : State := ledgerUp.onMgt fun m => { m with replies := [⟨[1, 2, 3, 4], 9, 7, [5], 0⟩] }
def testing (k : Nat) (l : List (Nat × Nat)) : State := withMgt fun m => { m with test := some ⟨k, 2, 0, 3, l, 0, 12⟩ }
def testPatrol : State := (testing 2 []).setPatrol 1 { (run.patrol 1) with ext := some 4 }
def capOp (n : Nat) : BitVec 512 := putBytes 0 0 1 n
def slot0 : Slot :=
  { state := .executing, cap := 0, accepted := 0, order := 0, sa := 0, port := 0, fua := false, started := true
    xlate := [], wait := .running, status := 0, result := 0, service := 0, fetchNext := 0, fetches := [], staging := none
    access := none, intents := [], toAdmit := [], unready := [], messages := [], blocks := [], lines := [], fails := []
    covers := [], stopped := false, timedOut := false }
def dbgHead : List Byte := beBytes 128 0x4B44424701000100A100244B0000000000000000000000000000000000000000000000000000000000000000000000000000000000000000000000000000000000000000000000000000000000000000000000000000000000000000000000000000000000000000000000000000000000000000000000000000000000000000
def dbgSig : List Byte := beBytes 208 0x4077A41D4606FFA1464793C7E5FDC7D98CB9D3910202DCD06BEA4F240D3566DA6B408BBAE5026580D02D7E5C70500C831C995F7CA0B0C42837D0BBE9602A9FC998520B41C85115AA5F7684C0EDC111EACC24ABD6BE4B5D298B65F28600A2F1DF10000000000000011DE24A2C251C777573CAC5EA025E467F208E51DBFF98FC54F6661CBE56583B037882F4A1CA297E60ABCDBC3836D84BC31AFAF6694C37AB97337EC5A23B44F8EC5FE0526F4DFEBEA54E88708F9116930929AF2ED759631B865EF222BCEC896270000000000000000
def fwHead : List Byte := beBytes 128 0x4B46574901000000A100244B501100000700000000000000001000000800000000000000000000000000000000000000C0E59A3E3FFBD3B5C75428FB36432FACABC745944296FF515F737C4FEF4EFC64586809F7A16F56354A1EAECF2AA8D7740000000000000000000000000000000000000000000000000000000000000000
def fwSig : List Byte := beBytes 208 0x4077A41D4606FFA1464793C7E5FDC7D98CB9D3910202DCD06BEA4F240D3566DA6B408BBAE5026580D02D7E5C70500C831C995F7CA0B0C42837D0BBE9602A9FC998520B41C85115AA5F7684C0EDC111EACC24ABD6BE4B5D298B65F28600A2F1DF10000000000000011DE24A2C251C777573CAC5EA025E467F208E51DBFF98FC54F6661CBE56583B037882F4A1CA297E60ABCDBC3836D84BCDDE8CDD3BC2E2B21393388B477E600278F77A7DBF5AF5424B53F3ADC8C54930ED3055598B12BBB80EDAAED666F62214D0000000000000000
def keyHash : Nat :=  0x724B9957582F0A755FA67E1FEBC163DF570EE375B3C866FE2AA156994BD692F9C3425BD40DD1059A7921B8A27DAE21E2

def keyed : State := { run with fuses := { run.fuses with keys := [(0, { hash := some keyHash, revoked := false })] } }
def fwImage : List Byte := fwHead ++ List.replicate 4096 0 ++ fwSig
def staged : State := keyed.stageBytes 0 fwImage
def fwBusy : State := { run with cq := { run.cq with slots := [(0, { slot0 with cap := putPart 0 Cap.opcode 0x46 })] } }
def dbgOk : State := keyed.onMgt fun m => { m with dbg := dbgHead ++ dbgSig }
def invHead : List Byte := beBytes 128 0x4B494E5601000000A100244BB00A00000500000000000000000000000000000000000000000000000B000000000000002D841F75602E071318F170543892F1D18BBFF1BC3F53145B30F5E09C09D71026C5B79556DB1C4271ACA17B7DCD670E010000000000000000000000000000000000000000000000000000000000000000
def invSig : List Byte := beBytes 208 0x4077A41D4606FFA1464793C7E5FDC7D98CB9D3910202DCD06BEA4F240D3566DA6B408BBAE5026580D02D7E5C70500C831C995F7CA0B0C42837D0BBE9602A9FC998520B41C85115AA5F7684C0EDC111EACC24ABD6BE4B5D298B65F28600A2F1DF10000000000000011DE24A2C251C777573CAC5EA025E467F208E51DBFF98FC54F6661CBE56583B037882F4A1CA297E60ABCDBC3836D84BCE6463AB9B45672F24BA5C139F2452C1B4ACDF6CBECA7C2D5A98587D4A9918D49B9BC91EE61780A777184B1A4C868F5A20000000000000000
def invPart : List Byte := beBytes 368 0x4B494E5601000100A100244B700100000600000000000000050000000000000000000000000000000100000000000000DCBFFB1BFAEBD3C6234A7E096AED34B673108DCAAA849F5BAF88A15B17F621168C030120581B5BD5B3389316E62C5CC20000000000000000000000000000000000000000000000000000000000000000130001002000000001000000786BE790080000000200E8030A0001000000000004077A41D4606FFA1464793C7E5FDC7D98CB9D3910202DCD06BEA4F240D3566DA6B408BBAE5026580D02D7E5C70500C831C995F7CA0B0C42837D0BBE9602A9FC998520B41C85115AA5F7684C0EDC111EACC24ABD6BE4B5D298B65F28600A2F1DF10000000000000011DE24A2C251C777573CAC5EA025E467F208E51DBFF98FC54F6661CBE56583B037882F4A1CA297E60ABCDBC3836D84BCFC2381AA3B7D91C09CABA287227DF8EFB932C2132DBBFBADEBBF52262C802A6A626D4778B3DA1A45B2A1809A659654A90000000000000000
def islandBody : List Byte := (List.range 128).flatMap fun i =>
  beBytes 1 i ++ beBytes 1 (if islandRefOnly i then 1 else 0) ++ leBytes 2 (islandLimit i) ++ leBytes 2 600 ++ leBytes 2 850
def laneBody : List Byte := beBytes 16 0x00000100000102030001010000010203 ++
  ((List.range 6).flatMap fun n => [1, BitVec.ofNat 8 n, 2, 6, 0, 1, 255, 255]) ++ [3, 0, 0, 0, 0, 255, 255, 255]
def agentBody : List Byte := leBytes 8 0x1FFFFFFF03 ++ leBytes 32 0
def pantryBody : List Byte :=
  [(1, 256), (2, 128), (3, 128), (4, 256), (5, 64), (6, 1024), (7, 512), (8, 8), (9, 64), (10, 64), (11, 64), (12, 64), (13, 64),
    (14, 1)].flatMap fun (c, n) => leBytes 1 c ++ leBytes 1 (if c = 4 ∨ c = 5 then 1 else 0) ++ leBytes 2 1 ++ leBytes 4 n
def authorityBody : List Byte := leBytes 2 47077 ++ leBytes 2 47078 ++ List.replicate 8 1 ++ [3, 0, 0, 0]
def groupBody : List Byte := [0, 4, 14, 0, 0, 1, 2, 3] ++ List.replicate 20 255 ++ leBytes 4 0x10
def profileBody : List Byte := (List.range 26).flatMap fun c =>
  leBytes 4 (c + 0x40000) ++ leBytes 2 3000 ++ leBytes 2 (if c < 24 then 500 else 0) ++ leBytes 4 1000 ++ leBytes 4 10
def schedNode (id parent level sp : Nat) : List Byte :=
  leBytes 4 id ++ leBytes 4 parent ++ leBytes 2 level ++ leBytes 2 sp ++ leBytes 4 2048 ++ leBytes 16 0
def schedBody : List Byte := [0, 4].flatMap fun p =>
  let r := p * 2 ^ 25
  schedNode r 0xFFFFFFFF 0 p ++ schedNode (2 ^ 30 + r) r 1 p ++ schedNode (2 ^ 31 + r + 1) (2 ^ 30 + r) 2 p ++
    schedNode (3 * 2 ^ 30 + r + 1) (2 ^ 31 + r + 1) 3 p
def policerBody : List Byte := leBytes 8 0 ++ leBytes 4 1 ++ leBytes 4 1000 ++ leBytes 4 2000 ++ leBytes 4 9600 ++ leBytes 8 9600
def limitBody : List Byte := (List.range 26).flatMap fun c => leBytes 2 c ++ leBytes 6 300
def larderBody : List Byte := leBytes 4 16 ++ leBytes 2 2 ++ leBytes 2 1000 ++ leBytes 2 10 ++ [1, 0, 0, 0, 0, 0]
/-- The sections of an Inventory: type, record count, body. -/
def invSections : List Section :=
  [⟨1, 128, islandBody⟩, ⟨2, 9, laneBody⟩, ⟨3, 1, agentBody⟩, ⟨4, 14, pantryBody⟩, ⟨6, 1, authorityBody⟩, ⟨7, 1, groupBody⟩,
   ⟨8, 26, profileBody⟩, ⟨0x10, 8, schedBody⟩, ⟨0x11, 1, policerBody⟩, ⟨0x12, 26, limitBody⟩, ⟨0x13, 1, larderBody⟩]
def sectionBytes (x : Section) : List Byte :=
  leBytes 2 x.code ++ [1, 0] ++ leBytes 4 (16 + x.body.length) ++ leBytes 4 x.count ++ leBytes 4 (crc32c x.body).toNat ++ x.body
def invImage : List Byte := invHead ++ invSections.flatMap sectionBytes ++ invSig
/-- The block with that Inventory in force. -/
def shelf0 : State := { run with inv := { run.inv with
  state := .locked, lock := true, sections := sectionTable invSections, flags := 0, path := none, buffer := [] } }
/-- A load that a path has opened. -/
def loading (s : State) (l : List Byte) : State :=
  { s with inv := { s.inv with prior := s.inv.state, state := .opened, path := some .mgmt, buffer := l } }
def loadFull : State := loading keyed invImage
def loadAgain : State := loading { shelf0 with fuses := keyed.fuses } invImage
def loadPart : State := loading { shelf0 with
  fuses := keyed.fuses, attic := { shelf0.attic with resident := [⟨0x13, larderBody, sha384 larderBody, 5⟩] } } invPart
def late (n : Nat) (s : State) : State := { s with now := n }
/-- The block with that Inventory and one Cellar region of eight segments for each kind. -/
def shelf : State := (List.range 8).foldl (fun s n => s.setWord (A.HST_REGION n) (BitVec.ofNat 32 (8 * n + 2 ^ 13 + (n + 1) * 2 ^ 20))) shelf0
def onHst (f : Hst → Hst) (s : State) : State := s.onHst f
/-- A write cell of agent 0 to cell 3, 4 bytes from byte 8 on. -/
def wCell : HCell :=
  { src := 0, dst := 0, flow := 9, seq := 1, kind := .write, last := true, poison := false, start := 8, caddr := 3, data := [1, 2, 3, 4] }
def rCell (q : Nat) : HCell := { wCell with dst := 0, kind := .read, seq := q, start := 0, data := List.replicate 256 7 }
def wFlow : Flow :=
  { id := 9, agent := 0, egress := false, use := .packet 1 0 none, cells := [{ wCell with seq := 0 }, wCell, { wCell with seq := 2 }]
    issued := 3, next := 0, held := [], got := [], acked := [], sent := [(0, 0, false), (1, 0, false), (2, 0, false)], lastArrival := 0
    retry := false, poison := false }
def rFlow : Flow :=
  { wFlow with egress := true, use := .send 1, cells := [rCell 0, rCell 1, rCell 2], issued := 3, sent := [] }
def cellWait (c : HCell) : State := shelf.onHst fun h => { h with wbuf := [(bankGroup c.caddr, [c, wCell])] }
def cellBad : State := (cellWait wCell).onHst fun h => { h with pcs := [(6, { pcDefault with critical := true }), (7, { pcDefault with critical := true })] }
def voqOne : State := shelf.onHst fun h => { h with voq := [(0 * 32 + bankGroup 3, [wCell])] }
def ackWait : State := run.onHst fun h => { h with acks := [⟨0, 9, 1, .ok⟩], flows := [wFlow] }
def eggWait : State := run.onHst fun h => { h with egress := [rCell 1], flows := [rFlow] }
def reseqWait : State := late 10000000 (run.onHst fun h => { h with flows := [{ rFlow with held := [rCell 2] }] })
def scrub : State := ((run.setFld F.HST_CTRL_CELLAR_SCRUB_EN 1).setFld F.HST_CTRL_PANTRY_SCRUB_EN 1).setFld F.HST_CTRL_AUTO_RETIRE 0
def scrubSeen : State := scrub.onHst fun h => { h with pantryCe := [5120 + 2] }
def noRetire : State := run.onHst fun h => { h with pcs := (List.range 5).map fun p => (2 * p + 20, { pcDefault with state := .retired }) }
def migrating (w f : Bool) (todo : List Nat) : State :=
  run.onHst fun h => { h with migration := [⟨5, f, w, [], todo⟩], pool := [(8, 3), (9, 1)] }
def setParts (n : Nat) (l : List (Part × Nat)) : BitVec (8 * n) := l.foldl (fun e x => putPart e x.1 x.2) 0
/-- An SA entry in a state with two UP paths, on sub-ports 0 and 4. -/
def saEnt (st : Nat) (l : List (Part × Nat)) : BitVec 2048 :=
  l.foldl (fun e x => putPart e x.1 x.2) (putBytes (putBytes (setParts 256 [(Sa.state, st), (Sa.endpoint, 1), (Sa.remoteSa, 7),
    (Sa.remotePort, 47077), (Sa.cwnd, 512), (Sa.txCounter, 100), (Sa.pathState, 0xFFFFFFF0), (Sa.srtt, 10000)]) 48 1 0x80) 49 1 0x84)
def saKey : KeyRec := { bits := 256, usage := 0, key := List.replicate 32 1, saltDown := [1, 2, 3, 4], saltUp := [5, 6, 7, 8] }
/-- The shelf with SA 3 in a state, its keys loaded, and the transport on. -/
def saShelf (st : Nat) (l : List (Part × Nat)) : State :=
  let s := (shelf.setFld F.TRN_CTRL_EN 1).setFld F.TRN_SA_SEL_SA 3
  { s with trn := { s.trn with sa := [(3, saEnt st l), (4, saEnt 1 [])] }, cip := { s.cip with sa := [(3, saKey), (4, saKey)] }
           attic := { s.attic with saMarks := [(3, ⟨65536, 0⟩), (4, ⟨65536, 0⟩)] } }
def onTrn (f : Trn → Trn) (s : State) : State := { s with trn := f s.trn }
def txMsg (use : MsgUse) : TxMsg :=
  { key := 20, sa := 3, id := 0, opcode := .place, commit := false, group := false, length := 12, wkey := 0, offset := 0, use := use
    data := .bytes (List.replicate 12 5), packets := [], first := none }
def sentPkt : TxPacket :=
  { index := 0, sentAt := 0, path := 0, retries := 0, interval := 100000, acked := false, runs := [], stomped := false, resent := false }
def rxMsg : RxMsg :=
  { key := 30, sa := 3, id := 0, reply := false, opcode := .place, length := 12, commit := false, wkey := 0, marked := [], landing := []
    base := none, created := 0, sinceAck := 1, ackFrom := some 0, trigIndex := 0, trigPath := 0, ce := 0 }
def toSend : State := onTrn (fun t => { t with tx := [txMsg (.fetchReply 1)] }) (saShelf 1 [])
def toResend : State := late 200000 (onTrn (fun t => { t with tx := [{ txMsg (.fetchReply 1) with packets := [sentPkt], first := some 0 }] })
  ((saShelf 1 []).setFld F.TRN_CTRL_RETRY_LIMIT 8))
def agedMsg (u : MsgUse) : State := late 2000000000
  (onTrn (fun t => { t with tx := [{ txMsg u with opcode := if u = .fetch 0 then .fetch else .place, packets := [sentPkt], first := some 0 }] }) (saShelf 1 []))
def agedFetch : State := { agedMsg (.fetch 0) with cq := { (agedMsg (.fetch 0)).cq with slots := [(2, slot0)] } }
def heldMsg : State := onTrn (fun t => { t with held := [⟨3, txMsg (.group 0)⟩] }) (saShelf 1 [])
def rxOld : State := late 4000000000 (onTrn (fun t => { t with rx := [rxMsg] }) (saShelf 1 []))
def pathAt (st probes : Nat) : State :=
  late 10000000 (onTrn (fun t => { t with tests := [(48, ⟨0, probes, 0, 0, []⟩)] }) (saShelf 1 [(Sa.pathState, 0xFFFFFFF0 + st)]))
def syncing : State := late 200000 (onTrn (fun t => { t with aux := [(3, { auxDefault with sync := [⟨1, 0, 0, 100000, 0⟩] })] }) (saShelf 2 []))
def draining : State := late 2000000000 (onTrn (fun t => { t with aux := [(3, { auxDefault with drainAt := 0 })] }) (saShelf 4 []))
/-- The shelf with window key 5 in an entry, selected, with an access of it in flight. -/
def keyShelf (e : BitVec 256) (old ended : Bool) : State :=
  let s := saShelf 1 []
  { s.setFld F.WIN_SEL_KEY 5 with win := { s.win with keys := [(5, e)], accesses := [⟨8, 5, old, ended⟩], nextAccess := 9 } }
def keyEntry (st cur old gen : Nat) : BitVec 256 := setParts 32 [(Key.state, st), (Key.perms, 2), (Key.generation, gen),
  (Key.endpoint, 1), (Key.kind, 0), (Key.base, 8192), (Key.length, 8192), (Key.inflightCur, cur), (Key.inflightOld, old)]
def commitHeld : State :=
  let s := keyShelf (keyEntry 1 1 0 3) false false
  { onTrn (fun t => { t with sa := [(3, saEnt 1 [(Sa.rxLeft, 0)])] }) s with win := { s.win with held := [⟨3, 0, 0, 8192, [1, 2, 3], 8, false⟩] } }
def ringTok : BitVec 128 := setParts 16 [(Token.key, 5 * 65536 + 3), (Token.length, 512), (Token.base, 0)]
def dataTok (n : Nat) : BitVec 128 := setParts 16 [(Token.key, 5 * 65536 + 3), (Token.length, n), (Token.base, 0)]
/-- A capsule on queue q of endpoint 1. -/
def capsule (q : Nat) (l : List (Part × Nat)) : BitVec 512 :=
  l.foldl (fun e x => putPart e x.1 x.2) (setParts 64 [(Cap.queue, q), (Cap.tag, 1), (Cap.incarnation, 9), (Cap.ringToken, ringTok.toNat)])
def ioCap (op lba n : Nat) : BitVec 512 :=
  capsule 1 [(Cap.opcode, op), (Cap.volume, 2), (Cap.lba, lba), (Cap.blockCount, n), (Cap.dataToken, (if op < 3 then dataTok (4096 * n) else 0).toNat)]
def admCap (op a0 a1 : Nat) (tok : BitVec 128) : BitVec 512 := capsule 0 [(Cap.opcode, op), (Cap.arg0, a0), (Cap.arg1, a1), (Cap.dataToken, tok.toNat)]
def group0 : BitVec 512 := setParts 64 [(Grp.state, 1), (Grp.members, 4), (Grp.stripLog2, 14), (Grp.flags, 1),
  (Grp.memberBay, 0xFFFFFFFFFFFFFFFFFFFFFFFFFFFFFFFFFFFFFFFF03020100), (Grp.dataStart, 1000), (Grp.stripes, 300000), (Grp.memberState, 0), (Grp.spareMask, 0x10)]
def volume2 : BitVec 512 := setParts 64 [(Volu.state, 1), (Volu.extentBase, 10), (Volu.extentCount, 1), (Volu.size, 1048576),
  (Volu.readMask, 1), (Volu.writeMask, 1)]
def extent10 : BitVec 256 := setParts 32 [(Ext.state, 2), (Ext.volume, 2)]
def volKey2 : KeyRec := { saKey with bits := 512, key := List.replicate 64 2, usage := 1 }
def portReady : Port := { portDefault with state := .ready, presence := true, rate := 4, width := 2, cap := 10000000, sqCount := 1, sqDepth := 4 }
/-- The shelf with a group on bays 0 to 3, volume 2 on it, its key, and the queues 0 and 1 of endpoint 1. -/
def vshelf : State :=
  let s := ((((saShelf 1 []).setFld F.CQ_CTRL_EN 1).setFld F.VOL_CTRL_EN 1).setFld F.STR_CTRL_EN 1).setFld F.WIN_CTRL_EN 1
  { s with
    win := { s.win with keys := [(5, putPart (keyEntry 1 0 0 3) Key.perms 7)] }
    vol := { s.vol with vols := [(2, volume2)], grps := [(0, group0)], exts := [(10, extent10)] }
    cip := { s.cip with vol := [(2, volKey2)] }
    drv := { s.drv with ports := (List.range 4).map fun n => (n, portReady) }
    str := { s.str with clocks := [(0, 7)] }
    cq := { s.cq with eps := [(1, ⟨true, false, false⟩)], incarnation := [(64, 9), (65, 9)]
                      queues := [(64, ⟨0, .active, some ringTok, 0, true, none, []⟩), (65, ⟨1, .active, some ringTok, 0, true, none, []⟩)] } }
/-- The same with a command in the slot of a capsule. -/
def withCmd (x : Slot) : State :=
  { vshelf with cq := { vshelf.cq with slots := [((64 + getPart x.cap Cap.queue) * 32 + 1, x)], order := 1 } }
def cmdOf (cap : BitVec 512) : Slot := { slot0 with cap := cap, sa := 3, port := 0, started := false }
def adm (op a0 a1 : Nat) (tok : BitVec 128) : State := withCmd { cmdOf (admCap op a0 a1 tok) with wait := .firmware }
def intake (cap : BitVec 512) : State := { vshelf with cq := { vshelf.cq with intake := [(cap, 3, 0)] } }
def onCq (f : Cq → Cq) (s : State) : State := { s with cq := f s.cq }
def lineOf (v l st : Nat) : BitVec 128 := setParts 16 [(Dir.line, l), (Dir.volState, v + 4096 * st)]
def hitShelf : State :=
  let s := withCmd (cmdOf (ioCap 1 2 3))
  { s with rsv := { s.rsv with slots := 8, dir := [(3, lineOf 2 0 2)] } }
def doneCmd : State := withCmd { cmdOf (ioCap 2 0 1) with wait := .finished }
def waitCmd (q : Nat) : State := withCmd { (if q = 0 then cmdOf (admCap 0x32 0 0 0) else cmdOf (ioCap 1 0 1)) with state := .waiting }
def liveWrite : StripeWrite :=
  { name := 6, owner := .command 0, queue := none, group := 0, stripe := 0, volume := 2, lba0 := 0, first := 0, count := 1, valid := 1, mode := 0
    fua := false, pos := 0, engine := 0, intent := none, places := [], left := [], retried := [], mirrorWait := false, mirrored := false
    counted := false }
def flushFailed : State :=
  let s := withCmd { cmdOf (ioCap 3 0 0) with started := true, covers := [6] }
  { s with str := { s.str with live := [liveWrite] }, vol := { s.vol with grps := [(0, putPart group0 Grp.state 4)] } }
def pulled : State := withCmd (cmdOf (ioCap 2 6 5))
def zeroing : State := withCmd (cmdOf (ioCap 5 6 20))
def verifying : State := withCmd { cmdOf (ioCap 4 6 9) with started := true, xlate := [extent10] }
def aborting : State :=
  onCq (fun q => { q with slots := [(64 * 32 + 1, { cmdOf (admCap 0x23 (1 + 256 + 9 * 65536) 0 0) with wait := .firmware, order := 5 }),
    (65 * 32 + 1, cmdOf (ioCap 2 0 1))], order := 6 }) vshelf
def segFetched : State :=
  let s := withCmd { cmdOf (admCap 0x45 8192 0 (dataTok 4096)) with wait := .firmware, started := true, staging := some (8 * 2 ^ 26) }
  s.onHst fun h => { h with mem := [(8 * 2 ^ 26, 7), (8 * 2 ^ 26 + 4095, 9)] }
def resetting (d : Bool) : State :=
  let s := adm (if d then 0x21 else 0x22) 1 0 0
  onCq (fun q => { q with queues := [(64, ⟨0, .active, some ringTok, 0, true, none, []⟩), (65, ⟨1, .resetting, some ringTok, 0, true, some ⟨0, none, d⟩, []⟩)] }) s
def disabling : State := onCq (fun q => { q with queues := [(64, ⟨0, .resetting, none, 0, true, none, []⟩)], run := some (.disable 1) }) vshelf
def resetRun : State := onCq (fun q => { q with queues := q.queues.map fun x => (x.1, { x.2 with state := .resetting }), run := some (.controller true) }) vshelf
def fwCmd : State := { staged with cq := (adm 0x46 1 0 0).cq }
/-- VOL_SEL on an entry, with words staged. -/
def volSel (table index : Nat) (w : Nat → Nat) (s : State) : State :=
  (List.range 16).foldl (fun s n => s.setWord (A.VOL_WORD n) (BitVec.ofNat 32 (w n)))
    ((s.setFld F.VOL_SEL_TABLE table).setFld F.VOL_SEL_INDEX index)
def onVol (f : Vol → Vol) (s : State) : State := { s with vol := f s.vol }
def idleVol : State := onVol (fun v => { v with vols := [(2, putPart volume2 Volu.state 0)] }) vshelf
def reading : State := withCmd { cmdOf (ioCap 1 0 1) with started := true, xlate := [extent10] }
def extWaits (held : Bool) : State := onVol (fun v => { v with waitingExt := some (10, 5, [0]), vols := [(2, putPart volume2 Volu.state 0)] })
  (if held then reading else vshelf)
def freeExt : State := onVol (fun v => { v with exts := [] }) vshelf
def onStr (f : Str → Str) (s : State) : State := { s with str := f s.str }
def onRbd (f : Rbd → Rbd) (s : State) : State := { s with rbd := f s.rbd }
def onAtt (f : Attic → Attic) (s : State) : State := { s with attic := f s.attic }
/-- An intent record of stripe 0 of group 0 in a state. -/
def intentRec (st mode : Nat) : BitVec 256 := setParts 32 [(Intent.state, st), (Intent.mode, mode), (Intent.group, 0), (Intent.stripe, 0), (Intent.newGen, 8)]
/-- A ZERO of a whole stripe in execution, with its stripe write waiting. -/
def zeroWrite (m : Nat) : StripeWrite := { liveWrite with mode := m, count := 1, valid := if m = 1 then 1 else 8 }
def admitting (m : Nat) : State :=
  onStr (fun x => { x with waiting := [{ zeroWrite m with owner := if m = 3 then .init else .command 0 }] })
    (withCmd { cmdOf (ioCap 5 0 1) with started := true, xlate := [extent10] })
/-- The same write admitted, its intent 2 FILLING and its buffer held. -/
def filling (m : Nat) : State :=
  let s := withCmd { cmdOf (ioCap 5 0 1) with started := true, xlate := [extent10] }
  onAtt (fun a => { a with intents := [(2, intentRec Ins.filling m)] })
    (onStr (fun x => { x with live := [{ zeroWrite m with intent := some 2 }], buffers := [(2, (0, if m = 1 then 16 else 4))], nextName := 7 }) s)
def ready : State :=
  onAtt (fun a => { a with intents := [(2, intentRec Ins.ready 2)] }) (onStr (fun x => { x with live := x.live.map fun w =>
    { w with places := [(0, 0), (2, 0), (3, 0)], left := [(0, 0, 0), (2, 0, 1), (3, 0, 2)] } }) (filling 2))
def noKey : State := { filling 2 with cip := { (filling 2).cip with vol := [] } }
def orphan : State := onStr (fun x => { x with live := [{ liveWrite with owner := .command 99, intent := some 2 }] }) (filling 2)
def ckptRun (sh : Bool) : CkptRun :=
  { content := ⟨0, 5, 1, 40, List.replicate 8 0, 0, [], [], [], false, true⟩, copies := [(0, 0, 0), (0, 1, 1), (0, 2, 2)], shutdown := sh }
def ckptOn : State := onStr (fun x => { x with ckpt := some (ckptRun false) }) vshelf
def dumping : State := match execPowerLossAssert ready with | .next t => t | _ => run
def held1 : State := match execDumpSealed dumping with | .next t => t | _ => run
def holdOff : State := match execPowerLossDeassert held1 with | .next t => t | _ => run
def replaying : State := onStr (fun x => { x with replayBusy := true }) vshelf
def target (m p : Nat) : Target := { member := m, start := 0, point := p, wrapped := false, done := false }
/-- Group 0 rebuilding its member 1. -/
def rebuilding (p : Nat) (exts : Tab (BitVec 256)) (lost : Tab (BitVec 128)) : State :=
  let s := onVol (fun v => { v with grps := [(0, putPart (putPart group0 Grp.state 2) Grp.memberState (1 * 4))], exts := exts }) vshelf
  onAtt (fun a => { a with lost := lost }) (onRbd (fun r => { r with targets := [(0, target 1 p)] }) s)
def lostEnt (d : Nat) : BitVec 128 := (setParts 16 [(Lost.flags, 1 + 2 * d), (Lost.stripe, 0)])
def erring : State := (onRbd (fun r => { r with errors := [(1, [0, 0, 0])] }) vshelf).setFld F.RBD_ERR_LIMIT_LIMIT 3
def patrolling (k : PatrolKind) (l : Bool) (s : State) : State :=
  onRbd (fun r => { r with patrols := [(0, { (run.patrol 0) with kind := k, point := 0, late := l })] }) s
def disp : State := onAtt (fun a => { a with lost := [(0, lostEnt 1)] }) vshelf
def extent11 : BitVec 256 := setParts 32 [(Ext.state, 2), (Ext.volume, 2), (Ext.firstStripe, 131072)]
/-- RESHAPE_CFG on extent 10, to stripe 131,072 of group 0. -/
def reshaping (m e : Nat) : State :=
  ((((vshelf.setFld F.RBD_RESHAPE_CFG_EXTENT e).setFld F.RBD_RESHAPE_CFG_GROUP 0).setFld F.RBD_RESHAPE_CFG_MODE m).setWord A.RBD_RESHAPE_DST 131072)
def moveExt : BitVec 256 := setParts 32 [(Ext.state, Exts.moving), (Ext.volume, 2), (Ext.altFirst, 131072)]
def moving (st : ReshapeState) (k : ReshapeStep) (m c : Nat) : State :=
  onVol (fun v => { v with exts := [(10, moveExt)] })
    (onRbd (fun r => { r with reshape := some ⟨st, 10, 0, 131072, m, c, 0, k, [], false⟩ }) vshelf)
def redef : State := onVol (fun v => { v with exts := [], grps := [], vols := [] })
  ((List.range 16).foldl (fun s n => s.setWord (A.VOL_WORD n) ((putPart (putPart group0 Grp.flags 0) Grp.dataStart 0x400000).extractLsb' (32 * n) 32)) vshelf)
def pendRd (f : Option Nat) (v : Option Nat) : PendingRead :=
  { name := 5, volume := 2, line := 0, blocks := [⟨2, true, v, false⟩, ⟨3, true, v, false⟩, ⟨4, true, v, false⟩], registered := 0
    window := 0, waiters := [0], isOpen := true, fill := f, stale := false, buffer := 12 * 2 ^ 20, ext := extent10, around := []
    got := [], bad := [], again := [], opener := 0, hedged := [], cut := false }
def onRsv (f : Rsv → Rsv) (s : State) : State := { s with rsv := f s.rsv }
/-- A READ that waits for a pending read, which fills slot 3 or not. -/
def pendWait (f : Option Nat) (v : Option Nat) : State :=
  onRsv (fun r => { r with slots := 8, dir := [(3, lineOf 2 0 1)], pending := [pendRd f v] })
    (withCmd { cmdOf (ioCap 1 2 3) with started := true, xlate := [extent10], unready := [0, 1, 2] })
def fillWait (v : Option Nat) : State := onRsv (fun r => { r with pending := r.pending.map fun p => { p with waiters := [] } }) (pendWait (some 3) v)
def drvRead : DriveCmd :=
  { name := 9, bay := 1, queue := some 0, write := false, lba := 1002, count := 1, block := [], trailer := 0, fua := false
    use := .read 5 ⟨0, 0, 1, 2⟩ false, issued := some 0, retried := false }
def hedging : State :=
  let s := late 1000000000 ((pendWait none none).setFld F.RSV_CTRL_HEDGE_EN 1)
  { s with drv := { s.drv with cmds := [drvRead] } }
def destAt (n : Nat) (c : Option Nat) (l : Option Nat) : Dest := { cmd := c, sa := 4, line := some 3, buffer := none, since := n, lastPacket := l, lost := false }
def holding (d : Dest) : State := late 200000000 (onRsv (fun r => { r with slots := 8, dir := [(3, lineOf 2 0 2)], dests := [d] }) vshelf)
def groupEn : State :=
  let s := (((onRsv (fun r => { r with slots := 8, dir := [(3, putPart (lineOf 2 0 2) Dir.hot 200)] }) vshelf).setFld F.RSV_CTRL_GROUP_EN 1).setFld
    (F.RSV_GROUP_SA_VALID 0) 1).setFld (F.RSV_GROUP_SA_SA 0) 4
  (onVol (fun v => { v with vols := [(2, putPart volume2 Volu.attr 2)] })
    (onTrn (fun t => { t with sa := [(3, saEnt 1 []), (4, saEnt 1 [(Sa.kind, 1)])] }) s)).setSp 0 { spDefault with link := true }
def stomped (b : Bool) : State :=
  onTrn (fun t => { t with tx := t.tx.map fun m => { m with packets := m.packets.map fun p => { p with stomped := b } } }) toResend
def kwk : KeyRec := { bits := 2, usage := 0, key := List.replicate 32 9, saltDown := [], saltUp := [] }
/-- INSTALL words that wrap a job key for a slot. -/
def jobWrap (slot kind : Nat) : List Byte :=
  keyWrap kwk.key ([BitVec.ofNat 8 kind, 1] ++ leBytes 2 slot ++ leBytes 4 0x302 ++ List.replicate 16 4)
def setWords (a : Nat → Nat) (l : List Byte) (s : State) : State :=
  (List.range ((l.length + 3) / 4)).foldl (fun s n => s.setWord (a n) (BitVec.ofNat 32 (leAt l (4 * n) 4))) s
def installing (slot kind : Nat) : State :=
  { (setWords A.CIP_INSTALL_WORD (jobWrap slot kind) run).setFld F.CIP_INSTALL_LEN_LEN 32 with attic := { run.attic with kwk := some kwk } }
def jobRec : KeyRec := { bits := 1, usage := 0x302, key := List.replicate 16 4, saltDown := [], saltUp := [] }
def instRun (k n : Nat) : State := { run with
  cip := { run.cip with install := some ⟨k, n, { saKey with usage := k }⟩ }, attic := { run.attic with saMarks := [(3, ⟨70, 12⟩)] } }
def onCip (f : Cip → Cip) (s : State) : State := { s with cip := f s.cip }
def jobKey : State := { shelf with cip := { shelf.cip with job := [(2, jobRec)] }, attic := { shelf.attic with kwk := some kwk } }
def jobDesc0 (mode src : Nat) : BitVec 512 := setParts 64 [(Job.mode, mode), (Job.slot, 2), (Job.src, src), (Job.dst, 7 * 2 ^ 26 + 512), (Job.length, 16)]
def jobOn (code : Option Nat) (mode : Nat) : State := onCip (fun c => { c with jobs := [(1, ⟨jobDesc0 mode (7 * 2 ^ 26), code, false⟩)] }) jobKey
def poisoned (s : State) : State := s.onHst fun h => { h with poison := [7 * 2 ^ 26 / 32] }
/-- Sub-port 0 of the shelf: enabled, its link up, with a control word's further bits. -/
def spUp (c : Nat) : SubPort := { spDefault with ctrl := BitVec.ofNat 32 (1 + c), link := true }
def mac0 (p : SubPort) : State := shelf.setSp 0 p
def ethFrame (l : List Byte) : List Byte := withFcs false (l ++ List.replicate 60 0)
def egFrame (c : EgClass) : EgFrame :=
  { name := 4, body := .raw (List.replicate 60 7), cls := c, prio := 3, waits := false, queued := 0, len := 64, cut := none, stomp := false, parted := false, sent := 0, brk := 0 }
def filled (n : Nat) : State :=
  (mac0 (spUp 0x40)).onHst fun h => { h with flows := [{ wFlow with agent := 0, cells := List.replicate n (rCell 0) }] }
def portAt (n : Nat) (f : Port → Port) (s : State) : State :=
  { s with drv := { s.drv with ports := Tab.set n (f (s.port n)) s.drv.ports } }
def bayUp (n : Nat) (s : State) : State := (s.setSub n 0 { (s.sub n 0) with pg := true }).setSub n 1 { (s.sub n 1) with pg := true }
/-- Bay 6 of the shelf with its port in a state. -/
def bay6 (st : PortState) : State := portAt 6 (fun p => { p with state := st, rate := 4, sqCount := 1, sqDepth := 4 }) shelf
def drvWrite : DriveCmd := { drvRead with name := 10, write := true, block := List.replicate 4096 3, trailer := 77, use := .destage 6 1 0 }
def withDrv (l : List DriveCmd) (s : State) : State := { s with drv := { s.drv with cmds := l } }
def onPeer (f : Peer → Peer) (s : State) : State := { s with peer := f s.peer }
/-- The image in force has one data sub-port. -/
def oneLane (s : State) : State := { s with inv := { s.inv with sections := sectionTable [⟨2, 1, [0, 0, 1, 0, 0, 1, 2, 3]⟩] } }
def coreIs (n : Nat) (f : WCore → WCore) (s : State) : State := s.setCore n (f (s.core n))
def onWdn (f : Wdn → Wdn) (s : State) : State := { s with wdn := f s.wdn }
def duplex (s : State) : State := onWdn (fun w => { w with mode := .duplex }) (coreIs 2 (fun c => { c with state := .fenced }) s)
def coreIn (st : CoreState) : State := late 50000000 (onWdn (fun w => { w with mode := .duplex }) (coreIs 2 (fun c => { c with state := st }) run))
/-- A firmware image with one word of code in a Warden region. -/
def fwAt (l : List Byte) : State :=
  let a := 48 * 2 ^ 26
  let s := shelf.onHst fun h => { h with mem := Mem.write 0 [] a l }
  onWdn (fun w => { w with fwSerial := 5 }) ((s.setWord A.WDN_FW_SRC (BitVec.ofNat 32 a)))
def fwSmall : List Byte :=
  let code : List Byte := [1, 2, 3, 4]
  let h := beBytes 16 0x4B46574901000000A100244B00000000 ++ leBytes 8 7 ++ leBytes 4 4 ++ leBytes 4 0x100 ++ List.replicate 16 0 ++ beBytes 48 (sha384 code)
  h ++ List.replicate (128 - h.length) 0 ++ code
/-- Channel 6 of the shelf with its MAIN sub-channel in a state, enabled. -/
def chan6 (st : SubState) (f : SubChan → SubChan) : State :=
  let s := (shelf.setFld (F.BAY_EN_MAIN_EN 6) 1).setFld (F.BAY_EN_AUX_EN 6) 1
  (s.setSub 6 0 (f { s.sub 6 0 with state := st })).setSub 6 1 { s.sub 6 1 with state := .on, pg := true }
/-- Two controllers: the shelf with the peer agent on. -/
def peer2 (f : Peer → Peer) : State :=
  let s := vshelf.setFld F.PEER_CTRL_EN 1
  onPeer f { s with inv := { s.inv with flags := 2 } }
def pFrame (kind seq ack : Nat) (l : List Byte) : List Byte :=
  let h := beBytes 2 (256 + kind) ++ beBytes 2 0 ++ beBytes 4 seq ++ beBytes 4 ack ++ beBytes 4 l.length ++ l
  h ++ beBytes 4 (crc32c h).toNat
def sFrame (kind : Nat) (l : List Byte) : List Byte :=
  let h := beBytes 1 kind ++ l ++ List.replicate (7 - l.length) 0
  h ++ beBytes 2 (crc16 h).toNat
def unackedPeer : Peer → Peer := fun p =>
  { p with groups := 1, linkLost := false, state := .mirrored, unacked := [⟨4, 1, [1, 2], 0⟩, ⟨4, 2, [3], 90000⟩] }
def arbPeer (held : List Nat) (left : List Nat) : Peer → Peer := fun p =>
  { p with state := .arbitrating, arb := some (7, left, none, held), arbResult := (2, 0, 1), arbSet := 3 }
def mirWait : State := onStr (fun x => { x with live := [{ liveWrite with mirrorWait := true, intent := some 2 }] }) (peer2 unackedPeer)
def giving (c : Bool) : State := onPeer (fun p => { p with giving := some ⟨1, c, false, []⟩ }) (peer2 unackedPeer)
def onPwr (f : Pwr → Pwr) (s : State) : State := { s with pwr := f s.pwr }
def waiting (m : PowerMode) (s : State) : State := onPwr (fun p => { p with phase := .waiting, target := m, drainCkpt := 2 }) s
def coresWait (s : State) : State := s.each [0, 1, 2] fun s n => s.setCore n { s.core n with wfi := true }
def isl (f : Island → Island) : State := late 400000000 (onPwr (fun p => { p with islands := [(5, f { (shelf.island 5) with volt := 700, freq := 512000 })] }) shelf)
/-- Held in reset with a firmware image in the second slot of the flash. -/
def flashFw : State := { State.reset with fuses := keyed.fuses, flash := { State.reset.flash with mem := Mem.write 0xFF [] 0x900000 fwImage } }
def onGlb (f : Glb → Glb) (s : State) : State := { s with glb := f s.glb }
def spi (cmd addr len : Nat) (m : Mem) (s : State) : State :=
  { onGlb (fun g => { g with spi := some ⟨cmd, addr, len, (List.range len).map fun n => BitVec.ofNat 8 (7 * n + 1)⟩ }) s with
    flash := { s.flash with mem := m } }
def guarded : State := onWdn (fun w => { w with fwSlot := some 1 }) run
/-- Row 0 of stripe 0 of group 0 on its members. -/
def rowOn : State :=
  let b := fullStripe group0 extent10 0 0 7 ((List.range 8).map fun n => List.replicate 4096 (BitVec.ofNat 8 (n + 3)))
  vshelf.each ((b.data ++ b.p ++ b.q).filter fun x => x.2.1 == 0) fun s (m, k, blk) => s.mediaPut (bayOf group0 m) (memberLba group0 0 k) blk
def ackOf (o : AckOutcome) (f : Flow) : State := late 16000 (run.onHst fun h => { h with acks := [⟨0, 9, 1, o⟩], flows := [f] })
def ackLast (o : AckOutcome) : State := ackOf o { wFlow with acked := [0, 2], sent := [(1, 0, false)] }
def ackTwice : State := ackOf .failed { wFlow with sent := [(0, 0, false), (1, 0, true), (2, 0, false)] }
def ackAlone : State := run.onHst fun h => { h with acks := [⟨0, 9, 1, .ok⟩] }
def eggNext : State := run.onHst fun h => { h with egress := [rCell 0], flows := [rFlow] }
def eggLast : State := run.onHst fun h => { h with egress := [rCell 2], flows := [{ rFlow with next := 2 }] }
def eggLate : State := run.onHst fun h => { h with egress := [rCell 2] }
def reseqTwice : State := late 10000000 (run.onHst fun h => { h with flows := [{ rFlow with held := [rCell 2], retry := true }] })
def heldReply : State := onTrn (fun t => { t with held := [⟨3, { txMsg (.fetchReply 1) with opcode := .fetchReply, id := 5 }⟩] }) (saShelf 1 [])
def readMiss : State := withCmd (cmdOf (ioCap 1 0 1))
def pushedWrite : State := withCmd (cmdOf (putPart (ioCap 2 6 5) Cap.flags 16))
def verifyNew : State := withCmd (cmdOf (ioCap 4 6 9))
def stompedRead : State :=
  onTrn (fun t => { t with tx := t.tx.map fun m => { m with
    use := .readData 0 0, packets := m.packets.map fun p => { p with stomped := true } } })
    { toResend with cq := (withCmd (cmdOf (ioCap 1 0 1))).cq }
def heldDest : State := onTrn (fun t => { t with tx := [txMsg (.readData 1 0)] }) (holding (destAt 0 (some 1) none))
def fwActive : State := { staged with cq := (adm 0x46 2 0 0).cq }
def sealedAttic : State := onAtt (fun a => { a with intents := [(2, intentRec Ins.ready 2)], journalGen := 5 }) vshelf
def wired (f : EgFrame) (q : List EgFrame) : State := mac0 { spUp 4 with wire := some f, queue := q, merge := true }
def bayReset : State := late 100000000 (bay6 .reset)
def voqFull : State := shelf.onHst fun h => { h with voq := [(0 * 32 + bankGroup 3, List.replicate 512 wCell)] }
def ckptWait : State := { ckptOn with drv := { ckptOn.drv with ports := [] } }
/-- A member copy of journal 7 with one intent of a mode, and the volume's key or none. -/
def memberCopy (m : Nat) (k : Bool) : State :=
  { vshelf with
    drives := [(1, { driveDefault with ckpts := [(0, ⟨0, 7, 9, 40, List.replicate 8 5, 1, [(2, intentRec Ins.ready m)], [], [], true, true⟩)] })]
    cip := { vshelf.cip with vol := if k then [(2, volKey2)] else [] } }
def allCritical : State :=
  (filling 2).onHst fun h => { h with pcs := (List.range 64).map fun n => (n, { pcDefault with critical := true }) }
def noRoom : State := onStr (fun x => { x with buffers := [(2, (0, 1)), (9, (0, 114688))] }) (filling 2)
def knownDrive : State := { bay6 .init with drives := [(6, { driveDefault with capacity := 1000 })] }
def otherFlow (s : State) : State := s.onHst fun h => { h with flows := h.flows ++ [{ wFlow with id := 77 }] }
def pinOther : State := onRsv (fun r => { r with dests := r.dests ++ [destAt 199999999 (some 3) none] }) (holding (destAt 0 none none))

/-- `State.saSends`, as a Boolean. -/
def saSendsB (s : State) (sa : Nat) : Bool :=
  s.is F.TRN_CTRL_EN && decide (s.saState sa ≠ Sas.invalid) && decide (s.saGet sa Sa.txCounter < 2 ^ 63) && !(s.aux sa).stopped &&
    decide (s.saGet sa Sa.txCounter < s.saMark sa) && !(s.trn.blocked.any fun b => b.sa == sa)

theorem saSendsB_iff (s : State) (sa : Nat) : saSendsB s sa = true ↔ s.saSends sa := by
  simp only [saSendsB, State.saSends, Bool.and_eq_true, decide_eq_true_eq, Bool.not_eq_true', and_assoc]

/-! ### Witnesses of the statements' premises -/

/-- A row of group 0 whose members gave these. -/
def shortRow (f : List Fetch) : Row :=
  { group := 0, stripe := 0, row := 0, entry := group0, expect := [], fetch := f, lost := [] }

theorem xor_replicate_zero (n : Nat) : xorBytes (List.replicate n 0) (List.replicate n 0) = List.replicate n 0 := by
  simp [xorBytes]

theorem scale_replicate_zero (c : Byte) (n : Nat) (h : pqMul c 0 = 0) : scale c (List.replicate n 0) = List.replicate n 0 := by
  simp only [scale, List.map_replicate, h]

theorem shortRow_withZeros (b : List Byte) : (shortRow (List.replicate 4 (.ok (b, 0)))).withZeros = [b, b] := by
  have h : dataStrips group0 = 2 := by decide +kernel
  have d0 : dataMember group0 0 0 = 1 := by decide +kernel
  have d1 : dataMember group0 0 1 = 2 := by decide +kernel
  simp [Row.withZeros, shortRow, h, Row.known, Row.dataAt, d0, d1, Row.at_, List.range_succ, Row.isPad, Kind.pad]

theorem witness_RowJudged_2 : let r := shortRow (List.replicate 4 (.ok (zeroBlock, 0)))
   r.missingMembers = [] ∧ ∃ p q, (r.at_ (pMember r.entry r.stripe)).block? = some p ∧
   (r.at_ (qMember r.entry r.stripe)).block? = some q ∧ p.1.length = 4096 ∧ q.1.length = 4096 ∧
   p.1 = pOf r.withZeros ∧ q.1 = qOf r.withZeros := by
  intro r
  have hp : pMember r.entry r.stripe = 3 := by decide +kernel
  have hq : qMember r.entry r.stripe = 0 := by decide +kernel
  have x : xorBytes zeroBlock zeroBlock = zeroBlock := xor_replicate_zero 4096
  have s0 : scale (pqPow 0) zeroBlock = zeroBlock := scale_replicate_zero _ 4096 (by decide +kernel)
  have s1 : scale (pqPow 1) zeroBlock = zeroBlock := scale_replicate_zero _ 4096 (by decide +kernel)
  have l : zeroBlock.length = 4096 := List.length_replicate
  have z : r.withZeros = [zeroBlock, zeroBlock] := shortRow_withZeros zeroBlock
  refine ⟨by decide +kernel, (zeroBlock, 0), (zeroBlock, 0), ?_, ?_, l, l, ?_, ?_⟩
  · rw [hp]; rfl
  · rw [hq]; rfl
  · rw [z]; simp [pOf, x]
  · rw [z]; simp [qOf, qFrom, s0, s1, x]

theorem witness_RowJudged_1 :
    (let s : State := run
     let r := shortRow (List.replicate 4 (.ok ([], 0)))
     (match r.reconstruct (s.unpatrolled r.group r.stripe) with
      | some _ => decide (r.missingMembers.length ≤ 2) && decide (r.lost.contains 0 = false) && decide (r.isPad 0 = false)
      | none => false)) = true := by decide +kernel

theorem witness_RowJudged_3 : 2 < (shortRow [.ok ([], 0), .bad, .bad, .bad]).missingMembers.length := by decide +kernel

theorem witness_Wardens_3 :
    let s : State := late 500000000 run
    s.awake = true ∧ s.complexRuns = true ∧ s.activeCores = [0, 1, 2] ∧
      Tab.getD Tick.watch 0 s.served < s.now / 1000000 * 1000000 ∧ (s.core 0).signature = (s.core 1).signature ∧
      (s.core 1).signature = (s.core 2).signature :=
  ⟨by decide +kernel, by decide +kernel, by decide +kernel, by decide +kernel, rfl, rfl⟩

theorem witness_PowerHoldWatchesTheFeed_1 :
    (let s : State := { inPhase .powerHold with pending := [.powerOnReset] }
     decide (s.glb.phase = .powerHold) && (match step s with | .next _ => true | _ => false)) = true := by decide +kernel

theorem witness_HeldInReset_1 :
    (let s : State := { State.reset with pending := [.resetPin] }
     decide (s.glb.phase = .held) && (match step s with | .next _ => true | _ => false) &&
       (match s.pending.head? with | some (.bootStart ..) => false | _ => true)) = true := by decide +kernel

theorem witness_DataPathSleeps_1 : (inMode .doze).asleep = true := by decide +kernel

theorem witness_CanonicalMemories_1 :
    (let s : State := cellWait wCell
     Mem.wf 0 s.hst.mem && (match exec (.writeCellCommit 3) s with | .next _ => true | _ => false)) = true := by decide +kernel

theorem witness_CanonicalMemories_2 :
    (let s : State := spi 2 4096 10 [(4096, 5), (4097, 15)] run
     Mem.wf 0xFF s.flash.mem && (match exec (.spiDone false) s with | .next _ => true | _ => false)) = true := by decide +kernel

theorem witness_CanonicalMemories_3 :
    (Mem.wf 0 run.wdn.staging && (match exec (.fwDataWrite .mgmt 5) run with | .next _ => true | _ => false)) = true := by
  decide +kernel

theorem replicate_lengths (n : Nat) (l : List Byte) : ∀ d ∈ l.map (List.replicate n), d.length = n := by
  simp

theorem witness_ReadModifyWriteParity_1 :
    let ds : List (List Byte) := ([5, 6] : List Byte).map (List.replicate 4096)
    (∀ d ∈ ds, d.length = 4096) ∧ (List.replicate 4096 (9 : Byte)).length = 4096 ∧ ds[1]? = some (List.replicate 4096 6) :=
  ⟨replicate_lengths 4096 [5, 6], List.length_replicate, rfl⟩

theorem witness_StripRecovery_1 :
    let ds : List (List Byte) := ([5, 6, 7] : List Byte).map (List.replicate 4096)
    (∀ d ∈ ds, d.length = 4096) ∧ ds.length ≤ 22 ∧ ds[0]? = some (List.replicate 4096 5) ∧
      ds[2]? = some (List.replicate 4096 7) :=
  ⟨replicate_lengths 4096 [5, 6, 7], by decide, rfl, rfl⟩

theorem witness_StepTakesFrontCommand_1 : State.reset.pending = [] := by decide +kernel

theorem witness_ReservedAddresses_1 : (
  let s : State := run
  let p : Sys2Proof.Path := Path.mgmt
  let a : Nat := 4194600
  let v : Word := (0 : Word)
  true) = true := by decide +kernel

theorem witness_ReservedAddresses_2 : (
  let s : State := run
  let p : Sys2Proof.Path := Path.mgmt
  let a : Nat := 19088743
  let v : Word := (0 : Word)
  decide (regDesc (a / 4 * 4) = none)) = true := by decide +kernel

theorem witness_RegisterWriteByAccessType_1 : (
  let s : State := run.setWord 0x14 0xFFFFFFFF
  let p : Sys2Proof.Path := Path.mgmt
  let a : Nat := 4194324
  let v : Word := (0xA5A5FFFF : Word)
  let b : Nat := 20
  (match regDesc (a / 4 * 4) with
  | some d =>
    (s.busOn) && (s.modeLets p a) && decide (d.pair = false) && decide (s.writeCmd p d (a / 4 * 4) v = none) && decide (b ≠ a /
    4 * 4) && d.fields.any (fun f => decide (f.acc = Access.ro ∨ f.acc = Access.rc))
  | _ => false)) = true := by decide +kernel

theorem witness_RegisterWriteByAccessType_2 : (
  let s : State := run.setWord 0x14 0xFFFFFFFF
  let p : Sys2Proof.Path := Path.mgmt
  let a : Nat := 14680076
  let v : Word := (0xA5A5FFFF : Word)
  (match regDesc (a / 4 * 4) with
  | some d =>
    (s.busOn) && (s.modeLets p a) && decide (d.pair = false) && decide (s.writeCmd p d (a / 4 * 4) v = none) && d.fields.any
    (fun f => decide (f.acc = Access.rw))
  | _ => false)) = true := by decide +kernel

theorem witness_RegisterWriteByAccessType_3 : (
  let s : State := run.setWord 0x14 0xFFFFFFFF
  let p : Sys2Proof.Path := Path.mgmt
  let a : Nat := 13631492
  let v : Word := (0xA5A5FFFF : Word)
  (match regDesc (a / 4 * 4) with
  | some d =>
    (s.busOn) && (s.modeLets p a) && decide (d.pair = false) && decide (s.writeCmd p d (a / 4 * 4) v = none) && d.fields.any
    (fun f => decide (f.acc = Access.w1c))
  | _ => false)) = true := by decide +kernel

theorem witness_CounterReads_1 : (
  let s : State := run
  let p : Sys2Proof.Path := Path.mgmt
  let x : Nat := 3 + 4194600
  let b : Nat := 20
  let a := x / 4 * 4
  (match regDesc a with
  | some d =>
    (s.busOn) && (s.modeLets p x) && (d.pair) && decide (d.high a = false) && decide (plainPair a = false) && (d.clears) && decide
    (s.macWindow a = none) && decide (b ≠ a) && decide (b ≠ a + 4)
  | _ => false)) = true := by decide +kernel

theorem witness_CounterReads_2 : (
  let s : State := run
  let p : Sys2Proof.Path := Path.mgmt
  let x : Nat := 3 + 1048592
  let a := x / 4 * 4
  (match regDesc a with
  | some d =>
    (s.busOn) && (s.modeLets p x) && (d.pair) && decide (d.high a = false) && decide (plainPair a = false) && decide (d.clears = false)
  | _ => false)) = true := by decide +kernel

theorem witness_CounterReads_3 : (
  let s : State := run
  let p : Sys2Proof.Path := Path.mgmt
  let a : Nat := 4194604
  (match regDesc a with
  | some d =>
    decide (a % 4 = 0) && decide (4 ≤ a) && (s.busOn) && (s.modeLets p a) && (d.pair) && (d.high a)
  | _ => false)) = true := by decide +kernel

theorem witness_CounterReads_4 : (
  let a : Nat := 4194600
  true) = true := by decide +kernel

theorem witness_CounterReads_5 : (
  let s : State := run
  let p : Sys2Proof.Path := Path.mgmt
  let x : Nat := A.RBD_RESHAPE_DST
  let a := x / 4 * 4
  (match regDesc a with
  | some d =>
    (s.busOn) && (s.modeLets p x) && (d.pair) && decide (d.high a = false) && (plainPair a)
  | _ => false)) = true := by decide +kernel

theorem witness_CounterReads_6 : (
  let s : State := run
  let p : Sys2Proof.Path := Path.mgmt
  let x : Nat := 2097664 + 2
  let b : Nat := 20
  let a := x / 4 * 4
  (match regDesc a with
  | some d =>
    (s.busOn) && (s.modeLets p x) && decide (d.pair = false) && (d.clears) && decide (s.histAt a = none) && decide (b ≠ a) &&
    d.fields.any (fun f => decide (f.acc = Access.rc))
  | _ => false)) = true := by decide +kernel

theorem witness_CounterReads_7 : (
  let s : State := run
  let p : Sys2Proof.Path := Path.mgmt
  let x : Nat := A.TC_HIST_DELAY 15
  let j : Nat := 0
  let a := x / 4 * 4
  (match regDesc a with
  | some d =>
    (match s.histAt a with
    | some k => (s.busOn) && (s.modeLets p x) && decide (d.pair = false) && (d.clears) && decide (j ≠ k)
    | _ => false)
  | _ => false)) = true := by decide +kernel

theorem witness_PairWrites_1 : (
  let s : State := run
  let p : Sys2Proof.Path := Path.mgmt
  let a : Nat := 10485784
  let v : Word := (0xA5A5FFFF : Word)
  let b : Nat := 20
  (match regDesc a with
  | some d =>
    decide (a % 4 = 0) && (s.busOn) && (s.modeLets p a) && (s.modeLets p (a + 4)) && decide (regDesc (a + 4) = some d) &&
    (d.pair) && (d.writes) && decide (d.high a = false) && (d.high (a + 4)) && decide (b ≠ a) && decide (pairBits a = 64) &&
    decide (regIndex a (A.RBD_TGT_START 0) 2 32 = none) && decide (regIndex a (A.RBD_TGT_POINT 0) 2 32 = none) && decide (b ≠ a
    + 4)
  | _ => false)) = true := by decide +kernel

theorem witness_InventoryLoads_1 : (
  let s : State := run
  let p : Sys2Proof.Path := Path.mgmt
  (s.busOn) && (s.modeLets p A.INV_CTRL) && decide (s.inv.state ≠ LoaderState.opened)) = true := by decide +kernel

theorem witness_InventoryLoads_2 : (
  let s : State := loadFull
  let p : Sys2Proof.Path := Path.mgmt
  let v : Word := (0xA5A5FFFF : Word)
  (s.busOn) && (s.modeLets p A.INV_DATA) && decide (s.inv.state = LoaderState.opened) && decide (s.inv.path = some p) && decide
  (s.inv.buffer.length + 4 ≤ 4194304)) = true := by decide +kernel

theorem witness_InventoryLoads_3 : (
  let s : State := loadFull
  let p : Sys2Proof.Path := Path.mgmt
  (s.busOn) && (s.modeLets p A.INV_CTRL) && decide (s.inv.state = LoaderState.opened) && decide (s.inv.path = some p)) = true := by decide +kernel

theorem witness_InventoryLoads_4 : (
  let s : State := late 10000000000 loadFull
  (s.awake) && decide (s.inv.state = LoaderState.opened) && decide (s.inv.lastData + 10000000000 ≤ s.now)) = true := by decide +kernel

theorem witness_InventoryLoads_5 : (
  let s : State := loadFull
  let p : Sys2Proof.Path := Path.smbus0
  let q : Sys2Proof.Path := Path.mgmt
  let v : Word := (0xA5A5FFFF : Word)
  decide (s.inv.state = LoaderState.opened) && decide (s.inv.path = some q) && decide (p ≠ q) && (s.busOn) && (s.modeLets p
  A.INV_CTRL) && (s.modeLets p A.INV_DATA)) = true := by decide +kernel

theorem witness_InventoryFuses_1 : (
  let s : State := loading run (List.replicate 48 7)
  let p : Sys2Proof.Path := Path.mgmt
  let n : Nat := 1
  let k : Nat := 0
  (s.busOn) && (s.modeLets p A.INV_CTRL) && decide (1 ≤ n) && decide (n ≤ 3) && decide ((s.keySlot n).hash = none) && decide
  (s.inv.state = LoaderState.opened) && decide (s.inv.path = some p) && decide (s.inv.buffer.length = 48) && decide (k ≠ n)) = true := by decide +kernel

theorem witness_InventoryFuses_2 : (
  let s : State := run
  let p : Sys2Proof.Path := Path.mgmt
  (s.busOn) && (s.modeLets p A.INV_CTRL) && decide (s.inv.state ≠ LoaderState.opened)) = true := by decide +kernel

theorem witness_InventoryFuses_3 : (
  let s : State := run
  let p : Sys2Proof.Path := Path.mgmt
  let n : Nat := 0
  let k : Nat := 1
  (s.busOn) && (s.modeLets p (A.INV_KEYSLOT n)) && decide (n < 4) && decide (k ≠ n)) = true := by decide +kernel

theorem witness_InventoryFuses_4 : (
  let s : State := late 60000000000 shelf0
  let l : List Nat := ([] : List Nat)
  (s.awake) && decide (Tab.getD Tick.resident 0 s.served < s.now / 60000000000 * 60000000000) && decide (∀ r ∈ s.attic.resident,
  r.code ∉ l ∧ sha384 r.body = r.digest)) = true := by decide +kernel

theorem witness_CellsAtPorts_1 : (
  let s : State := voqFull
  let a : Nat := 0
  let h : BitVec 128 := wCell.header
  let l : List Byte := ([1,2,3,4] : List Byte)
  (match portCell false h l with
  | some c =>
    (s.awake) && decide (a < 42) && decide (512 ≤ s.hst.ingressFill a)
  | _ => false)) = true := by decide +kernel

theorem witness_CellsAtPorts_2 : (
  let s : State := voqFull
  let a : Nat := 41
  let h : BitVec 128 := wCell.header
  let l : List Byte := ([1,2,3,4] : List Byte)
  (match portCell false h l with
  | some c =>
    (s.awake) && decide (a < 42) && decide (s.hst.ingressFill a < 512)
  | _ => false)) = true := by decide +kernel

theorem witness_CellsAtPorts_3 : (
  let s : State := voqFull
  let a : Nat := 0
  let h : BitVec 128 := (0 : BitVec 128)
  let l : List Byte := ([1,2,3,4] : List Byte)
  (s.awake) && decide (a < 42) && decide (portCell false h l = none)) = true := by decide +kernel

theorem witness_CellsAtPorts_4 : (
  let h : BitVec 128 := (0 : BitVec 128)
  let l : List Byte := ([1,2,3,4] : List Byte)
  let g : Bool := true
  decide (hchkOk h = false ∨ cellKindOf (getBits h 60 4) = none ∨ 256 < getBits h 66 8 + getBits h 74 9)) = true := by decide +kernel

theorem witness_CellCommit_1 : (
  let s : State := cellWait wCell
  let g : Nat := bankGroup 3
  let i : Nat := 0
  let x : Nat := 0
  (match Tab.getD g [] s.hst.wbuf with
  | c :: rest =>
    (match c.data[i]? with
    | some v =>
      decide (s.awake = true ∨ s.dumping = true) && decide (s.writeOutcome c ≠ AckOutcome.failed) && decide (x < 256 * c.caddr +
      c.start ∨ 256 * c.caddr + c.start + c.data.length ≤ x)
    | _ => false)
  | _ => false)) = true := by decide +kernel

theorem witness_CellCommit_2 : (
  let s : State := cellBad
  let g : Nat := bankGroup 3
  (match Tab.getD g [] s.hst.wbuf with
  | c :: rest =>
    decide (s.awake = true ∨ s.dumping = true) && decide (s.writeOutcome c = AckOutcome.failed)
  | _ => false)) = true := by decide +kernel

theorem witness_CellAnswers_1 : (
  let s : State := ackWait
  let a : CellAck := (⟨0, 9, 1, .ok⟩ : CellAck)
  (match s.sentCell a.flow a.seq with
  | some (f, t0, again) =>
    (s.awake) && decide (List.find? (fun x => x.agent == a.agent) s.hst.acks = some a) && decide (a.outcome = AckOutcome.ok) &&
    decide (f.agent = a.agent) && decide (f.acked.length + 1 ≠ f.cells.length)
  | _ => false)) = true := by decide +kernel

theorem witness_CellAnswers_2 : (
  let s : State := otherFlow (ackOf .failed wFlow)
  let a : CellAck := (⟨0, 9, 1, .failed⟩ : CellAck)
  (match s.sentCell a.flow a.seq with
  | some (f, t0, again) =>
    (match List.find? (fun x => x.seq == a.seq) f.cells with
    | some c =>
      (s.awake) && decide (List.find? (fun x => x.agent == a.agent) s.hst.acks = some a) && decide (f.agent = a.agent) && decide
      (a.outcome = AckOutcome.failed) && decide (again = false)
    | _ => false)
  | _ => false)) = true := by decide +kernel

theorem witness_CellAnswers_3 : (
  let s : State := ackOf .poisoned wFlow
  let a : CellAck := (⟨0, 9, 1, .poisoned⟩ : CellAck)
  (match s.sentCell a.flow a.seq with
  | some (f, t0, again) =>
    (s.awake) && decide (List.find? (fun x => x.agent == a.agent) s.hst.acks = some a) && decide (f.agent = a.agent) && decide
    (a.outcome = AckOutcome.poisoned) && decide (f.acked.length + 1 ≠ f.cells.length)
  | _ => false)) = true := by decide +kernel

theorem witness_CellAnswers_4 : (
  let s : State := ackAlone
  let a : CellAck := (⟨0, 9, 1, .ok⟩ : CellAck)
  (s.awake) && decide (List.find? (fun x => x.agent == a.agent) s.hst.acks = some a) && decide (s.sentCell a.flow a.seq = none)) = true := by decide +kernel

theorem witness_CellAnswers_5 : (
  let s : State := ackTwice
  let id : Nat := 9
  let seq : Nat := 1
  (match s.sentCell id seq with
  | some (f, t0, true) =>
    (s.awake) && decide (t0 + 16000 ≤ s.now)
  | _ => false)) = true := by decide +kernel

theorem witness_CellAnswers_6 : (
  let s : State := otherFlow (ackLast .ok)
  let id : Nat := 9
  let seq : Nat := 1
  (match s.sentCell id seq with
  | some (f, t0, false) =>
    (s.awake) && (f.cells.any fun x => x.seq == seq) && decide (t0 + 16000 ≤ s.now)
  | _ => false)) = true := by decide +kernel

theorem witness_CellAnswers_7 : (
  let s : State := eggWait
  let agent : Nat := 0
  let d : BitVec 128 := (0 : BitVec 128)
  (match List.find? (fun y => y.dst == agent) s.hst.egress with
  | some c =>
    (match portCell true (c.header ^^^ d) c.data with
    | some x =>
      (match List.find? (fun g => g.id == x.flow && g.agent == agent && g.egress) s.hst.flows with
      | some f =>
        (s.awake) && decide (f.next < x.seq) && decide (x.seq < f.issued) && decide ((f.held.any fun y => y.seq == x.seq) =
        false) && decide (f.heldCell = none) && decide (∀ g ∈ s.hst.flows, g.agent = agent → g.cells.length ≤ g.issued) &&
        decide (f.next ≠ f.cells.length)
      | _ => false)
    | _ => false)
  | _ => false)) = true := by decide +kernel

theorem witness_CellAnswers_8 : (
  let s : State := eggNext
  let agent : Nat := 0
  let d : BitVec 128 := (0 : BitVec 128)
  (match List.find? (fun y => y.dst == agent) s.hst.egress with
  | some c =>
    (match portCell true (c.header ^^^ d) c.data with
    | some x =>
      (match List.find? (fun g => g.id == x.flow && g.agent == agent && g.egress) s.hst.flows with
      | some f =>
        (s.awake) && decide (x.seq = f.next) && decide (x.seq < f.issued) && decide (f.held = []) && decide (∀ g ∈ s.hst.flows,
        g.agent = agent → g.cells.length ≤ g.issued) && decide (f.next + 1 ≠ f.cells.length)
      | _ => false)
    | _ => false)
  | _ => false)) = true := by decide +kernel

theorem witness_CellAnswers_9 : (
  let s : State := eggLate
  let agent : Nat := 0
  let d : BitVec 128 := (0 : BitVec 128)
  (match List.find? (fun y => y.dst == agent) s.hst.egress with
  | some c =>
    (match portCell true (c.header ^^^ d) c.data with
    | some x =>
      (s.awake) && decide (List.find? (fun g => g.id == x.flow && g.agent == agent && g.egress) s.hst.flows = none)
    | _ => false)
  | _ => false)) = true := by decide +kernel

theorem witness_CellAnswers_10 : (
  let s : State := otherFlow reseqTwice
  let id : Nat := 9
  (match List.find? (fun g => g.id == id && g.egress) s.hst.flows with
  | some f =>
    (s.awake) && decide (f.held ≠ [] ∨ 0 < f.next) && decide (f.heldCell = none) && decide (f.lastArrival + s.reseqTimeout ≤
    s.now)
  | _ => false)) = true := by decide +kernel

theorem witness_CellAnswers_11 : (
  let s : State := reseqWait
  let id : Nat := 9
  (match List.find? (fun g => g.id == id && g.egress) s.hst.flows with
  | some f =>
    (s.awake) && decide (f.held ≠ [] ∨ 0 < f.next) && decide (f.heldCell = none) && decide (f.lastArrival + s.reseqTimeout ≤
    s.now) && decide (f.retry = false)
  | _ => false)) = true := by decide +kernel

theorem witness_CellTime_1 : (
  let s : State := run
  (s.awake) && decide (s.dumping = false) && decide (∀ f ∈ s.hst.flows, f.egress = true → f.heldCell = none) && decide
  (s.ingressMatch.pairs = []) && decide (s.egressMatch.pairs = [])) = true := by decide +kernel

theorem witness_CellTime_2 : (
  let s : State := voqOne
  (match s.ingressMatch.pairs with
  | [(a, b)] =>
    (match Tab.getD (a * 32 + b) [] s.hst.voq with
    | c :: rest =>
      (s.awake) && decide (s.dumping = false) && decide (∀ f ∈ s.hst.flows, f.egress = true → f.heldCell = none)
    | _ => false)
  | _ => false)) = true := by decide +kernel

theorem witness_ScrubsAndRetirement_1 : (
  let s : State := scrub
  let g : Nat := 0
  let p : Nat := 3
  (s.awake) && (s.is F.HST_CTRL_CELLAR_SCRUB_EN) && decide (g < 768 * 2 ^ 21) && decide (s.is F.HST_CTRL_AUTO_RETIRE = false) &&
  decide (p ≠ s.granulePc g)) = true := by decide +kernel

theorem witness_ScrubsAndRetirement_2 : (
  let s : State := scrub
  let b : Nat := 1
  let r : Nat := 2
  let u : Bool := true
  (s.awake) && (s.is F.HST_CTRL_PANTRY_SCRUB_EN) && decide (b < 64) && decide (r < 5120) && decide (s.hst.pantryCe.contains (b *
  5120 + r) = false)) = true := by decide +kernel

theorem witness_ScrubsAndRetirement_3 : (
  let s : State := scrubSeen
  let b : Nat := 1
  let r : Nat := 2
  let u : Bool := true
  (match s.freeSpare b r with
  | some k =>
    (s.awake) && (s.is F.HST_CTRL_PANTRY_SCRUB_EN) && decide (b < 64) && decide (r < 5120) && (s.hst.pantryCe.contains (b * 5120
    + r))
  | _ => false)) = true := by decide +kernel

theorem witness_ScrubsAndRetirement_4 : (
  let s : State := late 86400000000000 (scrub.onHst fun h => { h with pcs := [(3, { pcDefault with ce24h := 9 })] })
  let p : Nat := 0
  (s.awake) && decide (Tab.getD Tick.ceClear 0 s.served < s.now / day * day) && decide (p < 64)) = true := by decide +kernel

theorem witness_ScrubsAndRetirement_5 : (
  let s : State := run
  let q : Sys2Proof.Path := Path.mgmt
  let p : Nat := 0
  let k : Nat := 1
  (s.busOn) && (s.modeLets q A.HST_RETIRE) && decide (p < 64) && decide ((s.pc p).state = PcState.active) && (s.mayRetire p) &&
  decide (k ≠ p)) = true := by decide +kernel

theorem witness_ScrubsAndRetirement_6 : (
  let s : State := noRetire
  let p : Nat := 0
  let k : Nat := 1
  (s.awake) && decide (p < 64) && decide ((s.pc p).state = PcState.active) && decide (s.mayRetire p = false) && decide (k ≠ p)) = true := by decide +kernel

theorem witness_ScrubsAndRetirement_7 : (
  let s : State := migrating true false []
  (match s.hst.migration with
  | [m] =>
    (s.awake) && (m.pinWait) && (s.unpinned m.segs) && decide (s.slicesOn m.pc ≠ [])
  | _ => false)) = true := by decide +kernel

theorem witness_ScrubsAndRetirement_8 : (
  let s : State := migrating false false [1, 2]
  (match s.hst.migration with
  | [m] =>
    (match m.todo with
    | x :: r =>
      (match s.poolSlices with
      | (y0, y1) :: l =>
        (s.awake) && decide (m.pinWait = false) && decide (m.failure = false) && decide (r ≠ [])
      | _ => false)
    | _ => false)
  | _ => false)) = true := by decide +kernel

theorem witness_ScrubsAndRetirement_9 : (
  let s : State := scrub
  let g : Nat := 768 * 2 ^ 21 - 1
  let f : GranuleFault := .bytes 2
  (s.awake) && (s.is F.HST_CTRL_CELLAR_SCRUB_EN) && decide (g < 768 * 2 ^ 21) && decide (f = .bytes 2 ∨ f = .bytes 3 ∨ f =
  .location)) = true := by decide +kernel

theorem witness_ScrubsAndRetirement_10 : (
  let s : State := scrub
  let g : Nat := 768 * 2 ^ 21 - 1
  let f : GranuleFault := .location
  (s.awake) && (s.is F.HST_CTRL_CELLAR_SCRUB_EN) && decide (g < 768 * 2 ^ 21) && decide (f = .bytes 2 ∨ f = .bytes 3 ∨ f =
  .location)) = true := by decide +kernel

theorem witness_PacketSending_1 : (
  let s : State := toSend
  let key : Nat := 20
  let k : Nat := 3
  (match s.tx? key with
  | some m =>
    (match s.newPath m.sa with
    | some p =>
      (match s.payloadOf m m.packets.length with
      | some (payload, runs) =>
        (match exec (Instr.sendPacket key) s with
        | Host.Outcome.next t =>
          (match t.tx? key with
          | some x =>
            (s.awake) && decide (m.group = false) && (s.maySend m) && decide (k ≠ key) && saSendsB s m.sa
          | _ => false)
        | _ => false)
      | _ => false)
    | _ => false)
  | _ => false)) = true := by decide +kernel

theorem witness_PacketSending_2 : (
  let s : State := toSend
  let key : Nat := 20
  let k : Nat := 4
  (match s.tx? key with
  | some m =>
    (match s.newPath m.sa with
    | some p =>
      (match s.payloadOf m m.packets.length with
      | some (payload, runs) =>
        (match exec (Instr.sendPacket key) s with
        | Host.Outcome.next t =>
          (match t.tx? key with
          | some x =>
            (s.awake) && decide (m.group = false) && (s.maySend m) && decide (k ≠ m.sa) && saSendsB s m.sa
          | _ => false)
        | _ => false)
      | _ => false)
    | _ => false)
  | _ => false)) = true := by decide +kernel

theorem witness_PacketSending_3 : (
  let s : State := toResend
  let key : Nat := 20
  let i : Nat := 0
  let k : Nat := 3
  (match s.tx? key with
  | some m =>
    (match m.packet? i with
    | some p =>
      (match choosePath (s.sa m.sa) p.path false with
      | some q =>
        (match s.payloadOf m i with
        | some (payload, runs) =>
          (match exec (Instr.retryTimerExpiry key i) s with
          | Host.Outcome.next t =>
            (match t.tx? key with
            | some x =>
              (match x.packet? i with
              | some y =>
                (s.awake) && decide (m.group = false) && decide (p.acked = false) && decide (p.stomped = false) && decide
                (s.isBlocked key i = false) && decide (p.sentAt + p.interval ≤ s.now) && decide (∀ (a : Nat), m.first = some a →
                s.now ≤ a + 2000000000) && decide (p.retries < s.retryLimit) && decide ((s.pathTest m.sa p.path).timeouts = 0)
                && (longAgo s.now (s.halfTime m.sa) (s.aux m.sa).toHalf) && saSendsB s m.sa && decide (k ≠ key)
              | _ => false)
            | _ => false)
          | _ => false)
        | _ => false)
      | _ => false)
    | _ => false)
  | _ => false)) = true := by decide +kernel

theorem witness_MessageLife_1 : (
  let s : State := agedMsg (.fetchReply 1)
  let key : Nat := 20
  let k : Nat := 3
  (match s.tx? key with
  | some m =>
    (match m.first with
    | some a0 =>
      (match m.use with
      | .fetchReply _ =>
        (s.awake) && decide (a0 + 2000000000 ≤ s.now) && decide (k ≠ key)
      | _ => false)
    | _ => false)
  | _ => false)) = true := by decide +kernel

theorem witness_MessageLife_2 : (
  let s : State := agedFetch
  let key : Nat := 20
  let c : Nat := 0
  (match s.tx? key with
  | some m =>
    (match m.first with
    | some a0 =>
      (match s.cmd? c with
      | some (k, x) =>
        (s.awake) && decide (a0 + 2000000000 ≤ s.now) && decide (m.use = MsgUse.fetch c) && decide (m.opcode = Opcode.fetch) &&
        decide (x.state ≠ SlotState.completing) && decide (x.wait ≠ CmdWait.finished)
      | _ => false)
    | _ => false)
  | _ => false)) = true := by decide +kernel

theorem witness_MessageLife_3 : (
  let s : State := heldReply
  (match List.find? (fun x => (s.heldSa x).isSome || (s.heldEnds x).isSome) s.trn.held with
  | some h =>
    (match s.heldSa h with
    | some n =>
      (s.awake) && ((s.heldEnds h).isNone) && decide (h.msg.newId = false)
    | _ => false)
  | _ => false)) = true := by decide +kernel

theorem witness_MessageLife_4 : (
  let s : State := heldMsg
  (match List.find? (fun x => (s.heldSa x).isSome || (s.heldEnds x).isSome) s.trn.held with
  | some h =>
    (match s.heldSa h with
    | some n =>
      (s.awake) && ((s.heldEnds h).isNone) && (h.msg.newId)
    | _ => false)
  | _ => false)) = true := by decide +kernel

theorem witness_MessageLife_5 : (
  let s : State := onTrn (fun t => { t with rx := [{ rxMsg with reply := true }] }) rxOld
  let sa : Nat := 3
  let id : Nat := 0
  let k : Nat := 4
  (match List.find? (fun x => x.sa == sa && x.id == id && decide (x.created + 4000000000 ≤ s.now)) s.trn.rx with
  | some m =>
    (s.awake) && decide (id < 2 ^ 48) && decide (k ≠ sa)
  | _ => false)) = true := by decide +kernel

theorem witness_MessageLife_6 : (
  let s : State := rxOld
  let sa : Nat := 3
  let id : Nat := 0
  let r : Bool := false
  let k : Nat := 4
  (match List.find? (fun x => x.sa == sa && x.id == id && x.reply == r) s.trn.rx with
  | some m =>
    (match m.ackFrom with
    | some a0 =>
      (s.awake) && decide (a0 + s.ackDelay ≤ s.now) && decide (m.trigPath < 16) && (pathValid (s.sa sa) m.trigPath) && decide (k
      ≠ sa) && saSendsB s sa
    | _ => false)
  | _ => false)) = true := by decide +kernel

theorem witness_PathsAndWindow_1 : (
  let s : State := pathAt 1 3
  let sa : Nat := 3
  let w : Nat := 0
  let k : Nat := 3
  (s.awake) && (s.pathIs sa w 1) && decide ((s.pathTest sa w).probes = 3) && (s.probeGap sa w 200000) && decide (k < 16) && decide (k ≠ w)) = true := by decide +kernel

theorem witness_PathsAndWindow_2 : (
  let s : State := pathAt 1 3
  let sa : Nat := 3
  let w : Nat := 0
  let k : Nat := 4
  (s.awake) && (s.pathIs sa w 1) && decide ((s.pathTest sa w).probes = 3) && (s.probeGap sa w 200000) && decide (k ≠ sa)) = true := by decide +kernel

theorem witness_PathsAndWindow_3 : (
  let s : State := pathAt 2 0
  let sa : Nat := 3
  let w : Nat := 0
  (s.awake) && (s.pathIs sa w 2) && decide ((s.pathTest sa w).lastProbe + 10000000 ≤ s.now) && saSendsB s sa && decide (s.saGet sa Sa.kind ≠ 1)) = true := by decide +kernel

theorem witness_PathsAndWindow_4 : (
  let s : State := pathAt 1 1
  let sa : Nat := 3
  let w : Nat := 0
  (s.awake) && (s.pathIs sa w 1) && decide ((s.pathTest sa w).probes < 3) && (s.probeGap sa w 50000) && saSendsB s
  sa && decide (s.saGet sa Sa.kind ≠ 1)) = true := by decide +kernel

theorem witness_PathsAndWindow_5 : (
  let s : State := pathAt 1 3
  let sa : Nat := 3
  let k : Nat := 4
  (s.awake) && decide (s.saState sa ≠ Sas.invalid) && decide (s.saGet sa Sa.srtt ≠ 0) && decide ((s.aux sa).growFrom + s.saGet
  sa Sa.srtt ≤ s.now) && decide (k ≠ sa)) = true := by decide +kernel

theorem witness_PathsAndWindow_6 : (
  let s : State := groupEn
  let sa : Nat := 4
  (s.awake) && decide (s.saGet sa Sa.kind = 1)) = true := by decide +kernel

theorem witness_SecurityAssociations_1 : (
  let s : State := saShelf 1 []
  let p : Sys2Proof.Path := Path.mgmt
  let k : Nat := 4
  (s.busOn) && (s.modeLets p A.TRN_SA_CMD) && decide (∀ m ∈ s.trn.tx, m.sa ≠ s.saSel) && decide (∀ h ∈ s.trn.held, h.sa ≠
  s.saSel) && decide (∀ h ∈ s.win.held, h.sa ≠ s.saSel) && decide (k ≠ s.saSel)) = true := by decide +kernel

theorem witness_SecurityAssociations_2 : (
  let s : State := toSend
  let p : Sys2Proof.Path := Path.mgmt
  (match s.trn.tx with
  | [m] =>
    (match m.use with
    | .fetchReply _ =>
      (s.busOn) && (s.modeLets p A.TRN_SA_CMD) && decide (m.sa = s.saSel) && decide (s.trn.held = []) && decide (s.win.held =
      [])
    | _ => false)
  | _ => false)) = true := by decide +kernel

theorem witness_SecurityAssociations_3 : (
  let s : State := draining
  let sa : Nat := 3
  (s.awake) && decide (s.saState sa = Sas.draining) && decide ((s.aux sa).drainAt + 2000000000 ≤ s.now) && decide (∀ m ∈
  s.trn.tx, m.sa ≠ sa) && decide (∀ h ∈ s.trn.held, h.sa ≠ sa) && decide (∀ h ∈ s.win.held, h.sa ≠ sa)) = true := by decide +kernel

theorem witness_SecurityAssociations_4 : (
  let s : State := syncing
  let sa : Nat := 3
  (match (s.aux sa).sync with
  | [r] =>
    (match choosePath (s.sa sa) r.path false with
    | some q =>
      (s.awake) && decide (r.sentAt + r.interval ≤ s.now) && saSendsB s sa
    | _ => false)
  | _ => false)) = true := by decide +kernel

theorem witness_QueueCommands_1 : (
  let s : State := adm 0x20 5 0 (dataTok 512)
  let c : Nat := 0
  let j : Nat := 64
  (match s.adminCmd c 32 with
  | some (key, x) =>
    let k := namedQueue key x
    (match s.freeQueueSlot with
    | some n =>
      (s.awake) && decide (s.queue? k = none) && (ringOk (dataToken x.cap)) && decide (j ≠ k)
    | _ => false)
  | _ => false)) = true := by decide +kernel

theorem witness_QueueCommands_2 : (
  let s : State := adm 0x22 1 0 0
  let c : Nat := 0
  let d : Bool := false
  let j : Nat := 64
  (match s.adminCmd c (if d = true then 33 else 34) with
  | some (key, x) =>
    let k := namedQueue key x
    (match s.queue? k with
    | some q =>
      (s.awake) && decide (s.closingOf c = none) && decide (q.state = QueueState.active) && decide (dataToken x.cap = 0) &&
      decide (s.queueCmds k = []) && decide (j ≠ k)
    | _ => false)
  | _ => false)) = true := by decide +kernel

theorem witness_QueueCommands_3 : (
  let s : State := resetting true
  let c : Nat := 0
  let d : Bool := true
  (match s.closingOf c with
  | some (k, q) =>
    (match s.cmd? c with
    | some (key, x) =>
      (s.awake) && (s.firmwareRuns) && decide (s.queue? k = some q) && decide (q.closing = some { by_ := c, ring := none, delete
      := d }) && decide (q.state = QueueState.resetting) && (s.queueQuiet k) && decide (queueOf key ≠ k) && decide (x.state ≠
      SlotState.completing) && decide (x.wait ≠ CmdWait.finished)
    | _ => false)
  | _ => false)) = true := by decide +kernel

theorem witness_Volumes_1 : (
  let s : State := volSel 0 2 (fun n => n + 3) vshelf
  let p : Sys2Proof.Path := Path.mgmt
  let n : Nat := 0
  (s.up) && (s.modeLets p A.VOL_CMD) && decide (s.volBusy = false) && decide (s.fld F.VOL_SEL_TABLE = 0) && decide (s.fld
  F.VOL_SEL_INDEX < 4096) && decide (n < 16)) = true := by decide +kernel

theorem witness_Volumes_2 : (
  let s : State := volSel 3 2 (fun n => n + 3) vshelf
  let p : Sys2Proof.Path := Path.mgmt
  let e : Nat := 0
  let i := s.fld F.VOL_SEL_INDEX
  (s.up) && (s.modeLets p A.VOL_CMD) && decide (s.volBusy = false) && decide (s.fld F.VOL_SEL_TABLE = 3) && decide (i < 4096) &&
  decide (e ≠ i)) = true := by decide +kernel

theorem witness_Volumes_3 : (
  let s : State := volSel 0 2 (fun n => n + 3) idleVol
  let p : Sys2Proof.Path := Path.mgmt
  let e : Nat := 0
  let i := s.fld F.VOL_SEL_INDEX
  (s.up) && (s.modeLets p A.VOL_CMD) && decide (s.volBusy = false) && decide (s.fld F.VOL_SEL_TABLE = 0) && decide (i < 4096) &&
  decide (getPart (s.vent i) Volu.state ≠ 1) && decide (e ≠ i)) = true := by decide +kernel

theorem witness_Volumes_4 : (
  let s : State := volSel 2 10 (fun n => n) idleVol
  let p : Sys2Proof.Path := Path.mgmt
  let e : Nat := 0
  let i := s.fld F.VOL_SEL_INDEX
  (s.up) && (s.modeLets p A.VOL_CMD) && decide (s.volBusy = false) && decide (s.fld F.VOL_SEL_TABLE = 2) && decide (s.extHeld i
  (extEntry (ofBytes 256 (s.volStaged 8))) = false) && decide (s.holders i = []) && decide (e ≠ i)) = true := by decide +kernel

theorem witness_Volumes_5 : (
  let s : State := volSel 2 10 (fun n => n) (onVol (fun v => { v with vols := [(2, putPart volume2 Volu.state 0)] }) reading)
  let p : Sys2Proof.Path := Path.mgmt
  let i := s.fld F.VOL_SEL_INDEX
  (s.up) && (s.modeLets p A.VOL_CMD) && decide (s.volBusy = false) && decide (s.fld F.VOL_SEL_TABLE = 2) && decide (s.extHeld i
  (extEntry (ofBytes 256 (s.volStaged 8))) = false) && decide (s.holders i ≠ [])) = true := by decide +kernel

theorem witness_Volumes_6 : (
  let s : State := extWaits true
  (match s.vol.waitingExt with
  | some (i, e, cs) =>
    (s.awake) && (cs.any fun c => match s.cmd? c with | some (fst, x) => s.holdsEntry i x | none => false)
  | _ => false)) = true := by decide +kernel

theorem witness_Volumes_7 : (
  let s : State := extWaits false
  let k : Nat := 11
  (match s.vol.waitingExt with
  | some (i, e, cs) =>
    (s.awake) && decide ((cs.any fun c => match s.cmd? c with | some (fst, x) => s.holdsEntry i x | none => false) = false) &&
    decide (k ≠ i)
  | _ => false)) = true := by decide +kernel

theorem witness_Volumes_8 : (
  let s : State := volSel 0 2 (fun n => n) vshelf
  let v : Nat := (volSel 0 2 (fun n => n) vshelf).fld F.VOL_SEL_INDEX
  let p : Sys2Proof.Path := Path.mgmt
  let e : Nat := 0
  (s.up) && (s.modeLets p A.VOL_CMD) && decide (s.volBusy = false) && decide (s.fld F.VOL_SEL_TABLE = 0) && decide (v = s.fld
  F.VOL_SEL_INDEX) && decide (v < 4096) && (s.volActive v) && decide (e ≠ v) && decide (s.volBusyCmds v = false)) = true := by decide +kernel

theorem witness_Volumes_9 : (
  let s : State := volSel 0 2 (fun n => n) idleVol
  let v : Nat := (volSel 0 2 (fun n => n) idleVol).fld F.VOL_SEL_INDEX
  let p : Sys2Proof.Path := Path.mgmt
  let e : Nat := 0
  (s.up) && (s.modeLets p A.VOL_CMD) && decide (s.volBusy = false) && decide (s.fld F.VOL_SEL_TABLE = 0) && decide (v = s.fld
  F.VOL_SEL_INDEX) && decide (v < 4096) && decide (s.volActive v = false) && (s.extentsOk v (s.vent v)) && decide (e ≠ v)) = true := by decide +kernel

theorem witness_Volumes_10 : (
  let s : State := volSel 0 3 (fun n => n) idleVol
  let v : Nat := (volSel 0 3 (fun n => n) idleVol).fld F.VOL_SEL_INDEX
  let p : Sys2Proof.Path := Path.mgmt
  (s.up) && (s.modeLets p A.VOL_CMD) && decide (s.volBusy = false) && decide (s.fld F.VOL_SEL_TABLE = 0) && decide (v = s.fld
  F.VOL_SEL_INDEX) && decide (v < 4096) && decide (s.volActive v = false) && decide (s.extentsOk v (s.vent v) = false)) = true := by decide +kernel

theorem witness_Volumes_11 : (
  let s : State := volSel 0 2 (fun n => n) reading
  let v : Nat := (volSel 0 2 (fun n => n) reading).fld F.VOL_SEL_INDEX
  let p : Sys2Proof.Path := Path.mgmt
  (s.up) && (s.modeLets p A.VOL_CMD) && decide (s.volBusy = false) && decide (s.fld F.VOL_SEL_TABLE = 0) && decide (v = s.fld
  F.VOL_SEL_INDEX) && decide (v < 4096) && (s.volActive v) && (s.volBusyCmds v)) = true := by decide +kernel

theorem witness_Volumes_12 : (
  let s : State := onVol (fun v => { v with deactivating := some 2 }) reading
  (match s.vol.deactivating with
  | some v =>
    (s.awake) && (s.volBusyCmds v)
  | _ => false)) = true := by decide +kernel

theorem witness_Volumes_13 : (
  let s : State := onVol (fun v => { v with deactivating := some 2 }) vshelf
  (match s.vol.deactivating with
  | some v =>
    (s.awake) && decide (s.volBusyCmds v = false)
  | _ => false)) = true := by decide +kernel

theorem witness_Volumes_14 : (
  let s : State := volSel 2 10 (fun n => n) (onVol (fun v => { v with exts := [(10, putPart extent10 Ext.state 0)] }) idleVol)
  let p : Sys2Proof.Path := Path.mgmt
  let k : Nat := 11
  let i := s.fld F.VOL_SEL_INDEX
  (s.up) && (s.modeLets p A.VOL_CMD) && decide (s.volBusy = false) && decide (s.fld F.VOL_SEL_TABLE = 2) && decide (getPart
  (s.ext i) Ext.state ≤ 1) && (s.grpOn (getPart (s.ext i) Ext.group % 8)) && decide (s.groupState (getPart (s.ext i) Ext.group %
  8) ≠ 4) && ((s.volKey (getPart (s.ext i) Ext.volume % 4096)).isSome) && decide (k ≠ i)) = true := by decide +kernel

theorem witness_Volumes_15 : (
  let s : State := onVol (fun v => { v with init := some ⟨10, 131072, []⟩ }) idleVol
  let k : Nat := 11
  (match s.vol.init with
  | some j =>
    (s.awake) && decide (s.str.live = []) && decide (s.str.waiting = []) && decide (extentStripes (s.grp (getPart (s.ext
    j.entry) Ext.group % 8)) ≤ j.next) && decide (k ≠ j.entry)
  | _ => false)) = true := by decide +kernel

theorem witness_StripeGeometry_1 : (
  let e : BitVec 512 := group0
  let stripe : Nat := 0
  let i : Nat := 0
  let j : Nat := 0
  let m : Nat := 0
  decide (3 ≤ grpMembers e) && decide (i < dataStrips e) && decide (j < dataStrips e) && decide (dataMember e stripe i =
  dataMember e stripe j) && decide (m < grpMembers e)) = true := by decide +kernel

theorem witness_Checkpoints_1 : (
  let s : State := ckptWait
  let p : Sys2Proof.Path := Path.mgmt
  (s.up) && (s.modeLets p A.STR_CMD) && decide (s.str.replayBusy = false) && decide (s.isFenced = false) && decide (s.str.ckpt ≠
  none)) = true := by decide +kernel

theorem witness_Checkpoints_2 : (
  let s : State := vshelf
  let p : Sys2Proof.Path := Path.mgmt
  (s.up) && (s.modeLets p A.STR_CMD) && decide (s.str.replayBusy = false) && decide (s.isFenced = false) && decide (s.str.ckpt =
  none)) = true := by decide +kernel

theorem witness_Checkpoints_3 : (
  let s : State := late 3000000000 (vshelf.setFld F.STR_CTRL_CKPT_EN 1)
  (s.awake) && decide (Tab.getD Tick.ckpt 0 s.served < s.now / 1000000000 * 1000000000) && (s.is F.STR_CTRL_CKPT_EN) && decide
  (s.isFenced = false) && decide (s.str.ckpt = none)) = true := by decide +kernel

theorem witness_Checkpoints_4 : (
  let s : State := ckptWait
  (match s.str.ckpt with
  | some r =>
    (s.awake) && decide (r.shutdown = false) && decide (s.str.ckptDue = false) && decide (s.str.shutdown = false) && decide (3 ≤
    r.copies.length) && (r.copies.all s.copyStands) && decide ((r.copies.all fun c => s.portReady c.2.2) = false)
  | _ => false)) = true := by decide +kernel

theorem witness_Checkpoints_5 : (
  let s : State := ckptOn
  (match s.str.ckpt with
  | some r =>
    (s.awake) && decide (r.shutdown = false) && decide (s.str.ckptDue = false) && decide (s.str.shutdown = false) && decide (3 ≤
    r.copies.length) && (r.copies.all s.copyStands) && (r.copies.all fun c => s.portReady c.2.2)
  | _ => false)) = true := by decide +kernel

theorem witness_Checkpoints_6 : (
  let s : State := vshelf
  let p : Sys2Proof.Path := Path.mgmt
  (s.up) && (s.modeLets p A.STR_CMD) && decide (s.str.shutdown = false) && decide (s.str.replayBusy = false) && decide
  (s.str.live = []) && decide (s.str.ckpt = none)) = true := by decide +kernel

theorem witness_Checkpoints_7 : (
  let s : State := ready
  let p : Sys2Proof.Path := Path.mgmt
  (s.up) && (s.modeLets p A.STR_CMD) && decide (s.str.shutdown = false) && decide (s.str.replayBusy = false) && decide
  (s.str.live ≠ [])) = true := by decide +kernel

theorem witness_Checkpoints_8 : (
  let s : State := orphan
  let p : Sys2Proof.Path := Path.mgmt
  let c : Nat := 99
  let k : Nat := 0
  (match s.str.live with
  | [w] =>
    let g := w.group
    (match w.intent with
    | some i =>
      (s.up) && (s.modeLets p A.STR_CMD) && decide (s.str.replayBusy = false) && decide (s.str.shutdown = false) && decide
      (w.owner = StripeFor.command c) && decide (s.cmd? c = none) && decide (w.mirrorWait = false) && decide (w.mirrored =
      false) && decide (k ≠ i)
    | _ => false)
  | _ => false)) = true := by decide +kernel

theorem witness_PowerLoss_1 : (
  let s : State := vshelf
  let n : Nat := 0
  decide (s.glb.phase = ChipPhase.running) && decide (s.asleep = false) && decide (s.draining = false) && decide
  (s.bay.powerLoss = false) && decide (n < 24)) = true := by decide +kernel

theorem witness_PowerLoss_2 : (
  let s : State := dumping
  decide (s.glb.phase = ChipPhase.lossDump)) = true := by decide +kernel

theorem witness_PowerLoss_3 : (
  let s : State := dumping
  decide (s.glb.phase ≠ ChipPhase.held) && (s.bay.powerLoss)) = true := by decide +kernel

theorem witness_PowerLoss_4 : (
  let s : State := holdOff
  decide (s.glb.phase = ChipPhase.powerHold) && decide (s.bay.powerLoss = false) && decide (s.now < s.bay.lineAt + 100000000)) = true := by decide +kernel

theorem witness_PowerLoss_5 : (
  let s : State := late 200000000 holdOff
  let a : Nat := A.STR_CTRL
  decide (s.glb.phase = ChipPhase.powerHold) && decide (s.bay.powerLoss = false) && decide (s.bay.lineAt + 100000000 ≤ s.now) &&
  decide (a ≠ F.GLB_RESET_CAUSE_CAUSE.addr)) = true := by decide +kernel

theorem witness_StripeWriteLife_1 : (
  let s : State := memberCopy 2 true
  let m : Nat := 7
  let f : List (Nat × Nat × CopyFault) := []
  let media : MediaErrors := ⟨[], []⟩
  let u := s.copyFaults f
  let g : Nat := 0
  (match bestSource ((u.atticSource m).toList ++ u.memberSources m u.side) with
  | some src =>
    (s.awake) && decide (s.str.replayBusy = false) && decide (s.str.replayed = false) && decide (src.code = 4) && decide (g < 8)
    && (s.grpOn g)
  | _ => false)) = true := by decide +kernel

theorem witness_StripeWriteLife_2 : (
  let s : State := memberCopy 3 false
  let m : Nat := 7
  let f : List (Nat × Nat × CopyFault) := []
  let media : MediaErrors := ⟨[], []⟩
  let u := s.copyFaults f
  (match bestSource ((u.atticSource m).toList ++ u.memberSources m u.side) with
  | some src =>
    (match exec (Instr.replay m f media) s with
    | Host.Outcome.next t =>
      (s.awake) && decide (s.str.replayBusy = false) && decide (s.str.replayed = false) && !t.str.replayLeft.isEmpty
    | _ => false)
  | _ => false)) = true := by decide +kernel

theorem witness_StripeWriteLife_3 : (
  let s : State := sealedAttic
  let m : Nat := 7
  let f : List (Nat × Nat × CopyFault) := []
  let media : MediaErrors := ⟨[], []⟩
  let u := s.copyFaults f
  let g : Nat := 0
  (s.awake) && decide (s.str.replayBusy = false) && decide (s.str.replayed = false) && decide (bestSource ((u.atticSource
  m).toList ++ u.memberSources m u.side) = none) && decide (g < 8) && (s.grpOn g)) = true := by decide +kernel

theorem witness_StripeWriteLife_4 : (
  let s : State := onAtt (fun a => {a with clean := true}) vshelf
  let m : Nat := 0
  let f : List (Nat × Nat × CopyFault) := []
  let media : MediaErrors := ⟨[], []⟩
  let u := s.copyFaults f
  (match bestSource ((u.atticSource m).toList ++ u.memberSources m u.side) with
  | some src =>
    (s.awake) && decide (s.str.replayBusy = false) && decide (s.str.replayed = false) && decide (src.code = 5) && decide
    (src.lost = none) && decide (src.clocks = none)
  | _ => false)) = true := by decide +kernel

theorem witness_StripeWriteLife_5 : (
  let s : State := replaying
  (s.awake) && (s.str.replayBusy) && decide (s.str.replayLeft = []) && decide (s.attic.clockMarks = []) && decide (s.isFenced =
  false) && decide (s.str.ckpt = none)) = true := by decide +kernel

theorem witness_StripeWriteLife_6 : (
  let s : State := admitting 1
  let k : Nat := 1
  (match List.find? s.stripeFree s.str.waiting with
  | some w =>
    (match s.freeIntent with
    | some i =>
      (match s.findSlots (s.bufferSize w) with
      | some a =>
        (s.awake) && (s.admits) && decide (s.vol.init = none) && decide (s.groupState w.group ≠ 4) && decide (w.mode = 3 ∨
        s.genOut w.group = false) && decide (s.slotsHeld + s.bufferSize w ≤ 114688) && decide (w.mode ≠ 3) && decide (k ≠ i)
      | _ => false)
    | _ => false)
  | _ => false)) = true := by decide +kernel

theorem witness_StripeWriteLife_7 : (
  let s : State := admitting 3
  (match List.find? s.stripeFree s.str.waiting with
  | some w =>
    (match s.freeIntent with
    | some i =>
      (match s.findSlots (s.bufferSize w) with
      | some a =>
        (s.awake) && (s.admits) && decide (s.vol.init = none) && decide (s.groupState w.group ≠ 4) && decide (w.mode = 3 ∨
        s.genOut w.group = false) && decide (s.slotsHeld + s.bufferSize w ≤ 114688) && decide (w.mode = 3)
      | _ => false)
    | _ => false)
  | _ => false)) = true := by decide +kernel

theorem witness_StripeWriteLife_11 : (
  let s : State := noKey
  let n : Nat := 6
  let bad : List (Nat × Nat) := ([] : List (Nat × Nat))
  (match s.live? n with
  | some w =>
    (match w.intent with
    | some i =>
      (match Tab.find? i s.str.buffers with
      | some (first, size) =>
        (match s.build w (getPart (s.intent i) Intent.newGen) bad with
        | Except.error st =>
          (s.awake) && (s.canBuild w)
        | _ => false)
      | _ => false)
    | _ => false)
  | _ => false)) = true := by decide +kernel

theorem witness_StripeWriteLife_12 : (
  let s : State := memberCopy 2 true
  let m : Nat := 7
  let f : List (Nat × Nat × CopyFault) := [(1, 0, .seal)]
  let u := s.copyFaults f
  let g : Nat := 0
  (s.awake) && decide (s.str.replayBusy = false) && decide (s.str.replayed = false) && decide (bestSource ((u.atticSource
  m).toList ++ u.memberSources m u.side) = none) && decide (g < 8) && (s.grpOn g)) = true := by decide +kernel

theorem witness_RebuildWalk_1 : (
  let s : State := rebuilding 0 [] []
  let g : Nat := 0
  let bad : List (Nat × Nat) := ([] : List (Nat × Nat))
  let wbad : List (Nat × Nat) := ([] : List (Nat × Nat))
  (match s.targets g with
  | [(i, x)] =>
    (s.awake) && (s.walkReady g) && decide (s.draining = false) && decide (x.done = false) && decide (x.wrapped = false) &&
    decide (x.point + 1 < getPart (s.grp g) Grp.stripes) && decide (s.extentOf g x.point = none ∨ s.disputed g x.point = true)
  | _ => false)) = true := by decide +kernel

theorem witness_RebuildWalk_2 : (
  let s : State := rebuilding 0 [(10, extent10)] []
  let g : Nat := 0
  let bad : List (Nat × Nat) := ([] : List (Nat × Nat))
  let wbad : List (Nat × Nat) := ([] : List (Nat × Nat))
  let m : Nat := 1
  (match s.extentOf g (s.walkPoint g) with
  | some e =>
    (s.awake) && (s.walkReady g) && decide (s.draining = false) && decide (s.disputed g (s.walkPoint g) = false) && decide (m ∈
    List.map (fun x => x.member) (s.served_ g))
  | _ => false)) = true := by decide +kernel

theorem witness_RebuildWalk_3 : (
  let s : State := late 3000000000 (rebuilding 0 [] [])
  let k : Nat := 0
  let i : Nat := 0
  let x : Target := target 1 0
  (s.awake) && decide (Tab.getD Tick.rebuildRecord 0 s.served < s.now / 1000000000 * 1000000000) && decide (k < 8) &&
  ((List.range 8).all fun g => decide (s.targets g = if g = k then [(i, x)] else []))) = true := by decide +kernel

theorem witness_RebuildWalk_4 : (
  let s : State := rebuilding 0 [] []
  let g : Nat := 0
  let m : Nat := 0
  (s.awake) && decide (s.overErrors g m = false)) = true := by decide +kernel

theorem witness_RebuildWalk_5 : (
  let s : State := erring
  let g : Nat := 0
  let m : Nat := 1
  let k : Nat := 0
  (s.awake) && (s.overErrors g m) && (s.grpOn g) && decide (s.member g m ≤ 1) && decide (m < grpMembers (s.grp g)) && decide (m
  < 24) && decide (k ≠ m) && decide (k < 24)) = true := by decide +kernel

theorem witness_PatrolsAndReshapes_1 : (
  let s : State := patrolling .unpaced false freeExt
  let g : Nat := 0
  let bad : List (Nat × Nat) := ([] : List (Nat × Nat))
  let wbad : List (Nat × Nat) := ([] : List (Nat × Nat))
  (s.awake) && decide (g < 8) && (s.grpOn g) && (s.walksGroup g) && decide (s.isFenced = false) && decide (s.draining = false)
  && decide (s.patrolPaused g = false) && decide ((s.patrol g).ext = none) && decide ((s.patrol g).kind = PatrolKind.unpaced) &&
  decide ((s.patrol g).passed = false) && decide ((s.patrol g).point + 1 < getPart (s.grp g) Grp.stripes) && (s.stripeIdle g
  (s.patrol g).point) && decide (s.extentOf g (s.patrol g).point = none)) = true := by decide +kernel

theorem witness_PatrolsAndReshapes_2 : (
  let s : State := late (10^18) (patrolling .periodic false vshelf)
  let g : Nat := 0
  let k : Nat := 1
  (s.awake) && decide ((s.patrol g).kind = PatrolKind.periodic) && decide ((s.patrol g).late = false) && decide ((s.patrol
  g).began + s.patrolDays * day ≤ s.now) && decide (k ≠ g)) = true := by decide +kernel

theorem witness_PatrolsAndReshapes_3 : (
  let s : State := patrolling .periodic false vshelf
  let g : Nat := 0
  (s.awake) && decide ((s.patrol g).kind = PatrolKind.periodic) && decide ((s.patrol g).late = false) && decide (s.now <
  (s.patrol g).began + s.patrolDays * day)) = true := by decide +kernel

theorem witness_PatrolsAndReshapes_4 : (
  let s : State := patrolling .unpaced false vshelf
  let p : Sys2Proof.Path := Path.mgmt
  let g : Nat := 0
  let k : Nat := 1
  (s.up) && (s.modeLets p A.RBD_CMD) && (s.grpOn g) && decide (k ≠ g)) = true := by decide +kernel

theorem witness_PatrolsAndReshapes_5 : (
  let s : State := patrolling .unpaced false vshelf
  let p : Sys2Proof.Path := Path.mgmt
  let g : Nat := 0
  (s.up) && (s.modeLets p A.RBD_CMD)) = true := by decide +kernel

theorem witness_PatrolsAndReshapes_6 : (
  let s : State := disp
  let p : Sys2Proof.Path := Path.mgmt
  let e := Tab.getD (s.fld F.RBD_LOST_SEL_GROUP * 4096 + s.fld F.RBD_LOST_SEL_INDEX) 0 s.attic.lost
  (match s.extentOf (s.fld F.RBD_LOST_SEL_GROUP) (getPart e Lost.stripe) with
  | some (i, x, first) =>
    (s.up) && (s.modeLets p A.RBD_CMD) && (lostValid e) && (lostDisputed e)
  | _ => false)) = true := by decide +kernel

theorem witness_PatrolsAndReshapes_7 : (
  let s : State := reshaping 1 10
  let i : Nat := (reshaping 1 10).fld F.RBD_RESHAPE_CFG_EXTENT
  let g : Nat := (reshaping 1 10).fld F.RBD_RESHAPE_CFG_GROUP
  let f : Nat := (reshaping 1 10).pair A.RBD_RESHAPE_DST % 2 ^ 48
  let p : Sys2Proof.Path := Path.mgmt
  let k : Nat := 0
  (s.up) && (s.modeLets p A.RBD_CMD) && decide (s.rbd.reshape = none) && decide (i = s.fld F.RBD_RESHAPE_CFG_EXTENT) && decide
  (g = s.fld F.RBD_RESHAPE_CFG_GROUP) && decide (f = s.pair A.RBD_RESHAPE_DST % 2 ^ 48) && decide (s.fld F.RBD_RESHAPE_CFG_MODE
  = 1) && (s.grpOn g) && decide (s.groupState g ≠ 4) && decide (getPart (s.ext i) Ext.state = Exts.mapped) && decide (k ≠ i)) = true := by decide +kernel

theorem witness_PatrolsAndReshapes_8 : (
  let s : State := reshaping 1 11
  let i : Nat := (reshaping 1 11).fld F.RBD_RESHAPE_CFG_EXTENT
  let g : Nat := (reshaping 1 11).fld F.RBD_RESHAPE_CFG_GROUP
  let f : Nat := (reshaping 1 11).pair A.RBD_RESHAPE_DST % 2 ^ 48
  let p : Sys2Proof.Path := Path.mgmt
  (s.up) && (s.modeLets p A.RBD_CMD) && decide (s.rbd.reshape = none) && decide (i = s.fld F.RBD_RESHAPE_CFG_EXTENT) && decide
  (g = s.fld F.RBD_RESHAPE_CFG_GROUP) && decide (f = s.pair A.RBD_RESHAPE_DST % 2 ^ 48) && decide (s.grpOn g = false ∨
  s.groupState g = 4 ∨ getPart (s.ext i) Ext.state = Exts.free)) = true := by decide +kernel

theorem witness_PatrolsAndReshapes_9 : (
  let s : State := moving .copying .idle 1 0
  let p : Sys2Proof.Path := Path.mgmt
  let k : Nat := 0
  (match s.rbd.reshape with
  | some r =>
    (s.awake) && decide (s.isFenced = false) && decide (r.mode = 1) && decide (r.state = ReshapeState.copying) && decide (r.step
    = ReshapeStep.idle) && decide (s.draining = false) && decide (s.groupState r.dstGroup ≠ 4) && decide (s.groupState (getPart
    (s.ext r.entry) Ext.group % 8) ≠ 4) && decide (s.genOut r.dstGroup = false) && decide (s.stillHold r.entry r.waits = false)
    && (s.stepClear r) && decide (s.str.waiting = []) && decide (s.str.live = []) && (s.modeLets p A.RBD_CMD) && decide (k ≠
    r.entry)
  | _ => false)) = true := by decide +kernel

theorem witness_PatrolsAndReshapes_10 : (
  let s : State := moving .copying .written 1 8
  (match s.rbd.reshape with
  | some r =>
    (s.awake) && decide (s.isFenced = false) && decide (r.mode = 1) && decide (r.state = ReshapeState.copying) && decide (r.step
    = ReshapeStep.written) && decide (r.copied + s.stepCount r < 1048576)
  | _ => false)) = true := by decide +kernel

theorem witness_PatrolsAndReshapes_11 : (
  let s : State := moving .switching .idle 1 0
  let k : Nat := 0
  (match s.rbd.reshape with
  | some r =>
    (s.awake) && decide (s.isFenced = false) && decide (r.mode = 1) && decide (r.state = ReshapeState.switching) && decide
    (s.stillHold r.entry r.waits = false) && decide (k ≠ r.entry)
  | _ => false)) = true := by decide +kernel

theorem witness_PatrolsAndReshapes_12 : (
  let s : State := moving .copying .idle 2 8
  let p : Sys2Proof.Path := Path.mgmt
  (match s.rbd.reshape with
  | some r =>
    (s.up) && (s.modeLets p A.RBD_CMD) && decide (r.mode ≠ 1)
  | _ => false)) = true := by decide +kernel

theorem witness_PatrolsAndReshapes_13 : (
  let s : State := reshaping 1 10
  let p : Sys2Proof.Path := Path.mgmt
  let g : Nat := 0
  (s.up) && (s.modeLets p A.RBD_CMD) && decide (g < 8) && (List.any s.vol.exts fun x => getPart x.2 Ext.state != 0 && (getPart
  x.2 Ext.group % 8 == g || getPart x.2 Ext.state == Exts.moving && getPart x.2 Ext.altGroup % 8 == g))) = true := by decide +kernel

theorem witness_PatrolsAndReshapes_14 : (
  let s : State := redef
  let p : Sys2Proof.Path := Path.mgmt
  let g : Nat := 0
  let k : Nat := 1
  (s.up) && (s.modeLets p A.RBD_CMD) && decide (g < 8) && decide (s.vol.exts = []) && decide (grpFieldBad (ofBytes 512
  (s.volStaged 16)) = false) && decide (s.bayInUse g (grpEntry (ofBytes 512 (s.volStaged 16))) = false) && decide (s.grpOn g =
  false) && decide (s.groupState g = 0) && decide (k ≠ g)) = true := by decide +kernel

theorem witness_PatrolsAndReshapes_15 : (
  let s : State := onRbd (fun r => { r with reshape := some ⟨.copying, 10, 0, 131072, 1, 8, 0, .written, [], true⟩ }) vshelf
  (match s.rbd.reshape with
  | some r =>
    (s.awake) && decide (s.isFenced = false) && decide (r.mode = 1) && decide (r.state = .copying) && decide (r.step = .written)
    && (r.stopping) && decide (r.copied + s.stepCount r < 1048576)
  | _ => false)) = true := by decide +kernel

theorem witness_PatrolsAndReshapes_16 : (
  let s : State := onRbd (fun r => { r with reshape := some ⟨.switching, 10, 0, 131072, 1, 1048576, 0, .idle, [0], false⟩ })
    (withCmd { cmdOf (ioCap 1 0 1) with started := true, xlate := [extent10] })
  (match s.rbd.reshape with
  | some r =>
    (s.awake) && decide (s.isFenced = false) && decide (r.mode = 1) && decide (r.state = .switching) && (s.stillHold r.entry
    r.waits)
  | _ => false)) = true := by decide +kernel

theorem witness_ReadService_1 : (
  let s : State := pendWait none (some 0)
  let n : Nat := 5
  (match s.pend? n with
  | some p =>
    let u := s.each p.waiters fun s c => s.serveWaiter p c fun _ => true
    (s.awake) && (p.done) && decide (p.cut = false) && decide (p.fill = none)
  | _ => false)) = true := by decide +kernel

theorem witness_ReadService_2 : (
  let s : State := pendWait (some 3) (some 0)
  let n : Nat := 5
  (match s.pend? n with
  | some p =>
    let u := s.each p.waiters fun s c => s.serveWaiter p c fun _ => true
    (s.awake) && (p.done) && decide (p.cut = false) && (p.fill.isSome)
  | _ => false)) = true := by decide +kernel

theorem witness_ReadService_3 : (
  let s : State := fillWait (some 0)
  let n : Nat := 5
  let k : Nat := 0
  (match s.pend? n with
  | some p =>
    (match p.fill with
    | some i =>
      (s.awake) && (p.done) && decide (p.waiters = []) && decide (p.stale = false) && decide (k ≠ i) && decide (∀ y ∈ p.blocks,
      y.verdict = some St.success)
    | _ => false)
  | _ => false)) = true := by decide +kernel

theorem witness_ReadService_4 : (
  let s : State := fillWait (some St.unrecoveredRead)
  let n : Nat := 5
  (match s.pend? n with
  | some p =>
    (match p.fill with
    | some i =>
      (s.awake) && (p.done) && decide (p.waiters = []) && decide (p.stale = false) && decide (∃ y ∈ p.blocks, y.verdict ≠ some
      St.success)
    | _ => false)
  | _ => false)) = true := by decide +kernel

theorem witness_ReadService_5 : (
  let s : State := hedging
  let n : Nat := 5
  (match s.pend? n with
  | some p =>
    (s.awake) && (s.is F.RSV_CTRL_HEDGE_EN) && decide (s.hedgeable p ≠ [])
  | _ => false)) = true := by decide +kernel

theorem witness_ReadService_6 : (
  let s : State := late 1000000 vshelf
  let n : Nat := 5
  let k : Nat := ((late 1000000 vshelf).now - ((late 1000000 vshelf).lat 5).last) / 1000000
  (s.awake) && decide (n < 24) && decide (k = (s.now - (s.lat n).last) / 1000000) && decide (k = 1)) = true := by decide +kernel

theorem witness_ReadService_7 : (
  let s : State := hedging
  let i : Nat := 3
  (s.awake) && decide (s.larderDecay ≠ 0) && decide ((List.map (fun x => x.1) s.rsv.dir).Nodup) && decide (Tab.getD Tick.hotness
  0 s.served < s.now / (s.larderDecay * 1000000) * (s.larderDecay * 1000000))) = true := by decide +kernel

theorem witness_ReadService_8 : (
  let s : State := run
  (s.awake) && decide (s.larderDecay = 0)) = true := by decide +kernel

theorem witness_ReadService_9 : (
  let s : State := (pendWait none none).setFld F.RSV_CTRL_HEDGE_EN 0
  let n : Nat := 5
  (match s.pend? n with
  | some p =>
    (s.awake) && decide (s.is F.RSV_CTRL_HEDGE_EN = false ∨ s.hedgeable p = [])
  | _ => false)) = true := by decide +kernel

theorem witness_ReadService_10 : (
  let s : State := pinOther
  (match List.find? (fun d => decide (d.since + 64000000 ≤ s.now) && (d.cmd.isSome || d.lastPacket.isNone)) s.rsv.dests with
  | some d =>
    (s.awake) && decide (d.cmd = none)
  | _ => false)) = true := by decide +kernel

theorem witness_ReadService_11 : (
  let s : State := stompedRead
  (s.awake) && decide (∀ d ∈ s.rsv.dests, s.now < d.since + 64000000)) = true := by decide +kernel

theorem witness_ReadService_12 : (
  let s : State := heldDest
  (match List.find? (fun d => decide (d.since + 64000000 ≤ s.now) && (d.cmd.isSome || d.lastPacket.isNone)) s.rsv.dests with
  | some d =>
    (match d.cmd with
    | some c =>
      (match List.find? (fun m => match m.use with | MsgUse.readData e pos => e == c | MsgUse.completion e => e == c | x => false) s.trn.tx with
      | some m =>
        (s.awake)
      | _ => false)
    | _ => false)
  | _ => false)) = true := by decide +kernel

theorem witness_ReadService_13 : (
  let s : State := pinOther
  let i : Nat := 0
  (s.awake) && decide (s.groupReadyLine i = false)) = true := by decide +kernel

theorem witness_ReadService_14 : (
  let s : State := groupEn
  let i : Nat := 3
  let k : Nat := 0
  let u := s.each (List.filter (fun n => s.is (F.RSV_GROUP_SA_VALID n)) (List.range 8)) fun s n => s.portCopy i n
  (s.awake) && (s.groupReadyLine i) && decide (k ≠ i)) = true := by decide +kernel

theorem witness_ReadService_15 : (
  let s : State := stompedRead
  let key : Nat := 20
  let i : Nat := 0
  (match s.tx? key with
  | some m =>
    (match m.packet? i with
    | some p =>
      (match choosePath (s.sa m.sa) p.path false with
      | some q =>
        (match s.payloadOf m i with
        | some (payload, runs) =>
          (s.awake) && decide (s.cutOf m i = none) && (p.stomped) && decide (s.tooOld
          m.first = false) && (s.is F.TRN_CTRL_EN)
        | _ => false)
      | _ => false)
    | _ => false)
  | _ => false)) = true := by decide +kernel

theorem witness_ReadService_16 : (
  let s : State := stomped true
  let key : Nat := 20
  let i : Nat := 0
  (match s.tx? key with
  | some m =>
    (match m.packet? i with
    | some p =>
      (match choosePath (s.sa m.sa) p.path false with
      | some q =>
        (match s.payloadOf m i with
        | some (payload, runs) =>
          (match m.use with
          | .fetchReply _ =>
            (s.awake) && decide (s.cutOf m i = none) && (p.stomped) && decide (s.tooOld m.first = false) && (s.is F.TRN_CTRL_EN)
          | _ => false)
        | _ => false)
      | _ => false)
    | _ => false)
  | _ => false)) = true := by decide +kernel

theorem witness_ReadService_17 : (
  let s : State := stomped false
  let key : Nat := 20
  let i : Nat := 0
  (match s.tx? key with
  | some m =>
    (match m.packet? i with
    | some p =>
      (match choosePath (s.sa m.sa) p.path false with
      | some q =>
        (match s.payloadOf m i with
        | some (payload, runs) =>
          (s.awake) && decide (s.cutOf m i = none) && decide (p.stomped = false)
        | _ => false)
      | _ => false)
    | _ => false)
  | _ => false)) = true := by decide +kernel

theorem witness_KeysAndPipes_1 : (
  let s : State := run
  let p : Sys2Proof.Path := Path.mgmt
  let kind : Nat := 0
  let slot : Nat := 0
  let e : Nat := 2
  let n : Nat := 0
  (s.busOn) && (s.modeLets p A.CIP_CMD) && decide (s.installCheck kind slot = Except.error e) && decide (e < 256) && decide (e ≠
  1) && decide (n < 20)) = true := by decide +kernel

theorem witness_KeysAndPipes_3 : (
  let s : State := instRun 1 3
  let p : Sys2Proof.Path := Path.mgmt
  let kind : Nat := 0
  let slot : Nat := 0
  let e : Nat := 1
  let n : Nat := 0
  (s.busOn) && (s.modeLets p A.CIP_CMD) && decide (s.installCheck kind slot = Except.error e) && decide (e < 256) && decide (e =
  1) && decide (n < 20)) = true := by decide +kernel

theorem witness_KeysAndPipes_4 : (
  let s : State := instRun 1 3
  let k : Nat := 1
  let n : Nat := 0
  (match s.cip.install with
  | some r =>
    (s.awake) && decide (1 ≤ r.kind) && decide (r.kind ≤ 4) && decide (k ≠ r.kind ∨ k ≠ 4 ∧ n ≠ r.slot) && decide (n < 20)
  | _ => false)) = true := by decide +kernel

theorem witness_KeysAndPipes_5 : (
  let s : State := instRun 1 4
  (match s.cip.install with
  | some r =>
    (s.awake) && decide (1 ≤ r.kind) && decide (r.kind ≤ 4) && decide (r.kind = 1) && decide (Tab.find? r.slot s.attic.saMarks =
    none)
  | _ => false)) = true := by decide +kernel

theorem witness_KeysAndPipes_6 : (
  let s : State := onAtt (fun a => { a with saMarks := [(3, ⟨70, (KeyRec.kcv { saKey with usage := 1 })⟩)] }) (instRun 1 3)
  (match s.cip.install with
  | some r =>
    (match Tab.find? r.slot s.attic.saMarks with
    | some m =>
      (s.awake) && decide (1 ≤ r.kind) && decide (r.kind ≤ 4) && decide (r.kind = 1) && decide (m.kcv = r.record.kcv)
    | _ => false)
  | _ => false)) = true := by decide +kernel

theorem witness_KeysAndPipes_7 : (
  let s : State := installing 2 3
  let p : Sys2Proof.Path := Path.mgmt
  let kind : Nat := 1
  let slot : Nat := 0
  let n : Nat := 19
  (s.busOn) && (s.modeLets p A.CIP_CMD) && decide (s.cip.install = none) && decide (kind = 1) && decide (slot < 8192) && decide
  (s.mac.sps = []) && decide (s.trn.tx = []) && decide (s.trn.held = []) && decide (s.win.held = []) && decide (n ≠ slot)) = true := by decide +kernel

theorem witness_KeysAndPipes_8 : (
  let s : State := installing 2 3
  let p : Sys2Proof.Path := Path.mgmt
  let kind : Nat := 3
  let slot : Nat := 0
  (s.busOn) && (s.modeLets p A.CIP_CMD) && decide (s.cip.install = none) && decide (kind = 3) && decide (slot < 64) && decide
  (s.cip.jobs = [])) = true := by decide +kernel

theorem witness_KeysAndPipes_9 : (
  let s : State := installing 2 3
  let p : Sys2Proof.Path := Path.mgmt
  let kind : Nat := 4
  let slot : Nat := 0
  (s.busOn) && (s.modeLets p A.CIP_CMD) && decide (s.cip.install = none) && decide (kind = 4) && decide (slot = 0)) = true := by decide +kernel

theorem witness_KeysAndPipes_10 : (
  let s : State := instRun 1 3
  let p : Sys2Proof.Path := Path.mgmt
  let kind : Nat := 0
  let slot : Nat := 0
  (s.busOn) && (s.modeLets p A.CIP_CMD) && (s.cip.install.isSome)) = true := by decide +kernel

theorem witness_KeysAndPipes_11 : (
  let s : State := installing 2 3
  let p : Sys2Proof.Path := Path.mgmt
  let v : Nat := 0xA5
  (s.busOn) && (s.modeLets p A.CIP_CMD) && decide (v = 165) && decide (s.cip.install = none)) = true := by decide +kernel

theorem witness_KeysAndPipes_12 : (
  let s : State := installing 2 3
  let p : Sys2Proof.Path := Path.mgmt
  let v : Nat := 1
  (s.busOn) && (s.modeLets p A.CIP_CMD) && decide (v ≠ 165)) = true := by decide +kernel

theorem witness_Alarms_1 : (
  let s : State := jobKey
  let c : AlarmCause := AlarmCause.voltage
  let n : Nat := 0
  (s.busOn) && (s.alarmArmed c) && decide (s.cip.present.contains (alarmCode c) = false) && decide (s.cq.slots = []) && decide
  (s.trn.tx = []) && decide (s.trn.held = []) && decide (s.win.held = []) && decide (s.rsv.dir = []) && decide (s.mac.sps = [])
  && decide (s.cip.jobs = []) && decide (s.vol.init = none) && decide (alarmLevel2 c = false)) = true := by decide +kernel

theorem witness_Alarms_2 : (
  let s : State := jobKey
  let c : AlarmCause := AlarmCause.tamper
  (s.busOn) && (s.alarmArmed c) && decide (s.cip.present.contains (alarmCode c) = false) && decide (s.cq.slots = []) && decide
  (s.trn.tx = []) && decide (s.trn.held = []) && decide (s.win.held = []) && decide (s.rsv.dir = []) && decide (s.mac.sps = [])
  && decide (s.cip.jobs = []) && decide (s.vol.init = none) && (alarmLevel2 c)) = true := by decide +kernel

theorem witness_Alarms_3 : (
  let s : State := jobKey
  let c : AlarmCause := AlarmCause.inventory
  (s.busOn) && decide (s.alarmArmed c = false)) = true := by decide +kernel

theorem witness_Alarms_4 : (
  let s : State := onCip (fun c => {c with present := [0]}) jobKey
  let c : AlarmCause := AlarmCause.voltage
  (s.busOn) && (s.alarmArmed c) && (s.cip.present.contains (alarmCode c))) = true := by decide +kernel

theorem witness_Alarms_5 : (
  let s : State :=
    onCip (fun c => {c with zeroing := true}) (groupEn.onHst fun h => { h with mem := [(5, 1), (2^26+5, 2), (7*2^26, 4), (8 * 2 ^ 26, 7), (8 * 2 ^ 26 + 4095, 9)] })
  let n : Nat := 0
  let x : Nat := 5
  (s.busOn) && (s.cip.zeroing) && decide (s.dumping = false) && decide (n < 8) && decide (s.fld (F.HST_REGION_KIND n) = 1 ∨
  s.fld (F.HST_REGION_KIND n) = 2 ∨ s.fld (F.HST_REGION_KIND n) = 4 ∨ s.fld (F.HST_REGION_KIND n) = 5) && decide (s.fld
  (F.HST_REGION_BASE n) * 2 ^ 26 ≤ x) && decide (x < s.fld (F.HST_REGION_BASE n) * 2 ^ 26 + s.fld (F.HST_REGION_COUNT n) * 2 ^
  26)) = true := by decide +kernel

theorem witness_KeysAndPipes_13 : (
  let s : State := { jobOn none 1 with attic := run.attic }
  let p : Nat := 80
  let what : Nat := 1
  (s.awake) && decide (80 ≤ p) && decide (p < 96) && decide (s.attic.pipes.contains p = false) && decide ((List.filter (fun x =>
  decide (s.now < x.2 + 1000000000) && x.1 == p) s.cip.checks).length < 2)) = true := by decide +kernel

theorem witness_KeysAndPipes_14 : (
  let s : State := onCip (fun c => {c with checks := [(85,0),(85,0)], marking := [(3,99)]}) run
  let p : Nat := 85
  let what : Nat := 1
  (s.awake) && decide (80 ≤ p) && decide (p < 96) && decide (s.attic.pipes.contains p = false) && decide (2 ≤ (List.filter (fun
  x => decide (s.now < x.2 + 1000000000) && x.1 == p) s.cip.checks).length)) = true := by decide +kernel

theorem witness_KeysAndPipes_15 : (
  let s : State := { jobOn none 1 with attic := run.attic }
  let p : Nat := 96
  let what : Nat := 1
  (match Tab.find? what s.cip.jobs with
  | some j =>
    (s.awake) && decide (p < 98) && decide (s.attic.pipes.contains p = false) && decide (96 ≤ p)
  | _ => false)) = true := by decide +kernel

theorem witness_KeysAndPipes_16 : (
  let s : State := onCip (fun c => {c with checks := [(85,0),(85,0)], marking := [(3,99)]}) run
  let p : Nat := 85
  let what : Nat := 1
  (s.awake) && decide (p < 98) && decide (s.attic.pipes.contains p = false) && decide (2 ≤ (List.filter (fun x => decide (s.now
  < x.2 + 1000000000) && x.1 == p) s.cip.checks).length)) = true := by decide +kernel

theorem witness_KeysAndPipes_17 : (
  let s : State := { jobOn none 1 with attic := run.attic }
  let p : Nat := 98
  let what : Nat := 1
  (s.awake) && decide (98 ≤ p ∨ s.attic.pipes.contains p = true)) = true := by decide +kernel

theorem witness_KeysAndPipes_18 : (
  let s : State := { jobOn none 1 with attic := run.attic }
  let q : Sys2Proof.Path := Path.mgmt
  let w : Nat := 1
  let v : Word := default
  let p : Nat := 96
  (s.busOn) && (s.modeLets q (A.CIP_PIPE_RETIRED w)) && decide (1 ≤ w) && decide (w < 4)) = true := by decide +kernel

theorem witness_KeysAndPipes_19 : (
  let s : State := onCip (fun c => {c with checks := [(85,0),(85,0)], marking := [(3,99)]}) run
  let sa : Nat := 3
  let n : Nat := 4
  (match Tab.find? sa s.cip.marking with
  | some m =>
    (s.awake) && decide (∀ b ∈ s.trn.blocked, b.sa ≠ sa) && decide (n ≠ sa)
  | _ => false)) = true := by decide +kernel

theorem witness_Jobs_1 : (
  let s : State := jobKey
  let p : Sys2Proof.Path := Path.mgmt
  let c : Nat := 0
  let k : Nat := 1
  (match exec (Instr.jobStart p c) s with
  | Host.Outcome.next t =>
    (match Tab.find? c t.cip.jobs with
    | some j =>
      (s.busOn) && (s.modeLets p (A.CIP_JOB_CMD c)) && decide (c < 2) && decide (Tab.find? c s.cip.jobs = none) && decide (k ≠
      c)
    | _ => false)
  | _ => false)) = true := by decide +kernel

theorem witness_Jobs_2 : (
  let s : State := jobOn none 1
  let p : Sys2Proof.Path := Path.mgmt
  let c : Nat := 1
  let x : Nat := 0
  (match Tab.find? c s.cip.jobs with
  | some j =>
    (s.busOn) && (s.modeLets p (A.CIP_JOB_CMD c)) && decide (c < 2)
  | _ => false)) = true := by decide +kernel

theorem witness_Jobs_3 : (
  let s : State := jobOn none 1
  let c : Nat := 1
  let i : Nat := 0
  let x : Nat := 0
  (match Tab.find? c s.cip.jobs with
  | some j =>
    let d := getPart j.desc Job.dst % 2 ^ 36
    (match Tab.find? (getPart j.desc Job.slot) s.cip.job with
    | some r =>
      (match jobCompute (getPart j.desc Job.mode) ((getPart j.desc Job.flags).testBit 0) r.key (leBytes 16 (getPart j.desc Job.iv)) (leBytes 16 (getPart j.desc Job.tag)) (s.cellar (getPart j.desc Job.src % 2 ^ 36) (getPart j.desc Job.aadLength)) (s.cellar (getPart j.desc Job.src % 2 ^ 36 + getPart j.desc Job.aadLength) (getPart j.desc Job.length)) with
      | Except.ok out =>
        (match out[i]? with
        | some v =>
          (s.awake) && decide (j.code = none) && decide (¬(s.attic.pipes.contains 96 = true ∧ s.attic.pipes.contains 97 = true))
          && decide (s.rangePoison (getPart j.desc Job.src % 2 ^ 36) (getPart j.desc Job.aadLength + getPart j.desc Job.length)
          = false) && decide (s.rangeFailed d out.length = false) && decide (x < d ∨ d + out.length ≤ x)
        | _ => false)
      | _ => false)
    | _ => false)
  | _ => false)) = true := by decide +kernel

theorem witness_Jobs_4 : (
  let s : State := jobOn (some 5) 1
  let c : Nat := 1
  (match Tab.find? c s.cip.jobs with
  | some j =>
    let d := getPart j.desc Job.dst % 2 ^ 36
    (match j.code with
    | some k =>
      (s.awake) && decide (k ≠ 0)
    | _ => false)
  | _ => false)) = true := by decide +kernel

theorem witness_Jobs_5 : (
  let s : State := poisoned (jobOn none 1)
  let c : Nat := 1
  let x : Nat := 0
  (match Tab.find? c s.cip.jobs with
  | some j =>
    let d := getPart j.desc Job.dst % 2 ^ 36
    (s.awake) && decide (j.code = none) && decide (s.attic.pipes.contains 96 = false) && (s.rangePoison (getPart j.desc Job.src
    % 2 ^ 36) (getPart j.desc Job.aadLength + getPart j.desc Job.length))
  | _ => false)) = true := by decide +kernel

theorem witness_Jobs_6 : (
  let s : State := (List.range 8).foldl (fun s n => s.setFld (F.HST_REGION_KIND n) 0) (jobOn none 1)
  let c : Nat := 1
  (match Tab.find? c s.cip.jobs with
  | some j =>
    let d := getPart j.desc Job.dst % 2 ^ 36
    (match Tab.find? (getPart j.desc Job.slot) s.cip.job with
    | some r =>
      (match jobCompute (getPart j.desc Job.mode) ((getPart j.desc Job.flags).testBit 0) r.key (leBytes 16 (getPart j.desc Job.iv)) (leBytes 16 (getPart j.desc Job.tag)) (s.cellar (getPart j.desc Job.src % 2 ^ 36) (getPart j.desc Job.aadLength)) (s.cellar (getPart j.desc Job.src % 2 ^ 36 + getPart j.desc Job.aadLength) (getPart j.desc Job.length)) with
      | Except.ok out =>
          (s.awake) && decide (j.code = none) && decide (¬(s.attic.pipes.contains 96 = true ∧ s.attic.pipes.contains 97 = true))
          && decide (s.rangePoison (getPart j.desc Job.src % 2 ^ 36) (getPart j.desc Job.aadLength + getPart j.desc Job.length)
          = false) && (s.rangeFailed d out.length)
      | _ => false)
    | _ => false)
  | _ => false)) = true := by decide +kernel

theorem witness_FramesAndPauses_1 : (
  let s : State := run
  let n : Nat := 0
  let c : Nat := 0
  let u : Nat := 0
  let b : Bool := true
  let l : List Byte := ([] : List Byte)
  decide (s.listens n = false)) = true := by decide +kernel

theorem witness_FramesAndPauses_2 : (
  let s : State := mac0 (spUp 0)
  let n : Nat := 0
  let c : Nat := 0
  let u : Nat := 0
  let b : Bool := true
  let l : List Byte := ([] : List Byte)
  let k : Nat := 1
  (s.listens n) && (s.busOn) && decide (n < 32) && decide (k ≠ n) && (b)) = true := by decide +kernel

theorem witness_FramesAndPauses_3 : (
  let s : State := mac0 (spUp 0)
  let n : Nat := 0
  let c : Nat := 0
  let u : Nat := 0
  let b : Bool := false
  let l : List Byte := ethFrame []
  let k : Nat := 1
  (match fcsCheck (decide (0 < u)) l with
  | Except.ok body =>
    (s.listens n) && (s.busOn) && decide (n = 32 ∨ s.asleep = false) && decide (b = false) && decide (k ≠ n)
  | _ => false)) = true := by decide +kernel

theorem witness_FramesAndPauses_4 : (
  let s : State := mac0 (spUp 0)
  let n : Nat := 0
  let c : Nat := 0
  let u : Nat := 2
  let b : Bool := true
  let l : List Byte := ([] : List Byte)
  (s.listens n) && (s.busOn) && decide (n < 32) && decide (0 < u)) = true := by decide +kernel

theorem witness_FramesAndPauses_5 : (
  let s : State := run
  let n : Nat := 32
  let body : List Byte := ([0,1,0,5] : List Byte)
  let k : Nat := 0
  let t := s.pauseReceived n body
  decide (s.pauseMode n = 1) && decide (beAt body 0 2 = 1) && decide (s.pauseDeaf n 8 = false) && decide (k ≠ n) &&
  decide (beAt body 2 2 ≠ 0)) = true := by decide +kernel

theorem witness_FramesAndPauses_6 : (
  let s : State := run
  let n : Nat := 32
  let body : List Byte := ([0,1,0,0] : List Byte)
  let t := s.pauseReceived n body
  decide (s.pauseMode n = 1) && decide (beAt body 0 2 = 1) && decide (s.pauseDeaf n 8 = false) && decide (beAt body
  2 2 = 0)) = true := by decide +kernel

theorem witness_FramesAndPauses_7 : (
  let s : State := mac0 (spUp 0)
  let n : Nat := 0
  let up : Bool := true
  let e : Bool := true
  let k : Nat := 1
  (s.busOn) && decide (n < 32) && (s.hasSubPort n) && decide ((s.sp n).link = (up && s.spEn n)) && decide (k ≠ n)) = true := by decide +kernel

theorem witness_FramesAndPauses_8 : (
  let s : State := mac0 (spUp 0)
  let n : Nat := 0
  let up : Bool := false
  let e : Bool := true
  let k : Nat := 1
  (s.busOn) && decide (n < 32) && (s.hasSubPort n) && ((s.sp n).link) && decide ((up && s.spEn n) = false) && decide (s.trn.sa =
  []) && decide (k ≠ n)) = true := by decide +kernel

theorem witness_FramesAndPauses_9 : (
  let s : State := mac0 { spUp 0 with link := false }
  let n : Nat := 0
  let up : Bool := true
  let e : Bool := true
  let k : Nat := 1
  (s.busOn) && decide (n < 32) && (s.hasSubPort n) && decide ((s.sp n).link = false) && (up && s.spEn n) && decide (s.trn.sa =
  []) && decide (k ≠ n)) = true := by decide +kernel

theorem witness_FramesAndPauses_10 : (
  let s : State := mac0 (spUp 4)
  let n : Nat := 0
  let ok : Bool := true
  let k : Nat := 1
  (s.awake) && decide (n < 32) && ((s.sp n).link) && decide (s.mergeMode n = 1) && decide (k ≠ n) && (ok)) = true := by decide +kernel

theorem witness_FramesAndPauses_11 : (
  let s : State := mac0 (spUp 4)
  let n : Nat := 0
  let ok : Bool := false
  (s.awake) && decide (n < 32) && ((s.sp n).link) && decide (s.mergeMode n = 1) && decide (ok = false)) = true := by decide +kernel

theorem witness_FramesAndPauses_12 : (
  let s : State := mac0 (spUp 0x40)
  let p : Nat := 0
  (match s.pausers p with
  | [n] =>
    (s.awake) && ((s.sp n).link) && decide ((s.sp n).xoff = none) && decide (s.holding p < s.xoffLevel)
  | _ => false)) = true := by decide +kernel

theorem witness_FramesAndPauses_13 : (
  let s : State := filled 1000
  let p : Nat := 0
  let k : Nat := 1
  (match s.pausers p with
  | [n] =>
    (s.awake) && ((s.sp n).link) && decide ((s.sp n).xoff = none) && decide (s.xoffLevel ≤ s.holding p) && decide (k ≠ n) &&
    decide (s.xonLevel < s.holding p)
  | _ => false)) = true := by decide +kernel

theorem witness_FramesAndPauses_14 : (
  let s : State := mac0 { spUp 0x40 with xoff := some 0 }
  let p : Nat := 0
  let k : Nat := 1
  (match s.pausers p with
  | [n] =>
    (s.awake) && ((s.sp n).link) && decide (s.holding p ≤ s.xonLevel) && ((s.sp n).xoff.isSome) && decide (k ≠ n)
  | _ => false)) = true := by decide +kernel

theorem witness_FramesAndPauses_15 : (
  let s : State := mac0 (spUp 0x40)
  let n : Nat := 0
  let k : Nat := 1
  (s.portRuns n) && decide (k ≠ n)) = true := by decide +kernel

theorem witness_FramesAndPauses_16 : (
  let s : State := mac0 (spUp 0x40)
  let n : Nat := 0
  let k : Nat := 1
  (s.portRuns n) && decide (k ≠ n)) = true := by decide +kernel

theorem witness_FramesAndPauses_17 : (
  let s : State :=
    late 5000 (mac0 { spUp 0x40 with holds := [(3, 5000), (4, 5001)], holdOff := [(3, 5000), (4, 5001)], wdog := [(3, 5)], queue := [egFrame .express, { egFrame .express with name := 5, prio := 2 }] })
  let n : Nat := 0
  let k : Nat := 3
  (match Tab.find? k (s.sp n).wdog with
  | some t0 =>
    (s.portRuns n) && decide (k < 8) && decide (s.now < t0 + s.wdogTimeout)
  | _ => false)) = true := by decide +kernel

theorem witness_FramesAndPauses_18 : (
  let s : State :=
    late 3000000000 (mac0 { spUp 0x40 with holds := [(3, 5000), (4, 5001)], holdOff := [(3, 5000), (4, 5001)], wdog := [(3, 5)], queue := [egFrame .express, { egFrame .express with name := 5, prio := 2 }] })
  let n : Nat := 0
  let k : Nat := 3
  let j : Nat := 1
  (match Tab.find? k (s.sp n).wdog with
  | some t0 =>
    (s.portRuns n) && decide (k < 8) && decide (t0 + s.wdogTimeout ≤ s.now) && decide (j ≠ n)
  | _ => false)) = true := by decide +kernel

theorem witness_FramesAndPauses_19 : (
  let s : State := mac0 { spUp 0x40 with holdOff := [(8, 99)] }
  let n : Nat := 0
  let body : List Byte := ([0,1,0,5] : List Byte)
  decide (s.pauseMode n = 1) && decide (beAt body 0 2 = 1) && (s.pauseDeaf n 8)) = true := by decide +kernel

theorem witness_FramesAndPauses_20 : (
  let s : State := late 9000000000 (mac0 { spUp 0x40 with wdog := [(8, 0)] })
  let n : Nat := 0
  let body : List Byte := ([0,1,0,0] : List Byte)
  decide (s.pauseMode n = 1) && decide (beAt body 0 2 = 1) && (s.pauseDeaf n 8)) = true := by decide +kernel

theorem witness_FramesAndPauses_21 : (
  let s : State := inMode .doze
  let n : Nat := 32
  let k : Nat := 0
  (s.portRuns n) && decide (k ≠ n)) = true := by decide +kernel

theorem witness_SendingAndCounters_1 : (
  let s : State := wired { egFrame .group with sent := 100, len := 300 } [{ egFrame .control with name := 5 }]
  let n : Nat := 0
  let j : Nat := 1
  (match (s.sp n).wire with
  | some f =>
    (match s.interrupter n f with
    | some g =>
      (s.up) && (s.canSend n) && decide (f.stomp = false ∨ f.sent = 0) && decide (j ≠ n)
    | _ => false)
  | _ => false)) = true := by decide +kernel

theorem witness_SendingAndCounters_2 : (
  let s : State := wired (egFrame .group) [{ egFrame .control with name := 5 }]
  let n : Nat := 1
  (s.up) && decide (s.canSend n = false)) = true := by decide +kernel

theorem witness_SendingAndCounters_3 : (
  let s : State := mac0 (spUp 0)
  let n : Nat := 0
  (s.up) && (s.canSend n) && decide ((s.sp n).wire = none) && decide (s.frameDue n = none)) = true := by decide +kernel

theorem witness_SendingAndCounters_4 : (
  let s : State := mac0 { spUp 0 with wire := some (egFrame .control) }
  let n : Nat := 0
  let k : Option Nat := some 64
  (match (s.sp n).wire with
  | some f =>
    (s.up) && (s.canSend n) && decide (s.interrupter n f = none) && k.all fun j => decide (j ≤ f.sent ∨ f.len ≤ j)
  | _ => false)) = true := by decide +kernel

theorem witness_SendingAndCounters_5 : (
  let s : State := wired (egFrame .group) [{ egFrame .control with name := 5 }]
  let p : Sys2Proof.Path := Path.mgmt
  let k : Nat := 1
  (s.busOn) && (s.modeLets p A.MAC_CNT_SNAP) && decide (k ≠ s.selSp)) = true := by decide +kernel

theorem witness_SendingAndCounters_6 : (
  let s : State := wired (egFrame .group) [{ egFrame .control with name := 5 }]
  let p : Sys2Proof.Path := Path.mgmt
  let v : Word := BitVec.ofNat 32 0
  let a : Nat := 0
  (s.busOn) && (s.modeLets p A.MAC_MGT_MDIO) && decide (a ≠ A.MAC_MGT_MDIO) && decide (s.mac.mdio.isSome = true ∨ fval
  F.MAC_MGT_MDIO_OP v = 0 ∨ fval F.MAC_MGT_MDIO_OP v = 3)) = true := by decide +kernel

theorem witness_SendingAndCounters_7 : (
  let s : State := wired (egFrame .group) [{ egFrame .control with name := 5 }]
  let p : Sys2Proof.Path := Path.mgmt
  let v : Word := BitVec.ofNat 32 (2^26)
  (s.busOn) && (s.modeLets p A.MAC_MGT_MDIO) && decide (s.mac.mdio = none) && decide (fval F.MAC_MGT_MDIO_OP v = 1 ∨ fval
  F.MAC_MGT_MDIO_OP v = 2)) = true := by decide +kernel

theorem witness_SendingAndCounters_8 : (
  let s : State := { run with mac := { run.mac with mdio := some 5 } }
  let d : Nat := 5
  (match s.mac.mdio with
  | some v =>
    (s.managed) && decide (d < 2 ^ 16) && decide (fval F.MAC_MGT_MDIO_OP v ≠ 2)
  | _ => false)) = true := by decide +kernel

theorem witness_SendingAndCounters_9 : (
  let s : State := wired (egFrame .group) [{ egFrame .control with name := 5 }]
  (s.awake) && decide (s.now / 10000 * 10000 ≤ Tab.getD Tick.hist 0 s.served)) = true := by decide +kernel

theorem witness_SendingAndCounters_10 : (
  let s : State := mac0 { spUp 0 with queue := [egFrame .control] }
  let n : Nat := 0
  let b : List Byte := List.replicate 60 (7 : Byte)
  let k : Option Nat := none
  (match s.frameDue n with
  | some (f, ns) =>
    (s.up) && (s.canSend n) && decide ((s.sp n).wire = none) && decide (f.cut = none) && decide (f.stomp = false) && decide
    (f.body = FrameBody.raw b) && k.all fun j => decide (j ≤ f.sent ∨ f.len ≤ j)
  | _ => false)) = true := by decide +kernel

theorem witness_SendingAndCounters_11 : (
  let s : State := { run with mac := { run.mac with mdio := some (BitVec.ofNat 32 (2^27)) } }
  let d : Nat := 5
  (match s.mac.mdio with
  | some v =>
    (s.managed) && decide (d < 2 ^ 16) && decide (fval F.MAC_MGT_MDIO_OP v = 2)
  | _ => false)) = true := by decide +kernel

theorem witness_SendingAndCounters_12 : (
  let s : State := late 40000 (oneLane (mac0 { spUp 0 with queue := [egFrame .group, egFrame .group] }))
  (match laneSubPorts (s.sect 2) with
  | [n] =>
    (match (s.sp n).queue with
    | f :: q =>
      (s.awake) && decide (Tab.getD Tick.hist 0 s.served < s.now / 10000 * 10000) && decide (∀ g ∈ f :: q, g.cls =
      EgClass.group) && decide (s.schedNode (s.fld F.TC_WATCH_NODE) = none) && decide (∀ g ∈ f :: q, (s.now - g.queued) / 1000 ≤ 40) && decide (∃ g
      ∈ f :: q, (s.now - g.queued) / 1000 = 40)
    | _ => false)
  | _ => false)) = true := by decide +kernel

theorem witness_SendingAndCounters_13 : (
  let s : State := mac0 { spUp 0 with queue := [egFrame .control] }
  let n : Nat := 0
  let j : Nat := 10
  (match s.frameDue n with
  | some (f, ns) =>
    (s.up) && (s.canSend n) && decide ((s.sp n).wire = none) && decide (f.sent < j) && decide (j < f.len)
  | _ => false)) = true := by decide +kernel

theorem witness_SendingAndCounters_14 : (
  let s : State := wired { egFrame .group with len := 300, sent := 100, stomp := true } [{ egFrame .control with name := 5 }]
  let n : Nat := 0
  (match (s.sp n).wire with
  | some f => (s.up) && (s.canSend n) && (f.stomp) && decide (0 < f.sent)
  | _ => false)) = true := by decide +kernel

theorem witness_SendingAndCounters_15 : (
  let s : State := wired { egFrame .group with len := 300 } []
  let n : Nat := 0
  let j : Nat := 299
  (match (s.sp n).wire with
  | some f =>
    (s.up) && (s.canSend n) && decide (f.stomp = false ∨ f.sent = 0) && decide (s.interrupter n f = none) && decide (f.sent < j)
    && decide (j < f.len)
  | _ => false)) = true := by decide +kernel

theorem witness_DrivePorts_1 : (
  let s : State := bay6 .empty
  let n : Nat := 6
  let k : Nat := 7
  (s.up) && decide (s.asleep = false) && decide (n < 24) && decide ((s.port n).state = PortState.empty) && decide (k ≠ n) &&
  decide (s.bayPowered n = false)) = true := by decide +kernel

theorem witness_DrivePorts_2 : (
  let s : State := bay6 .present
  let n : Nat := 6
  let k : Nat := 7
  (s.up) && decide (s.asleep = false) && decide (n < 24) && decide ((s.port n).state ≠ PortState.empty) && decide ((s.port
  n).state ≠ PortState.removed) && decide ((s.port n).resvCmd = none) && decide (s.memberAt n = none) && decide (k ≠ n)) = true := by decide +kernel

theorem witness_DrivePorts_3 : (
  let s : State := bayUp 6 ((bay6 .empty).setFld F.DRV_CTRL_EN 1)
  let n : Nat := 6
  (s.up) && decide (s.asleep = false) && decide (n < 24) && decide ((s.port n).state = PortState.empty) && (s.bayPowered n) &&
  (s.is F.DRV_CTRL_EN)) = true := by decide +kernel

theorem witness_DrivePorts_4 : (
  let s : State := inMode .dormant
  let n : Nat := 6
  (s.up) && (s.asleep) && decide (n < 24)) = true := by decide +kernel

theorem witness_DrivePorts_5 : (
  let s : State := bay6 .reset
  let n : Nat := 6
  (s.awake) && decide (n < 24) && decide ((s.port n).state = PortState.reset) && decide (s.now < (s.port n).since + 100000000)) = true := by decide +kernel

theorem witness_DrivePorts_6 : (
  let s : State := bay6 .training
  let n : Nat := 6
  let rate : Nat := 4
  let width : Nat := 2
  let k : Nat := 7
  (s.awake) && decide (n < 24) && decide ((s.port n).state = PortState.training ∨ (s.port n).state = PortState.retraining) &&
  decide (k ≠ n) && (linkOk (min rate (s.linkLimit n).1) (min width (s.linkLimit n).2))) = true := by decide +kernel

theorem witness_DrivePorts_7 : (
  let s : State := bay6 .ready
  let n : Nat := 6
  let k : Nat := 7
  (s.awake) && decide (n < 24) && decide ((s.port n).state = PortState.ready) && decide ((s.port n).resvCmd = none) && decide (k
  ≠ n) && decide (s.memberAt n = none)) = true := by decide +kernel

theorem witness_DrivePorts_8 : (
  let s : State := bay6 .removed
  let n : Nat := 6
  let k : Nat := 7
  (s.awake) && decide (n < 24) && decide ((s.port n).state = PortState.removed) && (s.bayDark n) && decide (k ≠ n)) = true := by decide +kernel

theorem witness_DrivePorts_9 : (
  let s : State := late 2000000000 (bay6 .reset)
  let n : Nat := 6
  (s.awake) && decide (n < 24) && decide ((s.port n).state = PortState.reset) && decide ((s.port n).since + 100000000 ≤ s.now)
  && decide (s.is F.DRV_CTRL_AUTO_BRINGUP = true ∨ (s.port n).started = true)) = true := by decide +kernel

theorem witness_DrivePorts_10 : (
  let s : State := late 2000000000 (bay6 .training)
  let n : Nat := 6
  let k : Nat := 7
  (s.awake) && decide (n < 24) && decide ((s.port n).state = PortState.training) && decide ((s.port n).since + 1000000000 ≤
  s.now) && decide (k ≠ n)) = true := by decide +kernel

theorem witness_DrivePorts_11 : (
  let s : State := late 20000000000 (portAt 6 (fun p => { p with retrainFrom := some 5 }) (bay6 .retraining))
  let n : Nat := 6
  (match (s.port n).retrainFrom with
  | some t0 =>
    (s.awake) && decide (n < 24) && decide ((s.port n).state = PortState.retraining ∨ (s.port n).state = PortState.init) &&
    decide (t0 + s.retrainLimit ≤ s.now) && decide ((s.port n).resvCmd = none) && decide (s.memberAt n = none)
  | _ => false)) = true := by decide +kernel

theorem witness_DrivePorts_12 : (
  let s : State := late 7 (portAt 6 (fun p => { p with retrainFrom := some 5 }) (bay6 .retraining))
  let n : Nat := 6
  (match (s.port n).retrainFrom with
  | some t0 =>
    (s.awake) && decide (n < 24) && decide ((s.port n).state = PortState.retraining ∨ (s.port n).state = PortState.init) &&
    decide (s.now < t0 + s.retrainLimit)
  | _ => false)) = true := by decide +kernel

theorem witness_DrivePorts_13 : (
  let s : State := knownDrive
  let p : Sys2Proof.Path := Path.mgmt
  let n : Nat := 6
  let k : Nat := 7
  (match Tab.find? n s.drives with
  | some d =>
    (s.busOn) && (s.modeLets p (A.DRV_PORT_CMD n)) && decide (n < 24) && decide ((s.port n).state ≠ PortState.reset) && decide
    ((s.port n).state = PortState.init) && decide (s.queueEntries n + (s.port n).sqCount * (s.port n).sqDepth ≤ s.pantryEntries
    7) && decide (d.capacity ≠ 0) && decide (k ≠ n)
  | _ => false)) = true := by decide +kernel

theorem witness_DrivePorts_14 : (
  let s : State := knownDrive
  let p : Sys2Proof.Path := Path.mgmt
  let n : Nat := 7
  (s.busOn) && (s.modeLets p (A.DRV_PORT_CMD n)) && decide (n < 24) && decide ((s.port n).state ≠ PortState.init)) = true := by decide +kernel

theorem witness_DrivePorts_15 : (
  let s : State := bayReset
  let p : Sys2Proof.Path := Path.mgmt
  let n : Nat := 6
  (s.busOn) && (s.modeLets p (A.DRV_PORT_CMD n)) && decide (n < 24) && decide ((s.port n).state = PortState.reset) && decide
  ((s.port n).since + 100000000 ≤ s.now)) = true := by decide +kernel

theorem witness_DrivePorts_16 : (
  let s : State := bay6 .reset
  let p : Sys2Proof.Path := Path.mgmt
  let n : Nat := 6
  (s.busOn) && (s.modeLets p (A.DRV_PORT_CMD n)) && decide (n < 24) && decide ((s.port n).state = PortState.reset) && decide
  (s.now < (s.port n).since + 100000000)) = true := by decide +kernel

theorem witness_DrivePorts_17 : (
  let s : State := bay6 .ready
  let p : Sys2Proof.Path := Path.mgmt
  let n : Nat := 6
  (s.busOn) && (s.modeLets p (A.DRV_PORT_CMD n)) && decide (n < 24) && decide ((s.port n).state = PortState.ready)) = true := by decide +kernel

theorem witness_DrivePorts_18 : (
  let s : State := bay6 .lost
  let p : Sys2Proof.Path := Path.mgmt
  let n : Nat := 6
  let k : Nat := 7
  (s.busOn) && (s.modeLets p (A.DRV_PORT_CMD n)) && decide (n < 24) && decide ((s.port n).state = PortState.lost ∨ (s.port
  n).state = PortState.fault ∨ (s.port n).state = PortState.unfit) && decide (k ≠ n) && decide (s.bayPowered n = false)) = true := by decide +kernel

theorem witness_DrivePorts_19 : (
  let s : State := bayUp 6 ((bay6 .fault).setFld F.DRV_CTRL_EN 1)
  let p : Sys2Proof.Path := Path.mgmt
  let n : Nat := 6
  (s.busOn) && (s.modeLets p (A.DRV_PORT_CMD n)) && decide (n < 24) && decide ((s.port n).state = PortState.lost ∨ (s.port
  n).state = PortState.fault ∨ (s.port n).state = PortState.unfit) && (s.bayPowered n) && (s.is F.DRV_CTRL_EN)) = true := by decide +kernel

theorem witness_DrivePorts_20 : (
  let s : State := portAt 6 (fun p => { p with sqDepth := 9999 }) (bay6 .init)
  let p : Sys2Proof.Path := Path.mgmt
  let n : Nat := 6
  (s.busOn) && (s.modeLets p (A.DRV_PORT_CMD n)) && decide (n < 24) && decide ((s.port n).state = PortState.init) && decide
  (s.pantryEntries 7 < s.queueEntries n + (s.port n).sqCount * (s.port n).sqDepth)) = true := by decide +kernel

theorem witness_DrivePorts_21 : (
  let s : State := knownDrive
  let n : Nat := 6
  let on : Bool := true
  let k : Nat := 7
  (s.busOn) && decide (n < 24) && decide (k ≠ n)) = true := by decide +kernel

theorem witness_DrivePorts_22 : (
  let s : State := bay6 .present
  let n : Nat := 6
  let on : Bool := true
  (s.busOn) && decide (n < 24) && decide ((s.port n).state = PortState.present)) = true := by decide +kernel

theorem witness_DrivePorts_23 : (
  let s : State := bay6 .ready
  let n : Nat := 6
  let on : Bool := true
  (s.busOn) && decide (n < 24) && decide ((s.port n).state = PortState.ready)) = true := by decide +kernel

theorem witness_DrivePorts_24 : (
  let s : State := late 3000000000 ((bay6 .ready).setFld F.DRV_CTRL_MI_EN 1)
  let n : Nat := 6
  let r : Option (Nat × Nat × Nat) := (none : Option (Nat × Nat × Nat))
  let k : Nat := 7
  (s.awake) && decide (n < 24) && (s.is F.DRV_CTRL_MI_EN) && decide ((s.port n).state = PortState.ready) && decide (Tab.getD
  (Tick.mi + n) 0 s.served < s.now / 1000000000 * 1000000000) && decide (k ≠ n) && decide (r = none) && decide ((s.port
  n).miMiss ≠ 2)) = true := by decide +kernel

theorem witness_DrivePorts_25 : (
  let s : State := late 3000000000 ((bay6 .ready).setFld F.DRV_CTRL_MI_EN 1)
  let n : Nat := 6
  let r : Option (Nat × Nat × Nat) := some (5, 300, 7)
  (match r with
  | some (a, b, c) =>
    (s.awake) && decide (n < 24) && (s.is F.DRV_CTRL_MI_EN) && decide ((s.port n).state = PortState.ready) && decide (Tab.getD
    (Tick.mi + n) 0 s.served < s.now / 1000000000 * 1000000000)
  | _ => false)) = true := by decide +kernel

theorem witness_DrivePorts_26 : (
  let s : State := late 3000000000 ((portAt 6 (fun p => {p with miMiss := 2}) (bay6 .ready)).setFld F.DRV_CTRL_MI_EN 1)
  let n : Nat := 6
  let r : Option (Nat × Nat × Nat) := (none : Option (Nat × Nat × Nat))
  (s.awake) && decide (n < 24) && (s.is F.DRV_CTRL_MI_EN) && decide ((s.port n).state = PortState.ready) && decide (Tab.getD
  (Tick.mi + n) 0 s.served < s.now / 1000000000 * 1000000000) && decide (r = none) && decide ((s.port n).miMiss = 2)) = true := by decide +kernel

theorem witness_DrivePorts_27 : (
  let s : State := bay6 .training
  let n : Nat := 6
  let rate : Nat := 2
  let width : Nat := 4
  (s.awake) && decide (n < 24) && decide (linkOk (min rate (s.linkLimit n).1) (min width (s.linkLimit n).2) = false)) = true := by decide +kernel

theorem witness_DrivePorts_28 : (
  let s : State := bay6 .empty
  let n : Nat := 6
  let j : Nat := 7
  (s.up) && decide (s.asleep = false) && decide (n < 24) && decide ((s.port n).state = .empty) && decide ((s.port n).presence =
  false) && decide (j ≠ n)) = true := by decide +kernel

theorem witness_DrivePorts_29 : (
  let s : State := { knownDrive with drives := [(6, { driveDefault with capacity := 1000, vectors := 4 })] }
  let p : Sys2Proof.Path := Path.mgmt
  let n : Nat := 6
  (match Tab.find? n s.drives with
  | some d =>
    (s.busOn) && (s.modeLets p (A.DRV_PORT_CMD n)) && decide (n < 24) && decide ((s.port n).state = .init) && decide
    (s.queueEntries n + (s.port n).sqCount * (s.port n).sqDepth ≤ s.pantryEntries 0x07) && decide (d.capacity ≠ 0) && decide
    (d.vectors ≠ 0)
  | _ => false)) = true := by decide +kernel

theorem witness_DriveCommands_1 : (
  let s : State := withDrv [drvWrite] (filling 2)
  let b : Nat := 1
  let n : Nat := 10
  let w : Nat := 6
  let m : Nat := 1
  let k : Nat := 0
  (match s.drvCmd n with
  | some c =>
    (s.awake) && decide (c.bay = b) && decide (c.queue = some 0) && decide (c.retried = false) && decide (c.use = DriveUse.destage w m k)
    && (c.write)
  | _ => false)) = true := by decide +kernel

theorem witness_DriveCommands_2 : (
  let s : State := withDrv [drvWrite] (filling 2)
  let b : Nat := 1
  let n : Nat := 9
  let o : DriveOutcome := DriveOutcome.success
  (s.awake) && decide (s.drvCmd n = none) && decide (o ≠ .corrected) && decide (o ≠ .stray)) = true := by decide +kernel

theorem witness_DriveCommands_3 : (
  let s : State := withDrv [drvWrite] (filling 2)
  let p : Sys2Proof.Path := Path.mgmt
  let n : Nat := 9
  let c : Instr := Instr.resvRegister Path.mgmt 9
  let k : Nat := 1
  (s.busOn) && (s.modeLets p A.DRV_RESV_CMD) && decide (n < 24) && decide ((c, k) ∈ [(Instr.resvRegister p n, 1),
  (Instr.resvAcquire p n, 2), (Instr.resvPreempt p n, 3), (Instr.resvReport p n, 4)]) && decide (s.is F.DRV_CTRL_RESV_EN =
  false)) = true := by decide +kernel

theorem witness_DriveCommands_4 : (
  let s : State := (bay6 .ready).setFld F.DRV_CTRL_RESV_EN 1
  let p : Sys2Proof.Path := Path.mgmt
  let n : Nat := 9
  let c : Instr := Instr.resvRegister Path.mgmt 9
  let k : Nat := 1
  (s.busOn) && (s.modeLets p A.DRV_RESV_CMD) && decide (n < 24) && decide ((c, k) ∈ [(Instr.resvRegister p n, 1),
  (Instr.resvAcquire p n, 2), (Instr.resvPreempt p n, 3), (Instr.resvReport p n, 4)]) && (s.is F.DRV_CTRL_RESV_EN) && decide
  ((s.port n).state ≠ PortState.ready)) = true := by decide +kernel

theorem witness_DriveCommands_5 : (
  let s : State := (bay6 .ready).setFld F.DRV_CTRL_RESV_EN 1
  let p : Sys2Proof.Path := Path.mgmt
  let n : Nat := 6
  let c : Instr := Instr.resvRegister Path.mgmt 6
  let k : Nat := 1
  let j : Nat := 7
  (s.busOn) && (s.modeLets p A.DRV_RESV_CMD) && decide (n < 24) && decide ((c, k) ∈ [(Instr.resvRegister p n, 1),
  (Instr.resvAcquire p n, 2), (Instr.resvPreempt p n, 3), (Instr.resvReport p n, 4)]) && (s.is F.DRV_CTRL_RESV_EN) && decide
  ((s.port n).state = PortState.ready) && decide ((s.port n).resvCmd = none) && decide (j ≠ n)) = true := by decide +kernel

theorem witness_DriveCommands_6 : (
  let s : State := portAt 6 (fun p => { p with resvCmd := some 2 }) ((bay6 .ready).setFld F.DRV_CTRL_RESV_EN 1)
  let p : Sys2Proof.Path := Path.mgmt
  let n : Nat := 6
  let c : Instr := Instr.resvRegister Path.mgmt 6
  let k : Nat := 1
  (s.busOn) && (s.modeLets p A.DRV_RESV_CMD) && decide (n < 24) && decide ((c, k) ∈ [(Instr.resvRegister p n, 1),
  (Instr.resvAcquire p n, 2), (Instr.resvPreempt p n, 3), (Instr.resvReport p n, 4)]) && (s.is F.DRV_CTRL_RESV_EN) && decide
  ((s.port n).state = PortState.ready) && ((s.port n).resvCmd.isSome)) = true := by decide +kernel

theorem witness_DriveCommands_7 : (
  let s : State := withDrv [drvWrite] (filling 2)
  let n : Nat := 9
  let code : Nat := 0
  let holder : Nat := 1
  (s.awake) && decide ((s.port n).resvCmd = none)) = true := by decide +kernel

theorem witness_DriveCommands_8 : (
  let s : State := portAt 6 (fun p => { p with resvCmd := some 2 }) ((bay6 .ready).setFld F.DRV_CTRL_RESV_EN 1)
  let n : Nat := 6
  let code : Nat := 0
  let holder : Nat := 1
  let j : Nat := 7
  (s.awake) && ((s.port n).resvCmd.isSome) && decide (code ≠ 1) && decide (s.peer.arb = none) && decide (s.peer.takes = []) &&
  decide (s.peer.takeBusy = false) && decide (s.peer.takeStep ≠ TakeStep.winning) && decide (j ≠ n)) = true := by decide +kernel

theorem witness_DriveCommands_9 : (
  let s : State := withDrv [drvRead] (pendWait none none)
  let b : Nat := 1
  let n : Nat := 9
  let p : Nat := 5
  let first : MBlock := (⟨0,0,1,2⟩ : MBlock)
  let f : Bool := false
  (match s.drvCmd n with
  | some c =>
    (s.awake) && decide (c.bay = b) && decide (c.queue = some 0) && decide (c.use = DriveUse.read p first f) && decide (c.write = false)
  | _ => false)) = true := by decide +kernel

theorem witness_DriveCommands_10 : (
  let s : State := withDrv [drvWrite] (filling 2)
  let b : Nat := 1
  let n : Nat := 10
  let q : Nat := 0
  (match s.drvCmd n with
  | some c =>
    (s.awake) && decide (c.bay = b) && decide (c.queue = some q) && decide (c.retried = false) && (c.write) && (match c.use with
    | .reservation _ _ _ => false
    | _ => true)
  | _ => false)) = true := by decide +kernel

theorem witness_DriveCommands_11 : (
  let s : State := withDrv [drvWrite] (portAt 1 (fun p => { p with vectors := 2, sqCount := 2, sqDepth := 4 }) (filling 2))
  let b : Nat := 1
  let n : Nat := 10
  let q : Nat := 0
  let v : Nat := 1
  let o : DriveOutcome := .success
  (match s.drvCmd n with
  | some c =>
    (s.awake) && decide (c.bay = b) && decide (c.queue = some q) && decide (v ≠ (s.port b).vectorOf q) && decide (o ≠
    .corrected) && decide (o ≠ .stray)
  | _ => false)) = true := by decide +kernel

theorem witness_DriveCommands_12 : (
  let s : State := bay6 .ready
  let b : Nat := 23
  (s.awake) && decide (b < 24)) = true := by decide +kernel

theorem witness_BayPower_1 : (
  let s : State := shelf
  let p : Sys2Proof.Path := Path.mgmt
  let n : Nat := 6
  let k : Nat := 0
  let i : Nat := 6
  let j : Nat := 1
  (s.busOn) && (s.modeLets p (A.BAY_EN n)) && (subExists n k) && decide (s.is (enField n k) = false) && decide (s.enIgnored =
  false) && decide ((s.sub n k).state = SubState.off) && (subExists i j) && decide ((i, j) ≠ (n, k))) = true := by decide +kernel

theorem witness_BayPower_2 : (
  let s : State := run
  let p : Sys2Proof.Path := Path.mgmt
  let n : Nat := 6
  let k : Nat := 0
  (s.busOn) && (s.modeLets p (A.BAY_EN n)) && (subExists n k) && decide (s.is (enField n k) = true ∨ s.enIgnored = true)) = true := by decide +kernel

theorem witness_BayPower_3 : (
  let s : State := chan6 .on (fun c => { c with pg := true })
  let p : Sys2Proof.Path := Path.mgmt
  let n : Nat := 6
  let k : Nat := 0
  let i : Nat := 6
  let j : Nat := 1
  (s.busOn) && (s.modeLets p (A.BAY_EN n)) && (subExists n k) && (s.is (enField n k)) && decide ((s.sub n k).state ≠
  SubState.latched) && ((s.sub n k).pg) && (subExists i j) && decide ((i, j) ≠ (n, k))) = true := by decide +kernel

theorem witness_BayPower_4 : (
  let s : State := late 3000000000 (chan6 .latched (fun c => { c with disabledAt := some 4, pg := true }))
  let p : Sys2Proof.Path := Path.mgmt
  let n : Nat := 6
  let k : Nat := 0
  (s.busOn) && (s.modeLets p (A.BAY_EN n)) && (subExists n k) && (s.is (enField n k)) && decide ((s.sub n k).state =
  SubState.latched)) = true := by decide +kernel

theorem witness_BayPower_5 : (
  let s : State := chan6 .on (fun c => { c with pg := true })
  let n : Nat := 6
  let k : Nat := 0
  let i : Nat := 6
  let j : Nat := 1
  let off : Bool := true
  (s.busOn) && (subExists n k) && decide ((s.sub n k).limiting = none) && ((s.sub n k).pg) && (subExists i j) && decide ((i, j)
  ≠ (n, k)) && ((s.sub n k).runs) && decide ((s.sub n k).reverse ≠ off) && (off)) = true := by decide +kernel

theorem witness_BayPower_6 : (
  let s : State := late 3000000000 (chan6 .on (fun c => { c with limiting := some 5 }))
  let n : Nat := 6
  let k : Nat := 0
  (s.busOn) && (subExists n k) && ((s.sub n k).limiting.isSome)) = true := by decide +kernel

theorem witness_BayPower_7 : (
  let s : State := late 3000000000 (chan6 .ramping id)
  let n : Nat := 6
  let k : Nat := 0
  let i : Nat := 6
  let j : Nat := 1
  (s.busOn) && (subExists n k) && ((s.sub n k).runs) && decide ((s.sub n k).limiting = none) && decide ((s.sub n k).pg = false)
  && (subExists i j) && decide ((i, j) ≠ (n, k))) = true := by decide +kernel

theorem witness_BayPower_8 : (
  let s : State := late 3000000000 (chan6 .latched (fun c => { c with disabledAt := some 4, pg := true }))
  let n : Nat := 6
  let k : Nat := 0
  (match (s.sub n k).disabledAt with
  | some t0 =>
    (s.busOn) && (subExists n k) && decide ((s.sub n k).state = SubState.latched) && decide (s.now < t0 + 10000 ∨ s.is (enField
    n k) = true)
  | _ => false)) = true := by decide +kernel

theorem witness_BayPower_9 : (
  let s : State := late 3000000000 ((chan6 .latched (fun c => { c with disabledAt := some 4 })).setFld (F.BAY_EN_MAIN_EN 6) 0)
  let n : Nat := 6
  let k : Nat := 0
  (match (s.sub n k).disabledAt with
  | some t0 =>
    (s.busOn) && (subExists n k) && decide ((s.sub n k).state = SubState.latched) && decide (s.is (enField n k) = false) &&
    decide (t0 + 10000 ≤ s.now)
  | _ => false)) = true := by decide +kernel

theorem witness_BayPower_10 : (
  let s : State := chan6 .on (fun c => { c with pg := true })
  let n : Nat := 6
  let k : Nat := 0
  let cause : Nat := 1
  let c : Instr := Instr.breakerTrip 6 0
  let i : Nat := 7
  (s.busOn) && (subExists n k) && ((s.sub n k).runs) && decide (c = Instr.breakerTrip n k ∧ cause = 1 ∧ s.is (enField n k) =
  true ∨ (c = Instr.timerTrip n k ∧ cause = 2 ∧ ∃ t0, (s.sub n k).limiting = some t0 ∧ t0 + s.faultTime n ≤ s.now) ∨ c =
  Instr.inrushTrip n k ∧ cause = 3 ∧ (s.sub n k).state = SubState.ramping ∧ (s.sub n k).pg = false ∧ (s.sub n k).since +
  20000000 ≤ s.now) && decide (n < 24) && ((s.sub n (1 - k)).runs) && decide (i ≠ n) && decide (i < 24)) = true := by decide +kernel

theorem witness_BayPower_11 : (
  let s : State := late 3000000000 (chan6 .latched (fun c => { c with disabledAt := some 4, pg := true }))
  let n : Nat := 6
  let k : Nat := 1
  let cause : Nat := 1
  let c : Instr := Instr.breakerTrip 6 1
  (s.busOn) && (subExists n k) && ((s.sub n k).runs) && decide (c = Instr.breakerTrip n k ∧ cause = 1 ∧ s.is (enField n k) =
  true ∨ (c = Instr.timerTrip n k ∧ cause = 2 ∧ ∃ t0, (s.sub n k).limiting = some t0 ∧ t0 + s.faultTime n ≤ s.now) ∨ c =
  Instr.inrushTrip n k ∧ cause = 3 ∧ (s.sub n k).state = SubState.ramping ∧ (s.sub n k).pg = false ∧ (s.sub n k).since +
  20000000 ≤ s.now) && decide ((s.sub n (1 - k)).runs = false)) = true := by decide +kernel

theorem witness_BayPower_12 : (
  let s : State := chan6 .on (fun c => { c with reverse := true })
  let n : Nat := 6
  let k : Nat := 0
  let off : Bool := false
  (s.busOn) && (subExists n k) && ((s.sub n k).runs) && decide ((s.sub n k).reverse ≠ off) && decide (off = false)) = true := by decide +kernel

theorem witness_BayPower_13 : (
  let s : State := late 5000000 ((chan6 .on id).setFld F.BAY_CTRL_LIMIT_EN 0)
  let x : TelSample := (⟨6, 0, 12000, 12100, -5, 300, 77⟩ : TelSample)
  let i : Nat := 6
  let j : Nat := 1
  (s.busOn) && (subExists x.channel x.sub) && decide (s.is F.BAY_CTRL_LIMIT_EN = false) && decide (Tab.getD Tick.telemetry 0
  s.served < s.now / 1000000 * 1000000) && (subExists i j) && decide ((i, j) ≠ (x.channel, x.sub))) = true := by decide +kernel

theorem witness_BayPower_14 : (
  let s : State := late 5000000 ((chan6 .on id).setFld F.BAY_CTRL_LIMIT_EN 0)
  let n : Nat := 6
  decide ((s.bayLimit n).getD 0 ≠ 0) && decide (100 * s.chanAverage n ≤ 95 * (100 * ↑((s.bayLimit n).getD 0)))) = true := by decide +kernel

theorem witness_BayPower_15 : (
  let s : State := late 5000000 (chan6 .on (fun c => {c with avg := List.replicate 1000 30001}))
  let n : Nat := 6
  decide ((s.bayLimit n).getD 0 ≠ 0) && decide (100 * ↑((s.bayLimit n).getD 0) < s.chanAverage n)) = true := by decide +kernel

theorem witness_BayPower_16 : (
  let s : State := late 5000000 ((chan6 .on id).setFld F.BAY_CTRL_LIMIT_EN 0)
  let p : Sys2Proof.Path := Path.mgmt
  let v : Word := default
  let n : Nat := fval F.BAY_TEL_SEL_CHANNEL default
  let k : Nat := fval F.BAY_TEL_SEL_SUB default
  let a : Nat := 0
  (s.busOn) && (s.modeLets p A.BAY_TEL_SEL) && decide (n = fval F.BAY_TEL_SEL_CHANNEL v) && decide (k = fval F.BAY_TEL_SEL_SUB
  v) && decide (a ≠ A.BAY_TEL_SEL) && (subExists n k)) = true := by decide +kernel

theorem witness_Wardens_1 : (
  let s : State := late 500000000 run
  let n : Nat := 0
  let site : Nat := 1
  let k : Nat := 1
  (s.awake) && (s.complexRuns) && decide (n ∈ s.activeCores) && decide (1 ≤ site) && decide (site ≤ 3) && decide (s.activeCores = [0, 1, 2]) &&
  decide (k ≠ n)) = true := by decide +kernel

theorem witness_Wardens_2 : (
  let s : State := late 500000000 (duplex run)
  let n : Nat := 0
  let site : Nat := 1
  let k : Nat := 0
  (s.awake) && (s.complexRuns) && decide (n ∈ s.activeCores) && decide (1 ≤ site) && decide (site ≤ 4) && decide (s.activeCores.length = 2) &&
  decide (k < 3) && decide ((s.core k).state ≠ CoreState.retired)) = true := by decide +kernel

theorem witness_Wardens_18 : (
  let s : State := late 500000000 run
  let n : Nat := 0
  let site : Nat := 4
  (s.awake) && (s.complexRuns) && decide (n ∈ s.activeCores) && decide (s.activeCores = [0, 1, 2] ∧ site = 4)) = true := by decide +kernel

theorem witness_Wardens_19 : (
  let s : State := late 500000000 run
  let n : Nat := 0
  let site : Nat := 5
  (s.awake) && (s.complexRuns) && decide (n ∈ s.activeCores) && decide (site = 0 ∨ 4 < site)) = true := by decide +kernel

theorem witness_Wardens_20 : (
  let s : State := onWdn (fun w => { w with mode := .halted }) run
  let p : Sys2Proof.Path := Path.mgmt
  (s.busOn) && (s.modeLets p A.WDN_CMD) && decide (s.complexRuns = false)) = true := by decide +kernel

theorem witness_Wardens_5 : (
  let s : State := late 500000000 run
  let n : Nat := 0
  let w : Nat := 0
  let k : Nat := 1
  (s.awake) && (s.complexRuns) && decide (s.activeCores = [0, 1, 2]) && decide ((s.core 0).mem = (s.core 1).mem) && decide
  ((s.core 1).mem = (s.core 2).mem) && decide (Tab.getD Tick.sweep 0 s.served < s.now / 100000000 * 100000000) && decide (n < 3)
  && decide (k ≠ n)) = true := by decide +kernel

theorem witness_Wardens_6 : (
  let s : State := onWdn (fun w => { w with mode := .halted }) run
  let f : List Nat := ([] : List Nat)
  (s.awake) && decide (s.wdn.mode = ComplexMode.halted)) = true := by decide +kernel

theorem witness_Wardens_7 : (
  let s : State := onWdn (fun w => { w with mode := .restarting }) run
  let f : List Nat := ([] : List Nat)
  let n : Nat := 0
  (s.awake) && decide (s.wdn.mode = ComplexMode.restarting) && ((List.range 3).all fun n => decide ((s.core n).state ≠
  CoreState.retired)) && decide (f = []) && decide (n < 3)) = true := by decide +kernel

theorem witness_Wardens_8 : (
  let s : State := onWdn (fun w => { w with mode := .restarting }) run
  let f : List Nat := [1,2]
  (s.awake) && decide (s.wdn.mode = ComplexMode.restarting) && decide ((List.filter (fun n => decide ((s.core n).state ≠
  CoreState.retired) && !f.contains n) (List.range 3)).length < 2)) = true := by decide +kernel

theorem witness_Wardens_9 : (
  let s : State := late 500000000 (duplex run)
  let n : Nat := 2
  (s.awake) && decide (n < 3) && decide ((s.core n).state = CoreState.fenced) && (s.is F.WDN_CTRL_AUTO_RESYNC) && decide
  ((s.core n).since + 1000000 ≤ s.now)) = true := by decide +kernel

theorem witness_Wardens_10 : (
  let s : State := (coreIn .fenced).setFld F.WDN_CTRL_AUTO_RESYNC 0
  let n : Nat := 2
  (s.awake) && decide (n < 3) && decide ((s.core n).state = CoreState.fenced) && decide (s.is F.WDN_CTRL_AUTO_RESYNC = false)) = true := by decide +kernel

theorem witness_Wardens_11 : (
  let s : State := coreIn .testing
  let n : Nat := 2
  (s.awake) && decide (n < 3) && decide ((s.core n).state = CoreState.testing) && decide (s.wdn.mode ≠ ComplexMode.restarting)
  && decide ((s.core n).since + 40000000 ≤ s.now) && decide ((within24h s.now (s.core n).fences).length < s.fenceLimit)) = true := by decide +kernel

theorem witness_Wardens_12 : (
  let s : State := coreIn .resyncing
  let n : Nat := 2
  let l : List Nat := (coreIn CoreState.resyncing).activeCores.tail.tail
  let k : Nat := 0
  (match s.activeCores with
  | a :: b :: l2 =>
    (s.awake) && decide (n < 3) && decide ((s.core n).state = CoreState.resyncing) && (s.complexRuns) && decide (s.activation
    = none) && decide (s.modeWait = false) && decide (k ≠ n) && decide (l2 = l)
  | _ => false)) = true := by decide +kernel

theorem witness_Wardens_13 : (
  let s : State := run
  let p : Sys2Proof.Path := Path.mgmt
  let n : Nat := 0
  let k : Nat := 1
  (s.busOn) && (s.modeLets p A.WDN_CMD) && decide (n < 3) && decide (s.activeCores = [0, 1, 2]) && (s.complexRuns) && decide (k
  ≠ n) && decide ((s.core n).state ≠ CoreState.fenced)) = true := by decide +kernel

theorem witness_Wardens_14 : (
  let s : State := duplex run
  let p : Sys2Proof.Path := Path.mgmt
  let n : Nat := 0
  (s.busOn) && (s.modeLets p A.WDN_CMD) && decide (n < 3) && decide (s.activeCores.length = 2) && decide (n ∈ s.activeCores)) = true := by decide +kernel

theorem witness_Wardens_15 : (
  let s : State := duplex run
  let p : Sys2Proof.Path := Path.mgmt
  let n : Nat := 2
  (s.busOn) && (s.modeLets p A.WDN_CMD) && decide (n < 3) && decide ((s.core n).state = CoreState.fenced)) = true := by decide +kernel

theorem witness_Wardens_16 : (
  let s : State := run
  let p : Sys2Proof.Path := Path.mgmt
  let a := s.pair A.WDN_FW_SRC % 2 ^ 36
  let code := leAt (s.cellar a 128) 24 4
  let img := s.cellar a (128 + code)
  (s.busOn) && (s.modeLets p A.WDN_CMD) && (s.complexRuns) && decide (s.inRegion 7 a (128 + code) = false ∨ beAt img 48 48 ≠ sha384 (slice img 128
  code))) = true := by decide +kernel

theorem witness_Wardens_17 : (
  let s : State := fwAt fwSmall
  let p : Sys2Proof.Path := Path.mgmt
  let n : Nat := 0
  let a := s.pair A.WDN_FW_SRC % 2 ^ 36
  let code := leAt (s.cellar a 128) 24 4
  let img := s.cellar a (128 + code)
  (s.busOn) && (s.modeLets p A.WDN_CMD) && (s.complexRuns) && (s.inRegion 7 a (128 + code)) && decide (code ≤ 786432) && decide (s.rangePoison a
  (128 + code) = false) && decide (beAt img 48 48 = sha384 (slice img 128 code)) && decide (n ∈ s.activeCores)) = true := by decide +kernel

theorem witness_WaitsAndStocktake_1 : (
  let s : State := late 100000000000 run
  let n : Nat := 0
  (s.awake) && decide (s.irqPending = false) && decide (s.now < s.pair A.WDN_MTIMECMP)) = true := by decide +kernel

theorem witness_WaitsAndStocktake_2 : (
  let s : State := late 100000000000 run
  let i : Nat := 0
  let n : Nat := 0
  let b : Bool := true
  (s.awake) && (s.is F.WDN_CTRL_STOCKTAKE_EN) && (s.stockMay i n) && decide (Tab.getD (Tick.stock + i + 11 * n) 0 s.served <
  s.now / (1000000000 * stockInterval i) * (1000000000 * stockInterval i)) && decide (i ≠ 2) && (b)) = true := by decide +kernel

theorem witness_WaitsAndStocktake_3 : (
  let s : State := late 100000000000 run
  let i : Nat := 1
  let n : Nat := 0
  let b : Bool := true
  (s.awake) && decide (s.is F.WDN_CTRL_STOCKTAKE_EN = false ∨ s.stockMay i n = false ∨ s.now / (1000000000 * stockInterval i) *
  (1000000000 * stockInterval i) ≤ Tab.getD (Tick.stock + i + 11 * n) 0 s.served)) = true := by decide +kernel

theorem witness_WaitsAndStocktake_4 : (
  let s : State := late 100000000000 run
  let i : Nat := 2
  let n : Nat := 33
  let b : Bool := true
  (s.awake) && (s.is F.WDN_CTRL_STOCKTAKE_EN) && (s.stockMay i n) && decide (Tab.getD (Tick.stock + i + 11 * n) 0 s.served <
  s.now / (1000000000 * stockInterval i) * (1000000000 * stockInterval i)) && decide (i = 2) && (b) && decide (32 ≤ n) && decide
  (n < 98)) = true := by decide +kernel

theorem witness_WaitsAndStocktake_5 : (
  let s : State := late 100000000000 run
  (s.managed) && decide (s.twoControllers = false) && decide (Tab.getD Tick.report 0 s.served < s.now / 1000000000 * 1000000000)) = true := by decide +kernel

theorem witness_WaitsAndStocktake_6 : (
  let s : State := late 100000000000 run
  let p : Sys2Proof.Path := Path.mgmt
  (s.busOn) && (s.modeLets p (A.WDN_REPORT 0))) = true := by decide +kernel

theorem witness_WaitsAndStocktake_7 : (
  let s : State := late 9 ((run.setWord A.WDN_MTIMECMP 7).setWord (A.WDN_MTIMECMP + 4) 0)
  let n : Nat := 0
  (s.awake) && (s.irqPending) && decide (s.pair A.WDN_MTIMECMP ≤ s.now)) = true := by decide +kernel

theorem witness_PeerFrames_1 : (
  let s : State := peer2 unackedPeer
  let l : List Byte := ([] : List Byte)
  (s.peerOn) && decide (s.asleep = false) && decide (l.length < 20 ∨ beAt l (l.length - 4) 4 ≠ (crc32c (List.take (l.length - 4)
  l)).toNat)) = true := by decide +kernel

theorem witness_PeerFrames_2 : (
  let s : State := peer2 unackedPeer
  let l : List Byte := pFrame 7 5 0 ([2, 0, 0, 0, 0, 1, 4] : List Byte)
  (s.peerOn) && decide (s.asleep = false) && decide (20 ≤ l.length) && decide (beAt l (l.length - 4) 4 = (crc32c (List.take
  (l.length - 4) l)).toNat) && decide (beAt l 0 1 = 1) && decide (beAt l 12 4 + 20 = l.length) && decide (s.peer.linkLost =
  false) && decide (s.peer.state ≠ PeerState.linkLost) && decide (beAt l 4 4 ≠ (s.peer.rxSeq + 1) % 2 ^ 32)) = true := by decide +kernel

theorem witness_PeerFrames_3 : (
  let s : State := peer2 unackedPeer
  let l : List Byte := pFrame 7 1 1 ([2, 0, 0, 0, 0, 1, 4] : List Byte)
  (s.peerOn) && decide (s.asleep = false) && decide (20 ≤ l.length) && decide (beAt l (l.length - 4) 4 = (crc32c (List.take
  (l.length - 4) l)).toNat) && decide (beAt l 0 1 = 1) && decide (beAt l 12 4 + 20 = l.length) && decide (s.peer.linkLost =
  false) && decide (s.peer.state ≠ PeerState.linkLost) && decide (beAt l 4 4 = (s.peer.rxSeq + 1) % 2 ^ 32) && decide (beAt l 1
  1 = 7) && decide (7 ≤ beAt l 12 4)) = true := by decide +kernel

theorem witness_PeerFrames_4 : (
  let s : State := peer2 unackedPeer
  (s.peerOn) && decide (s.asleep = false) && decide (s.peer.groups ≠ 0)) = true := by decide +kernel

theorem witness_PeerFrames_5 : (
  let s : State := peer2 unackedPeer
  let l : List Byte := ([] : List Byte)
  (s.peerOn) && decide (sideOk l = false)) = true := by decide +kernel

theorem witness_PeerFrames_6 : (
  let s : State := peer2 unackedPeer
  let l : List Byte := sFrame 1 ([3, 1, 0, 0, 0, 5] : List Byte)
  (s.peerOn) && (sideOk l) && decide (beAt l 0 1 = 1) && decide (s.peer.offer = none) && decide (s.peer.state ≠
  PeerState.sidebandLost)) = true := by decide +kernel

theorem witness_PeerFrames_7 : (
  let s : State := peer2 (fun p => { p with state := .sidebandLost, linkLost := false })
  let l : List Byte := sFrame 1 ([3, 1, 0, 0, 0, 5] : List Byte)
  (s.peerOn) && (sideOk l) && decide (beAt l 0 1 = 1) && decide (s.peer.offer = none) && decide (s.peer.state =
  PeerState.sidebandLost)) = true := by decide +kernel

theorem witness_PeerFrames_8 : (
  let s : State := peer2 unackedPeer
  (s.peerOn) && decide (s.now / 1000000 * 1000000 ≤ Tab.getD Tick.heartbeat 0 s.served)) = true := by decide +kernel

theorem witness_PeerFrames_9 : (
  let s : State := late 3000000 (peer2 unackedPeer)
  (s.peerOn) && decide (Tab.getD Tick.heartbeat 0 s.served < s.now / 1000000 * 1000000) && decide (s.peer.groups ≠ 0) && decide
  (s.asleep = false)) = true := by decide +kernel

theorem witness_PeerFrames_10 : (
  let s : State := late 3000000 (peer2 id)
  (s.peerOn) && decide (Tab.getD Tick.heartbeat 0 s.served < s.now / 1000000 * 1000000) && decide (s.peer.groups = 0)) = true := by decide +kernel

theorem witness_PeerFrames_11 : (
  let s : State := peer2 unackedPeer
  let m : Nat := 0
  (s.up)) = true := by decide +kernel

theorem witness_LossesAndArbitration_1 : (
  let s : State := late 30000000 (peer2 (fun p => { unackedPeer p with linkAt := some 5, sideLost := false, sideAt := some 5 }))
  (match s.peer.linkAt with
  | some t0 =>
    (s.peerOn) && decide (s.asleep = false) && decide (s.peer.linkLost = false) && decide (s.peer.state = PeerState.mirrored) &&
    decide (s.peer.sideLost = false) && decide (s.peer.giving = none) && decide (t0 + 20000000 ≤ s.now)
  | _ => false)) = true := by decide +kernel

theorem witness_LossesAndArbitration_2 : (
  let s : State := late 30000000 (peer2 (fun p => { unackedPeer p with linkAt := some 5, sideLost := false, sideAt := some 5 }))
  (match s.peer.sideAt with
  | some t0 =>
    (s.peerOn) && decide (s.asleep = false) && decide (s.peer.sideLost = false) && decide (s.peer.state = PeerState.mirrored) &&
    decide (s.peer.linkLost = false) && decide (s.peer.giving = none) && decide (t0 + 20000000 ≤ s.now)
  | _ => false)) = true := by decide +kernel

theorem witness_LossesAndArbitration_3 : (
  let s : State := late 3000000 (peer2 (fun p => { unackedPeer p with linkAt := some 5, sideLost := false, sideAt := some 5 }))
  (match s.peer.linkAt with
  | some t0 =>
    (s.peerOn) && decide (s.asleep = false) && decide (s.peer.linkLost = false) && decide (s.now < t0 + 20000000)
  | _ => false)) = true := by decide +kernel

theorem witness_LossesAndArbitration_4 : (
  let s : State := late 3000000 (peer2 (fun p => { unackedPeer p with linkAt := some 5, sideLost := false, sideAt := some 5 }))
  (match s.peer.sideAt with
  | some t0 =>
    (s.peerOn) && decide (s.asleep = false) && decide (s.peer.sideLost = false) && decide (s.now < t0 + 20000000)
  | _ => false)) = true := by decide +kernel

theorem witness_LossesAndArbitration_5 : (
  let s : State :=
    late 30000000 (peer2 (fun p => { unackedPeer p with linkAt := some 5, sideLost := false, sideAt := some 5, state := .solo }))
  (match s.peer.linkAt with
  | some t0 =>
    (s.peerOn) && decide (s.asleep = false) && decide (s.peer.linkLost = false) && decide (s.peer.state = PeerState.solo) &&
    decide (t0 + 20000000 ≤ s.now)
  | _ => false)) = true := by decide +kernel

theorem witness_LossesAndArbitration_6 : (
  let s : State := late 3000000000 (peer2 (arbPeer [] [0, 1]))
  (match s.peer.arb with
  | some (t0, left, cur, held) =>
    (s.awake) && decide (s.peer.state = PeerState.arbitrating) && decide (t0 + 2000000000 ≤ s.now) && decide (2 * held.length <
    s.peer.arbResult.1 ∨ 2 * held.length = s.peer.arbResult.1 ∧ s.side ≠ 0) && decide (s.cq.slots = [])
  | _ => false)) = true := by decide +kernel

theorem witness_LossesAndArbitration_7 : (
  let s : State := late 30 (peer2 (arbPeer [] [0, 1]))
  (match s.peer.arb with
  | some (t0, left, cur, held) =>
    (s.awake) && decide (s.peer.state = PeerState.arbitrating) && decide (left ≠ [] ∨ cur.isSome = true) && decide (s.now < t0 +
    2000000000)
  | _ => false)) = true := by decide +kernel

theorem witness_LossesAndArbitration_8 : (
  let s : State := late 30000000 (peer2 (fun p => { unackedPeer p with linkAt := some 5, sideLost := false, sideAt := some 5 }))
  (s.awake) && decide (s.peer.state = PeerState.mirrored ∨ s.peer.linkLost = false)) = true := by decide +kernel

theorem witness_LossesAndArbitration_9 : (
  let s : State := late 50000000 (onPeer (fun p => { p with state := .linkLost, linkLost := true, linkAt := some 5 }) mirWait)
  (match s.peer.linkAt with
  | some t0 =>
    (s.awake) && decide (s.peer.state ≠ PeerState.mirrored) && (s.peer.linkLost) && decide (t0 + 40000000 ≤ s.now)
  | _ => false)) = true := by decide +kernel

theorem witness_LossesAndArbitration_10 : (
  let s : State := mirWait
  let n : Nat := 6
  (match s.live? n with
  | some w =>
    (s.awake) && (w.mirrorWait) && decide (s.peer.retriedMirror.contains n = false)
  | _ => false)) = true := by decide +kernel

theorem witness_LossesAndArbitration_11 : (
  let s : State := onPeer (fun p => { p with retriedMirror := [6] }) mirWait
  let n : Nat := 6
  (match s.live? n with
  | some w =>
    (s.awake) && (w.mirrorWait) && (s.peer.retriedMirror.contains n) && decide (s.peer.state ≠ PeerState.joining)
  | _ => false)) = true := by decide +kernel

theorem witness_LossesAndArbitration_12 : (
  let s : State := (late 3000000000 (peer2 (arbPeer [0, 1] []))).setFld F.PEER_CTRL_AUTO_TAKEOVER 0
  (match s.peer.arb with
  | some (t0, left, cur, held) =>
    (s.awake) && decide (s.peer.state = PeerState.arbitrating) && decide (t0 + 2000000000 ≤ s.now) && decide (s.peer.arbResult.1
    < 2 * held.length ∨ 2 * held.length = s.peer.arbResult.1 ∧ s.side = 0) && decide (s.str.live = []) && decide (s.drv.cmds =
    []) && decide (List.filter (fun b => !held.contains b) (s.arbOrder s.peer.arbSet) = []) && decide (s.is
    F.PEER_CTRL_AUTO_TAKEOVER = false)
  | _ => false)) = true := by decide +kernel

theorem witness_HandoverAndTakeover_1 : (
  let s : State := peer2 (fun p => { unackedPeer p with own := 1 })
  let p : Sys2Proof.Path := Path.mgmt
  let m : Nat := 0
  (s.busOn) && (s.modeLets p A.PEER_CMD) && (s.peerOn) && decide (s.peer.won = false) && decide (s.peer.flags = 0) && (decide
  (s.peer.state = PeerState.mirrored) || (List.range 8).any fun g => m.testBit g && s.grpOn g)) = true := by decide +kernel

theorem witness_HandoverAndTakeover_2 : (
  let s : State := peer2 (fun p => { unackedPeer p with own := 1 })
  let p : Sys2Proof.Path := Path.mgmt
  let m : Nat := 1
  let v : Nat := 2
  (s.busOn) && (s.modeLets p A.PEER_CMD) && (s.peerOn) && decide (s.peer.state = PeerState.mirrored) && decide (s.peer.giving =
  none) && decide (m ≠ 0) && decide (m &&& s.peer.own = m) && decide (v ∈ s.volsOf m)) = true := by decide +kernel

theorem witness_HandoverAndTakeover_3 : (
  let s : State := peer2 (fun p => { unackedPeer p with own := 1 })
  let p : Sys2Proof.Path := Path.mgmt
  let m : Nat := 2
  (s.busOn) && (s.modeLets p A.PEER_CMD) && (s.peerOn) && decide (s.peer.state ≠ PeerState.mirrored ∨ m &&& s.peer.own ≠ m)) = true := by decide +kernel

theorem witness_HandoverAndTakeover_4 : (
  let s : State := peer2 id
  let p : Sys2Proof.Path := Path.mgmt
  let m : Nat := 0
  (s.busOn) && (s.modeLets p A.PEER_CMD) && (s.peerOn) && decide (s.peer.state = PeerState.solo ∨ s.peer.state =
  PeerState.joining) && ((List.range 8).all fun g => !m.testBit g || (!s.grpOn g && !s.peer.peerOwn.testBit g))) = true := by decide +kernel

theorem witness_HandoverAndTakeover_5 : (
  let s : State := peer2 (fun p => { p with won := true, peerOwn := 2, state := .solo })
  let p : Sys2Proof.Path := Path.mgmt
  let m : Nat := 2
  (s.busOn) && (s.modeLets p A.PEER_CMD) && (s.peerOn) && (s.peer.won) && decide (s.peer.state = .solo) && decide (m ≠ 0) && decide (m &&& s.peer.peerOwn = m) &&
  decide (s.peer.takeover = none) && decide (s.peer.takeStep = TakeStep.idle) && decide (s.isFenced = false) && decide
  (s.takeBays m = [])) = true := by decide +kernel

theorem witness_HandoverAndTakeover_6 : (
  let s : State := peer2 (fun p => { p with taken := 1, peerOwn := 2 })
  let p : Sys2Proof.Path := Path.mgmt
  let m : Nat := 1
  let v : Nat := 2
  (s.busOn) && (s.modeLets p A.PEER_CMD) && (s.peerOn) && decide (v ∈ s.volsOf (m &&& s.peer.taken))) = true := by decide +kernel

theorem witness_HandoverAndTakeover_7 : (
  let s : State := giving false
  (match s.peer.giving with
  | some h =>
    (s.awake) && decide (h.offered = false) && decide (h.slots = []) && decide (s.str.live = []) && decide (s.str.waiting = [])
    && decide (s.str.ckpt = none) && decide (h.ckpt = false) && decide (s.isFenced = false)
  | _ => false)) = true := by decide +kernel

theorem witness_HandoverAndTakeover_8 : (
  let s : State := giving true
  (match s.peer.giving with
  | some h =>
    (s.awake) && decide (h.offered = false) && decide (h.slots = []) && decide (s.str.live = []) && decide (s.str.waiting = [])
    && decide (s.str.ckpt = none) && (h.ckpt)
  | _ => false)) = true := by decide +kernel

theorem witness_HandoverAndTakeover_9 : (
  let s : State := { peer2 id with cq := (withCmd { cmdOf (ioCap 1 0 1) with wait := .handover }).cq }
  let c : Nat := 0
  (match s.cmd? c with
  | some (k, x) =>
    (s.awake) && decide (x.wait = CmdWait.handover) && decide (s.now ≤ x.accepted + 1000000 * min 2000 (max 10 (s.fld
    F.PEER_CTRL_HO_LIMIT)))
  | _ => false)) = true := by decide +kernel

theorem witness_HandoverAndTakeover_10 : (
  let s : State := late 3000000000 ({ peer2 id with cq := (withCmd { cmdOf (ioCap 1 0 1) with wait := .handover }).cq })
  let c : Nat := 0
  (match s.cmd? c with
  | some (k, x) =>
    (s.awake) && decide (x.wait = CmdWait.handover) && decide (x.accepted + 1000000 * min 2000 (max 10 (s.fld
    F.PEER_CTRL_HO_LIMIT)) < s.now)
  | _ => false)) = true := by decide +kernel

theorem witness_HandoverAndTakeover_11 : (
  let s : State := late 3000000000 (peer2 (fun p => { p with takeover := some 3, takeStep := .taking, mirrorHeld := true }))
  let x : MediaErrors := ⟨[], []⟩
  let g : Nat := 0
  (match s.peer.takeover with
  | some m =>
    (s.awake) && decide (s.peer.takes = []) && decide (s.peer.takeStep = TakeStep.taking ∨ s.peer.takeStep = TakeStep.closing)
    && decide (s.peer.takeStep = TakeStep.taking) && (s.peer.mirrorHeld) && decide (s.attic.peerIntents = []) && decide
    (s.attic.peerLost = []) && decide (bestSource (s.memberSources s.peer.journalId (1 - s.side)) = none) && decide (g < 8) &&
    (m.testBit g) && (s.grpOn g)
  | _ => false)) = true := by decide +kernel

theorem witness_HandoverAndTakeover_12 : (
  let s : State := late 3000000000 (peer2 (fun p => { p with takeover := some 3, takeStep := .taking, mirrorHeld := true }))
  let x : MediaErrors := ⟨[], []⟩
  let g : Nat := 2
  (match s.peer.takeover with
  | some m =>
    (s.awake) && decide (s.peer.takes = []) && decide (s.peer.takeStep = TakeStep.taking) && (s.peer.mirrorHeld) && decide
    (s.attic.peerIntents = []) && decide (s.attic.peerLost = []) && decide (bestSource (s.memberSources s.peer.journalId (1 -
    s.side)) = none) && decide (g < 8) && decide (m.testBit g = false)
  | _ => false)) = true := by decide +kernel

theorem witness_HandoverAndTakeover_13 : (
  let s : State := peer2 (fun p => { p with takeover := some 3, takes := [(1, 1)] })
  (match s.peer.takeover with
  | some m =>
    (s.awake) && decide (s.peer.takes ≠ []) && decide (s.peer.takeStep ≠ .closing)
  | _ => false)) = true := by decide +kernel

theorem witness_HandoverAndTakeover_14 : (
  let s : State := onPeer (fun p => { p with journalId := 7, takeover := some 3, takeStep := .taking, mirrorHeld := false })
    { peer2 id with drives := [(1, { driveDefault with ckpts := [(2, ⟨1, 7, 9, 40, List.replicate 8 5, 1, [], [], [], true, true⟩)] })] }
  let f : List (Nat × Nat × CopyFault) := []
  let u := s.copyFaults f
  (match bestSource (u.memberSources s.peer.journalId (1 - s.side)) with
  | some c =>
    (s.awake) && decide (s.peer.takeover = some 3) && decide (s.peer.takes = []) && decide (s.peer.takeStep = .taking) && decide
    (u.mirrorSource (some c) = false)
  | _ => false)) = true := by decide +kernel

theorem witness_HandoverAndTakeover_15 : (
  let s : State := onPeer (fun p => { p with
    journalId := 7, takeover := some 3, takeStep := .taking, mirrorHeld := true, mirrorEnd := some 50 })
    { peer2 id with drives := [(1, { driveDefault with ckpts := [(2, ⟨1, 7, 9, 40, List.replicate 8 5, 1, [], [], [], true, true⟩)] })] }
  let f : List (Nat × Nat × CopyFault) := []
  let u := s.copyFaults f
  (s.awake) && decide (s.peer.takeover = some 3) && decide (s.peer.takes = []) && decide (s.peer.takeStep = .taking) &&
  (u.mirrorSource (bestSource (u.memberSources s.peer.journalId (1 - s.side))))) = true := by decide +kernel

theorem witness_HandoverAndTakeover_16 : (
  let s : State := peer2 (fun p => { p with won := true, peerOwn := 2, state := .joining })
  let p : Sys2Proof.Path := Path.mgmt
  (s.busOn) && (s.modeLets p A.PEER_CMD) && (s.peerOn) && decide (s.peer.won = false ∨ s.peer.state ≠ .solo) && decide
  (s.peer.flags = 0)) = true := by decide +kernel

theorem witness_PowerModes_1 : (
  let s : State := (onPwr (fun p => {p with phase := .entering}) (waiting .dormant shelf)).setFld F.PWR_WAKE_EN_EN 0
  let p : Sys2Proof.Path := Path.mgmt
  let n : Nat := 0
  (s.up) && (s.modeLets p A.PWR_MODE) && decide (s.pwr.phase ≠ Phase.steady) && decide (modeOf n ≠ s.pwr.target)) = true := by decide +kernel

theorem witness_PowerModes_2 : (
  let s : State := (onPwr (fun p => {p with phase := .entering}) (waiting .dormant shelf)).setFld F.PWR_WAKE_EN_EN 0
  let p : Sys2Proof.Path := Path.mgmt
  let n : Nat := 3
  (s.up) && (s.modeLets p A.PWR_MODE) && decide (s.pwr.phase ≠ Phase.steady) && decide (modeOf n = s.pwr.target)) = true := by decide +kernel

theorem witness_PowerModes_3 : (
  let s : State := run
  let p : Sys2Proof.Path := Path.mgmt
  let n : Nat := 1
  (s.up) && (s.modeLets p A.PWR_MODE) && decide (s.pwr.phase = Phase.steady) && decide (s.asleep = false) && decide (modeOf n ≠
  s.pwr.cur) && decide ((modeOf n).low = false ∨ s.mgt.test = none)) = true := by decide +kernel

theorem witness_PowerModes_4 : (
  let s : State := inMode .doze
  let p : Sys2Proof.Path := Path.mgmt
  let n : Nat := 0
  (s.up) && (s.modeLets p A.PWR_MODE) && decide (s.pwr.phase = Phase.steady) && (s.asleep)) = true := by decide +kernel

theorem witness_PowerModes_5 : (
  let s : State := waiting .trim run
  (s.up) && decide (s.pwr.phase = Phase.waiting) && decide (s.activation = none) && decide (s.irqPending = true ∨
  s.pwr.target.low = false ∧ s.wardensWait = false ∨ s.pwr.target.low = true ∧ s.drained = false)) = true := by decide +kernel

theorem witness_PowerModes_6 : (
  let s : State := waiting .trim (coresWait run)
  (s.up) && decide (s.pwr.phase = Phase.waiting) && decide (s.activation = none) && decide (s.irqPending = false) &&
  (s.wardensWait) && decide (s.pwr.target.low = false)) = true := by decide +kernel

theorem witness_PowerModes_7 : (
  let s : State := waiting .doze (coresWait run)
  (s.up) && decide (s.pwr.phase = Phase.waiting) && decide (s.activation = none) && decide (s.irqPending = false) &&
  (s.wardensWait) && (s.pwr.target.low) && (s.drained) && decide (s.pwr.drainCkpt = 2)) = true := by decide +kernel

theorem witness_PowerModes_8 : (
  let s : State := waiting .trim run
  (s.up) && decide (s.pwr.phase = Phase.waiting) && decide (s.pwr.pending = none) && decide (s.now < s.pwr.since + s.drainLimit)) = true := by decide +kernel

theorem witness_PowerModes_9 : (
  let s : State := late 20000000000 (waiting .doze run)
  (s.up) && decide (s.pwr.phase = Phase.waiting) && decide (s.pwr.pending = none) && decide (s.pwr.since + s.drainLimit ≤ s.now)) = true := by decide +kernel

theorem witness_PowerModes_10 : (
  let s : State := (onPwr (fun p => {p with phase := .entering}) (waiting .dormant shelf)).setFld F.PWR_WAKE_EN_EN 0
  let i : Nat := 0
  (s.up) && decide (s.pwr.phase = Phase.entering) && decide (s.pwr.pending = none) && decide (s.pwr.target.low = true → s.fld
  F.PWR_WAKE_EN_EN = 0 ∧ s.peer.state = PeerState.solo) && decide (i < 128) && (s.islandRuns s.pwr.target i) && decide
  (s.pwr.target = PowerMode.dormant)) = true := by decide +kernel

theorem witness_PowerModes_11 : (
  let s : State := (onPwr (fun p => {p with phase := .entering}) (waiting .dormant shelf)).setFld F.PWR_WAKE_EN_EN 0
  let i : Nat := 3
  (s.up) && decide (s.pwr.phase = Phase.entering) && decide (s.pwr.pending = none) && decide (s.pwr.target.low = true → s.fld
  F.PWR_WAKE_EN_EN = 0 ∧ s.peer.state = PeerState.solo) && decide (i < 128) && decide (s.islandRuns s.pwr.target i = false)) = true := by decide +kernel

theorem witness_PowerModes_12 : (
  let s : State := onPwr (fun p => {p with phase := .entering}) (waiting .active shelf)
  (s.up) && decide (s.pwr.phase = Phase.entering) && decide (s.pwr.pending = none) && decide (s.pwr.target.low = true → s.fld
  F.PWR_WAKE_EN_EN = 0 ∧ s.peer.state = PeerState.solo) && decide (s.pwr.target = PowerMode.active)) = true := by decide +kernel

theorem witness_PowerModes_13 : (
  let s : State := onPwr (fun p => {p with phase := .entering}) (waiting .trim shelf)
  (s.up) && decide (s.pwr.phase = Phase.entering) && decide (s.pwr.pending = none) && decide (s.pwr.target.low = true → s.fld
  F.PWR_WAKE_EN_EN = 0 ∧ s.peer.state = PeerState.solo) && decide (s.pwr.target = PowerMode.trim)) = true := by decide +kernel

theorem witness_PowerModes_14 : (
  let s : State := (onPwr (fun p => {p with phase := .entering}) (waiting .doze shelf)).setFld F.PWR_WAKE_EN_EN 0
  (s.up) && decide (s.pwr.phase = Phase.entering) && decide (s.pwr.pending = none) && decide (s.pwr.target.low = true → s.fld
  F.PWR_WAKE_EN_EN = 0 ∧ s.peer.state = PeerState.solo) && decide (s.pwr.target = PowerMode.doze)) = true := by decide +kernel

theorem witness_PowerModes_15 : (
  let s : State := (inMode .doze).setFld F.PWR_WAKE_EN_EN 8
  (s.up) && (s.asleep) && decide (s.pwr.phase = Phase.steady) && decide (s.fld F.PWR_WAKE_EN_EN = 8)) = true := by decide +kernel

theorem witness_PowerModes_16 : (
  let s : State := (inMode .doze).setFld F.PWR_WAKE_EN_EN 0
  let low : Bool := true
  (s.up) && (s.asleep) && decide (s.pwr.phase = Phase.steady) && decide (s.fld F.PWR_WAKE_EN_EN = 0)) = true := by decide +kernel

theorem witness_PowerModes_17 : (
  let s : State := onPwr (fun p => { p with phase := .exiting, cause := 8 }) (inMode .doze)
  let l : List Nat := ([] : List Nat)
  let d : List Nat := ([] : List Nat)
  (s.up) && decide (s.pwr.phase = Phase.exiting) && decide (s.now < s.pwr.since + exitTime s.pwr.cur)) = true := by decide +kernel

theorem witness_PowerModes_18 : (
  let s : State := late 300000 (onPwr (fun p => { p with phase := .exiting, cause := 8 }) (inMode .doze))
  let l : List Nat := ([] : List Nat)
  let d : List Nat := ([] : List Nat)
  let i : Nat := 0
  (s.up) && decide (s.pwr.phase = Phase.exiting) && decide (s.pwr.since + exitTime s.pwr.cur ≤ s.now) && decide (l = []) &&
  decide (s.attic.resident = []) && decide (s.drv.ports = []) && decide (s.peer.oweAck = false) && decide (s.pwr.pending = none)
  && decide (i < 128) && decide (s.retained 5 = false)) = true := by decide +kernel

theorem witness_PowerModes_19 : (
  let s : State := late 30000000 (onPwr (fun p => { p with phase := .exiting, cause := 8, cur := .dormant }) shelf)
  let l : List Nat := ([] : List Nat)
  let d : List Nat := ([] : List Nat)
  (s.up) && decide (s.pwr.phase = Phase.exiting) && decide (s.pwr.since + exitTime s.pwr.cur ≤ s.now) && decide (l = []) &&
  decide (s.attic.resident = []) && decide (s.drv.ports = []) && decide (s.peer.oweAck = false) && decide (s.pwr.pending = none)
  && (s.retained 5)) = true := by decide +kernel

theorem witness_PowerModes_20 : (
  let s : State := peer2 id
  let p : Sys2Proof.Path := Path.mgmt
  (s.busOn) && (s.modeLets p A.PWR_CMD) && (s.peerOn)) = true := by decide +kernel

theorem witness_IslandLoops_1 : (
  let s : State := isl id
  let i : Nat := 5
  let x : Island := (isl id).island 5
  let b : Bool := true
  let k : Nat := 4
  (match s.islandVolts i with
  | (lo, hi) =>
    (s.up) && decide (i < 128) && decide (x = s.island i) && decide (x.freq ≠ 0) && decide (Tab.getD (Tick.island + i) 0
    s.served < s.now / 1000 * 1000) && decide (x.volt < hi) && decide (k ≠ i) && decide (x.throttled = false) && decide
    (x.passes ≠ 255))) = true := by decide +kernel

theorem witness_IslandLoops_2 : (
  let s : State := isl (fun x => { x with volt := 850 })
  let i : Nat := 5
  let x : Island :=
    (isl fun x => { volt := 850, freq := x.freq, throttled := x.throttled, gated := x.gated, passes := x.passes, periods := x.periods }).island 5
  let b : Bool := true
  (match s.islandVolts i with
  | (lo, hi) =>
    (s.up) && decide (i < 128) && decide (x = s.island i) && decide (x.freq ≠ 0) && decide (Tab.getD (Tick.island + i) 0
    s.served < s.now / 1000 * 1000) && decide (hi ≤ x.volt))) = true := by decide +kernel

theorem witness_IslandLoops_3 : (
  let s : State := isl (fun x => { x with passes := 255 })
  let i : Nat := 5
  let x : Island :=
    (isl fun x => { volt := x.volt, freq := x.freq, throttled := x.throttled, gated := x.gated, passes := 255, periods := x.periods }).island 5
  let b : Bool := true
  (match s.islandVolts i with
  | (lo, hi) =>
    (s.up) && decide (i < 128) && decide (x = s.island i) && decide (x.freq ≠ 0) && decide (Tab.getD (Tick.island + i) 0
    s.served < s.now / 1000 * 1000) && decide (x.throttled = false) && decide (x.passes = 255))) = true := by decide +kernel

theorem witness_IslandLoops_4 : (
  let s : State := isl id
  let a : Bool := true
  (s.up) && (s.is F.PWR_CTRL_AVS_EN) && decide (Tab.getD Tick.avs 0 s.served < s.now / 10000 * 10000) && (a)) = true := by decide +kernel

theorem witness_IslandLoops_5 : (
  let s : State := isl id
  let a : Bool := false
  (s.up) && (s.is F.PWR_CTRL_AVS_EN) && decide (Tab.getD Tick.avs 0 s.served < s.now / 10000 * 10000) && decide (a = false)) = true := by decide +kernel

theorem witness_IslandLoops_6 : (
  let s : State := late 500000 (onPwr (fun p => { p with avsMiss := 2 }) (shelf.setFld F.PWR_CTRL_AVS_EN 1))
  let a : Bool := false
  (s.up) && (s.is F.PWR_CTRL_AVS_EN) && decide (Tab.getD Tick.avs 0 s.served < s.now / 10000 * 10000) && decide (a = false) &&
  decide (s.pwr.avsMiss = 2)) = true := by decide +kernel

theorem witness_IslandLoops_7 : (
  let s : State := (isl id).setFld F.PWR_CTRL_AVS_EN 0
  let a : Bool := true
  (s.up) && decide (s.is F.PWR_CTRL_AVS_EN = false)) = true := by decide +kernel

theorem witness_TallyAndSelfTests_1 : (
  let s : State := run
  let n : Nat := 0
  let p : Sys2Proof.Path := Path.mgmt
  (s.busOn) && (s.modeLets p A.MGT_TALLY_CMD)) = true := by decide +kernel

theorem witness_TallyAndSelfTests_2 : (
  let s : State := run
  let p : Sys2Proof.Path := Path.mgmt
  (s.busOn) && (s.modeLets p (A.MGT_TALLY_REC 0))) = true := by decide +kernel

theorem witness_TallyAndSelfTests_3 : (
  let s : State := run
  let p : Sys2Proof.Path := Path.mgmt
  let k : Nat := 6
  (s.busOn) && (s.modeLets p A.MGT_TALLY_APPEND) && decide (s.is F.MGT_CTRL_EVT_EN = false) && decide (6 ≤ k) && decide (k < 16)
  && decide (s.mgt.unread < 4096)) = true := by decide +kernel

theorem witness_TallyAndSelfTests_4 : (
  let s : State := tallyFull
  let p : Sys2Proof.Path := Path.mgmt
  (s.busOn) && (s.modeLets p A.MGT_TALLY_APPEND) && decide (s.is F.MGT_CTRL_EVT_EN = false) && decide (4096 ≤ s.mgt.unread)) = true := by decide +kernel

theorem witness_TallyAndSelfTests_5 : (
  let s : State := run
  (s.managed) && decide (s.eventsDue = false)) = true := by decide +kernel

theorem witness_TallyAndSelfTests_6 : (
  let s : State := evWait
  (s.managed) && (s.eventsDue) && (s.eventsOn) && decide (s.mgtLink = false)) = true := by decide +kernel

theorem witness_TallyAndSelfTests_7 : (
  let s : State := evSend
  let k : Nat := 6
  (s.managed) && (s.eventsDue) && (s.eventsOn) && (s.mgtLink) && decide (k ≠ 32)) = true := by decide +kernel

theorem witness_TallyAndSelfTests_8 : (
  let s : State := run
  let l : List (BitVec 512) := ([] : List (BitVec 512))
  decide (l.length < 256)) = true := by decide +kernel

theorem witness_TallyAndSelfTests_9 : (
  let s : State := run
  (s.managed) && decide ((s.tallyPending && s.irqPending && s.awake) = false)) = true := by decide +kernel

theorem witness_TallyAndSelfTests_10 : (
  let s : State := tallyOld
  let n : Nat := 0
  (s.awake) && (s.tallyPending) && (s.irqPending) && decide (n < 3)) = true := by decide +kernel

theorem witness_LedgerAndSmbus_1 : (
  let s : State := ledger
  let src : List Byte := ([1,2,3,4] : List Byte)
  let port : Nat := 9
  let id : Nat := 7
  let count : Nat := 1
  let addr : Nat := 0x18
  (s.managed) && (s.ledgerOn) && decide (List.find? (fun k => decide (k.src = src) && k.port == port && k.id == id)
  s.keptReplies = none) && decide (id < 2 ^ 32) && decide (addr < 2 ^ 32) && decide (1 ≤ count) && decide (count ≤ 256) &&
  decide (regAddr addr + 4 * count ≤ 16777216)) = true := by decide +kernel

theorem witness_LedgerAndSmbus_2 : (
  let s : State := ledger
  let src : List Byte := ([1,2,3,4] : List Byte)
  let port : Nat := 9
  let id : Nat := 7
  let count : Nat := 256
  let addr : Nat := 0xFFFFFC
  (s.managed) && (s.ledgerOn) && decide (List.find? (fun k => decide (k.src = src) && k.port == port && k.id == id)
  s.keptReplies = none) && decide (id < 2 ^ 32) && decide (addr < 2 ^ 32) && decide (1 ≤ count) && decide (count ≤ 256) &&
  decide (16777216 < regAddr addr + 4 * count)) = true := by decide +kernel

theorem witness_LedgerAndSmbus_3 : (
  let s : State := ledger
  let src : List Byte := ([1,2,3,4] : List Byte)
  let port : Nat := 9
  let id : Nat := 7
  let count : Nat := 0
  let addr : Nat := 0x18
  (s.managed) && (s.ledgerOn) && decide (List.find? (fun k => decide (k.src = src) && k.port == port && k.id == id)
  s.keptReplies = none) && decide (id < 2 ^ 32) && decide (addr < 2 ^ 32) && decide (count < 2 ^ 16) && decide (count = 0 ∨ 256
  < count)) = true := by decide +kernel

theorem witness_LedgerAndSmbus_4 : (
  let s : State := ledger
  let src : List Byte := ([1,2,3,4] : List Byte)
  let port : Nat := 9
  let id : Nat := 7
  let addr : Nat := 0x18
  let op : Nat := 0x82
  let step : Nat := 4
  let words : List Word := ([5] : List Word)
  let c : Instr := Instr.ledgerWrite [1, 2, 3, 4] 9 7 24 [5]
  (s.managed) && (s.ledgerOn) && decide (List.find? (fun k => decide (k.src = src) && k.port == port && k.id == id)
  s.keptReplies = none) && decide (id < 2 ^ 32) && decide (1 ≤ words.length) && decide (words.length ≤ 256) && decide (addr <
  16777216) && decide ((c, op, step) = (Instr.ledgerWrite src port id addr words, 130, 4) ∧ regAddr addr + 4 * words.length ≤
  16777216 ∨ (c, op, step) = (Instr.writeFixed src port id addr words, 131, 0))) = true := by decide +kernel

theorem witness_LedgerAndSmbus_5 : (
  let s : State := ledgerKept
  let src : List Byte := ([1,2,3,4] : List Byte)
  let port : Nat := 9
  let id : Nat := 7
  let count : Nat := 1
  let addr : Nat := 0x18
  let words : List Word := ([5] : List Word)
  let c : Instr := Instr.ledgerRead [1, 2, 3, 4] 9 7 1 24
  (match List.find? (fun k => decide (k.src = src) && k.port == port && k.id == id) s.keptReplies with
  | some k =>
    (s.managed) && (s.ledgerOn) && decide (id < 2 ^ 32) && decide (c ∈ [Instr.ledgerRead src port id count addr,
    Instr.ledgerWrite src port id addr words, Instr.writeFixed src port id addr words])
  | _ => false)) = true := by decide +kernel

theorem witness_LedgerAndSmbus_6 : (
  let s : State := ledgerUp
  let src : List Byte := ([1,2,3,4] : List Byte)
  let l : List Byte := ([1,2] : List Byte)
  let port : Nat := 9
  (s.busOn) && ((s.sp 32).link)) = true := by decide +kernel

theorem witness_LedgerAndSmbus_7 : (
  let s : State := run
  let n : Nat := 0
  let l : List Byte := ([1,2] : List Byte)
  (s.busOn) && decide (n < 2) && (s.smbActive n) && decide (l.length ≤ 255) && decide (l.length < 16)) = true := by decide +kernel

theorem witness_LedgerAndSmbus_8 : (
  let s : State := run
  let n : Nat := 0
  let l : List Byte := ledgerBytes 2 7 1 0x18 [5]
  let id : Nat := 7
  let addr : Nat := 0x18
  let words : List Word := ([5]: List Word)
  let k : Nat := 1
  let u := (s.bump A.MGT_LEDGER_REQS).writeRun (smbPath n) 4 (regAddr addr) words
  let r :=
    beBytes 1 1 ++ beBytes 1 130 ++ beBytes 1 (ofBool ((List.range words.length).any fun i => !s.modeLets (smbPath n) (regAddr addr + 4 * i))) ++ beBytes 1 0 ++ beBytes 4 id ++ beBytes 2 words.length ++ beBytes 2 0 ++ beBytes 4 addr
  (s.busOn) && decide (n < 2) && (s.smbActive n) && decide (l.length ≤ 255) && decide (l = ledgerBytes 2 id words.length addr
  words) && decide (id < 2 ^ 32) && decide (1 ≤ words.length) && decide (words.length ≤ 59) && decide (addr < 16777216) &&
  decide (regAddr addr + 4 * words.length ≤ 16777216) && decide (k ≠ n)) = true := by decide +kernel

theorem witness_LedgerAndSmbus_9 : (
  let s : State := run
  let n : Nat := 0
  let l : List Byte := ledgerBytes 2 7 1 0x18 [5]
  let id : Nat := 7
  let addr : Nat := 0x18
  let words : List Word := ([5]: List Word)
  (match exec (Instr.smbusBlockWrite n l true) s with
  | Host.Outcome.next t =>
    let u := (s.bump A.MGT_LEDGER_REQS).writeRun (smbPath n) 4 (regAddr addr) words
    let r :=
    beBytes 1 1 ++ beBytes 1 130 ++ beBytes 1 (ofBool ((List.range words.length).any fun i => !s.modeLets (smbPath n) (regAddr addr + 4 * i))) ++ beBytes 1 0 ++ beBytes 4 id ++ beBytes 2 words.length ++ beBytes 2 0 ++ beBytes 4 addr
    (s.busOn) && decide (n < 2) && (s.smbActive n) && decide (l.length ≤ 255) && decide (l = ledgerBytes 2 id words.length addr
    words) && decide (id < 2 ^ 32) && decide (1 ≤ words.length) && decide (words.length ≤ 59) && decide (addr < 16777216) &&
    decide (regAddr addr + 4 * words.length ≤ 16777216) && (t.busOn) && (t.smbActive n)
  | _ => false)) = true := by decide +kernel

theorem witness_LedgerAndSmbus_10 : (
  let s : State := run
  let n : Nat := 2
  (s.busOn) && decide (2 ≤ n ∨ s.smbActive n = false)) = true := by decide +kernel

theorem witness_TallyAndSelfTests_11 : (
  let s : State := run
  let p : Sys2Proof.Path := Path.mgmt
  (s.busOn) && (s.modeLets p A.MGT_ST_CTRL) && decide (s.mgt.test = none) && (List.range 9).any (fun g => !s.testGroups.contains
  g)) = true := by decide +kernel

theorem witness_TallyAndSelfTests_12 : (
  let s : State := testing 1 []
  let p : Sys2Proof.Path := Path.mgmt
  (match s.mgt.test with
  | some x =>
    (s.busOn) && (s.modeLets p A.MGT_ST_CTRL) && (s.mgt.test.isSome) && decide (x.found = [])
  | _ => false)) = true := by decide +kernel

theorem witness_TallyAndSelfTests_13 : (
  let s : State := testing 1 [(3,4),(5,6)]
  let p : Sys2Proof.Path := Path.mgmt
  (match s.mgt.test with
  | some x =>
    (match x.found with
    | (a, i) :: l =>
      (s.busOn) && (s.modeLets p A.MGT_ST_CTRL)
    | _ => false)
  | _ => false)) = true := by decide +kernel

theorem witness_TallyAndSelfTests_14 : (
  let s : State := run
  let items : List (Nat × Nat) := ([] : List (Nat × Nat))
  (s.managed) && decide (s.mgt.test = none)) = true := by decide +kernel

theorem witness_TallyAndSelfTests_15 : (
  let s : State := testing 1 []
  let items : List (Nat × Nat) := ([] : List (Nat × Nat))
  (match s.mgt.test with
  | some x =>
    let l :=
    List.flatMap (fun a => List.map (fun i => (a, i)) (s.areaFails a) ++ List.filter (fun y => y.1 == a) items) (List.range 13)
    (s.managed) && decide (x.kind = 1) && decide (l = [])
  | _ => false)) = true := by decide +kernel

theorem witness_TallyAndSelfTests_16 : (
  let s : State := testing 1 []
  let items : List (Nat × Nat) := ([(3,1)] : List (Nat × Nat))
  (match s.mgt.test with
  | some x =>
    let l :=
    List.flatMap (fun a => List.map (fun i => (a, i)) (s.areaFails a) ++ List.filter (fun y => y.1 == a) items) (List.range 13)
    (match l with
    | (a, i) :: m =>
      (s.managed) && decide (x.kind = 1)
    | _ => false)
  | _ => false)) = true := by decide +kernel

theorem witness_TallyAndSelfTests_17 : (
  let s : State := testing 2 []
  let items : List (Nat × Nat) := ([] : List (Nat × Nat))
  (match s.mgt.test with
  | some x =>
    (s.managed) && decide (x.kind = 2) && ((List.range 8).all fun g => decide ((s.patrol g).ext = none)) && decide (x.found =
    [])
  | _ => false)) = true := by decide +kernel

theorem witness_TallyAndSelfTests_18 : (
  let s : State := testPatrol
  let items : List (Nat × Nat) := ([] : List (Nat × Nat))
  (match s.mgt.test with
  | some x =>
    (s.managed) && decide (x.kind = 2) && ((List.range 8).any fun g => (s.patrol g).ext.isSome)
  | _ => false)) = true := by decide +kernel

theorem witness_FirmwareAndDebug_1 : (
  let s : State := run
  let p : Sys2Proof.Path := Path.mgmt
  (s.busOn) && (s.modeLets p A.MGT_FW_CTRL) && decide (s.activation = none) && decide (s.stagedImage = none)) = true := by decide +kernel

theorem witness_FirmwareAndDebug_2 : (
  let s : State := fwBusy
  let p : Sys2Proof.Path := Path.mgmt
  (s.busOn) && (s.modeLets p A.MGT_FW_CTRL) && (s.activation.isSome)) = true := by decide +kernel

theorem witness_FirmwareAndDebug_4 : (
  let s : State := run
  let p : Sys2Proof.Path := Path.mgmt
  let a : Nat := 5
  (s.busOn) && (s.modeLets p A.MGT_FW_DATA) && decide (s.mgt.fwOver = false) && decide (s.mgt.fwOffset + 4 ≤ stagingSize) &&
  (Mem.wf 0 s.wdn.staging) && decide (a < s.mgt.fwOffset ∨ s.mgt.fwOffset + 4 ≤ a)) = true := by decide +kernel

theorem witness_FirmwareAndDebug_5 : (
  let s : State := withMgt (fun m => {m with fwOver := true})
  let p : Sys2Proof.Path := Path.mgmt
  (s.busOn) && (s.modeLets p A.MGT_FW_DATA) && (s.mgt.fwOver)) = true := by decide +kernel

theorem witness_FirmwareAndDebug_6 : (
  let s : State := withMgt (fun m => {m with fwOffset := 0x100000 - 3})
  let p : Sys2Proof.Path := Path.mgmt
  (s.busOn) && (s.modeLets p A.MGT_FW_DATA) && decide (s.mgt.fwOver = false) && decide (stagingSize < s.mgt.fwOffset + 4)) = true := by decide +kernel

theorem witness_FirmwareAndDebug_7 : (
  let s : State := run
  let p : Sys2Proof.Path := Path.mgmt
  (s.busOn) && (s.modeLets p A.MGT_DBG_DATA)) = true := by decide +kernel

theorem witness_FirmwareAndDebug_8 : (
  let s : State := run
  let l : List Byte := run.mgt.dbg
  let k : Nat := leAt run.mgt.dbg 20 1
  let p : Sys2Proof.Path := Path.mgmt
  (s.busOn) && (s.modeLets p A.MGT_DBG_CMD) && decide (s.mgt.dbg = l) && decide (k = leAt l 20 1) && decide (s.dbgCode l ≠ 0)) = true := by decide +kernel

theorem witness_FirmwareAndDebug_10 : (
  let l : List Byte := dbgHead ++ dbgSig
  true) = true := by decide +kernel

theorem witness_FirmwareAndDebug_11 : (
  let s : State := run
  let n : Nat := 0
  let up : Bool := true
  let e : Bool := true
  let k : Nat := 0
  (s.busOn) && decide ((s.sp 32).link = false) && (up && s.spEn 32) && decide (k ≠ 32)) = true := by decide +kernel

theorem witness_FirmwareAndDebug_12 : (
  let s : State := run
  let n : Nat := 0
  let up : Bool := false
  let e : Bool := true
  let k : Nat := 0
  (s.busOn) && decide ((s.sp 32).link = (up && s.spEn 32)) && decide (k ≠ 32)) = true := by decide +kernel

theorem witness_FirmwareAndDebug_13 : (
  let s : State := ledgerUp
  let n : Nat := 0
  let up : Bool := false
  let e : Bool := true
  (s.busOn) && ((s.sp 32).link) && decide ((up && s.spEn 32) = false)) = true := by decide +kernel

theorem witness_BootAndFlash_1 : (
  let s : State := run
  let n : Nat := 0
  let a : Nat := 0
  decide (n < 24) && decide (s.glb.phase = ChipPhase.running) && decide (a ≠ A.GLB_RESET_CAUSE)) = true := by decide +kernel

theorem witness_BootAndFlash_2 : (
  let s : State := inPhase .powerHold
  decide (s.glb.phase = ChipPhase.powerHold)) = true := by decide +kernel

theorem witness_BootAndFlash_3 : (
  let s : State := inPhase .held
  decide (s.glb.phase = .held)) = true := by decide +kernel

theorem witness_BootAndFlash_4 : (
  let s : State := inPhase .powerHold
  decide (s.glb.phase = ChipPhase.lossDump ∨ s.glb.phase = ChipPhase.powerHold)) = true := by decide +kernel

theorem witness_BootAndFlash_5 : (
  let s : State := run
  let p : Sys2Proof.Path := Path.mgmt
  let n : Nat := 0x5A
  (s.modeLets p A.GLB_RESET) && decide (s.glb.phase = ChipPhase.running)) = true := by decide +kernel

theorem witness_BootAndFlash_6 : (
  let s : State := run
  let p : Sys2Proof.Path := Path.mgmt
  let n : Nat := 0
  (s.modeLets p A.GLB_RESET) && decide (n ≠ 90)) = true := by decide +kernel

theorem witness_BootAndFlash_7 : (
  let s : State := inPhase .lossDump
  let p : Sys2Proof.Path := Path.mgmt
  let n : Nat := 0x5A
  (s.modeLets p A.GLB_RESET) && decide (s.glb.phase = ChipPhase.lossDump)) = true := by decide +kernel

theorem witness_BootAndFlash_8 : (
  let s : State := inPhase (.resetDump 2)
  let c : Nat := 2
  let a : Nat := 0
  decide (s.glb.phase = ChipPhase.resetDump c) && decide (c < 8) && decide (a ≠ A.GLB_RESET_CAUSE)) = true := by decide +kernel

theorem witness_BootAndFlash_9 : (
  let s : State := run
  let ms : Nat := 5
  let mode : Nat := 0
  let bad : List Nat := ([] : List Nat)
  decide (s.glb.phase ≠ ChipPhase.held)) = true := by decide +kernel

theorem witness_BootAndFlash_10 : (
  let s : State := inPhase .held
  let ms : Nat := 5
  let mode : Nat := 0
  let i : Nat := 0
  decide (s.glb.phase = ChipPhase.held) && decide (s.bootChoice = none) && decide (s.attic.cores = []) && decide (s.wdn.cores =
  []) && decide (ms < 4096) && decide (mode < 4) && decide (i < 128) && decide (s.fwChoice = none)) = true := by decide +kernel

theorem witness_BootAndFlash_12 : (
  let s : State := run
  let n : Nat := 0
  decide (s.glb.phase = ChipPhase.running) && decide (s.asleep = false) && decide (s.draining = false) && decide
  (s.bay.powerLoss = false) && decide (n < 24)) = true := by decide +kernel

theorem witness_BootAndFlash_13 : (
  let s : State := run
  let p : Sys2Proof.Path := Path.mgmt
  let n : Nat := 0
  let c : Instr := Instr.spiRead Path.mgmt 0
  let cmd : Nat := 1
  let len : Nat := 0
  (s.busOn) && (s.modeLets p A.GLB_SPI_CTRL) && decide ((c, cmd, len) ∈ [(Instr.spiRead p n, 1, n), (Instr.spiProgram p n, 2,
  n), (Instr.erase4k p, 3, 0), (Instr.erase64k p, 4, 0)]) && decide (s.glb.spi = none)) = true := by decide +kernel

theorem witness_BootAndFlash_14 : (
  let s : State := spi 1 4090 10 [(4090, 3), (4096, 5), (4097, 15), (65530, 9), (70000, 8)] run
  let p : Sys2Proof.Path := Path.mgmt
  let n : Nat := 0
  let c : Instr := Instr.spiRead Path.mgmt 0
  let cmd : Nat := 1
  let len : Nat := 0
  (s.busOn) && (s.modeLets p A.GLB_SPI_CTRL) && decide ((c, cmd, len) ∈ [(Instr.spiRead p n, 1, n), (Instr.spiProgram p n, 2,
  n), (Instr.erase4k p, 3, 0), (Instr.erase64k p, 4, 0)]) && (s.glb.spi.isSome)) = true := by decide +kernel

theorem witness_BootAndFlash_15 : (
  let s : State := run
  let b : Bool := true
  (s.managed) && decide (s.glb.spi = none)) = true := by decide +kernel

theorem witness_BootAndFlash_16 : (
  let s : State := spi 1 4090 10 [(4090, 3), (4096, 5), (4097, 15), (65530, 9), (70000, 8)] run
  let a : Nat := 4090
  let n : Nat := 10
  let b : Bool := true
  let x : Nat := 0
  (match s.glb.spi with
  | some r =>
    (s.managed) && decide ((r.cmd = 1 ∨ r.cmd = 2) ∧ a = r.addr ∧ n = r.len ∨ r.cmd = 3 ∧ a = r.addr / 4096 * 4096 ∧ n = 4096 ∨
    r.cmd = 4 ∧ a = r.addr / 65536 * 65536 ∧ n = 65536) && decide (¬(r.cmd ≠ 1 ∧ (s.flashGuarded.any fun x => rangesMeet a n x.1
    x.2) = true)) && decide (a + n ≤ s.flash.size) && (b) && decide (x < a ∨ a + n ≤ x)
  | _ => false)) = true := by decide +kernel

theorem witness_BootAndFlash_17 : (
  let s : State := spi 1 4090 10 [(4090, 3), (4096, 5), (4097, 15), (65530, 9), (70000, 8)] run
  let a : Nat := 4090
  let n : Nat := 10
  let b : Bool := false
  let i : Nat := 0
  (match s.glb.spi with
  | some r =>
    (s.managed) && decide ((r.cmd = 1 ∨ r.cmd = 2) ∧ a = r.addr ∧ n = r.len ∨ r.cmd = 3 ∧ a = r.addr / 4096 * 4096 ∧ n = 4096 ∨
    r.cmd = 4 ∧ a = r.addr / 65536 * 65536 ∧ n = 65536) && decide (¬(r.cmd ≠ 1 ∧ (s.flashGuarded.any fun x => rangesMeet a n x.1
    x.2) = true)) && decide (a + n ≤ s.flash.size) && decide (r.cmd = 1) && decide (b = false) && decide (i < n) && decide (i <
    64)
  | _ => false)) = true := by decide +kernel

theorem witness_BootAndFlash_18 : (
  let s : State := spi 2 4090 10 [(4090, 3), (4096, 5), (4097, 15), (65530, 9), (70000, 8)] run
  let a : Nat := 4090
  let n : Nat := 10
  let b : Bool := false
  let i : Nat := 0
  (match s.glb.spi with
  | some r =>
    (match r.data[i]? with
    | some v =>
      (s.managed) && decide ((r.cmd = 1 ∨ r.cmd = 2) ∧ a = r.addr ∧ n = r.len ∨ r.cmd = 3 ∧ a = r.addr / 4096 * 4096 ∧ n = 4096
      ∨ r.cmd = 4 ∧ a = r.addr / 65536 * 65536 ∧ n = 65536) && decide (¬(r.cmd ≠ 1 ∧ (s.flashGuarded.any fun x => rangesMeet a n
      x.1 x.2) = true)) && decide (a + n ≤ s.flash.size) && decide (r.cmd = 2) && decide (b = false) && decide (i < n)
    | _ => false)
  | _ => false)) = true := by decide +kernel

theorem witness_BootAndFlash_19 : (
  let s : State := spi 3 4100 0 [(4090, 3), (4096, 5), (4097, 15), (65530, 9), (70000, 8)] run
  let a : Nat := 4096
  let n : Nat := 4096
  let b : Bool := false
  let i : Nat := 0
  (match s.glb.spi with
  | some r =>
    (s.managed) && decide ((r.cmd = 1 ∨ r.cmd = 2) ∧ a = r.addr ∧ n = r.len ∨ r.cmd = 3 ∧ a = r.addr / 4096 * 4096 ∧ n = 4096 ∨
    r.cmd = 4 ∧ a = r.addr / 65536 * 65536 ∧ n = 65536) && decide (¬(r.cmd ≠ 1 ∧ (s.flashGuarded.any fun x => rangesMeet a n x.1
    x.2) = true)) && decide (a + n ≤ s.flash.size) && decide (r.cmd = 3 ∨ r.cmd = 4) && decide (b = false) && decide (i < n)
  | _ => false)) = true := by decide +kernel

theorem witness_BootAndFlash_20 : (
  let s : State := spi 1 (2^25 - 5) 10 [(4090, 3), (4096, 5), (4097, 15), (65530, 9), (70000, 8)] run
  let a : Nat := 2^25 - 5
  let n : Nat := 10
  let b : Bool := true
  (match s.glb.spi with
  | some r =>
    (s.managed) && decide ((r.cmd = 1 ∨ r.cmd = 2) ∧ a = r.addr ∧ n = r.len ∨ r.cmd = 3 ∧ a = r.addr / 4096 * 4096 ∧ n = 4096 ∨
    r.cmd = 4 ∧ a = r.addr / 65536 * 65536 ∧ n = 65536) && decide (¬(r.cmd ≠ 1 ∧ (s.flashGuarded.any fun x => rangesMeet a n x.1
    x.2) = true)) && decide (s.flash.size < a + n)
  | _ => false)) = true := by decide +kernel

theorem witness_BootAndFlash_21 : (
  let s : State := spi 2 0x900100 10 [(4090, 3), (4096, 5), (4097, 15), (65530, 9), (70000, 8)] guarded
  let a : Nat := 0x900100
  let n : Nat := 10
  let b : Bool := true
  (match s.glb.spi with
  | some r =>
    (s.managed) && decide ((r.cmd = 1 ∨ r.cmd = 2) ∧ a = r.addr ∧ n = r.len ∨ r.cmd = 3 ∧ a = r.addr / 4096 * 4096 ∧ n = 4096 ∨
    r.cmd = 4 ∧ a = r.addr / 65536 * 65536 ∧ n = 65536) && decide (r.cmd ≠ 1) && (s.flashGuarded.any fun x => rangesMeet a n x.1
    x.2)
  | _ => false)) = true := by decide +kernel

theorem witness_BootAndFlash_22 : (
  let s : State := run
  let l : Nat := max 90 (min 130 (run.fld F.GLB_THERM_LIMIT))
  let temp : ℤ := (-128 : Int)
  (s.busOn) && decide (-128 ≤ temp) && decide (temp < 128) && decide (l = max 90 (min 130 (s.fld F.GLB_THERM_LIMIT))) && decide
  (temp ≤ ↑l - 3)) = true := by decide +kernel

theorem witness_CompletionsAndAborts_1 : (
  let s : State := aborting
  let c : Nat := 5
  (match s.adminCmd c 35 with
  | some (key, x) =>
    let tgt := namedQueue key x * 32 + x.arg0 / 256 % 32
    (match Tab.find? tgt s.cq.slots with
    | some y =>
      (match s.queue? (queueOf tgt) with
      | some q =>
        (match q.ring with
        | some tok =>
          (s.awake) && decide (s.cmd? y.order = some (tgt, y)) && decide (getPart y.cap Cap.incarnation = x.arg0 / 65536) &&
          decide (y.state ≠ SlotState.completing) && decide (y.stopped = false) && decide (y.order ≠ c) && decide (s.str.live =
          []) && decide (s.trn.held = []) && decide (s.trn.tx = []) && decide (s.saState y.sa = Sas.active) && (s.roomFor y.sa
          (msgOf Opcode.place 16 0 0 (MsgUse.completion y.order) MsgData.none))
        | _ => false)
      | _ => false)
    | _ => false)
  | _ => false)) = true := by decide +kernel

theorem witness_CompletionsAndAborts_2 : (
  let s : State := adm 0x43 1 0 0
  let c : Nat := 0
  (match s.adminCmd c 67 with
  | some (key, x) =>
    (s.awake)
  | _ => false)) = true := by decide +kernel

theorem witness_CompletionsAndAborts_3 : (
  let s : State := adm 0x44 1 1 0
  let c : Nat := 0
  let e : Nat := 0
  (match s.adminCmd c 68 with
  | some (key, x) =>
    (s.awake) && decide (x.arg0 = 1 ∨ x.arg0 = 2) && decide (x.arg0 = 1) && decide (e ≠ endpointOf key)
  | _ => false)) = true := by decide +kernel

theorem witness_CompletionsAndAborts_4 : (
  let s : State := adm 0x44 2 1 0
  let c : Nat := 0
  (match s.adminCmd c 68 with
  | some (key, x) =>
    (s.awake) && decide (x.arg0 = 1 ∨ x.arg0 = 2) && decide (x.arg0 = 2)
  | _ => false)) = true := by decide +kernel

theorem witness_AdminCommands_1 : (
  let s : State := adm 0x30 1 0 0
  let c : Nat := 0
  (match s.adminCmd c 48 with
  | some (key, x) =>
    (s.awake) && decide (s.mgt.test = none) && decide (x.arg0 = 1)
  | _ => false)) = true := by decide +kernel

theorem witness_AdminCommands_2 : (
  let s : State := adm 0x30 2 0 0
  let c : Nat := 0
  let g : Nat := 0
  (match s.adminCmd c 48 with
  | some (key, x) =>
    (match exec (Instr.selfTestStart c) s with
    | Host.Outcome.next t =>
      (match t.mgt.test with
      | some z =>
        (s.awake) && decide (s.mgt.test = none) && decide (x.arg0 = 2) && decide (g ∈ s.testGroups)
      | _ => false)
    | _ => false)
  | _ => false)) = true := by decide +kernel

theorem witness_AdminCommands_3 : (
  let s : State := { adm 0x31 0 0 0 with mgt := (testing 1 []).mgt }
  let c : Nat := 0
  (match s.adminCmd c 49 with
  | some (key, x) =>
    (s.awake) && decide (s.mgt.test ≠ none)
  | _ => false)) = true := by decide +kernel

theorem witness_AdminCommands_4 : (
  let s : State := adm 0x32 0 0 0
  let c : Nat := 0
  (match s.adminCmd c 50 with
  | some (key, x) =>
    (s.awake)
  | _ => false)) = true := by decide +kernel

theorem witness_AdminCommands_5 : (
  let s : State := adm 0x41 0 0 (dataTok 4096)
  let c : Nat := 0
  (match s.adminCmd c 65 with
  | some (key, x) =>
    (s.awake) && decide (4096 ≤ getPart (dataToken x.cap) Token.length) && decide (s.saState x.sa = Sas.active) && decide
    (s.trn.held = []) && (s.roomFor x.sa (msgOf Opcode.place 16 0 0 (MsgUse.completion c) MsgData.none))
  | _ => false)) = true := by decide +kernel

theorem witness_AdminCommands_6 : (
  let s : State := adm 0x42 1 0 (dataTok 512)
  let c : Nat := 0
  (match s.adminCmd c 66 with
  | some (key, x) =>
    (s.awake) && decide (4 ≤ getPart (dataToken x.cap) Token.length) && decide (getPart (dataToken x.cap) Token.length ≤ 65536)
    && decide (s.saState x.sa = Sas.active) && decide (s.trn.held = []) && (s.roomFor x.sa (msgOf Opcode.place 16 0 0
    (MsgUse.completion c) MsgData.none))
  | _ => false)) = true := by decide +kernel

theorem witness_CapsuleAcceptance_1 : (
  let s : State := intake (admCap 0x32 0 0 0)
  let w : Bool := false
  (match s.cq.intake with
  | (cap, sa, port) :: rest =>
    let k := s.saGet sa Sa.endpoint * 64 + capQueue cap
    let key := k * 32 + capTag cap
    (match s.queue? k with
    | some q =>
      (match exec Instr.capsuleAccept s with
      | Host.Outcome.next t =>
        (match Tab.find? key t.cq.slots with
        | some x =>
          (s.awake) && decide (s.draining = false) && (s.is F.CQ_CTRL_EN) && ((s.ep (s.saGet sa Sa.endpoint)).enabled) && decide
          (q.state = QueueState.active) && decide (getPart cap Cap.incarnation = s.incarnation k) && decide (s.hst.pantryPoison
          = []) && decide (Tab.find? key s.cq.slots = none) && decide (q.ring = some (ringToken cap)) && decide (s.validate k
          port cap = Except.ok w) && decide (s.cq.slots = [])
        | _ => false)
      | _ => false)
    | _ => false)
  | _ => false)) = true := by decide +kernel

theorem witness_CapsuleAcceptance_2 : (
  let s : State := intake (putPart (ioCap 1 2 3) Cap.incarnation 8)
  let w : Bool := true
  (match s.cq.intake with
  | (cap, sa, port) :: rest =>
    let k := s.saGet sa Sa.endpoint * 64 + capQueue cap
    let key := k * 32 + capTag cap
    (match s.queue? k with
    | some q =>
      (s.awake) && decide (s.draining = false) && (s.is F.CQ_CTRL_EN) && ((s.ep (s.saGet sa Sa.endpoint)).enabled) && decide
      (q.state = QueueState.active) && decide (getPart cap Cap.incarnation ≠ s.incarnation k)
    | _ => false)
  | _ => false)) = true := by decide +kernel

theorem witness_CapsuleAcceptance_3 : (
  let s : State := waitCmd 0
  let c : Nat := 0
  (match s.cmd? c with
  | some (k, x) =>
    (s.awake) && decide (x.state = SlotState.waiting) && decide (x.wait ≠ CmdWait.finished) && (s.orderClear k x) && decide (k /
    32 % 64 = 0) && decide (x.wait = CmdWait.running)
  | _ => false)) = true := by decide +kernel

theorem witness_CapsuleAcceptance_4 : (
  let s : State := waitCmd 1
  let c : Nat := 0
  (match s.cmd? c with
  | some (k, x) =>
    (s.awake) && decide (x.state = SlotState.waiting) && decide (x.wait ≠ CmdWait.finished) && (s.orderClear k x) && decide (k /
    32 % 64 ≠ 0)
  | _ => false)) = true := by decide +kernel

theorem witness_CompletionsAndAborts_5 : (
  let s : State := doneCmd
  let c : Nat := 0
  (match s.cmd? c with
  | some (k, x) =>
    (match s.queue? (queueOf k) with
    | some q =>
      (match q.ring with
      | some tok =>
        (s.awake) && decide (x.state ≠ SlotState.completing) && decide (x.wait = CmdWait.finished) && decide (s.dataUnsent c =
        false) && decide (s.str.live = []) && decide (s.saState x.sa = Sas.active) && (s.roomFor x.sa (msgOf Opcode.place 16 0 0
        (MsgUse.completion c) MsgData.none)) && decide (s.trn.held = [])
      | _ => false)
    | _ => false)
  | _ => false)) = true := by decide +kernel

theorem witness_CompletionsAndAborts_6 : (
  let s : State := late 8000000000 (withCmd (cmdOf (ioCap 2 0 1)))
  let c : Nat := 0
  (match s.cmd? c with
  | some (k, x) =>
    (s.awake) && decide (x.state ≠ SlotState.completing) && decide (x.accepted + 8000000000 ≤ s.now) && decide (x.timedOut =
    false)
  | _ => false)) = true := by decide +kernel

theorem witness_QueueCommands_4 : (
  let s : State := vshelf
  let p : Sys2Proof.Path := Path.mgmt
  let e : Nat := 2
  let k : Nat := 64
  let f : Nat := 0
  (match s.freeQueueSlot with
  | some n =>
    (s.busOn) && (s.modeLets p A.CQ_CMD) && decide (s.cq.run = none) && decide ((s.ep e).enabled = false) && decide (k ≠ e * 64)
    && decide (f ≠ e)
  | _ => false)) = true := by decide +kernel

theorem witness_QueueCommands_5 : (
  let s : State := onCq (fun q => {q with queues := []}) vshelf
  let p : Sys2Proof.Path := Path.mgmt
  let e : Nat := 1
  (s.up) && (s.modeLets p A.CQ_CMD) && decide (s.cq.run = none) && ((s.ep e).enabled) && decide (s.ioQueues e = [])) = true := by decide +kernel

theorem witness_QueueCommands_6 : (
  let s : State := disabling
  let p : Sys2Proof.Path := Path.mgmt
  let e : Nat := 1
  (match s.queue? (e * 64) with
  | some q =>
    (s.up) && (s.modeLets p A.CQ_CMD) && decide (s.cq.run = some (CqRun.disable e)) && decide (s.ioQueues e = []) && decide
    (q.state = QueueState.resetting) && (s.queueQuiet (e * 64))
  | _ => false)) = true := by decide +kernel

theorem witness_QueueCommands_7 : (
  let s : State := vshelf
  let p : Sys2Proof.Path := Path.mgmt
  let k : Nat := 64
  (match exec (Instr.controllerReset p) s with
  | Host.Outcome.next t =>
    (match t.queue? k with
    | some q =>
      (s.up) && (s.modeLets p A.CQ_CMD) && decide (s.cq.run = none)
    | _ => false)
  | _ => false)) = true := by decide +kernel

theorem witness_QueueCommands_8 : (
  let s : State := vshelf
  let p : Sys2Proof.Path := Path.mgmt
  let k : Nat := 64
  (match s.queue? k with
  | some q =>
    (s.up) && (s.modeLets p A.CQ_CMD) && decide (s.cq.run = none) && (s.cq.queues.sorted)
  | _ => false)) = true := by decide +kernel

theorem witness_QueueCommands_9 : (
  let s : State := resetRun
  let p : Sys2Proof.Path := Path.mgmt
  let k : Nat := 64
  (match exec (Instr.controllerReset p) s with
  | Host.Outcome.next t =>
    (match t.queue? k with
    | some q =>
      (s.up) && (s.modeLets p A.CQ_CMD) && decide (s.cq.run = some (CqRun.controller true)) && decide (∀ x ∈ s.cq.queues,
      s.queueQuiet x.1 = true)
    | _ => false)
  | _ => false)) = true := by decide +kernel

theorem witness_AdminCommands_7 : (
  let s : State := adm 0x45 8192 0 (dataTok 4096)
  let c : Nat := 0
  (match s.adminCmd c 69 with
  | some (key, x) =>
    let n := getPart (dataToken x.cap) Token.length
    (match s.findStaging n with
    | some a =>
      (s.awake) && decide (0 < n) && decide (n % 4096 = 0) && decide (n ≤ 1048576) && decide (x.arg0 + n ≤ stagingSize) &&
      decide (s.wdn.staged = []) && decide (s.activation = none) && decide (x.started = false) && decide (s.saState x.sa =
      Sas.active) && decide (s.trn.held = []) && (s.roomFor x.sa (msgOf Opcode.fetch 16 0 0 (MsgUse.fetch c) MsgData.none))
    | _ => false)
  | _ => false)) = true := by decide +kernel

theorem witness_AdminCommands_8 : (
  let s : State := segFetched
  let c : Nat := 0
  let i : Nat := 0
  (match s.adminCmd c 69 with
  | some (key, x) =>
    let n := getPart (dataToken x.cap) Token.length
    (match x.staging with
    | some a =>
      (s.awake) && decide (0 < n) && decide (n % 4096 = 0) && decide (n ≤ 1048576) && decide (x.arg0 + n ≤ stagingSize) &&
      decide (s.wdn.staged = []) && decide (s.activation = none) && (x.started) && decide (x.fetches = []) && decide (s.trn.held
      = []) && decide (s.rangePoison a n = false) && decide (i < n) && decide (i < x.arg0 ∨ x.arg0 + n ≤ i)
    | _ => false)
  | _ => false)) = true := by decide +kernel

theorem witness_DataCommands_1 : (
  let s : State := hitShelf
  let c : Nat := 0
  let j : Nat := 0
  (match s.cmd? c with
  | some (k, x) =>
    (match s.findLine x.volume (x.lba / 64) 2 with
    | some i =>
      (s.awake) && decide (x.opcode = 1) && decide (x.stopped = false) && decide (x.started = false) && decide (x.state =
      SlotState.executing) && decide (x.wait = CmdWait.running) && decide (s.stepHolds x = false) && decide (1 ≤ x.blockCount)
      && decide (x.lba % 64 + x.blockCount ≤ 64) && decide (s.volAttr x.volume 3 = false) && decide (s.str.live = []) && decide
      (x.fails = []) && decide (s.saState x.sa = Sas.active) && decide (j < x.blockCount)
    | _ => false)
  | _ => false)) = true := by decide +kernel

theorem witness_DataCommands_2 : (
  let s : State := readMiss
  let c : Nat := 0
  let j : Nat := 0
  (match s.cmd? c with
  | some (k, x) =>
    (match (s.translate c).cmd? c with
    | some (k2, z) =>
      (s.awake) && decide (x.opcode = 1) && decide (x.stopped = false) && decide (x.started = false) && decide (x.state =
      SlotState.executing) && decide (x.wait = CmdWait.running) && decide (s.stepHolds x = false) && decide (s.saState x.sa =
      Sas.active) && decide (j < x.blockCount) && decide (k2 = k)
    | _ => false)
  | _ => false)) = true := by decide +kernel

theorem witness_DataCommands_3 : (
  let s : State := withCmd {cmdOf (ioCap 3 0 0) with started := true}
  let c : Nat := 0
  (match s.cmd? c with
  | some (k, x) =>
    (s.awake) && (x.runs_ 3) && decide (x.covers = [])
  | _ => false)) = true := by decide +kernel

theorem witness_DataCommands_4 : (
  let s : State := flushFailed
  let c : Nat := 0
  (match s.cmd? c with
  | some (k, x) =>
    (s.awake) && (x.runs_ 3) && decide (∃ n ∈ x.covers, ∃ w, s.live? n = some w ∧ s.groupState w.group = 4)
  | _ => false)) = true := by decide +kernel

theorem witness_SecurityAssociations_5 : (
  let s : State := saShelf 0 []
  let p : Sys2Proof.Path := Path.mgmt
  let w : Nat := 0
  let k : Nat := 4
  (s.busOn) && (s.modeLets p A.TRN_SA_CMD) && decide (s.saState s.saSel = Sas.invalid) && (s.saKeyed s.saSel) && decide
  (s.saMark s.saSel < 2 ^ 64) && decide (w < 16) && decide (k ≠ s.saSel)) = true := by decide +kernel

theorem witness_SecurityAssociations_6 : (
  let s : State := saShelf 1 []
  let p : Sys2Proof.Path := Path.mgmt
  let n : Nat := 4
  (s.busOn) && (s.modeLets p A.TRN_SA_CMD) && decide (s.saState s.saSel = Sas.active) && decide (n ≠ s.saSel) && decide
  (s.saState n = Sas.active)) = true := by decide +kernel

theorem witness_SecurityAssociations_7 : (
  let s : State := saShelf 0 []
  let p : Sys2Proof.Path := Path.mgmt
  let w : Nat := 0
  let v : Word := (0xA5A5A5A5 : Word)
  let k : Nat := 3
  (s.busOn) && (s.modeLets p (A.TRN_SA_WORD w)) && decide (w < 64) && (s.entryExists 0x05 s.saSel) && decide (s.saState s.saSel = Sas.invalid) && decide (k <
  64) && decide (k ≠ w)) = true := by decide +kernel

theorem witness_SecurityAssociations_8 : (
  let s : State := saShelf 0 []
  let p : Sys2Proof.Path := Path.mgmt
  let w : Nat := 0
  let v : Word := (0xA5A5A5A5 : Word)
  let k : Nat := 4
  (s.busOn) && (s.modeLets p (A.TRN_SA_WORD w)) && decide (w < 64) && (s.entryExists 0x05 s.saSel) && decide (s.saState s.saSel = Sas.invalid) && decide (k ≠
  s.saSel)) = true := by decide +kernel

theorem witness_SecurityAssociations_9 : (
  let s : State := saShelf 1 []
  let p : Sys2Proof.Path := Path.mgmt
  let w : Nat := 0
  let v : Word := (0xA5A5A5A5 : Word)
  (s.busOn) && (s.modeLets p (A.TRN_SA_WORD w)) && decide (w < 64) && (s.entryExists 0x05 s.saSel) && decide (s.saState s.saSel ≠ Sas.invalid) && decide (w < 12
  ∨ 16 ≤ w)) = true := by decide +kernel

theorem witness_SecurityAssociations_10 : (
  let s : State := saShelf 1 []
  let p : Sys2Proof.Path := Path.mgmt
  let w : Nat := 12
  let v : Word := (0xA5A5A5A5 : Word)
  (s.busOn) && (s.modeLets p (A.TRN_SA_WORD w)) && decide (w < 64) && (s.entryExists 0x05 s.saSel) && decide (s.saState s.saSel ≠ Sas.invalid) && decide (12 ≤
  w) && decide (w < 16)) = true := by decide +kernel

theorem witness_SecurityAssociations_11 : (
  let s : State := (saShelf 0 []).setFld F.TRN_SA_SEL_SA 8191
  let p : Sys2Proof.Path := Path.mgmt
  let w : Nat := 63
  (s.busOn) && (s.modeLets p (A.TRN_SA_WORD w)) && decide (w < 64) && decide (s.entryExists 0x05 s.saSel = false)) = true := by decide +kernel

theorem witness_DataCommands_7 : (
  let s : State := verifyNew
  let c : Nat := 0
  let bad : List (Nat × Nat) := ([] : List (Nat × Nat))
  (match s.cmd? c with
  | some (k, x) =>
    (match (s.translate c).cmd? c with
    | some (k2, z) =>
      (s.awake) && (x.runs_ 4) && decide (x.started = false) && decide (s.stepHolds x = false) && decide (k2 = k)
    | _ => false)
  | _ => false)) = true := by decide +kernel

theorem witness_WindowKeys_1 : (
  let s : State := keyShelf (keyEntry 1 2 0 3) false true
  let n : Nat := 8
  (match List.find? (fun x => x.name == n && x.ended) s.win.accesses with
  | some a =>
    (s.awake) && (s.keyExists a.key) && decide (a.old = false) && decide (getPart (s.keyEnt a.key) Key.state = Keys.valid)
  | _ => false)) = true := by decide +kernel

theorem witness_WindowKeys_2 : (
  let s : State := keyShelf (keyEntry 2 0 1 3) true true
  let n : Nat := 8
  (match List.find? (fun x => x.name == n && x.ended) s.win.accesses with
  | some a =>
    (s.awake) && (s.keyExists a.key) && (a.old) && decide (getPart (s.keyEnt a.key) Key.inflightOld = 1) && decide (getPart
    (s.keyEnt a.key) Key.state = Keys.rotating)
  | _ => false)) = true := by decide +kernel

theorem witness_WindowKeys_3 : (
  let s : State := keyShelf (keyEntry 3 0 1 3) true true
  let n : Nat := 8
  (match List.find? (fun x => x.name == n && x.ended) s.win.accesses with
  | some a =>
    (s.awake) && (s.keyExists a.key) && (a.old) && decide (getPart (s.keyEnt a.key) Key.inflightOld = 1) && decide (getPart
    (s.keyEnt a.key) Key.state = Keys.revoking)
  | _ => false)) = true := by decide +kernel

theorem witness_WindowKeys_4 : (
  let s : State := keyShelf (keyEntry 3 0 2 3) true true
  let n : Nat := 8
  (match List.find? (fun x => x.name == n && x.ended) s.win.accesses with
  | some a =>
    (s.awake) && (s.keyExists a.key) && (a.old) && decide (1 < getPart (s.keyEnt a.key) Key.inflightOld)
  | _ => false)) = true := by decide +kernel

theorem witness_WindowKeys_5 : (
  let s : State := late 1000000000 (keyShelf (keyEntry 4 0 0 65535) false false)
  let k : Nat := 5
  let j : Nat := 6
  (s.awake) && (s.keyExists k) && decide (getPart (s.keyEnt k) Key.state = Keys.retired) && decide (getPart (s.keyEnt k)
  Key.inflightOld = 0) && decide (j ≠ k) && decide (Tab.find? k s.win.fences = none)) = true := by decide +kernel

theorem witness_WindowKeys_6 : (
  let s : State := commitHeld
  let rest : List HeldCommit := commitHeld.win.held.tail
  (match s.win.held with
  | h :: rest2 =>
    (s.awake) && decide (rest2 = rest) && !h.writing && s.commitReady h && (rest2.all fun x => decide (x.access ≠ h.access))
  | _ => false)) = true := by decide +kernel

theorem witness_WindowKeys_7 : (
  let s : State := keyShelf (keyEntry 0 0 0 1) false false
  let p : Sys2Proof.Path := Path.mgmt
  let k : Nat := 6
  (s.busOn) && (s.modeLets p A.WIN_CMD) && (s.bindOk (s.fld F.WIN_SEL_KEY)) && decide (k ≠ s.fld F.WIN_SEL_KEY)) = true := by decide +kernel

theorem witness_WindowKeys_8 : (
  let s : State := keyShelf (keyEntry 1 0 0 3) false false
  let p : Sys2Proof.Path := Path.mgmt
  (s.busOn) && (s.modeLets p A.WIN_CMD) && decide (s.bindOk (s.fld F.WIN_SEL_KEY) = false)) = true := by decide +kernel

theorem witness_WindowKeys_9 : (
  let s : State := keyShelf (keyEntry 1 0 0 3) false false
  let k : Nat := (keyShelf (keyEntry 1 0 0 3) false false).fld F.WIN_SEL_KEY
  let p : Sys2Proof.Path := Path.mgmt
  (s.busOn) && (s.modeLets p A.WIN_CMD) && decide (k = s.fld F.WIN_SEL_KEY) && (s.keyExists k) && decide (getPart (s.keyEnt k)
  Key.state = Keys.valid) && decide (getPart (s.keyEnt k) Key.generation < 65535) && decide (getPart (s.keyEnt k)
  Key.inflightCur = 0)) = true := by decide +kernel

theorem witness_WindowKeys_10 : (
  let s : State := keyShelf (keyEntry 1 2 0 3) false false
  let k : Nat := (keyShelf (keyEntry 1 2 0 3) false false).fld F.WIN_SEL_KEY
  let p : Sys2Proof.Path := Path.mgmt
  let j : Nat := 6
  (s.busOn) && (s.modeLets p A.WIN_CMD) && decide (k = s.fld F.WIN_SEL_KEY) && (s.keyExists k) && decide (getPart (s.keyEnt k)
  Key.state = Keys.valid) && decide (getPart (s.keyEnt k) Key.generation < 65535) && decide (getPart (s.keyEnt k)
  Key.inflightCur ≠ 0) && decide (j ≠ k)) = true := by decide +kernel

theorem witness_WindowKeys_11 : (
  let s : State := keyShelf (keyEntry 0 0 0 1) false false
  let p : Sys2Proof.Path := Path.mgmt
  let w : Nat := 0
  let v : Word := (0xA5A5A5A5 : Word)
  let j : Nat := 6
  (s.busOn) && (s.modeLets p (A.WIN_WORD w)) && decide (w < 8) && (s.keyExists (s.fld F.WIN_SEL_KEY)) && decide (getPart
  (s.keyEnt (s.fld F.WIN_SEL_KEY)) Key.state = Keys.free) && decide (j ≠ s.fld F.WIN_SEL_KEY)) = true := by decide +kernel

theorem witness_WindowKeys_12 : (
  let s : State := keyShelf (keyEntry 0 0 0 1) false false
  let p : Sys2Proof.Path := Path.mgmt
  let w : Nat := 2
  let v : Word := (0xA5A5A5A5 : Word)
  (s.busOn) && (s.modeLets p (A.WIN_WORD w)) && decide (w < 8) && (s.keyExists (s.fld F.WIN_SEL_KEY)) && decide (getPart
  (s.keyEnt (s.fld F.WIN_SEL_KEY)) Key.state = Keys.free) && decide (2 ≤ w) && decide (w < 5)) = true := by decide +kernel

theorem witness_WindowKeys_13 : (
  let s : State := keyShelf (keyEntry 1 0 0 3) false false
  let p : Sys2Proof.Path := Path.mgmt
  let w : Nat := 0
  let v : Word := (0xA5A5A5A5 : Word)
  (s.busOn) && (s.modeLets p (A.WIN_WORD w)) && decide (w < 8) && decide (getPart (s.keyEnt (s.fld F.WIN_SEL_KEY)) Key.state ≠
  Keys.free)) = true := by decide +kernel

theorem witness_DataCommands_8 : (
  let s : State := pulled
  let c : Nat := 0
  (match s.cmd? c with
  | some (k, x) =>
    (match s.findStaging (x.blockCount * 4096) with
    | some a =>
        (s.awake) && decide (x.opcode = 2) && decide (x.pushed = false) && decide (x.state = SlotState.executing) && decide
        (x.wait = CmdWait.running) && decide (x.started = false) && decide (x.stopped = false) && decide (x.staging = none)
        && decide (1 ≤ x.blockCount) && decide (x.fetches = []) && decide (x.fetchNext = 0) && decide (s.trn.held = []) &&
        decide (s.saState x.sa = Sas.active)
    | _ => false)
  | _ => false)) = true := by decide +kernel

theorem witness_DataCommands_9 : (
  let s : State := pushedWrite
  let c : Nat := 0
  (match s.cmd? c with
  | some (k, x) =>
    (match (s.translate c).cmd? c with
    | some (k2, y) =>
      (s.awake) && decide (x.opcode = 2) && (x.pushed) && (s.dataThere c x) && decide (x.state = SlotState.executing) && decide (x.wait =
      CmdWait.running) && decide (x.started = false) && decide (x.stopped = false) && decide (s.stepHolds x = false) && decide
      (k2 = k) && !(((s.translate c).cutCommand c k y).any fun w => s.groupState w.group == 4)
    | _ => false)
  | _ => false)) = true := by decide +kernel

theorem witness_DataCommands_10 : (
  let s : State := zeroing
  let c : Nat := 0
  (match s.cmd? c with
  | some (k, x) =>
    (match (s.translate c).cmd? c with
    | some (k2, y) =>
      (s.awake) && decide (x.opcode = 5) && decide (x.state = SlotState.executing) && decide (x.wait = CmdWait.running) &&
      decide (x.started = false) && decide (x.stopped = false) && decide (s.stepHolds x = false) && decide (k2 = k) &&
      !(((s.translate c).cutCommand c k y).any fun w => s.groupState w.group == 4)
    | _ => false)
  | _ => false)) = true := by decide +kernel

theorem witness_DataCommands_11 : (
  let s : State := onCq (fun q => { q with queues := [(65, ⟨1, .active, some ringTok, 0, true, none, [(99, true)]⟩)] })
    (withCmd { cmdOf (ioCap 3 0 0) with started := true, covers := [99] })
  let c : Nat := 0
  (match s.cmd? c with
  | some (k, x) =>
    (s.awake) && (x.runs_ 3) && (x.covers.any fun n => (s.live? n).isNone && (s.queue? (queueOf k)).any fun q =>
    q.unsafeWrites.contains (n, true))
  | _ => false)) = true := by decide +kernel

theorem witness_DataCommands_12 : (
  let s : State := withCmd { cmdOf (ioCap 2 6 5) with staging := some (11 * 2 ^ 26), fetchNext := 20480 }
  let c : Nat := 0
  (match s.cmd? c with
  | some (k, x) =>
    (match (s.translate c).cmd? c with
    | some (k2, y) =>
      (s.awake) && decide (x.opcode = 2) && (x.staging.isSome) && (s.dataThere c x) && decide (x.state = SlotState.executing) &&
      decide (x.wait = CmdWait.running) && decide (x.started = false) && decide (x.stopped = false) && decide (s.stepHolds x =
      false) && decide (k2 = k) && !(((s.translate c).cutCommand c k y).any fun w => s.groupState w.group == 4)
    | _ => false)
  | _ => false)) = true := by decide +kernel

end Sys2Proof.Tests
end

section
/-!
SUPPORT. Laws of register accesses (00_scope.md R5 to R11): which word an access reaches, what a write of a stored register and
of a pair leaves, and what a read answers and clears.
-/

namespace Sys2Proof.Machine

variable {s : State} {p : Path} {a : Nat} {v : Word} {d : RegDesc}

/-! ### The address of an access (R5) -/

theorem regAddr_of_aligned (h : a % 4 = 0) : regAddr a = a := by unfold regAddr; omega

theorem regAddr_regAddr (a : Nat) : regAddr (regAddr a) = regAddr a := by unfold regAddr; omega

/-- Bits 1:0 of an address do not choose its block. -/
theorem State.modeLets_regAddr (s : State) (p : Path) (a : Nat) : s.modeLets p (regAddr a) = s.modeLets p a := by
  have block : regAddr a / 0x100000 = a / 0x100000 := by unfold regAddr; omega
  simp only [State.modeLets, block]

theorem regIs_eq (hd : regDesc (regAddr a) = some d) (t : RegDesc → Bool) : regIs a t = t d := by simp [regIs, hd]

/-! ### What an access reaches (R5, R6) -/

theorem State.busWrite_regAddr (s : State) (p : Path) (a : Nat) (v : Word) :
    s.busWrite p (regAddr a) v = s.busWrite p a v := by
  simp only [State.busWrite, State.modeLets_regAddr, regAddr_regAddr]

theorem State.busRead_regAddr (s : State) (p : Path) (a : Nat) : s.busRead p (regAddr a) = s.busRead p a := by
  simp only [State.busRead, State.modeLets_regAddr, regAddr_regAddr]

theorem State.busWrite_reserved (hd : regDesc (regAddr a) = none) : s.busWrite p a v = s := by
  simp [State.busWrite, hd]

theorem State.busRead_reserved (hd : regDesc (regAddr a) = none) : s.busRead p a = (0, s) := by
  simp [State.busRead, hd]

section
variable (hb : s.busOn = true) (hm : s.modeLets p a = true) (hd : regDesc (regAddr a) = some d)
include hb hm hd

theorem State.busWrite_pair (hp : d.pair = true) : s.busWrite p a v = s.pairWrite d (regAddr a) v := by
  simp [State.busWrite, hb, hm, hd, hp]

theorem State.busWrite_word (hp : d.pair = false) : s.busWrite p a v = s.wordWrite p d (regAddr a) v := by
  simp [State.busWrite, hb, hm, hd, hp]

theorem State.busRead_pair (hp : d.pair = true) : s.busRead p a = s.pairRead d (regAddr a) := by
  simp [State.busRead, hb, hm, hd, hp]

theorem State.busRead_word (hp : d.pair = false) : s.busRead p a = s.wordRead d (regAddr a) := by
  simp [State.busRead, hb, hm, hd, hp]

end

/-! ### The rows of register accesses -/

/-- A row whose effect is a state with the same queue answers that state. -/
theorem State.row_next {f : State → State} {t : State} (h : f s = t) (ht : t.pending = s.pending) : s.row f = .next t := by
  subst h
  exact State.row_keep ht

section
variable {t : State}

theorem exec_registerWrite (h : s.busWrite p a v = t) (ht : t.pending = s.pending) :
    exec (.registerWrite p a v) s = .next t := State.row_next h ht

theorem exec_pairLowWrite (hd : regDesc (regAddr a) = some d) (hp : d.pair = true) (hh : d.high (regAddr a) = false)
    (h : s.busWrite p a v = t) (ht : t.pending = s.pending) : exec (.pairLowWrite p a v) s = .next t :=
  State.row_next (by simp [isPairLow, regIs_eq hd, hp, hh, h]) ht

theorem exec_pairHighWrite (hd : regDesc (regAddr a) = some d) (hp : d.pair = true) (hh : d.high (regAddr a) = true)
    (h : s.busWrite p a v = t) (ht : t.pending = s.pending) : exec (.pairHighWrite p a v) s = .next t :=
  State.row_next (by simp [isPairHigh, regIs_eq hd, hp, hh, h]) ht

variable {w : Word} (hb : s.busOn = true) (hd : regDesc (regAddr a) = some d)
include hb hd

theorem exec_counterLowRead (hp : d.pair = true) (hh : d.high (regAddr a) = false) (h : s.busRead p a = (w, t))
    (ht : t.pending = s.pending) : exec (.counterLowRead p a) s = .next { t with answer := beBytes 4 w.toNat } :=
  State.row_next (by simp [State.readAnswer, State.answers, isPairLow, regIs_eq hd, hp, hh, hb, h]) ht

theorem exec_rcFieldRead (hp : d.pair = false) (hc : d.clears = true) (h : s.busRead p a = (w, t))
    (ht : t.pending = s.pending) : exec (.rcFieldRead p a) s = .next { t with answer := beBytes 4 w.toNat } :=
  State.row_next (by simp [State.readAnswer, State.answers, isRc, regIs_eq hd, hp, hc, hb, h]) ht

end

/-! ### What a write stores (R7) -/

/-- The word whose bits a field holds after a write, by its access type (R7). -/
def FieldDesc.stored (f : FieldDesc) (lock : Bool) (w v : Word) : Word :=
  match f.acc with
  | .rw => v
  | .rwl => if lock then w else v
  | .w1c => w &&& ~~~v
  | _ => w

theorem getBits_storeFields (hd : regDesc a = some d) {f : FieldDesc} (hf : f ∈ d.fields) (lock : Bool) (w v : Word) :
    getBits (storeFields lock w v d.fields) f.lo f.width = getBits (f.stored lock w v) f.lo f.width := by
  have cut : ∀ x : Word, getBits x f.lo f.width % 2 ^ f.width = getBits x f.lo f.width :=
    fun x => Nat.mod_eq_of_lt (getBits_lt x f.lo f.width)
  rw [storeFields, putFields_field hd _ _ hf]
  unfold fieldPut FieldDesc.stored
  cases f.acc with
  | rwl => cases lock <;> simp [cut]
  | _ => simp [cut]

/-- Fields of one access type are cleared and the others keep theirs. -/
theorem getBits_putFields_zeroOf (hd : regDesc a = some d) {f : FieldDesc} (hf : f ∈ d.fields) (acc : Access) (w : Word) :
    getBits (putFields (zeroOf acc) w d.fields) f.lo f.width = if f.acc = acc then 0 else getBits w f.lo f.width := by
  rw [putFields_field hd _ _ hf]
  by_cases h : f.acc = acc <;> simp [zeroOf, h]

/-- A write of a register that is only stored changes its word. -/
theorem exec_registerWrite_stored (hb : s.busOn = true) (hm : s.modeLets p a = true) (hd : regDesc (regAddr a) = some d)
    (hp : d.pair = false) (hw : s.writeCmd p d (regAddr a) v = none) :
    exec (.registerWrite p a v) s = .next (s.storeWord d (regAddr a) v) := by
  refine exec_registerWrite ?_ rfl
  rw [State.busWrite_word hb hm hd hp, State.wordWrite, hw, Option.getD_none]

/-! ### Pairs as stored -/

theorem State.word_setPair_low (s : State) (a n : Nat) : (s.setPair a n).word a = BitVec.ofNat 32 n := by
  rw [State.setPair, State.word_setWord_ne _ (by omega), State.word_setWord_self]

theorem State.word_setPair_high (s : State) (a n : Nat) : (s.setPair a n).word (a + 4) = BitVec.ofNat 32 (n / 2 ^ 32) := by
  rw [State.setPair, State.word_setWord_self]

/-- The number whose low and high words are two given words. -/
def joinWords (low high : Word) : Nat := low.toNat + 2 ^ 32 * high.toNat

theorem joinWords_lt (low high : Word) : joinWords low high < 2 ^ 64 := by
  have h1 := low.isLt
  have h2 := high.isLt
  unfold joinWords
  omega

theorem ofNat_joinWords (low high : Word) : BitVec.ofNat 32 (joinWords low high) = low := by
  apply BitVec.eq_of_toNat_eq
  have h := low.isLt
  rw [BitVec.toNat_ofNat, joinWords]
  omega

theorem ofNat_joinWords_div (low high : Word) : BitVec.ofNat 32 (joinWords low high / 2 ^ 32) = high := by
  apply BitVec.eq_of_toNat_eq
  have h1 := low.isLt
  have h2 := high.isLt
  rw [BitVec.toNat_ofNat, joinWords]
  omega

/-! ### Writes of pairs (R11) -/

/-- The low word that a write of the high word takes: the one held, else as it stands (R11). -/
def State.lowWord (s : State) (a : Nat) : Word := (Tab.find? a s.heldLow).getD (BitVec.ofNat 32 (s.pairView a))

theorem State.pairWrite_low (hw : d.writes = true) (hh : d.high a = false) :
    s.pairWrite d a v = { s with heldLow := Tab.set a v s.heldLow } := by
  simp [State.pairWrite, hw, hh]

theorem State.pairWrite_high (hw : d.writes = true) (hh : d.high (a + 4) = true) :
    s.pairWrite d (a + 4) v = ({ s with heldLow := Tab.erase a s.heldLow }).pairPut a (joinWords (s.lowWord a) v) := by
  cases hl : Tab.find? a s.heldLow <;> simp [State.pairWrite, State.lowWord, joinWords, hw, hh, hl]

/-- A pair that lives in the registers with all 64 bits takes the value whole. -/
theorem State.pairPut_stored (h64 : pairBits a = 64) (h1 : regIndex a (A.RBD_TGT_START 0) 2 32 = none)
    (h2 : regIndex a (A.RBD_TGT_POINT 0) 2 32 = none) {n : Nat} (hn : n < 2 ^ 64) : s.pairPut a n = s.setPair a n := by
  simp only [State.pairPut, h64, h1, h2, Nat.mod_eq_of_lt hn]

/-! ### Reads of pairs (R7 to R10) -/

/-- The pairs that read as they stand have their words where their tables say: the low word at the address, the high word 4 bytes
on. -/
theorem regDesc_plainPair (h : plainPair a = true) :
    ((regDesc a).all fun d => !d.high a) = true ∧ ((regDesc (a + 4)).all fun d => d.high (a + 4)) = true := by
  rcases of_decide_eq_true h with rfl | rfl | rfl | rfl <;> decide +kernel

theorem plainPair_eq_false_of_high (hd : regDesc a = some d) (hh : d.high a = true) : plainPair a = false := by
  by_contra h
  have low := (regDesc_plainPair (by simpa using h)).1
  simp [hd, hh] at low

theorem plainPair_sub_eq_false_of_low (hd : regDesc a = some d) (hh : d.high a = false) : plainPair (a - 4) = false := by
  by_contra h
  have h' : plainPair (a - 4) = true := by simpa using h
  have pos : a - 4 ≠ 0 := fun e => absurd (e ▸ h') (by decide)
  have ha : a - 4 + 4 = a := by omega
  have high := (regDesc_plainPair h').2
  simp [ha, hd, hh] at high

/-- The high word of a pair that is read at its low word is kept (R9). -/
def State.latch (s : State) (a : Nat) : State :=
  { s with snaps := Tab.put 0 a (BitVec.ofNat 32 (s.pairView a / 2 ^ 32)) s.snaps }

/-- What the read of a pair's low word leaves: the high word kept, and an RC counter cleared (R9, R10). -/
def State.lowRead (s : State) (d : RegDesc) (a : Nat) : State := (s.latch a).when d.clears fun s => s.pairClear a

theorem State.pairRead_plain (h : plainPair a = true) : s.pairRead d a = (BitVec.ofNat 32 (s.pairView a), s) := by
  simp [State.pairRead, h]

theorem State.pairRead_low (hd : regDesc a = some d) (hh : d.high a = false) (h : plainPair a = false) :
    s.pairRead d a = (BitVec.ofNat 32 (s.pairView a), s.lowRead d a) := by
  simp [State.pairRead, State.lowRead, State.latch, h, plainPair_sub_eq_false_of_low hd hh, hh]

theorem State.pairRead_high (hd : regDesc a = some d) (hh : d.high a = true) :
    s.pairRead d a =
      (if plainPair (a - 4) then BitVec.ofNat 32 (s.pairView (a - 4) / 2 ^ 32) else Tab.getD (a - 4) 0 s.snaps, s) := by
  by_cases h : plainPair (a - 4) = true <;> simp [State.pairRead, plainPair_eq_false_of_high hd hh, hh, h]

theorem State.modSp_frame (s : State) (n : Nat) (f : SubPort → SubPort) : Frame [.mac] s (s.modSp n f) :=
  s.onMac_frame fun _ => _

/-- Clearing a counter changes the registers or, in a window of the MAC counters, its sub-port. -/
theorem State.pairClear_frame (s : State) (a : Nat) : Frame [.regs, .mac] s (s.pairClear a) := by
  unfold State.pairClear
  split
  · exact (s.modSp_frame _ _).mono (by decide)
  · exact (s.setPair_frame a 0).mono (by decide)

theorem State.pair_pairClear (h : s.macWindow a = none) : (s.pairClear a).pair a = 0 := by
  simp [State.pairClear, h, State.pair_setPair_self]

theorem State.word_pairClear_ne {b : Nat} (s : State) (h : b ≠ a) (h' : b ≠ a + 4) : (s.pairClear a).word b = s.word b := by
  unfold State.pairClear
  split
  · rfl
  · exact s.word_setPair_ne 0 (Ne.symm h) (Ne.symm h')

theorem State.lowRead_snaps (s : State) (d : RegDesc) (a : Nat) :
    (s.lowRead d a).snaps = Tab.put 0 a (BitVec.ofNat 32 (s.pairView a / 2 ^ 32)) s.snaps :=
  State.when_same _ _ _ (·.snaps) ((s.latch a).pairClear_frame a).snaps_eq

theorem State.lowRead_pending (s : State) (d : RegDesc) (a : Nat) : (s.lowRead d a).pending = s.pending :=
  State.when_same _ _ _ (·.pending) ((s.latch a).pairClear_frame a).pending_eq

theorem State.lowRead_word_ne {b : Nat} (s : State) (d : RegDesc) (h : b ≠ a) (h' : b ≠ a + 4) :
    (s.lowRead d a).word b = s.word b :=
  State.when_same _ _ _ (·.word b) ((s.latch a).word_pairClear_ne h h')

/-- An RC counter that lives in the registers is 0 after the read. -/
theorem State.pair_lowRead (hc : d.clears = true) (h : s.macWindow a = none) : (s.lowRead d a).pair a = 0 := by
  have clear : ((s.latch a).pairClear a).pair a = 0 := State.pair_pairClear h
  simpa [State.lowRead, State.when, hc] using clear

theorem State.lowRead_of_not_clears (s : State) (a : Nat) (hc : d.clears = false) : s.lowRead d a = s.latch a := by
  simp [State.lowRead, State.when, hc]

/-! ### Reads of registers with an RC field (R7, R549, R705) -/

/-- No snapshot register has an RC field: nothing is copied before the read of one that has. -/
theorem State.beforeRead_of_clears (hd : regDesc a = some d) (hc : d.clears = true) : s.beforeRead a = s := by
  have report : ((regDesc (A.WDN_REPORT 0)).all fun d => !d.clears) = true := by decide +kernel
  have tally : ((regDesc (A.MGT_TALLY_REC 0)).all fun d => !d.clears) = true := by decide +kernel
  unfold State.beforeRead
  split
  · next h => rw [← h, hd] at report; simp [hc] at report
  · split
    · next h => rw [← h, hd] at tally; simp [hc] at tally
    · rfl

/-- The word a single register shows: that of other state, or its own without the WO fields (R7). -/
def State.shownWord (s : State) (d : RegDesc) (a : Nat) : Word :=
  ((s.view a).map (BitVec.ofNat 32)).getD (d.mask (s.word a))

theorem State.wordRead_of_clears (hd : regDesc a = some d) (hc : d.clears = true) :
    s.wordRead d a = (s.shownWord d a, s.afterRead d a) := by
  cases hv : s.view a <;> simp [State.wordRead, State.shownWord, State.beforeRead_of_clears hd hc, hv]

theorem State.afterRead_stored (hc : d.clears = true) (h : s.histAt a = none) :
    s.afterRead d a = s.setWord a (putFields (zeroOf .rc) (s.word a) d.fields) := by
  simp [State.afterRead, h, hc]

theorem State.afterRead_hist {k : Nat} (h : s.histAt a = some k) :
    s.afterRead d a = { s with tc := { s.tc with hist := Tab.put 0 k 0 s.tc.hist } } := by
  simp [State.afterRead, h]

/-- A read leaves the queue of commands. -/
theorem State.afterRead_pending (s : State) (d : RegDesc) (a : Nat) : (s.afterRead d a).pending = s.pending := by
  unfold State.afterRead
  split
  · rfl
  · split <;> rfl

end Sys2Proof.Machine
end

section
/-!
The statements about the queue and the registers (00_scope.md).
-/

namespace Sys2Proof.Machine

/-- Settles O3: an access looks at its address through its block and its aligned address alone. -/
theorem reservedAddresses : Obligations.ReservedAddresses := by
  unfold Obligations.ReservedAddresses
  refine ⟨fun p a v s => ⟨?_, (s.busRead_regAddr p a).symm⟩, fun p a v s hd => ⟨?_, State.busRead_reserved hd⟩⟩
  · show (s.row fun s => s.busWrite p a v) = s.row fun s => s.busWrite p (regAddr a) v
    simp only [State.busWrite_regAddr]
  · exact exec_registerWrite (State.busWrite_reserved hd) rfl

/-- Settles O4: the fields of a register lie apart, so that each holds what its access type gives it. -/
theorem registerWriteByAccessType : Obligations.RegisterWriteByAccessType := by
  unfold Obligations.RegisterWriteByAccessType
  intro p a v d s hb hm hd hp hw
  refine ⟨_, exec_registerWrite_stored hb hm hd hp hw, rfl, fun b hne => s.word_setWord_ne (Ne.symm hne) _, fun f hf => ?_⟩
  have field : getBits ((s.storeWord d (regAddr a) v).word (a / 4 * 4)) f.lo f.width =
      getBits (f.stored s.inv.lock (s.word (a / 4 * 4)) v) f.lo f.width := by
    rw [State.storeWord, regAddr, State.word_setWord_self, getBits_storeFields hd hf]
  refine ⟨fun h => ?_, fun h => ?_, fun h => ?_, fun h => ?_⟩
  · simpa only [FieldDesc.stored, h] using field
  · simpa only [FieldDesc.stored, h] using field
  · simpa only [FieldDesc.stored, h] using field
  · rcases h with h | h <;> simpa only [FieldDesc.stored, h] using field

/-- Settles O5: the low word's read latches the high word, which later reads of it return; the four plain pairs read as they
stand; a read of a register with an RC field clears those fields, or the histogram bin it shows. -/
theorem counterReads : Obligations.CounterReads := by
  unfold Obligations.CounterReads
  refine ⟨⟨?low, ?high, fun a => rfl⟩, ?rc⟩
  case low =>
    intro p x a d s hb hm ha hd hp hh
    have reach : regAddr x = a := ha.symm
    subst reach
    have read : s.busRead p x = s.pairRead d (regAddr x) := State.busRead_pair hb hm hd hp
    cases h : plainPair (regAddr x) with
    | true =>
      exact ⟨_, exec_counterLowRead hb hd hp hh (read.trans (State.pairRead_plain h)) rfl, by simp, fun _ => rfl, by simp⟩
    | false =>
      refine ⟨_, exec_counterLowRead hb hd hp hh (read.trans (State.pairRead_low hd hh h)) (s.lowRead_pending d _), by simp,
        by simp, fun _ => ⟨?_, fun b hne => ?_, State.pair_lowRead, fun b => s.lowRead_word_ne d, fun hc => ?_⟩⟩
      · simp [State.lowRead_snaps]
      · simp [State.lowRead_snaps, Tab.getD_put_ne (Ne.symm hne)]
      · rw [s.lowRead_of_not_clears _ hc]
        rfl
  case high =>
    intro p a d s h4 _ hb hm hd hp hh
    have al : regAddr a = a := regAddr_of_aligned h4
    rw [State.busRead_pair hb hm (al.symm ▸ hd) hp, al]
    exact State.pairRead_high hd hh
  case rc =>
    intro p x a d s hb hm ha hd hp hc
    have reach : regAddr x = a := ha.symm
    subst reach
    have read : s.busRead p x = s.wordRead d (regAddr x) := State.busRead_word hb hm hd hp
    refine ⟨_, exec_rcFieldRead hb hd hp hc (read.trans (State.wordRead_of_clears hd hc)) (s.afterRead_pending d _), ?_,
      fun h => ?_, fun k h => ?_⟩
    · cases hv : s.view (regAddr x) <;> simp [State.shownWord, hv]
    · rw [State.afterRead_stored hc h]
      refine ⟨rfl, fun b hne => s.word_setWord_ne (Ne.symm hne) _, fun f hf => ?_⟩
      rw [← getBits_putFields_zeroOf hd hf]
      exact congrArg (getBits · f.lo f.width) (s.word_setWord_self _ _)
    · rw [State.afterRead_hist h]
      exact ⟨rfl, by simp, fun j hne => by simp [Tab.getD_put_ne (Ne.symm hne)]⟩

/-- Settles O6: the low word is held until the high word's write stores the two as one number. -/
theorem pairWrites : Obligations.PairWrites := by
  unfold Obligations.PairWrites
  intro p a d v s h4 hb hm hm4 hd hd4 hp hw hl hh
  have al : regAddr a = a := regAddr_of_aligned h4
  have ah : regAddr (a + 4) = a + 4 := regAddr_of_aligned (by omega)
  constructor
  · have low : s.busWrite p a v = { s with heldLow := Tab.set a v s.heldLow } := by
      rw [State.busWrite_pair hb hm (al.symm ▸ hd) hp, al, State.pairWrite_low hw hl]
    exact ⟨_, exec_pairLowWrite (al.symm ▸ hd) hp (al.symm ▸ hl) low rfl, rfl, Tab.find?_set_self _ _ _,
      fun b hne => Tab.find?_set_ne (Ne.symm hne) _ _⟩
  · intro h64 h1 h2
    have high : s.busWrite p (a + 4) v =
        ({ s with heldLow := Tab.erase a s.heldLow }).setPair a (joinWords (s.lowWord a) v) := by
      rw [State.busWrite_pair hb hm4 (ah.symm ▸ hd4) hp, ah, State.pairWrite_high hw hh,
        State.pairPut_stored h64 h1 h2 (joinWords_lt _ _)]
    refine ⟨_, exec_pairHighWrite (ah.symm ▸ hd4) hp (ah.symm ▸ hh) high rfl, rfl, ?_, ?_, Tab.find?_erase_self _ _,
      fun b h h' => State.word_setPair_ne _ _ (Ne.symm h) (Ne.symm h')⟩
    · rw [State.word_setPair_high, ofNat_joinWords_div]
    · rw [State.word_setPair_low, ofNat_joinWords, State.lowWord]
      cases Tab.find? a s.heldLow <;> rfl

end Sys2Proof.Machine
end

section
/-!
SUPPORT. What the laws of several units use: the answer of a data-path row, registers beside a change, entries of tables, folds
over entries, and the fields that a frame leaves open.
-/

namespace Sys2Proof.Machine

/-! ### The answer of a data-path row -/

/-- A data-path row answers the state that its effect gives, with the queue of commands as it was. -/
theorem State.awake_eq {s t : State} (h : s.awake = true) {f : State → State} (hf : f s = t) :
    (s.row fun s => s.ifAwake f) = .next { t with pending := s.pending } := by
  rw [State.awake_row h, hf]

/-- A data-path row answers the state that its effect gives, where that has the same queue of commands. -/
theorem State.awake_next {s t : State} (h : s.awake = true) {f : State → State} (hf : f s = t) (ht : t.pending = s.pending) :
    (s.row fun s => s.ifAwake f) = .next t := by
  rw [State.awake_eq h hf, ← ht]

/-! ### Registers beside a change -/

/-- Counting in one pair leaves a pair of other words. -/
theorem State.pair_bump_ne {a b : Nat} (h : a + 8 ≤ b ∨ b + 8 ≤ a) (n : Nat) (s : State) :
    (s.bump a n).pair b = s.pair b := by
  rw [State.pair, State.pair, s.word_bump_ne n (by omega) (by omega), s.word_bump_ne n (by omega) (by omega)]

/-- A status leaves a pair of other words. -/
theorem State.pair_flag_ne {f : Fld} {a : Nat} (h : f.addr ≠ a) (h' : f.addr ≠ a + 4) (s : State) :
    (s.flag f).pair a = s.pair a := by
  rw [State.pair, State.pair, s.word_flag_ne h, s.word_flag_ne h']

theorem State.regs_bump_congr {s t : State} (h : t.regs = s.regs) (a n : Nat) : (t.bump a n).regs = (s.bump a n).regs := by
  simp only [State.bump, State.setPair, State.setWord, State.pair_congr h, h]

theorem State.regs_when_congr {s t : State} {b : Bool} {f : State → State} (h : t.regs = s.regs)
    (hf : ∀ {s t : State}, t.regs = s.regs → (f t).regs = (f s).regs) : (t.when b f).regs = (s.when b f).regs := by
  cases b
  · exact h
  · exact hf h

theorem State.pair_when {s : State} {b : Bool} {f : State → State} {a : Nat} (h : (f s).pair a = s.pair a) :
    (s.when b f).pair a = s.pair a := s.when_same b f (·.pair a) h

/-! ### Entries of tables by key -/

/-- A change of every entry of a table that leaves the keys is the change of the entry found. -/
theorem Tab.find?_map {α : Type} (k : Nat) (t : Tab α) {g : Nat × α → Nat × α} (hg : ∀ x, (g x).1 = x.1) :
    Tab.find? k (t.map g) = (Tab.find? k t).map fun v => (g (k, v)).2 := by
  induction t with
  | nil => rfl
  | cons x t ih =>
    obtain ⟨j, v⟩ := x
    by_cases h : j = k
    · subst h
      simp [Tab.find?, hg]
    · simp [Tab.find?, hg, h, ih]

/-- A key that no entry has is not found. -/
theorem Tab.find?_eq_none {α : Type} {k : Nat} {t : Tab α} (h : k ∉ t.map Prod.fst) : Tab.find? k t = none := by
  induction t with
  | nil => rfl
  | cons x t ih =>
    obtain ⟨j, v⟩ := x
    simp only [List.map_cons, List.mem_cons, not_or] at h
    simp [Tab.find?, Ne.symm h.1, ih h.2]

/-! ### Folds over entries that each change their own (R422, R430) -/

/-- A fold of steps that each change one entry, by a law of the entry alone, changes each named entry once. -/
theorem State.each_own {α : Type} {get : State → Nat → α} {step : State → Nat → State} {g : α → α}
    (self : ∀ s i, get (step s i) i = g (get s i)) (other : ∀ s i j, j ≠ i → get (step s i) j = get s j) {l : List Nat}
    (hl : l.Nodup) (s : State) (j : Nat) : get (s.each l step) j = if j ∈ l then g (get s j) else get s j := by
  induction l generalizing s with
  | nil => simp [State.each]
  | cons i l ih =>
    obtain ⟨hi, hl⟩ := List.nodup_cons.1 hl
    refine (ih hl (step s i)).trans ?_
    by_cases h : j = i
    · subst h
      simp [hi, self]
    · simp [h, other s i j h]

/-! ### Fields that may have changed -/

section
variable {s t : State}

/-- A change of the read service and the Cellar alone. -/
theorem Frame.eq_rsv_hst (h : Frame [.rsv, .hst] s t) : t = { s with rsv := t.rsv, hst := t.hst } := by
  refine State.eq_of_agree fun b => ?_
  have same := h b
  cases b
  case rsv | hst => rfl
  all_goals exact same (by decide)

/-- A change of the command queues, the registers and the Wardens alone. -/
theorem Frame.eq_cq_regs_wdn (h : Frame [.cq, .regs, .wdn] s t) : t = { s with cq := t.cq, regs := t.regs, wdn := t.wdn } := by
  refine State.eq_of_agree fun b => ?_
  have same := h b
  cases b
  case cq | regs | wdn => rfl
  all_goals exact same (by decide)

/-- A change of the read service, the Cellar and the registers alone. -/
theorem Frame.eq_rsv_hst_regs (h : Frame [.rsv, .hst, .regs] s t) :
    t = { s with rsv := t.rsv, hst := t.hst, regs := t.regs } := by
  refine State.eq_of_agree fun b => ?_
  have same := h b
  cases b
  case rsv | hst | regs => rfl
  all_goals exact same (by decide)

end

end Sys2Proof.Machine
end

section
/-!
SUPPORT. Laws of the Larder's directory and destinations and of the read service's own times (10_read_service.md).
-/

namespace Sys2Proof.Machine

/-! ### Line slots (R428, R444) -/

section
variable (s : State) (i : Nat)

theorem State.dirEnt_setDir_self (e : BitVec 128) : (s.setDir i e).dirEnt i = e := by simp [State.dirEnt, State.setDir]

theorem State.dirEnt_setDir_ne {i j : Nat} (h : j ≠ i) (e : BitVec 128) : (s.setDir i e).dirEnt j = s.dirEnt j := by
  simp [State.dirEnt, State.setDir, Tab.getD_put_ne (Ne.symm h)]

/-- A directory entry depends on the read service alone. -/
theorem State.dirEnt_congr {t : State} (h : t.rsv = s.rsv) : t.dirEnt i = s.dirEnt i := by simp only [State.dirEnt, h]

theorem State.setDir_frame (e : BitVec 128) : Frame [.rsv] s (s.setDir i e) := s.onRsv_frame _

theorem State.cellarPut_frame (a : Nat) (l : List Byte) : Frame [.hst] s (s.cellarPut a l) := by
  unfold State.cellarPut
  exact Frame.ite (s.onHst_frame fun _ => _) (s.onHst_frame fun _ => _)

/-- A slot's entry as it enters a state: none of it is left in FREE. -/
def entryIn (e : BitVec 128) (st : Nat) : BitVec 128 := if st = 0 then 0 else putPart e Dir.volState (dirVol e + 4096 * st)

theorem State.catalogue_frame (n : Nat) : Frame [.hst] s (s.catalogue i n) := s.cellarPut_frame _ _

/-- The catalogue stands in the Cellar. -/
theorem State.catalogue_rsv (n : Nat) : (s.catalogue i n).rsv = s.rsv := (s.catalogue_frame i n).rsv_eq

/-- A slot enters a state: of the read service its entry and the serial change. -/
theorem State.lineState_rsv (st : Nat) : (s.lineState i st).rsv =
    { s.rsv with
      dir := Tab.put 0 i (entryIn (s.dirEnt i) st) s.rsv.dir
      serial := (if st = 2 then s.rsv.serial + 1 else s.rsv.serial) % 2 ^ 64 } := by
  unfold State.lineState
  exact State.catalogue_rsv _ _ _

theorem State.lineState_frame (st : Nat) : Frame [.rsv, .hst] s (s.lineState i st) := by
  unfold State.lineState
  refine Frame.trans ?_ ((State.catalogue_frame _ _ _).mono (by decide))
  exact ((s.setDir_frame i _).trans (State.onRsv_frame _ _)).mono (by decide)

theorem State.dirEnt_lineState_self (st : Nat) : (s.lineState i st).dirEnt i = entryIn (s.dirEnt i) st := by
  simp [State.dirEnt, s.lineState_rsv i st]

theorem State.dirEnt_lineState_ne {i j : Nat} (h : j ≠ i) (st : Nat) : (s.lineState i st).dirEnt j = s.dirEnt j := by
  simp [State.dirEnt, s.lineState_rsv i st, Tab.getD_put_ne (Ne.symm h)]

/-- A slot that becomes VALID takes the next serial. -/
theorem State.serial_lineState_valid : (s.lineState i 2).rsv.serial = (s.rsv.serial + 1) % 2 ^ 64 := by
  rw [State.lineState_rsv, if_pos rfl]

theorem entryIn_free (e : BitVec 128) : entryIn e 0 = 0 := if_pos rfl

theorem dirState_entryIn_valid (e : BitVec 128) : dirState (entryIn e 2) = 2 := by
  have volume : dirVol e < 4096 := Nat.mod_lt _ (by decide)
  unfold dirState entryIn
  rw [if_neg (by decide), getPart_putPart_self (by decide), Nat.mod_eq_of_lt (lt_of_lt_of_le (b := 12288) (by omega) (by decide))]
  omega

theorem line_entryIn_valid (e : BitVec 128) : getPart (entryIn e 2) Dir.line = getPart e Dir.line := by
  unfold entryIn
  rw [if_neg (by decide), getPart_putPart_disjoint (by decide)]

/-! ### Destinations (R434, R435) -/

theorem State.lineFree_frame : Frame [.rsv, .hst] s (s.lineFree i) := by
  unfold State.lineFree
  exact Frame.ite (s.lineState_frame i 0) (Frame.refl _ s)

theorem State.lineFree_dests : (s.lineFree i).rsv.dests = s.rsv.dests := by
  unfold State.lineFree
  dsimp only
  split
  · rw [State.lineState_rsv]
  · rfl

theorem State.unpin_frame (l : Option Nat) : Frame [.rsv, .hst] s (s.unpin l) := by
  cases l with
  | none => exact Frame.refl _ s
  | some i => exact ((s.setDir_frame i _).mono (by decide)).trans (State.lineFree_frame _ i)

theorem State.unpin_dests (l : Option Nat) : (s.unpin l).rsv.dests = s.rsv.dests := by
  cases l with
  | none => rfl
  | some i => exact State.lineFree_dests _ i

theorem State.releaseDests_frame (p : Dest → Bool) : Frame [.rsv, .hst] s (s.releaseDests p) :=
  Frame.trans ((s.onRsv_frame _).mono (by decide)) (Frame.each (fun s (d : Dest) => s.unpin_frame d.line) _ _)

/-- The destinations that satisfy the test are gone, and no other. -/
theorem State.releaseDests_dests (p : Dest → Bool) : (s.releaseDests p).rsv.dests = s.rsv.dests.filter fun d => !p d :=
  State.each_same _ _ _ (·.rsv.dests) fun s d _ => s.unpin_dests d.line

end

/-! ### Latency (R422) -/

/-- A drive's latency after the whole ms in which it took no sample. -/
def Latency.aged (now : Nat) (x : Latency) : Latency :=
  { est := decayed (min ((now - x.last) / 1000000) 4096) x.est, last := x.last + (now - x.last) / 1000000 * 1000000 }

/-- LATENCY_DECAY of one drive. -/
def State.decayLat (s : State) (n : Nat) : State :=
  if (s.now - (s.lat n).last) / 1000000 = 0 then s
  else s.onRsv fun r => { r with lat := Tab.put ⟨0, 0⟩ n ((s.lat n).aged s.now) r.lat }

theorem State.latencyDecay_eq (s : State) : s.latencyDecay = s.each (List.range 24) State.decayLat := rfl

/-- A step of LATENCY_DECAY changes the latencies alone. -/
theorem State.decayLat_eq (s : State) (n : Nat) : ∃ v, s.decayLat n = { s with rsv := { s.rsv with lat := v } } := by
  unfold State.decayLat
  split
  · exact ⟨s.rsv.lat, rfl⟩
  · exact ⟨_, rfl⟩

/-- LATENCY_DECAY changes the latencies alone. -/
theorem State.latencyDecay_lat (s : State) : ∃ v, s.latencyDecay = { s with rsv := { s.rsv with lat := v } } := by
  rw [State.latencyDecay_eq]
  generalize List.range 24 = l
  induction l generalizing s with
  | nil => exact ⟨s.rsv.lat, rfl⟩
  | cons n l ih =>
    obtain ⟨v, hv⟩ := s.decayLat_eq n
    obtain ⟨w, hw⟩ := ih (s.decayLat n)
    exact ⟨w, hw.trans (by rw [hv])⟩

theorem State.lat_decayLat_self (s : State) (n : Nat) : (s.decayLat n).lat n = (s.lat n).aged s.now := by
  unfold State.decayLat
  split
  · next h => simp [Latency.aged, h, decayed]
  · simp [State.lat, State.onRsv]

theorem State.lat_decayLat_ne {n k : Nat} (h : k ≠ n) (s : State) : (s.decayLat n).lat k = s.lat k := by
  unfold State.decayLat
  split
  · rfl
  · simp [State.lat, State.onRsv, Tab.getD_put_ne (Ne.symm h)]

theorem State.decayLat_now (s : State) (n : Nat) : (s.decayLat n).now = s.now := by
  obtain ⟨v, hv⟩ := s.decayLat_eq n
  rw [hv]

/-- Every drive's latency ages once. -/
theorem State.lat_latencyDecay {n : Nat} (h : n < 24) (s : State) : s.latencyDecay.lat n = (s.lat n).aged s.now := by
  have aged := State.each_own (get := fun s n => (s.now, s.lat n)) (step := State.decayLat)
    (g := fun x => (x.1, x.2.aged x.1)) (fun s i => by rw [s.decayLat_now, s.lat_decayLat_self])
    (fun s i j h => by rw [s.decayLat_now, State.lat_decayLat_ne h]) (List.nodup_range (n := 24)) s n
  rw [if_pos (List.mem_range.2 h)] at aged
  exact congrArg Prod.snd aged

/-! ### Hotness (R430) -/

/-- A directory entry with its hotness halved. -/
def halvedHot (e : BitVec 128) : BitVec 128 := putPart e Dir.hot (getPart e Dir.hot / 2)

theorem hot_halvedHot (e : BitVec 128) : getPart (halvedHot e) Dir.hot = getPart e Dir.hot / 2 := by
  have bound : getPart e Dir.hot < 2 ^ 8 := getBits_lt _ _ _
  rw [halvedHot, getPart_putPart_self (by decide)]
  exact Nat.mod_eq_of_lt (lt_of_le_of_lt (Nat.div_le_self _ 2) bound)

theorem line_halvedHot (e : BitVec 128) : getPart (halvedHot e) Dir.line = getPart e Dir.line :=
  getPart_putPart_disjoint (by decide) e _

theorem dirState_halvedHot (e : BitVec 128) : dirState (halvedHot e) = dirState e :=
  congrArg (· / 4096) (getPart_putPart_disjoint (by decide) e _)

/-- The hotness of one line is halved. -/
def State.halveHot (s : State) (i : Nat) : State := s.setDir i (halvedHot (s.dirEnt i))

/-- The ghost counters are halved, and those at 0 dropped. -/
def Rsv.halveGhosts (r : Rsv) : Rsv := { r with ghost := (r.ghost.map fun x => (x.1, x.2 / 2)).filter fun x => x.2 != 0 }

/-- Halving hotness changes the directory alone. -/
theorem State.each_halveHot_eq (s : State) (l : List Nat) :
    ∃ v, s.each l State.halveHot = { s with rsv := { s.rsv with dir := v } } := by
  induction l generalizing s with
  | nil => exact ⟨s.rsv.dir, rfl⟩
  | cons i l ih =>
    obtain ⟨v, hv⟩ := ih (s.halveHot i)
    exact ⟨v, hv⟩

/-- Every entry of the directory has its hotness halved; one that is not listed has none. -/
theorem State.dirEnt_each_halveHot (s : State) (h : (s.rsv.dir.map Prod.fst).Nodup) (i : Nat) :
    (s.each (s.rsv.dir.map Prod.fst) State.halveHot).dirEnt i = halvedHot (s.dirEnt i) := by
  have once := State.each_own (get := State.dirEnt) (step := State.halveHot) (g := halvedHot)
    (fun s i => s.dirEnt_setDir_self i _) (fun s i j hj => s.dirEnt_setDir_ne hj _) h s i
  refine once.trans ?_
  split
  · rfl
  · next hi =>
    rw [State.dirEnt, Tab.getD, Tab.find?_eq_none hi]
    decide

/-- HOTNESS_DECAY at a multiple of its period. -/
theorem State.hotDecay_due {s : State} (h : s.larderDecay ≠ 0)
    (hd : Tab.getD Tick.hotness 0 s.served < s.now / (s.larderDecay * 1000000) * (s.larderDecay * 1000000)) :
    ∃ v, s.hotDecay = ({ s with served := v }.each (s.rsv.dir.map Prod.fst) State.halveHot).onRsv Rsv.halveGhosts := by
  unfold State.hotDecay
  rw [if_neg h, State.every_due hd]
  exact ⟨_, rfl⟩

end Sys2Proof.Machine
end

section
/-!
SUPPORT. Laws of the command slots and queues (06_command_queues.md): what a change of a command or of a queue leaves to be read,
what stopping a command takes back, and what its completion point sends.
-/

namespace Sys2Proof.Machine

section
variable {s : State} {c k : Nat} {x : Slot} {f : Slot → Slot}

/-! ### Commands by acceptance order -/

theorem State.cmd?_congr {t : State} (h : t.cq.slots = s.cq.slots) (c : Nat) : t.cmd? c = s.cmd? c := by
  rw [State.cmd?, State.cmd?, h]

theorem State.order_of_cmd? (h : s.cmd? c = some (k, x)) : x.order = c := by simpa using List.find?_some h

theorem State.modCmd_frame (s : State) (c : Nat) (f : Slot → Slot) : Frame [.cq] s (s.modCmd c f) :=
  s.onCq_frame fun q => { q with slots := q.slots.map fun x => if x.2.order = c then (x.1, f x.2) else x }

section
variable (hf : ∀ x, (f x).order = x.order)
include hf

/-- A command's change is read by its acceptance order. -/
theorem State.cmd?_modCmd (s : State) (c d : Nat) :
    (s.modCmd d f).cmd? c = (s.cmd? c).map fun y => if y.2.order = d then (y.1, f y.2) else y := by
  have order : ∀ y : Nat × Slot, (if y.2.order = d then (y.1, f y.2) else y).2.order = y.2.order := fun y => by
    split <;> simp [hf]
  simp only [State.cmd?, State.modCmd, List.find?_map, Function.comp_def, order]

theorem State.cmd?_modCmd_self (h : s.cmd? c = some (k, x)) : (s.modCmd c f).cmd? c = some (k, f x) := by
  simp [State.cmd?_modCmd hf, h, State.order_of_cmd? h]

theorem State.cmd?_modCmd_ne {d : Nat} (h : c ≠ d) (s : State) : (s.modCmd d f).cmd? c = s.cmd? c := by
  rw [State.cmd?_modCmd hf]
  cases hc : s.cmd? c with
  | none => rfl
  | some y =>
    obtain ⟨k, x⟩ := y
    simp [State.order_of_cmd? hc, h]

end

/-- A command's change as its slot shows it. -/
theorem State.slot_modCmd (s : State) (c k : Nat) (f : Slot → Slot) :
    Tab.find? k (s.modCmd c f).cq.slots = (Tab.find? k s.cq.slots).map fun x => if x.order = c then f x else x := by
  refine (Tab.find?_map k s.cq.slots (g := fun x => if x.2.order = c then (x.1, f x.2) else x) fun x => ?_).trans ?_
  · split <;> rfl
  · congr 1
    funext x
    split <;> rfl

theorem State.slot_modCmd_self (h : Tab.find? k s.cq.slots = some x) :
    Tab.find? k (s.modCmd x.order f).cq.slots = some (f x) := by simp [State.slot_modCmd, h]

theorem State.slot_modCmd_ne (h : Tab.find? k s.cq.slots = some x) (hc : x.order ≠ c) :
    Tab.find? k (s.modCmd c f).cq.slots = some x := by simp [State.slot_modCmd, h, hc]

/-! ### Settling a command (R236) -/

theorem State.finish_frame (s : State) (c status : Nat) : Frame [.cq] s (s.finish c status) := s.modCmd_frame c _

theorem State.setResult_frame (s : State) (c v : Nat) : Frame [.cq] s (s.setResult c v) := s.modCmd_frame c _

/-- A command that has not finished takes the status. -/
theorem State.cmd?_finish (h : s.cmd? c = some (k, x)) (ha : x.state ≠ .completing) (hw : x.wait ≠ .finished) (status : Nat) :
    (s.finish c status).cmd? c = some (k, { x with status := status, wait := .finished }) := by
  refine (State.cmd?_modCmd_self (fun x => ?_) h).trans ?_
  · split <;> rfl
  · simp [Slot.alive, ha, hw]

theorem State.cmd?_setResult (h : s.cmd? c = some (k, x)) (v : Nat) :
    (s.setResult c v).cmd? c = some (k, { x with result := v }) := State.cmd?_modCmd_self (fun _ => rfl) h

/-! ### Admin commands (R41, R250) -/

/-- An admin command that shelf firmware takes executes and has not finished. -/
theorem State.adminCmd_some {op : Nat} (h : s.adminCmd c op = some (k, x)) :
    s.cmd? c = some (k, x) ∧ x.state = .executing ∧ x.wait = .firmware := by
  unfold State.adminCmd at h
  split at h
  · simp only [Option.filter_eq_some_iff, Bool.and_eq_true, decide_eq_true_eq] at h
    obtain ⟨hc, ⟨⟨-, hs⟩, hw⟩, -⟩ := h
    exact ⟨hc, hs, hw⟩
  · cases h

theorem State.admin_taken {op : Nat} (h : s.adminCmd c op = some (k, x)) (f : State → Nat → Slot → State) :
    s.admin c op f = f s k x := by simp [State.admin, h]

/-- An admin command takes its status. -/
theorem State.cmd?_finish_admin {op : Nat} {t : State} (h : s.adminCmd c op = some (k, x)) (ht : t.cmd? c = s.cmd? c)
    (status : Nat) : (t.finish c status).cmd? c = some (k, { x with status := status, wait := .finished }) := by
  obtain ⟨hc, hs, hw⟩ := State.adminCmd_some h
  exact State.cmd?_finish (ht.trans hc) (by simp [hs]) (by simp [hw]) status

/-! ### Queues and endpoints -/

theorem State.modQ_frame (s : State) (k : Nat) (g : Queue → Queue) : Frame [.cq] s (s.modQ k g) :=
  s.onCq_frame fun q => { q with queues := q.queues.map fun x => if x.1 = k then (x.1, g x.2) else x }

theorem State.queue?_congr {t : State} (h : t.cq.queues = s.cq.queues) (k : Nat) : t.queue? k = s.queue? k := by
  rw [State.queue?, State.queue?, h]

theorem State.queue?_modQ_self {q : Queue} (h : s.queue? k = some q) (g : Queue → Queue) :
    (s.modQ k g).queue? k = some (g q) := by
  refine (Tab.find?_map k s.cq.queues (g := fun x => if x.1 = k then (x.1, g x.2) else x) fun x => ?_).trans ?_
  · split <;> rfl
  · rw [show Tab.find? k s.cq.queues = some q from h]
    simp

theorem State.ep_setEp_self (s : State) (e : Nat) (y : Endpoint) : (s.setEp e y).ep e = y := by
  simp [State.ep, State.setEp]

theorem State.ep_setEp_ne {e d : Nat} (h : d ≠ e) (s : State) (y : Endpoint) : (s.setEp e y).ep d = s.ep d := by
  simp [State.ep, State.setEp, Tab.getD_put_ne (Ne.symm h)]

end

/-! ### Stopping a command (R255) -/

section
variable {s : State} {c k : Nat} {x : Slot}

theorem State.endAccess_frame (s : State) (a : Option Nat) : Frame [.win] s (s.endAccess a) := by
  cases a with
  | none => exact Frame.refl _ s
  | some n =>
    exact s.onWin_frame fun w => { w with accesses := w.accesses.map fun x => if x.name = n then { x with ended := true } else x }

theorem State.pullFrames_frame (s : State) (c : Nat) : Frame [.mac] s (s.pullFrames c) := by
  unfold State.pullFrames
  exact Frame.ite (Frame.refl _ s) (Frame.each (fun s n => s.modSp_frame n _) _ _)

/-- With no message of its SAs started or held, a stopped command takes nothing out of the transport. -/
theorem Trn.stop_idle {t : Trn} (htx : t.tx = []) (hheld : t.held = []) (c : Nat) : t.stop c = t := by
  obtain ⟨sa, aux, tests, rx, tx, held, blocked, key, probe⟩ := t
  obtain rfl : tx = [] := htx
  obtain rfl : held = [] := hheld
  have all : ∀ p : Blocked → Bool, (∀ b, p b = true) → blocked.filter p = blocked := fun p h =>
    List.filter_eq_self.2 fun b _ => h b
  refine congrArg (fun b => Trn.mk sa aux tests rx [] [] b key probe) (all _ fun b => ?_)
  cases b.msg <;> rfl

/-- Stopping takes messages of the command away and starts none. -/
theorem Trn.stop_keys {t : Trn} {c : Nat} {m : TxMsg} (h : m ∈ (t.stop c).tx) : ∃ m' ∈ t.tx, m'.key = m.key := by
  simp only [Trn.stop, List.mem_map, List.mem_filter] at h
  obtain ⟨m', ⟨hm, -⟩, rfl⟩ := h
  exact ⟨m', hm, by split <;> rfl⟩

/-- A slot as its command has been stopped: nothing more of it is to be done. -/
def Slot.cutOff (x : Slot) : Slot := { x with stopped := true, toAdmit := [], intents := [], unready := [], covers := [] }

/-- Stopping a command takes back what the other units hold of it, gives up its destinations, ends its access and marks its
slot. -/
theorem State.stopCmd_eq (h : s.cmd? c = some (k, x)) :
    ∃ u, Frame [.trn, .str, .attic, .rsv, .wdn, .mac] s u ∧ u.trn = s.trn.stop c ∧ (s.str.live = [] → u.str.live = []) ∧
      s.stopCmd c = ((u.releaseDests fun d => d.cmd == some c).endAccess x.access).modCmd c Slot.cutOff := by
  have pull := s.pullFrames_frame c
  unfold State.stopCmd
  rw [h]
  refine ⟨_, ?_, congrArg (Trn.stop · c) pull.trn_eq, fun hl => ?_, rfl⟩
  · refine (pull.mono (by decide)).trans fun b hb => ?_
    cases b <;> first | rfl | exact absurd (by decide) hb
  · simp [hl]

theorem State.stopCmd_none (h : s.cmd? c = none) : s.stopCmd c = s := by simp [State.stopCmd, h]

/-- The fields of the state that the stopping of a command may change. -/
def stopFields : List Blk := [.cq, .trn, .str, .attic, .rsv, .wdn, .mac, .win, .hst]

theorem State.stopCmd_frame (s : State) (c : Nat) : Frame stopFields s (s.stopCmd c) := by
  cases h : s.cmd? c with
  | none =>
    rw [State.stopCmd_none h]
    exact Frame.refl _ s
  | some y =>
    obtain ⟨k, x⟩ := y
    obtain ⟨u, hu, -, -, hs⟩ := State.stopCmd_eq h
    rw [hs]
    exact (((hu.mono (by decide)).trans ((u.releaseDests_frame _).mono (by decide))).trans
      ((State.endAccess_frame _ _).mono (by decide))).trans ((State.modCmd_frame _ _ _).mono (by decide))

/-- Of the transport, a command's stopping takes its messages. -/
theorem State.stopCmd_trn (h : s.cmd? c = some (k, x)) : (s.stopCmd c).trn = s.trn.stop c := by
  obtain ⟨u, -, ht, -, hs⟩ := State.stopCmd_eq h
  rw [hs, (State.modCmd_frame _ _ _).trn_eq, (State.endAccess_frame _ _).trn_eq, (State.releaseDests_frame _ _).trn_eq, ht]

/-- Of the command queues, a command's stopping changes its slot. -/
theorem State.stopCmd_cq (h : s.cmd? c = some (k, x)) : (s.stopCmd c).cq = (s.modCmd c Slot.cutOff).cq := by
  obtain ⟨u, hu, -, -, hs⟩ := State.stopCmd_eq h
  have cq : ((u.releaseDests fun d => d.cmd == some c).endAccess x.access).cq = s.cq := by
    rw [(State.endAccess_frame _ _).cq_eq, (State.releaseDests_frame _ _).cq_eq, hu.cq_eq]
  rw [hs]
  unfold State.modCmd
  rw [cq]

theorem State.stopCmd_live (h : s.cmd? c = some (k, x)) (hl : s.str.live = []) : (s.stopCmd c).str.live = [] := by
  obtain ⟨u, -, -, hlive, hs⟩ := State.stopCmd_eq h
  rw [hs, (State.modCmd_frame _ _ _).str_eq, (State.endAccess_frame _ _).str_eq, (State.releaseDests_frame _ _).str_eq, hlive hl]

/-- A slot as a stop settles its command, unless it is stopped before. -/
def Slot.endedWith (status : Nat) (x : Slot) : Slot :=
  if x.alive && !x.stopped then { x with status := status, wait := .finished } else x

theorem Slot.endedWith_order (status : Nat) (x : Slot) : (x.endedWith status).order = x.order := by
  unfold Slot.endedWith
  split <;> rfl

theorem Slot.endedWith_alive (ha : x.state ≠ .completing) (hs : x.stopped = false) (status : Nat) :
    x.endedWith status = { x with status := status, wait := .finished } := by simp [Slot.endedWith, Slot.alive, ha, hs]

/-- A slot after its command has been stopped with a status. -/
def Slot.stoppedWith (status : Nat) (x : Slot) : Slot := (x.endedWith status).cutOff

theorem Slot.stoppedWith_order (status : Nat) (x : Slot) : (x.stoppedWith status).order = x.order := x.endedWith_order status

theorem Slot.stoppedWith_sa (status : Nat) (x : Slot) : (x.stoppedWith status).sa = x.sa := by
  unfold Slot.stoppedWith Slot.endedWith
  split <;> rfl

theorem Slot.stoppedWith_status (ha : x.state ≠ .completing) (hs : x.stopped = false) (status : Nat) :
    (x.stoppedWith status).status = status := by rw [Slot.stoppedWith, Slot.endedWith_alive ha hs, Slot.cutOff]

theorem State.stopWith_eq (s : State) (c status : Nat) :
    s.stopWith c status = (s.modCmd c (Slot.endedWith status)).stopCmd c := rfl

theorem State.stopWith_frame (s : State) (c status : Nat) : Frame stopFields s (s.stopWith c status) :=
  ((s.modCmd_frame c _).mono (by decide)).trans (State.stopCmd_frame _ c)

section
variable (h : s.cmd? c = some (k, x)) (status : Nat)
include h

theorem State.cmd?_endedWith :
    (s.modCmd c (Slot.endedWith status)).cmd? c = some (k, x.endedWith status) :=
  State.cmd?_modCmd_self (Slot.endedWith_order status) h

/-- Of the command queues, stopping with a status changes the command's slot. -/
theorem State.stopWith_cq : (s.stopWith c status).cq = (s.modCmd c (Slot.stoppedWith status)).cq := by
  have twice : ∀ y : Nat × Slot, (if (if y.2.order = c then (y.1, y.2.endedWith status) else y).2.order = c then
      ((if y.2.order = c then (y.1, y.2.endedWith status) else y).1,
        (if y.2.order = c then (y.1, y.2.endedWith status) else y).2.cutOff)
      else (if y.2.order = c then (y.1, y.2.endedWith status) else y)) =
      if y.2.order = c then (y.1, y.2.stoppedWith status) else y := fun y => by
    by_cases hy : y.2.order = c <;> simp [hy, Slot.endedWith_order, Slot.stoppedWith]
  rw [State.stopWith_eq, State.stopCmd_cq (State.cmd?_endedWith h status)]
  simp only [State.modCmd, List.map_map, Function.comp_def, twice]

theorem State.cmd?_stopWith_self : (s.stopWith c status).cmd? c = some (k, x.stoppedWith status) :=
  (State.cmd?_congr (congrArg Cq.slots (State.stopWith_cq h status)) c).trans
    (State.cmd?_modCmd_self (Slot.stoppedWith_order status) h)

theorem State.cmd?_stopWith_ne {d : Nat} (hd : d ≠ c) : (s.stopWith c status).cmd? d = s.cmd? d :=
  (State.cmd?_congr (congrArg Cq.slots (State.stopWith_cq h status)) d).trans
    (State.cmd?_modCmd_ne (Slot.stoppedWith_order status) hd s)

theorem State.slot_stopWith_self {j : Nat} (hj : Tab.find? j s.cq.slots = some x) :
    Tab.find? j (s.stopWith c status).cq.slots = some (x.stoppedWith status) := by
  rw [State.stopWith_cq h status, ← State.order_of_cmd? h]
  exact State.slot_modCmd_self hj

/-- With no message of the transport's under way, the stop leaves the transport. -/
theorem State.stopWith_trn (htx : s.trn.tx = []) (hheld : s.trn.held = []) : (s.stopWith c status).trn = s.trn := by
  rw [State.stopWith_eq, State.stopCmd_trn (State.cmd?_endedWith h status), (s.modCmd_frame c _).trn_eq, Trn.stop_idle htx hheld]

theorem State.stopWith_live (hl : s.str.live = []) : (s.stopWith c status).str.live = [] :=
  State.stopCmd_live (State.cmd?_endedWith h status) hl

end
end

/-! ### Starting a message (R157, R162, R751) -/

section
variable {s t : State} {sa : Nat} {m : TxMsg}

/-- Whether there is room for a message depends on the transport and the Inventory, and on whether it takes an id. -/
theorem State.roomFor_congr (htrn : t.trn = s.trn) (hinv : t.inv = s.inv) {m' : TxMsg} (hm : m'.opcode = m.opcode) :
    t.roomFor sa m' = s.roomFor sa m := by
  have entries : t.pantryEntries 0x03 = s.pantryEntries 0x03 := by simp only [State.pantryEntries, State.sect, hinv]
  have next : t.saGet sa Sa.txNextId = s.saGet sa Sa.txNextId := State.saGet_congr (congrArg Trn.sa htrn) sa _
  have newId : m'.newId = m.newId := by simp only [TxMsg.newId, hm]
  unfold State.roomFor
  rw [entries, next, newId, htrn]

theorem State.saState_congr (htrn : t.trn = s.trn) (n : Nat) : t.saState n = s.saState n :=
  State.saGet_congr (congrArg Trn.sa htrn) n _

theorem State.followSa_active (h : s.saState sa = Sas.active) (n : Nat) : s.followSa n sa = sa := by
  cases n <;> simp [State.followSa, h]

/-- With no message held, a message for an ACTIVE SA with room takes a send entry. -/
theorem State.startMsg_taken (hsa : s.saState sa = Sas.active) (hn : m.newId = true) (hr : s.roomFor sa m = true)
    (hheld : s.trn.held = []) : s.startMsg sa m = s.takeTx sa m := by
  simp [State.startMsg, State.msgSa, hn, State.followSa_active hsa, hsa, hr, State.behindHeld, hheld]

/-- The send entry of a completion stands behind the others, under a key and an id of its own. -/
theorem State.takeTx_completion {c : Nat} (hu : m.use = .completion c) :
    Frame [.trn] s (s.takeTx sa m) ∧
      ∃ key id, (s.takeTx sa m).trn.tx = s.trn.tx ++ [{ m with key := key, sa := sa, id := id }] := by
  have put : ∀ v, (s.when m.newId fun s => s.saPut sa Sa.txNextId v).trn.tx = s.trn.tx := fun v =>
    State.when_same s m.newId _ (·.trn.tx) rfl
  obtain ⟨key, sa, id, opcode, commit, group, length, wkey, offset, use, data, packets, first⟩ := m
  obtain rfl : use = .completion c := hu
  exact ⟨(Frame.when _ (s.saPut_frame _ _ _)).trans (State.onTrn_frame _ _), _, _, congrArg (· ++ _) (put _)⟩

end

/-! ### The completion point (R236, R245) -/

section
variable {s : State} {c k : Nat} {x : Slot} {q : Queue} {tok : BitVec 128}

/-- With no live stripe write there is no intent to mark. -/
theorem State.markCompleted_idle (h : s.str.live = []) (c : Nat) : s.markCompleted c = s := by
  simp [State.markCompleted, h, State.each]

/-- A slot at its completion point. -/
def Slot.atPoint (x : Slot) : Slot := { x with state := .completing, access := none }

/-- What a command's completion point changes before its entry is sent: its access and slot, the events that name it, the
counters, and the producer index of its queue. -/
def State.atCompletion (s : State) (c k : Nat) (x : Slot) (entries : Nat) : State :=
  let s := ((s.endAccess x.access).modCmd c Slot.atPoint).onWdn fun w => { w with events := w.events.filter fun e => !e.names c }
  ((s.bump A.CQ_COMPLETED).when (x.status == St.aborted || x.status == St.abortedByReset) fun s => s.bump A.CQ_ABORTED).modQ
    (queueOf k) fun q => q.advance entries

/-- The message that carries a completion entry. -/
def completionMsg (c k : Nat) (x : Slot) (q : Queue) (tok : BitVec 128) : TxMsg :=
  { msgOf .place 16 (getPart tok Token.key) (getPart tok Token.base + 16 * q.producer) (.completion c)
      (.bytes (toBytes 16 (completionEntry k x q.phase))) with commit := true }

theorem State.atCompletion_frame (s : State) (c k : Nat) (x : Slot) (n : Nat) :
    Frame [.win, .cq, .wdn, .regs] s (s.atCompletion c k x n) := by
  unfold State.atCompletion
  refine Frame.trans (Frame.when _ ((State.bump_frame _ _ _).mono (by decide)) |> Frame.trans ?_)
    ((State.modQ_frame _ _ _).mono (by decide))
  exact ((((s.endAccess_frame _).mono (by decide)).trans ((State.modCmd_frame _ _ _).mono (by decide))).trans
    ((State.onWdn_frame _ _).mono (by decide))).trans ((State.bump_frame _ _ _).mono (by decide))

/-- Of the command queues, the completion point changes the command's slot and its queue. -/
theorem State.atCompletion_cq (s : State) (c k : Nat) (x : Slot) (n : Nat) :
    (s.atCompletion c k x n).cq = ((s.modCmd c Slot.atPoint).modQ (queueOf k) fun q => q.advance n).cq := by
  have acc : (s.endAccess x.access).cq = s.cq := (s.endAccess_frame _).cq_eq
  unfold State.atCompletion State.modQ State.modCmd
  dsimp only
  rw [State.when_same _ _ _ (·.cq) (State.bump_cq ..)]
  simp only [State.bump_cq, State.onWdn_cq, acc]

theorem State.cmd?_atCompletion (h : s.cmd? c = some (k, x)) (n : Nat) :
    (s.atCompletion c k x n).cmd? c = some (k, x.atPoint) :=
  (State.cmd?_congr (congrArg Cq.slots (s.atCompletion_cq c k x n)) c).trans (State.cmd?_modCmd_self (fun _ => rfl) h)

theorem State.cmd?_atCompletion_ne {d : Nat} (hd : d ≠ c) (s : State) (k : Nat) (x : Slot) (n : Nat) :
    (s.atCompletion c k x n).cmd? d = s.cmd? d :=
  (State.cmd?_congr (congrArg Cq.slots (s.atCompletion_cq c k x n)) d).trans
    (State.cmd?_modCmd_ne (f := Slot.atPoint) (fun _ => rfl) hd s)

theorem State.slot_atCompletion_self {j : Nat} (h : Tab.find? j s.cq.slots = some x) (hc : x.order = c) (n : Nat) :
    Tab.find? j (s.atCompletion c k x n).cq.slots = some x.atPoint := by
  rw [State.atCompletion_cq, ← hc]
  exact State.slot_modCmd_self h

theorem State.queue?_atCompletion (h : s.queue? (queueOf k) = some q) (n : Nat) :
    (s.atCompletion c k x n).queue? (queueOf k) = some (q.advance n) :=
  (State.queue?_congr (congrArg Cq.queues (s.atCompletion_cq c k x n)) _).trans
    (State.queue?_modQ_self (s := s.modCmd c Slot.atPoint) h _)

/-- Of the registers, the completion point changes its counters. -/
theorem State.atCompletion_regs (s : State) (c k : Nat) (x : Slot) (n : Nat) : (s.atCompletion c k x n).regs =
    ((s.bump A.CQ_COMPLETED).when (x.status == St.aborted || x.status == St.abortedByReset) fun s => s.bump A.CQ_ABORTED).regs := by
  have acc : (s.endAccess x.access).regs = s.regs := (s.endAccess_frame _).regs_eq
  unfold State.atCompletion
  exact State.regs_when_congr (State.regs_bump_congr acc _ _) fun h => State.regs_bump_congr h _ _

/-- The completion point counts in CQ_COMPLETED. -/
theorem State.pair_atCompletion_completed (s : State) (c k : Nat) (x : Slot) (n : Nat) :
    (s.atCompletion c k x n).pair A.CQ_COMPLETED = (s.pair A.CQ_COMPLETED + 1) % 2 ^ 64 := by
  have aborted : ∀ t : State, (t.bump A.CQ_ABORTED).pair A.CQ_COMPLETED = t.pair A.CQ_COMPLETED :=
    State.pair_bump_ne (by decide) 1
  rw [State.pair_congr (s.atCompletion_regs c k x n), State.pair_when (aborted _), State.pair_bump_self]

/-- An aborted command counts in CQ_ABORTED too. -/
theorem State.pair_atCompletion_aborted (hx : x.status = St.aborted) (s : State) (c k n : Nat) :
    (s.atCompletion c k x n).pair A.CQ_ABORTED = (s.pair A.CQ_ABORTED + 1) % 2 ^ 64 := by
  rw [State.pair_congr (s.atCompletion_regs c k x n), hx]
  exact (State.pair_bump_self _ _ _).trans (by rw [State.pair_bump_ne (by decide)])

/-- What a completion needs for its entry to be sent at once: a bound ring, an ACTIVE SA with room and no message held, and no
live stripe write. -/
structure State.CanComplete (s : State) (c k : Nat) (x : Slot) (q : Queue) (tok : BitVec 128) : Prop where
  cmd : s.cmd? c = some (k, x)
  queue : s.queue? (queueOf k) = some q
  ring : q.ring = some tok
  live : s.str.live = []
  active : s.saState x.sa = Sas.active
  room : s.roomFor x.sa (msgOf .place 16 0 0 (.completion c) .none) = true
  held : s.trn.held = []

/-- A command that has been stopped can still complete, where the transport has nothing under way. -/
theorem State.CanComplete.stopWith (h : s.CanComplete c k x q tok) (htx : s.trn.tx = []) (status : Nat) :
    (s.stopWith c status).CanComplete c k (x.stoppedWith status) q tok := by
  have trn := State.stopWith_trn h.cmd status htx h.held
  have queues : (s.stopWith c status).cq.queues = s.cq.queues := by rw [State.stopWith_cq h.cmd]; rfl
  have inv : (s.stopWith c status).inv = s.inv := (s.stopWith_frame c status).inv_eq
  exact {
    cmd := State.cmd?_stopWith_self h.cmd status
    queue := (State.queue?_congr queues _).trans h.queue
    ring := h.ring
    live := State.stopWith_live h.cmd status h.live
    active := by rw [Slot.stoppedWith_sa, State.saState_congr trn, h.active]
    room := by rw [Slot.stoppedWith_sa, State.roomFor_congr trn inv rfl, h.room]
    held := (congrArg Trn.held trn).trans h.held }

theorem State.complete_eq (h : s.CanComplete c k x q tok) :
    s.complete c = (s.atCompletion c k x (ringEntries tok)).startMsg x.sa (completionMsg c k x q tok) := by
  unfold State.complete
  simp only [h.cmd, h.queue, h.ring, Option.bind_some, Option.map_some, State.markCompleted_idle h.live]
  rfl

/-- The completion point: the slot, the queue and the counters change as `State.atCompletion` says, and one message starts. -/
theorem State.complete_law (h : s.CanComplete c k x q tok) :
    Frame [.trn] (s.atCompletion c k x (ringEntries tok)) (s.complete c) ∧
      ∃ key id, (s.complete c).trn.tx = s.trn.tx ++ [{ completionMsg c k x q tok with key := key, sa := x.sa, id := id }] := by
  have trn := (s.atCompletion_frame c k x (ringEntries tok)).trn_eq
  have inv := (s.atCompletion_frame c k x (ringEntries tok)).inv_eq
  have room : (s.atCompletion c k x (ringEntries tok)).roomFor x.sa (completionMsg c k x q tok) = true :=
    (State.roomFor_congr trn inv rfl).trans h.room
  rw [State.complete_eq h, State.startMsg_taken ((State.saState_congr trn _).trans h.active) rfl room
    ((congrArg Trn.held trn).trans h.held), ← trn]
  exact State.takeTx_completion rfl

end

/-! ### A command is stopped and completes (R254, R257) -/

section
variable {s : State} {c k : Nat} {x : Slot} {q : Queue} {tok : BitVec 128}
variable (h : s.CanComplete c k x q tok) (htx : s.trn.tx = []) (status : Nat)
include h htx

/-- The completion point of a stopped command, but for the message sent. -/
theorem State.stopComplete_frame : Frame [.trn]
    ((s.stopWith c status).atCompletion c k (x.stoppedWith status) (ringEntries tok)) (s.stopComplete c status) :=
  (State.complete_law (h.stopWith htx status)).1

theorem State.stopComplete_pending : (s.stopComplete c status).pending = s.pending :=
  ((State.stopComplete_frame h htx status).pending_eq.trans (State.atCompletion_frame _ _ _ _ _).pending_eq).trans
    (s.stopWith_frame c status).pending_eq

/-- The command's slot is stopped and at its completion point. -/
theorem State.slot_stopComplete {j : Nat} (hj : Tab.find? j s.cq.slots = some x) :
    Tab.find? j (s.stopComplete c status).cq.slots = some (x.stoppedWith status).atPoint := by
  rw [(State.stopComplete_frame h htx status).cq_eq]
  exact State.slot_atCompletion_self (State.slot_stopWith_self h.cmd status hj)
    ((Slot.stoppedWith_order status x).trans (State.order_of_cmd? h.cmd)) _

/-- No other command is changed. -/
theorem State.cmd?_stopComplete_ne {d : Nat} (hd : d ≠ c) : (s.stopComplete c status).cmd? d = s.cmd? d :=
  ((State.cmd?_congr (congrArg Cq.slots (State.stopComplete_frame h htx status).cq_eq) d).trans
    (State.cmd?_atCompletion_ne hd _ _ _ _)).trans (State.cmd?_stopWith_ne h.cmd status hd)

/-- An aborted command is counted. -/
theorem State.pair_stopComplete_aborted (ha : x.state ≠ .completing) (hs : x.stopped = false) :
    (s.stopComplete c St.aborted).pair A.CQ_ABORTED = (s.pair A.CQ_ABORTED + 1) % 2 ^ 64 := by
  rw [State.pair_congr (State.stopComplete_frame h htx St.aborted).regs_eq,
    State.pair_atCompletion_aborted (Slot.stoppedWith_status ha hs _), State.pair_congr (s.stopWith_frame c St.aborted).regs_eq]

end

/-! ### The rows of completions, time-outs and aborts -/

section
variable {s : State} {c k : Nat} {x : Slot}

/-- COMPLETION_POINT of a finished command whose data has been sent. -/
theorem State.completionPoint_due (h : s.cmd? c = some (k, x)) (ha : x.state ≠ .completing) (hw : x.wait = .finished)
    (hd : s.dataUnsent c = false) : s.completionPoint c = s.complete c := by
  simp [State.completionPoint, h, Slot.alive, ha, hw, hd]

/-- A slot whose command's time-out has been told. -/
def Slot.told (x : Slot) : Slot := { x with timedOut := true }

/-- The Wardens are told that a command's time is over (R258). -/
def State.tellTimeout (s : State) (c : Nat) : State :=
  (((s.modCmd c Slot.told).bump A.CQ_TIMEOUTS).flag F.CQ_STATUS_TIMEOUT).event (.commandTimeout c)

/-- COMMAND_TIMEOUT of a command that is due and has not been told. -/
theorem State.commandTimeout_due (h : s.cmd? c = some (k, x)) (ha : x.state ≠ .completing)
    (hd : x.accepted + 8000000000 ≤ s.now) (ht : x.timedOut = false) : s.commandTimeout c = s.tellTimeout c := by
  have due : ¬ s.now < x.accepted + 8000000000 := by omega
  simp [State.commandTimeout, h, Slot.alive, ha, due, ht]
  rfl

theorem State.tellTimeout_frame (s : State) (c : Nat) : Frame [.cq, .regs, .wdn] s (s.tellTimeout c) :=
  ((((s.modCmd_frame c _).mono (by decide)).trans ((State.bump_frame _ _ _).mono (by decide))).trans
    ((State.flag_frame _ _).mono (by decide))).trans ((State.event_frame _ _).mono (by decide))

theorem State.cmd?_tellTimeout (h : s.cmd? c = some (k, x)) : (s.tellTimeout c).cmd? c = some (k, x.told) := by
  have cq : (s.tellTimeout c).cq = (s.modCmd c Slot.told).cq := by
    rw [State.tellTimeout, State.event_cq, State.flag_cq, State.bump_cq]
  exact (State.cmd?_congr (congrArg Cq.slots cq) c).trans (State.cmd?_modCmd_self (fun _ => rfl) h)

theorem State.is_tellTimeout (s : State) (c : Nat) : (s.tellTimeout c).is F.CQ_STATUS_TIMEOUT = true :=
  (State.is_congr (State.event_regs _ _) _).trans (State.is_flag _ (by decide) (by decide))

theorem State.events_tellTimeout (s : State) (c : Nat) :
    (s.tellTimeout c).wdn.events = s.wdn.events ++ [.commandTimeout c] := by
  rw [State.tellTimeout, State.event, State.flag_wdn, State.bump_wdn]
  rfl

theorem State.pair_tellTimeout (s : State) (c : Nat) :
    (s.tellTimeout c).pair A.CQ_TIMEOUTS = (s.pair A.CQ_TIMEOUTS + 1) % 2 ^ 64 := by
  rw [State.tellTimeout, State.pair_congr (State.event_regs _ _), State.pair_flag_ne (by decide) (by decide),
    State.pair_bump_self, State.pair_congr (s.modCmd_frame c _).regs_eq]

/-- ABORT of a command that it finds before its completion point. -/
theorem State.adminAbort_found {y : Slot} (h : s.adminCmd c 0x23 = some (k, x))
    (hy : Tab.find? (namedQueue k x * 32 + x.arg0 / 256 % 32) s.cq.slots = some y)
    (hi : getPart y.cap Cap.incarnation = x.arg0 / 65536) (ha : y.state ≠ .completing) :
    s.adminAbort c = (s.stopComplete y.order St.aborted).finish c St.success := by
  have named : (Tab.find? (namedQueue k x * 32 + x.arg0 / 256 % 32) s.cq.slots).filter
      (fun y => getPart y.cap Cap.incarnation == x.arg0 / 65536) = some y := by simp [hy, Option.filter, hi]
  rw [State.adminAbort, State.admin_taken h]
  dsimp only
  rw [named]
  simp [Slot.alive, ha]

end

end Sys2Proof.Machine
end

section
/-!
SUPPORT. What the failing of a message or of a command leaves (R171, R248): no message is started, and no status of the transport
or of the read service is lost.
-/

namespace Sys2Proof.Machine

/-- A change that starts no message and leaves the status words of the transport and of the read service. -/
structure Withdrawal (s t : State) : Prop where
  keys : ∀ m ∈ t.trn.tx, ∃ m' ∈ s.trn.tx, m'.key = m.key
  trnStatus : t.word F.TRN_STATUS_MSG_FAILED.addr = s.word F.TRN_STATUS_MSG_FAILED.addr
  rsvStatus : t.word F.RSV_STATUS_HOLD_EXPIRED.addr = s.word F.RSV_STATUS_HOLD_EXPIRED.addr

section
variable {s t u : State}

theorem Withdrawal.refl (s : State) : Withdrawal s s := ⟨fun m hm => ⟨m, hm, rfl⟩, rfl, rfl⟩

theorem Withdrawal.trans (h : Withdrawal s t) (h' : Withdrawal t u) : Withdrawal s u where
  keys m hm := by
    obtain ⟨m1, hm1, e1⟩ := h'.keys m hm
    obtain ⟨m2, hm2, e2⟩ := h.keys m1 hm1
    exact ⟨m2, hm2, e2.trans e1⟩
  trnStatus := h'.trnStatus.trans h.trnStatus
  rsvStatus := h'.rsvStatus.trans h.rsvStatus

/-- A change of other fields than the registers and the transport. -/
theorem Withdrawal.of_frame {l : List Blk} (h : Frame l s t) (hr : Blk.regs ∉ l := by decide)
    (ht : Blk.trn ∉ l := by decide) : Withdrawal s t where
  keys m hm := ⟨m, h.trn_eq ht ▸ hm, rfl⟩
  trnStatus := State.word_congr (h.regs_eq hr) _
  rsvStatus := State.word_congr (h.regs_eq hr) _

theorem Withdrawal.each {α : Type} {f : State → α → State} (h : ∀ s a, Withdrawal s (f s a)) (l : List α) (s : State) :
    Withdrawal s (s.each l f) := by
  induction l generalizing s with
  | nil => exact Withdrawal.refl s
  | cons a l ih => exact (h s a).trans (ih (f s a))

/-- Counting outside the two status words. -/
theorem Withdrawal.bump {a : Nat} (s : State) (n : Nat)
    (h : a ≠ F.TRN_STATUS_MSG_FAILED.addr ∧ a + 4 ≠ F.TRN_STATUS_MSG_FAILED.addr := by decide)
    (h' : a ≠ F.RSV_STATUS_HOLD_EXPIRED.addr ∧ a + 4 ≠ F.RSV_STATUS_HOLD_EXPIRED.addr := by decide) :
    Withdrawal s (s.bump a n) :=
  ⟨fun m hm => ⟨m, hm, rfl⟩, s.word_bump_ne n h.1 h.2, s.word_bump_ne n h'.1 h'.2⟩

/-- A status of another word than the two. -/
theorem Withdrawal.flag {f : Fld} (s : State) (h : f.addr ≠ F.TRN_STATUS_MSG_FAILED.addr := by decide)
    (h' : f.addr ≠ F.RSV_STATUS_HOLD_EXPIRED.addr := by decide) : Withdrawal s (s.flag f) :=
  ⟨fun m hm => ⟨m, hm, rfl⟩, s.word_flag_ne h, s.word_flag_ne h'⟩

theorem Withdrawal.is_msgFailed (h : Withdrawal s t) : t.is F.TRN_STATUS_MSG_FAILED = s.is F.TRN_STATUS_MSG_FAILED := by
  simp only [State.is, State.fld, h.trnStatus]

theorem Withdrawal.is_holdExpired (h : Withdrawal s t) : t.is F.RSV_STATUS_HOLD_EXPIRED = s.is F.RSV_STATUS_HOLD_EXPIRED := by
  simp only [State.is, State.fld, h.rsvStatus]

/-- A send entry that is gone stays gone. -/
theorem Withdrawal.tx?_eq_none {key : Nat} (h : Withdrawal s t) (hs : s.tx? key = none) : t.tx? key = none := by
  simp only [State.tx?, List.find?_eq_none, beq_iff_eq] at *
  intro m hm
  obtain ⟨m', hm', e⟩ := h.keys m hm
  exact e ▸ hs m' hm'

end

/-! ### The Tally (R711, R714) -/

theorem Withdrawal.tallyPut (s : State) (r : BitVec 512) : Withdrawal s (s.tallyPut r) := by
  have mgt : ∀ v, Withdrawal s { s with mgt := v } := fun v => Withdrawal.of_frame (s.onMgt_frame fun _ => v)
  unfold State.tallyPut
  dsimp only
  split
  · exact (mgt _).trans (Withdrawal.bump _ 1)
  · exact (((mgt _).trans (Withdrawal.bump _ 1)).trans (Withdrawal.bump _ 1)).trans (Withdrawal.flag _)

theorem Withdrawal.tallyFrame (s : State) (cls : Nat) (r : BitVec 512) : Withdrawal s (s.tallyFrame cls r) := by
  unfold State.tallyFrame
  split
  · split
    · exact Withdrawal.of_frame (s.onMgt_frame fun _ => _)
    · exact (Withdrawal.bump s 1).trans (Withdrawal.flag _)
  · exact Withdrawal.refl s

theorem Withdrawal.tallyRaw (s : State) (b cls code i : Nat) (l : List Nat) : Withdrawal s (s.tallyRaw b cls code i l) := by
  have put : ∀ r, Withdrawal s ((s.tallyPut r).tallyFrame cls r) := fun r =>
    (Withdrawal.tallyPut s r).trans (Withdrawal.tallyFrame _ cls r)
  unfold State.tallyRaw
  dsimp only
  split
  · exact (put _).trans (Withdrawal.of_frame (State.event_frame _ _))
  · exact put _

/-! ### Ends of commands and of queues (R248, R255) -/

theorem Withdrawal.stopCmd (s : State) (c : Nat) : Withdrawal s (s.stopCmd c) where
  keys m hm := by
    cases h : s.cmd? c with
    | none => exact ⟨m, by rwa [State.stopCmd_none h] at hm, rfl⟩
    | some y => exact Trn.stop_keys (State.stopCmd_trn h ▸ hm)
  trnStatus := State.word_congr (s.stopCmd_frame c).regs_eq _
  rsvStatus := State.word_congr (s.stopCmd_frame c).regs_eq _

theorem Withdrawal.endUndelivered (s : State) (c : Nat) : Withdrawal s (s.endUndelivered c) := by
  unfold State.endUndelivered
  split
  · exact ((Withdrawal.stopCmd s c).trans (Withdrawal.of_frame (State.onCq_frame _ fun _ => _))).trans (Withdrawal.bump _ 1)
  · exact Withdrawal.refl s

theorem Withdrawal.queueFailed (s : State) (slot : Nat) (cap : BitVec 512) (status : Nat) :
    Withdrawal s (s.queueFailed slot cap status) := by
  unfold State.queueFailed
  dsimp only
  split
  · exact Withdrawal.refl s
  · split
    · exact Withdrawal.refl s
    · have ended : Withdrawal s
          ((s.moveIncarnation (queueOf slot)).each (s.queueCmds (queueOf slot)) fun s c => s.endUndelivered c) :=
        (Withdrawal.of_frame (s.onCq_frame fun _ => _)).trans (Withdrawal.each Withdrawal.endUndelivered _ _)
      split
      · exact (ended.trans (Withdrawal.of_frame (State.modQ_frame _ _ _))).trans (Withdrawal.tallyRaw _ _ _ _ _ _)
      · exact ((ended.trans (Withdrawal.of_frame (State.modQ_frame _ _ _))).trans (Withdrawal.flag _)).trans
          (Withdrawal.tallyRaw _ _ _ _ _ _)

theorem Withdrawal.undeliverable (s : State) (c : Nat) : Withdrawal s (s.undeliverable c) := by
  unfold State.undeliverable
  split
  · exact (Withdrawal.endUndelivered s c).trans (Withdrawal.queueFailed _ _ _ _)
  · exact Withdrawal.refl s

theorem Withdrawal.endUse (s : State) (u : MsgUse) (status : Nat) : Withdrawal s (s.endUse u status) := by
  cases u with
  | readData c _ => exact Withdrawal.undeliverable s c
  | completion c => exact Withdrawal.undeliverable s c
  | fetch c =>
    exact (Withdrawal.of_frame (s.finish_frame c status)).trans ⟨fun m hm => Trn.stop_keys hm, rfl, rfl⟩
  | fetchReply _ => exact Withdrawal.refl s
  | group _ => exact Withdrawal.refl s

theorem Withdrawal.endReply (s : State) (m : TxMsg) : Withdrawal s (s.endReply m) := by
  unfold State.endReply
  split
  · exact Withdrawal.of_frame (s.endAccess_frame _)
  · exact Withdrawal.refl s

/-! ### A message fails (R171) -/

section
variable (s : State) (m : TxMsg) (status : Nat)

/-- The status and the counter of a failed message, whose send entry is gone. -/
def State.failNoted (s : State) (m : TxMsg) : State :=
  ((s.dropTx m.key).bump A.TRN_MSG_FAILED).flag F.TRN_STATUS_MSG_FAILED

/-- After its status is set, a failed message's end starts no message and loses no status. -/
theorem State.msgFail_withdrawal : Withdrawal (s.failNoted m) (s.msgFail m status) :=
  ((Withdrawal.tallyRaw _ _ _ _ _ _).trans (Withdrawal.endReply _ m)).trans (Withdrawal.endUse _ _ _)

/-- A failed message's send entry is gone. -/
theorem State.tx?_msgFail : (s.msgFail m status).tx? m.key = none :=
  (s.msgFail_withdrawal m status).tx?_eq_none (by simp [State.tx?, State.failNoted, State.dropTx])

theorem State.is_msgFail : (s.msgFail m status).is F.TRN_STATUS_MSG_FAILED = true := by
  rw [(s.msgFail_withdrawal m status).is_msgFailed]
  exact State.is_flag _ (by decide) (by decide)

/-- A failed message leaves the read service's status. -/
theorem State.is_holdExpired_msgFail :
    (s.msgFail m status).is F.RSV_STATUS_HOLD_EXPIRED = s.is F.RSV_STATUS_HOLD_EXPIRED := by
  rw [(s.msgFail_withdrawal m status).is_holdExpired, State.failNoted, State.is_flag_apart _ (Or.inl (by decide))]
  simp only [State.is, State.fld_bump_ne _ 1 (f := F.RSV_STATUS_HOLD_EXPIRED) (a := A.TRN_MSG_FAILED) (by decide) (by decide)]
  rfl

end

end Sys2Proof.Machine
end

section
/-!
SUPPORT. What the rows of the read service do (10_read_service.md), each in the cases of its statement.
-/

namespace Sys2Proof.Machine

/-! ### Pending reads and fills (R433, R438, R439) -/

section
variable {s : State} {n i : Nat} {p : PendingRead}

/-- A pending read ends. -/
def State.dropPend (s : State) (n : Nat) : State := s.onRsv fun r => { r with pending := r.pending.filter fun q => q.name != n }

/-- A fill with a failed block leaves its slot FREE. -/
def State.fillFailed (s : State) (n i : Nat) : State := ((s.dropPend n).lineState i 0).flag F.RSV_STATUS_FILL_FAILED

/-- A read whose blocks have their outcome serves its waiters; it ends, or stays closed while it fills a line. -/
theorem State.pendReady_done (h : s.pend? n = some p) (hd : p.done = true) (hc : p.cut = false) : s.pendReady n =
    if p.fill.isSome then
      (s.each p.waiters fun s c => s.serveWaiter p c fun _ => true).modPend n fun p => { p with isOpen := false, waiters := [] }
    else (s.each p.waiters fun s c => s.serveWaiter p c fun _ => true).dropPend n := by
  simp only [State.pendReady, h, hd, hc, if_true, Bool.false_eq_true, if_false]
  rfl

/-- A fill that nobody waits for any more ends with its line VALID, or with its slot FREE where a block failed. -/
theorem State.fillDone_ends (h : s.pend? n = some p) (hf : p.fill = some i) (hd : p.done = true) (hw : p.waiters = [])
    (hs : p.stale = false) : s.fillDone n =
    if p.blocks.any fun y => y.verdict != some St.success then s.fillFailed n i else (s.dropPend n).lineState i 2 := by
  simp only [State.fillDone, h, hf, hd, hw, hs, List.isEmpty_nil, Bool.and_self, if_true, Bool.false_eq_true, if_false]
  rfl

theorem State.dropPend_frame (s : State) (n : Nat) : Frame [.rsv] s (s.dropPend n) := s.onRsv_frame _

/-- The end of a fill as its slot's new state: the read service and the Cellar change. -/
theorem State.fillEnd_frame (s : State) (n i st : Nat) : Frame [.rsv, .hst] s ((s.dropPend n).lineState i st) :=
  ((s.dropPend_frame n).mono (by decide)).trans (State.lineState_frame _ i st)

theorem State.fillEnd_pending (s : State) (n i st : Nat) :
    ((s.dropPend n).lineState i st).rsv.pending = s.rsv.pending.filter fun q => q.name != n := by
  rw [State.lineState_rsv]
  rfl

theorem State.dirEnt_dropPend (s : State) (n j : Nat) : (s.dropPend n).dirEnt j = s.dirEnt j := rfl

theorem State.dirEnt_fillEnd_self (s : State) (n i st : Nat) :
    ((s.dropPend n).lineState i st).dirEnt i = entryIn (s.dirEnt i) st := by
  rw [State.dirEnt_lineState_self, State.dirEnt_dropPend]

theorem State.dirEnt_fillEnd_ne {j : Nat} (h : j ≠ i) (s : State) (n st : Nat) :
    ((s.dropPend n).lineState i st).dirEnt j = s.dirEnt j := by
  rw [State.dirEnt_lineState_ne _ h, State.dirEnt_dropPend]

theorem State.fillFailed_frame (s : State) (n i : Nat) : Frame [.rsv, .hst, .regs] s (s.fillFailed n i) :=
  ((s.fillEnd_frame n i 0).mono (by decide)).trans ((State.flag_frame _ _).mono (by decide))

theorem State.fillFailed_rsv (s : State) (n i : Nat) : (s.fillFailed n i).rsv = ((s.dropPend n).lineState i 0).rsv :=
  State.flag_rsv _ _

theorem State.fillFailed_pending (s : State) (n i : Nat) :
    (s.fillFailed n i).rsv.pending = s.rsv.pending.filter fun q => q.name != n :=
  (congrArg Rsv.pending (s.fillFailed_rsv n i)).trans (s.fillEnd_pending n i 0)

theorem State.dirEnt_fillFailed_self (s : State) (n i : Nat) : (s.fillFailed n i).dirEnt i = 0 := by
  rw [State.dirEnt_congr _ i (s.fillFailed_rsv n i), State.dirEnt_fillEnd_self, entryIn_free]

theorem State.dirEnt_fillFailed_ne {j : Nat} (h : j ≠ i) (s : State) (n : Nat) : (s.fillFailed n i).dirEnt j = s.dirEnt j := by
  rw [State.dirEnt_congr _ j (s.fillFailed_rsv n i), State.dirEnt_fillEnd_ne h]

theorem State.is_fillFailed (s : State) (n i : Nat) : (s.fillFailed n i).is F.RSV_STATUS_FILL_FAILED = true :=
  State.is_flag _ (by decide) (by decide)

theorem State.serial_dropPend (s : State) (n : Nat) : (s.dropPend n).rsv.serial = s.rsv.serial := rfl

/-- HEDGE_START with hedging off, or nothing to read around. -/
theorem State.hedgeStart_none (h : s.pend? n = some p) (hq : s.is F.RSV_CTRL_HEDGE_EN = false ∨ s.hedgeable p = []) :
    s.hedgeStart n = s := by
  unfold State.hedgeStart
  rw [h]
  rcases hq with hq | hq <;> simp [State.with?, hq]

/-- A pending read that reads around some more of its blocks. -/
def PendingRead.hedge (l : List Nat) (p : PendingRead) : PendingRead :=
  { p with hedged := p.hedged ++ l, around := p.around ++ l }

/-- A pending read's slow blocks are read around from now on, counted. -/
def State.readAround (s : State) (n : Nat) (l : List Nat) : State :=
  (s.modPend n (PendingRead.hedge l)).bump A.RSV_HEDGES

theorem State.hedgeStart_some (h : s.pend? n = some p) (he : s.is F.RSV_CTRL_HEDGE_EN = true) (hq : s.hedgeable p ≠ []) :
    s.hedgeStart n = (s.readAround n (s.hedgeable p)).pendEval n := by
  unfold State.hedgeStart
  rw [h]
  simp only [State.with?, he, if_true, hq, if_false]
  rfl

/-- A pending read's change is read by its name. -/
theorem State.pend?_modPend (h : s.pend? n = some p) {f : PendingRead → PendingRead} (hf : ∀ p, (f p).name = p.name) :
    (s.modPend n f).pend? n = some (f p) := by
  have name : ∀ p : PendingRead, (if p.name = n then f p else p).name = p.name := fun p => by split <;> simp [hf]
  have hn : p.name = n := by simpa using List.find?_some h
  have hp : s.rsv.pending.find? (fun p => p.name == n) = some p := h
  simp [State.pend?, State.modPend, State.onRsv, List.find?_map, name, hp, hn]

end

/-! ### Destinations whose time is over (R435, Table 10-4) -/

section
variable {s : State} {d : Dest} {c : Nat}

/-- A destination still held 64 ms after its request. -/
def State.overdue (s : State) (d : Dest) : Bool :=
  decide (d.since + 64000000 ≤ s.now) && (d.cmd.isSome || d.lastPacket.isNone)

theorem decide_holdTime (x now : Nat) : decide (x + holdTime ≤ now) = decide (x + 64000000 ≤ now) :=
  decide_eq_decide.2 (by rw [holdTime])

theorem State.overdue_eq (s : State) :
    s.overdue = fun d => decide (d.since + holdTime ≤ s.now) && (d.cmd.isSome || d.lastPacket.isNone) := by
  funext d
  rw [decide_holdTime, State.overdue]

/-- A message that carries data of a command or its completion. -/
def TxMsg.serves (c : Nat) (m : TxMsg) : Bool :=
  match m.use with
  | .readData e _ => e == c
  | .completion e => e == c
  | _ => false

/-- The expiry of a hold is counted and told. -/
def State.holdNoted (s : State) : State := (s.bump A.RSV_HOLD_EXPIRED).flag F.RSV_STATUS_HOLD_EXPIRED

/-- A command whose destination is given up: its message fails, or it cannot be delivered. -/
def State.failServed (s : State) (c : Nat) : State :=
  match s.trn.tx.find? (TxMsg.serves c) with
  | some m => s.msgFail m m.failStatus
  | none => s.undeliverable c

theorem State.pinExpiry_none (h : s.rsv.dests.find? s.overdue = none) : s.pinExpiry = s := by
  rw [State.overdue_eq] at h
  rw [State.pinExpiry, h]

theorem State.pinExpiry_some (h : s.rsv.dests.find? s.overdue = some d) :
    s.pinExpiry = (s.holdNoted.with? d.cmd State.failServed).releaseDests fun x => decide (x = d) := by
  rw [State.overdue_eq] at h
  rw [State.pinExpiry, h]
  dsimp only
  cases d.cmd <;> rfl

theorem State.pinExpiry_unserved (h : s.rsv.dests.find? s.overdue = some d) (hc : d.cmd = none) :
    s.pinExpiry = s.holdNoted.releaseDests fun x => decide (x = d) := by
  rw [State.pinExpiry_some h, hc]
  rfl

theorem State.pinExpiry_served (h : s.rsv.dests.find? s.overdue = some d) (hc : d.cmd = some c) :
    s.pinExpiry = (s.holdNoted.failServed c).releaseDests fun x => decide (x = d) := by
  rw [State.pinExpiry_some h, hc]
  rfl

theorem State.is_holdNoted (s : State) : s.holdNoted.is F.RSV_STATUS_HOLD_EXPIRED = true :=
  State.is_flag _ (by decide) (by decide)

theorem State.pair_holdNoted (s : State) :
    s.holdNoted.pair A.RSV_HOLD_EXPIRED = (s.pair A.RSV_HOLD_EXPIRED + 1) % 2 ^ 64 := by
  rw [State.holdNoted, State.pair_flag_ne (by decide) (by decide), State.pair_bump_self]

theorem State.holdNoted_frame (s : State) : Frame [.regs] s s.holdNoted := (s.bump_frame _ _).trans (State.flag_frame _ _)

theorem State.is_holdExpired_failServed (s : State) (c : Nat) :
    (s.failServed c).is F.RSV_STATUS_HOLD_EXPIRED = s.is F.RSV_STATUS_HOLD_EXPIRED := by
  unfold State.failServed
  split
  · exact s.is_holdExpired_msgFail _ _
  · exact (Withdrawal.undeliverable s c).is_holdExpired

/-- The message of a command whose destination is given up fails. -/
theorem State.failServed_found {m : TxMsg} (h : s.trn.tx.find? (TxMsg.serves c) = some m) :
    s.failServed c = s.msgFail m m.failStatus := by simp only [State.failServed, h]

theorem State.tx?_congr {t : State} (h : t.trn = s.trn) (key : Nat) : t.tx? key = s.tx? key := by
  simp only [State.tx?, h]

theorem State.copyRelease_eq (s : State) : s.copyRelease =
    s.releaseDests fun d => d.cmd.isNone && d.lastPacket.any fun x => decide (x + 64000000 ≤ s.now) := by
  simp only [State.copyRelease, decide_holdTime]

end

/-! ### Group delivery and stomped packets (R441, R442, R450) -/

section
variable {s : State} {i : Nat}

/-- The port copies of a line. -/
def State.portCopies (s : State) (i : Nat) : State :=
  s.each ((List.range 8).filter fun n => s.is (F.RSV_GROUP_SA_VALID n)) fun s n => s.portCopy i n

theorem State.groupSend_ready (h : s.groupReadyLine i = true) : s.groupSend i = (s.portCopies i).setDir i
    (putPart ((s.portCopies i).dirEnt i) Dir.groupSent ((s.portCopies i).now / 1000000 % 2 ^ 32)) := if_pos h

variable {key q : Nat} {m : TxMsg} {p : TxPacket} {payload : List Byte} {runs : List (Nat × Nat)}

theorem State.stompResend_whole (hm : s.tx? key = some m) (hp : m.packet? i = some p) (h : p.stomped = false) :
    s.stompResend key i = s := by simp [State.stompResend, hm, hp, h]

/-- A stomped packet as it goes again, on a path. -/
def TxPacket.again (q : Nat) (runs : List (Nat × Nat)) (now : Nat) (p : TxPacket) : TxPacket :=
  { p with stomped := false, resent := true, path := q, runs := runs, sentAt := now }

/-- A stomped packet whose verdicts are known goes again under its own index. -/
theorem State.stompResend_again (hm : s.tx? key = some m) (hp : m.packet? i = some p) (hc : s.cutOf m i = none)
    (hq : choosePath (s.sa m.sa) p.path false = some q) (hpay : s.payloadOf m i = some (payload, runs))
    (h : p.stomped = true) (ho : s.tooOld m.first = false) (he : s.is F.TRN_CTRL_EN = true) :
    s.stompResend key i = (s.modPacket key i (TxPacket.again q runs s.now)).sendTx m i q true payload runs := by
  simp only [State.stompResend, hm, hp, hc, hq, hpay, h, ho, he]
  rfl

end

end Sys2Proof.Machine
end

section
/-!
The statements about completions and aborts (06_command_queues.md) and about the read service (10_read_service.md).
-/

namespace Sys2Proof.Machine

/-- Settles O21: a completion starts one message of 16 bytes at the producer index; ABORT's target is stopped and completes, and
the features of an endpoint are read and set in its own slot of the table. -/
theorem completionsAndAborts : Obligations.CompletionsAndAborts := by
  unfold Obligations.CompletionsAndAborts
  refine ⟨⟨?point, ?timeout⟩, ?abort, ?get, ?set⟩
  case point =>
    intro c k x q tok s hawake hc ha hw hd hq hr hl hsa hroom hheld
    obtain ⟨frame, key, id, tx⟩ := State.complete_law ⟨hc, hq, hr, hl, hsa, hroom, hheld⟩
    have point := s.atCompletion_frame c k x (ringEntries tok)
    refine ⟨_, x.atPoint, _, State.awake_next hawake (State.completionPoint_due hc ha hw hd)
      (frame.pending_eq.trans point.pending_eq), ?_, rfl, rfl, ?_, ?_, tx, rfl, rfl, rfl, rfl, rfl, rfl⟩
    · exact (State.cmd?_congr (congrArg Cq.slots frame.cq_eq) c).trans (State.cmd?_atCompletion hc _)
    · exact (State.queue?_congr (congrArg Cq.queues frame.cq_eq) _).trans (State.queue?_atCompletion hq _)
    · exact (State.pair_congr frame.regs_eq _).trans (s.pair_atCompletion_completed c k x _)
  case timeout =>
    intro c k x s hawake hc ha hd ht
    have frame := s.tellTimeout_frame c
    exact ⟨_, State.awake_next hawake (State.commandTimeout_due hc ha hd ht) frame.pending_eq, State.cmd?_tellTimeout hc,
      s.is_tellTimeout c, s.pair_tellTimeout c, s.events_tellTimeout c, frame.eq_cq_regs_wdn⟩
  case abort =>
    rintro c key tgt x y q tok s hawake hx rfl hy hcy hi ha hs hne hq hr hl hheld htx hsa hroom
    have can : s.CanComplete y.order (namedQueue key x * 32 + x.arg0 / 256 % 32) y q tok :=
      ⟨hcy, hq, hr, hl, hsa, hroom, hheld⟩
    have other := State.cmd?_stopComplete_ne can htx St.aborted (Ne.symm hne)
    refine ⟨_, (y.stoppedWith St.aborted).atPoint, State.awake_next hawake (State.adminAbort_found hx hy hi ha)
      (State.stopComplete_pending can htx _), ?_, rfl, Slot.stoppedWith_status ha hs _, rfl, ?_,
      State.cmd?_finish_admin hx other _⟩
    · exact State.slot_modCmd_ne (State.slot_stopComplete can htx _ hy) ((y.stoppedWith_order _).trans_ne hne)
    · rw [State.pair_congr (State.finish_frame _ _ _).regs_eq, State.pair_stopComplete_aborted can htx ha hs]
  case get =>
    intro c key x s hawake hx
    obtain ⟨hc, hs, hw⟩ := State.adminCmd_some hx
    exact ⟨_, State.awake_next hawake (State.admin_taken hx _) rfl, rfl,
      State.cmd?_finish (State.cmd?_setResult hc _) (by simp [hs]) (by simp [hw]) _⟩
  case set =>
    intro c key x s hawake hx harg
    refine ⟨_, State.awake_next hawake (State.admin_taken hx _) rfl, rfl, State.cmd?_finish_admin hx rfl _, fun h => ?_,
      fun h => ?_, fun e he => State.ep_setEp_ne he s _⟩
    · exact (s.ep_setEp_self _ _).trans (if_pos h)
    · exact (s.ep_setEp_self _ _).trans (if_neg (by omega))

/-- Settles O33: pending reads and fills, hedges and decays, then destinations, group delivery and stomped packets. -/
theorem readService : Obligations.ReadService := by
  unfold Obligations.ReadService
  refine ⟨⟨?ready, ?fill, ?hedge, ?latency, ?hotness⟩, ?expiry, ?expiryServed, ?copies, ?group, ?stomp⟩
  case ready =>
    intro n p s hawake hp hd hc
    refine ⟨_, _, State.awake_eq hawake (State.pendReady_done hp hd hc), rfl, fun hf => ?_, fun hf => ?_⟩
    · rw [hf]
      rfl
    · rw [if_pos hf]
  case fill =>
    intro n i p s hawake hp hf hd hw hs
    have row := State.fillDone_ends hp hf hd hw hs
    by_cases hb : ∃ y ∈ p.blocks, y.verdict ≠ some St.success
    · have failed := row.trans (if_pos (by simpa using hb))
      have frame := s.fillFailed_frame n i
      refine ⟨_, State.awake_next hawake failed frame.pending_eq, frame.eq_rsv_hst_regs, s.fillFailed_pending n i,
        fun k hk => State.dirEnt_fillFailed_ne hk s n, fun h => ?_,
        fun _ => ⟨s.dirEnt_fillFailed_self n i, s.is_fillFailed n i⟩⟩
      obtain ⟨y, hy, hv⟩ := hb
      exact absurd (h y hy) hv
    · have filled := row.trans (if_neg (by simpa using hb))
      have frame := s.fillEnd_frame n i 2
      refine ⟨_, State.awake_next hawake filled frame.pending_eq, (frame.mono (by decide)).eq_rsv_hst_regs,
        s.fillEnd_pending n i 2, fun k hk => State.dirEnt_fillEnd_ne hk s n 2, fun _ => ⟨?_, ?_, ?_, frame.regs_eq⟩,
        fun h => absurd h hb⟩
      · rw [State.dirEnt_fillEnd_self, dirState_entryIn_valid]
      · rw [State.dirEnt_fillEnd_self, line_entryIn_valid]
      · rw [State.serial_lineState_valid, State.serial_dropPend]
  case hedge =>
    intro n p s hawake hp
    refine ⟨fun hq => State.awake_next hawake (State.hedgeStart_none hp hq) rfl, fun he hq => ?_⟩
    exact ⟨_, s.readAround n (s.hedgeable p), State.awake_eq hawake (State.hedgeStart_some hp he hq), rfl,
      State.pend?_modPend (f := PendingRead.hedge _) hp fun _ => rfl, rfl, State.pair_bump_self _ _ _⟩
  case latency =>
    intro s hawake
    obtain ⟨v, hv⟩ := s.latencyDecay_lat
    refine ⟨_, State.awake_next hawake rfl (by rw [hv]), by rw [hv], ?_⟩
    rintro n hn k rfl
    rw [State.lat_latencyDecay hn]
    exact ⟨rfl, rfl, fun h => by simp only [Latency.aged, h]; rfl⟩
  case hotness =>
    intro s hawake
    refine ⟨fun h => State.awake_next hawake (if_pos h) rfl, fun h hnodup hdue => ?_⟩
    obtain ⟨v, row⟩ := State.hotDecay_due h hdue
    have entry := State.dirEnt_each_halveHot { s with served := v } hnodup
    obtain ⟨w, hw⟩ := { s with served := v }.each_halveHot_eq (s.rsv.dir.map Prod.fst)
    rw [hw] at row entry
    refine ⟨_, State.awake_next hawake row rfl, rfl, rfl, fun i => ?_, fun i => ⟨?_, ?_⟩, fun x hx => ?_⟩
    · exact (congrArg (getPart · Dir.hot) (entry i)).trans (hot_halvedHot _)
    · exact (congrArg (getPart · Dir.line) (entry i)).trans (line_halvedHot _)
    · exact (congrArg dirState (entry i)).trans (dirState_halvedHot _)
    · obtain ⟨y, hy, rfl⟩ := List.mem_map.1 (List.mem_filter.1 hx).1
      exact ⟨y, hy, rfl⟩
  case expiry =>
    intro s hawake
    refine ⟨fun h => State.awake_next hawake (State.pinExpiry_none ?_) rfl, fun d hd hc => ?_⟩
    · refine List.find?_eq_none.2 fun d hd => ?_
      have early : ¬ d.since + 64000000 ≤ s.now := Nat.not_le.2 (h d hd)
      simp [State.overdue, early]
    · have frame := (s.holdNoted_frame.mono (k := [.rsv, .hst, .regs]) (by decide)).trans
        ((State.releaseDests_frame _ fun x => decide (x = d)).mono (by decide))
      have regs := (State.releaseDests_frame s.holdNoted fun x => decide (x = d)).regs_eq
      exact ⟨_, State.awake_next hawake (State.pinExpiry_unserved hd hc) frame.pending_eq, frame.eq_rsv_hst_regs,
        State.releaseDests_dests _ _,
        (State.is_congr regs _).trans s.is_holdNoted, (State.pair_congr regs _).trans s.pair_holdNoted⟩
  case expiryServed =>
    intro d c s hawake hd hc
    have release := State.releaseDests_frame (s.holdNoted.failServed c) fun x => decide (x = d)
    refine ⟨_, State.awake_eq hawake (State.pinExpiry_served hd hc), ?_, fun x hx => ?_, fun m hm => ?_⟩
    · exact (State.is_congr release.regs_eq _).trans ((State.is_holdExpired_failServed _ c).trans s.is_holdNoted)
    · have kept := (State.releaseDests_dests _ _) ▸ hx
      simpa using (List.mem_filter.1 kept).2
    · rw [State.failServed_found (s := s.holdNoted) hm] at release ⊢
      exact ⟨(State.tx?_congr release.trn_eq _).trans (State.tx?_msgFail _ _ _),
        (State.is_congr release.regs_eq _).trans (State.is_msgFail _ _ _)⟩
  case copies =>
    intro s hawake
    have frame := s.releaseDests_frame fun d => d.cmd.isNone && d.lastPacket.any fun x => decide (x + 64000000 ≤ s.now)
    exact ⟨_, State.awake_next hawake s.copyRelease_eq frame.pending_eq, frame.eq_rsv_hst, s.releaseDests_dests _⟩
  case group =>
    intro i s hawake
    refine ⟨fun h => State.awake_next hawake (if_neg (by simp [h])) rfl, fun h => ?_⟩
    exact ⟨_, s.portCopies i, State.awake_eq hawake (State.groupSend_ready h), rfl, rfl, rfl, State.dirEnt_setDir_self _ i _,
      fun k hk => State.dirEnt_setDir_ne _ hk _⟩
  case stomp =>
    intro key i q m p payload runs s hawake hm hp hcut hq hpay
    refine ⟨fun h => State.awake_next hawake (State.stompResend_whole hm hp h) rfl, fun h ho he => ?_⟩
    exact ⟨_, _, State.awake_eq hawake (State.stompResend_again hm hp hcut hq hpay h ho he), rfl, rfl⟩

end Sys2Proof.Machine
end

section
/-!
SUPPORT. Laws of the Inventory loader (02_inventory.md): the rows of an access by a path, whether a load is open or not, and what
the commands of R64 to R77 answer.
-/

namespace Sys2Proof.Machine

variable {s t : State} {p q : Path} {f : State → State}

/-! ### Rows and paths (R64) -/

/-- A register's row answers the state that its effect gives, where that has the same queue of commands. -/
theorem State.bus_next {a : Nat} (h : s.busOn = true) (h' : s.modeLets p a = true) (hf : f s = t)
    (ht : t.pending = s.pending) : (s.row fun s => s.onBus p a f) = .next t := by
  rw [State.bus_row h h', hf, ← ht]

theorem State.loadOpen_true (h : s.inv.state = .opened) : s.loadOpen = true := decide_eq_true h

theorem State.loadOpen_false (h : s.inv.state ≠ .opened) : s.loadOpen = false := decide_eq_false h

/-- With no load open, every path is heard. -/
theorem State.fromPath_closed (h : s.inv.state ≠ .opened) : s.fromPath p f = f s := by
  simp [State.fromPath, State.loadOpen_false h]

/-- The path of the load that is open is heard. -/
theorem State.fromPath_own (h : s.inv.path = some p) : s.fromPath p f = f s := by simp [State.fromPath, h]

/-- An access by another path than the open load's is counted alone. -/
theorem State.fromPath_foreign (h : s.inv.state = .opened) (hq : s.inv.path = some q) (hne : p ≠ q) :
    s.fromPath p f = s.setFld F.INV_STATUS_FOREIGN (min (s.fld F.INV_STATUS_FOREIGN + 1) 255) := by
  have other : s.inv.path ≠ some p := fun e => hne (Option.some.inj (e.symm.trans hq))
  simp [State.fromPath, State.loadOpen_true h, other, State.satAdd]

theorem State.foreign_row {a : Nat} (h : s.inv.state = .opened) (hq : s.inv.path = some q) (hne : p ≠ q)
    (hb : s.busOn = true) (hm : s.modeLets p a = true) (f : State → State) :
    (s.row fun s => s.onBus p a fun s => s.fromPath p f) =
      .next (s.setFld F.INV_STATUS_FOREIGN (min (s.fld F.INV_STATUS_FOREIGN + 1) 255)) :=
  State.bus_next hb hm (State.fromPath_foreign h hq hne) rfl

/-! ### Loads (R64, R65) -/

theorem State.invOpen_closed (h : s.inv.state ≠ .opened) : s.invOpen p =
    s.onInv fun i => { i with prior := i.state, state := .opened, path := some p, buffer := [], lastData := s.now } := by
  rw [State.invOpen, State.fromPath_closed h, State.loadOpen_false h]
  rfl

section
variable (h : s.inv.state = .opened)
include h

theorem State.invData_room {v : Word} (hp : s.inv.path = some p) (hr : s.inv.buffer.length + 4 ≤ 4194304) :
    s.invData p v = s.onInv fun i => { i with buffer := i.buffer ++ toBytes 4 v, lastData := s.now } := by
  rw [State.invData, State.fromPath_own hp, if_pos (State.loadOpen_true h), if_neg (Nat.not_lt.2 hr)]

theorem State.invAbort_open (hp : s.inv.path = some p) : s.invAbort p = s.invClose := by
  rw [State.invAbort, State.fromPath_own hp, if_pos (State.loadOpen_true h)]

theorem State.invIdle_due (ht : s.inv.lastData + 10000000000 ≤ s.now) : s.invIdle = s.invClose :=
  if_pos ⟨State.loadOpen_true h, ht⟩

end

/-! ### Key slots, the floor and the resident sections (R62, R63, R76, R77) -/

theorem State.keySlot_setKeySlot_self (s : State) (n : Nat) (k : KeySlot) : (s.setKeySlot n k).keySlot n = k := by
  simp [State.keySlot, State.setKeySlot]

theorem State.keySlot_setKeySlot_ne {n j : Nat} (h : j ≠ n) (s : State) (k : KeySlot) :
    (s.setKeySlot n k).keySlot j = s.keySlot j := by simp [State.keySlot, State.setKeySlot, Tab.getD_set_ne (Ne.symm h)]

theorem State.is_invDone (s : State) : (s.flag F.INV_STATUS_DONE).is F.INV_STATUS_DONE = true :=
  State.is_flag _ (by decide) (by decide)

/-- A slot of 1 to 3 that is not programmed takes the buffer's 48 bytes as its hash. -/
theorem State.keyProgram_blank {n : Nat} (h : s.inv.state = .opened) (hp : s.inv.path = some p) (h1 : 1 ≤ n) (h3 : n ≤ 3)
    (hh : (s.keySlot n).hash = none) (hl : s.inv.buffer.length = 48) : s.keyProgram p n =
      (s.setKeySlot n { s.keySlot n with hash := some (beNat s.inv.buffer) }).flag F.INV_STATUS_DONE := by
  rw [State.keyProgram, State.fromPath_own hp, if_neg (by simp [h1, h3, hh]),
    if_neg (by simp [State.loadOpen_true h, hl])]

theorem State.raiseFloor_closed (h : s.inv.state ≠ .opened) : s.raiseFloor p =
    (s.onAttic fun a => { a with floor := max a.floor s.invSerial }).flag F.INV_STATUS_DONE := by
  rw [State.raiseFloor, State.fromPath_closed h]

/-- Sections that hash to their digests pass the check. -/
theorem State.residentCheck_sound {l : List Nat} (h : ∀ r ∈ s.attic.resident, r.code ∉ l ∧ sha384 r.body = r.digest) :
    s.residentCheck l = s := by
  refine if_neg ?_
  simp only [List.any_eq_true, not_exists, not_and]
  intro r hr
  obtain ⟨code, digest⟩ := h r hr
  simp [code, digest]

/-! ### What putting an image in force changes (R68 to R74) -/

section
variable (s : State)

theorem State.lineStale_frame (i : Nat) : Frame [.rsv, .hst, .regs] s (s.lineStale i) := by
  refine Frame.ite (Frame.mono (l := [.rsv] ++ [.rsv, .hst] ++ [.regs] ++ [.rsv, .hst]) ?_ (by decide)) (Frame.refl _ s)
  exact (((s.onRsv_frame _).append (State.lineState_frame _ i 3)).append (State.bump_frame _ _ _)).append
    (State.lineFree_frame _ i)

theorem State.larderResize_frame : Frame [.rsv, .hst, .regs] s s.larderResize :=
  Frame.ite (Frame.refl _ s) <| Frame.mono (Frame.append (Frame.append (Frame.when _ (State.flag_frame _ _))
    (Frame.each (fun s i => s.lineStale_frame i) _ _)) (State.onRsv_frame _ _)) (by decide)

theorem State.islandsTake_frame (m : PowerMode) : Frame [.pwr] s (s.islandsTake m) :=
  Frame.each (fun s _ => Frame.ite (s.onPwr_frame _) (s.onPwr_frame _)) _ s

theorem State.pantryZeroed_frame (c : Nat) : Frame [.hst] s (s.pantryZeroed c) :=
  Frame.ite (Frame.refl _ s) (s.onHst_frame _)

/-- What zeroing the Pantry's partitions may change. -/
def pantryFields : List Blk := [.hst, .cq, .trn, .win, .vol, .rsv, .tc, .wdn]

theorem State.zeroPartition_frame (c : Nat) : Frame pantryFields s (s.zeroPartition c) := by
  refine Frame.trans ((s.pantryZeroed_frame c).mono (by decide)) ?_
  unfold State.zeroPartition
  generalize s.pantryZeroed c = u
  dsimp only
  split
  · exact (u.onCq_frame _).mono (by decide)
  · exact (u.onTrn_frame _).mono (by decide)
  · exact (u.onTrn_frame _).mono (by decide)
  · exact (u.onWin_frame _).mono (by decide)
  · exact (u.onTrn_frame _).mono (by decide)
  · exact (u.onVol_frame _).mono (by decide)
  · exact Frame.mono ((Frame.each (fun s i => s.lineState_frame i 0) _ u).append (State.onRsv_frame _ _)) (by decide)
  · exact (u.onRsv_frame _).mono (by decide)
  · exact (u.onRsv_frame _).mono (by decide)
  · exact (u.onTc_frame _).mono (by decide)
  · exact (u.onTc_frame _).mono (by decide)
  · exact (u.onWdn_frame _).mono (by decide)
  · exact Frame.refl _ u

theorem State.sectionSerials_frame (n : Nat) (xs : List Section) : Frame [.regs] s (s.sectionSerials n xs) :=
  Frame.each (fun s _ => s.setWord_frame _ _) _ s

theorem State.copyDropped_frame (a i : Nat) : Frame [.trn, .rsv, .regs] s (s.copyDropped a i) :=
  Frame.mono (Frame.append (s.onTrn_frame _) (Frame.when _
    (((State.onRsv_frame _ _).append (State.bump_frame _ _ _)).append (State.flag_frame _ _)))) (by decide)

/-- Giving up frames of every kind. -/
theorem State.destDropped_fields (l : List EgFrame) : Frame [.trn, .rsv, .regs] s (s.destDropped l) :=
  Frame.mono (Frame.append (Frame.ite (Frame.refl _ s) ((s.bump_frame _ _).trans (State.flag_frame _ _)))
    (Frame.each (fun s (x : Nat × Nat) => s.copyDropped_frame x.1 x.2) _ _)) (by decide)

theorem State.schedMove_frame (n : Nat) : Frame [.mac, .trn, .rsv, .regs] s (s.schedMove n) :=
  Frame.mono (Frame.append (((s.modSp_frame n _).append (State.bump_frame _ _ _)).append (State.bump_frame _ _ _))
    (Frame.when _ ((State.flag_frame _ _).append (State.destDropped_fields _ _)))) (by decide)

theorem State.schedSwitch_frame (old : List Byte) : Frame [.tc, .mac, .trn, .rsv, .regs] s (s.schedSwitch old) :=
  Frame.mono (Frame.append (Frame.append (s.onTc_frame fun _ => _) (Frame.each (fun s n => s.schedMove_frame n) _ _))
    (State.flag_frame _ _)) (by decide)

theorem State.policerSwitch_frame (old : List Byte) : Frame [.tc, .regs] s (s.policerSwitch old) :=
  (s.onTc_frame fun _ => _).append (State.flag_frame _ _)

theorem State.tallyConfig_frame (f : Fld) (n st : Nat) : Frame [.regs, .wdn, .mgt] s (s.tallyConfig f n st) :=
  s.tallyFlag_frame _ _ _ _

/-- What an image put in force has changed once the Pantry is zeroed, beside the keys and the resident copy. -/
theorem State.imageTaken_frame (n : Nat) (xs : List Section) : Frame [.pwr, .rsv, .hst, .regs] s
    ((s.islandsTake s.pwr.cur).larderResize.sectionSerials n xs) :=
  Frame.mono (((s.islandsTake_frame _).append (State.larderResize_frame _)).append (State.sectionSerials_frame _ _ _))
    (by decide)

/-- A full image put in force: its sections, its flags and the lock, the load closed; of the Attic the resident copy changes. -/
theorem State.applyImage_spec (img : List Byte) (xs : List Section) :
    (s.applyImage img xs).inv = { s.inv with
      sections := sectionTable xs, flags := leAt img 6 2, lock := true, state := .locked, path := none, buffer := [] } ∧
    (s.applyImage img xs).attic = { s.attic with resident := residentOf (leAt img 16 8) xs } ∧
    (s.applyImage img xs).pending = s.pending := by
  have zeroed := Frame.each (fun s c => s.zeroPartition_frame c) ((List.range 15).filter fun c => c != 0x04)
    (s.onInv fun i => { i with sections := sectionTable xs, flags := leAt img 6 2 })
  unfold State.applyImage
  dsimp only
  generalize State.each _ _ _ = v at zeroed ⊢
  have taken := ((v.onWin fun w => { w with keys := [] }).onAttic fun a =>
    { a with resident := residentOf (leAt img 16 8) xs }).imageTaken_frame (leAt img 16 8) xs
  refine ⟨?_, ?_, ?_⟩
  · rw [State.onInv_inv, taken.inv_eq (by decide), State.onAttic_inv, State.onWin_inv, zeroed.inv_eq (by decide)]
    rfl
  · rw [State.onInv_attic, taken.attic_eq (by decide), State.onAttic_attic, State.onWin_attic, zeroed.attic_eq (by decide)]
    rfl
  · rw [State.onInv_pending, taken.pending_eq (by decide), State.onAttic_pending, State.onWin_pending,
      zeroed.pending_eq (by decide)]
    rfl

end

/-- The body that a partial image gives a section: its own, or none and the section keeps what it has (R73). -/
def bodyIn (xs : List Section) (x : Nat × List Byte) : List Byte :=
  match xs.find? fun y => y.code == x.1 with
  | some y => y.body
  | none => x.2

/-- The bodies of a partial image's sections are replaced (R72). -/
def Inv.withBodies (i : Inv) (xs : List Section) : Inv :=
  { i with sections := i.sections.map fun x => (x.1, bodyIn xs x) }

/-- A partial image put in force replaces bodies of sections first; what follows leaves the Inventory. -/
theorem State.partialSwitch_frame (s : State) (img : List Byte) (xs : List Section) :
    Frame [.tc, .mac, .trn, .rsv, .hst, .attic, .regs] (s.onInv fun i => i.withBodies xs) (s.partialSwitch img xs) :=
  Frame.mono (Frame.append (Frame.append (Frame.append (Frame.append (Frame.when _ (State.schedSwitch_frame _ _))
    (Frame.when _ (State.policerSwitch_frame _ _))) (Frame.when _ (State.larderResize_frame _)))
    (State.onAttic_frame _ _)) (State.sectionSerials_frame _ _ _)) (by decide)

/-- The end of a commit that succeeds: DONE, and its record (Table 19-6). -/
def State.commitDone (s : State) (serial : Nat) : State :=
  (s.flag F.INV_STATUS_DONE).tallyConfig F.INV_STATUS_DONE serial (s.flag F.INV_STATUS_DONE).invWord.toNat

theorem State.commitDone_frame (s : State) (n : Nat) : Frame [.regs, .wdn, .mgt] s (s.commitDone n) :=
  Frame.append (s.flag_frame _) (State.tallyConfig_frame _ _ _ _) |>.mono (by decide)

/-- A candidate image is staged. -/
def State.stage (s : State) (img : List Byte) : State := s.onAttic fun a => { a with staged := some img }

section
variable {xs : List Section}

/-- COMMIT_FULL of an image that passes (R66, R67). -/
theorem State.commitFull_passes (h : s.inv.state = .opened) (hp : s.inv.path = some p)
    (hc : imageCheck s.fuses.keys false 0 (fun _ => []) s.inv.buffer = .ok xs) (hf : s.attic.floor ≤ leAt s.inv.buffer 16 8) :
    s.commitFull p =
      (if s.inv.prior = .empty then (s.stage s.inv.buffer).applyImage s.inv.buffer xs
        else (s.stage s.inv.buffer).invClose).commitDone (leAt s.inv.buffer 16 8) := by
  rw [State.commitFull, State.fromPath_own hp, if_pos (State.loadOpen_true h)]
  simp only [hc, if_neg (Nat.not_lt.2 hf)]
  rfl

/-- COMMIT_PARTIAL of an image that passes (R71 to R73). -/
theorem State.commitPartial_passes (h : s.inv.state = .opened) (hp : s.inv.path = some p) (he : s.inv.prior ≠ .empty)
    (hc : imageCheck s.fuses.keys true s.inv.flags s.sect s.inv.buffer = .ok xs) (hb : leAt s.inv.buffer 24 8 = s.invSerial)
    (hs : s.invSerial < leAt s.inv.buffer 16 8) :
    s.commitPartial p = ((s.partialSwitch s.inv.buffer xs).invClose).commitDone (leAt s.inv.buffer 16 8) := by
  rw [State.commitPartial, State.fromPath_own hp, if_pos (State.loadOpen_true h)]
  simp only [hc, if_neg he, hb, ne_eq, not_true, if_false, if_neg (Nat.not_le.2 hs)]
  rfl

end

/-! ### Registers right after a reset -/

theorem State.setWord_reset (a : Nat) : State.reset.setWord a (regReset a) = State.reset := by
  simp only [State.setWord, Tab.put, if_true]
  rfl

/-- Right after a reset a field put at its reset value changes nothing. -/
theorem State.setFld_reset {f : Fld} {v : Nat} (h : getBits (regReset f.addr) f.lo f.width = v) :
    State.reset.setFld f v = State.reset := by
  subst h
  unfold State.setFld
  rw [show State.reset.word f.addr = regReset f.addr from rfl, putBits_getBits, State.setWord_reset]

end Sys2Proof.Machine
end

section
/-!
SUPPORT. Laws of resets, of the dump before them, and of a power loss (20_electrical_and_package.md, 08_stripe_writes_and_attic.md,
15_bay_power.md).
-/

namespace Sys2Proof.Machine

/-! ### Device resets (R735) -/

section
variable {s : State}

/-- What the bays show of presence stands after a reset: the port of a drive that is present is found. -/
theorem Tab.find?_portsKept {n : Nat} {p : Port} (hp : p.presence = true) {t : Tab Port} (h : Tab.find? n t = some p) :
    Tab.find? n (t.filterMap fun x => if x.2.presence then some (x.1, portAfterReset x.2) else none) =
      some (portAfterReset p) := by
  induction t with
  | nil => simp at h
  | cons x t ih =>
    obtain ⟨j, q⟩ := x
    by_cases hj : j = n
    · subst hj
      obtain rfl : q = p := by simpa [Tab.find?] using h
      simp [Tab.find?, hp]
    · simp only [Tab.find?, hj, if_false] at h
      by_cases hq : q.presence = true <;> simp [Tab.find?, hj, hq, ih h]

theorem State.port_resetKeep {n : Nat} (h : (s.port n).presence = true) : s.resetKeep.port n = portAfterReset (s.port n) := by
  unfold State.port Tab.getD at h ⊢
  cases hf : Tab.find? n s.drv.ports with
  | none => simp [hf, portDefault] at h
  | some p =>
    have hp : p.presence = true := by simpa [hf] using h
    have kept : Tab.find? n s.resetKeep.drv.ports = some (portAfterReset p) := Tab.find?_portsKept hp hf
    rw [kept]
    rfl

section
variable (s : State) (c : Nat) (b : Bool)

theorem State.fld_deviceReset_cause : (s.deviceReset c b).fld F.GLB_RESET_CAUSE_CAUSE = c % 8 := by
  rw [State.deviceReset, State.fld_setFld_apart _ (Or.inr (by decide)), State.fld_setFld_self _ (by decide)]
  rfl

theorem State.is_deviceReset_dumped : (s.deviceReset c b).is F.GLB_RESET_CAUSE_DUMPED = b := by
  rw [State.is, State.deviceReset, State.fld_setFld_self _ (by decide)]
  cases b <;> rfl

theorem State.word_deviceReset_ne {a : Nat} (h : a ≠ A.GLB_RESET_CAUSE) : (s.deviceReset c b).word a = State.reset.word a := by
  rw [State.deviceReset, State.word_setFld_ne _ (Ne.symm h), State.word_setFld_ne _ (Ne.symm h)]
  rfl

/-- The ports after a reset: EMPTY, with the presence that each bay shows. -/
theorem State.port_deviceReset (n : Nat) :
    (s.deviceReset c b).port n = portAfterReset (s.port n) ∨ (s.port n).presence = false := by
  cases h : (s.port n).presence with
  | false => exact Or.inr rfl
  | true => exact Or.inl (State.port_resetKeep h)

end

/-- The GLB_RESET_CAUSE.DUMPED that a power-on reset leaves: whether a sealed dump preceded it. -/
def State.wasDumped (s : State) : Bool :=
  match s.glb.phase with
  | .powerHold => true
  | .held => s.is F.GLB_RESET_CAUSE_DUMPED
  | _ => false

theorem State.powerOnReset_eq (s : State) :
    s.powerOnReset = (s.onGlb fun g => { g with pgIn := false, resetN := false }).deviceReset 0 s.wasDumped := rfl

end

/-! ### The dump (R343 to R345) -/

section
variable {s u : State}

/-- Between power's failing and the dump, a member write already issued is all that can reach a drive (R345). -/
theorem State.landIssued_drives {b : Nat} (h : ∀ c ∈ s.drv.cmds, c.write = true → c.queue.isSome = true → c.bay ≠ b) :
    Tab.find? b s.landIssued.drives = Tab.find? b s.drives := by
  refine State.each_same _ _ _ (fun s => Tab.find? b s.drives) fun t c hc => ?_
  obtain ⟨hin, hq⟩ := List.mem_filter.1 hc
  obtain ⟨write, queue⟩ := Bool.and_eq_true_iff.1 hq
  exact State.when_same _ _ _ (fun s => Tab.find? b s.drives) (Tab.find?_set_ne (h c hin write queue) _ _)

theorem State.landIssued_frame (s : State) : Frame [.free, .drives] s s.landIssued := by
  refine Frame.each (fun s c => ?_) _ s
  have drawn : Frame [.free, .drives] s s.drawBool.2 := fun b hb => by cases b <;> first | rfl | exact absurd (by decide) hb
  refine drawn.trans (Frame.when _ fun b hb => ?_)
  cases b <;> first | rfl | exact absurd (by decide) hb

theorem State.dump_frame (s : State) : Frame [.free, .drives, .attic] s s.dump :=
  Frame.append s.landIssued_frame (State.onAttic_frame _ _)

/-- The regions of the Cellar depend on their eight registers alone (R89). -/
theorem State.regionOf_congr (h : ∀ n < 8, u.word (A.HST_REGION n) = s.word (A.HST_REGION n)) (k : Nat) :
    u.regionOf k = s.regionOf k := by
  have fld : ∀ {n : Nat} (f : Fld), n < 8 → f.addr = A.HST_REGION n → u.fld f = s.fld f := fun f hn hf => by
    rw [State.fld, State.fld, hf, h _ hn]
  have kind : ∀ n ∈ List.range 8, (u.fld (F.HST_REGION_KIND n) == k) = (s.fld (F.HST_REGION_KIND n) == k) := fun n hn => by
    rw [fld (F.HST_REGION_KIND n) (List.mem_range.1 hn) rfl]
  unfold State.regionOf
  rw [List.find?_congr kind]
  cases hf : (List.range 8).find? fun n => s.fld (F.HST_REGION_KIND n) == k with
  | none => rfl
  | some n =>
    have hn := List.mem_range.1 (List.mem_of_find?_eq_some hf)
    simp only [Option.map_some, fld (F.HST_REGION_BASE n) hn rfl, fld (F.HST_REGION_COUNT n) hn rfl]

theorem Frame.eq_reported (h : Frame [.regs, .bay, .wdn, .mgt, .glb] s u) :
    u = { s with regs := u.regs, bay := u.bay, wdn := u.wdn, mgt := u.mgt, glb := u.glb } := by
  refine State.eq_of_agree fun b => ?_
  have same := h b
  cases b
  case regs | bay | wdn | mgt | glb => rfl
  all_goals exact same (by decide)

/-- The records of a dump do not depend on what a power loss reports. -/
theorem State.allRecords_congr (h : Frame [.regs, .bay, .wdn, .mgt, .glb] s u)
    (hr : ∀ n < 8, u.word (A.HST_REGION n) = s.word (A.HST_REGION n)) : u.allRecords = s.allRecords := by
  have slot : u.slotBlock = s.slotBlock := by
    funext i
    simp only [State.slotBlock, State.cellar, State.slotAddr, State.regionBase, State.regionOf_congr hr, h.hst_eq (by decide)]
  have record : u.dumpRecord = s.dumpRecord := by
    funext w
    simp only [State.dumpRecord, State.intentState, State.intent, slot, h.attic_eq (by decide), h.str_eq (by decide)] <;> rfl
  have own : u.dumpRecords = s.dumpRecords := by
    simp only [State.dumpRecords, record, h.str_eq (by decide)]
  have held : u.heldRecords = s.heldRecords := by
    rw [h.eq_reported]
    rfl
  rw [State.allRecords, State.allRecords, own, held]

theorem State.dumpedTo_dump (h : Frame [.regs, .bay, .wdn, .mgt, .glb] s u)
    (hr : ∀ n < 8, u.word (A.HST_REGION n) = s.word (A.HST_REGION n)) : s.dumpedTo u.dump := by
  refine ⟨?_, fun b hb => ?_⟩
  · show { u.landIssued.attic with dump := u.allRecords, dumpSealed := false, sealed := none } = _
    rw [u.landIssued_frame.attic_eq (by decide), State.allRecords_congr h hr, h.attic_eq (by decide)]
  · rw [← h.drives_eq (by decide)]
    exact State.landIssued_drives (h.drv_eq (by decide) ▸ hb)

/-- What a change of the phase after a dump leaves of it. -/
theorem State.dumpedTo_onGlb (h : s.dumpedTo u) (g : Glb → Glb) : s.dumpedTo (u.onGlb g) := h

theorem Frame.eq_dumped (h : Frame [.free, .drives, .attic, .glb] s u) :
    u = { s with attic := u.attic, drives := u.drives, free := u.free, glb := u.glb } := by
  refine State.eq_of_agree fun b => ?_
  have same := h b
  cases b
  case free | drives | attic | glb => rfl
  all_goals exact same (by decide)

end

/-! ### Words that the Tally leaves (R711, R714) -/

section
variable {a : Nat} (h : a < 0xF00000) (s : State)
include h

theorem State.word_bump_above {b : Nat} (hb : 0xF00000 ≤ b) (n : Nat) : (s.bump b n).word a = s.word a :=
  s.word_bump_ne n (by omega) (by omega)

theorem State.word_flag_above {f : Fld} (hf : 0xF00000 ≤ f.addr) : (s.flag f).word a = s.word a :=
  s.word_flag_ne (by omega)

theorem State.word_tallyPut_below (r : BitVec 512) : (s.tallyPut r).word a = s.word a := by
  unfold State.tallyPut
  dsimp only
  split
  · rw [State.word_bump_above h _ (by decide)]
    rfl
  · rw [State.word_flag_above h _ (by decide), State.word_bump_above h _ (by decide), State.word_bump_above h _ (by decide)]
    rfl

theorem State.word_tallyFrame_below (c : Nat) (r : BitVec 512) : (s.tallyFrame c r).word a = s.word a := by
  unfold State.tallyFrame
  split
  · split
    · rfl
    · rw [State.word_flag_above h _ (by decide), State.word_bump_above h _ (by decide)]
  · rfl

/-- A record of the Tally changes registers of the management unit alone. -/
theorem State.word_tallyRaw_below (b c d i : Nat) (l : List Nat) : (s.tallyRaw b c d i l).word a = s.word a := by
  have put := fun r => (State.word_tallyFrame_below h (s.tallyPut r) c r).trans (State.word_tallyPut_below h s r)
  unfold State.tallyRaw
  dsimp only
  split
  · exact put _
  · exact put _

end

/-! ### A power loss (R589, R590) -/

section
variable {s : State}

/-- What an assertion of the power-loss line reports. -/
def State.lossTold (s : State) : State :=
  let u := ((s.onBay fun b => { b with powerLoss := true, lineAt := s.now }).bump A.BAY_PL_EVENTS).flag F.BAY_STATUS_POWER_LOSS
  (u.tallyPower F.BAY_STATUS_POWER_LOSS).event .powerLoss

/-- Every bay is cut off. -/
def State.baysOff (s : State) : State := s.each (List.range 24) State.bayOff

theorem enField_addr (n k : Nat) : (enField n k).addr = 0xB00100 + 4 * n := by
  unfold enField
  split <;> rfl

theorem enField_inside (n k : Nat) : (enField n k).lo + (enField n k).width ≤ 32 := by
  unfold enField
  split <;> simp

/-- Two enable fields are one field or share no bit. -/
theorem enField_eq_or_apart (n k m j : Nat) : enField n k = enField m j ∨ (enField n k).apart (enField m j) := by
  by_cases h : n = m
  · subst h
    unfold enField
    by_cases hk : k = 0 <;> by_cases hj : j = 0 <;> simp [hk, hj, Fld.apart]
  · exact Or.inr (Or.inl (by rw [enField_addr, enField_addr]; omega))

theorem pgChange_apart_enField (n k : Nat) : F.BAY_STATUS_PG_CHANGE.apart (enField n k) :=
  Or.inl (by rw [enField_addr]; show 0xB00004 ≠ _; omega)

theorem State.pgFall_frame (s : State) (n k : Nat) : Frame [.bay, .regs] s (s.pgFall n k) :=
  Frame.ite (Frame.append (s.onBay_frame _) (State.flag_frame _ _)) (Frame.refl _ s)

theorem State.fld_pgFall {f : Fld} (h : F.BAY_STATUS_PG_CHANGE.apart f) (s : State) (n k : Nat) :
    (s.pgFall n k).fld f = s.fld f := by
  unfold State.pgFall
  dsimp only
  split
  · exact State.fld_flag_apart _ h
  · rfl

/-- A sub-channel as the clearing of its enable leaves it. -/
def State.cutSub (s : State) (n k : Nat) : State :=
  match ({ s.sub n k with disabledAt := some s.now } : SubChan).state with
  | .latched => s.setSub n k { s.sub n k with disabledAt := some s.now }
  | _ => s.setSub n k { s.sub n k with disabledAt := some s.now, state := .off, limiting := none, reverse := false }

theorem State.disableSub_eq (s : State) (n k : Nat) : s.disableSub n k =
    if subExists n k ∧ s.is (enField n k) then ((s.setFld (enField n k) 0).pgFall n k).cutSub n k else s := rfl

theorem State.cutSub_frame (s : State) (n k : Nat) : Frame [.bay] s (s.cutSub n k) := by
  unfold State.cutSub
  split
  · exact s.onBay_frame _
  · exact s.onBay_frame _

theorem State.disableSub_frame (s : State) (n k : Nat) : Frame [.bay, .regs] s (s.disableSub n k) := by
  rw [State.disableSub_eq]
  refine Frame.ite (Frame.mono (l := [.regs] ++ [.bay, .regs] ++ [.bay]) ?_ (by decide)) (Frame.refl _ s)
  exact ((s.setFld_frame _ _).append (State.pgFall_frame _ n k)).append (State.cutSub_frame _ n k)

/-- What the clearing of an enable leaves of a field that is not PG_CHANGE: only the enable itself is changed. -/
theorem State.fld_disableSub {f : Fld} (h : F.BAY_STATUS_PG_CHANGE.apart f) (s : State) (n k : Nat) :
    (s.disableSub n k).fld f = if subExists n k ∧ s.is (enField n k) then (s.setFld (enField n k) 0).fld f else s.fld f := by
  rw [State.disableSub_eq]
  split
  · rw [State.fld_congr ((State.cutSub_frame _ n k).regs_eq (by decide)), State.fld_pgFall h]
  · rfl

theorem State.fld_disableSub_apart {f : Fld} (h : F.BAY_STATUS_PG_CHANGE.apart f) (h' : f.addr < 0xB00100) (s : State)
    (n k : Nat) : (s.disableSub n k).fld f = s.fld f := by
  have apart : (enField n k).apart f := Or.inl (by rw [enField_addr]; omega)
  rw [State.fld_disableSub h, State.fld_setFld_apart _ apart, ite_self]

theorem State.is_setFld_enField (s : State) (n k : Nat) : (s.setFld (enField n k) 0).is (enField n k) = false := by
  rw [State.is, State.fld_setFld_self _ (enField_inside n k), Nat.zero_mod]
  rfl

/-- An enable that is 0 stays 0. -/
theorem State.is_disableSub_keeps {m j : Nat} (s : State) (n k : Nat) (h : s.is (enField m j) = false) :
    (s.disableSub n k).is (enField m j) = false := by
  rw [State.is, State.fld_disableSub (pgChange_apart_enField m j)]
  split
  · rcases enField_eq_or_apart n k m j with e | apart
    · rw [← e]
      exact s.is_setFld_enField n k
    · rw [State.fld_setFld_apart _ apart]
      exact h
  · exact h

/-- The enable cleared is 0. -/
theorem State.is_disableSub_self {n k : Nat} (h : subExists n k = true) (s : State) :
    (s.disableSub n k).is (enField n k) = false := by
  rw [State.is, State.fld_disableSub (pgChange_apart_enField n k)]
  by_cases hs : s.is (enField n k) = true
  · rw [if_pos ⟨h, hs⟩]
    exact s.is_setFld_enField n k
  · rw [if_neg fun c => hs c.2]
    exact Bool.eq_false_iff.2 hs

theorem State.baysOff_frame (s : State) : Frame [.bay, .regs] s s.baysOff :=
  Frame.each (fun s n => (s.disableSub_frame n 0).trans (State.disableSub_frame _ n 1)) _ s

theorem State.fld_baysOff {f : Fld} (h : F.BAY_STATUS_PG_CHANGE.apart f) (h' : f.addr < 0xB00100) (s : State) :
    s.baysOff.fld f = s.fld f :=
  State.each_same _ _ _ (·.fld f) fun s n _ =>
    (State.fld_disableSub_apart h h' _ n 1).trans (State.fld_disableSub_apart h h' s n 0)

/-- What one step of a fold brings and the others keep holds after the fold. -/
theorem State.each_reaches {α : Type} {f : State → α → State} {P : State → Prop} {a : α} {l : List α}
    (keeps : ∀ s b, P s → P (f s b)) (brings : ∀ s, P (f s a)) (h : a ∈ l) (s : State) : P (s.each l f) := by
  have kept : ∀ (l : List α) (s : State), P s → P (s.each l f) := fun l => by
    induction l with
    | nil => exact fun _ hs => hs
    | cons b l ih => exact fun s hs => ih (f s b) (keeps s b hs)
  induction l generalizing s with
  | nil => cases h
  | cons b l ih =>
    rcases List.mem_cons.1 h with rfl | h
    · exact kept l _ (brings s)
    · exact ih h (f s b)

/-- No bay is supplied. -/
theorem State.is_baysOff {n k : Nat} (hn : n < 24) (hk : k = 0 ∨ k = 1) (s : State) :
    s.baysOff.is (enField n k) = false := by
  refine State.each_reaches (P := fun s => s.is (enField n k) = false)
    (fun s m h => State.is_disableSub_keeps _ m 1 (s.is_disableSub_keeps m 0 h)) (fun s => ?_) (List.mem_range.2 hn) s
  have exist : subExists n k = true := by
    rcases hk with rfl | rfl <;> simp [subExists, hn, Nat.lt_trans hn (by decide : 24 < 26)]
  rcases hk with rfl | rfl
  · exact State.is_disableSub_keeps _ n 1 (State.is_disableSub_self exist s)
  · exact State.is_disableSub_self exist _

/-- A word as the field of all its bits. -/
theorem State.fld_whole (s : State) (a : Nat) : s.fld ⟨a, 0, 32⟩ = (s.word a).toNat := by
  simp only [State.fld, getBits, BitVec.ushiftRight_zero]
  exact Nat.mod_eq_of_lt (s.word a).isLt

theorem State.word_baysOff {a : Nat} (h : a < 0xB00100) (h' : a ≠ A.BAY_STATUS) (s : State) : s.baysOff.word a = s.word a := by
  apply BitVec.eq_of_toNat_eq
  rw [← State.fld_whole, ← State.fld_whole]
  exact State.fld_baysOff (f := ⟨a, 0, 32⟩) (Or.inl (Ne.symm h')) h s

theorem State.lossTold_frame (s : State) : Frame [.bay, .regs, .wdn, .mgt] s s.lossTold :=
  Frame.mono (Frame.append (Frame.append (Frame.append (Frame.append (s.onBay_frame _) (State.bump_frame _ _ _))
    (State.flag_frame _ _)) (State.tallyFlag_frame _ _ _ _ _)) (State.event_frame _ _)) (by decide)

theorem State.word_lossTold {a : Nat} (h : a < 0xF00000) (s : State) :
    s.lossTold.word a = ((s.bump A.BAY_PL_EVENTS).flag F.BAY_STATUS_POWER_LOSS).word a :=
  State.word_tallyRaw_below h _ _ _ _ _ _

/-- What a power loss does by the phase once the bays are cut off (R342, R690, R736). -/
def State.lossDumps (s : State) : State :=
  match s.glb.phase with
  | .running =>
    if s.asleep then s.dump.dumpSeal.onGlb fun g => { g with phase := .powerHold }
    else s.entryAbandon.dump.onGlb fun g => { g with phase := .lossDump }
  | .resetDump _ => s.onGlb fun g => { g with phase := .lossDump, wanted := true }
  | _ => s

theorem State.powerLoss_eq (s : State) : s.powerLoss = if s.bay.powerLoss then s else s.lossTold.baysOff.lossDumps := rfl

theorem State.lossDumps_running (hp : s.glb.phase = .running) (ha : s.asleep = false) (hd : s.draining = false) :
    s.lossDumps = s.dump.onGlb fun g => { g with phase := .lossDump } := by
  have stays : s.entryAbandon = s := by simp [State.entryAbandon, hd]
  simp [State.lossDumps, hp, ha, stays]

/-- A power loss in a mode that runs the data path, with no low mode to abandon: it is reported, the bays are cut off and the dump
is written. -/
theorem State.powerLoss_running (hl : s.bay.powerLoss = false) (hp : s.glb.phase = .running) (ha : s.asleep = false)
    (hd : s.draining = false) : s.powerLoss = s.lossTold.baysOff.dump.onGlb fun g => { g with phase := .lossDump } := by
  have same := s.lossTold_frame.append s.lossTold.baysOff_frame
  have pwr := same.pwr_eq (by decide)
  rw [State.powerLoss_eq, hl, if_neg Bool.false_ne_true]
  refine State.lossDumps_running ?_ ?_ ?_
  · rw [same.glb_eq (by decide), hp]
  · rw [State.asleep, pwr]
    exact ha
  · rw [State.draining, pwr]
    exact hd

end

section
variable {s : State}

/-! ### The requests for a reset (R735, R736) -/

/-- What a power-on reset keeps and leaves. -/
theorem State.powerOnReset_next (s : State) : ∃ t, exec .powerOnReset s = .next t ∧ t = { State.reset with
      free := s.free, attic := s.attic, fuses := s.fuses, flash := s.flash, drives := s.drives, pending := s.pending
      drv := { State.reset.drv with ports := t.drv.ports }, regs := t.regs } ∧
    (∀ n < 24, t.port n = { portDefault with presence := (s.port n).presence } ∨ (s.port n).presence = false) ∧
    t.fld F.GLB_RESET_CAUSE_CAUSE = 0 ∧ (s.glb.phase = .running → t.is F.GLB_RESET_CAUSE_DUMPED = false) ∧
    (s.glb.phase = .powerHold → t.is F.GLB_RESET_CAUSE_DUMPED = true) ∧
    ∀ a, a ≠ A.GLB_RESET_CAUSE → t.word a = State.reset.word a := by
  have dumped := State.is_deviceReset_dumped (s.onGlb fun g => { g with pgIn := false, resetN := false }) 0 s.wasDumped
  refine ⟨_, State.row_next s.powerOnReset_eq rfl, rfl, fun n _ => State.port_deviceReset _ _ _ n,
    State.fld_deviceReset_cause _ _ _, fun hp => ?_, fun hp => ?_, fun a ha => State.word_deviceReset_ne _ _ _ ha⟩
  · rw [dumped, State.wasDumped, hp]
  · rw [dumped, State.wasDumped, hp]

/-- The part with RESET_N low. -/
def State.resetLow (s : State) : State := s.onGlb fun g => { g with resetN := false }

/-- A request for a reset of a running part writes a dump first (R736). -/
theorem State.resetRequest_running (hp : s.glb.phase = .running) (c : Nat) :
    s.resetRequest c = s.dump.onGlb fun g => { g with phase := .resetDump c } := by simp [State.resetRequest, hp]

/-- A dump under way, or POWER_HOLD, records the request (R736). -/
theorem State.resetRequest_later (hp : s.glb.phase = .lossDump ∨ s.glb.phase = .powerHold) (c : Nat) :
    s.resetRequest c = s.onGlb fun g => { g with wanted := true } := by
  rcases hp with hp | hp <;> simp [State.resetRequest, hp]

/-- A part that is held, or that will be once its dump is sealed, has nothing to record. -/
theorem State.resetRequest_moot (hp : s.glb.phase = .held ∨ ∃ d, s.glb.phase = .resetDump d) (c : Nat) :
    s.resetRequest c = s := by
  rcases hp with hp | ⟨d, hp⟩ <;> simp [State.resetRequest, hp]

/-- A write of GLB_RESET without the confirmation changes nothing (Table 20-11). -/
theorem State.glbReset_other {n : Nat} (hn : n ≠ 0x5A) (p : Path) : exec (.glbReset p n) s = .next s := by
  have nothing : (s.onBus p A.GLB_RESET fun s => s.resetCommand n) = s := by
    rw [State.onBus, State.gate]
    split
    · exact if_neg hn
    · rfl
  exact State.row_next nothing rfl

/-- The dump that at most a change of the pins precedes, and the phase after it. -/
theorem State.dumpedPhase {u : State} (h : Frame [.glb] s u) (p : ChipPhase) :
    s.dumpedTo (u.dump.onGlb fun g => { g with phase := p }) ∧
    (u.dump.onGlb fun g => { g with phase := p }) =
      { s with attic := u.dump.attic, drives := u.dump.drives, free := u.dump.free, glb := { u.glb with phase := p } } := by
  have dump := u.dump_frame
  have same : Frame [.free, .drives, .attic, .glb] s u.dump := Frame.mono (Frame.append h dump) (by decide)
  refine ⟨State.dumpedTo_onGlb (State.dumpedTo_dump (h.mono (by decide)) fun _ _ => ?_) _, ?_⟩
  · exact State.word_congr (h.regs_eq (by decide)) _
  · conv_lhs => rw [same.eq_dumped, State.onGlb, dump.glb_eq (by decide)]

/-- DUMP_SEALED after a reset was requested: the dump is sealed and the part reset. -/
theorem State.dumpSealed_reset {c : Nat} (hp : s.glb.phase = .resetDump c) : s.dumpSealed = s.dumpSeal.deviceReset c true := by
  simp [State.dumpSealed, hp]

/-! ### PG_IN_LOW (R731) -/

/-- The loss of PG_IN as the pins and GLB_STATUS show it. -/
def State.pgLost (s : State) : State :=
  (s.onGlb fun g => { g with pgIn := false, pgLoss := true }).flag F.GLB_STATUS_PG_LOST

theorem State.pgInLow_held (hp : s.glb.phase = .held) : s.pgInLow = { s with glb := { s.glb with pgIn := false } } := if_pos hp

theorem State.pgInLow_running (hp : s.glb.phase = .running) : s.pgInLow = s.pgLost.powerLoss := by
  have up : (s.onGlb fun g => { g with pgIn := false, pgLoss := true }).up = true := decide_eq_true hp
  have awake : s.glb.phase ≠ .held := by rw [hp]; decide
  rw [State.pgInLow]
  refine (if_neg awake).trans ?_
  show State.powerLoss (State.when _ _ _) = _
  rw [State.pgLost, State.when]
  exact congrArg State.powerLoss (if_pos up)

theorem State.pgLost_frame (s : State) : Frame [.glb, .regs] s s.pgLost := Frame.append (s.onGlb_frame _) (State.flag_frame _ _)

/-- The bays show the loss while they are cut off. -/
theorem State.powerLoss_baysOff (s : State) : s.baysOff.bay.powerLoss = s.bay.powerLoss := by
  have sub : ∀ (s : State) (n k : Nat), (s.disableSub n k).bay.powerLoss = s.bay.powerLoss := fun s n k => by
    rw [State.disableSub_eq]
    split
    · have fall : ((s.setFld (enField n k) 0).pgFall n k).bay.powerLoss = s.bay.powerLoss := by
        unfold State.pgFall
        dsimp only
        split <;> rfl
      refine Eq.trans ?_ fall
      unfold State.cutSub
      split <;> rfl
    · rfl
  exact State.each_same _ _ _ (·.bay.powerLoss) fun s n _ => (sub _ n 1).trans (sub s n 0)

theorem State.powerLoss_lossTold (s : State) : s.lossTold.bay.powerLoss = true := by
  have same : Frame [.regs, .wdn, .mgt] (s.onBay fun b => { b with powerLoss := true, lineAt := s.now }) s.lossTold :=
    Frame.mono (Frame.append (Frame.append (Frame.append (State.bump_frame _ _ _) (State.flag_frame _ _))
      (State.tallyFlag_frame _ _ _ _ _)) (State.event_frame _ _)) (by decide)
  exact congrArg Bay.powerLoss (same.bay_eq (by decide))

/-- A register outside the bays' and the management unit's that GLB_STATUS and BAY_STATUS are not. -/
theorem State.word_pgLost_off {a : Nat} (h : a < 0xB00000) (h' : a ≠ 0x18) (s : State) :
    s.pgLost.lossTold.baysOff.word a = s.word a := by
  rw [State.word_baysOff (by omega) (show a ≠ 0xB00004 by omega), State.word_lossTold (by omega),
    State.word_flag_ne _ (show 0xB00004 ≠ a by omega), State.word_bump_ne _ _ (show 0xB00020 ≠ a by omega)
      (show 0xB00020 + 4 ≠ a by omega), State.pgLost, State.word_flag_ne _ (Ne.symm h')]
  rfl

theorem State.is_pgLost (s : State) : s.pgLost.lossTold.baysOff.is F.GLB_STATUS_PG_LOST = true := by
  have word : s.pgLost.lossTold.baysOff.word 0x18 = s.pgLost.word 0x18 := by
    rw [State.word_baysOff (by decide) (by decide), State.word_lossTold (by decide), State.word_flag_ne _ (by decide),
      State.word_bump_ne _ _ (by decide) (by decide)]
  rw [State.is, State.fld, word]
  exact State.is_flag (f := F.GLB_STATUS_PG_LOST) _ (by decide) (by decide)

theorem State.is_lossTold_baysOff (s : State) : s.lossTold.baysOff.is F.BAY_STATUS_POWER_LOSS = true := by
  rw [State.is, State.fld_baysOff (Or.inr (by decide)) (by decide), State.fld, State.word_lossTold (by decide)]
  exact State.is_flag (f := F.BAY_STATUS_POWER_LOSS) _ (by decide) (by decide)

theorem State.pair_lossTold_baysOff (s : State) :
    s.lossTold.baysOff.pair A.BAY_PL_EVENTS = (s.pair A.BAY_PL_EVENTS + 1) % 2 ^ 64 := by
  have word : ∀ a ∈ [0xB00020, 0xB00024], s.lossTold.baysOff.word a = (s.bump A.BAY_PL_EVENTS).word a := fun a ha => by
    simp only [List.mem_cons, List.not_mem_nil, or_false] at ha
    rw [State.word_baysOff (by omega) (show a ≠ 0xB00004 by omega), State.word_lossTold (by omega),
      State.word_flag_ne _ (show 0xB00004 ≠ a by omega)]
  rw [← State.pair_bump_self, State.pair, State.pair, word _ (by decide), word _ (by decide)]

theorem State.pgInLow_next (hp : s.glb.phase = .running) (ha : s.asleep = false) (hd : s.draining = false)
    (hl : s.bay.powerLoss = false) :
    ∃ t, exec .pgInLow s = .next t ∧ t.glb = { s.glb with pgIn := false, pgLoss := true, phase := .lossDump } ∧
      t.bay.powerLoss = true ∧ t.is F.GLB_STATUS_PG_LOST = true ∧ t.is F.BAY_STATUS_POWER_LOSS = true ∧
      t.pair A.BAY_PL_EVENTS = (s.pair A.BAY_PL_EVENTS + 1) % 2 ^ 64 ∧ s.dumpedTo t ∧
      ∀ n < 24, t.is (F.BAY_EN_MAIN_EN n) = false ∧ t.is (F.BAY_EN_AUX_EN n) = false := by
  have loss := (State.pgInLow_running hp).trans (State.powerLoss_running (s := s.pgLost) hl hp ha hd)
  have told := Frame.append s.pgLost.lossTold_frame s.pgLost.lossTold.baysOff_frame
  have dump := s.pgLost.lossTold.baysOff.dump_frame
  have regs : (s.pgLost.lossTold.baysOff.dump.onGlb fun g => { g with phase := .lossDump }).regs =
      s.pgLost.lossTold.baysOff.regs := dump.regs_eq (by decide)
  have pending := ((Frame.append (Frame.append s.pgLost_frame told) dump).pending_eq (by decide))
  refine ⟨_, State.row_next loss pending, ?_, ?_, ?_, ?_, ?_, ?_, fun n hn => ?_⟩
  · rw [State.onGlb, dump.glb_eq (by decide), told.glb_eq (by decide)]
    rfl
  · show s.pgLost.lossTold.baysOff.dump.bay.powerLoss = true
    rw [dump.bay_eq (by decide), State.powerLoss_baysOff, State.powerLoss_lossTold]
  · rw [State.is_congr regs, State.is_pgLost]
  · rw [State.is_congr regs, State.is_lossTold_baysOff]
  · rw [State.pair_congr regs, State.pair_lossTold_baysOff, State.pgLost, State.pair_flag_ne (by decide) (by decide)]
    rfl
  · refine State.dumpedTo_onGlb (State.dumpedTo_dump (Frame.mono (Frame.append s.pgLost_frame told) (by decide)) fun n hn => ?_) _
    exact State.word_pgLost_off (show 0x200040 + 4 * n < 0xB00000 by omega) (show 0x200040 + 4 * n ≠ 0x18 by omega) s
  · rw [State.is_congr regs, State.is_congr regs]
    exact ⟨State.is_baysOff (k := 0) hn (Or.inl rfl) _, State.is_baysOff (k := 1) hn (Or.inr rfl) _⟩

end

end Sys2Proof.Machine
end

section
/-!
SUPPORT. Laws of the boot flash's commands and of THERM_N (20_electrical_and_package.md).
-/

namespace Sys2Proof.Machine

/-! ### Bytes of words (R2) -/

/-- One byte of a little-endian number. -/
theorem leNat_byte (l : List Byte) (i : Nat) (h : i < l.length) : leNat l / 2 ^ (8 * i) % 2 ^ 8 = (l[i]).toNat := by
  induction l generalizing i with
  | nil => simp at h
  | cons b l ih =>
    have hb : b.toNat < 256 := b.isLt
    cases i with
    | zero =>
      show (b.toNat + 256 * leNat l) / 2 ^ (8 * 0) % 2 ^ 8 = b.toNat
      omega
    | succ i =>
      have shift : (b.toNat + 256 * leNat l) / 256 = leNat l := by omega
      rw [leNat, show 8 * (i + 1) = 8 + 8 * i by omega, Nat.pow_add, ← Nat.div_div_eq_div_mul,
        show (2 : Nat) ^ 8 = 256 from rfl, shift]
      exact ih i (Nat.lt_of_succ_lt_succ h)

/-- One byte of a word given by its four bytes. -/
theorem getBits_leNat {l : List Byte} {i : Nat} (h : i < 4) (hi : i < l.length) :
    getBits (BitVec.ofNat 32 (leNat l)) (8 * i) 8 = (l[i]).toNat := by
  rw [← leNat_byte l i hi, getBits, BitVec.toNat_ushiftRight, BitVec.toNat_ofNat, Nat.shiftRight_eq_div_pow]
  interval_cases i <;> omega

theorem Mem.read_getElem? (d : Byte) (m : Mem) (a n : Nat) {i : Nat} (h : i < n) :
    (Mem.read d m a n)[i]? = some (Mem.byte d m (a + i)) := by
  induction n generalizing a i with
  | zero => omega
  | succ n ih =>
    cases i with
    | zero => rfl
    | succ i =>
      rw [Mem.read, List.getElem?_cons_succ, ih _ (Nat.lt_of_succ_lt_succ h), Nat.add_assoc, Nat.add_comm 1]

/-! ### The boot flash (R740 to R742) -/

section
variable {s : State} {r : SpiRun} {b : Bool}

/-- The word of GLB_SPI_DATA that a read leaves in the place of an old one. -/
def spiWord (l : List Byte) (k : Nat) (w : Word) : Word :=
  BitVec.ofNat 32 (leNat (slice l (4 * k) 4 ++ (toBytes 4 w).drop (slice l (4 * k) 4).length))

theorem State.word_spiData (s : State) (l : List Byte) {k : Nat} (h : 4 * k < l.length) :
    (s.spiData l).word (A.GLB_SPI_DATA k) = spiWord l k (s.word (A.GLB_SPI_DATA k)) := by
  have once := State.each_own (get := fun s i => (i, s.word (A.GLB_SPI_DATA i)))
    (step := fun s k => s.setWord (A.GLB_SPI_DATA k) (spiWord l k (s.word (A.GLB_SPI_DATA k))))
    (g := fun x => (x.1, spiWord l x.1 x.2)) (fun s i => by simp)
    (fun s i j hj => by rw [State.word_setWord_ne _ (show 0x40 + 4 * i ≠ 0x40 + 4 * j by omega)])
    (List.nodup_range (n := (l.length + 3) / 4)) s k
  rw [if_pos (List.mem_range.2 (by omega))] at once
  exact congrArg Prod.snd once

/-- A read fills GLB_SPI_DATA from byte 0 on. -/
theorem State.byte_spiData (s : State) (l : List Byte) (i : Nat) (h : i < l.length) :
    getBits ((s.spiData l).word (A.GLB_SPI_DATA (i / 4))) (8 * (i % 4)) 8 = (l[i]).toNat := by
  have part : i % 4 < (slice l (4 * (i / 4)) 4).length := by
    rw [slice, List.length_take, List.length_drop]
    omega
  have inside : i % 4 < (slice l (4 * (i / 4)) 4 ++
      (toBytes 4 (s.word (A.GLB_SPI_DATA (i / 4)))).drop (slice l (4 * (i / 4)) 4).length).length := by
    rw [List.length_append]
    omega
  have byte : (slice l (4 * (i / 4)) 4)[i % 4]'part = l[i] := by
    simp only [slice, List.getElem_take, List.getElem_drop, Nat.div_add_mod]
  rw [State.word_spiData s l (by omega), spiWord, getBits_leNat (by omega) inside, List.getElem_append_left part, byte]

theorem State.spiData_frame (s : State) (l : List Byte) : Frame [.regs] s (s.spiData l) :=
  Frame.each (fun s _ => s.setWord_frame _ _) _ s

theorem State.fld_spiData {f : Fld} (h : f.addr < 0x40) (s : State) (l : List Byte) : (s.spiData l).fld f = s.fld f :=
  State.each_same _ _ _ (·.fld f) fun s k _ => by
    rw [State.fld, State.fld, State.word_setWord_ne _ (show 0x40 + 4 * k ≠ f.addr by omega)]

/-- What a command does with the bytes it has. -/
def State.spiPut (s : State) (r : SpiRun) (l : List Byte) : State :=
  if r.cmd = 1 then s.spiData l else s.flashWrite r.span.1 l

/-- A command is over, with its error. -/
def State.spiOver (s : State) (e : Nat) : State :=
  (s.onGlb fun g => { g with spi := none }).setFld F.GLB_SPI_CTRL_ERR e

/-- The bytes that a command which timed out would have replaced. -/
def State.spiOld (s : State) (r : SpiRun) : List Byte :=
  if r.cmd = 1 then ((List.range 16).flatMap fun k => toBytes 4 (s.word (A.GLB_SPI_DATA k))).take r.len
  else s.flashRead r.span.1 r.span.2

theorem State.spiDone_none (h : s.glb.spi = none) (b : Bool) : s.spiDone b = s := by simp [State.spiDone, h]

theorem State.spiDone_some (h : s.glb.spi = some r) (b : Bool) : s.spiDone b =
    if s.spiError r b = 0 then
      (((s.spiOver (s.spiError r b)).spiPut r ((s.spiOver (s.spiError r b)).spiBytes r)).flag F.GLB_STATUS_SPI_DONE)
    else if s.spiError r b = 2 then
      let u := (s.spiOver (s.spiError r b)).flag F.GLB_STATUS_SPI_ERR
      (u.spiPart (u.spiOld r) (u.spiBytes r)).2.spiPut r (u.spiPart (u.spiOld r) (u.spiBytes r)).1
    else (s.spiOver (s.spiError r b)).flag F.GLB_STATUS_SPI_ERR := by
  simp only [State.spiDone, h]
  rfl

/-- What every end of a command leaves: no command under way, and of the part no more than the flash bytes of the span, the
registers and the free choices changed. -/
structure SpiLeft (s : State) (r : SpiRun) (t : State) : Prop where
  frame : Frame [.glb, .flash, .regs, .free] s t
  idle : t.glb = { s.glb with spi := none }
  size : t.flash.size = s.flash.size
  read : r.cmd = 1 → t.flash = s.flash
  apart : ∀ x, x < r.span.1 ∨ r.span.1 + r.span.2 ≤ x → Mem.byte 0xFF t.flash.mem x = Mem.byte 0xFF s.flash.mem x

section
variable {u v : State}

theorem SpiLeft.over_of (s : State) (r : SpiRun) (e : Nat) : SpiLeft s r (s.spiOver e) where
  frame := Frame.mono (Frame.append (s.onGlb_frame _) (State.setFld_frame _ _ _)) (by decide)
  idle := rfl
  size := rfl
  read _ := rfl
  apart _ _ := rfl

theorem SpiLeft.of_frame (h : SpiLeft s r u) (hf : Frame [.regs, .free] u v) : SpiLeft s r v where
  frame := Frame.mono (Frame.append h.frame hf) (by decide)
  idle := (hf.glb_eq (by decide)).trans h.idle
  size := by rw [hf.flash_eq (by decide), h.size]
  read hr := (hf.flash_eq (by decide)).trans (h.read hr)
  apart x hx := by rw [hf.flash_eq (by decide), h.apart x hx]

theorem SpiLeft.flashWrite (h : SpiLeft s r u) (hr : r.cmd ≠ 1) {l : List Byte} (hl : l.length ≤ r.span.2) :
    SpiLeft s r (u.flashWrite r.span.1 l) where
  frame := Frame.mono (Frame.append h.frame (t := u) (k := [.flash]) fun b hb => by
    cases b <;> first | rfl | exact absurd (by decide) hb) (by decide)
  idle := h.idle
  size := h.size
  read hr' := absurd hr' hr
  apart x hx := (Mem.byte_write_out _ _ _ _ _ (by omega)).trans (h.apart x hx)

theorem SpiLeft.put (h : SpiLeft s r u) {l : List Byte} (hl : l.length ≤ r.span.2) : SpiLeft s r (u.spiPut r l) := by
  unfold State.spiPut
  split
  · exact h.of_frame (Frame.mono (u.spiData_frame l) (by decide))
  · next hr => exact h.flashWrite hr hl

theorem SpiLeft.flag (h : SpiLeft s r u) (f : Fld) : SpiLeft s r (u.flag f) :=
  h.of_frame (Frame.mono (u.flag_frame f) (by decide))

theorem SpiLeft.eq (h : SpiLeft s r u) :
    u = { s with glb := u.glb, flash := { s.flash with mem := u.flash.mem }, regs := u.regs, free := u.free } := by
  refine State.eq_of_agree fun b => ?_
  have same := h.frame b
  have size := h.size
  cases b
  case regs | free | glb => rfl
  case flash =>
    show u.flash = { size := s.flash.size, mem := u.flash.mem }
    rw [← size]
  all_goals exact same (by decide)

end

theorem State.flashRead_length (s : State) (a n : Nat) : (s.flashRead a n).length = n := Mem.read_length _ _ _ _

/-- A command has bytes for its span, no more. -/
theorem State.spiBytes_length_le (s : State) (r : SpiRun) : (s.spiBytes r).length ≤ r.span.2 := by
  unfold State.spiBytes
  split
  · rw [List.length_zipWith, State.flashRead_length]
    exact Nat.min_le_left _ _
  · next h => simp only [SpiRun.span, h, List.length_replicate, le_refl]
  · next h => simp only [SpiRun.span, h, List.length_replicate, le_refl]
  · rw [State.flashRead_length]

theorem State.spiPart_length_le (s : State) (old new : List Byte) : (s.spiPart old new).1.length ≤ new.length := by
  simp only [State.spiPart, List.length_map, List.length_zipIdx, List.length_zip]
  exact Nat.min_le_right _ _

theorem State.spiPart_frame (s : State) (old new : List Byte) : Frame [.free] s (s.spiPart old new).2 := fun b hb => by
  cases b <;> first | rfl | exact absurd (by decide) hb

theorem State.spiDone_left (h : s.glb.spi = some r) (b : Bool) : SpiLeft s r (s.spiDone b) := by
  rw [State.spiDone_some h]
  have done := SpiLeft.over_of s r (s.spiError r b)
  split
  · exact (done.put (State.spiBytes_length_le _ r)).flag _
  · split
    · refine SpiLeft.put ((done.flag _).of_frame (Frame.mono (State.spiPart_frame _ _ _) (by decide))) ?_
      exact (State.spiPart_length_le _ _ _).trans (State.spiBytes_length_le _ r)
    · exact done.flag _

/-! ### The error a command ends with (R742, Table 20-13) -/

theorem State.fld_spiPut {f : Fld} (h : f.addr < 0x40) (s : State) (r : SpiRun) (l : List Byte) :
    (s.spiPut r l).fld f = s.fld f := by
  unfold State.spiPut
  split
  · exact State.fld_spiData h s l
  · rfl

theorem State.fld_spiOver (s : State) {e : Nat} (h : e < 8) : (s.spiOver e).fld F.GLB_SPI_CTRL_ERR = e := by
  rw [State.spiOver, State.fld_setFld_self _ (by decide)]
  exact Nat.mod_eq_of_lt h

theorem State.spiError_lt (s : State) (r : SpiRun) (b : Bool) : s.spiError r b < 8 := by
  unfold State.spiError
  repeat' split
  all_goals decide

theorem State.fld_spiDone_err (h : s.glb.spi = some r) (b : Bool) :
    (s.spiDone b).fld F.GLB_SPI_CTRL_ERR = s.spiError r b := by
  have told := s.fld_spiOver (s.spiError_lt r b)
  rw [State.spiDone_some h]
  split
  · rw [State.fld_flag_apart _ (Or.inl (by decide)), State.fld_spiPut (by decide), told]
  · split
    · rw [State.fld_spiPut (by decide)]
      show State.fld (State.flag _ _) _ = _
      rw [State.fld_flag_apart _ (Or.inl (by decide)), told]
    · rw [State.fld_flag_apart _ (Or.inl (by decide)), told]

theorem State.spiDone_failed (h : s.glb.spi = some r) (he : s.spiError r b ≠ 0) :
    (s.spiDone b).is F.GLB_STATUS_SPI_ERR = true := by
  rw [State.spiDone_some h, if_neg he]
  split
  · rw [State.is, State.fld_spiPut (by decide)]
    exact State.is_flag _ (by decide) (by decide)
  · exact State.is_flag _ (by decide) (by decide)

/-- A command refused leaves the flash. -/
theorem State.spiDone_refused (h : s.glb.spi = some r) (he : s.spiError r b ≠ 0) (he' : s.spiError r b ≠ 2) :
    (s.spiDone b).flash = s.flash := by
  rw [State.spiDone_some h, if_neg he, if_neg he']
  rfl

theorem State.spiDone_done (h : s.glb.spi = some r) (he : s.spiError r b = 0) :
    s.spiDone b = ((s.spiOver 0).spiPut r (s.spiBytes r)).flag F.GLB_STATUS_SPI_DONE := by
  rw [State.spiDone_some h, if_pos he, he]
  rfl

section
variable (a n : Nat) (hspan : r.span = (a, n))
include hspan

theorem State.spiError_guarded (hg : r.cmd ≠ 1 ∧ s.flashGuarded.any fun x => rangesMeet a n x.1 x.2) : s.spiError r b = 1 := by
  simp only [State.spiError, hspan]
  exact if_pos hg

theorem State.spiError_size (hg : ¬(r.cmd ≠ 1 ∧ s.flashGuarded.any fun x => rangesMeet a n x.1 x.2))
    (hs : s.flash.size < a + n) : s.spiError r b = 3 := by
  simp only [State.spiError, hspan]
  rw [if_neg hg, if_pos hs]

theorem State.spiError_inside (hg : ¬(r.cmd ≠ 1 ∧ s.flashGuarded.any fun x => rangesMeet a n x.1 x.2))
    (hs : a + n ≤ s.flash.size) : s.spiError r b = if b then 2 else 0 := by
  simp only [State.spiError, hspan]
  rw [if_neg hg, if_neg (Nat.not_lt.2 hs)]

end

/-! ### The bytes a command leaves (R742) -/

theorem State.flash_spiPut_write (hr : r.cmd ≠ 1) (s : State) (l : List Byte) (i : Nat) (h : i < l.length) :
    Mem.byte 0xFF (s.spiPut r l).flash.mem (r.span.1 + i) = l[i] := by
  rw [State.spiPut, if_neg hr]
  exact Mem.byte_write_in _ _ _ _ _ h

/-- A READ without an error fills GLB_SPI_DATA from the span. -/
theorem State.spiDone_reads (h : s.glb.spi = some r) (he : s.spiError r b = 0) (hr : r.cmd = 1) {i : Nat} (hi : i < r.span.2) :
    getBits ((s.spiDone b).word (A.GLB_SPI_DATA (i / 4))) (8 * (i % 4)) 8 =
      (Mem.byte 0xFF s.flash.mem (r.span.1 + i)).toNat := by
  have bytes : s.spiBytes r = s.flashRead r.span.1 r.span.2 := by simp [State.spiBytes, hr]
  have inside : i < (s.flashRead r.span.1 r.span.2).length := by rwa [State.flashRead_length]
  rw [State.spiDone_done h he, State.word_flag_ne _ (show 0x18 ≠ 0x40 + 4 * (i / 4) by omega), State.spiPut, if_pos hr, bytes,
    State.byte_spiData _ _ _ inside]
  exact congrArg BitVec.toNat (Option.some.inj ((List.getElem?_eq_getElem inside).symm.trans (Mem.read_getElem? _ _ _ _ hi)))

theorem State.spiDone_writes (h : s.glb.spi = some r) (he : s.spiError r b = 0) (hr : r.cmd ≠ 1) {i : Nat} {v : Byte}
    (hv : (s.spiBytes r)[i]? = some v) : Mem.byte 0xFF (s.spiDone b).flash.mem (r.span.1 + i) = v := by
  obtain ⟨inside, rfl⟩ := List.getElem?_eq_some_iff.1 hv
  rw [State.spiDone_done h he]
  exact State.flash_spiPut_write hr _ _ i inside

/-- PROGRAM clears bits (entry 36). -/
theorem State.spiBytes_program (s : State) (hr : r.cmd = 2) {i : Nat} {v : Byte} (hi : i < r.span.2) (hv : r.data[i]? = some v) :
    (s.spiBytes r)[i]? = some (Mem.byte 0xFF s.flash.mem (r.span.1 + i) &&& v) := by
  have bytes : s.spiBytes r = (s.flashRead r.span.1 r.span.2).zipWith (· &&& ·) r.data := by simp [State.spiBytes, hr]
  rw [bytes, List.getElem?_zipWith, State.flashRead, Mem.read_getElem? _ _ _ _ hi, hv]

/-- An erase sets its span. -/
theorem State.spiBytes_erase (s : State) (hr : r.cmd = 3 ∨ r.cmd = 4) {i : Nat} (hi : i < r.span.2) :
    (s.spiBytes r)[i]? = some 0xFF := by
  rcases hr with hr | hr
  · simp only [SpiRun.span, hr] at hi
    simp only [State.spiBytes, hr]
    exact List.getElem?_replicate_of_lt hi
  · simp only [SpiRun.span, hr] at hi
    simp only [State.spiBytes, hr]
    exact List.getElem?_replicate_of_lt hi

end

section
variable {s : State}

/-- A GLB_SPI command waits for the one that runs. -/
theorem State.spiStart_busy (h : s.glb.spi.isSome = true) (cmd len : Nat) : s.spiStart cmd len = s := by
  rw [State.spiStart, if_pos h]

theorem State.spiStart_idle (h : s.glb.spi = none) (cmd len : Nat) :
    s.spiStart cmd len = { s with glb := { s.glb with spi := some ⟨cmd, s.fld F.GLB_SPI_ADDR_ADDR, min 64 len,
      ((List.range 16).flatMap fun k => toBytes 4 (s.word (A.GLB_SPI_DATA k))).take (min 64 len)⟩ } } := by
  rw [State.spiStart, h]
  rfl

theorem State.spiStart_pending (s : State) (cmd len : Nat) : (s.spiStart cmd len).pending = s.pending := by
  rw [State.spiStart]
  split <;> rfl

/-- The rows of the four commands of the boot flash. -/
theorem State.spiStart_row {p : Path} {n cmd len : Nat} {c : Instr} (hb : s.busOn = true)
    (hm : s.modeLets p A.GLB_SPI_CTRL = true)
    (hc : (c, cmd, len) ∈ [(Instr.spiRead p n, 1, n), (.spiProgram p n, 2, n), (.erase4k p, 3, 0), (.erase64k p, 4, 0)]) :
    exec c s = .next (s.spiStart cmd len) := by
  have row := fun cmd len => State.bus_next (f := fun s => s.spiStart cmd len) hb hm rfl (s.spiStart_pending cmd len)
  simp only [List.mem_cons, Prod.mk.injEq, List.not_mem_nil, or_false] at hc
  rcases hc with ⟨rfl, rfl, rfl⟩ | ⟨rfl, rfl, rfl⟩ | ⟨rfl, rfl, rfl⟩ | ⟨rfl, rfl, rfl⟩
  all_goals exact row _ _

theorem State.spiDone_row {b : Bool} {t : State} (hm : s.managed = true) (h : s.spiDone b = t) (ht : t.pending = s.pending) :
    exec (.spiDone b) s = .next t := by
  subst h
  show (s.row fun s => s.ifManaged fun s => s.spiDone b) = _
  rw [State.managed_row hm, ← ht]

/-- The span of a command (Table 20-13). -/
theorem SpiRun.span_eq {r : SpiRun} {a n : Nat} (h : (r.cmd = 1 ∨ r.cmd = 2) ∧ a = r.addr ∧ n = r.len ∨
    r.cmd = 3 ∧ a = r.addr / 4096 * 4096 ∧ n = 4096 ∨ r.cmd = 4 ∧ a = r.addr / 65536 * 65536 ∧ n = 65536) :
    r.span = (a, n) := by
  rcases h with ⟨hc | hc, rfl, rfl⟩ | ⟨hc, rfl, rfl⟩ | ⟨hc, rfl, rfl⟩
  all_goals simp only [SpiRun.span, hc]

/-! ### THERM_N (R745) -/

/-- THERM_N is asserted from the limit on, and stays asserted down to 3 degrees below it. -/
def State.thermLow (s : State) (temp : Int) : Bool :=
  decide ((s.thermLimit : Int) ≤ temp) || (s.is F.GLB_THERM_THERM && decide ((s.thermLimit : Int) - 3 < temp))

/-- The temperature and the pin as GLB_THERM shows them. -/
def State.thermShown (s : State) (temp : Int) : State :=
  (s.setFld F.GLB_THERM_TEMP (temp % 256).toNat).setFld F.GLB_THERM_THERM (ofBool (s.thermLow temp))

theorem State.therm_eq (s : State) (temp : Int) : s.therm temp =
    if s.thermLow temp && !s.is F.GLB_THERM_THERM then (s.thermShown temp).flag F.GLB_STATUS_THERM else s.thermShown temp := rfl

theorem State.therm_frame (s : State) (temp : Int) : Frame [.regs] s (s.therm temp) := by
  have shown : Frame [.regs] s (s.thermShown temp) := (s.setFld_frame _ _).trans (State.setFld_frame _ _ _)
  rw [State.therm_eq]
  exact Frame.ite (shown.trans (State.flag_frame _ _)) shown

/-- What THERM leaves of a field of another register than GLB_STATUS. -/
theorem State.fld_therm {f : Fld} (h : f.addr ≠ 0x18) (s : State) (temp : Int) :
    (s.therm temp).fld f = (s.thermShown temp).fld f := by
  rw [State.therm_eq]
  split
  · exact State.fld_flag_apart _ (Or.inl (Ne.symm h))
  · rfl

theorem State.fld_therm_temp (s : State) (temp : Int) : (s.therm temp).fld F.GLB_THERM_TEMP = (temp % 256).toNat := by
  rw [State.fld_therm (by decide), State.thermShown, State.fld_setFld_apart _ (Or.inr (by decide)),
    State.fld_setFld_self _ (by decide)]
  show (temp % 256).toNat % 256 = _
  omega

theorem State.fld_therm_limit (s : State) (temp : Int) : (s.therm temp).fld F.GLB_THERM_LIMIT = s.fld F.GLB_THERM_LIMIT := by
  rw [State.fld_therm (by decide), State.thermShown, State.fld_setFld_apart _ (Or.inr (by decide)),
    State.fld_setFld_apart _ (Or.inr (by decide))]

theorem State.is_therm_pin (s : State) (temp : Int) : (s.therm temp).is F.GLB_THERM_THERM = s.thermLow temp := by
  rw [State.is, State.fld_therm (by decide), State.thermShown, State.fld_setFld_self _ (by decide)]
  cases s.thermLow temp <;> rfl

/-- GLB_STATUS.THERM is set when the pin goes low. -/
theorem State.is_therm_status (s : State) (temp : Int) :
    (s.therm temp).is F.GLB_STATUS_THERM = (s.is F.GLB_STATUS_THERM || (s.thermLow temp && !s.is F.GLB_THERM_THERM)) := by
  have shown : (s.thermShown temp).is F.GLB_STATUS_THERM = s.is F.GLB_STATUS_THERM := by
    rw [State.is, State.thermShown, State.fld_setFld_apart _ (Or.inl (by decide)), State.fld_setFld_apart _ (Or.inl (by decide))]
    rfl
  rw [State.therm_eq]
  cases s.thermLow temp && !s.is F.GLB_THERM_THERM with
  | true => rw [if_pos rfl, State.is_flag _ (by decide) (by decide), Bool.or_true]
  | false => rw [if_neg Bool.false_ne_true, shown, Bool.or_false]

section
variable {temp : Int}

theorem State.thermLow_hot (h : (s.thermLimit : Int) ≤ temp) : s.thermLow temp = true := by simp [State.thermLow, h]

theorem State.thermLow_cool (h : temp ≤ (s.thermLimit : Int) - 3) : s.thermLow temp = false := by
  have below : ¬(s.thermLimit : Int) ≤ temp := by omega
  simp [State.thermLow, below, Int.not_lt.2 h]

/-- The hysteresis of 3 degrees. -/
theorem State.thermLow_between (h : (s.thermLimit : Int) - 3 < temp) (h' : temp < s.thermLimit) :
    s.thermLow temp = s.is F.GLB_THERM_THERM := by
  simp [State.thermLow, Int.not_le.2 h', h]

end

end

section
variable {s : State}

/-! ### How a GLB_SPI command ends (Table 20-13, R742) -/

section
variable {r : SpiRun} {a n : Nat} {b : Bool} (h : s.glb.spi = some r) (hspan : r.span = (a, n))
include h

/-- A command that ends with an error other than the timeout leaves the flash. -/
theorem State.spiEnd_error {e : Nat} (he : s.spiError r b = e) (h0 : e ≠ 0) (h2 : e ≠ 2) :
    (s.spiDone b).fld F.GLB_SPI_CTRL_ERR = e ∧ (s.spiDone b).is F.GLB_STATUS_SPI_ERR = true ∧ (s.spiDone b).flash = s.flash := by
  subst he
  exact ⟨State.fld_spiDone_err h b, State.spiDone_failed h h0, State.spiDone_refused h h0 h2⟩

include hspan

theorem State.spiEnd_read (hr : r.cmd = 1) (he : s.spiError r b = 0) {i : Nat} (hi : i < n) :
    getBits ((s.spiDone b).word (A.GLB_SPI_DATA (i / 4))) (8 * (i % 4)) 8 = (Mem.byte 0xFF s.flash.mem (a + i)).toNat := by
  have read := State.spiDone_reads h he hr (i := i)
  rw [hspan] at read
  exact read hi

theorem State.spiEnd_write (hr : r.cmd ≠ 1) (he : s.spiError r b = 0) {i : Nat} {v : Byte} (hv : (s.spiBytes r)[i]? = some v) :
    Mem.byte 0xFF (s.spiDone b).flash.mem (a + i) = v := by
  have written := State.spiDone_writes h he hr hv
  rwa [hspan] at written

/-- A command within the flash and clear of the protected slots. -/
theorem State.spiEnd_inside (hg : ¬(r.cmd ≠ 1 ∧ s.flashGuarded.any fun x => rangesMeet a n x.1 x.2)) (hs : a + n ≤ s.flash.size) :
    (b = true → (s.spiDone b).fld F.GLB_SPI_CTRL_ERR = 2 ∧ (s.spiDone b).is F.GLB_STATUS_SPI_ERR = true) ∧
    (b = false → (s.spiDone b).fld F.GLB_SPI_CTRL_ERR = 0 ∧ (s.spiDone b).is F.GLB_STATUS_SPI_DONE = true) ∧
    (r.cmd = 1 → (s.spiDone b).flash = s.flash ∧ (b = false → ∀ i < n, i < 64 →
      getBits ((s.spiDone b).word (A.GLB_SPI_DATA (i / 4))) (8 * (i % 4)) 8 = (Mem.byte 0xFF s.flash.mem (a + i)).toNat)) ∧
    (r.cmd = 2 → b = false → ∀ i < n, ∀ v, r.data[i]? = some v →
      Mem.byte 0xFF (s.spiDone b).flash.mem (a + i) = Mem.byte 0xFF s.flash.mem (a + i) &&& v) ∧
    (r.cmd = 3 ∨ r.cmd = 4 → b = false → ∀ i < n, Mem.byte 0xFF (s.spiDone b).flash.mem (a + i) = 0xFF) ∧
    ∀ x, x < a ∨ a + n ≤ x → Mem.byte 0xFF (s.spiDone b).flash.mem x = Mem.byte 0xFF s.flash.mem x := by
  have ends := State.spiDone_left h b
  have told := State.fld_spiDone_err h b
  have error := State.spiError_inside (b := b) a n hspan hg hs
  have done : b = false → s.spiError r b = 0 := fun hb => by rw [error, hb]; rfl
  have spans : ∀ {i : Nat}, i < n → i < r.span.2 := fun hi => by rwa [hspan]
  refine ⟨fun hb => ?_, fun hb => ?_, fun hr => ⟨ends.read hr, fun hb i hi _ => State.spiEnd_read h hspan hr (done hb) hi⟩,
    fun hr hb i hi v hv => ?_, fun hr hb i hi => ?_, fun x hx => ends.apart x (by rwa [hspan])⟩
  · have timeout : s.spiError r b = 2 := by rw [error, hb]; rfl
    exact ⟨told.trans timeout, State.spiDone_failed h (by rw [timeout]; decide)⟩
  · refine ⟨told.trans (done hb), ?_⟩
    rw [State.spiDone_done h (done hb)]
    exact State.is_flag _ (by decide) (by decide)
  · have bytes := State.spiBytes_program s hr (spans hi) hv
    rw [hspan] at bytes
    exact State.spiEnd_write h hspan (by rw [hr]; decide) (done hb) bytes
  · refine State.spiEnd_write h hspan ?_ (done hb) (State.spiBytes_erase s hr (spans hi))
    rcases hr with hr | hr <;> rw [hr] <;> decide

end

/-! ### THERM (R745) -/

theorem State.therm_row (hb : s.busOn = true) (temp : Int) : exec (.therm temp) s = .next (s.therm temp) := by
  show (s.row fun s => s.ifOn fun s => s.therm temp) = _
  rw [State.on_row hb, ← (s.therm_frame temp).pending_eq (by decide)]

theorem Frame.eq_regs {t : State} (h : Frame [.regs] s t) : t = { s with regs := t.regs } := by
  refine State.eq_of_agree fun b => ?_
  have same := h b
  cases b
  case regs => rfl
  all_goals exact same (by decide)

/-- The pin and its flag by the temperature: asserted at the limit, released 3 degrees below it, and kept between. -/
theorem State.therm_pin {l : Nat} (hl : l = s.thermLimit) (temp : Int) :
    (l ≤ temp → (s.therm temp).is F.GLB_THERM_THERM = true ∧
      (s.is F.GLB_THERM_THERM = false → (s.therm temp).is F.GLB_STATUS_THERM = true)) ∧
    (temp ≤ l - 3 → (s.therm temp).is F.GLB_THERM_THERM = false ∧
      (s.therm temp).is F.GLB_STATUS_THERM = s.is F.GLB_STATUS_THERM) ∧
    (l - 3 < temp → temp < l → (s.therm temp).is F.GLB_THERM_THERM = s.is F.GLB_THERM_THERM ∧
      (s.therm temp).is F.GLB_STATUS_THERM = s.is F.GLB_STATUS_THERM) := by
  subst hl
  rw [State.is_therm_pin, State.is_therm_status]
  refine ⟨fun h => ?_, fun h => ?_, fun h h' => ?_⟩
  · rw [State.thermLow_hot h]
    exact ⟨rfl, fun off => by rw [off, Bool.not_false, Bool.and_true, Bool.or_true]⟩
  · rw [State.thermLow_cool h]
    exact ⟨rfl, by rw [Bool.false_and, Bool.or_false]⟩
  · rw [State.thermLow_between h h']
    exact ⟨rfl, by rw [Bool.and_not_self, Bool.or_false]⟩

end

end Sys2Proof.Machine
end

section
/-!
SUPPORT. Laws of BOOT_START (20_electrical_and_package.md, Table 20-6).
-/

namespace Sys2Proof.Machine

/-! ### What BOOT_START restores (R730, Table 20-6) -/

section
variable {s u : State}

/-- What the restore leaves of the Attic: all but its pool and its slice map. -/
def Attic.fixed (a : Attic) : Attic := { a with pool := [], sliceMap := [] }

theorem Attic.kept_of_fixed {a b : Attic} (h : b.fixed = a.fixed) : b.staged = a.staged ∧ b.floor = a.floor ∧
    b.fwFloor = a.fwFloor ∧ b.cores = a.cores ∧ b.dump = a.dump := by
  simp only [Attic.fixed, Attic.mk.injEq] at h
  simp [h]

/-- One slice of a retired pseudo-channel takes the first slice of the pool. -/
def State.bootSlice (s : State) (x : Nat) : State :=
  match s.attic.pool with
  | y :: t => s.onAttic fun a => { a with pool := t, sliceMap := Tab.set x y a.sliceMap }
  | [] => s

theorem State.bootSlices_eq (s : State) (p : Nat) : s.bootSlices p = s.each (s.slicesOn p) State.bootSlice := rfl

theorem State.bootSlice_frame (s : State) (x : Nat) : Frame [.attic] s (s.bootSlice x) := by
  unfold State.bootSlice
  split
  · exact s.onAttic_frame _
  · exact Frame.refl _ s

theorem State.bootSlice_fixed (s : State) (x : Nat) : (s.bootSlice x).attic.fixed = s.attic.fixed := by
  unfold State.bootSlice
  split <;> rfl

/-- The Cellar's maps are the Attic's. -/
def State.cellarMapped (s : State) : State := s.onHst fun h => { h with sliceMap := s.attic.sliceMap, pool := s.attic.pool }

/-- A pseudo-channel that the Attic records as retired comes back so. -/
def State.pcBack (s : State) (x : Nat × Nat) : State := s.setPc x.1 { pcDefault with state := .retired, cause := x.2 }

/-- Its slices come back, switched where they were not yet. -/
def State.slicesBack (s : State) (x : Nat × Nat) : State :=
  (s.bootSlices x.1).onHst fun h => { h with sliceMap := s.attic.sliceMap, pool := s.attic.pool }

theorem State.cellarMapped_frame (s : State) : Frame [.hst] s s.cellarMapped := s.onHst_frame _

@[simp] theorem State.cellarMapped_attic (s : State) : s.cellarMapped.attic = s.attic := rfl

@[simp] theorem State.cellarMapped_withdrawn (s : State) : s.cellarMapped.hst.withdrawn = s.hst.withdrawn := rfl

theorem State.restoreCellar_eq (s : State) : s.restoreCellar =
    (((s.onHst fun h => { h with withdrawn := s.attic.withdrawn, pool := s.attic.pool, sliceMap := s.attic.sliceMap }).each
      s.attic.retired State.pcBack).each s.attic.retired State.slicesBack).cellarMapped := rfl

theorem State.pcBack_frame (s : State) (x : Nat × Nat) : Frame [.hst] s (s.pcBack x) :=
  s.onHst_frame fun h => { h with pcs := Tab.put pcDefault x.1 { pcDefault with state := .retired, cause := x.2 } h.pcs }

theorem State.bootSlices_frame (s : State) (p : Nat) : Frame [.attic] s (s.bootSlices p) := by
  rw [State.bootSlices_eq]
  exact Frame.each (fun s x => s.bootSlice_frame x) _ s

theorem State.bootSlices_fixed (s : State) (p : Nat) : (s.bootSlices p).attic.fixed = s.attic.fixed := by
  rw [State.bootSlices_eq]
  exact State.each_same _ _ _ (·.attic.fixed) fun s x _ => s.bootSlice_fixed x

theorem State.slicesBack_frame (s : State) (x : Nat × Nat) : Frame [.hst, .attic] s (s.slicesBack x) := by
  rw [State.slicesBack]
  exact Frame.mono (Frame.append (s.bootSlices_frame x.1) (State.onHst_frame _ _)) (by decide)

theorem State.slicesBack_fixed (s : State) (x : Nat × Nat) : (s.slicesBack x).attic.fixed = s.attic.fixed := by
  rw [State.slicesBack, State.onHst_attic, State.bootSlices_fixed]

theorem State.slicesBack_withdrawn (s : State) (x : Nat × Nat) : (s.slicesBack x).hst.withdrawn = s.hst.withdrawn := by
  rw [State.slicesBack, State.onHst_hst, (s.bootSlices_frame x.1).hst_eq (by decide)]

theorem State.restoreCellar_frame (s : State) : Frame [.hst, .attic] s s.restoreCellar := by
  rw [State.restoreCellar_eq]
  exact Frame.mono (Frame.append (Frame.append (Frame.append (s.onHst_frame _) (Frame.each State.pcBack_frame _ _))
    (Frame.each State.slicesBack_frame _ _)) (State.cellarMapped_frame _)) (by decide)

theorem State.restoreCellar_fixed (s : State) : s.restoreCellar.attic.fixed = s.attic.fixed := by
  rw [State.restoreCellar_eq, State.cellarMapped_attic]
  refine (State.each_same _ _ _ (·.attic.fixed) fun s x _ => s.slicesBack_fixed x).trans ?_
  exact State.each_same _ _ _ (·.attic.fixed) fun _ _ _ => rfl

/-- The withdrawn segments come back from the Attic. -/
theorem State.restoreCellar_withdrawn (s : State) : s.restoreCellar.hst.withdrawn = s.attic.withdrawn := by
  rw [State.restoreCellar_eq, State.cellarMapped_withdrawn]
  refine (State.each_same _ _ _ (·.hst.withdrawn) fun s x _ => s.slicesBack_withdrawn x).trans ?_
  exact State.each_same _ _ _ (·.hst.withdrawn) fun _ _ _ => rfl

theorem State.restoreRebuild_frame (s : State) : Frame [.rbd] s s.restoreRebuild :=
  Frame.each (fun s _ => Frame.each (fun s _ => s.onRbd_frame _) _ s) _ s

/-- An island takes a mode. -/
def State.islandTakes (m : PowerMode) (s : State) (i : Nat) : State :=
  let x := s.island i
  if s.islandRuns m i then
    let v := if x.volt = 0 then (s.islandVolts i).2 else x.volt
    s.setIsland i { x with volt := v, freq := s.islandTarget m i, gated := false, throttled := false, passes := 0, periods := 0 }
  else s.setIsland i { x with freq := 0, gated := true, throttled := false, passes := 0, periods := 0 }

theorem State.islandsTake_eq (s : State) (m : PowerMode) : s.islandsTake m = s.each (List.range 128) (State.islandTakes m) := rfl

theorem State.island_setIsland_self (s : State) (i : Nat) (x : Island) : (s.setIsland i x).island i = x :=
  Tab.getD_set_self _ _ _ _

theorem State.island_setIsland_ne {i j : Nat} (h : j ≠ i) (s : State) (x : Island) :
    (s.setIsland i x).island j = s.island j := Tab.getD_set_ne (Ne.symm h) _ _ _

theorem State.islandTarget_congr (h : u.inv = s.inv) (m : PowerMode) (i : Nat) : u.islandTarget m i = s.islandTarget m i := by
  have sect : u.sect = s.sect := by
    unfold State.sect
    rw [h]
  unfold State.islandTarget State.islandMax State.islandRec State.islandRecs
  rw [sect]

/-- In Active every island runs, at its target (R673). -/
theorem State.islandTakes_active (s : State) (i : Nat) :
    ∃ x, s.islandTakes .active i = s.setIsland i x ∧ x.freq = s.islandTarget .active i := by
  unfold State.islandTakes
  exact ⟨_, if_pos rfl, rfl⟩

theorem State.freq_islandsTake (s : State) {i : Nat} (h : i < 128) :
    ((s.islandsTake .active).island i).freq = s.islandTarget .active i := by
  have target : ∀ (s : State) i j, (s.islandTakes .active i).islandTarget .active j = s.islandTarget .active j := fun s i j => by
    obtain ⟨x, e, -⟩ := s.islandTakes_active i
    rw [e]
    exact State.islandTarget_congr rfl .active j
  have once := State.each_own (get := fun s i => (s.islandTarget .active i, (s.island i).freq))
    (step := State.islandTakes .active) (g := fun x => (x.1, x.1)) (fun s i => ?self) (fun s i j hj => ?other)
    (List.nodup_range (n := 128)) s i
  case self =>
    obtain ⟨x, e, freq⟩ := s.islandTakes_active i
    rw [target, e, State.island_setIsland_self, freq]
  case other =>
    obtain ⟨x, e, -⟩ := s.islandTakes_active i
    rw [target, e, State.island_setIsland_ne hj]
  rw [if_pos (List.mem_range.2 h)] at once
  rw [State.islandsTake_eq]
  exact (Prod.mk.inj once).2

/-- The part runs. -/
def State.powered (s : State) : State := s.onGlb fun g => { g with pgIn := true, resetN := true, phase := .running }

/-- The part runs again, with what the Attic holds of the Cellar, of the rebuild walks and of the patrols. -/
def State.bootRestored (s : State) : State := s.powered.restoreCellar.restoreRebuild.restorePatrol.islandsTake .active

section
variable (s : State)

/-- What the restore of the walks and of the patrols changes. -/
theorem State.restoreWalks_frame : Frame [.rbd] s s.restoreRebuild.restorePatrol :=
  Frame.mono (Frame.append s.restoreRebuild_frame (State.onRbd_frame _ _)) (by decide)

theorem State.bootRestored_kept : Frame [.rbd, .pwr] s.powered.restoreCellar s.bootRestored :=
  Frame.append (State.restoreWalks_frame _) (State.islandsTake_frame _ _)

theorem State.powered_restoreCellar_frame : Frame [.glb, .hst, .attic] s s.powered.restoreCellar :=
  Frame.append (s.onGlb_frame _) (State.restoreCellar_frame _)

theorem State.bootRestored_frame : Frame [.glb, .hst, .attic, .rbd, .pwr] s s.bootRestored :=
  Frame.append s.powered_restoreCellar_frame s.bootRestored_kept

theorem State.bootRestored_glb : s.bootRestored.glb = { s.glb with pgIn := true, resetN := true, phase := .running } :=
  (s.bootRestored_kept.glb_eq (by decide)).trans ((State.restoreCellar_frame _).glb_eq (by decide))

theorem State.bootRestored_fixed : s.bootRestored.attic.fixed = s.attic.fixed := by
  rw [s.bootRestored_kept.attic_eq (by decide)]
  exact State.restoreCellar_fixed _

theorem State.bootRestored_withdrawn : s.bootRestored.hst.withdrawn = s.attic.withdrawn := by
  rw [s.bootRestored_kept.hst_eq (by decide)]
  exact State.restoreCellar_withdrawn _

theorem State.bootRestored_freq {i : Nat} (h : i < 128) : (s.bootRestored.island i).freq = s.islandTarget .active i := by
  refine (State.freq_islandsTake _ h).trans (State.islandTarget_congr ?_ _ _)
  rw [(State.restoreWalks_frame _).inv_eq (by decide), s.powered_restoreCellar_frame.inv_eq (by decide)]

end

end

/-! ### Firmware start and the ports (R730, R738, R739) -/

section
variable {s u : State}

/-- What the candidates depend on (R68). -/
theorem State.bootChoice_congr (hf : u.flash = s.flash) (hk : u.fuses = s.fuses) (ha : u.attic.fixed = s.attic.fixed) :
    u.bootChoice = s.bootChoice := by
  obtain ⟨staged, floor, -⟩ := Attic.kept_of_fixed ha
  have image : u.flashImage = s.flashImage := by
    unfold State.flashImage State.flashRead
    rw [hf]
  unfold State.bootChoice State.bootCandidates
  rw [image, hk, staged, floor]

/-- What the firmware images depend on (R738). -/
theorem State.fwChoice_congr (hf : u.flash = s.flash) (hk : u.fuses = s.fuses) (ha : u.attic.fwFloor = s.attic.fwFloor) :
    u.fwChoice = s.fwChoice := by
  have image : u.flashImage = s.flashImage := by
    unfold State.flashImage State.flashRead
    rw [hf]
  unfold State.fwChoice State.fwImages
  rw [image, hk, ha]

/-- No core has changed since the reset: all three are ACTIVE (R598). -/
theorem State.activeCores_fresh (h : s.wdn.cores = []) : s.activeCores = [0, 1, 2] := by
  unfold State.activeCores State.core
  rw [h]
  rfl

/-- The complex runs firmware at a mode of its cores. -/
theorem State.complexMode_spec (s : State) : ∃ m, s.complexMode = s.onWdn fun w => { w with mode := m } := by
  have stays : s = s.onWdn fun w => { w with mode := s.wdn.mode } := rfl
  unfold State.complexMode
  split
  · exact ⟨_, stays⟩
  · exact ⟨_, stays⟩
  · exact ⟨_, rfl⟩

/-- One core starts. -/
def State.coreStarts (c : WCore → WCore) (s : State) (n : Nat) : State := s.setCore n (c (s.core n))

theorem State.coreStarts_frame (c : WCore → WCore) (s : State) (n : Nat) : Frame [.wdn] s (s.coreStarts c n) := s.onWdn_frame _

theorem State.core_each_coreStarts (c : WCore → WCore) {l : List Nat} (hl : l.Nodup) (s : State) {n : Nat} (hn : n ∈ l) :
    (s.each l (State.coreStarts c)).core n = c (s.core n) := by
  have once := State.each_own (get := State.core) (step := State.coreStarts c) (g := c)
    (fun s i => Tab.getD_set_self _ _ _ _) (fun s i j hj => Tab.getD_set_ne (Ne.symm hj) _ _ _) hl s n
  rwa [if_pos hn] at once

/-- A core on an image's entry (R600). -/
def startedOn (img : List Byte) (reason : Nat) (c : WCore) : WCore := { c with
  regs := Tab.put 0 10 (BitVec.ofNat 64 reason) [], csrs := [], mem := codeMem (slice img 128 (leAt img 24 4)), wfi := false
  pc := BitVec.ofNat 64 (0x100000 + leAt img 28 4) }

/-- A core in the recovery loop (R739). -/
def startedRecovery (c : WCore) : WCore := { c with regs := [], csrs := [], mem := [], wfi := false, pc := 0 }

theorem State.fwBoot_image {k : Nat} {img : List Byte} (h : s.fwChoice = some (k, img)) (r : Nat) : s.fwBoot r =
    ((s.each s.activeCores (State.coreStarts (startedOn img r))).setFld F.GLB_BOOT_FW_SLOT k).onWdn fun w =>
      { w with startReason := r, entry := leAt img 28 4, fwSerial := leAt img 16 8, fwSlot := some k, recovery := false } := by
  simp only [State.fwBoot, h]
  rfl

theorem State.fwBoot_none (h : s.fwChoice = none) (r : Nat) : s.fwBoot r =
    ((s.each s.activeCores (State.coreStarts startedRecovery)).setFld F.GLB_BOOT_FW_SLOT 3).onWdn fun w =>
      { w with startReason := r, entry := 0, fwSerial := 0, fwSlot := none, recovery := true } := by
  simp only [State.fwBoot, h]
  rfl

/-- The start of the cores changes the complex and GLB_BOOT.FW_SLOT. -/
theorem State.fwBoot_shape (s : State) (r : Nat) : ∃ c k g, s.fwBoot r =
    ((s.each s.activeCores (State.coreStarts c)).setFld F.GLB_BOOT_FW_SLOT k).onWdn g := by
  cases h : s.fwChoice with
  | none => exact ⟨_, _, _, State.fwBoot_none h r⟩
  | some x => exact ⟨_, _, _, State.fwBoot_image h r⟩

theorem State.coreStarts_each_frame (c : WCore → WCore) (s : State) (l : List Nat) :
    Frame [.wdn] s (s.each l (State.coreStarts c)) :=
  Frame.each (State.coreStarts_frame c) l s

theorem State.fwBoot_frame (s : State) (r : Nat) : Frame [.wdn, .regs] s (s.fwBoot r) := by
  obtain ⟨c, k, g, e⟩ := s.fwBoot_shape r
  rw [e]
  exact Frame.mono (Frame.append (Frame.append (s.coreStarts_each_frame c _) (State.setFld_frame _ _ _)) (State.onWdn_frame _ _))
    (by decide)

theorem State.fld_fwBoot {f : Fld} (h : F.GLB_BOOT_FW_SLOT.apart f) (s : State) (r : Nat) : (s.fwBoot r).fld f = s.fld f := by
  obtain ⟨c, k, g, e⟩ := s.fwBoot_shape r
  rw [e]
  refine (State.fld_setFld_apart _ h k).trans ?_
  exact State.fld_congr ((s.coreStarts_each_frame c _).regs_eq (by decide)) f

/-! The ports of the drives present at boot. -/

/-- The complex but for what waits to tell it. -/
def Wdn.quiet (w : Wdn) : Wdn := { w with events := [] }

theorem Wdn.kept_of_quiet {v w : Wdn} (h : w.quiet = v.quiet) : w.cores = v.cores ∧ w.recovery = v.recovery ∧
    w.fwSlot = v.fwSlot ∧ w.startReason = v.startReason ∧ w.fwSerial = v.fwSerial := by
  simp only [Wdn.quiet, Wdn.mk.injEq] at h
  simp [h]

theorem State.portPower_frame (s : State) (n : Nat) : Frame [.drv] s (s.portPower n) :=
  Frame.ite (s.onDrv_frame _) (Frame.refl _ s)

theorem State.portInserted_frame (s : State) (n : Nat) : Frame [.drv, .rsv, .regs, .wdn] s (s.portInserted n) := by
  have present := s.onDrv_frame fun d =>
    { d with ports := Tab.set n { s.port n with presence := true, presenceAt := s.now } d.ports }
  refine Frame.mono (Frame.append present (Frame.ite ?_ (Frame.refl [.drv, .rsv, .regs, .wdn] _))) (by decide)
  exact Frame.mono (Frame.append (Frame.append (Frame.append (Frame.append (State.onDrv_frame _ _) (State.onRsv_frame _ _))
    (State.flag_frame _ _)) (State.event_frame _ _)) (State.portPower_frame _ n)) (by decide)

theorem State.fld_portInserted {f : Fld} (h : 0xA00004 ≠ f.addr) (s : State) (n : Nat) : (s.portInserted n).fld f = s.fld f := by
  unfold State.portInserted
  dsimp only
  split
  · rw [State.fld_congr ((State.portPower_frame _ n).regs_eq (by decide)), State.fld_congr (State.event_regs _ _),
      State.fld_flag_apart _ (Or.inl h)]
    rfl
  · rfl

theorem State.quiet_portInserted (s : State) (n : Nat) : (s.portInserted n).wdn.quiet = s.wdn.quiet := by
  unfold State.portInserted
  dsimp only
  split
  · rw [(State.portPower_frame _ n).wdn_eq (by decide)]
    rfl
  · rfl

/-- The ports of the drives present take them as inserted. -/
def State.portsFound (s : State) : State := s.each ((List.range 24).filter fun n => (s.port n).presence) State.portInserted

theorem State.portsFound_frame (s : State) : Frame [.drv, .rsv, .regs, .wdn] s s.portsFound :=
  Frame.each State.portInserted_frame _ s

theorem State.fld_portsFound {f : Fld} (h : 0xA00004 ≠ f.addr) (s : State) : s.portsFound.fld f = s.fld f :=
  State.each_same _ _ _ (·.fld f) fun s n _ => State.fld_portInserted h s n

theorem State.quiet_portsFound (s : State) : s.portsFound.wdn.quiet = s.wdn.quiet :=
  State.each_same _ _ _ (·.wdn.quiet) fun s n _ => s.quiet_portInserted n

end

/-! ### BOOT_START without a candidate image (R68, R730) -/

section
variable {s : State}

/-- The time to firmware start and the flash mode as GLB_BOOT shows them. -/
def State.bootShown (s : State) (ms mode : Nat) : State := (s.setFld F.GLB_BOOT_FW_MS ms).setFld F.GLB_BOOT_FLASH_MODE mode

/-- The debug nonce is drawn (R720). -/
def State.bootNonce (s : State) : State := (s.draw 64).2.setPair A.MGT_DBG_NONCE (s.draw 64).1

/-- The cores the Attic records as retired, and those whose self-test fails, are retired. -/
def State.bootCores (s : State) (failing : List Nat) : State :=
  let s := s.each s.attic.cores fun s n => s.setCore n { s.core n with state := .retired }
  s.each (s.activeCores.filter failing.contains) fun s n => s.coreRetire n

/-- The complex starts on two cores or more. -/
def State.bootFirmware (s : State) : State :=
  if s.activeCores.length < 2 then s.onWdn fun w => { w with mode := .halted } else (s.complexMode).fwBoot 0

/-- BOOT_START once the Inventory has been looked for. -/
def State.bootEnd (s : State) : State :=
  let (nonce, s) := s.draw 64
  let s := s.setPair A.MGT_DBG_NONCE nonce
  let s := if s.activeCores.length < 2 then s.onWdn fun w => { w with mode := .halted } else (s.complexMode).fwBoot 0
  s.each ((List.range 24).filter fun n => (s.port n).presence) fun s n => s.portInserted n

theorem State.bootEnd_eq (s : State) : s.bootEnd = s.bootNonce.bootFirmware.portsFound := rfl

theorem State.bootStart_held (h : s.glb.phase = .held) (ms mode : Nat) (l : List Nat) :
    s.bootStart ms mode l = ((s.bootRestored.bootCores l).bootShown ms mode).bootLoad.bootEnd := by
  rw [State.bootStart, if_pos h]
  delta State.bootEnd State.bootShown State.bootCores State.bootRestored State.powered
  with_reducible rfl

theorem State.bootStart_off (h : s.glb.phase ≠ .held) (ms mode : Nat) (l : List Nat) : s.bootStart ms mode l = s := if_neg h

theorem State.bootCores_none (h : s.attic.cores = []) : s.bootCores [] = s := by
  have none : s.activeCores.filter ([] : List Nat).contains = [] := by simp
  rw [State.bootCores, h]
  show s.each (s.activeCores.filter ([] : List Nat).contains) _ = s
  rw [none]
  rfl

theorem State.bootFirmware_fresh (h : s.wdn.cores = []) : s.bootFirmware = s.complexMode.fwBoot 0 := by
  rw [State.bootFirmware, State.activeCores_fresh h]
  rfl

/-- The loader stays EMPTY: no section is resident (R68). -/
def State.noImage (s : State) : State := s.onAttic fun a => { a with resident := [] }

theorem State.bootLoad_none (h : s.bootChoice = none) : s.bootLoad = s.noImage := by
  simp only [State.bootLoad, h]
  rfl

/-- The part with no image in force, right before firmware starts. -/
def State.bootBare (s : State) (ms mode : Nat) : State := ((s.bootRestored.bootShown ms mode).noImage).bootNonce

theorem State.bootShown_frame (s : State) (ms mode : Nat) : Frame [.regs] s (s.bootShown ms mode) :=
  Frame.trans (s.setFld_frame _ _) (State.setFld_frame _ _ _)

theorem State.bootNonce_frame (s : State) : Frame [.free, .regs] s s.bootNonce := by
  have drawn : Frame [.free] s (s.draw 64).2 := fun b hb => by cases b <;> first | rfl | exact absurd (by decide) hb
  exact drawn.append (State.setPair_frame _ _ _)

theorem State.noImage_frame (s : State) : Frame [.attic] s s.noImage := s.onAttic_frame _

section
variable (s : State) (ms mode : Nat)

theorem State.bootBare_kept : Frame [.regs, .attic, .free] s.bootRestored (s.bootBare ms mode) :=
  Frame.mono (Frame.append (Frame.append (State.bootShown_frame _ ms mode) (State.noImage_frame _)) (State.bootNonce_frame _))
    (by decide)

theorem State.bootBare_frame : Frame [.glb, .hst, .attic, .rbd, .pwr, .regs, .free] s (s.bootBare ms mode) :=
  Frame.mono (Frame.append s.bootRestored_frame (s.bootBare_kept ms mode)) (by decide)

theorem State.bootBare_attic : (s.bootBare ms mode).attic = { s.bootRestored.attic with resident := [] } := by
  have shown := (State.bootShown_frame s.bootRestored ms mode).attic_eq (by decide)
  rw [State.bootBare, (State.bootNonce_frame _).attic_eq (by decide), State.noImage, State.onAttic_attic, shown]

theorem State.fld_bootBare {f : Fld} (h : f.addr < 0xF00000) :
    (s.bootBare ms mode).fld f = (s.bootRestored.bootShown ms mode).fld f := by
  have nonce : A.MGT_DBG_NONCE = 0xF000F0 := rfl
  rw [State.fld, State.fld, State.bootBare, State.bootNonce, State.word_setPair_ne _ _ (by omega) (by omega)]
  generalize s.bootRestored.bootShown ms mode = v
  rfl

end

/-- The state that BOOT_START ends in where no candidate passes and no core is retired. -/
theorem State.bootStart_bare (hp : s.glb.phase = .held) (hc : s.bootChoice = none) (ha : s.attic.cores = [])
    (hw : s.wdn.cores = []) (ms mode : Nat) :
    s.bootStart ms mode [] = ((s.bootBare ms mode).complexMode.fwBoot 0).portsFound := by
  obtain ⟨-, -, -, cores, -⟩ := Attic.kept_of_fixed s.bootRestored_fixed
  have same := Frame.append s.bootRestored_frame (State.bootShown_frame s.bootRestored ms mode)
  have choice : (s.bootRestored.bootShown ms mode).bootChoice = none := by
    refine (State.bootChoice_congr (same.flash_eq (by decide)) (same.fuses_eq (by decide)) ?_).trans hc
    rw [(State.bootShown_frame _ ms mode).attic_eq (by decide), s.bootRestored_fixed]
  have fresh : (s.bootBare ms mode).wdn.cores = [] := by rw [(s.bootBare_frame ms mode).wdn_eq (by decide), hw]
  rw [State.bootStart_held hp, State.bootEnd_eq, State.bootCores_none (cores.trans ha), State.bootLoad_none choice]
  show (s.bootBare ms mode).bootFirmware.portsFound = _
  rw [State.bootFirmware_fresh fresh]

/-- Firmware start and the ports change the complex, the drives' ports and the flags of both. -/
theorem State.started_frame (s : State) : Frame [.wdn, .regs, .drv, .rsv] s (s.complexMode.fwBoot 0).portsFound := by
  obtain ⟨m, e⟩ := s.complexMode_spec
  rw [e]
  exact Frame.mono (Frame.append (Frame.append (s.onWdn_frame _) (State.fwBoot_frame _ 0)) (State.portsFound_frame _)) (by decide)

theorem State.fld_started {f : Fld} (h : F.GLB_BOOT_FW_SLOT.apart f) (h' : 0xA00004 ≠ f.addr) (s : State) :
    (s.complexMode.fwBoot 0).portsFound.fld f = s.fld f := by
  obtain ⟨m, e⟩ := s.complexMode_spec
  rw [State.fld_portsFound h', State.fld_fwBoot h, e]
  rfl

/-- Firmware that starts in the recovery loop (R739). -/
theorem State.started_recovery (h : s.fwChoice = none) :
    (s.complexMode.fwBoot 0).portsFound.wdn.recovery = true ∧ (s.complexMode.fwBoot 0).portsFound.fld F.GLB_BOOT_FW_SLOT = 3 := by
  obtain ⟨m, e⟩ := s.complexMode_spec
  have choice : s.complexMode.fwChoice = none := by rw [e]; exact h
  obtain ⟨-, recovery, -⟩ := Wdn.kept_of_quiet (State.quiet_portsFound (s.complexMode.fwBoot 0))
  refine ⟨?_, ?_⟩
  · rw [recovery, State.fwBoot_none choice]
    rfl
  · rw [State.fld_portsFound (by decide), State.fwBoot_none choice]
    exact State.fld_setFld_self _ (by decide) 3

/-- Firmware that starts on an image (R738). -/
theorem State.started_image {k : Nat} {img : List Byte} (h : s.fwChoice = some (k, img)) (hw : s.wdn.cores = []) (hk : k < 2)
    {t : State} (ht : t = (s.complexMode.fwBoot 0).portsFound) :
    t.wdn.recovery = false ∧ t.wdn.fwSlot = some k ∧ t.fld F.GLB_BOOT_FW_SLOT = k ∧ t.wdn.startReason = 0 ∧
      t.wdn.fwSerial = leAt img 16 8 ∧ ∀ n < 3, (t.core n).pc = BitVec.ofNat 64 (0x100000 + leAt img 28 4) := by
  subst ht
  obtain ⟨m, e⟩ := s.complexMode_spec
  have choice : s.complexMode.fwChoice = some (k, img) := by rw [e]; exact h
  have active : s.complexMode.activeCores = [0, 1, 2] := State.activeCores_fresh (by rw [e]; exact hw)
  have boot := State.fwBoot_image choice 0
  rw [active] at boot
  obtain ⟨cores, recovery, slot, reason, serial⟩ := Wdn.kept_of_quiet (State.quiet_portsFound (s.complexMode.fwBoot 0))
  refine ⟨recovery.trans ?_, slot.trans ?_, ?_, reason.trans ?_, serial.trans ?_, fun n hn => ?_⟩
  · rw [boot]
    rfl
  · rw [boot]
    rfl
  · rw [State.fld_portsFound (by decide), boot]
    refine (State.fld_setFld_self _ (by decide) k).trans (Nat.mod_eq_of_lt ?_)
    exact Nat.lt_trans hk (by decide)
  · rw [boot]
    rfl
  · rw [boot]
    rfl
  · have started : (s.complexMode.fwBoot 0).core n = startedOn img 0 (s.complexMode.core n) := by
      rw [boot]
      exact State.core_each_coreStarts (startedOn img 0) (by decide) _ (List.mem_range.2 hn : n ∈ List.range 3)
    rw [State.core, cores]
    show ((s.complexMode.fwBoot 0).core n).pc = _
    rw [started]
    rfl

/-- BOOT_START of a part that finds no candidate image. -/
theorem State.bootStart_next {ms mode : Nat} (hp : s.glb.phase = .held) (hc : s.bootChoice = none) (ha : s.attic.cores = [])
    (hw : s.wdn.cores = []) (hms : ms < 4096) (hmode : mode < 4) :
    ∃ t, exec (.bootStart ms mode []) s = .next t ∧ t.glb = { s.glb with pgIn := true, resetN := true, phase := .running } ∧
      t.fld F.GLB_BOOT_FW_MS = ms ∧ t.fld F.GLB_BOOT_FLASH_MODE = mode ∧ t.inv = s.inv ∧ t.fuses = s.fuses ∧
      t.flash = s.flash ∧ t.drives = s.drives ∧ t.attic.resident = [] ∧ t.attic.dump = s.attic.dump ∧
      t.hst.withdrawn = s.attic.withdrawn ∧
      (∀ i < 128, (t.island i).freq = if s.islandRuns .active i then s.islandTarget .active i else 0) ∧
      (s.fwChoice = none → t.wdn.recovery = true ∧ t.fld F.GLB_BOOT_FW_SLOT = 3) ∧
      (∀ k img, s.fwChoice = some (k, img) → k < 2 → t.wdn.recovery = false ∧ t.wdn.fwSlot = some k ∧
        t.fld F.GLB_BOOT_FW_SLOT = k ∧ t.wdn.startReason = 0 ∧ t.wdn.fwSerial = leAt img 16 8 ∧
        ∀ n < 3, (t.core n).pc = BitVec.ofNat 64 (0x100000 + leAt img 28 4)) := by
  have kept := s.bootBare_kept ms mode
  have bare := s.bootBare_frame ms mode
  have start := (s.bootBare ms mode).started_frame
  have attic := s.bootBare_attic ms mode
  have all := Frame.append bare start
  obtain ⟨-, -, floor, -, dump⟩ := Attic.kept_of_fixed s.bootRestored_fixed
  have choice : (s.bootBare ms mode).fwChoice = s.fwChoice := by
    refine State.fwChoice_congr (bare.flash_eq (by decide)) (bare.fuses_eq (by decide)) ?_
    simpa only [attic] using floor
  have row : (s.row fun s => s.bootStart ms mode []) = .next ((s.bootBare ms mode).complexMode.fwBoot 0).portsFound :=
    State.row_next (State.bootStart_bare hp hc ha hw ms mode) (all.pending_eq (by decide))
  refine ⟨_, row, ?_, ?_, ?_,
    all.inv_eq (by decide), all.fuses_eq (by decide), all.flash_eq (by decide), all.drives_eq (by decide), ?_, ?_, ?_,
    fun i hi => ?_, fun h => State.started_recovery (choice.trans h), fun k img h hk =>
      State.started_image (choice.trans h) ?_ hk rfl⟩
  · rw [start.glb_eq (by decide), kept.glb_eq (by decide), s.bootRestored_glb]
  · rw [State.fld_started (Or.inr (by decide)) (by decide), State.fld_bootBare _ _ _ (by decide), State.bootShown,
      State.fld_setFld_apart _ (Or.inr (by decide)), State.fld_setFld_self _ (by decide)]
    exact Nat.mod_eq_of_lt hms
  · rw [State.fld_started (Or.inr (by decide)) (by decide), State.fld_bootBare _ _ _ (by decide), State.bootShown,
      State.fld_setFld_self _ (by decide)]
    exact Nat.mod_eq_of_lt hmode
  · rw [start.attic_eq (by decide), attic]
  · simpa only [start.attic_eq (by decide), attic] using dump
  · rw [start.hst_eq (by decide), kept.hst_eq (by decide), s.bootRestored_withdrawn]
  · rw [State.island, start.pwr_eq (by decide), kept.pwr_eq (by decide)]
    exact s.bootRestored_freq hi
  · rw [bare.wdn_eq (by decide), hw]

end

end Sys2Proof.Machine
end

section
/-!
The statements about the Inventory loader (02_inventory.md), the state after a reset, and resets, boot and the boot flash
(20_electrical_and_package.md).
-/

namespace Sys2Proof.Machine

/-- Settles O7: every loader command looks at the path of the open load first (R64), and then acts by whether a load is open. That
an OPEN by another path is a foreign access is the model's entry 118. -/
theorem inventoryLoads : Obligations.InventoryLoads := by
  unfold Obligations.InventoryLoads
  refine ⟨fun p s hb hm h => ?_, fun p v s hb hm h hp hr => ?_, fun p s hb hm h hp => ?_, fun s ha h ht => ?_,
    fun p q v s h hq hne hb hc hd c hin => ?_⟩
  · exact State.bus_next hb hm (State.invOpen_closed h) rfl
  · exact State.bus_next hb hm (State.invData_room h hp hr) rfl
  · exact State.bus_next hb hm (State.invAbort_open h hp) rfl
  · exact State.awake_next ha (State.invIdle_due h ht) rfl
  · have ctrl := State.foreign_row h hq hne hb hc
    have data := State.foreign_row h hq hne hb hd
    simp only [List.mem_cons, List.not_mem_nil, or_false] at hin
    rcases hin with rfl | rfl | rfl | rfl | rfl | rfl | rfl
    · exact ctrl _
    · exact data _
    all_goals exact ctrl _

/-- Settles O9: KEY_PROGRAM and KEYSLOT_REVOKE set one slot's record (R62, R76), RAISE_FLOOR takes a maximum (R77), and
RESIDENT_CHECK finds no section to fail (R63). -/
theorem inventoryFuses : Obligations.InventoryFuses := by
  unfold Obligations.InventoryFuses
  refine ⟨?program, ?floor, ?revoke, ?check⟩
  case program =>
    intro p n s hb hm h1 h3 hh h hp hl
    refine ⟨_, State.bus_next hb hm (State.keyProgram_blank h hp h1 h3 hh hl) rfl, ?_, fun k hk => ?_, State.is_invDone _, rfl⟩
    · exact s.keySlot_setKeySlot_self n _
    · exact State.keySlot_setKeySlot_ne hk s _
  case floor =>
    intro p s hb hm h
    exact ⟨_, State.bus_next hb hm (State.raiseFloor_closed h) rfl, rfl, rfl, State.is_invDone _⟩
  case revoke =>
    intro p n s hb hm hn
    exact ⟨_, State.bus_next hb hm (if_pos hn) rfl, s.keySlot_setKeySlot_self n _,
      fun k hk => State.keySlot_setKeySlot_ne hk s _, rfl⟩
  case check =>
    intro l s ha hd hr
    refine State.awake_next ha ((State.every_due hd _).trans ?_) rfl
    exact State.residentCheck_sound hr

/-- Settles O8: a commit that passes its checks ends in what `applyImage`, `invClose` or `partialSwitch` gives the Inventory; the
record of class CONFIG that follows changes no part of it. -/
theorem inventoryCommits : Obligations.InventoryCommits := by
  unfold Obligations.InventoryCommits
  refine ⟨fun p s xs hb hm h hp hc hf => ?_, fun p s xs hb hm h hp he hc hbase hs => ?_⟩
  · have row := State.commitFull_passes h hp hc hf
    by_cases he : s.inv.prior = .empty
    · rw [if_pos he] at row
      obtain ⟨inv, attic, pending⟩ := (s.stage s.inv.buffer).applyImage_spec s.inv.buffer xs
      have done := ((s.stage s.inv.buffer).applyImage s.inv.buffer xs).commitDone_frame (leAt s.inv.buffer 16 8)
      refine ⟨_, State.bus_next hb hm row ((done.pending_eq (by decide)).trans pending), ?_, ?_, ?_, fun _ => ?_, fun hn => absurd he hn⟩
      · rw [done.attic_eq (by decide), attic]
        rfl
      all_goals rw [done.inv_eq (by decide), inv]
      exact ⟨rfl, rfl, rfl⟩
    · rw [if_neg he] at row
      have done := (s.stage s.inv.buffer).invClose.commitDone_frame (leAt s.inv.buffer 16 8)
      refine ⟨_, State.bus_next hb hm row (done.pending_eq (by decide)), ?_, ?_, ?_, fun hn => absurd hn he, fun _ => ?_⟩
      · rw [done.attic_eq (by decide)]
        rfl
      all_goals rw [done.inv_eq (by decide)]
      · rfl
      · rfl
      · exact ⟨rfl, rfl, rfl⟩
  · have switched := s.partialSwitch_frame s.inv.buffer xs
    have done := (s.partialSwitch s.inv.buffer xs).invClose.commitDone_frame (leAt s.inv.buffer 16 8)
    refine ⟨_, State.bus_next hb hm (State.commitPartial_passes h hp he hc hbase hs)
      ((done.pending_eq (by decide)).trans (switched.pending_eq (by decide))), ?_⟩
    rw [done.inv_eq (by decide), State.invClose, State.onInv_inv, switched.inv_eq (by decide)]
    exact ⟨rfl, rfl, rfl, rfl⟩

/-- Settles O59: the power-on reset of the reset state puts two fields of GLB_RESET_CAUSE at their reset values. -/
theorem resetState : Obligations.ResetState := by
  unfold Obligations.ResetState
  have cause : State.reset.fld F.GLB_RESET_CAUSE_CAUSE = 0 := by decide
  have dumped : State.reset.fld F.GLB_RESET_CAUSE_DUMPED = 0 := by decide
  have limit : State.reset.fld F.GLB_THERM_LIMIT = 118 := by decide
  have therm : State.reset.fld F.GLB_STATUS_THERM = 0 := by decide
  have again : State.reset.powerOnReset = State.reset := by
    have kept : (State.reset.onGlb fun g => { g with pgIn := false, resetN := false }).resetKeep = State.reset := rfl
    have undumped : ofBool (State.reset.is F.GLB_RESET_CAUSE_DUMPED) = 0 := by rw [State.is, dumped]; rfl
    show State.deviceReset _ 0 (State.reset.is F.GLB_RESET_CAUSE_DUMPED) = State.reset
    rw [State.deviceReset, kept, undumped, State.setFld_reset (f := F.GLB_RESET_CAUSE_CAUSE) cause,
      State.setFld_reset (f := F.GLB_RESET_CAUSE_DUMPED) dumped]
  exact ⟨rfl, rfl, rfl, rfl, rfl, rfl, rfl, rfl, rfl, rfl, rfl, rfl, rfl, fun _ => rfl, limit, therm, State.row_next again rfl,
    fun _ _ => rfl, fun _ _ => rfl⟩

/-- Settles O52: a reset keeps what `resetKeep` keeps, a dump changes what `dumpedTo` says, and a flash command what `SpiLeft` says;
PROGRAM ands the bytes as a NOR flash does (entry 36). -/
theorem bootAndFlash : Obligations.BootAndFlash := by
  unfold Obligations.BootAndFlash
  refine ⟨⟨State.powerOnReset_next, fun s => ⟨fun hp => ?pinRuns, fun hp => ?pinWaits, fun hp => ?pinMoot⟩,
    fun p n s hm => ⟨fun hn => ?unconfirmed, fun hp => ?resets, fun hp => ?resetWaits⟩, fun c s hp hc => ?sealed,
    fun ms mode l s hp => State.row_next (State.bootStart_off hp ms mode l) rfl,
    fun ms mode s hp hc ha hw hms hmode => State.bootStart_next hp hc ha hw hms hmode,
    fun s => ⟨fun hp => State.row_next (State.pgInLow_held hp) rfl, State.pgInLow_next⟩⟩,
    fun p n cmd len c s hb hm hc => ⟨fun h => ?spiBusy, fun h => ?spiStarts⟩,
    fun s hm h b => State.spiDone_row hm (State.spiDone_none h b) rfl, fun r a n b s hm h hspan => ?spiEnds,
    fun temp l s hb hlo hhi hl => ?therm⟩
  case pinRuns =>
    obtain ⟨dumped, eq⟩ := State.dumpedPhase (u := s.resetLow) (s.onGlb_frame _) (.resetDump 1)
    exact ⟨_, State.row_next (State.resetRequest_running (s := s.resetLow) hp 1) (by rw [eq]), dumped, eq⟩
  case pinWaits => exact State.row_next (State.resetRequest_later (s := s.resetLow) hp 1) rfl
  case pinMoot => exact State.row_next (State.resetRequest_moot (s := s.resetLow) hp 1) rfl
  case unconfirmed => exact State.glbReset_other hn p
  case resets =>
    obtain ⟨dumped, eq⟩ := State.dumpedPhase (Frame.refl _ s) (.resetDump 2)
    refine ⟨_, ?_, dumped, eq⟩
    exact State.bus_next (by simp [State.busOn, hp]) hm (State.resetRequest_running hp 2) (by rw [eq])
  case resetWaits =>
    exact State.bus_next (by simp [State.busOn, hp]) hm (State.resetRequest_later (Or.inl hp) 2) rfl
  case sealed =>
    refine ⟨_, State.row_next (State.dumpSealed_reset hp) rfl, rfl, ?_, State.is_deviceReset_dumped _ _ _,
      fun a ha => State.word_deviceReset_ne _ _ _ ha⟩
    exact (State.fld_deviceReset_cause _ _ _).trans (Nat.mod_eq_of_lt hc)
  case spiBusy =>
    rw [State.spiStart_row hb hm hc, State.spiStart_busy h]
  case spiStarts =>
    rw [State.spiStart_row hb hm hc, State.spiStart_idle h]
  case spiEnds =>
    have span := SpiRun.span_eq hspan
    have ends := State.spiDone_left h b
    refine ⟨_, State.spiDone_row hm rfl (ends.frame.pending_eq (by decide)), ends.idle, ends.eq, fun hg => ?_, fun hg =>
      ⟨fun hs => ?_, fun hs => State.spiEnd_inside h span hg hs⟩⟩
    · exact State.spiEnd_error h (State.spiError_guarded a n span hg) (by decide) (by decide)
    · exact State.spiEnd_error h (State.spiError_size a n span hg hs) (by decide) (by decide)
  case therm =>
    exact ⟨_, State.therm_row hb temp, (s.therm_frame temp).eq_regs, s.fld_therm_temp temp, s.fld_therm_limit temp,
      State.therm_pin hl temp⟩

end Sys2Proof.Machine
end

section
/-!
SUPPORT. Laws of the Hoist at work (03_cellar_and_hoist.md R80 to R105): what a port takes, what a commit writes, what a cell time
moves, and which FLOW id a new flow is given.
-/

namespace Sys2Proof.Machine

/-! ### Rows of the Hoist -/

section
variable {s t : State}

/-- A row of the crossbars and bank groups answers the state that its effect gives, where that has the same queue of
commands. -/
theorem State.cells_next (h : s.awake = true ∨ s.dumping = true) {f : State → State} (hf : f s = t) (ht : t.pending = s.pending) :
    (s.row fun s => s.ifCells f) = .next t :=
  State.row_next ((s.gate_true (by simpa using h)).trans hf) ht

/-- A change of the Hoist's block and the registers alone. -/
theorem Frame.eq_hst_regs (h : Frame [.hst, .regs] s t) : t = { s with hst := t.hst, regs := t.regs } := by
  refine State.eq_of_agree fun b => ?_
  have same := h b
  cases b
  case hst | regs => rfl
  all_goals exact same (by decide)

end

/-! ### Tables and lists of the Hoist -/

theorem Tab.getD_modify_self {α : Type} (k : Nat) (d : α) (f : α → α) (t : Tab α) :
    Tab.getD k d (Tab.modify d k f t) = f (Tab.getD k d t) := Tab.getD_set_self _ _ _ _

/-- The element that a test finds first stands changed in the list. -/
theorem mem_replaceFirst {α : Type} {p : α → Bool} {l : List α} {a : α} (h : l.find? p = some a) (f : α → α) :
    f a ∈ replaceFirst p f l := by
  induction l with
  | nil => simp at h
  | cons b l ih =>
    unfold replaceFirst
    cases hb : p b with
    | true => simp_all
    | false => simpa [hb] using Or.inr (ih (by simpa [hb] using h))

/-! ### Cells at a port (R80, R86) -/

/-- A port drops a cell whose check fails, of a reserved kind, or of too long a range. -/
theorem portCell_damaged {h : BitVec 128} (hd : hchkOk h = false ∨ cellKindOf (getBits h 60 4) = none ∨
    256 < getBits h 66 8 + getBits h 74 9) (g : Bool) (l : List Byte) : portCell g h l = none := by
  unfold portCell
  rcases hd with hd | hd | hd
  · split <;> simp [hd]
  · rw [hd]
  · split <;> simp [hd]

/-- An ingress flow of an agent by its id. -/
def Flow.owned (agent id : Nat) (f : Flow) : Bool := f.id == id && f.agent == agent && !f.egress

theorem Flow.owned_iff {agent id : Nat} {f : Flow} : f.owned agent id = true ↔ f.id = id ∧ f.agent = agent ∧ f.egress = false := by
  simp [Flow.owned, and_assoc]

/-- The flow of one cell that an agent offers under a FLOW of its own. -/
def State.offeredFlow (s : State) (agent : Nat) (c : HCell) : Flow where
  id := c.flow
  agent := agent
  egress := false
  use := if agent = 36 then .warden else .test
  cells := [c]
  issued := 1
  next := 0
  held := []
  got := []
  acked := []
  sent := [(c.seq, s.now, false)]
  lastArrival := s.now
  retry := false
  poison := false

/-- What an offer adds to the agent's flow of its FLOW id. -/
def Flow.withOffer (c : HCell) (now : Nat) (f : Flow) : Flow :=
  { f with cells := f.cells ++ [c], issued := f.issued + 1, sent := f.sent ++ [(c.seq, now, false)] }

theorem State.offered_new {s : State} {agent : Nat} {c : HCell} (h : s.hst.flows.find? (Flow.owned agent c.flow) = none) :
    s.offered agent c = s.onHst fun h => { h with flows := h.flows ++ [s.offeredFlow agent c] } := by
  unfold Flow.owned at h
  simp only [State.offered, h]
  rfl

theorem State.offered_known {s : State} {agent : Nat} {c : HCell} {f : Flow}
    (h : s.hst.flows.find? (Flow.owned agent c.flow) = some f) :
    s.offered agent c = if f.use = .warden ∨ f.use = .test then
      s.onHst fun h => { h with flows := replaceFirst (Flow.owned agent c.flow) (Flow.withOffer c s.now) h.flows } else s := by
  unfold Flow.owned at h
  simp only [State.offered, h]
  rfl

/-- An offer changes the flows alone, and the agent then has a flow of the cell's id; that flow is of this cell where no flow had
the id. -/
theorem State.offered_spec (s : State) (agent : Nat) (c : HCell) :
    s.offered agent c = { s with hst := { s.hst with flows := (s.offered agent c).hst.flows } } ∧
      ∃ f ∈ (s.offered agent c).hst.flows, f.id = c.flow ∧ f.agent = agent ∧ f.egress = false ∧
        ((∀ g ∈ s.hst.flows, g.id ≠ c.flow) → f.cells = [c] ∧ f.sent = [(c.seq, s.now, false)]) := by
  cases h : s.hst.flows.find? (Flow.owned agent c.flow) with
  | none =>
    rw [State.offered_new h]
    exact ⟨rfl, s.offeredFlow agent c, by simp, rfl, rfl, rfl, fun _ => ⟨rfl, rfl⟩⟩
  | some f =>
    obtain ⟨hid, hag, heg⟩ := Flow.owned_iff.1 (List.find?_some h)
    have hf := List.mem_of_find?_eq_some h
    have known : ¬ ∀ g ∈ s.hst.flows, g.id ≠ c.flow := fun hg => hg f hf hid
    rw [State.offered_known h]
    split
    · exact ⟨rfl, f.withOffer c s.now, mem_replaceFirst h _, hid, hag, heg, fun hg => absurd hg known⟩
    · exact ⟨rfl, f, hf, hid, hag, heg, fun hg => absurd hg known⟩

section
variable {s : State} {agent : Nat} {h : BitVec 128} {l : List Byte}

theorem State.cellIngress_dropped (ha : agent < 42) (hc : portCell false h l = none) : s.cellIngress agent h l = s.cellDrop := by
  rw [State.cellIngress, if_neg (by omega), hc]

variable {c : HCell} (ha : agent < 42) (hc : portCell false h l = some c)
include ha hc

theorem State.cellIngress_full (hf : 512 ≤ s.hst.ingressFill agent) : s.cellIngress agent h l = s := by
  simp only [State.cellIngress, if_neg (show ¬ 42 ≤ agent by omega), hc, if_neg (show ¬ s.hst.ingressFill agent < 512 by omega)]

theorem State.cellIngress_room (hf : s.hst.ingressFill agent < 512) : s.cellIngress agent h l =
    (s.onHst fun x => { x with voq := Tab.modify [] (agent * 32 + bankGroup c.caddr) (· ++ [c]) x.voq }).offered agent c := by
  simp only [State.cellIngress, if_neg (show ¬ 42 ≤ agent by omega), hc, if_pos hf]

end

/-! ### Commit (R81 to R85) -/

section
variable {s : State} {b : Nat} {c : HCell} {rest : List HCell}

/-- The Hoist after a bank group has served a cell: its bytes written unless the outcome is FAILED, and its acknowledgement on
the way. -/
def State.commitHst (s : State) (b : Nat) (c : HCell) (rest : List HCell) : Hst :=
  { (if s.writeOutcome c = .failed then s.hst else s.hst.write (256 * c.caddr + c.start) c.data) with
    wbuf := Tab.put [] b rest s.hst.wbuf
    acks := s.hst.acks ++ [{ agent := c.src, flow := c.flow, seq := c.seq, outcome := s.writeOutcome c }] }

theorem State.cellCommit_oldest (h : Tab.getD b [] s.hst.wbuf = c :: rest) :
    s.cellCommit b = s.onHst fun _ => s.commitHst b c rest := by
  simp only [State.cellCommit, h, State.onHst, State.commitHst]
  by_cases ho : s.writeOutcome c = .failed
  · simp [ho]
  · simp [ho, Hst.write]

theorem State.commitHst_failed (ho : s.writeOutcome c = .failed) : (s.commitHst b c rest).mem = s.hst.mem := by
  simp [State.commitHst, ho]

theorem State.commitHst_written (ho : s.writeOutcome c ≠ .failed) :
    (s.commitHst b c rest).mem = Mem.write 0 s.hst.mem (256 * c.caddr + c.start) c.data := by
  simp [State.commitHst, ho, Hst.write]

end

/-! ### Feeding flows (R91, R98, R100) -/

/-- What of the Hoist no feeding touches. -/
def Hst.besideFeed (h : Hst) : Hst := { h with voq := [], rq := [], flows := [] }

theorem Hst.kept_of_besideFeed {h k : Hst} (e : k.besideFeed = h.besideFeed) :
    k.wbuf = h.wbuf ∧ k.egress = h.egress ∧ k.inGrant = h.inGrant ∧ k.inAccept = h.inAccept ∧
      k.egGrant = h.egGrant ∧ k.egAccept = h.egAccept ∧ k.mem = h.mem := by
  simp only [Hst.besideFeed, Hst.mk.injEq] at e
  simp only [e, and_self]

theorem State.feedOne_beside (s : State) (id : Nat) : (s.feedOne id).hst.besideFeed = s.hst.besideFeed := by
  unfold State.feedOne
  repeat' split
  all_goals rfl

theorem State.feed_beside (s : State) (id n : Nat) : (s.feed id n).hst.besideFeed = s.hst.besideFeed :=
  State.each_same _ _ _ (·.hst.besideFeed) fun s _ _ => s.feedOne_beside id

theorem State.feedAgent_beside (s : State) (a : Nat) : (s.feedAgent a).hst.besideFeed = s.hst.besideFeed :=
  State.each_same _ _ _ (·.hst.besideFeed) fun s f _ => s.feed_beside f.id _

theorem State.feedAgent_frame (s : State) (a : Nat) : Frame [.hst] s (s.feedAgent a) :=
  Frame.foldl (fun s (f : Flow) => s.feed_frame f.id _) _ s

/-- Every agent feeds its flows. -/
def State.feedAll (s : State) : State := s.each (List.range 42) fun s a => s.feedAgent a

theorem State.feedAll_frame (s : State) : Frame [.hst] s s.feedAll := Frame.each (fun s a => s.feedAgent_frame a) _ s

theorem State.feedAll_beside (s : State) : s.feedAll.hst.besideFeed = s.hst.besideFeed :=
  State.each_same _ _ _ (·.hst.besideFeed) fun s a _ => s.feedAgent_beside a

/-! ### A cell time with nothing damaged (R91 to R94, R101) -/

section
variable (s : State)

/-- The cell at the head of an agent's queue crosses unchanged to its bank group. -/
theorem State.cellIn_sound {a b : Nat} {c : HCell} {rest : List HCell} (h : Tab.getD (a * 32 + b) [] s.hst.voq = c :: rest) :
    s.cellIn [] a b = ((s.onHst fun h => { h with voq := Tab.put [] (a * 32 + b) rest h.voq }).bump
      (A.HST_AGENT_CELLS_IN a)).onHst fun h => { h with wbuf := Tab.modify [] b (· ++ [c]) h.wbuf } := by
  simp only [State.cellIn, h, List.find?_nil]

theorem State.cellIn_empty {a b : Nat} (h : Tab.getD (a * 32 + b) [] s.hst.voq = []) : s.cellIn [] a b = s := by
  simp only [State.cellIn, h]

theorem State.cellIn_frame (a b : Nat) : Frame [.hst, .regs] s (s.cellIn [] a b) := by
  cases h : Tab.getD (a * 32 + b) [] s.hst.voq with
  | nil => rw [s.cellIn_empty h]; exact Frame.refl _ s
  | cons c rest =>
    rw [s.cellIn_sound h]
    exact (((s.onHst_frame _).append (State.bump_frame _ _ _)).append (State.onHst_frame _ _)).mono (by decide)

/-- What of the Hoist the ingress crossbar does not touch. -/
def Hst.besideIn (h : Hst) : Hst := { h with voq := [], wbuf := [], inGrant := [], inAccept := [] }

theorem Hst.besideIn_pointers (h : Hst) (g a : Tab Nat) : Hst.besideIn { h with inGrant := g, inAccept := a } = h.besideIn := rfl

theorem Hst.kept_of_besideIn {h k : Hst} (e : k.besideIn = h.besideIn) :
    k.rq = h.rq ∧ k.flows = h.flows ∧ k.egress = h.egress ∧ k.egGrant = h.egGrant ∧ k.egAccept = h.egAccept ∧
      k.mem = h.mem := by
  simp only [Hst.besideIn, Hst.mk.injEq] at e
  simp only [e, and_self]

theorem State.cellIn_beside (a b : Nat) : (s.cellIn [] a b).hst.besideIn = s.hst.besideIn := by
  cases h : Tab.getD (a * 32 + b) [] s.hst.voq with
  | nil => rw [s.cellIn_empty h]
  | cons c rest => rw [s.cellIn_sound h]; rfl

/-- The ingress crossbar moves the cells of its matching and its pointers. -/
def State.crossIn : State :=
  (s.each s.ingressMatch.pairs fun s p => s.cellIn [] p.1 p.2).onHst fun h =>
    { h with inGrant := s.ingressMatch.grant, inAccept := s.ingressMatch.accept }

theorem State.crossIn_frame : Frame [.hst, .regs] s s.crossIn :=
  (Frame.each (fun s (p : Nat × Nat) => s.cellIn_frame p.1 p.2) _ s).trans ((State.onHst_frame _ _).mono (by decide))

theorem State.crossIn_beside : s.crossIn.hst.besideIn = s.hst.besideIn := by
  rw [State.crossIn, State.onHst_hst, Hst.besideIn_pointers]
  exact State.each_same _ _ _ (·.hst.besideIn) fun s p _ => s.cellIn_beside p.1 p.2

theorem State.crossIn_inGrant : s.crossIn.hst.inGrant = s.ingressMatch.grant := by
  simp only [State.crossIn, State.onHst_hst]

theorem State.crossIn_inAccept : s.crossIn.hst.inAccept = s.ingressMatch.accept := by
  simp only [State.crossIn, State.onHst_hst]

theorem State.crossIn_wbuf_none (h : s.ingressMatch.pairs = []) : s.crossIn.hst.wbuf = s.hst.wbuf := by
  rw [State.crossIn, h]
  rfl

theorem State.crossIn_wbuf_one {a b : Nat} {c : HCell} {rest : List HCell} (h : s.ingressMatch.pairs = [(a, b)])
    (hq : Tab.getD (a * 32 + b) [] s.hst.voq = c :: rest) :
    Tab.getD b [] s.crossIn.hst.wbuf = Tab.getD b [] s.hst.wbuf ++ [c] := by
  have moved : s.crossIn.hst.wbuf = (s.cellIn [] a b).hst.wbuf := by rw [State.crossIn, h]; rfl
  rw [moved, s.cellIn_sound hq]
  simp only [State.onHst_hst, State.bump_hst, Tab.getD_modify_self]

theorem State.cellOut_frame (b a : Nat) : Frame [.hst] s (s.cellOut b a) := by
  unfold State.cellOut
  split
  · exact Frame.refl _ s
  · exact s.onHst_frame _

/-- What of the Hoist the egress crossbar does not touch. -/
def Hst.besideOut (h : Hst) : Hst := { h with rq := [], egress := [], egGrant := [], egAccept := [] }

theorem Hst.besideOut_pointers (h : Hst) (g a : Tab Nat) : Hst.besideOut { h with egGrant := g, egAccept := a } = h.besideOut := rfl

theorem Hst.kept_of_besideOut {h k : Hst} (e : k.besideOut = h.besideOut) :
    k.flows = h.flows ∧ k.wbuf = h.wbuf ∧ k.inGrant = h.inGrant ∧ k.inAccept = h.inAccept ∧ k.mem = h.mem := by
  simp only [Hst.besideOut, Hst.mk.injEq] at e
  simp only [e, and_self]

theorem State.cellOut_beside (b a : Nat) : (s.cellOut b a).hst.besideOut = s.hst.besideOut := by
  unfold State.cellOut
  split <;> rfl

/-- The egress crossbar moves the cells of its matching and its pointers. -/
def State.crossOut : State :=
  (s.each s.egressMatch.pairs fun s p => s.cellOut p.1 p.2).onHst fun h =>
    { h with egGrant := s.egressMatch.grant, egAccept := s.egressMatch.accept }

theorem State.crossOut_frame : Frame [.hst] s s.crossOut :=
  (Frame.each (fun s (p : Nat × Nat) => s.cellOut_frame p.1 p.2) _ s).trans (State.onHst_frame _ _)

theorem State.crossOut_beside : s.crossOut.hst.besideOut = s.hst.besideOut := by
  rw [State.crossOut, State.onHst_hst, Hst.besideOut_pointers]
  exact State.each_same _ _ _ (·.hst.besideOut) fun s p _ => s.cellOut_beside p.1 p.2

theorem State.crossOut_egress_none (h : s.egressMatch.pairs = []) : s.crossOut.hst.egress = s.hst.egress := by
  rw [State.crossOut, h]
  rfl

theorem State.crossOut_egGrant : s.crossOut.hst.egGrant = s.egressMatch.grant := by
  simp only [State.crossOut, State.onHst_hst]

theorem State.crossOut_egAccept : s.crossOut.hst.egAccept = s.egressMatch.accept := by
  simp only [State.crossOut, State.onHst_hst]

/-- The ingress crossbar leaves what the egress matching looks at. -/
theorem State.egressMatch_crossIn : s.crossIn.egressMatch = s.egressMatch := by
  obtain ⟨rq, -, -, grant, accept, -⟩ := Hst.kept_of_besideIn s.crossIn_beside
  simp only [State.egressMatch, State.agentOn, State.sect, s.crossIn_frame.inv_eq (by decide), rq, grant, accept]

variable {s}

theorem State.releaseCells_none (h : ∀ f ∈ s.hst.flows, f.egress = true → f.heldCell = none) : s.releaseCells = s := by
  have none : (s.hst.flows.filter fun f => f.egress && f.heldCell.isSome) = [] :=
    List.filter_eq_nil_iff.2 fun f hf => by
      cases he : f.egress with
      | false => simp
      | true => simp [h f hf he]
  rw [State.releaseCells, none]
  rfl

/-- A cell time with nothing damaged and nothing to release is the two crossbars' moves, after which the agents feed their flows. -/
theorem State.cellTime_sound (hd : s.dumping = false) (hh : ∀ f ∈ s.hst.flows, f.egress = true → f.heldCell = none) :
    s.cellTime [] [] [] = s.crossIn.crossOut.feedAll := by
  obtain ⟨-, flowsIn, -⟩ := Hst.kept_of_besideIn s.crossIn_beside
  obtain ⟨flowsOut, -⟩ := Hst.kept_of_besideOut s.crossIn.crossOut_beside
  have released : ∀ b, s.crossIn.crossOut.when b State.releaseCells = s.crossIn.crossOut := fun b => by
    have idle := State.releaseCells_none (s := s.crossIn.crossOut) (by rwa [flowsOut, flowsIn])
    cases b
    · rfl
    · exact idle
  have step : s.cellTime [] [] [] =
      (s.crossIn.crossOut.when (!s.crossIn.crossOut.dumping) State.releaseCells).feedAll := by
    have none (f : State → Nat × Nat → State) : s.each [] f = s := rfl
    have none' (f : State → Nat → State) : s.each [] f = s := rfl
    simp only [State.cellTime, none, none', hd, Bool.false_eq_true, if_false]
    rfl
  rw [step, released]

end

/-! ### FLOW ids (R97) and a flow asked for once more (R105) -/

theorem State.reseqTimeout_pos (s : State) : 0 < s.reseqTimeout := by
  unfold State.reseqTimeout
  omega

section
variable {s : State}

/-- An id released just now may not be assigned. -/
theorem State.flowFree_of_freed {id t : Nat} (h : (id, t) ∈ s.hst.freedFlows) (ht : s.now ≤ t) : s.flowFree id = false := by
  have pos := s.reseqTimeout_pos
  have waits : (s.hst.freedFlows.any fun p => p.1 == id && decide (s.now < p.2 + 2 * s.reseqTimeout)) = true :=
    List.any_eq_true.2 ⟨(id, t), h, by simp; omega⟩
  rw [State.flowFree, waits]
  simp

/-- Where no id may be assigned, the search takes the one after its last try. -/
theorem State.pickFlow_exhausted (h : ∀ id < 2 ^ 20, s.flowFree id = false) (k n : Nat) : s.pickFlow k n = (n + k) % 2 ^ 20 := by
  induction k generalizing n with
  | zero => rfl
  | succ k ih =>
    rw [State.pickFlow, h _ (Nat.mod_lt _ (by decide)), if_neg (by simp), ih]
    congr 1
    omega

/-- Ids released just now stay released as another joins them. -/
theorem State.closeFlow_freedFlows (h : ∀ p ∈ s.hst.freedFlows, s.now ≤ p.2) (id : Nat) :
    (s.closeFlow id).hst.freedFlows = s.hst.freedFlows ++ [(id, s.now)] := by
  have pos := s.reseqTimeout_pos
  have kept : (s.hst.freedFlows.filter fun p => decide (s.now < p.2 + 2 * s.reseqTimeout)) = s.hst.freedFlows :=
    List.filter_eq_self.2 fun p hp => decide_eq_true (by have := h p hp; omega)
  simp only [State.closeFlow, kept]

end

section
variable (s : State)

/-- The id that a flow opened now is given. -/
def State.nextId : Nat := s.pickFlow (s.hst.flows.length + s.hst.freedFlows.length + 1) s.hst.nextFlow

theorem State.feed_ids (id n : Nat) : (s.feed id n).hst.flows.map (·.id) = s.hst.flows.map (·.id) := by
  simpa [Function.comp_def] using congrArg (List.map Prod.fst) (s.feed_keeps id n).1

theorem State.feedAgent_ids (a : Nat) : (s.feedAgent a).hst.flows.map (·.id) = s.hst.flows.map (·.id) :=
  State.each_same _ _ _ (·.hst.flows.map (·.id)) fun s f _ => s.feed_ids f.id _

theorem State.openFlow_ids (agent : Nat) (eg : Bool) (u : FlowUse) (r : List (Nat × Nat)) (p : List Byte) (b : Bool) :
    (s.openFlow agent eg u r p b).hst.flows.map (·.id) = s.hst.flows.map (·.id) ++ [s.nextId] := by
  unfold State.openFlow
  dsimp only
  rw [State.feed_ids, List.map_append]
  rfl

theorem State.modFlow_ids (id : Nat) {g : Flow → Flow} (h : ∀ f, (g f).id = f.id) :
    (s.modFlow id g).hst.flows.map (·.id) = s.hst.flows.map (·.id) := by
  simp only [State.modFlow, State.onHst_hst, List.map_map, List.map_inj_left]
  intro f _
  simp only [Function.comp_apply]
  split
  · exact h f
  · rfl

theorem State.flowAgain_ids (f : Flow) : (s.flowAgain f).hst.flows.map (·.id) = s.hst.flows.map (·.id) ++ [s.nextId] := by
  refine (State.modFlow_ids _ _ ?_).trans (s.openFlow_ids _ _ _ _ _ _)
  exact fun _ => rfl

/-- A flow whose next cell has not come ends in a counted flow error. -/
def State.flowExpired (f : Flow) : State := (s.lateCell.satAdd (F.HST_RESEQ_FLOW_ERRS f.agent)).closeFlow f.id

variable {s}

/-- The first time-out of a flow asks for its rest again. -/
theorem State.reseqExpiry_first {id : Nat} {f : Flow} (h : s.hst.flows.find? (fun g => g.id == id && g.egress) = some f)
    (hw : f.held ≠ [] ∨ 0 < f.next) (hh : f.heldCell = none) (ht : f.lastArrival + s.reseqTimeout ≤ s.now) (hr : f.retry = false) :
    s.reseqExpiry id = ((s.flowExpired f).flowAgain f).feedAgent f.agent := by
  have due : (f.held ≠ [] ∨ 0 < f.next) ∧ f.heldCell = none ∧ f.lastArrival + s.reseqTimeout ≤ s.now := ⟨hw, hh, ht⟩
  simp only [State.reseqExpiry, h, if_pos due, hr, Bool.false_eq_true, if_false]
  rfl

/-- Where the search for an id ends at that of the flow that has timed out, a flow of this id stands after the row. -/
theorem State.reseqTimeout_reuses {id : Nat} {f : Flow} (ha : s.awake = true)
    (h : s.hst.flows.find? (fun g => g.id == id && g.egress) = some f) (hw : f.held ≠ [] ∨ 0 < f.next) (hh : f.heldCell = none)
    (ht : f.lastArrival + s.reseqTimeout ≤ s.now) (hr : f.retry = false) (hn : (s.flowExpired f).nextId = f.id) {t : State}
    (row : exec (.reseqTimeout id) s = .next t) : ∃ g ∈ t.hst.flows, g.id = f.id := by
  have after := (State.awake_row ha fun s => s.reseqExpiry id).symm.trans row
  rw [State.reseqExpiry_first h hw hh ht hr] at after
  obtain rfl := Host.Outcome.next.inj after
  have ids := ((s.flowExpired f).flowAgain f).feedAgent_ids f.agent
  rw [State.flowAgain_ids, hn] at ids
  exact List.mem_map.1 (ids ▸ List.mem_append_right _ (List.mem_singleton_self f.id))

/-- Where every id was released just now and no other flow is in use, the next flow is given the id that the search ends at. -/
theorem State.flowExpired_nextId {f : Flow} (hall : ∀ id < 2 ^ 20, (id, s.now) ∈ s.hst.freedFlows)
    (hnow : ∀ p ∈ s.hst.freedFlows, s.now ≤ p.2) (hf : s.hst.flows = [f]) :
    (s.flowExpired f).nextId = (s.hst.nextFlow + (s.hst.freedFlows.length + 2)) % 2 ^ 20 := by
  have freed : (s.flowExpired f).hst.freedFlows = s.hst.freedFlows ++ [(f.id, s.now)] :=
    State.closeFlow_freedFlows (s := s.lateCell.satAdd (F.HST_RESEQ_FLOW_ERRS f.agent)) hnow f.id
  have busy : ∀ id < 2 ^ 20, (s.flowExpired f).flowFree id = false := fun id hid => by
    refine State.flowFree_of_freed (t := s.now) ?_ (Nat.le_refl _)
    rw [freed]
    exact List.mem_append_left _ (hall id hid)
  have flows : (s.flowExpired f).hst.flows = [] := by
    show s.hst.flows.filter (fun g => g.id != f.id) = []
    simp [hf]
  have start : (s.flowExpired f).hst.nextFlow = s.hst.nextFlow := rfl
  rw [State.nextId, State.pickFlow_exhausted busy, flows, freed, start]
  simp only [List.length_append, List.length_cons, List.length_nil, Nat.zero_add, Nat.add_assoc]

end

/-! ### No id left to assign -/

/-- An egress flow of two cells whose second has not come. -/
def waitingFlow : Flow where
  id := 0
  agent := 0
  egress := true
  use := .warden
  cells := flowCells 0 0 true false 2 0 [(0, 0, 256), (1, 0, 256)] []
  issued := 2
  next := 1
  held := []
  got := List.replicate 256 0
  acked := []
  sent := []
  lastArrival := 0
  retry := false
  poison := false

/-- The first n FLOW ids, all released at one time. -/
def releasedIds (n now : Nat) : List (Nat × Nat) := (List.range n).map fun id => (id, now)

theorem mem_releasedIds {n now : Nat} {p : Nat × Nat} : p ∈ releasedIds n now ↔ p.1 < n ∧ p.2 = now := by
  obtain ⟨id, t⟩ := p
  simp [releasedIds, eq_comm]

theorem length_releasedIds (n now : Nat) : (releasedIds n now).length = n := by simp [releasedIds]

/-- A running part 100 us after its start that waits for a cell, whose FLOW ids have all been released just now; the next id tried
is such that the search ends at the id of the flow that waits. -/
def spentIds : State :=
  { State.reset with
    now := 100000
    glb := { Glb.reset with phase := .running }
    hst := { Hst.reset with flows := [waitingFlow], freedFlows := releasedIds (2 ^ 20) 100000, nextFlow := 2 ^ 20 - 2 } }

/-- The flow that asks for the rest of the one that timed out is given that one's id. -/
theorem spentIds_nextId : (spentIds.flowExpired waitingFlow).nextId = waitingFlow.id := by
  have freed : spentIds.hst.freedFlows = releasedIds (2 ^ 20) spentIds.now := by simp only [spentIds]
  have all : ∀ id < 2 ^ 20, (id, spentIds.now) ∈ spentIds.hst.freedFlows := fun id hid => by
    rw [freed]
    exact mem_releasedIds.2 ⟨hid, rfl⟩
  have late : ∀ p ∈ spentIds.hst.freedFlows, spentIds.now ≤ p.2 := fun p hp => by
    rw [freed] at hp
    rw [(mem_releasedIds.1 hp).2]
  rw [State.flowExpired_nextId all late rfl, freed, length_releasedIds]
  rfl

end Sys2Proof.Machine
end

section
/-!
SUPPORT. Laws of the scrubs, of the errors they find, and of the retirement of pseudo-channels (03_cellar_and_hoist.md R108 to
R126).
-/

namespace Sys2Proof.Machine

/-! ### Changes of the Hoist's block, the registers and the Wardens -/

/-- A change of the Hoist's block, the registers and the Wardens alone. -/
theorem Frame.eq_hst_regs_wdn {s t : State} (h : Frame [.hst, .regs, .wdn] s t) :
    t = { s with hst := t.hst, regs := t.regs, wdn := t.wdn } := by
  refine State.eq_of_agree fun b => ?_
  have same := h b
  cases b
  case hst | regs | wdn => rfl
  all_goals exact same (by decide)

section
variable (s : State)

theorem State.is_setFld_apart {f g : Fld} (h : f.apart g) (v : Nat) : (s.setFld f v).is g = s.is g := by
  simp only [State.is, s.fld_setFld_apart h]

theorem State.is_bump_ne {a : Nat} {f : Fld} (n : Nat) (h : a ≠ f.addr) (h' : a + 4 ≠ f.addr) : (s.bump a n).is f = s.is f := by
  simp only [State.is, s.fld_bump_ne n h h']

/-- A count in a field stops at the field's largest value (R705). -/
theorem State.fld_satAdd_self {f : Fld} (h : f.lo + f.width ≤ 32) (n : Nat) :
    (s.satAdd f n).fld f = min (s.fld f + n) (2 ^ f.width - 1) := by
  have room : 0 < 2 ^ f.width := Nat.two_pow_pos _
  rw [State.satAdd, s.fld_setFld_self h]
  exact Nat.mod_eq_of_lt (by omega)

/-! ### Records of pseudo-channels -/

theorem State.pc_setPc_self (p : Nat) (r : PcRec) : (s.setPc p r).pc p = r := Tab.getD_put_self _ _ _ _

theorem State.pc_setPc_ne {p k : Nat} (h : k ≠ p) (r : PcRec) : (s.setPc p r).pc k = s.pc k := Tab.getD_put_ne (Ne.symm h) _ _ _ _

theorem State.setPc_frame (p : Nat) (r : PcRec) : Frame [.hst] s (s.setPc p r) := s.onHst_frame fun _ => _

theorem State.pc_congr {s t : State} (h : t.hst.pcs = s.hst.pcs) (p : Nat) : t.pc p = s.pc p := by simp only [State.pc, h]

/-! ### Granules that a scrub finds (R108 to R110, R114) -/

/-- A correction counted, the pseudo-channel's 24 h count apart (R110). -/
def State.ceNoted : State := (s.bump A.HST_CE_TOTAL).flag F.HST_STATUS_CELLAR_CE

/-- A pseudo-channel's record with one more correction in 24 h. -/
def PcRec.oneMore (r : PcRec) : PcRec := { r with ce24h := min 65535 (r.ce24h + 1) }

/-- A correction, where firmware starts the retirements. -/
theorem State.granuleCe_counted (h : s.is F.HST_CTRL_AUTO_RETIRE = false) (g : Nat) :
    s.granuleCe g = s.ceNoted.setPc (s.granulePc g) (s.pc (s.granulePc g)).oneMore := by
  have auto : s.ceNoted.is F.HST_CTRL_AUTO_RETIRE = false := by
    rw [State.ceNoted, State.is_flag_apart _ (.inl (by decide)), State.is_bump_ne _ _ (by decide) (by decide), h]
  refine if_neg fun retire => ?_
  exact absurd (retire.1.symm.trans auto) (by decide)

theorem State.ceNoted_frame : Frame [.regs] s s.ceNoted := (s.bump_frame _ _).trans (State.flag_frame _ _)

/-- An uncorrectable granule counted, and its place shown (R109). -/
def State.ueNoted (g : Nat) : State :=
  (((s.bump A.HST_UE_TOTAL).flag F.HST_STATUS_CELLAR_UE).setFld F.HST_UE_CELL_CELL (g / 8)).setFld F.HST_UE_CELL_GRANULE (g % 8)

theorem State.ueNoted_frame (g : Nat) : Frame [.regs] s (s.ueNoted g) :=
  (((s.bump_frame _ _).trans (State.flag_frame _ _)).trans (State.setFld_frame _ _ _)).trans (State.setFld_frame _ _ _)

theorem State.is_ueNoted (g : Nat) : (s.ueNoted g).is F.HST_STATUS_CELLAR_UE = true := by
  rw [State.ueNoted, State.is_setFld_apart _ (.inl (by decide)), State.is_setFld_apart _ (.inl (by decide))]
  exact State.is_flag _ (by decide) (by decide)

theorem State.fld_ueNoted_cell (g : Nat) : (s.ueNoted g).fld F.HST_UE_CELL_CELL = g / 8 % 2 ^ 28 := by
  rw [State.ueNoted, State.fld_setFld_apart _ (.inr (.inl (by decide)))]
  exact State.fld_setFld_self _ (by decide) _

theorem State.fld_ueNoted_granule (g : Nat) : (s.ueNoted g).fld F.HST_UE_CELL_GRANULE = g % 8 := by
  rw [State.ueNoted, State.fld_setFld_self _ (by decide)]
  exact Nat.mod_mod _ _

/-- What an uncorrectable granule leaves besides the registers: its cells poisoned, and the time in the records. -/
theorem State.granuleUe_spec (g : Nat) :
    Frame [.hst, .regs, .wdn] s (s.granuleUe g) ∧ (s.granuleUe g).regs = (s.ueNoted g).regs ∧
      (s.granuleUe g).hst.mem = s.hst.mem ∧ (s.granuleUe g).hst.poison = insertNat g s.hst.poison ∧
      ((s.granuleUe g).pc (s.granulePc g)).ueTimes = (s.now :: (s.pc (s.granulePc g)).ueTimes).take 4 := by
  refine ⟨?_, rfl, rfl, rfl, congrArg PcRec.ueTimes (State.pc_setPc_self _ _ _)⟩
  exact ((((s.ueNoted_frame g).append (State.onHst_frame _ _)).append (State.onWdn_frame _ _)).append
    (State.setPc_frame _ _ _)).mono (by decide)

variable {s}

/-- A scrub that is on reads the granule. -/
theorem State.cellarScrub_on (h : s.is F.HST_CTRL_CELLAR_SCRUB_EN = true) {g : Nat} (hg : g < 768 * 2 ^ 21) (f : GranuleFault) :
    s.cellarScrub g f = s.granuleRead g f := if_pos ⟨h, hg⟩

/-- Two or three bad bytes and a wrong location are detected (R108). -/
theorem State.granuleRead_detected {f : GranuleFault} (h : f = .bytes 2 ∨ f = .bytes 3 ∨ f = .location) (g : Nat) :
    s.granuleRead g f = s.granuleUe g := by
  rcases h with rfl | rfl | rfl <;> rfl

end

/-! ### Rows of the Pantry (R123 to R126) -/

section
variable (s : State)

/-- A correction in a bank counted (R124). -/
def State.bankNoted (b : Nat) : State :=
  ((s.bump A.HST_CE_TOTAL).flag F.HST_STATUS_PANTRY_CE).satAdd (F.HST_PANTRY_BANK_CE_COUNT b)

/-- A row that a scrub corrects is marked; a block's own read does not mark it (R125). -/
def State.rowNoted (b r : Nat) (used : Bool) : State :=
  if used then s.bankNoted b else (s.bankNoted b).onHst fun h => { h with pantryCe := insertNat (b * 5120 + r) h.pantryCe }

theorem State.rowNoted_frame (b r : Nat) (used : Bool) : Frame [.hst, .regs] s (s.rowNoted b r used) := by
  have noted : Frame [.regs] s (s.bankNoted b) := ((s.bump_frame _ _).trans (State.flag_frame _ _)).trans (State.satAdd_frame _ _ _)
  exact Frame.ite (noted.mono (by decide)) ((noted.append (State.onHst_frame _ _)).mono (by decide))

theorem State.rowNoted_hst (b r : Nat) (used : Bool) : (s.rowNoted b r used).hst =
    { s.hst with pantryCe := if used then s.hst.pantryCe else insertNat (b * 5120 + r) s.hst.pantryCe } := by
  cases used <;> rfl

theorem State.rowNoted_regs (b r : Nat) (used : Bool) : (s.rowNoted b r used).regs = (s.bankNoted b).regs := by
  cases used <;> rfl

theorem State.fld_rowNoted (b r : Nat) (used : Bool) : (s.rowNoted b r used).fld (F.HST_PANTRY_BANK_CE_COUNT b) =
    min (s.fld (F.HST_PANTRY_BANK_CE_COUNT b) + 1) 65535 := by
  rw [State.fld_congr (s.rowNoted_regs b r used), State.bankNoted, State.fld_satAdd_self _ (show 16 + 16 ≤ 32 by decide),
    State.fld_flag_apart _ (.inl (show 0x200004 ≠ 0x200200 + 4 * b by omega)),
    State.fld_bump_ne _ _ (show 0x200080 ≠ 0x200200 + 4 * b by omega) (show 0x200080 + 4 ≠ 0x200200 + 4 * b by omega)]
  norm_num

theorem State.freeSpare_rowNoted (b r : Nat) (used : Bool) : (s.rowNoted b r used).freeSpare b r = s.freeSpare b r := by
  cases used <;> rfl

variable {s}

/-- A corrected read of a row while the scrub is on: a row already marked is repaired (R125). -/
theorem State.pantryRow_corrected (h : s.is F.HST_CTRL_PANTRY_SCRUB_EN = true) {b r : Nat} (hb : b < 64) (hr : r < 5120)
    (used : Bool) : s.pantryRow b r true none used =
      if s.hst.pantryCe.contains (b * 5120 + r) then (s.rowNoted b r used).repairRow b r else s.rowNoted b r used := by
  have on : b < 64 ∧ r < 5120 ∧ (s.is F.HST_CTRL_PANTRY_SCRUB_EN ∨ used) := ⟨hb, hr, .inl h⟩
  have scrub : s.pantryRow b r true none used = s.pantryScrub b r true none used := by cases used <;> rfl
  rw [scrub, State.pantryScrub, if_pos on]
  simp only [true_and]
  rfl

/-- A row is mapped to a free spare, and its mark ends (R125). -/
theorem State.repairRow_free {b r k : Nat} (h : s.freeSpare b r = some k) :
    Frame [.hst, .regs] s (s.repairRow b r) ∧
      (s.repairRow b r).hst.pantrySpare = Tab.set (b * 5120 + r) k s.hst.pantrySpare ∧
      (s.repairRow b r).hst.pantryCe = s.hst.pantryCe.filter (fun x => x != b * 5120 + r) ∧
      (s.repairRow b r).is F.HST_STATUS_PANTRY_REPAIRED = true := by
  simp only [State.repairRow, h]
  refine ⟨?_, ?_, ?_, State.is_flag _ (by decide) (by decide)⟩
  all_goals split
  · exact (((s.onHst_frame _).trans (State.onHst_frame _ _)).append (State.flag_frame _ _)).mono (by decide)
  · exact ((s.onHst_frame _).append ((State.satAdd_frame _ _ _).trans (State.flag_frame _ _))).mono (by decide)
  all_goals rfl

end

/-! ### CE_24H_CLEAR (R112) -/

/-- The 24 h count of a pseudo-channel starts again. -/
def State.clearCe (s : State) (p : Nat) : State := s.setPc p { s.pc p with ce24h := 0 }

theorem State.each_clearCe_eq (s : State) (l : List Nat) :
    s.each l State.clearCe = { s with hst := { s.hst with pcs := (s.each l State.clearCe).hst.pcs } } := by
  induction l generalizing s with
  | nil => rfl
  | cons p l ih => exact ih (s.clearCe p)

theorem State.each_clearCe_frame (s : State) (l : List Nat) : Frame [.hst] s (s.each l State.clearCe) :=
  Frame.each (fun s p => s.setPc_frame p _) l s

theorem State.pc_each_clearCe (s : State) {p : Nat} (hp : p < 64) :
    (s.each (List.range 64) State.clearCe).pc p = { s.pc p with ce24h := 0 } := by
  have own := State.each_own (get := State.pc) (step := State.clearCe) (g := fun r => { r with ce24h := 0 })
    (fun s i => s.pc_setPc_self i _) (fun s i j h => s.pc_setPc_ne h _) (List.nodup_range (n := 64)) s p
  rwa [if_pos (List.mem_range.2 hp)] at own

/-- CE_24H_CLEAR at its time starts every count again. -/
theorem State.ceClear_due {s : State} (h : Tab.getD Tick.ceClear 0 s.served < s.now / day * day) : s.ceClear =
    State.each { s with served := Tab.set Tick.ceClear (s.now / day * day) s.served } (List.range 64) State.clearCe :=
  State.every_due h _

/-! ### What the Larder's changes leave of the Cellar's tables (R115) -/

/-- What of the Hoist's block a write of bytes to the Cellar does not touch. -/
def Hst.besideBytes (h : Hst) : Hst := { h with mem := [], poison := [], goodCells := [] }

theorem Hst.kept_of_besideBytes {h k : Hst} (e : k.besideBytes = h.besideBytes) :
    k.pcs = h.pcs ∧ k.withdrawn = h.withdrawn ∧ k.pool = h.pool ∧ k.migration = h.migration := by
  simp only [Hst.besideBytes, Hst.mk.injEq] at e
  simp only [e, and_self]

section
variable (s : State)

theorem State.cellarPut_beside (a : Nat) (l : List Byte) : (s.cellarPut a l).hst.besideBytes = s.hst.besideBytes := by
  unfold State.cellarPut
  split
  · dsimp only
    generalize cutCells _ _ = parts
    generalize s.hst = h
    induction parts generalizing h with
    | nil => rfl
    | cons x parts ih =>
      rw [List.foldl_cons, ih]
      split <;> rfl
  · rfl

theorem State.lineState_beside (i st : Nat) : (s.lineState i st).hst.besideBytes = s.hst.besideBytes := by
  unfold State.lineState
  exact State.cellarPut_beside _ _ _

theorem State.lineFree_beside (i : Nat) : (s.lineFree i).hst.besideBytes = s.hst.besideBytes := by
  unfold State.lineFree
  dsimp only
  split
  · exact s.lineState_beside i 0
  · rfl

theorem State.lineStale_beside (i : Nat) : (s.lineStale i).hst.besideBytes = s.hst.besideBytes := by
  unfold State.lineStale
  dsimp only
  split
  · rw [State.lineFree_beside, State.bump_hst, State.lineState_beside, State.onRsv_hst]
  · rfl

theorem State.staleWhere_beside (p : Nat → BitVec 128 → Bool) : (s.staleWhere p).hst.besideBytes = s.hst.besideBytes :=
  State.each_same _ _ _ (·.hst.besideBytes) fun s i _ => s.lineStale_beside i

theorem State.staleWhere_frame (p : Nat → BitVec 128 → Bool) : Frame [.rsv, .hst, .regs] s (s.staleWhere p) :=
  Frame.each (fun s i => s.lineStale_frame i) _ s

theorem State.larderResize_beside : s.larderResize.hst.besideBytes = s.hst.besideBytes := by
  unfold State.larderResize
  dsimp only
  split
  · rfl
  · rw [State.onRsv_hst, State.staleWhere_beside]
    exact State.when_same _ _ _ (·.hst.besideBytes) (by rw [State.flag_hst])

end

/-! ### The start of a retirement (R113 to R118) -/

section
variable (s : State)

/-- The record of a pseudo-channel whose retirement starts. -/
def PcRec.retiring (r : PcRec) (cause : Nat) (failure : Bool) : PcRec :=
  { r with state := if failure then .retired else .migrating, cause := cause }

/-- The segments that a retirement withdraws (R115). -/
def State.withdrawnFor (p cause : Nat) (failure : Bool) : List Nat :=
  let t := s.setPc p ((s.pc p).retiring cause failure)
  t.withdrawFor (t.heldPlaces t.hst.pool - t.poolPromised) t.larderTop

/-- A retirement at its start. -/
def State.newMigration (p cause : Nat) (failure : Bool) : Migration :=
  { pc := p, failure := failure, pinWait := true, segs := s.withdrawnFor p cause failure, todo := [] }

/-- The lines of the withdrawn segments are made STALE. -/
def State.retireStale (p cause : Nat) (failure : Bool) : State :=
  (s.setPc p ((s.pc p).retiring cause failure)).staleWhere fun i _ =>
    (s.withdrawnFor p cause failure).contains ((s.setPc p ((s.pc p).retiring cause failure)).lineAddr i / 2 ^ 26)

theorem State.retireStart_eq (p cause : Nat) (failure : Bool) : s.retireStart p cause failure =
    (s.retireStale p cause failure).onHst fun h => { h with
      withdrawn := h.withdrawn ++ s.withdrawnFor p cause failure
      migration := h.migration ++ [s.newMigration p cause failure] } := rfl

theorem State.retireStart_pcs (p cause : Nat) (failure : Bool) :
    (s.retireStart p cause failure).hst.pcs = (s.setPc p ((s.pc p).retiring cause failure)).hst.pcs :=
  (Hst.kept_of_besideBytes (State.staleWhere_beside _ _)).1

theorem State.retireStart_migration (p cause : Nat) (failure : Bool) :
    (s.retireStart p cause failure).hst.migration = s.hst.migration ++ [s.newMigration p cause failure] := by
  obtain ⟨-, -, -, kept⟩ := Hst.kept_of_besideBytes (h := (s.setPc p ((s.pc p).retiring cause failure)).hst)
    (k := (s.retireStale p cause failure).hst) (State.staleWhere_beside _ _)
  rw [State.retireStart_eq, State.onHst_hst, kept]
  rfl

theorem State.retireStart_frame (p cause : Nat) (failure : Bool) :
    Frame [.hst, .rsv, .regs] s (s.retireStart p cause failure) :=
  (((s.setPc_frame p _).append (State.staleWhere_frame _ _)).append (State.onHst_frame _ _)).mono (by decide)

variable {s}

/-- HST_RETIRE of an ACTIVE pseudo-channel within the limits. -/
theorem State.retireCommand_starts {p : Nat} (hp : p < 64) (ha : (s.pc p).state = .active) (hm : s.mayRetire p = true) :
    s.retireCommand p = s.retireStart p 2 false := by
  simp [State.retireCommand, State.predictive, hp, ha, hm]

/-- The failure condition outside the limits (R118). -/
theorem State.pcFailure_critical {p : Nat} (hp : p < 64) (ha : (s.pc p).state = .active) (hm : s.mayRetire p = false) :
    s.pcFailure p true = (s.setPc p { s.pc p with critical := true }).flag F.HST_STATUS_CELLAR_CRITICAL := by
  simp [State.pcFailure, hp, ha, hm]

/-! ### The slices (R115, R119, R120) -/

/-- A retirement alone in progress is changed. -/
theorem State.modMigration_one {m : Migration} (h : s.hst.migration = [m]) (f : Migration → Migration) :
    s.modMigration m.pc f = s.onHst fun h => { h with migration := [f m] } := by
  simp [State.modMigration, State.onHst, h]

/-- Nothing in the withdrawn segments is pinned: their slices join the pool, and those of the pseudo-channel are to be switched. -/
theorem State.pinWaitEnd_one {m : Migration} (h : s.hst.migration = [m]) (hw : m.pinWait = true) (hu : s.unpinned m.segs = true)
    (ht : s.slicesOn m.pc ≠ []) : s.pinWaitEnd = (s.onHst fun h => { h with
      migration := [{ m with pinWait := false, segs := [], todo := s.slicesOn m.pc }]
      pool := h.pool ++ m.segs.flatMap s.segmentPlaces }).larderResize := by
  have found : (s.hst.migration.find? fun m => m.pinWait && s.unpinned m.segs) = some m := by simp [h, hw, hu]
  simp only [State.pinWaitEnd, found, if_neg ht, State.modMigration_one h]
  rfl

/-- A slice, not the last of a predictive retirement, moves to the pool's first. -/
theorem State.sliceSwitch_one {m : Migration} {x : Nat} {y : Nat × Nat} {r : List Nat} {l : List (Nat × Nat)}
    (h : s.hst.migration = [m]) (hw : m.pinWait = false) (hf : m.failure = false) (ht : m.todo = x :: r) (hr : r ≠ [])
    (hy : s.poolSlices = y :: l) : s.sliceSwitch = s.onHst fun h => { h with
      sliceMap := Tab.set x y h.sliceMap, pool := h.pool.erase y, migration := [{ m with todo := r }] } := by
  have found : (s.hst.migration.find? fun m => !m.pinWait) = some m := by simp [h, hw]
  simp only [State.sliceSwitch, found, hy, ht, hf, if_neg hr, State.modMigration_one h, Bool.false_eq_true, if_false]
  rfl

end

end Sys2Proof.Machine
end

section
/-!
The statements about the Cellar, the Pantry and the Hoist (03_cellar_and_hoist.md).
-/

namespace Sys2Proof.Machine

/-- Settles O10: a cell that the port takes enters its queue and is remembered by `offered`; `portCell` takes no damaged one. -/
theorem cellsAtPorts : Obligations.CellsAtPorts := by
  unfold Obligations.CellsAtPorts
  refine ⟨fun a h l c s hw ha hc => ⟨fun hf => ?room, fun hf => ?full⟩, fun a h l s hw ha hc => ?dropped,
    fun g h l hd => portCell_damaged hd g l⟩
  case room =>
    obtain ⟨flows, f, hf', hid, hag, heg, hnew⟩ := State.offered_spec
      (s.onHst fun x => { x with voq := Tab.modify [] (a * 32 + bankGroup c.caddr) (· ++ [c]) x.voq }) a c
    refine ⟨_, State.awake_next hw (State.cellIngress_room ha hc hf) ?_, flows, f, hf', hid, hag, heg, hnew⟩
    rw [flows]
    rfl
  case full => exact State.awake_next hw (State.cellIngress_full ha hc hf) rfl
  case dropped => exact State.awake_next hw (State.cellIngress_dropped ha hc) rfl

/-- Settles O11: of the Cellar a commit changes the bytes that `Mem.write` writes, where its outcome is not FAILED. -/
theorem cellCommit : Obligations.CellCommit := by
  unfold Obligations.CellCommit
  intro g c rest s hw hb
  refine ⟨_, State.cells_next hw (State.cellCommit_oldest hb) rfl, rfl, rfl, Tab.getD_put_self _ _ _ _, State.commitHst_failed,
    fun ho => ⟨fun i v hv => ?inside, fun x hx => ?outside⟩⟩
  all_goals show Mem.byte 0 (s.commitHst g c rest).mem _ = _; rw [State.commitHst_written ho]
  case inside =>
    obtain ⟨hi, rfl⟩ := List.getElem?_eq_some_iff.1 hv
    exact Mem.byte_write_in _ _ _ _ _ hi
  case outside => exact Mem.byte_write_out _ _ _ _ _ hx

/-- Settles O13: the cell time is the crossbars' moves, and the ingress crossbar leaves alone what the egress matching looks at. -/
theorem cellTime : Obligations.CellTime := by
  unfold Obligations.CellTime
  intro s hw hd hh
  have moves : Frame [.hst, .regs] s s.crossIn.crossOut.feedAll :=
    ((s.crossIn_frame.append s.crossIn.crossOut_frame).append s.crossIn.crossOut.feedAll_frame).mono (by decide)
  obtain ⟨wbufF, egressF, inGrantF, inAcceptF, egGrantF, egAcceptF, memF⟩ :=
    Hst.kept_of_besideFeed s.crossIn.crossOut.feedAll_beside
  obtain ⟨-, wbufO, inGrantO, inAcceptO, memO⟩ := Hst.kept_of_besideOut s.crossIn.crossOut_beside
  obtain ⟨-, -, egressI, -, -, memI⟩ := Hst.kept_of_besideIn s.crossIn_beside
  refine ⟨_, State.cells_next (.inl hw) (State.cellTime_sound hd hh) (moves.pending_eq (by decide)), moves.eq_hst_regs,
    ?mem, ?inGrant, ?inAccept, ?egGrant, ?egAccept, fun a b c rest hp hq => ?one, fun hp => ?noneIn, fun hp => ?noneOut⟩
  case mem => rw [memF, memO, memI]
  case inGrant => rw [inGrantF, inGrantO, s.crossIn_inGrant]
  case inAccept => rw [inAcceptF, inAcceptO, s.crossIn_inAccept]
  case egGrant => rw [egGrantF, State.crossOut_egGrant, s.egressMatch_crossIn]
  case egAccept => rw [egAcceptF, State.crossOut_egAccept, s.egressMatch_crossIn]
  case one => rw [wbufF, wbufO, s.crossIn_wbuf_one hp hq]
  case noneIn => rw [wbufF, wbufO, s.crossIn_wbuf_none hp]
  case noneOut => rw [egressF, s.crossIn.crossOut_egress_none (by rw [s.egressMatch_crossIn, hp]), egressI]

/-- Refutes O12 by its clause on RESEQ_TIMEOUT: where every FLOW id is in use or was released less than 2 x RESEQ_TIMEOUT ago, R97
leaves none to assign, and the model's search ends with an id all the same. In `spentIds` that is the id of the flow that has just
ended, so that a flow of this id stands after the row. -/
theorem not_cellAnswers : ¬ Obligations.CellAnswers := by
  unfold Obligations.CellAnswers
  rintro ⟨-, -, -, -, ends, -⟩
  have found : spentIds.hst.flows.find? (fun g => g.id == 0 && g.egress) = some waitingFlow := rfl
  have waits : waitingFlow.held ≠ [] ∨ 0 < waitingFlow.next := .inr (by decide)
  have late : waitingFlow.lastArrival + spentIds.reseqTimeout ≤ spentIds.now := by decide
  obtain ⟨t, row, gone⟩ := ends 0 waitingFlow spentIds rfl found waits rfl late
  obtain ⟨g, hg, same⟩ := State.reseqTimeout_reuses rfl found waits rfl late rfl spentIds_nextId row
  exact gone g hg same

/-- Settles O14: each row is one of the laws of the scrubs and of retirement. That SLICE_SWITCH takes the pool's first slice is the
model's entry 20. -/
theorem scrubsAndRetirement : Obligations.ScrubsAndRetirement := by
  unfold Obligations.ScrubsAndRetirement
  refine ⟨⟨fun g s hw he hg ha => ?corrected, fun g f s hw he hg hf => ?detected, fun b r u s hw he hb hr hn => ?marked,
    fun b r k u s hw he hb hr hm hk => ?repaired, fun s hw hd => ?cleared⟩,
    fun q p s hb hm hp ha hl => ?starts, fun p s hw hp ha hl => ?critical, fun m s hw h hp hu ht => ?unpinned,
    fun m x y0 y1 r l s hw h hp hf ht hr hy => ?switched⟩
  case corrected =>
    have row := (State.cellarScrub_on he hg (.bytes 1)).trans (s.granuleCe_counted ha g)
    have frame : Frame [.hst, .regs] s (s.ceNoted.setPc (s.granulePc g) (s.pc (s.granulePc g)).oneMore) :=
      (s.ceNoted_frame.append (State.setPc_frame _ _ _)).mono (by decide)
    refine ⟨_, State.awake_next hw row rfl, frame.eq_hst_regs, rfl, State.is_flag _ (by decide) (by decide), ?_,
      fun p hp => State.pc_setPc_ne _ hp _⟩
    rw [State.pc_setPc_self]
    rfl
  case detected =>
    obtain ⟨frame, regs, mem, poison, times⟩ := s.granuleUe_spec g
    refine ⟨_, State.awake_next hw ((State.cellarScrub_on he hg f).trans (State.granuleRead_detected hf g))
      (frame.pending_eq (by decide)), frame.eq_hst_regs_wdn, mem, poison, ?_, ?_, ?_, times⟩
    · rw [State.is_congr regs, s.is_ueNoted]
    · rw [State.fld_congr regs, s.fld_ueNoted_cell]
    · rw [State.fld_congr regs, s.fld_ueNoted_granule]
  case marked =>
    have row := State.pantryRow_corrected he hb hr u
    rw [if_neg (by rw [hn]; decide)] at row
    have frame := s.rowNoted_frame b r u
    exact ⟨_, State.awake_next hw row (frame.pending_eq (by decide)), frame.eq_hst_regs, s.rowNoted_hst b r u, s.fld_rowNoted b r u⟩
  case repaired =>
    have row := State.pantryRow_corrected he hb hr u
    rw [if_pos hm] at row
    obtain ⟨repair, spare, marks, told⟩ := State.repairRow_free ((s.freeSpare_rowNoted b r u).trans hk)
    have frame := (s.rowNoted_frame b r u).trans repair
    refine ⟨_, State.awake_next hw row (frame.pending_eq (by decide)), frame.eq_hst_regs, ?_, told, ?_⟩
    · rw [spare, s.rowNoted_hst]
    · rw [marks]
      simp
  case cleared =>
    have frame := State.each_clearCe_frame { s with served := Tab.set Tick.ceClear (s.now / day * day) s.served } (List.range 64)
    refine ⟨_, State.awake_next hw (State.ceClear_due hd) (frame.pending_eq (by decide)), ?_,
      fun p hp => State.pc_each_clearCe _ hp⟩
    rw [frame.served_eq (by decide)]
    exact State.each_clearCe_eq _ _
  case starts =>
    have pc := fun k => State.pc_congr (s.retireStart_pcs p 2 false) k
    refine ⟨_, State.bus_next hb hm (State.retireCommand_starts hp ha hl) ((s.retireStart_frame p 2 false).pending_eq (by decide)),
      ?_, ?_, fun k hk => ?_, s.newMigration p 2 false, s.retireStart_migration p 2 false, rfl, rfl, rfl⟩
    · rw [pc, State.pc_setPc_self]
      rfl
    · rw [pc, State.pc_setPc_self]
      rfl
    · rw [pc, State.pc_setPc_ne _ hk]
  case critical =>
    exact ⟨_, State.awake_next hw (State.pcFailure_critical hp ha hl) rfl, rfl, State.pc_setPc_self _ _ _,
      fun k hk => State.pc_setPc_ne _ hk _, State.is_flag _ (by decide) (by decide)⟩
  case unpinned =>
    have row := State.pinWaitEnd_one h hp hu ht
    obtain ⟨-, -, pool, migration⟩ := Hst.kept_of_besideBytes (State.larderResize_beside (s.onHst fun h => { h with
      migration := [{ m with pinWait := false, segs := [], todo := s.slicesOn m.pc }]
      pool := h.pool ++ m.segs.flatMap s.segmentPlaces }))
    exact ⟨_, State.awake_next hw row ((State.larderResize_frame _).pending_eq (by decide)), migration, pool⟩
  case switched => exact State.awake_next hw (State.sliceSwitch_one h hp hf ht hr hy) rfl

end Sys2Proof.Machine
end

section
/-!
SUPPORT. Laws of the sending of packets that several rows share (04_breren_transport.md R149, R151, R159, R463 to R466): which
parts of its SA a packet leaves alone, when a packet is sent at once, and what a control packet notes.
-/

namespace Sys2Proof.Machine

-- Proofs in sequence: the stack of every thread that waits counts against the memory limit of the check.
set_option Elab.async false

/-! ### Fields taken from another state -/

/-- A state with the fields of l taken from another. -/
def State.take (s t : State) (l : List Blk) : State where
  regs := bif l.contains .regs then t.regs else s.regs
  snaps := bif l.contains .snaps then t.snaps else s.snaps
  heldLow := bif l.contains .heldLow then t.heldLow else s.heldLow
  answer := bif l.contains .answer then t.answer else s.answer
  now := bif l.contains .now then t.now else s.now
  free := bif l.contains .free then t.free else s.free
  served := bif l.contains .served then t.served else s.served
  inv := bif l.contains .inv then t.inv else s.inv
  hst := bif l.contains .hst then t.hst else s.hst
  trn := bif l.contains .trn then t.trn else s.trn
  win := bif l.contains .win then t.win else s.win
  cq := bif l.contains .cq then t.cq else s.cq
  vol := bif l.contains .vol then t.vol else s.vol
  str := bif l.contains .str then t.str else s.str
  attic := bif l.contains .attic then t.attic else s.attic
  rbd := bif l.contains .rbd then t.rbd else s.rbd
  rsv := bif l.contains .rsv then t.rsv else s.rsv
  cip := bif l.contains .cip then t.cip else s.cip
  mac := bif l.contains .mac then t.mac else s.mac
  tc := bif l.contains .tc then t.tc else s.tc
  drv := bif l.contains .drv then t.drv else s.drv
  drives := bif l.contains .drives then t.drives else s.drives
  bay := bif l.contains .bay then t.bay else s.bay
  wdn := bif l.contains .wdn then t.wdn else s.wdn
  peer := bif l.contains .peer then t.peer else s.peer
  pwr := bif l.contains .pwr then t.pwr else s.pwr
  mgt := bif l.contains .mgt then t.mgt else s.mgt
  glb := bif l.contains .glb then t.glb else s.glb
  fuses := bif l.contains .fuses then t.fuses else s.fuses
  flash := bif l.contains .flash then t.flash else s.flash
  pending := bif l.contains .pending then t.pending else s.pending

/-- A change that touches the fields of l at most is those fields taken from its outcome. -/
theorem Frame.eq_take {l : List Blk} {s t : State} (h : Frame l s t) : t = s.take t l := by
  have pick : ∀ {α : Type} (b : Blk) (x y : α), (b ∉ l → x = y) → x = bif l.contains b then x else y := fun b x y e => by
    cases hb : l.contains b
    · exact e (by simpa using hb)
    · rfl
  refine State.eq_of_agree fun b => ?_
  cases b <;> exact pick _ _ _ (h _)

/-! ### Requests and tests of an SA -/

section
variable (s : State)

@[simp] theorem State.aux_modAux_self (n : Nat) (f : SaAux → SaAux) : (s.modAux n f).aux n = f (s.aux n) := by
  simp [State.modAux, State.aux]

theorem State.modAux_frame (n : Nat) (f : SaAux → SaAux) : Frame [.trn] s (s.modAux n f) := s.onTrn_frame _

theorem State.aux_congr {s t : State} (h : t.trn.aux = s.trn.aux) (n : Nat) : t.aux n = s.aux n := by
  rw [State.aux, State.aux, h]

@[simp] theorem State.pathTest_setTest_self (n p : Nat) (x : PathTest) : (s.setTest n p x).pathTest n p = x := by
  simp [State.setTest, State.pathTest]

theorem State.setTest_frame (n p : Nat) (x : PathTest) : Frame [.trn] s (s.setTest n p x) := s.onTrn_frame _

theorem State.pathTest_congr {s t : State} (h : t.trn.tests = s.trn.tests) (n p : Nat) : t.pathTest n p = s.pathTest n p := by
  rw [State.pathTest, State.pathTest, h]

end

/-! ### What a packet's sending leaves of its SA (R149, R465, R466) -/

/-- A change of the SA table that leaves of an SA every bit behind FLAGS but the counter's and ROTATE's, and its STATE but for
an ACTIVE SA that is EXHAUSTED. -/
structure SaKept (n : Nat) (s t : State) : Prop where
  bits : ∀ lo k, 64 ≤ lo → lo + k ≤ 576 ∨ 640 ≤ lo ∧ lo + k ≤ 1264 ∨ 1280 ≤ lo →
    getBits (t.sa n) lo k = getBits (s.sa n) lo k
  state : t.saState n = s.saState n ∨ s.saState n = Sas.active ∧ t.saState n = Sas.exhausted

section
variable {n : Nat} {s t u : State}

theorem SaKept.of_sa (h : t.trn.sa = s.trn.sa) : SaKept n s t :=
  ⟨fun _ _ _ _ => by rw [State.sa_congr h], .inl (State.saGet_congr h n Sa.state)⟩

theorem SaKept.trans (h : SaKept n s t) (h' : SaKept n t u) : SaKept n s u where
  bits lo k hl hk := (h'.bits lo k hl hk).trans (h.bits lo k hl hk)
  state := by
    rcases h.state with e | ⟨ea, ee⟩ <;> rcases h'.state with e' | ⟨ea', ee'⟩
    · exact .inl (e'.trans e)
    · exact .inr ⟨e.symm.trans ea', ee'⟩
    · exact .inr ⟨ea, e'.trans ee⟩
    · exact absurd (ee.symm.trans ea') (by decide)

theorem SaKept.when {f : State → State} (b : Bool) (h : SaKept n s (f s)) : SaKept n s (s.when b f) := by
  cases b
  · exact SaKept.of_sa rfl
  · exact h

/-- A put of FLAGS, the counter or ROTATE. -/
theorem SaKept.saPut (s : State) (n : Nat) (p : Part) (v : Nat) (h : 1 ≤ p.off) (h' : p.off + p.len ≤ 8 ∨
    72 ≤ p.off ∧ p.off + p.len ≤ 80 ∨ 158 ≤ p.off ∧ p.off + p.len ≤ 160) : SaKept n s (s.saPut n p v) where
  bits lo k hl hk := by
    rw [State.saPut, State.sa_setSa_self]
    exact getBits_putBits_disjoint (by omega) _ _
  state := .inl (s.saGet_saPut_apart (q := Sa.state) (.inl h) n v)

theorem State.saState_saRekey (s : State) (n : Nat) : (s.saRekey n).saState n = s.saState n :=
  State.when_same _ _ _ (·.saState n) (s.saGet_saPut_apart (by decide) n _)

theorem SaKept.saRekey (s : State) (n : Nat) : SaKept n s (s.saRekey n) :=
  SaKept.when _ ((SaKept.saPut s n Sa.flags _ (by decide) (.inl (by decide))).trans (SaKept.of_sa rfl))

/-- An ACTIVE SA whose counter has reached 2^62 is EXHAUSTED (R466). -/
theorem State.saState_saSpent (h : s.saState n = Sas.active) :
    (s.saSpent n).saState n = if 2 ^ 62 ≤ s.saGet n Sa.txCounter then Sas.exhausted else Sas.active := by
  unfold State.saSpent
  simp only [h, and_true]
  split
  · exact s.saGet_saPut_self (by decide) n _
  · exact h

theorem SaKept.saSpent (s : State) (n : Nat) : SaKept n s (s.saSpent n) := by
  unfold State.saSpent
  split
  · next h =>
    refine SaKept.trans (t := s.saPut n Sa.state Sas.exhausted) ⟨fun lo k hl _ => ?_, .inr ⟨h.2, ?_⟩⟩ (SaKept.of_sa rfl)
    · rw [State.saPut, State.sa_setSa_self]
      exact getBits_putBits_disjoint (.inr (Nat.le_trans (by decide) hl)) _ _
    · exact s.saGet_saPut_self (by decide) n _
  · exact SaKept.of_sa rfl

theorem SaKept.counterEvents (s : State) (n : Nat) : SaKept n s (s.counterEvents n) :=
  ((SaKept.when _ (SaKept.of_sa rfl)).trans (SaKept.saRekey _ n)).trans (SaKept.saSpent _ n)

/-- Of the SA table, a packet's sending changes its SA's counter and what the counter's new value brings. -/
theorem State.transmit_sa (s : State) (b : Blocked) (h : b.pkt.flags.testBit 4 = false) : (s.transmit b).trn.sa =
    ((s.saPut b.sa Sa.txCounter (s.saGet b.sa Sa.txCounter + 1)).counterEvents b.sa).trn.sa := by
  unfold State.transmit
  simp only [State.when, Packet.leaving_flags, h, Bool.false_and, Bool.false_eq_true, if_false]
  rw [(State.placePacket_frame _ b _ (by rw [Packet.leaving_flags]; exact h)).trn_eq, State.onTrn_trn, Trn.sent_sa,
    State.bump_trn]

theorem SaKept.transmit (s : State) (b : Blocked) (h : b.pkt.flags.testBit 4 = false) : SaKept b.sa s (s.transmit b) :=
  ((SaKept.saPut s b.sa Sa.txCounter _ (by decide) (.inr (.inl (by decide)))).trans (SaKept.counterEvents _ _)).trans
    (SaKept.of_sa (s.transmit_sa b h))

end

/-! ### A packet that may wait for its mark (R463) -/

/-- The fields that a packet's sending may change. -/
def sendFields : List Blk := [.trn, .cip, .regs, .wdn, .mac, .hst]

section
variable {s : State} (b : Blocked)

/-- A packet that is to be sent is refused, waits for its SA's mark, or is sent. -/
theorem State.sendPkt_cases (s : State) : s.sendPkt b = s ∨
    (s.sendPkt b = s.onTrn fun t => { t with blocked := t.blocked ++ [b] }) ∨ s.sendPkt b = s.transmit b := by
  unfold State.sendPkt
  split
  · exact .inl rfl
  · split
    · exact .inr (.inl rfl)
    · exact .inr (.inr rfl)

theorem State.sendPkt_frame (s : State) (h : b.pkt.flags.testBit 4 = false) : Frame sendFields s (s.sendPkt b) := by
  rcases s.sendPkt_cases b with e | e | e <;> rw [e]
  · exact Frame.refl _ s
  · exact (s.onTrn_frame _).mono (by decide)
  · exact (s.transmit_law b h).1

theorem SaKept.sendPkt (s : State) (h : b.pkt.flags.testBit 4 = false) : SaKept b.sa s (s.sendPkt b) := by
  rcases s.sendPkt_cases b with e | e | e <;> rw [e]
  · exact SaKept.of_sa rfl
  · exact SaKept.of_sa rfl
  · exact SaKept.transmit s b h

/-- Whether a packet of an SA is sent at once depends on the registers, the SA's entry, its stop, the packets that wait and the
Attic's marks. -/
theorem State.saSends_congr {s t : State} {n : Nat} (h : s.saSends n) (regs : t.regs = s.regs) (sa : t.trn.sa = s.trn.sa)
    (stopped : (t.aux n).stopped = (s.aux n).stopped) (blocked : t.trn.blocked = s.trn.blocked) (attic : t.attic = s.attic) :
    t.saSends n := by
  have mark : t.saMark n = s.saMark n := by rw [State.saMark, State.saMark, attic]
  simpa only [State.saSends, State.saState, State.is_congr regs, State.saGet_congr sa, stopped, mark, blocked] using h

/-- A control packet and a retransmission go out at once where their SA sends, with its next counter. -/
theorem State.sendPkt_law (hs : s.saSends b.sa) (hc : s.counterAllows b = true) (hf : b.pkt.flags.testBit 4 = false) :
    Frame sendFields s (s.sendPkt b) ∧ (∃ x, (s.sendPkt b).trn = { s.trn.sent b s.now with sa := x }) ∧
      (s.sendPkt b).saGet b.sa Sa.txCounter = s.saGet b.sa Sa.txCounter + 1 ∧ ∀ k, k ≠ b.sa → (s.sendPkt b).sa k = s.sa k := by
  obtain ⟨enabled, valid, limit, running, mark, free⟩ := hs
  have opened : s.saOpen b.sa = true := by simp [State.saOpen, enabled, valid, running]
  have first : (s.trn.blocked.any fun x => x.sa == b.sa && s.counterAllows x) = false := by
    simp only [List.any_eq_false, Bool.and_eq_true, not_and] at free ⊢
    exact fun x hx e => absurd e (free x hx)
  rw [s.sendPkt_sends b opened hc mark first, ← counter_succ limit]
  exact s.transmit_law b hf

end

/-! ### Control packets (R139, R151, R159, R178) -/

section
variable (s : State) (sa path : Nat) (op : Opcode) (id : Nat) (payload : List Byte)

/-- A control packet of an SA as it is to be sent. -/
def State.controlPkt : Blocked where
  sa := sa
  path := path
  pkt := packetOf op (if decide (op = .saSync) then 1 else 9) id payload
  runs := []
  len := payload.length
  msg := none
  cls := if decide (op = .saSync) then .leaf (leafId (pathSp (s.sa sa) path) (s.saGet sa Sa.endpoint) 0) else .express
  cut := none

theorem State.sendControl_eq : s.sendControl sa path op id payload = s.sendPkt (s.controlPkt sa path op id payload) := rfl

/-- A control packet is no group send's. -/
theorem State.controlPkt_flags : (s.controlPkt sa path op id payload).pkt.flags.testBit 4 = false := by
  show (if decide (op = .saSync) then 1 else 9 : Nat).testBit 4 = false
  split <;> decide

theorem State.sendControl_frame : Frame sendFields s (s.sendControl sa path op id payload) :=
  s.sendPkt_frame _ (s.controlPkt_flags sa path op id payload)

theorem SaKept.sendControl : SaKept sa s (s.sendControl sa path op id payload) :=
  SaKept.sendPkt _ s (s.controlPkt_flags sa path op id payload)

variable {s sa} (h : s.saSends sa)
include h

/-- A control packet of an SA that sends takes its next counter. -/
theorem State.sendControl_law : Frame sendFields s (s.sendControl sa path op id payload) ∧
    (∃ x, (s.sendControl sa path op id payload).trn = { s.trn.sent (s.controlPkt sa path op id payload) s.now with sa := x }) ∧
    (s.sendControl sa path op id payload).saGet sa Sa.txCounter = s.saGet sa Sa.txCounter + 1 ∧
    ∀ k, k ≠ sa → (s.sendControl sa path op id payload).sa k = s.sa k := by
  refine State.sendPkt_law (s.controlPkt sa path op id payload) h ?_ (s.controlPkt_flags sa path op id payload)
  have limit : s.saGet sa Sa.txCounter < 2 ^ 63 := h.2.2.1
  simp only [State.counterAllows, State.controlPkt, limit, decide_true, Option.isNone_none, Bool.true_or, Bool.and_self,
    Bool.or_true]

end

/-! ### Probes (R159, R442) -/

/-- The next PROBE_SEQ has been taken. -/
def State.probeTaken (s : State) : State := s.onTrn fun x => { x with probeSeq := (s.trn.probeSeq + 1) % 2 ^ 64 }

/-- Payload of the next probe (Table 04-7). -/
def State.probePayload (s : State) : List Byte := beBytes 8 s.now ++ beBytes 8 s.trn.probeSeq

section
variable {s : State} {sa : Nat} (h : s.saSends sa) (hk : s.saGet sa Sa.kind ≠ 1) (p : Nat)

/-- A group SA probes no path. -/
theorem State.sendProbe_group (hk : s.saGet sa Sa.kind = 1) (p : Nat) : s.sendProbe sa p = s := by simp [State.sendProbe, hk]

include h

/-- With no packet waiting, no probe waits either. -/
theorem State.parked_none (op : Opcode) (f : Blocked → Bool) : s.parked sa op f = false := by
  obtain ⟨-, -, -, -, -, free⟩ := h
  simp only [State.parked, List.any_eq_false, Bool.and_eq_true, not_and, and_imp] at free ⊢
  exact fun b hb e => absurd e (free b hb)

include hk

/-- A probe takes the next PROBE_SEQ and its SA's next counter, and its path's test notes when it was sent. -/
theorem State.sendProbe_law : Frame sendFields s (s.sendProbe sa p) ∧
    (s.sendProbe sa p).trn.probeSeq = (s.trn.probeSeq + 1) % 2 ^ 64 ∧
    (∃ q, (s.sendProbe sa p).pathTest sa p = (s.pathTest sa p).probed q s.now) ∧
    (s.sendProbe sa p).saGet sa Sa.txCounter = s.saGet sa Sa.txCounter + 1 := by
  have row : s.sendProbe sa p = s.probeTaken.sendControl sa p .probe 0 (s.probePayload) := by
    simp only [State.sendProbe, hk, State.parked_none h, Bool.false_eq_true, or_self, if_false]
    rfl
  have ready : s.probeTaken.saSends sa := State.saSends_congr h rfl rfl rfl rfl rfl
  obtain ⟨frame, ⟨x, trn⟩, counter, -⟩ := State.sendControl_law p .probe 0 s.probePayload ready
  rw [row]
  refine ⟨((s.onTrn_frame _).mono (by decide)).trans frame, congrArg Trn.probeSeq trn, ⟨beAt s.probePayload 8 8, ?_⟩, counter⟩
  rw [State.pathTest, trn]
  exact Tab.getD_put_self _ _ _ _

end

end Sys2Proof.Machine
end

section
/-!
SUPPORT. Laws of paths and of the congestion window (04_breren_transport.md R159, R168, Table 04-12).
-/

namespace Sys2Proof.Machine

-- Proofs in sequence: the stack of every thread that waits counts against the memory limit of the check.
set_option Elab.async false

/-! ### PATH_STATE in an SA entry (Table 04-10) -/

section
variable (e : BitVec 2048) {p k : Nat} (v : Nat)

theorem pathState_setPathState_self (hp : p < 16) : pathState (setPathState e p v) p = v % 4 :=
  getBits_putBits_self (by omega) e v

theorem pathState_setPathState_ne (h : k ≠ p) : pathState (setPathState e p v) k = pathState e k :=
  getBits_putBits_disjoint (by omega) e v

/-- The PATH_STATEs are bytes 64 to 67. -/
theorem getBits_setPathState (hp : p < 16) {lo n : Nat} (h : lo + n ≤ 512 ∨ 544 ≤ lo) :
    getBits (setPathState e p v) lo n = getBits e lo n := getBits_putBits_disjoint (by omega) e v

end

/-! ### The rows of paths (R159, R442) -/

section
variable {s : State} {sa w : Nat}

theorem State.lt_of_pathIs {st : Nat} (h : s.pathIs sa w st = true) : w < 16 := by
  simp only [State.pathIs, Bool.and_eq_true, decide_eq_true_eq] at h
  exact h.1.1.2

/-- DOWN_PATH_PROBE of a DOWN path whose last probe is 10 ms old. -/
theorem State.downProbe_due (he : s.is F.TRN_CTRL_EN = true) (h : s.pathIs sa w 2 = true)
    (hd : (s.pathTest sa w).lastProbe + 10000000 ≤ s.now) : s.downProbe sa w = s.sendProbe sa w := by
  simp [State.downProbe, he, h, hd]

theorem State.downProbe_group (hk : s.saGet sa Sa.kind = 1) : s.downProbe sa w = s := by
  unfold State.downProbe
  split
  · exact State.sendProbe_group hk w
  · rfl

/-- One probe more has been sent at a path's entry to SUSPECT. -/
def State.oneProbe (s : State) (sa w : Nat) : State :=
  s.setTest sa w { s.pathTest sa w with probes := (s.pathTest sa w).probes + 1 }

/-- SUSPECT_PROBE_SEND of a SUSPECT path whose next probe is due. -/
theorem State.suspectProbe_due (he : s.is F.TRN_CTRL_EN = true) (h : s.pathIs sa w 1 = true)
    (hn : (s.pathTest sa w).probes < 3) (hg : s.probeGap sa w 50000 = true) :
    s.suspectProbe sa w = (s.oneProbe sa w).sendProbe sa w := by
  simp [State.suspectProbe, State.oneProbe, he, h, hn, hg]

/-- The record of a path that is DOWN. -/
def State.downTold (s : State) (sa w : Nat) : State := (s.pathDown sa w).tallyTransport F.TRN_STATUS_PATH_DOWN sa 0 w 0

/-- PROBE_TIMEOUT of a SUSPECT path 200 us after its third probe. -/
theorem State.probeTimeout_due (h : s.pathIs sa w 1 = true) (hn : (s.pathTest sa w).probes = 3)
    (hg : s.probeGap sa w 200000 = true) : s.probeTimeout sa w = s.downTold sa w := by
  simp [State.probeTimeout, State.downTold, h, hn, hg]

end

section
variable (s : State) (sa w : Nat)

theorem State.downTold_frame : Frame [.trn, .regs, .wdn, .mgt] s (s.downTold sa w) :=
  ((((s.setSa_frame _ _).trans (State.setTest_frame _ _ _ _)).append (State.flag_frame _ _)).append
    (State.tallyFlag_frame _ _ _ _ _)).mono (by decide)

/-- The record leaves the transport's block. -/
theorem State.downTold_trn : (s.downTold sa w).trn = (s.pathDown sa w).trn := (State.tallyFlag_frame _ _ _ _ _).trn_eq

theorem State.sa_downTold_self : (s.downTold sa w).sa sa = setPathState (s.sa sa) w 2 :=
  (State.sa_congr (congrArg Trn.sa (s.downTold_trn sa w)) sa).trans (s.sa_setSa_self sa _)

theorem State.sa_downTold_ne {k : Nat} (h : k ≠ sa) : (s.downTold sa w).sa k = s.sa k :=
  (State.sa_congr (congrArg Trn.sa (s.downTold_trn sa w)) k).trans (s.sa_setSa_ne h _)

theorem State.timeouts_downTold : ((s.downTold sa w).pathTest sa w).timeouts = 0 := by
  rw [State.pathTest_congr (congrArg Trn.tests (s.downTold_trn sa w))]
  exact congrArg PathTest.timeouts (State.pathTest_setTest_self (s.setSa sa _) sa w _)

theorem State.is_downTold : (s.downTold sa w).is F.TRN_STATUS_PATH_DOWN = true := by
  have word : (s.downTold sa w).word F.TRN_STATUS_PATH_DOWN.addr = (s.pathDown sa w).word F.TRN_STATUS_PATH_DOWN.addr :=
    State.word_tallyRaw_below (by decide) _ _ _ _ _ _
  rw [State.is, State.fld, word]
  exact State.is_flag _ (by decide) (by decide)

end

/-! ### The congestion window (R168) -/

/-- The window grown by 8, up to 4,096. -/
def State.cwndGrown (s : State) (sa : Nat) : State :=
  (s.saPut sa Sa.cwnd (min 4096 (s.saGet sa Sa.cwnd + 8))).modAux sa fun a => { a with growFrom := s.now }

/-- CWND_GROWTH after an SRTT without a CE mark or a timer's expiry. -/
theorem State.cwndGrow_due {s : State} {sa : Nat} (hi : s.saState sa ≠ Sas.invalid) (hr : s.saGet sa Sa.srtt ≠ 0)
    (hd : (s.aux sa).growFrom + s.saGet sa Sa.srtt ≤ s.now) : s.cwndGrow sa = s.cwndGrown sa := by
  simp [State.cwndGrow, State.cwndGrown, hi, hr, hd]

theorem State.cwnd_cwndGrown (s : State) (sa : Nat) :
    (s.cwndGrown sa).saGet sa Sa.cwnd = min 4096 (s.saGet sa Sa.cwnd + 8) := by
  have put := s.saGet_saPut_self (p := Sa.cwnd) (by decide) sa (min 4096 (s.saGet sa Sa.cwnd + 8))
  rw [Nat.mod_eq_of_lt (Nat.lt_of_le_of_lt (Nat.min_le_left _ _) (by decide))] at put
  exact put

end Sys2Proof.Machine
end

section
/-!
SUPPORT. Laws of the ends and the starts of messages (04_breren_transport.md R162, R166, R171, R177, R178, R214, R751).
-/

namespace Sys2Proof.Machine

-- Proofs in sequence: the stack of every thread that waits counts against the memory limit of the check.
set_option Elab.async false

/-! ### A message fails (R166, R171) -/

section
variable {s : State} {m : TxMsg} {key : Nat}

theorem State.key_of_tx? (h : s.tx? key = some m) : m.key = key := by simpa using List.find?_some h

/-- MESSAGE_AGE_LIMIT of a message whose first packet is 2 s old. -/
theorem State.msgAge_due {a : Nat} (h : s.tx? key = some m) (ha : m.first = some a) (hd : a + 2000000000 ≤ s.now) :
    s.msgAge key = s.msgFail m m.failStatus := by simp [State.msgAge, State.with?, h, ha, hd]

/-- Freeing a send entry leaves the others. -/
theorem State.tx?_dropTx_ne {k : Nat} (h : k ≠ key) (s : State) : (s.dropTx key).tx? k = s.tx? k := by
  simp only [State.tx?, State.dropTx, State.onTrn_trn, List.find?_filter]
  congr 1
  funext m
  by_cases e : m.key = k <;> simp [e, h]

theorem State.endReply_frame (s : State) (m : TxMsg) : Frame [.win] s (s.endReply m) := by
  unfold State.endReply
  split
  · exact s.endAccess_frame _
  · exact Frame.refl _ s

/-- The end of a message of a command that sends no data and no completion. -/
theorem State.endUse_frame {u : MsgUse} (hd : ∀ c n, u ≠ .readData c n) (hc : ∀ c, u ≠ .completion c) (s : State)
    (status : Nat) : Frame [.cq, .trn] s (s.endUse u status) := by
  cases u with
  | readData c n => exact absurd rfl (hd c n)
  | completion c => exact absurd rfl (hc c)
  | fetch c => exact (s.finish_frame c status).append (State.onTrn_frame _ fun t => t.stop c)
  | fetchReply _ => exact Frame.refl _ s
  | group _ => exact Frame.refl _ s

/-- The record of a failed message, and the end of the access that a FETCH_REPLY serves. -/
def State.failTold (s : State) (m : TxMsg) (status : Nat) : State :=
  ((s.failNoted m).tallyTransport F.TRN_STATUS_MSG_FAILED m.sa m.id
    (match m.packets.getLast? with | some p => p.path | none => 0)
    (match m.use with | .fetchReply _ => 0 | _ => status)).endReply m

theorem State.msgFail_eq (s : State) (m : TxMsg) (status : Nat) :
    s.msgFail m status = (s.failTold m status).endUse m.use status := rfl

theorem State.failTold_frame (s : State) (m : TxMsg) (status : Nat) :
    Frame [.regs, .wdn, .mgt, .win] (s.failNoted m) (s.failTold m status) :=
  ((State.tallyFlag_frame _ _ _ _ _).append (State.endReply_frame _ m)).mono (by decide)

theorem State.word_failTold {a : Nat} (h : a < 0xF00000) (s : State) (m : TxMsg) (status : Nat) :
    (s.failTold m status).word a = (s.failNoted m).word a :=
  (State.word_congr (State.endReply_frame _ m).regs_eq a).trans (State.word_tallyRaw_below h _ _ _ _ _ _)

theorem State.pair_failTold (s : State) (m : TxMsg) (status : Nat) :
    (s.failTold m status).pair A.TRN_MSG_FAILED = (s.pair A.TRN_MSG_FAILED + 1) % 2 ^ 64 := by
  rw [State.pair, State.word_failTold (by decide), State.word_failTold (by decide), ← State.pair, State.failNoted,
    State.pair_flag_ne (by decide) (by decide), State.pair_bump_self]
  rfl

section
variable (hd : ∀ c n, m.use ≠ .readData c n) (hc : ∀ c, m.use ≠ .completion c)
include hd hc

/-- A failed message counts once in TRN_MSG_FAILED. -/
theorem State.pair_msgFail (s : State) (status : Nat) :
    (s.msgFail m status).pair A.TRN_MSG_FAILED = (s.pair A.TRN_MSG_FAILED + 1) % 2 ^ 64 := by
  rw [State.msgFail_eq, State.pair_congr (State.endUse_frame hd hc _ status).regs_eq, State.pair_failTold]

/-- Of the transport, the failing of a message of no command frees its entry alone. -/
theorem State.msgFail_trn (hf : ∀ c, m.use ≠ .fetch c) (s : State) (status : Nat) :
    (s.msgFail m status).trn = (s.dropTx m.key).trn := by
  have told : (s.failTold m status).trn = (s.dropTx m.key).trn := (s.failTold_frame m status).trn_eq
  rw [State.msgFail_eq, ← told]
  cases hu : m.use with
  | readData c n => exact absurd hu (hd c n)
  | completion c => exact absurd hu (hc c)
  | fetch c => exact absurd hu (hf c)
  | fetchReply _ => rfl
  | group _ => rfl

theorem State.tx?_msgFail_ne (hf : ∀ c, m.use ≠ .fetch c) {k : Nat} (hk : k ≠ m.key) (s : State) (status : Nat) :
    (s.msgFail m status).tx? k = s.tx? k := by
  rw [State.tx?, State.msgFail_trn hd hc hf, ← State.tx?, State.tx?_dropTx_ne hk]

end

/-- A FETCH that fails settles its command. -/
theorem State.cmd?_msgFail_fetch {c k : Nat} {x : Slot} (hu : m.use = .fetch c) (h : s.cmd? c = some (k, x))
    (ha : x.state ≠ .completing) (hw : x.wait ≠ .finished) (status : Nat) :
    (s.msgFail m status).cmd? c = some (k, { x with status := status, wait := .finished }) := by
  have told : (s.failTold m status).cmd? c = s.cmd? c :=
    State.cmd?_congr (congrArg Cq.slots (s.failTold_frame m status).cq_eq) c
  rw [State.msgFail_eq, hu]
  exact State.cmd?_finish (told.trans h) ha hw status

end

/-! ### A held message starts (R162, R751) -/

section
variable {s : State} {h : HeldMsg}

/-- A held message has been taken from those held. -/
def State.unheld (s : State) (h : HeldMsg) : State := s.onTrn fun t => { t with held := t.held.erase h }

theorem State.followSa_unheld (k sa : Nat) : (s.unheld h).followSa k sa = s.followSa k sa := by
  induction k generalizing sa with
  | zero => rfl
  | succ k ih =>
    show (if s.saState sa = Sas.draining then _ else sa) = if s.saState sa = Sas.draining then _ else sa
    congr 1
    show (match (s.aux sa).newSa with | some n => (s.unheld h).followSa k n | none => sa) = _
    cases (s.aux sa).newSa with
    | none => rfl
    | some n => exact ih n

theorem State.msgSa_unheld (sa : Nat) (m : TxMsg) : (s.unheld h).msgSa sa m = s.msgSa sa m := by
  unfold State.msgSa
  rw [State.followSa_unheld]
  rfl

theorem State.heldSa_unheld (x : HeldMsg) : (s.unheld h).heldSa x = s.heldSa x := by
  unfold State.heldSa
  rw [State.msgSa_unheld]
  rfl

/-- Whether an EXHAUSTED SA ends a message depends on what the message is for. -/
theorem State.spentUse_isNone (s t : State) (u : MsgUse) : (t.spentUse u).isNone = (s.spentUse u).isNone := by cases u <;> rfl

theorem State.heldEnds_unheld (x : HeldMsg) : ((s.unheld h).heldEnds x).isNone = (s.heldEnds x).isNone := by
  have st : ∀ n, (s.unheld h).saState n = s.saState n := fun _ => rfl
  unfold State.heldEnds
  rw [State.msgSa_unheld, st]
  split
  · exact State.spentUse_isNone s _ _
  · rfl

/-- SA_HELD_MESSAGE_START starts the first held message whose wait is over. -/
theorem State.heldStart_starts {n : Nat}
    (hf : s.trn.held.find? (fun x => (s.heldSa x).isSome || (s.heldEnds x).isSome) = some h)
    (he : (s.heldEnds h).isNone = true) (hn : s.heldSa h = some n) :
    s.heldStart = (s.unheld h).takeTx n h.msg := by
  have ends : (s.unheld h).heldEnds h = none := Option.isNone_iff_eq_none.1 ((State.heldEnds_unheld h).trans he)
  unfold State.heldStart
  rw [hf]
  show ((s.unheld h).heldEnds h).getD ((s.unheld h).with? ((s.unheld h).heldSa h) _) = _
  rw [ends, State.heldSa_unheld, hn]
  rfl

end

section
variable (s : State) (sa : Nat) (m : TxMsg)

/-- The id of a message that starts. -/
def State.startId : Nat := if m.newId then s.saGet sa Sa.txNextId else m.id

/-- A message that takes a new id has taken the SA's next. -/
def State.idTaken : State := s.when m.newId fun s' => s'.saPut sa Sa.txNextId (s.startId sa m + 1)

/-- A message has taken its send entry. -/
def State.entryTaken : State := (s.idTaken sa m).onTrn fun t => { t with
  nextKey := t.nextKey + 1
  tx := t.tx ++ [{ m with key := t.nextKey, sa := sa, id := s.startId sa m }] }

theorem State.idTaken_frame : Frame [.trn] s (s.idTaken sa m) := Frame.when _ (s.saPut_frame _ _ _)

theorem State.entryTaken_frame : Frame [.trn] s (s.entryTaken sa m) := (s.idTaken_frame sa m).trans (State.onTrn_frame _ _)

theorem State.entryTaken_held : (s.entryTaken sa m).trn.held = s.trn.held := s.when_same _ _ (·.trn.held) rfl

/-- The send entry stands behind the others. -/
theorem State.entryTaken_tx : (s.entryTaken sa m).trn.tx = s.trn.tx ++
    [{ m with key := s.trn.nextKey, sa := sa, id := s.startId sa m }] := by
  have tx : (s.idTaken sa m).trn.tx = s.trn.tx := s.when_same _ _ (·.trn.tx) rfl
  have key : (s.idTaken sa m).trn.nextKey = s.trn.nextKey := s.when_same _ _ (·.trn.nextKey) rfl
  rw [← tx, ← key]
  rfl

theorem State.txNextId_entryTaken_new (h : m.newId = true) :
    (s.entryTaken sa m).saGet sa Sa.txNextId = (s.saGet sa Sa.txNextId + 1) % 2 ^ 48 := by
  have taken : s.idTaken sa m = s.saPut sa Sa.txNextId (s.saGet sa Sa.txNextId + 1) := by
    simp [State.idTaken, State.startId, h, State.when]
  show (s.idTaken sa m).saGet sa Sa.txNextId = _
  rw [taken]
  exact s.saGet_saPut_self (by decide) sa _

theorem State.txNextId_entryTaken_old (h : m.newId = false) :
    (s.entryTaken sa m).saGet sa Sa.txNextId = s.saGet sa Sa.txNextId := by
  have same : s.idTaken sa m = s := by simp [State.idTaken, h, State.when]
  show (s.idTaken sa m).saGet sa Sa.txNextId = _
  rw [same]

/-- A message's start notes it in its command's slot beside its send entry. -/
theorem State.takeTx_frame : Frame [.cq] (s.entryTaken sa m) (s.takeTx sa m) := by
  unfold State.takeTx
  extract_lets id s1 taken
  have base : s.entryTaken sa m = taken := rfl
  clear_value taken
  rw [base]
  split
  · exact taken.modCmd_frame _ _
  · exact taken.modCmd_frame _ _
  · exact Frame.refl _ taken

end

/-! ### A receive entry is reaped (R177, R214) -/

section
variable (s : State) (sa id : Nat)

theorem State.closeId_frame : Frame [.trn] s (s.closeId sa id) := by
  unfold State.closeId
  dsimp only
  exact Frame.ite (s.setSa_frame _ _) (Frame.refl _ s)

/-- Closing a message id changes the SA table alone. -/
theorem State.closeId_trn : ∃ x, (s.closeId sa id).trn = s.trn.onSa x := by
  unfold State.closeId
  dsimp only
  split
  · exact ⟨_, rfl⟩
  · exact ⟨s.trn.sa, rfl⟩

theorem State.sa_closeId_ne {k : Nat} (h : k ≠ sa) : (s.closeId sa id).sa k = s.sa k := by
  unfold State.closeId
  dsimp only
  split
  · exact s.sa_setSa_ne h _
  · rfl

/-- Of the SA's parts, closing a message id changes RX_LEFT and MSG_WINDOW. -/
theorem State.reapFloor_closeId : (s.closeId sa id).saGet sa Sa.reapFloor = s.saGet sa Sa.reapFloor := by
  unfold State.closeId
  dsimp only
  split
  · rw [State.saGet, State.sa_setSa_self, getPart_putPart_disjoint (by decide), getPart_putPart_disjoint (by decide)]
    rfl
  · rfl

theorem State.commitDiscard_frame (h : HeldCommit) : Frame [.win, .regs, .wdn, .mgt] s (s.commitDiscard h) :=
  ((((s.onWin_frame _).trans (State.endAccess_frame _ _)).append ((State.bump_frame _ _ _).trans (State.flag_frame _ _))).append
    (State.tallyFlag_frame _ _ _ _ _)).mono (by decide)

/-- A discarded COMMIT placement is counted elsewhere than a reaped entry. -/
theorem State.reaped_commitDiscard (h : HeldCommit) : (s.commitDiscard h).pair A.TRN_REAPED = s.pair A.TRN_REAPED := by
  have word : ∀ a, a < 0xF00000 → (s.commitDiscard h).word a = _ := fun a ha => State.word_tallyRaw_below ha _ _ _ _ _ _
  have access : ((s.onWin fun w => { w with held := w.held.erase h }).endAccess (some h.access)).regs = s.regs := rfl
  rw [State.pair, word _ (by decide), word _ (by decide), ← State.pair, State.pair_flag_ne (by decide) (by decide),
    State.pair_bump_ne (by decide), State.pair_congr access]

theorem State.commitReap_frame : Frame [.win, .regs, .wdn, .mgt] s (s.commitReap sa id) :=
  Frame.each (fun s h => s.commitDiscard_frame h) _ s

theorem State.reaped_commitReap : (s.commitReap sa id).pair A.TRN_REAPED = s.pair A.TRN_REAPED :=
  State.each_same _ _ _ (·.pair A.TRN_REAPED) fun s h _ => s.reaped_commitDiscard h

/-- A receive entry has been freed and counted. -/
def State.reapCounted (key : Nat) : State := (s.freeRx key).bump A.TRN_REAPED

/-- What the SA notes of the reaping of a message of the peer's: the id, and REAP_FLOOR. -/
def State.reapNoted : State :=
  (s.modAux sa fun a => { a with reaped := (a.reaped.filter fun j => decide (id ≤ j + 1023)) ++ [id] }).saPut sa Sa.reapFloor
    (max (s.saGet sa Sa.reapFloor) id)

/-- REAP_FLOOR rises to an id that has been reaped. -/
theorem State.reapFloor_reapNoted (h : id < 2 ^ 48) :
    (s.reapNoted sa id).saGet sa Sa.reapFloor = max (s.saGet sa Sa.reapFloor) id := by
  have small : max (s.saGet sa Sa.reapFloor) id < 2 ^ 48 := max_lt (getBits_lt _ _ _) h
  refine (State.saGet_saPut_self (p := Sa.reapFloor) _ (by decide) sa _).trans ?_
  exact Nat.mod_eq_of_lt small

variable {s sa id} {m : RxMsg}
  (hf : s.trn.rx.find? (fun x => x.sa == sa && x.id == id && decide (x.created + 4000000000 ≤ s.now)) = some m)
include hf

/-- RECEIVE_REAP of a FETCH's reply frees its entry. -/
theorem State.rxReap_reply (hr : m.reply = true) : s.rxReap sa id = s.reapCounted m.key := by
  simp only [State.rxReap, hf, hr, if_true, State.reapCounted]

/-- RECEIVE_REAP of another message closes its id and discards the COMMIT placements that wait for it too. -/
theorem State.rxReap_message (hr : m.reply = false) :
    s.rxReap sa id = (((s.reapCounted m.key).reapNoted sa id).closeId sa id).commitReap sa id := by
  simp only [State.rxReap, hf, hr, Bool.false_eq_true, if_false]
  rfl

end

/-! ### An ACK that is due (R178) -/

section
variable {s : State} {sa id a : Nat} {m : RxMsg} {r : Bool}

/-- A receive entry as its ACK has been sent. -/
def State.ackNoted (s : State) (key : Nat) : State := s.modRx key fun m => { m with sinceAck := 0, ackFrom := none, ce := 0 }

/-- ACK_DELAY_EXPIRY of a message whose earliest packet not yet acknowledged came by a valid path. -/
theorem State.ackExpiry_due (he : s.is F.TRN_CTRL_EN = true)
    (hf : s.trn.rx.find? (fun x => x.sa == sa && x.id == id && x.reply == r) = some m) (ha : m.ackFrom = some a)
    (hd : a + s.ackDelay ≤ s.now) (hp : m.trigPath < 16) (hv : pathValid (s.sa m.sa) m.trigPath = true) :
    s.ackExpiry sa id r =
      (s.ackNoted m.key).sendControl m.sa m.trigPath .ack m.id (ackPayload m.marked m.trigIndex m.ce false m.reply) := by
  have valid : pathValid ((s.ackNoted m.key).sa m.sa) m.trigPath = true := hv
  simp only [State.ackExpiry, hf, ha, he, hd, and_self, if_true]
  show (s.ackNoted m.key).reply _ _ _ _ _ = _
  simp only [State.reply, hp, valid, and_self, if_true]

end

end Sys2Proof.Machine
end

section
/-!
SUPPORT. Laws of security associations (04_breren_transport.md R146, R151 to R157, R181, R464 to R466): how an SA starts, what
its requests note, what a write of its words reaches, and what its end leaves.
-/

namespace Sys2Proof.Machine

-- Proofs in sequence: the stack of every thread that waits counts against the memory limit of the check.
set_option Elab.async false

/-! ### The entry of an SA that starts (R181, R464) -/

/-- PATH_STATE of the first n paths: UP where valid, unused elsewhere. -/
def startPaths (n : Nat) (e : BitVec 2048) : BitVec 2048 :=
  (List.range n).foldl (fun e p => setPathState e p (if pathValid e p then 0 else 3)) e

theorem startPaths_succ (n : Nat) (e : BitVec 2048) : startPaths (n + 1) e =
    setPathState (startPaths n e) n (if pathValid (startPaths n e) n then 0 else 3) := by
  rw [startPaths, List.range_succ, List.foldl_append]
  rfl

theorem getBits_startPaths {n : Nat} (hn : n ≤ 16) (e : BitVec 2048) {lo k : Nat} (h : lo + k ≤ 512 ∨ 544 ≤ lo) :
    getBits (startPaths n e) lo k = getBits e lo k := by
  induction n with
  | zero => rfl
  | succ n ih => rw [startPaths_succ, getBits_setPathState _ _ (by omega) h, ih (by omega)]

theorem pathValid_startPaths {n : Nat} (hn : n ≤ 16) (e : BitVec 2048) (p : Nat) :
    pathValid (startPaths n e) p = pathValid e p := by
  have byte : pathByte (startPaths n e) p = pathByte e p := getBits_startPaths hn e (by omega)
  rw [pathValid, pathValid, byte]

theorem pathState_startPaths {n p : Nat} (hn : n ≤ 16) (hp : p < n) (e : BitVec 2048) :
    pathState (startPaths n e) p = if pathValid e p then 0 else 3 := by
  induction n with
  | zero => omega
  | succ n ih =>
    rw [startPaths_succ]
    by_cases h : p = n
    · subst h
      rw [pathState_setPathState_self _ _ (by omega), pathValid_startPaths (by omega)]
      split <;> rfl
    · rw [pathState_setPathState_ne _ _ h, ih (by omega) (by omega)]

/-- ROTATE of an SA that starts: the lowest valid path where it names none. -/
def startRotate (e : BitVec 2048) : BitVec 2048 :=
  if pathValid e (getPart e Sa.rotate % 16) then e
  else putPart e Sa.rotate (((List.range 16).find? fun p => pathValid e p).getD 0)

theorem getBits_startRotate (e : BitVec 2048) {lo k : Nat} (h : lo + k ≤ 1264 ∨ 1280 ≤ lo) :
    getBits (startRotate e) lo k = getBits e lo k := by
  unfold startRotate
  split
  · rfl
  · exact getBits_putBits_disjoint h _ _

/-- A fresh window of an SA that starts. -/
def startWindow (e : BitVec 2048) : BitVec 2048 :=
  putPart (putPart (putPart (startPaths 16 e) Sa.cwnd 512) Sa.srtt 0) Sa.rttvar 0

/-- The entry of an SA that starts, but for its STATE. -/
def startEntry (e : BitVec 2048) (mark : Nat) : BitVec 2048 :=
  putPart (startRotate (startWindow e)) Sa.txCounter (max (getPart (startRotate (startWindow e)) Sa.txCounter) mark)

section
variable (e : BitVec 2048) (mark : Nat)

/-- Beside ROTATE and the counter, an SA that starts has the fresh window's bits. -/
theorem getBits_startEntry {lo k : Nat} (h : lo + k ≤ 576 ∨ 640 ≤ lo ∧ lo + k ≤ 1264 ∨ 1280 ≤ lo) :
    getBits (startEntry e mark) lo k = getBits (startWindow e) lo k :=
  (getBits_putBits_disjoint (show lo + k ≤ 8 * 72 ∨ 8 * 72 + 8 * 8 ≤ lo by omega) _ _).trans (getBits_startRotate _ (by omega))

theorem cwnd_startEntry : getPart (startEntry e mark) Sa.cwnd = 512 := by
  refine (getBits_startEntry e mark (.inl (by decide))).trans ?_
  show getPart (startWindow e) Sa.cwnd = 512
  rw [startWindow, getPart_putPart_disjoint (by decide), getPart_putPart_disjoint (by decide), getPart_putPart_self (by decide)]
  rfl

theorem srtt_startEntry : getPart (startEntry e mark) Sa.srtt = 0 := by
  refine (getBits_startEntry e mark (.inr (.inr (by decide)))).trans ?_
  show getPart (startWindow e) Sa.srtt = 0
  rw [startWindow, getPart_putPart_disjoint (by decide), getPart_putPart_self (by decide)]
  rfl

theorem rttvar_startEntry : getPart (startEntry e mark) Sa.rttvar = 0 :=
  (getBits_startEntry e mark (.inr (.inr (by decide)))).trans (getPart_putPart_self (by decide) _ 0)

/-- The counter starts at or above its mark (R464). -/
theorem txCounter_startEntry (h : mark < 2 ^ 64) :
    getPart (startEntry e mark) Sa.txCounter = max (getPart e Sa.txCounter) mark := by
  have kept : getPart (startRotate (startWindow e)) Sa.txCounter = getPart e Sa.txCounter := by
    refine (getBits_startRotate _ (.inl (by decide))).trans ?_
    show getPart (startWindow e) Sa.txCounter = _
    rw [startWindow, getPart_putPart_disjoint (by decide), getPart_putPart_disjoint (by decide),
      getPart_putPart_disjoint (by decide)]
    exact getBits_startPaths (Nat.le_refl 16) e (by decide)
  have small : max (getPart e Sa.txCounter) mark < 2 ^ 64 := max_lt (getBits_lt _ _ _) h
  rw [startEntry, kept, getPart_putPart_self (by decide)]
  exact Nat.mod_eq_of_lt small

theorem pathState_startEntry {w : Nat} (h : w < 16) :
    pathState (startEntry e mark) w = if pathValid e w then 0 else 3 := by
  refine (getBits_startEntry e mark (.inl (by omega))).trans ?_
  have below : ∀ {x : BitVec 2048} {p : Part} {v : Nat}, 68 ≤ p.off → pathState (putPart x p v) w = pathState x w :=
    fun hp => getBits_putBits_disjoint (by omega) _ _
  show pathState (startWindow e) w = _
  rw [startWindow, below (by decide), below (by decide), below (by decide), pathState_startPaths (Nat.le_refl 16) h]

end

section
variable (s : State) (n : Nat)

theorem State.saStart_table : (s.saStart n).trn.sa = (s.setSa n (startEntry (s.sa n) (s.saMark n))).trn.sa := by
  unfold State.saStart startEntry startRotate startWindow startPaths
  rfl

theorem State.saStart_sa_self : (s.saStart n).sa n = startEntry (s.sa n) (s.saMark n) :=
  (State.sa_congr (s.saStart_table n) n).trans (s.sa_setSa_self n _)

theorem State.saStart_sa_ne {k : Nat} (h : k ≠ n) : (s.saStart n).sa k = s.sa k :=
  (State.sa_congr (s.saStart_table n) k).trans (s.sa_setSa_ne h _)

theorem State.saStart_frame : Frame [.trn, .cip] s (s.saStart n) :=
  (((s.setSa_frame n _).trans (State.modAux_frame _ n _)).trans (State.onTrn_frame _ _)).append (State.onCip_frame _ _)

theorem State.saStart_sync : ((s.saStart n).aux n).sync = [] := by
  exact congrArg SaAux.sync (State.aux_modAux_self (s.setSa n (startEntry (s.sa n) (s.saMark n))) n fun _ =>
    { auxDefault with growFrom := s.now, firstId := getPart (startRotate (startWindow (s.sa n))) Sa.rxLeft })

end

/-! ### ACTIVATE (R181, R464 to R466) -/

section
variable (s : State) (n : Nat)

/-- An SA that has become ACTIVE, before what its counter brings. -/
def State.saActive : State := ((s.saStart n).saPut n Sa.challenge 0).saPut n Sa.state Sas.active

/-- An SA that has been activated. -/
def State.saActivated : State := ((s.saActive n).saRekey n).saSpent n

theorem State.saActivate_keyed (hi : s.saState s.saSel = Sas.invalid) (hk : s.saKeyed s.saSel = true) :
    s.saActivate = s.saActivated s.saSel := by
  simp only [State.saActivate, hi, hk, and_self, if_true]
  rfl

theorem State.saActivated_frame : Frame [.trn, .cip, .regs, .wdn] s (s.saActivated n) :=
  (((s.saStart_frame n).append ((State.saPut_frame _ _ _ _).trans (State.saPut_frame _ _ _ _))).mono (by decide)).trans
    ((CounterStep.saRekey n _).frame.trans (CounterStep.saSpent n _).frame)

theorem State.sa_saActive_self :
    (s.saActive n).sa n = putPart (putPart (startEntry (s.sa n) (s.saMark n)) Sa.challenge 0) Sa.state Sas.active := by
  rw [State.saActive, State.saPut, State.sa_setSa_self, State.saPut, State.sa_setSa_self, State.saStart_sa_self]

theorem State.sa_saActivated_ne {k : Nat} (h : k ≠ n) : (s.saActivated n).sa k = s.sa k := by
  rw [State.saActivated, (CounterStep.saSpent n _).others k h, (CounterStep.saRekey n _).others k h, State.saActive,
    State.sa_saPut_ne _ h, State.sa_saPut_ne _ h, State.saStart_sa_ne _ _ h]

/-- What the counter brings leaves the parts that ACTIVATE sets. -/
theorem State.saActivated_kept : SaKept n (s.saActive n) (s.saActivated n) :=
  (SaKept.saRekey _ n).trans (SaKept.saSpent _ n)

/-- Between STATE and CHALLENGE, an activated SA has the bits of the entry it started with. -/
theorem State.getBits_saActivated {lo k : Nat} (hl : 64 ≤ lo)
    (hk : lo + k ≤ 576 ∨ 640 ≤ lo ∧ lo + k ≤ 1264 ∨ 1280 ≤ lo ∧ lo + k ≤ 1984) :
    getBits ((s.saActivated n).sa n) lo k = getBits (startEntry (s.sa n) (s.saMark n)) lo k := by
  rw [(s.saActivated_kept n).bits lo k hl (by omega), s.sa_saActive_self]
  exact (getBits_putBits_disjoint (.inr (show 8 * 0 + 8 * 1 ≤ lo by omega)) _ _).trans
    (getBits_putBits_disjoint (.inl (show lo + k ≤ 8 * 248 by omega)) _ _)

theorem State.challenge_saActivated : (s.saActivated n).saGet n Sa.challenge = 0 := by
  refine ((s.saActivated_kept n).bits (8 * 248) (8 * 8) (by decide) (by decide)).trans ?_
  show (s.saActive n).saGet n Sa.challenge = 0
  rw [State.saGet, s.sa_saActive_self, getPart_putPart_disjoint (by decide), getPart_putPart_self (by decide)]
  rfl

theorem State.txCounter_saActive (h : s.saMark n < 2 ^ 64) :
    (s.saActive n).saGet n Sa.txCounter = max (s.saGet n Sa.txCounter) (s.saMark n) := by
  rw [State.saGet, s.sa_saActive_self, getPart_putPart_disjoint (by decide), getPart_putPart_disjoint (by decide),
    txCounter_startEntry _ _ h]
  rfl

theorem State.txCounter_saActivated (h : s.saMark n < 2 ^ 64) :
    (s.saActivated n).saGet n Sa.txCounter = max (s.saGet n Sa.txCounter) (s.saMark n) := by
  rw [State.saActivated, (CounterStep.saSpent n _).counter, (CounterStep.saRekey n _).counter, s.txCounter_saActive n h]

/-- ACTIVATE makes an SA ACTIVE, or EXHAUSTED at once where its counter starts at 2^62 or more (R466). -/
theorem State.saState_saActivated (h : s.saMark n < 2 ^ 64) : (s.saActivated n).saState n =
    if 2 ^ 62 ≤ max (s.saGet n Sa.txCounter) (s.saMark n) then Sas.exhausted else Sas.active := by
  have active : (s.saActive n).saState n = Sas.active := State.saGet_saPut_self _ (p := Sa.state) (by decide) n _
  rw [State.saActivated, State.saState_saSpent ((State.saState_saRekey _ n).trans active), (CounterStep.saRekey n _).counter,
    s.txCounter_saActive n h]

end

/-! ### SA_SYNC requests (R151, R154, R157) -/

/-- An SA_SYNC request as a packet of its subtype is sent. -/
def SyncReq.noted (k now path : Nat) (r : SyncReq) : SyncReq :=
  if r.subtype = k then { r with sentAt := now, path := path } else r

/-- A request that has just been recorded for a path stays as it is when its packet leaves on that path. -/
theorem SyncReq.noted_same (k : Nat) (r : SyncReq) : r.noted k r.sentAt r.path = r := by
  unfold SyncReq.noted
  split <;> rfl

section
variable (s : State) (sa path id : Nat) (payload : List Byte)

/-- An SA_SYNC packet notes its request's time and path where it is sent, and nothing where it waits. -/
theorem State.sync_sendControl : ((s.sendControl sa path .saSync id payload).aux sa).sync = (s.aux sa).sync ∨
    ((s.sendControl sa path .saSync id payload).aux sa).sync =
      (s.aux sa).sync.map (SyncReq.noted (beAt payload 0 1) s.now path) := by
  rw [State.sendControl_eq]
  rcases s.sendPkt_cases (s.controlPkt sa path .saSync id payload) with e | e | e <;> rw [e]
  · exact .inl rfl
  · exact .inl rfl
  · obtain ⟨x, trn⟩ := (s.transmit_law _ (s.controlPkt_flags sa path .saSync id payload)).2.1
    right
    rw [State.aux, trn]
    exact congrArg SaAux.sync (Tab.getD_put_self sa auxDefault _ s.trn.aux)

variable (r : SyncReq)

theorem State.sync_setSync : ((s.setSync sa r).aux sa).sync = (s.aux sa).sync.filter (fun x => x.subtype != r.subtype) ++ [r] :=
  congrArg SaAux.sync (s.aux_modAux_self sa _)

theorem State.setSync_frame : Frame [.trn] s (s.setSync sa r) := s.modAux_frame sa _

/-- Payload of an SA_SYNC request. -/
def State.requestPayload : List Byte := syncPayload r.subtype (if r.subtype = 1 then s.saGet sa Sa.challenge else 0) 0 0 r.newSa

theorem State.sendSync_eq :
    s.sendSync sa r = (s.setSync sa r).sendControl sa r.path .saSync 0 (s.requestPayload sa r) := rfl

theorem State.sendSync_frame : Frame sendFields s (s.sendSync sa r) :=
  ((s.setSync_frame sa r).mono (by decide)).trans (State.sendControl_frame _ _ _ _ _ _)

theorem SaKept.sendSync : SaKept sa s (s.sendSync sa r) :=
  SaKept.trans (t := s.setSync sa r) (SaKept.of_sa rfl)
    (SaKept.sendControl (s.setSync sa r) sa r.path .saSync 0 (s.requestPayload sa r))

variable {s sa r}

/-- A request sent now is outstanding as it was recorded. -/
theorem State.mem_sync_sendSync (h : r.sentAt = s.now) : r ∈ ((s.sendSync sa r).aux sa).sync := by
  have recorded : r ∈ ((s.setSync sa r).aux sa).sync := by simp [State.sync_setSync]
  rw [State.sendSync_eq]
  rcases State.sync_sendControl (s.setSync sa r) sa r.path 0 (s.requestPayload sa r) with e | e <;> rw [e]
  · exact recorded
  · exact List.mem_map.2 ⟨r, recorded, h ▸ r.noted_same _⟩

/-- A request that replaces all that were outstanding is the only one. -/
theorem State.sync_sendSync_only (h : r.sentAt = s.now) (hf : (s.aux sa).sync.filter (fun x => x.subtype != r.subtype) = []) :
    ((s.sendSync sa r).aux sa).sync = [r] := by
  have recorded : ((s.setSync sa r).aux sa).sync = [r] := by rw [State.sync_setSync, hf, List.nil_append]
  have same : r.noted (beAt (s.requestPayload sa r) 0 1) (s.setSync sa r).now r.path = r := h ▸ r.noted_same _
  rw [State.sendSync_eq]
  rcases State.sync_sendControl (s.setSync sa r) sa r.path 0 (s.requestPayload sa r) with e | e <;> rw [e, recorded]
  rw [List.map_singleton, same]

end

section
variable (s : State) (sa : Nat)

theorem SaKept.rotate (used : Nat) : SaKept sa s (s.rotate sa used) := by
  unfold State.rotate
  split
  · exact SaKept.saPut s sa Sa.rotate _ (by decide) (.inr (.inr (by decide)))
  · exact SaKept.of_sa rfl

theorem State.rotate_frame (used : Nat) : Frame [.trn] s (s.rotate sa used) := by
  unfold State.rotate
  split
  · exact s.saPut_frame _ _ _
  · exact Frame.refl _ s

theorem State.rotate_aux (used : Nat) : (s.rotate sa used).aux sa = s.aux sa := by
  unfold State.rotate
  split <;> rfl

/-- A request that begins is outstanding from now, alone where none was. -/
theorem State.startSync_law (sub new : Nat) : SaKept sa s (s.startSync sa sub new) ∧
    Frame sendFields s (s.startSync sa sub new) ∧
    ∃ p, ⟨sub, new, s.now, s.initRetry, p⟩ ∈ ((s.startSync sa sub new).aux sa).sync ∧
      ((s.aux sa).sync = [] → ((s.startSync sa sub new).aux sa).sync = [⟨sub, new, s.now, s.initRetry, p⟩]) := by
  unfold State.startSync
  split
  · next p _ =>
    have now := (s.rotate_frame sa p).now_eq
    refine ⟨(SaKept.rotate s sa p).trans (SaKept.sendSync _ sa _),
      ((s.rotate_frame sa p).mono (by decide)).trans (State.sendSync_frame _ sa _), p, State.mem_sync_sendSync now.symm,
      fun h => State.sync_sendSync_only now.symm ?_⟩
    rw [State.rotate_aux, h]
    rfl
  · refine ⟨SaKept.of_sa rfl, (s.setSync_frame sa _).mono (by decide), 0, ?_, fun h => ?_⟩ <;> rw [State.sync_setSync]
    · exact List.mem_append_right _ (List.mem_singleton_self _)
    · rw [h]
      rfl

end

/-! ### RESUME, SWITCH and the retries (R151, R152, R154, R157) -/

section
variable (s : State) (n : Nat)

/-- An SA that has entered SYNCING. -/
def State.saSyncing : State := ((s.saStart n).saPut n Sa.state Sas.syncing).saRekey n

/-- An SA whose challenge is the next free value (R154). -/
def State.challenged : State :=
  { s with free := s.free + 1 }.saPut n Sa.challenge ((Config.freeValue s.free).toNat % 2 ^ 64)

/-- An SA that has been told to resume. -/
def State.saResumed : State := ((s.saSyncing n).challenged n).startSync n 1 0

theorem State.saSyncing_frame : Frame [.trn, .cip, .regs, .wdn] s (s.saSyncing n) :=
  (((s.saStart_frame n).append (State.saPut_frame _ _ _ _)).mono (by decide)).trans (CounterStep.saRekey n _).frame

theorem State.saState_saSyncing : (s.saSyncing n).saState n = Sas.syncing :=
  (State.saState_saRekey _ n).trans (State.saGet_saPut_self _ (p := Sa.state) (by decide) n _)

theorem State.sync_saSyncing : ((s.saSyncing n).aux n).sync = [] := by
  obtain ⟨x, trn⟩ := (CounterStep.saRekey n ((s.saStart n).saPut n Sa.state Sas.syncing)).trn
  have aux : (s.saSyncing n).trn.aux = (s.saStart n).trn.aux := (congrArg Trn.aux trn).trans rfl
  exact (congrArg SaAux.sync (State.aux_congr aux n)).trans (s.saStart_sync n)

/-- The notice that a new key is due leaves every other register than the transport's status. -/
theorem State.word_saRekey {a : Nat} (h : F.TRN_STATUS_REKEY_DUE.addr ≠ a) (s : State) (n : Nat) :
    (s.saRekey n).word a = s.word a :=
  s.when_same _ _ (·.word a) ((s.saPut n Sa.flags (s.saGet n Sa.flags ||| 4)).word_flag_ne h)

theorem State.initRetry_saSyncing : (s.saSyncing n).initRetry = s.initRetry := by
  have word : (s.saSyncing n).word F.TRN_INIT_RETRY_INTERVAL.addr = s.word F.TRN_INIT_RETRY_INTERVAL.addr := by
    exact (State.word_saRekey (by decide) _ n).trans (State.word_congr (s.saStart_frame n).regs_eq _)
  rw [State.initRetry, State.initRetry, State.fld, State.fld, word]

theorem State.saState_challenged : (s.challenged n).saState n = s.saState n :=
  State.saGet_saPut_apart { s with free := s.free + 1 } (p := Sa.challenge) (q := Sa.state) (by decide) n _

theorem State.challenge_challenged :
    (s.challenged n).saGet n Sa.challenge = (Config.freeValue s.free).toNat % 2 ^ 64 :=
  (State.saGet_saPut_self _ (p := Sa.challenge) (by decide) n _).trans (Nat.mod_mod _ _)

theorem State.saResumed_frame : Frame (.free :: sendFields) s (s.saResumed n) := by
  obtain ⟨-, sync, -⟩ := ((s.saSyncing n).challenged n).startSync_law n 1 0
  have drawn : Frame [.free, .trn] (s.saSyncing n) ((s.saSyncing n).challenged n) := fun b hb => by
    cases b
    case free | trn => exact absurd (by decide) hb
    all_goals rfl
  exact (((s.saSyncing_frame n).mono (by decide)).trans (drawn.mono (by decide))).trans (sync.mono (by decide))

theorem State.free_saResumed : (s.saResumed n).free = s.free + 1 := by
  obtain ⟨-, sync, -⟩ := ((s.saSyncing n).challenged n).startSync_law n 1 0
  exact sync.free_eq.trans (congrArg (· + 1) (s.saSyncing_frame n).free_eq)

/-- RESUME leaves the SA in SYNCING with its fresh challenge, whether its packet is sent or waits. -/
theorem State.saResumed_entry : (s.saResumed n).saState n = Sas.syncing ∧
    (s.saResumed n).saGet n Sa.challenge = (Config.freeValue s.free).toNat % 2 ^ 64 := by
  obtain ⟨kept, -, -⟩ := ((s.saSyncing n).challenged n).startSync_law n 1 0
  have state := (State.saState_challenged (s.saSyncing n) n).trans (s.saState_saSyncing n)
  refine ⟨?_, ?_⟩
  · rcases kept.state with e | ⟨active, -⟩
    · exact e.trans state
    · exact absurd (state.symm.trans active) (by decide)
  · refine (kept.bits (8 * 248) (8 * 8) (by decide) (by decide)).trans ?_
    refine (State.challenge_challenged _ n).trans ?_
    rw [(s.saSyncing_frame n).free_eq]

/-- RESUME's request is the only one outstanding. -/
theorem State.sync_saResumed : ∃ p, ((s.saResumed n).aux n).sync = [⟨1, 0, s.now, s.initRetry, p⟩] := by
  obtain ⟨-, -, p, -, only⟩ := ((s.saSyncing n).challenged n).startSync_law n 1 0
  have now : ((s.saSyncing n).challenged n).now = s.now := (s.saSyncing_frame n).now_eq
  have retry : ((s.saSyncing n).challenged n).initRetry = s.initRetry := s.initRetry_saSyncing n
  rw [now, retry] at only
  exact ⟨p, only (s.sync_saSyncing n)⟩

variable {s}

theorem State.saResume_keyed (hi : s.saState s.saSel = Sas.invalid) (hk : s.saKeyed s.saSel = true) :
    s.saResume = s.saResumed s.saSel := by
  simp only [State.saResume, hi, hk, and_self, if_true]
  rfl

variable {n}

theorem State.saSwitch_active (h : s.saState s.saSel = Sas.active) (hn : n ≠ s.saSel) (hs : s.saState n = Sas.active) :
    s.saSwitch n = s.startSync s.saSel 3 n := by simp [State.saSwitch, h, hn, hs]

/-- An SA_SYNC request as it is sent once more, on a path. -/
def SyncReq.again (r : SyncReq) (now path : Nat) : SyncReq :=
  { r with sentAt := now, interval := min 64000000 (2 * r.interval), path := path }

/-- SA_SYNC_RETRY of the only request of an SA that sends. -/
theorem State.syncRetry_due {r : SyncReq} {q : Nat} (hr : (s.aux n).sync = [r]) (hd : r.sentAt + r.interval ≤ s.now)
    (hq : choosePath (s.sa n) r.path false = some q) (hs : s.saSends n) :
    s.syncRetry n = s.sendSync n (r.again s.now q) := by
  have enabled := hs.1
  have valid := hs.2.1
  simp [State.syncRetry, hr, hd, State.parked_none hs, enabled, valid, hq, SyncReq.again]

/-- An SA_SYNC request of an SA that sends takes its next counter. -/
theorem State.txCounter_sendSync (hs : s.saSends n) (r : SyncReq) :
    (s.sendSync n r).saGet n Sa.txCounter = s.saGet n Sa.txCounter + 1 := by
  have stopped : ((s.setSync n r).aux n).stopped = (s.aux n).stopped :=
    (congrArg SaAux.stopped (s.aux_modAux_self n _)).trans rfl
  have ready : (s.setSync n r).saSends n := State.saSends_congr hs rfl rfl stopped rfl rfl
  exact (State.sendControl_law r.path .saSync 0 (s.requestPayload n r) ready).2.2.1

end

/-! ### A write of TRN_SA_WORD (R122, R123, R181) -/

section
variable (e : BitVec 2048) (w : Nat) (v : Word)

/-- An entry with a word written, but for STATE. -/
def wordWritten : BitVec 2048 := putPart (putBytes e (4 * w) 4 v.toNat) Sa.state (getPart e Sa.state)

theorem state_wordWritten : getPart (wordWritten e w v) Sa.state = getPart e Sa.state :=
  (getPart_putPart_self (p := Sa.state) (by decide) _ _).trans (Nat.mod_eq_of_lt (getBits_lt _ _ _))

/-- Behind its word 0, STATE is not met by a write. -/
theorem wordWritten_high (h : w ≠ 0) : wordWritten e w v = putBytes e (4 * w) 4 v.toNat := by
  have same : getPart (putBytes e (4 * w) 4 v.toNat) Sa.state = getPart e Sa.state :=
    getBits_putBits_disjoint (.inl (show 8 * 0 + 8 * 1 ≤ 8 * (4 * w) by omega)) _ _
  rw [wordWritten, ← same]
  exact putBits_getBits _ _ _

theorem getBits_wordWritten_ne {k : Nat} (h : k ≠ w) : getBits (wordWritten e w v) (32 * k) 32 = getBits e (32 * k) 32 := by
  have other : getBits (putBytes e (4 * w) 4 v.toNat) (32 * k) 32 = getBits e (32 * k) 32 :=
    getBits_putBits_disjoint (by omega) _ _
  by_cases hw : w = 0
  · exact (getBits_putBits_disjoint (.inr (show 8 * 0 + 8 * 1 ≤ 32 * k by omega)) _ _).trans other
  · rw [wordWritten_high e w v hw, other]

/-- A written word reads as written. -/
theorem getBits_putBytes_word (h : w < 64) : getBits (putBytes e (4 * w) 4 v.toNat) (32 * w) 32 = v.toNat := by
  have put := getBits_putBits_self (show 8 * (4 * w) + 8 * 4 ≤ 2048 by omega) e v.toNat
  rw [Nat.mod_eq_of_lt v.isLt, show 8 * (4 * w) = 32 * w by omega] at put
  rwa [putBytes, show 8 * (4 * w) = 32 * w by omega]

/-- The upper bytes of a field read as the upper bytes of what was put. -/
theorem getBits_putBits_upper : getBits (putBits e 0 32 v.toNat) 8 24 = v.toNat / 256 := by
  have low := v.isLt
  apply Nat.eq_of_testBit_eq
  intro i
  rw [getBits_testBit, putBits_getLsbD, show v.toNat / 256 = v.toNat >>> 8 from (Nat.shiftRight_eq_div_pow _ 8).symm,
    Nat.testBit_shiftRight]
  by_cases hi : i < 24
  · rw [if_pos (by omega)]
    simp [hi, show 8 + i < 2048 by omega]
  · have out : v.toNat.testBit (8 + i) = false :=
      Nat.testBit_lt_two_pow (Nat.lt_of_lt_of_le low (Nat.pow_le_pow_right (by decide) (by omega)))
    simp [hi, out]

/-- A written word reads as written, but for STATE. -/
theorem getBits_wordWritten_self (h : w < 64) :
    getBits (wordWritten e w v) (if w = 0 then 8 else 32 * w) (if w = 0 then 24 else 32) =
    if w = 0 then v.toNat / 256 else v.toNat := by
  by_cases hw : w = 0
  · subst hw
    exact (getBits_putBits_disjoint (.inr (by decide)) _ _).trans (getBits_putBits_upper e v)
  · simp only [hw, if_false, wordWritten_high e w v hw, getBits_putBytes_word e w v h]

/-- A write of the path words reads as written: the PATH_STATEs that follow it lie behind them. -/
theorem getBits_pathWrite (h : 12 ≤ w) (h' : w < 16) : getBits (pathWrite e w v) (32 * w) 32 = v.toNat := by
  unfold pathWrite
  refine List.foldlRecOn (motive := fun x : BitVec 2048 => getBits x (32 * w) 32 = v.toNat) (List.range 4) _
    (getBits_putBytes_word e w v (by omega)) fun x hx k hk => ?_
  have path : 4 * (w - 12) + k < 16 := by have := List.mem_range.1 hk; omega
  have follow : ∀ u, getBits (setPathState x (4 * (w - 12) + k) u) (32 * w) 32 = v.toNat := fun u =>
    (getBits_setPathState x u path (.inl (by omega))).trans hx
  dsimp only
  split
  · split
    · exact hx
    · exact follow 0
  · exact follow 3

end

section
variable (s : State)

theorem State.pantryClean_frame (c o n : Nat) : Frame [.hst] s (s.pantryClean c o n) := s.onHst_frame _

theorem State.halfWrite_frame (c o : Nat) : Frame [.hst] s (s.halfWrite c o) := by
  unfold State.halfWrite
  dsimp only
  exact Frame.ite (s.onHst_frame _) ((Frame.when _ (s.pantryClean_frame _ _ _)).trans (State.onHst_frame _ _))

/-- A word of the selected SA's entry has been written. -/
def State.wordStored (n : Nat) (e : BitVec 2048) : State := (s.setSa s.saSel e).halfWrite 0x05 (256 * s.saSel + 4 * n)

theorem State.wordStored_frame (n : Nat) (e : BitVec 2048) : Frame [.trn, .hst] s (s.wordStored n e) :=
  (s.setSa_frame _ e).append (State.halfWrite_frame _ _ _)

theorem State.sa_wordStored_self (n : Nat) (e : BitVec 2048) : (s.wordStored n e).sa s.saSel = e :=
  (State.sa_congr (congrArg Trn.sa (State.halfWrite_frame _ _ _).trn_eq) _).trans (s.sa_setSa_self _ e)

theorem State.sa_wordStored_ne (n : Nat) (e : BitVec 2048) {k : Nat} (h : k ≠ s.saSel) : (s.wordStored n e).sa k = s.sa k :=
  (State.sa_congr (congrArg Trn.sa (State.halfWrite_frame _ _ _).trn_eq) k).trans (s.sa_setSa_ne h e)

variable {s} {n : Nat} (v : Word)

theorem State.saWrite_none (h : s.entryExists 0x05 s.saSel = false) : s.saWrite n v = s.bump A.TRN_NO_SA := by
  simp [State.saWrite, h]

/-- Every word of an INVALID SA is written, but for STATE (R181). -/
theorem State.saWrite_invalid (h : s.entryExists 0x05 s.saSel = true) (hi : s.saState s.saSel = Sas.invalid) :
    s.saWrite n v = s.wordStored n (wordWritten (s.sa s.saSel) n v) := by
  simp only [State.saWrite, h, hi, State.saWordWrite, decide_true, Bool.true_or, State.when, if_true]
  rfl

section
variable (h : s.entryExists 0x05 s.saSel = true) (hi : s.saState s.saSel ≠ Sas.invalid)
include h hi

/-- Of another SA, only the path words are written (R181). -/
theorem State.saWrite_fixed (hn : n < 12 ∨ 16 ≤ n) : s.saWrite n v = s := by
  have word : ¬ (12 ≤ n ∧ n < 16) := by omega
  have lets : (decide (12 ≤ n) && decide (n < 16)) = false := by simpa using word
  simp only [State.saWrite, h, hi, State.saWordWrite, decide_false, Bool.false_or, State.when, if_true, if_false, word, lets,
    Bool.false_eq_true]

theorem State.saWrite_path (hn : 12 ≤ n) (hn' : n < 16) : s.saWrite n v = s.wordStored n (pathWrite (s.sa s.saSel) n v) := by
  simp only [State.saWrite, h, hi, State.saWordWrite, decide_false, Bool.false_or, State.when, if_true, if_false, hn, hn',
    and_self, decide_true, Bool.and_self]
  rfl

end

end

/-! ### An SA becomes INVALID (R146, R149, R214) -/

section
variable (s : State) (sa : Nat)

theorem State.pullSa_frame : Frame [.mac] s (s.pullSa sa) := Frame.each (fun s n => s.modSp_frame n _) _ s

/-- An SA that ends a SYNCING has been told to be done with it. -/
def State.syncTold : State := s.when (s.saState sa == Sas.syncing) fun s => s.flag F.TRN_STATUS_SYNC_DONE

/-- An SA that is INVALID, with nothing of it received or waiting to be sent. -/
def State.saEnded : State := (((s.syncTold sa).pullSa sa).saPut sa Sa.state Sas.invalid).onTrn fun t => { t with
  blocked := t.blocked.filter fun b => b.sa != sa
  rx := t.rx.filter fun m => m.sa != sa }

/-- The messages of an SA that has ended have failed. -/
def State.saFailed : State := (s.saEnded sa).each ((s.saEnded sa).trn.tx.filter fun m => m.sa == sa) fun s m =>
  if (s.tx? m.key).isSome then s.msgFail m m.failStatus else s

/-- Nothing of an SA is left but its entry. -/
def State.saCleared : State :=
  ((s.saFailed sa).onTrn fun t => { t with held := t.held.filter fun h => h.sa != sa }).modAux sa fun _ => auxDefault

theorem State.syncTold_frame : Frame [.regs] s (s.syncTold sa) := Frame.when _ (State.flag_frame _ _)

theorem State.pulled_trn : ((s.syncTold sa).pullSa sa).trn = s.trn :=
  (State.pullSa_frame _ sa).trn_eq.trans (s.syncTold_frame sa).trn_eq

/-- The transport's block as an SA ends, its messages apart. -/
theorem State.saEnded_trn : (s.saEnded sa).trn = { (s.saPut sa Sa.state Sas.invalid).trn with
    blocked := s.trn.blocked.filter fun b => b.sa != sa
    rx := s.trn.rx.filter fun m => m.sa != sa } := by
  unfold State.saEnded State.saPut State.setSa State.sa
  simp only [State.onTrn_trn, s.pulled_trn sa]

theorem State.saEnded_frame : Frame [.trn, .regs, .mac] s (s.saEnded sa) :=
  (((s.syncTold_frame sa).append (State.pullSa_frame _ sa)).append ((State.saPut_frame _ _ _ _).trans
    (State.onTrn_frame _ _))).mono (by decide)

variable {s sa}

/-- An SA in another state than SYNCING sets no status as it ends. -/
theorem State.saEnded_quiet_frame (h : s.saState sa ≠ Sas.syncing) : Frame [.trn, .mac] s (s.saEnded sa) := by
  have told : s.syncTold sa = s := by simp [State.syncTold, State.when, h]
  unfold State.saEnded
  rw [told]
  exact ((s.pullSa_frame sa).append ((State.saPut_frame _ _ _ _).trans (State.onTrn_frame _ _))).mono (by decide)

theorem State.saFailed_none (h : ∀ m ∈ s.trn.tx, m.sa ≠ sa) : s.saFailed sa = s.saEnded sa := by
  have none : ((s.saEnded sa).trn.tx.filter fun m => m.sa == sa) = [] := by
    rw [s.saEnded_trn sa]
    exact List.filter_eq_nil_iff.2 fun m hm => by simpa using h m hm
  rw [State.saFailed, none]
  rfl

/-- With no message held and no COMMIT placement, an SA's end is the failing of its messages. -/
theorem State.invalidate_unheld (hh : ∀ h ∈ (s.saFailed sa).trn.held, h.sa ≠ sa)
    (hw : ∀ h ∈ (s.saFailed sa).win.held, h.sa ≠ sa) : s.invalidate sa = s.saCleared sa := by
  have held : ((s.saFailed sa).trn.held.filter fun h => h.sa == sa) = [] :=
    List.filter_eq_nil_iff.2 fun h hm => by simpa using hh h hm
  have commits : ((s.saFailed sa).win.held.filter fun h => h.sa == sa && !h.writing) = [] :=
    List.filter_eq_nil_iff.2 fun h hm => by simp [hw h hm]
  unfold State.invalidate
  extract_lets told pulled ended failed waiting unheld
  have none : waiting = [] := held
  have left : unheld = (s.saFailed sa).onTrn fun t => { t with held := t.held.filter fun h => h.sa != sa } := by
    simp only [unheld, none, State.each, List.foldl_nil]
    rfl
  have discarded : (unheld.win.held.filter fun h => h.sa == sa && !h.writing) = [] := by rw [left]; exact commits
  rw [discarded, left]
  rfl

theorem State.saCleared_frame : Frame [.trn] (s.saFailed sa) (s.saCleared sa) :=
  (State.onTrn_frame _ _).trans (State.modAux_frame _ _ _)

theorem State.aux_saCleared : (s.saCleared sa).aux sa = auxDefault :=
  State.aux_modAux_self ((s.saFailed sa).onTrn fun t => { t with held := t.held.filter fun h => h.sa != sa }) sa
    fun _ => auxDefault

/-- Beside the messages held and the SA's times, the transport's block is as the SA's messages have left it. -/
theorem State.saCleared_trn : ∃ a, (s.saCleared sa).trn =
    { (s.saFailed sa).trn with held := (s.saFailed sa).trn.held.filter (fun h => h.sa != sa), aux := a } := by
  unfold State.saCleared
  generalize s.saFailed sa = u
  exact ⟨_, rfl⟩

/-- An SA with nothing of it under way has its STATE alone changed in the SA table. -/
theorem State.saCleared_table (h : ∀ m ∈ s.trn.tx, m.sa ≠ sa) :
    (s.saCleared sa).trn.sa = (s.saPut sa Sa.state Sas.invalid).trn.sa := by
  obtain ⟨a, trn⟩ := s.saCleared_trn (sa := sa)
  rw [State.saFailed_none h, s.saEnded_trn] at trn
  exact (congrArg Trn.sa trn).trans rfl

theorem State.saState_saPut_invalid (s : State) (sa : Nat) : (s.saPut sa Sa.state Sas.invalid).saState sa = Sas.invalid :=
  s.saGet_saPut_self (p := Sa.state) (by decide) sa Sas.invalid

/-- An SA with nothing of it under way ends at once. -/
theorem State.invalidate_quiet (htx : ∀ m ∈ s.trn.tx, m.sa ≠ sa) (hh : ∀ h ∈ s.trn.held, h.sa ≠ sa)
    (hw : ∀ h ∈ s.win.held, h.sa ≠ sa) : s.invalidate sa = s.saCleared sa := by
  refine State.invalidate_unheld ?_ ?_ <;> rw [State.saFailed_none htx]
  · rw [s.saEnded_trn sa]
    exact hh
  · rw [(s.saEnded_frame sa).win_eq]
    exact hw

/-- With no message of an SA held, what is held stays. -/
theorem filter_held_of_none {l : List HeldMsg} (h : ∀ x ∈ l, x.sa ≠ sa) : (l.filter fun x => x.sa != sa) = l :=
  List.filter_eq_self.2 fun x hx => by simpa using h x hx

/-- The end of an SA fails its only message. -/
theorem State.saFailed_one {m : TxMsg} (htx : s.trn.tx = [m]) (hm : m.sa = sa) :
    s.saFailed sa = (s.saEnded sa).msgFail m m.failStatus := by
  have tx : (s.saEnded sa).trn.tx = [m] := by
    rw [s.saEnded_trn sa]
    exact htx
  have found : ((s.saEnded sa).tx? m.key).isSome = true := by simp [State.tx?, tx]
  have only : ((s.saEnded sa).trn.tx.filter fun m => m.sa == sa) = [m] := by simp [tx, hm]
  rw [State.saFailed, only]
  show (if ((s.saEnded sa).tx? m.key).isSome then _ else _) = _
  rw [if_pos found]

theorem State.endReply_held (s : State) (m : TxMsg) : (s.endReply m).win.held = s.win.held := by
  unfold State.endReply
  split <;> rfl

/-- A failed FETCH_REPLY ends its access and frees its entry, and leaves what is held and the queue of commands. -/
theorem State.msgFail_reply {m : TxMsg} {a : Nat} (hu : m.use = .fetchReply a) (s : State) (status : Nat) :
    (s.msgFail m status).trn = (s.dropTx m.key).trn ∧ (s.msgFail m status).win.held = s.win.held ∧
      (s.msgFail m status).pending = s.pending := by
  refine ⟨State.msgFail_trn (by simp [hu]) (by simp [hu]) (by simp [hu]) s status, ?_, ?_⟩ <;> rw [State.msgFail_eq, hu]
  · exact (State.endReply_held _ m).trans (congrArg Win.held (State.tallyFlag_frame (s.failNoted m) _ _ _ _).win_eq)
  · exact (s.failTold_frame m status).pending_eq

section
variable {m : TxMsg} {a : Nat} (htx : s.trn.tx = [m]) (hm : m.sa = sa) (hu : m.use = .fetchReply a)
include htx hm hu

/-- An SA whose only message is a FETCH_REPLY, with nothing held, ends with that message. -/
theorem State.invalidate_reply (hh : s.trn.held = []) (hw : s.win.held = []) : s.invalidate sa = s.saCleared sa := by
  obtain ⟨trn, commits, -⟩ := State.msgFail_reply hu (s.saEnded sa) m.failStatus
  refine State.invalidate_unheld ?_ ?_ <;> rw [State.saFailed_one htx hm]
  · rw [trn, State.dropTx, State.onTrn_trn, s.saEnded_trn]
    exact fun h hm => absurd (hh ▸ hm : h ∈ []) List.not_mem_nil
  · rw [commits, (s.saEnded_frame sa).win_eq, hw]
    exact fun h hm => absurd hm List.not_mem_nil

theorem State.saCleared_reply : (s.saCleared sa).saState sa = Sas.invalid ∧ (s.saCleared sa).trn.tx = [] ∧
    (s.saCleared sa).is F.TRN_STATUS_MSG_FAILED = true ∧ (s.saCleared sa).pending = s.pending := by
  obtain ⟨trn, -, pending⟩ := State.msgFail_reply hu (s.saEnded sa) m.failStatus
  obtain ⟨x, cleared⟩ := s.saCleared_trn (sa := sa)
  rw [State.saFailed_one htx hm, trn, State.dropTx, State.onTrn_trn, s.saEnded_trn] at cleared
  refine ⟨?_, ?_, ?_, ?_⟩
  · exact (State.saGet_congr ((congrArg Trn.sa cleared).trans rfl) sa _).trans (s.saState_saPut_invalid sa)
  · rw [cleared]
    show s.trn.tx.filter (fun x => x.key != m.key) = []
    simp [htx]
  · rw [State.is_congr s.saCleared_frame.regs_eq, State.saFailed_one htx hm]
    exact State.is_msgFail _ m _
  · rw [s.saCleared_frame.pending_eq, State.saFailed_one htx hm, pending, (s.saEnded_frame sa).pending_eq]

end

end

/-! ### The rows that end an SA -/

/-- DRAINING_EXPIRY of an SA that has drained for 2 s. -/
theorem State.drainExpiry_due {s : State} {sa : Nat} (h : s.saState sa = Sas.draining)
    (hd : (s.aux sa).drainAt + 2000000000 ≤ s.now) :
    s.drainExpiry sa = (s.invalidate sa).event (.saDrained sa) := by
  simp [State.drainExpiry, h, hd]

end Sys2Proof.Machine
end

section
/-!
SUPPORT. Packets that cut-through holds back (04_breren_transport.md R158, 10_read_service.md R448): where SEND_PACKET sends
nothing although R158 gives a path.
-/

namespace Sys2Proof.Machine

-- Proofs in sequence: the stack of every thread that waits counts against the memory limit of the check.
set_option Elab.async false

/-! ### A packet whose path is not open to it -/

section
variable {s : State} {m : TxMsg} {key p : Nat}

/-- Where no packet of an SA waits for its mark, none is released. -/
theorem State.releaseBlocked_none {sa : Nat} (h : (s.trn.blocked.any fun b => b.sa == sa) = false) (n : Nat) :
    s.releaseBlocked sa n = s := by
  have none : (s.trn.blocked.find? fun b => b.sa == sa && s.counterAllows b) = none := by
    simp only [List.any_eq_false, beq_iff_eq] at h
    simp only [List.find?_eq_none, Bool.and_eq_true, beq_iff_eq, not_and]
    exact fun b hb e => absurd e (h b hb)
  cases n with
  | zero => rfl
  | succ n => simp only [State.releaseBlocked, none]

/-- SEND_PACKET goes on to the next packet of a message, where none of its SA waits for the mark. -/
theorem State.sendRow_eq (h : s.tx? key = some m) (hb : (s.trn.blocked.any fun b => b.sa == m.sa) = false) :
    s.sendRow key = s.sendNext m := by
  simp [State.sendRow, State.with?, h, State.releaseBlocked_none hb]

/-- A packet whose blocks wait for verdicts is not sent on the path R158 gives where that is on a port in preemptable-only mode
(R448). -/
theorem State.sendNext_cut (hg : m.group = false) (hp : s.newPath m.sa = some p)
    (hc : s.cutAllows m m.packets.length p = false) : s.sendNext m = s := by
  simp [State.sendNext, hg, hp, hc, Option.filter]

end

/-! ### A READ by cut-through whose port is in preemptable-only mode -/

/-- A READ of one block. The block stands in the Cellar. -/
def cutSlot : Slot where
  state := .executing
  cap := putPart 0 Cap.blockCount 1
  accepted := 0
  order := 0
  sa := 3
  port := 0
  fua := false
  started := true
  xlate := []
  wait := .running
  status := 0
  result := 0
  service := 0
  fetchNext := 0
  fetches := []
  staging := none
  access := none
  intents := []
  toAdmit := []
  unready := []
  messages := [20]
  blocks := [(0, 0)]
  lines := []
  fails := []
  covers := []
  stopped := false
  timedOut := false

/-- The drive read that brought the block, whose trailer has yet to be judged. -/
def cutRead : PendingRead where
  name := 0
  volume := 0
  line := 0
  blocks := [⟨0, true, none, false⟩]
  registered := 0
  window := 0
  waiters := [0]
  isOpen := false
  fill := none
  stale := false
  buffer := 0
  ext := 0
  around := []
  got := []
  bad := []
  again := []
  opener := 0
  hedged := []
  cut := true

/-- The READ's data message, of which no packet has been sent. -/
def cutMsg : TxMsg where
  key := 20
  sa := 3
  id := 0
  opcode := .place
  commit := false
  group := false
  length := 4096
  wkey := 0
  offset := 0
  use := .readData 0 0
  data := .blocks
  packets := []
  first := none

/-- An ACTIVE SA with one path, UP, on sub-port 0. -/
def cutSa : BitVec 2048 := putBytes (putPart (putPart 0 Sa.state Sas.active) Sa.cwnd 512) 48 1 0x80

/-- A running part whose sub-port 0 is in preemptable-only mode while the READ's message waits to be sent. -/
def cutHeld : State :=
  { State.reset.setFld F.TRN_CTRL_EN 1 with
    glb := { Glb.reset with phase := .running }
    trn := { Trn.reset with sa := [(3, cutSa)], tx := [cutMsg] }
    attic := { Attic.blank with saMarks := [(3, ⟨65536, 0⟩)] }
    cq := { Cq.reset with slots := [(0, cutSlot)] }
    rsv := { Rsv.reset with pending := [cutRead] }
    mac := { Mac.reset with sps := [(0, { spDefault with ctrl := 0x29 })] } }

theorem cutHeld_tx : cutHeld.tx? 20 = some cutMsg := by decide +kernel

theorem cutHeld_maySend : cutHeld.maySend cutMsg = true := by decide +kernel

theorem cutHeld_newPath : cutHeld.newPath cutMsg.sa = some 0 := by decide +kernel

theorem cutHeld_payload : cutHeld.payloadOf cutMsg cutMsg.packets.length = some ([], [(0, 4096)]) := by decide +kernel

theorem cutHeld_cutAllows : cutHeld.cutAllows cutMsg cutMsg.packets.length 0 = false := by decide +kernel

/-- The SA sends at all: what holds the packet back is R448 alone. -/
theorem cutHeld_saSends : cutHeld.saSends cutMsg.sa := by unfold State.saSends; decide +kernel

/-- SEND_PACKET leaves that part as it is. -/
theorem cutHeld_sendPacket : exec (.sendPacket 20) cutHeld = .next cutHeld :=
  State.awake_next (by decide +kernel) ((State.sendRow_eq cutHeld_tx rfl).trans
    (State.sendNext_cut rfl cutHeld_newPath cutHeld_cutAllows)) rfl

end Sys2Proof.Machine
end

section
/-!
The statements about the Breren transport (04_breren_transport.md).
-/

namespace Sys2Proof.Machine

-- Proofs in sequence: the stack of every thread that waits counts against the memory limit of the check.
set_option Elab.async false

/-- Refutes O15 by its clause on SEND_PACKET: a packet whose blocks wait for their verdicts may not leave on a port in
preemptable-only mode (R448), which no premise excludes. In `cutHeld` the path that R158 gives is on such a port, so the row
sends nothing and the SA's counter stays. -/
theorem not_packetSending : ¬ Obligations.PacketSending := by
  unfold Obligations.PacketSending
  rintro ⟨sends, -⟩
  obtain ⟨t, -, row, counter, -⟩ := sends 20 0 cutMsg [] [(0, 4096)] cutHeld rfl cutHeld_tx rfl cutHeld_maySend
    cutHeld_newPath cutHeld_payload cutHeld_saSends
  obtain rfl : cutHeld = t := Host.Outcome.next.inj (cutHeld_sendPacket.symm.trans row)
  omega

/-- Settles O16: a message's end frees its entry, a start takes one, and the receive entries' rows are one law each. -/
theorem messageLife : Obligations.MessageLife := by
  unfold Obligations.MessageLife
  refine ⟨fun key a m s hw hm ha hd => ?aged, fun h n s hw hf he hn => ?starts, fun sa id m s hw hi hf => ?reaped,
    fun sa id a r m s hw hf ha hd hp hv hs => ?acked⟩
  case aged =>
    obtain rfl := State.key_of_tx? hm
    refine ⟨_, State.awake_eq hw (State.msgAge_due hm ha hd), s.tx?_msgFail m _, s.is_msgFail m _, fun hr hc =>
      ⟨State.pair_msgFail hr hc s _, fun k hk hu => State.tx?_msgFail_ne hr hc hu hk s _⟩, fun c k x hu ho hc hx hx' => ?_⟩
    refine ⟨_, State.cmd?_msgFail_fetch hu hc hx hx' _, ?_, rfl⟩
    simp [TxMsg.failStatus, ho]
  case starts =>
    have trn : ((s.unheld h).takeTx n h.msg).trn = ((s.unheld h).entryTaken n h.msg).trn :=
      (State.takeTx_frame _ n h.msg).trn_eq
    have frame : Frame [.trn, .cq] s ((s.unheld h).takeTx n h.msg) :=
      (((s.onTrn_frame _).trans (State.entryTaken_frame _ n h.msg)).append (State.takeTx_frame _ n h.msg)).mono (by decide)
    refine ⟨_, State.awake_next hw (State.heldStart_starts hf he hn) frame.pending_eq, frame.eq_take, ?_, ?_,
      fun hi => ?_, fun hi => ?_⟩
    · rw [trn, State.entryTaken_held]
      rfl
    · rw [trn, State.entryTaken_tx]
      rfl
    · rw [State.saGet_congr (congrArg Trn.sa trn), State.txNextId_entryTaken_new _ _ _ hi]
      rfl
    · rw [State.saGet_congr (congrArg Trn.sa trn), State.txNextId_entryTaken_old _ _ _ hi]
      rfl
  case reaped =>
    have counted : (s.reapCounted m.key).pair A.TRN_REAPED = (s.pair A.TRN_REAPED + 1) % 2 ^ 64 := State.pair_bump_self _ _ _
    cases hr : m.reply with
    | true => exact ⟨_, State.awake_next hw (State.rxReap_reply hf hr) rfl, rfl, counted, rfl, rfl, fun _ _ => rfl⟩
    | false =>
      have reap := State.commitReap_frame (((s.reapCounted m.key).reapNoted sa id).closeId sa id) sa id
      obtain ⟨x, close⟩ := State.closeId_trn ((s.reapCounted m.key).reapNoted sa id) sa id
      have trn := reap.trn_eq.trans close
      have floor := State.reapFloor_reapNoted (s.reapCounted m.key) sa id hi
      refine ⟨_, State.awake_next hw (State.rxReap_message hf hr) ?_, congrArg Trn.rx trn, ?_, ?_,
        (congrArg Trn.tx trn).trans rfl, fun k hk => ?_⟩
      · exact reap.pending_eq.trans (State.closeId_frame _ _ _).pending_eq
      · rw [State.reaped_commitReap, State.pair_congr (State.closeId_frame _ _ _).regs_eq]
        exact counted
      · rw [State.saGet_congr (congrArg Trn.sa reap.trn_eq), State.reapFloor_closeId]
        exact floor
      · rw [State.sa_congr (congrArg Trn.sa reap.trn_eq), State.sa_closeId_ne _ _ _ hk]
        exact State.sa_saPut_ne _ hk _ _
  case acked =>
    obtain rfl : m.sa = sa := by
      have found := List.find?_some hf
      simp only [Bool.and_eq_true, beq_iff_eq] at found
      exact found.1.1
    have ready : (s.ackNoted m.key).saSends m.sa := State.saSends_congr hs rfl rfl rfl rfl rfl
    obtain ⟨sent, ⟨x, trn⟩, counter, others⟩ := State.sendControl_law m.trigPath .ack m.id
      (ackPayload m.marked m.trigIndex m.ce false m.reply) ready
    have frame := (((s.onTrn_frame _).mono (by decide)) : Frame sendFields s (s.ackNoted m.key)).trans sent
    exact ⟨_, State.awake_next hw (State.ackExpiry_due hs.1 hf ha hd hp hv) frame.pending_eq, counter, congrArg Trn.rx trn,
      (congrArg Trn.tx trn).trans rfl, others, frame.eq_take⟩

/-- Settles O17: PROBE_TIMEOUT changes one path's state and test, a probe is one control packet, and the window grows by one
put. -/
theorem pathsAndWindow : Obligations.PathsAndWindow := by
  unfold Obligations.PathsAndWindow
  refine ⟨fun sa w s hw hp hn hg => ?timeout, fun sa w s hw hp hd hs hk => ?down, fun sa w s hw hp hn hg hs hk => ?suspect,
    fun sa w s hw hk => State.awake_next hw (State.downProbe_group hk) rfl, fun sa s hw hi hr hd => ?grows⟩
  case timeout =>
    have frame := s.downTold_frame sa w
    refine ⟨_, State.awake_next hw (State.probeTimeout_due hp hn hg) frame.pending_eq, ?_, s.is_downTold sa w,
      s.timeouts_downTold sa w, fun k _ hk => ?_, fun k hk => s.sa_downTold_ne sa w hk, frame.eq_take⟩
    · rw [s.sa_downTold_self, pathState_setPathState_self _ _ (State.lt_of_pathIs hp)]
    · rw [s.sa_downTold_self, pathState_setPathState_ne _ _ hk]
  case down =>
    obtain ⟨frame, seq, ⟨q, test⟩, counter⟩ := State.sendProbe_law hs hk w
    refine ⟨_, State.awake_next hw (State.downProbe_due hs.1 hp hd) frame.pending_eq, ?_, seq, counter, frame.eq_take⟩
    rw [test, PathTest.probed]
  case suspect =>
    have ready : (s.oneProbe sa w).saSends sa := State.saSends_congr hs rfl rfl rfl rfl rfl
    obtain ⟨probe, -, ⟨q, test⟩, counter⟩ := State.sendProbe_law ready hk w
    have frame : Frame sendFields s ((s.oneProbe sa w).sendProbe sa w) :=
      ((s.setTest_frame _ _ _).mono (by decide)).trans probe
    rw [State.oneProbe, State.pathTest_setTest_self] at test
    refine ⟨_, State.awake_next hw (State.suspectProbe_due hs.1 hp hn hg) frame.pending_eq, ?_, ?_, counter, frame.eq_take⟩
    · rw [State.oneProbe, test, PathTest.probed]
    · rw [State.oneProbe, test, PathTest.probed]
      rfl
  case grows =>
    have frame : Frame [.trn] s (s.cwndGrown sa) := (s.saPut_frame _ _ _).trans (State.modAux_frame _ _ _)
    refine ⟨_, State.awake_next hw (State.cwndGrow_due hi hr hd) rfl, s.cwnd_cwndGrown sa, ?_, fun k hk => ?_, frame.eq_take⟩
    · rw [State.cwndGrown, State.aux_modAux_self]
    · exact s.sa_saPut_ne hk _ _

/-- Settles O18: an SA starts from one entry, its requests are control packets that note their time, a write reaches
the words that R181 names, and its end is what `invalidate` leaves where nothing is held. The refusal's counter is the
model's entry 148. -/
theorem securityAssociations : Obligations.SecurityAssociations := by
  unfold Obligations.SecurityAssociations
  refine ⟨⟨fun p s hb hm hi hk hc => ?activate, fun p s hb hm hi hk => ?resume, fun p n s hb hm ha hn hs => ?switch,
    fun p w v s hb hm hw => ⟨fun he => ?refused, fun he hi => ?anyWord, fun he hi hf => ?fixedWord,
      fun he hi hl hh => ?pathWord⟩⟩,
    fun p s hb hm htx hh hc => ?invalidate, fun p m s hb hm htx hsa hu hh hc => ?fails, fun sa s hw hd ht htx hh hc => ?drained,
    fun sa q r s hw hr hd hq hs => ?retry⟩
  case activate =>
    have frame := s.saActivated_frame s.saSel
    have started : ∀ q : Part, 8 ≤ q.off → q.off + q.len ≤ 72 ∨ 240 ≤ q.off ∧ q.off + q.len ≤ 248 →
        (s.saActivated s.saSel).saGet s.saSel q = getPart (startEntry (s.sa s.saSel) (s.saMark s.saSel)) q :=
      fun q hl hk => s.getBits_saActivated s.saSel (by omega) (by omega)
    refine ⟨_, State.bus_next hb hm (s.saActivate_keyed hi hk) frame.pending_eq, s.saState_saActivated _ hc,
      (started Sa.cwnd (by decide) (by decide)).trans (cwnd_startEntry _ _),
      (started Sa.srtt (by decide) (by decide)).trans (srtt_startEntry _ _),
      (started Sa.rttvar (by decide) (by decide)).trans (rttvar_startEntry _ _), s.challenge_saActivated _,
      s.txCounter_saActivated _ hc, fun w hw => ?_, fun k hk => s.sa_saActivated_ne _ hk, frame.eq_take⟩
    exact (s.getBits_saActivated s.saSel (by omega) (.inl (by omega))).trans (pathState_startEntry _ _ hw)
  case resume =>
    obtain ⟨state, challenge⟩ := s.saResumed_entry s.saSel
    obtain ⟨q, sync⟩ := s.sync_saResumed s.saSel
    exact ⟨_, _, State.bus_next hb hm (State.saResume_keyed hi hk) (s.saResumed_frame s.saSel).pending_eq, state, challenge,
      s.free_saResumed s.saSel, sync, rfl, rfl, rfl⟩
  case switch =>
    obtain ⟨kept, frame, q, mem, -⟩ := s.startSync_law s.saSel 3 n
    refine ⟨_, _, State.bus_next hb hm (State.saSwitch_active ha hn hs) frame.pending_eq, ?_, mem, rfl, rfl, rfl, rfl⟩
    rcases kept.state with e | ⟨-, e⟩ <;> rw [e]
    · rw [ha]
      decide
    · decide
  case refused => exact State.bus_next hb hm ((if_pos hw).trans (State.saWrite_none v he)) rfl
  case anyWord =>
    have frame := s.wordStored_frame w (wordWritten (s.sa s.saSel) w v)
    have entry := s.sa_wordStored_self w (wordWritten (s.sa s.saSel) w v)
    refine ⟨_, State.bus_next hb hm ((if_pos hw).trans (State.saWrite_invalid v he hi)) frame.pending_eq, frame.eq_take, ?_, ?_,
      fun k _ hk => ?_, fun k hk => s.sa_wordStored_ne w _ hk⟩
    · rw [entry, getBits_wordWritten_self _ _ _ hw]
    · rw [State.saState, State.saGet, entry, state_wordWritten]
      exact hi
    · rw [entry, getBits_wordWritten_ne _ _ _ hk]
  case fixedWord => exact State.bus_next hb hm ((if_pos hw).trans (State.saWrite_fixed v he hi hf)) rfl
  case pathWord =>
    have frame := s.wordStored_frame w (pathWrite (s.sa s.saSel) w v)
    refine ⟨_, State.bus_next hb hm ((if_pos hw).trans (State.saWrite_path v he hi hl hh)) frame.pending_eq, frame.eq_take,
      ?_⟩
    rw [s.sa_wordStored_self, getBits_pathWrite _ _ _ hl hh]
  case invalidate =>
    have failed := State.saFailed_none htx
    obtain ⟨a, trn⟩ := s.saCleared_trn (sa := s.saSel)
    rw [failed, s.saEnded_trn] at trn
    have table := State.saCleared_table htx
    have frame : Frame [.trn, .regs, .mac, .hst] s (s.saCleared s.saSel) :=
      ((failed ▸ s.saEnded_frame s.saSel).append s.saCleared_frame).mono (by decide)
    exact ⟨_, State.bus_next hb hm (State.invalidate_quiet htx hh hc) frame.pending_eq, frame.eq_take,
      (State.saGet_congr table _ _).trans (s.saState_saPut_invalid _), (congrArg Trn.rx trn).trans rfl,
      (congrArg Trn.blocked trn).trans rfl, (congrArg Trn.tx trn).trans rfl,
      (congrArg Trn.held trn).trans (filter_held_of_none hh), State.aux_saCleared,
      fun k hk => (State.sa_congr table k).trans (s.sa_saPut_ne hk _ _)⟩
  case fails =>
    obtain ⟨a, hu⟩ := hu
    obtain ⟨state, tx, told, pending⟩ := State.saCleared_reply htx hsa hu
    exact ⟨_, State.bus_next hb hm (State.invalidate_reply htx hsa hu hh hc) pending, state, tx, told⟩
  case drained =>
    have failed := State.saFailed_none htx
    have cleared : Frame [.trn, .mac] s (s.saCleared sa) :=
      ((failed ▸ State.saEnded_quiet_frame (by rw [hd]; decide)).append s.saCleared_frame).mono (by decide)
    have frame : Frame [.trn, .wdn, .mac, .hst] s ((s.saCleared sa).event (.saDrained sa)) :=
      (cleared.append (State.event_frame _ _)).mono (by decide)
    have trn : ((s.saCleared sa).event (.saDrained sa)).trn = (s.saCleared sa).trn := State.event_trn _ _
    have row : s.drainExpiry sa = (s.saCleared sa).event (.saDrained sa) := by
      rw [State.drainExpiry_due hd ht, State.invalidate_quiet htx hh hc]
    refine ⟨_, State.awake_next hw row frame.pending_eq, frame.eq_take, ?_, ?_, ?_⟩
    · rw [State.saState_congr trn]
      exact (State.saGet_congr (State.saCleared_table htx) _ _).trans (s.saState_saPut_invalid _)
    · rw [State.event, cleared.wdn_eq]
    · exact (State.aux_congr (congrArg Trn.aux trn) sa).trans State.aux_saCleared
  case retry =>
    have frame := s.sendSync_frame sa (r.again s.now q)
    refine ⟨_, State.awake_next hw (State.syncRetry_due hr hd hq hs) frame.pending_eq, State.txCounter_sendSync hs _,
      State.sync_sendSync_only rfl ?_, frame.eq_take⟩
    simp [hr, SyncReq.again]

end Sys2Proof.Machine
end

section
/-!
SUPPORT. Laws of the window keys (05_windows_and_placement.md): an entry and the entries beside it, the fence of a key and what
its end tells, the write of a word of an entry, and the write of a held COMMIT placement.
-/

namespace Sys2Proof.Machine

-- Proofs in sequence: the stack of every thread that waits counts against the memory limit of the check.
set_option Elab.async false

/-! ### Parts of a field -/

section
variable {m : Nat} (x : BitVec m)

/-- Bits within a field are bits of its value. -/
theorem getBits_div_mod {n a b : Nat} (h : a + b ≤ n) (lo : Nat) :
    getBits x lo n / 2 ^ a % 2 ^ b = getBits x (lo + a) b := by
  apply Nat.eq_of_testBit_eq
  intro i
  rw [Nat.testBit_mod_two_pow, Nat.testBit_div_two_pow, getBits_testBit, getBits_testBit, Nat.add_assoc, Nat.add_comm i a]
  by_cases hi : i < b
  · simp [hi, show a + i < n by omega]
  · simp [hi]

/-- Bits within a field read as those of the value put. -/
theorem getBits_putBits_within {lo n a b : Nat} (h : a + b ≤ n) (hm : lo + n ≤ m) (v : Nat) :
    getBits (putBits x lo n v) (lo + a) b = v / 2 ^ a % 2 ^ b := by
  rw [← getBits_div_mod _ h, getBits_putBits_self hm]
  apply Nat.eq_of_testBit_eq
  intro i
  simp only [Nat.testBit_mod_two_pow, Nat.testBit_div_two_pow]
  by_cases hi : i < b
  · simp [hi, show i + a < n by omega]
  · simp [hi]

end

/-! ### Entries (R187) -/

section
variable {s t : State} {k j : Nat} (e : BitVec 256)

theorem State.keyEnt_congr (hi : t.inv = s.inv) (hk : t.win.keys = s.win.keys) (j : Nat) : t.keyEnt j = s.keyEnt j := by
  have entries : t.pantryEntries 0x04 = s.pantryEntries 0x04 := by simp only [State.pantryEntries, State.sect, hi]
  rw [State.keyEnt, State.keyEnt, State.keyExists, State.keyExists, entries, hk]

theorem State.setKey_frame (s : State) (k : Nat) (e : BitVec 256) : Frame [.win] s (s.setKey k e) := s.onWin_frame _

theorem State.keyEnt_setKey_self (h : s.keyExists k = true) : (s.setKey k e).keyEnt k = e :=
  (if_pos h).trans (Tab.getD_put_self ..)

theorem State.keyEnt_setKey_ne (h : j ≠ k) : (s.setKey k e).keyEnt j = s.keyEnt j := by
  have same : Tab.getD j keyDefault (s.setKey k e).win.keys = Tab.getD j keyDefault s.win.keys :=
    Tab.getD_put_ne (Ne.symm h) ..
  rw [State.keyEnt, same]
  rfl

end

/-! ### BIND (R184) -/

section
variable {s : State} {k : Nat}

theorem State.keyExists_of_bindOk (h : s.bindOk k = true) : s.keyExists k = true := by
  simp only [State.bindOk, Bool.and_eq_true, and_assoc] at h
  exact h.1

theorem State.bindKey_ok (h : s.bindOk k = true) : s.bindKey k = s.setKey k (putPart (s.keyEnt k) Key.state Keys.valid) :=
  if_pos h

theorem State.bindKey_refused (h : s.bindOk k = false) : s.bindKey k = s.flag F.WIN_STATUS_CMD_REFUSED :=
  if_neg (by simp [h])

end

/-! ### The end of a fence (R218, R221, R222) -/

/-- A record of a class other than INTEGRITY tells the Wardens nothing (Table 01-9). -/
theorem State.tallyRaw_wdn {s : State} {cls : Nat} (h : cls ≠ 5) (b code i : Nat) (l : List Nat) :
    (s.tallyRaw b cls code i l).wdn = s.wdn := by
  simp [State.tallyRaw, h]

/-- A key takes an entry with which its fence is over. -/
def State.keyDone (s : State) (k : Nat) (e : BitVec 256) (gen : Nat) : State := (s.setKey k e).revokeDone k gen

section
variable (s : State) (k : Nat) (e : BitVec 256) (gen : Nat)

theorem State.revokeDone_frame : Frame [.regs, .wdn, .mgt] s (s.revokeDone k gen) :=
  (((((s.setFld_frame _ _).trans (State.setFld_frame _ _ _)).trans (State.flag_frame _ _)).append
    (State.tallyFlag_frame _ _ _ _ _)).append (State.event_frame _ _)).mono (by decide)

theorem State.keyDone_frame : Frame [.win, .regs, .wdn, .mgt] s (s.keyDone k e gen) :=
  (s.setKey_frame k e).append (State.revokeDone_frame _ k gen)

theorem State.keyEnt_keyDone (j : Nat) : (s.keyDone k e gen).keyEnt j = (s.setKey k e).keyEnt j :=
  have told := (s.setKey k e).revokeDone_frame k gen
  State.keyEnt_congr told.inv_eq (congrArg Win.keys told.win_eq) j

theorem State.events_keyDone : (s.keyDone k e gen).wdn.events = s.wdn.events ++ [.revocationDone k] :=
  congrArg (fun w : Wdn => w.events ++ [.revocationDone k]) (State.tallyRaw_wdn (by decide) _ _ _ _)

/-- The registers of a fence's end, but for those of the Tally. -/
theorem State.word_keyDone {a : Nat} (h : a < 0xF00000) : (s.keyDone k e gen).word a =
    (((s.setFld F.WIN_DONE_GENERATION gen).setFld F.WIN_DONE_KEY k).flag F.WIN_STATUS_REVOKE_DONE).word a :=
  State.word_tallyRaw_below h _ _ _ _ _ _

theorem State.is_keyDone : (s.keyDone k e gen).is F.WIN_STATUS_REVOKE_DONE = true := by
  rw [State.is, State.fld, State.word_keyDone _ _ _ _ (by decide)]
  exact State.is_flag _ (by decide) (by decide)

theorem State.doneKey_keyDone : (s.keyDone k e gen).fld F.WIN_DONE_KEY = k % 2 ^ 16 := by
  rw [State.fld, State.word_keyDone _ _ _ _ (by decide), State.word_flag_ne _ (by decide)]
  exact State.fld_setFld_self _ (by decide) k

theorem State.doneGeneration_keyDone : (s.keyDone k e gen).fld F.WIN_DONE_GENERATION = gen % 2 ^ 16 := by
  rw [State.fld, State.word_keyDone _ _ _ _ (by decide), State.word_flag_ne _ (by decide)]
  exact (State.fld_setFld_apart _ (.inr (by decide)) k).trans (State.fld_setFld_self _ (by decide) gen)

end

section
variable {s : State} {k : Nat}

theorem State.fenceCheck_waits (h : getPart (s.keyEnt k) Key.inflightOld ≠ 0) : s.fenceCheck k = s := if_neg h

theorem State.fenceCheck_valid (h : getPart (s.keyEnt k) Key.state = Keys.valid) : s.fenceCheck k = s := by
  simp [State.fenceCheck, h]

/-- With no older access in flight, a rotation leaves the key VALID and a revocation FREE. -/
theorem State.fenceCheck_over {r : Bool} (ho : getPart (s.keyEnt k) Key.inflightOld = 0)
    (hs : getPart (s.keyEnt k) Key.state = if r then Keys.revoking else Keys.rotating) : s.fenceCheck k =
      s.keyDone k (putPart (s.keyEnt k) Key.state (if r then Keys.free else Keys.valid))
        (getPart (s.keyEnt k) Key.generation - 1) := by
  cases r <;> simp_all [State.fenceCheck, State.keyDone]

end

/-! ### ROTATE and REVOKE (R218) -/

/-- The entry of a VALID key that is fenced, its generation not the last. -/
def fencedKey (e : BitVec 256) (ms : Nat) (revoke : Bool) : BitVec 256 :=
  let e' := putPart (putPart (putPart e Key.inflightOld (getPart e Key.inflightCur)) Key.inflightCur 0) Key.fenceMs ms
  putPart (putPart e' Key.generation (getPart e Key.generation + 1)) Key.state (if revoke then Keys.revoking else Keys.rotating)

/-- A VALID key whose generation is not the last is fenced. -/
def State.fenced (s : State) (k : Nat) (revoke : Bool) : State :=
  (s.setKey k (fencedKey (s.keyEnt k) (s.now / 1000000) revoke)).onWin fun w => { w with
    accesses := w.accesses.map fun a => if a.key = k then { a with old := true } else a
    fences := Tab.set k (getPart (s.keyEnt k) Key.generation, s.now) w.fences }

section
variable (e : BitVec 256) (ms : Nat) (r : Bool)

theorem state_fencedKey : getPart (fencedKey e ms r) Key.state = if r then Keys.revoking else Keys.rotating := by
  rw [fencedKey, getPart_putPart_self (by decide)]
  cases r <;> rfl

theorem generation_fencedKey (h : getPart e Key.generation < 65535) :
    getPart (fencedKey e ms r) Key.generation = getPart e Key.generation + 1 := by
  rw [fencedKey, getPart_putPart_disjoint (by decide), getPart_putPart_self (by decide)]
  exact Nat.mod_eq_of_lt (show getPart e Key.generation + 1 < 65536 by omega)

theorem inflightCur_fencedKey : getPart (fencedKey e ms r) Key.inflightCur = 0 := by
  simp (disch := decide) only [fencedKey, getPart_putPart_disjoint]
  exact getPart_putPart_self (by decide) _ 0

theorem inflightOld_fencedKey : getPart (fencedKey e ms r) Key.inflightOld = getPart e Key.inflightCur := by
  simp (disch := decide) only [fencedKey, getPart_putPart_disjoint]
  exact (getPart_putPart_self (by decide) _ _).trans (Nat.mod_eq_of_lt (getBits_lt _ _ _))

end

section
variable {s : State} {k j : Nat} {r : Bool}

theorem State.fenced_frame (s : State) (k : Nat) (r : Bool) : Frame [.win] s (s.fenced k r) :=
  (s.setKey_frame k _).trans (State.onWin_frame _ _)

theorem State.keyExists_fenced : (s.fenced k r).keyExists j = s.keyExists j := rfl

theorem State.keyEnt_fenced_self (h : s.keyExists k = true) :
    (s.fenced k r).keyEnt k = fencedKey (s.keyEnt k) (s.now / 1000000) r := State.keyEnt_setKey_self _ h

theorem State.keyEnt_fenced_ne (h : j ≠ k) : (s.fenced k r).keyEnt j = s.keyEnt j :=
  State.keyEnt_setKey_ne (s := s) _ h

section
variable (hx : s.keyExists k = true) (hv : getPart (s.keyEnt k) Key.state = Keys.valid)
  (hg : getPart (s.keyEnt k) Key.generation < 65535)
include hx hv hg

theorem State.fence_valid : s.fence k r = (s.fenced k r).fenceCheck k := by
  have notLast : getPart (s.keyEnt k) Key.generation ≠ 0xFFFF := by omega
  simp [State.fence, State.fenced, fencedKey, hx, hv, notLast]

theorem State.fence_inFlight (hc : getPart (s.keyEnt k) Key.inflightCur ≠ 0) : s.fence k r = s.fenced k r := by
  rw [State.fence_valid hx hv hg, State.fenceCheck_waits]
  rwa [State.keyEnt_fenced_self hx, inflightOld_fencedKey]

/-- The fence of a key with no access in flight is over at once. -/
theorem State.fence_idle (hc : getPart (s.keyEnt k) Key.inflightCur = 0) : s.fence k r =
    (s.fenced k r).keyDone k
      (putPart (fencedKey (s.keyEnt k) (s.now / 1000000) r) Key.state (if r then Keys.free else Keys.valid))
      (getPart (s.keyEnt k) Key.generation) := by
  have old : getPart ((s.fenced k r).keyEnt k) Key.inflightOld = 0 := by
    rw [State.keyEnt_fenced_self hx, inflightOld_fencedKey, hc]
  have state : getPart ((s.fenced k r).keyEnt k) Key.state = if r then Keys.revoking else Keys.rotating := by
    rw [State.keyEnt_fenced_self hx, state_fencedKey]
  rw [State.fence_valid hx hv hg, State.fenceCheck_over old state, State.keyEnt_fenced_self hx, generation_fencedKey _ _ _ hg,
    Nat.add_sub_cancel]

/-- What a fence with accesses in flight leaves. -/
theorem State.fence_inFlight_law (hc : getPart (s.keyEnt k) Key.inflightCur ≠ 0) :
    getPart ((s.fence k r).keyEnt k) Key.state = (if r then Keys.revoking else Keys.rotating) ∧
      getPart ((s.fence k r).keyEnt k) Key.generation = getPart (s.keyEnt k) Key.generation + 1 ∧
      getPart ((s.fence k r).keyEnt k) Key.inflightOld = getPart (s.keyEnt k) Key.inflightCur ∧
      getPart ((s.fence k r).keyEnt k) Key.inflightCur = 0 ∧ ∀ j, j ≠ k → (s.fence k r).keyEnt j = s.keyEnt j := by
  rw [State.fence_inFlight hx hv hg hc, State.keyEnt_fenced_self hx]
  exact ⟨state_fencedKey _ _ _, generation_fencedKey _ _ _ hg, inflightOld_fencedKey _ _ _, inflightCur_fencedKey _ _ _,
    fun j hj => State.keyEnt_fenced_ne hj⟩

/-- What a fence with no access in flight leaves and tells. -/
theorem State.fence_idle_law (hc : getPart (s.keyEnt k) Key.inflightCur = 0) :
    (s.fence k r).pending = s.pending ∧
      getPart ((s.fence k r).keyEnt k) Key.state = (if r then Keys.free else Keys.valid) ∧
      getPart ((s.fence k r).keyEnt k) Key.generation = getPart (s.keyEnt k) Key.generation + 1 ∧
      (s.fence k r).wdn.events = s.wdn.events ++ [.revocationDone k] ∧
      (s.fence k r).is F.WIN_STATUS_REVOKE_DONE = true ∧
      (s.fence k r).fld F.WIN_DONE_KEY = k % 2 ^ 16 ∧
      (s.fence k r).fld F.WIN_DONE_GENERATION = getPart (s.keyEnt k) Key.generation := by
  rw [State.fence_idle hx hv hg hc, State.keyEnt_keyDone, State.keyEnt_setKey_self _ (State.keyExists_fenced.trans hx)]
  refine ⟨(State.keyDone_frame _ _ _ _).pending_eq, (getPart_putPart_self (by decide) _ _).trans ?_,
    (getPart_putPart_disjoint (by decide) _ _).trans (generation_fencedKey _ _ _ hg), State.events_keyDone _ _ _ _,
    State.is_keyDone _ _ _ _, State.doneKey_keyDone _ _ _ _,
    (State.doneGeneration_keyDone _ _ _ _).trans (Nat.mod_eq_of_lt (getBits_lt _ _ _))⟩
  cases r <;> rfl

end

end

/-! ### The words of an entry (R225) -/

/-- The writable parts of an entry with the bits of each that may be set. -/
def keyFields : List (Part × Nat) :=
  [(Key.perms, 3), (Key.generation, 16), (Key.endpoint, 16), (Key.kind, 8), (Key.base, 36), (Key.length, 32)]

/-- A FREE entry with a word written. -/
def keyWritten (e : BitVec 256) (n : Nat) (v : Word) : BitVec 256 :=
  keyFields.foldl (fun x p => putPart x p.1 (getPart (putBytes e (4 * n) 4 v.toNat) p.1 % 2 ^ p.2)) e

section
variable (e : BitVec 256) {n : Nat} (v : Word)

theorem state_keyWritten (n : Nat) : getPart (keyWritten e n v) Key.state = getPart e Key.state := by
  simp (disch := decide) only [keyWritten, keyFields, List.foldl_cons, List.foldl_nil, getPart_putPart_disjoint]

/-- The low bits of a word written read as written. -/
theorem getBits_putBytes_keyWord (h : n < 8) {b : Nat} (hb : b ≤ 32) :
    getBits (putBytes e (4 * n) 4 v.toNat) (32 * n) b = v.toNat % 2 ^ b := by
  rw [putBytes, show 32 * n = 8 * (4 * n) + 0 by omega, getBits_putBits_within e (by omega) (by omega), Nat.pow_zero,
    Nat.div_one]

/-- Of BASE, the bits 35:0 read as in the word written and the others 0. -/
theorem getBits_base_keyWritten {a b : Nat} (h : a + b ≤ 64) : getBits (keyWritten e n v) (64 + a) b =
    getBits (putBytes e (4 * n) 4 v.toNat) (64 + a) (min b (36 - a)) := by
  have cut : getBits (keyWritten e n v) (64 + a) b =
      getBits (putBytes e (4 * n) 4 v.toNat) 64 64 % 2 ^ 36 / 2 ^ a % 2 ^ b :=
    (getBits_putBits_disjoint (.inl (show 64 + a + b ≤ 8 * 16 by omega)) _ _).trans (getBits_putBits_within _ h (by decide) _)
  rw [cut]
  apply Nat.eq_of_testBit_eq
  intro i
  have inside : i < min b (36 - a) ↔ i < b ∧ i + a < 36 ∧ i + a < 64 := by omega
  simp only [Nat.testBit_mod_two_pow, Nat.testBit_div_two_pow, getBits_testBit, inside, Bool.decide_and, Bool.and_assoc,
    Nat.add_assoc, Nat.add_comm i a]

/-- Words 2 to 4, BASE and LENGTH, read as written: of word 3 the bits 3:0 (R182). -/
theorem getBits_keyWritten_self (hl : 2 ≤ n) (hh : n < 5) :
    getBits (keyWritten e n v) (32 * n) 32 = if n = 3 then v.toNat % 16 else v.toNat := by
  have whole : v.toNat % 2 ^ 32 = v.toNat := Nat.mod_eq_of_lt v.isLt
  have word := fun b (hb : b ≤ 32) => getBits_putBytes_keyWord e v (show n < 8 by omega) hb
  obtain rfl | rfl | rfl : n = 2 ∨ n = 3 ∨ n = 4 := by omega
  case inl => exact (getBits_base_keyWritten e v (a := 0) (b := 32) (by decide)).trans ((word 32 (by decide)).trans whole)
  case inr.inl => exact (getBits_base_keyWritten e v (a := 32) (b := 32) (by decide)).trans (word 4 (by decide))
  case inr.inr =>
    have length : getBits (keyWritten e 4 v) 128 32 = getBits (putBytes e (4 * 4) 4 v.toNat) 128 32 % 2 ^ 32 % 2 ^ 32 :=
      getBits_putBits_self (by decide) _ _
    rw [word 32 (by decide), Nat.mod_mod, Nat.mod_mod, whole] at length
    exact length

end

section
variable {s : State} {n : Nat} {v : Word}

theorem State.keyWrite_bound (h : getPart (s.keyEnt (s.fld F.WIN_SEL_KEY)) Key.state ≠ Keys.free) : s.keyWrite n v = s := by
  simp [State.keyWrite, State.winWordWrite, State.when, h]

/-- A word of the selected window key, which is FREE, has been written. -/
def State.keyStored (s : State) (n : Nat) (v : Word) : State :=
  (s.setKey (s.fld F.WIN_SEL_KEY) (keyWritten (s.keyEnt (s.fld F.WIN_SEL_KEY)) n v)).halfWrite 0x04
    (32 * s.fld F.WIN_SEL_KEY + 4 * n)

theorem State.keyWrite_free (hx : s.keyExists (s.fld F.WIN_SEL_KEY) = true)
    (hf : getPart (s.keyEnt (s.fld F.WIN_SEL_KEY)) Key.state = Keys.free) : s.keyWrite n v = s.keyStored n v := by
  have write : s.winWordWrite (s.fld F.WIN_SEL_KEY) n v =
      s.setKey (s.fld F.WIN_SEL_KEY) (keyWritten (s.keyEnt (s.fld F.WIN_SEL_KEY)) n v) := if_pos ⟨hx, hf⟩
  have exists' : (s.setKey (s.fld F.WIN_SEL_KEY) (keyWritten (s.keyEnt (s.fld F.WIN_SEL_KEY)) n v)).keyExists
      (s.fld F.WIN_SEL_KEY) = true := hx
  simp [State.keyWrite, State.keyStored, State.when, write, hf, exists']

theorem State.keyStored_frame (s : State) (n : Nat) (v : Word) : Frame [.win, .hst] s (s.keyStored n v) :=
  (s.setKey_frame _ _).append (State.halfWrite_frame _ _ _)

theorem State.mem_halfWrite (s : State) (c o : Nat) : (s.halfWrite c o).hst.mem = s.hst.mem := by
  unfold State.halfWrite
  dsimp only
  split
  · rfl
  · exact s.when_same _ _ (·.hst.mem) rfl

theorem State.keyEnt_keyStored (s : State) (n : Nat) (v : Word) (j : Nat) : (s.keyStored n v).keyEnt j =
    (s.setKey (s.fld F.WIN_SEL_KEY) (keyWritten (s.keyEnt (s.fld F.WIN_SEL_KEY)) n v)).keyEnt j :=
  have half := State.halfWrite_frame (s.setKey (s.fld F.WIN_SEL_KEY) (keyWritten (s.keyEnt (s.fld F.WIN_SEL_KEY)) n v)) 0x04
    (32 * s.fld F.WIN_SEL_KEY + 4 * n)
  State.keyEnt_congr half.inv_eq (congrArg Win.keys half.win_eq) j

end

/-! ### Accesses that end (R194) -/

/-- The entry of a key that an access has left. -/
def leftKey (e : BitVec 256) (old : Bool) : BitVec 256 :=
  if old then putPart e Key.inflightOld (getPart e Key.inflightOld - 1)
  else putPart e Key.inflightCur (getPart e Key.inflightCur - 1)

/-- An access is taken out of the counter of its generation. -/
def State.accessLeft (s : State) (n : Nat) (a : WinAccess) : State :=
  (s.setKey a.key (leftKey (s.keyEnt a.key) a.old)).onWin fun w => { w with accesses := w.accesses.filter fun x => x.name != n }

section
variable {s : State} {n : Nat} {a : WinAccess} (e : BitVec 256)

theorem State.accessEnd_found (h : s.win.accesses.find? (fun x => x.name == n && x.ended) = some a) :
    s.accessEnd n = (s.accessLeft n a).fenceCheck a.key := by
  simp only [State.accessEnd, h]
  rfl

theorem State.accessLeft_frame (s : State) (n : Nat) (a : WinAccess) : Frame [.win] s (s.accessLeft n a) :=
  (s.setKey_frame _ _).trans (State.onWin_frame _ _)

theorem State.keyEnt_accessLeft (h : s.keyExists a.key = true) :
    (s.accessLeft n a).keyEnt a.key = leftKey (s.keyEnt a.key) a.old := State.keyEnt_setKey_self _ h

theorem state_leftKey (old : Bool) : getPart (leftKey e old) Key.state = getPart e Key.state := by
  cases old <;> exact getPart_putPart_disjoint (by decide) _ _

theorem inflightCur_leftKey : getPart (leftKey e false) Key.inflightCur = getPart e Key.inflightCur - 1 :=
  (getPart_putPart_self (by decide) _ _).trans (Nat.mod_eq_of_lt ((Nat.sub_le _ _).trans_lt (getBits_lt _ _ _)))

theorem inflightOld_leftKey : getPart (leftKey e true) Key.inflightOld = getPart e Key.inflightOld - 1 :=
  (getPart_putPart_self (by decide) _ _).trans (Nat.mod_eq_of_lt ((Nat.sub_le _ _).trans_lt (getBits_lt _ _ _)))

/-- The last access before a fence ends the rotation or the revocation. -/
theorem State.accessEnd_last {r : Bool} (hf : s.win.accesses.find? (fun x => x.name == n && x.ended) = some a)
    (hx : s.keyExists a.key = true) (ho : a.old = true) (hl : getPart (s.keyEnt a.key) Key.inflightOld = 1)
    (hs : getPart (s.keyEnt a.key) Key.state = if r then Keys.revoking else Keys.rotating) :
    (s.accessEnd n).pending = s.pending ∧
      getPart ((s.accessEnd n).keyEnt a.key) Key.state = (if r then Keys.free else Keys.valid) ∧
      getPart ((s.accessEnd n).keyEnt a.key) Key.inflightOld = 0 ∧
      (s.accessEnd n).is F.WIN_STATUS_REVOKE_DONE = true ∧
      (s.accessEnd n).wdn.events = s.wdn.events ++ [.revocationDone a.key] := by
  have entry : (s.accessLeft n a).keyEnt a.key = leftKey (s.keyEnt a.key) true := by rw [State.keyEnt_accessLeft hx, ho]
  have old : getPart ((s.accessLeft n a).keyEnt a.key) Key.inflightOld = 0 := by rw [entry, inflightOld_leftKey, hl]
  have state : getPart ((s.accessLeft n a).keyEnt a.key) Key.state = if r then Keys.revoking else Keys.rotating := by
    rw [entry, state_leftKey, hs]
  have exists' : (s.accessLeft n a).keyExists a.key = true := hx
  rw [State.accessEnd_found hf, State.fenceCheck_over old state, State.keyEnt_keyDone, State.keyEnt_setKey_self _ exists']
  refine ⟨(State.keyDone_frame _ _ _ _).pending_eq, (getPart_putPart_self (by decide) _ _).trans ?_,
    (getPart_putPart_disjoint (by decide) _ _).trans old, State.is_keyDone _ _ _ _, State.events_keyDone _ _ _ _⟩
  cases r <;> rfl

end

/-! ### RETIRED keys (Table 05-4) -/

/-- The entry of a RETIRED key whose second is over. -/
def renewedKey (e : BitVec 256) : BitVec 256 :=
  putPart (putPart (putPart e Key.generation 1) Key.pend 0) Key.state
    (if (getPart e Key.pend).testBit 0 then Keys.free else Keys.valid)

section
variable {s : State} {k : Nat} (e : BitVec 256)

theorem generation_renewedKey : getPart (renewedKey e) Key.generation = 1 := by
  simp (disch := decide) only [renewedKey, getPart_putPart_disjoint]
  exact getPart_putPart_self (by decide) _ 1

theorem state_renewedKey :
    getPart (renewedKey e) Key.state = if (getPart e Key.pend).testBit 0 then Keys.free else Keys.valid := by
  rw [renewedKey, getPart_putPart_self (by decide)]
  split <;> rfl

theorem State.fencePast_of (h : ∀ g t, Tab.find? k s.win.fences = some (g, t) → t + 1000000000 ≤ s.now) :
    s.fencePast k = true := by
  unfold State.fencePast
  split
  · next g t found => exact decide_eq_true (h g t found)
  · rfl

theorem State.retiredExpiry_due (hs : getPart (s.keyEnt k) Key.state = Keys.retired)
    (ho : getPart (s.keyEnt k) Key.inflightOld = 0) (hp : s.fencePast k = true) :
    s.retiredExpiry k = s.keyDone k (renewedKey (s.keyEnt k)) 0xFFFF := if_pos ⟨hs, ho, hp⟩

end

/-! ### Held COMMIT placements (R212) -/

section
variable {s : State} {h : HeldCommit} {rest : List HeldCommit}

/-- A held COMMIT placement is noted as being written. -/
def State.commitNoted (s : State) (h : HeldCommit) : State :=
  s.onWin fun w => { w with held := w.held.map fun x => if x.access = h.access then { x with writing := true } else x }

theorem State.commitWrite_eq (s : State) (h : HeldCommit) : s.commitWrite h =
    (s.commitNoted h).openFlow h.agent false (.commit h.access) [(h.addr, h.data.length)] h.data false := rfl

theorem State.commitWrite_frame (s : State) (h : HeldCommit) : Frame [.win, .hst] s (s.commitWrite h) :=
  (s.onWin_frame _).append (State.openFlow_frame _ _ _ _ _ _ _)

theorem State.commitRow_first (hh : s.win.held = h :: rest) (hw : h.writing = false) (hr : s.commitReady h = true) :
    s.commitRow = s.commitWrite h := by
  simp [State.commitRow, State.with?, hh, hw, hr]

theorem State.held_commitWrite (hh : s.win.held = h :: rest) (ho : ∀ x ∈ rest, x.access ≠ h.access) :
    (s.commitWrite h).win.held = { h with writing := true } :: rest := by
  have kept : rest.map (fun x => if x.access = h.access then { x with writing := true } else x) = rest :=
    List.map_congr_left (fun x hx => if_neg (ho x hx)) |>.trans (List.map_id' rest)
  rw [State.commitWrite_eq, (State.openFlow_frame _ _ _ _ _ _ _).win_eq, State.commitNoted, State.onWin_win, hh, List.map_cons,
    kept, if_pos rfl]

end

end Sys2Proof.Machine
end

section
/-!
The statements about windows and placement (05_windows_and_placement.md).
-/

namespace Sys2Proof.Machine

-- Proofs in sequence: the stack of every thread that waits counts against the memory limit of the check.
set_option Elab.async false

/-- Settles O19: each row is one law of the keys. BIND and a word's write set one entry, a fence ends by `fenceCheck_over`, and an
access that ends or a second that passes leaves one entry and, where a fence is over, tells it. -/
theorem windowKeys : Obligations.WindowKeys := by
  unfold Obligations.WindowKeys
  refine ⟨⟨fun p s hb hm => ⟨fun ok => ?bind, fun bad => ?refused⟩,
    fun p k s hb hm hk hx hv hg => ⟨fun hc => ?inFlight, fun hc => ?idle⟩,
    fun p w v s hb hm hw => ⟨fun bound => ?bound, fun hx hf => ?word⟩⟩,
    fun n a s hw hf hx => ⟨fun ho hv => ?younger, fun ho hl => ?last, fun ho hl => ?older⟩,
    fun k s hw hx hs ho hp => ?retired, fun h rest s hw hh hn hr ha => ?commit⟩
  case bind =>
    have hx := State.keyExists_of_bindOk ok
    refine ⟨_, State.bus_next hb hm (State.bindKey_ok ok) rfl, rfl, ?_, ?_, fun j hj => State.keyEnt_setKey_ne _ hj⟩
    · rw [State.keyEnt_setKey_self _ hx]
      exact getPart_putPart_self (by decide) _ _
    · rw [State.keyEnt_setKey_self _ hx]
      exact getPart_putPart_disjoint (by decide) _ _
  case refused => exact State.bus_next hb hm (State.bindKey_refused bad) rfl
  case inFlight =>
    subst hk
    have fenced := fun r => State.fence_inFlight (r := r) hx hv hg hc ▸ s.fenced_frame (s.fld F.WIN_SEL_KEY) r
    have law := fun r => State.fence_inFlight_law (r := r) hx hv hg hc
    exact ⟨⟨_, State.bus_next hb hm rfl (fenced false).pending_eq, (fenced false).eq_take, law false⟩,
      ⟨_, State.bus_next hb hm rfl (fenced true).pending_eq, (fenced true).eq_take, law true⟩⟩
  case idle =>
    subst hk
    have key : s.fld F.WIN_SEL_KEY % 2 ^ 16 = s.fld F.WIN_SEL_KEY := Nat.mod_eq_of_lt (getBits_lt _ _ _)
    obtain ⟨pending, state, gen, events, done, doneKey, doneGen⟩ := State.fence_idle_law (r := false) hx hv hg hc
    obtain ⟨pending', state', gen', events', done', -⟩ := State.fence_idle_law (r := true) hx hv hg hc
    exact ⟨⟨_, State.bus_next hb hm rfl pending, state, gen, events, done, doneKey.trans key, doneGen⟩,
      ⟨_, State.bus_next hb hm rfl pending', state', gen', events', done'⟩⟩
  case bound => exact State.bus_next hb hm ((if_pos hw).trans (State.keyWrite_bound bound)) rfl
  case word =>
    have frame := s.keyStored_frame w v
    have entry := (s.keyEnt_keyStored w v (s.fld F.WIN_SEL_KEY)).trans (State.keyEnt_setKey_self _ hx)
    refine ⟨_, State.bus_next hb hm ((if_pos hw).trans (State.keyWrite_free hx hf)) frame.pending_eq, frame.eq_take,
      State.mem_halfWrite _ _ _, fun hl hh => ?_, ?_, fun j hj => ?_⟩
    · rw [entry, getBits_keyWritten_self _ _ hl hh]
    · rw [entry, state_keyWritten, hf]
    · rw [State.keyEnt_keyStored, State.keyEnt_setKey_ne _ hj]
  case younger =>
    have entry := State.keyEnt_accessLeft (n := n) hx
    rw [ho] at entry
    have row : s.accessEnd n = s.accessLeft n a := by
      rw [State.accessEnd_found hf, State.fenceCheck_valid]
      rw [entry, state_leftKey, hv]
    refine ⟨_, State.awake_next hw row (s.accessLeft_frame n a).pending_eq, (s.accessLeft_frame n a).eq_take, rfl, ?_, ?_⟩
    · rw [entry, inflightCur_leftKey]
    · rw [entry, state_leftKey, hv]
  case last =>
    refine ⟨fun hs => ?_, fun hs => ?_⟩
    · obtain ⟨pending, state, old, done, events⟩ := State.accessEnd_last (r := false) hf hx ho hl hs
      exact ⟨_, State.awake_next hw rfl pending, state, old, done, events⟩
    · obtain ⟨pending, state, -, done, events⟩ := State.accessEnd_last (r := true) hf hx ho hl hs
      exact ⟨_, State.awake_next hw rfl pending, state, done, events⟩
  case older =>
    have entry := State.keyEnt_accessLeft (n := n) hx
    rw [ho] at entry
    have row : s.accessEnd n = s.accessLeft n a := by
      rw [State.accessEnd_found hf, State.fenceCheck_waits]
      rw [entry, inflightOld_leftKey]
      omega
    refine ⟨_, State.awake_next hw row (s.accessLeft_frame n a).pending_eq, (s.accessLeft_frame n a).eq_take, ?_, ?_⟩
    · rw [entry, inflightOld_leftKey]
    · rw [entry, state_leftKey]
  case retired =>
    have frame := s.keyDone_frame k (renewedKey (s.keyEnt k)) 0xFFFF
    have entry := (s.keyEnt_keyDone k (renewedKey (s.keyEnt k)) 0xFFFF k).trans (State.keyEnt_setKey_self _ hx)
    refine ⟨_, State.awake_next hw (State.retiredExpiry_due hs ho (State.fencePast_of hp)) frame.pending_eq, ?_, ?_,
      s.doneGeneration_keyDone _ _ _, s.is_keyDone _ _ _, s.events_keyDone _ _ _, fun j hj => ?_, frame.eq_take⟩
    · rw [entry, generation_renewedKey]
    · rw [entry, state_renewedKey]
    · rw [State.keyEnt_keyDone, State.keyEnt_setKey_ne _ hj]
  case commit =>
    have frame := s.commitWrite_frame h
    obtain ⟨flows, mem⟩ :=
      (s.commitNoted h).openFlow_keeps h.agent false (.commit h.access) [(h.addr, h.data.length)] h.data false
    exact ⟨_, State.awake_next hw (State.commitRow_first hh hn hr) frame.pending_eq, State.held_commitWrite hh ha, flows, mem,
      frame.eq_take⟩

end Sys2Proof.Machine
end

section
/-!
SUPPORT. Laws of the FETCHes of a pulled WRITE (05_windows_and_placement.md R208): one that finds no send entry free is held, and
the wait is counted (04_breren_transport.md R170).
-/

namespace Sys2Proof.Machine

-- Proofs in sequence: the stack of every thread that waits counts against the memory limit of the check.
set_option Elab.async false

section
variable {s : State} {c k a n : Nat} {x : Slot}

/-- A message under a new id for which its SA has no room is held. -/
theorem State.startMsg_held {sa : Nat} {m : TxMsg} (hsa : s.saState sa = Sas.active) (hn : m.newId = true)
    (hr : s.roomFor sa m = false) : s.startMsg sa m = s.holdTx sa m := by
  simp [State.startMsg, State.msgSa, hn, State.followSa_active hsa, hsa, hr]

/-- The next FETCH of a pulled WRITE, of n bytes. -/
def Slot.fetchMsg (x : Slot) (c n : Nat) : TxMsg :=
  msgOf .fetch n (getPart (dataToken x.cap) Token.key) (getPart (dataToken x.cap) Token.base + x.fetchNext) (.fetch c) .none

/-- A slot whose next FETCH, of n bytes, has been issued. -/
def Slot.fetched (x : Slot) (n : Nat) : Slot := { x with fetchNext := x.fetchNext + n }

/-- A slot that has taken write staging. -/
def Slot.staged (x : Slot) (a : Nat) : Slot := { x with staging := some a }

/-- A pulled WRITE whose staging stands and whose bytes are not all asked for. -/
structure Slot.Pulls (x : Slot) : Prop where
  write : x.opcode = 2
  pulled : x.pushed = false
  stopped : x.stopped = false
  staging : x.staging.isSome = true
  running : x.wait = .running
  more : x.fetchNext < x.blockCount * 4096

/-- With no FETCH outstanding or held, the next of a pulled WRITE is issued. -/
theorem State.fetchMore_first (h : s.cmd? c = some (k, x)) (hx : x.Pulls) (hf : x.fetches = []) (hh : s.trn.held = []) :
    s.fetchMore c (n + 1) =
      ((s.modCmd c fun y => y.fetched (min 1048576 (x.blockCount * 4096 - x.fetchNext))).startMsg x.sa
        (x.fetchMsg c (min 1048576 (x.blockCount * 4096 - x.fetchNext)))).fetchMore c n := by
  obtain ⟨write, pulled, stopped, staging, running, more⟩ := hx
  simp [State.fetchMore, h, hf, hh, write, pulled, stopped, staging, running, more]
  rfl

theorem State.fetchMore_all (h : s.cmd? c = some (k, x)) (hx : x.blockCount * 4096 ≤ x.fetchNext) : s.fetchMore c n = s := by
  cases n with
  | zero => rfl
  | succ n => simp [State.fetchMore, h, Nat.not_lt.2 hx]

/-- A pulled WRITE first takes write staging. -/
theorem State.writeStart_pulled (h : s.cmd? c = some (k, x)) (ho : x.opcode = 2) (hp : x.pushed = false)
    (hs : x.state = .executing) (hw : x.wait = .running) (hb : x.started = false) (ht : x.stopped = false)
    (hg : x.staging = none) (ha : s.findStaging (x.blockCount * 4096) = some a) :
    s.writeStart c 2 = (s.modCmd c fun y => y.staged a).fetchMore c 4 := by
  simp [State.writeStart, h, ho, hp, hs, hw, hb, ht, hg, ha]
  rfl

/-- The one FETCH of a pulled WRITE has been issued. -/
def State.fetchAsked (s : State) (c a n : Nat) : State := (s.modCmd c fun y => y.staged a).modCmd c fun y => y.fetched n

/-- A pulled WRITE of one FETCH for which its SA has no room leaves that FETCH held. -/
theorem State.writeStart_held (h : s.cmd? c = some (k, x)) (ho : x.opcode = 2) (hp : x.pushed = false)
    (hs : x.state = .executing) (hw : x.wait = .running) (hb : x.started = false) (ht : x.stopped = false)
    (hg : x.staging = none) (ha : s.findStaging (x.blockCount * 4096) = some a) (hf : x.fetches = []) (hn : x.fetchNext = 0)
    (hh : s.trn.held = []) (hsa : s.saState x.sa = Sas.active) (hc : 1 ≤ x.blockCount) (hc' : x.blockCount ≤ 256)
    (hr : s.roomFor x.sa (x.fetchMsg c (x.blockCount * 4096)) = false) :
    s.writeStart c 2 = (s.fetchAsked c a (x.blockCount * 4096)).holdTx x.sa ((x.staged a).fetchMsg c (x.blockCount * 4096)) := by
  have slot : (s.modCmd c fun y => y.staged a).cmd? c = some (k, x.staged a) := State.cmd?_modCmd_self (fun _ => rfl) h
  have pulls : (x.staged a).Pulls := ⟨ho, hp, ht, rfl, hw, show x.fetchNext < x.blockCount * 4096 by omega⟩
  have whole : min 1048576 ((x.staged a).blockCount * 4096 - (x.staged a).fetchNext) = x.blockCount * 4096 :=
    show min 1048576 (x.blockCount * 4096 - x.fetchNext) = x.blockCount * 4096 by omega
  have noted := State.cmd?_modCmd_self (f := fun y => y.fetched (x.blockCount * 4096)) (fun _ => rfl) slot
  have held : (s.fetchAsked c a (x.blockCount * 4096)).startMsg x.sa ((x.staged a).fetchMsg c (x.blockCount * 4096)) =
      (s.fetchAsked c a (x.blockCount * 4096)).holdTx x.sa ((x.staged a).fetchMsg c (x.blockCount * 4096)) :=
    State.startMsg_held hsa rfl hr
  rw [State.writeStart_pulled h ho hp hs hw hb ht hg ha, State.fetchMore_first slot pulls hf hh, whole]
  refine (congrArg (State.fetchMore · c 3) held).trans ?_
  exact State.fetchMore_all (x := (x.staged a).fetched (x.blockCount * 4096)) noted
    (show x.blockCount * 4096 ≤ x.fetchNext + x.blockCount * 4096 by omega)

/-- Where WRITE's row changes the command queues and the transport alone, its effect leaves the registers. -/
theorem State.regs_writeStart {t : State} (hw : s.awake = true) (row : exec (.writeCommand c) s = .next t)
    (frame : t = { s with cq := t.cq, trn := t.trn }) : (s.writeStart c 2).regs = s.regs := by
  have ran : exec (.writeCommand c) s = .next { s.writeStart c 2 with pending := s.pending } := State.awake_row hw _
  have state : { s.writeStart c 2 with pending := s.pending } = t := Host.Outcome.next.inj (ran.symm.trans row)
  have effect : (s.writeStart c 2).regs = t.regs := by rw [← state]
  have kept : t.regs = s.regs := by rw [frame]
  exact effect.trans kept

/-- A held message is counted in TRN_TX_WAITS. -/
theorem State.pair_holdTx (s : State) (sa : Nat) (m : TxMsg) :
    (s.holdTx sa m).pair A.TRN_TX_WAITS = (s.pair A.TRN_TX_WAITS + 1) % 2 ^ 64 := State.pair_bump_self _ _ _

end

/-! ### A pulled WRITE whose FETCH finds every send entry taken -/

/-- A pulled WRITE of one block that has yet to begin. -/
def pullSlot : Slot :=
  { cutSlot with cap := putPart cutSlot.cap Cap.opcode 2, started := false, messages := [], blocks := [] }

/-- A running part with one send entry, which a group message has taken, and one segment of write staging. -/
def sendFull : State :=
  { State.reset.setWord (A.HST_REGION 0) (BitVec.ofNat 32 (2 * 2 ^ 20 + 1 * 2 ^ 10)) with
    glb := { Glb.reset with phase := .running }
    inv := { State.reset.inv with sections := [(0x04, [3, 0, 0, 0, 1, 0, 0, 0])] }
    trn := { Trn.reset with sa := [(3, cutSa)], tx := [{ cutMsg with use := .group 0 }] }
    cq := { Cq.reset with slots := [(0, pullSlot)] } }

theorem sendFull_awake : sendFull.awake = true := by decide +kernel

theorem pullSlot_opcode : pullSlot.opcode = 2 := by decide +kernel

theorem pullSlot_pushed : pullSlot.pushed = false := by decide +kernel

theorem pullSlot_blockCount : pullSlot.blockCount = 1 := by decide +kernel

theorem sendFull_findStaging : sendFull.findStaging (pullSlot.blockCount * 4096) = some 0 := by decide +kernel

theorem sendFull_active : sendFull.saState pullSlot.sa = Sas.active := by decide +kernel

theorem sendFull_roomFor : sendFull.roomFor pullSlot.sa (pullSlot.fetchMsg 0 (pullSlot.blockCount * 4096)) = false := by
  decide +kernel

theorem sendFull_waits : sendFull.pair A.TRN_TX_WAITS = 0 := by decide +kernel

/-- WRITE holds the FETCH, which changes the registers. -/
theorem sendFull_writeStart : (sendFull.writeStart 0 2).pair A.TRN_TX_WAITS = 1 := by
  rw [State.writeStart_held (k := 0) (x := pullSlot) rfl pullSlot_opcode pullSlot_pushed rfl rfl rfl rfl rfl
    sendFull_findStaging rfl rfl rfl sendFull_active (by rw [pullSlot_blockCount])
    (by rw [pullSlot_blockCount]; decide) sendFull_roomFor, State.pair_holdTx]
  decide +kernel

end Sys2Proof.Machine
end

section
/-!
The statements about the data commands (06_command_queues.md).
-/

namespace Sys2Proof.Machine

-- Proofs in sequence: the stack of every thread that waits counts against the memory limit of the check.
set_option Elab.async false

/-- Refutes O22 by its clause on a pulled WRITE, which says that the row changes the command queues and the transport alone. Where
no send entry is free for a FETCH, which no premise excludes, R170 holds the FETCH and counts the wait in TRN_TX_WAITS. In
`sendFull` the one send entry is taken: the row counts one wait, so that the registers are not as they were. -/
theorem not_dataCommands : ¬ Obligations.DataCommands := by
  unfold Obligations.DataCommands
  rintro ⟨-, ⟨pulls, -⟩, -⟩
  obtain ⟨t, z, row, -, -, -, -, -, frame⟩ := pulls 0 0 0 pullSlot sendFull sendFull_awake rfl pullSlot_opcode
    pullSlot_pushed rfl rfl rfl rfl rfl (Nat.le_of_eq pullSlot_blockCount.symm) rfl rfl rfl sendFull_active sendFull_findStaging
  have same := State.pair_congr (State.regs_writeStart sendFull_awake row frame) A.TRN_TX_WAITS
  rw [sendFull_writeStart, sendFull_waits] at same
  omega

end Sys2Proof.Machine
end

section
/-!
SUPPORT. Laws of capsules and of the order of execution (06_command_queues.md R233, R234, R238): what the checks of a capsule look
at, what the acceptance of one leaves in its slot, and what a command's entry into execution changes.
-/

namespace Sys2Proof.Machine

-- Proofs in sequence: the stack of every thread that waits counts against the memory limit of the check.
set_option Elab.async false

/-! ### The checks beside a change (R234) -/

section
variable {s t : State}

/-- With no poisoned word in the Pantry, reading an entry changes nothing. -/
theorem State.readEntry_clean (h : s.hst.pantryPoison = []) (code i : Nat) : s.readEntry code i = s := by
  simp [State.readEntry, State.entryPoison, h]

theorem State.volumeCheck_congr (vol : t.vol = s.vol) (peer : t.peer = s.peer) (cip : t.cip = s.cip)
    (on : t.is F.VOL_CTRL_EN = s.is F.VOL_CTRL_EN) (ep : Nat) (cap : BitVec 512) :
    t.volumeCheck ep cap = s.volumeCheck ep cap := by
  simp only [State.volumeCheck, State.ownerCheck, State.volActive, State.maskAllows, State.accessGroup, State.volAttr,
    State.volKey, State.vent, State.isFenced, State.fenceStatus, vol, peer, cip, on]
  rfl

theorem State.tokenFault_congr (inv : t.inv = s.inv) (win : t.win = s.win) (on : t.is F.WIN_CTRL_EN = s.is F.WIN_CTRL_EN)
    (ep : Nat) (cap : BitVec 512) : t.tokenFault ep cap = s.tokenFault ep cap := by
  simp only [State.tokenFault, State.pushFault, State.keyEnt_congr inv (congrArg Win.keys win), on]

/-- The checks of R234 look at the queues, at two registers, and at no other part of the command queues or the registers. -/
theorem State.validate_congr (frame : Frame [.cq, .regs] s t) (queues : t.cq.queues = s.cq.queues)
    (vol : t.is F.VOL_CTRL_EN = s.is F.VOL_CTRL_EN) (win : t.is F.WIN_CTRL_EN = s.is F.WIN_CTRL_EN) (k port : Nat)
    (cap : BitVec 512) : t.validate k port cap = s.validate k port cap := by
  simp only [State.validate, State.queue?_congr queues, State.adminPort, State.sect, frame.inv_eq,
    State.volumeCheck_congr frame.vol_eq frame.peer_eq frame.cip_eq vol, State.tokenFault_congr frame.inv_eq frame.win_eq win]
  rfl

end

/-! ### A command enters EXECUTING (R41, R238) -/

/-- A slot whose command enters EXECUTING: an admin command then waits for shelf firmware. -/
def Slot.entered (admin : Bool) (x : Slot) : Slot := { x with state := .executing, wait := if admin then .firmware else x.wait }

/-- An entry into EXECUTING hands the command to the Wardens. -/
def Slot.handedOver (k : Nat) (x : Slot) : Bool := decide (k / 32 % 64 = 0) && decide (x.wait = .running)

section
variable {s : State} {c k : Nat} {x : Slot}

theorem State.enterExec_eq (h : s.cmd? c = some (k, x)) : s.enterExec c =
    (s.modCmd c (Slot.entered (x.handedOver k))).when (x.handedOver k) fun s => s.event (.adminCommand c) := by
  unfold State.enterExec
  rw [h]
  rfl

theorem State.enterExec_frame (s : State) (c : Nat) : Frame [.cq, .wdn] s (s.enterExec c) := by
  cases h : s.cmd? c with
  | none =>
    rw [show s.enterExec c = s by simp [State.enterExec, h]]
    exact Frame.refl _ s
  | some y =>
    obtain ⟨k, x⟩ := y
    rw [State.enterExec_eq h]
    exact ((s.modCmd_frame _ _).mono (by decide)).trans (Frame.when _ ((State.event_frame _ _).mono (by decide)))

/-- Of the command queues, an entry into EXECUTING changes the command's slot. -/
theorem State.enterExec_cq (h : s.cmd? c = some (k, x)) :
    (s.enterExec c).cq = (s.modCmd c (Slot.entered (x.handedOver k))).cq := by
  rw [State.enterExec_eq h]
  exact State.when_same _ _ _ (·.cq) rfl

theorem State.cmd?_enterExec (h : s.cmd? c = some (k, x)) :
    (s.enterExec c).cmd? c = some (k, x.entered (x.handedOver k)) :=
  (State.cmd?_congr (congrArg Cq.slots (State.enterExec_cq h)) c).trans (State.cmd?_modCmd_self (fun _ => rfl) h)

/-- An entry that is found stands in the table. -/
theorem Tab.mem_of_find? {α : Type} {j : Nat} {v : α} {t : Tab α} (h : Tab.find? j t = some v) : (j, v) ∈ t := by
  induction t with
  | nil => cases h
  | cons y t ih =>
    obtain ⟨i, w⟩ := y
    simp only [Tab.find?] at h
    split at h
    · next hi => simp [hi, Option.some.inj h]
    · exact List.mem_cons_of_mem _ (ih h)

/-- A command in a slot is found by its acceptance order, though it need not be the only one. -/
theorem State.cmd?_of_slot (h : Tab.find? k s.cq.slots = some x) : ∃ y, s.cmd? x.order = some y := by
  exact Option.isSome_iff_exists.1 (List.find?_isSome.2 ⟨(k, x), Tab.mem_of_find? h, by simp⟩)

/-- A slot whose command enters EXECUTING. -/
theorem State.slot_enterExec (h : Tab.find? k s.cq.slots = some x) :
    ∃ a, Tab.find? k (s.enterExec x.order).cq.slots = some (x.entered a) := by
  obtain ⟨⟨j, y⟩, hc⟩ := State.cmd?_of_slot h
  rw [State.enterExec_cq hc]
  exact ⟨_, State.slot_modCmd_self h⟩

/-- R238 holds back no command that no other was accepted before. -/
theorem State.orderClear_first (h : ∀ y ∈ s.cq.slots, x.order ≤ y.2.order) : s.orderClear k x = true := by
  simp only [State.orderClear, Bool.not_eq_true', List.any_eq_false]
  intro y hy
  simp [Nat.not_lt.2 (h y hy)]

theorem State.orderedRelease_clear (h : s.cmd? c = some (k, x)) (hs : x.state = .waiting) (hw : x.wait ≠ .finished)
    (ho : s.orderClear k x = true) : s.orderedRelease c = s.enterExec c := by
  simp [State.orderedRelease, h, hs, hw, ho]

end

/-! ### A capsule is accepted (R233, R234) -/

/-- A pushed WRITE counts an access of its landing window. -/
def pushes (cap : BitVec 512) : Bool := getPart cap Cap.opcode == 2 && (getPart cap Cap.flags).testBit 4

/-- A slot whose command has passed its checks. -/
def Slot.passed (acc : Option Nat) (covers : List Nat) (wait : Bool) (x : Slot) : Slot :=
  { x with access := acc, covers := covers, wait := if wait then .handover else .running }

/-- The landing window access of a capsule that passes its checks, and the state that counts it. -/
def State.pushAccess (s : State) (cap : BitVec 512) : Option Nat × State :=
  if pushes cap then (some (s.beginAccess (getPart (dataToken cap) Token.key / 65536)).1,
    (s.beginAccess (getPart (dataToken cap) Token.key / 65536)).2) else (none, s)

/-- The stripe writes that a capsule covers, if it is a FLUSH. -/
def State.capCovers (s : State) (cap : BitVec 512) (k : Nat) : List Nat :=
  if getPart cap Cap.opcode = 3 then s.flushCovers k else []

/-- A command has passed its checks and is WAITING. -/
def State.passed (s : State) (k : Nat) (cap : BitVec 512) (w : Bool) (c : Nat) : State :=
  let p := s.pushAccess cap
  (p.2.modCmd c (Slot.passed p.1 (p.2.capCovers cap k) w)).when w fun s => s.event (.volumeCommand c)

/-- A command just accepted is at its place: its slot is taken, the next place follows. -/
def State.accepted (s : State) (k key sa port : Nat) (cap : BitVec 512) : State :=
  (s.onCq fun q => { q with
    order := s.cq.order + 1
    slots := Tab.set key (newSlot cap s.now s.cq.order sa port (s.ep (k / 64))) q.slots }).bump A.CQ_ACCEPTED

section
variable {s : State} {k key sa port c : Nat} {cap : BitVec 512} {w : Bool} {x : Slot}

theorem State.pushAccess_frame (s : State) (cap : BitVec 512) : Frame [.win] s (s.pushAccess cap).2 := by
  unfold State.pushAccess
  split
  · exact (s.setKey_frame _ _).trans (State.onWin_frame _ _)
  · exact Frame.refl _ s

theorem State.passed_frame (s : State) (k : Nat) (cap : BitVec 512) (w : Bool) (c : Nat) :
    Frame [.cq, .win, .wdn] s (s.passed k cap w c) :=
  (((s.pushAccess_frame cap).mono (by decide)).trans ((State.modCmd_frame _ _ _).mono (by decide))).trans
    (Frame.when _ ((State.event_frame _ _).mono (by decide)))

/-- Of the command queues, a command's passing changes its slot. -/
theorem State.passed_cq (s : State) (k : Nat) (cap : BitVec 512) (w : Bool) (c : Nat) : ∃ acc covers,
    (s.passed k cap w c).cq = (s.modCmd c (Slot.passed acc covers w)).cq := by
  refine ⟨(s.pushAccess cap).1, (s.pushAccess cap).2.capCovers cap k, (State.when_same _ _ _ (·.cq) rfl).trans ?_⟩
  rw [State.modCmd, State.modCmd, (s.pushAccess_frame cap).cq_eq]

/-- A command that is WAITING in a slot enters EXECUTING unless R238 holds it back. -/
def State.enterClear (s : State) (key c : Nat) : State :=
  match Tab.find? key s.cq.slots with
  | some x => if s.orderClear key x then s.enterExec c else s
  | none => s

theorem State.enterClear_frame (s : State) (key c : Nat) : Frame [.cq, .wdn] s (s.enterClear key c) := by
  unfold State.enterClear
  split
  · exact Frame.ite (s.enterExec_frame c) (Frame.refl _ s)
  · exact Frame.refl _ s

/-- A slot whose command R238 lets execute shows it in EXECUTING; the others stay. -/
theorem State.slot_enterClear (h : Tab.find? key s.cq.slots = some x) :
    (∃ a, Tab.find? key (s.enterClear key x.order).cq.slots = some (x.entered a)) ∨
      s.orderClear key x = false ∧ s.enterClear key x.order = s := by
  cases ho : s.orderClear key x
  · exact .inr ⟨rfl, by simp [State.enterClear, h, ho]⟩
  · rw [show s.enterClear key x.order = s.enterExec x.order by simp [State.enterClear, h, ho]]
    exact .inl (State.slot_enterExec h)

/-- Of the command queues, an entry into EXECUTING changes the slots. -/
theorem State.enterClear_cq (s : State) (key c : Nat) :
    (s.enterClear key c).cq = { s.cq with slots := (s.enterClear key c).cq.slots } := by
  have enter : (s.enterExec c).cq = { s.cq with slots := (s.enterExec c).cq.slots } := by
    cases h : s.cmd? c with
    | none => simp [State.enterExec, h]
    | some y => rw [State.enterExec_cq h]; rfl
  unfold State.enterClear
  split
  · split
    · exact enter
    · rfl
  · rfl

/-- A capsule that passes the checks of R234. -/
theorem State.checkCmd_ok (hp : s.hst.pantryPoison = []) (hv : s.validate k port cap = .ok w) :
    s.checkCmd k key port cap c = (s.passed k cap w c).enterClear key c := by
  have clean : (s.when (getPart cap Cap.opcode == 2 && (getPart cap Cap.flags).testBit 4) fun s =>
      s.readEntry 0x04 (getPart (dataToken cap) Token.key / 65536)) = s := by simp [State.when, State.readEntry_clean hp]
  unfold State.checkCmd State.passed State.pushAccess pushes
  dsimp only
  rw [clean, hv]
  generalize (getPart cap Cap.opcode == 2 && (getPart cap Cap.flags).testBit 4) = push
  cases push <;> rfl

theorem State.accepted_frame (s : State) (k key sa port : Nat) (cap : BitVec 512) :
    Frame [.cq, .regs] s (s.accepted k key sa port cap) :=
  ((s.onCq_frame _).mono (by decide)).trans ((State.bump_frame _ _ _).mono (by decide))

theorem State.accepted_cq (s : State) (k key sa port : Nat) (cap : BitVec 512) : (s.accepted k key sa port cap).cq = { s.cq with
    order := s.cq.order + 1
    slots := Tab.set key (newSlot cap s.now s.cq.order sa port (s.ep (k / 64))) s.cq.slots } := State.bump_cq _ _ _

/-- An acceptance counts in CQ_ACCEPTED and leaves the other registers. -/
theorem State.is_accepted {f : Fld} (h : A.CQ_ACCEPTED ≠ f.addr) (h' : A.CQ_ACCEPTED + 4 ≠ f.addr) :
    (s.accepted k key sa port cap).is f = s.is f := congrArg (· == 1) (State.fld_bump_ne _ _ h h')

/-- A capsule that passes its checks takes its place and enters EXECUTING unless R238 holds it back. -/
theorem State.acceptCmd_ok (hp : s.hst.pantryPoison = []) (hv : s.validate k port cap = .ok w) : s.acceptCmd k key sa port cap =
    ((s.accepted k key sa port cap).passed k cap w s.cq.order).enterClear key s.cq.order := by
  have frame := s.accepted_frame k key sa port cap
  have queues : (s.accepted k key sa port cap).cq.queues = s.cq.queues := by rw [State.accepted_cq]
  refine State.checkCmd_ok (s := s.accepted k key sa port cap) ((congrArg Hst.pantryPoison frame.hst_eq).trans hp) ?_
  exact (State.validate_congr frame queues (State.is_accepted (by decide) (by decide))
    (State.is_accepted (by decide) (by decide)) k port cap).trans hv

section
variable (hp : s.hst.pantryPoison = []) (hv : s.validate k port cap = .ok w)
include hp hv

theorem State.acceptCmd_frame : Frame [.cq, .win, .wdn] (s.accepted k key sa port cap) (s.acceptCmd k key sa port cap) := by
  rw [State.acceptCmd_ok hp hv]
  exact (State.passed_frame _ _ _ _ _).trans ((State.enterClear_frame _ _ _).mono (by decide))

/-- Of the command queues, an acceptance changes the slots and the next place. -/
theorem State.acceptCmd_cq : (s.acceptCmd k key sa port cap).cq =
    { s.cq with order := s.cq.order + 1, slots := (s.acceptCmd k key sa port cap).cq.slots } := by
  obtain ⟨acc, covers, passed⟩ := (s.accepted k key sa port cap).passed_cq k cap w s.cq.order
  rw [State.acceptCmd_ok hp hv, State.enterClear_cq, passed, State.modCmd, s.accepted_cq k key sa port cap]

/-- The slot of an accepted capsule: at its place, WAITING or EXECUTING; EXECUTING where it is the only one. -/
theorem State.slot_acceptCmd : ∃ x, Tab.find? key (s.acceptCmd k key sa port cap).cq.slots = some x ∧ x.cap = cap ∧
    x.order = s.cq.order ∧ x.accepted = s.now ∧ x.sa = sa ∧ x.port = port ∧ x.state ≠ .completing ∧
    (s.cq.slots = [] → x.state = .executing) := by
  obtain ⟨acc, covers, passed⟩ := (s.accepted k key sa port cap).passed_cq k cap w s.cq.order
  let new := newSlot cap s.now s.cq.order sa port (s.ep (k / 64))
  have slots : (s.accepted k key sa port cap).cq.slots = Tab.set key new s.cq.slots :=
    congrArg Cq.slots (s.accepted_cq k key sa port cap)
  have waiting : Tab.find? key ((s.accepted k key sa port cap).passed k cap w s.cq.order).cq.slots =
      some (new.passed acc covers w) := by
    rw [passed]
    exact State.slot_modCmd_self (x := new) (by rw [slots, Tab.find?_set_self])
  rw [State.acceptCmd_ok hp hv]
  rcases State.slot_enterClear waiting with ⟨a, executing⟩ | ⟨held, same⟩
  · exact ⟨_, executing, rfl, rfl, rfl, rfl, rfl, nofun, fun _ => rfl⟩
  · have stays := (congrArg (fun t : State => Tab.find? key t.cq.slots) same).trans waiting
    refine ⟨_, stays, rfl, rfl, rfl, rfl, rfl, nofun, fun none => ?_⟩
    have clear := State.orderClear_first (s := (s.accepted k key sa port cap).passed k cap w s.cq.order) (k := key)
      (x := new.passed acc covers w) (by simp [passed, State.modCmd, slots, none, Tab.set, Slot.passed, new, newSlot])
    rw [held] at clear
    cases clear

end

/-! ### A capsule of the intake (R233) -/

/-- A capsule of another incarnation than its queue's. -/
theorem State.capsule_stale {q : Queue} (hen : s.is F.CQ_CTRL_EN = true) (hep : (s.ep (s.saGet sa Sa.endpoint)).enabled = true)
    (hq : s.queue? (s.saGet sa Sa.endpoint * 64 + capQueue cap) = some q)
    (hi : getPart cap Cap.incarnation ≠ s.incarnation (s.saGet sa Sa.endpoint * 64 + capQueue cap)) :
    s.capsule cap sa port = s.bump A.CQ_STALE := by
  simp [State.capsule, hen, hep, hq, hi]

/-- A capsule for a free slot of an ACTIVE queue whose ring is bound. -/
theorem State.capsule_fresh {q : Queue} (hp : s.hst.pantryPoison = []) (hen : s.is F.CQ_CTRL_EN = true)
    (hep : (s.ep (s.saGet sa Sa.endpoint)).enabled = true) (hk : k = s.saGet sa Sa.endpoint * 64 + capQueue cap)
    (hkey : key = k * 32 + capTag cap) (hq : s.queue? k = some q) (hs : q.state = .active)
    (hi : getPart cap Cap.incarnation = s.incarnation k) (hf : Tab.find? key s.cq.slots = none) (hr : q.ring.isSome = true) :
    s.capsule cap sa port = (s.freeSlot key).acceptCmd k key sa port cap := by
  subst hk hkey
  simp [State.capsule, hen, hep, hq, hs, hi, State.readEntry_clean hp, hf, hr]

end

end Sys2Proof.Machine
end

section
/-!
SUPPORT. Laws of the queues' own commands (06_command_queues.md R226 to R228, R250 to R252, R262 to R265): what the opening, the
closing and the erasing of a queue leave to be read, of that queue and of the others.
-/

namespace Sys2Proof.Machine

-- Proofs in sequence: the stack of every thread that waits counts against the memory limit of the check.
set_option Elab.async false

/-! ### The answer of a command register's row -/

section
variable {s t : State} {p : Path} {a : Nat} {f : State → State}

/-- A command register's row answers the state that its effect gives, where that has the same queue of commands. -/
theorem State.busUp_next (h : s.up = true) (h' : s.modeLets p a = true) (hf : f s = t) (ht : t.pending = s.pending) :
    (s.row fun s => s.onBusUp p a f) = .next t := by rw [State.busUp_row h h', hf, ← ht]

end

/-! ### One queue and the others -/

section
variable {s : State} {k j n : Nat}

/-- A queue's change as each queue shows it. -/
theorem State.queue?_modQ (s : State) (j k : Nat) (g : Queue → Queue) :
    (s.modQ j g).queue? k = if k = j then (s.queue? k).map g else s.queue? k := by
  refine (Tab.find?_map k s.cq.queues (g := fun x => if x.1 = j then (x.1, g x.2) else x) fun x => ?_).trans ?_
  · split <;> rfl
  · by_cases h : k = j <;> simp [h, State.queue?]

/-- A queue that exists is listed. -/
theorem State.queue_listed (h : (s.queue? k).isSome = true) : k ∈ s.cq.queues.map (·.1) := by
  by_contra hk
  rw [show s.queue? k = none from Tab.find?_eq_none hk] at h
  cases h

theorem State.moveIncarnation_frame (s : State) (k : Nat) : Frame [.cq] s (s.moveIncarnation k) :=
  s.onCq_frame fun c => { c with incarnation := Tab.set k (nextIncarnation (s.incarnation k)) c.incarnation }

theorem State.incarnation_moveIncarnation_self (s : State) (k : Nat) :
    (s.moveIncarnation k).incarnation k = nextIncarnation (s.incarnation k) := Tab.getD_set_self ..

theorem State.incarnation_moveIncarnation_ne (h : j ≠ k) (s : State) : (s.moveIncarnation k).incarnation j = s.incarnation j :=
  Tab.getD_set_ne (Ne.symm h) ..

/-- A command's settling leaves the queues. -/
theorem State.queue?_finish (s : State) (c status k : Nat) : (s.finish c status).queue? k = s.queue? k := rfl

theorem State.queue?_setResult (s : State) (c v k : Nat) : (s.setResult c v).queue? k = s.queue? k := rfl

theorem State.incarnation_finish (s : State) (c status k : Nat) : (s.finish c status).incarnation k = s.incarnation k := rfl

theorem State.incarnation_setResult (s : State) (c v k : Nat) : (s.setResult c v).incarnation k = s.incarnation k := rfl

/-! ### A queue opens (R226, R228, R250) -/

/-- A queue as it comes to exist. -/
def Queue.opened (slot : Nat) (ring : Option (BitVec 128)) : Queue := ⟨slot, .active, ring, 0, true, none, []⟩

theorem State.openQueue_frame (s : State) (k n : Nat) (ring : Option (BitVec 128)) : Frame [.cq] s (s.openQueue k n ring) :=
  (s.onCq_frame _).trans (State.moveIncarnation_frame _ k)

theorem State.queue?_openQueue_self (s : State) (k n : Nat) (ring : Option (BitVec 128)) :
    (s.openQueue k n ring).queue? k = some (Queue.opened n ring) := Tab.find?_set_self ..

theorem State.queue?_openQueue_ne (h : j ≠ k) (s : State) (n : Nat) (ring : Option (BitVec 128)) :
    (s.openQueue k n ring).queue? j = s.queue? j := Tab.find?_set_ne (Ne.symm h) ..

theorem State.incarnation_openQueue (s : State) (k n : Nat) (ring : Option (BitVec 128)) :
    (s.openQueue k n ring).incarnation k = nextIncarnation (s.incarnation k) := State.incarnation_moveIncarnation_self _ k

/-- A queue opens with its ring, and the command that asked for it answers its incarnation. -/
def State.created (s : State) (c k n : Nat) (ring : BitVec 128) : State :=
  (s.openQueue k n (some ring)).setResult c ((s.openQueue k n (some ring)).incarnation k)

theorem State.created_frame (s : State) (c k n : Nat) (ring : BitVec 128) : Frame [.cq] s (s.created c k n ring) :=
  (s.openQueue_frame k n (some ring)).trans (State.setResult_frame _ c _)

section
variable (s : State) (c k n : Nat) (ring : BitVec 128)

theorem State.queue?_created_self : (s.created c k n ring).queue? k = some (Queue.opened n (some ring)) :=
  (State.queue?_setResult _ _ _ _).trans (s.queue?_openQueue_self k n (some ring))

theorem State.queue?_created_ne (h : j ≠ k) : (s.created c k n ring).queue? j = s.queue? j :=
  (State.queue?_setResult _ _ _ _).trans (State.queue?_openQueue_ne h s n (some ring))

theorem State.incarnation_created : (s.created c k n ring).incarnation k = nextIncarnation (s.incarnation k) :=
  (State.incarnation_setResult _ _ _ _).trans (s.incarnation_openQueue k n (some ring))

theorem State.cmd?_created {key : Nat} {x : Slot} (h : s.cmd? c = some (key, x)) : (s.created c k n ring).cmd? c =
    some (key, { x with result := (s.openQueue k n (some ring)).incarnation k }) :=
  State.cmd?_setResult (s := s.openQueue k n (some ring)) h _

end

/-- QUEUE_CREATE of a queue that does not exist, with a good ring and a free queue slot. -/
theorem State.queueCreate_opens {c : Nat} {cap : BitVec 512} (hq : s.queue? k = none) (hr : ringOk (dataToken cap) = true)
    (hn : s.freeQueueSlot = some n) :
    s.queueCreate k c cap = (s.created c k n (dataToken cap)).finish c St.success := by
  simp [State.queueCreate, State.created, hq, hr, hn]

theorem State.adminCreate_opens {c key : Nat} {x : Slot} (hx : s.adminCmd c 0x20 = some (key, x))
    (hq : s.queue? (namedQueue key x) = none) (hr : ringOk (dataToken x.cap) = true) (hn : s.freeQueueSlot = some n) :
    s.adminCreate c = (s.created c (namedQueue key x) n (dataToken x.cap)).finish c St.success :=
  (State.admin_taken hx _).trans (State.queueCreate_opens hq hr hn)

/-- An endpoint as it is enabled. -/
def Endpoint.on : Endpoint := { epDefault with enabled := true }

/-- EP_ENABLE of a disabled endpoint with a free queue slot, while no CQ_CMD is under way. -/
theorem State.cqCmd_enable {e : Nat} (hrun : s.cq.run = none) (hn : s.freeQueueSlot = some n) (he : (s.ep e).enabled = false) :
    s.cqCmd 2 e = (s.setEp e Endpoint.on).openQueue (e * 64) n none := by
  simp [State.cqCmd, hrun, State.epEnable, hn, he, Endpoint.on]

theorem State.setEp_frame (s : State) (e : Nat) (y : Endpoint) : Frame [.cq] s (s.setEp e y) := s.onCq_frame _

/-! ### A queue closes (R252, R262, R264) -/

/-- A queue as it closes; a FAILED one starts its ring afresh. -/
def Queue.closed (how : Option Closing) (q : Queue) : Queue :=
  { q with
    state := .resetting
    closing := how
    producer := if decide (q.state = .failed) then 0 else q.producer
    phase := decide (q.state = .failed) || q.phase }

theorem Queue.closed_active {q : Queue} (h : q.state = .active) (how : Option Closing) :
    q.closed how = { q with state := .resetting, closing := how } := by simp [Queue.closed, h]

theorem State.closeQueue_frame (s : State) (k : Nat) (how : Option Closing) : Frame [.cq] s (s.closeQueue k how) :=
  (s.modQ_frame k _).trans (State.moveIncarnation_frame _ k)

theorem State.queue?_closeQueue (s : State) (j k : Nat) (how : Option Closing) :
    (s.closeQueue j how).queue? k = if k = j then (s.queue? k).map (Queue.closed how) else s.queue? k :=
  s.queue?_modQ j k (Queue.closed how)

theorem State.incarnation_closeQueue_self (s : State) (k : Nat) (how : Option Closing) :
    (s.closeQueue k how).incarnation k = nextIncarnation (s.incarnation k) := State.incarnation_moveIncarnation_self _ k

theorem State.incarnation_closeQueue_ne (h : j ≠ k) (s : State) (how : Option Closing) :
    (s.closeQueue k how).incarnation j = s.incarnation j := State.incarnation_moveIncarnation_ne h _

/-- With no command of the queue WAITING or EXECUTING there is none to stop. -/
theorem State.stopQueue_idle (h : s.queueCmds k = []) : s.stopQueue k = s := by simp [State.stopQueue, h, State.each]

/-- QUEUE_RESET or QUEUE_DELETE of a queue without commands, with its ring kept. -/
theorem State.queueClose_idle {c : Nat} {q : Queue} {cap : BitVec 512} (hq : s.queue? k = some q) (ht : dataToken cap = 0)
    (hc : s.queueCmds k = []) (d : Bool) : s.queueClose k c d cap = s.closeQueue k (some ⟨c, none, d⟩) := by
  have idle : (s.closeQueue k (some ⟨c, none, d⟩)).queueCmds k = [] := hc
  simp [State.queueClose, hq, ht, State.stopQueue_idle idle]

theorem State.adminClose_begins {c key : Nat} {x : Slot} {q : Queue} {d : Bool} (hcl : s.closingOf c = none)
    (hx : s.adminCmd c (if d then 0x21 else 0x22) = some (key, x)) (hq : s.queue? (namedQueue key x) = some q)
    (ht : dataToken x.cap = 0) (hc : s.queueCmds (namedQueue key x) = []) :
    s.adminClose c d = s.closeQueue (namedQueue key x) (some ⟨c, none, d⟩) := by
  rw [State.adminClose, hcl, State.admin_taken hx]
  exact State.queueClose_idle hq ht hc d

/-! ### A closing ends (R251, R252, R262) -/

theorem State.eraseQueue_frame (s : State) (k : Nat) : Frame [.cq] s (s.eraseQueue k) := s.onCq_frame _

theorem State.queue?_eraseQueue_self (s : State) (k : Nat) : (s.eraseQueue k).queue? k = none := Tab.find?_erase_self ..

/-- A queue's end leaves the commands of the other queues. -/
theorem State.cmd?_eraseQueue {c key : Nat} {x : Slot} (h : s.cmd? c = some (key, x)) (hk : queueOf key ≠ k) :
    (s.eraseQueue k).cmd? c = some (key, x) := by
  obtain ⟨hx, before, after, hs, hb⟩ := List.find?_eq_some_iff_append.1 h
  refine List.find?_eq_some_iff_append.2 ⟨hx, before.filter fun x => queueOf x.1 != k,
    after.filter fun x => queueOf x.1 != k, ?_, fun y hy => hb y (List.mem_filter.1 hy).1⟩
  simp [State.eraseQueue, hs, hk]

theorem State.eraseQueue_slots (s : State) (k : Nat) : ∀ z ∈ (s.eraseQueue k).cq.slots, queueOf z.1 ≠ k := fun z hz => by
  simpa using (List.mem_filter.1 hz).2

/-- A command's change leaves the keys of the slots. -/
theorem State.modCmd_keys {P : Nat → Prop} (h : ∀ z ∈ s.cq.slots, P z.1) (c : Nat) (f : Slot → Slot) :
    ∀ z ∈ (s.modCmd c f).cq.slots, P z.1 := fun z hz => by
  obtain ⟨y, hy, rfl⟩ := List.mem_map.1 hz
  split
  · exact h y hy
  · exact h y hy

/-- A reset that bound no new ring ends. -/
theorem State.closingEnd_reset {q : Queue} (hq : s.queue? k = some q) (hs : q.state = .resetting) (c : Nat) :
    (s.closingEnd k ⟨c, none, false⟩).queue? k = some { q with state := .active, closing := none } := by
  simp [State.closingEnd, State.queue?_modQ, hq, hs]

theorem State.closingEnd_frame (s : State) (k : Nat) (h : Closing) : Frame [.cq] s (s.closingEnd k h) :=
  Frame.ite (s.eraseQueue_frame k) (s.modQ_frame k _)

theorem State.closingEnd_incarnation (s : State) (k : Nat) (h : Closing) (j : Nat) :
    (s.closingEnd k h).incarnation j = s.incarnation j := by
  unfold State.closingEnd
  split <;> rfl

/-- QUEUE_RESET or QUEUE_DELETE goes on with its queue quiet. -/
theorem State.queueCloseOn_quiet {c : Nat} {q : Queue} {h : Closing} (hc : s.closingOf c = some (k, q)) (hq : q.closing = some h)
    (hs : s.queueQuiet k = true) (d : Bool) : s.queueCloseOn c d =
    ((s.closingEnd k h).setResult c (if d then 0 else s.incarnation k)).finish c St.success := by
  simp [State.queueCloseOn, hc, hq, hs, State.closingEnd_incarnation]

theorem State.adminClose_ends {c : Nat} {q : Queue} {h : Closing} (hw : s.firmwareRuns = true)
    (hc : s.closingOf c = some (k, q)) (hq : q.closing = some h) (hs : s.queueQuiet k = true) (d : Bool) : s.adminClose c d =
    ((s.closingEnd k h).setResult c (if d then 0 else s.incarnation k)).finish c St.success := by
  rw [State.adminClose, hc, hw]
  exact State.queueCloseOn_quiet hc hq hs d

/-! ### Endpoints and the controller (R264, R265) -/

theorem State.cqRunEnd_frame (s : State) : Frame [.cq, .regs] s s.cqRunEnd :=
  ((s.onCq_frame _).mono (by decide)).trans ((State.flag_frame _ _).mono (by decide))

theorem State.cqRunEnd_cq (s : State) : s.cqRunEnd.cq = { s.cq with run := none } := State.flag_cq _ _

theorem State.is_cqRunEnd (s : State) : s.cqRunEnd.is F.CQ_STATUS_RESET_DONE = true := State.is_flag _ (by decide) (by decide)

/-- EP_DISABLE of an endpoint without I/O queues begins. -/
theorem State.disableEndpoint_begins {e : Nat} (hrun : s.cq.run = none) (he : (s.ep e).enabled = true)
    (hi : s.ioQueues e = []) : s.disableEndpoint e = s.onCq fun c => { c with run := some (.disable e) } := by
  simp [State.disableEndpoint, hrun, State.cqCmd, State.epDisable, he, hi, State.each]

/-- An endpoint is disabled, its queue 0 gone. -/
def State.epGone (s : State) (e : Nat) : State := (s.eraseQueue (e * 64)).setEp e epDefault

theorem State.epGone_frame (s : State) (e : Nat) : Frame [.cq] s (s.epGone e) :=
  (s.eraseQueue_frame _).trans (State.setEp_frame _ e epDefault)

/-- EP_DISABLE ends with its queue 0 quiet. -/
theorem State.disableEndpoint_ends {e : Nat} {q : Queue} (hrun : s.cq.run = some (.disable e)) (hi : s.ioQueues e = [])
    (hq : s.queue? (e * 64) = some q) (hs : q.state = .resetting) (hz : s.queueQuiet (e * 64) = true) :
    s.disableEndpoint e = (s.epGone e).cqRunEnd := by
  simp [State.disableEndpoint, hrun, State.epDisableOn, hi, hq, hs, hz, State.epGone]

section
variable {f : State → Nat → State} {g : Queue → Queue} {st : QueueState}
variable (one : ∀ s j k, (f s j).queue? k = if k = j then (s.queue? k).map g else s.queue? k) (reach : ∀ q, (g q).state = st)
include one reach

/-- A change of every queue that leads to one state leaves every queue in it. -/
theorem State.queues_each_state {q : Queue} (h : (s.each (s.cq.queues.map (·.1)) f).queue? k = some q) : q.state = st := by
  have exist : ((s.each (s.cq.queues.map (·.1)) f).queue? k).isSome = (s.queue? k).isSome :=
    State.each_same _ _ _ (fun s => (s.queue? k).isSome) fun s j _ => by
      rw [one]
      split <;> simp
  have listed : k ∈ s.cq.queues.map (·.1) := State.queue_listed (exist.symm.trans (by rw [h]; rfl))
  refine State.each_reaches (P := fun s => ∀ q, s.queue? k = some q → q.state = st) (fun s j hs q hq => ?_) (fun s q hq => ?_)
    listed s q h
  · rw [one] at hq
    split at hq
    · obtain ⟨p, -, rfl⟩ := Option.map_eq_some_iff.1 hq
      exact reach p
    · exact hs q hq
  · rw [one, if_pos rfl] at hq
    obtain ⟨p, -, rfl⟩ := Option.map_eq_some_iff.1 hq
    exact reach p

end

theorem State.each_closeQueue_frame (s : State) (l : List Nat) : Frame [.cq] s (s.each l fun s k => s.closeQueue k none) :=
  Frame.each (fun s k => s.closeQueue_frame k none) l s

/-- The closing of each queue once moves each incarnation once. -/
theorem State.incarnation_each_closeQueue {l : List Nat} (hl : l.Nodup) (hk : k ∈ l) (s : State) :
    (s.each l fun s k => s.closeQueue k none).incarnation k = nextIncarnation (s.incarnation k) :=
  (State.each_own (get := State.incarnation) (fun s k => s.incarnation_closeQueue_self k none)
    (fun s _ _ h => State.incarnation_closeQueue_ne h s none) hl s k).trans (if_pos hk)

theorem State.modDrive_drives_frame (s : State) (b : Nat) (d : Drive → Drive) : Frame [.drives] s (s.modDrive b d) := by
  intro x hx
  cases x
  case drives => exact absurd (by decide) hx
  all_goals rfl

/-- A checkpoint's start changes the stripe unit, the drives and its status. -/
theorem State.ckptStart_frame (s : State) (d : Bool) : Frame [.str, .drives, .regs] s (s.ckptStart d) := by
  unfold State.ckptStart
  refine Frame.ite (Frame.refl _ s) (Frame.ite ?late ?begins)
  case late => exact ((s.onStr_frame _).mono (by decide)).trans ((State.flag_frame _ _).mono (by decide))
  case begins =>
    unfold State.ckptBegin
    refine Frame.trans (Frame.each (fun s c => ?_) _ s) ((State.onStr_frame _ _).mono (by decide))
    exact (s.modDrive_drives_frame c.2.2 _).mono (by decide)

/-- CONTROLLER_RESET has begun: it is under way, and every queue is closed. -/
def State.allClosed (s : State) : State :=
  (s.onCq fun c => { c with run := some (.controller false) }).each (s.cq.queues.map (·.1)) fun s k => s.closeQueue k none

theorem State.allClosed_frame (s : State) : Frame [.cq] s s.allClosed :=
  (s.onCq_frame _).trans (State.each_closeQueue_frame _ _)

theorem State.allClosed_run (s : State) : s.allClosed.cq.run = some (.controller false) :=
  State.each_same _ _ _ (·.cq.run) fun _ _ _ => rfl

theorem State.allClosed_slots (s : State) : s.allClosed.cq.slots = s.cq.slots :=
  State.each_same _ _ _ (·.cq.slots) fun _ _ _ => rfl

theorem State.allClosed_state {q : Queue} (h : s.allClosed.queue? k = some q) : q.state = .resetting :=
  State.queues_each_state (s := s.onCq fun c => { c with run := some (.controller false) }) (g := Queue.closed none)
    (fun s j k => s.queue?_closeQueue j k none) (fun _ => rfl) h

/-- Each queue listed once, every incarnation moves on. -/
theorem State.incarnation_allClosed {q : Queue} (hs : Tab.sorted s.cq.queues = true) (hq : s.queue? k = some q) :
    s.allClosed.incarnation k = nextIncarnation (s.incarnation k) := by
  have once : (s.cq.queues.map (·.1)).Nodup := ((Tab.sorted_iff _).1 hs).imp Nat.ne_of_lt
  exact State.incarnation_each_closeQueue once (State.queue_listed (by rw [hq]; rfl)) _

/-- CONTROLLER_RESET begins where no CQ_CMD is under way. -/
theorem State.resetController_begins (h : s.cq.run = none) : s.resetController = s.allClosed.ckptStart false := by
  simp [State.resetController, h, State.cqCmd, State.controllerReset, State.allClosed]

/-- A queue as a CONTROLLER_RESET ends; a FAILED one starts its ring afresh. -/
def Queue.reopened (q : Queue) : Queue :=
  { q with
    state := .active
    producer := if decide (q.state = .failed) then 0 else q.producer
    phase := decide (q.state = .failed) || q.phase }

/-- Every queue is ACTIVE again. -/
def State.allReopened (s : State) : State := s.each (s.cq.queues.map (·.1)) fun s k => s.modQ k Queue.reopened

theorem State.allReopened_frame (s : State) : Frame [.cq] s s.allReopened := Frame.each (fun s k => s.modQ_frame k _) _ s

theorem State.allReopened_state {q : Queue} (h : s.allReopened.queue? k = some q) : q.state = .active :=
  State.queues_each_state (fun s j k => s.queue?_modQ j k Queue.reopened) (fun _ => rfl) h

/-- CONTROLLER_RESET ends with every queue quiet. -/
theorem State.resetController_ends (hrun : s.cq.run = some (.controller true))
    (h : ∀ x ∈ s.cq.queues, s.queueQuiet x.1 = true) : s.resetController = s.allReopened.cqRunEnd := by
  have quiet : (s.cq.queues.map (·.1)).all s.queueQuiet = true := by simpa using fun a b => h (a, b)
  unfold State.resetController State.controllerResetOn
  rw [hrun]
  dsimp only
  rw [quiet]
  rfl

end

end Sys2Proof.Machine
end

section
/-!
SUPPORT. Laws of the admin commands (06_command_queues.md R250, R259, R261; 16_wardens.md R623, R624; 19_management.md R715, R721,
R722): the start and the end of a self-test, the page that a command places, and what the firmware commands stage and write.
-/

namespace Sys2Proof.Machine

-- Proofs in sequence: the stack of every thread that waits counts against the memory limit of the check.
set_option Elab.async false

/-! ### Self-tests (R259, R261, R715) -/

section
variable {s : State} {kind path endpoint : Nat}

/-- The patrols alone change. -/
theorem State.setPatrols_eq {f : Patrol → Patrol} (l : List Nat) (s : State) :
    ∃ p, (s.each l fun s g => s.setPatrol g (f (s.patrol g))) = { s with rbd := { s.rbd with patrols := p } } := by
  induction l generalizing s with
  | nil => exact ⟨s.rbd.patrols, rfl⟩
  | cons g l ih =>
    obtain ⟨p, h⟩ := ih (s.setPatrol g (f (s.patrol g)))
    exact ⟨p, h⟩

theorem State.patrol_setPatrol_self (s : State) (g : Nat) (p : Patrol) : (s.setPatrol g p).patrol g = p := Tab.getD_set_self ..

theorem State.patrol_setPatrol_ne {g j : Nat} (h : j ≠ g) (s : State) (p : Patrol) : (s.setPatrol g p).patrol j = s.patrol j :=
  Tab.getD_set_ne (Ne.symm h) ..

/-- A self-test as it starts. -/
def State.newTest (s : State) (kind path endpoint : Nat) : SelfTest :=
  ⟨kind, path, endpoint, s.now, [], 0, if kind = 2 then (s.testGroups.map fun g => getPart (s.grp g) Grp.stripes).sum else 12⟩

theorem State.testStart_short (h : s.mgt.test = none) :
    s.testStart 1 path endpoint = s.onMgt fun m => { m with test := some (s.newTest 1 path endpoint) } := by
  simp [State.testStart, h, State.onMgt, State.newTest]

/-- A patrol with the part that an extended self-test walks. -/
def Patrol.walk (p : Patrol) : Patrol := { p with ext := some 0 }

theorem State.testStart_extended (h : s.mgt.test = none) : s.testStart 2 path endpoint =
    (s.onMgt fun m => { m with test := some (s.newTest 2 path endpoint) }).each s.testGroups fun s g =>
      s.setPatrol g (s.patrol g).walk := by
  simp [State.testStart, h, State.onMgt, State.newTest]
  rfl

theorem State.testGroups_nodup (s : State) : s.testGroups.Nodup := List.nodup_range.filter _

/-- The log entry of a self-test that ends now. -/
def State.testEntry (s : State) (t : SelfTest) (outcome : Nat) : TestEntry where
  result := Machine.testResult t outcome
  start := t.start
  stop := s.now
  path := t.path
  endpoint := t.endpoint
  inst := match t.found with | x :: _ => x.2 | [] => 0

/-- The log takes a self-test that ends. -/
def State.testLogged (s : State) (t : SelfTest) (outcome : Nat) : State :=
  s.onMgt fun m => { m with test := none, log := (s.testEntry t outcome :: m.log).take 8 }

theorem State.testEnd_eq {t : SelfTest} (h : s.mgt.test = some t) (outcome : Nat) : ∃ p,
    s.testEnd outcome = { s.testLogged t outcome with rbd := { s.rbd with patrols := p } }.flag F.MGT_STATUS_ST_DONE := by
  obtain ⟨p, hp⟩ := State.setPatrols_eq (f := fun p => { p with ext := none })
    ((List.range 8).filter fun g => (s.patrol g).ext.isSome) (s.testLogged t outcome)
  refine ⟨p, ?_⟩
  unfold State.testEnd
  rw [h]
  exact congrArg (State.flag · F.MGT_STATUS_ST_DONE) hp

end

/-! ### Pages (R721, R722) -/

theorem leBytes_length (n v : Nat) : (leBytes n v).length = n := by
  induction n generalizing v with
  | zero => rfl
  | succ n ih => simp [leBytes, ih]

/-- A page has its size where its fields lie within it. -/
theorem pageOf_length {n : Nat} {l : List (Nat × List Byte)} (h : ∀ x ∈ l, x.1 + x.2.length ≤ n) : (pageOf n l).length = n := by
  have field : ∀ (p : List Byte) (x : Nat × List Byte), p.length = n → x.1 + x.2.length ≤ n →
      (p.take x.1 ++ x.2 ++ p.drop (x.1 + x.2.length)).length = n := fun p x hp hx => by
    simp only [List.length_append, List.length_take, List.length_drop]
    omega
  have fields : ∀ p : List Byte, p.length = n →
      (l.foldl (fun p x => p.take x.1 ++ x.2 ++ p.drop (x.1 + x.2.length)) p).length = n := by
    induction l with
    | nil => exact fun p hp => hp
    | cons x l ih =>
      exact fun p hp => ih (fun y hy => h y (List.mem_cons_of_mem _ hy)) _ (field p x hp (h x (List.mem_cons_self ..)))
  exact fields _ (List.length_replicate ..)

theorem State.controllerPage_length (s : State) : s.controllerPage.length = 4096 := by
  have name : (padTo 16 (ascii "SK24-A1-F77     ")).length = 16 := by decide
  refine pageOf_length ?_
  simp [leBytes_length, name]

theorem State.volumePage_length (s : State) (v ep : Nat) : (s.volumePage v ep).length = 4096 := by
  refine pageOf_length ?_
  simp [leBytes_length]

theorem State.endpointPage_length (s : State) (ep sa : Nat) : (s.endpointPage ep sa).length = 4096 := by
  have incs : ((List.range 64).flatMap fun q => leBytes 2 (s.incarnation (ep * 64 + q))).length = 128 := by
    simp [List.length_flatMap, leBytes_length]
  refine pageOf_length fun x hx => ?_
  rcases List.mem_append.1 hx with hx | hx
  · simp only [List.mem_cons, List.not_mem_nil, or_false] at hx
    rcases hx with rfl | rfl | rfl | rfl | rfl <;> simp [leBytes_length, incs]
  · cases hk : s.landingKey ep with
    | none => simp [hk] at hx
    | some k =>
      simp only [hk, List.mem_cons, List.not_mem_nil, or_false] at hx
      rcases hx with rfl | rfl <;> simp [leBytes_length]

/-! ### A message that a command starts (R208, R250) -/

section
variable {s : State} {c k sa : Nat} {m : TxMsg} {x : Slot}

/-- A slot whose command has started a data message. -/
def Slot.sends (key : Nat) (x : Slot) : Slot := { x with messages := x.messages ++ [key] }

/-- A slot whose command has started a FETCH. -/
def Slot.asks (m : TxMsg) (id : Nat) (x : Slot) : Slot :=
  { x with fetches := x.fetches ++ [(id, m.offset - getPart (dataToken x.cap) Token.base, m.length)] }

theorem State.takeTx_readData {i : Nat} (hu : m.use = .readData c i) :
    ∃ key, s.takeTx sa m = (s.entryTaken sa m).modCmd c (Slot.sends key) := by
  obtain ⟨key, sa', id, opcode, commit, group, length, wkey, offset, use, data, packets, first⟩ := m
  obtain rfl : use = .readData c i := hu
  exact ⟨_, rfl⟩

theorem State.takeTx_fetch (hu : m.use = .fetch c) :
    s.takeTx sa m = (s.entryTaken sa m).modCmd c (Slot.asks m (s.startId sa m)) := by
  obtain ⟨key, sa', id, opcode, commit, group, length, wkey, offset, use, data, packets, first⟩ := m
  obtain rfl : use = .fetch c := hu
  rfl

/-- A message's start changes the transport and its command's slot. -/
theorem State.takeTx_frame_trn (s : State) (sa : Nat) (m : TxMsg) : Frame [.cq, .trn] s (s.takeTx sa m) :=
  ((s.entryTaken_frame sa m).mono (by decide)).trans ((s.takeTx_frame sa m).mono (by decide))

theorem State.takeTx_tx (s : State) (sa : Nat) (m : TxMsg) : (s.takeTx sa m).trn.tx = s.trn.tx ++
    [{ m with key := s.trn.nextKey, sa := sa, id := s.startId sa m }] :=
  (congrArg Trn.tx (s.takeTx_frame sa m).trn_eq).trans (s.entryTaken_tx sa m)

/-- A command's slot stays as a message takes its send entry. -/
theorem State.cmd?_entryTaken (s : State) (sa : Nat) (m : TxMsg) (c : Nat) : (s.entryTaken sa m).cmd? c = s.cmd? c :=
  State.cmd?_congr (congrArg Cq.slots (s.entryTaken_frame sa m).cq_eq) c

/-- The message that places a page into a command's DATA_TOKEN. -/
def Slot.pageMsg (c : Nat) (x : Slot) (l : List Byte) : TxMsg :=
  msgOf .place l.length (getPart (dataToken x.cap) Token.key) (getPart (dataToken x.cap) Token.base) (.readData c 0) (.bytes l)

/-- That message as it takes its send entry. -/
def State.pageSent (s : State) (c : Nat) (x : Slot) (l : List Byte) : TxMsg :=
  { x.pageMsg c l with key := s.trn.nextKey, sa := x.sa, id := s.startId x.sa (x.pageMsg c l) }

/-- The message that asks for the bytes of a command's DATA_TOKEN. -/
def Slot.segmentMsg (c : Nat) (x : Slot) (n : Nat) : TxMsg :=
  msgOf .fetch n (getPart (dataToken x.cap) Token.key) (getPart (dataToken x.cap) Token.base) (.fetch c) .none

section
variable (hsa : s.saState x.sa = Sas.active) (hheld : s.trn.held = [])
  (hr : s.roomFor x.sa (msgOf .place 16 0 0 (.completion c) .none) = true)
include hsa hheld hr

/-- With room for a completion there is room for a page, which takes a send entry of its own. -/
theorem State.placeData_taken (l : List Byte) : s.placeData c x l = s.takeTx x.sa (x.pageMsg c l) :=
  State.startMsg_taken hsa rfl ((State.roomFor_congr (m := msgOf .place 16 0 0 (.completion c) .none) rfl rfl rfl).trans hr) hheld

theorem State.placeData_frame (l : List Byte) : Frame [.cq, .trn] s (s.placeData c x l) := by
  rw [State.placeData_taken hsa hheld hr]
  exact s.takeTx_frame_trn _ _

theorem State.tx_placeData (l : List Byte) : (s.placeData c x l).trn.tx = s.trn.tx ++ [s.pageSent c x l] := by
  rw [State.placeData_taken hsa hheld hr]
  exact s.takeTx_tx _ _

theorem State.cmd?_placeData (hc : s.cmd? c = some (k, x)) (l : List Byte) :
    ∃ key, (s.placeData c x l).cmd? c = some (k, x.sends key) := by
  rw [State.placeData_taken hsa hheld hr]
  obtain ⟨key, taken⟩ := State.takeTx_readData (s := s) (sa := x.sa) (m := x.pageMsg c l) (c := c) rfl
  rw [taken]
  exact ⟨key, State.cmd?_modCmd_self (fun _ => rfl) ((s.cmd?_entryTaken _ _ c).trans hc)⟩

end

/-! ### IDENTIFY and LOG_READ (R721, R722) -/

/-- The page that IDENTIFY asks for. -/
def State.identifyPage (s : State) (key : Nat) (x : Slot) : List Byte :=
  if x.arg0 = 0 then s.volumePage x.volume (endpointOf key)
  else if x.arg0 = 1 then s.controllerPage else s.endpointPage (endpointOf key) x.sa

theorem State.identifyPage_length (s : State) (key : Nat) (x : Slot) : (s.identifyPage key x).length = 4096 := by
  unfold State.identifyPage
  split
  · exact s.volumePage_length _ _
  · split
    · exact s.controllerPage_length
    · exact s.endpointPage_length _ _

theorem State.adminIdentify_page (h : s.adminCmd c 0x41 = some (k, x)) (hn : 4096 ≤ getPart (dataToken x.cap) Token.length) :
    s.adminIdentify c = (s.placeData c x (s.identifyPage k x)).finish c St.success := by
  have page : (match x.arg0 with
      | 0 => s.volumePage x.volume (endpointOf k)
      | 1 => s.controllerPage
      | _ => s.endpointPage (endpointOf k) x.sa) = s.identifyPage k x := by
    unfold State.identifyPage
    split <;> simp_all
  rw [← page, State.adminIdentify, State.admin_taken h]
  exact if_neg (Nat.not_lt.2 hn)

/-- The part of a log page that LOG_READ asks for. -/
def State.logPart (s : State) (x : Slot) : List Byte :=
  ((s.logPage x.arg0).drop x.arg1).take (getPart (dataToken x.cap) Token.length)

theorem State.adminLogRead_page (h : s.adminCmd c 0x42 = some (k, x)) (hn : 4 ≤ getPart (dataToken x.cap) Token.length)
    (hn' : getPart (dataToken x.cap) Token.length ≤ 65536) :
    s.adminLogRead c = ((s.placeData c x (s.logPart x)).setResult c (s.logPart x).length).finish c St.success := by
  rw [State.adminLogRead, State.admin_taken h]
  exact if_neg (by omega)

/-! ### FIRMWARE_SEGMENT (R623) -/

/-- A slot whose FIRMWARE_SEGMENT has taken write staging. -/
def Slot.segmentBegun (a : Nat) (x : Slot) : Slot := { x with started := true, staging := some a }

/-- A FIRMWARE_SEGMENT whose bytes may be staged: n of them, whole pages of the staging area's free part. -/
structure State.MayStage (s : State) (x : Slot) (n : Nat) : Prop where
  length : n = getPart (dataToken x.cap) Token.length
  pos : 0 < n
  pages : n % 4096 = 0
  most : n ≤ 1048576
  fits : x.arg0 + n ≤ stagingSize
  fresh : s.wdn.staged = []
  idle : s.activation = none

/-- The cells that the Wardens take of the Cellar are counted. -/
theorem State.cellsTaken_frame (s : State) (agent n : Nat) : Frame [.regs] s (s.cellsTaken agent n) :=
  Frame.ite (Frame.refl _ s) (s.bump_frame _ _)

theorem State.rangePoison_cellsTaken (s : State) (agent n a l : Nat) :
    (s.cellsTaken agent n).rangePoison a l = s.rangePoison a l := by
  unfold State.cellsTaken
  split <;> rfl

theorem State.cellar_cellsTaken (s : State) (agent n a l : Nat) : (s.cellsTaken agent n).cellar a l = s.cellar a l := by
  unfold State.cellsTaken
  split <;> rfl

/-- FIRMWARE_SEGMENT asks for its bytes. -/
theorem State.adminSegment_begins {n a : Nat} (h : s.adminCmd c 0x45 = some (k, x)) (hm : s.MayStage x n)
    (hb : x.started = false) (ha : s.findStaging n = some a) :
    s.adminSegment c = (s.modCmd c (Slot.segmentBegun a)).startMsg x.sa (x.segmentMsg c n) := by
  obtain ⟨rfl, pos, pages, most, fits, fresh, idle⟩ := hm
  have room : ¬ stagingSize < x.arg0 + getPart (dataToken x.cap) Token.length := Nat.not_lt.2 fits
  rw [State.adminSegment, State.admin_taken h]
  simp [hb, fresh, idle, pages, room, ha, Nat.ne_of_gt pos, Nat.not_lt.2 most]
  rfl

/-- FIRMWARE_SEGMENT has asked for its bytes. -/
def State.segmentAsked (s : State) (c a n : Nat) (x : Slot) : State :=
  (s.modCmd c (Slot.segmentBegun a)).takeTx x.sa (x.segmentMsg c n)

/-- The FETCH of a FIRMWARE_SEGMENT as it takes its send entry. -/
def State.segmentSent (s : State) (c n : Nat) (x : Slot) : TxMsg :=
  { x.segmentMsg c n with key := s.trn.nextKey, sa := x.sa, id := s.startId x.sa (x.segmentMsg c n) }

theorem State.adminSegment_asks {n a : Nat} (h : s.adminCmd c 0x45 = some (k, x)) (hm : s.MayStage x n)
    (hb : x.started = false) (ha : s.findStaging n = some a) (hsa : s.saState x.sa = Sas.active) (hheld : s.trn.held = [])
    (hr : s.roomFor x.sa (msgOf .fetch 16 0 0 (.fetch c) .none) = true) : s.adminSegment c = s.segmentAsked c a n x :=
  have room : (s.modCmd c (Slot.segmentBegun a)).roomFor x.sa (x.segmentMsg c n) = true :=
    (State.roomFor_congr (s := s) (m := msgOf .fetch 16 0 0 (.fetch c) .none) rfl rfl rfl).trans hr
  (State.adminSegment_begins h hm hb ha).trans (State.startMsg_taken hsa rfl room hheld)

theorem State.segmentAsked_frame (s : State) (c a n : Nat) (x : Slot) : Frame [.cq, .trn] s (s.segmentAsked c a n x) :=
  ((s.modCmd_frame c _).mono (by decide)).trans (State.takeTx_frame_trn _ _ _)

theorem State.tx_segmentAsked (s : State) (c a n : Nat) (x : Slot) :
    (s.segmentAsked c a n x).trn.tx = s.trn.tx ++ [s.segmentSent c n x] := State.takeTx_tx _ _ _

theorem State.cmd?_segmentAsked (h : s.cmd? c = some (k, x)) (a n : Nat) :
    ∃ id, (s.segmentAsked c a n x).cmd? c = some (k, (x.segmentBegun a).asks (x.segmentMsg c n) id) := by
  have begun : (s.modCmd c (Slot.segmentBegun a)).cmd? c = some (k, x.segmentBegun a) :=
    State.cmd?_modCmd_self (fun _ => rfl) h
  rw [State.segmentAsked, State.takeTx_fetch rfl]
  exact ⟨_, State.cmd?_modCmd_self (fun _ => rfl) ((State.cmd?_entryTaken _ _ _ c).trans begun)⟩

/-- The bytes of FIRMWARE_SEGMENT are there and are placed into the staging area. -/
theorem State.adminSegment_ends {n a : Nat} (h : s.adminCmd c 0x45 = some (k, x)) (hm : s.MayStage x n) (hb : x.started = true)
    (ha : x.staging = some a) (hf : x.fetches = []) (hheld : s.trn.held = []) (hp : s.rangePoison a n = false) :
    s.adminSegment c = ((s.cellsTaken 36 (cellSpan a n)).stageBytes x.arg0 (s.cellar a n)).finish c St.success := by
  obtain ⟨rfl, pos, pages, most, fits, fresh, idle⟩ := hm
  have room : ¬ stagingSize < x.arg0 + getPart (dataToken x.cap) Token.length := Nat.not_lt.2 fits
  have clean := (s.rangePoison_cellsTaken 36 (cellSpan a (getPart (dataToken x.cap) Token.length)) _ _).trans hp
  have bytes := s.cellar_cellsTaken 36 (cellSpan a (getPart (dataToken x.cap) Token.length)) a
    (getPart (dataToken x.cap) Token.length)
  rw [State.adminSegment, State.admin_taken h]
  simp [hb, fresh, idle, pages, room, ha, Nat.ne_of_gt pos, Nat.not_lt.2 most, hf, hheld, clean, bytes]

theorem State.cellar_length (s : State) (a n : Nat) : (s.cellar a n).length = n := Mem.read_length ..

/-- A byte of a range as the Cellar delivers it. -/
theorem State.cellar_getElem? (s : State) {a n i : Nat} (h : i < n) :
    (s.cellar a n)[i]? = some (Mem.byte 0 s.hst.mem (a + i)) := by
  have read : ∀ n a i, i < n → (Mem.read 0 s.hst.mem a n)[i]? = some (Mem.byte 0 s.hst.mem (a + i)) := fun n => by
    induction n with
    | zero => exact fun a i hi => absurd hi (Nat.not_lt_zero i)
    | succ n ih =>
      intro a i hi
      cases i with
      | zero => rfl
      | succ i => simpa [Mem.read, Nat.add_assoc, Nat.add_comm 1] using ih (a + 1) i (Nat.lt_of_succ_lt_succ hi)
  exact read n a i h

/-- Staged bytes read as the Cellar delivered them. -/
theorem State.byte_stageBytes_in (t s : State) (off : Nat) {a n i : Nat} (h : i < n) :
    Mem.byte 0 (t.stageBytes off (s.cellar a n)).wdn.staging (off + i) = Mem.byte 0 s.hst.mem (a + i) := by
  have hi : i < (s.cellar a n).length := (s.cellar_length a n).symm ▸ h
  exact (Mem.byte_write_in 0 _ off _ i hi).trans (List.getElem_eq_iff hi |>.2 (s.cellar_getElem? h))

theorem State.stageBytes_frame (s : State) (off : Nat) (l : List Byte) : Frame [.wdn] s (s.stageBytes off l) := s.onWdn_frame _

/-! ### FIRMWARE_ACTIVATE (R624) -/

/-- The staged image is in the slot that did not supply the running one, and the staging area is empty. -/
def State.imagePut (s : State) (img : List Byte) : State := (s.flashImagePut s.otherSlot img).stagingClear

theorem State.imagePut_frame (s : State) (img : List Byte) : Frame [.wdn, .flash] s (s.imagePut img) := by
  intro b hb
  cases b
  case wdn | flash => exact absurd (by decide) hb
  all_goals rfl

/-- The image's bytes are in the boot flash. -/
theorem State.byte_imagePut (s : State) {img : List Byte} {i : Nat} {v : Byte} (h : img[i]? = some v) :
    Mem.byte 0xFF (s.imagePut img).flash.mem (0x800000 + 0x100000 * s.otherSlot + i) = v := by
  obtain ⟨hi, hv⟩ := List.getElem?_eq_some_iff.1 h
  exact (Mem.byte_write_in ..).trans hv

section
variable {img : List Byte} (h : s.adminCmd c 0x46 = some (k, x)) (ha : s.activation = some c) (hb : s.glb.spi = none)
  (hi : s.stagedImage = some img)
include h ha hb hi

theorem State.adminActivate_stage (harg : x.arg0 = 1) : s.adminActivate c = (s.imagePut img).finish c St.success := by
  rw [State.adminActivate, State.admin_taken h]
  simp [ha, hb, State.fwActivate, hi, harg, State.imagePut]

theorem State.adminActivate_activate (harg : x.arg0 = 2) {w : State} (hw : w = (s.imagePut img).activateImage img s.otherSlot) :
    s.adminActivate c = w.finish c (if w.wdn.fwSlot = some s.otherSlot then St.success else St.firmwareImage) := by
  subst hw
  rw [State.adminActivate, State.admin_taken h]
  simp [ha, hb, State.fwActivate, hi, harg, State.imagePut]
  rfl

end

end

end Sys2Proof.Machine
end

section
/-!
The statements about capsules, queues and endpoints, and the admin commands (06_command_queues.md).
-/

namespace Sys2Proof.Machine

-- Proofs in sequence: the stack of every thread that waits counts against the memory limit of the check.
set_option Elab.async false

/-- Settles O20: a capsule that passes its checks takes its slot, which the checks and an entry into EXECUTING change on; one of
another incarnation is counted; and ORDERED_RELEASE is an entry into EXECUTING. -/
theorem capsuleAcceptance : Obligations.CapsuleAcceptance := by
  unfold Obligations.CapsuleAcceptance
  refine ⟨?capsule, ?release⟩
  case capsule =>
    intro cap sa port k key q w rest s hawake hdrain hin hen hep hk hkey hq hs
    have intake : ∀ {t : State}, (s.onCq fun c => { c with intake := rest }).capsule cap sa port = t → s.capsuleAccept = t :=
      fun h => by simpa [State.capsuleAccept, hdrain, hin] using h
    refine ⟨fun hi hp hf hr hv => ?_, fun hi => ?_⟩
    · let u := (s.onCq fun c => { c with intake := rest }).freeSlot key
      have taken : s.capsuleAccept = u.acceptCmd k key sa port cap :=
        intake (State.capsule_fresh (q := q) hp hen hep hk hkey hq hs hi hf (by simp [hr]))
      have valid : u.validate k port cap = .ok w := hv
      have frame := State.acceptCmd_frame (s := u) (key := key) (sa := sa) hp valid
      have cq := State.acceptCmd_cq (s := u) (key := key) (sa := sa) hp valid
      obtain ⟨x, slot, hcap, horder, htime, hsa, hport, hstate, hfirst⟩ :=
        State.slot_acceptCmd (s := u) (key := key) (sa := sa) hp valid
      have pair := (State.pair_congr frame.regs_eq A.CQ_ACCEPTED).trans (State.pair_bump_self _ _ _)
      have alone : s.cq.slots = [] → u.cq.slots = [] := fun h => by simp [u, State.freeSlot, h, Tab.erase]
      exact ⟨_, x, State.awake_next hawake taken (frame.pending_eq.trans (u.accepted_frame _ _ _ _ _).pending_eq), slot, hcap,
        horder, htime, hsa, hport, hstate, by rw [cq]; rfl, by rw [cq]; rfl, pair, fun h => hfirst (alone h)⟩
    · subst hk
      have stale := intake (State.capsule_stale (port := port) hen hep hq hi)
      exact ⟨_, State.awake_next hawake stale rfl, rfl, State.pair_bump_self _ _ _⟩
  case release =>
    intro c k x s hawake hc hs hw ho
    refine ⟨_, _, State.awake_next hawake (State.orderedRelease_clear hc hs hw ho) (s.enterExec_frame c).pending_eq,
      State.cmd?_enterExec hc, rfl, rfl, (s.enterExec_frame c).eq_take, fun hq hx => ?_, fun hq => ?_⟩
    · have admin : x.handedOver k = true := by simp [Slot.handedOver, hq, hx]
      exact ⟨by simp [Slot.entered, admin], by rw [State.enterExec_eq hc, admin]; rfl⟩
    · have io : x.handedOver k = false := by simp [Slot.handedOver, hq]
      exact ⟨by simp [Slot.entered, io], by rw [State.enterExec_eq hc, io]; rfl⟩

/-- Settles O23: each row opens, closes or erases one queue, or, for CONTROLLER_RESET, does the same to each, and settles its
command or its CQ_CMD. -/
theorem queueCommands : Obligations.QueueCommands := by
  unfold Obligations.QueueCommands
  refine ⟨⟨?create, ?close, ?ended⟩, ?enable, ?disable, ?controller⟩
  case create =>
    rintro c key k n x s hawake hx rfl hq hr hn
    obtain ⟨hc, hs, hw⟩ := State.adminCmd_some hx
    let u := s.created c (namedQueue key x) n (dataToken x.cap)
    have frame := (s.created_frame c (namedQueue key x) n (dataToken x.cap)).trans (u.finish_frame c St.success)
    refine ⟨u.finish c St.success, State.awake_next hawake (State.adminCreate_opens hx hq hr hn) frame.pending_eq, frame.eq_take,
      ?_, ?_, fun j hj => ?_, ?_⟩
    · exact (u.queue?_finish c _ _).trans (s.queue?_created_self c _ n _)
    · exact (u.incarnation_finish c _ _).trans (s.incarnation_created c _ n _)
    · exact (u.queue?_finish c _ _).trans (s.queue?_created_ne c _ n _ hj)
    · exact State.cmd?_finish (s.cmd?_created c _ n _ hc) (by simp [hs]) (by simp [hw]) _
  case close =>
    rintro c key k x q d s hawake hcl hx rfl hq hs ht hcmds
    have closes := State.adminClose_begins hcl hx hq ht hcmds
    have frame := s.closeQueue_frame (namedQueue key x) (some ⟨c, none, d⟩)
    refine ⟨_, ?_, frame.eq_take, ?_, s.incarnation_closeQueue_self _ _, fun j hj => ?_⟩
    · cases d <;> exact State.awake_next hawake closes frame.pending_eq
    · rw [State.queue?_closeQueue, if_pos rfl, hq, Option.map_some, Queue.closed_active hs]
    · rw [State.queue?_closeQueue, if_neg hj]
  case ended =>
    intro c key k x q d s hawake hfw hcl hq hh hs hz hc hk ha hw
    let u := s.closingEnd k ⟨c, none, d⟩
    let v := u.setResult c (if d then 0 else s.incarnation k)
    have ends := State.adminClose_ends hfw hcl hh hz d
    have frame := ((s.closingEnd_frame k ⟨c, none, d⟩).trans (u.setResult_frame c _)).trans (v.finish_frame c St.success)
    have slot : u.cmd? c = some (key, x) := by
      cases d
      · exact hc
      · exact State.cmd?_eraseQueue hc hk
    refine ⟨v.finish c St.success, ?_, frame.eq_take, ?_,
      ⟨_, State.cmd?_finish (State.cmd?_setResult slot (if d then 0 else s.incarnation k)) ha hw _, rfl, rfl, rfl⟩, ?_⟩
    · cases d <;> exact State.awake_next hawake ends frame.pending_eq
    · cases d
      · exact State.closingEnd_reset hq hs c
      · exact s.queue?_eraseQueue_self k
    · rintro rfl
      have erased : ∀ z ∈ v.cq.slots, queueOf z.1 ≠ k :=
        State.modCmd_keys (P := fun j => queueOf j ≠ k) (s.eraseQueue_slots k) c _
      exact State.modCmd_keys (P := fun j => queueOf j ≠ k) erased c _
  case enable =>
    intro p e n s hbus hmode hrun hn he
    have frame := (s.setEp_frame e Endpoint.on).trans (State.openQueue_frame _ (e * 64) n none)
    exact ⟨_, State.bus_next hbus hmode (State.cqCmd_enable hrun hn he) frame.pending_eq, frame.eq_take,
      s.ep_setEp_self e Endpoint.on, State.queue?_openQueue_self _ _ _ _, State.incarnation_openQueue _ _ _ _,
      fun k hk => State.queue?_openQueue_ne hk _ _ _, fun f hf => State.ep_setEp_ne hf s Endpoint.on⟩
  case disable =>
    intro p e s hup hmode
    refine ⟨fun hrun he hi => ?_, fun q hrun hi hq hs hz => ?_⟩
    · exact State.busUp_next hup hmode (State.disableEndpoint_begins hrun he hi) rfl
    · have frame := ((s.epGone_frame e).mono (by decide)).trans (s.epGone e).cqRunEnd_frame
      have cq := (s.epGone e).cqRunEnd_cq
      refine ⟨_, State.busUp_next hup hmode (State.disableEndpoint_ends hrun hi hq hs hz) frame.pending_eq, frame.eq_take, ?_, ?_,
        ?_, (s.epGone e).is_cqRunEnd⟩
      · rw [cq]
      · exact (State.queue?_congr (s := s.epGone e) (by rw [cq]) _).trans (s.queue?_eraseQueue_self _)
      · exact (congrArg (fun c : Cq => Tab.getD e epDefault c.eps) cq).trans ((s.eraseQueue (e * 64)).ep_setEp_self e epDefault)
  case controller =>
    intro p s hup hmode
    refine ⟨fun hrun => ?_, fun hrun hz => ?_⟩
    · have ckpt := s.allClosed.ckptStart_frame false
      have queues := State.queue?_congr (congrArg Cq.queues ckpt.cq_eq)
      refine ⟨_, State.busUp_next hup hmode (State.resetController_begins hrun)
        (ckpt.pending_eq.trans s.allClosed_frame.pending_eq), ?_, ?_, fun k q hq => ?_, fun sorted k q hq => ?_⟩
      · rw [ckpt.cq_eq, State.allClosed_run]
      · rw [ckpt.cq_eq, State.allClosed_slots]
      · exact State.allClosed_state ((queues k).symm.trans hq)
      · exact (congrArg (fun c : Cq => Tab.getD k 0 c.incarnation) ckpt.cq_eq).trans (State.incarnation_allClosed sorted hq)
    · have frame := (s.allReopened_frame.mono (by decide)).trans s.allReopened.cqRunEnd_frame
      refine ⟨_, State.busUp_next hup hmode (State.resetController_ends hrun hz) frame.pending_eq, frame.eq_take, ?_,
        fun k q hq => ?_, s.allReopened.is_cqRunEnd⟩
      · rw [State.cqRunEnd_cq]
      · exact State.allReopened_state ((State.queue?_congr (s := s.allReopened) (by rw [State.cqRunEnd_cq]) k).symm.trans hq)

/-- Settles O24: a self-test's start and end change the self-test, the patrols and the log; a page is one message of its length;
FIRMWARE_SEGMENT's bytes go from the Cellar to the staging area, and FIRMWARE_ACTIVATE's image to the boot flash. -/
theorem adminCommands : Obligations.AdminCommands := by
  unfold Obligations.AdminCommands
  refine ⟨⟨?short, ?extended, ?abort, ?result, ?identify, ?log⟩, ?segment, ?stage, ?activate⟩
  case short =>
    intro c key x s hawake hx hidle harg
    let u := s.onMgt fun m => { m with test := some (s.newTest 1 0 (endpointOf key)) }
    have starts : s.adminTestStart c = u.finish c St.success := by
      rw [State.adminTestStart, State.admin_taken hx, hidle, harg, State.testStart_short hidle]
      rfl
    have frame : Frame [.cq, .mgt] s (u.finish c St.success) :=
      ((s.onMgt_frame _).mono (by decide)).trans ((u.finish_frame c _).mono (by decide))
    exact ⟨_, State.awake_next hawake starts frame.pending_eq, frame.eq_take, rfl, State.cmd?_finish_admin hx rfl _⟩
  case extended =>
    intro c key x s hawake hx hidle harg
    let u := s.onMgt fun m => { m with test := some (s.newTest 2 0 (endpointOf key)) }
    obtain ⟨p, hp⟩ := State.setPatrols_eq (f := Patrol.walk) s.testGroups u
    have walks := State.each_own (get := State.patrol) (g := Patrol.walk)
      (fun s g => s.patrol_setPatrol_self g (s.patrol g).walk) (fun s g j h => State.patrol_setPatrol_ne h s (s.patrol g).walk)
      s.testGroups_nodup u
    rw [hp] at walks
    have starts : s.adminTestStart c = { u with rbd := { u.rbd with patrols := p } }.finish c St.success := by
      rw [State.adminTestStart, State.admin_taken hx, hidle, harg, State.testStart_extended hidle, hp]
      rfl
    exact ⟨_, _, State.awake_next hawake starts rfl, rfl, rfl, rfl, rfl, rfl, rfl, fun g hg => (walks g).trans (if_pos hg),
      State.cmd?_finish_admin hx rfl _⟩
  case abort =>
    intro c key x s hawake hx hbusy
    obtain ⟨z, hz⟩ := Option.ne_none_iff_exists'.1 hbusy
    obtain ⟨p, ends⟩ := State.testEnd_eq hz 3
    have aborts : s.adminTestAbort c = (s.testEnd 3).finish c St.success := State.admin_taken hx _
    rw [ends] at aborts
    exact ⟨_, s.testEntry z 3, State.awake_next hawake aborts rfl, rfl, rfl, rfl, rfl, State.is_flag _ (by decide) (by decide),
      State.cmd?_finish_admin hx rfl _⟩
  case result =>
    intro c key x s hawake hx
    obtain ⟨hc, hs, hw⟩ := State.adminCmd_some hx
    exact ⟨_, State.awake_next hawake (State.admin_taken hx _) rfl, rfl,
      State.cmd?_finish (State.cmd?_setResult hc _) (by simp [hs]) (by simp [hw]) _⟩
  case identify =>
    intro c key x s hawake hx hn hsa hheld hr
    obtain ⟨hc, hs, hw⟩ := State.adminCmd_some hx
    let l := s.identifyPage key x
    obtain ⟨n, slot⟩ := State.cmd?_placeData hsa hheld hr hc l
    have place := State.placeData_frame (c := c) hsa hheld hr l
    have frame := place.trans ((State.finish_frame _ c St.success).mono (by decide))
    have settled := State.cmd?_finish slot (by simp [Slot.sends, hs]) (by simp [Slot.sends, hw]) St.success
    refine ⟨_, _, s.pageSent c x l, State.awake_next hawake (State.adminIdentify_page hx hn) frame.pending_eq, frame.eq_take, ?_,
      rfl, rfl, s.identifyPage_length key x, settled, rfl, rfl⟩
    rw [(State.finish_frame _ _ _).trn_eq]
    exact State.tx_placeData hsa hheld hr l
  case log =>
    intro c key x s hawake hx hn hn' hsa hheld hr
    obtain ⟨hc, hs, hw⟩ := State.adminCmd_some hx
    let l := s.logPart x
    obtain ⟨n, slot⟩ := State.cmd?_placeData hsa hheld hr hc l
    have place := State.placeData_frame (c := c) hsa hheld hr l
    have frame := (place.trans ((State.setResult_frame _ c l.length).mono (by decide))).trans
      ((State.finish_frame _ c St.success).mono (by decide))
    have settled := State.cmd?_finish (State.cmd?_setResult slot l.length) (by simp [Slot.sends, hs])
      (by simp [Slot.sends, hw]) St.success
    refine ⟨_, _, s.pageSent c x l, State.awake_next hawake (State.adminLogRead_page hx hn hn') frame.pending_eq,
      frame.eq_take, ?_, rfl, settled, rfl, rfl, rfl⟩
    rw [(State.finish_frame _ _ _).trn_eq, (State.setResult_frame _ _ _).trn_eq]
    exact State.tx_placeData hsa hheld hr l
  case segment =>
    intro c key n x s hawake hx hlen hpos hpages hmost hfits hfresh hidle
    have may : s.MayStage x n := ⟨hlen, hpos, hpages, hmost, hfits, hfresh, hidle⟩
    obtain ⟨hc, hs, hw⟩ := State.adminCmd_some hx
    refine ⟨fun a hb ha hsa hheld hr => ?begins, fun a hb ha hf hheld hp => ?ends⟩
    case begins =>
      obtain ⟨id, slot⟩ := State.cmd?_segmentAsked hc a n
      have frame := s.segmentAsked_frame c a n x
      have asks := State.adminSegment_asks hx may hb ha hsa hheld hr
      exact ⟨_, _, s.segmentSent c n x, State.awake_next hawake asks frame.pending_eq, frame.eq_take, slot, rfl, rfl,
        s.tx_segmentAsked c a n x, rfl, rfl, rfl⟩
    case ends =>
      let u := s.cellsTaken 36 (cellSpan a n)
      have taken := s.cellsTaken_frame 36 (cellSpan a n)
      have frame : Frame [.cq, .wdn, .regs] s ((u.stageBytes x.arg0 (s.cellar a n)).finish c St.success) :=
        ((taken.mono (by decide)).trans ((u.stageBytes_frame _ _).mono (by decide))).trans
          ((State.finish_frame _ _ _).mono (by decide))
      have slot := State.cmd?_congr (congrArg Cq.slots taken.cq_eq) c
      refine ⟨_, State.awake_next hawake (State.adminSegment_ends hx may hb ha hf hheld hp) frame.pending_eq, frame.eq_take,
        State.cmd?_finish_admin hx slot _, ?_, fun i hi => State.byte_stageBytes_in u s _ hi, fun i hi => ?_⟩
      · show joinRange x.arg0 (s.cellar a n).length u.wdn.staged = _
        rw [taken.wdn_eq, hfresh, s.cellar_length]
        rfl
      · refine (Mem.byte_write_out 0 u.wdn.staging _ _ i ?_).trans (by rw [taken.wdn_eq])
        rwa [s.cellar_length]
  case stage =>
    intro c key img x s hawake hx ha hb harg hi
    have frame : Frame [.cq, .wdn, .flash] s ((s.imagePut img).finish c St.success) :=
      ((s.imagePut_frame img).mono (by decide)).trans ((State.finish_frame _ _ _).mono (by decide))
    exact ⟨_, State.awake_next hawake (State.adminActivate_stage hx ha hb hi harg) frame.pending_eq, frame.eq_take,
      State.cmd?_finish_admin hx rfl _, rfl, rfl, fun i v hv => s.byte_imagePut hv⟩
  case activate =>
    intro c key img x s hawake hx ha hb harg hi
    exact ⟨_, _, State.awake_eq hawake (State.adminActivate_activate hx ha hb hi harg rfl), rfl, rfl⟩

end Sys2Proof.Machine
end

section
/-!
SUPPORT. Laws of the geometry of a stripe (07_volumes_and_blocks.md R272): the members in turn from that of P on hold P, Q and the
data strips.
-/

namespace Sys2Proof.Machine

-- Proofs in sequence: the stack of every thread that waits counts against the memory limit of the check.
set_option Elab.async false

/-! ### Members in turn (R272) -/

section
variable {e : BitVec 512} {stripe : Nat}

/-- The member a places after that of P: P itself at 0, Q at 1, and data strip j at 2 + j (R272). -/
def memberAfterP (e : BitVec 512) (stripe a : Nat) : Nat := (pMember e stripe + a) % grpMembers e

theorem pMember_lt (h : 0 < grpMembers e) : pMember e stripe < grpMembers e := by
  unfold pMember
  omega

theorem memberAfterP_lt (h : 0 < grpMembers e) (a : Nat) : memberAfterP e stripe a < grpMembers e := Nat.mod_lt _ h

theorem memberAfterP_zero (h : 0 < grpMembers e) : memberAfterP e stripe 0 = pMember e stripe :=
  Nat.mod_eq_of_lt (pMember_lt h)

theorem memberAfterP_one : memberAfterP e stripe 1 = qMember e stripe := rfl

theorem memberAfterP_data (j : Nat) : memberAfterP e stripe (2 + j) = dataMember e stripe j := by
  rw [memberAfterP, dataMember, qMember, Nat.add_assoc, Nat.mod_add_mod]
  congr 1
  omega

/-- The members in turn are members of their own. -/
theorem memberAfterP_inj {a b : Nat} (ha : a < grpMembers e) (hb : b < grpMembers e)
    (h : memberAfterP e stripe a = memberAfterP e stripe b) : a = b := by
  have same : a ≡ b [MOD grpMembers e] := Nat.ModEq.add_left_cancel' _ h
  exact Nat.ModEq.eq_of_lt_of_lt same ha hb

/-- Every member has its turn. -/
theorem exists_memberAfterP {m : Nat} (hm : m < grpMembers e) : ∃ a < grpMembers e, memberAfterP e stripe a = m := by
  have hp : pMember e stripe < grpMembers e := pMember_lt (by omega)
  refine ⟨(m + grpMembers e - pMember e stripe) % grpMembers e, Nat.mod_lt _ (by omega), ?_⟩
  have around : pMember e stripe + (m + grpMembers e - pMember e stripe) = m + grpMembers e := by omega
  rw [memberAfterP, Nat.add_mod_mod, around, Nat.add_mod_right, Nat.mod_eq_of_lt hm]

/-! ### Strips (R272) -/

theorem stripOf_p : stripOf e stripe (pMember e stripe) = .p := if_pos rfl

theorem stripOf_q (h : qMember e stripe ≠ pMember e stripe) : stripOf e stripe (qMember e stripe) = .q :=
  (if_neg h).trans (if_pos rfl)

/-- Going back from the member of a data strip by Q and one more finds its index. -/
theorem dataMember_back {j : Nat} (hj : j < grpMembers e) :
    (dataMember e stripe j + 2 * grpMembers e - qMember e stripe - 1) % grpMembers e = j := by
  have hq : qMember e stripe < grpMembers e := Nat.mod_lt _ (by omega)
  unfold dataMember
  generalize qMember e stripe = q at hq ⊢
  generalize grpMembers e = n at hj hq ⊢
  by_cases h : q + 1 + j < n
  · rw [Nat.mod_eq_of_lt h, show q + 1 + j + 2 * n - q - 1 = j + n * 2 by omega, Nat.add_mul_mod_self_left,
      Nat.mod_eq_of_lt hj]
  · have around : (q + 1 + j) % n = q + 1 + j - n := by rw [Nat.mod_eq_sub_mod (by omega), Nat.mod_eq_of_lt (by omega)]
    rw [around, show q + 1 + j - n + 2 * n - q - 1 = j + n by omega, Nat.add_mod_right,
      Nat.mod_eq_of_lt hj]

theorem stripOf_data {j : Nat} (hj : j < grpMembers e) (hp : dataMember e stripe j ≠ pMember e stripe)
    (hq : dataMember e stripe j ≠ qMember e stripe) : stripOf e stripe (dataMember e stripe j) = .data j := by
  rw [stripOf, if_neg hp, if_neg hq, dataMember_back hj]

end

end Sys2Proof.Machine
end

section
/-!
SUPPORT. Laws of the volume mapper (07_volumes_and_blocks.md R286 to R289, R301 to R305, R311): what a committed entry leaves of its
table, what READ shows, and how each VOL_CMD acts on what it is given.
-/

namespace Sys2Proof.Machine

-- Proofs in sequence: the stack of every thread that waits counts against the memory limit of the check.
set_option Elab.async false

/-! ### The rows of VOL_CMD (Table 07-12) -/

section
variable {s t : State} {p : Path} {f : State → State}

/-- A VOL_CMD that finds BUSY at 0 answers the state that its effect gives, where that has the same queue of commands. -/
theorem State.volCmd_next (h : s.up = true) (h' : s.modeLets p A.VOL_CMD = true) (hb : s.volBusy = false) (hf : f s = t)
    (ht : t.pending = s.pending) : (s.row fun s => s.onBusUp p A.VOL_CMD fun s => s.volIdle f) = .next t :=
  State.busUp_next h h' ((if_neg (by simp [hb])).trans hf) ht

theorem State.is_volDone (s : State) : (s.flag F.VOL_STATUS_CMD_DONE).is F.VOL_STATUS_CMD_DONE = true :=
  s.is_flag (by decide) (by decide)

theorem State.fld_volRefuse (s : State) {code : Nat} (h : code < 256) : (s.volRefuse code).fld F.VOL_ERROR_CODE = code := by
  rw [State.volRefuse, State.fld_flag_apart _ (Or.inl (by decide)), State.fld_setFld_self _ (by decide)]
  exact Nat.mod_eq_of_lt h

theorem State.is_volRefuse (s : State) (code : Nat) : (s.volRefuse code).is F.VOL_STATUS_CMD_REFUSED = true :=
  State.is_flag _ (by decide) (by decide)

end

/-! ### Little-endian bytes (R2) -/

theorem drop_leBytes (k n v : Nat) : (leBytes k v).drop n = leBytes (k - n) (v / 256 ^ n) := by
  induction n generalizing k v with
  | zero => simp
  | succ n ih =>
    cases k with
    | zero => simp [leBytes]
    | succ k => rw [leBytes, List.drop_succ_cons, ih, Nat.div_div_eq_div_mul, ← Nat.pow_succ', Nat.add_sub_add_right]

theorem take_leBytes {k n : Nat} (h : n ≤ k) (v : Nat) : (leBytes k v).take n = leBytes n v := by
  induction n generalizing k v with
  | zero => rfl
  | succ n ih =>
    obtain ⟨k, rfl⟩ : ∃ l, k = l + 1 := ⟨k - 1, by omega⟩
    rw [leBytes, List.take_succ_cons, ih (by omega), leBytes]

theorem leNat_leBytes (n v : Nat) : leNat (leBytes n v) = v % 256 ^ n := by
  induction n generalizing v with
  | zero => simp [leBytes, leNat, Nat.mod_one]
  | succ n ih =>
    rw [leBytes, leNat, ih, BitVec.toNat_ofNat, Nat.pow_succ' (m := 256)]
    exact Nat.mod_mul.symm

/-- Four bytes of a structure are its word there. -/
theorem leAt_toBytes {m k n : Nat} (h : 4 * n + 4 ≤ k) (x : BitVec m) : leAt (toBytes k x) (4 * n) 4 = getBits x (32 * n) 32 := by
  rw [leAt, slice, toBytes, drop_leBytes, take_leBytes (by omega), leNat_leBytes, getBits, BitVec.toNat_ushiftRight,
    Nat.shiftRight_eq_div_pow, show 32 * n = 8 * (4 * n) by omega, Nat.pow_mul 2 8]
  rfl

/-! ### READ (R311) -/

section
variable {s : State}

theorem State.volShow_frame (s : State) (l : List Byte) : Frame [.regs] s (s.volShow l) :=
  Frame.each (fun s _ => s.setWord_frame _ _) _ s

theorem State.word_volShow (s : State) (l : List Byte) {n : Nat} (h : n < l.length / 4) :
    (s.volShow l).word (A.VOL_WORD n) = BitVec.ofNat 32 (leAt l (4 * n) 4) := by
  have once := State.each_own (get := fun s i => (i, s.word (A.VOL_WORD i)))
    (step := fun s n => s.setWord (A.VOL_WORD n) (BitVec.ofNat 32 (leAt l (4 * n) 4)))
    (g := fun x => (x.1, BitVec.ofNat 32 (leAt l (4 * x.1) 4))) (fun s i => by simp)
    (fun s i j hj => by rw [State.word_setWord_ne _ (show A.VOL_WORD i ≠ A.VOL_WORD j by simpa using Ne.symm hj)])
    (List.nodup_range (n := l.length / 4)) s n
  rw [if_pos (List.mem_range.2 h)] at once
  exact congrArg Prod.snd once

/-- The words shown of a structure are its words. -/
theorem State.word_volShow_toBytes {m k n : Nat} (h : 4 * n + 4 ≤ k) (x : BitVec m) :
    ((s.volShow (toBytes k x)).word (A.VOL_WORD n)).toNat = getBits x (32 * n) 32 := by
  have len : (toBytes k x).length = k := leBytes_length k _
  rw [State.word_volShow _ _ (by omega), BitVec.toNat_ofNat, leAt_toBytes h]
  exact Nat.mod_eq_of_lt (getBits_lt x _ _)

theorem State.volRead_volume (ht : s.fld F.VOL_SEL_TABLE = 0) (hi : s.fld F.VOL_SEL_INDEX < 4096) :
    s.volRead = (s.volShow (toBytes 64 (s.vent (s.fld F.VOL_SEL_INDEX)))).flag F.VOL_STATUS_CMD_DONE := by
  simp only [State.volRead, ht, if_pos hi]

end

/-! ### Volume entries (R301, R304, R305) -/

section
variable {s : State} {v : Nat}

theorem State.vent_congr {t : State} (h : t.vol.vols = s.vol.vols) (v : Nat) : t.vent v = s.vent v := by
  simp only [State.vent, h]

theorem State.vent_setVent_self (s : State) (v : Nat) (e : BitVec 512) : (s.setVent v e).vent v = e :=
  Tab.getD_put_self v 0 e s.vol.vols

theorem State.vent_setVent_ne {k : Nat} (h : k ≠ v) (s : State) (e : BitVec 512) : (s.setVent v e).vent k = s.vent k :=
  Tab.getD_put_ne (Ne.symm h) 0 0 e s.vol.vols

theorem State.setVent_frame (s : State) (v : Nat) (e : BitVec 512) : Frame [.vol] s (s.setVent v e) := s.onVol_frame _

theorem State.staleVolume_frame (s : State) (v : Nat) : Frame [.rsv, .hst, .regs] s (s.staleVolume v) := s.staleWhere_frame _

/-- The entry that WRITE commits of the staged one: STATE keeps its value, reserved bytes are 0 (R298, R311). -/
def State.stagedVolume (s : State) (v : Nat) : BitVec 512 :=
  volEntry (putPart (ofBytes 512 (s.volStaged 16)) Volu.state (getPart (s.vent v) Volu.state))

/-- The staged entry is committed, and the lines of the volume are made STALE or not, as its new ATTR asks (Table 10-3). -/
def State.volumePut (s : State) (v : Nat) (stale : Bool) : State :=
  (s.setVent v (s.stagedVolume v)).when stale fun s => s.staleVolume v

theorem State.volumePut_left (s : State) (v : Nat) (stale : Bool) :
    Frame [.rsv, .hst, .regs] (s.setVent v (s.stagedVolume v)) (s.volumePut v stale) :=
  Frame.when _ (State.staleVolume_frame _ _)

/-- The entry of a volume that is not ACTIVE is committed whatever it holds (R304). -/
theorem State.volWrite_volume (ht : s.fld F.VOL_SEL_TABLE = 0) (hv : s.fld F.VOL_SEL_INDEX < 4096)
    (hs : getPart (s.vent (s.fld F.VOL_SEL_INDEX)) Volu.state ≠ 1) :
    ∃ stale, s.volWrite = (s.volumePut (s.fld F.VOL_SEL_INDEX) stale).flag F.VOL_STATUS_CMD_DONE := by
  simp only [State.volWrite, ht, State.volCommit, if_neg (Nat.not_le.2 hv), hs, false_and, if_false]
  exact ⟨_, rfl⟩

theorem State.volWrite_access (ht : s.fld F.VOL_SEL_TABLE = 3) (hi : s.fld F.VOL_SEL_INDEX < 4096) :
    s.volWrite = (s.onVol fun x => { x with
      access := Tab.put 0 (s.fld F.VOL_SEL_INDEX) ((s.word (A.VOL_WORD 0)).toNat % 64) x.access }).flag
        F.VOL_STATUS_CMD_DONE := by
  simp only [State.volWrite, ht, State.accessCommit, if_neg (Nat.not_le.2 hi)]

theorem State.volActivate_ok (ht : s.fld F.VOL_SEL_TABLE = 0) (hv : s.fld F.VOL_SEL_INDEX = v) (hl : v < 4096)
    (ha : s.volActive v = false) (hx : s.extentsOk v (s.vent v) = true) :
    s.volActivate = (s.setVent v (putPart (s.vent v) Volu.state 1)).flag F.VOL_STATUS_CMD_DONE := by
  simp [State.volActivate, ht, hv, Nat.not_le.2 hl, ha, hx]

theorem State.volActivate_refused (ht : s.fld F.VOL_SEL_TABLE = 0) (hv : s.fld F.VOL_SEL_INDEX = v) (hl : v < 4096)
    (ha : s.volActive v = false) (hx : s.extentsOk v (s.vent v) = false) : s.volActivate = s.volRefuse 4 := by
  simp [State.volActivate, ht, hv, Nat.not_le.2 hl, ha, hx]

/-- The volume is in NONE, its lines are STALE, and its commands are waited for (R305). -/
def State.volumeOff (s : State) (v : Nat) : State :=
  ((s.setVent v (putPart (s.vent v) Volu.state 0)).staleVolume v).onVol fun x => { x with deactivating := some v }

theorem State.deactivate_active (ht : s.fld F.VOL_SEL_TABLE = 0) (hv : s.fld F.VOL_SEL_INDEX = v) (hl : v < 4096)
    (ha : s.volActive v = true) : s.deactivate = (s.volumeOff v).deactivateDone := by
  simp [State.deactivate, State.volumeOff, ht, hv, Nat.not_le.2 hl, ha]

theorem State.volumeOff_frame (s : State) (v : Nat) : Frame [.vol, .rsv, .hst, .regs] s (s.volumeOff v) :=
  (((s.setVent_frame v _).append (State.staleVolume_frame _ v)).append (State.onVol_frame _ _)).mono (by decide)

/-- Of the volume table DEACTIVATE changes the entry's STATE. -/
theorem State.vent_volumeOff (s : State) (v k : Nat) :
    (s.volumeOff v).vent k = (s.setVent v (putPart (s.vent v) Volu.state 0)).vent k :=
  State.vent_congr (congrArg Vol.vols (State.staleVolume_frame (s.setVent v _) v).vol_eq :) k

theorem State.volActive_volumeOff (s : State) (v : Nat) : (s.volumeOff v).volActive v = false := by
  rw [State.volActive, State.vent_volumeOff, State.vent_setVent_self, getPart_putPart_self (by decide)]
  rfl

theorem State.volBusyCmds_congr {t : State} (h : t.cq.slots = s.cq.slots) (v : Nat) : t.volBusyCmds v = s.volBusyCmds v := by
  simp only [State.volBusyCmds, h]

/-- DEACTIVATE is over. -/
def State.deactivateOver (s : State) : State := (s.onVol fun x => { x with deactivating := none }).flag F.VOL_STATUS_CMD_DONE

theorem State.deactivateDone_quiet (h : s.vol.deactivating = some v) (hq : s.volBusyCmds v = false) :
    s.deactivateDone = s.deactivateOver := by
  simp [State.deactivateDone, State.deactivateOver, h, hq]

theorem State.deactivateDone_busy (h : s.vol.deactivating = some v) (hq : s.volBusyCmds v = true) : s.deactivateDone = s := by
  simp [State.deactivateDone, h, hq]

end

/-! ### Extent entries (R286, R288, R289) -/

section
variable {s : State} {i : Nat}

theorem State.cellarWrite_frame (s : State) (agent a : Nat) (l : List Byte) : Frame [.hst, .regs] s (s.cellarWrite agent a l) :=
  ((s.cellarPut_frame a l).mono (by decide)).trans
    (Frame.ite (Frame.refl _ _) ((State.bump_frame _ _ _).mono (by decide)))

theorem State.ext_congr {t : State} (h : t.vol.exts = s.vol.exts) (k : Nat) : t.ext k = s.ext k := by simp only [State.ext, h]

/-- The region, the cache and the Larder follow the table. -/
theorem State.setExt_left (s : State) (i : Nat) (e : BitVec 256) :
    Frame [.hst, .rsv, .regs] (s.onVol fun y => { y with exts := Tab.put 0 i e y.exts }) (s.setExt i e) :=
  ((State.cellarWrite_frame _ _ _ _).mono (by decide)).trans ((State.staleWhere_frame _ _).mono (by decide))

theorem State.setExt_frame (s : State) (i : Nat) (e : BitVec 256) : Frame [.vol, .hst, .rsv, .regs] s (s.setExt i e) :=
  (s.onVol_frame _).append (s.setExt_left i e)

theorem State.setExt_vol (s : State) (i : Nat) (e : BitVec 256) :
    (s.setExt i e).vol = { s.vol with exts := Tab.put 0 i e s.vol.exts } := (s.setExt_left i e).vol_eq

theorem State.ext_setExt_self (s : State) (i : Nat) (e : BitVec 256) : (s.setExt i e).ext i = e := by
  rw [State.ext, State.setExt_vol]
  exact Tab.getD_put_self i 0 e _

theorem State.ext_setExt_ne {k : Nat} (h : k ≠ i) (s : State) (e : BitVec 256) : (s.setExt i e).ext k = s.ext k := by
  rw [State.ext, State.setExt_vol]
  exact Tab.getD_put_ne (Ne.symm h) 0 0 e _

/-- The entry that WRITE commits of the staged one: reserved bytes are 0 (R285, R311). -/
def State.stagedExt (s : State) : BitVec 256 := extEntry (ofBytes 256 (s.volStaged 8))

theorem State.volWrite_extent (ht : s.fld F.VOL_SEL_TABLE = 2) (hi : s.fld F.VOL_SEL_INDEX = i)
    (hh : s.extHeld i s.stagedExt = false) (hn : s.holders i = []) :
    s.volWrite = (s.setExt i s.stagedExt).flag F.VOL_STATUS_CMD_DONE := by
  unfold State.stagedExt at hh ⊢
  simp [State.volWrite, ht, hi, State.extCommit, hh, hn]

/-- An entry that commands hold a translation through waits for them (R288). -/
theorem State.volWrite_extent_waits (ht : s.fld F.VOL_SEL_TABLE = 2) (hi : s.fld F.VOL_SEL_INDEX = i)
    (hh : s.extHeld i s.stagedExt = false) (hn : s.holders i ≠ []) :
    s.volWrite = s.onVol fun x => { x with waitingExt := some (i, s.stagedExt, s.holders i) } := by
  unfold State.stagedExt at hh ⊢
  simp [State.volWrite, ht, hi, State.extCommit, hh, hn]

theorem State.extWaitDone_free {e : BitVec 256} {cs : List Nat} (h : s.vol.waitingExt = some (i, e, cs))
    (hs : s.stillHold i cs = false) :
    s.extWaitDone = ((s.onVol fun x => { x with waitingExt := none }).setExt i e).flag F.VOL_STATUS_CMD_DONE := by
  simp [State.extWaitDone, h, hs]

theorem State.extWaitDone_held {e : BitVec 256} {cs : List Nat} (h : s.vol.waitingExt = some (i, e, cs))
    (hs : s.stillHold i cs = true) : s.extWaitDone = s := by
  simp [State.extWaitDone, h, hs]

/-- An INIT starts at the first stripe of its extent (R289). -/
theorem State.volInit_ok (ht : s.fld F.VOL_SEL_TABLE = 2) (hi : s.fld F.VOL_SEL_INDEX = i) (hx : getPart (s.ext i) Ext.state ≤ 1)
    (hg : s.grpOn (getPart (s.ext i) Ext.group % 8) = true) (hf : s.groupState (getPart (s.ext i) Ext.group % 8) ≠ 4)
    (hk : (s.volKey (getPart (s.ext i) Ext.volume % 4096)).isSome = true) :
    s.volInit = (s.setExt i (putPart (s.ext i) Ext.state Exts.init)).onVol fun v =>
      { v with init := some { entry := i, next := 0, intents := [] } } := by
  have key : s.volKey (getPart (s.ext i) Ext.volume % 4096) ≠ none := Option.isSome_iff_ne_none.1 hk
  simp [State.volInit, ht, hi, Nat.not_lt.2 hx, hg, hf, key]

/-- No stripe is left to begin, and no stripe write is left. -/
theorem State.initDone_over {j : InitJob} (h : s.vol.init = some j) (hl : s.str.live = []) (hw : s.str.waiting = [])
    (hn : extentStripes (s.grp (getPart (s.ext j.entry) Ext.group % 8)) ≤ j.next) :
    s.initDone = ((s.setExt j.entry (putPart (s.ext j.entry) Ext.state Exts.mapped)).onVol fun v =>
      { v with init := none }).flag F.VOL_STATUS_CMD_DONE := by
  simp [State.initDone, h, hl, hw, hn]

end

end Sys2Proof.Machine
end

section
/-!
The statements about volumes and the geometry of a stripe (07_volumes_and_blocks.md).
-/

namespace Sys2Proof.Machine

-- Proofs in sequence: the stack of every thread that waits counts against the memory limit of the check.
set_option Elab.async false

/-- Settles O26: P, Q and data strip j lie 0, 1 and 2 + j places after P's member, and the members in turn are all there are, each
once. -/
theorem stripeGeometry : Obligations.StripeGeometry := by
  unfold Obligations.StripeGeometry
  intro e stripe hn
  have pos : 0 < grpMembers e := by omega
  have turn (j : Nat) (hj : j < dataStrips e) : 2 + j < grpMembers e := by unfold dataStrips at hj; omega
  have pq : pMember e stripe ≠ qMember e stripe := fun h => by
    rw [← memberAfterP_zero pos, ← memberAfterP_one] at h
    exact absurd (memberAfterP_inj pos (by omega) h) (by decide)
  have dp (j : Nat) (hj : j < dataStrips e) : dataMember e stripe j ≠ pMember e stripe := fun h => by
    rw [← memberAfterP_zero pos, ← memberAfterP_data] at h
    have := memberAfterP_inj (turn j hj) pos h
    omega
  have dq (j : Nat) (hj : j < dataStrips e) : dataMember e stripe j ≠ qMember e stripe := fun h => by
    rw [← memberAfterP_one, ← memberAfterP_data] at h
    have := memberAfterP_inj (turn j hj) (by omega) h
    omega
  have data (j : Nat) (hj : j < dataStrips e) : stripOf e stripe (dataMember e stripe j) = .data j :=
    stripOf_data (by have := turn j hj; omega) (dp j hj) (dq j hj)
  refine ⟨rfl, rfl, fun j _ => rfl, rfl, pMember_lt pos, memberAfterP_lt pos 1, pq, stripOf_p, stripOf_q pq.symm,
    fun j hj => ⟨Nat.mod_lt _ pos, dp j hj, dq j hj, data j hj⟩, fun i hi j hj h => ?inj, fun m hm => ?all⟩
  case inj =>
    rw [← memberAfterP_data, ← memberAfterP_data] at h
    have := memberAfterP_inj (turn i hi) (turn j hj) h
    omega
  case all =>
    obtain ⟨a, ha, rfl⟩ := exists_memberAfterP (stripe := stripe) hm
    match a, ha with
    | 0, _ => exact .inl ⟨by rw [memberAfterP_zero pos, stripOf_p], memberAfterP_zero pos⟩
    | 1, _ => exact .inr (.inl ⟨stripOf_q pq.symm, rfl⟩)
    | j + 2, ha =>
      have hj : j < dataStrips e := by unfold dataStrips; omega
      rw [Nat.add_comm j 2, memberAfterP_data]
      exact .inr (.inr ⟨j, hj, data j hj, rfl⟩)

/-- Settles O25: each VOL_CMD that is not refused sets one entry of its table, and what waits for commands goes on when none of them
is left. -/
theorem volumes : Obligations.Volumes := by
  unfold Obligations.Volumes
  refine ⟨⟨?read, ?write, ?commit⟩, ?activate, ?done, ?init, ?mapped⟩
  case read =>
    intro p s hup hmode hb ht hi
    have frame := (s.volShow_frame (toBytes 64 (s.vent (s.fld F.VOL_SEL_INDEX)))).trans (State.flag_frame _ F.VOL_STATUS_CMD_DONE)
    refine ⟨_, State.volCmd_next hup hmode hb (State.volRead_volume ht hi) frame.pending_eq, frame.eq_take, State.is_volDone _,
      fun n hn => ?_⟩
    rw [State.word_flag_ne _ (show 0x500004 ≠ 0x500040 + 4 * n by omega)]
    exact State.word_volShow_toBytes (by omega) _
  case write =>
    rintro p i s hup hmode hb rfl
    refine ⟨fun ht hi => ?access, fun ht hi hs => ?volume, fun ht hh => ⟨fun hn => ?extent, fun hn => ?waits⟩⟩
    case access =>
      refine ⟨_, State.volCmd_next hup hmode hb (State.volWrite_access ht hi) rfl, rfl, ?_, fun e he => ?_, State.is_volDone _⟩
      · exact (congrArg (· % 64) (Tab.getD_put_self ..)).trans (Nat.mod_mod _ _)
      · exact congrArg (· % 64) (Tab.getD_put_ne (Ne.symm he) ..)
    case volume =>
      obtain ⟨stale, row⟩ := State.volWrite_volume ht hi hs
      have left := s.volumePut_left (s.fld F.VOL_SEL_INDEX) stale
      have entries := State.vent_congr (congrArg Vol.vols left.vol_eq)
      exact ⟨_, State.volCmd_next hup hmode hb row left.pending_eq, (entries _).trans (s.vent_setVent_self _ _),
        fun e he => (entries e).trans (State.vent_setVent_ne he s _), State.is_volDone _, (congrArg Vol.grps left.vol_eq :),
        (congrArg Vol.exts left.vol_eq :)⟩
    case extent =>
      have frame := (s.setExt_frame (s.fld F.VOL_SEL_INDEX) s.stagedExt).trans ((State.flag_frame _ F.VOL_STATUS_CMD_DONE).mono
        (by decide))
      exact ⟨_, State.volCmd_next hup hmode hb (State.volWrite_extent ht rfl hh hn) frame.pending_eq, s.ext_setExt_self _ _,
        fun e he => State.ext_setExt_ne he s _, State.is_volDone _, frame.eq_take⟩
    case waits => exact State.volCmd_next hup hmode hb (State.volWrite_extent_waits ht rfl hh hn) rfl
  case commit =>
    intro i e cs s hawake hw
    refine ⟨fun hs => ?_, fun hs => State.awake_next hawake (State.extWaitDone_held hw hs) rfl⟩
    let u := s.onVol fun x => { x with waitingExt := none }
    exact ⟨_, State.awake_next hawake (State.extWaitDone_free hw hs) (u.setExt_frame i e).pending_eq, u.ext_setExt_self i e,
      fun k hk => State.ext_setExt_ne hk u e, congrArg Vol.waitingExt (u.setExt_vol i e), State.is_volDone _⟩
  case activate =>
    intro p v s hup hmode hb ht hv hl
    refine ⟨fun ha hx => ?ok, fun ha hx => ?refused, fun ha => ?off⟩
    case ok =>
      exact ⟨_, State.volCmd_next hup hmode hb (State.volActivate_ok ht hv.symm hl ha hx) rfl, s.vent_setVent_self v _,
        fun e he => State.vent_setVent_ne he s _, State.is_volDone _, rfl⟩
    case refused =>
      exact ⟨_, State.volCmd_next hup hmode hb (State.volActivate_refused ht hv.symm hl ha hx) rfl, rfl,
        s.fld_volRefuse (by decide), s.is_volRefuse 4⟩
    case off =>
      have row := State.deactivate_active ht hv.symm hl ha
      have frame := s.volumeOff_frame v
      have others (e : Nat) (he : e ≠ v) : (s.volumeOff v).vent e = s.vent e :=
        (s.vent_volumeOff v e).trans (State.vent_setVent_ne he s _)
      have same : (s.volumeOff v).volBusyCmds v = s.volBusyCmds v := State.volBusyCmds_congr (congrArg Cq.slots frame.cq_eq) v
      cases hq : s.volBusyCmds v with
      | false =>
        exact ⟨_, State.volCmd_next hup hmode hb (row.trans (State.deactivateDone_quiet rfl (same.trans hq))) frame.pending_eq,
          s.volActive_volumeOff v, others, fun _ => ⟨rfl, State.is_volDone _⟩, fun h => absurd h (by decide)⟩
      | true =>
        exact ⟨_, State.volCmd_next hup hmode hb (row.trans (State.deactivateDone_busy rfl (same.trans hq))) frame.pending_eq,
          s.volActive_volumeOff v, others, fun h => absurd h (by decide), fun _ => rfl⟩
  case done =>
    intro v s hawake h
    exact ⟨fun hq => ⟨_, State.awake_next hawake (State.deactivateDone_quiet h hq) rfl, rfl, State.is_volDone _⟩,
      fun hq => State.awake_next hawake (State.deactivateDone_busy h hq) rfl⟩
  case init =>
    intro p i s hup hmode hb ht hi hx hg hf hk
    exact ⟨_, State.volCmd_next hup hmode hb (State.volInit_ok ht hi.symm hx hg hf hk) (s.setExt_frame i _).pending_eq,
      s.ext_setExt_self i _, fun k hk => State.ext_setExt_ne hk s _, rfl⟩
  case mapped =>
    intro j s hawake h hl hw hn
    exact ⟨_, State.awake_next hawake (State.initDone_over h hl hw hn) (s.setExt_frame j.entry _).pending_eq,
      s.ext_setExt_self j.entry _, fun k hk => State.ext_setExt_ne hk s _, rfl, State.is_volDone _⟩

end Sys2Proof.Machine
end

section
/-!
SUPPORT. The field of R320 and strips over it: what a change of one data strip does to P and Q (R321, R322).
-/

namespace Sys2Proof.Machine

/-! ### The field (R320) -/

/-- The exclusive or of the terms of the bits of b below n: a times x^i for a bit i that is 1. -/
def pqSum (a b : Byte) : Nat → Byte
  | 0 => 0
  | n + 1 => pqSum a b n ^^^ if bit b n then pqTime^[n] a else 0

theorem pqMul_eq_pqSum (a b : Byte) : pqMul a b = pqSum a b 8 := by
  have fold (n : Nat) : (List.range n).foldl (fun (p : Byte × Byte) i => (if bit b i then p.1 ^^^ p.2 else p.1, pqTime p.2)) (0, a) =
      (pqSum a b n, pqTime^[n] a) := by
    induction n with
    | zero => rfl
    | succ n ih =>
      rw [List.range_succ, List.foldl_append, ih, Function.iterate_succ_apply']
      cases h : bit b n <;> simp [pqSum, h]
  rw [pqMul, fold]

theorem byte_xor_left_comm (a b c : Byte) : a ^^^ (b ^^^ c) = b ^^^ (a ^^^ c) := by
  rw [← BitVec.xor_assoc, BitVec.xor_comm a, BitVec.xor_assoc]

theorem pqTime_xor (a b : Byte) : pqTime (a ^^^ b) = pqTime a ^^^ pqTime b := by
  unfold pqTime
  rw [BitVec.msb_xor, BitVec.shiftLeft_xor_distrib]
  cases a.msb <;> cases b.msb <;> simp [BitVec.xor_assoc, BitVec.xor_comm, byte_xor_left_comm]

theorem iterate_pqTime_xor (n : Nat) (a b : Byte) : pqTime^[n] (a ^^^ b) = pqTime^[n] a ^^^ pqTime^[n] b := by
  induction n generalizing a b with
  | zero => rfl
  | succ n ih => rw [Function.iterate_succ_apply, pqTime_xor, ih]; rfl

theorem pqSum_xor_left (a b c : Byte) (n : Nat) : pqSum (a ^^^ b) c n = pqSum a c n ^^^ pqSum b c n := by
  induction n with
  | zero => exact BitVec.xor_self.symm
  | succ n ih =>
    simp only [pqSum, ih, iterate_pqTime_xor]
    cases bit c n <;> simp [BitVec.xor_assoc, BitVec.xor_comm, byte_xor_left_comm]

theorem pqSum_xor (a b c : Byte) (n : Nat) : pqSum a (b ^^^ c) n = pqSum a b n ^^^ pqSum a c n := by
  induction n with
  | zero => exact BitVec.xor_self.symm
  | succ n ih =>
    have h : bit (b ^^^ c) n = (bit b n ^^ bit c n) := by simp [bit]
    simp only [pqSum, ih, h]
    cases bit b n <;> cases bit c n <;> simp [BitVec.xor_assoc, BitVec.xor_comm, byte_xor_left_comm]

theorem pqMul_xor_left (a b c : Byte) : pqMul (a ^^^ b) c = pqMul a c ^^^ pqMul b c := by
  simp only [pqMul_eq_pqSum, pqSum_xor_left]

theorem pqMul_xor (a b c : Byte) : pqMul a (b ^^^ c) = pqMul a b ^^^ pqMul a c := by
  simp only [pqMul_eq_pqSum, pqSum_xor]

/-- What holds of x^0 to x^7, and of the exclusive or of two elements of which it holds, holds of every element. -/
theorem byte_of_powers {P : Byte → Prop} (power : ∀ i < 8, P (BitVec.twoPow 8 i)) (xor : ∀ a b, P a → P b → P (a ^^^ b))
    (a : Byte) : P a := by
  have sum : ∀ a : Byte, a = ((List.range 8).filter (bit a)).foldl (fun b i => b ^^^ BitVec.twoPow 8 i) 0 := by decide +kernel
  have zero : P 0 := (BitVec.xor_self (x := BitVec.twoPow 8 0)).subst (motive := P) (xor _ _ (power 0 (by decide)) (power 0 (by decide)))
  rw [sum a]
  refine List.foldlRecOn _ _ zero fun b hb i hi => xor _ _ hb (power i ?_)
  simpa using List.mem_of_mem_filter hi

theorem pqMul_assoc (a b c : Byte) : pqMul (pqMul a b) c = pqMul a (pqMul b c) := by
  induction a using byte_of_powers with
  | xor a a' h h' => simp only [pqMul_xor_left, h, h']
  | power i hi =>
    induction b using byte_of_powers with
    | xor b b' h h' => simp only [pqMul_xor_left, pqMul_xor, h, h']
    | power j hj =>
      induction c using byte_of_powers with
      | xor c c' h h' => simp only [pqMul_xor, h, h']
      | power k hk => 
        have powers : ∀ i < 8, ∀ j < 8, ∀ k < 8, pqMul (pqMul (BitVec.twoPow 8 i) (BitVec.twoPow 8 j)) (BitVec.twoPow 8 k) =
            pqMul (BitVec.twoPow 8 i) (pqMul (BitVec.twoPow 8 j) (BitVec.twoPow 8 k)) := by decide +kernel
        exact powers i hi j hj k hk

theorem pqMul_one_left (a : Byte) : pqMul 1 a = a := by
  induction a using byte_of_powers with
  | power i hi => exact (by decide : ∀ i < 8, pqMul 1 (BitVec.twoPow 8 i) = BitVec.twoPow 8 i) i hi
  | xor a b h h' => rw [pqMul_xor, h, h']

/-- The inverse of a nonzero element (R320). -/
theorem pqMul_pqInv : ∀ c : Byte, c ≠ 0 → pqMul (pqInv c) c = 1 := by decide +kernel

theorem pqMul_pqInv_cancel {c : Byte} (h : c ≠ 0) (a : Byte) : pqMul (pqInv c) (pqMul c a) = a := by
  rw [← pqMul_assoc, pqMul_pqInv c h, pqMul_one_left]

/-- The powers of the generator that a row's data strips take are different (R321). -/
theorem pqPow_ne : ∀ x < 22, ∀ y < 22, x ≠ y → pqPow x ≠ pqPow y := by decide +kernel

theorem pqPow_ne_zero : ∀ x < 22, pqPow x ≠ 0 := by decide +kernel

/-! ### Strips -/

section
variable {a b : List Byte}

theorem length_xorBytes (a b : List Byte) : (xorBytes a b).length = min a.length b.length := List.length_zipWith

theorem xorBytes_comm (a b : List Byte) : xorBytes a b = xorBytes b a := List.zipWith_comm_of_comm BitVec.xor_comm

theorem xorBytes_assoc (a b c : List Byte) : xorBytes (xorBytes a b) c = xorBytes a (xorBytes b c) :=
  List.ext_getElem (by simp [xorBytes, Nat.min_assoc]) fun i h h' => by simp [xorBytes, BitVec.xor_assoc]

theorem xorBytes_right_comm (a b c : List Byte) : xorBytes (xorBytes a b) c = xorBytes (xorBytes a c) b := by
  rw [xorBytes_assoc, xorBytes_comm b, xorBytes_assoc]

/-- What is put on twice goes. -/
theorem xorBytes_self_left (h : b.length ≤ a.length) : xorBytes a (xorBytes a b) = b :=
  List.ext_getElem (by simp [xorBytes, h]) fun i h h' => by simp [xorBytes]

theorem length_zeroBlock : zeroBlock.length = 4096 := List.length_replicate

theorem xorBytes_replicate_zero (a : List Byte) : xorBytes a (List.replicate a.length 0) = a :=
  List.ext_getElem (by simp [xorBytes]) fun i h h' => by simp [xorBytes]

theorem xorBytes_zeroBlock (h : a.length = 4096) : xorBytes a zeroBlock = a := by
  rw [zeroBlock, ← h, xorBytes_replicate_zero]

theorem length_scale (c : Byte) (a : List Byte) : (scale c a).length = a.length := List.length_map _

theorem scale_xorBytes (c : Byte) (a b : List Byte) : scale c (xorBytes a b) = xorBytes (scale c a) (scale c b) := by
  simp [scale, xorBytes, List.map_zipWith, List.zipWith_map, pqMul_xor]

theorem xor_scale (c d : Byte) (a : List Byte) : scale (c ^^^ d) a = xorBytes (scale c a) (scale d a) := by
  simp [scale, xorBytes, List.zipWith_map, List.zipWith_self, pqMul_xor_left]

theorem scale_pqInv_cancel {c : Byte} (h : c ≠ 0) (a : List Byte) : scale (pqInv c) (scale c a) = a := by
  simp [scale, Function.comp_def, pqMul_pqInv_cancel h]

end

/-! ### P and Q of a row (R321) -/

section
variable {ds : List (List Byte)} {j : Nat} {old new : List Byte}

theorem foldl_xorBytes (acc d : List Byte) (ds : List (List Byte)) :
    ds.foldl xorBytes (xorBytes acc d) = xorBytes (ds.foldl xorBytes acc) d := by
  induction ds generalizing acc with
  | nil => rfl
  | cons e ds ih => rw [List.foldl_cons, xorBytes_right_comm, ih, List.foldl_cons]

/-- P of a row one of whose data strips changes (R322). -/
theorem pOf_set (h : ds[j]? = some old) (hl : new.length = old.length) :
    pOf (ds.set j new) = xorBytes (pOf ds) (xorBytes old new) := by
  unfold pOf
  generalize zeroBlock = acc
  induction ds generalizing acc j with
  | nil => simp at h
  | cons d ds ih =>
    cases j with
    | zero =>
      obtain rfl : d = old := by simpa using h
      rw [List.set_cons_zero, List.foldl_cons, List.foldl_cons, ← foldl_xorBytes, xorBytes_assoc, xorBytes_self_left hl.le]
    | succ j => exact ih (by simpa using h) _

theorem qFrom_set (h : ds[j]? = some old) (hl : new.length = old.length) (k : Nat) :
    qFrom k (ds.set j new) = xorBytes (qFrom k ds) (scale (pqPow (k + j)) (xorBytes old new)) := by
  induction ds generalizing k j with
  | nil => simp at h
  | cons d ds ih =>
    cases j with
    | zero =>
      obtain rfl : d = old := by simpa using h
      rw [List.set_cons_zero, qFrom, qFrom, scale_xorBytes, xorBytes_comm (scale _ d), xorBytes_assoc, Nat.add_zero k,
        xorBytes_self_left (by rw [length_scale, length_scale, hl]), xorBytes_comm]
    | succ j =>
      rw [List.set_cons_succ, qFrom, qFrom, ih (by simpa using h), xorBytes_assoc, Nat.add_right_comm, Nat.add_assoc]

/-- Q of a row one of whose data strips changes (R322). -/
theorem qOf_set (h : ds[j]? = some old) (hl : new.length = old.length) :
    qOf (ds.set j new) = xorBytes (qOf ds) (scale (pqPow j) (xorBytes old new)) := by
  rw [qOf, qFrom_set h hl, Nat.zero_add, qOf]

theorem length_pOf (h : ∀ d ∈ ds, d.length = 4096) : (pOf ds).length = 4096 :=
  List.foldlRecOn (motive := fun p => p.length = 4096) ds xorBytes length_zeroBlock fun p hp d hd => by rw [length_xorBytes, hp, h d hd, Nat.min_self]

theorem length_qOf (h : ∀ d ∈ ds, d.length = 4096) : (qOf ds).length = 4096 := by
  unfold qOf
  generalize 0 = k
  induction ds generalizing k with
  | nil => exact length_zeroBlock
  | cons d ds ih =>
    rw [qFrom, length_xorBytes, length_scale, h d (by simp), ih fun e he => h e (by simp [he])]; rfl

/-- A lost strip, which stands as zeros, is what is missing of P (R322). -/
theorem pOf_zeroed (h : ds[j]? = some old) (hl : old.length = 4096) : pOf (ds.set j zeroBlock) = xorBytes (pOf ds) old := by
  rw [pOf_set h (length_zeroBlock.trans hl.symm), xorBytes_zeroBlock hl]

theorem qOf_zeroed (h : ds[j]? = some old) (hl : old.length = 4096) :
    qOf (ds.set j zeroBlock) = xorBytes (qOf ds) (scale (pqPow j) old) := by
  rw [qOf_set h (length_zeroBlock.trans hl.symm), xorBytes_zeroBlock hl]

end

end Sys2Proof.Machine
end

section
/-!
The statements about P and Q (08_stripe_writes_and_attic.md R320 to R322).
-/

namespace Sys2Proof.Machine

/-- Settles O53: P and Q are sums over the strips, so the change of a strip is the change of its term. -/
theorem readModifyWriteParity : Obligations.ReadModifyWriteParity := by
  unfold Obligations.ReadModifyWriteParity
  rintro ds j old new _ hlen hnew hj rfl
  have hl : new.length = old.length := hnew.trans (hlen old (List.mem_of_getElem? hj)).symm
  exact ⟨pOf_set hj hl, qOf_set hj hl⟩

/-- Settles O54: with zeros for a lost strip P and Q lack its terms, and these determine the strip, since the powers of the generator
are nonzero and different. -/
theorem stripRecovery : Obligations.StripRecovery := by
  unfold Obligations.StripRecovery
  intro ds x y a b hlen hrow hx
  have la : a.length = 4096 := hlen a (List.mem_of_getElem? hx)
  have lp := length_pOf hlen
  have lq := length_qOf hlen
  have index {j : Nat} {d : List Byte} (h : ds[j]? = some d) : j < 22 := (List.getElem?_eq_some_iff.1 h).1.trans_le hrow
  refine ⟨?fromP, ?fromQ, fun hxy hy => ?fromBoth⟩
  case fromP => rw [solveP, pOf_zeroed hx la, xorBytes_self_left (by omega)]
  case fromQ =>
    rw [solveQ, qOf_zeroed hx la, xorBytes_self_left (by rw [length_scale]; omega), scale_pqInv_cancel (pqPow_ne_zero x (index hx))]
  case fromBoth =>
    have lb : b.length = 4096 := hlen b (List.mem_of_getElem? hy)
    have hy' : (ds.set x zeroBlock)[y]? = some b := by rw [List.getElem?_set_ne hxy.ne, hy]
    have p2 : xorBytes (pOf ds) (pOf ((ds.set x zeroBlock).set y zeroBlock)) = xorBytes a b := by
      rw [pOf_zeroed hy' lb, pOf_zeroed hx la, xorBytes_assoc, xorBytes_self_left (by rw [length_xorBytes]; omega)]
    have q2 : xorBytes (qOf ds) (qOf ((ds.set x zeroBlock).set y zeroBlock)) =
        xorBytes (scale (pqPow x) a) (scale (pqPow y) b) := by
      rw [qOf_zeroed hy' lb, qOf_zeroed hx la, xorBytes_assoc,
        xorBytes_self_left (by rw [length_xorBytes, length_scale, length_scale]; omega)]
    have both : xorBytes (scale (pqPow y) (xorBytes a b)) (xorBytes (scale (pqPow x) a) (scale (pqPow y) b)) =
        scale (pqPow x ^^^ pqPow y) a := by
      rw [scale_xorBytes, xor_scale, xorBytes_comm (scale (pqPow x) a) (scale (pqPow y) b), xorBytes_assoc,
        xorBytes_self_left (by simp [length_scale, la, lb]), xorBytes_comm]
    have unequal : pqPow x ^^^ pqPow y ≠ 0 := fun h =>
      pqPow_ne x (index hx) y (index hy) hxy.ne (BitVec.xor_eq_zero_iff.1 h)
    rw [solvePQ, p2, q2, both, scale_pqInv_cancel unequal, xorBytes_comm, xorBytes_self_left (by omega)]

end Sys2Proof.Machine
end

section
/-!
SUPPORT. Laws of the loss of power: the feed's line, the dump's seal and the way out of POWER_HOLD (08_stripe_writes_and_attic.md).
-/

namespace Sys2Proof.Machine

-- Proofs in sequence: the stack of every thread that waits counts against the memory limit of the check.
set_option Elab.async false

section
variable {s : State}

/-- A row gated by a condition that holds answers its effect. -/
theorem State.gate_next {b : State → Bool} {f : State → State} {t : State} (h : b s = true) (hf : f s = t) (ht : t.pending = s.pending) :
    (s.row fun s => s.gate b f) = .next t := State.row_next ((s.gate_true h).trans hf) ht

/-! ### The line (R589, R590) -/

/-- Of the bays' block a cut of every bay changes the sub-channels alone. -/
theorem State.baysOff_besideSubs (s : State) : { s.baysOff.bay with subs := [] } = { s.bay with subs := [] } := by
  have sub (s : State) (n k : Nat) : { (s.disableSub n k).bay with subs := [] } = { s.bay with subs := [] } := by
    have fall : { ((s.setFld (enField n k) 0).pgFall n k).bay with subs := [] } = { s.bay with subs := [] } := by
      unfold State.pgFall
      dsimp only
      split <;> rfl
    rw [State.disableSub_eq]
    split
    · refine Eq.trans ?_ fall
      unfold State.cutSub
      split <;> rfl
    · rfl
  exact State.each_same _ _ _ (fun s => { s.bay with subs := [] }) fun s n _ => (sub _ n 1).trans (sub s n 0)

theorem State.bay_lossTold (s : State) : s.lossTold.bay = { s.bay with powerLoss := true, lineAt := s.now } := by
  have same : Frame [.regs, .wdn, .mgt] (s.onBay fun b => { b with powerLoss := true, lineAt := s.now }) s.lossTold :=
    Frame.mono (Frame.append (Frame.append (Frame.append (State.bump_frame _ _ _) (State.flag_frame _ _))
      (State.tallyFlag_frame _ _ _ _ _)) (State.event_frame _ _)) (by decide)
  exact same.bay_eq

theorem State.lineAt_lossTold_baysOff (s : State) : s.lossTold.baysOff.bay.lineAt = s.now :=
  (congrArg Bay.lineAt s.lossTold.baysOff_besideSubs).trans (congrArg Bay.lineAt s.bay_lossTold)

/-- A region of the Cellar stands while a loss of power is reported. -/
theorem State.region_lossTold_baysOff {n : Nat} (h : n < 8) (s : State) :
    s.lossTold.baysOff.word (A.HST_REGION n) = s.word (A.HST_REGION n) := by
  have addr : A.HST_REGION n = 0x200040 + 4 * n := rfl
  rw [addr, State.word_baysOff (by omega) (show 0x200040 + 4 * n ≠ 0xB00004 by omega), State.word_lossTold (by omega),
    State.word_flag_ne _ (show 0xB00004 ≠ 0x200040 + 4 * n by omega), State.word_bump_ne _ _
      (show 0xB00020 ≠ 0x200040 + 4 * n by omega) (show 0xB00020 + 4 ≠ 0x200040 + 4 * n by omega)]

/-- The line deasserts: the time of R346 starts again, and PG_IN, if a loss of it asserted the line, is high again (R731). -/
def State.lineBack (s : State) : State :=
  { s with bay := { s.bay with powerLoss := false, lineAt := s.now }
           glb := { s.glb with pgIn := s.glb.pgIn || s.glb.pgLoss, pgLoss := false } }

theorem State.powerBack_asserted (h : s.bay.powerLoss = true) : s.powerBack = s.lineBack := by
  simp [State.powerBack, State.lineBack, State.onBay, State.onGlb, h]

/-! ### POWER_HOLD (R344, R346) -/

theorem State.dumpSealed_loss (h : s.glb.phase = .lossDump) :
    s.dumpSealed = s.dumpSeal.onGlb fun g => { g with phase := .powerHold } := by simp [State.dumpSealed, h]

theorem State.powerHoldExit_early (h : s.now < s.bay.lineAt + 100000000) : s.powerHoldExit = s := by
  simp [State.powerHoldExit, Nat.not_le.2 h]

theorem State.powerHoldExit_due (hp : s.glb.phase = .powerHold) (hl : s.bay.powerLoss = false)
    (hd : s.bay.lineAt + 100000000 ≤ s.now) : s.powerHoldExit = s.deviceReset 3 true := by
  simp [State.powerHoldExit, hp, hl, hd]

/-- LEVEL2_ZEROING_DONE ends the zeroing wherever no dump runs (R489). -/
theorem State.zeroing_zeroingDone (hz : s.cip.zeroing = true) (hd : s.dumping = false) : s.zeroingDone.cip.zeroing = false := by
  simp [State.zeroingDone, hz, hd]

/-- POWER_HOLD after a loss of power during the zeroing of a Level 2 alarm. -/
def heldZeroing : State := { State.reset with
  glb := { State.reset.glb with phase := .powerHold }
  cip := { State.reset.cip with zeroing := true } }

end

end Sys2Proof.Machine
end

section
/-!
The statements about the loss of power and POWER_HOLD (08_stripe_writes_and_attic.md R342 to R346).
-/

namespace Sys2Proof.Machine

-- Proofs in sequence: the stack of every thread that waits counts against the memory limit of the check.
set_option Elab.async false

/-- Settles O29: what a loss of power reports and the cut of the bays leave the records that the dump writes; an exit from POWER_HOLD
keeps what every device reset keeps. -/
theorem powerLoss : Obligations.PowerLoss := by
  unfold Obligations.PowerLoss
  refine ⟨fun s hp ha hd hl => ?asserts, fun s hp => State.row_next (State.dumpSealed_loss hp) rfl, fun s hp hl => ?deasserts,
    fun s hp hl => ⟨fun hn => State.row_next (State.powerHoldExit_early hn) rfl, fun hn => ?leaves⟩⟩
  case asserts =>
    have told := Frame.append s.lossTold_frame s.lossTold.baysOff_frame
    have dump := s.lossTold.baysOff.dump_frame
    have same := told.append dump
    have regs : (s.lossTold.baysOff.dump.onGlb fun g => { g with phase := .lossDump }).regs = s.lossTold.baysOff.regs := dump.regs_eq
    have bay : s.lossTold.baysOff.dump.bay = s.lossTold.baysOff.bay := dump.bay_eq
    have runs : decide (s.glb.phase ≠ .held) = true := by rw [hp]; rfl
    refine ⟨_, State.gate_next runs (State.powerLoss_running hl hp ha hd) same.pending_eq, ?_, ?_, rfl, ?_, ?_, ?_, fun n hn => ?_,
      same.trn_eq, same.cq_eq, same.str_eq, same.hst_eq⟩
    · exact (congrArg Bay.powerLoss bay).trans (s.lossTold.powerLoss_baysOff.trans s.powerLoss_lossTold)
    · exact (congrArg Bay.lineAt bay).trans s.lineAt_lossTold_baysOff
    · exact State.dumpedTo_onGlb (State.dumpedTo_dump (told.mono (by decide)) fun n hn => State.region_lossTold_baysOff hn s) _
    · rw [State.is_congr regs, State.is_lossTold_baysOff]
    · rw [State.pair_congr regs, State.pair_lossTold_baysOff]
    · rw [State.is_congr regs, State.is_congr regs]
      exact ⟨State.is_baysOff (k := 0) hn (Or.inl rfl) _, State.is_baysOff (k := 1) hn (Or.inr rfl) _⟩
  case deasserts =>
    exact ⟨_, State.gate_next (decide_eq_true hp) (State.powerBack_asserted hl) rfl, rfl, rfl, rfl⟩
  case leaves =>
    exact ⟨_, State.row_next (State.powerHoldExit_due hp hl hn) rfl, rfl, State.fld_deviceReset_cause s 3 true,
      State.is_deviceReset_dumped s 3 true, rfl, rfl, rfl, rfl, rfl, rfl, rfl, rfl, fun a ha => s.word_deviceReset_ne 3 true ha⟩

/-- Refutes O55: in POWER_HOLD the zeroing of a Level 2 alarm, which R489 lets start once the dump is sealed, ends with
LEVEL2_ZEROING_DONE, a command that the statement does not except. -/
theorem not_powerHoldWatchesTheFeed : ¬ Obligations.PowerHoldWatchesTheFeed := by
  unfold Obligations.PowerHoldWatchesTheFeed
  rintro ⟨idle, -⟩
  have row : exec .level2ZeroingDone heldZeroing = .next heldZeroing := idle .level2ZeroingDone heldZeroing rfl
  have same : { heldZeroing.zeroingDone with pending := heldZeroing.pending } = heldZeroing := Host.Outcome.next.inj row
  have ended : heldZeroing.cip.zeroing = false :=
    (congrArg (·.cip.zeroing) same).symm.trans (State.zeroing_zeroingDone (s := heldZeroing) rfl rfl)
  exact absurd ended (by decide)

end Sys2Proof.Machine
end

section
/-!
The statement about checkpoints, SHUTDOWN and DISCARD_GROUP (08_stripe_writes_and_attic.md R338, R351 to R356).
-/

namespace Sys2Proof.Machine

-- Proofs in sequence: the stack of every thread that waits counts against the memory limit of the check.
set_option Elab.async false

/-- STR_CMD is ignored while a replay runs (Table 08-14). -/
theorem State.strCmd_replay {s : State} (h : s.replayRuns = true) (cmd g : Nat) : s.strCmd cmd g = s := by
  simp [State.strCmd, h]

/-- A running part whose replay of the peer's journals, after a takeover, closes intents (R662). -/
def takeoverReplay : State := { State.reset with
  glb := { State.reset.glb with phase := .running }
  peer := { State.reset.peer with takeStep := .closing } }

/-- Refutes O28: a replay runs after a takeover as well (R662), which ignores STR_CMD, where no replay after a restart is busy and the
side is not FENCED; then CHECKPOINT begins none. -/
theorem not_checkpoints : ¬ Obligations.Checkpoints := by
  unfold Obligations.Checkpoints
  rintro ⟨checkpoint, -⟩
  have begins := (checkpoint .mgmt takeoverReplay rfl rfl rfl rfl).1 rfl
  have ignored : exec (.checkpoint .mgmt) takeoverReplay = .next takeoverReplay :=
    State.busUp_next rfl rfl (State.strCmd_replay rfl 1 0) rfl
  obtain ⟨t, r, row, run, -⟩ := begins
  obtain rfl : takeoverReplay = t := Host.Outcome.next.inj (ignored.symm.trans row)
  exact Option.some_ne_none r run.symm

end Sys2Proof.Machine
end

section
/-!
SUPPORT. What the closing of intents leaves of a replay (08_stripe_writes_and_attic.md R357 to R363): that it runs, its source, the
journal it found, and which groups are enabled. A closing's write that fails fails its member (R337), and all that follows a member's
leaving service leaves them too. The proofs by computation are written `(rfl)`: the equations then rewrite as propositions, which lets
simp discharge what the lemmas on folds ask for.
-/

namespace Sys2Proof.Machine

-- Proofs in sequence: the stack of every thread that waits counts against the memory limit of the check.
set_option Elab.async false

/-- What a replay goes by: that it runs, its source, the journal it found, and the groups' FLAGS. -/
def State.replayMark (s : State) : Bool × Bool × (Nat × Nat) × Option PriorJournal × (Nat → Nat) :=
  (s.str.replayed, s.str.replayBusy, s.str.replaySource, s.str.prior, fun g => getPart (s.grp g) Grp.flags)

/-! ### FLAGS of a group's entry -/

theorem grpFlags_setMemberState (e : BitVec 512) (m v : Nat) : getPart (setMemberState e m v) Grp.flags = getPart e Grp.flags :=
  getPart_putPart_disjoint (by decide) _ _

theorem grpFlags_putState (e : BitVec 512) (v : Nat) : getPart (putPart e Grp.state v) Grp.flags = getPart e Grp.flags :=
  getPart_putPart_disjoint (by decide) _ _

theorem grpFlags_putSpareMask (e : BitVec 512) (v : Nat) : getPart (putPart e Grp.spareMask v) Grp.flags = getPart e Grp.flags :=
  getPart_putPart_disjoint (by decide) _ _

theorem grpFlags_putMemberBay (e : BitVec 512) (m b : Nat) :
    getPart (putBytes e (Grp.memberBay.off + m) 1 b) Grp.flags = getPart e Grp.flags :=
  getBits_putBits_disjoint (.inl (by dsimp only; omega)) _ _

section
variable (s : State)

/-! ### Composition -/

theorem State.replayMark_of_frame {s t : State} {l : List Blk} (h : Frame l s t) (hs : Blk.str ∉ l := by decide)
    (hv : Blk.vol ∉ l := by decide) : t.replayMark = s.replayMark := by
  simp only [State.replayMark, State.grp, h.str_eq hs, h.vol_eq hv]

@[simp] theorem State.replayMark_ite (c : Prop) [Decidable c] (t : State) :
    (if c then s else t).replayMark = if c then s.replayMark else t.replayMark := apply_ite _ _ _ _

@[simp] theorem State.replayMark_when (f : State → State) (b : Bool) :
    (s.when b f).replayMark = if b then (f s).replayMark else s.replayMark := by
  cases b <;> rfl

@[simp] theorem State.replayMark_each {α : Type} {f : State → α → State} (h : ∀ s a, (f s a).replayMark = s.replayMark) (l : List α) :
    (s.each l f).replayMark = s.replayMark := State.each_same _ _ _ State.replayMark fun s a _ => h s a

@[simp] theorem State.replayMark_with? {α : Type} (f : State → α → State) (o : Option α) :
    (s.with? o f).replayMark = o.elim s.replayMark fun a => (f s a).replayMark := by
  cases o <;> rfl

/-! ### Changes of one field -/

@[simp] theorem State.replayMark_flag (f : Fld) : (s.flag f).replayMark = s.replayMark := (rfl)
@[simp] theorem State.replayMark_setFld (f : Fld) (v : Nat) : (s.setFld f v).replayMark = s.replayMark := (rfl)
@[simp] theorem State.replayMark_bump (a n : Nat) : (s.bump a n).replayMark = s.replayMark := (rfl)
@[simp] theorem State.replayMark_event (e : Event) : (s.event e).replayMark = s.replayMark := (rfl)
@[simp] theorem State.replayMark_onAttic (f : Attic → Attic) : (s.onAttic f).replayMark = s.replayMark := (rfl)
@[simp] theorem State.replayMark_onRbd (f : Rbd → Rbd) : (s.onRbd f).replayMark = s.replayMark := (rfl)
@[simp] theorem State.replayMark_onRsv (f : Rsv → Rsv) : (s.onRsv f).replayMark = s.replayMark := (rfl)
@[simp] theorem State.replayMark_onDrv (f : Drv → Drv) : (s.onDrv f).replayMark = s.replayMark := (rfl)
@[simp] theorem State.replayMark_onPeer (f : Peer → Peer) : (s.onPeer f).replayMark = s.replayMark := (rfl)
@[simp] theorem State.replayMark_modDrive (b : Nat) (f : Drive → Drive) : (s.modDrive b f).replayMark = s.replayMark := (rfl)
@[simp] theorem State.replayMark_modCmd (c : Nat) (f : Slot → Slot) : (s.modCmd c f).replayMark = s.replayMark := (rfl)
@[simp] theorem State.replayMark_finish (c st : Nat) : (s.finish c st).replayMark = s.replayMark := (rfl)
@[simp] theorem State.replayMark_setIntent (i : Nat) (e : BitVec 256) : (s.setIntent i e).replayMark = s.replayMark := (rfl)
@[simp] theorem State.replayMark_modLive (n : Nat) (f : StripeWrite → StripeWrite) : (s.modLive n f).replayMark = s.replayMark := (rfl)
@[simp] theorem State.replayMark_modPend (n : Nat) (f : PendingRead → PendingRead) : (s.modPend n f).replayMark = s.replayMark := (rfl)
@[simp] theorem State.replayMark_closeFlow (id : Nat) : (s.closeFlow id).replayMark = s.replayMark := (rfl)
@[simp] theorem State.replayMark_modFrame (n : Nat) (f : EgFrame → EgFrame) : (s.modFrame n f).replayMark = s.replayMark := (rfl)
@[simp] theorem State.replayMark_volRefuse (n : Nat) : (s.volRefuse n).replayMark = s.replayMark := (rfl)

@[simp] theorem State.replayMark_tallyFlag (c : TallyClass) (f : Fld) (i : Nat) (a : List Nat) :
    (s.tallyFlag c f i a).replayMark = s.replayMark := State.replayMark_of_frame (s.tallyFlag_frame c f i a)

@[simp] theorem State.replayMark_tallyEvent (c : TallyClass) (b n i : Nat) (a : List Nat) :
    (s.tallyEvent c b n i a).replayMark = s.replayMark := State.replayMark_of_frame (s.tallyEvent_frame c b n i a)

@[simp] theorem State.replayMark_tallyMedia (f : Fld) (b g m lba : Nat) : (s.tallyMedia f b g m lba).replayMark = s.replayMark :=
  s.replayMark_tallyFlag _ _ _ _

@[simp] theorem State.replayMark_peerSend (k : Nat) (l : List Byte) : (s.peerSend k l).replayMark = s.replayMark := (rfl)

@[simp] theorem State.replayMark_peerTell (k : Nat) (l : List Byte) : (s.peerTell k l).replayMark = s.replayMark := by
  simp [State.peerTell, State.peerSend]

@[simp] theorem State.replayMark_openFlow (a : Nat) (e : Bool) (u : FlowUse) (r : List (Nat × Nat)) (p : List Byte) (b : Bool) :
    (s.openFlow a e u r p b).replayMark = s.replayMark := State.replayMark_of_frame (s.openFlow_frame a e u r p b)

@[simp] theorem State.replayMark_staleWhere (p : Nat → BitVec 128 → Bool) : (s.staleWhere p).replayMark = s.replayMark :=
  State.replayMark_of_frame (s.staleWhere_frame p)

@[simp] theorem State.replayMark_staleBlock (v lba : Nat) : (s.staleBlock v lba).replayMark = s.replayMark := s.replayMark_staleWhere _

@[simp] theorem State.replayMark_cellarWrite (a n : Nat) (l : List Byte) : (s.cellarWrite a n l).replayMark = s.replayMark :=
  State.replayMark_of_frame (s.cellarWrite_frame a n l)

@[simp] theorem State.replayMark_cellsTaken (a n : Nat) : (s.cellsTaken a n).replayMark = s.replayMark :=
  State.replayMark_of_frame (s.cellsTaken_frame a n)

/-! ### Reads and writes that an engine carries out within a step -/

@[simp] theorem State.replayMark_blockCrosses (a b : Nat) : (s.blockCrosses a b).replayMark = s.replayMark := (rfl)

@[simp] theorem State.replayMark_quickRead (b : Nat) : (s.quickRead b).replayMark = s.replayMark := (rfl)

@[simp] theorem State.replayMark_failedRead (b : Nat) : (s.failedRead b).replayMark = s.replayMark := (rfl)

@[simp] theorem State.replayMark_quickWrite (bay lba : Nat) (b : Block) : (s.quickWrite bay lba b).replayMark = s.replayMark := (rfl)

@[simp] theorem State.replayMark_countError (g m : Nat) : (s.countError g m).replayMark = s.replayMark := (rfl)

@[simp] theorem State.replayMark_countTrailer (x : Expect) (b : Block) : (s.countTrailer x b).replayMark = s.replayMark := by
  simp [State.countTrailer]

@[simp] theorem State.replayMark_noteRow (r : Row) (bad : List (Nat × Nat)) (ms : List Nat) (c : Bool) :
    (s.noteRow r bad ms c).replayMark = s.replayMark := by
  refine State.replayMark_each _ (fun s m => ?_) _
  split <;> simp

@[simp] theorem State.replayMark_readRepair (r : Row) (j : Nat) (l : List Byte) : (s.readRepair r j l).replayMark = s.replayMark := by
  simp [State.readRepair, State.writeBack]

/-! ### Clocks, lost ranges and checkpoints -/

@[simp] theorem State.replayMark_tellLost (g i : Nat) (e : LostEntry) : (s.tellLost g i e).replayMark = s.replayMark :=
  s.replayMark_peerTell _ _

@[simp] theorem State.replayMark_tellClock (g m : Nat) : (s.tellClock g m).replayMark = s.replayMark := s.replayMark_peerTell _ _

/-- What a change of the journal controller's fields leaves of a replay. -/
theorem State.replayMark_onStr {f : Str → Str} (hr : (f s.str).replayed = s.str.replayed)
    (hb : (f s.str).replayBusy = s.str.replayBusy) (hs : (f s.str).replaySource = s.str.replaySource)
    (hp : (f s.str).prior = s.str.prior) : (s.onStr f).replayMark = s.replayMark := by
  simp only [State.replayMark, State.onStr, State.grp, hr, hb, hs, hp]

@[simp] theorem State.replayMark_setClock (g v : Nat) : (s.setClock g v).replayMark = s.replayMark := by
  simp [State.setClock, State.replayMark_onStr]

@[simp] theorem State.replayMark_nextGen (g : Nat) : (s.nextGen g).2.replayMark = s.replayMark := s.replayMark_setClock _ _

@[simp] theorem State.replayMark_setLost (g i : Nat) (e : LostEntry) : (s.setLost g i e).replayMark = s.replayMark := by
  simp [State.setLost]

@[simp] theorem State.replayMark_lostFull (g t m k n : Nat) : (s.lostFull g t m k n).replayMark = s.replayMark := by
  simp [State.lostFull]

@[simp] theorem State.replayMark_addLost (g t m k : Nat) : (s.addLost g t m k).replayMark = s.replayMark := by
  unfold State.addLost
  split
  · rfl
  · split <;> simp

@[simp] theorem State.replayMark_clearLost (g t m k n : Nat) : (s.clearLost g t m k n).replayMark = s.replayMark := by
  refine State.replayMark_each _ (fun s y => ?_) _
  obtain ⟨i, e⟩ := y
  dsimp only
  split
  case h_4 => split <;> simp
  all_goals simp

@[simp] theorem State.replayMark_undispute (g t : Nat) : (s.undispute g t).replayMark = s.replayMark := by
  unfold State.undispute
  split <;> simp

@[simp] theorem State.replayMark_ckptBegin (d : Bool) : (s.ckptBegin d).replayMark = s.replayMark := by
  unfold State.ckptBegin
  rw [State.replayMark_onStr] <;> simp

@[simp] theorem State.replayMark_ckptStart (d : Bool) : (s.ckptStart d).replayMark = s.replayMark := by
  simp [State.ckptStart, State.replayMark_onStr]

@[simp] theorem State.replayMark_shutdownNext : s.shutdownNext.replayMark = s.replayMark := by
  unfold State.shutdownNext
  split
  · split <;> simp
  · rfl

@[simp] theorem State.replayMark_copyLost (g m : Nat) : (s.copyLost g m).replayMark = s.replayMark := by
  simp [State.copyLost, State.replayMark_onStr]

/-! ### Losses met by a read -/

@[simp] theorem State.replayMark_lossWaits (r : Row) : (s.lossWaits r).replayMark = s.replayMark := (rfl)

@[simp] theorem State.replayMark_recordLoss (r : Row) (t : Nat → Bool) (w : List (Nat × Nat)) :
    (s.recordLoss r t w).replayMark = s.replayMark := by
  unfold State.recordLoss
  split
  · rfl
  · split
    · simp
    · simp only
      split <;> simp

@[simp] theorem State.replayMark_readLoss (r : Row) : (s.readLoss r).replayMark = s.replayMark := by simp [State.readLoss]

@[simp] theorem State.replayMark_waitingLosses : s.waitingLosses.replayMark = s.replayMark := by
  refine (State.replayMark_each _ (fun s y => ?_) _).trans (s.replayMark_onRbd _)
  obtain ⟨g, stripe, k, bad⟩ := y
  dsimp only
  split <;> simp

/-! ### Commands that a stripe write settles or stops -/

@[simp] theorem State.replayMark_stopCmd (c : Nat) : (s.stopCmd c).replayMark = s.replayMark := by
  cases h : s.cmd? c with
  | none => rw [State.stopCmd_none h]
  | some y =>
    obtain ⟨k, x⟩ := y
    have pull := s.pullFrames_frame c
    simp only [State.stopCmd, h, State.replayMark_modCmd]
    rw [State.replayMark_of_frame (State.endAccess_frame _ _), State.replayMark_of_frame (State.releaseDests_frame _ _)]
    simp only [State.replayMark, State.grp, pull.vol_eq]

@[simp] theorem State.replayMark_stripeFails (c p st : Nat) : (s.stripeFails c p st).replayMark = s.replayMark := by
  simp [State.stripeFails]

@[simp] theorem State.replayMark_freeWrite (w : StripeWrite) : (s.freeWrite w).replayMark = s.replayMark := by
  unfold State.freeWrite
  split <;> simp [State.replayMark_onStr]

@[simp] theorem State.replayMark_initEnd : s.initEnd.replayMark = s.replayMark := by
  unfold State.initEnd
  split
  · rfl
  · simp only [State.replayMark_volRefuse]
    exact State.replayMark_each _ (fun s w => s.replayMark_freeWrite w) _

@[simp] theorem State.replayMark_reshapeHold : s.reshapeHold.replayMark = s.replayMark := by
  unfold State.reshapeHold
  split <;> simp

@[simp] theorem State.replayMark_writeMet (w : StripeWrite) : (s.writeMet w).replayMark = s.replayMark := by
  unfold State.writeMet
  split
  · simp only
    split <;> simp
  · rfl

@[simp] theorem State.replayMark_flushMet (w : StripeWrite) : (s.flushMet w).replayMark = s.replayMark := by
  simp only [State.flushMet]
  split <;> rfl

@[simp] theorem State.replayMark_holdWrite (w : StripeWrite) : (s.holdWrite w).replayMark = s.replayMark := by
  unfold State.holdWrite
  rw [State.replayMark_each _ fun s y => s.replayMark_finish _ _]
  split
  · split <;> simp
  · rfl

/-! ### The peer's copies -/

@[simp] theorem State.replayMark_creditBack (w : StripeWrite) : (s.creditBack w).replayMark = s.replayMark := (rfl)

@[simp] theorem State.replayMark_toldPeer (w : StripeWrite) (n : Nat) : (s.toldPeer w n).replayMark = s.replayMark := (rfl)

@[simp] theorem State.replayMark_mirrorLost (w : StripeWrite) : (s.mirrorLost w).replayMark = s.replayMark := (rfl)

@[simp] theorem State.replayMark_sendBlocks (i f n k a : Nat) : (s.sendBlocks i f n k a).replayMark = s.replayMark := by
  induction k generalizing s a with
  | zero => rfl
  | succ k ih =>
    simp only [State.sendBlocks]
    split <;> simp [ih]

@[simp] theorem State.replayMark_creditMore (l : List Nat) : (s.creditMore l).replayMark = s.replayMark := by
  induction l generalizing s with
  | nil => rfl
  | cons n l ih =>
    unfold State.creditMore
    split
    · simp [ih]
    · split
      · simp [ih]
      · rfl

@[simp] theorem State.replayMark_mirrorRetire (w : StripeWrite) : (s.mirrorRetire w).replayMark = s.replayMark := by
  unfold State.mirrorRetire
  split <;> simp

/-! ### Retirement and destage -/

@[simp] theorem State.replayMark_retire (w : StripeWrite) : (s.retire w).replayMark = s.replayMark := by
  simp [State.retire]

@[simp] theorem State.replayMark_retireIfDone (n : Nat) : (s.retireIfDone n).replayMark = s.replayMark := by
  unfold State.retireIfDone
  split <;> simp

@[simp] theorem State.replayMark_destage (n : Nat) : (s.destage n).replayMark = s.replayMark := by
  unfold State.destage
  split
  · rfl
  · split
    · simp
    · split
      · rfl
      · split <;> simp

@[simp] theorem State.replayMark_dropMember (g m : Nat) : (s.dropMember g m).replayMark = s.replayMark := by
  simp [State.dropMember]

@[simp] theorem State.replayMark_resumeGroup (g : Nat) : (s.resumeGroup g).replayMark = s.replayMark := by
  simp [State.resumeGroup]

/-! ### Rebuild targets and group entries -/

@[simp] theorem State.replayMark_endTargets (g : Nat) : (s.endTargets g).replayMark = s.replayMark := by
  refine State.replayMark_each _ (fun s k => ?_) _
  split <;> simp

@[simp] theorem State.replayMark_startTarget (g m : Nat) : (s.startTarget g m).replayMark = s.replayMark := by
  simp only [State.startTarget]
  split
  · rfl
  · split <;> simp

@[simp] theorem State.replayMark_saveTargets : s.saveTargets.replayMark = s.replayMark := (rfl)

@[simp] theorem State.replayMark_followTargets (g : Nat) : (s.followTargets g).replayMark = s.replayMark := by
  simp [State.followTargets]

@[simp] theorem State.replayMark_groupChanged (g o : Nat) : (s.groupChanged g o).replayMark = s.replayMark := by
  simp only [State.groupChanged]
  split
  · split <;> simp
  · simp

/-- A group's entry put under the same FLAGS. -/
theorem State.replayMark_putGrp {g : Nat} {e : BitVec 512} (h : getPart e Grp.flags = getPart (s.grp g) Grp.flags) :
    (s.onVol fun x => { x with grps := Tab.put 0 g e x.grps }).replayMark = s.replayMark := by
  have flags : ∀ k, getPart (Tab.getD k 0 (Tab.put 0 g e s.vol.grps)) Grp.flags = getPart (s.grp k) Grp.flags := by
    intro k
    by_cases hk : k = g
    · rw [hk, Tab.getD_put_self, h]
    · rw [Tab.getD_put_ne (Ne.symm hk), State.grp]
  exact congrArg (fun x => (s.str.replayed, s.str.replayBusy, s.str.replaySource, s.str.prior, x)) (funext flags)

theorem State.replayMark_setGrp {g : Nat} {e : BitVec 512} (h : getPart e Grp.flags = getPart (s.grp g) Grp.flags) :
    (s.setGrp g e).replayMark = s.replayMark := by
  unfold State.setGrp
  rw [State.replayMark_putGrp]
  · simp
  · rw [grpFlags_putState, h]
    exact congrArg (fun e => getPart e Grp.flags) (State.when_same _ _ _ (fun s => s.grp g) rfl).symm

@[simp] theorem State.replayMark_setMember (g m v : Nat) : (s.setGrp g (setMemberState (s.grp g) m v)).replayMark = s.replayMark :=
  s.replayMark_setGrp (grpFlags_setMemberState _ _ _)

@[simp] theorem State.replayMark_clearSpares (l : List Nat) : (s.clearSpares l).replayMark = s.replayMark :=
  State.replayMark_each _ (fun s _ => s.replayMark_putGrp (grpFlags_putSpareMask _ _)) _

@[simp] theorem State.replayMark_rebuildEnd (g : Nat) : (s.rebuildEnd g).replayMark = s.replayMark := by
  have flags : ∀ (ts : List Target) (e : BitVec 512),
      getPart (ts.foldl (fun e t => setMemberState e t.member Mem.active) e) Grp.flags = getPart e Grp.flags := by
    intro ts
    induction ts with
    | nil => exact fun _ => rfl
    | cons t ts ih => exact fun e => (ih _).trans (grpFlags_setMemberState _ _ _)
  simp [State.rebuildEnd, s.replayMark_setGrp (flags _ _)]

@[simp] theorem State.replayMark_takeSpare (g m : Nat) : (s.takeSpare g m).replayMark = s.replayMark := by
  unfold State.takeSpare
  split
  · simp
  · simp only [State.replayMark_groupChanged, State.replayMark_followTargets, State.replayMark_flag, State.replayMark_clearSpares]
    exact s.replayMark_setGrp ((grpFlags_setMemberState _ _ _).trans (grpFlags_putMemberBay _ _ _))

/-! ### Pending reads, carried on by reconstruction -/

@[simp] theorem State.replayMark_issueOne (b : Nat) : (s.issueOne b).replayMark = s.replayMark := by
  unfold State.issueOne
  split
  · split <;> simp
  · rfl

@[simp] theorem State.replayMark_issue (b : Nat) (w : Bool) (l c : Nat) (y : Block) (u : DriveUse) :
    (s.issue b w l c y u).replayMark = s.replayMark := by
  simp [State.issue]

@[simp] theorem State.replayMark_landRun (p : PendingRead) (q n : Nat) : (s.landRun p q n).replayMark = s.replayMark := by
  simp [State.landRun]

@[simp] theorem State.replayMark_cutFails (n l : Nat) : (s.cutFails n l).replayMark = s.replayMark := by
  refine State.replayMark_each _ (fun s y => ?_) _
  obtain ⟨k, f⟩ := y
  dsimp only
  split <;> simp

@[simp] theorem State.replayMark_verdict (n p st : Nat) (l r : Bool) : (s.verdict n p st l r).replayMark = s.replayMark := by
  simp only [State.verdict, State.replayMark_modPend, State.replayMark_when, State.replayMark_with?]
  cases s.pend? n <;> simp

@[simp] theorem State.replayMark_pendSolve (p : PendingRead) (q : Nat) : (s.pendSolve p q).replayMark = s.replayMark := by
  unfold State.pendSolve
  split
  · rfl
  · simp only [State.replayMark_ite]
    generalize Row.outcome _ _ _ _ _ = o
    obtain ⟨status, stored, rec⟩ := o
    dsimp only
    split
    · simp
    · split
      · simp
      all_goals simp

@[simp] theorem State.replayMark_pendBlock (n q : Nat) : (s.pendBlock n q).replayMark = s.replayMark := by
  unfold State.pendBlock
  split
  · rfl
  · split
    · rfl
    · simp

@[simp] theorem State.replayMark_pendIssue (n : Nat) : (s.pendIssue n).replayMark = s.replayMark := by
  unfold State.pendIssue
  split <;> simp

@[simp] theorem State.replayMark_pendStep (n : Nat) : (s.pendStep n).replayMark = s.replayMark := by
  unfold State.pendStep
  split <;> simp

@[simp] theorem State.replayMark_pendEval (n : Nat) : (s.pendEval n).replayMark = s.replayMark := by simp [State.pendEval]

@[simp] theorem State.replayMark_reissueReads (g m : Nat) : (s.reissueReads g m).replayMark = s.replayMark := by
  simp [State.reissueReads]

/-! ### A member leaves service, and the closing of intents -/

@[simp] theorem State.replayMark_memberLeft (g m o : Nat) : (s.memberLeft g m o).replayMark = s.replayMark := by
  simp [State.memberLeft]

@[simp] theorem State.replayMark_memberDown (g m v : Nat) : (s.memberDown g m v).replayMark = s.replayMark := by
  simp [State.memberDown]

@[simp] theorem State.replayMark_memberWriteFailed (g m : Nat) : (s.memberWriteFailed g m).replayMark = s.replayMark := by
  simp [State.memberWriteFailed]

@[simp] theorem State.replayMark_closePut (g t : Nat) (w : List (Nat × Nat)) (y : (Nat × Nat) × Block) :
    (s.closePut g t w y).replayMark = s.replayMark := by
  simp [State.closePut]

@[simp] theorem State.replayMark_closeWith (i : BitVec 256) (b : List ((Nat × Nat) × Block)) (bad w : List (Nat × Nat)) :
    (s.closeWith i b bad w).replayMark = s.replayMark := by
  simp [State.closeWith]

@[simp] theorem State.replayMark_replayLose (g t m k : Nat) : (s.replayLose g t m k).replayMark = s.replayMark := by
  simp [State.replayLose]

@[simp] theorem State.replayMark_closeRow (i x : BitVec 256) (f k : Nat) (js : List Nat) (bad w : List (Nat × Nat)) :
    (s.closeRow i x f k js bad w).replayMark = s.replayMark := by
  simp only [State.closeRow, State.replayMark_ite, State.replayMark_closePut, ite_self]
  split <;> simp

@[simp] theorem State.replayMark_closeWithout (n : Nat) (i : BitVec 256) (bad w : List (Nat × Nat)) :
    (s.closeWithout n i bad w).replayMark = s.replayMark := by
  simp only [State.closeWithout]
  split <;> simp

theorem State.replayMark_closeInit {i : BitVec 256} {w : List (Nat × Nat)} {t : State} (h : s.closeInit i w = some t) :
    t.replayMark = s.replayMark := by
  simp only [State.closeInit] at h
  split at h
  · rw [Option.some.inj h]
  · split at h
    · exact absurd h (by simp)
    · obtain ⟨k, -, rfl⟩ := Option.map_eq_some_iff.mp h
      simp

@[simp] theorem State.replayMark_closeIntent (n : Nat) (i : BitVec 256) (f : State → BitVec 256 → Buffer) (bad w : List (Nat × Nat)) :
    (s.closeIntent n i f bad w).2.replayMark = s.replayMark := by
  simp only [State.closeIntent]
  split
  · rfl
  · split
    · split
      · exact s.replayMark_closeInit ‹_›
      · rfl
    · split <;> simp

end

end Sys2Proof.Machine
end

section
/-!
SUPPORT. Laws of a replay (08_stripe_writes_and_attic.md R350, R357 to R364): the copies found damaged, the patrols it starts, what it
goes on with from a source, and its end.
-/

namespace Sys2Proof.Machine

-- Proofs in sequence: the stack of every thread that waits counts against the memory limit of the check.
set_option Elab.async false

section
variable (s : State)

/-! ### Damaged copies (R350) -/

theorem State.draw_frame (n : Nat) : Frame [.free] s (s.draw n).2 := by
  intro x hx
  cases x
  case free => exact absurd (by decide) hx
  all_goals rfl

theorem State.blockCrosses_frame (a b : Nat) : Frame [.regs] s (s.blockCrosses a b) :=
  Frame.append (Frame.ite (Frame.refl _ s) (s.bump_frame _ _)) (State.cellsTaken_frame _ _ _) |>.mono (by decide)

theorem State.quickRead_frame (b : Nat) : Frame [.free, .regs, .rsv] s (s.quickRead b) :=
  Frame.append (s.draw_frame 32) (Frame.append (State.bump_frame _ _ _) (Frame.append (State.onRsv_frame _ _)
    (State.blockCrosses_frame _ _ _))) |>.mono (by decide)

theorem State.failedRead_frame (b : Nat) : Frame [.free, .regs, .rsv] s (s.failedRead b) :=
  Frame.append (s.quickRead_frame b) (Frame.append (State.bump_frame _ _ _) (State.bump_frame _ _ _)) |>.mono (by decide)

theorem State.copyFault_frame (b k : Nat) (f : CopyFault) : Frame [.drives, .free, .regs, .rsv] s (s.copyFault b k f) := by
  have counted (t : State) (a : Nat) (f : Fld) : Frame [.drives, .free, .regs, .rsv] t ((t.bump a).flag f) :=
    ((t.bump_frame a 1).mono (by decide)).trans (((t.bump a).flag_frame f).mono (by decide))
  unfold State.copyFault
  split
  · exact Frame.refl _ s
  · next c _ =>
    refine Frame.ite (Frame.trans ((s.modDrive_drives_frame b fun d => { d with ckpts := Tab.set k { c with whole := false } d.ckpts }).mono
      (by decide)) ?_) (Frame.refl _ s)
    split
    · exact (State.failedRead_frame _ _).mono (by decide)
    · exact counted _ _ _
    · exact counted _ _ _
    · exact Frame.refl _ _

theorem State.copyFaults_frame (l : List (Nat × Nat × CopyFault)) : Frame [.drives, .free, .regs, .rsv] s (s.copyFaults l) := by
  unfold State.copyFaults
  exact Frame.each (fun s y => s.copyFault_frame y.1 y.2.1 y.2.2) l s

/-! ### The patrols a replay starts (R363, R364) -/

/-- A patrol as a replay starts it. -/
def Patrol.Started (p : Patrol) : Prop := p.kind = .unpaced ∧ p.point = 0 ∧ p.postReplay = true

/-- A replay's start of the patrol of one group. -/
def State.patrolOne (g : Nat) : State :=
  if s.grpOn g then
    s.setPatrol g { patrolDefault with kind := .unpaced, began := s.now, postReplay := true, every := true, kept := (s.patrol g).toKeep }
  else s

theorem State.patrolAll_eq (gs : List Nat) : s.patrolAll gs = s.each gs State.patrolOne := rfl

theorem State.patrolOne_frame (g : Nat) : Frame [.rbd] s (s.patrolOne g) := Frame.ite (s.onRbd_frame _) (Frame.refl _ s)

theorem State.patrolAll_frame (gs : List Nat) : Frame [.rbd] s (s.patrolAll gs) := Frame.each State.patrolOne_frame gs s

theorem State.grpOn_patrolOne (g k : Nat) : (s.patrolOne g).grpOn k = s.grpOn k := by
  rw [State.grpOn, State.grp, (s.patrolOne_frame g).vol_eq, State.grpOn, State.grp]

theorem State.started_patrolOne_self {g : Nat} (h : s.grpOn g = true) : ((s.patrolOne g).patrol g).Started := by
  rw [State.patrolOne, if_pos h, State.patrol_setPatrol_self]
  exact ⟨rfl, rfl, rfl⟩

theorem State.started_patrolOne {g k : Nat} (h : (s.patrol g).Started) : ((s.patrolOne k).patrol g).Started := by
  by_cases hk : s.grpOn k = true
  · by_cases hg : g = k
    · subst hg
      exact s.started_patrolOne_self hk
    · rw [State.patrolOne, if_pos hk, State.patrol_setPatrol_ne hg]
      exact h
  · rwa [State.patrolOne, if_neg hk]

/-- Every enabled group of the list is patrolled afresh. -/
theorem State.started_patrolAll {gs : List Nat} {g : Nat} (hg : g ∈ gs) (on : s.grpOn g = true) :
    ((s.patrolAll gs).patrol g).Started := by
  have kept (l : List Nat) (s : State) (h : (s.patrol g).Started) : ((s.each l State.patrolOne).patrol g).Started := by
    induction l generalizing s with
    | nil => exact h
    | cons k l ih => exact ih _ (s.started_patrolOne h)
  rw [State.patrolAll_eq]
  induction gs generalizing s with
  | nil => exact absurd hg List.not_mem_nil
  | cons k gs ih =>
    rcases List.mem_cons.mp hg with rfl | hg
    · exact kept gs _ (s.started_patrolOne_self on)
    · exact ih _ hg ((s.grpOn_patrolOne k g).trans on)

/-! ### Clocks resumed (R324, R325) -/

/-- Of the Attic a clock's setting changes a high-water mark alone. -/
theorem State.setClock_attic (g v : Nat) : ∃ marks, (s.setClock g v).attic = { s.attic with clockMarks := marks } := by
  have told (t : State) (k m : Nat) : (t.tellClock k m).attic = t.attic := State.when_same _ _ _ State.attic rfl
  have reported (t : State) (b : Bool) (f : State → State) (h : (f t).attic = t.attic) : (t.when b f).attic = t.attic :=
    State.when_same _ _ _ State.attic h
  unfold State.setClock
  dsimp only
  rw [reported _ _ _ (State.tallyFlag_frame _ _ _ _ _).attic_eq]
  cases decide (Tab.getD g 0 (s.onStr _).attic.clockMarks < v) with
  | false => exact ⟨_, rfl⟩
  | true => exact ⟨_, told _ _ _⟩

theorem State.resumeClocks_attic (l : List Nat) : ∃ marks, (s.resumeClocks l).attic = { s.attic with clockMarks := marks } := by
  unfold State.resumeClocks
  induction (List.range 8).zip l generalizing s with
  | nil => exact ⟨_, rfl⟩
  | cons x xs ih =>
    obtain ⟨g, v⟩ := x
    obtain ⟨marks, h⟩ := ih (if v = 0 then s else s.setClock g (max v (Tab.getD g 0 s.str.clocks)))
    refine ⟨marks, h.trans ?_⟩
    split
    · rfl
    · obtain ⟨m, hm⟩ := s.setClock_attic g (max v (Tab.getD g 0 s.str.clocks))
      rw [hm]

@[simp] theorem State.resumeClocks_journalId (l : List Nat) : (s.resumeClocks l).attic.journalId = s.attic.journalId := by
  obtain ⟨marks, h⟩ := s.resumeClocks_attic l
  rw [h]

@[simp] theorem State.resumeClocks_journalGen (l : List Nat) : (s.resumeClocks l).attic.journalGen = s.attic.journalGen := by
  obtain ⟨marks, h⟩ := s.resumeClocks_attic l
  rw [h]

@[simp] theorem State.resumeClocks_intents (l : List Nat) : (s.resumeClocks l).attic.intents = s.attic.intents := by
  obtain ⟨marks, h⟩ := s.resumeClocks_attic l
  rw [h]

@[simp] theorem State.replayMark_resumeClocks (l : List Nat) : (s.resumeClocks l).replayMark = s.replayMark := by
  simp [State.resumeClocks]

/-! ### The closing of a source's intents (R359, R486) -/

/-- The intents closed are the source's: those left are of its list, and what the replay goes by stands. -/
theorem State.closeIntents_spec (l : List (Nat × BitVec 256)) (find : State → BitVec 256 → Buffer) (bad w : List (Nat × Nat)) :
    (∀ x ∈ (s.closeIntents l find bad w).1, x ∈ l) ∧ (s.closeIntents l find bad w).2.replayMark = s.replayMark := by
  have fold (l : List (Nat × BitVec 256)) : ∀ (left : List (Nat × BitVec 256)) (s : State),
      let r := l.foldl (fun (left, s) (k, i) =>
        let (ok, t) := s.closeIntent k i find bad w
        (if ok then left else left ++ [(k, i)], t)) (left, s)
      (∀ x ∈ r.1, x ∈ left ∨ x ∈ l) ∧ r.2.replayMark = s.replayMark := by
    induction l with
    | nil => exact fun left s => ⟨fun x hx => .inl hx, rfl⟩
    | cons y l ih =>
      intro left s
      obtain ⟨hl, hm⟩ := ih (if (s.closeIntent y.1 y.2 find bad w).1 then left else left ++ [y]) (s.closeIntent y.1 y.2 find bad w).2
      refine ⟨fun x hx => ?_, hm.trans (s.replayMark_closeIntent _ _ _ _ _)⟩
      rcases hl x hx with h | h
      · split at h
        · exact .inl h
        · rcases List.mem_append.mp h with h | h
          · exact .inl h
          · exact .inr (List.mem_cons.mpr (.inl (List.mem_singleton.mp h)))
      · exact .inr (List.mem_cons_of_mem _ h)
  obtain ⟨hl, hm⟩ := fold l [] s
  exact ⟨fun x hx => (hl x hx).resolve_left List.not_mem_nil, hm⟩

/-! ### A replay (R357 to R364) -/

/-- A replay has found the journal that the Attic held. -/
def State.replayBegun : State :=
  s.onStr fun x => { x with replayed := true, replayBusy := true, prior := some s.attic.ownJournal }

/-- A replay that finds no source drops the Attic's journal (R358). -/
def State.journalDropped (m : Nat) : State :=
  (((s.replayBegun.onAttic fun a => { a with journalId := m, intents := [], lost := [], clean := false, dump := [], sealed := none }).onStr
    fun x => { x with replaySource := (0, 0), replayLeft := [] }).flag F.STR_STATUS_NO_JOURNAL)

theorem State.replayFrom_none {m : Nat} (h : bestSource ((s.atticSource m).toList ++ s.memberSources m s.side) = none)
    (bad w : List (Nat × Nat)) : s.replayFrom m bad w = (s.journalDropped m).patrolAll (List.range 8) := by
  have none' : bestSource ((s.replayBegun.atticSource m).toList ++ s.replayBegun.memberSources m s.replayBegun.side) = none := h
  unfold State.replayBegun at none'
  unfold State.replayFrom
  dsimp only
  rw [none']
  rfl

/-- A replay has taken its source (R357). -/
def State.replayTaken (src : Source) : State :=
  let s := s.replayBegun.onStr fun x => { x with replaySource := (src.code, src.bay) }
  match src.lost with
  | some l => s.onAttic fun a => { a with lost := l }
  | none => s

/-- A replay goes on with the journal, once the intents of its source but those left are closed (R340, R341, R486). -/
def State.replayOn (m : Nat) (src : Source) (left : List (Nat × BitVec 256)) : State :=
  let s := s.onAttic fun a =>
    { a with intents := left, journalId := m, journalGen := if src.code = 4 then src.gen + 1 else src.gen }
  let s := match src.clocks with
    | some cs => s.resumeClocks cs
    | none => s
  let s := s.onStr fun x => { x with replayLeft := left.map (·.1) }
  if src.code = 4 then s.patrolAll (List.range 8) else s

/-- A replay from a source leaves of its intents some, none after a clean shutdown. -/
theorem State.replayFrom_some {m : Nat} {src : Source}
    (h : bestSource ((s.atticSource m).toList ++ s.memberSources m s.side) = some src) (bad w : List (Nat × Nat)) :
    ∃ left t, s.replayFrom m bad w = State.replayOn t m src left ∧ (∀ x ∈ left, x ∈ src.intents) ∧
      t.replayMark = (s.replayTaken src).replayMark ∧ (src.code = 5 → left = [] ∧ t = s.replayTaken src) := by
  have some' : bestSource ((s.replayBegun.atticSource m).toList ++ s.replayBegun.memberSources m s.replayBegun.side) = some src := h
  unfold State.replayBegun at some'
  by_cases clean : src.code = 5
  · refine ⟨[], s.replayTaken src, ?_, fun x hx => absurd hx List.not_mem_nil, rfl, fun _ => ⟨rfl, rfl⟩⟩
    unfold State.replayFrom
    dsimp only
    rw [some']
    dsimp only
    rw [if_pos clean]
    rfl
  · obtain ⟨hl, hm⟩ := (s.replayTaken src).closeIntents_spec src.intents
      (fun t i => t.restartBuffer m t.side src.code i) bad w
    refine ⟨_, _, ?_, hl, hm, fun h => absurd h clean⟩
    unfold State.replayFrom
    dsimp only
    rw [some']
    dsimp only
    rw [if_neg clean]
    rfl

end

end Sys2Proof.Machine
end

section
/-!
SUPPORT. The rows REPLAY and REPLAY_DONE (08_stripe_writes_and_attic.md R357 to R364).
-/

namespace Sys2Proof.Machine

-- Proofs in sequence: the stack of every thread that waits counts against the memory limit of the check.
set_option Elab.async false

theorem Frame.eq_replayed {s t : State} (h : Frame [.str, .regs, .rbd, .attic] s t) :
    t = { s with str := t.str, regs := t.regs, rbd := t.rbd, attic := t.attic } := by
  refine State.eq_of_agree fun b => ?_
  have same := h b
  cases b
  case str | regs | rbd | attic => rfl
  all_goals exact same (by decide)

theorem Frame.eq_checkpointed {s t : State} (h : Frame [.str, .attic, .drives, .regs] s t) :
    t = { s with str := t.str, attic := t.attic, drives := t.drives, regs := t.regs } := by
  refine State.eq_of_agree fun b => ?_
  have same := h b
  cases b
  case str | attic | drives | regs => rfl
  all_goals exact same (by decide)

theorem State.grpOn_of_replayMark {s t : State} (h : t.replayMark = s.replayMark) (g : Nat) : t.grpOn g = s.grpOn g := by
  have flags := congrArg (fun x => x.2.2.2.2 g) h
  exact congrArg (Nat.testBit · 0) flags

section
variable {s : State} {m : Nat} {f : List (Nat × Nat × CopyFault)} {media : MediaErrors}

/-- REPLAY, when no replay has run, replays from the first source of the copies that stand. -/
theorem State.exec_replay (awake : s.awake = true) (idle : s.str.replayBusy = false) (fresh : s.str.replayed = false) :
    exec (.replay m f media) s = .next { (s.copyFaults f).replayFrom m media.reads media.writes with pending := s.pending } := by
  change (s.row fun s => s.ifAwake fun s => s.replay m f media.reads media.writes) = _
  rw [State.awake_row awake, State.replay, if_neg (by simp [idle]), if_neg (by simp [fresh])]

/-! ### No source (R358) -/

theorem State.journalDropped_frame (s : State) (m : Nat) : Frame [.str, .regs, .rbd, .attic] s (s.journalDropped m) :=
  Frame.append (s.onStr_frame _) (Frame.append (State.onAttic_frame _ _) (Frame.append (State.onStr_frame _ _) (State.flag_frame _ _)))
    |>.mono (by decide)

/-- REPLAY without a source: the Attic's journal is dropped, and every enabled group is patrolled. -/
theorem State.replay_noSource (awake : s.awake = true) (idle : s.str.replayBusy = false) (fresh : s.str.replayed = false)
    {u : State} (hu : u = s.copyFaults f) (h : bestSource ((u.atticSource m).toList ++ u.memberSources m u.side) = none) :
    ∃ t, exec (.replay m f media) s = .next t ∧
      t.str = { s.str with
        replayed := true, replayBusy := true, replaySource := (0, 0), replayLeft := [], prior := some s.attic.ownJournal } ∧
      t.is F.STR_STATUS_NO_JOURNAL = true ∧
      t.attic = { s.attic with journalId := m, intents := [], lost := [], clean := false, dump := [], sealed := none } ∧
      t = { u with str := t.str, regs := t.regs, rbd := t.rbd, attic := t.attic } ∧
      ∀ g < 8, s.grpOn g = true → (t.patrol g).kind = .unpaced ∧ (t.patrol g).point = 0 := by
  subst hu
  have cut := s.copyFaults_frame f
  have begun := (s.copyFaults f).journalDropped_frame m
  have patrols := ((s.copyFaults f).journalDropped m).patrolAll_frame (List.range 8)
  have all : Frame [.str, .regs, .rbd, .attic] (s.copyFaults f) (((s.copyFaults f).journalDropped m).patrolAll (List.range 8)) :=
    begun.trans (patrols.mono (by decide))
  refine ⟨((s.copyFaults f).journalDropped m).patrolAll (List.range 8), ?_, ?_, ?_, ?_, all.eq_replayed, fun g hg on => ?_⟩
  · rw [State.exec_replay awake idle fresh, State.replayFrom_none _ h, ← cut.pending_eq, ← all.pending_eq]
  · rw [patrols.str_eq, ← cut.str_eq, ← cut.attic_eq]
    rfl
  · rw [State.is, State.fld, State.word, patrols.regs_eq]
    exact State.is_flag _ (by decide) (by decide)
  · rw [patrols.attic_eq, ← cut.attic_eq]
    rfl
  · have on' : ((s.copyFaults f).journalDropped m).grpOn g = true := by
      rw [State.grpOn, State.grp, begun.vol_eq, cut.vol_eq]
      exact on
    obtain ⟨kind, point, -⟩ := State.started_patrolAll _ (List.mem_range.mpr hg) on'
    exact ⟨kind, point⟩

/-! ### A source (R357, R359, R364) -/

/-- REPLAY after a clean shutdown takes no intent up. -/
theorem State.replay_clean (awake : s.awake = true) (idle : s.str.replayBusy = false) (fresh : s.str.replayed = false)
    {u : State} (hu : u = s.copyFaults f) {src : Source}
    (h : bestSource ((u.atticSource m).toList ++ u.memberSources m u.side) = some src) (code : src.code = 5) (lost : src.lost = none)
    (clocks : src.clocks = none) :
    exec (.replay m f media) s = .next { u with
      str := { s.str with
        replayed := true, replayBusy := true, replaySource := (5, src.bay), replayLeft := [], prior := some s.attic.ownJournal }
      attic := { s.attic with intents := [], journalId := m, journalGen := src.gen } } := by
  subst hu
  have cut := s.copyFaults_frame f
  obtain ⟨left, t, replayed, -, -, clean⟩ := (s.copyFaults f).replayFrom_some h media.reads media.writes
  obtain ⟨rfl, rfl⟩ := clean code
  rw [State.exec_replay awake idle fresh, replayed, ← cut.pending_eq, ← cut.str_eq, ← cut.attic_eq]
  have other : (5 : Nat) ≠ 4 := by decide
  simp only [State.replayOn, State.replayTaken, State.replayBegun, code, lost, clocks, if_neg other, State.onStr, State.onAttic,
    List.map_nil]

section
variable {src : Source}

/-- What a replay goes by once it has its source. -/
theorem State.replayMark_replayTaken (s : State) (src : Source) : (s.replayTaken src).replayMark =
    (true, true, (src.code, src.bay), some s.attic.ownJournal, fun g => getPart (s.grp g) Grp.flags) := by
  unfold State.replayTaken
  dsimp only
  split <;> rfl

@[simp] theorem State.replayMark_patrolAll (s : State) (l : List Nat) : (s.patrolAll l).replayMark = s.replayMark :=
  State.replayMark_of_frame (s.patrolAll_frame l)

theorem State.replayMark_replayOn (s : State) (m : Nat) (src : Source) (left : List (Nat × BitVec 256)) :
    (s.replayOn m src left).replayMark = s.replayMark := by
  simp only [State.replayOn, State.replayMark_ite, State.replayMark_patrolAll, ite_self]
  rw [State.replayMark_onStr _ rfl rfl rfl rfl]
  split <;> simp

/-- The journal a replay goes on with: its id and generation, and the intents left. -/
theorem State.replayOn_journal (s : State) (m : Nat) (src : Source) (left : List (Nat × BitVec 256)) :
    (s.replayOn m src left).attic.journalId = m ∧
      (s.replayOn m src left).attic.journalGen = (if src.code = 4 then src.gen + 1 else src.gen) ∧
      (s.replayOn m src left).attic.intents = left ∧ (s.replayOn m src left).str.replayLeft = left.map (·.1) := by
  have last (t : State) : (if src.code = 4 then t.patrolAll (List.range 8) else t).attic = t.attic ∧
      (if src.code = 4 then t.patrolAll (List.range 8) else t).str = t.str := by
    have patrols := t.patrolAll_frame (List.range 8)
    by_cases code : src.code = 4
    · rw [if_pos code]
      exact ⟨patrols.attic_eq, patrols.str_eq⟩
    · rw [if_neg code]
      exact ⟨rfl, rfl⟩
  simp only [State.replayOn, last]
  split <;> simp [State.onStr, State.onAttic]

/-- From a member copy every enabled group is patrolled afresh (R364). -/
theorem State.replayOn_patrols (s : State) (m : Nat) (left : List (Nat × BitVec 256)) (code : src.code = 4) {g : Nat} (hg : g < 8)
    (on : s.grpOn g = true) : ((s.replayOn m src left).patrol g).Started := by
  simp only [State.replayOn, if_pos code]
  refine State.started_patrolAll _ (List.mem_range.mpr hg) ((State.grpOn_of_replayMark ?_ g).trans on)
  rw [State.replayMark_onStr _ rfl rfl rfl rfl]
  split <;> simp

/-- REPLAY from any source goes on with the journal. -/
theorem State.replay_source (awake : s.awake = true) (idle : s.str.replayBusy = false) (fresh : s.str.replayed = false)
    {u : State} (hu : u = s.copyFaults f) (h : bestSource ((u.atticSource m).toList ++ u.memberSources m u.side) = some src) :
    ∃ t, exec (.replay m f media) s = .next t ∧ t.str.replayed = true ∧ t.str.replayBusy = true ∧
      t.str.replaySource = (src.code, src.bay) ∧ t.attic.journalId = m ∧ t.str.prior = some s.attic.ownJournal ∧
      t.attic.journalGen = (if src.code = 4 then src.gen + 1 else src.gen) ∧
      t.attic.intents.map (·.1) = t.str.replayLeft ∧ (∀ k ∈ t.str.replayLeft, ∃ i, (k, i) ∈ src.intents) ∧
      (src.code = 4 → ∀ g < 8, s.grpOn g = true → (t.patrol g).kind = .unpaced ∧ (t.patrol g).postReplay = true) := by
  subst hu
  have cut := s.copyFaults_frame f
  obtain ⟨left, v, replayed, mem, taken, -⟩ := (s.copyFaults f).replayFrom_some h media.reads media.writes
  have mark := ((v.replayMark_replayOn m src left).trans taken).trans ((s.copyFaults f).replayMark_replayTaken src)
  simp only [State.replayMark, Prod.mk.injEq] at mark
  obtain ⟨done, busy, source, prior, -⟩ := mark
  obtain ⟨id, gen, intents, names⟩ := v.replayOn_journal m src left
  refine ⟨{ v.replayOn m src left with pending := s.pending }, ?_, done, busy, source, id, ?_, gen, ?_, fun k hk => ?_,
    fun code g hg on => ?_⟩
  · rw [State.exec_replay awake idle fresh, replayed]
  · rw [← cut.attic_eq]
    exact prior
  · exact (congrArg (List.map (·.1)) intents).trans names.symm
  · obtain ⟨⟨n, i⟩, hi, rfl⟩ := List.mem_map.mp (names ▸ hk)
    exact ⟨i, mem _ hi⟩
  · have same : v.grpOn g = s.grpOn g := by
      have flags := congrArg (fun x => x.2.2.2.2 g) (taken.trans ((s.copyFaults f).replayMark_replayTaken src))
      have kept : (s.copyFaults f).grp g = s.grp g := by rw [State.grp, cut.vol_eq, State.grp]
      dsimp only at flags
      rw [kept] at flags
      exact congrArg (Nat.testBit · 0) flags
    obtain ⟨kind, -, post⟩ := v.replayOn_patrols m left code hg (same.trans on)
    exact ⟨kind, post⟩

end

/-! ### The end of a replay (R361) -/

/-- A replay has ended: the journal it found and the dump are done with. -/
def State.replayOver (s : State) : State :=
  (s.onStr fun x => { x with replayBusy := false, prior := none }).onAttic fun a => { a with dump := [], sealed := none }

/-- REPLAY_DONE, with every intent closed and every clock resumed, begins a checkpoint. -/
theorem State.replay_done (awake : s.awake = true) (busy : s.str.replayBusy = true) (left : s.str.replayLeft = [])
    (marks : s.attic.clockMarks = []) (free : s.isFenced = false) (none' : s.str.ckpt = none) :
    ∃ t r, exec .replayDone s = .next t ∧ t.str.replayBusy = false ∧ t.str.prior = none ∧
      t.attic = { s.attic with dump := [], sealed := none } ∧ t.str.ckpt = some r ∧ r.content.gen = s.attic.journalGen ∧
      t.is F.STR_STATUS_REPLAY_DONE = true ∧ t = { s with str := t.str, attic := t.attic, drives := t.drives, regs := t.regs } := by
  have start : s.replayOver.ckptStart false = s.replayOver.ckptBegin false := by
    have fenced : s.replayOver.isFenced = false := free
    have idle : s.replayOver.str.ckpt = none := none'
    simp [State.ckptStart, fenced, idle]
  have begins : s.replayDone = (s.replayOver.ckptBegin false).flag F.STR_STATUS_REPLAY_DONE := by
    rw [State.replayDone, if_pos ⟨busy, left⟩, marks]
    exact congrArg (State.flag · F.STR_STATUS_REPLAY_DONE) start
  have ends : Frame [.str, .attic] s s.replayOver := Frame.append (s.onStr_frame _) (State.onAttic_frame _ _)
  have ckpt : Frame [.str, .drives, .regs] s.replayOver (s.replayOver.ckptBegin false) := start ▸ s.replayOver.ckptStart_frame false
  have done := (s.replayOver.ckptBegin false).flag_frame F.STR_STATUS_REPLAY_DONE
  have all : Frame [.str, .attic, .drives, .regs] s ((s.replayOver.ckptBegin false).flag F.STR_STATUS_REPLAY_DONE) :=
    (ends.mono (by decide)).trans ((ckpt.mono (by decide)).trans (done.mono (by decide)))
  have mark := s.replayOver.replayMark_ckptBegin false
  simp only [State.replayMark, Prod.mk.injEq] at mark
  obtain ⟨-, idle, -, prior, -⟩ := mark
  refine ⟨_, _, State.awake_next awake begins all.pending_eq, idle, prior, ?_, rfl, rfl, State.is_flag _ (by decide) (by decide),
    all.eq_checkpointed⟩
  rw [done.attic_eq, ckpt.attic_eq]
  rfl

end

end Sys2Proof.Machine
end

section
/-!
SUPPORT. The rows STRIPE_WRITE_ADMIT and BUFFER_COMPLETE (08_stripe_writes_and_attic.md R314 to R332).
-/

namespace Sys2Proof.Machine

-- Proofs in sequence: the stack of every thread that waits counts against the memory limit of the check.
set_option Elab.async false

section
variable {s : State} {n i first size : Nat} {bad : List (Nat × Nat)} {w : StripeWrite}

/-! ### The buffer (R332) -/

/-- A buffer no larger than the slots taken for it keeps their place. -/
theorem State.bufferPlace_fits (s : State) (i first : Nat) {size len : Nat} (h : len ≤ size) :
    s.bufferPlace i first size len = some first := by
  rw [State.bufferPlace, if_pos h]

/-- A buffer that has been built goes to its place, if it has one and no cell of it is acknowledged FAILED. -/
def State.bufferPut (s t : State) (w : StripeWrite) (i len : Nat) (b : Built) : Option Nat → State
  | none => s
  | some a => if t.rangeFailed (t.slotAddr a) (4352 * len) then t.failWrite w St.cellarDataError else t.makeReady w i a b

section
variable (awake : s.awake = true) (live : s.live? n = some w) (hi : w.intent = some i)
  (taken : Tab.find? i s.str.buffers = some (first, size)) (can : s.canBuild w = true)
include awake live hi taken can

/-- BUFFER_COMPLETE where the buffer cannot be built fails the write. -/
theorem State.exec_bufferComplete_error {st : Nat} (h : s.build w (getPart (s.intent i) Intent.newGen) bad = .error st) :
    exec (.bufferComplete n bad) s = .next { s.failWrite w st with pending := s.pending } := by
  change (s.row fun s => s.ifAwake fun s => s.bufferComplete n bad) = _
  rw [State.awake_row awake]
  simp [State.bufferComplete, live, hi, taken, can, h]

/-- BUFFER_COMPLETE of a buffer that has been built puts it into its place, if it has one. -/
theorem State.exec_bufferComplete_ok {b0 b : Built} {t : State} {len : Nat}
    (h : s.build w (getPart (s.intent i) Intent.newGen) bad = .ok b0) (fit : (s.builtReads b0 bad).fitLosses w b0 = (b, t))
    (hlen : len = b.data.length + b.p.length + b.q.length + b.markers.length) :
    exec (.bufferComplete n bad) s = .next { s.bufferPut t w i len b (t.bufferPlace i first size len) with pending := s.pending } := by
  have put : s.bufferComplete n bad = s.bufferPut t w i len b (t.bufferPlace i first size len) := by
    rw [hlen]
    simp only [State.bufferComplete, live, hi, Option.bind_some, taken, Option.map_some, can, if_true, h, fit]
    rfl
  change (s.row fun s => s.ifAwake fun s => s.bufferComplete n bad) = _
  rw [State.awake_row awake, put]

end

/-! ### Admission (R318, R323, R327, R330) -/

/-- The generation a stripe write takes, and the state that has taken it: INIT writes generation 1 (R323). -/
def State.admitGen (s : State) (w : StripeWrite) : Nat × State := if w.mode = 3 then (1, s) else s.nextGen w.group

theorem State.setClock_str (s : State) (g v : Nat) : (s.setClock g v).str = { s.str with clocks := Tab.set g v s.str.clocks } := by
  have told (t : State) (k m : Nat) : (t.tellClock k m).str = t.str := State.when_same _ _ _ State.str rfl
  have kept (t : State) (b : Bool) (f : State → State) (h : (f t).str = t.str) : (t.when b f).str = t.str :=
    State.when_same _ _ _ State.str h
  unfold State.setClock
  dsimp only
  rw [kept _ _ _ (State.tallyFlag_frame _ _ _ _ _).str_eq]
  exact kept _ _ _ (told _ _ _)

theorem State.clock_setClock (s : State) (g v : Nat) : (s.setClock g (v + 1)).clock g = v + 1 := by
  have held : (s.setClock g (v + 1)).clockHeld g = v + 1 := by
    rw [State.clockHeld, State.setClock_str]
    exact Tab.getD_set_self ..
  rw [State.clock, held, if_neg (Nat.succ_ne_zero v)]

theorem State.admitGen_intents (s : State) (w : StripeWrite) : (s.admitGen w).2.attic.intents = s.attic.intents := by
  unfold State.admitGen
  split
  · rfl
  · obtain ⟨marks, h⟩ := s.setClock_attic w.group (s.clock w.group + 1)
    exact (congrArg Attic.intents h).trans rfl

/-- Of the journal controller a generation's taking changes the clocks alone. -/
theorem State.admitGen_str (s : State) (w : StripeWrite) : ∃ c, (s.admitGen w).2.str = { s.str with clocks := c } := by
  unfold State.admitGen
  split
  · exact ⟨_, rfl⟩
  · exact ⟨_, s.setClock_str _ _⟩

/-- The record of an admitted stripe write (Table 08-2). -/
def State.admitRecord (s : State) (w : StripeWrite) (gen first : Nat) : BitVec 256 :=
  let rec0 : BitVec 256 := putPart (putPart (putPart (putPart 0 Intent.mode w.mode) Intent.flags (ofBool w.fua)) Intent.group
    w.group) Intent.state Ins.filling
  let rec1 := putPart (putPart (putPart rec0 Intent.stripe w.stripe) Intent.newGen gen) Intent.dataFirst w.first
  putPart (putPart (putPart rec1 Intent.dataCount w.count) Intent.memberMask (s.maskOf w)) Intent.dirtyIndex first

theorem State.admitRecord_state (s : State) (w : StripeWrite) (gen first : Nat) :
    getPart (s.admitRecord w gen first) Intent.state = Ins.filling := by
  unfold State.admitRecord
  dsimp only
  iterate 6 rw [getPart_putPart_disjoint (by decide)]
  rw [getPart_putPart_self (by decide)]
  rfl

/-- An admitted write as it stands in the list of live ones. -/
def State.admitted (s : State) (w : StripeWrite) (i : Nat) : StripeWrite :=
  { w with intent := some i, engine := (s.admitGen w).2.pickEngine 1 }

/-- A stripe write is recorded, holds its buffer and is live (R318, R323, R327). -/
def State.admitLive (s : State) (w : StripeWrite) (i first n : Nat) : State :=
  let u := (s.admitGen w).2
  ((u.setIntent i (u.admitRecord (s.admitted w i) (s.admitGen w).1 first)).onAttic fun a => { a with clean := false }).onStr fun x =>
    { x with
      waiting := x.waiting.filter fun y => y.name != w.name
      live := x.live ++ [s.admitted w i]
      buffers := Tab.set i (first, n) x.buffers }

/-- Beside, an admission tells the write's command. -/
theorem State.admitWrite_eq (s : State) (w : StripeWrite) (i first n : Nat) :
    ∃ q, s.admitWrite w i first n = { s.admitLive w i first n with cq := q } := by
  unfold State.admitWrite
  dsimp only
  split
  · exact ⟨_, rfl⟩
  · exact ⟨_, rfl⟩

theorem State.admitNext_admits {a : Nat} (admits : s.admits = true) (init : s.vol.init = none)
    (next : s.str.waiting.find? s.stripeFree = some w) (group : s.groupState w.group ≠ 4)
    (gen : w.mode = 3 ∨ s.genOut w.group = false) (free : s.freeIntent = some i) (room : s.slotsHeld + s.bufferSize w ≤ 114688)
    (slots : s.findSlots (s.bufferSize w) = some a) : s.admitNext = s.admitWrite w i a (s.bufferSize w) := by
  have feed : s.initFeed = s := by simp [State.initFeed, init]
  have out : ¬(w.mode ≠ 3 ∧ s.genOut w.group = true) := by
    rintro ⟨mode, out⟩
    exact Bool.false_ne_true ((gen.resolve_left mode).symm.trans out)
  simp only [State.admitNext, admits, if_true, feed, next, if_neg group, if_neg out, free, if_neg (Nat.not_lt.mpr room), slots]

theorem State.admitGen_clock (s : State) (w : StripeWrite) :
    (s.admitGen w).2.clock w.group = if w.mode = 3 then s.clock w.group else s.clock w.group + 1 := by
  unfold State.admitGen
  split
  · rfl
  · exact s.clock_setClock w.group (s.clock w.group)

/-- What an admission leaves in the Attic and the journal controller. -/
theorem State.admitLive_spec (s : State) (w : StripeWrite) (i a n : Nat) :
    let t := s.admitLive w i a n
    t.str.live = s.str.live ++ [s.admitted w i] ∧ t.str.waiting = s.str.waiting.filter (fun y => y.name != w.name) ∧
      Tab.find? i t.str.buffers = some (a, n) ∧ t.intentState i = Ins.filling ∧ t.attic.clean = false ∧
      t.clock w.group = (if w.mode = 3 then s.clock w.group else s.clock w.group + 1) ∧ ∀ k, k ≠ i → t.intent k = s.intent k := by
  have state := (s.admitGen w).2.admitRecord_state (s.admitted w i) (s.admitGen w).1 a
  have filed : (s.admitLive w i a n).attic.intents =
      Tab.set i ((s.admitGen w).2.admitRecord (s.admitted w i) (s.admitGen w).1 a) s.attic.intents := by
    have live : getPart ((s.admitGen w).2.admitRecord (s.admitted w i) (s.admitGen w).1 a) Intent.state ≠ 0 := by
      rw [state]
      decide
    rw [← s.admitGen_intents w]
    exact if_neg live
  obtain ⟨c, str⟩ := s.admitGen_str w
  intro t
  refine ⟨?_, ?_, Tab.find?_set_self .., ?_, rfl, s.admitGen_clock w, fun k hk => ?_⟩
  · exact congrArg (fun x : Str => x.live ++ [s.admitted w i]) str |>.trans rfl
  · exact congrArg (fun x : Str => x.waiting.filter fun y => y.name != w.name) str |>.trans rfl
  · rw [State.intentState, State.intent, filed, Tab.getD_set_self, state]
  · rw [State.intent, filed, Tab.getD_set_ne (Ne.symm hk), State.intent]

/-- STRIPE_WRITE_ADMIT admits the first stripe write that may be looked at. -/
theorem State.exec_stripeWriteAdmit {a : Nat} (awake : s.awake = true) (admits : s.admits = true) (init : s.vol.init = none)
    (next : s.str.waiting.find? s.stripeFree = some w) (group : s.groupState w.group ≠ 4)
    (gen : w.mode = 3 ∨ s.genOut w.group = false) (free : s.freeIntent = some i) (room : s.slotsHeld + s.bufferSize w ≤ 114688)
    (slots : s.findSlots (s.bufferSize w) = some a) :
    ∃ t v, exec .stripeWriteAdmit s = .next t ∧ t.str.live = s.str.live ++ [v] ∧ v.name = w.name ∧ v.intent = some i ∧
      t.str.waiting = s.str.waiting.filter (fun y => y.name != w.name) ∧
      Tab.find? i t.str.buffers = some (a, s.bufferSize w) ∧ t.intentState i = Ins.filling ∧ t.attic.clean = false ∧
      (w.mode ≠ 3 → t.clock w.group = s.clock w.group + 1) ∧ (w.mode = 3 → t.clock w.group = s.clock w.group) ∧
      ∀ k, k ≠ i → t.intent k = s.intent k := by
  obtain ⟨live, waiting, buffer, filling, clean, clock, others⟩ := s.admitLive_spec w i a (s.bufferSize w)
  obtain ⟨q, told⟩ := s.admitWrite_eq w i a (s.bufferSize w)
  refine ⟨{ s.admitLive w i a (s.bufferSize w) with cq := q, pending := s.pending }, s.admitted w i, ?_, live, rfl, rfl, waiting, buffer,
    filling, clean, fun mode => clock.trans (if_neg mode), fun mode => clock.trans (if_pos mode), others⟩
  change (s.row fun s => s.ifAwake State.admitNext) = _
  rw [State.awake_row awake, State.admitNext_admits admits init next group gen free room slots, told]

end

/-! ### The obligation -/

/-- Settles O27: the admission of the first stripe write that may be looked at, the filling of a buffer, a replay by the source it
finds, and its end. What a replay goes by stands through the closing of its intents, whatever a write that fails brings about. -/
theorem stripeWriteLife : Obligations.StripeWriteLife := by
  unfold Obligations.StripeWriteLife
  refine ⟨⟨?admission, ?buffer⟩, ?replay, ?done⟩
  case admission =>
    intro w i a s awake admits init next group gen free room slots
    exact State.exec_stripeWriteAdmit awake admits init next group gen free room slots
  case buffer =>
    intro n i first size bad w s awake live hi taken can
    refine ⟨fun b0 b t len h fit hlen => ?_, fun st h => State.exec_bufferComplete_error awake live hi taken can h⟩
    have put := State.exec_bufferComplete_ok awake live hi taken can h fit hlen
    refine ⟨fun a place => ⟨fun ok => ?_, fun failed => ?_⟩, fun none' => ?_, fun le => ⟨first, t.bufferPlace_fits i first le⟩⟩
    · rw [put, place, State.bufferPut, if_neg (by simp [ok])]
    · rw [put, place, State.bufferPut, if_pos failed]
    · rw [put, none', State.bufferPut]
  case replay =>
    intro m f media s u awake idle fresh hu
    exact ⟨fun h => State.replay_noSource awake idle fresh hu h,
      fun src h code lost clocks => State.replay_clean awake idle fresh hu h code lost clocks,
      fun src h => State.replay_source awake idle fresh hu h⟩
  case done =>
    intro s awake busy left marks free none'
    exact State.replay_done awake busy left marks free none'

end Sys2Proof.Machine
end

section
/-!
SUPPORT. Laws of a group's entry (07_volumes_and_blocks.md Table 07-8): the state of each member after one of them is set, and what a
commit of the entry leaves.
-/

namespace Sys2Proof.Machine

-- Proofs in sequence: the stack of every thread that waits counts against the memory limit of the check.
set_option Elab.async false

/-! ### The digits of a number in base 4 -/

/-- A number with its digit m set is the number around that digit. -/
theorem digitSet_eq (x m v : Nat) : x - x / 4 ^ m % 4 * 4 ^ m + v * 4 ^ m = 4 ^ m * (4 * (x / 4 ^ m / 4) + v) + x % 4 ^ m := by
  have around : x = 4 ^ m * (4 * (x / 4 ^ m / 4)) + x / 4 ^ m % 4 * 4 ^ m + x % 4 ^ m := by
    calc x = 4 ^ m * (x / 4 ^ m) + x % 4 ^ m := (Nat.div_add_mod x (4 ^ m)).symm
      _ = 4 ^ m * (4 * (x / 4 ^ m / 4) + x / 4 ^ m % 4) + x % 4 ^ m := by rw [Nat.div_add_mod (x / 4 ^ m) 4]
      _ = _ := by rw [Nat.mul_add, Nat.mul_comm (4 ^ m) (x / 4 ^ m % 4)]
  rw [Nat.mul_add, Nat.mul_comm (4 ^ m) v]
  omega

/-- A digit below m is one of the part below 4 ^ m. -/
theorem digit_below {k m : Nat} (h : k < m) (q r : Nat) : (4 ^ m * q + r) / 4 ^ k % 4 = r / 4 ^ k % 4 := by
  obtain ⟨d, rfl⟩ := Nat.exists_eq_add_of_lt h
  have split : 4 ^ (k + d + 1) * q + r = 4 ^ k * (4 * (4 ^ d * q)) + r := by ring
  rw [split, Nat.mul_add_div (by positivity), Nat.mul_add_mod]

/-- A digit above m is one of the part above digit m. -/
theorem digit_above {k m v r : Nat} (h : m < k) (hv : v < 4) (hr : r < 4 ^ m) (q : Nat) :
    (4 ^ m * (4 * q + v) + r) / 4 ^ k = q / 4 ^ (k - m - 1) := by
  obtain ⟨d, rfl⟩ := Nat.exists_eq_add_of_lt h
  have power : 4 ^ (m + d + 1) = 4 ^ m * (4 * 4 ^ d) := by ring
  rw [power, ← Nat.div_div_eq_div_mul, Nat.mul_add_div (by positivity), Nat.div_eq_of_lt hr, Nat.add_zero, ← Nat.div_div_eq_div_mul,
    Nat.mul_add_div (by decide), Nat.div_eq_of_lt hv, Nat.add_zero]
  congr 2
  omega

/-- The digits below n are those of the number cut to n digits. -/
theorem digit_mod {k n : Nat} (h : k < n) (x : Nat) : x % 4 ^ n / 4 ^ k % 4 = x / 4 ^ k % 4 := by
  obtain ⟨d, rfl⟩ := Nat.exists_eq_add_of_lt h
  rw [show 4 ^ (k + d + 1) = 4 ^ k * (4 ^ d * 4) by ring, Nat.mod_mul_right_div_self, Nat.mod_mul_left_mod]

theorem digitSet_self (x m : Nat) {v : Nat} (hv : v < 4) : (x - x / 4 ^ m % 4 * 4 ^ m + v * 4 ^ m) / 4 ^ m % 4 = v := by
  rw [digitSet_eq, Nat.mul_add_div (by positivity), Nat.div_eq_of_lt (Nat.mod_lt _ (by positivity)), Nat.add_zero,
    Nat.mul_add_mod, Nat.mod_eq_of_lt hv]

theorem digitSet_ne (x : Nat) {k m v : Nat} (h : k ≠ m) (hv : v < 4) :
    (x - x / 4 ^ m % 4 * 4 ^ m + v * 4 ^ m) / 4 ^ k % 4 = x / 4 ^ k % 4 := by
  rw [digitSet_eq]
  rcases Nat.lt_or_gt_of_ne h with h | h
  · rw [digit_below h, digit_mod h]
  · have above := digit_above (v := x / 4 ^ m % 4) h (Nat.mod_lt _ (by decide)) (Nat.mod_lt x (by positivity)) (x / 4 ^ m / 4)
    rw [Nat.div_add_mod, Nat.div_add_mod] at above
    rw [digit_above h hv (Nat.mod_lt _ (by positivity)), above]

/-! ### The states of the members (Table 07-8) -/

section
variable {k m v : Nat}

theorem memberState_setMemberState (e : BitVec 512) (m v : Nat) :
    getPart (setMemberState e m v) Grp.memberState =
      (getPart e Grp.memberState - memberOf e m * 4 ^ m + v * 4 ^ m) % 4 ^ 24 := getPart_putPart_self (by decide) _ _

theorem memberOf_setMemberState_self (hm : m < 24) (hv : v < 4) (e : BitVec 512) : memberOf (setMemberState e m v) m = v := by
  rw [memberOf, memberState_setMemberState, digit_mod hm]
  exact digitSet_self _ _ hv

theorem memberOf_setMemberState_ne (hk : k < 24) (h : k ≠ m) (hv : v < 4) (e : BitVec 512) :
    memberOf (setMemberState e m v) k = memberOf e k := by
  rw [memberOf, memberState_setMemberState, digit_mod hk]
  exact digitSet_ne _ h hv

theorem memberOf_putState (e : BitVec 512) (v m : Nat) : memberOf (putPart e Grp.state v) m = memberOf e m := by
  rw [memberOf, getPart_putPart_disjoint (by decide), memberOf]

end

/-! ### A commit of the entry (R275) -/

theorem groupStateOf_le (e : BitVec 512) : groupStateOf e ≤ 4 := by
  unfold groupStateOf
  split <;> omega

section
variable (s : State) (g : Nat) (e : BitVec 512)

/-- Only the group entries and the registers change. -/
theorem State.setGrp_eq :
    s.setGrp g e = { s with vol := { s.vol with grps := (s.setGrp g e).vol.grps }, regs := (s.setGrp g e).regs } := by
  unfold State.setGrp State.when
  dsimp only
  split <;> rfl

theorem State.grp_setGrp_self : (s.setGrp g e).grp g = putPart e Grp.state (groupStateOf e) := Tab.getD_put_self ..

theorem State.groupState_setGrp : (s.setGrp g e).groupState g = groupStateOf e := by
  rw [State.groupState, State.grp_setGrp_self, getPart_putPart_self (by decide)]
  exact Nat.mod_eq_of_lt (Nat.lt_of_le_of_lt (groupStateOf_le e) (by decide))

theorem State.member_setGrp (m : Nat) : (s.setGrp g e).member g m = memberOf e m := by
  rw [State.member, State.grp_setGrp_self, memberOf_putState]

end

end Sys2Proof.Machine
end

section
/-!
SUPPORT. Laws of the rebuild walk (09_failure_rebuild_reshape.md R367, R377 to R384, R400): the targets that it serves, how far it
takes them, what a stripe rebuilt for them leaves, and what is recorded of them.
-/

namespace Sys2Proof.Machine

-- Proofs in sequence: the stack of every thread that waits counts against the memory limit of the check.
set_option Elab.async false

/-! ### The targets (R377) -/

section
variable {s : State} {g i : Nat} {x : Target}

/-- A target record is in use where a REBUILDING member of an enabled group has it. -/
theorem State.mem_targets : (i, x) ∈ s.targets g ↔
    i < 2 ∧ Tab.find? (g * 2 + i) s.rbd.targets = some x ∧ s.grpOn g = true ∧ s.member g x.member = Mem.rebuilding := by
  simp only [State.targets, List.mem_filterMap, List.mem_range, Option.bind_eq_some_iff]
  constructor
  · rintro ⟨j, hj, y, found, used⟩
    split at used
    · next h =>
      simp only [Option.some.injEq, Prod.mk.injEq] at used
      obtain ⟨rfl, rfl⟩ := used
      exact ⟨hj, found, by simpa using h⟩
    · simp at used
  · rintro ⟨hi, found, on, state⟩
    exact ⟨i, hi, x, found, by simp [on, state]⟩

theorem State.walkPoint_one (h : s.targets g = [(i, x)]) (hd : x.done = false) : s.walkPoint g = x.point := by
  simp [State.walkPoint, h, hd]

theorem State.served_one (h : s.targets g = [(i, x)]) (hd : x.done = false) : s.served_ g = [x] := by
  simp [State.served_, State.walkPoint_one h hd, h, hd]

theorem State.walkOn_one (h : s.targets g = [(i, x)]) (p : Nat) :
    s.walkOn g p [x.member] = s.onRbd fun r =>
      { r with targets := Tab.set (g * 2 + i) (x.pass p (getPart (s.grp g) Grp.stripes)) r.targets } := by
  simp [State.walkOn, h, State.each]

/-- Before its end a walk that has not wrapped goes on to the next stripe (R378). -/
theorem Target.pass_next {p stripes : Nat} (hw : x.wrapped = false) (hp : p + 1 < stripes) :
    x.pass p stripes = { x with point := p + 1 } := by
  simp [Target.pass, Nat.ne_of_lt hp, hw]

/-- A rebuild does not end while a target has stripes to pass (R382). -/
theorem State.rebuildEnd_running (h : (i, x) ∈ s.targets g) (hd : x.done = false) : s.rebuildEnd g = s := by
  have left : ((s.targets g).map (·.2)).all (·.done) = false := by
    rw [List.all_eq_false]
    exact ⟨x, List.mem_map.2 ⟨_, h, rfl⟩, by simp [hd]⟩
  simp [State.rebuildEnd, left]

/-! ### The walk takes a stripe (R379 to R383, R400) -/

variable {bad wbad : List (Nat × Nat)}

/-- A stripe that no extent holds, or a disputed one, is passed with nothing written (R400). -/
theorem State.rebuildStripe_passes (ready : s.walkReady g = true) (drain : s.draining = false)
    (h : s.extentOf g (s.walkPoint g) = none ∨ s.disputed g (s.walkPoint g) = true) :
    s.rebuildStripe g bad wbad = (s.walkOn g (s.walkPoint g) ((s.served_ g).map (·.member))).rebuildEnd g := by
  unfold State.rebuildStripe
  rw [if_pos (by simp [ready, drain])]
  dsimp only
  cases hx : s.extentOf g (s.walkPoint g) with
  | none => rfl
  | some e => exact if_pos (h.resolve_left (by simp [hx]))

/-- A walk of one target that has stripes left moves it on by one, and goes on. -/
theorem State.walk_one (h : s.targets g = [(i, x)]) (hd : x.done = false) (hw : x.wrapped = false)
    (hp : x.point + 1 < getPart (s.grp g) Grp.stripes) :
    (s.walkOn g x.point [x.member]).rebuildEnd g =
      s.onRbd fun r => { r with targets := Tab.set (g * 2 + i) { x with point := x.point + 1 } r.targets } := by
  have mine : (i, x) ∈ s.targets g := by simp [h]
  obtain ⟨hi, -, on, state⟩ := State.mem_targets.1 mine
  rw [State.walkOn_one h, Target.pass_next hw hp]
  exact State.rebuildEnd_running (i := i) (x := { x with point := x.point + 1 })
    (State.mem_targets.2 ⟨hi, Tab.find?_set_self .., on, state⟩) hd

/-- The rate record of a stripe's bytes written to the targets of members ms now (R383). -/
def State.wroteTargets (s : State) (g bytes : Nat) (ms : List Nat) : State :=
  s.onRbd fun r => { r with
    written := (r.written.filter fun x => decide (s.now < x.2.1 + 2000000000)) ++ ms.map fun m => (g * 32 + m, s.now, bytes) }

theorem State.mem_written_wroteTargets {m : Nat} {ms : List Nat} (h : m ∈ ms) (s : State) (g bytes : Nat) :
    (g * 32 + m, s.now, bytes) ∈ (s.wroteTargets g bytes ms).rbd.written :=
  List.mem_append_right _ (List.mem_map.2 ⟨m, h, rfl⟩)

/-- A stripe of an extent is rebuilt for the targets that the walk serves. -/
theorem State.rebuildStripe_serves {e : Nat × BitVec 256 × Nat} (ready : s.walkReady g = true) (drain : s.draining = false)
    (he : s.extentOf g (s.walkPoint g) = some e) (hd : s.disputed g (s.walkPoint g) = false) :
    s.rebuildStripe g bad wbad =
      ((((((s.rebuildRows g (s.walkPoint g) e.2.1 e.2.2 ((s.served_ g).map (·.member)) bad wbad).1.wroteTargets g
        (stripBlocks (s.grp g) * 4096) ((s.served_ g).map (·.member))).bump A.RBD_REBUILT_STRIPES).walkOn g (s.walkPoint g)
        ((s.served_ g).map (·.member))).putFails g
        (s.rebuildRows g (s.walkPoint g) e.2.1 e.2.2 ((s.served_ g).map (·.member)) bad wbad).2).rebuildEnd g) := by
  unfold State.rebuildStripe
  rw [if_pos (by simp [ready, drain])]
  simp only [he, hd, Bool.false_eq_true, if_false]
  rfl

end

/-! ### The repair of a row takes no time of the model -/

section
variable (s : State)

theorem State.now_each {α : Type} {f : State → α → State} (h : ∀ s a, (f s a).now = s.now) (l : List α) :
    (s.each l f).now = s.now := State.each_same _ _ _ State.now fun s a _ => h s a

theorem State.now_noteRow (r : Row) (bad : List (Nat × Nat)) (ms : List Nat) (count : Bool) :
    (s.noteRow r bad ms count).now = s.now := by
  refine State.now_each _ (fun s m => ?_) _
  have read : (s.when count fun s => s.quickRead (bayOf r.entry m)).now = s.now := s.when_same _ _ State.now rfl
  have trailer : ∀ (s : State) (x : Expect) (b : Block), (s.countTrailer x b).now = s.now := fun s x b =>
    (State.when_same _ _ _ State.now rfl).trans (State.when_same _ _ _ State.now rfl)
  dsimp only
  split
  case h_1 => rfl
  case h_2 =>
    split
    · exact read
    · exact (trailer _ _ _).trans read
  case h_3 => exact read

theorem State.now_putAll (g stripe : Nat) (l : Puts) (wbad : List (Nat × Nat)) : (s.putAll g stripe l wbad).now = s.now := by
  refine State.now_each _ (fun s y => ?_) _
  obtain ⟨m, k, b⟩ := y
  dsimp only
  split <;> rfl

theorem State.now_peerTell (k : Nat) (l : List Byte) : (s.peerTell k l).now = s.now :=
  s.when_same _ _ State.now rfl

theorem State.now_addLost (g stripe m k : Nat) : (s.addLost g stripe m k).now = s.now := by
  unfold State.addLost
  split
  · rfl
  · split
    · exact State.now_peerTell _ _ _
    · simp [State.lostFull]

theorem State.now_setClock (g v : Nat) : (s.setClock g v).now = s.now :=
  (State.when_same _ _ _ State.now (State.tallyFlag_now ..)).trans (State.when_same _ _ _ State.now (State.now_peerTell ..))

theorem State.now_recordLoss (r : Row) (target : Nat → Bool) (wbad : List (Nat × Nat)) :
    (s.recordLoss r target wbad).now = s.now := by
  unfold State.recordLoss
  split
  · rfl
  · split
    · rfl
    · dsimp only
      split
      · simp [State.lostFull]
      · have gen : (s.nextGen r.group).2.now = s.now := s.now_setClock _ _
        rw [State.tallyFlag_now, State.flag_now, State.now_each, State.now_each, gen]
        · exact fun s y => rfl
        · exact fun s j => (State.staleWhere_frame _ _).now_eq.trans (s.now_addLost _ _ _ _)

theorem State.now_rebuildRow (g stripe k : Nat) (x : BitVec 256) (first : Nat) (ms : List Nat) (bad wbad : List (Nat × Nat)) :
    (s.rebuildRow g stripe k x first ms bad wbad).1.now = s.now := by
  unfold State.rebuildRow
  dsimp only
  split
  · exact (State.now_putAll _ _ _ _ _).trans ((State.now_recordLoss _ _ _ _).trans (s.now_noteRow _ _ _ _))
  · exact (State.now_putAll _ _ _ _ _).trans (s.now_noteRow _ _ _ _)

theorem State.now_rebuildRows (g p : Nat) (x : BitVec 256) (first : Nat) (ms : List Nat) (bad wbad : List (Nat × Nat)) :
    (s.rebuildRows g p x first ms bad wbad).1.now = s.now := by
  unfold State.rebuildRows
  generalize List.range _ = l
  generalize ([] : List Nat) = fs
  induction l generalizing s fs with
  | nil => rfl
  | cons k l ih => exact (ih _ _).trans (s.now_rebuildRow g p k x first ms bad wbad)

end

/-! ### What is recorded of the targets (R384) -/

/-- A fold whose steps but one leave what they are given is that one step. -/
theorem foldl_only {α β : Type} {f : β → α → β} {l : List α} {k : α} (hl : l.Nodup) (hk : k ∈ l)
    (h : ∀ b, ∀ j ∈ l, j ≠ k → f b j = b) (b : β) : l.foldl f b = f b k := by
  have idle : ∀ (l : List α) (b : β), (∀ b, ∀ j ∈ l, f b j = b) → l.foldl f b = b := by
    intro l
    induction l with
    | nil => exact fun _ _ => rfl
    | cons j l ih =>
      intro b h
      rw [List.foldl_cons, h b j (by simp)]
      exact ih b fun b j hj => h b j (by simp [hj])
  induction l generalizing b with
  | nil => simp at hk
  | cons j l ih =>
    obtain ⟨hj, hl⟩ := List.nodup_cons.1 hl
    rw [List.foldl_cons]
    by_cases same : j = k
    · subst same
      exact idle l _ fun b i hi => h b i (by simp [hi]) fun e => hj (e ▸ hi)
    · rw [h b j (by simp) same]
      exact ih hl ((List.mem_cons.1 hk).resolve_left (Ne.symm same)) (fun b i hi => h b i (by simp [hi])) b

/-- Where one group has one target, that target is recorded beside what is recorded of the groups not enabled. -/
theorem State.saveTargets_one {s : State} {k i : Nat} {x : Target} (hk : k < 8)
    (h : ∀ g < 8, s.targets g = if g = k then [(i, x)] else []) :
    s.saveTargets = s.onAttic fun a => { a with
      rebuild := Tab.set (k * 32 + x.member) (x.start, x.point, x.wrapped) (s.attic.rebuild.filter fun y => !s.grpOn (y.1 / 32))
      patrols := s.rbd.patrols.map fun y => (y.1, y.2.point) } := by
  unfold State.saveTargets
  dsimp only
  rw [foldl_only List.nodup_range (List.mem_range.2 hk)]
  · rw [h k hk, if_pos rfl]
    rfl
  · intro t g hg hne
    rw [h g (List.mem_range.1 hg), if_neg hne]
    rfl

theorem State.rebuildRecord_due {s : State} (h : Tab.getD Tick.rebuildRecord 0 s.served < s.now / 1000000000 * 1000000000) :
    s.rebuildRecord =
      { s with served := Tab.set Tick.rebuildRecord (s.now / 1000000000 * 1000000000) s.served }.saveTargets :=
  State.every_due h _

/-! ### A member over its error limit (R367) -/

section
variable {s : State} {g m : Nat}

theorem State.errorCheck_below (h : s.overErrors g m = false) : s.errorCheck g m = s := by simp [State.errorCheck, h]

/-- A member in service whose errors have reached the limit is set FAILED, and leaves service. -/
theorem State.errorCheck_reached (h : s.overErrors g m = true) (on : s.grpOn g = true) (serves : s.member g m ≤ 1)
    (hm : m < grpMembers (s.grp g)) :
    s.errorCheck g m = (s.setGrp g (setMemberState (s.grp g) m Mem.failed)).memberLeft g m (s.groupState g) := by
  rw [State.errorCheck, if_pos h, State.memberDown, if_pos ⟨on, serves, hm⟩]

end

end Sys2Proof.Machine
end

section
/-!
The statement about the rebuild walk (09_failure_rebuild_reshape.md R367, R377 to R384, R400).
-/

namespace Sys2Proof.Machine

-- Proofs in sequence: the stack of every thread that waits counts against the memory limit of the check.
set_option Elab.async false

/-- Settles O30: a walk of one target passes a stripe that has nothing to rebuild, a stripe of an extent is rebuilt for the targets
served, one target is recorded beside what stands, and a member fails at its error limit. That the patrol points are recorded with
the targets is the model's entry 152. -/
theorem rebuildWalk : Obligations.RebuildWalk := by
  unfold Obligations.RebuildWalk
  refine ⟨?passes, ?serves, ?records, fun g m s awake below => State.awake_next awake (State.errorCheck_below below) rfl, ?fails⟩
  case passes =>
    intro g i x bad wbad s awake ready drain one done wrapped more idle
    have point := State.walkPoint_one one done
    have row := State.rebuildStripe_passes (bad := bad) (wbad := wbad) ready drain (by rw [point]; exact idle)
    rw [point, State.served_one one done] at row
    exact State.awake_next awake (row.trans (State.walk_one one done wrapped more)) rfl
  case serves =>
    intro g e bad wbad s awake ready drain found agreed
    refine ⟨_, _, State.awake_eq awake (State.rebuildStripe_serves ready drain found agreed), rfl, rfl, fun m hm => ?_⟩
    rw [← s.now_rebuildRows g (s.walkPoint g) e.2.1 e.2.2 ((s.served_ g).map (·.member)) bad wbad]
    exact State.mem_written_wroteTargets hm _ _ _
  case records =>
    intro k i x s awake due hk one
    exact State.awake_next awake ((State.rebuildRecord_due due).trans (State.saveTargets_one hk one)) rfl
  case fails =>
    intro g m s awake reached on serves members hm
    refine ⟨_, _, State.awake_eq awake (State.errorCheck_reached reached on serves members), rfl, ?_, fun k hk hk' => ?_,
      State.groupState_setGrp .., State.setGrp_eq ..⟩
    · rw [State.member_setGrp, memberOf_setMemberState_self hm (by decide)]
    · rw [State.member_setGrp, memberOf_setMemberState_ne hk' hk (by decide), State.member]

end Sys2Proof.Machine
end

section
/-!
SUPPORT. RESHAPE_START beside the source, and the reshape records that it chooses from (09_failure_rebuild_reshape.md R402, R403,
R411).
-/

namespace Sys2Proof.Machine

-- Proofs in sequence: the stack of every thread that waits counts against the memory limit of the check.
set_option Elab.async false

section
variable {s : State}

/-- A record in the Tally takes the next SEQ (R708). -/
theorem State.seq_tallyFlag (s : State) (c : TallyClass) (f : Fld) (i : Nat) (l : List Nat) :
    (s.tallyFlag c f i l).mgt.seq = s.mgt.seq + 1 := by
  have put : ∀ r, (s.tallyPut r).mgt.seq = s.mgt.seq + 1 := fun r => by
    unfold State.tallyPut
    dsimp only
    split <;> rfl
  have frame : ∀ (s : State) (k : Nat) (r : BitVec 512), (s.tallyFrame k r).mgt.seq = s.mgt.seq := fun s k r => by
    unfold State.tallyFrame
    split
    · split <;> rfl
    · rfl
  unfold State.tallyFlag State.tallyRaw
  dsimp only
  split <;> exact (frame _ _ _).trans (put _)

/-- The copies of the reshape record on the members of two groups (R411). -/
def State.reshapeCopies (s : State) (a b : Nat) : List (Nat × List Byte) :=
  ((s.metaBays a ++ s.metaBays b).eraseDups).filterMap fun x => (Tab.find? x s.drives).bind (·.reshape)

/-- A choice by rule 3 of R402 is recorded in the Tally. -/
theorem State.recordSeq_third {a b : Nat} {c : Nat × List Byte} (h : firstCopy (s.reshapeCopies a b) = some (c, true)) :
    (s.recordSeq a b).2.mgt.seq = s.mgt.seq + 1 := by
  have chosen : (s.recordSeq a b).2 = (s.chooseCopy a (s.reshapeCopies a b)).2 := rfl
  rw [chosen, State.chooseCopy, h]
  dsimp only [State.when]
  rw [if_pos rfl, State.seq_tallyFlag, State.flag_mgt]

/-- A reshape beside begins from the reshape records of both groups (R403, R411). -/
theorem State.reshapeStart_beside {i g : Nat} (free : s.rbd.reshape = none) (hi : s.fld F.RBD_RESHAPE_CFG_EXTENT = i)
    (hg : s.fld F.RBD_RESHAPE_CFG_GROUP = g) (mode : s.fld F.RBD_RESHAPE_CFG_MODE = 1) (on : s.grpOn g = true)
    (state : s.groupState g ≠ 4) (mapped : getPart (s.ext i) Ext.state = Exts.mapped) :
    ∃ y r, s.reshapeStart = ((s.recordSeq (getPart (s.ext i) Ext.group % 8) g).2.setExt i y).onRbd fun b =>
      { b with reshape := some r } := by
  subst hi hg
  unfold State.reshapeStart
  simp only [free, mode, on, mapped, beq_eq_false_iff_ne.2 state]
  exact ⟨_, _, rfl⟩

/-- Where rule 3 of R402 chooses among the reshape records, RESHAPE_START puts a record into the Tally. -/
theorem State.seq_reshapeStart {i g : Nat} {c : Nat × List Byte} (free : s.rbd.reshape = none)
    (hi : s.fld F.RBD_RESHAPE_CFG_EXTENT = i) (hg : s.fld F.RBD_RESHAPE_CFG_GROUP = g) (mode : s.fld F.RBD_RESHAPE_CFG_MODE = 1)
    (on : s.grpOn g = true) (state : s.groupState g ≠ 4) (mapped : getPart (s.ext i) Ext.state = Exts.mapped)
    (third : firstCopy (s.reshapeCopies (getPart (s.ext i) Ext.group % 8) g) = some (c, true)) :
    s.reshapeStart.mgt.seq = s.mgt.seq + 1 := by
  obtain ⟨y, r, begins⟩ := State.reshapeStart_beside free hi hg mode on state mapped
  rw [begins, State.onRbd_mgt, (State.setExt_frame _ i y).mgt_eq]
  exact State.recordSeq_third third

/-- Where RESHAPE_START's row leaves the Tally, its effect does. -/
theorem State.mgt_reshapeStart {t : State} {p : Path} (up : s.up = true) (lets : s.modeLets p A.RBD_CMD = true)
    (row : exec (.reshapeStart p) s = .next t) (frame : t.mgt = s.mgt) : s.reshapeStart.mgt = s.mgt := by
  have ran : exec (.reshapeStart p) s = .next { s.reshapeStart with pending := s.pending } := State.busUp_row up lets _
  obtain rfl : { s.reshapeStart with pending := s.pending } = t := Host.Outcome.next.inj (ran.symm.trans row)
  exact frame

end

/-! ### Two reshape records of one SEQ that differ -/

/-- An enabled group of four members, in bays 0 to 3. -/
def splitGroup : BitVec 512 :=
  grpEntry (putPart (putPart (putPart (putPart (putPart (putPart (putPart 0 Grp.state 1) Grp.members 4) Grp.stripLog2 16) Grp.flags 1)
    Grp.memberBay 0x03020100) Grp.dataStart 0x400000) Grp.stripes 0x100000)

/-- A drive that holds a reshape record of SEQ 1. -/
def recordDrive (content : Byte) : Drive := { driveDefault with reshape := some (1, [content]) }

/-- A running part that is to move extent 0 within group 0, whose members 0 and 1 hold reshape records of one SEQ that differ. -/
def splitRecords : State :=
  { (State.reset.setFld F.RBD_RESHAPE_CFG_MODE 1).setWord A.RBD_RESHAPE_DST 0x10000 with
    glb := { Glb.reset with phase := .running }
    vol := { Vol.reset with grps := [(0, splitGroup)], exts := [(0, putPart 0 Ext.state Exts.mapped)] }
    drives := [(0, recordDrive 0), (1, recordDrive 1)] }

theorem splitRecords_extent : splitRecords.fld F.RBD_RESHAPE_CFG_EXTENT = 0 := by decide +kernel

theorem splitRecords_group : splitRecords.fld F.RBD_RESHAPE_CFG_GROUP = 0 := by decide +kernel

theorem splitRecords_mode : splitRecords.fld F.RBD_RESHAPE_CFG_MODE = 1 := by decide +kernel

theorem splitRecords_grpOn : splitRecords.grpOn 0 = true := by decide +kernel

theorem splitRecords_groupState : splitRecords.groupState 0 ≠ 4 := by decide +kernel

theorem splitRecords_mapped : getPart (splitRecords.ext 0) Ext.state = Exts.mapped := by decide +kernel

/-- Neither record is held twice, so that rule 3 of R402 chooses. -/
theorem splitRecords_third :
    firstCopy (splitRecords.reshapeCopies (getPart (splitRecords.ext 0) Ext.group % 8) 0) = some ((1, [0]), true) := by
  decide +kernel

end Sys2Proof.Machine
end

section
/-!
The statement about patrols and reshapes (09_failure_rebuild_reshape.md R393 to R415).
-/

namespace Sys2Proof.Machine

-- Proofs in sequence: the stack of every thread that waits counts against the memory limit of the check.
set_option Elab.async false

/-- Refutes O32 by its clause on a RESHAPE_START beside the source, which leaves the Tally as it was. Where rule 3 of R402 chooses among
the reshape records (R411), which no premise excludes, the K24 sets META_MISMATCH and writes a Tally record of class INTEGRITY. In
`splitRecords` two members hold records of one SEQ that differ: the row puts one record into the Tally. -/
theorem not_patrolsAndReshapes : ¬ Obligations.PatrolsAndReshapes := by
  unfold Obligations.PatrolsAndReshapes
  rintro ⟨-, start, -⟩
  obtain ⟨t, r, row, -, -, -, -, -, -, -, -, -, -, frame⟩ := (start .mgmt 0 0 _ splitRecords rfl rfl rfl
    splitRecords_extent.symm splitRecords_group.symm rfl).1 splitRecords_mode splitRecords_grpOn splitRecords_groupState
    splitRecords_mapped
  have same : splitRecords.reshapeStart.mgt = splitRecords.mgt := State.mgt_reshapeStart rfl rfl row (by rw [frame])
  have more := State.seq_reshapeStart rfl splitRecords_extent splitRecords_group splitRecords_mode splitRecords_grpOn
    splitRecords_groupState splitRecords_mapped splitRecords_third
  rw [same] at more
  omega

end Sys2Proof.Machine
end

section
/-!
SUPPORT. Laws of the job engine (11_cipher.md R472 to R478): which bytes of the Cellar a write to it may change, and what a job's end
leaves of its channel.
-/

namespace Sys2Proof.Machine

-- Proofs in sequence: the stack of every thread that waits counts against the memory limit of the check.
set_option Elab.async false

/-! ### Bytes that a write to the Cellar may change (R85) -/

/-- A byte of a store is as it was, or lies among n bytes from a and is one of l. -/
def byteFrom (a n : Nat) (l : List Byte) (m m' : Mem) (x : Nat) : Prop :=
  Mem.byte 0 m' x = Mem.byte 0 m x ∨ (a ≤ x ∧ x < a + n ∧ Mem.byte 0 m' x ∈ l)

theorem byteFrom_write (m : Mem) (a : Nat) (l : List Byte) (x : Nat) : byteFrom a l.length l m (Mem.write 0 m a l) x := by
  by_cases h : x < a ∨ a + l.length ≤ x
  · exact .inl (Mem.byte_write_out 0 m a l x h)
  · have hi : x - a < l.length := by omega
    have read := Mem.byte_write_in 0 m a l (x - a) hi
    rw [show a + (x - a) = x by omega] at read
    exact .inr ⟨by omega, by omega, read ▸ List.getElem_mem hi⟩

theorem byteFrom.trans {a n x : Nat} {l : List Byte} {m m' m'' : Mem} (h : byteFrom a n l m m' x) (h' : byteFrom a n l m' m'' x) :
    byteFrom a n l m m'' x := by
  rcases h' with h' | h'
  · rw [byteFrom, h']
    exact h
  · exact .inr h'

/-- The parts that a range's cells take lie in the range and carry its bytes. -/
theorem cutCells_coverCells (k : Nat) {a b n : Nat} {l bytes : List Byte} (ha : b ≤ a) (hn : a + l.length ≤ b + n) (hl : l ⊆ bytes)
    {x : Nat × List Byte} (hx : x ∈ cutCells (coverCells k a l.length) l) :
    b ≤ x.1 ∧ x.1 + x.2.length ≤ b + n ∧ x.2 ⊆ bytes := by
  induction k generalizing a l with
  | zero => simp [coverCells, cutCells] at hx
  | succ k ih =>
    simp only [coverCells] at hx
    split at hx
    · simp [cutCells] at hx
    · simp only [cutCells, List.mem_cons, Nat.div_add_mod] at hx
      have hc := Nat.min_le_left l.length (256 - a % 256)
      generalize min l.length (256 - a % 256) = c at hx hc
      rcases hx with rfl | hx
      · exact ⟨ha, by simp only [List.length_take]; omega, List.Subset.trans (List.take_subset c l) hl⟩
      · rw [← List.length_drop] at hx
        exact ih (by omega) (by simp only [List.length_drop]; omega) (List.Subset.trans (List.drop_subset c l) hl) hx

/-- A write to the Cellar changes bytes of its range alone, to bytes that it carries. -/
theorem State.byteFrom_cellarPut (s : State) (a : Nat) (l : List Byte) (x : Nat) :
    byteFrom a l.length l s.hst.mem (s.cellarPut a l).hst.mem x := by
  unfold State.cellarPut
  split
  · have parts : ∀ y ∈ cutCells (coverCells (l.length / 256 + 2) a l.length) l,
        a ≤ y.1 ∧ y.1 + y.2.length ≤ a + l.length ∧ y.2 ⊆ l := fun y hy =>
      cutCells_coverCells _ (Nat.le_refl a) (Nat.le_refl _) (List.Subset.refl l) hy
    dsimp only
    generalize cutCells (coverCells (l.length / 256 + 2) a l.length) l = ys at parts
    generalize s.hst = h
    induction ys generalizing h with
    | nil => exact .inl rfl
    | cons y ys ih =>
      obtain ⟨⟨hlo, hhi, hsub⟩, rest⟩ := List.forall_mem_cons.1 parts
      rw [List.foldl_cons]
      refine byteFrom.trans ?_ (ih rest _)
      split
      · exact .inl rfl
      · exact (byteFrom_write h.mem y.1 y.2 x).imp_right fun ⟨h1, h2, h3⟩ => ⟨by omega, by omega, hsub h3⟩
  · exact byteFrom_write s.hst.mem a l x

theorem State.byte_cellarPut_zeros (s : State) (a n x : Nat) :
    Mem.byte 0 (s.cellarPut a (List.replicate n 0)).hst.mem x = Mem.byte 0 s.hst.mem x ∨
      (Mem.byte 0 (s.cellarPut a (List.replicate n 0)).hst.mem x = 0 ∧ a ≤ x ∧ x < a + n) :=
  (s.byteFrom_cellarPut a (List.replicate n 0) x).imp_right fun ⟨h1, h2, h3⟩ =>
    ⟨List.eq_of_mem_replicate h3, h1, by simpa using h2⟩

/-- A write of no bytes changes none. -/
theorem State.cellarPut_nil (s : State) (a : Nat) : (s.cellarPut a []).hst.mem = s.hst.mem := by
  unfold State.cellarPut
  split <;> rfl

/-- Where no cell of the range fails, the Cellar takes every byte. -/
theorem State.cellarPut_mem {s : State} {a : Nat} {l : List Byte} (h : s.rangeFailed a l.length = false) :
    (s.cellarPut a l).hst.mem = Mem.write 0 s.hst.mem a l := by
  simp [State.cellarPut, h, Hst.write]

/-! ### The end of a job (R476, R478) -/

/-- The address of a job's output. -/
def JobRun.target (j : JobRun) : Nat := getPart j.desc Job.dst % 2 ^ 36

/-- A channel whose job has ended, with its result counted. -/
def State.jobDone (s : State) (c code n : Nat) : State :=
  (s.onCip fun x => { x with jobs := Tab.erase c x.jobs, results := Tab.set c (true, code, n) x.results }).bump A.CIP_JOBS

section
variable (s : State) (c : Nat) (j : JobRun)

theorem State.jobDone_frame (code n : Nat) : Frame [.cip, .regs] s (s.jobDone c code n) :=
  (s.onCip_frame fun _ => _).append (State.bump_frame _ _ _)

@[simp] theorem State.find?_jobDone_jobs (code n : Nat) : Tab.find? c (s.jobDone c code n).cip.jobs = none :=
  Tab.find?_erase_self ..

@[simp] theorem State.find?_jobDone_results (code n : Nat) :
    Tab.find? c (s.jobDone c code n).cip.results = some (true, code, n) := Tab.find?_set_self ..

theorem State.pair_jobDone (code n : Nat) : (s.jobDone c code n).pair A.CIP_JOBS = (s.pair A.CIP_JOBS + 1) % 2 ^ 64 :=
  State.pair_bump_self ..

/-- A job's end after a change of the Cellar. -/
theorem Frame.jobDone_eq {s u : State} (h : Frame [.hst] s u) (code n : Nat) : u.jobDone c code n =
    { s with cip := (u.jobDone c code n).cip, hst := (u.jobDone c code n).hst, regs := (u.jobDone c code n).regs } := by
  have frame : Frame [.hst, .cip, .regs] s (u.jobDone c code n) := h.append (u.jobDone_frame c code n)
  generalize u.jobDone c code n = t at frame
  exact frame.eq_take

/-- A job that ends with its output writes it whole. -/
theorem State.jobFinish_output (out : List Byte) (written : Nat) :
    s.jobFinish c j 0 out written = (s.cellarPut j.target out).jobDone c 0 out.length := rfl

/-- A job that ends with a code leaves zeros in as many of its bytes as it had written (open: R476). -/
theorem State.jobFinish_code {code : Nat} (h : code ≠ 0) (out : List Byte) (written : Nat) :
    ∃ k f, k ≤ written ∧ s.jobFinish c j code out written =
      (({ s with free := f } : State).cellarPut j.target (List.replicate k 0)).jobDone c code 0 := by
  by_cases hw : written = 0
  · refine ⟨0, s.free, Nat.zero_le _, ?_⟩
    simp [State.jobFinish, State.jobDone, JobRun.target, h, hw]
  · refine ⟨((Config.freeValue s.free).toNat % 2 ^ 32) % (written + 1), s.free + 1, Nat.le_of_lt_succ (Nat.mod_lt _ (by omega)), ?_⟩
    simp [State.jobFinish, State.jobDone, JobRun.target, State.draw, h, hw]

/-- What a job that ends with a code leaves: its channel's result, and zeros at most among the bytes it may have written. -/
structure JobFailed (s : State) (c : Nat) (j : JobRun) (code room : Nat) (t : State) : Prop where
  frame : Frame [.free, .hst, .cip, .regs] s t
  jobs : Tab.find? c t.cip.jobs = none
  results : Tab.find? c t.cip.results = some (true, code, 0)
  count : t.pair A.CIP_JOBS = (s.pair A.CIP_JOBS + 1) % 2 ^ 64
  bytes : ∀ x, Mem.byte 0 t.hst.mem x = Mem.byte 0 s.hst.mem x ∨
    (Mem.byte 0 t.hst.mem x = 0 ∧ j.target ≤ x ∧ x < j.target + room)
  unwritten : room = 0 → t.hst.mem = s.hst.mem

variable {s c j} in
theorem JobFailed.eq {code room : Nat} {t : State} (h : JobFailed s c j code room t) :
    t = { s with cip := t.cip, hst := t.hst, regs := t.regs, free := t.free } := h.frame.eq_take

theorem State.jobFinish_failed {code : Nat} (h : code ≠ 0) (out : List Byte) (room : Nat) :
    JobFailed s c j code room (s.jobFinish c j code out room) := by
  obtain ⟨k, f, hk, finish⟩ := s.jobFinish_code c j h out room
  have drawn : Frame [.free] s { s with free := f } := by
    intro b hb
    cases b
    case free => exact absurd (by decide) hb
    all_goals rfl
  have put := State.cellarPut_frame { s with free := f } j.target (List.replicate k 0)
  have done := (State.cellarPut { s with free := f } j.target (List.replicate k 0)).jobDone_frame c code 0
  rw [finish]
  refine ⟨((drawn.append put).append done).mono (by decide), State.find?_jobDone_jobs .., State.find?_jobDone_results .., ?_,
    fun x => ?_, fun hr => ?_⟩
  · rw [State.pair_jobDone, State.pair_congr put.regs_eq]
    rfl
  · rw [done.hst_eq]
    exact (State.byte_cellarPut_zeros { s with free := f } j.target k x).imp_right fun ⟨h0, h1, h2⟩ => ⟨h0, h1, by omega⟩
  · obtain rfl : k = 0 := by omega
    rw [done.hst_eq]
    exact State.cellarPut_nil { s with free := f } _

end

/-! ### The rows of a job -/

section
variable {s : State} {c : Nat} {j : JobRun} (hj : Tab.find? c s.cip.jobs = some j)
include hj

theorem State.jobCancel_running : s.jobCancel c = s.jobFinish c j 0x09 [] j.room := by
  simp only [State.jobCancel, State.jobStop, hj]

theorem State.jobEnd_refused {k : Nat} (hc : j.code = some k) : s.jobEnd c = s.jobFinish c j k [] 0 := by
  simp only [State.jobEnd, hj, hc]

variable (hc : j.code = none) (hp : ¬ (s.attic.pipes.contains 96 = true ∧ s.attic.pipes.contains 97 = true))
include hc hp

theorem State.jobEnd_poisoned
    (h : s.rangePoison (getPart j.desc Job.src % 2 ^ 36) (getPart j.desc Job.aadLength + getPart j.desc Job.length) = true) :
    s.jobEnd c = s.jobFinish c j 0x08 [] j.room := by
  simp only [State.jobEnd, hj, hc, if_neg hp, if_pos h]

/-- A job that computes an output ends with it, or with POISON where a cell of its range fails. -/
theorem State.jobEnd_computed {r : KeyRec} {out : List Byte}
    (h : s.rangePoison (getPart j.desc Job.src % 2 ^ 36) (getPart j.desc Job.aadLength + getPart j.desc Job.length) = false)
    (hr : Tab.find? (getPart j.desc Job.slot) s.cip.job = some r)
    (ho : jobCompute (getPart j.desc Job.mode) ((getPart j.desc Job.flags).testBit 0) r.key (leBytes 16 (getPart j.desc Job.iv))
      (leBytes 16 (getPart j.desc Job.tag)) (s.cellar (getPart j.desc Job.src % 2 ^ 36) (getPart j.desc Job.aadLength))
      (s.cellar (getPart j.desc Job.src % 2 ^ 36 + getPart j.desc Job.aadLength) (getPart j.desc Job.length)) = .ok out) :
    s.jobEnd c = if s.rangeFailed j.target out.length then s.jobFinish c j 0x08 [] j.room else s.jobFinish c j 0 out 0 := by
  simp only [State.jobEnd, hj, hc, if_neg hp, h, hr, ho, Bool.false_eq_true, if_false]
  rfl

end

/-- The job that a channel's descriptor describes. -/
def State.newJob (s : State) (c : Nat) : JobRun := ⟨s.jobDesc c, s.jobRefusal (s.jobDesc c), false⟩

theorem State.newJob_code (s : State) (c : Nat) : (s.newJob c).code = s.jobRefusal (s.jobDesc c) := by rw [State.newJob]

/-- A channel that has begun the job of its descriptor. -/
def State.jobBegun (s : State) (c : Nat) : State :=
  s.onCip fun x => { x with results := Tab.erase c x.results, jobs := Tab.set c (s.newJob c) x.jobs }

theorem State.find?_jobBegun_jobs (s : State) (c : Nat) : Tab.find? c (s.jobBegun c).cip.jobs = some (s.newJob c) :=
  Tab.find?_set_self ..

theorem State.find?_jobBegun_results (s : State) (c : Nat) : Tab.find? c (s.jobBegun c).cip.results = none :=
  Tab.find?_erase_self ..

section
variable {s : State} {c : Nat} (hc : c < 2)
include hc

theorem State.jobStart_busy {j : JobRun} (hj : Tab.find? c s.cip.jobs = some j) : s.jobStart c = s.bump A.CIP_JOB_REFUSED := by
  simp [State.jobStart, hc, hj]

theorem State.jobStart_free (hj : Tab.find? c s.cip.jobs = none) : s.jobStart c = s.jobBegun c := by
  simp [State.jobStart, State.jobBegun, State.newJob, hc, hj]

end

theorem State.jobCancel_idle {s : State} {c : Nat} (hj : Tab.find? c s.cip.jobs = none) : s.jobCancel c = s := by
  simp [State.jobCancel, State.jobStop, hj]

end Sys2Proof.Machine
end

section
/-!
The statement about the job engine (11_cipher.md R472 to R478).
-/

namespace Sys2Proof.Machine

-- Proofs in sequence: the stack of every thread that waits counts against the memory limit of the check.
set_option Elab.async false

/-- Settles O36: a START and a CANCEL change their channel's job and result, and a job's end is one of two: with its output written
whole, or with a code, whose zeros lie in the room of the job's output whatever part of it had been written. -/
theorem jobs : Obligations.Jobs := by
  unfold Obligations.Jobs
  refine ⟨fun p c s hb hm hc => ?commands, fun c d j s ha hj hd => ?ended⟩
  case commands =>
    have cancelled {t : State} (h : s.jobCancel c = t) (ht : t.pending = s.pending) : exec (.jobCancel p c) s = .next t :=
      State.bus_next hb hm ((if_pos hc).trans h) ht
    have started {t : State} (h : s.jobStart c = t) (ht : t.pending = s.pending) : exec (.jobStart p c) s = .next t :=
      State.bus_next hb hm ((if_pos hc).trans h) ht
    refine ⟨fun j hj => ?busy, fun hj => ?free, fun hj => cancelled (State.jobCancel_idle hj) rfl, fun j hj => ?cancel⟩
    case busy => exact ⟨_, started (State.jobStart_busy hc hj) rfl, rfl, State.pair_bump_self ..⟩
    case free =>
      exact ⟨s.jobBegun c, s.newJob c, started (State.jobStart_free hc hj) rfl, rfl, s.find?_jobBegun_jobs c, rfl, s.newJob_code c,
        s.find?_jobBegun_results c,
        fun k hk => ⟨Tab.find?_set_ne (Ne.symm hk) .., Tab.find?_erase_ne (Ne.symm hk) ..⟩⟩
    case cancel =>
      have failed := s.jobFinish_failed c j (code := 9) (by decide) [] j.room
      exact ⟨_, cancelled (State.jobCancel_running hj) failed.frame.pending_eq, failed.eq, failed.jobs, failed.results,
        failed.count, failed.bytes⟩
  case ended =>
    subst hd
    have ends {t : State} (h : s.jobEnd c = t) (ht : t.pending = s.pending) : exec (.jobEnd c) s = .next t :=
      State.awake_next ha h ht
    refine ⟨fun k hc hk => ?code, fun r out hc hp hs hr ho => ?computed, fun hc hp hs => ?poisoned⟩
    case code =>
      have failed := s.jobFinish_failed c j hk [] 0
      exact ⟨_, ends (State.jobEnd_refused hj hc) failed.frame.pending_eq, failed.unwritten rfl, failed.jobs, failed.results⟩
    case computed =>
      have computed := State.jobEnd_computed hj hc hp hs hr ho
      refine ⟨fun hf => ?_, fun hf => ?_⟩
      · have failed := s.jobFinish_failed c j (code := 8) (by decide) [] j.room
        exact ⟨_, ends (computed.trans (if_pos hf)) failed.frame.pending_eq, failed.jobs, failed.results⟩
      · have taken : s.rangeFailed j.target out.length = false := hf
        have put := s.cellarPut_frame j.target out
        have done := (s.cellarPut j.target out).jobDone_frame c 0 out.length
        have frame : Frame [.hst, .cip, .regs] s _ := put.append done
        have mem : ((s.cellarPut j.target out).jobDone c 0 out.length).hst.mem = Mem.write 0 s.hst.mem j.target out := by
          rw [done.hst_eq, State.cellarPut_mem taken]
        refine ⟨_, ends (computed.trans ((if_neg (by simp [taken])).trans (s.jobFinish_output c j out 0))) frame.pending_eq,
          put.jobDone_eq c 0 out.length, State.find?_jobDone_jobs .., State.find?_jobDone_results .., fun i v hi => ?_, fun x hx => ?_⟩
        · obtain ⟨hlt, rfl⟩ := List.getElem?_eq_some_iff.1 hi
          rw [mem]
          exact Mem.byte_write_in 0 _ _ _ i hlt
        · rw [mem]
          exact Mem.byte_write_out 0 _ _ _ x hx
    case poisoned =>
      have failed := s.jobFinish_failed c j (code := 8) (by decide) [] j.room
      exact ⟨_, ends (State.jobEnd_poisoned hj hc (fun h => absurd (hp.symm.trans h.1) (by decide)) hs) failed.frame.pending_eq, failed.results,
        failed.bytes⟩

end Sys2Proof.Machine
end

section
/-!
SUPPORT. Laws of the key store (11_cipher.md R479 to R485, R750): what its commands leave in CIP_ERROR, CIP_STATUS and
CIP_INSTALL_WORD, and which slot an INSTALL and a CLEAR change.
-/

namespace Sys2Proof.Machine

-- Proofs in sequence: the stack of every thread that waits counts against the memory limit of the check.
set_option Elab.async false

/-! ### Fields of a word that is kept -/

section
variable {s t : State}

theorem State.is_of_word {f : Fld} (h : t.word f.addr = s.word f.addr) : t.is f = s.is f := by simp only [State.is, State.fld, h]

/-- A change of the cipher unit, the Attic and the registers alone. -/
theorem Frame.eq_cip_attic_regs (h : Frame [.cip, .attic, .regs] s t) :
    t = { s with cip := t.cip, attic := t.attic, regs := t.regs } := h.eq_take

theorem State.pair_of_word {a : Nat} (h : t.word a = s.word a) (h' : t.word (a + 4) = s.word (a + 4)) : t.pair a = s.pair a := by
  simp only [State.pair, h, h']

end

/-! ### CIP_INSTALL_WORD, CIP_ERROR and CIP_STATUS (Table 11-18) -/

theorem installWord_ne {a n : Nat} (hn : n < 20) (h : a < 0x700040 ∨ 0x700090 ≤ a) : A.CIP_INSTALL_WORD n ≠ a := by
  show 0x700040 + 4 * n ≠ a
  omega

theorem installWord_inj {n k : Nat} (h : k ≠ n) : A.CIP_INSTALL_WORD n ≠ A.CIP_INSTALL_WORD k := by
  show 0x700040 + 4 * n ≠ 0x700040 + 4 * k
  omega

section
variable (s : State)

theorem State.clearInstall_frame : Frame [.regs] s s.clearInstall := Frame.each (fun s _ => s.setWord_frame _ _) _ s

theorem State.word_clearInstall {n : Nat} (h : n < 20) : s.clearInstall.word (A.CIP_INSTALL_WORD n) = 0 := by
  have word := State.each_own (get := fun s n => State.word s (A.CIP_INSTALL_WORD n)) (step := fun s n => s.setWord (A.CIP_INSTALL_WORD n) 0)
    (g := fun _ => 0) (fun s _ => s.word_setWord_self _ _) (fun s _ _ hk => s.word_setWord_ne (installWord_inj hk) _)
    (List.nodup_range (n := 20)) s n
  exact word.trans (if_pos (List.mem_range.2 h))

/-- Beside CIP_INSTALL_WORD the registers stay. -/
theorem State.word_clearInstall_ne {a : Nat} (h : a < 0x700040 ∨ 0x700090 ≤ a) : s.clearInstall.word a = s.word a :=
  s.each_same (List.range 20) _ (·.word a) fun s _ hn => s.word_setWord_ne (installWord_ne (List.mem_range.1 hn) h) _

theorem State.cipErr_frame (code : Nat) : Frame [.regs] s (s.cipErr code) := (s.setFld_frame _ _).trans (State.flag_frame _ _)

theorem State.fld_cipErr {code : Nat} (h : code < 256) : (s.cipErr code).fld F.CIP_ERROR_CODE = code := by
  rw [State.cipErr, State.fld_flag_apart _ (Or.inl (by decide)), State.fld_setFld_self _ (by decide)]
  exact Nat.mod_eq_of_lt h

theorem State.is_cipErr (code : Nat) : (s.cipErr code).is F.CIP_STATUS_CMD_ERR = true := State.is_flag _ (by decide) (by decide)

theorem State.word_cipErr_ne {a : Nat} (h : a ≠ A.CIP_ERROR) (h' : a ≠ A.CIP_STATUS) (code : Nat) :
    (s.cipErr code).word a = s.word a := by
  rw [State.cipErr, State.word_flag_ne _ h'.symm, State.word_setFld_ne _ h.symm]

/-! ### An INSTALL that fails (R480) -/

/-- A failed INSTALL's code is shown and counted. -/
def State.installFailed (code : Nat) : State := (s.cipErr code).bump A.CIP_INSTALL_FAIL

theorem State.installFailed_frame (code : Nat) : Frame [.regs] s (s.installFailed code) :=
  (s.cipErr_frame code).trans (State.bump_frame _ _ _)

theorem State.fld_installFailed {code : Nat} (h : code < 256) : (s.installFailed code).fld F.CIP_ERROR_CODE = code := by
  rw [State.installFailed, State.fld_bump_ne _ _ (by decide) (by decide), s.fld_cipErr h]

theorem State.is_installFailed (code : Nat) : (s.installFailed code).is F.CIP_STATUS_CMD_ERR = true :=
  (State.is_of_word (State.word_bump_ne _ _ (by decide) (by decide))).trans (s.is_cipErr code)

theorem State.pair_installFailed (code : Nat) :
    (s.installFailed code).pair A.CIP_INSTALL_FAIL = (s.pair A.CIP_INSTALL_FAIL + 1) % 2 ^ 64 := by
  rw [State.installFailed, State.pair_bump_self, State.pair_of_word (s := s)] <;> exact s.word_cipErr_ne (by decide) (by decide) code

theorem State.word_installFailed {n : Nat} (h : n < 20) (code : Nat) :
    (s.installFailed code).word (A.CIP_INSTALL_WORD n) = s.word (A.CIP_INSTALL_WORD n) := by
  rw [State.installFailed, State.word_bump_ne, State.word_cipErr_ne]
  case h => exact installWord_ne h (by decide)
  case h' => exact installWord_ne h (by decide)
  case h => exact (installWord_ne h (by decide)).symm
  case h' => exact (installWord_ne h (by decide)).symm

variable {s} {kind slot : Nat}

theorem State.cipInstall_ok {r : KeyRec} (h : s.installCheck kind slot = .ok r) :
    s.cipInstall kind slot = { s with cip := { s.cip with install := some { kind := kind, slot := slot, record := r } } } := by
  rw [State.cipInstall, h]
  rfl

theorem State.cipInstall_busy (h : s.installCheck kind slot = .error 1) : s.cipInstall kind slot = s.installFailed 1 := by
  rw [State.cipInstall, h]
  rfl

theorem State.cipInstall_error {e : Nat} (h : s.installCheck kind slot = .error e) (he : e ≠ 1) :
    s.cipInstall kind slot = (s.installFailed e).clearInstall := by
  rw [State.cipInstall, h]
  exact if_neg he

end

/-! ### The key of a slot (R484) -/

section
variable (s : State)

theorem State.keyRec_congr {t : State} (h : t.cip = s.cip) (h' : t.attic.kwk = s.attic.kwk) (k n : Nat) :
    t.keyRec k n = s.keyRec k n := by
  unfold State.keyRec
  split <;> simp only [h, h']

theorem State.loadKey_sa (k n : Nat) (r : KeyRec) :
    (s.loadKey k n r).cip.sa = if k = 1 then Tab.set n r s.cip.sa else s.cip.sa := by
  unfold State.loadKey; split <;> simp_all

theorem State.loadKey_vol (k n : Nat) (r : KeyRec) :
    (s.loadKey k n r).cip.vol = if k = 2 then Tab.set n r s.cip.vol else s.cip.vol := by
  unfold State.loadKey; split <;> simp_all

theorem State.loadKey_job (k n : Nat) (r : KeyRec) :
    (s.loadKey k n r).cip.job = if k = 3 then Tab.set n r s.cip.job else s.cip.job := by
  unfold State.loadKey; split <;> simp_all

theorem State.loadKey_kwk (k n : Nat) (r : KeyRec) : (s.loadKey k n r).attic.kwk = if k = 4 then some r else s.attic.kwk := by
  unfold State.loadKey; split <;> simp_all

theorem Tab.find?_ite_set {α : Type} (n m : Nat) (c : Prop) [Decidable c] (v : α) (t : Tab α) :
    Tab.find? m (if c then Tab.set n v t else t) = if c ∧ m = n then some v else Tab.find? m t := by
  by_cases h : m = n
  · subst h; split <;> simp_all
  · split <;> simp [h, Tab.find?_set_ne (Ne.symm h)]

/-- A loaded slot holds its record, and the other slots keep their keys; the KWK has one slot. -/
theorem State.keyRec_loadKey (k n i m : Nat) (r : KeyRec) : (s.loadKey k n r).keyRec i m =
    if i = k ∧ 1 ≤ k ∧ k ≤ 4 ∧ (k = 4 ∨ m = n) then some r else s.keyRec i m := by
  unfold State.keyRec
  split
  case h_1 =>
    rw [State.loadKey_sa, Tab.find?_ite_set]
    exact if_congr (by omega) rfl rfl
  case h_2 =>
    rw [State.loadKey_vol, Tab.find?_ite_set]
    exact if_congr (by omega) rfl rfl
  case h_3 =>
    rw [State.loadKey_job, Tab.find?_ite_set]
    exact if_congr (by omega) rfl rfl
  case h_4 =>
    rw [State.loadKey_kwk]
    exact if_congr (by omega) rfl rfl
  case h_5 h1 h2 h3 h4 =>
    simp only [imp_false] at h1 h2 h3 h4
    exact (if_neg (by omega)).symm

/-! ### INSTALL_DONE (R464, R480) -/

theorem State.loadKey_frame (k n : Nat) (r : KeyRec) : Frame [.cip, .attic] s (s.loadKey k n r) := by
  unfold State.loadKey
  split
  case h_1 | h_2 | h_3 => exact (s.onCip_frame fun _ => _).mono (by decide)
  case h_4 => exact (s.onAttic_frame fun _ => _).mono (by decide)
  case h_5 => exact Frame.refl _ s

theorem State.loadKey_install (k n : Nat) (r : KeyRec) : (s.loadKey k n r).cip.install = s.cip.install := by
  unfold State.loadKey
  split <;> rfl

theorem State.loadKey_saMarks (k n : Nat) (r : KeyRec) : (s.loadKey k n r).attic.saMarks = s.attic.saMarks := by
  unfold State.loadKey
  split <;> rfl

theorem State.markFor_frame (n : Nat) (r : KeyRec) : Frame [.attic] s (s.markFor n r) :=
  Frame.ite (Frame.refl _ s) (s.onAttic_frame fun _ => _)

theorem State.markFor_kwk (n : Nat) (r : KeyRec) : (s.markFor n r).attic.kwk = s.attic.kwk := by
  unfold State.markFor
  split
  · dsimp only
    split <;> rfl
  · rfl

/-- A key of the check value that the SA's mark was kept for leaves the mark (R464). -/
theorem State.markFor_same {n : Nat} {m : MarkRec} {r : KeyRec} (h : Tab.find? n s.attic.saMarks = some m) (hk : m.kcv = r.kcv) :
    s.markFor n r = s := by
  simp [State.markFor, h, hk]

theorem State.markFor_new {n : Nat} {r : KeyRec} (h : Tab.find? n s.attic.saMarks = none) :
    Tab.find? n (s.markFor n r).attic.saMarks = some { mark := 0, kcv := r.kcv } := by
  simp [State.markFor, h]

/-- The slot of an INSTALL holds its record, an SA's with the mark that goes with it. -/
def State.keyed (s : State) (r : InstallRun) : State :=
  ((s.onCip fun c => { c with install := none }).loadKey r.kind r.slot r.record).when (decide (r.kind = 1)) fun s =>
    s.markFor r.slot r.record

/-- An INSTALL is reported done. -/
def State.installTold (s : State) : State := (s.clearInstall.bump A.CIP_INSTALLS).flag F.CIP_STATUS_CMD_DONE

theorem State.installDone_eq {r : InstallRun} (h : s.cip.install = some r) : s.installDone = (s.keyed r).installTold := by
  rw [State.installDone, h]
  rfl

theorem State.installTold_frame : Frame [.regs] s s.installTold :=
  (s.clearInstall_frame.trans (State.bump_frame _ _ _)).trans (State.flag_frame _ _)

theorem State.word_installTold {n : Nat} (h : n < 20) : s.installTold.word (A.CIP_INSTALL_WORD n) = 0 := by
  rw [State.installTold, State.word_flag_ne, State.word_bump_ne, State.word_clearInstall _ h] <;>
    exact (installWord_ne h (by decide)).symm

theorem State.is_installTold : s.installTold.is F.CIP_STATUS_CMD_DONE = true := State.is_flag _ (by decide) (by decide)

theorem State.pair_installTold : s.installTold.pair A.CIP_INSTALLS = (s.pair A.CIP_INSTALLS + 1) % 2 ^ 64 := by
  rw [State.installTold, State.pair_flag_ne (by decide) (by decide), State.pair_bump_self, State.pair_of_word (s := s)] <;>
    exact s.word_clearInstall_ne (by decide)

variable (r : InstallRun)

theorem State.keyed_frame : Frame [.cip, .attic] s (s.keyed r) :=
  (((s.onCip_frame _).mono (by decide)).trans (State.loadKey_frame _ _ _ _)).trans
    (Frame.when _ ((State.markFor_frame _ _ _).mono (by decide)))

theorem State.keyed_cip : (s.keyed r).cip = ((s.onCip fun c => { c with install := none }).loadKey r.kind r.slot r.record).cip :=
  State.when_same _ _ _ (·.cip) (State.markFor_frame _ _ _).cip_eq

theorem State.keyed_install : (s.keyed r).cip.install = none := by
  rw [State.keyed_cip, State.loadKey_install]
  rfl

theorem State.keyRec_keyed (i m : Nat) : (s.keyed r).keyRec i m =
    if i = r.kind ∧ 1 ≤ r.kind ∧ r.kind ≤ 4 ∧ (r.kind = 4 ∨ m = r.slot) then some r.record else s.keyRec i m := by
  rw [State.keyRec_congr (s := (s.onCip fun c => { c with install := none }).loadKey r.kind r.slot r.record) (h := s.keyed_cip r),
    State.keyRec_loadKey]
  · refine if_congr Iff.rfl rfl ?_
    unfold State.keyRec
    split <;> rfl
  · exact State.when_same _ _ _ (fun s => s.attic.kwk) (State.markFor_kwk _ _ _)

end

section
variable {s : State} {r : InstallRun} (h : r.kind = 1)
include h

theorem State.keyed_sa : s.keyed r =
    ((s.onCip fun c => { c with install := none }).loadKey r.kind r.slot r.record).markFor r.slot r.record := by
  rw [State.keyed, h]
  rfl

theorem State.keyed_same {m : MarkRec} (hm : Tab.find? r.slot s.attic.saMarks = some m) (hk : m.kcv = r.record.kcv) :
    (s.keyed r).attic.saMarks = s.attic.saMarks := by
  rw [State.keyed_sa h, State.markFor_same _ (m := m) (by rw [State.loadKey_saMarks]; exact hm) hk, State.loadKey_saMarks]
  rfl

theorem State.keyed_new (hm : Tab.find? r.slot s.attic.saMarks = none) :
    Tab.find? r.slot (s.keyed r).attic.saMarks = some { mark := 0, kcv := r.record.kcv } := by
  rw [State.keyed_sa h]
  exact State.markFor_new _ (by rw [State.loadKey_saMarks]; exact hm)

end

end Sys2Proof.Machine
end

section
/-!
SUPPORT. Keys that vanish from a part with nothing of them under way (11_cipher.md R482, R488, R493 to R495): an SA's, a job slot's, and
the end of an SA that has no message.
-/

namespace Sys2Proof.Machine

-- Proofs in sequence: the stack of every thread that waits counts against the memory limit of the check.
set_option Elab.async false

/-! ### The end of an SA with no message (R146) -/

section
variable {s : State} (htx : s.trn.tx = []) (hh : s.trn.held = []) (hw : s.win.held = []) (n : Nat)

include htx in
theorem State.saFailed_idle : s.saFailed n = s.saEnded n :=
  State.saFailed_none fun m hm => absurd (htx ▸ hm : m ∈ []) List.not_mem_nil

include htx hh hw

theorem State.invalidate_idle : s.invalidate n = s.saCleared n :=
  State.invalidate_quiet (fun m hm => absurd (htx ▸ hm : m ∈ []) List.not_mem_nil)
    (fun m hm => absurd (hh ▸ hm : m ∈ []) List.not_mem_nil) (fun m hm => absurd (hw ▸ hm : m ∈ []) List.not_mem_nil)

theorem State.invalidate_idle_frame : Frame [.trn, .regs, .mac] s (s.invalidate n) := by
  rw [State.invalidate_idle htx hh hw]
  exact (s.saEnded_frame n).trans (State.saFailed_idle htx n ▸ s.saCleared_frame.mono (by decide))

/-- Of the registers the end of an SA changes TRN_STATUS at most. -/
theorem State.word_invalidate_idle {a : Nat} (ha : a ≠ A.TRN_STATUS) : (s.invalidate n).word a = s.word a := by
  rw [State.invalidate_idle htx hh hw, State.word_congr s.saCleared_frame.regs_eq, State.saFailed_idle htx]
  exact (State.word_congr ((State.pullSa_frame _ n).regs_eq) a).trans
    (s.when_same _ _ (·.word a) (State.word_flag_ne _ ha.symm))

theorem State.invalidate_idle_table : (s.invalidate n).trn.sa = (s.saPut n Sa.state Sas.invalid).trn.sa := by
  rw [State.invalidate_idle htx hh hw]
  exact State.saCleared_table fun m hm => absurd (htx ▸ hm : m ∈ []) List.not_mem_nil

theorem State.invalidate_idle_trn : (s.invalidate n).trn.tx = [] ∧ (s.invalidate n).trn.held = [] := by
  obtain ⟨a, trn⟩ := s.saCleared_trn (sa := n)
  rw [State.invalidate_idle htx hh hw, trn, State.saFailed_idle htx, s.saEnded_trn]
  exact ⟨htx, by simp [State.saPut, State.setSa, hh]⟩

theorem State.saState_invalidate_idle : (s.invalidate n).saState n = Sas.invalid :=
  (State.saGet_congr (State.invalidate_idle_table htx hh hw n) n Sa.state).trans (s.saState_saPut_invalid n)

theorem State.sa_invalidate_idle_ne {k : Nat} (h : k ≠ n) : (s.invalidate n).sa k = s.sa k :=
  (State.sa_congr (State.invalidate_idle_table htx hh hw n) k).trans (s.sa_saPut_ne h _ _)

end

/-! ### Keys with nothing under way (R488, R493) -/

section
variable {s : State}

/-- On a part whose ports have no frame the key of an SA goes alone. -/
theorem State.saKeyGone_quiet (h : s.mac.sps = []) (n : Nat) : s.saKeyGone n = s.onCip fun c => { c with sa := Tab.erase n c.sa } := by
  simp [State.saKeyGone, State.stompWire, State.pullSa, State.each, h]

/-- With no job running the key of a job slot goes alone. -/
theorem State.jobKeyGone_quiet (h : s.cip.jobs = []) (k : Nat) :
    s.jobKeyGone k = s.onCip fun c => { c with job := Tab.erase k c.job } := by
  simp [State.jobKeyGone, State.each, h]

end

/-! ### CLEAR (R482, R483) -/

/-- A CLEAR is counted and reported done. -/
def State.clearTold (s : State) : State := (s.bump A.CIP_CLEARS).flag F.CIP_STATUS_CMD_DONE

section
variable {s : State} {kind slot : Nat}

theorem State.clearTold_frame (s : State) : Frame [.regs] s s.clearTold := (s.bump_frame _ _).trans (State.flag_frame _ _)

theorem State.is_clearTold (s : State) : s.clearTold.is F.CIP_STATUS_CMD_DONE = true := State.is_flag _ (by decide) (by decide)

theorem State.cipClear_busy (h : s.cip.install.isSome = true) : s.cipClear kind slot = s.cipErr 0x01 := by
  simp [State.cipClear, h]

theorem State.cipClear_job (h : s.cip.install = none) (hs : slot < 64) (hj : s.cip.jobs = []) :
    s.cipClear 3 slot = (s.onCip fun c => { c with job := Tab.erase slot c.job }).clearTold := by
  simp [State.cipClear, h, keySlots, Nat.not_le.2 hs, State.jobKeyGone_quiet hj, State.clearTold]

theorem State.cipClear_kwk (h : s.cip.install = none) :
    s.cipClear 4 0 = (s.onAttic fun a => { a with kwk := none }).clearTold := by
  simp [State.cipClear, h, keySlots, State.clearTold]

theorem State.cipClear_sa (h : s.cip.install = none) (hs : slot < 8192) (hm : s.mac.sps = []) :
    s.cipClear 1 slot = ((s.onCip fun c => { c with sa := Tab.erase slot c.sa }).invalidate slot).clearTold := by
  simp [State.cipClear, h, keySlots, Nat.not_le.2 hs, State.saKeyGone_quiet hm, State.clearTold]

end

/-! ### ZEROISE (R750) -/

theorem State.zeroise_unconfirmed {s : State} {v : Nat} (h : v ≠ 0xA5) : s.zeroise v = s.cipErr 0x0B := if_neg h

theorem State.zeroise_confirmed (s : State) : s.zeroise 0xA5 = (s.alarm .zeroise).flag F.CIP_STATUS_CMD_DONE := if_pos rfl

end Sys2Proof.Machine
end

section
/-!
SUPPORT. Laws of the cipher pipes and of packet-counter marks (11_cipher.md R455, R456, R463): what a check failure and a retirement
leave of the key store and of its registers.
-/

namespace Sys2Proof.Machine

-- Proofs in sequence: the stack of every thread that waits counts against the memory limit of the check.
set_option Elab.async false

theorem mem_insertNat {a n : Nat} {l : List Nat} : a ∈ insertNat n l ↔ a = n ∨ a ∈ l := by
  induction l with
  | nil => simp [insertNat]
  | cons m l ih =>
    unfold insertNat
    split
    · exact List.mem_cons
    · split
      · next h => simp [h]
      · simp only [List.mem_cons, ih]
        tauto

/-! ### Changes beside the cipher unit -/

/-- A change of the ports, the transport, the drive commands and the Tally, of no register of the cipher unit. -/
structure CipLeft (s t : State) : Prop where
  frame : Frame [.regs, .mac, .trn, .drv, .wdn, .mgt] s t
  word : ∀ a, 0x700000 ≤ a → a < 0x800000 → t.word a = s.word a

section
variable {s t u : State}

theorem CipLeft.refl (s : State) : CipLeft s s := ⟨Frame.refl _ s, fun _ _ _ => rfl⟩

theorem CipLeft.trans (h : CipLeft s t) (h' : CipLeft t u) : CipLeft s u :=
  ⟨h.frame.trans h'.frame, fun a ha hb => (h'.word a ha hb).trans (h.word a ha hb)⟩

theorem CipLeft.of_frame {l : List Blk} (h : Frame l s t) (hl : l ⊆ [.mac, .trn, .drv, .wdn, .mgt] := by decide) : CipLeft s t :=
  ⟨h.mono (List.Subset.trans hl (by decide)), fun a _ _ => State.word_congr (h.regs_eq fun hr => absurd (hl hr) (by decide)) a⟩

theorem CipLeft.each {α : Type} {f : State → α → State} (h : ∀ s a, CipLeft s (f s a)) (l : List α) (s : State) :
    CipLeft s (s.each l f) := by
  induction l generalizing s with
  | nil => exact CipLeft.refl s
  | cons a l ih => exact (h s a).trans (ih (f s a))

theorem CipLeft.flag {f : Fld} (h : f.addr < 0x700000 ∨ 0x800000 ≤ f.addr) (s : State) : CipLeft s (s.flag f) :=
  ⟨(s.flag_frame f).mono (by decide), fun _ _ _ => s.word_flag_ne (by omega)⟩

theorem CipLeft.bump {a : Nat} (h : a + 4 < 0x700000 ∨ 0x800000 ≤ a) (n : Nat) (s : State) : CipLeft s (s.bump a n) :=
  ⟨(s.bump_frame a n).mono (by decide), fun _ _ _ => s.word_bump_ne n (by omega) (by omega)⟩

theorem CipLeft.tallyFlag (s : State) (c : TallyClass) (f : Fld) (i : Nat) (l : List Nat) : CipLeft s (s.tallyFlag c f i l) :=
  ⟨(s.tallyFlag_frame c f i l).mono (by decide), fun _ _ _ => State.word_tallyRaw_below (by omega) s _ _ _ _ _⟩

theorem CipLeft.is (h : CipLeft s t) {f : Fld} (hf : 0x700000 ≤ f.addr := by decide) (hf' : f.addr < 0x800000 := by decide) :
    t.is f = s.is f := State.is_of_word (h.word _ hf hf')

theorem CipLeft.pair (h : CipLeft s t) {a : Nat} (ha : 0x700000 ≤ a := by decide) (ha' : a + 4 < 0x800000 := by decide) :
    t.pair a = s.pair a := State.pair_of_word (h.word a ha (by omega)) (h.word (a + 4) (by omega) ha')

/-- The paths of a sub-port that goes down (Table 04-12). -/
theorem CipLeft.pathsLink_down (s : State) (n : Nat) : CipLeft s (s.pathsLink n false) := by
  refine CipLeft.each (fun s sa => ?_) _ s
  split
  · exact CipLeft.refl s
  · refine CipLeft.each (fun s p => ?_) _ s
    simp only [Bool.false_eq_true, if_false]
    split
    · exact CipLeft.refl s
    · exact (CipLeft.of_frame ((s.setSa_frame _ _).trans (State.setTest_frame _ _ _ _))).trans (CipLeft.flag (.inl (by decide)) _)

theorem CipLeft.portNoPipe (s : State) (n : Nat) : CipLeft s (s.portNoPipe n) := by
  unfold State.portNoPipe
  split
  · exact CipLeft.refl s
  · exact CipLeft.each (fun s p => (CipLeft.of_frame (s.modSp_frame _ _)).trans (CipLeft.pathsLink_down _ p)) _ s

/-- A drive command that is issued again (R570). -/
theorem CipLeft.retryCmd (s : State) (c : DriveCmd) : CipLeft s (s.retryCmd c) := by
  have one (s : State) : CipLeft s (s.issueOne c.bay) := by
    unfold State.issueOne
    split
    · split
      · exact CipLeft.of_frame (s.onDrv_frame _)
      · exact CipLeft.refl s
    · exact CipLeft.refl s
  have counted : 0x800000 ≤ A.DRV_RETRIES c.bay := by
    show 0x800000 ≤ 0xA01010 + 64 * c.bay
    omega
  exact ((CipLeft.of_frame (s.onDrv_frame fun _ => _)).trans (CipLeft.bump (.inr counted) 1 _)).trans
    (CipLeft.each (fun s _ => one s) _ _)

end

/-! ### Check failures (R455, R456) -/

section
variable (s : State) (p what : Nat)

/-- The check failures of the last second, with one now. -/
def State.recentChecks : List (Nat × Nat) := (s.cip.checks.filter fun x => decide (s.now < x.2 + 1000000000)) ++ [(p, s.now)]

/-- A check failure is counted and reported. -/
def State.checkNoted : State :=
  ((s.bump A.CIP_CHECK_FAIL).flag F.CIP_STATUS_CHECK_FAIL).onCip fun c => { c with checks := s.recentChecks p }

theorem State.checkNoted_frame : Frame [.regs, .cip] s (s.checkNoted p) :=
  ((s.bump_frame _ _).trans (State.flag_frame _ _)).append (State.onCip_frame _ _)

theorem State.is_checkNoted : (s.checkNoted p).is F.CIP_STATUS_CHECK_FAIL = true := by
  rw [State.checkNoted, State.is_congr (State.onCip_regs _ _)]
  exact State.is_flag _ (by decide) (by decide)

theorem State.pair_checkNoted : (s.checkNoted p).pair A.CIP_CHECK_FAIL = (s.pair A.CIP_CHECK_FAIL + 1) % 2 ^ 64 := by
  rw [State.checkNoted, State.pair_congr (State.onCip_regs _ _), State.pair_flag_ne (by decide) (by decide), State.pair_bump_self]

/-- The failures of one pipe, with the one now. -/
theorem State.recentChecks_length : ((s.recentChecks p).filter fun x => x.1 == p).length =
    (s.cip.checks.filter fun x => decide (s.now < x.2 + 1000000000) && x.1 == p).length + 1 := by
  simp [State.recentChecks, List.filter_filter, Bool.and_comm]

variable {s p} in
/-- The third check failure of a pipe within 1 s retires it. -/
theorem State.pipeCheck_eq (hp : p < 98) (h : s.attic.pipes.contains p = false) : s.pipeCheck p what =
    if 2 ≤ (s.cip.checks.filter fun x => decide (s.now < x.2 + 1000000000) && x.1 == p).length then
      ((s.checkNoted p).checkFailed p what).pipeRetire p
    else (s.checkNoted p).checkFailed p what := by
  have live : p < 98 ∧ (!s.attic.pipes.contains p) = true := ⟨hp, by rw [h]; rfl⟩
  rw [State.pipeCheck, if_pos live]
  refine if_congr ?_ rfl rfl
  show 3 ≤ ((s.recentChecks p).filter fun x => x.1 == p).length ↔ _
  rw [State.recentChecks_length]
  omega

theorem State.pipeCheck_none (h : 98 ≤ p ∨ s.attic.pipes.contains p = true) : s.pipeCheck p what = s := by
  refine if_neg fun live => ?_
  rcases h with h | h
  · omega
  · exact absurd live.2 (by rw [h]; decide)

/-- A network agent's or a drive agent's check failure is no matter of the cipher unit's own state (Table 11-2). -/
theorem State.checkFailed_left (hp : p < 96) : CipLeft s (s.checkFailed p what) := by
  unfold State.checkFailed
  split
  · split
    · split
      · exact CipLeft.of_frame (s.modSp_frame _ _)
      · split
        · exact CipLeft.of_frame (s.modSp_frame _ _)
        · exact CipLeft.refl s
    · exact CipLeft.refl s
  · split
    · split
      · split
        · exact CipLeft.retryCmd s _
        · exact CipLeft.refl s
      · exact CipLeft.refl s
    · exact CipLeft.refl s

/-- A stripe engine's operation runs again with the same result. -/
theorem State.checkFailed_stripe (h : 80 ≤ p) (hp : p < 96) : s.checkFailed p what = s := by
  rw [State.checkFailed, if_neg (by omega), if_neg (by omega), if_pos hp]

/-- A job whose pipe failed runs again. -/
def State.jobAgain : State :=
  s.with? (Tab.find? what s.cip.jobs) fun s j => s.onCip fun c => { c with jobs := Tab.set what { j with again := true } c.jobs }

theorem State.checkFailed_job (h : 96 ≤ p) : s.checkFailed p what = s.jobAgain what := by
  rw [State.checkFailed, if_neg (by omega), if_neg (by omega), if_neg (by omega)]
  unfold State.jobAgain
  cases Tab.find? what s.cip.jobs <;> rfl

theorem State.jobAgain_frame : Frame [.cip] s (s.jobAgain what) := Frame.with? _ fun _ _ => s.onCip_frame _

theorem State.jobAgain_checks : (s.jobAgain what).cip.checks = s.cip.checks := by
  unfold State.jobAgain
  cases Tab.find? what s.cip.jobs <;> rfl

variable {s what} in
theorem State.find?_jobAgain {j : JobRun} (h : Tab.find? what s.cip.jobs = some j) :
    Tab.find? what (s.jobAgain what).cip.jobs = some { j with again := true } := by
  rw [State.jobAgain, h]
  exact Tab.find?_set_self ..

/-- What a check failure's consequences leave: the failures noted, the pipes, and every register of the cipher unit. -/
theorem State.checkFailed_keeps : (s.checkFailed p what).cip.checks = s.cip.checks ∧ (s.checkFailed p what).attic = s.attic ∧
    (s.checkFailed p what).pending = s.pending ∧
    (s.checkFailed p what).is F.CIP_STATUS_CHECK_FAIL = s.is F.CIP_STATUS_CHECK_FAIL ∧
    (s.checkFailed p what).pair A.CIP_CHECK_FAIL = s.pair A.CIP_CHECK_FAIL := by
  by_cases hp : p < 96
  · have left := s.checkFailed_left p what hp
    exact ⟨congrArg Cip.checks left.frame.cip_eq, left.frame.attic_eq, left.frame.pending_eq, left.is, left.pair⟩
  · rw [State.checkFailed_job _ _ _ (by omega)]
    have again := s.jobAgain_frame what
    exact ⟨s.jobAgain_checks what, again.attic_eq, again.pending_eq, State.is_congr again.regs_eq _,
      State.pair_congr again.regs_eq _⟩

/-! ### Retirement of a pipe (R456) -/

/-- A pipe is retired and this is reported. -/
def State.pipeOut : State :=
  ((s.onAttic fun a => { a with pipes := insertNat p a.pipes }).flag F.CIP_STATUS_PIPE_RETIRED).tallyFlag .hardware
    F.CIP_STATUS_PIPE_RETIRED p [0, 0]

theorem State.pipeOut_frame : Frame [.attic, .regs, .wdn, .mgt] s (s.pipeOut p) :=
  ((s.onAttic_frame _).append (State.flag_frame _ _)).append (State.tallyFlag_frame _ _ _ _ _) |>.mono (by decide)

theorem State.pipeOut_attic : (s.pipeOut p).attic = { s.attic with pipes := insertNat p s.attic.pipes } :=
  (State.tallyFlag_frame _ _ _ _ _).attic_eq

theorem State.is_pipeOut : (s.pipeOut p).is F.CIP_STATUS_PIPE_RETIRED = true :=
  (CipLeft.tallyFlag _ _ _ _ _).is.trans (State.is_flag _ (by decide) (by decide))

theorem State.pipeOut_checkFail : (s.pipeOut p).is F.CIP_STATUS_CHECK_FAIL = s.is F.CIP_STATUS_CHECK_FAIL ∧
    (s.pipeOut p).pair A.CIP_CHECK_FAIL = s.pair A.CIP_CHECK_FAIL :=
  ⟨(CipLeft.tallyFlag _ _ _ _ _).is.trans (State.is_flag_apart _ (.inr (by decide))),
    (CipLeft.tallyFlag _ _ _ _ _).pair.trans (State.pair_flag_ne (by decide) (by decide) _)⟩

section
variable {s p}

theorem State.pipeRetire_none (h : 98 ≤ p ∨ s.attic.pipes.contains p = true) : s.pipeRetire p = s := by
  refine if_neg fun live => ?_
  rcases h with h | h
  · omega
  · exact absurd live.2 (by rw [h]; decide)

/-- A pipe of no network agent retires alone. -/
theorem State.pipeRetire_inner (h : 32 ≤ p) (hp : p < 98) (hs : s.attic.pipes.contains p = false) : s.pipeRetire p = s.pipeOut p := by
  rw [State.pipeRetire, if_pos ⟨hp, by rw [hs]; rfl⟩]
  exact if_neg (by omega)

/-- Beside the pipe itself its retirement changes its port's paths at most (Table 11-2). -/
theorem State.pipeRetire_left (hp : p < 98) (hs : s.attic.pipes.contains p = false) : CipLeft (s.pipeOut p) (s.pipeRetire p) := by
  by_cases h : p < 32
  · rw [State.pipeRetire, if_pos ⟨hp, by rw [hs]; rfl⟩]
    exact (if_pos h).symm ▸ CipLeft.portNoPipe _ _
  · rw [State.pipeRetire_inner (by omega) hp hs]
    exact CipLeft.refl _

end

end

/-- Of the state the pipes that satisfy P are retired, and this is reported. -/
structure PipesOut (s t : State) (P : Nat → Prop) : Prop where
  frame : Frame [.attic, .regs, .wdn, .mgt] s t
  attic : t.attic = { s.attic with pipes := t.attic.pipes }
  pipes : ∀ p, p ∈ t.attic.pipes ↔ p ∈ s.attic.pipes ∨ P p

theorem PipesOut.trans {s t u : State} {P Q : Nat → Prop} (h : PipesOut s t P) (h' : PipesOut t u Q) :
    PipesOut s u fun p => P p ∨ Q p where
  frame := h.frame.trans h'.frame
  attic := by rw [h'.attic, h.attic]
  pipes p := by rw [h'.pipes, h.pipes, or_assoc]

theorem PipesOut.eq {s t : State} {P : Nat → Prop} (h : PipesOut s t P) :
    t = { s with attic := { s.attic with pipes := t.attic.pipes }, regs := t.regs, wdn := t.wdn, mgt := t.mgt } := by
  rw [← h.attic]
  exact h.frame.eq_take

/-- A pipe of no network agent is retired if it exists. -/
theorem State.pipeRetire_out {q : Nat} (h : 32 ≤ q) (s : State) : PipesOut s (s.pipeRetire q) fun p => p = q ∧ q < 98 := by
  by_cases none : 98 ≤ q ∨ s.attic.pipes.contains q = true
  · rw [State.pipeRetire_none none]
    refine ⟨Frame.refl _ s, rfl, fun p => ⟨.inl, fun hp => hp.elim id ?_⟩⟩
    rintro ⟨rfl, hq⟩
    exact List.contains_iff_mem.1 (none.resolve_left (by omega))
  · obtain ⟨hq, live⟩ := not_or.1 none
    rw [State.pipeRetire_inner h (by omega) (by simpa using live)]
    refine ⟨s.pipeOut_frame q, by rw [State.pipeOut_attic], fun p => ?_⟩
    rw [State.pipeOut_attic]
    exact mem_insertNat.trans (or_comm.trans (or_congr_right (by omega)))

/-- The pipes of bits of a word past the network agents' (R456). -/
theorem State.each_pipeRetire {w : Nat} (hw : 1 ≤ w) (l : List Nat) (s : State) :
    PipesOut s (s.each l fun s b => s.pipeRetire (32 * w + b)) fun p => ∃ b ∈ l, p = 32 * w + b ∧ 32 * w + b < 98 := by
  induction l generalizing s with
  | nil => exact ⟨Frame.refl _ s, rfl, fun p => by simp [State.each]⟩
  | cons b l ih =>
    have all := (State.pipeRetire_out (q := 32 * w + b) (by omega) s).trans (ih _)
    exact ⟨all.frame, all.attic, fun p => (all.pipes p).trans (or_congr_right (by simp))⟩

theorem State.pipeWrite_out {w : Nat} (hw : 1 ≤ w) (v : Word) (s : State) :
    PipesOut s (s.pipeWrite w v) fun p => p / 32 = w ∧ p < 98 ∧ bit v (p % 32) = true := by
  have out := s.each_pipeRetire hw ((List.range 32).filter fun b => bit v b)
  refine ⟨out.frame, out.attic, fun p => (out.pipes p).trans (or_congr_right ⟨?_, fun ⟨h1, h2, h3⟩ => ?_⟩)⟩
  · rintro ⟨b, hb, rfl, hp⟩
    obtain ⟨hb, hv⟩ := List.mem_filter.1 hb
    have := List.mem_range.1 hb
    exact ⟨by omega, hp, by rwa [show (32 * w + b) % 32 = b by omega]⟩
  · exact ⟨p % 32, List.mem_filter.2 ⟨List.mem_range.2 (by omega), h3⟩, by omega, by omega⟩

/-! ### Packet-counter marks (R463) -/

/-- An SA's mark is in force. -/
def State.markPut (s : State) (sa m : Nat) : State :=
  (s.onAttic fun a => { a with saMarks := Tab.set sa ⟨m, ((Tab.find? sa a.saMarks).map (·.kcv)).getD 0⟩ a.saMarks }).onCip fun c =>
    { c with marking := Tab.erase sa c.marking }

theorem State.markLanded_quiet {s : State} {sa m : Nat} (hm : Tab.find? sa s.cip.marking = some m)
    (hb : ∀ b ∈ s.trn.blocked, b.sa ≠ sa) : s.markLanded sa = s.markPut sa m := by
  have put : s.markLanded sa = (s.markPut sa m).releaseBlocked sa s.trn.blocked.length := by
    rw [State.markLanded, hm]
    unfold State.markPut
    cases h : Tab.find? sa s.attic.saMarks <;> simp [State.onAttic, h]
  rw [put, State.releaseBlocked_none]
  exact List.any_eq_false.2 fun b h => by simpa using hb b h

theorem State.saMark_markPut_self (s : State) (sa m : Nat) : (s.markPut sa m).saMark sa = m := by
  simp [State.saMark, State.markPut]

theorem State.saMark_markPut_ne (s : State) {sa n : Nat} (h : n ≠ sa) (m : Nat) : (s.markPut sa m).saMark n = s.saMark n := by
  simp [State.saMark, State.markPut, Tab.find?_set_ne (Ne.symm h)]

end Sys2Proof.Machine
end

section
/-!
The statement about the key store, the pipes and the counter marks (11_cipher.md R455, R456, R463, R480 to R483, R750).
-/

namespace Sys2Proof.Machine

-- Proofs in sequence: the stack of every thread that waits counts against the memory limit of the check.
set_option Elab.async false

/-- Settles O34: an INSTALL that fails changes registers alone and one that is done loads one slot, a CLEAR empties one slot, and what a
failing pipe affects beside itself leaves the key store, the check failures and the registers of the cipher unit. -/
theorem keysAndPipes : Obligations.KeysAndPipes := by
  unfold Obligations.KeysAndPipes
  refine ⟨⟨?install, ?done, ?clear, ?zeroise⟩, ?stripe, ?check, ?none, ?write, ?mark⟩
  case install =>
    intro p kind slot s hb hm
    have row {t : State} (h : s.cipInstall kind slot = t) (ht : t.pending = s.pending) : exec (.install p kind slot) s = .next t :=
      State.bus_next hb hm h ht
    refine ⟨fun r h => row (State.cipInstall_ok h) rfl, fun e h he => ?_⟩
    have failed := s.installFailed_frame e
    by_cases h1 : e = 1
    · subst h1
      exact ⟨_, row (State.cipInstall_busy h) failed.pending_eq, failed.eq_regs, s.fld_installFailed he, s.is_installFailed 1,
        s.pair_installFailed 1, fun h => absurd rfl h, fun _ n hn => s.word_installFailed hn 1⟩
    · have cleared := State.clearInstall_frame (s.installFailed e)
      have same {a : Nat} (ha : a < 0x700040 ∨ 0x700090 ≤ a) := State.word_clearInstall_ne (s.installFailed e) ha
      refine ⟨_, row (State.cipInstall_error h h1) (cleared.pending_eq.trans failed.pending_eq), (failed.trans cleared).eq_regs, ?_, ?_, ?_,
        fun _ n hn => State.word_clearInstall _ hn, fun h => absurd h h1⟩
      · rw [State.fld, same (.inl (by decide))]
        exact s.fld_installFailed he
      · exact (State.is_of_word (same (.inl (by decide)))).trans (s.is_installFailed e)
      · exact (State.pair_of_word (same (.inr (by decide))) (same (.inr (by decide)))).trans (s.pair_installFailed e)
  case done =>
    intro r s ha hi h1 h4
    have keyed := s.keyed_frame r
    have told := (s.keyed r).installTold_frame
    have key (k n : Nat) := (State.keyRec_congr (s.keyed r) told.cip_eq (congrArg Attic.kwk told.attic_eq) k n).trans (s.keyRec_keyed r k n)
    refine ⟨_, State.awake_next ha (State.installDone_eq s hi) (told.pending_eq.trans keyed.pending_eq), ?_, ?_, ?_, fun k n hk => ?_,
      fun hk m hm he => ?_, fun hk hm => ?_, fun n hn => State.word_installTold _ hn, State.is_installTold _, ?_⟩
    · exact ((keyed.append told).mono (by decide)).eq_cip_attic_regs
    · exact (congrArg Cip.install told.cip_eq).trans (s.keyed_install r)
    · exact (key _ _).trans (if_pos ⟨rfl, h1, h4, .inr rfl⟩)
    · exact (key k n).trans (if_neg (by omega))
    · exact (congrArg Attic.saMarks told.attic_eq).trans (State.keyed_same hk hm he)
    · rw [told.attic_eq]
      exact State.keyed_new hk hm
    · rw [State.pair_installTold, State.pair_congr keyed.regs_eq]
  case clear =>
    intro p kind slot s hb hm
    have row {t : State} (h : s.cipClear kind slot = t) (ht : t.pending = s.pending) : exec (.cipClear p kind slot) s = .next t :=
      State.bus_next hb hm h ht
    refine ⟨fun hi => ?busy, fun hi hk hs hj => ?job, fun hi hk hs => ?kwk, fun hi hk hs hsp htx hh hw => ?sa⟩
    case busy =>
      exact ⟨_, row (State.cipClear_busy hi) rfl, (s.cipErr_frame 1).eq_regs, s.fld_cipErr (by decide), s.is_cipErr 1⟩
    case job =>
      subst hk
      exact ⟨_, row (State.cipClear_job hi hs hj) rfl, rfl, State.is_clearTold _, rfl⟩
    case kwk =>
      subst hk hs
      exact ⟨_, row (State.cipClear_kwk hi) rfl, rfl, State.is_clearTold _, rfl⟩
    case sa =>
      subst hk
      let u := s.onCip fun c => { c with sa := Tab.erase slot c.sa }
      have ended := State.invalidate_idle_frame (s := u) htx hh hw slot
      have told := (u.invalidate slot).clearTold_frame
      have frame := ended.trans (told.mono (by decide))
      have keys : (u.invalidate slot).clearTold.cip.sa = Tab.erase slot s.cip.sa := congrArg Cip.sa frame.cip_eq
      have table := congrArg Trn.sa told.trn_eq
      refine ⟨_, row (State.cipClear_sa hi hs hsp) frame.pending_eq, ?_, ?_, fun n hn => ⟨?_, ?_⟩, ?_, State.is_clearTold _⟩
      · rw [State.keyRec, keys, Tab.find?_erase_self]
      · exact (State.saGet_congr table slot _).trans (State.saState_invalidate_idle (s := u) htx hh hw slot)
      · rw [State.keyRec, keys, Tab.find?_erase_ne (Ne.symm hn)]
        rfl
      · exact (State.sa_congr table n).trans (State.sa_invalidate_idle_ne (s := u) htx hh hw slot hn)
      · exact congrArg Attic.saMarks frame.attic_eq
  case zeroise =>
    intro p v s hb hm
    refine ⟨fun hv => ?_, fun hv _ => ?_⟩
    · exact ⟨_, State.bus_next hb hm (State.zeroise_unconfirmed hv) rfl, (s.cipErr_frame 0x0B).eq_regs, s.fld_cipErr (by decide),
        s.is_cipErr 0x0B⟩
    · subst hv
      exact (State.bus_row hb hm _).trans (by rw [State.zeroise_confirmed])
  case stripe =>
    intro p what s ha h80 h96 live
    have noted := s.checkNoted_frame p
    have checked := State.pipeCheck_eq what (by omega) live
    rw [State.checkFailed_stripe _ p what h80 h96] at checked
    by_cases third : 2 ≤ (s.cip.checks.filter fun x => decide (s.now < x.2 + 1000000000) && x.1 == p).length
    · rw [if_pos third, State.pipeRetire_inner (s := s.checkNoted p) (by omega) (by omega) live] at checked
      have out := (s.checkNoted p).pipeOut_frame p
      obtain ⟨status, count⟩ := (s.checkNoted p).pipeOut_checkFail p
      exact ⟨_, State.awake_next ha checked (out.pending_eq.trans noted.pending_eq), status.trans (s.is_checkNoted p),
        count.trans (s.pair_checkNoted p), out.cip_eq, fun h => absurd h (by omega),
        fun _ => ⟨(s.checkNoted p).pipeOut_attic p, (s.checkNoted p).is_pipeOut p⟩⟩
    · rw [if_neg third] at checked
      exact ⟨_, State.awake_next ha checked noted.pending_eq, s.is_checkNoted p, s.pair_checkNoted p, rfl, fun _ => rfl,
        fun h => absurd h third⟩
  case check =>
    intro p what s ha h98 live
    have noted := s.checkNoted_frame p
    obtain ⟨checks, attic, pending, status, count⟩ := (s.checkNoted p).checkFailed_keeps p what
    have again (h : 96 ≤ p) {j : JobRun} (hj : Tab.find? what s.cip.jobs = some j) :
        Tab.find? what ((s.checkNoted p).checkFailed p what).cip.jobs = some { j with again := true } := by
      rw [State.checkFailed_job _ p what h]
      exact State.find?_jobAgain hj
    have checked := State.pipeCheck_eq what h98 live
    generalize (s.checkNoted p).checkFailed p what = u at *
    by_cases third : 2 ≤ (s.cip.checks.filter fun x => decide (s.now < x.2 + 1000000000) && x.1 == p).length
    · rw [if_pos third] at checked
      have out := u.pipeOut_frame p
      obtain ⟨status', count'⟩ := u.pipeOut_checkFail p
      have left := State.pipeRetire_left (s := u) h98 (by rw [attic]; exact live)
      have cip := left.frame.cip_eq.trans out.cip_eq
      refine ⟨_, State.awake_next ha checked (left.frame.pending_eq.trans (out.pending_eq.trans (pending.trans noted.pending_eq))), ?_, ?_,
        (congrArg Cip.checks cip).trans checks, fun _ => ?_, fun h j hj => ?_⟩
      · exact left.is.trans (status'.trans (status.trans (s.is_checkNoted p)))
      · exact left.pair.trans (count'.trans (count.trans (s.pair_checkNoted p)))
      · rw [left.frame.attic_eq, u.pipeOut_attic]
        exact mem_insertNat.2 (.inl rfl)
      · rw [cip]
        exact again h hj
    · rw [if_neg third] at checked
      exact ⟨_, State.awake_next ha checked (pending.trans noted.pending_eq), status.trans (s.is_checkNoted p),
        count.trans (s.pair_checkNoted p), checks, fun h => absurd h third, fun h j hj => again h hj⟩
  case none =>
    intro p what s ha h
    exact State.awake_next ha (State.pipeCheck_none s p what h) rfl
  case write =>
    intro q w v s hb hm h1 h4
    have out := s.pipeWrite_out h1 v
    exact ⟨_, State.bus_next hb hm (if_pos h4) out.frame.pending_eq, out.eq, out.pipes⟩
  case mark =>
    intro sa m s ha hm hb
    exact ⟨_, State.awake_next ha (State.markLanded_quiet hm hb) rfl, rfl, s.saMark_markPut_self sa m,
      fun n hn => s.saMark_markPut_ne hn m⟩

end Sys2Proof.Machine
end

section
/-!
SUPPORT. Laws of an alarm (11_cipher.md R487 to R490): what its onset notes, which keys it erases, what becomes of the reads under way,
and the zeroing that follows a Level 2 alarm.
-/

namespace Sys2Proof.Machine

-- Proofs in sequence: the stack of every thread that waits counts against the memory limit of the check.
set_option Elab.async false

/-! ### The zeroing of regions (R489) -/

theorem Tab.find?_filter {α : Type} (q : Nat → Bool) (k : Nat) (t : Tab α) :
    Tab.find? k (t.filter fun c => q c.1) = if q k then Tab.find? k t else none := by
  induction t with
  | nil => simp
  | cons x t ih =>
    obtain ⟨j, v⟩ := x
    by_cases hj : j = k
    · subst hj
      cases h : q j <;> simp [Tab.find?, h, ih]
    · cases h : q j <;> simp [Tab.find?, h, ih, hj]

/-- Of the Hoist's block alone, the Cellar's bytes at the addresses that satisfy P become zero. -/
structure Zeroed (s t : State) (P : Nat → Prop) : Prop where
  frame : Frame [.hst] s t
  zero : ∀ x, P x → Mem.byte 0 t.hst.mem x = 0
  kept : ∀ x, ¬ P x → Mem.byte 0 t.hst.mem x = Mem.byte 0 s.hst.mem x

section
variable {s t u : State} {P Q : Nat → Prop}

theorem Zeroed.trans (h : Zeroed s t P) (h' : Zeroed t u Q) : Zeroed s u fun x => P x ∨ Q x where
  frame := h.frame.trans h'.frame
  zero x hx := by
    by_cases hq : Q x
    · exact h'.zero x hq
    · rw [h'.kept x hq]
      exact h.zero x (hx.resolve_right hq)
  kept x hx := by
    obtain ⟨hp, hq⟩ := not_or.1 hx
    rw [h'.kept x hq, h.kept x hp]

theorem Zeroed.congr (h : Zeroed s t P) (e : ∀ x, P x ↔ Q x) : Zeroed s t Q :=
  ⟨h.frame, fun x hx => h.zero x ((e x).2 hx), fun x hx => h.kept x fun hp => hx ((e x).1 hp)⟩

/-- Steps that each zero the bytes that the registers name. -/
theorem Zeroed.each {α : Type} {f : State → α → State} {R : State → α → Nat → Prop} (h : ∀ s a, Zeroed s (f s a) (R s a))
    (hR : ∀ {s t : State}, t.regs = s.regs → R t = R s) (l : List α) (s : State) :
    Zeroed s (s.each l f) fun x => ∃ a ∈ l, R s a x := by
  induction l generalizing s with
  | nil => exact ⟨Frame.refl _ s, fun x hx => by simp at hx, fun _ _ => rfl⟩
  | cons a l ih =>
    refine ((h s a).trans (ih (f s a))).congr fun x => ?_
    rw [hR (h s a).frame.regs_eq]
    simp

end

/-- A byte of region n, of a kind. -/
def State.inKind (s : State) (kind n x : Nat) : Prop :=
  s.fld (F.HST_REGION_KIND n) = kind ∧ s.fld (F.HST_REGION_BASE n) * 2 ^ 26 ≤ x ∧
    x < s.fld (F.HST_REGION_BASE n) * 2 ^ 26 + s.fld (F.HST_REGION_COUNT n) * 2 ^ 26

theorem State.inKind_congr {s t : State} (h : t.regs = s.regs) : t.inKind = s.inKind := by
  funext kind n x
  simp only [State.inKind, State.fld_congr h]

theorem State.zeroRegion_zeroed (s : State) (kind : Nat) : Zeroed s (s.zeroRegion kind) fun x => ∃ n ∈ List.range 8, s.inKind kind n x := by
  refine Zeroed.each (R := fun s n => s.inKind kind n) (fun s n => ?_) (fun h => by rw [State.inKind_congr h]) _ s
  by_cases hk : s.fld (F.HST_REGION_KIND n) = kind
  · rw [if_pos hk]
    have byte (x : Nat) := Tab.find?_filter (fun x => decide (x < s.fld (F.HST_REGION_BASE n) * 2 ^ 26) ||
      decide (s.fld (F.HST_REGION_BASE n) * 2 ^ 26 + s.fld (F.HST_REGION_COUNT n) * 2 ^ 26 ≤ x)) x s.hst.mem
    refine ⟨s.onHst_frame _, fun x hx => ?_, fun x hx => ?_⟩
    · obtain ⟨-, hlo, hhi⟩ := hx
      exact congrArg (·.getD 0) ((byte x).trans (if_neg (by simp; omega)))
    · have out : x < s.fld (F.HST_REGION_BASE n) * 2 ^ 26 ∨
          s.fld (F.HST_REGION_BASE n) * 2 ^ 26 + s.fld (F.HST_REGION_COUNT n) * 2 ^ 26 ≤ x := by
        by_contra hc
        exact hx ⟨hk, by omega, by omega⟩
      exact congrArg (·.getD 0) ((byte x).trans (if_pos (by simpa using out)))
  · rw [if_neg hk]
    exact ⟨Frame.refl _ s, fun x hx => absurd hx.1 hk, fun _ _ => rfl⟩

theorem State.pantryZeroed_mem (s : State) (code : Nat) : (s.pantryZeroed code).hst.mem = s.hst.mem := by
  unfold State.pantryZeroed
  dsimp only
  split <;> rfl

/-- The regions of R489 and the Pantry's staging partition are zeros. -/
def State.level2Zeroed (s : State) : State := (s.each [1, 2, 4, 5] fun s k => s.zeroRegion k).pantryZeroed 0x08

theorem State.level2Zeroed_zeroed (s : State) :
    Zeroed s s.level2Zeroed fun x => ∃ k ∈ [1, 2, 4, 5], ∃ n ∈ List.range 8, s.inKind k n x := by
  have regions := Zeroed.each (R := fun s k x => ∃ n ∈ List.range 8, s.inKind k n x) State.zeroRegion_zeroed
    (fun h => by rw [State.inKind_congr h]) [1, 2, 4, 5] s
  refine ⟨regions.frame.trans (State.pantryZeroed_frame _ _), fun x hx => ?_, fun x hx => ?_⟩
  all_goals rw [State.level2Zeroed, State.pantryZeroed_mem]
  · exact regions.zero x hx
  · exact regions.kept x hx

theorem State.zeroingDone_due {s : State} (h : s.cip.zeroing = true) (hd : s.dumping = false) :
    s.zeroingDone = s.level2Zeroed.onCip fun c => { c with zeroing := false } := by
  simp [State.zeroingDone, State.level2Zeroed, h, hd]

theorem Frame.eq_cip_hst {s t : State} (h : Frame [.hst, .cip] s t) : t = { s with cip := t.cip, hst := t.hst } := h.eq_take

/-- A change of the Hoist's block and then of the cipher unit's. -/
theorem Frame.hst_onCip {s t : State} (h : Frame [.hst] s t) (f : Cip → Cip) :
    t.onCip f = { s with cip := f s.cip, hst := (t.onCip f).hst } := by
  have cip : (t.onCip f).cip = f s.cip := congrArg f h.cip_eq
  have frame : Frame [.hst, .cip] s (t.onCip f) := h.append (t.onCip_frame f)
  rw [← cip]
  exact frame.eq_cip_hst

end Sys2Proof.Machine
end

section
/-!
SUPPORT. The erasure of every key slot (11_cipher.md R488, R493 to R495) on a part with no message, line, command or job under way: the
tables of keys are empty, and of the work that used them only reads end.
-/

namespace Sys2Proof.Machine

-- Proofs in sequence: the stack of every thread that waits counts against the memory limit of the check.
set_option Elab.async false

/-! ### What a volume's vanished key takes away (R493, Table 11-9) -/

/-- No frame, no message, and no line of the Larder. -/
structure State.Idle (s : State) : Prop where
  sps : s.mac.sps = []
  tx : s.trn.tx = []
  held : s.trn.held = []
  dir : s.rsv.dir = []

/-- A change that takes away work under way and adds none, and leaves the SA table. -/
structure Withdrawn (s t : State) : Prop where
  frame : Frame [.hst, .rsv, .mac, .trn] s t
  table : t.trn.sa = s.trn.sa
  idle : s.Idle → t.Idle

section
variable {s t u : State}

theorem Withdrawn.refl (s : State) : Withdrawn s s := ⟨Frame.refl _ s, rfl, id⟩

theorem Withdrawn.trans (h : Withdrawn s t) (h' : Withdrawn t u) : Withdrawn s u :=
  ⟨h.frame.trans h'.frame, h'.table.trans h.table, fun i => h'.idle (h.idle i)⟩

theorem Withdrawn.each {α : Type} {f : State → α → State} (h : ∀ s a, Withdrawn s (f s a)) (l : List α) (s : State) :
    Withdrawn s (s.each l f) := by
  induction l generalizing s with
  | nil => exact Withdrawn.refl s
  | cons a l ih => exact (h s a).trans (ih (f s a))

theorem Withdrawn.when {f : State → State} (b : Bool) (h : Withdrawn s (f s)) : Withdrawn s (s.when b f) := by
  cases b
  · exact Withdrawn.refl s
  · exact h

theorem Withdrawn.with? {α : Type} {f : State → α → State} (o : Option α) (h : ∀ a, Withdrawn s (f s a)) :
    Withdrawn s (s.with? o f) := by
  cases o with
  | none => exact Withdrawn.refl s
  | some a => exact h a

theorem Withdrawn.closeFlow (s : State) (id : Nat) : Withdrawn s (s.closeFlow id) :=
  ⟨(s.onHst_frame fun _ => _).mono (by decide), rfl, fun i => ⟨i.sps, i.tx, i.held, i.dir⟩⟩

theorem Withdrawn.modPend (s : State) (n : Nat) (f : PendingRead → PendingRead) : Withdrawn s (s.modPend n f) :=
  ⟨(s.onRsv_frame _).mono (by decide), rfl, fun i => ⟨i.sps, i.tx, i.held, i.dir⟩⟩

theorem Withdrawn.modFrame (s : State) (n : Nat) (f : EgFrame → EgFrame) : Withdrawn s (s.modFrame n f) :=
  ⟨(s.onMac_frame fun _ => _).mono (by decide), rfl,
    fun i => ⟨List.map_eq_nil_iff.2 i.sps, i.tx, i.held, i.dir⟩⟩

theorem Withdrawn.cutFails (s : State) (n lba : Nat) : Withdrawn s (s.cutFails n lba) := by
  refine Withdrawn.each (fun s x => ?_) _ s
  dsimp only
  split
  · exact Withdrawn.modFrame s _ _
  · exact (Withdrawn.each (fun s f => Withdrawn.closeFlow s _) _ s).trans (Withdrawn.modFrame _ _ _)

theorem Withdrawn.verdict (s : State) (n p st : Nat) (l r : Bool) : Withdrawn s (s.verdict n p st l r) :=
  (Withdrawn.when _ (Withdrawn.with? _ fun _ => Withdrawn.cutFails s _ _)).trans (Withdrawn.modPend _ _ _)

theorem Withdrawn.readsKeyless (s : State) (v : Nat) : Withdrawn s (s.readsKeyless v) := by
  have flows (l : List Flow) (s : State) : Withdrawn s (s.each l fun s f => s.closeFlow f.id) :=
    Withdrawn.each (fun s f => Withdrawn.closeFlow s f.id) l s
  refine Withdrawn.each (fun s p => ?_) _ s
  exact ((flows _ s).trans (Withdrawn.modPend _ _ _)).trans (Withdrawn.each (fun s q => Withdrawn.verdict s _ q _ _ _) _ _)

/-- Where no port has a frame, the sends of a volume's lines end in the transport and the read service alone. -/
theorem Withdrawn.copiesKeyless {s : State} (h : s.Idle) (v : Nat) : Withdrawn s (s.copiesKeyless v) := by
  unfold State.copiesKeyless
  simp only [State.onRsv_mac, State.onTrn_mac, h.sps, List.filter_nil, List.map_nil, State.each, List.foldl_nil]
  refine ⟨((s.onTrn_frame _).append (State.onRsv_frame _ _)).mono (k := [.hst, .rsv, .mac, .trn]) (by decide), rfl, fun i => ⟨i.sps, ?_, ?_, i.dir⟩⟩
  · exact (congrArg (List.filter _) i.tx).trans rfl
  · exact (congrArg (List.filter _) i.held).trans rfl

end

/-! ### Every key is erased (R488) -/

section
variable {α : Type}

/-- The table without the entries at keys. -/
def Tab.eraseAll (t : Tab α) (l : List Nat) : Tab α := l.foldl (fun t k => Tab.erase k t) t

theorem Tab.keys_eraseAll (l : List Nat) (t : Tab α) (i : Nat) :
    i ∈ (Tab.eraseAll t l).map Prod.fst ↔ i ∉ l ∧ i ∈ t.map Prod.fst := by
  induction l generalizing t with
  | nil => simp [Tab.eraseAll]
  | cons k l ih =>
    rw [show Tab.eraseAll t (k :: l) = Tab.eraseAll (Tab.erase k t) l from rfl, ih, Tab.keys_erase, List.mem_cons]
    tauto

theorem Tab.eraseAll_keys (t : Tab α) : Tab.eraseAll t (t.map (·.1)) = [] := by
  refine (List.map_eq_nil_iff (f := Prod.fst)).1 (List.eq_nil_iff_forall_not_mem.2 fun i hi => ?_)
  obtain ⟨hn, hk⟩ := (Tab.keys_eraseAll _ t i).1 hi
  exact hn hk

end

/-- Idle, with no command, no INIT and no job. -/
structure State.Quiet (s : State) : Prop where
  idle : s.Idle
  slots : s.cq.slots = []
  init : s.vol.init = none
  jobs : s.cip.jobs = []

/-- Keys are erased, and work under way is taken away. -/
structure Erased (s t : State) : Prop where
  frame : Frame [.hst, .rsv, .mac, .trn, .cip] s t
  table : t.trn.sa = s.trn.sa
  cip : t.cip = { s.cip with sa := t.cip.sa, vol := t.cip.vol, job := t.cip.job }
  quiet : s.Quiet → t.Quiet

section
variable {s t u : State}

theorem Erased.trans (h : Erased s t) (h' : Erased t u) : Erased s u :=
  ⟨h.frame.trans h'.frame, h'.table.trans h.table, by rw [h'.cip, h.cip], fun q => h'.quiet (h.quiet q)⟩

theorem Erased.of_cip {f : Cip → Cip} (h : f s.cip = { s.cip with sa := (f s.cip).sa, vol := (f s.cip).vol, job := (f s.cip).job }) :
    Erased s (s.onCip f) where
  frame := (s.onCip_frame f).mono (by decide)
  table := rfl
  cip := h
  quiet q := ⟨⟨q.idle.sps, q.idle.tx, q.idle.held, q.idle.dir⟩, q.slots, q.init, (congrArg Cip.jobs h).trans q.jobs⟩

theorem Withdrawn.erased (h : Withdrawn s t) : Erased s t where
  frame := h.frame.mono (by decide)
  table := h.table
  cip := by rw [h.frame.cip_eq]
  quiet q := ⟨h.idle q.idle, (congrArg Cq.slots h.frame.cq_eq).trans q.slots, (congrArg Vol.init h.frame.vol_eq).trans q.init,
    (congrArg Cip.jobs h.frame.cip_eq).trans q.jobs⟩

/-- On a quiet part the key of a volume takes only reads and copies with it. -/
theorem State.volKeyGone_quiet (q : s.Quiet) (v : Nat) : s.volKeyGone v =
    ((s.onCip fun c => { c with vol := Tab.erase v c.vol }).readsKeyless v).copiesKeyless v := by
  have gone : Erased s (s.onCip fun c => { c with vol := Tab.erase v c.vol }) := Erased.of_cip rfl
  have reads := Withdrawn.readsKeyless (s.onCip fun c => { c with vol := Tab.erase v c.vol }) v
  have dir := ((Withdrawn.copiesKeyless (reads.idle (gone.quiet q).idle) v).idle (reads.idle (gone.quiet q).idle)).dir
  unfold State.volKeyGone
  simp only [State.onCip_cq, State.onCip_vol, q.slots, q.init, List.filter_nil, List.map_nil, State.each, List.foldl_nil]
  unfold State.staleVolume State.staleWhere State.linesWhere
  rw [dir]
  rfl

theorem State.volKeyGone_erased (q : s.Quiet) (v : Nat) :
    Erased s (s.volKeyGone v) ∧ (s.volKeyGone v).cip = { s.cip with vol := Tab.erase v s.cip.vol } := by
  have gone : Erased s (s.onCip fun c => { c with vol := Tab.erase v c.vol }) := Erased.of_cip rfl
  have reads := Withdrawn.readsKeyless (s.onCip fun c => { c with vol := Tab.erase v c.vol }) v
  have cut := reads.trans (Withdrawn.copiesKeyless (reads.idle (gone.quiet q).idle) v)
  rw [State.volKeyGone_quiet q]
  exact ⟨gone.trans cut.erased, cut.frame.cip_eq⟩

theorem State.each_saKeyGone (q : s.Quiet) (l : List Nat) :
    (s.each l fun s n => s.saKeyGone n) = s.onCip fun c => { c with sa := Tab.eraseAll c.sa l } := by
  induction l generalizing s with
  | nil => rfl
  | cons n l ih =>
    have gone : Erased s (s.onCip fun c => { c with sa := Tab.erase n c.sa }) := Erased.of_cip rfl
    show ((s.saKeyGone n).each l fun s n => s.saKeyGone n) = _
    rw [State.saKeyGone_quiet q.idle.sps, ih (gone.quiet q)]
    rfl

theorem State.each_jobKeyGone (q : s.Quiet) (l : List Nat) :
    (s.each l fun s k => s.jobKeyGone k) = s.onCip fun c => { c with job := Tab.eraseAll c.job l } := by
  induction l generalizing s with
  | nil => rfl
  | cons k l ih =>
    have gone : Erased s (s.onCip fun c => { c with job := Tab.erase k c.job }) := Erased.of_cip rfl
    show ((s.jobKeyGone k).each l fun s k => s.jobKeyGone k) = _
    rw [State.jobKeyGone_quiet q.jobs, ih (gone.quiet q)]
    rfl

theorem State.each_volKeyGone (q : s.Quiet) (l : List Nat) : Erased s (s.each l fun s v => s.volKeyGone v) ∧
    (s.each l fun s v => s.volKeyGone v).cip = { s.cip with vol := Tab.eraseAll s.cip.vol l } := by
  induction l generalizing s with
  | nil => exact ⟨(Withdrawn.refl s).erased, rfl⟩
  | cons v l ih =>
    obtain ⟨gone, cip⟩ := State.volKeyGone_erased q v
    obtain ⟨rest, cip'⟩ := ih (gone.quiet q)
    refine ⟨gone.trans rest, ?_⟩
    show ((s.volKeyGone v).each l fun s v => s.volKeyGone v).cip = _
    rw [cip', cip]
    rfl

/-- On a quiet part the erasure of the slots leaves no SA, volume or job key, and nothing else of the cipher unit changed. -/
theorem State.eraseSlots_quiet (q : s.Quiet) :
    Erased s s.eraseSlots ∧ s.eraseSlots.cip = { s.cip with sa := [], vol := [], job := [] } := by
  let a := s.onCip fun c => { c with sa := [] }
  let b := a.each (a.cip.vol.map (·.1)) fun s v => s.volKeyGone v
  let c := b.onCip fun c => { c with job := [] }
  have toA : Erased s a := Erased.of_cip rfl
  obtain ⟨toB, cip⟩ := State.each_volKeyGone (toA.quiet q) (a.cip.vol.map (·.1))
  have toC : Erased b c := Erased.of_cip rfl
  have sas : (s.each (s.cip.sa.map (·.1)) fun s n => s.saKeyGone n) = a :=
    (State.each_saKeyGone q _).trans (by rw [State.onCip, Tab.eraseAll_keys]; rfl)
  have jobs : (b.each (b.cip.job.map (·.1)) fun s k => s.jobKeyGone k) = c :=
    (State.each_jobKeyGone ((toA.trans toB).quiet q) _).trans (by rw [State.onCip, Tab.eraseAll_keys]; rfl)
  have slots : s.eraseSlots = c := by rw [State.eraseSlots, sas, ← jobs]
  rw [Tab.eraseAll_keys] at cip
  rw [slots]
  refine ⟨(toA.trans toB).trans toC, ?_⟩
  show { b.cip with job := [] } = _
  rw [cip]
  rfl

end

end Sys2Proof.Machine
end

section
/-!
SUPPORT. The onset of an alarm (11_cipher.md R487 to R490): its cause, its count and its record, and the end of every SA of a part with no
message under way.
-/

namespace Sys2Proof.Machine

-- Proofs in sequence: the stack of every thread that waits counts against the memory limit of the check.
set_option Elab.async false

/-! ### What an onset notes (R490) -/

section
variable (s : State) (c : AlarmCause)

theorem alarmCode_lt : alarmCode c < 32 := by cases c <;> decide

theorem State.bit_alarmBit {n : Nat} (h : n < 32) : bit ((s.alarmBit n).word A.CIP_ALARM) n = true := by
  rw [State.alarmBit, State.word_setWord_self, bit, putBits_getLsbD, if_pos (by omega)]
  simp [h]

theorem State.installEnds_frame : Frame [.cip, .regs] s s.installEnds :=
  Frame.when _ ((((s.onCip_frame _).append (State.installFailed_frame _ 0x0A)).append (State.clearInstall_frame _)).mono (by decide))

/-- No INSTALL runs any more, and the rest of the cipher unit is as it was. -/
theorem State.installEnds_cip : s.installEnds.cip = { s.cip with install := none } := by
  cases h : s.cip.install with
  | none =>
    have idle : s.installEnds = s := by simp [State.installEnds, State.when, h]
    rw [idle, ← h]
  | some r =>
    have runs : s.installEnds = ((s.onCip fun c => { c with install := none }).installFailed 0x0A).clearInstall := by
      simp [State.installEnds, State.when, State.installFailed, h]
    rw [runs, (State.clearInstall_frame _).cip_eq, (State.installFailed_frame _ _).cip_eq]
    rfl

theorem State.pair_installEnds : s.installEnds.pair A.CIP_ALARMS = s.pair A.CIP_ALARMS := by
  refine State.pair_when ?_
  have failed (a : Nat) (h : a = A.CIP_ALARMS ∨ a = A.CIP_ALARMS + 4) :
      (((s.onCip fun c => { c with install := none }).installFailed 0x0A).clearInstall).word a = s.word a := by
    rw [State.word_clearInstall_ne, State.installFailed, State.word_bump_ne, State.word_cipErr_ne]
    · rfl
    all_goals rcases h with rfl | rfl <;> decide
  exact State.pair_of_word (failed _ (.inl rfl)) (failed _ (.inr rfl))

/-- The cause is shown, counted and recorded, and an INSTALL that runs has ended. -/
def State.alarmNoted : State :=
  ((s.installEnds.alarmBit (alarmCode c)).bump A.CIP_ALARMS).tallySecurity
    (if alarmLevel2 c then F.CIP_ALARM_L2_CAUSE else F.CIP_ALARM_L1_CAUSE)

theorem State.alarmNoted_frame : Frame [.cip, .regs, .wdn, .mgt] s (s.alarmNoted c) :=
  ((s.installEnds_frame.append ((State.setWord_frame _ _ _).trans (State.bump_frame _ _ _))).append
    (State.tallyFlag_frame _ _ _ _ _)).mono (by decide)

theorem State.alarmNoted_cip : (s.alarmNoted c).cip = { s.cip with install := none } :=
  (State.tallyFlag_frame _ _ _ _ _).cip_eq.trans s.installEnds_cip

theorem State.bit_alarmNoted : bit ((s.alarmNoted c).word A.CIP_ALARM) (alarmCode c) = true := by
  rw [State.alarmNoted, State.tallySecurity, (CipLeft.tallyFlag _ _ _ _ _).word _ (by decide) (by decide),
    State.word_bump_ne _ _ (by decide) (by decide)]
  exact State.bit_alarmBit _ (alarmCode_lt c)

theorem State.pair_alarmNoted : (s.alarmNoted c).pair A.CIP_ALARMS = (s.pair A.CIP_ALARMS + 1) % 2 ^ 64 := by
  rw [State.alarmNoted, State.tallySecurity, (CipLeft.tallyFlag _ _ _ _ _).pair, State.pair_bump_self, ← s.pair_installEnds]
  exact congrArg (fun n => (n + 1) % 2 ^ 64) (State.pair_of_word (State.word_setWord_ne _ (by decide) _)
    (State.word_setWord_ne _ (by decide) _))

end

/-! ### Every SA ends (R146, R488) -/

theorem State.each_cons {α : Type} (s : State) (f : State → α → State) (a : α) (l : List α) :
    s.each (a :: l) f = (f s a).each l f := rfl

section
variable {s : State} (htx : s.trn.tx = []) (hh : s.trn.held = []) (hw : s.win.held = [])
include htx hh hw

/-- The ends of SAs with no message change the transport, the ports and TRN_STATUS. -/
theorem State.each_invalidate_frame (l : List Nat) : Frame [.trn, .regs, .mac] s (s.each l fun s n => s.invalidate n) ∧
    ∀ a, a ≠ A.TRN_STATUS → (s.each l fun s n => s.invalidate n).word a = s.word a := by
  induction l generalizing s with
  | nil => exact ⟨Frame.refl _ s, fun _ _ => rfl⟩
  | cons n l ih =>
    obtain ⟨tx, held⟩ := State.invalidate_idle_trn htx hh hw n
    have frame := State.invalidate_idle_frame htx hh hw n
    obtain ⟨rest, word⟩ := ih tx held ((congrArg Win.held frame.win_eq).trans hw)
    rw [State.each_cons]
    exact ⟨frame.trans rest, fun a ha => (word a ha).trans (State.word_invalidate_idle htx hh hw n ha)⟩

/-- An SA that is INVALID, or is among those that end, is INVALID after. -/
theorem State.saState_each_invalidate {l : List Nat} {k : Nat} (h : k ∈ l ∨ s.saState k = Sas.invalid) :
    (s.each l fun s n => s.invalidate n).saState k = Sas.invalid := by
  induction l generalizing s with
  | nil => exact h.resolve_left List.not_mem_nil
  | cons n l ih =>
    obtain ⟨tx, held⟩ := State.invalidate_idle_trn htx hh hw n
    have frame := State.invalidate_idle_frame htx hh hw n
    rw [State.each_cons]
    refine ih tx held ((congrArg Win.held frame.win_eq).trans hw) ?_
    by_cases hk : k = n
    · subst hk
      exact .inr (State.saState_invalidate_idle htx hh hw k)
    · have same : (s.invalidate n).saState k = s.saState k := by
        rw [State.saState, State.saGet, State.sa_invalidate_idle_ne htx hh hw n hk]
        rfl
      exact h.imp (fun h => (List.mem_cons.1 h).resolve_left hk) same.trans

end

/-- The SAs of the table in a state other than INVALID. -/
def State.liveSas (s : State) : List Nat := (s.trn.sa.filter fun x => decide (getPart x.2 Sa.state ≠ 0)).map (·.1)

theorem State.mem_liveSas {s : State} {n : Nat} (h : s.saState n ≠ Sas.invalid) : n ∈ s.liveSas := by
  cases hf : Tab.find? n s.trn.sa with
  | none =>
    have zero : getPart (0 : BitVec 2048) Sa.state = Sas.invalid := by
      simp only [getPart, getBytes, getBits, BitVec.ofNat_eq_ofNat, BitVec.zero_ushiftRight, BitVec.toNat_zero, Nat.zero_mod]
    exact absurd (by simpa [State.saState, State.saGet, State.sa, Tab.getD, hf] using zero) h
  | some e =>
    have live : getPart e Sa.state ≠ 0 := by simpa [State.saState, State.saGet, State.sa, Tab.getD, hf] using h
    exact List.mem_map.2 ⟨(n, e), List.mem_filter.2 ⟨Tab.mem_of_find? hf, by simpa using live⟩, rfl⟩

/-! ### The onset on a part with nothing under way (R488, R490) -/

/-- A Level 2 cause erases the KWK and calls for the zeroing of the regions. -/
def State.kwkErased (s : State) : State :=
  (s.onAttic fun a => { a with kwk := none }).onCip fun c => { c with zeroing := true }

section
variable {s : State}

theorem State.alarm_quiet (q : s.Quiet) (c : AlarmCause) : s.alarm c =
    (((s.alarmNoted c).eraseSlots.each (s.alarmNoted c).eraseSlots.liveSas fun s n => s.invalidate n).when (alarmLevel2 c)
      State.kwkErased).event .alarmErasure := by
  have frame := s.alarmNoted_frame c
  have dir : (s.alarmNoted c).rsv.dir = [] := (congrArg Rsv.dir frame.rsv_eq).trans q.idle.dir
  have slots : (s.alarmNoted c).cq.slots = [] := (congrArg Cq.slots frame.cq_eq).trans q.slots
  have stale : (s.alarmNoted c).staleWhere (fun _ _ => true) = s.alarmNoted c := by
    simp [State.staleWhere, State.linesWhere, State.each, dir]
  have stop : (s.alarmNoted c).alarmStop = s.alarmNoted c := by
    simp [State.alarmStop, State.each, slots]
  have noted : ((s.installEnds.alarmBit (alarmCode c)).bump A.CIP_ALARMS).tallySecurity
      (if alarmLevel2 c then F.CIP_ALARM_L2_CAUSE else F.CIP_ALARM_L1_CAUSE) = s.alarmNoted c := rfl
  unfold State.alarm State.liveSas
  simp only [noted, stale, stop]
  rfl

/-- What an alarm's onset leaves of a part with nothing under way. -/
structure Alarmed (s : State) (c : AlarmCause) (t : State) : Prop where
  frame : Frame [.cip, .regs, .wdn, .mgt, .hst, .rsv, .mac, .trn, .attic] s t
  keys : t.cip.sa = [] ∧ t.cip.vol = [] ∧ t.cip.job = []
  present : t.cip.present = s.cip.present
  install : t.cip.install = none
  cause : bit (t.word A.CIP_ALARM) (alarmCode c) = true
  count : t.pair A.CIP_ALARMS = (s.pair A.CIP_ALARMS + 1) % 2 ^ 64
  told : Event.alarmErasure ∈ t.wdn.events
  invalid : ∀ n, t.saState n = Sas.invalid
  level2 : alarmLevel2 c = true → t.attic.kwk = none ∧ t.cip.zeroing = true
  level1 : alarmLevel2 c = false → t.attic.kwk = s.attic.kwk ∧ t.cip.zeroing = s.cip.zeroing

theorem State.alarm_alarmed (q : s.Quiet) (hw : s.win.held = []) (c : AlarmCause) : Alarmed s c (s.alarm c) := by
  have noted := s.alarmNoted_frame c
  have quiet : (s.alarmNoted c).Quiet := by
    refine ⟨⟨?_, ?_, ?_, ?_⟩, ?_, ?_, ?_⟩
    · rw [noted.mac_eq, q.idle.sps]
    · rw [noted.trn_eq, q.idle.tx]
    · rw [noted.trn_eq, q.idle.held]
    · rw [noted.rsv_eq, q.idle.dir]
    · rw [noted.cq_eq, q.slots]
    · rw [noted.vol_eq, q.init]
    · rw [s.alarmNoted_cip c, q.jobs]
  obtain ⟨erased, cip⟩ := State.eraseSlots_quiet quiet
  have idle := (erased.quiet quiet).idle
  have held : (s.alarmNoted c).eraseSlots.win.held = [] := by rw [erased.frame.win_eq, noted.win_eq, hw]
  obtain ⟨ended, word⟩ := State.each_invalidate_frame idle.tx idle.held held (s.alarmNoted c).eraseSlots.liveSas
  have invalid (n : Nat) := State.saState_each_invalidate idle.tx idle.held held (l := (s.alarmNoted c).eraseSlots.liveSas) (k := n)
    (or_iff_not_imp_right.2 State.mem_liveSas)
  rw [State.alarm_quiet q]
  rw [s.alarmNoted_cip c] at cip
  generalize (s.alarmNoted c).eraseSlots.each (s.alarmNoted c).eraseSlots.liveSas (fun s n => s.invalidate n) = u at *
  have attic : u.attic = s.attic := by rw [ended.attic_eq, erased.frame.attic_eq, noted.attic_eq]
  have cip := ended.cip_eq.trans cip
  have last : Frame [.attic, .cip] u (u.when (alarmLevel2 c) State.kwkErased) :=
    Frame.when _ ((u.onAttic_frame _).append (State.onCip_frame _ _))
  have kept {a : Nat} (ha : a ≠ A.TRN_STATUS) :
      ((u.when (alarmLevel2 c) State.kwkErased).event .alarmErasure).word a = (s.alarmNoted c).word a := by
    rw [State.word_congr (State.event_regs _ _), State.word_congr last.regs_eq, word a ha, State.word_congr erased.frame.regs_eq]
  have fields {α : Type} (p : Cip → α) (hp : ∀ x, p { x with zeroing := true } = p x) :
      p ((u.when (alarmLevel2 c) State.kwkErased).event .alarmErasure).cip = p u.cip :=
    State.when_same u _ _ (fun s => p s.cip) (hp u.cip)
  constructor
  case frame =>
    exact (((noted.append erased.frame).append ended).append (last.append (State.event_frame _ _))).mono (by decide)
  case keys => exact ⟨(fields Cip.sa fun _ => rfl).trans (by rw [cip]), (fields Cip.vol fun _ => rfl).trans (by rw [cip]),
      (fields Cip.job fun _ => rfl).trans (by rw [cip])⟩
  case present => exact (fields Cip.present fun _ => rfl).trans (by rw [cip])
  case install => exact (fields Cip.install fun _ => rfl).trans (by rw [cip])
  case cause =>
    rw [kept (by decide)]
    exact s.bit_alarmNoted c
  case count => exact (State.pair_of_word (kept (by decide)) (kept (by decide))).trans (s.pair_alarmNoted c)
  case told => exact List.mem_append_right _ (List.mem_singleton.2 rfl)
  case invalid => exact fun n => (State.saGet_congr (congrArg Trn.sa last.trn_eq) n _).trans (invalid n)
  case level2 =>
    intro h
    rw [h]
    exact ⟨rfl, rfl⟩
  case level1 =>
    intro h
    rw [h]
    have zeroing : u.cip.zeroing = s.cip.zeroing := by rw [cip]
    exact ⟨congrArg Attic.kwk attic, zeroing⟩

end

end Sys2Proof.Machine
end

section
/-!
The statement about alarms (11_cipher.md R487 to R490).
-/

namespace Sys2Proof.Machine

-- Proofs in sequence: the stack of every thread that waits counts against the memory limit of the check.
set_option Elab.async false

/-- Settles O35: with nothing under way the erasure takes the keys and what reads they served, and every SA ends; a condition still
present sets its bit alone; and the zeroing filters the Cellar by the four kinds of region, each by the registers as they stand. -/
theorem alarms : Obligations.Alarms := by
  unfold Obligations.Alarms
  refine ⟨?onset, ?again, ?zeroing⟩
  case onset =>
    intro c s hb harm hnew hslots htx hheld hcommits hdir hsps hjobs hinit
    let u := s.onCip fun x => { x with present := insertNat (alarmCode c) x.present }
    have quiet : u.Quiet := ⟨⟨hsps, htx, hheld, hdir⟩, hslots, hinit, hjobs⟩
    have onset : s.alarmOnset c = u.alarm c := by
      rw [State.alarmOnset, if_pos harm, if_neg (by rw [hnew]; decide)]
    have alarmed := State.alarm_alarmed quiet hcommits c
    obtain ⟨sa, vol, job⟩ := alarmed.keys
    have row : exec (.alarmOnset c) s = .next (u.alarm c) := State.gate_next hb onset alarmed.frame.pending_eq
    exact ⟨_, row, sa, vol, job, alarmed.present, alarmed.cause, alarmed.count, alarmed.told, alarmed.invalid, alarmed.install,
      alarmed.level2, alarmed.level1⟩
  case again =>
    intro c s hb
    refine ⟨fun harm => ?_, fun harm hp => ?_, State.gate_next hb rfl rfl⟩
    · exact State.gate_next hb (if_neg (by rw [harm]; decide)) rfl
    · exact ⟨_, State.gate_next hb ((if_pos harm).trans (if_pos hp)) rfl, rfl, s.bit_alarmBit (alarmCode_lt c)⟩
  case zeroing =>
    intro s hz hd
    have zeroed := s.level2Zeroed_zeroed
    have frame : Frame [.hst, .cip] s (s.level2Zeroed.onCip fun c => { c with zeroing := false }) :=
      zeroed.frame.append (State.onCip_frame _ _)
    have named (n : Nat) : (∃ k ∈ [1, 2, 4, 5], s.fld (F.HST_REGION_KIND n) = k) ↔
        s.fld (F.HST_REGION_KIND n) = 1 ∨ s.fld (F.HST_REGION_KIND n) = 2 ∨ s.fld (F.HST_REGION_KIND n) = 4 ∨
          s.fld (F.HST_REGION_KIND n) = 5 := by simp
    refine ⟨_, State.row_next (State.zeroingDone_due hz hd) frame.pending_eq, ?_, fun n hn hk x hlo hhi => ?_, fun x hx => ?_⟩
    · exact zeroed.frame.hst_onCip _
    · obtain ⟨k, hmem, hkind⟩ := (named n).2 hk
      exact zeroed.zero x ⟨k, hmem, n, List.mem_range.2 hn, hkind, hlo, hhi⟩
    · refine zeroed.kept x ?_
      rintro ⟨k, hmem, n, hn, hkind, hlo, hhi⟩
      have := hx n (List.mem_range.1 hn) ((named n).1 ⟨k, hmem, hkind⟩)
      omega

end Sys2Proof.Machine
end

section
/-!
SUPPORT. Laws of the Ethernet sub-ports (12_ethernet_ports.md): what a sub-port reads as after a change of it, what a change of
one leaves of
the others, the counters of Table 12-15, and frames that enter and leave its queue.
-/

namespace Sys2Proof.Machine

-- Proofs in sequence: the stack of every thread that waits counts against the memory limit of the check.
set_option Elab.async false

/-! ### Rows gated by a condition of the state -/

/-- A gated row whose effect would change nothing answers the state as it is, whether the gate is open or not. -/
theorem State.gate_same {s : State} {b : State → Bool} {f : State → State} (h : f s = s) : (s.row fun s => s.gate b f) = .next s := by
  refine State.row_next ?_ rfl
  unfold State.gate
  split
  · exact h
  · rfl

variable (s : State)

/-! ### A sub-port and the others -/

@[simp] theorem State.sp_setSp_self (n : Nat) (p : SubPort) : (s.setSp n p).sp n = p := Tab.getD_put_self ..

theorem State.sp_setSp_ne {n k : Nat} (h : k ≠ n) (p : SubPort) : (s.setSp n p).sp k = s.sp k := Tab.getD_put_ne (Ne.symm h) ..

@[simp] theorem State.sp_modSp_self (n : Nat) (f : SubPort → SubPort) : (s.modSp n f).sp n = f (s.sp n) := s.sp_setSp_self n _

theorem State.sp_modSp_ne {n k : Nat} (h : k ≠ n) (f : SubPort → SubPort) : (s.modSp n f).sp k = s.sp k := s.sp_setSp_ne h _

theorem State.sp_congr {s t : State} (h : t.mac = s.mac) (n : Nat) : t.sp n = s.sp n := by rw [State.sp, State.sp, h]

@[simp] theorem State.sp_flag (f : Fld) (n : Nat) : (s.flag f).sp n = s.sp n := rfl

@[simp] theorem State.sp_modQueue_self (n : Nat) (f : SubPort → SubPort) : (s.modQueue n f).sp n = (f (s.sp n)).watch s.now :=
  s.sp_modSp_self n _

theorem State.sp_modQueue_ne {n k : Nat} (h : k ≠ n) (f : SubPort → SubPort) : (s.modQueue n f).sp k = s.sp k := s.sp_modSp_ne h _

theorem State.modQueue_frame (n : Nat) (f : SubPort → SubPort) : Frame [.mac] s (s.modQueue n f) := s.modSp_frame n _

/-- Whether pauses are heard, and how, depends on a sub-port's control word and on the registers. -/
theorem State.pauseMode_congr {s t : State} {n : Nat} (regs : t.regs = s.regs) (ctrl : (t.sp n).ctrl = (s.sp n).ctrl) :
    t.pauseMode n = s.pauseMode n := by
  simp only [State.pauseMode, State.is_congr regs, ctrl]

/-! ### The counters (R8, Table 12-15) -/

section
variable (n : Nat) (c : MacCount) (k : Nat)

theorem State.macCount_frame : Frame [.mac] s (s.macCount n c k) := s.modSp_frame n _

/-- A count changes the counters of its sub-port alone. -/
theorem State.sp_macCount_self : (s.macCount n c k).sp n = { s.sp n with counts := ((s.macCount n c k).sp n).counts } := by
  rw [State.macCount, State.sp_modSp_self]

theorem State.sp_macCount_ne {j : Nat} (h : j ≠ n) : (s.macCount n c k).sp j = s.sp j := s.sp_modSp_ne h _

theorem State.count_macCount_self :
    Tab.getD c.index 0 ((s.macCount n c k).sp n).counts = (Tab.getD c.index 0 (s.sp n).counts + k) % 2 ^ 64 := by
  rw [State.macCount, State.sp_modSp_self]
  exact Tab.getD_put_self ..

theorem State.count_macCount_ne {d : MacCount} (h : c.index ≠ d.index := by decide) :
    Tab.getD d.index 0 ((s.macCount n c k).sp n).counts = Tab.getD d.index 0 (s.sp n).counts := by
  rw [State.macCount, State.sp_modSp_self]
  exact Tab.getD_put_ne h ..

end

/-- A sub-port that differs from another in its counters at most. -/
def SubPort.CountsOnly (p q : SubPort) : Prop := q = { p with counts := q.counts }

theorem SubPort.CountsOnly.trans {p q r : SubPort} (h : p.CountsOnly q) (h' : q.CountsOnly r) : p.CountsOnly r := by
  unfold SubPort.CountsOnly at *
  rw [h', h]

theorem State.countsOnly_macCount (n : Nat) (c : MacCount) (k : Nat) : (s.sp n).CountsOnly ((s.macCount n c k).sp n) :=
  s.sp_macCount_self n c k

/-! ### Frames that are lost (R502, R754, Table 10-4) -/

/-- Packets that could not be kept change the transport, the read service and the registers alone. -/
theorem State.destDropped_lost (l : List EgFrame) : Frame [.trn, .rsv, .regs] s (s.destDropped l) := by
  refine Frame.trans ?_ (Frame.each (fun s (x : Nat × Nat) => s.copyDropped_frame x.1 x.2) _ _)
  exact Frame.ite (Frame.refl _ s) (((s.bump_frame _ _).trans (State.flag_frame _ _)).mono (by decide))

theorem State.dropFrames_frame (n : Nat) (c : MacCount) (sel : EgFrame → Bool) :
    Frame [.mac, .trn, .rsv, .regs] s (s.dropFrames n c sel) :=
  (((s.macCount_frame n c _).trans (State.modQueue_frame _ n _)).append (State.destDropped_lost _ _)).mono (by decide)

/-- The queue keeps the frames that stay, and the watchdogs follow. -/
theorem State.sp_dropFrames_self (n : Nat) (c : MacCount) (sel : EgFrame → Bool) :
    (s.dropFrames n c sel).sp n = SubPort.watch s.now { s.sp n with
      counts := ((s.macCount n c ((s.sp n).queue.filter sel).length).sp n).counts
      queue := (s.sp n).queue.filter fun f => !sel f } := by
  unfold State.dropFrames
  rw [State.sp_congr (State.destDropped_lost _ _).mac_eq, State.sp_modQueue_self, State.sp_macCount_self]
  rfl

theorem State.sp_dropFrames_ne {n j : Nat} (h : j ≠ n) (c : MacCount) (sel : EgFrame → Bool) :
    (s.dropFrames n c sel).sp j = s.sp j := by
  unfold State.dropFrames
  rw [State.sp_congr (State.destDropped_lost _ _).mac_eq, State.sp_modQueue_ne _ h, State.sp_macCount_ne _ _ _ _ h]

/-- The frames taken out are counted. -/
theorem State.count_dropFrames (n : Nat) (c : MacCount) (sel : EgFrame → Bool) :
    Tab.getD c.index 0 ((s.dropFrames n c sel).sp n).counts =
      (Tab.getD c.index 0 (s.sp n).counts + ((s.sp n).queue.filter sel).length) % 2 ^ 64 := by
  rw [State.sp_dropFrames_self]
  exact s.count_macCount_self n c _

theorem State.count_dropFrames_ne (n : Nat) (c : MacCount) {d : MacCount} (sel : EgFrame → Bool)
    (h : c.index ≠ d.index := by decide) :
    Tab.getD d.index 0 ((s.dropFrames n c sel).sp n).counts = Tab.getD d.index 0 (s.sp n).counts := by
  rw [State.sp_dropFrames_self]
  exact s.count_macCount_ne n c _ h

/-! ### MAC control frames (R516, R517) -/

/-- A MAC control frame on a sub-port whose link is up enters its queue. -/
theorem State.sendRaw_control {n : Nat} (h : (s.sp n).link = true) (b : List Byte) :
    ∃ f : EgFrame, f.cls = .control ∧ f.body = .raw b ∧ s.sendRaw n .control 0 b =
      ({ s with mac := { s.mac with nextName := s.mac.nextName + 1 } }).modQueue n fun p => { p with queue := p.queue ++ [f] } := by
  refine ⟨⟨s.mac.nextName, .raw b, .control, 0, false, s.now, b.length + 4, none, false, false, 0, 0⟩, rfl, rfl, ?_⟩
  simp [State.sendRaw, State.enqueue, State.queueFor, h]

end Sys2Proof.Machine
end

section
/-!
The statements about the queue (00_scope.md), and those about which commands stand still while the part is held in reset (R730) and in Doze
and Dormant (R672).
-/

namespace Sys2Proof.Machine

-- Proofs in sequence: the stack of every thread that waits counts against the memory limit of the check.
set_option Elab.async false

/-! ### Every command is a row -/

/-- Every command is a row, so it answers a next state with the queue as it was. -/
theorem exec_answers (c : Instr) (s : State) : ∃ t, exec c s = .next t ∧ t.pending = s.pending := by
  cases c
  all_goals exact ⟨_, rfl, rfl⟩

theorem step_cons (c : Instr) (rest : List Instr) (s : State) :
    step { s with pending := c :: rest } = exec c { s with pending := rest } := rfl

theorem step_of_pending_cons {c : Instr} {rest : List Instr} {s : State} (h : s.pending = c :: rest) :
    step s = exec c { s with pending := rest } := by
  simp only [step, h]

theorem step_of_pending_nil {s : State} (h : s.pending = []) : step s = .next s.idle := by
  simp only [step, h]

/-- Settles O1: the step function's two cases. -/
theorem stepTakesFrontCommand : Obligations.StepTakesFrontCommand := by
  unfold Obligations.StepTakesFrontCommand
  exact ⟨step_cons, fun s h => step_of_pending_nil h⟩

/-- Settles O2: every command is a row, and a row leaves the queue that the step has handed it. -/
theorem everyCommandAnswers : Obligations.EveryCommandAnswers := by
  unfold Obligations.EveryCommandAnswers
  refine ⟨exec_answers, fun s => ?_⟩
  unfold SafeStep
  cases h : s.pending with
  | nil => exact ⟨s.idle, step_of_pending_nil h, h⟩
  | cons c rest =>
    obtain ⟨t, row, same⟩ := exec_answers c { s with pending := rest }
    exact ⟨t, (step_of_pending_cons h).trans row, same⟩

/-! ### Held in reset (R730) -/

/-- A part held in reset whose memories a Level 2 alarm has not yet zeroed. -/
def resetZeroing : State := { State.reset with cip := { State.reset.cip with zeroing := true } }

/-- Refutes O56: a part held in reset on which the zeroing of a Level 2 alarm is still to end (R489) changes with LEVEL2_ZEROING_DONE,
which no phase but a dump holds back and which the statement does not except. -/
theorem not_heldInReset : ¬ Obligations.HeldInReset := by
  unfold Obligations.HeldInReset
  rintro ⟨idle, -⟩
  have row : exec .level2ZeroingDone resetZeroing = .next resetZeroing := idle .level2ZeroingDone resetZeroing rfl
  have same : { resetZeroing.zeroingDone with pending := resetZeroing.pending } = resetZeroing := Host.Outcome.next.inj row
  have ended : resetZeroing.cip.zeroing = false :=
    (congrArg (·.cip.zeroing) same).symm.trans (State.zeroing_zeroingDone (s := resetZeroing) rfl rfl)
  exact absurd ended (by decide)

/-! ### Doze (R672) -/

/-- A part in Doze whose management port is held by a pause whose time is over. -/
def dozePaused : State := { State.reset with
  glb := { State.reset.glb with phase := .running }
  pwr := { State.reset.pwr with cur := .doze }
  mac := { State.reset.mac with sps := [(32, { spDefault with holds := [(8, 0)] })] } }

/-- Refutes O57: in Doze the management port runs on (Table 18-2), so PAUSE_TIMER_EXPIRY ends a hold of it whose time is over, a
command that the statement counts to the data path. -/
theorem not_dataPathSleeps : ¬ Obligations.DataPathSleeps := by
  unfold Obligations.DataPathSleeps
  intro still
  have row : exec (.pauseTimerExpiry 32) dozePaused = .next dozePaused := still (.pauseTimerExpiry 32) dozePaused rfl
  have ended : exec (.pauseTimerExpiry 32) dozePaused = .next (dozePaused.pauseExpiry 32) := State.gate_next rfl rfl rfl
  have same : dozePaused.pauseExpiry 32 = dozePaused := Host.Outcome.next.inj (ended.symm.trans row)
  have emptied : ((dozePaused.pauseExpiry 32).sp 32).holds = [] := by
    rw [State.pauseExpiry, State.sp_modQueue_self]
    rfl
  rw [same] at emptied
  have held : (dozePaused.sp 32).holds = [(8, 0)] := rfl
  exact absurd (held.symm.trans emptied) (by decide)

end Sys2Proof.Machine
end

section
/-!
SUPPORT. Laws of reception, link changes, pauses and the pause watchdog (12_ethernet_ports.md R499 to R519).
-/

namespace Sys2Proof.Machine

-- Proofs in sequence: the stack of every thread that waits counts against the memory limit of the check.
set_option Elab.async false

variable (s : State)

/-! ### Reception (R499, R504, R510) -/

theorem State.asleep_congr {s t : State} (h : t.pwr = s.pwr) : t.asleep = s.asleep := by rw [State.asleep, State.asleep, h]

/-- What a frame's check finds wrong is a wrong FCS or a stomped one. -/
theorem fcsCheck_error {b : Bool} {l : List Byte} {e : MacCount} (h : fcsCheck b l = .error e) : e = .rxFcsErr ∨ e = .rxStomped := by
  unfold fcsCheck at h
  dsimp only at h
  split at h
  · cases h; exact .inl rfl
  · split at h
    · cases h; exact .inr rfl
    · split at h
      · cases h; exact .inl rfl
      · cases h

/-- The codewords of a frame have been counted: what the sub-port shows of it, and the status (R499). -/
structure FecCounted (n c u : Nat) (s t : State) : Prop where
  frame : Frame [.mac, .regs] s t
  counts : (s.sp n).CountsOnly (t.sp n)
  others : ∀ k, k ≠ n → t.sp k = s.sp k
  kept : ∀ d : MacCount, MacCount.fecCorrected.index ≠ d.index → MacCount.fecUncorrected.index ≠ d.index →
    Tab.getD d.index 0 (t.sp n).counts = Tab.getD d.index 0 (s.sp n).counts
  word : ∀ a, a ≠ A.MAC_STATUS → t.word a = s.word a

theorem State.fecCounted (n c u : Nat) : FecCounted n c u s (s.fecCount n c u) := by
  unfold State.fecCount
  split
  · exact ⟨Frame.refl _ s, rfl, fun _ _ => rfl, fun _ _ _ => rfl, fun _ _ => rfl⟩
  · have sps (k : Nat) : ∀ t : State, (t.when (decide (0 < u)) fun s => s.flag F.MAC_STATUS_FEC_UNCORR).sp k = t.sp k :=
      fun t => t.when_same _ _ (·.sp k) rfl
    refine ⟨(((s.macCount_frame n _ c).trans (State.macCount_frame _ n _ u)).append (Frame.when _ (State.flag_frame _ _))).mono
      (by decide), ?_, fun k hk => ?_, fun d hc hu => ?_, fun a ha => ?_⟩
    · rw [sps]
      exact (s.countsOnly_macCount n _ c).trans (State.countsOnly_macCount _ n _ u)
    · rw [sps, State.sp_macCount_ne _ _ _ _ hk, State.sp_macCount_ne _ _ _ _ hk]
    · rw [sps, State.count_macCount_ne _ _ _ _ hu, State.count_macCount_ne _ _ _ _ hc]
    · exact State.when_same _ _ _ (·.word a) (State.word_flag_ne _ (Ne.symm ha))

section
variable {n : Nat} (h : n < 32)
include h

theorem State.fecCount_data (c u : Nat) : s.fecCount n c u = ((s.macCount n .fecCorrected c).macCount n .fecUncorrected u).when
    (decide (0 < u)) fun s => s.flag F.MAC_STATUS_FEC_UNCORR := if_neg (by omega)

theorem State.fecCount_corrected (c u : Nat) : Tab.getD MacCount.fecCorrected.index 0 ((s.fecCount n c u).sp n).counts =
    (Tab.getD MacCount.fecCorrected.index 0 (s.sp n).counts + c) % 2 ^ 64 := by
  rw [s.fecCount_data h]
  refine (State.when_same _ _ _ (fun t => Tab.getD MacCount.fecCorrected.index 0 (t.sp n).counts) rfl).trans ?_
  rw [State.count_macCount_ne _ n .fecUncorrected u, State.count_macCount_self]

theorem State.fecCount_uncorrected (c u : Nat) : Tab.getD MacCount.fecUncorrected.index 0 ((s.fecCount n c u).sp n).counts =
    (Tab.getD MacCount.fecUncorrected.index 0 (s.sp n).counts + u) % 2 ^ 64 := by
  rw [s.fecCount_data h]
  refine (State.when_same _ _ _ (fun t => Tab.getD MacCount.fecUncorrected.index 0 (t.sp n).counts) rfl).trans ?_
  rw [State.count_macCount_self, State.count_macCount_ne _ n .fecCorrected c]

theorem State.fecCount_status (c : Nat) {u : Nat} (hu : 0 < u) : (s.fecCount n c u).is F.MAC_STATUS_FEC_UNCORR = true := by
  rw [s.fecCount_data h, State.when, if_pos (decide_eq_true hu)]
  exact State.is_flag _ (by decide) (by decide)

end

/-- A priority is read from the frame's bytes and the DSCP registers. -/
theorem State.rxPriority_congr {t : State} (h : ∀ i, t.word (A.MAC_DSCP_PRIO i) = s.word (A.MAC_DSCP_PRIO i)) (l : List Byte) :
    t.rxPriority l = s.rxPriority l := by
  simp only [State.rxPriority, State.dscpPrio, h]

/-- A frame that its check finds wrong, or whose fragments are, has been counted. -/
theorem State.frameWrong_counts {n : Nat} (hn : n < 32) (c u : Nat) {e : MacCount}
    (he : e = .rxAssemblyErr ∨ e = .rxFcsErr ∨ e = .rxStomped)
    {t : State} (ht : t = (s.fecCount n c u).macCount n e) :
    t = { s with mac := t.mac, regs := t.regs } ∧ t.sp n = { s.sp n with counts := (t.sp n).counts } ∧
      (∀ k, k ≠ n → t.sp k = s.sp k) ∧ (0 < u → t.is F.MAC_STATUS_FEC_UNCORR = true) ∧
      Tab.getD MacCount.fecCorrected.index 0 (t.sp n).counts =
        (Tab.getD MacCount.fecCorrected.index 0 (s.sp n).counts + c) % 2 ^ 64 ∧
      Tab.getD MacCount.fecUncorrected.index 0 (t.sp n).counts =
        (Tab.getD MacCount.fecUncorrected.index 0 (s.sp n).counts + u) % 2 ^ 64 ∧
      Tab.getD e.index 0 (t.sp n).counts = (Tab.getD e.index 0 (s.sp n).counts + 1) % 2 ^ 64 := by
  have fec := s.fecCounted n c u
  have apart : e.index ≠ MacCount.fecCorrected.index ∧ e.index ≠ MacCount.fecUncorrected.index := by
    rcases he with rfl | rfl | rfl <;> decide
  subst ht
  refine ⟨((fec.frame.append (State.macCount_frame _ n e 1)).mono (k := [.mac, .regs]) (by decide)).eq_take,
    fec.counts.trans (State.countsOnly_macCount _ n e 1), fun k hk => ?_, fun hu => s.fecCount_status hn c hu, ?_, ?_, ?_⟩
  · exact (State.sp_macCount_ne _ _ _ _ hk).trans (fec.others k hk)
  · exact (State.count_macCount_ne _ n e 1 apart.1).trans (s.fecCount_corrected hn c u)
  · exact (State.count_macCount_ne _ n e 1 apart.2).trans (s.fecCount_uncorrected hn c u)
  · exact (State.count_macCount_self _ n e 1).trans (by rw [fec.kept e apart.1.symm apart.2.symm])

/-- A frame whose check passed has been counted, and its priority noted. -/
def State.frameCounted (s : State) (n c u : Nat) (l body : List Byte) : State :=
  (((s.fecCount n c u).macCount n .rxFrames).macCount n .rxBytes l.length).modSp n
    fun p => { p with rxPrio := (s.fecCount n c u).rxPriority body }

section
variable (n c u : Nat) (l body : List Byte)

theorem State.frameCounted_frame : Frame [.mac, .regs] s (s.frameCounted n c u l body) :=
  ((s.fecCounted n c u).frame.append (((State.macCount_frame _ n _ _).trans (State.macCount_frame _ n _ _)).trans
    (State.modSp_frame _ n _))).mono (by decide)

theorem State.sp_frameCounted_self : (s.frameCounted n c u l body).sp n = { s.sp n with
    counts := ((s.frameCounted n c u l body).sp n).counts, rxPrio := s.rxPriority body } := by
  have fec := s.fecCounted n c u
  have prio : (s.fecCount n c u).rxPriority body = s.rxPriority body :=
    s.rxPriority_congr (fun i => fec.word _ (by simp only [A.MAC_DSCP_PRIO, A.MAC_STATUS]; omega)) body
  have counts : (s.sp n).CountsOnly ((((s.fecCount n c u).macCount n .rxFrames).macCount n .rxBytes l.length).sp n) :=
    (fec.counts.trans (State.countsOnly_macCount _ n _ 1)).trans (State.countsOnly_macCount _ n _ l.length)
  rw [State.frameCounted, State.sp_modSp_self, prio, counts]

theorem State.sp_frameCounted_ne {k : Nat} (hk : k ≠ n) : (s.frameCounted n c u l body).sp k = s.sp k := by
  rw [State.frameCounted, State.sp_modSp_ne _ hk, State.sp_macCount_ne _ _ _ _ hk, State.sp_macCount_ne _ _ _ _ hk,
    (s.fecCounted n c u).others k hk]

theorem State.rxFrames_frameCounted : Tab.getD MacCount.rxFrames.index 0 ((s.frameCounted n c u l body).sp n).counts =
    (Tab.getD MacCount.rxFrames.index 0 (s.sp n).counts + 1) % 2 ^ 64 := by
  rw [State.frameCounted, State.sp_modSp_self]
  dsimp only
  rw [State.count_macCount_ne _ n .rxBytes _ (d := .rxFrames), State.count_macCount_self,
    (s.fecCounted n c u).kept .rxFrames (by decide) (by decide)]

theorem State.rxBytes_frameCounted : Tab.getD MacCount.rxBytes.index 0 ((s.frameCounted n c u l body).sp n).counts =
    (Tab.getD MacCount.rxBytes.index 0 (s.sp n).counts + l.length) % 2 ^ 64 := by
  rw [State.frameCounted, State.sp_modSp_self]
  dsimp only
  rw [State.count_macCount_self, State.count_macCount_ne _ n .rxFrames 1 (d := .rxBytes),
      (s.fecCounted n c u).kept .rxBytes (by decide) (by decide)]

end

section
variable {s} {n c u : Nat} {b : Bool} {l : List Byte} (listens : s.listens n = true)
include listens

theorem State.frameReceive_broken : s.frameReceive n c u true l = (s.fecCount n c u).macCount n .rxAssemblyErr := by
  simp [State.frameReceive, listens]

theorem State.frameReceive_error {e : MacCount} (h : fcsCheck (decide (0 < u)) l = .error e) :
    s.frameReceive n c u false l = (s.fecCount n c u).macCount n e := by
  simp [State.frameReceive, listens, h]

/-- A frame whose check passes is handed on, once counted, where the sub-port's receiver is whole. -/
theorem State.frameReceive_ok {body : List Byte} (h : fcsCheck (decide (0 < u)) l = .ok body) (whole : n = 32 ∨ s.asleep = false) :
    s.frameReceive n c u false l = (s.frameCounted n c u l body).frameTaken n
      ((s.frameCounted n c u l body).portKind n ((s.frameCounted n c u l body).frameKind n body)) := by
  have awake : ¬ (n ≠ 32 ∧ (s.frameCounted n c u l body).asleep = true) := by
    rintro ⟨hn, hs⟩
    rw [State.asleep_congr (s.frameCounted_frame n c u l body).pwr_eq, whole.resolve_left hn] at hs
    exact absurd hs (by decide)
  refine (if_neg (by simp [listens])).trans ?_
  rw [h]
  exact if_neg awake

end

/-! ### Pauses received (R516, R518, R519) -/

section
variable {s} {n : Nat} {body : List Byte}

theorem State.pauseOne_frame (s : State) (n k q : Nat) : Frame [.mac] s (s.pauseOne n k q) :=
  Frame.ite (Frame.refl _ s) (s.modQueue_frame n _)

theorem State.sp_pauseOne_ne {j : Nat} (h : j ≠ n) (k q : Nat) : (s.pauseOne n k q).sp j = s.sp j := by
  unfold State.pauseOne
  split
  · rfl
  · exact s.sp_modQueue_ne h _

/-- Whether a pause is heard does not depend on the counters. -/
theorem State.pauseDeaf_congr {t : State} (frame : Frame [.mac] s t) (counts : (s.sp n).CountsOnly (t.sp n)) (k : Nat) :
    t.pauseDeaf n k = s.pauseDeaf n k := by
  have holdOff : (t.sp n).holdOff = (s.sp n).holdOff := by rw [counts]
  have wdog : (t.sp n).wdog = (s.sp n).wdog := by rw [counts]
  have limit : t.wdogTimeout = s.wdogTimeout := by rw [State.wdogTimeout, State.fld_congr frame.regs_eq, State.wdogTimeout]
  rw [State.pauseDeaf, State.pauseDeaf, holdOff, wdog, limit, frame.now_eq]

/-- A pause of the whole port holds it for its quanta, or, with none, lets it go. -/
theorem State.holds_pauseOne (h : s.pauseDeaf n 8 = false) (q : Nat) : ((s.pauseOne n 8 q).sp n).holds =
    if q = 0 then Tab.erase 8 (s.sp n).holds else Tab.set 8 (s.now + s.quantaTime n q) (s.sp n).holds := by
  unfold State.pauseOne
  rw [if_neg (by simp [h]), State.sp_modQueue_self]
  rfl

theorem State.queue_pauseOne (k q : Nat) : ((s.pauseOne n k q).sp n).queue = (s.sp n).queue := by
  unfold State.pauseOne
  split
  · rfl
  · rw [State.sp_modQueue_self]
    rfl

/-- A pause of the whole port, once counted. -/
theorem State.pauseReceived_port (mode : s.pauseMode n = 1) (op : beAt body 0 2 = 1) {v : State} (hv : v = s.macCount n .rxPause) :
    s.pauseReceived n body = (v.when (v.pauseDeaf n 8) fun s => s.macCount n .rxPauseIgnored).pauseOne n 8 (beAt body 2 2) := by
  have ctrl : (v.sp n).ctrl = (s.sp n).ctrl := by rw [hv, State.sp_macCount_self]
  have mode' : v.pauseMode n = 1 := (State.pauseMode_congr (by rw [hv]; rfl) ctrl).trans mode
  subst hv
  simp [State.pauseReceived, mode', op, State.each]

end

section
variable {s} {n : Nat} {body : List Byte} (mode : s.pauseMode n = 1) (op : beAt body 0 2 = 1)
include mode op

/-- A pause changes its sub-port alone, and no frame of its queue. -/
theorem State.pauseReceived_frame : Frame [.mac] s (s.pauseReceived n body) ∧
    (∀ k, k ≠ n → (s.pauseReceived n body).sp k = s.sp k) ∧ ((s.pauseReceived n body).sp n).queue = (s.sp n).queue := by
  rw [State.pauseReceived_port mode op rfl]
  refine ⟨((s.macCount_frame n _ 1).trans (Frame.when _ (State.macCount_frame _ n _ 1))).trans (State.pauseOne_frame _ n 8 _),
    fun k hk => ?_, ?_⟩
  · rw [State.sp_pauseOne_ne hk]
    exact (State.when_same _ _ _ (·.sp k) (State.sp_macCount_ne _ n _ 1 hk)).trans (s.sp_macCount_ne n _ 1 hk)
  · rw [State.queue_pauseOne]
    refine (State.when_same _ _ _ (fun t => (t.sp n).queue) ?_).trans ?_
    · rw [State.sp_macCount_self]
    · rw [State.sp_macCount_self]

/-- A pause that is not heard is counted twice, as received and as ignored. -/
theorem State.pauseReceived_deaf (h : s.pauseDeaf n 8 = true) :
    s.pauseReceived n body = (s.macCount n .rxPause).macCount n .rxPauseIgnored := by
  have once := (State.pauseDeaf_congr (s.macCount_frame n .rxPause 1) (s.countsOnly_macCount n _ 1) 8).trans h
  have twice := (State.pauseDeaf_congr (State.macCount_frame _ n .rxPauseIgnored 1) (State.countsOnly_macCount _ n _ 1) 8).trans once
  rw [State.pauseReceived_port mode op rfl, once, State.when, if_pos rfl, State.pauseOne, if_pos twice]

/-- A pause that is heard holds the port for its quanta, or, with none, lets it go. -/
theorem State.holds_pauseReceived (h : s.pauseDeaf n 8 = false) : ((s.pauseReceived n body).sp n).holds =
    if beAt body 2 2 = 0 then Tab.erase 8 (s.sp n).holds
    else Tab.set 8 (s.now + s.quantaTime n (beAt body 2 2)) (s.sp n).holds := by
  have counted := s.sp_macCount_self n .rxPause 1
  have once := (State.pauseDeaf_congr (s.macCount_frame n .rxPause 1) (s.countsOnly_macCount n _ 1) 8).trans h
  rw [State.pauseReceived_port mode op rfl, once, State.when, if_neg (by decide), State.holds_pauseOne once, counted]
  rfl

end

/-! ### Links (R502) -/

section
variable {s} {n : Nat}

/-- With no SA there is no path to follow a link. -/
theorem State.pathsLink_none (h : s.trn.sa = []) (up : Bool) : s.pathsLink n up = s := by
  simp [State.pathsLink, h, State.each]

theorem State.sa_copyDropped (s : State) (a i : Nat) : (s.copyDropped a i).trn.sa = s.trn.sa :=
  State.when_same _ _ _ (·.trn.sa) rfl

theorem State.sa_destDropped (s : State) (l : List EgFrame) : (s.destDropped l).trn.sa = s.trn.sa := by
  have copies : ∀ (x : List (Nat × Nat)) (t : State), (t.each x fun s x => s.copyDropped x.1 x.2).trn.sa = t.trn.sa := by
    intro x
    induction x with
    | nil => exact fun _ => rfl
    | cons y x ih => exact fun t => (ih _).trans (t.sa_copyDropped y.1 y.2)
  refine (copies _ _).trans ?_
  split
  · rfl
  · rfl

theorem State.sa_dropFrames (s : State) (c : MacCount) (sel : EgFrame → Bool) : (s.dropFrames n c sel).trn.sa = s.trn.sa :=
  State.sa_destDropped _ _

/-- A data sub-port's link goes up, on a part with no SA. -/
theorem State.linkChange_up (h : (s.sp n).link = false) (hn : n ≠ 32) (sa : s.trn.sa = []) : s.linkChange n true =
    (s.modSp n fun p => { p with link := true, fec := true, merge := false }).flag F.MAC_STATUS_LINK_CHANGE := by
  simp only [State.linkChange, h, hn, Bool.false_eq_true, if_false, if_true]
  rw [State.pathsLink_none (by exact sa)]

/-- The sub-port that a link's loss leaves: no frame queued and none on the wire. -/
def State.unlinked (s : State) (n : Nat) : State :=
  ((s.modSp n fun p => { p with link := false, fec := false, merge := false }).dropFrames n .txLinkDrop fun _ => true).modSp n
    fun p => { p with wire := none }

/-- A data sub-port's link goes down, on a part with no SA. -/
theorem State.linkChange_down (h : (s.sp n).link = true) (hn : n ≠ 32) (sa : s.trn.sa = []) :
    s.linkChange n false = (s.unlinked n).flag F.MAC_STATUS_LINK_CHANGE := by
  have none : (s.unlinked n).trn.sa = [] := by
    rw [State.unlinked, (State.modSp_frame _ _ _).trn_eq, State.sa_dropFrames, (State.modSp_frame _ _ _).trn_eq, sa]
  simp only [State.linkChange, h, hn, Bool.false_eq_true, Bool.true_eq_false, if_false]
  rw [← State.unlinked, State.pathsLink_none none]

theorem State.unlinked_frame (s : State) (n : Nat) : Frame [.mac, .trn, .rsv, .regs] s (s.unlinked n) :=
  (((s.modSp_frame n _).append (State.dropFrames_frame _ n _ _)).append (State.modSp_frame _ n _)).mono (by decide)

theorem State.sp_unlinked_ne (s : State) {j : Nat} (h : j ≠ n) : (s.unlinked n).sp j = s.sp j := by
  rw [State.unlinked, State.sp_modSp_ne _ h, State.sp_dropFrames_ne _ h, State.sp_modSp_ne _ h]

theorem State.sp_unlinked_self (s : State) (n : Nat) : ((s.unlinked n).sp n).link = false ∧
    ((s.unlinked n).sp n).energy = (s.sp n).energy ∧ ((s.unlinked n).sp n).queue = [] ∧ ((s.unlinked n).sp n).wire = none := by
  rw [State.unlinked, State.sp_modSp_self, State.sp_dropFrames_self, State.sp_modSp_self]
  exact ⟨rfl, rfl, List.filter_eq_nil_iff.2 (by simp), rfl⟩

theorem State.count_unlinked (s : State) (n : Nat) : Tab.getD MacCount.txLinkDrop.index 0 ((s.unlinked n).sp n).counts =
    (Tab.getD MacCount.txLinkDrop.index 0 (s.sp n).counts + (s.sp n).queue.length) % 2 ^ 64 := by
  rw [State.unlinked, State.sp_modSp_self]
  dsimp only
  rw [State.count_dropFrames, State.sp_modSp_self, List.filter_eq_self.2 (by simp)]

end

/-! ### The pause watchdog (R518) -/

section
variable {s} {n k : Nat}

/-- The state that a watchdog's break leaves before it is told. -/
def State.broken (s : State) (n k : Nat) : State :=
  ((s.dropFrames n .txWdogDrop fun f => decide (f.cls ≠ .control) && (k == 8 || f.prio == k)).macCount n .wdogBreaks).modQueue n
    fun p => { p with holds := Tab.erase k p.holds, holdOff := Tab.set k (s.now + 200000000) p.holdOff }

theorem State.wdogBreak_early {t0 : Nat} (h : Tab.find? k (s.sp n).wdog = some t0) (early : s.now < t0 + s.wdogTimeout) :
    s.wdogBreak n k = s := by
  simp [State.wdogBreak, h, early]

/-- A watchdog of one priority that has reached its limit breaks. -/
theorem State.wdogBreak_due {t0 : Nat} (h : Tab.find? k (s.sp n).wdog = some t0) (due : t0 + s.wdogTimeout ≤ s.now) (hk : k < 8) :
    s.wdogBreak n k = ((s.broken n k).flag F.MAC_STATUS_WDOG_BREAK).tallyTransport F.MAC_STATUS_WDOG_BREAK n 0 k 0 := by
  have now : (s.dropFrames n .txWdogDrop fun f => decide (f.cls ≠ .control) && (k == 8 || f.prio == k)).now = s.now :=
    (s.dropFrames_frame _ _ _).now_eq
  have single : k ≠ 8 := by omega
  simp only [State.wdogBreak, h, if_neg (Nat.not_lt.2 due), if_neg single, State.broken]
  rw [← now]
  rfl

theorem State.broken_frame (s : State) (n k : Nat) : Frame [.mac, .trn, .rsv, .regs] s (s.broken n k) :=
  ((s.dropFrames_frame n _ _).append ((State.macCount_frame _ _ _ _).trans (State.modQueue_frame _ _ _))).mono (by decide)

/-- A break is told by its status and a record, which leave the sub-ports as the break has left them. -/
theorem State.wdogBreak_leaves {t0 : Nat} (h : Tab.find? k (s.sp n).wdog = some t0) (due : t0 + s.wdogTimeout ≤ s.now) (hk : k < 8) :
    (s.wdogBreak n k).pending = s.pending ∧ (∀ j, (s.wdogBreak n k).sp j = (s.broken n k).sp j) ∧
      (s.wdogBreak n k).is F.MAC_STATUS_WDOG_BREAK = true := by
  rw [State.wdogBreak_due h due hk]
  have frame := s.broken_frame n k
  generalize s.broken n k = v at frame
  have told : Frame [.regs, .wdn, .mgt] (v.flag F.MAC_STATUS_WDOG_BREAK)
      ((v.flag F.MAC_STATUS_WDOG_BREAK).tallyTransport F.MAC_STATUS_WDOG_BREAK n 0 k 0) := State.tallyRaw_frame _ _ _ _ _ _
  refine ⟨told.pending_eq.trans frame.pending_eq, fun j => (State.sp_congr told.mac_eq j).trans (v.sp_flag _ j), ?_⟩
  exact (State.is_of_word (State.word_tallyRaw_below (by decide) _ _ _ _ _ _)).trans (State.is_flag _ (by decide) (by decide))

theorem State.sp_broken_ne (s : State) {j : Nat} (h : j ≠ n) : (s.broken n k).sp j = s.sp j := by
  rw [State.broken, State.sp_modQueue_ne _ h, State.sp_macCount_ne _ _ _ _ h, State.sp_dropFrames_ne _ h]

/-- Frames of the priority have left the queue, its hold is over and its hold-off runs. -/
theorem State.sp_broken_self (s : State) (n : Nat) (hk : k < 8) :
    ((s.broken n k).sp n).queue = (s.sp n).queue.filter (fun f => !(decide (f.cls ≠ .control) && f.prio == k)) ∧
    Tab.find? k ((s.broken n k).sp n).holds = none ∧
    Tab.find? k ((s.broken n k).sp n).holdOff = some (s.now + 200000000) := by
  have single : (k == 8) = false := by simp; omega
  rw [State.broken, State.sp_modQueue_self, State.sp_macCount_self, State.sp_dropFrames_self]
  exact ⟨by simp only [SubPort.watch, single, Bool.false_or], Tab.find?_erase_self .., Tab.find?_set_self ..⟩

theorem State.count_broken (s : State) (n k : Nat) : Tab.getD MacCount.wdogBreaks.index 0 ((s.broken n k).sp n).counts =
    (Tab.getD MacCount.wdogBreaks.index 0 (s.sp n).counts + 1) % 2 ^ 64 := by
  rw [State.broken, State.sp_modQueue_self]
  dsimp only [SubPort.watch]
  rw [State.count_macCount_self, State.count_dropFrames_ne s n .txWdogDrop]

end

/-! ### Pauses sent (R517) -/

section
variable {s} {p n : Nat}

/-- The state in which a pause frame of one sub-port has been queued, and what is noted of it. -/
theorem State.sendPause_queued (h : (s.sp n).link = true) (q : Nat) (x : Option Nat) : ∃ f : EgFrame, f.cls = .control ∧
    f.body = .raw (s.pauseFrame n q) ∧ ∀ t, t = (s.sendPause n q).modSp n (fun p => { p with xoff := x }) →
      Frame [.mac] s t ∧ (t.sp n).queue = (s.sp n).queue ++ [f] ∧ (t.sp n).xoff = x ∧ ∀ k, k ≠ n → t.sp k = s.sp k := by
  obtain ⟨f, cls, body, row⟩ := State.sendRaw_control s h (s.pauseFrame n q)
  refine ⟨f, cls, body, ?_⟩
  rintro t rfl
  rw [State.sendPause, row]
  refine ⟨State.onMac_frame s (fun _ => _), ?_, ?_, fun k hk => ?_⟩
  · rw [State.sp_modSp_self, State.sp_modQueue_self]
    rfl
  · rw [State.sp_modSp_self]
  · rw [State.sp_modSp_ne _ hk, State.sp_modQueue_ne _ hk]
    rfl

theorem State.pauseXoff_one (h : s.pausers p = [n]) (off : (s.sp n).xoff = none) : s.pauseXoff p =
    s.when (decide (s.xoffLevel ≤ s.holding p)) fun s => (s.sendPause n s.pauseQuanta).modSp n fun p => { p with xoff := some s.now } := by
  simp [State.pauseXoff, h, State.each, off]

theorem State.pauseXon_one (h : s.pausers p = [n]) (on : (s.sp n).xoff.isSome = true) (level : s.holding p ≤ s.xonLevel) :
    s.pauseXon p = (s.sendPause n 0).modSp n fun p => { p with xoff := none } := by
  simp [State.pauseXon, h, State.each, on, Nat.not_lt.2 level]

end

end Sys2Proof.Machine
end

section
/-!
The statement about frames received, links, preemption, pauses and the watchdog (12_ethernet_ports.md R499 to R519).
-/

namespace Sys2Proof.Machine

-- Proofs in sequence: the stack of every thread that waits counts against the memory limit of the check.
set_option Elab.async false

/-- Settles O37: a frame received is counted by what its check finds and, when right, handed on; a pause counts, and holds or lets go the
whole port; a link's change is the change of its sub-port where no SA stands; and pauses sent and watchdogs change one sub-port each. -/
theorem framesAndPauses : Obligations.FramesAndPauses := by
  unfold Obligations.FramesAndPauses
  refine ⟨⟨fun n c u b l s => ⟨fun deaf => ?deaf, fun listens hb hn wrong => ?wrong, fun listens hb whole hbr body ok => ?right⟩,
    fun n body s mode op => ?pause, fun n up e s hb hn there => ?link, fun n ok s awake hn link mode => ?verify⟩,
    fun p n s awake one link => ?xoff, fun n s runs => ?expiry, fun n s runs => ?holdOff, fun n k t0 s runs hk found => ?watchdog⟩
  case deaf => exact State.gate_same (by simp [State.frameReceive, deaf])
  case wrong =>
    have queue (e : MacCount) : ((s.fecCount n c u).macCount n e).pending = s.pending := (s.fecCounted n c u).frame.pending_eq
    cases b with
    | true =>
      obtain ⟨same, sp, others, status, corrected, uncorrected, assembly⟩ := s.frameWrong_counts hn c u (.inl rfl) rfl
      exact ⟨_, State.gate_next hb (State.frameReceive_broken listens) (queue _), same, sp, others, status, corrected, uncorrected,
        fun _ => assembly, fun _ h => absurd h (by decide)⟩
    | false =>
      obtain ⟨e, he⟩ := wrong.resolve_left (by decide)
      obtain ⟨same, sp, others, status, corrected, uncorrected, told⟩ := s.frameWrong_counts hn c u (.inr (fcsCheck_error he)) rfl
      refine ⟨_, State.gate_next hb (State.frameReceive_error listens he) (queue _), same, sp, others, status, corrected, uncorrected,
        fun h => absurd h (by decide), fun e' _ he' => ?_⟩
      obtain rfl : e = e' := Except.error.inj (he.symm.trans he')
      exact told
  case right =>
    subst hbr
    refine ⟨_, s.frameCounted n c u l body, (State.on_row hb _).trans ?_, (s.frameCounted_frame n c u l body).eq_take,
      s.sp_frameCounted_self n c u l body, fun k hk => s.sp_frameCounted_ne n c u l body hk, s.rxFrames_frameCounted n c u l body,
      s.rxBytes_frameCounted n c u l body, rfl⟩
    rw [State.frameReceive_ok listens ok whole]
  case pause =>
    obtain ⟨frame, others, queue⟩ := State.pauseReceived_frame mode op
    refine ⟨_, rfl, frame.eq_take, others, queue, fun deaf => ?_, fun heard => ?_⟩
    · rw [State.pauseReceived_deaf mode op deaf]
      exact ⟨(s.countsOnly_macCount n _ 1).trans (State.countsOnly_macCount _ n _ 1),
        (State.count_macCount_self _ n _ 1).trans (by rw [State.count_macCount_ne s n .rxPause 1])⟩
    · have holds := State.holds_pauseReceived mode op heard
      refine ⟨fun none => ?_, fun some => ?_⟩
      · rw [holds, if_pos none, Tab.find?_erase_self]
      · rw [holds, if_neg some, Tab.find?_set_self]
  case link =>
    have data : n ≠ 32 := by omega
    let w := s.modSp n fun p => { p with energy := e }
    have sp : w.sp n = { s.sp n with energy := e } := s.sp_modSp_self n _
    have others (k : Nat) (hk : k ≠ n) : w.sp k = s.sp k := s.sp_modSp_ne hk _
    have row {t : State} (h : w.linkChange n (up && s.spEn n) = t) (same : t.pending = s.pending) :
        exec (.linkChange n up e) s = .next t := State.gate_next hb ((if_pos ⟨hn, there⟩).trans h) same
    refine ⟨fun same => ⟨w, row (if_pos ((congrArg SubPort.link sp).trans same)) rfl, rfl, sp, others⟩, fun was now sa => ?_,
      fun was now sa => ?_⟩
    · have down := State.linkChange_down (s := w) ((congrArg SubPort.link sp).trans was) data sa
      obtain ⟨link, energy, queue, wire⟩ := w.sp_unlinked_self n
      refine ⟨_, row ((congrArg (w.linkChange n) now).trans down) ((w.unlinked_frame n).append (State.flag_frame _ _)).pending_eq, ?_⟩
      simp only [State.sp_flag]
      refine ⟨link, energy.trans (congrArg SubPort.energy sp), queue, wire, State.is_flag _ (by decide) (by decide),
        fun k hk => (w.sp_unlinked_ne hk).trans (others k hk), ?_⟩
      rw [w.count_unlinked n, sp]
    · have rises := State.linkChange_up (s := w) ((congrArg SubPort.link sp).trans was) data sa
      have frame : Frame [.mac, .regs] s _ :=
        ((s.modSp_frame n _).trans (w.modSp_frame n fun p => { p with link := true, fec := true, merge := false })).append
          (State.flag_frame _ F.MAC_STATUS_LINK_CHANGE)
      refine ⟨_, row ((congrArg (w.linkChange n) now).trans rises) frame.pending_eq, frame.eq_take, ?_,
          State.is_flag _ (by decide) (by decide), fun k hk => ?_⟩
      · rw [State.sp_flag, State.sp_modSp_self, sp]
      · rw [State.sp_flag, State.sp_modSp_ne _ hk, others k hk]
  case verify =>
    have row {t : State} (h : (s.modSp n fun p => { p with merge := ok }).when (!ok) (fun s => s.flag F.MAC_STATUS_VERIFY_FAIL) = t)
        (same : t.pending = s.pending) : exec (.preemptVerify n ok) s = .next t :=
      State.awake_next awake ((if_pos ⟨hn, link, mode⟩).trans h) same
    have sp := s.sp_modSp_self n fun p => { p with merge := ok }
    have others (k : Nat) (hk : k ≠ n) := s.sp_modSp_ne hk fun p => { p with merge := ok }
    cases ok with
    | true => exact ⟨_, row rfl rfl, rfl, sp, others, fun h => absurd h (by decide), fun _ => rfl⟩
    | false =>
      exact ⟨_, row rfl rfl, rfl, sp, others, fun _ => State.is_flag _ (by decide) (by decide), fun h => absurd h (by decide)⟩
  case xoff =>
    refine ⟨fun off level => ?_, fun off level => ?_, fun level => State.awake_next awake (if_pos level) rfl, fun level on => ?_⟩
    · obtain ⟨f, cls, body, sent⟩ := State.sendPause_queued link s.pauseQuanta (some s.now)
      obtain ⟨frame, queue, xoff, others⟩ := sent _ rfl
      refine ⟨_, f, State.awake_next awake ((State.pauseXoff_one one off).trans ?_) frame.pending_eq, frame.eq_take, queue, cls, body,
        xoff, others⟩
      rw [decide_eq_true level]
      rfl
    · refine State.awake_next awake ((State.pauseXoff_one one off).trans ?_) rfl
      rw [decide_eq_false (Nat.not_le.2 level)]
      rfl
    · obtain ⟨f, cls, body, sent⟩ := State.sendPause_queued link 0 none
      obtain ⟨frame, queue, xoff, others⟩ := sent _ rfl
      exact ⟨_, f, State.awake_next awake (State.pauseXon_one one on level) frame.pending_eq, frame.eq_take, queue, cls, body, xoff,
        others⟩
  case expiry =>
    refine ⟨_, State.gate_next runs rfl rfl, rfl, ?_, ?_, fun k hk => s.sp_modQueue_ne hk _⟩
    · rw [State.pauseExpiry, State.sp_modQueue_self]
      rfl
    · rw [State.pauseExpiry, State.sp_modQueue_self]
      rfl
  case holdOff => exact ⟨_, State.gate_next runs rfl rfl, rfl, s.sp_modSp_self n _, fun k hk => s.sp_modSp_ne hk _⟩
  case watchdog =>
    refine ⟨fun early => State.gate_same (State.wdogBreak_early found early), fun due => ?_⟩
    obtain ⟨queue, holds, holdOff⟩ := s.sp_broken_self n hk
    obtain ⟨same, sp, told⟩ := State.wdogBreak_leaves found due hk
    refine ⟨_, State.gate_next runs rfl same, ?_⟩
    rw [sp]
    exact ⟨queue, holds, holdOff, s.count_broken n k, told, fun j hj => (sp j).trans (s.sp_broken_ne hj)⟩

end Sys2Proof.Machine
end

section
/-!
The statement about frames sent, counters, MDIO cycles and histograms (12_ethernet_ports.md R510, R522, R528, 13_traffic_control.md R544,
R548).
-/

namespace Sys2Proof.Machine

-- Proofs in sequence: the stack of every thread that waits counts against the memory limit of the check.
set_option Elab.async false

/-! ### A frame that leaves whole (R510) -/

section
variable (s : State) (n : Nat) (f : EgFrame)

/-- A frame that no pending read's verdict fails and that is not to be stomped leaves with its own bytes. -/
theorem State.frameEnds_raw {b : List Byte} (cut : f.cut = none) (stomp : f.stomp = false) (body : f.body = .raw b) :
    s.frameEnds n f = s.frameOut n f false b := by
  have late : s.cutFailing f = false := by rw [State.cutFailing, cut]; rfl
  simp [State.frameEnds, late, stomp, State.when, State.frameSend, body]

/-- A frame that leaves is no preemption. -/
theorem State.txPreemptions_frameOut (l : List Byte) : Tab.getD MacCount.txPreemptions.index 0 ((s.frameOut n f false l).sp n).counts =
    Tab.getD MacCount.txPreemptions.index 0 (s.sp n).counts := by
  have counted (t : State) (b : Bool) (c : MacCount) (k : Nat) (h : c.index ≠ MacCount.txPreemptions.index) :
      Tab.getD MacCount.txPreemptions.index 0 ((t.when b fun s => s.macCount n c k).sp n).counts =
        Tab.getD MacCount.txPreemptions.index 0 (t.sp n).counts :=
    t.when_same b _ (fun s => Tab.getD MacCount.txPreemptions.index 0 (s.sp n).counts) (t.count_macCount_ne n c k h)
  unfold State.frameOut
  rw [State.sp_modSp_self]
  dsimp only
  rw [counted _ _ .txStomped 1 (by decide), counted _ _ .txPause 1 (by decide), counted _ _ .txExpress 1 (by decide),
    State.count_macCount_ne _ n .txBytes _ (d := .txPreemptions), State.count_macCount_ne _ n .txFrames _ (d := .txPreemptions)]

end

/-! ### A frame interrupted again -/

/-- A frame on the wire that has been interrupted before and can be again. -/
def partedFrame : EgFrame := ⟨0, .raw [], .group, 0, false, 0, 256, none, false, true, 128, 0⟩

/-- A MAC control frame that waits for the wire. -/
def controlFrame : EgFrame := ⟨1, .raw [], .control, 0, false, 0, 64, none, false, false, 0, 0⟩

/-- A running part whose sub-port 0 has the interrupted frame on the wire and the control frame queued, and a count of preemptions past 64
bits. -/
def partedPort : State := { State.reset with
  glb := { State.reset.glb with phase := .running }
  mac := { State.reset.mac with sps := [(0, { spDefault with
    ctrl := 0x25, link := true, merge := true, queue := [controlFrame], wire := some partedFrame
    counts := [(MacCount.txPreemptions.index, 2 ^ 64)] })] } }

/-- The part as the control frame interrupts once more, before that frame leaves. -/
def partedAgain : State := partedPort.modQueue 0 fun p => { p with
  queue := p.queue.filter fun x => x.name != controlFrame.name
  wire := some { partedFrame with parted := true, brk := partedFrame.sent } }

theorem count_partedAgain : Tab.getD MacCount.txPreemptions.index 0 (partedAgain.sp 0).counts = 2 ^ 64 := by
  rw [partedAgain, State.sp_modQueue_self]
  rfl

/-- The control frame takes the wire, and the interrupted frame, as one that has been interrupted before, is not counted. -/
theorem partedPort_transmits : exec (.frameTransmit ⟨0, none⟩) partedPort =
    .next { partedAgain.frameEnds 0 controlFrame with pending := partedPort.pending } := by
  have sends : partedPort.canSend 0 = true := by decide
  have wire : (partedPort.sp 0).wire = some partedFrame := rfl
  have whole : (partedFrame.stomp && decide (0 < partedFrame.sent)) = false := rfl
  have again : partedPort.interrupter 0 partedFrame = some controlFrame := by decide
  have interrupts : partedPort.frameTransmit 0 none = partedPort.interrupt 0 partedFrame controlFrame := by
    simp only [State.frameTransmit, sends, wire, whole, again, if_true, Bool.false_eq_true, if_false]
  refine (State.up_row rfl _).trans ?_
  rw [interrupts]
  rfl

/-- Refutes O38 by its clause on an interruption: the frame of a second interruption is not counted again (R510), so the count of
preemptions stays as it is, where the statement brings it below 2^64. The two differ for a count that is not, and nothing in the statement
keeps a sub-port's counters to 64 bits. -/
theorem not_sendingAndCounters : ¬ Obligations.SendingAndCounters := by
  unfold Obligations.SendingAndCounters
  rintro ⟨transmit, -⟩
  obtain ⟨-, -, -, -, interrupts, -⟩ := transmit 0 none partedPort rfl
  obtain ⟨t, u, row, -, -, -, counted, -, rfl⟩ :=
    interrupts partedFrame controlFrame (by decide) rfl (.inl rfl) (by decide)
  have mac : (partedAgain.frameEnds 0 controlFrame).mac = (u.frameEnds 0 controlFrame).mac := by
    simpa only using congrArg State.mac (Host.Outcome.next.inj (partedPort_transmits.symm.trans row))
  have stays : Tab.getD MacCount.txPreemptions.index 0 (partedAgain.sp 0).counts =
      Tab.getD MacCount.txPreemptions.index 0 (u.sp 0).counts := by
    rw [← State.txPreemptions_frameOut partedAgain 0 controlFrame [], ← State.txPreemptions_frameOut u 0 controlFrame [],
      ← State.frameEnds_raw partedAgain 0 controlFrame rfl rfl rfl, ← State.frameEnds_raw u 0 controlFrame rfl rfl rfl,
      State.sp_congr mac]
  rw [count_partedAgain, counted] at stays
  have past (x : Nat) : 2 ^ 64 ≠ x % 2 ^ 64 := by omega
  exact past _ stays

end Sys2Proof.Machine
end

section
/-!
SUPPORT. Laws of the drive ports (14_drive_ports.md): a port after a move of it and the others, what an issue of commands, a bay's power and
the loss of a port leave alone, and what READY learns of a drive.
-/

namespace Sys2Proof.Machine

-- Proofs in sequence: the stack of every thread that waits counts against the memory limit of the check.
set_option Elab.async false

/-- In Doze and Dormant the paths reach the blocks 0, 12, 14 and 15 alone. -/
theorem State.asleep_of_modeLets {s : State} {p : Path} {a : Nat} (h : s.modeLets p a = true)
    (ha : (a / 0x100000 == 0 || a / 0x100000 == 12 || a / 0x100000 == 14 || a / 0x100000 == 15) = false) : s.asleep = false := by
  simp only [Bool.or_eq_false_iff] at ha
  obtain ⟨⟨⟨h0, h12⟩, h14⟩, h15⟩ := ha
  unfold State.asleep
  cases mode : s.pwr.cur with
  | doze =>
    simp only [State.modeLets, mode, h0, h12, h14, h15, Bool.or_self] at h
    exact absurd h Bool.false_ne_true
  | dormant =>
    simp only [State.modeLets, mode, h0, h14, Bool.or_self, Bool.false_and] at h
    exact absurd h Bool.false_ne_true
  | _ => rfl

variable (s : State)

/-! ### Periodic rows -/

/-- A periodic row has served a time. -/
def State.serve (row t : Nat) : State := { s with served := Tab.set row t s.served }

theorem State.serve_frame (row t : Nat) : Frame [.served] s (s.serve row t) := by
  intro b hb
  cases b with
  | served => exact absurd (by decide) hb
  | _ => rfl

/-- A periodic row that is due acts on the state that has noted its time. -/
theorem State.every_serve {s : State} {row period : Nat} (h : Tab.getD row 0 s.served < s.now / period * period)
    (f : State → State) : s.every row period f = f (s.serve row (s.now / period * period)) := State.every_due h f

/-! ### A port and the others -/

/-- The last entry set at a key stands. -/
theorem Tab.set_set {α : Type} (k : Nat) (v w : α) (t : Tab α) : Tab.set k v (Tab.set k w t) = Tab.set k v t := by
  induction t with
  | nil => simp [Tab.set]
  | cons x t ih =>
    obtain ⟨j, u⟩ := x
    simp only [Tab.set]
    split
    · simp [Tab.set]
    · split
      · simp [Tab.set]
      · next lt ne => simp [Tab.set, lt, ne, ih]

@[simp] theorem State.port_modPort_self (n : Nat) (f : Port → Port) : (s.modPort n f).port n = f (s.port n) := Tab.getD_set_self ..

theorem State.modPort_modPort (n : Nat) (f g : Port → Port) : (s.modPort n f).modPort n g = s.modPort n fun p => g (f p) := by
  rw [State.modPort, State.port_modPort_self]
  exact congrArg (fun x => ({ s with drv := { s.drv with ports := x } } : State)) (Tab.set_set n _ _ _)


theorem State.port_modPort_ne {n k : Nat} (h : k ≠ n) (f : Port → Port) : (s.modPort n f).port k = s.port k :=
  Tab.getD_set_ne (Ne.symm h) ..

theorem State.port_congr {s t : State} (h : t.drv = s.drv) (n : Nat) : t.port n = s.port n := by rw [State.port, State.port, h]

@[simp] theorem State.port_flag (f : Fld) (k : Nat) : (s.flag f).port k = s.port k := rfl

@[simp] theorem State.port_event (e : Event) (k : Nat) : (s.event e).port k = s.port k := rfl

@[simp] theorem State.port_bump (a i k : Nat) : (s.bump a i).port k = s.port k := rfl

theorem State.modPort_frame (n : Nat) (f : Port → Port) : Frame [.drv] s (s.modPort n f) := s.onDrv_frame _

@[simp] theorem State.port_portTo_self (n : Nat) (st : PortState) (f : Port → Port) :
    (s.portTo n st f).port n = (f { s.port n with state := st, since := s.now }).clock := s.port_modPort_self n _

theorem State.port_portTo_ne {n k : Nat} (h : k ≠ n) (st : PortState) (f : Port → Port) :
    (s.portTo n st f).port k = s.port k := s.port_modPort_ne h _

theorem State.portTo_frame (n : Nat) (st : PortState) (f : Port → Port) : Frame [.drv] s (s.portTo n st f) := s.modPort_frame n _

/-- What changes ports alone. -/
theorem Frame.eq_ports {s t : State} (h : Frame [.drv] s t) (ports : t.drv = { s.drv with ports := t.drv.ports }) :
    t = { s with drv := { s.drv with ports := t.drv.ports } } := by
  rw [← ports]
  exact h.eq_take

/-- The choice of REFCLK changes REFCLK alone (R557). -/
theorem Port.clock_eq (p : Port) : p.clock = { p with refclk := p.clock.refclk } := rfl

/-- A count moves the low word of its pair on. -/
theorem State.word_bump_low (a : Nat) : (s.bump a).word a = s.word a + 1 := by
  rw [State.bump, State.word_setPair_low]
  apply BitVec.eq_of_toNat_eq
  rw [BitVec.toNat_ofNat, BitVec.toNat_add, State.pair]
  show _ = (_ + 1) % 2 ^ 32
  omega

/-! ### PRESENT ports and power (Table 14-3) -/

theorem State.portPower_dark {n : Nat} (h : s.bayPowered n = false) : s.portPower n = s := if_neg (by simp [h])

/-- A PRESENT port of a powered bay goes to RESET while ports run. -/
theorem State.portPower_reset {n : Nat} (hn : n < 24) (present : (s.port n).state = .present) (on : s.is F.DRV_CTRL_EN = true)
    (powered : s.bayPowered n = true) (asleep : s.asleep = false) :
    s.portPower n = s.portTo n .reset fun p => { p with perst := true, started := false } :=
  if_pos ⟨hn, present, on, powered, by simp [asleep]⟩

theorem State.port_portPower_ne {n k : Nat} (h : k ≠ n) : (s.portPower n).port k = s.port k := by
  unfold State.portPower
  split
  · exact s.port_portTo_ne h _ _
  · rfl

theorem State.drv_portPower (n : Nat) : (s.portPower n).drv = { s.drv with ports := (s.portPower n).drv.ports } := by
  unfold State.portPower
  split <;> rfl

/-- What becomes of a port that is PRESENT: it stays so in a dark bay, and goes to RESET, PERST# asserted, in a powered one. -/
theorem State.state_portPower {n : Nat} (hn : n < 24) (present : (s.port n).state = .present) (asleep : s.asleep = false) :
    (s.bayPowered n = false → ((s.portPower n).port n).state = .present) ∧
    (s.bayPowered n = true → s.is F.DRV_CTRL_EN = true →
      ((s.portPower n).port n).state = .reset ∧ ((s.portPower n).port n).perst = true) := by
  refine ⟨fun dark => ?_, fun powered on => ?_⟩
  · rw [s.portPower_dark dark, present]
  · rw [s.portPower_reset hn present on powered asleep, State.port_portTo_self]
    exact ⟨rfl, rfl⟩

theorem State.presence_portPower (n : Nat) : ((s.portPower n).port n).presence = (s.port n).presence ∧
    ((s.port n).perst = true → ((s.portPower n).port n).perst = true) := by
  unfold State.portPower
  split
  · rw [State.port_portTo_self]
    exact ⟨rfl, fun _ => rfl⟩
  · exact ⟨rfl, id⟩

/-! ### Commands of a port (R563, R568, R569) -/

section
variable (b : Nat)

theorem State.issueOne_cmds : s.issueOne b = s.onDrv fun d => { d with cmds := (s.issueOne b).drv.cmds } := by
  unfold State.issueOne
  split
  · split <;> rfl
  · rfl

theorem State.ports_issueOne : (s.issueOne b).drv.ports = s.drv.ports := by rw [State.issueOne_cmds]; rfl

theorem State.issueOne_frame : Frame [.drv] s (s.issueOne b) := by
  rw [State.issueOne_cmds]
  exact s.onDrv_frame _

theorem State.issueAll_frame : Frame [.drv] s (s.issueAll b) := Frame.each (fun s _ => s.issueOne_frame b) _ s

theorem State.ports_issueAll : (s.issueAll b).drv.ports = s.drv.ports :=
  State.each_same _ _ _ (·.drv.ports) fun s _ _ => s.ports_issueOne b

@[simp] theorem State.port_issueAll (n : Nat) : (s.issueAll b).port n = s.port n := by
  rw [State.port, State.port, State.ports_issueAll]

theorem State.holdCmds_frame : Frame [.drv] s (s.holdCmds b) := s.onDrv_frame _

theorem State.memberAt_congr {s t : State} (h : t.vol = s.vol) : t.memberAt b = s.memberAt b := by
  have grp : t.grp = s.grp := by
    funext g
    rw [State.grp, State.grp, h]
  have on : t.grpOn = s.grpOn := by
    funext g
    rw [State.grpOn, State.grpOn, grp]
  have bay : t.bayOfMember = s.bayOfMember := by
    funext g m
    rw [State.bayOfMember, State.bayOfMember, grp]
  rw [State.memberAt, State.memberAt, on, bay, grp]

/-- A port without a reservation command, whose bay no member has, ends by losing its commands. -/
theorem State.portEnd_plain {n code st : Nat} (idle : (s.port n).resvCmd = none) (free : s.memberAt n = none) :
    s.portEnd n code st = s.onDrv fun d => { d with cmds := d.cmds.filter fun c => c.bay != n } := by
  unfold State.portEnd State.bayDown State.when
  simp only [idle, free, Option.isSome_none, Bool.false_eq_true, if_false]

end

/-- A port lost that has no reservation command, and whose bay no member has. -/
theorem State.portLose_plain {n code : Nat} (idle : (s.port n).resvCmd = none) (free : s.memberAt n = none) :
    s.portLose n code = ((s.portTo n .lost fun p => { p with retrainFrom := none }).flag F.DRV_STATUS_LOST).onDrv
      fun d => { d with cmds := d.cmds.filter fun c => c.bay != n } := by
  refine State.portEnd_plain _ ?_ ?_
  · show ((s.portTo n .lost fun p => { p with retrainFrom := none }).port n).resvCmd = none
    rw [State.port_portTo_self]
    exact idle
  · exact free

/-! ### A bay's power at a removal (R588) -/

theorem State.bayOff_frame (n : Nat) : Frame [.bay, .regs] s (s.bayOff n) :=
  (s.disableSub_frame n 0).trans (State.disableSub_frame _ n 1)

theorem State.is_bayOff_apart {f : Fld} (h : F.BAY_STATUS_PG_CHANGE.apart f) (h' : f.addr < 0xB00100) (n : Nat) :
    (s.bayOff n).is f = s.is f := by
  simp only [State.is, State.bayOff, State.fld_disableSub_apart h h']

/-- Both enables of a bay removed are 0. -/
theorem State.is_bayOff {n : Nat} (hn : n < 24) :
    (s.bayOff n).is (F.BAY_EN_MAIN_EN n) = false ∧ (s.bayOff n).is (F.BAY_EN_AUX_EN n) = false := by
  have subs : subExists n 0 = true ∧ subExists n 1 = true := by simp [subExists]; omega
  have main : F.BAY_EN_MAIN_EN n = enField n 0 := rfl
  have aux : F.BAY_EN_AUX_EN n = enField n 1 := rfl
  rw [State.bayOff, main, aux]
  exact ⟨State.is_disableSub_keeps _ n 1 (s.is_disableSub_self subs.1), State.is_disableSub_self subs.2 _⟩

/-! ### What READY learns of a drive (R560, R564) -/

section
variable (n : Nat)

theorem State.drive_modDrive_self (f : Drive → Drive) :
    Tab.getD n driveDefault (s.modDrive n f).drives = f (Tab.getD n driveDefault s.drives) := Tab.getD_modify_self ..

theorem State.driveCapacity_frame : Frame [.drives, .free] s (s.driveCapacity n).2 := by
  unfold State.driveCapacity
  split
  · exact Frame.refl _ s
  · exact ((s.draw_frame 48).append (State.modDrive_drives_frame _ n _)).mono (by decide)

theorem State.driveVectors_frame : Frame [.drives, .free] s (s.driveVectors n).2 := by
  unfold State.driveVectors
  split
  · exact Frame.refl _ s
  · exact ((s.draw_frame 11).append (State.modDrive_drives_frame _ n _)).mono (by decide)

/-- The size latched is the size that the drive has from then on. -/
theorem State.capacity_driveCapacity :
    (Tab.getD n driveDefault (s.driveCapacity n).2.drives).capacity = (s.driveCapacity n).1 := by
  unfold State.driveCapacity
  split
  · next d h =>
    obtain ⟨hd, -⟩ := Option.filter_eq_some_iff.1 h
    rw [Tab.getD, hd]
    rfl
  · exact congrArg Drive.capacity (State.drive_modDrive_self _ n _)

theorem State.capacity_driveVectors :
    (Tab.getD n driveDefault (s.driveVectors n).2.drives).capacity = (Tab.getD n driveDefault s.drives).capacity := by
  unfold State.driveVectors
  split
  · rfl
  · exact (congrArg Drive.capacity (State.drive_modDrive_self (s.draw 11).2 n _)).trans rfl

variable {n} {d : Drive}

theorem State.driveCapacity_known (h : Tab.find? n s.drives = some d) (hc : d.capacity ≠ 0) : s.driveCapacity n = (d.capacity, s) := by
  simp [State.driveCapacity, h, Option.filter, hc]

theorem State.driveVectors_known (h : Tab.find? n s.drives = some d) (hv : d.vectors ≠ 0) : s.driveVectors n = (d.vectors, s) := by
  simp [State.driveVectors, h, Option.filter, hv]

end

/-- The state that has learnt what a drive is, and its vectors. -/
def State.learnDrive (n : Nat) : State := ((s.driveCapacity n).2.driveVectors n).2

/-- A port as READY makes it. -/
def Port.madeReady (cap vectors : Nat) (p : Port) : Port :=
  { p with
    cap := cap, trained := (p.rate, p.width), vectors := vectors, cqHead := [], retrainFrom := none, miValid := false, miMiss := 0
    fit := true }

theorem State.learnDrive_frame (n : Nat) : Frame [.drives, .free] s (s.learnDrive n) :=
  (s.driveCapacity_frame n).trans (State.driveVectors_frame _ n)

/-- READY of a port in INIT whose queues fit. -/
theorem State.portMakeReady_fits {n : Nat} (init : (s.port n).state = .init)
    (fits : s.queueEntries n + (s.port n).sqCount * (s.port n).sqDepth ≤ s.pantryEntries 0x07) :
    s.portMakeReady n = (((s.learnDrive n).portTo n .ready
      (Port.madeReady (s.driveCapacity n).1 ((s.driveCapacity n).2.driveVectors n).1)).flag F.DRV_STATUS_READY).issueAll n :=
  if_pos ⟨init, fits⟩

/-- READY of a port that is not in INIT, or whose queues do not fit, is refused. -/
theorem State.portMakeReady_refused {n : Nat} (h : ¬ ((s.port n).state = .init ∧
    s.queueEntries n + (s.port n).sqCount * (s.port n).sqDepth ≤ s.pantryEntries 0x07)) : s.portMakeReady n = s.portRefuse := if_neg h

/-! ### Another drive is in the bay (assumption 132) -/

theorem State.portPower_drives (n : Nat) (d : Tab Drive) : ({ s with drives := d } : State).portPower n =
    { s.portPower n with drives := d } := by
  unfold State.portPower
  by_cases h : n < 24 ∧ (s.port n).state = .present ∧ s.is F.DRV_CTRL_EN ∧ s.bayPowered n ∧ !s.asleep
  · rw [if_pos h]
    exact if_pos h
  · rw [if_neg h]
    exact if_neg h

/-- A bay's presence is noticed. -/
def State.noticed (n : Nat) : State := s.modPort n fun p => { p with presence := true, presenceAt := s.now }

/-- A drive noticed takes its port to PRESENT (R421, R566). -/
def State.nowPresent (n : Nat) : State :=
  (((s.portTo n .present id).onRsv fun r => { r with lat := Tab.erase n r.lat }).flag F.DRV_STATUS_INSERTED).event (.driveInserted n)

theorem State.portInserted_eq (n : Nat) : s.portInserted n =
    if ((s.noticed n).port n).state = .empty then ((s.noticed n).nowPresent n).portPower n else s.noticed n := rfl

/-- An insertion heeds no drive's contents. -/
theorem State.portInserted_drives (n : Nat) (d : Tab Drive) :
    ({ s with drives := d } : State).portInserted n = { s.portInserted n with drives := d } := by
  rw [State.portInserted_eq, State.portInserted_eq]
  by_cases h : ((s.noticed n).port n).state = .empty
  · rw [if_pos h]
    exact (if_pos h).trans (State.portPower_drives ((s.noticed n).nowPresent n) n d)
  · rw [if_neg h]
    exact if_neg h

end Sys2Proof.Machine
end

section
/-!
What each row of Table 14-3 and each command of Table 14-14 makes of a drive port (14_drive_ports.md R554 to R575).
-/

namespace Sys2Proof.Machine

-- Proofs in sequence: the stack of every thread that waits counts against the memory limit of the check.
set_option Elab.async false

variable {s : State} {n : Nat}

/-! ### Insertion and removal (R565, R566, R567) -/

/-- A presence change of an existing bay while ports run is the port's insertion or removal. -/
theorem State.presenceRow_awake (hn : n < 24) (up : s.up = true) (wake : s.asleep = false) :
    s.presenceRow n true = s.portInserted n ∧ s.presenceRow n false = s.portRemoved n := by
  simp [State.presenceRow, State.insertion, State.removal, hn, up, wake]

/-- An insertion of the drive known, or of another one. -/
theorem State.insertionRow_awake (hn : n < 24) (up : s.up = true) (wake : s.asleep = false) :
    exec (.insertionRecognised ⟨n, none⟩) s = .next (s.portInserted n) ∧
    ∀ k, (s.port n).presence = false → exec (.insertionRecognised ⟨n, some k⟩) s =
      .next { s.portInserted n with drives := Tab.set n { driveDefault with capacity := k } s.drives } := by
  refine ⟨State.row_next (f := fun s => s.presenceRow n true) (State.presenceRow_awake hn up wake).1
    (s.portInserted_frame n).pending_eq, fun k none => State.row_next (f := fun s => (s.newDrive n (some k)).presenceRow n true) ?_
    (s.portInserted_frame n).pending_eq⟩
  have blank : s.newDrive n (some k) = { s with drives := Tab.set n { driveDefault with capacity := k } s.drives } :=
    if_pos ⟨hn, congrArg (!·) none⟩
  rw [blank]
  exact (State.presenceRow_awake (s := { s with drives := Tab.set n { driveDefault with capacity := k } s.drives }) hn up wake).1.trans
      (s.portInserted_drives n _)

/-- In Doze and Dormant an insertion is noticed, and followed at the exit (R688). -/
theorem State.insertionRow_asleep (hn : n < 24) (up : s.up = true) (asleep : s.asleep = true) :
    exec (.insertionRecognised ⟨n, none⟩) s = .next (s.noticed n) := by
  have row : s.presenceRow n true = s.noticed n := by simp [State.presenceRow, State.insertion, hn, up, asleep, State.noticed]
  exact State.row_next (f := fun s => s.presenceRow n true) row rfl

theorem State.port_nowPresent_self : ((s.noticed n).nowPresent n).port n =
    Port.clock { s.port n with presence := true, presenceAt := s.now, state := .present, since := s.now } := by
  refine (State.port_portTo_self (s.noticed n) n .present id).trans ?_
  rw [State.noticed, State.port_modPort_self]
  rfl

theorem State.port_nowPresent_ne {k : Nat} (h : k ≠ n) : ((s.noticed n).nowPresent n).port k = s.port k :=
  (State.port_portTo_ne (s.noticed n) h .present id).trans (s.port_modPort_ne h _)

theorem State.regs_nowPresent : ((s.noticed n).nowPresent n).regs = (s.flag F.DRV_STATUS_INSERTED).regs := rfl

/-- What an insertion makes of an EMPTY port. -/
theorem State.portInserted_empty (empty : (s.port n).state = .empty) :
    s.portInserted n = ((s.noticed n).nowPresent n).portPower n := by
  refine (s.portInserted_eq n).trans (if_pos ?_)
  rw [State.noticed, State.port_modPort_self]
  exact empty

/-- What is left of a port removed: no drive, no link, no clock. -/
def Port.removed (now : Nat) (p : Port) : Port :=
  { p with
    presence := false, presenceAt := now, state := .removed, since := now, perst := true, rate := 0, width := 0, sizes := (0, 0)
    retrainFrom := none, fit := false, refclk := false }

/-- A port removed: its bay's power goes, and its commands with it. -/
theorem State.portRemoved_plain (there : (s.port n).state ≠ .empty) (first : (s.port n).state ≠ .removed)
    (idle : (s.port n).resvCmd = none) (free : s.memberAt n = none) :
    s.portRemoved n = (((s.modPort n (Port.removed s.now)).flag F.DRV_STATUS_REMOVED).bayOff n).onDrv
      fun d => { d with cmds := d.cmds.filter fun c => c.bay != n } := by
  have moved : ((s.modPort n fun p => { p with presence := false, presenceAt := s.now }).portTo n .removed fun p => { p with
      perst := true, rate := 0, width := 0, sizes := (0, 0), retrainFrom := none, fit := false }) =
      s.modPort n (Port.removed s.now) := s.modPort_modPort n _ _
  have frame := ((s.modPort_frame n (Port.removed s.now)).append (State.flag_frame _ F.DRV_STATUS_REMOVED)).append
    (State.bayOff_frame ((s.modPort n (Port.removed s.now)).flag F.DRV_STATUS_REMOVED) n)
  have port : (((s.modPort n (Port.removed s.now)).flag F.DRV_STATUS_REMOVED).bayOff n).port n = Port.removed s.now (s.port n) := by
    rw [State.port_congr (State.bayOff_frame _ n).drv_eq]
    exact s.port_modPort_self n _
  unfold State.portRemoved
  rw [if_neg fun h => h.elim there first, moved, State.portEnd_plain _ ((congrArg Port.resvCmd port).trans idle)
    ((State.memberAt_congr n frame.vol_eq).trans free)]

/-- What is left of a bay whose drive has been removed: a REMOVED port, no power, no commands. -/
theorem State.removalRow_awake (hn : n < 24) (up : s.up = true) (wake : s.asleep = false) (there : (s.port n).state ≠ .empty)
    (first : (s.port n).state ≠ .removed) (idle : (s.port n).resvCmd = none) (free : s.memberAt n = none) :
    ∃ t, exec (.removalRecognised n) s = .next t ∧ Frame [.drv, .bay, .regs] s t ∧
      t.port n = Port.removed s.now (s.port n) ∧ (∀ k, k ≠ n → t.port k = s.port k) ∧
      t.drv.cmds = s.drv.cmds.filter (fun c => c.bay != n) ∧ t.is F.DRV_STATUS_REMOVED = true ∧
      t.is (F.BAY_EN_MAIN_EN n) = false ∧ t.is (F.BAY_EN_AUX_EN n) = false := by
  have off := State.bayOff_frame ((s.modPort n (Port.removed s.now)).flag F.DRV_STATUS_REMOVED) n
  have frame : Frame [.drv, .bay, .regs] s ((((s.modPort n (Port.removed s.now)).flag F.DRV_STATUS_REMOVED).bayOff n).onDrv
      fun d => { d with cmds := d.cmds.filter fun c => c.bay != n }) :=
    ((((s.modPort_frame n (Port.removed s.now)).append (State.flag_frame _ F.DRV_STATUS_REMOVED)).append off).append
      (State.onDrv_frame _ _)).mono (by decide)
  refine ⟨_, State.row_next (f := fun s => s.presenceRow n false) ((State.presenceRow_awake hn up wake).2.trans
    (State.portRemoved_plain there first idle free)) frame.pending_eq, frame, ?_, fun k hk => ?_, ?_, ?_, State.is_bayOff _ hn⟩
  · exact (State.port_congr off.drv_eq n).trans (s.port_modPort_self n _)
  · exact (State.port_congr off.drv_eq k).trans (s.port_modPort_ne hk _)
  · exact congrArg (fun d : Drv => d.cmds.filter fun c => c.bay != n) off.drv_eq
  · exact (State.is_bayOff_apart _ (Or.inl (by decide)) (by decide) n).trans (State.is_flag _ (by decide) (by decide))

/-! ### Links that come up (R554, R555, R558) -/

/-- A port whose link has come up to a rate and width, before what the drive is has been seen. -/
def State.linked (s : State) (n rate width : Nat) : State := s.modPort n fun p =>
  { p with rate := min rate (s.linkLimit n).1, width := min width (s.linkLimit n).2, sizes := (512, 4096) }

/-- The link of an NVMe drive is up: INIT, with the queues set. -/
def State.linkedNvme (s : State) (n rate width : Nat) : State :=
  ((s.linked n rate width).portTo n .init fun p => { p with sqCount := s.sqCountSet n, sqDepth := s.sqDepthSet n }).event (.driveLinkUp n)

/-- The link of another device is up: UNFIT. -/
def State.linkedOther (s : State) (n rate width : Nat) : State :=
  ((s.linked n rate width).portTo n .unfit fun p => { p with fit := false }).flag F.DRV_STATUS_UNFIT

section
variable {rate width : Nat}

theorem State.portLinkUp_eq (training : (s.port n).state = .training ∨ (s.port n).state = .retraining)
    (ok : linkOk (min rate (s.linkLimit n).1) (min width (s.linkLimit n).2) = true) (nvme : Bool) :
    s.portLinkUp n rate width nvme = if nvme then s.linkedNvme n rate width else s.linkedOther n rate width :=
  (if_neg (by simp [ok])).trans (if_pos training)

theorem State.portLinkUp_bad (bad : linkOk (min rate (s.linkLimit n).1) (min width (s.linkLimit n).2) = false) (nvme : Bool) :
    s.portLinkUp n rate width nvme = s := if_pos (congrArg (!·) bad)

theorem State.port_linkedNvme : (s.linkedNvme n rate width).port n = Port.clock { s.port n with
    rate := min rate (s.linkLimit n).1, width := min width (s.linkLimit n).2, sizes := (512, 4096), state := .init, since := s.now
    sqCount := s.sqCountSet n, sqDepth := s.sqDepthSet n } := by
  rw [State.linkedNvme, State.port_event, State.port_portTo_self, State.linked, State.port_modPort_self]
  rfl

theorem State.port_linkedOther : ((s.linkedOther n rate width).port n).state = .unfit := by
  rw [State.linkedOther, State.port_flag, State.port_portTo_self]
  rfl

theorem State.port_linkedNvme_ne {k : Nat} (h : k ≠ n) : (s.linkedNvme n rate width).port k = s.port k := by
  rw [State.linkedNvme, State.port_event, State.port_portTo_ne _ h, State.linked, State.port_modPort_ne _ h]

theorem State.port_linkedOther_ne {k : Nat} (h : k ≠ n) : (s.linkedOther n rate width).port k = s.port k := by
  rw [State.linkedOther, State.port_flag, State.port_portTo_ne _ h, State.linked, State.port_modPort_ne _ h]

theorem State.linkedNvme_frame : Frame [.drv, .wdn] s (s.linkedNvme n rate width) :=
  (((s.modPort_frame n _).trans (State.portTo_frame (s.linked n rate width) n .init _)).append (State.event_frame _ _)).mono (by decide)

theorem State.linkedOther_frame : Frame [.drv, .regs] s (s.linkedOther n rate width) :=
  (((s.modPort_frame n _).trans (State.portTo_frame (s.linked n rate width) n .unfit _)).append (State.flag_frame _ _)).mono (by decide)

end

/-! ### Links that go down (R557, R568) -/

/-- A port whose link is down waits for it to train again. -/
def Port.linkLost (now : Nat) (p : Port) : Port :=
  { p with rate := 0, width := 0, sizes := (0, 0), state := .retraining, since := now, retrainFrom := some now, refclk := true }

/-- A READY port whose link goes down, a fatal error counted. -/
def State.linkLost (s : State) (n : Nat) (fatal : Bool) : State :=
  ((((s.modPort n fun p => { p with rate := 0, width := 0, sizes := (0, 0) }).when fatal fun s => s.bump (A.DRV_AER_UNCORR n)).portTo n
    .retraining fun p => { p with retrainFrom := some s.now }).flag F.DRV_STATUS_LINK_DOWN)

theorem State.port_linkLost_self (fatal : Bool) : (s.linkLost n fatal).port n = Port.linkLost s.now (s.port n) := by
  have moved : (s.linkLost n fatal).drv = (s.modPort n (Port.linkLost s.now)).drv := by
    have once := congrArg State.drv (s.modPort_modPort n (fun p => { p with rate := 0, width := 0, sizes := (0, 0) })
      fun p => Port.clock { p with state := .retraining, since := s.now, retrainFrom := some s.now })
    cases fatal <;> exact once
  rw [State.port_congr moved, State.port_modPort_self]

theorem State.portLinkDown_plain (ready : (s.port n).state = .ready) (idle : (s.port n).resvCmd = none) (fatal : Bool) :
    s.portLinkDown n fatal = (s.linkLost n fatal).holdCmds n := by
  have down : (((s.modPort n fun p => { p with rate := 0, width := 0, sizes := (0, 0) }).when fatal fun s =>
      s.bump (A.DRV_AER_UNCORR n)).port n).state = .ready := by
    rw [State.when_same _ fatal _ (fun s => s.port n) rfl, State.port_modPort_self]
    exact ready
  have still : ((s.linkLost n fatal).port n).resvCmd = none := by
    rw [State.port_linkLost_self]
    exact idle
  have now : ((s.modPort n fun p => { p with rate := 0, width := 0, sizes := (0, 0) }).when fatal fun s =>
      s.bump (A.DRV_AER_UNCORR n)).now = s.now := State.when_same _ fatal _ State.now rfl
  unfold State.portLinkDown
  dsimp only
  rw [if_pos down, now]
  unfold State.linkLost at still
  rw [still]
  rfl

theorem State.linkLost_frame (fatal : Bool) : Frame [.drv, .regs] s (s.linkLost n fatal) :=
  ((((s.modPort_frame n _).append (Frame.when fatal (State.bump_frame _ _ _))).append
    (State.portTo_frame _ n .retraining _)).append (State.flag_frame _ _)).mono (by decide)

theorem State.port_linkLost_ne {k : Nat} (h : k ≠ n) (fatal : Bool) : (s.linkLost n fatal).port k = s.port k := by
  rw [State.linkLost, State.port_flag, State.port_portTo_ne _ h, State.when_same _ fatal _ (fun s => s.port k) rfl,
    State.port_modPort_ne _ h]

/-- A fatal error that took the link down is counted (R557). -/
theorem State.word_linkLost (fatal : Bool) :
    (s.linkLost n fatal).word (A.DRV_AER_UNCORR n) = s.word (A.DRV_AER_UNCORR n) + (if fatal then 1 else 0) := by
  refine (State.word_flag_ne _ (by show 0xA00004 ≠ 0xA01030 + 64 * n; omega)).trans ?_
  cases fatal with
  | false => exact (BitVec.add_zero _).symm
  | true => exact State.word_bump_low _ _

theorem State.cmds_linkLost (fatal : Bool) : (s.linkLost n fatal).drv.cmds = s.drv.cmds := by cases fatal <;> rfl

/-! ### Ports that are lost (R569) -/

/-- A port lost, its bay in no group, is told and has no command left. -/
theorem State.portLose_told (idle : (s.port n).resvCmd = none) (free : s.memberAt n = none) (code : Nat) :
    Frame [.drv, .regs] s (s.portLose n code) ∧ ((s.portLose n code).port n).state = .lost ∧
      (s.portLose n code).is F.DRV_STATUS_LOST = true ∧
      (s.portLose n code).drv.cmds = s.drv.cmds.filter fun c => c.bay != n := by
  rw [State.portLose_plain s idle free]
  refine ⟨(((s.portTo_frame n .lost _).append (State.flag_frame _ _)).append (State.onDrv_frame _ _)).mono (by decide), ?_,
    State.is_flag _ (by decide) (by decide), rfl⟩
  exact congrArg Port.state (s.port_portTo_self n .lost fun p => { p with retrainFrom := none })

/-! ### Commands given to a port (Table 14-14) -/

section
variable {p : Path}

/-- A port's command register lies where Doze and Dormant let no path. -/
theorem State.awakeAt_portCmd (lets : s.modeLets p (A.DRV_PORT_CMD n) = true) (hn : n < 24) : s.asleep = false := by
  have block : A.DRV_PORT_CMD n / 0x100000 = 10 := by
    show (0xA00300 + 4 * n) / 0x100000 = 10
    omega
  exact State.asleep_of_modeLets lets (by rw [block]; rfl)

/-- A refusal is told, and nothing else. -/
theorem State.portRefuse_told (s : State) : Frame [.regs] s s.portRefuse ∧ s.portRefuse.is F.DRV_STATUS_CMD_REFUSED = true :=
  ⟨s.flag_frame _, s.is_flag (by decide) (by decide)⟩

/-- START of a port in RESET is noted, and trains it once its time has passed. -/
theorem State.portStart_reset (reset : (s.port n).state = .reset) :
    (s.now < (s.port n).since + 100000000 → s.portStart n = s.modPort n fun p => { p with started := true }) ∧
    ((s.port n).since + 100000000 ≤ s.now → s.portStart n = s.modPort n fun p =>
      { p with started := true, state := .training, since := s.now, perst := false, refclk := true }) := by
  have noted := s.port_modPort_self n fun p => { p with started := true }
  have start : s.portStart n = (s.modPort n fun p => { p with started := true }).portTrain n := if_pos reset
  rw [start]
  unfold State.portTrain
  dsimp only
  rw [noted]
  refine ⟨fun early => if_neg fun h => Nat.not_le.2 early h.2.1, fun late => (if_pos ⟨reset, late, .inr rfl⟩).trans ?_⟩
  exact s.modPort_modPort n (fun p => { p with started := true })
    fun p => Port.clock { p with state := .training, since := s.now, perst := false }

/-- UNFIT of a port in INIT. -/
theorem State.portUnfit_init (init : (s.port n).state = .init) : Frame [.drv, .regs] s (s.portUnfit n) ∧
    ((s.portUnfit n).port n).state = .unfit ∧ (s.portUnfit n).is F.DRV_STATUS_UNFIT = true ∧
    ∀ k, k ≠ n → (s.portUnfit n).port k = s.port k := by
  have unfit : s.portUnfit n = (s.portTo n .unfit fun p => { p with retrainFrom := none, fit := false }).flag F.DRV_STATUS_UNFIT :=
    if_pos init
  rw [unfit]
  refine ⟨((s.portTo_frame n .unfit _).append (State.flag_frame _ _)).mono (by decide), ?_, State.is_flag _ (by decide) (by decide),
    fun k hk => by rw [State.port_flag, State.port_portTo_ne s hk]⟩
  rw [State.port_flag, State.port_portTo_self]
  rfl

/-- RELEASE of a port that is out of use takes it to PRESENT, from where it goes on as its bay's power lets it. -/
theorem State.portRelease_out (out : (s.port n).state = .lost ∨ (s.port n).state = .fault ∨ (s.port n).state = .unfit) :
    s.portRelease n = (s.portTo n .present fun p => { p with perst := true }).portPower n := by
  unfold State.portRelease
  rcases out with h | h | h <;> rw [h]

theorem State.portRelease_ready (ready : (s.port n).state = .ready) : s.portRelease n = s.portRefuse := by
  unfold State.portRelease
  rw [ready]

end

/-! ### READY (R560, R562, R564) -/

/-- READY of a port whose queues fit: what the port knows of its drive is what the drive has from then on. -/
theorem State.portMakeReady_told (init : (s.port n).state = .init)
    (fits : s.queueEntries n + (s.port n).sqCount * (s.port n).sqDepth ≤ s.pantryEntries 0x07) :
    Frame [.drv, .regs, .drives, .free] s (s.portMakeReady n) ∧
    (s.portMakeReady n).port n = Port.clock (Port.madeReady (s.driveCapacity n).1 ((s.driveCapacity n).2.driveVectors n).1
      { s.port n with state := .ready, since := s.now }) ∧
    (s.portMakeReady n).drives = (s.learnDrive n).drives ∧ (s.portMakeReady n).free = (s.learnDrive n).free ∧
    (s.portMakeReady n).is F.DRV_STATUS_READY = true ∧ ∀ k, k ≠ n → (s.portMakeReady n).port k = s.port k := by
  rw [s.portMakeReady_fits init fits]
  have learnt := s.learnDrive_frame n
  have issued := State.issueAll_frame (((s.learnDrive n).portTo n .ready
    (Port.madeReady (s.driveCapacity n).1 ((s.driveCapacity n).2.driveVectors n).1)).flag F.DRV_STATUS_READY) n
  refine ⟨(((learnt.append (State.portTo_frame _ n .ready _)).append (State.flag_frame _ _)).append issued).mono (by decide), ?_,
    issued.drives_eq, issued.free_eq, ?_, fun k hk => ?_⟩
  · rw [State.port_issueAll, State.port_flag, State.port_portTo_self, State.port_congr learnt.drv_eq, learnt.now_eq]
  · rw [State.is_congr issued.regs_eq]
    exact State.is_flag _ (by decide) (by decide)
  · rw [State.port_issueAll, State.port_flag, State.port_portTo_ne _ hk, State.port_congr learnt.drv_eq]

/-! ### Management data (R574) -/

/-- A poll without an answer is counted, and the third in a row is told. -/
theorem State.miPoll_missed (polls : s.is F.DRV_CTRL_MI_EN = true ∧ (s.port n).state = .ready) :
    Frame [.drv, .regs] s (s.miPoll n none) ∧ (s.miPoll n none).port n = { s.port n with miMiss := (s.port n).miMiss + 1 } ∧
    (∀ k, k ≠ n → (s.miPoll n none).port k = s.port k) ∧
    ((s.port n).miMiss = 2 → (s.miPoll n none).is F.DRV_STATUS_MI_STALE = true) ∧
    ((s.port n).miMiss ≠ 2 → (s.miPoll n none).regs = s.regs) := by
  have missed : s.miPoll n none = (s.modPort n fun p => { p with miMiss := (s.port n).miMiss + 1 }).when ((s.port n).miMiss + 1 == 3)
      fun s => s.flag F.DRV_STATUS_MI_STALE := if_pos polls
  have drv := State.when_same (s.modPort n fun p => { p with miMiss := (s.port n).miMiss + 1 }) ((s.port n).miMiss + 1 == 3)
    (fun s => s.flag F.DRV_STATUS_MI_STALE) State.drv rfl
  rw [missed]
  refine ⟨((s.modPort_frame n _).append (Frame.when _ (State.flag_frame _ _))).mono (by decide),
    (State.port_congr drv n).trans (s.port_modPort_self n _), fun k hk => (State.port_congr drv k).trans (s.port_modPort_ne hk _),
    fun third => ?_, fun other => ?_⟩
  · rw [third]
    exact State.is_flag _ (by decide) (by decide)
  · rw [beq_eq_false_iff_ne.2 (by omega)]
    rfl

end Sys2Proof.Machine
end

section
/-!
The statement about the drive ports (14_drive_ports.md Table 14-3, Table 14-14).
-/

namespace Sys2Proof.Machine

-- Proofs in sequence: the stack of every thread that waits counts against the memory limit of the check.
set_option Elab.async false

/-- Settles O39: each row of Table 14-3 and each command of Table 14-14 is a move of its own port, told in DRV_STATUS, that leaves the
other ports alone; a port that loses its drive loses its commands with it. -/
theorem drivePorts : Obligations.DrivePorts := by
  unfold Obligations.DrivePorts
  refine ⟨⟨fun n s up wake hn => ⟨fun empty => ?insert, fun empty none k => ?other, fun there first idle free => ?remove⟩,
    fun n s up asleep hn => ?asleep, fun n s awake hn => ⟨fun reset late go => ?train, fun reset early => ?early,
      fun training late => ?noLink, fun rate width bad nvme => ?badLink, fun training rate width ok => ⟨?init, ?unfit⟩,
      fun ready idle fatal => ?down, fun ready idle free => ?lost, fun t0 from_ states => ⟨fun early => ?still,
          fun late idle free => ?gone⟩,
      fun removed dark => ?dark⟩⟩,
    fun p n s bus lets hn => ⟨fun reset early => ?start, fun reset late => ?startTrain, fun state => ?startRefused,
      fun init => ⟨fun fits => ?ready, fun full => ?full, ?portUnfit⟩, fun state => ?notInit, fun held => ?release, fun ready => ?kept⟩,
    fun n on s bus hn => ?clkreq, fun n r s awake hn on ready due => ?poll⟩
  case insert =>
    have present : (((s.noticed n).nowPresent n).port n).state = .present := by rw [State.port_nowPresent_self]; rfl
    have shown := State.state_portPower ((s.noticed n).nowPresent n) hn present wake
    have kept := State.presence_portPower ((s.noticed n).nowPresent n) n
    have regs : (s.portInserted n).regs = (s.flag F.DRV_STATUS_INSERTED).regs := by
      rw [State.portInserted_empty empty, (State.portPower_frame _ n).regs_eq, State.regs_nowPresent]
    have wdn : (s.portInserted n).wdn.events = s.wdn.events ++ [.driveInserted n] := by
      rw [State.portInserted_empty empty, (State.portPower_frame _ n).wdn_eq]
      rfl
    have enabled : ((s.noticed n).nowPresent n).is F.DRV_CTRL_EN = s.is F.DRV_CTRL_EN := by
      rw [State.is_congr State.regs_nowPresent]
      exact State.is_flag_apart s (Or.inl (by decide))
    refine ⟨_, (State.insertionRow_awake hn up wake).1, (s.portInserted_frame n).eq_take, ?_, fun k hk => ?_, ?_, wdn, ?_, ?_⟩
    · rw [State.portInserted_empty empty, kept.1, State.port_nowPresent_self]
      rfl
    · rw [State.portInserted_empty empty, State.port_portPower_ne _ hk, State.port_nowPresent_ne hk]
    · rw [State.is_congr regs]
      exact s.is_flag (by decide) (by decide)
    · rw [State.portInserted_empty empty]
      exact shown.1
    · rw [State.portInserted_empty empty]
      exact fun powered on => shown.2 powered (enabled.trans on)
  case other =>
    obtain ⟨same, another⟩ := State.insertionRow_awake hn up wake
    exact ⟨_, another k none, Tab.find?_set_self .., fun j hj => Tab.find?_set_ne (Ne.symm hj) .., _, same, rfl⟩
  case remove =>
    obtain ⟨t, row, frame, port, others, cmds, told, main, aux⟩ := State.removalRow_awake hn up wake there first idle free
    exact ⟨t, row, frame.eq_take, congrArg Port.state port, congrArg Port.presence port, congrArg Port.perst port,
      congrArg Port.rate port, congrArg Port.refclk port, others, cmds, told, main, aux⟩
  case asleep => exact State.insertionRow_asleep hn up asleep
  case train => exact State.awake_next awake (if_pos ⟨reset, late, go⟩) rfl
  case early =>
    have waits : s.portTrain n = s := if_neg fun h => by omega
    exact State.awake_next awake waits rfl
  case noLink =>
    have told := (s.portTo_frame n .fault id).append (State.flag_frame _ F.DRV_STATUS_FAULT)
    exact ⟨_, State.awake_next awake (if_pos ⟨training, late⟩) rfl, told.eq_take,
      congrArg Port.state (s.port_portTo_self n .fault id), State.is_flag _ (by decide) (by decide),
      fun k hk => s.port_portTo_ne hk _ _⟩
  case badLink => exact State.awake_next awake (State.portLinkUp_bad bad nvme) rfl
  case init =>
    have port := State.port_linkedNvme (s := s) (n := n) (rate := rate) (width := width)
    exact ⟨_, State.awake_next awake (State.portLinkUp_eq training ok true) rfl, State.linkedNvme_frame.eq_take, congrArg Port.state port,
      congrArg Port.rate port, congrArg Port.width port, congrArg Port.sqCount port, congrArg Port.sqDepth port,
      congrArg Port.sizes port, rfl, fun k hk => State.port_linkedNvme_ne hk⟩
  case unfit =>
    exact ⟨_, State.awake_next awake (State.portLinkUp_eq training ok false) rfl, State.linkedOther_frame.eq_take, State.port_linkedOther,
      State.is_flag _ (by decide) (by decide), fun k hk => State.port_linkedOther_ne hk⟩
  case down =>
    have port := State.port_linkLost_self (s := s) (n := n) fatal
    have frame := (State.linkLost_frame (s := s) (n := n) fatal).append (State.holdCmds_frame _ n)
    exact ⟨_, State.awake_next awake (State.portLinkDown_plain ready idle fatal) frame.pending_eq, frame.eq_take, congrArg Port.state port,
      congrArg Port.retrainFrom port, congrArg Port.rate port, congrArg Port.width port, State.word_linkLost fatal,
      State.is_flag _ (by decide) (by decide), fun k hk => State.port_linkLost_ne hk fatal,
          congrArg (List.map _) (State.cmds_linkLost fatal)⟩
  case lost =>
    obtain ⟨frame, state, told, cmds⟩ := State.portLose_told idle free 5
    exact ⟨_, State.awake_next awake (if_pos ready) frame.pending_eq, frame.eq_take, state, told, cmds⟩
  case still =>
    have waits : s.portRetrain n = s := by
      rw [State.portRetrain, from_]
      exact if_neg fun h => Nat.not_le.2 early h.2
    exact State.awake_next awake waits rfl
  case gone =>
    have gone : s.portRetrain n = s.portLose n 5 := by
      rw [State.portRetrain, from_]
      exact if_pos ⟨states, late⟩
    obtain ⟨frame, state, told, cmds⟩ := State.portLose_told idle free 5
    exact ⟨_, State.awake_next awake gone frame.pending_eq, frame.eq_take, state, told, cmds⟩
  case dark =>
    exact ⟨_, State.awake_next awake (if_pos ⟨removed, dark⟩) rfl, rfl, congrArg Port.state (s.port_portTo_self n .empty id),
      fun k hk => s.port_portTo_ne hk .empty id⟩
  case start =>
    exact State.bus_next bus lets ((if_pos hn).trans ((State.portStart_reset reset).1 early)) rfl
  case startTrain =>
    exact State.bus_next bus lets ((if_pos hn).trans ((State.portStart_reset reset).2 late)) rfl
  case startRefused =>
    obtain ⟨frame, told⟩ := s.portRefuse_told
    exact ⟨_, State.bus_next bus lets ((if_pos hn).trans (if_neg state)) frame.pending_eq, frame.eq_take, told⟩
  case ready =>
    obtain ⟨frame, port, drives, free, told, others⟩ := State.portMakeReady_told init fits
    refine ⟨s.portMakeReady n, State.bus_next bus lets (if_pos hn) frame.pending_eq, frame.eq_take, congrArg Port.state port, ?_,
        fun d found cap vectors => ?_,
      congrArg Port.retrainFrom port, congrArg Port.cqHead port, told, others⟩
    · rw [drives, State.learnDrive, State.capacity_driveVectors, State.capacity_driveCapacity]
      exact congrArg Port.cap port
    · have size := s.driveCapacity_known found cap
      have count := s.driveVectors_known found vectors
      have learnt : s.learnDrive n = s := by rw [State.learnDrive, size, count]
      rw [learnt] at drives free
      rw [size, count] at port
      exact ⟨congrArg Port.vectors port, drives, free⟩
  case full =>
    obtain ⟨frame, told⟩ := s.portRefuse_told
    have refused := s.portMakeReady_refused fun h => Nat.not_le.2 full h.2
    exact ⟨_, State.bus_next bus lets ((if_pos hn).trans refused) frame.pending_eq, frame.eq_take, told⟩
  case portUnfit =>
    obtain ⟨frame, state, told, others⟩ := State.portUnfit_init init
    exact ⟨_, State.bus_next bus lets (if_pos hn) frame.pending_eq, frame.eq_take, state, told, others⟩
  case notInit =>
    obtain ⟨frame, told⟩ := s.portRefuse_told
    have refused := s.portMakeReady_refused fun h => state h.1
    exact ⟨_, State.bus_next bus lets ((if_pos hn).trans refused) frame.pending_eq,
      State.bus_next bus lets ((if_pos hn).trans (if_neg state)) frame.pending_eq, frame.eq_take, told⟩
  case release =>
    have wake := State.awakeAt_portCmd lets hn
    let w := s.portTo n .present fun p => { p with perst := true }
    have port : w.port n = Port.clock { s.port n with state := .present, since := s.now, perst := true } := s.port_portTo_self n _ _
    have powered := w.state_portPower hn (congrArg Port.state port) wake
    have frame := (s.portTo_frame n .present fun p => { p with perst := true }).trans (State.portPower_frame _ n)
    refine ⟨_, State.bus_next bus lets ((if_pos hn).trans (State.portRelease_out held)) frame.pending_eq, frame.eq_ports ?_, fun k hk => ?_,
      (w.presence_portPower n).2 (congrArg Port.perst port), powered.1, fun h on => (powered.2 h on).1⟩
    · exact w.drv_portPower n
    · exact (w.port_portPower_ne hk).trans (s.port_portTo_ne hk _ _)
  case kept =>
    obtain ⟨frame, told⟩ := s.portRefuse_told
    exact ⟨_, State.bus_next bus lets ((if_pos hn).trans (State.portRelease_ready ready)) frame.pending_eq, frame.eq_take, told⟩
  case clkreq =>
    have port := s.port_modPort_self n fun p => Port.clock { p with clkreq := on }
    refine ⟨s.modPort n fun p => Port.clock { p with clkreq := on }, State.gate_next bus (if_pos hn) rfl, rfl, ?_,
      fun k hk => s.port_modPort_ne hk _, fun ready => ?_, fun present => ?_⟩
    · rw [port]
      rfl
    · rw [port, Port.clock, ready]
    · rw [port, Port.clock, present]
  case poll =>
    let w := s.serve (Tick.mi + n) (s.now / 1000000000 * 1000000000)
    have row : s.every (Tick.mi + n % 24) 1000000000 (fun s => s.miPoll (n % 24) r) = w.miPoll n r := by
      rw [Nat.mod_eq_of_lt hn]
      exact State.every_serve due _
    have polls : s.is F.DRV_CTRL_MI_EN = true ∧ (s.port n).state = .ready := ⟨on, ready⟩
    cases r with
    | some x =>
      obtain ⟨a, b, c⟩ := x
      refine ⟨_, State.awake_next awake (row.trans (if_pos polls)) rfl, rfl, fun k hk => w.port_modPort_ne hk _, fun a' b' c' h => ?_,
        fun h => (Option.some_ne_none _ h).elim⟩
      obtain ⟨rfl, rfl, rfl⟩ : a = a' ∧ b = b' ∧ c = c' := by simpa using h
      exact ⟨w.port_modPort_self n _, rfl⟩
    | none =>
      obtain ⟨frame, port, others, stale, quiet⟩ := State.miPoll_missed (s := w) polls
      exact ⟨_, State.awake_next awake row frame.pending_eq, ((s.serve_frame _ _).append frame).eq_take, others,
        fun _ _ _ h => (Option.some_ne_none _ h.symm).elim, fun _ => ⟨port, stale, quiet⟩⟩

end Sys2Proof.Machine
end

section
/-!
The statement about the commands of the drives (14_drive_ports.md R564, R570 to R572).
-/

namespace Sys2Proof.Machine

-- Proofs in sequence: the stack of every thread that waits counts against the memory limit of the check.
set_option Elab.async false

/-! ### What a drive holds in its reserved area (Table 08-6) -/

/-- A block put to a drive's reserved area stays hidden behind what the area holds there. -/
theorem State.media_mediaPut_reserved {s : State} {b lba : Nat} {x : Block} (low : lba < slotLba 4)
    (held : (Tab.getD b driveDefault s.drives).reserved lba = some x) (y : Block) : (s.mediaPut b lba y).media b lba = x := by
  have drive : Tab.find? b (s.mediaPut b lba y).drives = some { Tab.getD b driveDefault s.drives with
      blocks := Tab.set lba y (Tab.getD b driveDefault s.drives).blocks } := Tab.find?_set_self ..
  have same (d : Drive) (t : Tab Block) : ({ d with blocks := t } : Drive).reserved lba = d.reserved lba := rfl
  rw [State.media, drive]
  dsimp only
  rw [if_pos low, same, held]
  rfl

/-! ### A write to a reserved block -/

/-- A write in flight to block 16,383 of a drive's metadata area. -/
def reservedWrite : DriveCmd :=
  ⟨0, 0, some 0, true, 16383, 1, [], 0, true, .destage 0 0 0, some 0, false⟩

/-- A running part with that write in flight, to a drive that holds a reshape record (R410). -/
def reshapedDrive : State := { State.reset with
  glb := { State.reset.glb with phase := .running }
  drv := { State.reset.drv with cmds := [reservedWrite] }
  drives := [(0, { driveDefault with reshape := some (0, []) })] }

/-- Refutes O40 by its clause on a destaged block: after a write to the block of the reshape record, the drive still shows the record
there (Table 08-6), and not the block written. The statement takes writes to any block. -/
theorem not_driveCommands : ¬ Obligations.DriveCommands := by
  unfold Obligations.DriveCommands
  rintro ⟨scan, -⟩
  obtain ⟨written, -⟩ := scan 0 0 0 reservedWrite reshapedDrive (by decide) rfl rfl rfl
  obtain ⟨t, u, -, rfl, -, shown⟩ := written 0 0 0 rfl rfl
  have drives : ((((reshapedDrive.modPort 0 fun p => p.consume 0).bump (A.DRV_WRITES 0)).dropCmd reservedWrite).drives) =
      reshapedDrive.drives := by
    rw [State.dropCmd, (State.issueAll_frame _ _).drives_eq]
    rfl
  have record := State.media_mediaPut_reserved (b := 0) (lba := 16383) (by decide)
    (s := ((reshapedDrive.modPort 0 fun p => p.consume 0).bump (A.DRV_WRITES 0)).dropCmd reservedWrite)
    (x := mkBlock 0 16383 0 Kind.metadata (padTo 4096 [])) (by rw [drives]; rfl) (reservedWrite.block, reservedWrite.trailer)
  have stored : padTo 4096 [] = [] := congrArg Prod.fst (record.symm.trans shown)
  have whole : (padTo 4096 ([] : List Byte)).length = 4096 := by rw [padTo, List.length_append, List.length_replicate]; rfl
  rw [stored] at whole
  exact absurd whole (by decide)

end Sys2Proof.Machine
end

section
/-!
SUPPORT. Laws of the sub-channels of the bay power die (15_bay_power.md): a sub-channel after a change of it and the others, and what power
good, switching, a latch and a limit make of them.
-/

namespace Sys2Proof.Machine

-- Proofs in sequence: the stack of every thread that waits counts against the memory limit of the check.
set_option Elab.async false

variable (s : State)

/-! ### A sub-channel and the others -/

/-- Two sub-channels have places of their own in the table. -/
theorem subPlace_ne {n k i j : Nat} (hk : k < 2) (hj : j < 2) (h : (i, j) ≠ (n, k)) : n * 2 + k ≠ i * 2 + j := by
  intro e
  exact h (Prod.ext (by show i = n; omega) (by show j = k; omega))

theorem sub_lt_two {n k : Nat} (h : subExists n k = true) : k < 2 := by
  simp only [subExists, Bool.and_eq_true, decide_eq_true_eq] at h
  exact h.1.2

@[simp] theorem State.sub_setSub_self (n k : Nat) (x : SubChan) : (s.setSub n k x).sub n k = x := Tab.getD_put_self ..

theorem State.sub_setSub_ne {n k i j : Nat} (h : n * 2 + k ≠ i * 2 + j) (x : SubChan) : (s.setSub n k x).sub i j = s.sub i j :=
  Tab.getD_put_ne h ..

theorem State.sub_congr {s t : State} (h : t.bay = s.bay) (n k : Nat) : t.sub n k = s.sub n k := by rw [State.sub, State.sub, h]

@[simp] theorem State.sub_flag (f : Fld) (n k : Nat) : (s.flag f).sub n k = s.sub n k := rfl

theorem State.setSub_frame (n k : Nat) (x : SubChan) : Frame [.bay] s (s.setSub n k x) := s.onBay_frame _

/-- A state whose bay power die differs from another's in its sub-channels at most. -/
def State.SubsOnly (s t : State) : Prop := t.bay = { s.bay with subs := t.bay.subs }

theorem State.SubsOnly.trans {s t u : State} (h : s.SubsOnly t) (h' : t.SubsOnly u) : s.SubsOnly u := by
  unfold State.SubsOnly at *
  rw [h', h]

theorem State.SubsOnly.of_bay {s t : State} (h : t.bay = s.bay) : s.SubsOnly t := by rw [State.SubsOnly, h]

theorem State.subsOnly_setSub (n k : Nat) (x : SubChan) : s.SubsOnly (s.setSub n k x) := rfl

/-! ### Power-good falls (R586) -/

section
variable (n k : Nat)

theorem State.sub_pgFall_self : (s.pgFall n k).sub n k = { s.sub n k with pg := false } := by
  unfold State.pgFall
  dsimp only
  split
  · rw [State.sub_flag, State.sub_setSub_self]
  · next low => rw [← Bool.eq_false_iff.2 low]

theorem State.sub_pgFall_ne {i j : Nat} (h : n * 2 + k ≠ i * 2 + j) : (s.pgFall n k).sub i j = s.sub i j := by
  unfold State.pgFall
  dsimp only
  split
  · rw [State.sub_flag, State.sub_setSub_ne _ h]
  · rfl

theorem State.subsOnly_pgFall : s.SubsOnly (s.pgFall n k) := by
  unfold State.pgFall
  dsimp only
  split
  · exact s.subsOnly_setSub n k _
  · rfl

theorem State.is_pgFall (h : (s.sub n k).pg = true) : (s.pgFall n k).is F.BAY_STATUS_PG_CHANGE = true := by
  have told : s.pgFall n k = (s.setSub n k { s.sub n k with pg := false }).flag F.BAY_STATUS_PG_CHANGE := if_pos h
  rw [told]
  exact State.is_flag _ (by decide) (by decide)

end

/-! ### Switching (R578, R579, R583) -/

/-- A sub-channel as its enable starts it. -/
def SubChan.started (now : Nat) (x : SubChan) : SubChan :=
  { x with state := .ramping, cause := 0, since := now, disabledAt := none, limiting := none }

/-- An enable whose 1 is ignored, or that is 1, leaves everything as it is. -/
theorem State.enableSub_ignored {n k : Nat} (h : s.is (enField n k) = true ∨ s.enIgnored = true) : s.enableSub n k = s := by
  refine if_neg fun g => ?_
  rcases h with h | h <;> simp [h] at g

theorem State.enableSub_off {n k : Nat} (there : subExists n k = true) (low : s.is (enField n k) = false)
    (heard : s.enIgnored = false) (off : (s.sub n k).state = .off) :
    s.enableSub n k = (s.setFld (enField n k) 1).setSub n k (SubChan.started s.now (s.sub n k)) := by
  have state : ((s.setFld (enField n k) 1).sub n k).state = .off := off
  unfold State.enableSub
  rw [if_pos (by simp [there, low, heard])]
  dsimp only
  rw [state]
  rfl

theorem State.is_setFld_one (n k : Nat) : (s.setFld (enField n k) 1).is (enField n k) = true := by
  have wide : (enField n k).width = 1 := by unfold enField; split <;> rfl
  rw [State.is, State.fld_setFld_self _ (enField_inside n k), wide]
  rfl

theorem State.disableSub_on {n k : Nat} (there : subExists n k = true) (high : s.is (enField n k) = true) :
    s.disableSub n k = ((s.setFld (enField n k) 0).pgFall n k).cutSub n k := by
  rw [State.disableSub_eq, if_pos ⟨there, high⟩]

/-- What the clearing of an enable makes of its sub-channel. -/
theorem State.sub_cutSub_self (n k : Nat) : ((s.cutSub n k).sub n k).pg = (s.sub n k).pg ∧
    ((s.cutSub n k).sub n k).disabledAt = some s.now ∧
    ((s.sub n k).state ≠ .latched → ((s.cutSub n k).sub n k).state = .off) ∧
    ((s.sub n k).state = .latched → ((s.cutSub n k).sub n k).state = .latched) := by
  unfold State.cutSub
  split
  · next latched =>
    rw [State.sub_setSub_self]
    exact ⟨rfl, rfl, fun h => absurd latched h, fun h => h⟩
  · next other =>
    rw [State.sub_setSub_self]
    exact ⟨rfl, rfl, fun _ => rfl, fun h => absurd h other⟩

theorem State.sub_cutSub_ne {n k i j : Nat} (h : n * 2 + k ≠ i * 2 + j) : (s.cutSub n k).sub i j = s.sub i j := by
  unfold State.cutSub
  split <;> exact s.sub_setSub_ne h _

theorem State.subsOnly_cutSub (n k : Nat) : s.SubsOnly (s.cutSub n k) := by
  unfold State.cutSub
  split <;> exact s.subsOnly_setSub n k _

/-! ### Latches (R582, R584) -/

/-- A sub-channel as a latch leaves it. -/
def SubChan.latchedOff (cause : Nat) (x : SubChan) : SubChan :=
  { x with state := .latched, cause := cause, pg := false, limiting := none, reverse := false }

section
variable (n k c d : Nat)

theorem State.tallyBay_frame (f : Fld) : Frame [.regs, .wdn, .mgt] s (s.tallyBay f n c) := s.tallyFlag_frame _ _ _ _

theorem State.is_tallyBay {f : Fld} (h : f.addr < 0xF00000) (g : Fld) : (s.tallyBay g n c).is f = s.is f :=
  State.is_of_word (State.word_tallyRaw_below h ..)

/-- The state before a latch is told. -/
def State.latching : State := (s.pgFall n k).setSub n k { (s.pgFall n k).sub n k with
  state := .latched, cause := c, limiting := none, reverse := false }

theorem State.latchOne_eq : s.latchOne n k c d =
    ((((s.latching n k c).flag F.BAY_STATUS_LATCHED).bump (causeCounter n d)).tallyBay F.BAY_STATUS_LATCHED n c).event (.bayFault n) := rfl

theorem State.latchOne_told : Frame [.regs, .wdn, .mgt] (s.latching n k c) (s.latchOne n k c d) :=
  (((State.flag_frame _ _).append (State.bump_frame _ _ _)).append
    ((State.tallyBay_frame _ _ _ _).append (State.event_frame _ _))).mono (by decide)

theorem State.latchOne_frame : Frame [.bay, .regs, .wdn, .mgt] s (s.latchOne n k c d) :=
  (((s.pgFall_frame n k).append (State.setSub_frame _ n k _)).append (s.latchOne_told n k c d)).mono (by decide)

theorem State.subsOnly_latchOne : s.SubsOnly (s.latchOne n k c d) :=
  ((s.subsOnly_pgFall n k).trans (State.subsOnly_setSub _ n k _)).trans (.of_bay (s.latchOne_told n k c d).bay_eq)

theorem State.sub_latchOne_self : (s.latchOne n k c d).sub n k = SubChan.latchedOff c (s.sub n k) := by
  rw [State.sub_congr (s.latchOne_told n k c d).bay_eq, State.latching, State.sub_setSub_self, State.sub_pgFall_self]
  rfl

theorem State.sub_latchOne_ne {i j : Nat} (h : n * 2 + k ≠ i * 2 + j) : (s.latchOne n k c d).sub i j = s.sub i j := by
  rw [State.sub_congr (s.latchOne_told n k c d).bay_eq, State.latching, State.sub_setSub_ne _ h, State.sub_pgFall_ne _ _ _ h]

theorem causeCounter_far : F.BAY_STATUS_LATCHED.addr + 4 < causeCounter n d := by
  unfold causeCounter
  split
  · show 0xB00004 + 4 < 0xB01000 + 32 * n; omega
  · split
    · show 0xB00004 + 4 < 0xB01008 + 32 * n; omega
    · show 0xB00004 + 4 < 0xB01010 + 32 * n; omega

/-- A latch is told, and not unsaid by the record of it. -/
theorem State.is_latchOne : (s.latchOne n k c d).is F.BAY_STATUS_LATCHED = true := by
  have far := causeCounter_far n d
  rw [State.latchOne_eq, State.is_congr (State.event_regs _ _), State.is_tallyBay _ _ _ (by decide),
    State.is_bump_ne _ 1 (by omega) (by omega)]
  exact State.is_flag _ (by decide) (by decide)

theorem State.events_latchOne : Event.bayFault n ∈ (s.latchOne n k c d).wdn.events := by
  rw [State.latchOne_eq]
  exact List.mem_append_right _ (List.mem_singleton.2 rfl)

end

/-- What a latch leaves: the sub-channel off with its cause, its partner with it where that runs, and all other sub-channels. -/
structure State.Latched (s t : State) (n k c : Nat) : Prop where
  frame : Frame [.bay, .regs, .wdn, .mgt] s t
  subs : s.SubsOnly t
  self : t.sub n k = SubChan.latchedOff c (s.sub n k)
  partner : n < 24 → (s.sub n (1 - k)).runs = true → t.sub n (1 - k) = SubChan.latchedOff 4 (s.sub n (1 - k))
  idle : (s.sub n (1 - k)).runs = false → t.sub n (1 - k) = s.sub n (1 - k)
  others : ∀ i, i ≠ n → t.sub i 0 = s.sub i 0 ∧ t.sub i 1 = s.sub i 1
  told : t.is F.BAY_STATUS_LATCHED = true
  event : Event.bayFault n ∈ t.wdn.events

theorem State.latchOff_latched {n k : Nat} (there : subExists n k = true) (runs : (s.sub n k).runs = true) (c : Nat) :
    s.Latched (s.latchOff n k c) n k c := by
  have small := sub_lt_two there
  have ne : n * 2 + k ≠ n * 2 + (1 - k) := by omega
  have apart {i j m : Nat} (hi : i ≠ n) (hj : j < 2) (hm : m < 2) : n * 2 + m ≠ i * 2 + j := by omega
  have partner := s.sub_latchOne_ne n k c c ne
  have off : s.latchOff n k c = if n < 24 ∧ ((s.latchOne n k c c).sub n (1 - k)).runs then (s.latchOne n k c c).latchOne n (1 - k) 4 c
      else s.latchOne n k c c := if_pos ⟨there, runs⟩
  rw [off, partner]
  by_cases both : n < 24 ∧ (s.sub n (1 - k)).runs = true
  · rw [if_pos both]
    refine ⟨((s.latchOne_frame n k c c).append (State.latchOne_frame _ n (1 - k) 4 c)).mono (by decide),
      (s.subsOnly_latchOne n k c c).trans (State.subsOnly_latchOne _ n (1 - k) 4 c), ?_, fun _ _ => ?_,
      fun idle => absurd both.2 (by simp [idle]), fun i hi => ⟨?_, ?_⟩, State.is_latchOne _ n (1 - k) 4 c,
      State.events_latchOne _ n (1 - k) 4 c⟩
    · rw [State.sub_latchOne_ne _ n (1 - k) 4 c ne.symm, s.sub_latchOne_self]
    · rw [State.sub_latchOne_self, partner]
    · rw [State.sub_latchOne_ne _ n (1 - k) 4 c (apart hi (by omega) (by omega)),
        s.sub_latchOne_ne n k c c (apart hi (by omega) small)]
    · rw [State.sub_latchOne_ne _ n (1 - k) 4 c (apart hi (by omega) (by omega)),
        s.sub_latchOne_ne n k c c (apart hi (by omega) small)]
  · rw [if_neg both]
    exact ⟨s.latchOne_frame n k c c, s.subsOnly_latchOne n k c c, s.sub_latchOne_self n k c c, fun hn hr => absurd ⟨hn, hr⟩ both,
      fun _ => partner, fun i hi => ⟨s.sub_latchOne_ne n k c c (apart hi (by omega) small),
        s.sub_latchOne_ne n k c c (apart hi (by omega) small)⟩, s.is_latchOne n k c c, s.events_latchOne n k c c⟩

/-! ### Limits (R595) -/

/-- A channel that is past its limit is told and noted, however it stood. -/
theorem State.limitCheck_past {n : Nat} (set : (s.bayLimit n).getD 0 ≠ 0)
    (past : 100 * (((s.bayLimit n).getD 0 : Nat) : Int) < s.chanAverage n) :
    (s.limitCheck n).bay.overLimit.contains n = true ∧ (s.limitCheck n).is F.BAY_STATUS_OVER_LIMIT = true := by
  unfold State.limitCheck
  dsimp only
  rw [if_neg (by omega), if_pos past]
  split
  · next noted => exact ⟨noted, State.is_flag _ (by decide) (by decide)⟩
  · have bay := (State.tallyBay_frame ((s.onBay fun b => { b with overLimit := insertNat n b.overLimit }).flag F.BAY_STATUS_OVER_LIMIT)
      n 0 F.BAY_STATUS_OVER_LIMIT).bay_eq
    refine ⟨?_, ?_⟩
    · rw [bay]
      exact List.contains_iff_mem.2 (mem_insertNat.2 (.inl rfl))
    · rw [State.is_tallyBay _ _ _ (by decide)]
      exact State.is_flag _ (by decide) (by decide)

/-- A channel back within 95% of its limit is noted no more. -/
theorem State.limitCheck_within {n : Nat} (set : (s.bayLimit n).getD 0 ≠ 0)
    (within : 100 * s.chanAverage n ≤ 95 * (100 * (((s.bayLimit n).getD 0 : Nat) : Int))) :
    s.limitCheck n = s.onBay fun b => { b with overLimit := b.overLimit.filter fun m => m != n } := by
  unfold State.limitCheck
  dsimp only
  rw [if_neg (by omega), if_neg (by omega), if_pos within]

theorem State.subs_limitCheck (n : Nat) : (s.limitCheck n).bay.subs = s.bay.subs := by
  unfold State.limitCheck
  dsimp only
  split
  · rfl
  · split
    · split
      · rfl
      · rw [(State.tallyBay_frame _ n 0 F.BAY_STATUS_OVER_LIMIT).bay_eq]
        rfl
    · split <;> rfl

end Sys2Proof.Machine
end

section
/-!
The statement about bay and feed power (15_bay_power.md Table 15-2, R578 to R595).
-/

namespace Sys2Proof.Machine

-- Proofs in sequence: the stack of every thread that waits counts against the memory limit of the check.
set_option Elab.async false

/-- What changes sub-channels and registers alone. -/
theorem State.SubsOnly.eq_regs {s t : State} (subs : s.SubsOnly t) (frame : Frame [.bay, .regs] s t) :
    t = { s with bay := { s.bay with subs := t.bay.subs }, regs := t.regs } := by
  rw [← subs]
  exact frame.eq_take

/-- Reverse current is counted (R587). -/
theorem State.pair_reverse (s : State) (n : Nat) : ((s.bump (A.BAY_REVERSE_EVENTS n)).flag F.BAY_STATUS_REVERSE).pair
    (A.BAY_REVERSE_EVENTS n) = (s.pair (A.BAY_REVERSE_EVENTS n) + 1) % 2 ^ 64 := by
  have low : F.BAY_STATUS_REVERSE.addr ≠ A.BAY_REVERSE_EVENTS n := by show 0xB00004 ≠ 0xB01018 + 32 * n; omega
  have high : F.BAY_STATUS_REVERSE.addr ≠ A.BAY_REVERSE_EVENTS n + 4 := by show 0xB00004 ≠ 0xB01018 + 32 * n + 4; omega
  rw [State.pair_of_word (State.word_flag_ne _ low) (State.word_flag_ne _ high), State.pair_bump_self]

/-! ### The selection of a reported set (R594, Table 15-7) -/

/-- A field that software writes holds after the write what was written. -/
theorem State.getBits_storeWord {a : Nat} {d : RegDesc} (hd : regDesc a = some d) {f : FieldDesc} (hf : f ∈ d.fields) (free : f.acc = .rw)
    (s : State) (v : Word) : getBits ((s.storeWord d a v).word a) f.lo f.width = getBits v f.lo f.width := by
  rw [State.storeWord, State.word_setWord_self, getBits_storeFields hd hf, FieldDesc.stored, free]

/-- BAY_TEL_SEL, as Table 15-7 has it. -/
def telSelDesc : RegDesc := ⟨0xB0000C, 1, 4, false, [⟨0, 5, .rw, 0⟩, ⟨8, 1, .rw, 0⟩]⟩

theorem regDesc_telSel : regDesc A.BAY_TEL_SEL = some telSelDesc := by decide +kernel

/-- BAY_TEL_SEL written. -/
def State.telSelected (s : State) (v : Word) : State := (s.storeWord telSelDesc A.BAY_TEL_SEL v).telSelect

theorem State.busWrite_telSel {s : State} {p : Path} (bus : s.busOn = true) (lets : s.modeLets p A.BAY_TEL_SEL = true) (v : Word) :
    s.busWrite p A.BAY_TEL_SEL v = s.telSelected v := State.busWrite_word bus lets regDesc_telSel rfl

theorem State.tel_telSelected (s : State) (v : Word) (there : subExists (fval F.BAY_TEL_SEL_CHANNEL v) (fval F.BAY_TEL_SEL_SUB v) = true) :
    (s.telSelected v).bay.tel = ((s.sub (fval F.BAY_TEL_SEL_CHANNEL v) (fval F.BAY_TEL_SEL_SUB v)).vout,
      (s.sub (fval F.BAY_TEL_SEL_CHANNEL v) (fval F.BAY_TEL_SEL_SUB v)).vin,
          (s.sub (fval F.BAY_TEL_SEL_CHANNEL v) (fval F.BAY_TEL_SEL_SUB v)).cur,
      (s.sub (fval F.BAY_TEL_SEL_CHANNEL v) (fval F.BAY_TEL_SEL_SUB v)).pow, s.chanAverage (fval F.BAY_TEL_SEL_CHANNEL v)) := by
  have channel : (s.storeWord telSelDesc A.BAY_TEL_SEL v).fld F.BAY_TEL_SEL_CHANNEL = fval F.BAY_TEL_SEL_CHANNEL v :=
    State.getBits_storeWord regDesc_telSel (f := ⟨0, 5, .rw, 0⟩) List.mem_cons_self rfl s v
  have sub : (s.storeWord telSelDesc A.BAY_TEL_SEL v).fld F.BAY_TEL_SEL_SUB = fval F.BAY_TEL_SEL_SUB v :=
    State.getBits_storeWord regDesc_telSel (f := ⟨8, 1, .rw, 0⟩) (List.mem_cons_of_mem _ List.mem_cons_self) rfl s v
  unfold State.telSelected State.telSelect
  dsimp only
  rw [channel, sub]
  show (if _ then _ else _) = _
  rw [if_pos there]
  rfl

/-- Settles O41: every row of Table 15-2 is a change of one sub-channel, told in BAY_STATUS; a latch is that change and the same of the
partner that runs; telemetry changes what a sub-channel reports, and its selection latches what is reported at that time. -/
theorem bayPower : Obligations.BayPower := by
  unfold Obligations.BayPower
  refine ⟨⟨fun p n k s bus lets there => ⟨fun low heard off => ?enable, fun ignored => ?ignored, fun high => ?disable⟩,
    fun n k s bus there => ⟨fun runs none low => ?given, fun none high => ?lost, fun limits => ?limits, fun runs none => ?start, ?stop,
      fun off runs change => ?reverse⟩,
    fun n k t0 s bus there latched cut => ⟨fun low late => ?release, fun held => ?held⟩,
    fun n k cause c s bus there runs trip => ?trip⟩,
    fun x s bus there free due => ?telemetry, fun n s set => ⟨fun past => s.limitCheck_past set past, fun within => ?within,
        s.subs_limitCheck n⟩,
    fun p v n k s bus lets hn hk => ?select⟩
  case enable =>
    have small := sub_lt_two there
    have on := s.enableSub_off there low heard off
    have frame := (s.setFld_frame (enField n k) 1).append (State.setSub_frame (s.setFld (enField n k) 1) n k
        (SubChan.started s.now (s.sub n k)))
    exact ⟨_, State.bus_next bus lets ((if_pos there).trans on) frame.pending_eq, State.SubsOnly.eq_regs rfl (frame.mono (by decide)),
      s.is_setFld_one n k, State.sub_setSub_self _ n k _, fun i j h ne => State.sub_setSub_ne _ (subPlace_ne small (sub_lt_two h) ne) _⟩
  case ignored => exact State.bus_next bus lets ((if_pos there).trans (s.enableSub_ignored ignored)) rfl
  case disable =>
    have small := sub_lt_two there
    have off := s.disableSub_on there high
    obtain ⟨pg, at_, cut, kept⟩ := ((s.setFld (enField n k) 0).pgFall n k).sub_cutSub_self n k
    rw [← off] at pg at_ cut kept
    rw [State.sub_pgFall_self] at pg cut kept
    have now : ((s.setFld (enField n k) 0).pgFall n k).now = s.now := (State.pgFall_frame _ n k).now_eq
    have frame := s.disableSub_frame n k
    refine ⟨_, State.bus_next bus lets (if_pos there) frame.pending_eq, State.SubsOnly.eq_regs ?_ frame, s.is_disableSub_self there, pg,
      at_.trans (congrArg some now), cut, kept, fun good => ?_, fun i j h ne => ?_⟩
    · rw [off]
      exact (State.subsOnly_pgFall (s.setFld (enField n k) 0) n k).trans (State.subsOnly_cutSub _ n k)
    · rw [off, State.is_congr (State.cutSub_frame _ n k).regs_eq]
      exact State.is_pgFall (s.setFld (enField n k) 0) n k good
    · have place := subPlace_ne small (sub_lt_two h) ne
      rw [off, State.sub_cutSub_ne _ place, State.sub_pgFall_ne _ n k place]
      rfl
  case given =>
    have small := sub_lt_two there
    have good : s.pgGive n k = ((s.setSub n k { s.sub n k with state := .on, pg := true }).flag F.BAY_STATUS_PG_CHANGE).portPower n :=
      if_pos ⟨there, runs, none, by simp [low]⟩
    have port := State.portPower_frame ((s.setSub n k { s.sub n k with state := .on, pg := true }).flag F.BAY_STATUS_PG_CHANGE) n
    have frame : Frame [.bay, .regs, .drv] s (s.pgGive n k) := by
      rw [good]
      exact ((s.setSub_frame n k _).append (State.flag_frame _ _)).append port
    have subs : s.SubsOnly (s.pgGive n k) := by
      rw [good]
      exact (s.subsOnly_setSub n k _).trans (.of_bay port.bay_eq)
    refine ⟨s.pgGive n k, State.gate_next bus rfl frame.pending_eq, ?_, ?_, ?_, fun i j h ne => ?_⟩
    · rw [← subs]
      exact frame.eq_take
    · rw [good, State.sub_congr port.bay_eq, State.sub_flag, State.sub_setSub_self]
    · rw [good, State.is_congr port.regs_eq]
      exact State.is_flag _ (by decide) (by decide)
    · rw [good, State.sub_congr port.bay_eq, State.sub_flag, State.sub_setSub_ne _ (subPlace_ne small (sub_lt_two h) ne)]
  case lost =>
    have small := sub_lt_two there
    have frame := s.pgFall_frame n k
    exact ⟨_, State.gate_next bus (if_pos ⟨there, none⟩) frame.pending_eq, (s.subsOnly_pgFall n k).eq_regs frame, s.sub_pgFall_self n k,
      s.is_pgFall n k high, fun i j h ne => s.sub_pgFall_ne n k (subPlace_ne small (sub_lt_two h) ne)⟩
  case limits =>
    have kept : s.pgLose n k = s := if_neg fun h => by simp [h.2] at limits
    exact State.gate_next bus kept rfl
  case start => exact State.gate_next bus (if_pos ⟨there, runs, none⟩) rfl
  case stop => exact State.gate_next bus (if_pos there) rfl
  case reverse =>
    have moved : s.reverse n k off = if off then ((s.setSub n k { s.sub n k with reverse := off }).bump (A.BAY_REVERSE_EVENTS n)).flag
        F.BAY_STATUS_REVERSE else s.setSub n k { s.sub n k with reverse := off } := if_neg (by simp [there, runs, change])
    cases off with
    | false =>
      exact ⟨_, State.gate_next bus moved rfl, State.SubsOnly.eq_regs rfl ((s.setSub_frame n k _).mono (by decide)),
        s.sub_setSub_self n k _, fun _ => rfl, fun h => absurd h (by decide)⟩
    | true =>
      have frame := ((s.setSub_frame n k { s.sub n k with reverse := true }).append (State.bump_frame _ (A.BAY_REVERSE_EVENTS n) 1)).append
        (State.flag_frame _ F.BAY_STATUS_REVERSE)
      refine ⟨_, State.gate_next bus moved frame.pending_eq, State.SubsOnly.eq_regs rfl (frame.mono (by decide)), s.sub_setSub_self n k _,
        fun h => absurd h (by decide), fun _ => ⟨State.is_flag _ (by decide) (by decide), ?_⟩⟩
      exact State.pair_reverse (s.setSub n k { s.sub n k with reverse := true }) n
  case release =>
    have released : s.latchRelease n k = s.setSub n k { s.sub n k with state := .off, disabledAt := none } := by
      unfold State.latchRelease
      dsimp only
      rw [latched, cut]
      exact if_pos ⟨there, by simp [low], late⟩
    exact State.gate_next bus released rfl
  case held =>
    have waits : s.latchRelease n k = s := by
      unfold State.latchRelease
      dsimp only
      rw [latched, cut]
      exact if_neg fun h => held.elim (fun early => Nat.not_le.2 early h.2.2) fun high => by simp [high] at h
    exact State.gate_next bus waits rfl
  case trip =>
    have latched := s.latchOff_latched there runs cause
    have row : exec c s = .next (s.latchOff n k cause) := by
      rcases trip with ⟨rfl, rfl, armed⟩ | ⟨rfl, rfl, t0, limits, late⟩ | ⟨rfl, rfl, ramping, low, late⟩
      · exact State.gate_next bus (if_pos armed) latched.frame.pending_eq
      · have due : s.timerTrip n k = s.latchOff n k 2 := by
          rw [State.timerTrip, limits]
          exact if_pos late
        exact State.gate_next bus due latched.frame.pending_eq
      · exact State.gate_next bus (if_pos ⟨ramping, by simp [low], late⟩) latched.frame.pending_eq
    refine ⟨_, row, ?_, latched.self, latched.partner, latched.idle, fun i hi => ⟨(latched.others i hi).1,
        fun _ => (latched.others i hi).2⟩,
      latched.told, latched.event⟩
    rw [← latched.subs]
    exact latched.frame.eq_take
  case telemetry =>
    have small := sub_lt_two there
    let w := s.serve Tick.telemetry (s.now / 1000000 * 1000000)
    have sample : w.telemetry [x] = w.setSub x.channel x.sub ((s.sub x.channel x.sub).update x) := by
      have one : w.each [x] (fun s t =>
          if subExists t.channel t.sub then s.setSub t.channel t.sub ((s.sub t.channel t.sub).update t) else s) =
          w.setSub x.channel x.sub ((s.sub x.channel x.sub).update x) := if_pos there
      unfold State.telemetry
      rw [one]
      have off : (w.setSub x.channel x.sub ((s.sub x.channel x.sub).update x)).is F.BAY_CTRL_LIMIT_EN = false := free
      exact if_neg (by rw [off]; decide)
    have row : s.every Tick.telemetry 1000000 (fun s => s.telemetry [x]) =
      w.setSub x.channel x.sub ((s.sub x.channel x.sub).update x) := (State.every_serve due _).trans sample
    exact ⟨_, State.gate_next bus row rfl, rfl, w.sub_setSub_self x.channel x.sub _,
      fun i j h ne => w.sub_setSub_ne (subPlace_ne small (sub_lt_two h) ne) _⟩
  case within =>
    rw [s.limitCheck_within set within]
    show (List.filter _ _).contains n = false
    simp
  case select =>
    subst hn hk
    exact ⟨_, State.row_next (State.busWrite_telSel bus lets v) rfl, rfl, fun a ha => State.word_setWord_ne s (Ne.symm ha) _,
      s.tel_telSelected v⟩

end Sys2Proof.Machine
end

section
/-!
SUPPORT. Laws of the Wardens' cores (16_wardens.md): a core after a change of it and the others, the cores that run, and what a fence, a
retirement, a disagreement and a lost majority make of the complex.
-/

namespace Sys2Proof.Machine

-- Proofs in sequence: the stack of every thread that waits counts against the memory limit of the check.
set_option Elab.async false

variable {s t : State} {n k : Nat}

/-! ### A core and the others -/

theorem State.core_congr (h : t.wdn.cores = s.wdn.cores) (n : Nat) : t.core n = s.core n := by rw [State.core, State.core, h]

theorem State.activeCores_congr (h : t.wdn.cores = s.wdn.cores) : t.activeCores = s.activeCores := by
  simp only [State.activeCores, State.core_congr h]

@[simp] theorem State.core_setCore_self (s : State) (n : Nat) (c : WCore) : (s.setCore n c).core n = c := Tab.getD_set_self ..

theorem State.core_setCore_ne (h : k ≠ n) (c : WCore) : (s.setCore n c).core k = s.core k := Tab.getD_set_ne (Ne.symm h) ..

theorem State.setCore_frame (s : State) (n : Nat) (c : WCore) : Frame [.wdn] s (s.setCore n c) := s.onWdn_frame _

theorem State.mem_activeCores : n ∈ s.activeCores ↔ n < 3 ∧ (s.core n).state = .active := by
  simp [State.activeCores, List.mem_filter]

theorem State.activeCores_nodup (s : State) : s.activeCores.Nodup := List.nodup_range.filter _

/-- A core that leaves ACTIVE leaves the cores that run. -/
theorem State.activeCores_leave (self : (t.core n).state ≠ .active) (others : ∀ k, k ≠ n → t.core k = s.core k) :
    t.activeCores = s.activeCores.filter fun k => k != n := by
  unfold State.activeCores
  rw [List.filter_filter]
  refine List.filter_congr fun k _ => ?_
  by_cases h : k = n
  · subst h
    simp [self]
  · simp [others k h, h]

/-- Cores that change in the same way, one by one. -/
theorem State.core_each {f : WCore → WCore} {l : List Nat} (hl : l.Nodup) (s : State) (n : Nat) :
    (s.each l fun s k => s.setCore k (f (s.core k))).core n = if n ∈ l then f (s.core n) else s.core n :=
  State.each_own (get := State.core) (g := f) (fun s i => s.core_setCore_self i _) (fun _ _ _ h => State.core_setCore_ne h _) hl s n

theorem State.setCores_frame (f : State → Nat → WCore) (l : List Nat) (s : State) :
    Frame [.wdn] s (s.each l fun s k => s.setCore k (f s k)) := Frame.each (fun s k => s.setCore_frame k _) l s

/-! ### The mode of the complex -/

theorem State.complexMode_frame (s : State) : Frame [.wdn] s s.complexMode := by
  obtain ⟨m, e⟩ := s.complexMode_spec
  rw [e]
  exact s.onWdn_frame _

theorem State.wdn_complexMode (s : State) : s.complexMode.wdn = { s.wdn with mode := s.complexMode.wdn.mode } := by
  obtain ⟨m, e⟩ := s.complexMode_spec
  rw [e]
  rfl

theorem State.core_complexMode (s : State) (n : Nat) : s.complexMode.core n = s.core n :=
  State.core_congr (by rw [State.wdn_complexMode]) n

/-- While the complex runs, its mode is that of the number of its cores. -/
theorem State.mode_complexMode (restart : s.wdn.mode ≠ .restarting) (halt : s.wdn.mode ≠ .halted) :
    s.complexMode.wdn.mode = if s.activeCores.length = 3 then .triple else .duplex := by
  unfold State.complexMode
  split
  · next h => exact absurd h restart
  · next h => exact absurd h halt
  · rfl

theorem State.running_modes (h : s.complexRuns = true) : s.wdn.mode ≠ .restarting ∧ s.wdn.mode ≠ .halted := by
  simp only [State.complexRuns, Bool.or_eq_true, decide_eq_true_eq] at h
  rcases h with h | h <;> rw [h] <;> decide

theorem State.complexRuns_congr (h : t.wdn.mode = s.wdn.mode) : t.complexRuns = s.complexRuns := by
  rw [State.complexRuns, State.complexRuns, h]

/-! ### Fences and retirements (R607, R609, R612) -/

section
variable (s n)

/-- A fence before the mode follows it. -/
def State.fenceNoted : State := (s.setCore n { s.core n with
  state := .fenced, since := s.now, wfi := false, fences := s.now :: within24h s.now (s.core n).fences }).flag F.WDN_STATUS_FENCED

theorem State.coreFence_eq : s.coreFence n = (s.fenceNoted n).complexMode := rfl

theorem State.coreFence_frame : Frame [.wdn, .regs] s (s.coreFence n) :=
  (((s.setCore_frame n _).append (State.flag_frame _ _)).append (State.complexMode_frame _)).mono (by decide)

theorem State.core_coreFence_self : (s.coreFence n).core n = { s.core n with
    state := .fenced, since := s.now, wfi := false, fences := s.now :: within24h s.now (s.core n).fences } := by
  rw [State.coreFence, State.core_complexMode]
  exact s.core_setCore_self n _

theorem State.core_coreFence_ne (h : k ≠ n) : (s.coreFence n).core k = s.core k := by
  rw [State.coreFence, State.core_complexMode]
  exact State.core_setCore_ne h _

theorem State.is_coreFence : (s.coreFence n).is F.WDN_STATUS_FENCED = true := by
  rw [State.coreFence, State.is_congr (State.complexMode_frame _).regs_eq]
  exact State.is_flag _ (by decide) (by decide)

theorem State.fld_coreFence {f : Fld} (h : F.WDN_STATUS_FENCED.apart f) : (s.coreFence n).fld f = s.fld f := by
  rw [State.coreFence, State.fld_congr (State.complexMode_frame _).regs_eq]
  exact State.fld_flag_apart _ h

theorem State.activeCores_coreFence : (s.coreFence n).activeCores = s.activeCores.filter fun k => k != n := by
  refine State.activeCores_leave ?_ fun k h => s.core_coreFence_ne n h
  rw [State.core_coreFence_self]
  show CoreState.fenced ≠ .active
  decide

/-- A fence of one of three running cores leaves two. -/
theorem State.mode_coreFence (runs : s.complexRuns = true) (all : s.activeCores = [0, 1, 2]) (hn : n < 3) :
    (s.coreFence n).wdn.mode = .duplex := by
  obtain ⟨restart, halt⟩ := State.running_modes runs
  have left : (s.fenceNoted n).activeCores = s.activeCores.filter fun k => k != n := by
    rw [← s.activeCores_coreFence n, State.coreFence_eq]
    exact (State.activeCores_congr (by rw [State.wdn_complexMode])).symm
  rw [State.coreFence_eq]
  rw [State.mode_complexMode (s := s.fenceNoted n) restart halt, left, all]
  rcases (by omega : n = 0 ∨ n = 1 ∨ n = 2) with rfl | rfl | rfl <;> rfl

theorem State.coreRetire_frame : Frame [.wdn, .attic, .regs] s (s.coreRetire n) :=
  ((((s.setCore_frame n _).append (State.onAttic_frame _ _)).append (State.flag_frame _ _)).append (State.complexMode_frame _)).mono
      (by decide)

theorem State.core_coreRetire_self : ((s.coreRetire n).core n).state = .retired := by
  rw [State.coreRetire, State.core_complexMode]
  exact congrArg WCore.state (s.core_setCore_self n _)

theorem State.core_coreRetire_ne (h : k ≠ n) : (s.coreRetire n).core k = s.core k := by
  rw [State.coreRetire, State.core_complexMode]
  exact State.core_setCore_ne h _

theorem State.attic_coreRetire : (s.coreRetire n).attic = { s.attic with cores := insertNat n s.attic.cores } := by
  rw [State.coreRetire, (State.complexMode_frame _).attic_eq]
  rfl

theorem State.is_coreRetire : (s.coreRetire n).is F.WDN_STATUS_CORE_RETIRED = true := by
  rw [State.coreRetire, State.is_congr (State.complexMode_frame _).regs_eq]
  exact State.is_flag _ (by decide) (by decide)

theorem State.regs_coreRetire : (s.coreRetire n).regs = (s.flag F.WDN_STATUS_CORE_RETIRED).regs := by
  rw [State.coreRetire, (State.complexMode_frame _).regs_eq]
  rfl

/-- A complex that does not run keeps its mode at a retirement. -/
theorem State.mode_coreRetire (h : s.wdn.mode = .restarting) : (s.coreRetire n).wdn.mode = .restarting := by
  have still : (((s.setCore n { s.core n with state := .retired, since := s.now, wfi := false }).onAttic fun a =>
      { a with cores := insertNat n a.cores }).flag F.WDN_STATUS_CORE_RETIRED).wdn.mode = .restarting := h
  unfold State.coreRetire State.complexMode
  dsimp only
  rw [still]
  exact still

end

/-! ### Disagreements (R606, R607, R608) -/

section
variable (s) (mask site i : Nat)

/-- The state of a disagreement before its record. -/
def State.disagreeing : State :=
  ((((s.setFld F.WDN_DISAGREE_CORE mask).setFld F.WDN_DISAGREE_SITE site).bump A.WDN_DISAGREEMENTS).flag F.WDN_STATUS_DISAGREE).onWdn
    fun w => { w with disagreements := s.now :: within24h s.now w.disagreements }

theorem State.disagreed_eq : s.disagreed mask site i = (s.disagreeing mask site).tallyFlag .hardware F.WDN_STATUS_DISAGREE i
    [((s.disagreeing mask site).word A.WDN_DISAGREE).toNat, site] := rfl

theorem State.pair_setFld_ne {f : Fld} {a : Nat} (h : f.addr ≠ a) (h' : f.addr ≠ a + 4) (v : Nat) : (s.setFld f v).pair a = s.pair a :=
  State.pair_of_word (s.word_setFld_ne h v) (s.word_setFld_ne h' v)

theorem State.regs_disagreeing : (s.disagreeing mask site).regs = ((((s.setFld F.WDN_DISAGREE_CORE mask).setFld F.WDN_DISAGREE_SITE
    site).bump A.WDN_DISAGREEMENTS).flag F.WDN_STATUS_DISAGREE).regs := rfl

theorem State.disagreed_frame : Frame [.regs, .wdn, .mgt] s (s.disagreed mask site i) := by
  have told := (((s.setFld_frame F.WDN_DISAGREE_CORE mask).append (State.setFld_frame _ F.WDN_DISAGREE_SITE site)).append
    (State.bump_frame _ A.WDN_DISAGREEMENTS 1)).append (State.flag_frame _ F.WDN_STATUS_DISAGREE)
  rw [State.disagreed_eq]
  exact ((told.append (State.onWdn_frame _ _)).append (State.tallyFlag_frame _ _ _ _ _)).mono (by decide)

theorem State.wdn_disagreed : (s.disagreed mask site i).wdn =
    { s.wdn with disagreements := s.now :: within24h s.now s.wdn.disagreements } := by
  rw [State.disagreed_eq]
  exact State.tallyRaw_wdn (by decide) ..

/-- A record is no part of the Wardens' registers. -/
theorem State.word_disagreed {a : Nat} (h : a < 0xF00000) : (s.disagreed mask site i).word a = (s.disagreeing mask site).word a := by
  rw [State.disagreed_eq]
  exact State.word_tallyRaw_below h ..

theorem State.fld_disagreed {f : Fld} (h : f.addr = A.WDN_DISAGREE) : (s.disagreed mask site i).fld f =
    ((s.setFld F.WDN_DISAGREE_CORE mask).setFld F.WDN_DISAGREE_SITE site).fld f := by
  have word : (s.disagreed mask site i).word f.addr = ((s.setFld F.WDN_DISAGREE_CORE mask).setFld F.WDN_DISAGREE_SITE site).word
      f.addr := by
    rw [State.word_disagreed _ _ _ _ (by rw [h]; decide), h]
    rw [State.word_congr (s.regs_disagreeing mask site), State.word_flag_ne _ (by decide), State.word_bump_ne _ 1 (by decide) (by decide)]
  rw [State.fld, State.fld, word]

theorem State.site_disagreed : (s.disagreed mask site i).fld F.WDN_DISAGREE_SITE = site % 8 := by
  rw [State.fld_disagreed s mask site i rfl]
  exact State.fld_setFld_self _ (by decide) site

theorem State.core_disagreed_fld : (s.disagreed mask site i).fld F.WDN_DISAGREE_CORE = mask % 8 := by
  rw [State.fld_disagreed s mask site i rfl, State.fld_setFld_apart _ (.inr (.inl (by decide)))]
  exact State.fld_setFld_self _ (by decide) mask

theorem State.pair_disagreed : (s.disagreed mask site i).pair A.WDN_DISAGREEMENTS = (s.pair A.WDN_DISAGREEMENTS + 1) % 2 ^ 64 := by
  rw [State.pair_of_word (State.word_disagreed s mask site i (by decide)) (State.word_disagreed s mask site i (by decide)),
    State.pair_congr (s.regs_disagreeing mask site), State.pair_flag_ne (by decide) (by decide), State.pair_bump_self,
    State.pair_setFld_ne _ (by decide) (by decide), State.pair_setFld_ne _ (by decide) (by decide)]

end

/-- A core in the minority at a site has been FENCED. -/
theorem State.disagreed_fenced {s : State} {n site : Nat} (runs : s.complexRuns = true) (all : s.activeCores = [0, 1, 2]) (hn : n < 3)
    (hs : site < 8) : ∃ t, (s.disagreed (2 ^ n) site n).coreFence n = t ∧ Frame [.wdn, .regs, .mgt] s t ∧ (t.core n).state = .fenced ∧
      (t.core n).mem = (s.core n).mem ∧ (∀ k, k ≠ n → t.core k = s.core k) ∧ t.wdn.mode = .duplex ∧ t.fld F.WDN_DISAGREE_CORE = 2 ^ n ∧
      t.fld F.WDN_DISAGREE_SITE = site ∧ t.is F.WDN_STATUS_FENCED = true ∧
      t.pair A.WDN_DISAGREEMENTS = (s.pair A.WDN_DISAGREEMENTS + 1) % 2 ^ 64 := by
  have cores : (s.disagreed (2 ^ n) site n).wdn.cores = s.wdn.cores := by rw [State.wdn_disagreed]
  have mode : (s.disagreed (2 ^ n) site n).wdn.mode = s.wdn.mode := by rw [State.wdn_disagreed]
  have mask : 2 ^ n % 8 = 2 ^ n := by rcases (by omega : n = 0 ∨ n = 1 ∨ n = 2) with rfl | rfl | rfl <;> rfl
  have word (a : Nat) (h : F.WDN_STATUS_FENCED.addr ≠ a) :
      ((s.disagreed (2 ^ n) site n).coreFence n).word a = (s.disagreed (2 ^ n) site n).word a := by
    rw [State.coreFence_eq, State.word_congr (State.complexMode_frame _).regs_eq]
    rw [State.fenceNoted, State.word_flag_ne _ h, State.word_congr (State.setCore_frame _ n _).regs_eq]
  refine ⟨_, rfl, ((s.disagreed_frame _ site n).append (State.coreFence_frame _ n)).mono (by decide), ?_, ?_, fun k hk => ?_,
    State.mode_coreFence _ n ((State.complexRuns_congr mode).trans runs) ((State.activeCores_congr cores).trans all) hn, ?_, ?_,
    State.is_coreFence _ n, ?_⟩
  · rw [State.core_coreFence_self]
  · rw [State.core_coreFence_self]
    show ((s.disagreed (2 ^ n) site n).core n).mem = (s.core n).mem
    rw [State.core_congr cores]
  · rw [State.core_coreFence_ne _ n hk, State.core_congr cores]
  · rw [State.fld_coreFence _ n (.inl (by decide)), State.core_disagreed_fld, mask]
  · rw [State.fld_coreFence _ n (.inl (by decide)), State.site_disagreed, Nat.mod_eq_of_lt hs]
  · rw [State.pair_of_word (word _ (by decide)) (word _ (by decide)), State.pair_disagreed]

/-! ### No majority (R608) -/

section
variable (s : State)

/-- Every core that is not retired is held in reset. -/
def State.allTesting : State :=
  s.each ((List.range 3).filter fun n => decide ((s.core n).state ≠ .retired)) fun s n =>
    s.setCore n { s.core n with state := .testing, since := s.now, wfi := false }

theorem State.allTesting_frame : Frame [.wdn] s s.allTesting := State.setCores_frame (fun s n =>
  { s.core n with state := .testing, since := s.now, wfi := false }) _ s

theorem State.core_allTesting {k : Nat} (hk : k < 3) (there : (s.core k).state ≠ .retired) : (s.allTesting.core k).state = .testing := by
  have here : k ∈ (List.range 3).filter fun n => decide ((s.core n).state ≠ .retired) := by simp [hk, there]
  have once := State.each_own (get := fun s n => (s.core n).state) (g := fun _ => CoreState.testing)
    (step := fun s n => s.setCore n { s.core n with state := .testing, since := s.now, wfi := false })
    (fun s i => congrArg WCore.state (s.core_setCore_self i _)) (fun s i j h => congrArg WCore.state (State.core_setCore_ne h _))
    (l := (List.range 3).filter fun n => decide ((s.core n).state ≠ .retired)) (List.nodup_range.filter _) s k
  exact once.trans (if_pos here)

theorem State.noMajority_eq : s.noMajority = ((((s.disagreed 7 4 0).allTesting.onWdn fun w =>
    { w with mode := .restarting, restarts := (s.disagreed 7 4 0).allTesting.now ::
      within24h (s.disagreed 7 4 0).allTesting.now w.restarts }).bump A.WDN_RESTARTS).flag F.WDN_STATUS_RESTARTED) := rfl

theorem State.noMajority_frame : Frame [.regs, .wdn, .mgt] s s.noMajority := by
  rw [State.noMajority_eq]
  exact (((((s.disagreed_frame 7 4 0).append (State.allTesting_frame _)).append (State.onWdn_frame _ _)).append
    (State.bump_frame _ _ _)).append (State.flag_frame _ _)).mono (by decide)

theorem State.wdn_noMajority : s.noMajority.wdn = { (s.disagreed 7 4 0).allTesting.wdn with
    mode := .restarting, restarts := (s.disagreed 7 4 0).allTesting.now ::
      within24h (s.disagreed 7 4 0).allTesting.now (s.disagreed 7 4 0).allTesting.wdn.restarts } := by
  rw [State.noMajority_eq, (State.flag_frame _ _).wdn_eq, (State.bump_frame _ _ _).wdn_eq]
  rfl

theorem State.mode_noMajority : s.noMajority.wdn.mode = .restarting := by rw [State.wdn_noMajority]

theorem State.core_noMajority {k : Nat} (hk : k < 3) (there : (s.core k).state ≠ .retired) : (s.noMajority.core k).state = .testing := by
  have cores : (s.disagreed 7 4 0).wdn.cores = s.wdn.cores := by rw [State.wdn_disagreed]
  have testing : s.noMajority.wdn.cores = (s.disagreed 7 4 0).allTesting.wdn.cores := by rw [State.wdn_noMajority]
  rw [State.core_congr testing]
  exact State.core_allTesting _ hk (by rw [State.core_congr cores]; exact there)

theorem State.is_noMajority : s.noMajority.is F.WDN_STATUS_RESTARTED = true := by
  rw [State.noMajority_eq]
  exact State.is_flag _ (by decide) (by decide)

theorem State.site_noMajority : s.noMajority.fld F.WDN_DISAGREE_SITE = 4 := by
  have kept := (State.allTesting_frame (s.disagreed 7 4 0)).regs_eq
  rw [State.noMajority_eq, State.fld_flag_apart _ (.inl (by decide)), State.fld_bump_ne _ 1 (by decide) (by decide),
    State.fld_congr (State.onWdn_frame _ _).regs_eq, State.fld_congr kept, State.site_disagreed]

end

end Sys2Proof.Machine
end

section
/-!
What the rows of the Wardens answer (16_wardens.md R606 to R612, R617, R627, R628).
-/

namespace Sys2Proof.Machine

-- Proofs in sequence: the stack of every thread that waits counts against the memory limit of the check.
set_option Elab.async false

variable {s : State} {n : Nat}

/-! ### Votes (R606, R607, R608) -/

/-- A disagreement names a core and a site, and three cores run. -/
theorem State.disagreement_minority {site : Nat} (runs : s.complexRuns = true) (all : s.activeCores = [0, 1, 2]) (hn : n < 3)
    (low : 1 ≤ site) (high : site ≤ 3) : s.disagreement n site = (s.disagreed (2 ^ n) site n).coreFence n := by
  have here : s.activeCores.contains n = true := by
    rw [all]
    rcases (by omega : n = 0 ∨ n = 1 ∨ n = 2) with rfl | rfl | rfl <;> rfl
  unfold State.disagreement
  rw [if_pos ⟨runs, here, low, by omega⟩, if_pos ⟨by rw [all]; rfl, by omega⟩]

theorem State.disagreement_nowhere {site : Nat} (h : site = 0 ∨ 4 < site) : s.disagreement n site = s := if_neg (by omega)

theorem State.disagreement_none {site : Nat} (runs : s.complexRuns = true) (here : n ∈ s.activeCores) (low : 1 ≤ site) (high : site ≤ 4)
    (split_ : s.activeCores.length ≠ 3 ∨ site = 4) : s.disagreement n site = s.noMajority := by
  unfold State.disagreement
  rw [if_pos ⟨runs, List.contains_iff_mem.2 here, low, high⟩, if_neg (by omega)]

section
variable {α : Type} [DecidableEq α] {f : WCore → α} {site : Nat}

/-- Three cores that agree. -/
theorem State.compareCores_same (all : s.activeCores = [0, 1, 2]) (h : f (s.core 0) = f (s.core 1)) (h' : f (s.core 1) = f (s.core 2)) :
    s.compareCores site f = s := by
  unfold State.compareCores
  rw [all]
  exact if_pos ⟨h, h'⟩

/-- The third core in the minority. -/
theorem State.compareCores_third (all : s.activeCores = [0, 1, 2]) (h : f (s.core 0) = f (s.core 1)) (h' : f (s.core 1) ≠ f (s.core 2)) :
    s.compareCores site f = s.disagreement 2 site := by
  unfold State.compareCores
  rw [all]
  exact (if_neg fun g => h' g.2).trans (if_pos h)

/-- Two cores that agree. -/
theorem State.compareCores_two {a b : Nat} (two : s.activeCores = [a, b]) (h : f (s.core a) = f (s.core b)) :
    s.compareCores site f = s := by
  unfold State.compareCores
  rw [two]
  exact if_pos h

end

/-- A sweep that finds one bad word fences its core, and the two that are left agree. -/
theorem State.memorySweep_one {w : Nat} (runs : s.complexRuns = true) (all : s.activeCores = [0, 1, 2]) (hn : n < 3)
    (due : Tab.getD Tick.sweep 0 s.served < s.now / 100000000 * 100000000) (same : (s.core 0).mem = (s.core 1).mem)
    (same' : (s.core 1).mem = (s.core 2).mem) : ∃ t, s.memorySweep [(n, w)] = t ∧ t.pending = s.pending ∧ (t.core n).state = .fenced ∧
      (∀ k, k ≠ n → t.core k = s.core k) ∧ t.fld F.WDN_DISAGREE_SITE = 3 := by
  let v := s.serve Tick.sweep (s.now / 100000000 * 100000000)
  obtain ⟨t, fenced, frame, state, mem, others, -, -, site, -⟩ := State.disagreed_fenced (s := v) (site := 3) runs all hn (by decide)
  have left : t.activeCores = v.activeCores.filter fun k => k != n := State.activeCores_leave (by rw [state]; decide) others
  have mems (k : Nat) : (t.core k).mem = (s.core k).mem := by
    by_cases h : k = n
    · rw [h, mem]
      rfl
    · rw [others k h]
      rfl
  have agree : t.compareCores 3 WCore.mem = t := by
    rw [show v.activeCores = [0, 1, 2] from all] at left
    rcases (by omega : n = 0 ∨ n = 1 ∨ n = 2) with rfl | rfl | rfl <;>
      exact State.compareCores_two left (by rw [mems, mems]; simp only [same, same'])
  have swept : s.memorySweep [(n, w)] = t := by
    unfold State.memorySweep
    rw [State.every_serve due, if_pos (show v.complexRuns = true from runs)]
    have alone : ([(n, w)].any fun y => y.2 == (n, w).2 && y.1 != (n, w).1) = false := by simp
    have one : ([(n, w)].filter fun x => !([(n, w)].any fun y => y.2 == x.2 && y.1 != x.1)) = [(n, w)] := by simp
    have none : ([(n, w)].any fun x => [(n, w)].any fun y => y.2 == x.2 && y.1 != x.1) = false := by simp
    dsimp only
    rw [one, none]
    show (v.disagreement n 3).compareCores 3 WCore.mem = t
    rw [State.disagreement_minority (s := v) runs all hn (by decide) (by decide), fenced, agree]
  exact ⟨t, swept, frame.pending_eq, state, others, site⟩

/-! ### Restarts (R608) -/

section
variable {c : WCore → WCore} (kept : ∀ x, (c x).state = x.state)
include kept

/-- A start that leaves each core's state leaves it of all cores. -/
theorem State.state_each_coreStarts (l : List Nat) (s : State) (n : Nat) : ((s.each l (State.coreStarts c)).core n).state =
    (s.core n).state := by
  refine s.each_same l _ (fun s => (s.core n).state) fun s k _ => ?_
  by_cases h : n = k
  · subst h
    exact (congrArg WCore.state (s.core_setCore_self n _)).trans (kept _)
  · exact congrArg WCore.state (State.core_setCore_ne h _)

end

theorem State.mode_each_coreStarts (c : WCore → WCore) (l : List Nat) (s : State) : (s.each l (State.coreStarts c)).wdn.mode = s.wdn.mode :=
  s.each_same l _ (·.wdn.mode) fun _ _ _ => rfl

/-- Firmware starts with the reason given, on the cores that run, in the mode that the complex has. -/
theorem State.fwBoot_starts (s : State) (r : Nat) : (s.fwBoot r).wdn.mode = s.wdn.mode ∧ (s.fwBoot r).wdn.startReason = r ∧
    ∀ n, ((s.fwBoot r).core n).state = (s.core n).state := by
  cases h : s.fwChoice with
  | none =>
    rw [State.fwBoot_none h]
    exact ⟨State.mode_each_coreStarts startedRecovery _ s, rfl, State.state_each_coreStarts (c := startedRecovery) (fun _ => rfl) _ s⟩
  | some x =>
    rw [State.fwBoot_image h]
    exact ⟨State.mode_each_coreStarts (startedOn x.2 r) _ s, rfl, State.state_each_coreStarts (c := startedOn x.2 r) (fun _ => rfl) _ s⟩

/-- The cores that are not retired, those that fail their test retired. -/
def State.failersRetired (s : State) (f : List Nat) : State :=
  s.each (((List.range 3).filter fun n => decide ((s.core n).state ≠ .retired)).filter f.contains) State.coreRetire

theorem State.failersRetired_frame (s : State) (f : List Nat) : Frame [.wdn, .attic, .regs] s (s.failersRetired f) :=
  Frame.each (fun s n => s.coreRetire_frame n) _ s

theorem State.wardenRestart_few {f : List Nat} (restarts : s.wdn.mode = .restarting)
    (few : ((List.range 3).filter fun n => decide ((s.core n).state ≠ .retired) && !f.contains n).length < 2) :
    s.wardenRestart f = (s.failersRetired f).onWdn fun w => { w with mode := .halted } := by
  unfold State.wardenRestart
  rw [if_neg (by rw [restarts]; decide), if_pos restarts]
  dsimp only
  rw [List.filter_filter, if_pos (by simpa only [Bool.and_comm] using few)]
  rfl

/-- All three cores start again. -/
def State.allActive (s : State) : State := s.each [0, 1, 2] fun s n => s.setCore n { s.core n with state := .active, since := s.now }

theorem State.state_allActive (s : State) {n : Nat} (hn : n < 3) : (s.allActive.core n).state = .active := by
  have once := State.each_own (get := fun s n => (s.core n).state) (g := fun _ => CoreState.active)
    (step := fun s n => s.setCore n { s.core n with state := .active, since := s.now })
    (fun s i => congrArg WCore.state (s.core_setCore_self i _)) (fun s i j h => congrArg WCore.state (State.core_setCore_ne h _))
    (l := [0, 1, 2]) (by decide) s n
  exact once.trans (if_pos (by rcases (by omega : n = 0 ∨ n = 1 ∨ n = 2) with rfl | rfl | rfl <;> decide))

theorem State.wardenRestart_all (restarts : s.wdn.mode = .restarting) (there : ∀ n < 3, (s.core n).state ≠ .retired) :
    s.wardenRestart [] = (s.allActive.onWdn fun w => { w with mode := .duplex }).complexMode.fwBoot 1 := by
  have ready : ((List.range 3).filter fun n => decide ((s.core n).state ≠ .retired)) = [0, 1, 2] :=
    List.filter_eq_self.2 fun n hn => decide_eq_true (there n (List.mem_range.1 hn))
  unfold State.wardenRestart
  rw [if_neg (by rw [restarts]; decide), if_pos restarts]
  dsimp only
  rw [ready]
  rfl

/-- Three cores that start again run in lockstep. -/
theorem State.wardenRestart_triple (restarts : s.wdn.mode = .restarting) (there : ∀ n < 3, (s.core n).state ≠ .retired) :
    ∃ t, s.wardenRestart [] = t ∧ t.pending = s.pending ∧ t.wdn.mode = .triple ∧ (∀ n < 3, (t.core n).state = .active) ∧
        t.wdn.startReason = 1 := by
  let u := s.allActive.onWdn fun w => { w with mode := .duplex }
  obtain ⟨mode, reason, states⟩ := u.complexMode.fwBoot_starts 1
  have active (n : Nat) (hn : n < 3) : (u.core n).state = .active := s.state_allActive hn
  have three : u.activeCores = [0, 1, 2] := List.filter_eq_self.2 fun n hn => decide_eq_true (active n (List.mem_range.1 hn))
  have frame : Frame [.wdn, .regs] s (u.complexMode.fwBoot 1) :=
    (((State.setCores_frame (fun s n => { s.core n with state := .active, since := s.now }) [0, 1, 2] s).append
      (State.onWdn_frame _ fun w => { w with mode := .duplex })).append ((State.complexMode_frame _).append (State.fwBoot_frame _ 1))).mono
          (by decide)
  refine ⟨_, State.wardenRestart_all restarts there, frame.pending_eq, ?_, fun n hn => ?_, reason⟩
  · have duplex : u.wdn.mode = .duplex := rfl
    rw [mode, State.mode_complexMode (by rw [duplex]; decide) (by rw [duplex]; decide), three]
    rfl
  · rw [states, State.core_complexMode]
    exact active n hn

/-! ### Tests (R617) -/

section
variable (s : State) (i : Nat) (failed : Bool)

/-- A run of a test has been counted, with what it found. -/
def State.testCounted : State := (s.bump A.WDN_STOCK_TESTS).onWdn fun w => { w with
  testsRun := w.testsRun ||| 2 ^ i
  testsFailed := if failed then w.testsFailed ||| 2 ^ i else if w.testsFailed.testBit i then w.testsFailed - 2 ^ i else w.testsFailed }

/-- A failure has been counted and told. -/
def State.testFailing : State := ((s.testCounted i true).bump A.WDN_STOCK_FAILS).flag F.WDN_STATUS_STOCK_FAIL

theorem State.testRan_pass (inst : Nat) : s.testRan i inst false = s.testCounted i false := rfl

theorem State.testRan_fail (inst : Nat) : s.testRan i inst true = (s.testFailing i).tallyFlag .hardware F.WDN_STATUS_STOCK_FAIL inst
    [((s.testCounted i true).word A.WDN_DISAGREE).toNat, i] := rfl

theorem State.testCounted_frame : Frame [.wdn, .regs, .mgt] s (s.testCounted i failed) :=
  ((s.bump_frame _ _).append (State.onWdn_frame _ _)).mono (by decide)

theorem State.testFailing_frame : Frame [.regs] (s.testCounted i true) (s.testFailing i) :=
  (State.bump_frame _ _ _).trans (State.flag_frame _ _)

theorem State.testRan_frame (inst : Nat) : Frame [.wdn, .regs, .mgt] s (s.testRan i inst failed) := by
  cases failed with
  | false =>
    rw [State.testRan_pass]
    exact s.testCounted_frame i false
  | true =>
    rw [State.testRan_fail]
    exact (((s.testCounted_frame i true).append (s.testFailing_frame i)).append (State.tallyFlag_frame _ _ _ _ _)).mono (by decide)

/-- What a run leaves in the complex: its bit among the runs, and among the failures as it went. -/
theorem State.wdn_testRan (inst : Nat) : (s.testRan i inst failed).wdn = (s.testCounted i failed).wdn := by
  cases failed with
  | false => rw [State.testRan_pass]
  | true =>
    rw [State.testRan_fail, State.tallyFlag, State.tallyRaw_wdn (by decide), (s.testFailing_frame i).wdn_eq]

theorem State.testsRun_testRan (inst : Nat) : (s.testRan i inst failed).wdn.testsRun = s.wdn.testsRun ||| 2 ^ i := by
  rw [State.wdn_testRan]
  rfl

theorem Nat.testBit_or_two_pow_self (x i : Nat) : (x ||| 2 ^ i).testBit i = true := by
  rw [Nat.testBit_or, Nat.testBit_two_pow_self, Bool.or_true]

theorem Nat.testBit_sub_two_pow_self {x i : Nat} (h : x.testBit i = true) : (x - 2 ^ i).testBit i = false := by
  rw [Nat.testBit_eq_decide_div_mod_eq, decide_eq_true_eq] at h
  have less : (x - 2 ^ i) / 2 ^ i = x / 2 ^ i - 1 := by simpa using Nat.sub_mul_div x (2 ^ i) 1
  rw [Nat.testBit_eq_decide_div_mod_eq, less, decide_eq_false_iff_not]
  omega

/-- A test's bit among the failures is what its last run found. -/
theorem State.testsFailed_testRan (inst : Nat) : (s.testRan i inst failed).wdn.testsFailed.testBit i = failed := by
  rw [State.wdn_testRan]
  cases failed with
  | true => exact Nat.testBit_or_two_pow_self _ i
  | false =>
    show (if s.wdn.testsFailed.testBit i then s.wdn.testsFailed - 2 ^ i else s.wdn.testsFailed).testBit i = false
    split
    · next set => exact Nat.testBit_sub_two_pow_self set
    · next clear => exact Bool.eq_false_iff.2 clear

theorem State.core_testRan (inst n : Nat) : (s.testRan i inst failed).core n = s.core n :=
  State.core_congr (by rw [State.wdn_testRan]; rfl) n

end

/-! ### Tests of a fenced core (R609, R611) -/

/-- A core whose test has passed, and that has not been fenced too often, comes back. -/
theorem State.bistDone_pass (hn : n < 3) (testing : (s.core n).state = .testing) (runs : s.wdn.mode ≠ .restarting)
    (late : (s.core n).since + 40000000 ≤ s.now) (few : (within24h s.now (s.core n).fences).length < s.fenceLimit) :
    ∃ t, s.bistDone n true = t ∧ t.pending = s.pending ∧ t.core n = { s.core n with state := .resyncing, since := s.now } ∧
      t.wdn.testsRun.testBit 1 = true ∧ t.attic = s.attic := by
  have frame := s.testRan_frame 1 false n
  have limit : (s.testRan 1 n false).fenceLimit = s.fenceLimit := by
    have word : (s.testRan 1 n false).word A.WDN_CTRL = s.word A.WDN_CTRL := s.word_bump_ne 1 (by decide) (by decide)
    rw [State.fenceLimit, State.fenceLimit, State.fld, State.fld, word]
  have back : s.bistDone n true = (s.testRan 1 n false).setCore n { s.core n with state := .resyncing, since := s.now } := by
    unfold State.bistDone
    rw [if_pos ⟨hn, testing, runs, late⟩]
    show (if true = true ∧ (within24h (s.testRan 1 n false).now (s.core n).fences).length < (s.testRan 1 n false).fenceLimit then
      (s.testRan 1 n false).setCore n { s.core n with state := .resyncing, since := (s.testRan 1 n false).now }
      else (s.testRan 1 n false).coreRetire n) = _
    rw [limit, frame.now_eq, if_pos ⟨rfl, few⟩]
  refine ⟨_, back, frame.pending_eq, State.core_setCore_self _ n _, ?_, frame.attic_eq⟩
  show (s.testRan 1 n false).wdn.testsRun.testBit 1 = true
  rw [State.testsRun_testRan]
  exact Nat.testBit_or_two_pow_self _ 1

/-- A core whose test has failed is retired. -/
theorem State.bistDone_fail (hn : n < 3) (testing : (s.core n).state = .testing) (runs : s.wdn.mode ≠ .restarting)
    (late : (s.core n).since + 40000000 ≤ s.now) :
    ∃ t, s.bistDone n false = t ∧ t.pending = s.pending ∧ (t.core n).state = .retired ∧ n ∈ t.attic.cores ∧
      t.wdn.testsFailed.testBit 1 = true ∧ t.is F.WDN_STATUS_CORE_RETIRED = true := by
  have frame := s.testRan_frame 1 true n
  have out : s.bistDone n false = (s.testRan 1 n true).coreRetire n := by
    unfold State.bistDone
    rw [if_pos ⟨hn, testing, runs, late⟩]
    exact if_neg fun h => Bool.false_ne_true h.1
  have gone := State.coreRetire_frame (s.testRan 1 n true) n
  refine ⟨_, out, gone.pending_eq.trans frame.pending_eq, State.core_coreRetire_self _ n, ?_, ?_, State.is_coreRetire _ n⟩
  · rw [State.attic_coreRetire]
    exact mem_insertNat.2 (.inl rfl)
  · have failed : ((s.testRan 1 n true).coreRetire n).wdn.testsFailed = (s.testRan 1 n true).wdn.testsFailed := by
      rw [State.coreRetire, State.wdn_complexMode]
      rfl
    rw [failed, State.testsFailed_testRan]

/-- A core in RESYNCING takes what the first running core holds. -/
theorem State.resyncCopy_copies {a b : Nat} {l : List Nat} (two : s.activeCores = a :: b :: l) (hn : n < 3)
    (waits : (s.core n).state = .resyncing) (runs : s.complexRuns = true) (none : s.activation = none) (mode : s.modeWait = false) :
    ∃ t, s.resyncCopy n = t ∧ Frame [.wdn, .regs] s t ∧ t.core n = { s.core n with
      state := .active, since := s.now, regs := (s.core a).regs, csrs := (s.core a).csrs, pc := (s.core a).pc, mem := (s.core a).mem
      wfi := (s.core a).wfi } ∧ (∀ k, k ≠ n → t.core k = s.core k) ∧ t.is F.WDN_STATUS_RESYNC_DONE = true := by
  let u := (s.setCore n { s.core n with
    state := .active, since := s.now, regs := (s.core a).regs, csrs := (s.core a).csrs, pc := (s.core a).pc
    mem := (s.core a).mem, wfi := (s.core a).wfi }).bump A.WDN_RESYNCS
  have copies : s.resyncCopy n = (u.flag F.WDN_STATUS_RESYNC_DONE).complexMode := by
    unfold State.resyncCopy
    rw [two]
    exact if_pos ⟨hn, waits, runs, by rw [none]; rfl, by rw [mode]; rfl⟩
  have frame := ((s.setCore_frame n _).append (State.bump_frame _ A.WDN_RESYNCS 1)).append
    ((State.flag_frame u F.WDN_STATUS_RESYNC_DONE).append (State.complexMode_frame _))
  refine ⟨_, copies, frame.mono (by decide), ?_, fun k hk => ?_, ?_⟩
  · rw [State.core_complexMode]
    exact s.core_setCore_self n _
  · rw [State.core_complexMode]
    exact State.core_setCore_ne hk _
  · rw [State.is_congr (State.complexMode_frame _).regs_eq]
    exact State.is_flag _ (by decide) (by decide)

/-! ### Commands (R612) -/

/-- With two cores running, neither may be fenced or retired. -/
theorem State.coreCmds_two (two : s.activeCores.length = 2) (here : n ∈ s.activeCores) : s.fenceCmd n = s ∧ s.retireCmd n = s := by
  have left : (s.activeCores.filter fun k => k != n).length < 2 := by
    rw [← two]
    exact List.length_filter_lt_length_iff_exists.2 ⟨n, here, by simp⟩
  exact ⟨if_neg fun h => by omega, if_neg fun h => by omega⟩

/-! ### Activation (R600, R627) -/

/-- Cores started on an image. -/
theorem State.startCores_eq (s : State) (img : List Byte) (slot : Option Nat) (r : Nat) : s.startCores img slot r =
    ((s.each s.activeCores (State.coreStarts (startedOn img r))).setFld F.GLB_BOOT_FW_SLOT (slot.getD 3)).onWdn fun w =>
      { w with startReason := r, entry := leAt img 28 4, fwSerial := leAt img 16 8, fwSlot := slot, recovery := false } := rfl

theorem State.startCores_frame (s : State) (img : List Byte) (slot : Option Nat) (r : Nat) : Frame [.wdn, .regs] s
    (s.startCores img slot r) :=
  (((s.coreStarts_each_frame (startedOn img r) _).append (State.setFld_frame _ _ _)).append (State.onWdn_frame _ _)).mono (by decide)

/-- Every running core starts on the image. -/
theorem State.core_startCores (s : State) (img : List Byte) (slot : Option Nat) (r : Nat) (hn : n ∈ s.activeCores) :
    (s.startCores img slot r).core n = startedOn img r (s.core n) :=
  (State.core_congr (s := s.each s.activeCores (State.coreStarts (startedOn img r))) rfl n).trans
    (State.core_each_coreStarts _ s.activeCores_nodup s hn)

theorem State.word_startCores {a : Nat} (h : F.GLB_BOOT_FW_SLOT.addr ≠ a) (s : State) (img : List Byte) (slot : Option Nat) (r : Nat) :
    (s.startCores img slot r).word a = s.word a := by
  rw [State.startCores_eq, State.word_congr (State.onWdn_frame _ _).regs_eq, State.word_setFld_ne _ h,
    State.word_congr (State.coreStarts_each_frame _ s _).regs_eq]

theorem State.pair_cellsTaken (s : State) (k : Nat) : (s.cellsTaken 36 k).pair A.WDN_ACTIVATIONS = s.pair A.WDN_ACTIVATIONS := by
  unfold State.cellsTaken
  split
  · rfl
  · exact State.pair_bump_ne (by decide) _ _

section
variable (s : State) (img : List Byte)

/-- An image started, before its record. -/
def State.activating : State := ((s.startCores img (some s.otherSlot) 2).bump A.WDN_ACTIVATIONS).flag F.WDN_STATUS_ACTIVATED

/-- An image started. -/
def State.activatedOn : State :=
  (s.activating img).tallyConfig F.WDN_STATUS_ACTIVATED (leAt img 16 8) ((s.activating img).word A.WDN_STATUS).toNat

theorem State.activating_frame : Frame [.regs] (s.startCores img (some s.otherSlot) 2) (s.activating img) :=
  (State.bump_frame _ _ _).trans (State.flag_frame _ _)

theorem State.wdn_activatedOn : (s.activatedOn img).wdn = (s.startCores img (some s.otherSlot) 2).wdn := by
  rw [State.activatedOn, State.tallyConfig, State.tallyFlag, State.tallyRaw_wdn (by decide), (s.activating_frame img).wdn_eq]

theorem State.activatedOn_frame : Frame [.wdn, .regs, .mgt] s (s.activatedOn img) :=
  (((s.startCores_frame img _ 2).append (s.activating_frame img)).append (State.tallyFlag_frame _ _ _ _ _)).mono (by decide)

theorem State.is_activatedOn : (s.activatedOn img).is F.WDN_STATUS_ACTIVATED = true := by
  rw [State.activatedOn, State.tallyConfig, State.tallyFlag, State.is_of_word (State.word_tallyRaw_below (by decide) ..), State.activating]
  exact State.is_flag _ (by decide) (by decide)

theorem State.pair_activatedOn : (s.activatedOn img).pair A.WDN_ACTIVATIONS = (s.pair A.WDN_ACTIVATIONS + 1) % 2 ^ 64 := by
  rw [State.activatedOn, State.tallyConfig, State.tallyFlag, State.pair_of_word (State.word_tallyRaw_below (by decide) ..)
    (State.word_tallyRaw_below (by decide) ..), State.activating, State.pair_flag_ne (by decide) (by decide), State.pair_bump_self,
    State.pair_of_word (s.word_startCores (by decide) img _ 2) (s.word_startCores (by decide) img _ 2)]

end

section
variable {a code : Nat} {img : List Byte} (ha : a = s.pair A.WDN_FW_SRC % 2 ^ 36) (hcode : code = leAt (s.cellar a 128) 24 4)
  (himg : img = s.cellar a (128 + code)) (runs : s.complexRuns = true)
include ha hcode himg runs

theorem State.wdnActivate_valid (here : s.inRegion 7 a (128 + code) = true) (small : code ≤ 786432)
    (whole : s.rangePoison a (128 + code) = false) (digest : beAt img 48 48 = sha384 (slice img 128 code)) :
    s.wdnActivate = (s.cellsTaken 36 (cellSpan a (128 + code))).activatedOn img := by
  have runs' : (s.cellsTaken 36 (cellSpan a (128 + code))).complexRuns = true :=
    (State.complexRuns_congr (congrArg Wdn.mode (s.cellsTaken_frame 36 _).wdn_eq)).trans runs
  unfold State.wdnActivate
  dsimp only
  rw [← ha, ← hcode, ← himg, here, whole, runs, digest]
  simp only [small, decide_true, beq_self_eq_true, Bool.and_self, Bool.not_false, Bool.and_false, Bool.false_eq_true,
    if_false, if_true, State.when]
  exact if_neg (by rw [runs']; decide)

/-- An image that is not in the Wardens' region, or whose digest does not hold, is not started. -/
theorem State.wdnActivate_refused (bad : s.inRegion 7 a (128 + code) = false ∨ beAt img 48 48 ≠ sha384 (slice img 128 code)) :
    ∃ u, Frame [.regs] s u ∧ s.wdnActivate = u.flag F.WDN_STATUS_ACTIVATE_FAIL := by
  let u := (s.when (s.inRegion 7 a (128 + code)) fun s => s.cellsTaken 36 (cellSpan a (128 + code))).when
    (s.inRegion 7 a (128 + code) && s.rangePoison a (128 + code)) fun s => s.mcheck 1
  have frame : Frame [.regs] s u :=
    (Frame.when _ (s.cellsTaken_frame 36 _)).trans (Frame.when _ (Frame.when _ (State.setFld_frame _ _ _)))
  have runs' : u.complexRuns = true := (State.complexRuns_congr (congrArg Wdn.mode frame.wdn_eq)).trans runs
  have invalid : (s.inRegion 7 a (128 + code) && decide (code ≤ 786432) && !(s.inRegion 7 a (128 + code) && s.rangePoison a (128 + code)) &&
      beAt img 48 48 == sha384 (slice img 128 code)) = false := by
    rcases bad with outside | wrong
    · simp [outside]
    · simp [wrong]
  have stopped : ¬ (!u.complexRuns) = true := by rw [runs']; decide
  refine ⟨u, frame, ?_⟩
  unfold State.wdnActivate
  dsimp only
  rw [← ha, ← hcode, ← himg, invalid, runs]
  exact (if_neg stopped).trans (if_neg Bool.false_ne_true)

end

end Sys2Proof.Machine
end

section
/-!
The statement about the Wardens (16_wardens.md R606 to R612, R627, R628).
-/

namespace Sys2Proof.Machine

-- Proofs in sequence: the stack of every thread that waits counts against the memory limit of the check.
set_option Elab.async false

/-- Settles O42: a vote against one of three cores fences it, a vote that two cores cannot decide restarts the complex, and each row that
brings a core back or retires it changes that core alone; an image is started on the cores that run, or refused with nothing else
changed. -/
theorem wardens : Obligations.Wardens := by
  unfold Obligations.Wardens
  refine ⟨⟨fun n site s awake runs here => ⟨fun all low high => ?minority, fun nowhere => ?nowhere, fun lost => ?none⟩,
    fun s awake runs all due => ⟨fun h01 h12 => ?agree, fun h01 h12 => ?third⟩,
    fun s awake runs all h01 h12 due => ⟨?sweep, fun n w hn => ?word⟩,
    fun f s awake => ⟨fun halted => ?halted, fun restarts there none => ?triple, fun restarts few => ?few⟩,
    fun n s awake hn => ⟨fun fenced auto late => ?expires, fun fenced manual => ?waits,
      fun testing runs late => ⟨fun few => ?pass, ?fail⟩, fun a b l two waits runs none mode => ?copy⟩⟩,
    fun p n s bus lets hn => ⟨fun all => ⟨fun runs => ?fence, ?retire⟩, fun two here => ⟨?fenceTwo, ?retireTwo⟩, fun fenced => ?resync,
      fun other => ?notFenced⟩,
    fun p a code img s bus lets ha hcode himg => ⟨fun stopped => ?stopped, fun runs here small whole digest => ?activate,
      fun runs bad => ?refuse⟩,
    fun p s bus lets => State.bus_next bus lets rfl rfl⟩
  case minority =>
    have hn : n < 3 := (State.mem_activeCores.1 here).1
    obtain ⟨t, fenced, frame, state, -, others, mode, mask, at_, told, count⟩ :=
        State.disagreed_fenced (site := site) runs all hn (by omega)
    exact ⟨t, State.awake_next awake ((State.disagreement_minority runs all hn low high).trans fenced) frame.pending_eq, state,
        others, mode,
      mask, at_, told, count, frame.eq_take⟩
  case nowhere => exact State.awake_next awake (State.disagreement_nowhere nowhere) rfl
  case none =>
    have none : s.disagreement n site = s.noMajority := by
      rcases lost with ⟨-, rfl⟩ | ⟨two, low, high⟩
      · exact State.disagreement_none runs here (by decide) (by decide) (.inr rfl)
      · exact State.disagreement_none runs here low high (.inl (by omega))
    exact ⟨_, State.awake_next awake none s.noMajority_frame.pending_eq, s.mode_noMajority, fun k hk there => s.core_noMajority hk there,
      s.site_noMajority, s.is_noMajority, s.noMajority_frame.eq_take⟩
  case agree =>
    have same : s.signatures = s.serve Tick.watch (s.now / 1000000 * 1000000) :=
      (State.every_serve due _).trans ((if_pos runs).trans (State.compareCores_same (s := s.serve _ _) all h01 h12))
    exact State.awake_next awake same rfl
  case third =>
    let w := s.serve Tick.watch (s.now / 1000000 * 1000000)
    obtain ⟨t, fenced, frame, state, -, others, -, -, at_, -⟩ := State.disagreed_fenced (s := w) (n := 2) (site := 2) runs all (by decide)
        (by decide)
    have third : s.signatures = t :=
      (State.every_serve due _).trans ((if_pos runs).trans ((State.compareCores_third (s := w) all h01 h12).trans
        ((State.disagreement_minority (s := w) runs all (by decide) (by decide) (by decide)).trans fenced)))
    exact ⟨t, State.awake_next awake third frame.pending_eq, state, others 0 (by decide), others 1 (by decide), at_⟩
  case sweep =>
    have same : s.memorySweep [] = s.serve Tick.sweep (s.now / 100000000 * 100000000) :=
      (State.every_serve due _).trans ((if_pos runs).trans (State.compareCores_same (s := s.serve _ _) all h01 h12))
    exact State.awake_next awake same rfl
  case word =>
    obtain ⟨t, swept, queue, rest⟩ := State.memorySweep_one (w := w) runs all hn due h01 h12
    exact ⟨t, State.awake_next awake swept queue, rest⟩
  case halted => exact State.awake_next awake (if_pos halted) rfl
  case triple =>
    subst none
    obtain ⟨t, started, queue, rest⟩ := State.wardenRestart_triple restarts there
    exact ⟨t, State.awake_next awake started queue, rest⟩
  case few => exact ⟨_, State.awake_next awake (State.wardenRestart_few restarts few) (s.failersRetired_frame f).pending_eq, rfl⟩
  case expires => exact State.awake_next awake (if_pos ⟨hn, fenced, auto, late⟩) rfl
  case waits => exact State.awake_next awake (if_neg fun h => by simp [manual] at h) rfl
  case pass =>
    obtain ⟨t, back, queue, rest⟩ := State.bistDone_pass hn testing runs late few
    exact ⟨t, State.awake_next awake back queue, rest⟩
  case fail =>
    obtain ⟨t, out, queue, rest⟩ := State.bistDone_fail hn testing runs late
    exact ⟨t, State.awake_next awake out queue, rest⟩
  case copy =>
    obtain ⟨t, copies, frame, core, others, told⟩ := State.resyncCopy_copies two hn waits runs none mode
    refine ⟨t, State.awake_next awake copies frame.pending_eq, frame.eq_take, ?_, ?_, ?_, ?_, ?_, others, told⟩ <;> rw [core]
  case fence =>
    have here : s.activeCores.contains n = true := by
      rw [all]
      rcases (by omega : n = 0 ∨ n = 1 ∨ n = 2) with rfl | rfl | rfl <;> rfl
    have fences : s.fenceCmd n = s.coreFence n := if_pos ⟨here, by rw [all]; decide⟩
    have frame := s.coreFence_frame n
    exact ⟨_, State.bus_next bus lets fences frame.pending_eq, congrArg WCore.state (s.core_coreFence_self n),
      fun k hk => s.core_coreFence_ne n hk, s.mode_coreFence n runs all hn, s.is_coreFence n, frame.eq_take⟩
  case retire =>
    have active : (s.core n).state = .active := by
      refine (State.mem_activeCores.1 ?_).2
      rw [all]
      rcases (by omega : n = 0 ∨ n = 1 ∨ n = 2) with rfl | rfl | rfl <;> decide
    have left : 2 ≤ (s.activeCores.filter fun k => k != n).length := by
      rw [all]
      rcases (by omega : n = 0 ∨ n = 1 ∨ n = 2) with rfl | rfl | rfl <;> decide
    have retires : s.retireCmd n = s.coreRetire n := if_pos ⟨hn, by rw [active]; decide, left⟩
    exact ⟨_, State.bus_next bus lets retires (s.coreRetire_frame n).pending_eq, s.core_coreRetire_self n,
      fun k hk => s.core_coreRetire_ne n hk, s.attic_coreRetire n, s.is_coreRetire n⟩
  case fenceTwo => exact State.bus_next bus lets (State.coreCmds_two two here).1 rfl
  case retireTwo => exact State.bus_next bus lets (State.coreCmds_two two here).2 rfl
  case resync => exact State.bus_next bus lets (if_pos ⟨hn, fenced⟩) rfl
  case notFenced => exact State.bus_next bus lets (if_neg fun h => other h.2) rfl
  case stopped =>
    have idle : (!s.complexRuns) = true := by rw [stopped]; rfl
    have none : s.wdnActivate = s := by
      unfold State.wdnActivate
      dsimp only
      rw [stopped]
      exact if_pos idle
    exact State.bus_next bus lets none rfl
  case activate =>
    let w := s.cellsTaken 36 (cellSpan a (128 + code))
    have taken := s.cellsTaken_frame 36 (cellSpan a (128 + code))
    have valid := State.wdnActivate_valid ha hcode himg runs here small whole digest
    have frame := taken.append (w.activatedOn_frame img)
    have wdn := w.wdn_activatedOn img
    have active (n : Nat) (hn : n ∈ s.activeCores) : (w.activatedOn img).core n = startedOn img 2 (s.core n) := by
      have same : w.wdn.cores = s.wdn.cores := congrArg Wdn.cores taken.wdn_eq
      rw [State.core_congr (congrArg Wdn.cores wdn), State.core_startCores w img _ 2 (by rwa [State.activeCores_congr same]),
        State.core_congr same]
    have slot : w.otherSlot = s.otherSlot := by rw [State.otherSlot, State.otherSlot, taken.wdn_eq]
    refine ⟨w.activatedOn img, State.bus_next bus lets valid frame.pending_eq, w.is_activatedOn img, ?_, ?_, ?_, ?_, fun n hn => ?_, ?_⟩
    · exact congrArg Wdn.startReason wdn
    · exact congrArg Wdn.fwSerial wdn
    · exact (congrArg Wdn.fwSlot wdn).trans (congrArg some slot)
    · exact congrArg Wdn.entry wdn
    · rw [active n hn]
      exact ⟨rfl, rfl, Tab.getD_put_self 10 0 (BitVec.ofNat 64 2) []⟩
    · rw [State.pair_activatedOn, State.pair_cellsTaken]
  case refuse =>
    obtain ⟨u, frame, refused⟩ := State.wdnActivate_refused ha hcode himg runs bad
    exact ⟨_, State.bus_next bus lets refused frame.pending_eq, (frame.trans (State.flag_frame _ _)).eq_take,
      State.is_flag _ (by decide) (by decide)⟩

end Sys2Proof.Machine
end

section
/-!
The statement about WFI, the timer and Stocktake (16_wardens.md R602, R604, R616 to R620).
-/

namespace Sys2Proof.Machine

-- Proofs in sequence: the stack of every thread that waits counts against the memory limit of the check.
set_option Elab.async false

/-- Cores that change leave the rest of the complex. -/
theorem State.wdn_setCores (f : State → Nat → WCore) (l : List Nat) (s : State) : (s.each l fun s k => s.setCore k (f s k)).wdn =
    { s.wdn with cores := (s.each l fun s k => s.setCore k (f s k)).wdn.cores } := by
  have rest := s.each_same l (fun s k => s.setCore k (f s k)) (fun s => ({ s.wdn with cores := [] } : Wdn)) fun _ _ _ => rfl
  exact congrArg (fun w : Wdn => { w with cores := (s.each l fun s k => s.setCore k (f s k)).wdn.cores }) rest

/-! ### Stocktake runs (R616, R617) -/

section
variable (s : State) (i : Nat) (failed : Bool) (inst : Nat)

/-- A run is counted, and a failure too. -/
theorem State.pair_testRan : (s.testRan i inst failed).pair A.WDN_STOCK_TESTS = (s.pair A.WDN_STOCK_TESTS + 1) % 2 ^ 64 := by
  have counted (b : Bool) : (s.testCounted i b).pair A.WDN_STOCK_TESTS = (s.pair A.WDN_STOCK_TESTS + 1) % 2 ^ 64 := by
    rw [State.testCounted, State.pair_congr (State.onWdn_frame _ _).regs_eq, State.pair_bump_self]
  cases failed with
  | false => rw [State.testRan_pass, counted]
  | true =>
    rw [State.testRan_fail, State.tallyFlag, State.pair_of_word (State.word_tallyRaw_below (by decide) ..)
      (State.word_tallyRaw_below (by decide) ..), State.testFailing, State.pair_flag_ne (by decide) (by decide),
      State.pair_bump_ne (by decide), counted]

theorem State.fails_testRan : (s.testRan i inst true).pair A.WDN_STOCK_FAILS = (s.pair A.WDN_STOCK_FAILS + 1) % 2 ^ 64 := by
  rw [State.testRan_fail, State.tallyFlag, State.pair_of_word (State.word_tallyRaw_below (by decide) ..)
    (State.word_tallyRaw_below (by decide) ..), State.testFailing, State.pair_flag_ne (by decide) (by decide),
    State.pair_bump_self, State.testCounted, State.pair_congr (State.onWdn_frame _ _).regs_eq, State.pair_bump_ne (by decide)]

theorem State.is_testRan : (s.testRan i inst true).is F.WDN_STATUS_STOCK_FAIL = true := by
  rw [State.testRan_fail, State.tallyFlag, State.is_of_word (State.word_tallyRaw_below (by decide) ..), State.testFailing]
  exact State.is_flag _ (by decide) (by decide)

end

/-- What a failure of any item but a pipe's brings beside its count: a flag of its own, or a spare that is bad. -/
theorem State.stockFailed_kept (s : State) {i : Nat} (inst : Nat) (hi : i ≠ 2) : Frame [.wdn, .regs] s (s.stockFailed i inst) ∧
    (s.stockFailed i inst).wdn.testsRun = s.wdn.testsRun ∧ (s.stockFailed i inst).wdn.testsFailed = s.wdn.testsFailed ∧
    (∀ a, A.WDN_STATUS ≠ a → A.WDN_STATUS ≠ a + 4 → (s.stockFailed i inst).pair a = s.pair a) ∧
    (s.stockFailed i inst).is F.WDN_STATUS_STOCK_FAIL = s.is F.WDN_STATUS_STOCK_FAIL := by
  unfold State.stockFailed
  split
  · exact ⟨(s.flag_frame _).mono (by decide), rfl, rfl, fun a h h' => State.pair_flag_ne h h' s, s.is_flag_apart (.inr (by decide))⟩
  · exact absurd rfl hi
  · exact ⟨(s.onWdn_frame _).mono (by decide), rfl, rfl, fun _ _ _ => rfl, rfl⟩
  · exact ⟨Frame.refl _ s, rfl, rfl, fun _ _ _ => rfl, rfl⟩

/-- A run of an item, with what a failure brings. -/
def State.itemRan (s : State) (i inst : Nat) (b : Bool) : State := (s.testRan i inst b).when b fun s => s.stockFailed i inst

theorem State.itemRan_told (s : State) {i : Nat} (inst : Nat) (b : Bool) (hi : i ≠ 2) : Frame [.wdn, .regs, .mgt] s (s.itemRan i inst b) ∧
    (s.itemRan i inst b).wdn.testsRun = s.wdn.testsRun ||| 2 ^ i ∧ (s.itemRan i inst b).wdn.testsFailed.testBit i = b ∧
    (s.itemRan i inst b).pair A.WDN_STOCK_TESTS = (s.pair A.WDN_STOCK_TESTS + 1) % 2 ^ 64 ∧
    (b = true → (s.itemRan i inst b).is F.WDN_STATUS_STOCK_FAIL = true ∧
      (s.itemRan i inst b).pair A.WDN_STOCK_FAILS = (s.pair A.WDN_STOCK_FAILS + 1) % 2 ^ 64) := by
  cases b with
  | false =>
    exact ⟨s.testRan_frame i false inst, s.testsRun_testRan i false inst, s.testsFailed_testRan i false inst, s.pair_testRan i false inst,
      fun h => absurd h (by decide)⟩
  | true =>
    obtain ⟨frame, run, fails, pairs, told⟩ := (s.testRan i inst true).stockFailed_kept inst hi
    refine ⟨((s.testRan_frame i true inst).append frame).mono (by decide), run.trans (s.testsRun_testRan i true inst), ?_,
      (pairs _ (by decide) (by decide)).trans (s.pair_testRan i true inst),
      fun _ => ⟨told.trans (s.is_testRan i inst), (pairs _ (by decide) (by decide)).trans (s.fails_testRan i inst)⟩⟩
    exact (congrArg (Nat.testBit · i) fails).trans (s.testsFailed_testRan i true inst)

/-- A pipe whose test fails is retired (R619). -/
theorem State.pipes_pipeRetire (s : State) {p : Nat} (low : 32 ≤ p) (high : p < 98) :
    (s.pipeRetire p).pending = s.pending ∧ p ∈ (s.pipeRetire p).attic.pipes := by
  unfold State.pipeRetire
  split
  · have frame := State.tallyFlag_frame ((s.onAttic fun a => { a with pipes := insertNat p a.pipes }).flag F.CIP_STATUS_PIPE_RETIRED)
        .hardware
      F.CIP_STATUS_PIPE_RETIRED p [0, 0]
    dsimp only
    rw [if_neg (by omega), frame.pending_eq, frame.attic_eq]
    exact ⟨rfl, mem_insertNat.2 (.inl rfl)⟩
  · next known => exact ⟨rfl, by simpa [high] using known⟩

/-! ### The stock report (R618, R620, Table 16-7) -/

section
variable (s : State)

/-- The stock report before its time (Table 16-7): 16 bytes. -/
def State.reportHead : List Byte :=
  [0x4B, 0x53, 0x54, 0x4B] ++ leBytes 2 1 ++ leBytes 1 s.side ++ leBytes 1 s.healthCode ++ leBytes 8 s.wdn.reportSeq

/-- The stock report after its time and before its CRC (Table 16-7): 228 bytes. -/
def State.reportTail : List Byte :=
  leBytes 1 (s.coreMask (· == .active) + 8 * s.coreMask CoreState.away) ++
    leBytes 1 (s.coreMask (· == .retired) + 16 * s.wdn.mode.code) ++ leBytes 2 (within24h s.now s.wdn.disagreements).length ++
    leBytes 2 (within24h s.now s.wdn.restarts).length ++ leBytes 2 s.hst.pantrySpare.length ++ leBytes 2 s.pantryOut ++
    leBytes 1 s.attic.retired.length ++ leBytes 1 s.attic.pipes.length ++ leBytes 4 (s.hst.pcs.map fun x => x.2.ce24h).sum ++
    leBytes 4 (within24h s.now s.wdn.ues).length ++ leBytes 4 s.wdn.testsFailed ++ leBytes 4 s.wdn.testsRun ++
    leBytes 4 ((List.range 8).map fun g => s.groupState g * 8 ^ g).sum ++ leBytes 4 s.readyMask ++
    leBytes 1 (s.fld F.GLB_THERM_TEMP) ++ leBytes 1 (s.fld F.CIP_ALARM_L1_CAUSE + 16 * s.fld F.CIP_ALARM_L2_CAUSE) ++
    leBytes 2 0 ++ leBytes 8 s.invSerial ++ leBytes 8 s.wdn.fwSerial ++ List.replicate 172 0

/-- The stock report before its CRC. -/
def State.reportBody : List Byte := s.reportHead ++ (leBytes 8 s.now ++ s.reportTail)

theorem State.stockBytes_eq : s.stockBytes = s.reportBody ++ leBytes 4 (crc32c s.reportBody).toNat := by
  have closed (l : List Byte) (h : l = s.reportBody) : l ++ leBytes 4 (crc32c l).toNat =
      s.reportBody ++ leBytes 4 (crc32c s.reportBody).toNat := by rw [h]
  refine closed _ ?_
  unfold State.reportBody State.reportHead State.reportTail
  simp only [List.append_assoc]

theorem State.length_reportHead : s.reportHead.length = 16 := by simp only [State.reportHead, List.length_append, leBytes_length]; rfl

theorem State.length_reportTail : s.reportTail.length = 228 := by
  unfold State.reportTail
  simp only [List.length_append, leBytes_length]
  rw [List.length_replicate]

theorem State.length_reportBody : s.reportBody.length = 252 := by
  rw [State.reportBody, List.length_append, List.length_append, State.length_reportHead, State.length_reportTail, leBytes_length]

theorem State.length_stockBytes : s.stockBytes.length = 256 := by
  rw [State.stockBytes_eq, List.length_append, State.length_reportBody, leBytes_length]

/-- A number behind so many bytes reads back. -/
theorem leAt_append_leBytes (p r : List Byte) (n v : Nat) : leAt (p ++ (leBytes n v ++ r)) p.length n = v % 256 ^ n := by
  rw [leAt, slice, List.drop_left, ← leNat_leBytes]
  congr 1
  exact List.take_left' (leBytes_length n v)

theorem State.time_stockBytes : leAt s.stockBytes 16 8 = s.now % 2 ^ 64 := by
  have read := leAt_append_leBytes s.reportHead (s.reportTail ++ leBytes 4 (crc32c s.reportBody).toNat) 8 s.now
  rw [s.length_reportHead] at read
  rw [State.stockBytes_eq]
  nth_rewrite 1 [State.reportBody]
  rw [List.append_assoc, List.append_assoc, read]
  rfl

/-- The report ends with the CRC-32C of what stands before it. -/
theorem State.crc_stockBytes : leAt s.stockBytes 252 4 = (crc32c (s.stockBytes.take 252)).toNat := by
  have read := leAt_append_leBytes s.reportBody [] 4 (crc32c s.reportBody).toNat
  rw [List.append_nil, s.length_reportBody] at read
  have body : s.stockBytes.take 252 = s.reportBody := by
    rw [State.stockBytes_eq]
    exact List.take_left' s.length_reportBody
  rw [body, State.stockBytes_eq, read]
  exact Nat.mod_eq_of_lt (BitVec.isLt _)

theorem State.healthCode_le : s.healthCode ≤ 3 := by
  unfold State.healthCode
  dsimp only
  split
  · exact Nat.le_refl 3
  · split
    · decide
    · split <;> decide

theorem State.health_stockBytes : rb s.stockBytes 7 = s.healthCode := by
  have byte : s.stockBytes.getD 7 0 = BitVec.ofNat 8 s.healthCode := by
    rw [State.stockBytes_eq, State.reportBody, State.reportHead]
    rfl
  have small := s.healthCode_le
  rw [rb, byte, BitVec.toNat_ofNat]
  omega

/-- The report of an instant has been written. -/
def State.reported : State :=
  (s.onWdn fun w => { w with report := s.stockBytes, reportSeq := w.reportSeq + 1, testsRun := 0 }).flag F.WDN_STATUS_REPORT

theorem State.reported_frame : Frame [.wdn, .regs] s s.reported :=
  ((s.onWdn_frame _).append (State.flag_frame _ F.WDN_STATUS_REPORT)).mono (by decide)

theorem State.wdn_reported : s.reported.wdn =
    { s.wdn with report := s.stockBytes, reportSeq := s.wdn.reportSeq + 1, testsRun := 0 } := by
  rw [State.reported, (State.flag_frame _ F.WDN_STATUS_REPORT).wdn_eq]
  rfl

theorem State.report_reported : s.reported.wdn.report = s.stockBytes := by rw [State.wdn_reported]

theorem State.is_reported : s.reported.is F.WDN_STATUS_REPORT = true := State.is_flag _ (by decide) (by decide)

theorem State.stockReport_alone (one : s.twoControllers = false) (due : Tab.getD Tick.report 0 s.served < s.now / 1000000000 * 1000000000) :
    s.stockReport = (s.serve Tick.report (s.now / 1000000000 * 1000000000)).reported := by
  refine (State.every_serve due _).trans ?_
  have alone : (s.serve Tick.report (s.now / 1000000000 * 1000000000)).reported.twoControllers = false := one
  have stays (w : State) (h : w.twoControllers = false) (b c : Bool) (f : State → State) : w.when (w.twoControllers && b && c) f = w := by
    rw [h]
    rfl
  exact stays _ alone _ _ _

end

/-! ### The snapshot of the report (R620) -/

theorem leNat_lt (l : List Byte) : leNat l < 256 ^ l.length := by
  induction l with
  | nil => decide
  | cons b l ih =>
    have := b.isLt
    rw [leNat, List.length_cons, Nat.pow_succ]
    omega

theorem leAt_lt (l : List Byte) (i n : Nat) : leAt l i n < 256 ^ n :=
  Nat.lt_of_lt_of_le (leNat_lt _) (Nat.pow_le_pow_right (by decide) (List.length_take_le ..))

/-- WDN_REPORT, as Table 16-16 has it. -/
def reportDesc : RegDesc := ⟨0xC00100, 64, 4, false, [⟨0, 32, .ro, 0⟩]⟩

theorem regDesc_report : regDesc (regAddr (A.WDN_REPORT 0)) = some reportDesc := by decide +kernel

/-- A read of the first word of the report takes the report into the snapshot and answers from there. -/
theorem State.readAnswer_report {s : State} {p : Path} (bus : s.busOn = true) (lets : s.modeLets p (A.WDN_REPORT 0) = true) :
    s.readAnswer p (A.WDN_REPORT 0) = { s with
      wdn := { s.wdn with reportSnap := s.wdn.report }, answer := beBytes 4 (leAt s.wdn.report 0 4) } := by
  have read : s.busRead p (A.WDN_REPORT 0) = s.wordRead reportDesc (A.WDN_REPORT 0) := State.busRead_word bus lets regDesc_report rfl
  have word : s.wordRead reportDesc (A.WDN_REPORT 0) = (BitVec.ofNat 32 (leAt s.wdn.report 0 4), s.reportRead) := rfl
  have small : leAt s.wdn.report 0 4 < 2 ^ 32 := leAt_lt s.wdn.report 0 4
  rw [State.readAnswer, if_pos bus, read, word, State.answers, BitVec.toNat_ofNat, Nat.mod_eq_of_lt small]
  rfl

/-! ### The statement -/

/-- Settles O43: WFI and its end change the running cores' waits alone, a test's run is counted once in its interval, and the report's 256
bytes end with the CRC-32C of the others. -/
theorem waitsAndStocktake : Obligations.WaitsAndStocktake := by
  unfold Obligations.WaitsAndStocktake
  refine ⟨fun s awake => ⟨fun pends => State.awake_next awake (if_pos pends) rfl, fun none => ?waits, fun early => ?early,
      fun due => ?ends⟩,
    fun i n b s awake => ⟨fun idle => ?idle, fun on may due => ⟨fun hi => ?runs, fun hi fails low high => ?pipe⟩⟩,
    fun s managed one due => ?report, fun p s bus lets => State.row_next (State.readAnswer_report bus lets) rfl⟩
  case waits =>
    have waits : s.wfi = s.each s.activeCores fun s n => s.setCore n { s.core n with wfi := true } := if_neg (by simp [none])
    have frame := State.setCores_frame (fun s n => { s.core n with wfi := true }) s.activeCores s
    refine ⟨_, State.awake_next awake waits frame.pending_eq, ?_, State.core_each (f := fun c => { c with wfi := true })
        s.activeCores_nodup s⟩
    rw [← State.wdn_setCores]
    exact frame.eq_take
  case early =>
    have none : s.timerInterrupt = s := if_neg (by simp [State.timerPending, early])
    exact State.awake_next awake none rfl
  case ends =>
    have ends : s.timerInterrupt = s.each s.activeCores fun s n => s.setCore n { s.core n with wfi := false } :=
      if_pos (by simp [State.timerPending, due])
    have frame := State.setCores_frame (fun s n => { s.core n with wfi := false }) s.activeCores s
    refine ⟨_, State.awake_next awake ends frame.pending_eq, ?_, State.core_each (f := fun c => { c with wfi := false })
        s.activeCores_nodup s⟩
    rw [← State.wdn_setCores]
    exact frame.eq_take
  case idle =>
    have none : s.stocktake i n b = s := by
      unfold State.stocktake
      split
      · next runs =>
        refine State.every_served ?_ _
        rcases idle with off | never | served
        · simp [off] at runs
        · simp [never] at runs
        · exact served
      · rfl
    exact State.awake_next awake none rfl
  case runs =>
    let w := s.serve (Tick.stock + i + 11 * n) (s.now / (1000000000 * stockInterval i) * (1000000000 * stockInterval i))
    have ran : s.stocktake i n b = w.itemRan i n b := (if_pos ⟨on, may⟩).trans (State.every_serve due _)
    obtain ⟨frame, run, fails, count, failed⟩ := w.itemRan_told n b hi
    exact ⟨_, State.awake_next awake ran frame.pending_eq, ((s.serve_frame _ _).append frame).eq_take, run, fails, count, failed⟩
  case pipe =>
    subst hi fails
    let w := s.serve (Tick.stock + 2 + 11 * n) (s.now / (1000000000 * stockInterval 2) * (1000000000 * stockInterval 2))
    have ran : s.stocktake 2 n true = (w.testRan 2 n true).pipeRetire n := (if_pos ⟨on, may⟩).trans (State.every_serve due _)
    obtain ⟨queue, retired⟩ := (w.testRan 2 n true).pipes_pipeRetire low high
    exact ⟨_, State.awake_next awake ran (queue.trans (w.testRan_frame 2 true n).pending_eq), retired⟩
  case report =>
    let w := s.serve Tick.report (s.now / 1000000000 * 1000000000)
    have frame := (s.serve_frame Tick.report (s.now / 1000000000 * 1000000000)).append w.reported_frame
    have wdn := w.wdn_reported
    have bytes := w.report_reported
    refine ⟨w.reported, State.gate_next managed (s.stockReport_alone one due) frame.pending_eq, frame.eq_take, ?_, ?_, ?_, ?_,
      congrArg Wdn.reportSeq wdn, congrArg Wdn.testsRun wdn, w.is_reported⟩
    · rw [bytes, State.length_stockBytes]
    · rw [bytes, State.crc_stockBytes]
    · rw [bytes, State.time_stockBytes]
      rfl
    · rw [bytes, State.health_stockBytes]
      rfl

end Sys2Proof.Machine
end

section
/-!
SUPPORT. What a Tally record leaves of the registers (R709 to R714), the staging area (R623, R624, R719), debug tokens (R720) and the
management port's link (R526, R527).
-/

namespace Sys2Proof.Machine

-- Proofs in sequence: the stack of every thread that waits counts against the memory limit of the check.
set_option Elab.async false

/-- A state that differs in its registers, with a queue of its own. -/
theorem Frame.regs_queued {s t : State} (h : Frame [.regs] s t) (p : List Instr) :
    { t with pending := p } = { s with regs := t.regs, pending := p } := by
  have only : t = { s with regs := t.regs } := h.eq_take
  rw [only]

/-! ### The registers of the Tally -/

/-- A field that no Tally record writes: apart from the counters of the Tally and from its two bits of MGT_STATUS. -/
structure Fld.OffTally (f : Fld) : Prop where
  counters : f.addr ∉ [A.MGT_TALLY_RECORDS, A.MGT_TALLY_RECORDS + 4, A.MGT_TALLY_LOST, A.MGT_TALLY_LOST + 4, A.MGT_EVT_DROPS,
    A.MGT_EVT_DROPS + 4] := by decide
  lost : F.MGT_STATUS_TALLY_LOST.apart f := by unfold Fld.apart; decide
  dropped : F.MGT_STATUS_EVT_DROP.apart f := by unfold Fld.apart; decide

section
variable {f : Fld} (h : f.OffTally) (s : State)
include h

/-- The counters of the Tally are none of the field's words. -/
theorem State.fld_bump_offTally {a : Nat} (ha : a ∈ [A.MGT_TALLY_RECORDS, A.MGT_TALLY_LOST, A.MGT_EVT_DROPS]) :
    (s.bump a).fld f = s.fld f := by
  have off := h.counters
  simp only [List.mem_cons, List.not_mem_nil, or_false, not_or] at off ha
  exact State.fld_bump_ne _ 1 (by omega) (by omega)

theorem State.fld_tallyPut (r : BitVec 512) : (s.tallyPut r).fld f = s.fld f := by
  unfold State.tallyPut
  dsimp only
  split
  · exact State.fld_bump_offTally h _ (by decide)
  · rw [State.fld_flag_apart _ h.lost, State.fld_bump_offTally h _ (by decide), State.fld_bump_offTally h _ (by decide)]
    rfl

theorem State.fld_tallyFrame (c : Nat) (r : BitVec 512) : (s.tallyFrame c r).fld f = s.fld f := by
  unfold State.tallyFrame
  split
  · split
    · rfl
    · rw [State.fld_flag_apart _ h.dropped, State.fld_bump_offTally h _ (by decide)]
  · rfl

theorem State.fld_tallyRaw (b c k i : Nat) (l : List Nat) (hc : c ≠ 5 := by decide) : (s.tallyRaw b c k i l).fld f = s.fld f := by
  unfold State.tallyRaw
  dsimp only
  rw [if_neg hc, State.fld_tallyFrame h, State.fld_tallyPut h]

end

/-- A record of the security class leaves everything but the Tally and its registers. -/
theorem State.seq_tallyEvent (s : State) (c : TallyClass) (b n i : Nat) (l : List Nat) :
    (s.tallyEvent c b n i l).mgt.seq = s.mgt.seq + 1 := by
  have put : ∀ r, (s.tallyPut r).mgt.seq = s.mgt.seq + 1 := fun r => by
    unfold State.tallyPut
    dsimp only
    split <;> rfl
  have frame : ∀ (s : State) (k : Nat) (r : BitVec 512), (s.tallyFrame k r).mgt.seq = s.mgt.seq := fun s k r => by
    unfold State.tallyFrame
    split
    · split <;> rfl
    · rfl
  unfold State.tallyEvent State.tallyRaw
  dsimp only
  split <;> exact (frame _ _ _).trans (put _)

variable (s : State)

/-! ### The staging area (R624, R719) -/

theorem State.fwEnd_frame (code : Nat) : Frame [.regs] s (s.fwEnd code) :=
  ((s.setFld_frame _ _).trans (State.setFld_frame _ _ _)).trans (State.flag_frame _ _)

/-- A command of MGT_FW_CTRL ends: its code, READY and FW_DONE. -/
theorem State.fwEnd_told {code : Nat} (h : code < 256) : (s.fwEnd code).fld F.MGT_FW_STATUS_CODE = code ∧
    (s.fwEnd code).fld F.MGT_FW_STATUS_READY = 1 ∧ (s.fwEnd code).is F.MGT_STATUS_FW_DONE = true := by
  unfold State.fwEnd
  refine ⟨?_, ?_, State.is_flag _ (by decide) (by decide)⟩
  · rw [State.fld_flag_apart _ (.inl (by decide)), State.fld_setFld_apart _ (.inr (.inr (by decide))), State.fld_setFld_self _ (by decide)]
    exact Nat.mod_eq_of_lt h
  · rw [State.fld_flag_apart _ (.inl (by decide)), State.fld_setFld_self _ (by decide)]
    rfl

/-- The staging area, taken for a new image. -/
def State.stagingOpened (s : State) : State := s.stagingClear.onMgt fun m => { m with fwOffset := 0, fwOver := false }

theorem State.stagingOpened_eq : s.stagingOpened = { s with wdn := { s.wdn with staging := [], staged := [] }
                                                            mgt := { s.mgt with fwOffset := 0, fwOver := false } } := rfl

section
variable {s : State}

theorem State.fwOpen_busy (h : s.activation.isSome = true) : s.fwOpen = s.fwEnd 1 := if_pos h

theorem State.fwRun_busy (h : s.activation.isSome = true) (b : Bool) : s.fwRun b = s.fwEnd 1 := if_pos h

theorem State.fwOpen_idle (h : s.activation = none) : s.fwOpen = s.stagingOpened.fwEnd 0 := if_neg (by simp [h])

theorem State.fwRun_unstaged (h : s.activation = none) (hi : s.stagedImage = none) (b : Bool) :
    s.fwRun b = s.stagingClear.fwEnd 2 := by
  unfold State.fwRun State.fwActivate
  rw [h, hi]
  rfl

theorem State.fwRun_verified {img : List Byte} (h : s.activation = none) (hi : s.stagedImage = some img) :
    s.fwRun false = (s.imagePut img).fwEnd 0 := by
  unfold State.fwRun State.fwActivate
  rw [h, hi]
  rfl

theorem State.fwRun_activated {img : List Byte} (h : s.activation = none) (hi : s.stagedImage = some img) :
    s.fwRun true = ((s.imagePut img).activateImage img s.otherSlot).fwEnd
      (if ((s.imagePut img).activateImage img s.otherSlot).wdn.fwSlot = some s.otherSlot then 0 else 2) := by
  unfold State.fwRun State.fwActivate
  rw [h, hi]
  simp only [Option.isSome_none, Bool.false_eq_true, if_false, if_true, decide_eq_true_eq]
  rfl

/-- Four bytes staged read as they were written, and the others as before. -/
theorem State.staged_four (h : Mem.wf 0 s.wdn.staging = true) (off : Nat) (v : Word) :
    Mem.wf 0 (s.stageBytes off (toBytes 4 v)).wdn.staging = true ∧
      Mem.read 0 (s.stageBytes off (toBytes 4 v)).wdn.staging off 4 = toBytes 4 v ∧
      ∀ a, a < off ∨ off + 4 ≤ a → Mem.byte 0 (s.stageBytes off (toBytes 4 v)).wdn.staging a = Mem.byte 0 s.wdn.staging a :=
  ⟨Mem.wf_write h _ _, Mem.read_write 0 s.wdn.staging off (toBytes 4 v), fun _ ha => Mem.byte_write_out 0 _ _ _ _ ha⟩

end

/-! ### Debug tokens (R720) -/

/-- The layout of a debug token's header. -/
theorem dbgFormat_iff (l : List Byte) : dbgFormat l = true ↔ l.length = 336 ∧ l.take 4 = ascii "KDBG" ∧ leAt l 4 2 = 1 ∧
    leAt l 6 2 < 8 ∧ leAt l 8 4 = 0x4B2400A1 ∧ zeros l 21 107 = true := by
  simp only [dbgFormat, Bool.and_eq_true, beq_iff_eq, decide_eq_true_eq, and_assoc]

/-- A token is accepted that passes every check. -/
theorem State.dbgCode_zero (l : List Byte) : s.dbgCode l = 0 ↔ dbgFormat l = true ∧ leAt l 20 1 < 4 ∧
    keySlotOk s.fuses.keys (leAt l 20 1) (l.drop 128) = true ∧ signatureOk (l.drop 128) (sha384 (l.take 128)) = true ∧
      leAt l 12 8 = s.pair A.MGT_DBG_NONCE := by
  unfold State.dbgCode
  dsimp only
  split
  · next format => simp_all
  · split
    · next slot =>
      refine iff_of_false (by decide) fun ⟨_, lt, ok, _⟩ => ?_
      simp [lt, ok] at slot
    · split
      · next sig => simp_all
      · split <;> simp_all

theorem State.dbgCode_lt (l : List Byte) : s.dbgCode l < 256 := by
  unfold State.dbgCode
  dsimp only
  repeat' split
  all_goals omega

/-- A token that fails a check leaves its code, and a record. -/
def State.tokenRefused (s : State) : State :=
  ((s.setFld F.MGT_DBG_STATE_CODE (s.dbgCode s.mgt.dbg)).flag F.MGT_STATUS_DBG_REFUSED).tallySecurity F.MGT_STATUS_DBG_REFUSED

theorem State.fld_tallySecurity {f : Fld} (h : f.OffTally) (g : Fld) : (s.tallySecurity g).fld f = s.fld f :=
  State.fld_tallyRaw h s _ _ _ _ _

section
variable {s : State}

theorem State.dbgCommit_refused (h : s.dbgCode s.mgt.dbg ≠ 0) : s.dbgCommit = s.tokenRefused := if_neg h

theorem State.tokenRefused_told : s.tokenRefused.fld F.MGT_DBG_STATE_CODE = s.dbgCode s.mgt.dbg ∧
    s.tokenRefused.is F.MGT_STATUS_DBG_REFUSED = true ∧
    s.tokenRefused.fld F.MGT_DBG_STATE_SCOPE = s.fld F.MGT_DBG_STATE_SCOPE := by
  unfold State.tokenRefused
  refine ⟨?_, ?_, ?_⟩
  · rw [State.fld_tallySecurity _ {}, State.fld_flag_apart _ (.inl (by decide)), State.fld_setFld_self _ (by decide)]
    exact Nat.mod_eq_of_lt (s.dbgCode_lt _)
  · rw [State.is, State.fld_tallySecurity _ {}]
    exact State.is_flag _ (by decide) (by decide)
  · rw [State.fld_tallySecurity _ {}, State.fld_flag_apart _ (.inl (by decide)), State.fld_setFld_apart _ (.inr (.inl (by decide)))]

theorem State.tokenRefused_frame : Frame [.regs, .wdn, .mgt] s s.tokenRefused :=
  (((s.setFld_frame _ _).trans (State.flag_frame _ _)).append (State.tallyFlag_frame _ _ _ _ _)).mono (by decide)

/-- An accepted token opens a scope that leaves the key slots alone. -/
def State.scopeOpened (s : State) (scope : Nat) : State :=
  (s.setFld F.MGT_DBG_STATE_CODE 0).setFld F.MGT_DBG_STATE_SCOPE (s.fld F.MGT_DBG_STATE_SCOPE ||| scope)

theorem State.scopeOpened_frame (scope : Nat) : Frame [.regs] s (s.scopeOpened scope) :=
    (s.setFld_frame _ _).trans (State.setFld_frame _ _ _)

/-- The record of an accepted token. -/
def State.scopeTold (s : State) : State := s.tallyEvent .security 15 7 0 [s.alarmWord.toNat, (s.word A.MGT_DBG_STATE).toNat]

theorem State.dbgCommit_accepted (h : s.dbgCode s.mgt.dbg = 0) (low : leAt s.mgt.dbg 6 2 < 2) :
    s.dbgCommit = (s.scopeOpened (leAt s.mgt.dbg 6 2)).scopeTold := by
  have none : decide (leAt s.mgt.dbg 6 2 / 2 ≠ 0) = false := by simp [Nat.div_eq_of_lt low]
  have scope : (s.setFld F.MGT_DBG_STATE_CODE 0).fld F.MGT_DBG_STATE_SCOPE = s.fld F.MGT_DBG_STATE_SCOPE :=
    State.fld_setFld_apart _ (.inr (.inl (by decide))) 0
  unfold State.dbgCommit State.scopeOpened State.scopeTold
  dsimp only
  rw [h, if_pos rfl, State.setFld_mgt, none, State.when, if_neg Bool.false_ne_true, scope]

theorem State.scopeTold_told {scope : Nat} (low : scope < 2) :
    (s.scopeOpened scope).scopeTold.fld F.MGT_DBG_STATE_CODE = 0 ∧
    (s.scopeOpened scope).scopeTold.fld F.MGT_DBG_STATE_SCOPE = s.fld F.MGT_DBG_STATE_SCOPE ||| scope := by
  have old : s.fld F.MGT_DBG_STATE_SCOPE < 2 ^ 3 := Nat.mod_lt _ (by decide)
  unfold State.scopeTold State.tallyEvent
  rw [State.fld_tallyRaw {} _ _ _ _ _ _ (by decide), State.fld_tallyRaw {} _ _ _ _ _ _ (by decide)]
  constructor
  · rw [State.scopeOpened, State.fld_setFld_apart _ (.inr (.inr (by decide))), State.fld_setFld_self _ (by decide)]
    rfl
  · rw [State.scopeOpened, State.fld_setFld_self _ (by decide)]
    exact Nat.mod_eq_of_lt (Nat.or_lt_two_pow old (low.trans (by decide)))

end

/-! ### The management port's link (R501, R526) -/

/-- The management port's receiver shows a speed and whether it sees energy. -/
def State.mgtSeen (s : State) (speed : Nat) (energy : Bool) : State :=
  (s.onMac fun m => { m with speed := speed % 4 }).modSp 32 fun p => { p with energy := energy }

theorem State.mgtLinkChange_eq (up : Bool) (speed : Nat) (energy : Bool) :
    s.mgtLinkChange up speed energy = (s.mgtSeen speed energy).linkChange 32 (up && s.spEn 32) := rfl

theorem State.mgtSeen_frame (speed : Nat) (energy : Bool) : Frame [.mac] s (s.mgtSeen speed energy) :=
  (s.onMac_frame _).trans (State.modSp_frame _ _ _)

theorem State.sp_mgtSeen_self (speed : Nat) (energy : Bool) : (s.mgtSeen speed energy).sp 32 = { s.sp 32 with energy := energy } :=
  State.sp_modSp_self _ _ _

theorem State.sp_mgtSeen_ne (speed : Nat) (energy : Bool) {k : Nat} (h : k ≠ 32) : (s.mgtSeen speed energy).sp k = s.sp k :=
  State.sp_modSp_ne _ h _

/-- The management port's link comes up. -/
def State.mgtLinked (s : State) : State :=
  (s.modSp 32 fun p => { p with link := true, fec := true, merge := false }).flag F.MAC_STATUS_MGT_LINK_CHANGE

section
variable {s : State}

theorem State.linkChange_same {n : Nat} {up : Bool} (h : (s.sp n).link = up) : s.linkChange n up = s := if_pos h

theorem State.linkChange_mgt_up (h : (s.sp 32).link = false) : s.linkChange 32 true = s.mgtLinked := by
  rw [State.linkChange, if_neg (by simp [h])]
  rfl

theorem State.linkChange_mgt_down (h : (s.sp 32).link = true) :
    s.linkChange 32 false = (s.unlinked 32).flag F.MAC_STATUS_MGT_LINK_CHANGE := by
  rw [State.linkChange, if_neg (by simp [h])]
  rfl

end

end Sys2Proof.Machine
end

section
/-!
The statement about the staging area, the debug token and the management port's link (19_management.md R719, R720; R526).
-/

namespace Sys2Proof.Machine

-- Proofs in sequence: the stack of every thread that waits counts against the memory limit of the check.
set_option Elab.async false

/-- Settles O51, a clause a command: what each one's effect is comes from the laws of the staging area, of the token's checks and of the
management port's link. -/
theorem firmwareAndDebug : Obligations.FirmwareAndDebug := by
  unfold Obligations.FirmwareAndDebug
  refine ⟨fun p s bus lets => ⟨fun busy => ?busy, fun idle => ⟨?opens, fun none => ?unstaged, fun img staged => ?staged⟩⟩,
    fun p v s bus lets => ⟨fun full => ?full, fun on past => ?past, fun on fits => ?fits⟩,
    fun p v s bus => ⟨fun lets => State.bus_next bus lets rfl rfl, fun lets => State.bus_next bus lets rfl rfl⟩,
    fun p s l k bus lets hl hk => ?token, dbgFormat_iff, fun up e n s bus => ⟨fun same => ?same, fun down comes => ?up,
        fun on goes => ?down⟩⟩
  case busy =>
    obtain ⟨code, ready, done⟩ := s.fwEnd_told (code := 1) (by decide)
    have kept := (s.fwEnd_frame 1).pending_eq
    exact ⟨_, State.bus_next bus lets (State.fwOpen_busy busy) kept, State.bus_next bus lets (State.fwRun_busy busy _) kept,
      State.bus_next bus lets (State.fwRun_busy busy _) kept, (s.fwEnd_frame 1).eq_take, code, ready, done⟩
  case opens =>
    obtain ⟨code, ready, done⟩ := s.stagingOpened.fwEnd_told (code := 0) (by decide)
    have frame := s.stagingOpened.fwEnd_frame 0
    exact ⟨_, State.bus_next bus lets (State.fwOpen_idle idle) frame.pending_eq, frame.eq_take, code, ready, done⟩
  case unstaged =>
    obtain ⟨code, -, done⟩ := s.stagingClear.fwEnd_told (code := 2) (by decide)
    have frame := s.stagingClear.fwEnd_frame 2
    exact ⟨_, State.bus_next bus lets (State.fwRun_unstaged idle none _) frame.pending_eq,
      State.bus_next bus lets (State.fwRun_unstaged idle none _) frame.pending_eq, frame.eq_take, code, done⟩
  case staged =>
    let w := (s.imagePut img).activateImage img s.otherSlot
    have few : (if w.wdn.fwSlot = some s.otherSlot then 0 else 2) < 256 := by split <;> decide
    obtain ⟨code, -, done⟩ := (s.imagePut img).fwEnd_told (code := 0) (by decide)
    obtain ⟨wcode, -, wdone⟩ := w.fwEnd_told few
    have frame := (s.imagePut img).fwEnd_frame 0
    refine ⟨_, _, _, w, State.bus_next bus lets (State.fwRun_verified idle staged) frame.pending_eq, rfl, frame.eq_take, code, done,
      State.bus_row bus lets _, rfl, ?_, ?_, fun put => ?_, fun kept => ?_⟩ <;> rw [State.fwRun_activated idle staged]
    · exact (w.fwEnd_frame _).regs_queued s.pending
    · exact wdone
    · exact wcode.trans (if_pos put)
    · exact wcode.trans (if_neg kept)
  case full => exact State.bus_next bus lets (if_pos full) rfl
  case past =>
    have over_ : s.fwData v = (s.onMgt fun m => { m with fwOver := true }).setFld F.MGT_FW_STATUS_CODE 3 :=
      (if_neg (by simp [on])).trans (if_pos past)
    have frame := (s.onMgt fun m => { m with fwOver := true }).setFld_frame F.MGT_FW_STATUS_CODE 3
    exact ⟨_, State.bus_next bus lets over_ frame.pending_eq, frame.eq_take, State.fld_setFld_self _ (by decide) 3⟩
  case fits =>
    have put : s.fwData v = (s.stageBytes s.mgt.fwOffset (toBytes 4 v)).onMgt fun m => { m with fwOffset := m.fwOffset + 4 } :=
      (if_neg (by simp [on])).trans (if_neg (Nat.not_lt.2 fits))
    exact ⟨_, State.bus_next bus lets put rfl, rfl, fun wf => State.staged_four wf _ v⟩
  case token =>
    subst hl hk
    refine ⟨fun refused => ?_, fun accepted low => ?_, s.dbgCode_zero _⟩
    · obtain ⟨code, flagged, scope⟩ := s.tokenRefused_told
      exact ⟨_, State.bus_next bus lets (State.dbgCommit_refused refused) s.tokenRefused_frame.pending_eq, code, flagged, scope,
        s.tokenRefused_frame.cip_eq⟩
    · have opened := s.scopeOpened_frame (leAt s.mgt.dbg 6 2)
      have told : Frame [.regs, .wdn, .mgt] _ (s.scopeOpened (leAt s.mgt.dbg 6 2)).scopeTold := State.tallyEvent_frame _ _ _ _ _ _
      obtain ⟨code, scope⟩ := s.scopeTold_told low
      refine ⟨_, State.bus_next bus lets (State.dbgCommit_accepted accepted low) (told.pending_eq.trans opened.pending_eq), code, scope,
        told.cip_eq.trans opened.cip_eq, ?_⟩
      rw [State.scopeTold, State.seq_tallyEvent, opened.mgt_eq]
  case same =>
    have stays : s.mgtLinkChange up n e = s.mgtSeen n e := by
      rw [State.mgtLinkChange_eq]
      exact State.linkChange_same (by rw [s.sp_mgtSeen_self]; exact same)
    exact ⟨_, State.gate_next bus stays (s.mgtSeen_frame n e).pending_eq, (s.mgtSeen_frame n e).eq_take, rfl,
      s.sp_mgtSeen_self n e, fun k hk => s.sp_mgtSeen_ne n e hk⟩
  case up =>
    have link : ((s.mgtSeen n e).sp 32).link = false := by rw [s.sp_mgtSeen_self]; exact down
    have comes_ : s.mgtLinkChange up n e = (s.mgtSeen n e).mgtLinked := by
      rw [State.mgtLinkChange_eq, comes, State.linkChange_mgt_up link]
    have frame : Frame [.mac, .regs] s (s.mgtSeen n e).mgtLinked :=
      ((s.mgtSeen_frame n e).append ((State.modSp_frame _ _ _).append (State.flag_frame _ _))).mono (by decide)
    refine ⟨_, State.gate_next bus comes_ frame.pending_eq, frame.eq_take, rfl, ?_,
      State.is_flag _ (by decide) (by decide), fun k hk => ?_⟩
    · rw [State.mgtLinked, State.sp_flag, State.sp_modSp_self, State.sp_mgtSeen_self]
    · rw [State.mgtLinked, State.sp_flag, State.sp_modSp_ne _ hk, s.sp_mgtSeen_ne n e hk]
  case down =>
    have link : ((s.mgtSeen n e).sp 32).link = true := by rw [s.sp_mgtSeen_self]; exact on
    have goes_ : s.mgtLinkChange up n e = ((s.mgtSeen n e).unlinked 32).flag F.MAC_STATUS_MGT_LINK_CHANGE := by
      rw [State.mgtLinkChange_eq, goes, State.linkChange_mgt_down link]
    have frame := ((s.mgtSeen_frame n e).append ((s.mgtSeen n e).unlinked_frame 32)).append
        (State.flag_frame _ F.MAC_STATUS_MGT_LINK_CHANGE)
    obtain ⟨off, -, queue, wire⟩ := (s.mgtSeen n e).sp_unlinked_self 32
    refine ⟨_, State.gate_next bus goes_ frame.pending_eq, ?_, ?_, ?_, State.is_flag _ (by decide) (by decide)⟩ <;> rw [State.sp_flag]
    · exact off
    · exact queue
    · exact wire

end Sys2Proof.Machine
end

section
/-!
The islands' voltage loops and the rail (18_power_modes_and_islands.md R666 to R671, R733), and the statement about them.
-/

namespace Sys2Proof.Machine

-- Proofs in sequence: the stack of every thread that waits counts against the memory limit of the check.
set_option Elab.async false

variable (s : State) (i : Nat)

/-! ### An island and the others -/

theorem State.setIsland_frame (x : Island) : Frame [.pwr] s (s.setIsland i x) := s.onPwr_frame _

theorem State.island_congr {s t : State} (h : t.pwr = s.pwr) (k : Nat) : t.island k = s.island k := by rw [State.island, State.island, h]

@[simp] theorem State.island_serve (row t k : Nat) : (s.serve row t).island k = s.island k := rfl

@[simp] theorem State.islandVolts_serve (row t k : Nat) : (s.serve row t).islandVolts k = s.islandVolts k := rfl

@[simp] theorem State.islandTarget_serve (row t : Nat) (m : PowerMode) (k : Nat) : (s.serve row t).islandTarget m k =
    s.islandTarget m k := rfl

/-! ### What a loop does with a period (R669, R670) -/

/-- The island that a failed period at Vmax slows. -/
def Island.slowed (x : Island) (step : Nat) : Island := { x with freq := x.freq - step, throttled := true, passes := 0, periods := 0 }

/-- An island is slowed: the first of a run of slowings is counted. -/
def State.slow (s : State) (i : Nat) : State :=
  ((if (s.island i).throttled then s else s.bump A.PWR_THROTTLE_EVENTS).setIsland i
    ((s.island i).slowed (s.islandTarget s.pwr.cur i / 32))).flag F.PWR_STATUS_THROTTLED

/-- The island after a period that passed with margin. -/
def Island.passed (x : Island) (lo : Nat) : Island :=
  if x.passes = 255 then { x with volt := max lo (x.volt - 5), passes := 0, periods := 0 }
  else { x with passes := x.passes + 1, periods := 0 }

section
variable {s : State} {i lo hi : Nat} (hi' : i < 128) (runs : (s.island i).freq ≠ 0) (volts : s.islandVolts i = (lo, hi))
include hi' runs volts

theorem State.islandLoop_raises (b : Bool) (low : (s.island i).volt < hi) : s.islandLoop i true b =
    s.setIsland i { s.island i with volt := min hi ((s.island i).volt + 5), passes := 0, periods := 0 } := by
  unfold State.islandLoop
  rw [volts]
  exact (if_pos ⟨hi', runs⟩).trans (if_pos low)

theorem State.islandLoop_slows (b : Bool) (high : hi ≤ (s.island i).volt) : s.islandLoop i true b = s.slow i := by
  unfold State.islandLoop
  rw [volts]
  exact (if_pos ⟨hi', runs⟩).trans (if_neg (Nat.not_lt.2 high))

theorem State.islandLoop_passes (full : (s.island i).throttled = false) :
    s.islandLoop i false true = s.setIsland i ((s.island i).passed lo) := by
  unfold State.islandLoop Island.passed
  rw [volts]
  dsimp only
  rw [if_pos ⟨hi', runs⟩]
  by_cases last : (s.island i).passes = 255
  · simp [last, full]
  · simp [last, full]

end

theorem State.slow_told : (s.slow i).is F.PWR_STATUS_THROTTLED = true ∧
    (s.slow i).island i = (s.island i).slowed (s.islandTarget s.pwr.cur i / 32) ∧
    (s.slow i).pair A.PWR_THROTTLE_EVENTS =
      (s.pair A.PWR_THROTTLE_EVENTS + if (s.island i).throttled then 0 else 1) % 2 ^ 64 := by
  unfold State.slow
  refine ⟨State.is_flag _ (by decide) (by decide), State.island_setIsland_self _ _ _, ?_⟩
  rw [State.pair_flag_ne (by decide) (by decide), State.pair_congr (State.setIsland_frame _ _ _).regs_eq]
  split
  · exact (Nat.mod_eq_of_lt (s.pair_lt _)).symm
  · exact s.pair_bump_self _ 1

theorem State.island_slow_ne {k : Nat} (h : k ≠ i) : (s.slow i).island k = s.island k := by
  unfold State.slow
  rw [State.island_congr (State.flag_frame _ _).pwr_eq, State.island_setIsland_ne h]
  split
  · rfl
  · exact State.island_congr (s.bump_frame _ _).pwr_eq k

theorem State.slow_frame : Frame [.regs, .pwr] s (s.slow i) :=
  (((Frame.ite (Frame.refl _ s) ((s.bump_frame _ _).mono (by decide))).trans ((State.setIsland_frame _ i _).mono (by decide))).trans
    ((State.flag_frame _ _).mono (by decide)))

/-! ### The rail (R671, R733) -/

/-- An update of the rail's setpoint that was acknowledged or not. -/
def State.railSet (s : State) (miss : Nat) : State :=
  (s.onPwr fun p => { p with avsAt := s.now, avsMiss := miss }).setFld F.PWR_RAIL_SETPOINT s.railPoint

/-- The third miss in a row is an error. -/
def State.railMissed (s : State) : State := (s.flag F.GLB_STATUS_AVS_ERR).tallyFlag .hardware F.GLB_STATUS_AVS_ERR 0 [s.islandWord.toNat, 0]

theorem State.railMissed_frame : Frame [.regs, .wdn, .mgt] s s.railMissed :=
  ((s.flag_frame _).append (State.tallyFlag_frame _ _ _ _ _)).mono (by decide)

/-- What an update of the rail answers. -/
def State.railUpdated (s : State) (miss : Nat) : State := (s.railSet miss).when (decide (miss = 3)) State.railMissed

theorem State.avsUpdate_off {s : State} (h : s.is F.PWR_CTRL_AVS_EN = false) (a : Bool) : s.avsUpdate a = s := if_neg (by simp [h])

theorem State.avsUpdate_due {s : State} (h : s.is F.PWR_CTRL_AVS_EN = true)
    (due : Tab.getD Tick.avs 0 s.served < s.now / 10000 * 10000) (a : Bool) : s.avsUpdate a =
      (s.serve Tick.avs (s.now / 10000 * 10000)).railUpdated (if a then 0 else s.pwr.avsMiss + 1) := by
  rw [State.avsUpdate, if_pos h, State.every_serve due, State.railUpdated, State.when]
  simp only [decide_eq_true_eq]
  rfl

theorem State.railPoint_lt : s.railPoint < 1024 := Nat.lt_of_le_of_lt (Nat.min_le_left 890 _) (by decide)

theorem State.railUpdated_frame (miss : Nat) : Frame [.pwr, .regs, .wdn, .mgt] s (s.railUpdated miss) :=
  (((s.onPwr_frame _).append (State.setFld_frame _ _ _)).append (Frame.when _ (State.railMissed_frame _))).mono (by decide)

theorem State.railUpdated_told (miss : Nat) : (s.railUpdated miss).pwr.avsAt = s.now ∧
    (s.railUpdated miss).pwr.avsMiss = miss ∧ (s.railUpdated miss).fld F.PWR_RAIL_SETPOINT = s.railPoint := by
  have pwr : (s.railUpdated miss).pwr = (s.railSet miss).pwr := (Frame.when _ (State.railMissed_frame _)).pwr_eq
  have set_ : (s.railSet miss).fld F.PWR_RAIL_SETPOINT = s.railPoint :=
    (State.fld_setFld_self _ (by decide) _).trans (Nat.mod_eq_of_lt s.railPoint_lt)
  refine ⟨by rw [pwr]; rfl, by rw [pwr]; rfl, ?_⟩
  unfold State.railUpdated State.when
  split
  · rw [State.railMissed, State.tallyFlag, State.fld_tallyRaw {} _ _ _ _ _ _ (by decide), State.fld_flag_apart _ (.inl (by decide)), set_]
  · exact set_

theorem State.railUpdated_error : (s.railUpdated 3).is F.GLB_STATUS_AVS_ERR = true := by
  have missed : s.railUpdated 3 = (s.railSet 3).railMissed := rfl
  rw [missed, State.railMissed, State.tallyFlag, State.is, State.fld_tallyRaw {} _ _ _ _ _ _ (by decide)]
  exact State.is_flag _ (by decide) (by decide)

/-! ### The statement -/

/-- Settles O48: a period that failed raises the island or, at Vmax, slows it; one with margin passes; and the rail follows the islands. -/
theorem islandLoops : Obligations.IslandLoops := by
  unfold Obligations.IslandLoops
  refine ⟨fun i lo hi b x s up hi' hx runs volts due => ?loops, fun a s up => ⟨fun off => ?off, fun on due => ?rail⟩⟩
  case loops =>
    subst hx
    let w := s.serve (Tick.island + i) (s.now / 1000 * 1000)
    have serve : Frame [.served] s w := s.serve_frame _ _
    have row : ∀ failed margin {t : State}, w.islandLoop i failed margin = t → t.pending = s.pending →
        exec (.islandLoopTick i failed margin) s = .next t := fun failed margin t h kept =>
      State.gate_next (f := fun s => s.islandTick i failed margin) up ((State.every_serve due fun s => s.islandLoop i failed margin).trans
          h) kept
    refine ⟨?_, fun full => ?_⟩
    · by_cases low : (s.island i).volt < hi
      · have raises := State.islandLoop_raises (s := w) hi' runs volts b low
        exact ⟨_, row true b raises (serve.append (w.setIsland_frame i _)).pending_eq, fun _ => ⟨rfl, State.island_setIsland_self _ _ _⟩,
          fun high => absurd low (Nat.not_lt.2 high), fun k hk => State.island_setIsland_ne hk _ _⟩
      · have slows := State.islandLoop_slows (s := w) hi' runs volts b (Nat.not_lt.1 low)
        obtain ⟨flagged, island, events⟩ := w.slow_told i
        exact ⟨_, row true b slows (serve.append (w.slow_frame i)).pending_eq, fun h => absurd h low,
          fun _ => ⟨flagged, island, events⟩, fun k hk => w.island_slow_ne i hk⟩
    · have passes := State.islandLoop_passes (s := w) hi' runs volts full
      refine ⟨_, row false true passes (serve.append (w.setIsland_frame i _)).pending_eq, rfl, fun last => ?_, fun more => ?_⟩ <;>
        rw [State.island_setIsland_self]
      · exact if_pos last
      · exact if_neg more
  case off => exact State.gate_next up (State.avsUpdate_off off a) rfl
  case rail =>
    let w := s.serve Tick.avs (s.now / 10000 * 10000)
    let miss := if a then 0 else s.pwr.avsMiss + 1
    obtain ⟨at_, missed, point⟩ := w.railUpdated_told miss
    have frame := (s.serve_frame Tick.avs (s.now / 10000 * 10000)).append (w.railUpdated_frame miss)
    refine ⟨w.railUpdated miss, State.gate_next up (State.avsUpdate_due on due a) frame.pending_eq, at_, point, fun acked => ?_,
        fun none => ?_,
      fun none twice => ?_⟩
    · rw [missed]
      exact if_pos acked
    · rw [missed]
      exact if_neg (by simp [none])
    · have three : miss = 3 := by simp [miss, none, twice]
      rw [three]
      exact w.railUpdated_error

end Sys2Proof.Machine
end

section
/-!
SUPPORT. Bytes in wire order, Tally records as they are appended (R711 to R713), event frames (R714, Table 19-8) and the run of a
self-test (19_management.md R715 to R718).
-/

namespace Sys2Proof.Machine

-- Proofs in sequence: the stack of every thread that waits counts against the memory limit of the check.
set_option Elab.async false

/-! ### Bytes in wire order -/

theorem beBytes_length (n v : Nat) : (beBytes n v).length = n := by rw [beBytes, List.length_reverse, leBytes_length]

theorem beNat_reverse (l : List Byte) : beNat l.reverse = leNat l := by
  rw [beNat, List.foldl_reverse]
  induction l with
  | nil => rfl
  | cons b l ih =>
    rw [List.foldr_cons, ih, leNat]
    omega

/-- A field at the front reads as it was written. -/
theorem beAt_beBytes (n v : Nat) (l : List Byte) : beAt (beBytes n v ++ l) 0 n = v % 256 ^ n := by
  have first : slice (beBytes n v ++ l) 0 n = beBytes n v := by
    rw [slice, List.drop_zero, List.take_append_of_le_length (by rw [beBytes_length]), List.take_of_length_le (by rw [beBytes_length])]
  rw [beAt, first, beBytes, beNat_reverse, leNat_leBytes]

/-- A field behind others reads as it does without them. -/
theorem beAt_append {a : List Byte} {k : Nat} (h : a.length = k) (l : List Byte) (off n : Nat) :
    beAt (a ++ l) (k + off) n = beAt l off n := by
  subst h
  rw [beAt, beAt, slice, slice, List.drop_length_add_append]

theorem leNat_append (a l : List Byte) : leNat (a ++ l) = leNat a + 256 ^ a.length * leNat l := by
  induction a with
  | nil => simp [leNat]
  | cons b a ih =>
    rw [List.cons_append, leNat, leNat, ih, List.length_cons, Nat.pow_succ']
    ring

/-- A list of words, each as its four bytes. -/
def wordBytes (l : List Word) : List Byte := l.flatMap (toBytes 4)

theorem wordBytes_length (l : List Word) : (wordBytes l).length = 4 * l.length := by
  induction l with
  | nil => rfl
  | cons w l ih => rw [wordBytes, List.flatMap_cons, List.length_append, ← wordBytes, ih, toBytes, leBytes_length, List.length_cons]; omega

/-- A word of the list reads as it was written. -/
theorem leNat_wordBytes {l : List Word} {k : Nat} (h : k < l.length) : leNat (wordBytes l) / 2 ^ (32 * k) % 2 ^ 32 = (l[k]).toNat := by
  induction l generalizing k with
  | nil => simp at h
  | cons w l ih =>
    have first : leNat (toBytes 4 w) = w.toNat := by rw [toBytes, leNat_leBytes]; exact Nat.mod_eq_of_lt w.isLt
    have bytes : leNat (wordBytes (w :: l)) = w.toNat + 2 ^ 32 * leNat (wordBytes l) := by
      rw [wordBytes, List.flatMap_cons, leNat_append, first, toBytes, leBytes_length, wordBytes]
      rfl
    rw [bytes]
    cases k with
    | zero =>
      rw [Nat.mul_zero, Nat.pow_zero, Nat.div_one, Nat.add_mul_mod_self_left]
      exact Nat.mod_eq_of_lt w.isLt
    | succ k =>
      have next : 2 ^ (32 * (k + 1)) = 2 ^ 32 * 2 ^ (32 * k) := by rw [← Nat.pow_add]; congr 1; omega
      rw [next, ← Nat.div_div_eq_div_mul, Nat.add_mul_div_left _ _ (by decide), Nat.div_eq_of_lt w.isLt, Nat.zero_add]
      exact ih (Nat.lt_of_succ_lt_succ h)

theorem getBytes_ofBytes_wordBytes {m : Nat} {l : List Word} (hm : 32 * l.length ≤ m) {k : Nat} (h : k < l.length) :
    getBytes (ofBytes m (wordBytes l)) (4 * k) 4 = (l[k]).toNat := by
  have small : leNat (wordBytes l) < 2 ^ m := by
    refine Nat.lt_of_lt_of_le (leNat_lt _) ?_
    rw [wordBytes_length, show 256 = 2 ^ 8 from rfl, ← Nat.pow_mul]
    exact Nat.pow_le_pow_right (by decide) (by omega)
  rw [getBytes, getBits, BitVec.toNat_ushiftRight, ofBytes, BitVec.toNat_ofNat, Nat.mod_eq_of_lt small, Nat.shiftRight_eq_div_pow,
    show 8 * (4 * k) = 32 * k by omega]
  exact leNat_wordBytes h

/-! ### A record appended by firmware (R713) -/

variable (s : State)

/-- The words of MGT_TALLY_IN. -/
def State.tallyIn (s : State) : List Word := (List.range 16).map fun n => s.word (A.MGT_TALLY_IN n)

/-- The record that MGT_TALLY_APPEND completes. -/
def State.appended (s : State) : BitVec 512 :=
  putBits (putBytes (putBytes (putBytes (putBytes (ofBytes 512 (wordBytes s.tallyIn)) 0 8 s.now) 8 8 s.mgt.seq) 16 1 0x10) 17 1 0x0A)
    (8 * 23 + 7) 1 1

theorem State.tallyAppend_eq : s.tallyAppend = (s.tallyPut s.appended).tallyFrame 0x0A s.appended := by
  have bytes : ((List.range 16).flatMap fun n => toBytes 4 (s.word (A.MGT_TALLY_IN n))) = wordBytes s.tallyIn := by
    rw [wordBytes, State.tallyIn, List.flatMap_map]
  unfold State.tallyAppend
  dsimp only
  rw [bytes]
  rfl

theorem State.getBytes_tallyIn {k : Nat} (h : k < 16) :
    getBytes (ofBytes 512 (wordBytes s.tallyIn)) (4 * k) 4 = (s.word (A.MGT_TALLY_IN k)).toNat := by
  have hk : k < s.tallyIn.length := by rw [State.tallyIn, List.length_map, List.length_range]; exact h
  rw [getBytes_ofBytes_wordBytes (by rw [State.tallyIn, List.length_map, List.length_range]) hk]
  simp only [State.tallyIn, List.getElem_map, List.getElem_range]

/-- A bit set in a field is added to it. -/
theorem getBits_putBits_bit {m : Nat} (x : BitVec m) {lo n i : Nat} (h : i < n) (hm : lo + n ≤ m) :
    getBits (putBits x (lo + i) 1 1) lo n = getBits x lo n ||| 2 ^ i := by
  apply Nat.eq_of_testBit_eq
  intro j
  rw [Nat.testBit_or, getBits_testBit, getBits_testBit, putBits_getLsbD, Nat.testBit_two_pow]
  by_cases hj : j = i
  · subst hj
    simp [h, show lo + j < m by omega]
  · rw [if_neg (by omega)]
    simp [Ne.symm hj]

/-- Of the record, the words from 6 on stand as staged. -/
theorem State.getBytes_appended_staged {k : Nat} (low : 6 ≤ k) (high : k < 16) :
    getBytes s.appended (4 * k) 4 = (s.word (A.MGT_TALLY_IN k)).toNat := by
  unfold State.appended
  simp only [getBytes, putBytes]
  repeat rw [getBits_putBits_disjoint (by omega)]
  exact s.getBytes_tallyIn high

theorem State.getBytes_appended : getBytes s.appended 0 8 = s.now % 2 ^ 64 ∧ getBytes s.appended 8 8 = s.mgt.seq % 2 ^ 64 ∧
    getBytes s.appended 16 1 = 0x10 ∧ getBytes s.appended 17 1 = 0x0A ∧
    getBytes s.appended 18 2 = (s.word (A.MGT_TALLY_IN 4)).toNat / 2 ^ 16 ∧
    getBytes s.appended 20 4 = (s.word (A.MGT_TALLY_IN 5)).toNat ||| 2 ^ 31 := by
  unfold State.appended
  simp only [getBytes, putBytes]
  refine ⟨?_, ?_, ?_, ?_, ?_, ?_⟩
  · iterate 4 rw [getBits_putBits_disjoint (by omega)]
    exact getBits_putBits_self (by decide) _ _
  · iterate 3 rw [getBits_putBits_disjoint (by omega)]
    exact getBits_putBits_self (by decide) _ _
  · iterate 2 rw [getBits_putBits_disjoint (by omega)]
    exact getBits_putBits_self (by decide) _ _
  · rw [getBits_putBits_disjoint (by omega)]
    exact getBits_putBits_self (by decide) _ _
  · iterate 5 rw [getBits_putBits_disjoint (by omega)]
    have word := s.getBytes_tallyIn (k := 4) (by decide)
    have half := getBits_div_mod (x := ofBytes 512 (wordBytes s.tallyIn)) (n := 32) (a := 16) (b := 16) (by decide) 128
    rw [← half, ← word]
    exact Nat.mod_eq_of_lt (Nat.div_lt_of_lt_mul (getBits_lt _ _ _))
  · rw [show 8 * 23 + 7 = 8 * 20 + 31 from rfl, getBits_putBits_bit _ (by decide) (by decide)]
    iterate 4 rw [getBits_putBits_disjoint (by omega)]
    rw [← s.getBytes_tallyIn (k := 5) (by decide)]
    rfl

/-! ### A record enters the Tally (R711) -/

theorem State.withMgt_frame (m : Mgt) : Frame [.mgt] s { s with mgt := m } := s.onMgt_frame fun _ => m

theorem State.tallyPut_frame (r : BitVec 512) : Frame [.mgt, .regs] s (s.tallyPut r) := by
  unfold State.tallyPut
  dsimp only
  split
  · exact (s.withMgt_frame _).append (State.bump_frame _ _ _)
  · have counts : ∀ u : State, Frame [.regs] u (((u.bump A.MGT_TALLY_RECORDS).bump A.MGT_TALLY_LOST).flag F.MGT_STATUS_TALLY_LOST) :=
        fun u =>
      ((u.bump_frame _ _).trans (State.bump_frame _ _ _)).trans (State.flag_frame _ _)
    exact (s.withMgt_frame _).append (counts _)

/-- The Tally after a record. -/
def Mgt.recorded (m : Mgt) (r : BitVec 512) : Mgt :=
  if m.unread < 4096 then { m with tally := Tab.set ((m.read + m.unread) % 4096) r m.tally, seq := m.seq + 1, unread := m.unread + 1 }
  else { m with tally := Tab.set ((m.read + m.unread) % 4096) r m.tally, seq := m.seq + 1, read := (m.read + 1) % 4096 }

theorem State.mgt_tallyPut (r : BitVec 512) : (s.tallyPut r).mgt = s.mgt.recorded r := by
  unfold State.tallyPut Mgt.recorded
  dsimp only
  split
  · exact (State.bump_frame _ _ _).mgt_eq
  · rw [(State.flag_frame _ _).mgt_eq, (State.bump_frame _ _ _).mgt_eq, (State.bump_frame _ _ _).mgt_eq]

theorem Mgt.recorded_tally (m : Mgt) (r : BitVec 512) : m.recorded r = { m with
    tally := Tab.set ((m.read + m.unread) % 4096) r m.tally, seq := m.seq + 1
    read := (m.recorded r).read, unread := (m.recorded r).unread } := by
  unfold Mgt.recorded
  split <;> rfl

section
variable {s : State} (r : BitVec 512)

theorem State.tallyPut_room (h : s.mgt.unread < 4096) : s.tallyPut r = ({ s with mgt := { s.mgt with
    tally := Tab.set ((s.mgt.read + s.mgt.unread) % 4096) r s.mgt.tally, seq := s.mgt.seq + 1, unread := s.mgt.unread + 1 } }
      ).bump A.MGT_TALLY_RECORDS := if_pos h

theorem State.tallyPut_full (h : 4096 ≤ s.mgt.unread) : s.tallyPut r = ((({ s with mgt := { s.mgt with
    tally := Tab.set ((s.mgt.read + s.mgt.unread) % 4096) r s.mgt.tally, seq := s.mgt.seq + 1, read := (s.mgt.read + 1) % 4096 } }
      ).bump A.MGT_TALLY_RECORDS).bump A.MGT_TALLY_LOST).flag F.MGT_STATUS_TALLY_LOST := if_neg (Nat.not_lt.2 h)

theorem State.records_tallyPut : (s.tallyPut r).pair A.MGT_TALLY_RECORDS = (s.pair A.MGT_TALLY_RECORDS + 1) % 2 ^ 64 := by
  by_cases h : s.mgt.unread < 4096
  · rw [State.tallyPut_room r h]
    exact State.pair_bump_self _ _ 1
  · rw [State.tallyPut_full r (Nat.not_lt.1 h), State.pair_flag_ne (by decide) (by decide), State.pair_bump_ne (by decide)]
    exact State.pair_bump_self _ _ 1

theorem State.lost_tallyPut_room (h : s.mgt.unread < 4096) :
    (s.tallyPut r).is F.MGT_STATUS_TALLY_LOST = s.is F.MGT_STATUS_TALLY_LOST := by
  rw [State.tallyPut_room r h]
  exact State.is_bump_ne _ 1 (by decide) (by decide)

theorem State.lost_tallyPut_full (h : 4096 ≤ s.mgt.unread) : (s.tallyPut r).is F.MGT_STATUS_TALLY_LOST = true ∧
    (s.tallyPut r).pair A.MGT_TALLY_LOST = (s.pair A.MGT_TALLY_LOST + 1) % 2 ^ 64 := by
  rw [State.tallyPut_full r h]
  refine ⟨State.is_flag _ (by decide) (by decide), ?_⟩
  rw [State.pair_flag_ne (by decide) (by decide), State.pair_bump_self, State.pair_bump_ne (by decide)]
  rfl

/-- Without event frames a record is for the Tally alone. -/
theorem State.tallyFrame_off (c : Nat) (h : s.is F.MGT_CTRL_EVT_EN = false) : s.tallyFrame c r = s := if_neg (by simp [h])

end

/-! ### Event frames (R714, Table 19-8) -/

theorem State.length_eventBytes (l : List (BitVec 512)) : (s.eventBytes l).length = 16 + 64 * l.length := by
  have records : (l.flatMap (toBytes 64)).length = 64 * l.length := by
    simp [List.length_flatMap, toBytes, leBytes_length, Nat.mul_comm]
  have magic : (ascii "KTLY").length = 4 := by decide
  simp only [State.eventBytes, List.length_append, beBytes_length, records, magic]

/-- The header of an event frame. -/
theorem State.eventBytes_header (l : List (BitVec 512)) : (s.eventBytes l).take 4 = ascii "KTLY" ∧ beAt (s.eventBytes l) 4 1 = 1 ∧
    beAt (s.eventBytes l) 5 1 = l.length % 256 ∧ beAt (s.eventBytes l) 8 4 = s.mgt.frameSeq % 2 ^ 32 ∧
    (s.eventBytes l).drop 16 = l.flatMap (toBytes 64) := by
  have magic : (ascii "KTLY").length = 4 := by decide
  unfold State.eventBytes
  simp only [List.append_assoc]
  refine ⟨List.take_left' magic, ?_, ?_, ?_, ?_⟩
  · rw [show 4 = 4 + 0 from rfl, beAt_append magic, beAt_beBytes]
    rfl
  · rw [show 5 = 4 + (1 + 0) from rfl, beAt_append magic, beAt_append (beBytes_length 1 1), beAt_beBytes, Nat.pow_one]
  · rw [show 8 = 4 + (1 + (1 + (1 + (1 + 0)))) from rfl, beAt_append magic, beAt_append (beBytes_length ..),
        beAt_append (beBytes_length ..),
      beAt_append (beBytes_length ..), beAt_append (beBytes_length ..), beAt_beBytes]
    rfl
  · simp only [← List.append_assoc]
    exact List.drop_left' (by simp only [List.length_append, beBytes_length, magic])

theorem State.mgtLink_eq : s.mgtLink = (s.sp 32).link := by
  unfold State.mgtLink State.sp Tab.getD
  cases Tab.find? 32 s.mac.sps <;> rfl

/-- A frame of the express class on a sub-port whose link is up enters its queue. -/
theorem State.sendRaw_express {s : State} {n : Nat} (h : (s.sp n).link = true) (prio : Nat) (b : List Byte) :
    ∃ f : EgFrame, f.cls = .express ∧ s.sendRaw n .express prio b =
      ({ s with mac := { s.mac with nextName := s.mac.nextName + 1 } }).modQueue n fun p => { p with queue := p.queue ++ [f] } := by
  refine ⟨⟨s.mac.nextName, .raw b, .express, prio, false, s.now, b.length + 4, none, false, false, 0, 0⟩, rfl, ?_⟩
  simp [State.sendRaw, State.enqueue, State.queueFor, h]

/-- A state that has drawn free values. -/
def State.drew (s : State) (n : Nat) : State := { s with free := s.free + n }

/-- A datagram of the management port enters its queue. -/
theorem State.mgtUdp_queued {s : State} (h : (s.sp 32).link = true) (v6 : Bool) (dst : List Byte) (dport : Nat) (body : List Byte) :
    ∃ f : EgFrame, f.cls = .express ∧ s.mgtUdp v6 dst dport body =
      ({ s.drew 2 with mac := { s.mac with nextName := s.mac.nextName + 1 } }).modQueue 32 fun p => { p with queue := p.queue ++ [f] } := by
  have link : ((s.drew 2).sp 32).link = true := h
  exact State.sendRaw_express link _ _

end Sys2Proof.Machine
end

section
/-!
The ends of self-tests (19_management.md R715 to R718, R722), and the statement about the Tally and the self-tests.
-/

namespace Sys2Proof.Machine

-- Proofs in sequence: the stack of every thread that waits counts against the memory limit of the check.
set_option Elab.async false

variable {s : State}

/-! ### The patrols of an extended test -/

theorem State.setPatrols_frame (f : Patrol → Patrol) (l : List Nat) (s : State) :
    Frame [.rbd] s (s.each l fun s g => s.setPatrol g (f (s.patrol g))) := Frame.each (fun s _ => s.onRbd_frame _) l s

theorem State.patrol_each {f : Patrol → Patrol} {l : List Nat} (hl : l.Nodup) (s : State) (g : Nat) :
    (s.each l fun s g => s.setPatrol g (f (s.patrol g))).patrol g = if g ∈ l then f (s.patrol g) else s.patrol g :=
  State.each_own (get := State.patrol) (g := f) (fun s i => s.patrol_setPatrol_self i _) (fun _ _ _ h => State.patrol_setPatrol_ne h _ _)
    hl s g

theorem State.rbd_setPatrols (f : Patrol → Patrol) (l : List Nat) (s : State) :
    (s.each l fun s g => s.setPatrol g (f (s.patrol g))).rbd =
      { s.rbd with patrols := (s.each l fun s g => s.setPatrol g (f (s.patrol g))).rbd.patrols } := by
  obtain ⟨p, h⟩ := State.setPatrols_eq (f := f) l s
  rw [h]

/-- A patrol whose part in an extended test is over. -/
def Patrol.rest (p : Patrol) : Patrol := { p with ext := none }

/-- The groups that an extended test still patrols. -/
def State.walking (s : State) : List Nat := (List.range 8).filter fun g => (s.patrol g).ext.isSome

theorem State.walking_nodup (s : State) : s.walking.Nodup := List.nodup_range.filter _

/-- A self-test has ended. -/
def State.testEnded (s : State) (x : SelfTest) (outcome : Nat) : State :=
  ((s.testLogged x outcome).each s.walking fun s g => s.setPatrol g (s.patrol g).rest).flag F.MGT_STATUS_ST_DONE

theorem State.testEnd_some {x : SelfTest} (h : s.mgt.test = some x) (outcome : Nat) : s.testEnd outcome = s.testEnded x outcome := by
  unfold State.testEnd
  rw [h]
  rfl

theorem State.testEnd_none (h : s.mgt.test = none) (outcome : Nat) : s.testEnd outcome = s := by
  unfold State.testEnd
  rw [h]

section
variable (s) (x : SelfTest) (outcome : Nat)

theorem State.testEnded_frame : Frame [.rbd, .mgt, .regs] s (s.testEnded x outcome) :=
  (((s.onMgt_frame _).append (State.setPatrols_frame Patrol.rest _ _)).append (State.flag_frame _ _)).mono (by decide)

theorem State.mgt_testEnded : (s.testEnded x outcome).mgt =
    { s.mgt with test := none, log := (s.testEntry x outcome :: s.mgt.log).take 8 } := by
  rw [State.testEnded, (State.flag_frame _ _).mgt_eq, (State.setPatrols_frame Patrol.rest _ _).mgt_eq]
  rfl

theorem State.is_testEnded : (s.testEnded x outcome).is F.MGT_STATUS_ST_DONE = true := State.is_flag _ (by decide) (by decide)

/-- No patrol of the test is left. -/
theorem State.patrol_testEnded {g : Nat} (h : g < 8) : (s.testEnded x outcome).patrol g = { s.patrol g with ext := none } := by
  have flagged : ∀ u : State, (u.flag F.MGT_STATUS_ST_DONE).patrol g = u.patrol g := fun _ => rfl
  have logged : (s.testLogged x outcome).patrol g = s.patrol g := rfl
  rw [State.testEnded, flagged, State.patrol_each (f := Patrol.rest) s.walking_nodup, logged]
  split
  · rfl
  · next out =>
    have none : (s.patrol g).ext = none := by simpa [State.walking, h] using out
    rw [← none]

/-- With no patrol left, an end leaves the patrols. -/
theorem State.testEnded_idle (h : ∀ g < 8, (s.patrol g).ext = none) :
    s.testEnded x outcome = (s.testLogged x outcome).flag F.MGT_STATUS_ST_DONE := by
  have none : s.walking = [] := List.filter_eq_nil_iff.2 fun g hg => by simp [h g (List.mem_range.1 hg)]
  rw [State.testEnded, none]
  rfl

end

/-- The result of a self-test without a failing item. -/
theorem testResult_clean {x : SelfTest} (h : x.found = []) (outcome : Nat) :
    testResult x outcome = BitVec.ofNat 32 (1 + 2 * x.kind + 16 * outcome) := by
  rw [testResult, h]
  simp

theorem testResult_found {x : SelfTest} {a i : Nat} {l : List (Nat × Nat)} (h : x.found = (a, i) :: l) (outcome : Nat) :
    testResult x outcome = BitVec.ofNat 32 (1 + 2 * x.kind + 16 * outcome + 256 * a + 65536 * min (l.length + 1) 65535) := by
  rw [testResult, h]
  rfl

theorem State.inst_testEntry {x : SelfTest} {a i : Nat} {l : List (Nat × Nat)} (h : x.found = (a, i) :: l) (outcome : Nat) :
    (s.testEntry x outcome).inst = i := by
  rw [State.testEntry, h]

/-! ### The end of the short test (R716) -/

/-- The failing items of the short test: what the state shows, and what is given. -/
def State.failing (s : State) (items : List (Nat × Nat)) : List (Nat × Nat) :=
  (List.range 13).flatMap fun a => (s.areaFails a).map (fun i => (a, i)) ++ items.filter fun y => y.1 == a

/-- The short test reads a block of every drive in service. -/
def State.sampled (s : State) : State :=
  s.each ((List.range 24).filter fun b => match s.memberAt b with
    | some (g, m) => s.member g m == Mem.active
    | none => false) fun s b => s.bump (A.DRV_READS b)

theorem State.sampled_frame (s : State) : Frame [.regs] s s.sampled := Frame.each (fun s _ => s.bump_frame _ _) _ s

/-- The short test has run, with its failing items. -/
def SelfTest.ran (x : SelfTest) (found : List (Nat × Nat)) : SelfTest := { x with found := found, done := 12 }

/-- The state as the short test ends. -/
def State.shortRan (s : State) (x : SelfTest) (items : List (Nat × Nat)) : State :=
  s.sampled.onMgt fun m => { m with test := some (x.ran (s.failing items)) }

theorem State.shortRan_frame (s : State) (x : SelfTest) (items : List (Nat × Nat)) : Frame [.regs, .mgt] s (s.shortRan x items) :=
  s.sampled_frame.append (State.onMgt_frame _ _)

theorem State.mgt_shortRan (s : State) (x : SelfTest) (items : List (Nat × Nat)) :
    (s.shortRan x items).mgt = { s.mgt with test := some (x.ran (s.failing items)) } := by
  rw [State.shortRan, State.onMgt_mgt, s.sampled_frame.mgt_eq]

theorem State.testFinish_none (h : s.mgt.test = none) (items : List (Nat × Nat)) : s.testFinish items = s := by
  unfold State.testFinish
  rw [h]

theorem State.testFinish_short {x : SelfTest} (h : s.mgt.test = some x) (short : x.kind ≠ 2) (items : List (Nat × Nat)) :
    s.testFinish items = (s.shortRan x items).testEnded (x.ran (s.failing items)) (if s.failing items = [] then 1 else 2) := by
  have ran : (s.shortRan x items).mgt.test = some (x.ran (s.failing items)) := congrArg Mgt.test (s.mgt_shortRan x items)
  rw [← State.testEnd_some ran]
  unfold State.testFinish
  rw [h]
  exact if_neg short

theorem State.testFinish_walking {x : SelfTest} (h : s.mgt.test = some x) (long : x.kind = 2) (items : List (Nat × Nat)) {g : Nat}
    (hg : g < 8) (walks : (s.patrol g).ext.isSome = true) : s.testFinish items = s := by
  unfold State.testFinish
  rw [h]
  exact (if_pos long).trans (if_pos (List.any_eq_true.2 ⟨g, List.mem_range.2 hg, walks⟩))

theorem State.testFinish_walked {x : SelfTest} (h : s.mgt.test = some x) (long : x.kind = 2) (items : List (Nat × Nat))
    (idle : ∀ g < 8, (s.patrol g).ext = none) :
    s.testFinish items = (s.testLogged x (if x.found = [] then 1 else 2)).flag F.MGT_STATUS_ST_DONE := by
  rw [← State.testEnded_idle _ _ _ idle, ← State.testEnd_some h]
  unfold State.testFinish
  rw [h]
  refine (if_pos long).trans (if_neg fun walks => ?_)
  obtain ⟨g, hg, walks⟩ := List.any_eq_true.1 walks
  simp [idle g (List.mem_range.1 hg)] at walks

/-! ### The read of a record (R712) -/

/-- MGT_TALLY_REC, as its table has it. -/
def tallyRecDesc : RegDesc := ⟨0xF00040, 16, 4, false, [⟨0, 32, .ro, 0⟩]⟩

theorem regDesc_tallyRec : regDesc (regAddr (A.MGT_TALLY_REC 0)) = some tallyRecDesc := by decide +kernel

/-- The selected record of the Tally. -/
def State.selected (s : State) : BitVec 512 := Tab.getD (s.fld F.MGT_TALLY_SEL_SLOT) 0 s.mgt.tally

/-- A read of the first word of a record takes it into the snapshot and answers from there. -/
theorem State.readAnswer_record {p : Path} (bus : s.busOn = true) (lets : s.modeLets p (A.MGT_TALLY_REC 0) = true) :
    s.readAnswer p (A.MGT_TALLY_REC 0) = { s with
      mgt := { s.mgt with snap := s.selected }, answer := beBytes 4 (getBytes s.selected 0 4) } := by
  have read : s.busRead p (A.MGT_TALLY_REC 0) = s.wordRead tallyRecDesc (A.MGT_TALLY_REC 0) :=
      State.busRead_word bus lets regDesc_tallyRec rfl
  have word : s.wordRead tallyRecDesc (A.MGT_TALLY_REC 0) = (BitVec.ofNat 32 (getBytes s.selected 0 4), s.tallySnap) := rfl
  have small : getBytes s.selected 0 4 < 2 ^ 32 := getBits_lt _ _ _
  rw [State.readAnswer, if_pos bus, read, word, State.answers, BitVec.toNat_ofNat, Nat.mod_eq_of_lt small]
  rfl

/-! ### Event frames (R714) -/

/-- The next records to send are taken. -/
def State.eventsTaken (s : State) : State := s.onMgt fun m => { m with waiting := m.waiting.drop 16 }

theorem State.eventFrame_early (h : s.eventsDue = false) : s.eventFrame = s := if_pos (by simp [h])

theorem State.eventFrame_dropped (due : s.eventsDue = true) (on : s.eventsOn = true) (down : s.mgtLink = false) :
    s.eventFrame = (s.eventsTaken.bump A.MGT_EVT_DROPS (s.mgt.waiting.take 16).length).flag F.MGT_STATUS_EVT_DROP := by
  unfold State.eventFrame
  rw [if_neg (by simp [due])]
  dsimp only
  rw [if_neg (by simp [on]), if_pos (by simp [down])]
  rfl

/-- The state as an event frame's datagram is made. -/
def State.eventSent (s : State) : State :=
  s.eventsTaken.mgtUdp (s.is F.MGT_EVT_PORT_IPV6) (s.collector (s.is F.MGT_EVT_PORT_IPV6)) (s.fld F.MGT_EVT_PORT_PORT)
    (s.eventBytes (s.mgt.waiting.take 16))

theorem State.eventFrame_sent (due : s.eventsDue = true) (on : s.eventsOn = true) (link : s.mgtLink = true) :
    s.eventFrame = (s.eventSent.onMgt fun m => { m with frameSeq := (m.frameSeq + 1) % 2 ^ 32 }).bump A.MGT_EVT_FRAMES := by
  unfold State.eventFrame
  rw [if_neg (by simp [due])]
  dsimp only
  rw [if_neg (by simp [on]), if_neg (by simp [link])]
  rfl

theorem State.eventSent_told (link : s.mgtLink = true) : Frame [.mgt, .mac, .free] s s.eventSent ∧ s.eventSent.mgt = s.eventsTaken.mgt ∧
    (∃ f : EgFrame, f.cls = .express ∧ (s.eventSent.sp 32).queue = (s.sp 32).queue ++ [f]) ∧ ∀ k, k ≠ 32 → s.eventSent.sp k = s.sp k := by
  have up : (s.eventsTaken.sp 32).link = true := s.mgtLink_eq.symm.trans link
  obtain ⟨f, cls, sent⟩ := State.mgtUdp_queued up (s.is F.MGT_EVT_PORT_IPV6) (s.collector (s.is F.MGT_EVT_PORT_IPV6))
    (s.fld F.MGT_EVT_PORT_PORT) (s.eventBytes (s.mgt.waiting.take 16))
  have named : Frame [.mgt, .free, .mac] s
      { s.eventsTaken.drew 2 with mac := { s.mac with nextName := s.mac.nextName + 1 } } := by
    intro b hb
    cases b
    case mgt | free | mac => exact absurd (by decide) hb
    all_goals rfl
  have told : s.eventSent = ({ s.eventsTaken.drew 2 with mac := { s.mac with nextName := s.mac.nextName + 1 } }).modQueue 32 fun p =>
    { p with queue := p.queue ++ [f] } := sent
  rw [told]
  refine ⟨(named.append (State.modQueue_frame _ _ _)).mono (by decide), (State.modQueue_frame _ _ _).mgt_eq, ⟨f, cls, ?_⟩, fun k hk => ?_⟩
  · rw [State.sp_modQueue_self]
    rfl
  · rw [State.sp_modQueue_ne _ hk]
    rfl

end Sys2Proof.Machine
end

section
/-!
The statement about the Tally and the self-tests (19_management.md R711 to R718).
-/

namespace Sys2Proof.Machine

-- Proofs in sequence: the stack of every thread that waits counts against the memory limit of the check.
set_option Elab.async false

/-- Settles O50: a record appended is the staged one with the K24's own bytes, an event frame is queued or its records are
counted as dropped, and a self-test leaves its entry in the log as it ends. -/
theorem tallyAndSelfTests : Obligations.TallyAndSelfTests := by
  unfold Obligations.TallyAndSelfTests
  have row : ∀ {items : List (Nat × Nat)} {s t : State}, s.managed = true → s.testFinish items = t → t.pending = s.pending →
      exec (.selfTestEnd items) s = .next t := fun {items} _ _ on => State.gate_next (f := fun s => s.testFinish items) on
  refine ⟨⟨fun p n s bus lets => State.bus_next bus lets rfl rfl, fun p s bus lets => ?read, fun p s bus lets off => ?append,
    fun s on => ⟨fun early => ?early, fun due sends down => ?dropped, fun due sends link => ?sent⟩, fun l s few => ?bytes,
    fun s on idle => ?idle, fun s awake pending irq => ?wakes⟩,
    ⟨fun p s bus lets => ⟨fun busy => ?busy, fun none => ⟨?short, ?extended⟩, fun none => ?noAbort, fun x runs => ?abort⟩,
      fun items s on => ⟨fun none => ?noEnd, fun x l runs short hl => ?shortEnd, fun x runs long => ⟨fun ⟨g, hg, walks⟩ => ?walking,
        fun idle clean => ?longEnd⟩⟩⟩⟩
  case read => exact ⟨_, s.selected, State.row_next (State.readAnswer_record bus lets) rfl, rfl, rfl⟩
  case append =>
    have puts : s.tallyAppend = s.tallyPut s.appended := by
      rw [State.tallyAppend_eq]
      exact State.tallyFrame_off _ _ (by rw [State.is, State.fld_tallyPut {}]; exact off)
    have frame := s.tallyPut_frame s.appended
    have mgt := s.mgt_tallyPut s.appended
    obtain ⟨time, seq, block, cls, code, high⟩ := s.getBytes_appended
    refine ⟨_, s.appended, State.bus_next bus lets puts frame.pending_eq, frame.eq_take, ?_, time, seq, block, cls, code, high,
      fun k low high => s.getBytes_appended_staged low high, State.records_tallyPut _,
          fun room => ⟨?_, ?_, State.lost_tallyPut_room _ room⟩,
      fun full => ?_⟩
    · rw [mgt]
      exact s.mgt.recorded_tally _
    · rw [mgt, Mgt.recorded, if_pos room]
    · rw [mgt, Mgt.recorded, if_pos room]
    · obtain ⟨lost, counted⟩ := State.lost_tallyPut_full s.appended full
      refine ⟨?_, ?_, lost, counted⟩ <;> rw [mgt, Mgt.recorded, if_neg (Nat.not_lt.2 full)]
  case early => exact State.gate_next on (State.eventFrame_early early) rfl
  case dropped =>
    have drops := State.eventFrame_dropped due sends down
    have frame : Frame [.mgt, .regs] s _ := (s.onMgt_frame _).append
      ((s.eventsTaken.bump_frame A.MGT_EVT_DROPS (s.mgt.waiting.take 16).length).trans (State.flag_frame _ F.MGT_STATUS_EVT_DROP))
    refine ⟨_, State.gate_next on drops frame.pending_eq, frame.eq_take, State.is_flag _ (by decide) (by decide), ?_⟩
    rw [State.pair_flag_ne (by decide) (by decide)]
    exact State.pair_bump_self ..
  case sent =>
    have sends := State.eventFrame_sent due sends link
    obtain ⟨sent, mgt, ⟨f, cls, queue⟩, others⟩ := State.eventSent_told link
    have counted := (State.onMgt_frame s.eventSent fun m => { m with frameSeq := (m.frameSeq + 1) % 2 ^ 32 }).append
      (State.bump_frame _ A.MGT_EVT_FRAMES 1)
    have frame : Frame [.mgt, .mac, .free, .regs] s _ := (sent.append counted).mono (by decide)
    refine ⟨_, f, State.gate_next on sends frame.pending_eq, ?_, frame.eq_take, ?_, cls, fun k hk => ?_, ?_⟩
    · rw [(State.bump_frame _ _ _).mgt_eq, State.onMgt_mgt, mgt]
      rfl
    · rw [State.sp_congr counted.mac_eq, queue]
    · rw [State.sp_congr counted.mac_eq, others k hk]
    · rw [State.pair_bump_self, State.pair_congr ((State.onMgt_frame _ _).regs_eq), State.pair_congr sent.regs_eq]
  case bytes =>
    obtain ⟨magic, version, count, seq, records⟩ := s.eventBytes_header l
    exact ⟨_, rfl, s.length_eventBytes l, magic, version, count.trans (Nat.mod_eq_of_lt few), seq, records⟩
  case idle =>
    have none : s.tallyAge = s := if_neg fun ⟨a, b, c⟩ => by simp [a, b, c] at idle
    exact State.gate_next on none rfl
  case wakes =>
    have wakes : s.tallyAge = s.each s.activeCores fun s n => s.setCore n { s.core n with wfi := false } := if_pos ⟨pending, irq, awake⟩
    have frame := State.setCores_frame (fun s n => { s.core n with wfi := false }) s.activeCores s
    have cores := State.core_each (f := fun c => { c with wfi := false }) s.activeCores_nodup s
    refine ⟨_, State.gate_next (State.managed_of_awake awake) wakes frame.pending_eq, ?_, fun n hn => (cores n).trans ?_⟩
    · rw [← State.wdn_setCores]
      exact frame.eq_take
    · simp only [State.activeCores, List.mem_filter, List.mem_range, hn, true_and, decide_eq_true_eq]
  case busy =>
    have told : ∀ kind, s.stStart kind p = s.flag F.MGT_STATUS_ST_BUSY := fun _ => if_pos busy
    have frame := s.flag_frame F.MGT_STATUS_ST_BUSY
    exact ⟨_, State.bus_next bus lets (told 1) frame.pending_eq, State.bus_next bus lets (told 2) frame.pending_eq, frame.eq_take,
      State.is_flag _ (by decide) (by decide)⟩
  case short =>
    have starts : s.stStart 1 p = s.testStart 1 (pathCode p) 0 := if_neg (by simp [none])
    exact State.bus_next bus lets (starts.trans (State.testStart_short none)) rfl
  case extended =>
    have starts : s.stStart 2 p = s.testStart 2 (pathCode p) 0 := if_neg (by simp [none])
    let u := s.onMgt fun m => { m with test := some (s.newTest 2 (pathCode p) 0) }
    have walks := State.setPatrols_frame Patrol.walk s.testGroups u
    have frame : Frame [.mgt, .rbd] s _ := (s.onMgt_frame _).append walks
    have patrols := State.patrol_each (f := Patrol.walk) s.testGroups_nodup u
    refine ⟨_, State.bus_next bus lets (starts.trans (State.testStart_extended none)) frame.pending_eq, ?_, walks.mgt_eq, fun g hg => ?_,
      fun g hg => ?_⟩
    · have rbd := State.rbd_setPatrols Patrol.walk s.testGroups u
      have same : u.rbd = s.rbd := rfl
      rw [same] at rbd
      rw [← rbd]
      exact frame.eq_take
    · exact (patrols g).trans (if_pos hg)
    · exact (patrols g).trans (if_neg hg)
  case noAbort => exact State.bus_next bus lets (State.testEnd_none none 3) rfl
  case abort =>
    have frame := s.testEnded_frame x 3
    refine ⟨_, s.testEntry x 3, State.bus_next bus lets (State.testEnd_some runs 3) frame.pending_eq, frame.eq_take, s.mgt_testEnded x 3,
      s.is_testEnded x 3, rfl, fun clean => testResult_clean clean 3, fun a i l found => ⟨State.inst_testEntry found 3,
          testResult_found found 3⟩,
      fun g hg => s.patrol_testEnded x 3 hg⟩
  case noEnd => exact row on (State.testFinish_none none items) rfl
  case shortEnd =>
    have found : l = s.failing items := hl
    subst found
    let u := s.shortRan x items
    let y := x.ran (s.failing items)
    have kind : y.kind = 1 := short
    let o := if s.failing items = [] then 1 else 2
    have ran := s.shortRan_frame x items
    have ended := u.testEnded_frame y o
    refine ⟨_, u.testEntry y o, row on (State.testFinish_short runs (by omega) items) (ended.pending_eq.trans ran.pending_eq),
      ?_, u.is_testEnded y o, ?_, fun clean => ?_, fun a i m failed => ⟨State.inst_testEntry failed o, ?_⟩⟩
    · rw [u.mgt_testEnded y o, s.mgt_shortRan x items]
    · rw [State.testEntry, ran.now_eq]
      rfl
    · have passed : o = 1 := if_pos clean
      rw [passed, State.testEntry, testResult_clean (x := y) clean 1, kind]
    · have fails : o = 2 := if_neg (by rw [failed]; exact List.cons_ne_nil _ _)
      rw [fails, State.testEntry, testResult_found (x := y) failed 2, kind]
  case walking => exact row on (State.testFinish_walking runs long items hg walks) rfl
  case longEnd =>
    have ends := State.testFinish_walked runs long items idle
    rw [if_pos clean] at ends
    have frame := (s.onMgt_frame fun m => { m with test := none, log := (s.testEntry x 1 :: m.log).take 8 }).append
      (State.flag_frame _ F.MGT_STATUS_ST_DONE)
    refine ⟨_, s.testEntry x 1, row on ends frame.pending_eq, frame.eq_take, State.is_flag _ (by decide) (by decide), ?_⟩
    rw [State.testEntry, testResult_clean clean 1, clean, long]

end Sys2Proof.Machine
end

section
/-!
Ledger access over the management port and over SMBus (19_management.md R694 to R702), and the statement about it.
-/

namespace Sys2Proof.Machine

-- Proofs in sequence: the stack of every thread that waits counts against the memory limit of the check.
set_option Elab.async false

/-! ### Requests as bytes (R697) -/

/-- Words in wire order. -/
def beWords (l : List Word) : List Byte := l.flatMap fun w => beBytes 4 w.toNat

theorem beWords_length (l : List Word) : (beWords l).length = 4 * l.length := by
  induction l with
  | nil => rfl
  | cons w l ih => rw [beWords, List.flatMap_cons, List.length_append, ← beWords, ih, beBytes_length, List.length_cons]; omega

theorem beAt_beWords {l : List Word} {i : Nat} (h : i < l.length) : beAt (beWords l) (4 * i) 4 = (l[i]).toNat := by
  induction l generalizing i with
  | nil => simp at h
  | cons w l ih =>
    rw [beWords, List.flatMap_cons, ← beWords]
    cases i with
    | zero =>
      rw [beAt_beBytes]
      exact Nat.mod_eq_of_lt w.isLt
    | succ i =>
      rw [Nat.mul_succ, Nat.add_comm, beAt_append (beBytes_length 4 _)]
      exact ih (Nat.lt_of_succ_lt_succ h)

/-- The words of a request read as they were sent. -/
theorem LedgerReq.words_eq {r : LedgerReq} {l : List Word} (data : r.data = beWords l) (count : r.count = l.length) : r.words = l := by
  rw [LedgerReq.words, data, count]
  refine List.ext_getElem (by simp) fun i hi hi' => ?_
  rw [List.getElem_map, List.getElem_range, beAt_beWords hi', BitVec.ofNat_toNat, BitVec.setWidth_eq]

section
variable {op id count addr : Nat} (words : List Word)

theorem ledgerBytes_length : (ledgerBytes op id count addr words).length = 16 + 4 * words.length := by
  rw [ledgerBytes, ← beWords]
  simp only [List.length_append, beBytes_length, beWords_length]

/-- A request reads as it was made. -/
theorem ledgerReq_ledgerBytes (hop : op < 256) (hid : id < 2 ^ 32) (hcount : count < 2 ^ 16) (haddr : addr < 2 ^ 32) :
    ledgerReq (ledgerBytes op id count addr words) = ⟨1, op, id, count, addr, beWords words⟩ := by
  have len : ∀ {n v : Nat}, (beBytes n v).length = n := beBytes_length ..
  unfold ledgerReq ledgerBytes
  rw [← beWords]
  simp only [List.append_assoc]
  rw [LedgerReq.mk.injEq]
  refine ⟨beAt_beBytes 1 1 _, ?_, ?_, ?_, ?_, ?_⟩
  · exact (beAt_append (k := 1) len _ 0 1).trans ((beAt_beBytes 1 op _).trans (Nat.mod_eq_of_lt hop))
  · exact (beAt_append (k := 1) len _ 3 4).trans ((beAt_append (k := 1) len _ 2 4).trans ((beAt_append (k := 2) len _ 0 4).trans
      ((beAt_beBytes 4 id _).trans (Nat.mod_eq_of_lt hid))))
  · exact (beAt_append (k := 1) len _ 7 2).trans ((beAt_append (k := 1) len _ 6 2).trans ((beAt_append (k := 2) len _ 4 2).trans
      ((beAt_append (k := 4) len _ 0 2).trans ((beAt_beBytes 2 count _).trans (Nat.mod_eq_of_lt hcount)))))
  · exact (beAt_append (k := 1) len _ 11 4).trans ((beAt_append (k := 1) len _ 10 4).trans ((beAt_append (k := 2) len _ 8 4).trans
      ((beAt_append (k := 4) len _ 4 4).trans ((beAt_append (k := 2) len _ 2 4).trans ((beAt_append (k := 2) len _ 0 4).trans
      ((beAt_beBytes 4 addr _).trans (Nat.mod_eq_of_lt haddr)))))))
  · simp only [← List.append_assoc]
    exact List.drop_left' (by simp only [List.length_append, beBytes_length])

/-- The name of a request stands where it is, whatever its count. -/
theorem id_ledgerBytes (hid : id < 2 ^ 32) : (ledgerReq (ledgerBytes op id count addr words)).id = id := by
  have len : ∀ {n v : Nat}, (beBytes n v).length = n := beBytes_length ..
  rw [ledgerReq, ledgerBytes]
  simp only [List.append_assoc]
  exact (beAt_append (k := 1) len _ 3 4).trans ((beAt_append (k := 1) len _ 2 4).trans ((beAt_append (k := 2) len _ 0 4).trans
    ((beAt_beBytes 4 id _).trans (Nat.mod_eq_of_lt hid))))

end

/-! ### The checks of a request (Table 19-3) -/

section
variable {op id count addr : Nat} {words : List Word} {limit : Nat}

theorem status_read (pos : 1 ≤ count) (most : count ≤ limit) (fits : regAddr addr + 4 * count ≤ 0x1000000) :
    (⟨1, 1, id, count, addr, []⟩ : LedgerReq).status limit = 0 := by
  have low : addr < 0x1000000 := by unfold regAddr at fits; omega
  unfold LedgerReq.status
  dsimp only
  rw [if_neg (by simp; omega), if_neg (by simp; omega)]

theorem status_malformed (bad : count = 0 ∨ limit < count) : (⟨1, 1, id, count, addr, []⟩ : LedgerReq).status limit = 1 := by
  unfold LedgerReq.status
  dsimp only
  rw [if_pos (by simp; omega)]

theorem status_beyond (pos : 1 ≤ count) (most : count ≤ limit) (past : 0x1000000 < regAddr addr + 4 * count) :
    (⟨1, 1, id, count, addr, []⟩ : LedgerReq).status limit = 2 := by
  unfold LedgerReq.status
  dsimp only
  rw [if_neg (by simp; omega), if_pos (by simp; omega)]

theorem status_write (kind : op = 2 ∧ regAddr addr + 4 * words.length ≤ 0x1000000 ∨ op = 3) (pos : 1 ≤ words.length)
    (most : words.length ≤ limit) (low : addr < 0x1000000) :
    (⟨1, op, id, words.length, addr, beWords words⟩ : LedgerReq).status limit = 0 := by
  unfold LedgerReq.status
  dsimp only
  rw [beWords_length, if_neg, if_neg]
  · omega
  · rw [if_neg (by omega)]
    omega

end

/-! ### The execution of a request (R698, R699) -/

section
variable {s u : State} {p : Path} {limit : Nat} {l : List Byte} {r : LedgerReq} (hr : ledgerReq l = r)
include hr

theorem State.ledger_refused (h : r.status limit ≠ 0) : s.ledger p limit l = (r.reply false (r.status limit) [], false, s.ledgerErr) := by
  unfold State.ledger
  rw [hr]
  exact if_pos h

theorem State.ledger_read (h : r.status limit = 0) (op : r.op = 1) {d : List Byte}
    (run : (s.bump A.MGT_LEDGER_REQS).readRun p (regAddr r.addr) r.count = (d, u)) :
    s.ledger p limit l = (r.reply (s.ledgerLow p r) 0 d, true, u) := by
  unfold State.ledger
  rw [hr]
  dsimp only
  rw [if_neg (not_not.2 h), op, run]
  rfl

theorem State.ledger_write (h : r.status limit = 0) {step : Nat} (op : r.op = 2 ∧ step = 4 ∨ r.op = 3 ∧ step = 0) :
    s.ledger p limit l = (r.reply (s.ledgerLow p r) 0 [], true, (s.bump A.MGT_LEDGER_REQS).writeRun p step (regAddr r.addr) r.words) := by
  unfold State.ledger
  rw [hr]
  dsimp only
  rw [if_neg (not_not.2 h)]
  rcases op with ⟨op, rfl⟩ | ⟨op, rfl⟩
  · rw [op]
    rfl
  · rw [op]
    rfl

end

/-- Whether a block of a run of accesses is off. -/
def State.runLow (s : State) (p : Path) (step addr n : Nat) : Bool := (List.range n).any fun i => !s.modeLets p (regAddr addr + step * i)

theorem State.ledgerLow_eq {r : LedgerReq} {step : Nat} (h : step = if r.op = 3 then 0 else 4) (s : State) (p : Path) :
    s.ledgerLow p r = s.runLow p step r.addr r.count := by
  subst h
  unfold State.ledgerLow State.runLow
  split
  · simp
  · rfl

/-! ### Requests of the management port (R700) -/

/-- The reply to a request is kept. -/
def State.replyKept (s : State) (src : List Byte) (port id : Nat) (l : List Byte) : State :=
  s.onMgt fun m => { m with replies := s.keptReplies.drop (s.keptReplies.length - 63) ++ [⟨src, port, id, l, s.now⟩] }

/-- The reply kept for a request, if any. -/
def State.replyOf (s : State) (src : List Byte) (port id : Nat) : Option KeptReply :=
  s.keptReplies.find? fun k => decide (k.src = src) && k.port == port && k.id == id

section
variable {s u : State} {src l reply : List Byte} {port id : Nat} (on : s.ledgerOn = true) (long : 16 ≤ l.length)
  (hid : (ledgerReq l).id = id)
include on long hid

theorem State.mgtRequest_done (new : s.replyOf src port id = none) (run : s.ledger .mgmt 256 l = (reply, true, u)) :
    s.mgtRequest src port l = (u.replyKept src port id reply).sendReply src port reply := by
  unfold State.mgtRequest
  unfold State.replyOf at new
  rw [if_neg (by simp [on]), if_neg (Nat.not_lt.2 long)]
  dsimp only
  rw [hid, new]
  dsimp only
  rw [run]
  rfl

theorem State.mgtRequest_failed (new : s.replyOf src port id = none) (run : s.ledger .mgmt 256 l = (reply, false, u)) :
    s.mgtRequest src port l = u.sendReply src port reply := by
  unfold State.mgtRequest
  unfold State.replyOf at new
  rw [if_neg (by simp [on]), if_neg (Nat.not_lt.2 long)]
  dsimp only
  rw [hid, new]
  dsimp only
  rw [run]
  rfl

theorem State.mgtRequest_kept {k : KeptReply} (kept : s.replyOf src port id = some k) :
    s.mgtRequest src port l = (s.bump A.MGT_LEDGER_REPLAYS).sendReply src port k.bytes := by
  unfold State.mgtRequest
  unfold State.replyOf at kept
  rw [if_neg (by simp [on]), if_neg (Nat.not_lt.2 long)]
  dsimp only
  rw [hid, kept]

end

/-! ### SMBus (R701, R702) -/

section
variable {s u : State} {n : Nat} {l reply : List Byte} {done : Bool} (bus : s.busOn = true) (hn : n < 2) (active : s.smbActive n = true)
  (few : l.length ≤ 255)
include bus hn active few

theorem State.smbWrite_bad : s.smbWrite n l false = s.bump A.MGT_SMB_PEC_ERR := by
  unfold State.smbWrite
  rw [if_neg (by simp [bus, hn, active, few])]
  rfl

/-- The reply to the last request of an SMBus port. -/
def State.smbReplied (s : State) (n : Nat) (l : List Byte) : State := s.onMgt fun m => { m with smb := Tab.put [] n l m.smb }

theorem State.smbWrite_short (short : l.length < 16) : s.smbWrite n l true = s.ledgerErr.smbReplied n [] := by
  unfold State.smbWrite
  rw [if_neg (by simp [bus, hn, active, few])]
  exact if_pos short

theorem State.smbWrite_request (long : 16 ≤ l.length) (run : s.ledger (smbPath n) 59 l = (reply, done, u)) :
    s.smbWrite n l true = u.smbReplied n reply := by
  unfold State.smbWrite
  rw [if_neg (by simp [bus, hn, active, few]), if_neg (by decide), if_neg (Nat.not_lt.2 long), run]
  rfl

end

theorem State.ledgerErr_frame (s : State) : Frame [.regs] s s.ledgerErr := (s.bump_frame _ _).trans (State.flag_frame _ _)

theorem State.smbReplied_frame (s : State) (n : Nat) (l : List Byte) : Frame [.mgt] s (s.smbReplied n l) := s.onMgt_frame _

theorem State.mgt_smbReplied {s u : State} (h : u.mgt = s.mgt) {n : Nat} {l : List Byte} :
    (u.smbReplied n l).mgt = { s.mgt with smb := (u.smbReplied n l).mgt.smb } := by
  rw [State.smbReplied, State.onMgt_mgt, h]

theorem State.smbReply_smbReplied_self (s : State) (n : Nat) (l : List Byte) : (s.smbReplied n l).smbReply n = l := Tab.getD_put_self ..

theorem State.smbReply_smbReplied_ne (s : State) {n k : Nat} (h : k ≠ n) (l : List Byte) : (s.smbReplied n l).smbReply k = s.smbReply k :=
  Tab.getD_put_ne (Ne.symm h) ..

/-- What a Block Read returns. -/
theorem exec_smbusBlockRead {s : State} (bus : s.busOn = true) (n : Nat) :
    exec (.smbusBlockRead n) s = .next { s with answer := s.smbRead n } :=
  State.gate_next (f := fun s => { s with answer := s.smbRead n }) bus rfl rfl

theorem State.smbRead_active {s : State} {n : Nat} (h : n < 2) (h' : s.smbActive n = true) : s.smbRead n = s.smbReply n := if_pos ⟨h, h'⟩

theorem exec_smbusBlockRead_reply {s : State} {n : Nat} {r : List Byte} (bus : s.busOn = true) (h : n < 2) (h' : s.smbActive n = true)
    (hr : s.smbReply n = r) : exec (.smbusBlockRead n) s = .next { s with answer := r } := by
  rw [exec_smbusBlockRead bus, State.smbRead_active h h', hr]

theorem State.smbRead_quiet {s : State} {n : Nat} (h : 2 ≤ n ∨ s.smbActive n = false) : s.smbRead n = [] := by
  refine if_neg fun ⟨hn, active⟩ => ?_
  rcases h with h | h
  · omega
  · simp [active] at h

end Sys2Proof.Machine
end

section
/-!
The statement about ledger access over the management port and over SMBus (19_management.md R694 to R702).
-/

namespace Sys2Proof.Machine

-- Proofs in sequence: the stack of every thread that waits counts against the memory limit of the check.
set_option Elab.async false

/-- The header of the reply to a request that was executed (Table 19-2). -/
def answerBytes (op : Nat) (low : Bool) (id count addr : Nat) : List Byte :=
  beBytes 1 1 ++ beBytes 1 op ++ beBytes 1 (ofBool low) ++ beBytes 1 0 ++ beBytes 4 id ++ beBytes 2 count ++ beBytes 2 0 ++ beBytes 4 addr

theorem reply_answer {r : LedgerReq} {op : Nat} (h : r.op ||| 0x80 = op) (low : Bool) (d : List Byte) :
    r.reply low 0 d = answerBytes op low r.id r.count r.addr ++ d := by rw [LedgerReq.reply, h, answerBytes]

/-- The reply to a read that was refused: no data and no flag. -/
def refusalBytes (status id count addr : Nat) : List Byte :=
  beBytes 1 1 ++ beBytes 1 0x81 ++ beBytes 2 0 ++ beBytes 4 id ++ beBytes 2 count ++ beBytes 2 status ++ beBytes 4 addr

theorem reply_refused {r : LedgerReq} (h : r.op = 1) (status : Nat) : r.reply false status [] =
    refusalBytes status r.id r.count r.addr := by
  have none : beBytes 1 (ofBool false) ++ beBytes 1 0 = beBytes 2 0 := by decide
  rw [LedgerReq.reply, refusalBytes, h, List.append_nil, ← none]
  simp only [List.append_assoc]
  rfl

/-- The read of the management port: executed, answered and kept; or refused and answered. -/
theorem ledgerRead_answers (src : List Byte) (port id count addr : Nat) (s : State) (managed : s.managed = true) (on : s.ledgerOn = true)
    (new : s.replyOf src port id = none) (hid : id < 2 ^ 32) (haddr : addr < 2 ^ 32) :
    (1 ≤ count → count ≤ 256 → regAddr addr + 4 * count ≤ 0x1000000 → ∃ (u : State) (d : List Byte),
      (s.bump A.MGT_LEDGER_REQS).readRun .mgmt (regAddr addr) count = (d, u) ∧ exec (.ledgerRead src port id count addr) s =
        .next { (u.replyKept src port id (answerBytes 0x81 (s.runLow .mgmt 4 addr count) id count addr ++ d)).sendReply src port
          (answerBytes 0x81 (s.runLow .mgmt 4 addr count) id count addr ++ d) with pending := s.pending }) ∧
    (count < 2 ^ 16 → ∀ status, (⟨1, 1, id, count, addr, []⟩ : LedgerReq).status 256 = status → status ≠ 0 →
      exec (.ledgerRead src port id count addr) s = .next { s.ledgerErr.sendReply src port
        (refusalBytes status id count addr) with pending := s.pending }) := by
  have long : 16 ≤ (ledgerBytes 1 id count addr []).length := by rw [ledgerBytes_length]; omega
  have name := id_ledgerBytes (op := 1) (count := count) (addr := addr) [] hid
  have row := State.managed_row managed fun s => s.mgtRequest src port (ledgerBytes 1 id count addr [])
  refine ⟨fun pos most fits => ?_, fun small status bad wrong => ?_⟩
  · have parsed : ledgerReq (ledgerBytes 1 id count addr []) = ⟨1, 1, id, count, addr, []⟩ :=
      ledgerReq_ledgerBytes (op := 1) [] (by decide) hid (by omega) haddr
    rcases reads : (s.bump A.MGT_LEDGER_REQS).readRun .mgmt (regAddr addr) count with ⟨d, u⟩
    have low := State.ledgerLow_eq (r := ⟨1, 1, id, count, addr, []⟩) (step := 4) rfl s .mgmt
    have run := State.ledger_read (s := s) parsed (status_read pos most fits) rfl reads
    have done := State.mgtRequest_done on long name new run
    rw [done] at row
    rw [reply_answer (by decide : 1 ||| 0x80 = 0x81), low] at row
    exact ⟨u, d, rfl, row⟩
  · have parsed := ledgerReq_ledgerBytes (op := 1) [] (by decide) hid small haddr
    have run := State.ledger_refused (s := s) (p := .mgmt) (limit := 256) (r := ⟨1, 1, id, count, addr, []⟩) parsed
        (by rw [bad]; exact wrong)
    rw [State.mgtRequest_failed on long name new run, bad, reply_refused rfl] at row
    exact row

/-- A write of a path is executed word by word. -/
theorem State.ledger_words {op step id addr limit : Nat} {words : List Word} (p : Path) (s : State) (hid : id < 2 ^ 32)
    (low : addr < 0x1000000) (pos : 1 ≤ words.length) (most : words.length ≤ limit) (few : limit ≤ 256)
    (kind : op = 2 ∧ step = 4 ∧ regAddr addr + 4 * words.length ≤ 0x1000000 ∨ op = 3 ∧ step = 0) :
    s.ledger p limit (ledgerBytes op id words.length addr words) =
      (answerBytes (op ||| 0x80) (s.runLow p step addr words.length) id words.length addr, true,
        (s.bump A.MGT_LEDGER_REQS).writeRun p step (regAddr addr) words) := by
  have hop : op < 256 := by omega
  have step_ : step = if op = 3 then 0 else 4 := by
    rcases kind with ⟨rfl, rfl, -⟩ | ⟨rfl, rfl⟩ <;> rfl
  have parsed := ledgerReq_ledgerBytes words hop hid (by omega : words.length < 2 ^ 16) (by omega : addr < 2 ^ 32)
  have ok := status_write (op := op) (id := id) (words := words) (addr := addr) (limit := limit) (by omega) pos most low
  rw [State.ledger_write parsed ok (step := step) (by rcases kind with ⟨h, h', -⟩ | h; exacts [.inl ⟨h, h'⟩, .inr h]),
    State.ledgerLow_eq (r := ⟨1, op, id, words.length, addr, beWords words⟩) step_,
    LedgerReq.words_eq (r := ⟨1, op, id, words.length, addr, beWords words⟩) rfl rfl, reply_answer rfl, List.append_nil]

section
variable {s : State} {id addr : Nat} {words : List Word} (src : List Byte) (port : Nat) (managed : s.managed = true)
    (on : s.ledgerOn = true)
  (new : s.replyOf src port id = none) (hid : id < 2 ^ 32) (pos : 1 ≤ words.length) (most : words.length ≤ 256) (low : addr < 0x1000000)
include managed on new hid pos most low

theorem ledgerWrite_answers (fits : regAddr addr + 4 * words.length ≤ 0x1000000) : exec (.ledgerWrite src port id addr words) s =
    .next { (((s.bump A.MGT_LEDGER_REQS).writeRun .mgmt 4 (regAddr addr) words).replyKept src port id
      (answerBytes 0x82 (s.runLow .mgmt 4 addr words.length) id words.length addr)).sendReply src port
        (answerBytes 0x82 (s.runLow .mgmt 4 addr words.length) id words.length addr) with pending := s.pending } := by
  have long : 16 ≤ (ledgerBytes 2 id words.length addr words).length := by rw [ledgerBytes_length]; omega
  have run := s.ledger_words .mgmt hid low pos most (by decide) (.inl ⟨rfl, rfl, fits⟩)
  have row := State.managed_row managed fun s => s.mgtRequest src port (ledgerBytes 2 id words.length addr words)
  rw [State.mgtRequest_done on long (id_ledgerBytes words hid) new run] at row
  exact row

theorem writeFixed_answers : exec (.writeFixed src port id addr words) s =
    .next { (((s.bump A.MGT_LEDGER_REQS).writeRun .mgmt 0 (regAddr addr) words).replyKept src port id
      (answerBytes 0x83 (s.runLow .mgmt 0 addr words.length) id words.length addr)).sendReply src port
        (answerBytes 0x83 (s.runLow .mgmt 0 addr words.length) id words.length addr) with pending := s.pending } := by
  have long : 16 ≤ (ledgerBytes 3 id words.length addr words).length := by rw [ledgerBytes_length]; omega
  have run := s.ledger_words .mgmt hid low pos most (by decide) (.inr ⟨rfl, rfl⟩)
  have row := State.managed_row managed fun s => s.mgtRequest src port (ledgerBytes 3 id words.length addr words)
  rw [State.mgtRequest_done on long (id_ledgerBytes words hid) new run] at row
  exact row

end

/-- Settles O49: what a request does follows from the checks of Table 19-3 and from the replies kept; over SMBus the last reply waits to be
read. -/
theorem ledgerAndSmbus : Obligations.LedgerAndSmbus := by
  unfold Obligations.LedgerAndSmbus
  refine ⟨⟨fun src port id count addr s managed on new hid haddr => ?reads, ?writes, ?replays, fun src l port s bus link => ?sends⟩,
    ⟨fun n l s bus hn active few => ⟨?bad, fun short => ?short, fun id addr words hl hid pos most low fits => ?request⟩,
      fun n s bus => ⟨fun hn active => ?answers, fun quiet => ?quiet⟩⟩⟩
  case reads =>
    obtain ⟨done, failed⟩ := ledgerRead_answers src port id count addr s managed on new hid haddr
    refine ⟨fun pos most fits => ?_, fun small bad => ⟨_, failed small 1 (status_malformed bad) (by decide), rfl⟩, fun pos most past =>
      ⟨_, failed (by omega) 2 (status_beyond pos most past) (by decide), rfl⟩⟩
    obtain ⟨u, d, run, answered⟩ := done pos most fits
    exact ⟨_, u, d, _, answered, run, rfl, rfl⟩
  case writes =>
    intro c src port id addr op step words s managed on new hid pos most low kind
    rcases kind with ⟨h, fits⟩ | h
    · obtain ⟨rfl, rfl, rfl⟩ := by simpa using h
      exact ⟨_, _, _, ledgerWrite_answers src port managed on new hid pos most low fits, rfl, rfl, rfl⟩
    · obtain ⟨rfl, rfl, rfl⟩ := by simpa using h
      exact ⟨_, _, _, writeFixed_answers src port managed on new hid pos most low, rfl, rfl, rfl⟩
  case replays =>
    intro c src port id count addr words k s managed on hid kept hc
    have answers : ∀ op n l, s.mgtRequest src port (ledgerBytes op id n addr l) =
        (s.bump A.MGT_LEDGER_REPLAYS).sendReply src port k.bytes :=
      fun op n l => State.mgtRequest_kept on (by rw [ledgerBytes_length]; omega) (id_ledgerBytes l hid) kept
    simp only [List.mem_cons, List.not_mem_nil, or_false] at hc
    rcases hc with rfl | rfl | rfl
    · exact (State.managed_row managed fun s => s.mgtRequest src port (ledgerBytes 1 id count addr [])).trans (by rw [answers])
    · exact (State.managed_row managed fun s => s.mgtRequest src port (ledgerBytes 2 id words.length addr words)).trans (by rw [answers])
    · exact (State.managed_row managed fun s => s.mgtRequest src port (ledgerBytes 3 id words.length addr words)).trans (by rw [answers])
  case sends =>
    obtain ⟨f, cls, sent⟩ := State.mgtUdp_queued link (decide (src.length = 16)) src port l
    refine ⟨f, ?_, cls, ?_⟩ <;> rw [State.sendReply, if_pos bus, sent]
    · rw [State.sp_modQueue_self]
      rfl
    · exact (State.modQueue_frame _ _ _).regs_eq
  case bad =>
    exact State.gate_next (f := fun s => s.smbWrite n l false) bus (State.smbWrite_bad bus hn active few)
      (s.bump_frame _ _).pending_eq
  case short =>
    have write := State.smbWrite_short bus hn active few short
    have frame := s.ledgerErr_frame
    have kept : Frame [.regs, .mgt] s (s.ledgerErr.smbReplied n []) := frame.append (State.smbReplied_frame _ _ _)
    have regs := (s.ledgerErr.smbReplied_frame n []).regs_eq
    have errs : (s.ledgerErr.smbReplied n []).pair A.MGT_LEDGER_ERRS = (s.pair A.MGT_LEDGER_ERRS + 1) % 2 ^ 64 := by
      rw [State.pair_congr regs, State.ledgerErr, State.pair_flag_ne (by decide) (by decide), State.pair_bump_self]
    have err : (s.ledgerErr.smbReplied n []).is F.MGT_STATUS_LEDGER_ERR = true := by
      rw [State.is_congr regs]
      exact State.is_flag _ (by decide) (by decide)
    have none : (s.ledgerErr.smbReplied n []).smbRead n = [] := by
      unfold State.smbRead
      split
      · exact State.smbReply_smbReplied_self _ _ _
      · rfl
    have still : (s.ledgerErr.smbReplied n []).busOn = true := by rw [State.busOn, kept.glb_eq]; exact bus
    refine ⟨_, _, State.gate_next (f := fun s => s.smbWrite n l true) bus write kept.pending_eq, ?_, err, errs, exec_smbusBlockRead still n,
      by rw [none]⟩
    rw [← State.mgt_smbReplied frame.mgt_eq]
    exact kept.eq_take
  case request =>
    subst hl
    have run := s.ledger_words (smbPath n) hid low pos most (by decide : 59 ≤ 256) (.inl ⟨rfl, rfl, fits⟩)
    have long : 16 ≤ (ledgerBytes 2 id words.length addr words).length := by rw [ledgerBytes_length]; omega
    have write := State.smbWrite_request bus hn active few long run
    have row := State.on_row bus fun s => s.smbWrite n (ledgerBytes 2 id words.length addr words) true
    rw [write] at row
    refine ⟨_, _, _, row, rfl, rfl,
      fun k hk => State.smbReply_smbReplied_ne _ hk _, fun bus' active' => exec_smbusBlockRead_reply bus' hn active' ?_, rfl⟩
    exact State.smbReply_smbReplied_self ..
  case answers => exact exec_smbusBlockRead_reply bus hn active rfl
  case quiet => rw [exec_smbusBlockRead bus, State.smbRead_quiet quiet]

end Sys2Proof.Machine
end

section
/-!
SUPPORT. Laws of the peer agent (17_peer_and_takeover.md R637 to R643): bits of status registers that only ever set, changes of the peer's
state, sideband frames, and frames of the peer link.
-/

namespace Sys2Proof.Machine

-- Proofs in sequence: the stack of every thread that waits counts against the memory limit of the check.
set_option Elab.async false

/-! ### Status bits stay set -/

/-- Two fields of one bit are the same or lie apart. -/
theorem Fld.same_or_apart {f g : Fld} (hf : f.width = 1) (hg : g.width = 1) : f = g ∨ f.apart g := by
  obtain ⟨a, i, n⟩ := f
  obtain ⟨b, j, m⟩ := g
  obtain rfl : n = 1 := hf
  obtain rfl : m = 1 := hg
  by_cases ha : a = b
  · by_cases hi : i = j
    · exact .inl (by rw [ha, hi])
    · exact .inr (.inr (show j + 1 ≤ i ∨ i + 1 ≤ j by omega))
  · exact .inr (.inl ha)

/-- Setting a bit leaves every bit that is set. -/
theorem State.is_flag_kept {s : State} {f g : Fld} (h : s.is g = true) (hf : f.width = 1 := by decide) (hlo : f.lo < 32 := by decide)
    (hg : g.width = 1 := by decide) : (s.flag f).is g = true := by
  rcases Fld.same_or_apart hf hg with rfl | apart
  · exact State.is_flag s (by rw [hf]; omega) (by rw [hf]; decide)
  · rw [State.is_flag_apart s apart]
    exact h

theorem State.is_tallyRaw {f : Fld} (h : f.OffTally) (s : State) (b c k i : Nat) (l : List Nat) (hc : c ≠ 5 := by decide) :
    (s.tallyRaw b c k i l).is f = s.is f := by rw [State.is, State.is, State.fld_tallyRaw h s b c k i l hc]

variable (s : State)

/-! ### Changes of the peer's state (R642, Table 17-4) -/

theorem State.tallyPeer_frame (f : Option Fld) (m : Nat) : Frame [.regs, .wdn, .mgt] s (s.tallyPeer f m) := by
  cases f with
  | none => exact s.tallyEvent_frame _ _ _ _ _
  | some b => exact s.tallyFlag_frame _ _ _ _

theorem State.fld_tallyPeer {f : Fld} (h : f.OffTally) (g : Option Fld) (m : Nat) : (s.tallyPeer g m).fld f = s.fld f := by
  cases g with
  | none => exact State.fld_tallyRaw h s _ _ _ _ _ (by decide)
  | some b => exact State.fld_tallyRaw h s _ _ _ _ _ (by decide)

theorem State.is_tallyPeer {f : Fld} (h : f.OffTally) (g : Option Fld) (m : Nat) : (s.tallyPeer g m).is f = s.is f := by
  rw [State.is, State.is, s.fld_tallyPeer h]

/-- The peer as it enters a state. -/
def Peer.entered (p : Peer) (st : PeerState) (now : Nat) : Peer :=
  { p with state := st, mirrorEnd := if st == .mirrored || st == .sidebandLost then none else p.mirrorEnd.orElse fun _ => some now }

/-- The status bit of a change of state, with its record. -/
def State.stateTold (s : State) (f : Option Fld) : State :=
  match f with
  | some b => (s.flag b).tallyPeer (some b) s.peer.own
  | none => s.tallyPeer none s.peer.own

theorem State.stateTold_frame (f : Option Fld) : Frame [.regs, .wdn, .mgt] s (s.stateTold f) := by
  cases f with
  | none => exact s.tallyPeer_frame _ _
  | some b => exact ((s.flag_frame b).append (State.tallyPeer_frame _ _ _)).mono (by decide)

section
variable {s : State} {st : PeerState}

theorem State.peerEnter_same (h : s.peer.state = st) : s.peerEnter st = s := if_pos h

theorem State.peerEnter_new (h : s.peer.state ≠ st) :
    s.peerEnter st = (s.onPeer fun p => p.entered st s.now).stateTold (peerFlag s.peer.state st) := by
  rw [State.peerEnter, if_neg h]
  cases peerFlag s.peer.state st <;> rfl

theorem State.peerEnter_frame (s : State) (st : PeerState) : Frame [.peer, .regs, .wdn, .mgt] s (s.peerEnter st) := by
  by_cases h : s.peer.state = st
  · rw [State.peerEnter_same h]
    exact Frame.refl _ s
  · rw [State.peerEnter_new h]
    exact (s.onPeer_frame _).append (State.stateTold_frame _ _)

theorem State.peer_peerEnter (h : s.peer.state ≠ st) : (s.peerEnter st).peer = s.peer.entered st s.now := by
  rw [State.peerEnter_new h, (State.stateTold_frame _ _).peer_eq]
  rfl

theorem State.state_peerEnter (s : State) (st : PeerState) : (s.peerEnter st).peer.state = st := by
  by_cases h : s.peer.state = st
  · rw [State.peerEnter_same h, h]
  · rw [State.peer_peerEnter h, Peer.entered]

/-- The bits of PEER_STATUS that changes of state set. -/
theorem peerFlag_bit {old new : PeerState} {b : Fld} (h : peerFlag old new = some b) :
    b.addr = A.PEER_STATUS ∧ b.lo < 6 ∧ b.width = 1 := by
  have bits : b ∈ [F.PEER_STATUS_JOINED, F.PEER_STATUS_LINK_LOST, F.PEER_STATUS_SIDEBAND_LOST, F.PEER_STATUS_FENCED,
      F.PEER_STATUS_ARB_WON] := by
    cases new <;> simp [peerFlag] at h <;> simp [h]
  simp only [List.mem_cons, List.not_mem_nil, or_false] at bits
  rcases bits with rfl | rfl | rfl | rfl | rfl <;> exact ⟨rfl, by decide, rfl⟩

/-- A field outside PEER_STATUS that the Tally leaves is left by a change of state. -/
theorem State.fld_peerEnter {f : Fld} (h : f.OffTally) (apart : A.PEER_STATUS ≠ f.addr) (s : State) (st : PeerState) :
    (s.peerEnter st).fld f = s.fld f := by
  by_cases hs : s.peer.state = st
  · rw [State.peerEnter_same hs]
  · rw [State.peerEnter_new hs]
    cases hb : peerFlag s.peer.state st with
    | none => exact State.fld_tallyPeer _ h _ _
    | some b =>
      obtain ⟨addr, -, -⟩ := peerFlag_bit hb
      rw [State.stateTold, State.fld_tallyPeer _ h, State.fld_flag_apart _ (.inl (by rw [addr]; exact apart))]
      rfl

theorem State.is_peerEnter {f : Fld} (h : f.OffTally) (apart : A.PEER_STATUS ≠ f.addr) (s : State) (st : PeerState) :
    (s.peerEnter st).is f = s.is f := by rw [State.is, State.is, State.fld_peerEnter h apart]

/-- A bit that is set stays set. -/
theorem State.is_peerEnter_kept {g : Fld} (off : g.OffTally) (hg : g.width = 1) (h : s.is g = true) : (s.peerEnter st).is g = true := by
  by_cases hs : s.peer.state = st
  · rwa [State.peerEnter_same hs]
  · rw [State.peerEnter_new hs]
    cases hb : peerFlag s.peer.state st with
    | none => exact (State.is_tallyPeer _ off _ _).trans h
    | some b =>
      obtain ⟨-, lo, width⟩ := peerFlag_bit hb
      rw [State.stateTold, State.is_tallyPeer _ off]
      exact State.is_flag_kept h width (by omega) hg

/-- The bit of a change of state is set. -/
theorem State.is_peerEnter_self {b : Fld} (h : s.peer.state ≠ st) (hb : peerFlag s.peer.state st = some b) (off : b.OffTally) :
    (s.peerEnter st).is b = true := by
  obtain ⟨-, lo, width⟩ := peerFlag_bit hb
  rw [State.peerEnter_new h, hb, State.stateTold, State.is_tallyPeer _ off]
  exact State.is_flag _ (by rw [width]; omega) (by rw [width]; decide)

/-- A change of state with no handover to abandon. -/
theorem State.peerGo_quiet (h : s.peer.state ≠ .mirrored ∨ s.peer.giving = none) (hs : st ≠ .solo) : s.peerGo st = s.peerEnter st := by
  have stays : s.when (decide (s.peer.state = .mirrored) && decide (st ≠ .mirrored)) State.handoverAbort = s := by
    unfold State.when
    split
    · next leaves =>
      have none : s.peer.giving = none := h.resolve_left fun out => by simp [out] at leaves
      unfold State.handoverAbort
      rw [none]
    · rfl
  unfold State.peerGo
  dsimp only
  rw [if_neg hs]
  exact congrArg (State.peerEnter · st) stays

end

/-! ### The sideband (R639, R641) -/

/-- A valid sideband frame restores the sideband. -/
def State.heard (s : State) : State := s.onPeer fun p => { p with sideAt := some s.now, sideLost := false }

section
variable {s : State} {f : State → State}

theorem State.heard_frame (s : State) : Frame [.peer] s s.heard := s.onPeer_frame _

theorem State.sideHeard_up (h : (f s.heard).peer.state ≠ .sidebandLost) : s.sideHeard f = f s.heard := if_neg h

theorem State.sideHeard_back (h : (f s.heard).peer.state = .sidebandLost) : s.sideHeard f = (f s.heard).peerEnter .mirrored := by
  rw [← State.peerGo_quiet (.inl (by rw [h]; decide)) (by decide)]
  exact if_pos h

end

/-- The sideband frame that is sent next. -/
def State.sideBytes (s : State) (kind : Nat) : List Byte :=
  s.beatBytes kind s.peer.sideSeq ++ beBytes 2 (crc16 (s.beatBytes kind s.peer.sideSeq)).toNat

theorem State.sideSend_eq (kind : Nat) : s.sideSend kind =
    { s with peer := { s.peer with lastSide := s.sideBytes kind, sideSeq := (s.peer.sideSeq + 1) % 256 } } := rfl

theorem State.beatBytes_length (kind seq : Nat) : (s.beatBytes kind seq).length = 8 := by
  simp only [State.beatBytes, List.length_append, beBytes_length]

/-- A sideband frame carries its kind and OWN, with a right CHECK. -/
theorem State.sideBytes_told {kind : Nat} (h : kind < 256) : sideOk (s.sideBytes kind) = true ∧ beAt (s.sideBytes kind) 0 1 = kind ∧
    beAt (s.sideBytes kind) 2 1 = s.peer.own % 256 := by
  have len : ∀ {n v : Nat}, (beBytes n v).length = n := beBytes_length ..
  have eight := s.beatBytes_length kind s.peer.sideSeq
  refine ⟨?_, ?_, ?_⟩
  · have length : (s.sideBytes kind).length = 10 := by rw [State.sideBytes, List.length_append, eight, beBytes_length]
    have first : (s.sideBytes kind).take 8 = s.beatBytes kind s.peer.sideSeq := List.take_left' eight
    have check : beAt (s.sideBytes kind) 8 2 = (crc16 (s.beatBytes kind s.peer.sideSeq)).toNat := by
      have last := beAt_beBytes 2 (crc16 (s.beatBytes kind s.peer.sideSeq)).toNat []
      rw [List.append_nil] at last
      exact (beAt_append eight _ 0 2).trans (last.trans (Nat.mod_eq_of_lt (BitVec.isLt _)))
    rw [sideOk, length, first, check, beq_self_eq_true, beq_self_eq_true, Bool.and_self]
  all_goals
    rw [State.sideBytes, State.beatBytes]
    simp only [List.append_assoc]
  · exact (beAt_beBytes 1 kind _).trans (Nat.mod_eq_of_lt h)
  · exact (beAt_append (k := 1) len _ 1 1).trans ((beAt_append (k := 1) len _ 0 1).trans (beAt_beBytes 1 _ _))

/-- What a heartbeat says, with no offer outstanding. -/
theorem State.gotBeat_plain {s : State} (h : s.peer.offer = none) (l : List Byte) : s.gotBeat l = { s with peer := { s.peer with
    flags := beAt l 1 1, peerOwn := beAt l 2 1
    arbSet := if s.peer.state = .arbitrating ∨ s.peer.takeStep = .winning then s.peer.arbSet else s.readyMask &&& beAt l 4 3 } } := by
  unfold State.gotBeat
  dsimp only [State.onPeer]
  rw [h]

/-! ### Frames of the peer link (R637) -/

/-- What a frame's ACK_SEQ does not cover. -/
def PeerFrame.open_ (ack : Nat) (f : PeerFrame) : Bool := decide (2 ^ 31 ≤ (ack + 2 ^ 32 - f.seq) % 2 ^ 32)

/-- A valid frame on a link that is up: what it covers is done with. -/
def State.linkHeard (s : State) (ack : Nat) : State :=
  s.onPeer fun p => { p with linkAt := some s.now, linkLost := false, unacked := p.unacked.filter (PeerFrame.open_ ack) }

theorem State.linkHeard_up {s : State} (h : s.peer.linkLost = false) (ack : Nat) :
    s.linkHeard ack = { s with peer := { s.peer with linkAt := some s.now, unacked := s.peer.unacked.filter (PeerFrame.open_ ack) } } := by
  simp [State.linkHeard, State.onPeer, h]

theorem State.up_of_peerOn {s : State} (h : s.peerOn = true) : s.up = true := (Bool.and_eq_true_iff.1 h).1

section
variable {s : State} {l : List Byte}

theorem State.sideReceive_beat (on : s.peerOn = true) (ok : sideOk l = true) (beat : beAt l 0 1 = 1) : s.sideReceive l = s.sideBeat l := by
  unfold State.sideReceive
  rw [if_neg (by simp [on]), if_neg (by simp [ok]), beat]
  rfl

theorem State.peerReceive_bad (on : s.peerOn = true) (awake : s.asleep = false)
    (bad : l.length < 20 ∨ beAt l (l.length - 4) 4 ≠ (crc32c (l.take (l.length - 4))).toNat) :
    s.peerReceive l = s.bump A.PEER_FRAME_ERR := by
  unfold State.peerReceive
  rw [if_pos ⟨on, by simp [awake]⟩]
  exact if_pos bad

theorem State.peerReceive_ok (on : s.peerOn = true) (awake : s.asleep = false) (long : 20 ≤ l.length)
    (crc : beAt l (l.length - 4) 4 = (crc32c (l.take (l.length - 4))).toNat) (version : beAt l 0 1 = 1)
        (size : beAt l 12 4 + 20 = l.length) :
    s.peerReceive l = s.peerFrameOk l := by
  unfold State.peerReceive
  rw [if_pos ⟨on, by simp [awake]⟩]
  exact (if_neg (by omega)).trans (if_pos ⟨version, size⟩)

/-- A field of a payload is a field of the frame. -/
theorem beAt_slice (l : List Byte) {i k n : Nat} (h : i + k ≤ n) (off : Nat) : beAt (slice l off n) i k = beAt l (off + i) k := by
  rw [beAt, beAt, slice, slice, slice, List.drop_take, List.take_take, List.drop_drop, Nat.min_eq_left (by omega)]

/-- A frame in SEQ order is delivered. -/
def State.peerDelivered (s : State) (l : List Byte) : State :=
  ((s.linkHeard (beAt l 8 4)).onPeer fun p => { p with rxSeq := beAt l 4 4 }).peerMessage (beAt l 1 1) (slice l 16 (beAt l 12 4))

theorem State.peerFrameOk_linked (here : s.peer.state ≠ .linkLost) (up : s.peer.linkLost = false) : s.peerFrameOk l =
    if beAt l 4 4 = (s.peer.rxSeq + 1) % 2 ^ 32 then s.peerDelivered l else s.linkHeard (beAt l 8 4) := by
  have still : (s.linkHeard (beAt l 8 4)).peer.state ≠ .linkLost := here
  unfold State.peerFrameOk
  simp only [up, Bool.false_and, Bool.false_eq_true, false_or]
  exact congrArg (fun u : State => if beAt l 4 4 = (u.peer.rxSeq + 1) % 2 ^ 32 then
    (u.onPeer fun p => { p with rxSeq := beAt l 4 4 }).peerMessage (beAt l 1 1) (slice l 16 (beAt l 12 4)) else u) (if_neg still)

end

end Sys2Proof.Machine
end

section
/-!
The statement about frames of the peer link and of the sideband (17_peer_and_takeover.md R637, R639, R682, R683).
-/

namespace Sys2Proof.Machine

-- Proofs in sequence: the stack of every thread that waits counts against the memory limit of the check.
set_option Elab.async false

variable {s : State}

/-! ### What the rows of the sideband answer -/

/-- A heartbeat is sent on the sideband, and on a link that is up. -/
def State.beaten (s : State) : State :=
  (s.sideSend 1).when (decide (s.peer.groups ≠ 0) && !s.asleep) fun u =>
    u.peerSend Pm.heartbeat (s.beatBytes 1 s.peer.sideSeq ++ beBytes 8 s.now)

theorem State.heartbeat_due (on : s.peerOn = true) (due : Tab.getD Tick.heartbeat 0 s.served < s.now / 1000000 * 1000000) :
    s.heartbeat = (s.serve Tick.heartbeat (s.now / 1000000 * 1000000)).beaten := by
  rw [State.heartbeat, if_pos on, State.every_serve due]
  rfl

theorem State.beaten_down (h : s.peer.groups = 0) : s.beaten = s.sideSend 1 := by
  unfold State.beaten State.when
  rw [if_neg (by simp [h])]

theorem State.beaten_frame (s : State) : Frame [.peer] s s.beaten :=
  (s.onPeer_frame _).trans (Frame.when _ (State.onPeer_frame _ _))

theorem State.beaten_told (s : State) : s.beaten.peer.lastSide = s.sideBytes 1 ∧ s.beaten.peer.sideSeq = (s.peer.sideSeq + 1) % 256 ∧
    (s.peer.groups = 0 → s.beaten.peer.unacked = s.peer.unacked) ∧
    (s.peer.groups ≠ 0 → s.asleep = false → ∃ f : PeerFrame, s.beaten.peer.unacked = s.peer.unacked ++ [f] ∧ f.kind = 1 ∧
      f.seq = s.peer.txSeq) := by
  refine ⟨?_, ?_, fun down => by rw [State.beaten_down down]; rfl, fun up awake => ?_⟩
  · unfold State.beaten State.when
    split <;> rfl
  · unfold State.beaten State.when
    split <;> rfl
  · refine ⟨⟨1, s.peer.txSeq, s.beatBytes 1 s.peer.sideSeq ++ beBytes 8 s.now, s.now⟩, ?_, rfl, rfl⟩
    unfold State.beaten State.when
    rw [if_pos (by simp [up, awake])]
    rfl

/-- A WAKE while awake is answered with a WAKE_ACK. -/
def State.wakeHeard (s : State) : State := (s.sideSend 3).flag F.PEER_STATUS_WAKE_RX

theorem State.wakeHeard_frame (s : State) : Frame [.peer, .regs] s s.wakeHeard := (s.onPeer_frame _).append (State.flag_frame _ _)

theorem State.sideWake_awake (on : s.peerOn = true) (awake : s.asleep = false) (up : s.peer.state ≠ .sidebandLost) :
    s.sideWake = s.heard.wakeHeard := by
  have answer : (if s.heard.asleep = true then (let t := s.heard.wakeCheck 32
      if s.heard.pwr.phase = .steady ∧ t.pwr.phase = .exiting ∧ (s.heard.fld F.PWR_WAKE_EN_EN).testBit 5 then
        t.onPeer fun p => { p with oweAck := true } else t) else s.heard.wakeHeard) = s.heard.wakeHeard :=
    if_neg (by rw [State.asleep_congr s.heard_frame.pwr_eq, awake]; decide)
  rw [State.sideWake, if_pos on, State.sideHeard_up]
  · exact answer
  · exact fun lost => up (by rw [← lost]; exact (congrArg (fun u : State => u.peer.state) answer).symm)

/-- The bit of a WAKE_ACK. -/
def State.ackHeard (s : State) : State := s.flag F.PWR_STATUS_WAKE_ACK

theorem State.sideWakeAck_on (on : s.peerOn = true) : s.sideWakeAck = s.sideHeard State.ackHeard := if_pos on

/-- A sideband that was lost is back: MIRRORED. -/
theorem State.sideHeard_lost {f : State → State} {u : State} (hu : f s.heard = u) (kept : u.peer.state = s.peer.state)
    (up : u.peer.sideLost = false) (at_ : u.peer.sideAt = some s.now) (lost : s.peer.state = .sidebandLost) :
    s.sideHeard f = u.peerEnter .mirrored ∧ (u.peerEnter .mirrored).peer.state = .mirrored ∧ (u.peerEnter .mirrored).peer.sideLost = false ∧
      (u.peerEnter .mirrored).peer.sideAt = some s.now := by
  subst hu
  have state := kept.trans lost
  have peer := State.peer_peerEnter (s := f s.heard) (st := .mirrored) (by rw [state]; decide)
  exact ⟨State.sideHeard_back state, State.state_peerEnter _ _, by rw [peer]; exact up, by rw [peer]; exact at_⟩

/-! ### The statement -/

/-- Settles O44: a frame of the link is taken once, in order; what is not covered goes out again; and a frame of the sideband whose CHECK
holds restores it. -/
theorem peerFrames : Obligations.PeerFrames := by
  unfold Obligations.PeerFrames
  refine ⟨fun l s on awake => ⟨fun bad => ?bad, fun long crc version size up here => ⟨fun old => ?old, fun next => ?next⟩⟩,
    fun s on awake groups => ?again, fun l s on => ⟨fun bad => ?badSide, fun ok beat none here => ?beat, fun ok beat none lost => ?back⟩,
    fun s on => ⟨fun early => ?early, fun due => ?due, fun awake here => ?wake, fun here => ?ack, fun lost => ?ackBack⟩,
    fun m s up => State.gate_next (f := fun s => s.linkGroups m) up rfl rfl⟩
  case bad =>
    have gate : (s.peerOn && !s.asleep) = true := by simp [on, awake]
    have frame := s.bump_frame A.PEER_FRAME_ERR 1
    exact ⟨_, State.gate_next (f := fun s => s.peerReceive l) gate (State.peerReceive_bad on awake bad) frame.pending_eq, frame.eq_take,
      s.pair_bump_self _ 1⟩
  case old =>
    have gate : (s.peerOn && !s.asleep) = true := by simp [on, awake]
    have heard := (State.peerReceive_ok on awake long crc version size).trans ((State.peerFrameOk_linked here up).trans (if_neg old))
    refine ⟨_, State.gate_next (f := fun s => s.peerReceive l) gate heard rfl, ?_⟩
    rw [State.linkHeard_up up]
  case next =>
    have gate : (s.peerOn && !s.asleep) = true := by simp [on, awake]
    have heard := (State.peerReceive_ok on awake long crc version size).trans ((State.peerFrameOk_linked here up).trans (if_pos next))
    have row := State.row_eq (s := s) fun s => s.ifLink fun s => s.peerReceive l
    rw [State.ifLink, s.gate_true gate, heard] at row
    refine ⟨_, (s.linkHeard (beAt l 8 4)).onPeer fun p => { p with rxSeq := beAt l 4 4 }, row, ?_, fun f hf => ?_, rfl, fun clock few => ?_⟩
    · rw [State.linkHeard_up up]
      rfl
    · obtain ⟨mem, open_⟩ := List.mem_filter.1 hf
      exact ⟨mem, of_decide_eq_true open_⟩
    · rw [State.peerDelivered, clock, ← beAt_slice l (by omega : 0 + 1 ≤ beAt l 12 4), ← beAt_slice l (by omega : 1 + 6 ≤ beAt l 12 4)]
      exact Tab.find?_set_self ..
  case again =>
    have gate : (s.peerOn && !s.asleep) = true := by simp [on, awake]
    let late := fun f : PeerFrame => decide (f.sentAt + 50000 ≤ s.now)
    have sends : s.peerRetransmit = (s.onPeer fun p => { p with
        unacked := p.unacked.map fun f => if late f then { f with sentAt := s.now } else f }).bump A.PEER_RETRANSMITS
            (s.peer.unacked.filter late).length :=
      if_pos ⟨on, groups, by simp [awake]⟩
    have frame := (s.onPeer_frame fun p => { p with
      unacked := p.unacked.map fun f => if late f then { f with sentAt := s.now } else f }).append
        (State.bump_frame _ A.PEER_RETRANSMITS (s.peer.unacked.filter late).length)
    refine ⟨_, State.gate_next (f := State.peerRetransmit) gate sends frame.pending_eq, frame.eq_take, ?_, State.pair_bump_self ..⟩
    simp only [State.bump_peer, State.onPeer_peer, late, decide_eq_true_eq]
  case badSide =>
    have takes : s.sideReceive l = s.bump A.PEER_SIDEBAND_ERR := (if_neg (by simp [on])).trans (if_pos (by simp [bad]))
    have frame := s.bump_frame A.PEER_SIDEBAND_ERR 1
    exact ⟨_, State.gate_next (f := fun s => s.sideReceive l) (State.up_of_peerOn on) takes frame.pending_eq, frame.eq_take,
        s.pair_bump_self _ 1⟩
  case beat =>
    have plain := State.gotBeat_plain (s := s.heard) none l
    have takes : s.sideReceive l = s.heard.gotBeat l := by
      rw [State.sideReceive_beat on ok beat, State.sideBeat, State.sideHeard_up]
      rw [plain]
      exact here
    exact State.gate_next (f := fun s => s.sideReceive l) (State.up_of_peerOn on) (takes.trans plain) rfl
  case back =>
    have plain := State.gotBeat_plain (s := s.heard) none l
    have heard : Frame [.peer] s (s.heard.gotBeat l) := by
      rw [plain]
      exact s.heard_frame.trans (State.onPeer_frame s.heard fun p => { p with flags := beAt l 1 1, peerOwn := beAt l 2 1, arbSet := _ })
    obtain ⟨back, state, up, at_⟩ := State.sideHeard_lost (s := s) (f := fun u => u.gotBeat l) plain rfl rfl rfl lost
    refine ⟨_, State.gate_next (f := fun s => s.sideReceive l) (State.up_of_peerOn on) ((State.sideReceive_beat on ok beat).trans back) ?_,
      state, up, at_⟩
    rw [(State.peerEnter_frame _ _).pending_eq, ← plain, heard.pending_eq]
  case early => exact State.gate_next (State.up_of_peerOn on) ((if_pos on).trans (State.every_served early _)) rfl
  case due =>
    let w := s.serve Tick.heartbeat (s.now / 1000000 * 1000000)
    obtain ⟨side, seq, down, up⟩ := w.beaten_told
    obtain ⟨ok, kind, own⟩ := w.sideBytes_told (kind := 1) (by decide)
    have frame := (s.serve_frame Tick.heartbeat (s.now / 1000000 * 1000000)).append w.beaten_frame
    refine ⟨_, State.gate_next (State.up_of_peerOn on) (State.heartbeat_due on due) frame.pending_eq, frame.eq_take, ?_, ?_, ?_, seq, down,
        up⟩ <;>
      rw [side]
    · exact ok
    · exact kind
    · exact own
  case wake =>
    have wakes := State.sideWake_awake on awake here
    have frame := (s.heard_frame.append s.heard.wakeHeard_frame).mono (l := [.peer, .peer, .regs]) (k := [.peer, .regs]) (by decide)
    obtain ⟨ok, kind, -⟩ := s.heard.sideBytes_told (kind := 3) (by decide)
    exact ⟨_, State.gate_next (State.up_of_peerOn on) wakes frame.pending_eq, frame.eq_take, ok, kind,
      State.is_flag _ (by decide) (by decide), rfl, rfl, rfl⟩
  case ack =>
    have acks : s.sideWakeAck = s.heard.ackHeard := (State.sideWakeAck_on on).trans (State.sideHeard_up here)
    have frame := s.heard_frame.append (s.heard.flag_frame F.PWR_STATUS_WAKE_ACK)
    exact ⟨_, State.gate_next (State.up_of_peerOn on) acks frame.pending_eq, State.is_flag _ (by decide) (by decide), frame.eq_take⟩
  case ackBack =>
    obtain ⟨back, state, up, at_⟩ := State.sideHeard_lost (s := s) (f := State.ackHeard) rfl rfl rfl rfl lost
    have frame := (s.heard_frame.append (s.heard.flag_frame F.PWR_STATUS_WAKE_ACK)).append
        (State.peerEnter_frame s.heard.ackHeard .mirrored)
    refine ⟨_, State.gate_next (State.up_of_peerOn on) ((State.sideWakeAck_on on).trans back) frame.pending_eq, ?_, state, up, at_⟩
    rw [State.is_peerEnter {} (by decide)]
    exact State.is_flag _ (by decide) (by decide)

end Sys2Proof.Machine
end

section
/-!
Losses of the peer's paths, arbitration and writes without the peer (17_peer_and_takeover.md R641, R647, R651, R654 to R658), and the
statement about them.
-/

namespace Sys2Proof.Machine

-- Proofs in sequence: the stack of every thread that waits counts against the memory limit of the check.
set_option Elab.async false

variable {s : State}

/-- Steps that leave a state leave it together. -/
theorem State.each_fixed {α : Type} {f : State → α → State} (l : List α) (h : ∀ a, f s a = s) : s.each l f = s := by
  induction l with
  | nil => rfl
  | cons a l ih =>
    rw [State.each, List.foldl_cons, h]
    exact ih

/-! ### Losses (R641, Table 17-4) -/

/-- The link is lost. -/
def State.linkGone (s : State) : State := (s.onPeer fun p => { p with linkLost := true }).flag F.PEER_STATUS_LINK_LOST

/-- The sideband is lost. -/
def State.sideGone (s : State) : State := (s.onPeer fun p => { p with sideLost := true }).flag F.PEER_STATUS_SIDEBAND_LOST

theorem State.linkGone_frame (s : State) : Frame [.peer, .regs] s s.linkGone := (s.onPeer_frame _).append (State.flag_frame _ _)

theorem State.sideGone_frame (s : State) : Frame [.peer, .regs] s s.sideGone := (s.onPeer_frame _).append (State.flag_frame _ _)

theorem lostSince_some (t now : Nat) : lostSince (some t) now = decide (t + 20000000 ≤ now) := rfl

theorem State.linkLoss_early {t0 : Nat} (h : s.peer.linkAt = some t0) (early : s.now < t0 + 20000000) : s.linkLoss = s :=
  if_neg fun ⟨_, _, _, due⟩ => by
    rw [h, lostSince_some] at due
    exact absurd (of_decide_eq_true due) (by omega)

theorem State.linkLoss_due {t0 : Nat} (on : s.peerOn = true) (awake : s.asleep = false) (up : s.peer.linkLost = false)
    (h : s.peer.linkAt = some t0) (due : t0 + 20000000 ≤ s.now) : s.linkLoss = s.linkGone.lossState :=
  if_pos ⟨on, by simp [awake], by simp [up], by rw [h]; exact decide_eq_true due⟩

theorem State.sideLoss_early {t0 : Nat} (h : s.peer.sideAt = some t0) (early : s.now < t0 + 20000000) : s.sideLoss = s :=
  if_neg fun ⟨_, _, due⟩ => by
    rw [h, lostSince_some] at due
    exact absurd (of_decide_eq_true due) (by omega)

theorem State.sideLoss_due {t0 : Nat} (on : s.peerOn = true) (awake : s.asleep = false) (up : s.peer.sideLost = false)
    (h : s.peer.sideAt = some t0) (due : t0 + 20000000 ≤ s.now) : s.sideLoss = s.sideGone.lossState := by
  have still : s.sideGone.asleep = false := (State.asleep_congr s.sideGone_frame.pwr_eq).trans awake
  refine (if_pos ⟨on, by simp [up], by rw [h]; exact decide_eq_true due⟩).trans ?_
  exact if_neg (by rw [Bool.not_eq_true]; exact still)

theorem State.lossState_solo (h : s.peer.state = .solo) : s.lossState = s := by
  unfold State.lossState
  rw [h]

/-- One path of a side in MIRRORED is lost. -/
theorem State.lossState_one (h : s.peer.state = .mirrored) (none : s.peer.giving = none)
    (one : (s.peer.linkLost && s.peer.sideLost) = false) :
    s.lossState = s.peerEnter (if s.peer.linkLost then .linkLost else .sidebandLost) := by
  unfold State.lossState
  rw [h]
  dsimp only
  rw [if_neg (by rw [one]; decide)]
  by_cases link : s.peer.linkLost = true
  · rw [if_pos link, if_pos link]
    exact State.peerGo_quiet (.inr none) (by decide)
  · rw [if_neg link, if_neg link]
    exact State.peerGo_quiet (.inr none) (by decide)

/-! ### Arbitration (R656 to R658) -/

section
variable {t0 : Nat} {left held : List Nat} {cur : Option Nat}

/-- The bays of the arbitration that this side did not win. -/
def State.unwon (s : State) (held : List Nat) : List Nat := (s.arbOrder s.peer.arbSet).filter fun b => !held.contains b

/-- The arbitration is won. -/
def State.arbWon (s : State) (n : Nat) : State :=
  s.onPeer fun p => { p with arb := none, arbResult := (s.peer.arbResult.1, n, 2), won := true }

/-- The reservations of the other bays are to be taken. -/
def State.winning (s : State) (bays : List Nat) : State :=
  s.onPeer fun p => { p with takes := bays.flatMap fun b => [(b, 1), (b, 3)], takeBusy := false, takeStep := .winning }

/-- The arbitration is lost: commands that were held are given up. -/
def State.arbLost (s : State) (n : Nat) : State :=
  ((s.onPeer fun p => { p with arb := none, arbResult := (s.peer.arbResult.1, n, 3), held := [] }).onDrv fun d =>
    { d with cmds := d.cmds.filter fun c => !s.peer.held.contains c.name }).flag F.PEER_STATUS_ARB_LOST

variable (state : s.peer.state = .arbitrating) (arb : s.peer.arb = some (t0, left, cur, held))
include state arb

theorem State.arbDecide_early (more : left ≠ [] ∨ cur.isSome = true) (early : s.now < t0 + 2000000000) : s.arbDecide = s := by
  unfold State.arbDecide
  rw [state, arb]
  refine if_neg ?_
  rintro (⟨done, none⟩ | due)
  · rcases more with more | more
    · exact more done
    · simp [none] at more
  · omega

theorem State.arbDecide_lost (due : t0 + 2000000000 ≤ s.now)
    (few : 2 * held.length < s.peer.arbResult.1 ∨ (2 * held.length = s.peer.arbResult.1 ∧ s.side ≠ 0)) :
    s.arbDecide = (s.arbLost held.length).fenceSide true := by
  unfold State.arbDecide
  rw [state, arb]
  exact (if_pos (.inr due)).trans (if_neg (by omega))

theorem State.arbDecide_won (due : t0 + 2000000000 ≤ s.now)
    (most : s.peer.arbResult.1 < 2 * held.length ∨ (2 * held.length = s.peer.arbResult.1 ∧ s.side = 0)) :
    s.arbDecide = (((s.arbWon held.length).peerGo .solo).winning (s.unwon held)).takeGo := by
  unfold State.arbDecide
  rw [state, arb]
  exact (if_pos (.inr due)).trans (if_pos most)

end

/-- A change to SOLO with no write under way. -/
theorem State.peerGo_solo (h : s.peer.state ≠ .mirrored) (none : s.str.live = []) : s.peerGo .solo = s.peerEnter .solo := by
  have stays : s.when (decide (s.peer.state = .mirrored) && decide (PeerState.solo ≠ .mirrored)) State.handoverAbort = s :=
      if_neg (by simp [h])
  have live : (s.peerEnter .solo).str.live = [] := by rw [(s.peerEnter_frame .solo).str_eq, none]
  have go : s.peerGo .solo = (s.peerEnter .solo).each (s.peerEnter .solo).str.live fun s w => s.when (s.durable w) fun s => s.writeMet w :=
    congrArg (fun u : State => (u.peerEnter .solo).each (u.peerEnter .solo).str.live fun s w => s.when (s.durable w)
        fun s => s.writeMet w) stays
  rw [go, live]
  rfl

theorem State.takeStart_none (h : s.peer.takes = []) : s.takeStart = s := by
  unfold State.takeStart
  rw [h]
  cases s.peer.takeBusy <;> rfl

/-- The commands of a won arbitration are done: what was held goes out again. -/
def State.winDone (s : State) : State := (s.onPeer fun p => { p with held := [], takeStep := .idle }).each (List.range 24) fun s b =>
    s.issueAll b

theorem State.winDone_frame (s : State) : Frame [.peer, .drv] s s.winDone :=
  (s.onPeer_frame _).append (Frame.each (fun s b => s.issueAll_frame b) _ _)

theorem State.peer_winDone (s : State) : s.winDone.peer = { s.peer with held := [], takeStep := .idle } := by
  have issued : Frame [.drv] _ s.winDone := Frame.each (fun s b => s.issueAll_frame b) _ _
  rw [issued.peer_eq]
  rfl

theorem State.takeGo_done (none : s.peer.takes = []) (step : s.peer.takeStep = .winning) (off : s.is F.PEER_CTRL_AUTO_TAKEOVER = false) :
    s.takeGo = s.winDone := by
  have first : (s.each (List.range 48) fun s _ => s.takeStart) = s := State.each_fixed _ fun _ => State.takeStart_none none
  have still : s.winDone.is F.PEER_CTRL_AUTO_TAKEOVER = false := (State.is_congr s.winDone_frame.regs_eq _).trans off
  have ends : s.winEnd = s.winDone := if_neg fun ⟨auto, _⟩ => by
    rw [State.winDone] at still
    rw [still] at auto
    exact Bool.false_ne_true auto
  have empty : s.winDone.peer.takes = [] := by rw [s.peer_winDone]; exact none
  unfold State.takeGo
  rw [first]
  dsimp only
  rw [if_pos ⟨none, step⟩, ends]
  exact State.each_fixed _ fun _ => State.takeStart_none empty

/-- The winner of an arbitration as it enters SOLO. -/
def State.soloWon (s : State) (n : Nat) : State := ((s.arbWon n).peerEnter .solo).winning []

theorem State.soloWon_frame (s : State) (n : Nat) : Frame [.peer, .regs, .wdn, .mgt] s (s.soloWon n) :=
  (((s.onPeer_frame _).append (State.peerEnter_frame (s.arbWon n) .solo)).append (State.onPeer_frame _ _)).mono (by decide)

section
variable {n : Nat} (here : s.peer.state = .arbitrating)
include here

theorem State.peer_soloWon : (s.soloWon n).peer =
    { (s.arbWon n).peer.entered .solo s.now with takes := [], takeBusy := false, takeStep := .winning } := by
  have entered : ((s.arbWon n).peerEnter .solo).peer = (s.arbWon n).peer.entered .solo s.now := State.peer_peerEnter (by
    rw [State.arbWon, State.onPeer_peer, here]
    decide)
  rw [State.soloWon, State.winning, State.onPeer_peer, entered]
  rfl

theorem State.is_soloWon : (s.soloWon n).is F.PEER_STATUS_ARB_WON = true := by
  have old : (s.arbWon n).peer.state = .arbitrating := here
  have regs : (s.soloWon n).regs = ((s.arbWon n).peerEnter .solo).regs := (State.onPeer_frame _ _).regs_eq
  rw [State.is_congr regs]
  exact State.is_peerEnter_self (by rw [old]; decide) (by rw [old]; rfl) {}

end

/-- A won arbitration of a side that has nothing more to take. -/
theorem State.arbDecide_soloWon {t0 : Nat} {left held : List Nat} {cur : Option Nat} (state : s.peer.state = .arbitrating)
    (arb : s.peer.arb = some (t0, left, cur, held)) (due : t0 + 2000000000 ≤ s.now)
    (most : s.peer.arbResult.1 < 2 * held.length ∨ (2 * held.length = s.peer.arbResult.1 ∧ s.side = 0)) (live : s.str.live = [])
    (none : s.unwon held = []) (off : s.is F.PEER_CTRL_AUTO_TAKEOVER = false) :
    s.arbDecide = (s.soloWon held.length).winDone ∧ (s.soloWon held.length).winDone.peer.state = .solo ∧
      (s.soloWon held.length).winDone.peer.won = true ∧
      (s.soloWon held.length).winDone.peer.arbResult = (s.peer.arbResult.1, held.length, 2) ∧
      (s.soloWon held.length).winDone.peer.takeStep = .idle ∧ (s.soloWon held.length).winDone.is F.PEER_STATUS_ARB_WON = true := by
  have here : (s.arbWon held.length).peer.state = .arbitrating := state
  have solo : (s.arbWon held.length).peerGo .solo = (s.arbWon held.length).peerEnter .solo := State.peerGo_solo (by rw [here]; decide) live
  have peer := State.peer_soloWon (n := held.length) state
  have auto : (s.soloWon held.length).is F.PEER_CTRL_AUTO_TAKEOVER = false :=
    (State.is_peerEnter {} (by decide) (s.arbWon held.length) .solo).trans off
  have wins := State.arbDecide_won state arb due most
  rw [solo, none, ← State.soloWon, State.takeGo_done (by rw [peer]) (by rw [peer]) auto] at wins
  refine ⟨wins, ?_, ?_, ?_, ?_, ?_⟩
  · rw [State.peer_winDone, peer, Peer.entered]
  · rw [State.peer_winDone, peer]
    rfl
  · rw [State.peer_winDone, peer]
    rfl
  · rw [State.peer_winDone]
  · rw [State.is_congr (State.winDone_frame _).regs_eq]
    exact State.is_soloWon state

/-- Whether a drive command writes for a stripe. -/
def DriveCmd.destages (c : DriveCmd) : Bool := match c.use with | .destage _ _ _ => true | _ => false

/-- A side that has no command is fenced. -/
theorem State.fenceSide_idle (h : s.peer.state ≠ .mirrored) (none : s.cq.slots = []) (by_ : Bool) : s.fenceSide by_ =
    ((s.onPeer fun p => { p with byArbitration := by_ }).peerEnter .fenced).onDrv fun d =>
        { d with cmds := d.cmds.filter fun c => !c.destages } := by
  have stays : s.when (decide (s.peer.state = .mirrored)) State.handoverAbort = s := if_neg (by simp [h])
  have slots : ((s.onPeer fun p => { p with byArbitration := by_ }).peerEnter .fenced).cq.slots = [] := by
    rw [((s.onPeer_frame _).append (State.peerEnter_frame _ _)).cq_eq, none]
  unfold State.fenceSide
  dsimp only
  rw [stays, slots]
  rfl

/-- The loser of an arbitration as it is fenced. -/
def State.lostFenced (s : State) (n : Nat) : State := ((s.arbLost n).onPeer fun p => { p with byArbitration := true }).peerEnter .fenced

theorem State.lostFenced_frame (s : State) (n : Nat) : Frame [.peer, .drv, .regs, .wdn, .mgt] s (s.lostFenced n) := by
  have lost : Frame [.peer, .drv, .regs] s (s.arbLost n) := ((s.onPeer_frame _).append (State.onDrv_frame _ _)).append
      (State.flag_frame _ _)
  exact ((lost.append (State.onPeer_frame _ _)).append (State.peerEnter_frame _ _)).mono (by decide)

theorem State.lostFenced_told {n : Nat} (here : s.peer.state = .arbitrating) : (s.lostFenced n).peer.state = .fenced ∧
    (s.lostFenced n).peer.byArbitration = true ∧ (s.lostFenced n).peer.arbResult = (s.peer.arbResult.1, n, 3) ∧
    (s.lostFenced n).is F.PEER_STATUS_ARB_LOST = true ∧ (s.lostFenced n).is F.PEER_STATUS_FENCED = true := by
  let v := (s.arbLost n).onPeer fun p => { p with byArbitration := true }
  have old : v.peer.state = .arbitrating := here
  have new : v.peer.state ≠ .fenced := by rw [old]; decide
  have peer : (s.lostFenced n).peer = v.peer.entered .fenced v.now := State.peer_peerEnter new
  refine ⟨State.state_peerEnter v _, by rw [peer]; rfl, by rw [peer]; rfl, ?_, ?_⟩
  · exact State.is_peerEnter_kept (s := v) {} rfl (State.is_flag _ (by decide) (by decide))
  · exact State.is_peerEnter_self new (by rw [old]; rfl) {}

/-- A lost arbitration of a side that has no command. -/
theorem State.arbDecide_fenced {t0 : Nat} {left held : List Nat} {cur : Option Nat} (state : s.peer.state = .arbitrating)
    (arb : s.peer.arb = some (t0, left, cur, held)) (due : t0 + 2000000000 ≤ s.now)
    (few : 2 * held.length < s.peer.arbResult.1 ∨ (2 * held.length = s.peer.arbResult.1 ∧ s.side ≠ 0)) (none : s.cq.slots = []) :
    ∃ t, s.arbDecide = t ∧ t.pending = s.pending ∧ t.peer.state = .fenced ∧ t.peer.byArbitration = true ∧
      t.peer.arbResult = (s.peer.arbResult.1, held.length, 3) ∧ t.is F.PEER_STATUS_ARB_LOST = true ∧ t.is F.PEER_STATUS_FENCED = true := by
  have old : (s.arbLost held.length).peer.state = .arbitrating := state
  have fenced := (State.arbDecide_lost state arb due few).trans (State.fenceSide_idle (s := s.arbLost held.length) (by rw [old]; decide)
      none true)
  obtain ⟨state, by_, result, lost, flag⟩ := State.lostFenced_told (n := held.length) state
  have drv := (s.lostFenced held.length).onDrv_frame fun d => { d with cmds := d.cmds.filter fun c => !c.destages }
  refine ⟨_, fenced, drv.pending_eq.trans (s.lostFenced_frame _).pending_eq, ?_, ?_, ?_, ?_, ?_⟩
  · rw [State.onDrv_peer]
    exact state
  · rw [State.onDrv_peer]
    exact by_
  · rw [State.onDrv_peer]
    exact result
  · exact (State.is_congr drv.regs_eq _).trans lost
  · exact (State.is_congr drv.regs_eq _).trans flag

/-! ### Writes without the peer (R647, R651) -/

theorem State.mirrorExpiry_early (h : s.peer.state = .mirrored ∨ s.peer.linkLost = false) : s.mirrorExpiry = s := by
  refine if_neg fun ⟨left, lost, _⟩ => ?_
  rcases h with h | h
  · exact left h
  · simp [h] at lost

theorem State.mirrorExpiry_due {t0 : Nat} (left : s.peer.state ≠ .mirrored) (lost : s.peer.linkLost = true) (h : s.peer.linkAt = some t0)
    (due : t0 + 40000000 ≤ s.now) :
    s.mirrorExpiry = s.onStr fun x => { x with live := x.live.map fun w => { w with mirrorWait := false } } := by
  unfold State.mirrorExpiry
  rw [h]
  exact if_pos ⟨left, lost, decide_eq_true due⟩

theorem State.mirrorFail_first {n : Nat} {w : StripeWrite} (h : s.live? n = some w) (waits : w.mirrorWait = true)
    (first : s.peer.retriedMirror.contains n = false) : s.mirrorFail n =
      ((s.onPeer fun p => { p with retriedMirror := p.retriedMirror ++ [n] }).mirrorWrite w).joinedNow := by
  unfold State.mirrorFail
  rw [h]
  exact (if_neg (by simp [waits])).trans (if_neg (by rw [first]; decide))

/-- A live write whose mirror copy is given up. -/
def StripeWrite.unmirrored (w : StripeWrite) : StripeWrite := { w with mirrorWait := false }

theorem State.live?_name {n : Nat} {w : StripeWrite} (h : s.live? n = some w) : w.name = n := by
  simpa using List.find?_some h

theorem State.live?_modLive_self {n : Nat} {w : StripeWrite} {f : StripeWrite → StripeWrite} (hf : ∀ w, (f w).name = w.name)
    (h : s.live? n = some w) : (s.modLive n f).live? n = some (f w) := by
  have name := State.live?_name h
  unfold State.live? at h
  unfold State.live? State.modLive
  rw [State.onStr_str, List.find?_map]
  have same : ((fun w : StripeWrite => w.name == n) ∘ fun w => if w.name = n then f w else w) = fun w => w.name == n := by
    funext w
    by_cases hw : w.name = n <;> simp [hw, hf]
  rw [same, h, Option.map_some, if_pos name]

theorem State.mirrorLost_told {n : Nat} {w : StripeWrite} (h : s.live? n = some w) : Frame [.str, .peer, .regs] s (s.mirrorLost w) ∧
    (s.mirrorLost w).live? n = some w.unmirrored ∧ (s.mirrorLost w).peer.state = s.peer.state ∧
    (s.mirrorLost w).is F.PEER_STATUS_MIRROR_FAIL = true ∧
    (s.mirrorLost w).pair A.PEER_MIRROR_FAIL = (s.pair A.PEER_MIRROR_FAIL + 1) % 2 ^ 64 := by
  obtain rfl := State.live?_name h
  let u := (s.modLive w.name StripeWrite.unmirrored).onPeer fun p => { p with
    copying := p.copying.filter fun m => m != w.name, creditWait := p.creditWait.filter fun m => m != w.name }
  have before : Frame [.str, .peer] s u := (s.onStr_frame _).append (State.onPeer_frame _ _)
  have lost : s.mirrorLost w = (u.bump A.PEER_MIRROR_FAIL).flag F.PEER_STATUS_MIRROR_FAIL := rfl
  have counted := (u.bump_frame A.PEER_MIRROR_FAIL 1).trans (State.flag_frame _ F.PEER_STATUS_MIRROR_FAIL)
  rw [lost]
  refine ⟨before.append counted, ?_, ?_, State.is_flag _ (by decide) (by decide), ?_⟩
  · rw [State.live?, counted.str_eq]
    exact State.live?_modLive_self (f := StripeWrite.unmirrored) (fun _ => rfl) h
  · rw [counted.peer_eq]
    rfl
  · rw [State.pair_flag_ne (by decide) (by decide), State.pair_bump_self, State.pair_congr before.regs_eq]

theorem State.mirrorFail_again {n : Nat} {w : StripeWrite} (h : s.live? n = some w) (waits : w.mirrorWait = true)
    (again : s.peer.retriedMirror.contains n = true) (here : s.peer.state ≠ .joining) : s.mirrorFail n = s.mirrorLost w := by
  obtain ⟨-, -, state, -, -⟩ := State.mirrorLost_told h
  have stays : (s.mirrorLost w).joinedNow = s.mirrorLost w := if_neg fun ⟨joining, _⟩ => here (state.symm.trans joining)
  unfold State.mirrorFail
  rw [h]
  exact ((if_neg (by simp [waits])).trans (if_pos again)).trans stays

/-! ### The statement -/

/-- Settles O45: each loss by its effect on a side in SOLO or MIRRORED, the arbitration by the bays held, and the writes by what waits. -/
theorem lossesAndArbitration : Obligations.LossesAndArbitration := by
  unfold Obligations.LossesAndArbitration
  refine ⟨fun t0 s on => ⟨fun awake up at_ => ⟨fun early => ?early, fun due => ⟨fun solo => ?solo, fun mirrored other none => ?link⟩⟩,
      fun awake up at_ => ⟨fun early => ?earlySide, fun due mirrored other none => ?side⟩⟩,
    fun t0 left held cur s awake state arb => ⟨fun more early => ?undecided, fun due few none => ?lost,
        fun due most live cmds rest off => ?won⟩,
    fun s awake => ⟨fun idle => State.awake_next awake (State.mirrorExpiry_early idle) rfl,
      fun t0 left lost at_ due => State.awake_next awake (State.mirrorExpiry_due left lost at_ due) rfl⟩,
    fun n w s awake h waits => ⟨fun first => ?first, fun again here => ?again⟩⟩
  case early =>
    have gate : (s.peerOn && !s.asleep) = true := by simp [on, awake]
    exact State.gate_next (f := State.linkLoss) gate (State.linkLoss_early at_ early) rfl
  case solo =>
    have gate : (s.peerOn && !s.asleep) = true := by simp [on, awake]
    have gone := (State.linkLoss_due on awake up at_ due).trans (State.lossState_solo (s := s.linkGone) solo)
    exact ⟨_, State.gate_next (f := State.linkLoss) gate gone s.linkGone_frame.pending_eq, s.linkGone_frame.eq_take,
      State.is_flag _ (by decide) (by decide)⟩
  case link =>
    have gate : (s.peerOn && !s.asleep) = true := by simp [on, awake]
    have enters : s.linkGone.lossState = s.linkGone.peerEnter .linkLost := State.lossState_one (s := s.linkGone) mirrored none other
    have frame := (s.linkGone_frame.append (s.linkGone.peerEnter_frame .linkLost)).mono
      (l := [.peer, .regs, .peer, .regs, .wdn, .mgt]) (k := [.peer, .regs, .wdn, .mgt]) (by decide)
    have peer := State.peer_peerEnter (s := s.linkGone) (st := .linkLost) (by
      show s.peer.state ≠ _
      rw [mirrored]
      decide)
    exact ⟨_, State.gate_next (f := State.linkLoss) gate ((State.linkLoss_due on awake up at_ due).trans enters) frame.pending_eq, peer,
      State.is_peerEnter_kept {} rfl (State.is_flag _ (by decide) (by decide)), frame.eq_take⟩
  case earlySide => exact State.gate_next (f := State.sideLoss) (State.up_of_peerOn on) (State.sideLoss_early at_ early) rfl
  case side =>
    have enters : s.sideGone.lossState = s.sideGone.peerEnter .sidebandLost := by
      have link : s.sideGone.peer.linkLost = false := other
      rw [State.lossState_one (s := s.sideGone) mirrored none (by rw [link]; rfl), if_neg (by rw [link]; decide)]
    have frame := (s.sideGone_frame.append (s.sideGone.peerEnter_frame .sidebandLost)).mono
      (l := [.peer, .regs, .peer, .regs, .wdn, .mgt]) (k := [.peer, .regs, .wdn, .mgt]) (by decide)
    have peer := State.peer_peerEnter (s := s.sideGone) (st := .sidebandLost) (by
      show s.peer.state ≠ _
      rw [mirrored]
      decide)
    exact ⟨_, State.gate_next (f := State.sideLoss) (State.up_of_peerOn on) ((State.sideLoss_due on awake up at_ due).trans enters)
      frame.pending_eq, peer, State.is_peerEnter_kept {} rfl (State.is_flag _ (by decide) (by decide)), frame.eq_take⟩
  case undecided => exact State.awake_next awake (State.arbDecide_early state arb more early) rfl
  case lost =>
    obtain ⟨t, decides, kept, told⟩ := State.arbDecide_fenced state arb due few none
    exact ⟨t, State.awake_next awake decides kept, told⟩
  case won =>
    obtain ⟨decides, state, won, result, step, bit⟩ := State.arbDecide_soloWon state arb due most live rest off
    exact ⟨_, State.awake_next awake decides ((s.soloWon_frame _).append (State.winDone_frame _)).pending_eq, state, won, result, step, bit⟩
  case first => exact State.awake_eq awake (State.mirrorFail_first h waits first)
  case again =>
    obtain ⟨frame, there, -, flag, counted⟩ := State.mirrorLost_told h
    exact ⟨_, w.unmirrored, State.awake_next awake (State.mirrorFail_again h waits again here) frame.pending_eq, frame.eq_take, there,
        rfl, rfl,
      flag, counted⟩

end Sys2Proof.Machine
end

section
/-!
The statement about handovers and takeovers (17_peer_and_takeover.md R642, R652, R653, R660 to R665).
-/

namespace Sys2Proof.Machine

-- Proofs in sequence: the stack of every thread that waits counts against the memory limit of the check.
set_option Elab.async false

/-- A handover of no group and no command, past its checkpoint. -/
def emptyHandover : HandoverRun := ⟨0, true, false, []⟩

/-- A running part that gives this handover, with no checkpoint under way and one more asked for. -/
def furtherCheckpoint : State := { State.reset with
  glb := { State.reset.glb with phase := .running }
  str := { State.reset.str with ckptDue := true }
  peer := { State.reset.peer with giving := some emptyHandover } }

/-- The offer waits while a further checkpoint is asked for. -/
theorem State.handoverQuiesced_due {s : State} {h : HandoverRun} (gives : s.peer.giving = some h) (ckpt : h.ckpt = true)
    (due : s.str.ckptDue = true) : s.handoverQuiesced = s := by
  unfold State.handoverQuiesced
  rw [gives]
  dsimp only
  split
  · rfl
  · rw [if_neg (by simp [ckpt]), if_pos (by simp [due])]

/-- Refutes O46 by its clause on the offer of HANDOVER_QUIESCED, whose premises leave STR's request for a further checkpoint open: with one
asked for and none under way, as in `furtherCheckpoint`, the row waits for it and sends no HANDOVER_OFFER, where the statement has a frame
more in the queue of frames not acknowledged. -/
theorem not_handoverAndTakeover : ¬ Obligations.HandoverAndTakeover := by
  unfold Obligations.HandoverAndTakeover
  rintro ⟨-, quiesced, -⟩
  obtain ⟨t, f, row, offers, -, -⟩ := (quiesced emptyHandover furtherCheckpoint rfl rfl rfl rfl rfl rfl rfl).2 rfl
  have waits : exec .handoverQuiesced furtherCheckpoint = .next furtherCheckpoint :=
    State.awake_next rfl (State.handoverQuiesced_due rfl rfl rfl) rfl
  have same : t = furtherCheckpoint := Host.Outcome.next.inj (row.symm.trans waits)
  have sent : t.peer.unacked = furtherCheckpoint.peer.unacked ++ [f] := by rw [offers]
  rw [same] at sent
  exact List.cons_ne_nil _ _ sent.symm

end Sys2Proof.Machine
end

section
/-!
The statement about power modes (18_power_modes_and_islands.md R673 to R684).
-/

namespace Sys2Proof.Machine

-- Proofs in sequence: the stack of every thread that waits counts against the memory limit of the check.
set_option Elab.async false

/-- The end of a sleep in Doze: the Larder's region at the front of the Cellar, its line 0 VALID in the directory, which is not
retained, and the serial 1 in the line's catalogue entry. -/
def wakingWithLarder : State := (({ State.reset with
  glb := { State.reset.glb with phase := .running }
  pwr := { State.reset.pwr with cur := .doze, phase := .exiting }
  hst := { State.reset.hst with mem := [(8, 1)] }
  rsv := { State.reset.rsv with dir := [(0, putPart 0 Dir.volState (4096 * 2))] }
  now := exitTime .doze } : State).setFld (F.HST_REGION_KIND 0) 5).setFld (F.HST_REGION_COUNT 0) 1

/-- The exit zeroes the directory line by line, and a line that leaves VALID writes its catalogue entry in the Cellar. -/
theorem wakingWithLarder_exitDone_mem :
    (wakingWithLarder.exitDone [] []).hst.mem ≠ wakingWithLarder.hst.mem := by
  decide +kernel

theorem wakingWithLarder_exitDone_pending : (wakingWithLarder.exitDone [] []).pending = wakingWithLarder.pending := by
  decide +kernel

/-- Refutes O47 by its clause on EXIT_DONE with no bank lost, which has the Cellar unchanged: a Larder directory that is not retained is
zeroed at the exit, and with it the catalogue entries of its lines in the Cellar, as in `wakingWithLarder`. -/
theorem not_powerModes : ¬ Obligations.PowerModes := by
  unfold Obligations.PowerModes
  rintro ⟨-, -, -, -, -, exits, -⟩
  have up : wakingWithLarder.up = true := by decide +kernel
  have time : wakingWithLarder.pwr.since + exitTime wakingWithLarder.pwr.cur ≤ wakingWithLarder.now := by decide +kernel
  obtain ⟨t, row, -, -, -, -, -, -, -, -, kept⟩ := (exits [] [] wakingWithLarder up (by decide +kernel)).2.1 time
    rfl (by decide +kernel) (by decide +kernel) (by decide +kernel) (by decide +kernel)
  have wakes : exec (.exitDone [] []) wakingWithLarder = .next (wakingWithLarder.exitDone [] []) :=
    State.gate_next (f := fun s => s.exitDone [] []) up rfl wakingWithLarder_exitDone_pending
  have same : t = wakingWithLarder.exitDone [] [] := Host.Outcome.next.inj (row.symm.trans wakes)
  exact wakingWithLarder_exitDone_mem (same ▸ kept)

end Sys2Proof.Machine
end
